-- ==== Sys2Proof/Word.lean ====
section
/-! DEFINITION. The word types of the drive: bytes, 32-bit register words (R10), 64-bit quantities, and
the little-endian byte order of the drive's own formats (R15). -/

namespace Sys2Proof

/-- One byte. -/
abbrev Byte := BitVec 8

/-- A string of bytes: a key, a value, a message, a record. -/
abbrev Bytes := List Byte

/-- A register word (R10). -/
abbrev W32 := BitVec 32

/-- A 64-bit word: a key hash, a locator, a 64-bit record field. -/
abbrev W64 := BitVec 64

end Sys2Proof
end

