-- ==== Sys2Proof/Syntax.lean ====
section
/-! DEFINITION. The commands of the drive: one constructor of `Instr` for each row of
spec/opcode_table.json, with the row's operands. An operand carries what comes from outside the block
(a descriptor's bytes, a message, a pin) or what the physics inside it decides (whether a codeword
decoded, whether two GCM cores agreed). -/

namespace Sys2Proof

/-- The four links of the two ports (R89). -/
inductive Link where
  | a0 | a1 | b0 | b1
deriving DecidableEq, Repr

/-- The two network ports, and the cages that carry them (R89). -/
inductive Port where
  | a | b
deriving DecidableEq, Repr

/-- The two kinds of core that reach the register space (R445, R447, R448). -/
inductive CoreId where
  | service
  | app (n : Nat)
deriving DecidableEq, Repr

/-- The blocks that an engine block reset can reset (R191). -/
inductive EngBlock where
  | qpm | sch | idx | mch | val | cip | ldg | ftl | peer | eng
  | md (n : Nat)
  | fch (n : Nat)
deriving DecidableEq, Repr

/-- A directive's place on its engine ring: the tag of its entry and the result address (R455). -/
structure Dir where
  etag : Nat
  resAddr : Nat
deriving DecidableEq, Repr

/-- Where an admin operation comes from: the command of an admin queue pair, the Willadra service on
the management port, or an entry of ring 9 (or 8) with the requester that the service cores name
(R168, R550, chapter 19). -/
inductive AdminVia where
  | qp (cmd : Nat)
  | mgmt
  | ring (requester : Nat) (d : Dir)
deriving DecidableEq, Repr

/-- Where an owner directive comes from (R570). -/
inductive OwnerVia where
  | ring (d : Dir)
  | mgmt
deriving DecidableEq, Repr

/-- A CM REQ as it arrives: the link, the 92 bytes of private data (R94), the CM path MTU and the
client's queue-pair number. -/
structure ReqMsg where
  link : Link
  raw : Bytes
  pathMtu : Nat
  clientQpn : Nat
deriving DecidableEq, Repr

/-- A peer CM REP as it arrives: the responder's context, QGEN, DRIVE_NONCE, DRIVE_UID and
RESP_PROOF (R95, R421). -/
structure PeerRep where
  remoteQpn : Nat
  driveNonce : Bytes
  driveUid : Bytes
  respProof : Bytes
deriving DecidableEq, Repr

/-- A peer message (R423): its fields, and what the receiver fetched from the sender's buffer by RDMA READ. -/
structure PeerMsg where
  ctx : Nat
  hop : Nat
  depth : Nat
  template : Nat
  srcPeer : Nat
  policyBest : Bool
  sealed : Bool
  path : List Nat
  version : Nat
  keyHash : W64
  wop : Nat
  variant : Nat
  ownerTenant : Nat
  store : Nat
  status : Nat
  copies : Nat
  offset : Nat
  length : Nat
  segIndex : Nat
  msgSeq : Nat
  priorVersion : Nat
  /-- KEY_LEN as the message carries it (R431 checks it). -/
  keyLen : Nat
  /-- BUF_ADDR and BUF_RKEY: the sender's buffer. -/
  bufAddr : Nat
  bufRkey : Nat
  /-- MSG_CRC as the message carries it. -/
  crc : W32
  /-- The service class whose DSCP the message arrived with, or none (R431). -/
  cls : Option Nat
  key : Bytes
  /-- The 32-byte transit header of each piece of the data (R424). -/
  headers : List Bytes
  /-- The data pieces as they lie in the sender's buffer, without their headers: sealed ones as ciphertext. -/
  data : Bytes
deriving DecidableEq, Repr

/-- One event of a source, with the payload bytes its table lists (R524, R605). -/
structure Ev where
  src : Nat
  payload : Bytes
deriving DecidableEq, Repr

/-- The outcome of a die read for one codeword (R361): corrected by the hard decode with so many bit
errors, corrected by soft decode, or uncorrectable. -/
inductive Decode1 where
  | hard (bitErrors : Nat)
  | soft
  | uncorrectable
deriving DecidableEq, Repr

/-- What makes no progress for HANG_MS (R518): an operation of a block, or a credit pool by its queue, class and
channel. -/
inductive Hang where
  | block (b : EngBlock)
  | pool (queue cls channel : Nat)
deriving DecidableEq, Repr

/-- What an uncorrectable or corrected ECC error of a key slot hit (R323). -/
inductive EccHit where
  | corrected
  | uncorrectable
  | retired (gen : Nat)
deriving DecidableEq, Repr

/-- What `REPAIR`'s second copy was (R287, R288). -/
inductive RepairCopy where
  /-- the stored form from parity or Ledger copy B: the stored segment's bytes -/
  | stored (raw : Bytes) (passes : Bool)
  /-- no source passed its checks -/
  | noCopy
deriving DecidableEq, Repr

/-- The power-up conditions that a start reads (R478, R479, R589, R512, R573). -/
structure StartIn where
  slotId : Nat
  coldPlate : Int
  /-- the digest of each region of R476, 0 to 4, equals the recorded one (R480) -/
  regionOk : List Bool
  /-- image banks whose set passes R572 in step 4 -/
  bankOk : List Bool
  /-- tenant slot records whose REC_CRC or unwrap fails (R306) -/
  badSlots : List Nat
  /-- objects of R484 of which both copies failed: the object, numbered in the order of its table (0 version ceiling,
  1 QGEN line, 2 reset record, 3 superblock table line, 4 piece-directory entry or map piece, 5 journal line, 6 slot record,
  7 usage checkpoint, 8 leaf index), and which one: the context, the superblock, the JSEQ or the slot -/
  lostObjects : List (Nat × Nat)
deriving DecidableEq, Repr

/-- The target of a Ledger line write: the command and segment it makes durable, if any (R183). -/
structure DurRef where
  cmd : Nat
  seg : Nat
deriving DecidableEq, Repr

/-- What an index lookup meets as it reads (R216, R227): the buckets whose read met an uncorrectable error; and of one of
its directory reads, by its number, in how many of the record's two sources REC_CRC fails. -/
structure LookupErrors where
  buckets : List Nat
  crcFails : Nat
  crcAt : Nat
deriving DecidableEq, Repr

/-- How RULE_SEARCH goes to the match dies: its mask of banks (R249), and the dies whose MATCH_IN parity failed in successive
issues (R255). -/
structure SearchIssue where
  mask : Nat
  parity : List Nat
deriving DecidableEq, Repr

/-- How far a scan's or count's walk goes in one step: how many key hashes it examines, and the dies whose MATCH_IN parity
failed in successive issues of its first rights check (R255, R258). -/
structure ScanStep where
  keys : Nat
  parity : List Nat
deriving DecidableEq, Repr

/-- The job of a buffer directive: the buffer's bytes, and the lanes on which it ran first and whose cores disagreed, in
order (R296). -/
structure BufferJob where
  data : Bytes
  bad : List Nat
deriving DecidableEq, Repr

/-- Pages of a superblock: its next row, or a row of its next wordline, and the positions whose pages there have
been programmed (R183, R360). -/
structure RowPages where
  row : Nat
  positions : BitVec 16
deriving DecidableEq, Repr

/-- The commands of the drive, one for each row of spec/opcode_table.json. -/
inductive Instr where
  -- client commands at the engines (chapters 4 and 5); `cmd` is the retention entry
  | get (cmd : Nat)
  | put (cmd : Nat)
  | delete (cmd : Nat)
  | writeRange (cmd : Nat)
  | punch (cmd : Nat)
  | head (cmd : Nat)
  | scan (cmd : Nat) (budget : ScanStep)
  | scanNext (cmd : Nat) (budget : ScanStep)
  | count (cmd : Nat) (budget : ScanStep)
  | flush (cmd : Nat)
  | nop (cmd : Nat)
  -- admin operations (chapters 18 and 19)
  | sessionOpen (via : AdminVia) (manifest : Bytes)
  | sessionBlock (via : AdminVia) (offset : Nat) (block : Bytes)
  | sessionActivate (via : AdminVia)
  | sessionCommit (via : AdminVia)
  | sessionClose (via : AdminVia)
  | attest (via : AdminVia) (nonce : Bytes) (length : Nat)
  | identify (via : AdminVia) (length : Nat)
  | recRead (via : AdminVia) (first length : Nat)
  | recClear (d : Dir) (clearTo requester ref : Nat)
  -- client queue pairs (chapter 3)
  | doorbell (ctx arrival : Nat) (aligned : Bool) (raw : Bytes)
  | unsupportedRequest (ctx : Nat)
  | cmReq (req : ReqMsg)
  | cmRtu (ctx : Nat) (proof : Bytes)
  | cmDreq (ctx : Nat)
  | connectingTimeout (ctx : Nat)
  | descriptorFetch
  | descriptorAccept (ctx : Nat) (raw : Bytes)
  | phaseRefetch (ctx : Nat)
  | remoteAccessNak (ctx : Nat)
  | transportRetryExhausted (ctx : Nat)
  | outcomeRecordExpiry (session tag : Nat)
  | completionAcked (cmd : Nat)
  | coalesceTimer (ctx : Nat)
  | cePacketReceived (ctx : Nat)
  | cnpReceived (ctx : Nat)
  | ccTimerExpiry (ctx : Nat)
  | linkDown (l : Link)
  | linkdownTimeout (l : Link)
  | linkUp (l : Link)
  | portRetrainEnd (p : Port)
  | opticsInsert (p : Port) (watts : Nat) (laneMatch cmis : Bool)
  | opticsRailTrip (p : Port)
  -- the engines on a command's path
  | policySearch (cmd : Nat) (parity : List Nat)
  | indexLookup (cmd : Nat) (refreshing0 : Bool) (errs : LookupErrors) (fclk : Nat)
  | valueDataArrival (cmd : Nat) (data : Bytes)
  -- `cmd`: the command whose job it is; none for a verify-only job of upkeep (R313)
  | cipherJobDone (cmd : Option Nat) (lane : Nat) (agree : Bool)
  | commitGate (cmd : Nat)
  | mirrorChangeDone
  | segmentRead (cmd : Nat) (ldpcOk : Bool)
  | readRepair (repair : Nat) (copy : RepairCopy)
  | repairRewrite (repair : Nat)
  | completionWrite (cmd : Nat)
  | scanBatchTimeout (cmd : Nat)
  | scanContextExpiry (index : Nat)
  | halfWithdraw
  | matchStateReloaded (half : Nat)
  | matchScrub (dieMask : Nat)
  | blockResetExit (b : EngBlock)
  -- engine rings: `entries` are the submission entries that the doorbell covers, as they lie in
  -- DRAM group B; `data` of a directive is what its buffer there holds
  | engDoorbell (ring tail : Nat) (entries : List Bytes)
  | engCqHeadWrite (ring headCount : Nat)
  | engRingEnable (ring : Nat)
  | engAttachWrite (code : Nat)
  -- directives
  | unpin (d : Dir) (key : Bytes)
  | pin (d : Dir) (key : Bytes)
  | rebuild (d : Dir)
  | repairPoison (d : Dir)
  | mirrorScrub (d : Dir)
  | ruleWrite (d : Dir) (pos : Nat) (recs : Bytes)
  | ruleInsert (d : Dir) (pos last : Nat) (recs : Bytes)
  | shiftComplete
  | ruleClear (d : Dir) (pos : Nat)
  | ruleSearch (d : Dir) (word : Bytes) (start : Nat) (issue : SearchIssue)
  | ruleRead (d : Dir) (pos : Nat)
  | epochSet (d : Dir) (epoch : Nat)
  | scrubNow (d : Dir) (dieMask : Nat)
  | checkCompute (d : Dir) (addr len algo : Nat) (fold : W64) (data : Bytes)
  | keyGenerate (d : Dir) (slot : Nat)
  | keyImport (d : Dir) (slot : Nat) (wrapped : Bytes)
  | keyRoll (d : Dir) (slot : Nat)
  | keyErase (d : Dir) (slot : Nat)
  | keyQuery (d : Dir) (slot : Nat)
  | bufSeal (d : Dir) (slot : Nat) (aad : Bytes) (addr len : Nat) (job : BufferJob)
  | bufOpen (d : Dir) (sealWord aad tag : Bytes) (addr len : Nat) (job : BufferJob)
  | retiredGenRelease (slot gen : Nat)
  | eraseWaitExpiry (slot : Nat)
  | slotEccError (slot : Nat) (hit : EccHit)
  | reclaimBest (d : Dir) (pool n : Nat)
  | reclaimSb (d : Dir) (sb : Nat)
  | verifyRelease (d : Dir) (n : Nat) (badRows : List (Nat × Nat))
  | refreshDue (d : Dir) (n : Nat)
  | patrol (d : Dir) (n : Nat) (found : List (Nat × Nat × Decode1))
  | wearMove (d : Dir)
  | peerWrite (d : Dir) (entry : Bytes)
  | placeWrite (d : Dir) (first : Nat) (entries : List W64)
  | templateWrite (d : Dir) (number : Nat) (record : Bytes)
  | domainLoad (d : Dir) (domain : Nat) (wrapped : Bytes)
  | resyncRange (d : Dir) (firstKh lastKh : W64)
  | tenantWrite (d : Dir) (record : Bytes)
  | tenantRead (d : Dir) (tenant : Nat)
  | secretLoad (d : Dir) (tenant : Nat) (wrapped : Bytes)
  | secretClear (d : Dir) (tenant : Nat)
  | ownerChallenge (via : OwnerVia) (requester : Nat)
  | ownerAuth (via : OwnerVia) (requester purpose : Nat) (response : Bytes)
  | ownerSet (via : OwnerVia) (key : Bytes) (ref : Nat)
  | ownerLock (via : OwnerVia) (set : Bool) (ref : Nat)
  | ownerErase (via : OwnerVia) (ref : Nat)
  -- peers
  | chainWrite (m : PeerMsg)
  | chainAck (m : PeerMsg)
  | chainRevoke (m : PeerMsg)
  | repairReq (m : PeerMsg)
  | repairResp (m : PeerMsg)
  | keepalive (m : PeerMsg)
  | keepaliveSend (ctx : Nat)
  | peerDead (peer : Nat)
  | peerLinkRequest (peer : Nat) (port : Port)
  | peerCmReq (req : ReqMsg)
  | peerCmRep (ctx : Nat) (rep : PeerRep)
  | peerCmRtu (ctx : Nat) (proof : Bytes)
  | successorAckTimeout (cmd : Nat)
  | headChainTimeout (cmd : Nat)
  | repairTimeout (repair : Nat)
  | dedupeExpiry (keyHash : W64) (version : Nat)
  | revokeHoldExpiry (keyHash : W64) (version : Nat)
  -- the Ledger
  | ledgerLineWrite (line : Nat) (data : Bytes) (failsA failsB : Nat) (ref : Option DurRef)
  | gapMove (group : Nat)
  | ledgerGroupFailed (group : Nat)
  | ledgerDeviceFailed (device : Nat)
  | gaugeRefill
  | ledgerPack (range : Nat)
  | usageCheckpoint
  | mapCheckpoint
  -- flash
  | dieReadDone (sb q : Nat) (outcome : Decode1)
  | droppedStitchRebuilt (sb q : Nat) (secondFails : Bool)
  | programDone (sb : Nat) (pages : RowPages)
  | programFail (sb row position : Nat)
  | eraseDone (sb : Nat)
  | eraseFail (sb position : Nat)
  | dieFailed (channel die : Nat)
  | channelFault (channel cause : Nat)
  | wordlinePad (sb : Nat)
  | programSuspend (channel die : Nat)
  | slcFold
  | autoReclaim
  | urgentVerify (badRows : List (Nat × Nat))
  | refreshAuto (sb : Nat)
  | skeinDemote
  -- faults
  | faultEvent (evs : List Ev)
  | hangDetected (what : Hang)
  | railTest (failing : List Nat)
  | collectorMessage (collector : Nat) (crcOk : Bool) (evs : List Ev)
  | stickyClear (word : Nat) (mask : W32)
  | fltFirstClear
  | errOutRelease (code : Nat)
  | fltSwatchArm (value : W32)
  | valSwatchArm (value : W32)
  | cipCtrPreset (value : W32)
  | cipAlarmSwWrite (code : Nat)
  | tamperDetected (detector : Nat)
  | glitchDetected
  -- the recorder
  | recordWrite
  | recCopyBack
  -- supervision and starts
  | heartbeat
  | heartbeatMissed
  | headlessTimeout
  | activationDrainEnd
  | resetDrainEnd
  | chipStart (given : StartIn)
  | startDone
  | startTimeout
  | rstSoftWrite (core : CoreId) (code : Nat)
  | recoveryDownload (manifest stream : Bytes)
  -- power
  | domainSwitch
  | phaseLost (domain phase : Nat)
  | ps1Entry
  | ps2Entry
  | ps3Entry
  | ps3Request
  | ps0Request
  | wakeEvent (source : Nat)
  | shedStageEntered (stage input : Nat)
  | shedStageLeft (stage ms : Nat)
  | holdupTakeover (input bank : Nat)
  | holdupTest (energyDj : Nat)
  | holdupNotReady
  -- temperature and clocks
  | thermalStageEntered (stage : Nat) (temp : Int)
  | thermalStageLeft (stage seconds : Nat)
  | thmSensorFault (sensorA sensorB junction : Int)
  | thermalCritical (coldPlate junction : Int)
  | thermalResetRelease
  | clockFault (edges : Nat)
  -- rails and pins
  | p48vApplied
  | p3v3AuxLost
  | resetInAssert
  | resetInRelease
  | pwrDisableAssert
  | pwrDisableRelease
  | presentNFall
  | presentNRise
  | transportSenseRise
  | transportSenseClear
  | smbusOffsetWrite (raw : Bytes)
  | smbusRead (n : Nat)
  | identityRefresh
  -- updates
  | secTrialPass
  | secTrialFail
  | trialTimeout
  | commitTimeout
  | sessionIdleTimeout
  | attestTokenRefill
  -- registers
  | blockLockSet (block : Nat)
  | sysLockAllSet
  | cascadeWrite (value : Nat)
  | rcFieldRead (core : CoreId) (addr : Nat)
  | loWordRead (core : CoreId) (addr : Nat)
  | registerWrite (core : CoreId) (addr width : Nat) (value : W32)
  -- late rows of the table
  | holdupReady
  | overtemp (temp : Int)
  | keyFetch (cmd : Nat) (key : Bytes)
  | cmDrep (ctx : Nat)
  | p3v3AuxApplied
  | willadraConnection (tlsMinor : Nat)
  | railPairFault (src : Nat)
deriving DecidableEq, Repr

end Sys2Proof
end

