-- ==== Sys2Proof/Decode.lean ====
section
/-! DEFINITION. The word form of the commands. Every row of spec/opcode_table.json has an empty list of
fields and no fixed bits: the drive's commands reach it as bus operations, messages and pins, and no word
spells one. -/

namespace Sys2Proof

/-- The command that a word spells by the table's bits: none, as no row gives bits. -/
def decodeTableWord (_nbits _w : Nat) : Option Instr := none

end Sys2Proof
end

