-- ==== Sys2Proof/Machine/Bytes.lean ====
section
/-! DEFINITION. Byte strings and the drive's checks over them: little-endian fields (R15), the three check
algorithms of R279, the key hash of R203 with the buckets of R205 and R217, and the locator of R280. -/

namespace Sys2Proof.Machine

/-- The `n` bytes of a number, little-endian (R15). -/
def leBytes : Nat → Nat → Bytes
  | 0, _ => []
  | n + 1, v => BitVec.ofNat 8 v :: leBytes n (v / 256)

/-- The number that bytes hold, little-endian (R15). -/
def leNat : Bytes → Nat
  | [] => 0
  | b :: bs => b.toNat + 256 * leNat bs

/-- `len` bytes from offset `off`. -/
def slice (b : Bytes) (off len : Nat) : Bytes := (b.drop off).take len

/-- The little-endian number of `len` bytes from offset `off`. -/
def fieldAt (b : Bytes) (off len : Nat) : Nat := leNat (slice b off len)

/-- Bits `hi` to `lo` of a number. -/
def bitsOf (v hi lo : Nat) : Nat := v / 2 ^ lo % 2 ^ (hi + 1 - lo)

/-- Bit `i` of a number. -/
def bitOf (v i : Nat) : Bool := v / 2 ^ i % 2 = 1

/-- Exactly `n` bytes: cut, or padded with zeros at the end. -/
def padTo (n : Nat) (b : Bytes) : Bytes := b.take n ++ List.replicate (n - b.length) 0

/-- `n` zero bytes. -/
def zeros (n : Nat) : Bytes := List.replicate n 0

/-- The ASCII bytes of a string. -/
def ascii (t : String) : Bytes := t.toList.map fun c => BitVec.ofNat 8 c.toNat

/-- A string with the bytes from `off` replaced; the string is zero-extended where it is too short. -/
def overlay (old : Bytes) (off : Nat) (new : Bytes) : Bytes :=
  padTo off old ++ new ++ old.drop (off + new.length)

/-- One byte into the CRC-32C register (R146, R279), reflected. -/
def crc32cByte (c : W32) (b : Byte) : W32 :=
  (List.range 8).foldl (fun c _ => if c.getLsbD 0 then (c >>> 1) ^^^ 0x82F63B78#32 else c >>> 1)
    (c ^^^ b.zeroExtend 32)

/-- The CRC-32C register after more bytes; the register starts at all ones. -/
def crc32cRun (c : W32) (b : Bytes) : W32 := b.foldl crc32cByte c

/-- The initial register of a CRC-32C. -/
def crc32cInit : W32 := 0xFFFFFFFF#32

/-- The value a CRC-32C register stands for: the final XOR of R146. -/
def crc32cOut (c : W32) : W32 := c ^^^ 0xFFFFFFFF#32

/-- CRC-32C of bytes (R146). -/
def crc32c (b : Bytes) : W32 := crc32cOut (crc32cRun crc32cInit b)

/-- One byte into a CRC-64/ECMA-182 register (R279). -/
def crc64Byte (c : W64) (b : Byte) : W64 :=
  (List.range 8).foldl (fun c _ => if c.getMsbD 0 then (c <<< 1) ^^^ 0x42F0E1EBA9EA3693#64 else c <<< 1)
    (c ^^^ ((b.zeroExtend 64) <<< 56))

/-- CRC-64/ECMA-182 with its initial value XORed with a fold (R279, R281, R543). -/
def crc64 (fold : W64) (b : Bytes) : W64 := b.foldl crc64Byte fold

/-- One byte into a CRC-16/T10-DIF register (R279). -/
def crc16Byte (c : BitVec 16) (b : Byte) : BitVec 16 :=
  (List.range 8).foldl (fun c _ => if c.getMsbD 0 then (c <<< 1) ^^^ 0x8BB7#16 else c <<< 1)
    (c ^^^ ((b.zeroExtend 16) <<< 8))

/-- CRC-16/T10-DIF with its initial value XORed with a fold (R279). -/
def crc16 (fold : BitVec 16) (b : Bytes) : BitVec 16 := b.foldl crc16Byte fold

/-- The 8-byte little-endian words of a key, the last padded with zeros (R203); `fuel` bounds them. -/
def words64 : Nat → Bytes → List W64
  | 0, _ => []
  | _ + 1, [] => []
  | n + 1, b => BitVec.ofNat 64 (leNat (b.take 8)) :: words64 n (b.drop 8)

/-- The key hash KH of R203. -/
def keyHash (key : Bytes) : W64 :=
  let h0 : W64 := 0x9E3779B97F4A7C15#64 ^^^ BitVec.ofNat 64 key.length
  let h := (words64 key.length key).foldl (fun h w =>
    let h := (h ^^^ w) * 0xBF58476D1CE4E5B9#64
    h ^^^ (h >>> 31)) h0
  let h := (h ^^^ (h >>> 30)) * 0x94D049BB133111EB#64
  h ^^^ (h >>> 31)

/-- The fingerprint FP of R205. -/
def fpOf (kh : W64) : Nat := kh.toNat / 2 ^ 44

/-- The primary bucket b1 of R205. -/
def bucket1 (kh : W64) : Nat := kh.toNat % 2 ^ 30

/-- The other bucket of a slot with this fingerprint (R205): its own inverse. -/
def otherBucket (b fp : Nat) : Nat := b ^^^ ((fp + 1) * 0x9E3779B1 % 2 ^ 30)

/-- The alternate bucket b2 of R205. -/
def bucket2 (kh : W64) : Nat := otherBucket (bucket1 kh) (fpOf kh)

/-- The mirror buckets m1 and m2 of R217. -/
def mbucket1 (kh : W64) : Nat := kh.toNat / 2 ^ 30 % 2 ^ 22
def mbucket2 (kh : W64) : Nat :=
  let m2 := kh.toNat % 2 ^ 22
  if m2 = mbucket1 kh then m2 ^^^ 1 else m2

/-- The locator LOC of segment `i` of variant `v` (R280). -/
def locator (kh : W64) (v i : Nat) : W64 :=
  kh ^^^ (BitVec.ofNat 64 v <<< 58) ^^^ BitVec.ofNat 64 (i * 0x9E3779B97F4A7C15)

end Sys2Proof.Machine
end

