-- ==== Sys2Proof/Machine/Keccak.lean ====
section
/-! DEFINITION. SHAKE256 (FIPS 202) and KMAC256 (NIST SP 800-185), which the spec names for digests and derivations
(R97, R300, R421, R570, R571). The steps are those of the standards, which stand outside the spec (PRESUMED). -/

namespace Sys2Proof.Machine

/-- Rotation offsets of the lanes x + 5y. -/
def keccakRot : List Nat :=
  [0, 1, 62, 28, 27, 36, 44, 6, 55, 20, 3, 10, 43, 25, 39, 41, 45, 15, 21, 8, 18, 2, 61, 56, 14]

/-- The round constants. -/
def keccakRounds : List W64 :=
  [0x0000000000000001, 0x0000000000008082, 0x800000000000808A, 0x8000000080008000, 0x000000000000808B,
   0x0000000080000001, 0x8000000080008081, 0x8000000000008009, 0x000000000000008A, 0x0000000000000088,
   0x0000000080008009, 0x000000008000000A] ++
  [0x000000008000808B, 0x800000000000008B, 0x8000000000008089, 0x8000000000008003, 0x8000000000008002,
   0x8000000000000080, 0x000000000000800A, 0x800000008000000A, 0x8000000080008081, 0x8000000000008080,
   0x0000000080000001, 0x8000000080008008]

/-- Lane x + 5y of a state. -/
def lane (a : List W64) (x y : Nat) : W64 := a.getD (x % 5 + 5 * (y % 5)) 0

/-- The 25 lanes that a function of x and y gives. -/
def lanes (f : Nat → Nat → W64) : List W64 := (List.range 25).map fun i => f (i % 5) (i / 5)

/-- One round of Keccak-f[1600]. -/
def keccakRound (a : List W64) (rc : W64) : List W64 :=
  let c := (List.range 5).map fun x => lane a x 0 ^^^ lane a x 1 ^^^ lane a x 2 ^^^ lane a x 3 ^^^ lane a x 4
  let d := (List.range 5).map fun x => c.getD ((x + 4) % 5) 0 ^^^ (c.getD ((x + 1) % 5) 0).rotateLeft 1
  let a := lanes fun x y => lane a x y ^^^ d.getD x 0
  let b := lanes fun x y =>
    -- the lane (x, y) of the result of rho and pi comes from (x + 3y, x)
    let fx := (x + 3 * y) % 5
    (lane a fx x).rotateLeft (keccakRot.getD (fx + 5 * x) 0)
  let a := lanes fun x y => lane b x y ^^^ (~~~lane b (x + 1) y &&& lane b (x + 2) y)
  match a with
  | [] => []
  | a0 :: rest => (a0 ^^^ rc) :: rest

/-- The permutation Keccak-f[1600]. -/
def keccakF (a : List W64) : List W64 := keccakRounds.foldl keccakRound a

/-- The bytes of the lanes in their order. -/
def laneBytes (a : List W64) : Bytes := a.flatMap fun w => leBytes 8 w.toNat

/-- Whole blocks of 136 bytes are absorbed in turn. -/
def keccakAbsorb : Nat → List W64 → Bytes → List W64
  | 0, a, _ => a
  | n + 1, a, b =>
    keccakAbsorb n (keccakF (lanes fun x y =>
      let i := x + 5 * y
      lane a x y ^^^ (if i < 17 then BitVec.ofNat 64 (fieldAt b (8 * i) 8) else 0))) (b.drop 136)

/-- Blocks of 136 bytes are squeezed. -/
def keccakSqueeze : Nat → List W64 → Bytes
  | 0, _ => []
  | n + 1, a => (laneBytes a).take 136 ++ keccakSqueeze n (keccakF a)

/-- The sponge of rate 136 bytes over a message with its domain byte, for `len` bytes of output. -/
def keccakSponge (domain : Byte) (b : Bytes) (len : Nat) : Bytes :=
  let blocks := b.length / 136 + 1
  let padded := overlay (padTo (136 * blocks) (b ++ [domain])) (136 * blocks - 1)
    [(padTo (136 * blocks) (b ++ [domain])).getD (136 * blocks - 1) 0 ||| 0x80]
  (keccakSqueeze (len / 136 + 1) (keccakAbsorb blocks (List.replicate 25 0) padded)).take len

/-- SHAKE256 with 32 bytes of output (FIPS 202). -/
@[irreducible] def shake256 (b : Bytes) : Bytes := keccakSponge 0x1F b 32

/-- The bytes of a number, most significant first, without leading zeros, but at least one; `n` bounds them. -/
def beBytes : Nat → Nat → Bytes
  | 0, _ => []
  | n + 1, v => if v < 256 then [BitVec.ofNat 8 v] else beBytes n (v / 256) ++ [BitVec.ofNat 8 v]

/-- left_encode, right_encode, encode_string and bytepad with 136 of SP 800-185. -/
def leftEncode (v : Nat) : Bytes := BitVec.ofNat 8 (beBytes 8 v).length :: beBytes 8 v
def rightEncode (v : Nat) : Bytes := beBytes 8 v ++ [BitVec.ofNat 8 (beBytes 8 v).length]
def encodeString (b : Bytes) : Bytes := leftEncode (8 * b.length) ++ b
def bytePad (b : Bytes) : Bytes :=
  let b := leftEncode 136 ++ b
  padTo (136 * ((b.length + 135) / 136)) b

/-- KMAC256 (NIST SP 800-185): key, customisation string, input, output length in bytes. -/
@[irreducible] def kmac256 (key custom input : Bytes) (len : Nat) : Bytes :=
  keccakSponge 0x04 (bytePad (encodeString (ascii "KMAC") ++ encodeString custom) ++ bytePad (encodeString key)
    ++ input ++ rightEncode (8 * len)) len

end Sys2Proof.Machine
end

