-- ==== Sys2Proof/Config.lean ====
section
/-! DEFINITION. What the spec leaves open, as constants without a body, so that no proof sees a value:
free values, the signatures under keys that no one outside holds, and what a build of the drive fixes (its
device secrets, its random numbers, its compressor's choices). -/

namespace Sys2Proof.Config

/-- A free number: what the spec leaves open, by the state's own counter. -/
opaque freeNat : Nat → Nat

/-- Free bytes, by the counter: an undefined or unstated byte string. -/
opaque freeBytes : Nat → Bytes

/-- The DRBG of CIP (R97, R316, R570): the random bytes of the n-th draw. -/
opaque drbg : Nat → Bytes

/-- The compressor's output for a segment's bytes: which of the encodings that R276 allows the drive
makes is left to it. A value that is no stream of the bytes stands for one that is not shorter (R277). -/
opaque compress : Bytes → Bytes

/-- The compressor's output after the probe's bytes, in whole bytes (R275). -/
opaque probeSize : Bytes → Nat

/-- XMSS signature of a message by the leaf of the device identity (R563, R566). -/
opaque xmssSign : Nat → Bytes → Bytes

/-- Whether an XMSS signature over a message verifies under the release key of the index (R572). -/
opaque xmssVerify : Nat → Bytes → Bytes → Bool

/-- The device KEK derived in SEC (R306). -/
opaque deviceKek : Bytes

/-- The keys that SEC loads into slots 0x402 to 0x40F (R298): the spec does not say how they are made. -/
opaque systemKey : Nat → Bytes

/-- A delta applied to a base image (R571): the spec does not say how a record tells COPY from ADD. -/
opaque applyDelta : Bytes → Bytes → Bytes

/-- The identity made at manufacture: DRIVE_UID, XMSS public roots, serial number and the rest of the
identity block (R562). -/
opaque driveUid : Bytes
opaque identityBlock : Bytes

/-- The module board revision (R596): from 1. -/
opaque boardRev : Nat

/-- Where the sender's value staging buffer for a peer message stands, and its remote key (R423), by the message count on
its queue pair: the spec gives the buffers no addresses. -/
opaque peerBufAddr : Nat → Nat → Nat
opaque peerBufRkey : Nat → Nat → Nat

/-- The digest of a region that a reset records (R476), by region and RSEQ: the spec does not lay out every region's bytes. -/
opaque regionDigest : Nat → Nat → W64

/-- The digested region, 1 to 4, that a byte of DRAM group B lies in, and any other number for none (R475): the spec gives the
regions no offsets. -/
opaque regionAt : Nat → Nat

/-- The 8-bit check over an action's 16 bytes (R238): the spec does not give its code. It is a linear code: the byte that
each bit of the action adds, and the check of an action of zeros. -/
opaque actionColumn : Nat → Byte
opaque actionBase : Byte

/-- Which 1/64 of the fingerprint table's buckets an estimate examines (R167): the buckets whose number leaves this
remainder by 64. The spec does not say which. -/
opaque sampleClass : Nat

/-- The 512 LDPC parity bytes of a codeword's 4,096 data bytes (R353, R361): the spec does not give the code. -/
opaque ldpcParity : Bytes → Bytes

/-- The 8 check bytes of a Ledger line (R329): its code is not given. -/
opaque ledgerCheck : Bytes → Bytes

/-- The check code of a page tag over its other bytes (R358): the spec does not give the code. -/
opaque tagCheck : Bytes → W32

/-- The hash of a drive queue-pair number that picks its UDP source port (R91): the spec does not give it. -/
opaque qpnHash : Nat → Nat

end Sys2Proof.Config
end

