-- ==== Sys2Proof/Machine/RegTable.lean ====
section
/-! DEFINITION. The software-visible registers, from the register tables of the chapters: every register
with its address, every field with its bits, its access code (R11) and its Cold and Warm columns (R14).
`FieldDesc` rows drive register reads and writes; the `Reg` names are the fields' handles. Addresses are
relative to the register space: block base (R449) plus offset. -/

namespace Sys2Proof.Machine

/-- The access codes of R11. -/
inductive Access where
  | rw | ro | wo | w1c | w1s | rc | rwl
deriving DecidableEq, Repr

/-- The content of a Cold or Warm cell (R14). `held`: the field keeps its value through the start, which
stands for the cells "kept", "PD00" (held in PD00), "stored" (restored from the Ledger or fuses), and the
cells whose value the view of the field computes. `heldFrom n`: held, and n when PD00 first starts. -/
inductive RstVal where
  | zero
  | val (n : Nat)
  | held
  | heldFrom (n : Nat)
  | index
  | ringClass
  | irqCore
  | reactPin
  | reactEscMax
  | reactLevel
deriving DecidableEq, Repr

/-- One field of a register. -/
structure FieldDesc where
  hi : Nat
  lo : Nat
  access : Access
  cold : RstVal
  warm : RstVal
deriving DecidableEq, Repr

/-- One register entry, or an array of them: `count` registers, `stride` apart. -/
structure RegDesc where
  addr : Nat
  stride : Nat
  count : Nat
  fields : List FieldDesc
deriving DecidableEq, Repr

/-- The handle of one field: the register's address and the field's bits. -/
structure Field where
  addr : Nat
  hi : Nat
  lo : Nat
deriving DecidableEq, Repr

namespace Reg

/-! Fields of block NFE. -/

def NFE_LINK_CFG_LINKDOWN_MS : Field := ⟨0x40000, 23, 16⟩
def NFE_LINK_CFG_SPLIT_B : Field := ⟨0x40000, 1, 1⟩
def NFE_LINK_CFG_SPLIT_A : Field := ⟨0x40000, 0, 0⟩
def NFE_TRANSPORT_CFG_ACK_TIMEOUT : Field := ⟨0x40010, 19, 15⟩
def NFE_TRANSPORT_CFG_RETRY_CNT : Field := ⟨0x40010, 14, 12⟩
def NFE_TRANSPORT_CFG_RNR_RETRY : Field := ⟨0x40010, 11, 9⟩
def NFE_TRANSPORT_CFG_MAX_PMTU : Field := ⟨0x40010, 8, 7⟩
def NFE_DSCP_MAP_ECN_EN : Field := ⟨0x40020, 31, 31⟩
def NFE_DSCP_MAP_DSCP_CNP : Field := ⟨0x40020, 29, 24⟩
def NFE_DSCP_MAP_DSCP_SCAVENGE : Field := ⟨0x40020, 23, 18⟩
def NFE_DSCP_MAP_DSCP_BULK : Field := ⟨0x40020, 17, 12⟩
def NFE_DSCP_MAP_DSCP_NORMAL : Field := ⟨0x40020, 11, 6⟩
def NFE_DSCP_MAP_DSCP_EXPRESS : Field := ⟨0x40020, 5, 0⟩
def NFE_CC_CFG_CNP_GAP_US : Field := ⟨0x40024, 31, 24⟩
def NFE_CC_CFG_G_SHIFT : Field := ⟨0x40024, 23, 16⟩
def NFE_CC_CFG_TIMER_US : Field := ⟨0x40024, 15, 8⟩
def NFE_CC_CFG_AI_STEP : Field := ⟨0x40024, 7, 0⟩

/-! Fields of block QPM. -/

def QPM_FETCH_CFG_FETCH_BATCH : Field := ⟨0x50000, 21, 16⟩
def QPM_FETCH_CFG_PHASE_RETRY_US : Field := ⟨0x50000, 15, 8⟩
def QPM_FETCH_CFG_PHASE_RETRIES : Field := ⟨0x50000, 7, 4⟩
def QPM_OUTCOME_CFG_OUTCOME_HOLD_S : Field := ⟨0x50004, 7, 0⟩
def QPM_QP_COUNT_ACTIVE_QPS : Field := ⟨0x50010, 14, 0⟩
def QPM_ERR_STAT_QGEN_DROPS : Field := ⟨0x50014, 31, 16⟩
def QPM_ERR_STAT_PHASE_REFETCHES : Field := ⟨0x50014, 15, 0⟩

/-! Fields of block SCH. -/

def SCH_VERSION_LO_NEXT_LO : Field := ⟨0x60000, 31, 0⟩
def SCH_VERSION_HI_NEXT_HI : Field := ⟨0x60004, 31, 0⟩
def SCH_DUR_CFG_LEDGER_MAX : Field := ⟨0x60010, 15, 0⟩
def SCH_DRAIN_CFG_ACT_DRAIN_MS : Field := ⟨0x60014, 26, 16⟩
def SCH_DRAIN_CFG_RESET_DRAIN_MS : Field := ⟨0x60014, 7, 0⟩
def SCH_RETAIN_STAT_FREE_ENTRIES : Field := ⟨0x60020, 20, 0⟩
def SCH_REPLAY_STAT_REPLAYS : Field := ⟨0x60024, 31, 16⟩
def SCH_REPLAY_STAT_BLOCK_RESETS : Field := ⟨0x60024, 15, 0⟩

/-! Fields of block IDX. -/

def IDX_STATUS_POISONED : Field := ⟨0x70000, 3, 3⟩
def IDX_STATUS_REBUILD_ACTIVE : Field := ⟨0x70000, 2, 2⟩
def IDX_STATUS_MIRROR_READY : Field := ⟨0x70000, 1, 1⟩
def IDX_STATUS_TABLE_READY : Field := ⟨0x70000, 0, 0⟩
def IDX_KEYS_LO_KEYS_LO : Field := ⟨0x70004, 31, 0⟩
def IDX_KEYS_HI_KEYS_32 : Field := ⟨0x70008, 0, 0⟩
def IDX_PINS_PINNED_KEYS : Field := ⟨0x7000c, 24, 0⟩
def IDX_INSERT_CFG_MAX_KICKS : Field := ⟨0x70010, 7, 0⟩
def IDX_REBUILD_MARK_LO_MARK_LO : Field := ⟨0x70014, 31, 0⟩
def IDX_REBUILD_MARK_HI_MARK_HI : Field := ⟨0x70018, 31, 0⟩
def IDX_LOOKUP_STAT_SPURIOUS_READS : Field := ⟨0x7001c, 31, 16⟩
def IDX_LOOKUP_STAT_SECOND_PROBES : Field := ⟨0x7001c, 15, 0⟩
def IDX_EXPRESS_LAT_MAX_FCLK : Field := ⟨0x70020, 15, 0⟩
def IDX_POISON_STAT_POISON_COUNT : Field := ⟨0x70024, 8, 0⟩
def IDX_MIRROR_CFG_MIRROR_EN : Field := ⟨0x70028, 0, 0⟩

/-! Fields of block MCH. -/

def MCH_CFG_CASCADE : Field := ⟨0x80000, 1, 0⟩
def MCH_STATUS_EPOCH : Field := ⟨0x80004, 31, 28⟩
def MCH_STATUS_SHIFT_ACTIVE : Field := ⟨0x80004, 27, 27⟩
def MCH_STATUS_LOAD_GEN : Field := ⟨0x80004, 26, 20⟩
def MCH_STATUS_VALID_ENTRIES : Field := ⟨0x80004, 19, 0⟩
def MCH_POLICY_MASK_BANKS (n : Nat) : Field := ⟨0x80010 + 0x4 * n, 31, 0⟩
def MCH_AUTO_CFG_MAX_HALVES : Field := ⟨0x80020, 8, 0⟩
def MCH_SCRUB_CFG_PERIOD_S : Field := ⟨0x80024, 5, 0⟩
def MCH_ERR_STAT_SCRUB_FIXES : Field := ⟨0x80028, 31, 16⟩
def MCH_ERR_STAT_CHECK_FIXES : Field := ⟨0x80028, 15, 0⟩
def MCH_HALVES_STAT_SEARCHES : Field := ⟨0x8002c, 23, 16⟩
def MCH_HALVES_STAT_HALVES_BUSY : Field := ⟨0x8002c, 8, 0⟩

/-! Fields of block MD. -/

def MD_ID_STEPPING (n : Nat) : Field := ⟨0xa0000 + 0x10000 * n, 7, 4⟩
def MD_ID_DIE (n : Nat) : Field := ⟨0xa0000 + 0x10000 * n, 1, 0⟩
def MD_PREFIX_ON_BANKS (n : Nat) : Field := ⟨0xa0004 + 0x10000 * n, 31, 0⟩
def MD_AUTO_ON_BANKS (n : Nat) : Field := ⟨0xa0008 + 0x10000 * n, 31, 0⟩

/-! Fields of block VAL. -/

def VAL_CFG_MIN_COMPRESS : Field := ⟨0xe0000, 15, 0⟩
def VAL_STATUS_REPAIRS_ACTIVE : Field := ⟨0xe0004, 22, 16⟩
def VAL_STATUS_COMPRESSORS_BUSY : Field := ⟨0xe0004, 13, 8⟩
def VAL_STATUS_INTAKE_BUSY : Field := ⟨0xe0004, 4, 0⟩
def VAL_REPAIR_STAT_CHECK_REPAIRS : Field := ⟨0xe0008, 31, 16⟩
def VAL_REPAIR_STAT_DATA_RECOVERIES : Field := ⟨0xe0008, 15, 0⟩
def VAL_READ_STAT_UNRECOVERABLE : Field := ⟨0xe000c, 31, 16⟩
def VAL_READ_STAT_REWRITES_SKIPPED : Field := ⟨0xe000c, 15, 0⟩
def VAL_COMP_STAT_RAW_BY_PROBE : Field := ⟨0xe0010, 31, 16⟩
def VAL_COMP_STAT_RAW_BY_RESULT : Field := ⟨0xe0010, 15, 0⟩
def VAL_E2E_STAT_E2E_MISMATCHES : Field := ⟨0xe0014, 15, 0⟩
def VAL_SWATCH_ARM : Field := ⟨0xe0020, 9, 9⟩
def VAL_SWATCH_TARGET : Field := ⟨0xe0020, 8, 8⟩
def VAL_SWATCH_COUNT : Field := ⟨0xe0020, 7, 0⟩

/-! Fields of block CIP. -/

def CIP_CFG_ERASE_WAIT_MS : Field := ⟨0xf0000, 7, 0⟩
def CIP_STATUS_ALARM : Field := ⟨0xf0004, 31, 31⟩
def CIP_STATUS_KEK_READY : Field := ⟨0xf0004, 30, 30⟩
def CIP_STATUS_RESTORE_DONE : Field := ⟨0xf0004, 29, 29⟩
def CIP_STATUS_SLOTS_LOADED : Field := ⟨0xf0004, 26, 16⟩
def CIP_STATUS_LANES_ONLINE : Field := ⟨0xf0004, 15, 0⟩
def CIP_ALARM_EN_ENABLE : Field := ⟨0xf0010, 4, 0⟩
def CIP_ALARM_ERASE_ERASE : Field := ⟨0xf0014, 4, 0⟩
def CIP_ALARM_STAT_SOURCES : Field := ⟨0xf0018, 4, 0⟩
def CIP_ALARM_SW_CODE : Field := ⟨0xf001c, 15, 0⟩
def CIP_SLOT_SEL_SLOT : Field := ⟨0xf0020, 10, 0⟩
def CIP_SLOT_INFO_STATE : Field := ⟨0xf0024, 31, 30⟩
def CIP_SLOT_INFO_RETIRED : Field := ⟨0xf0024, 29, 29⟩
def CIP_SLOT_INFO_GEN : Field := ⟨0xf0024, 15, 0⟩
def CIP_SLOT_EPOCH_EPOCH : Field := ⟨0xf0028, 31, 0⟩
def CIP_SLOT_CTR_LO_CTR_LO : Field := ⟨0xf002c, 31, 0⟩
def CIP_SLOT_CTR_HI_CTR_HI : Field := ⟨0xf0030, 31, 0⟩
def CIP_SLOT_SERIAL_REFS : Field := ⟨0xf0034, 31, 16⟩
def CIP_SLOT_SERIAL_KEY_SERIAL : Field := ⟨0xf0034, 15, 0⟩
def CIP_CTR_TEST_ARM : Field := ⟨0xf0040, 31, 31⟩
def CIP_CTR_TEST_APPLY : Field := ⟨0xf0040, 30, 30⟩
def CIP_CTR_TEST_STEPS_LEFT : Field := ⟨0xf0040, 15, 0⟩
def CIP_AUTH_STAT_AUTH_FAILURES : Field := ⟨0xf0044, 31, 16⟩
def CIP_AUTH_STAT_TAG_REPAIRS : Field := ⟨0xf0044, 15, 0⟩
def CIP_LANE_STAT_NONCE_REFUSALS : Field := ⟨0xf0048, 31, 16⟩
def CIP_LANE_STAT_LANE_MISMATCHES : Field := ⟨0xf0048, 15, 0⟩

/-! Fields of block LDG. -/

def LDG_STATUS_FAILED_GROUPS : Field := ⟨0x100000, 11, 8⟩
def LDG_STATUS_SPARE_LOW : Field := ⟨0x100000, 3, 3⟩
def LDG_STATUS_DEV1_FAILED : Field := ⟨0x100000, 2, 2⟩
def LDG_STATUS_DEV0_FAILED : Field := ⟨0x100000, 1, 1⟩
def LDG_STATUS_READY : Field := ⟨0x100000, 0, 0⟩
def LDG_GAUGE_LEVEL_LEVEL_KIB : Field := ⟨0x100004, 28, 0⟩
def LDG_GAUGE_CFG_BULK_FLOOR : Field := ⟨0x100008, 28, 16⟩
def LDG_GAUGE_CFG_RESERVE : Field := ⟨0x100008, 12, 0⟩
def LDG_GAUGE_STAT_FALLBACKS : Field := ⟨0x10000c, 31, 16⟩
def LDG_GAUGE_STAT_METADATA_WAITS : Field := ⟨0x10000c, 15, 0⟩
def LDG_ROT_CFG_GAP_INTERVAL : Field := ⟨0x100010, 7, 0⟩
def LDG_WEAR_STAT_WEAR_MAX_PCT : Field := ⟨0x100014, 15, 8⟩
def LDG_WEAR_STAT_WEAR_MEAN_PCT : Field := ⟨0x100014, 7, 0⟩
def LDG_SPARE_STAT_SPARE_FREE : Field := ⟨0x100018, 21, 0⟩
def LDG_UNMETERED_LINES : Field := ⟨0x10001c, 31, 0⟩
def LDG_CLASS_FREE_FREE_KIB (n : Nat) : Field := ⟨0x100020 + 0x4 * n, 21, 0⟩

/-! Fields of block FTL. -/

def FTL_SLC_CFG_OPEN_SB : Field := ⟨0x110000, 23, 16⟩
def FTL_SLC_CFG_FOLD_START_PCT : Field := ⟨0x110000, 15, 8⟩
def FTL_SLC_CFG_DIRECT_PCT : Field := ⟨0x110000, 7, 0⟩
def FTL_SLC_STAT_TARGET_SB : Field := ⟨0x110004, 31, 16⟩
def FTL_SLC_STAT_SLC_SB : Field := ⟨0x110004, 15, 0⟩
def FTL_FILL_FILL_PERMILLE : Field := ⟨0x110008, 9, 0⟩
def FTL_MAP_CFG_DEMOTE_PCT : Field := ⟨0x11000c, 15, 8⟩
def FTL_MAP_CFG_PROMOTE_PCT : Field := ⟨0x11000c, 7, 0⟩
def FTL_MAP_STAT_FINE_SKEINS : Field := ⟨0x110010, 22, 0⟩
def FTL_STATUS_DIRECT_MODE : Field := ⟨0x110014, 1, 1⟩
def FTL_STATUS_MAP_READY : Field := ⟨0x110014, 0, 0⟩
def FTL_GC_WEAR_K_K : Field := ⟨0x110020, 9, 0⟩
def FTL_UPKEEP_CFG_VERIFY_URGENT : Field := ⟨0x110024, 31, 16⟩
def FTL_UPKEEP_CFG_FREE_FLOOR : Field := ⟨0x110024, 15, 0⟩
def FTL_REFRESH_CFG_PATROL_DAYS : Field := ⟨0x110028, 15, 8⟩
def FTL_REFRESH_CFG_AUTO_S : Field := ⟨0x110028, 7, 0⟩
def FTL_WEAR_CFG_RETIRE_PE : Field := ⟨0x11002c, 31, 20⟩
def FTL_WEAR_CFG_SPREAD : Field := ⟨0x11002c, 19, 10⟩
def FTL_WEAR_CFG_SPARE_WARN : Field := ⟨0x11002c, 9, 0⟩
def FTL_SB_STAT_UNVERIFIED : Field := ⟨0x110030, 27, 18⟩
def FTL_SB_STAT_FREE_SB : Field := ⟨0x110030, 17, 0⟩
def FTL_SPARE_STAT_PAR_SB : Field := ⟨0x110034, 31, 23⟩
def FTL_SPARE_STAT_SPARE_MEMBERS : Field := ⟨0x110034, 18, 0⟩
def FTL_WEAR_STAT_WEAR_MAX : Field := ⟨0x110038, 31, 16⟩
def FTL_WEAR_STAT_WEAR_MEAN : Field := ⟨0x110038, 15, 0⟩
def FTL_UPKEEP_STAT_REBUILDS : Field := ⟨0x11003c, 31, 16⟩
def FTL_UPKEEP_STAT_TARGET_FAILS : Field := ⟨0x11003c, 15, 0⟩
def FTL_BINDOFF_DEGRADED_GROUPS : Field := ⟨0x110040, 15, 8⟩
def FTL_BINDOFF_SPARE_LOW : Field := ⟨0x110040, 1, 1⟩
def FTL_BINDOFF_BIND_OFF : Field := ⟨0x110040, 0, 0⟩

/-! Fields of block FCH. -/

def FCH_CH_CFG_MAX_SUSPENDS (n : Nat) : Field := ⟨0x120000 + 0x400 * n, 31, 24⟩
def FCH_CH_CFG_DIE_EN (n : Nat) : Field := ⟨0x120000 + 0x400 * n, 23, 0⟩
def FCH_CH_SUSPEND_SUSPEND_US (n : Nat) : Field := ⟨0x120004 + 0x400 * n, 12, 0⟩
def FCH_CH_STATUS_OFFLINE (n : Nat) : Field := ⟨0x120008 + 0x400 * n, 31, 31⟩
def FCH_CH_STATUS_DIE_FAILED (n : Nat) : Field := ⟨0x120008 + 0x400 * n, 23, 0⟩
def FCH_CH_LDPC_SOFT_DECODES (n : Nat) : Field := ⟨0x12000c + 0x400 * n, 31, 16⟩
def FCH_CH_LDPC_UNCORRECTABLE (n : Nat) : Field := ⟨0x12000c + 0x400 * n, 15, 0⟩

/-! Fields of block PEER. -/

def PEER_CFG_DEAD_MS : Field := ⟨0x130000, 27, 20⟩
def PEER_CFG_KEEPALIVE_MS : Field := ⟨0x130000, 19, 12⟩
def PEER_CFG_SELF_ID : Field := ⟨0x130000, 11, 0⟩
def PEER_TIMEOUT_CFG_TIMEOUT_10MS : Field := ⟨0x130004, 9, 0⟩
def PEER_REVOKE_CFG_HOLD_S : Field := ⟨0x130008, 5, 0⟩
def PEER_STATUS_SUSPENDED : Field := ⟨0x13000c, 31, 31⟩
def PEER_STATUS_PEERS_UP : Field := ⟨0x13000c, 23, 12⟩
def PEER_STATUS_PEERS_LINKED : Field := ⟨0x13000c, 11, 0⟩
def PEER_LINK_SEL_PEER : Field := ⟨0x130010, 11, 0⟩
def PEER_LINK_STATE_STATE : Field := ⟨0x130014, 31, 30⟩
def PEER_LINK_STATE_QP_A : Field := ⟨0x130014, 29, 29⟩
def PEER_LINK_STATE_QP_B : Field := ⟨0x130014, 28, 28⟩
def PEER_LINK_STATE_OUTSTANDING : Field := ⟨0x130014, 15, 0⟩
def PEER_CHAIN_STAT_DEGRADED : Field := ⟨0x130018, 31, 16⟩
def PEER_CHAIN_STAT_FAILED : Field := ⟨0x130018, 15, 0⟩
def PEER_REPAIR_STAT_REPAIRS : Field := ⟨0x13001c, 31, 16⟩
def PEER_REPAIR_STAT_REPAIR_MISSES : Field := ⟨0x13001c, 15, 0⟩

/-! Fields of block SYS. -/

def SYS_LOCK_ALL_ALL : Field := ⟨0x10, 0, 0⟩
def SYS_MODULE_TRANSPORT : Field := ⟨0x20, 7, 7⟩
def SYS_MODULE_PRESENT : Field := ⟨0x20, 6, 6⟩
def SYS_MODULE_PWR_DISABLE : Field := ⟨0x20, 5, 5⟩
def SYS_MODULE_P3V3_AUX_OK : Field := ⟨0x20, 4, 4⟩
def SYS_MODULE_SLOT_ID : Field := ⟨0x20, 2, 0⟩
def SYS_ATTN_EN : Field := ⟨0x24, 15, 8⟩
def SYS_ATTN_SOFTWARE : Field := ⟨0x24, 6, 6⟩
def SYS_ATTN_TRANSPORT : Field := ⟨0x24, 5, 5⟩
def SYS_ATTN_THERMAL : Field := ⟨0x24, 4, 4⟩
def SYS_ATTN_HOLDUP_TEST : Field := ⟨0x24, 3, 3⟩
def SYS_ATTN_SPARE_LOW : Field := ⟨0x24, 2, 2⟩
def SYS_ATTN_BIND_OFF : Field := ⟨0x24, 1, 1⟩
def SYS_LED_LOCATE : Field := ⟨0x28, 0, 0⟩

/-! Fields of block ENG. -/

def ENG_HOLD_HOLD : Field := ⟨0x140000, 0, 0⟩
def ENG_ATTACH_CODE : Field := ⟨0x140004, 15, 0⟩
def ENG_IRQ_STAT_RING_ERR : Field := ⟨0x140010, 17, 17⟩
def ENG_IRQ_STAT_FLT : Field := ⟨0x140010, 16, 16⟩
def ENG_IRQ_STAT_RING : Field := ⟨0x140010, 9, 0⟩
def ENG_IRQ_ROUTE_EN (n : Nat) : Field := ⟨0x140100 + 0x4 * n, 31, 31⟩
def ENG_IRQ_ROUTE_CORE (n : Nat) : Field := ⟨0x140100 + 0x4 * n, 4, 0⟩
def ENG_CREDIT_SEL_CLASS : Field := ⟨0x140020, 13, 12⟩
def ENG_CREDIT_SEL_QUEUE : Field := ⟨0x140020, 11, 8⟩
def ENG_CREDIT_SEL_CHANNEL : Field := ⟨0x140020, 5, 0⟩
def ENG_CREDIT_VIEW_CAPACITY : Field := ⟨0x140024, 31, 16⟩
def ENG_CREDIT_VIEW_COUNTER : Field := ⟨0x140024, 15, 0⟩
def ENG_CREDIT_FREE_FREE : Field := ⟨0x140028, 15, 0⟩
def ENG_RING_CFG_EN (n : Nat) : Field := ⟨0x141000 + 0x20 * n, 31, 31⟩
def ENG_RING_CFG_ERR (n : Nat) : Field := ⟨0x141000 + 0x20 * n, 30, 30⟩
def ENG_RING_CFG_IRQ_EN (n : Nat) : Field := ⟨0x141000 + 0x20 * n, 29, 29⟩
def ENG_RING_CFG_BUSY (n : Nat) : Field := ⟨0x141000 + 0x20 * n, 28, 28⟩
def ENG_RING_CFG_CLASS (n : Nat) : Field := ⟨0x141000 + 0x20 * n, 9, 8⟩
def ENG_RING_CFG_LOG2 (n : Nat) : Field := ⟨0x141000 + 0x20 * n, 4, 0⟩
def ENG_SQ_BASE_BASE_4K (n : Nat) : Field := ⟨0x141004 + 0x20 * n, 23, 0⟩
def ENG_CQ_BASE_BASE_4K (n : Nat) : Field := ⟨0x141008 + 0x20 * n, 23, 0⟩
def ENG_SQ_PTR_SQ_TAIL (n : Nat) : Field := ⟨0x14100c + 0x20 * n, 31, 16⟩
def ENG_SQ_PTR_SQ_HEAD (n : Nat) : Field := ⟨0x14100c + 0x20 * n, 15, 0⟩
def ENG_CQ_PTR_CQ_HEAD (n : Nat) : Field := ⟨0x141010 + 0x20 * n, 31, 16⟩
def ENG_CQ_PTR_CQ_TAIL (n : Nat) : Field := ⟨0x141010 + 0x20 * n, 15, 0⟩

/-! Fields of block RST. -/

def RST_CAUSE_LAST_STEP : Field := ⟨0x30000, 23, 16⟩
def RST_CAUSE_DRAINED : Field := ⟨0x30000, 9, 9⟩
def RST_CAUSE_KIND : Field := ⟨0x30000, 8, 8⟩
def RST_CAUSE_CAUSE : Field := ⟨0x30000, 7, 0⟩
def RST_START_START_DONE : Field := ⟨0x30004, 31, 31⟩
def RST_START_STEP : Field := ⟨0x30004, 7, 0⟩
def RST_FAILED_STARTS_RECOVERY : Field := ⟨0x30008, 31, 31⟩
def RST_FAILED_STARTS_COUNT : Field := ⟨0x30008, 1, 0⟩
def RST_START_CFG_FORCE_COLD : Field := ⟨0x3000c, 16, 16⟩
def RST_START_CFG_LIMIT_S : Field := ⟨0x3000c, 9, 0⟩
def RST_SOFT_CODE : Field := ⟨0x30010, 15, 0⟩
def RST_DIGEST_STAT_VERIFIED : Field := ⟨0x30014, 12, 8⟩
def RST_DIGEST_STAT_RECORDED : Field := ⟨0x30014, 4, 0⟩
def RST_START_TIME_MS : Field := ⟨0x30018, 31, 0⟩

/-! Fields of block PWR. -/

def PWR_PS_CFG_PS3_IDLE_S : Field := ⟨0x20000, 31, 24⟩
def PWR_PS_CFG_PS2_IDLE_100MS : Field := ⟨0x20000, 15, 8⟩
def PWR_PS_CFG_PS1_IDLE_MS : Field := ⟨0x20000, 7, 0⟩
def PWR_PS_STAT_STATE : Field := ⟨0x20004, 31, 30⟩
def PWR_PS_STAT_WAKE_SRC : Field := ⟨0x20004, 18, 16⟩
def PWR_PS_STAT_WAKES : Field := ⟨0x20004, 15, 0⟩
def PWR_PS_CTL_CODE : Field := ⟨0x20008, 15, 0⟩
def PWR_DOMAIN_ON_ON : Field := ⟨0x20010, 29, 0⟩
def PWR_DOMAIN_RET_HELD : Field := ⟨0x20014, 29, 0⟩
def PWR_PHASE_FAULT_PHASE : Field := ⟨0x20018, 10, 0⟩
def PWR_INPUT_P3V3_MV : Field := ⟨0x20020, 31, 16⟩
def PWR_INPUT_P48V_10MV : Field := ⟨0x20020, 15, 0⟩
def PWR_INPUT_MIN_P48V_MIN_10MV : Field := ⟨0x20024, 15, 0⟩
def PWR_POWER_OPTICS_DW : Field := ⟨0x20028, 31, 16⟩
def PWR_POWER_INPUT_DW : Field := ⟨0x20028, 15, 0⟩
def PWR_SHED_STAT_TAKEOVER : Field := ⟨0x20030, 31, 31⟩
def PWR_SHED_STAT_SEEN : Field := ⟨0x20030, 19, 16⟩
def PWR_SHED_STAT_LIVE : Field := ⟨0x20030, 3, 0⟩
def PWR_SHED_CNT_SHED_WRITES : Field := ⟨0x20034, 31, 16⟩
def PWR_SHED_CNT_SHED_READS : Field := ⟨0x20034, 15, 0⟩
def PWR_HOLDUP_STAT_READY : Field := ⟨0x20040, 31, 31⟩
def PWR_HOLDUP_STAT_TEST_FAILED : Field := ⟨0x20040, 30, 30⟩
def PWR_HOLDUP_STAT_ENERGY_DJ : Field := ⟨0x20040, 15, 8⟩
def PWR_HOLDUP_STAT_BANK_QV : Field := ⟨0x20040, 7, 0⟩
def PWR_HOLDUP_CFG_TEST_H : Field := ⟨0x20044, 7, 0⟩

/-! Fields of block THM. -/

def THM_TEMP_DIE_MAX : Field := ⟨0x190000, 31, 16⟩
def THM_TEMP_COLD_PLATE : Field := ⟨0x190000, 15, 0⟩
def THM_STAGE_SENSOR_B_FAULT : Field := ⟨0x190004, 9, 9⟩
def THM_STAGE_SENSOR_A_FAULT : Field := ⟨0x190004, 8, 8⟩
def THM_STAGE_PEAK : Field := ⟨0x190004, 6, 4⟩
def THM_STAGE_STAGE : Field := ⟨0x190004, 2, 0⟩
def THM_CFG_EARLY_C : Field := ⟨0x190008, 3, 0⟩
def THM_TIME_THROTTLE_S : Field := ⟨0x19000c, 31, 0⟩

/-! Fields of block FLT. -/

def FLT_CFG_RAIL_TEST_MS : Field := ⟨0x150000, 15, 8⟩
def FLT_CFG_HANG_MS : Field := ⟨0x150000, 7, 0⟩
def FLT_STATUS_ERR_OUT : Field := ⟨0x150004, 17, 17⟩
def FLT_STATUS_FATAL_LIVE : Field := ⟨0x150004, 16, 16⟩
def FLT_STATUS_STICKY_COUNT : Field := ⟨0x150004, 10, 0⟩
def FLT_FIRST_VALID : Field := ⟨0x150008, 31, 31⟩
def FLT_FIRST_COINCIDENT : Field := ⟨0x150008, 20, 20⟩
def FLT_FIRST_LEVEL : Field := ⟨0x150008, 18, 16⟩
def FLT_FIRST_CLASS : Field := ⟨0x150008, 13, 12⟩
def FLT_FIRST_SRC : Field := ⟨0x150008, 10, 0⟩
def FLT_TIME_LO_TIME_LO : Field := ⟨0x150010, 31, 0⟩
def FLT_TIME_HI_TIME_HI : Field := ⟨0x150014, 31, 0⟩
def FLT_ERR_OUT_ASSERTED : Field := ⟨0x150018, 31, 31⟩
def FLT_ERR_OUT_SRC : Field := ⟨0x150018, 26, 16⟩
def FLT_ERR_OUT_CODE : Field := ⟨0x150018, 15, 0⟩
def FLT_RAIL_STAT_BROKEN : Field := ⟨0x15001c, 26, 16⟩
def FLT_RAIL_STAT_LAST_SRC : Field := ⟨0x15001c, 10, 0⟩
def FLT_ESC_STAT_ESCALATIONS : Field := ⟨0x150020, 15, 0⟩
def FLT_IRQ_CNT_COUNT : Field := ⟨0x150024, 15, 0⟩
def FLT_SWATCH_CTL_ARM : Field := ⟨0x150030, 31, 31⟩
def FLT_SWATCH_CTL_TARGET : Field := ⟨0x150030, 26, 24⟩
def FLT_SWATCH_CTL_BITS : Field := ⟨0x150030, 23, 16⟩
def FLT_SWATCH_CTL_COUNT : Field := ⟨0x150030, 7, 0⟩
def FLT_SWATCH_ADDR_LO_ADDR_LO : Field := ⟨0x150034, 31, 0⟩
def FLT_SWATCH_ADDR_HI_ADDR_HI : Field := ⟨0x150038, 31, 0⟩
def FLT_SRC_STICKY_STICKY (n : Nat) : Field := ⟨0x150100 + 0x4 * n, 31, 0⟩
def FLT_SRC_LIVE_LIVE (n : Nat) : Field := ⟨0x150200 + 0x4 * n, 31, 0⟩
def FLT_SRC_REACT_CLASS (n : Nat) : Field := ⟨0x151000 + 0x4 * n, 25, 24⟩
def FLT_SRC_REACT_ESC_GROUP (n : Nat) : Field := ⟨0x151000 + 0x4 * n, 21, 16⟩
def FLT_SRC_REACT_PIN (n : Nat) : Field := ⟨0x151000 + 0x4 * n, 12, 12⟩
def FLT_SRC_REACT_ESC_MAX (n : Nat) : Field := ⟨0x151000 + 0x4 * n, 10, 8⟩
def FLT_SRC_REACT_ESC (n : Nat) : Field := ⟨0x151000 + 0x4 * n, 6, 4⟩
def FLT_SRC_REACT_LEVEL (n : Nat) : Field := ⟨0x151000 + 0x4 * n, 2, 0⟩

/-! Fields of block REC. -/

def REC_STATUS_READY : Field := ⟨0x160000, 31, 31⟩
def REC_STATUS_FALLBACK : Field := ⟨0x160000, 30, 30⟩
def REC_STATUS_COALESCING : Field := ⟨0x160000, 29, 29⟩
def REC_STATUS_COPY_BACK : Field := ⟨0x160000, 28, 28⟩
def REC_STATUS_SRAM_HELD : Field := ⟨0x160000, 25, 16⟩
def REC_STATUS_FIFO_HELD : Field := ⟨0x160000, 8, 0⟩
def REC_ROW_NEXT_LO_ROW_LO : Field := ⟨0x160004, 31, 0⟩
def REC_ROW_NEXT_HI_ROW_HI : Field := ⟨0x160008, 31, 0⟩
def REC_OLDEST_LO_OLDEST_LO : Field := ⟨0x16000c, 31, 0⟩
def REC_OLDEST_HI_OLDEST_HI : Field := ⟨0x160010, 31, 0⟩
def REC_CFG_SUMMARY_MARK : Field := ⟨0x160014, 7, 0⟩
def REC_COAL_STAT_SUMMARIES : Field := ⟨0x160018, 31, 16⟩
def REC_COAL_STAT_ABSORBED : Field := ⟨0x160018, 15, 0⟩
def REC_LOST_STAT_SRAM_OVERWRITTEN : Field := ⟨0x16001c, 31, 16⟩
def REC_LOST_STAT_LINES_LOST : Field := ⟨0x16001c, 15, 0⟩

/-! Fields of block SEC. -/

def SEC_STATUS_OWNED : Field := ⟨0x170000, 31, 31⟩
def SEC_STATUS_OWNER_LOCK : Field := ⟨0x170000, 30, 30⟩
def SEC_STATUS_TEST_ALLOWED : Field := ⟨0x170000, 29, 29⟩
def SEC_STATUS_TREE1_STARTED : Field := ⟨0x170000, 28, 28⟩
def SEC_STATUS_EXHAUSTED : Field := ⟨0x170000, 27, 27⟩
def SEC_STATUS_TRIAL : Field := ⟨0x170000, 26, 26⟩
def SEC_STATUS_REFUSE : Field := ⟨0x170000, 4, 0⟩
def SEC_SET_ID_SET_ID : Field := ⟨0x170004, 31, 0⟩
def SEC_GOOD_SET_ID_SET_ID : Field := ⟨0x170008, 31, 0⟩
def SEC_MIN_EPOCH_EPOCH : Field := ⟨0x17000c, 31, 0⟩
def SEC_LEAF_NEXT_LEAF : Field := ⟨0x170010, 21, 0⟩
def SEC_ATTEST_CFG_INTERVAL_S : Field := ⟨0x170014, 31, 16⟩
def SEC_ATTEST_CFG_BUDGET_DEPTH : Field := ⟨0x170014, 15, 8⟩
def SEC_UPDATE_CFG_COMMIT_S : Field := ⟨0x170018, 31, 16⟩
def SEC_UPDATE_CFG_TRIAL_S : Field := ⟨0x170018, 15, 8⟩
def SEC_UPDATE_CFG_IDLE_10S : Field := ⟨0x170018, 7, 0⟩
def SEC_SESSION_STATE : Field := ⟨0x17001c, 31, 29⟩
def SEC_SESSION_HOLDER : Field := ⟨0x17001c, 28, 27⟩
def SEC_SESSION_LAST_RESULT : Field := ⟨0x17001c, 23, 16⟩
def SEC_SESSION_LAST_REASON : Field := ⟨0x17001c, 15, 8⟩
def SEC_TRIAL_CODE : Field := ⟨0x170020, 15, 0⟩

end Reg

/-- The registers of block NFE. -/
def regsNFE : List RegDesc :=
  [ -- NFE_LINK_CFG (03_client_queues.md)
      ⟨0x40000, 0x0, 1,
      [⟨23, 16, .rw, (.val 5), .held⟩,
       ⟨1, 1, .rwl, .zero, .held⟩,
       ⟨0, 0, .rwl, .zero, .held⟩]⟩
    , -- NFE_TRANSPORT_CFG (03_client_queues.md)
      ⟨0x40010, 0x0, 1,
      [⟨19, 15, .rw, (.val 14), .held⟩,
       ⟨14, 12, .rw, (.val 3), .held⟩,
       ⟨11, 9, .rw, (.val 7), .held⟩,
       ⟨8, 7, .rw, (.val 2), .held⟩]⟩
    , -- NFE_DSCP_MAP (03_client_queues.md)
      ⟨0x40020, 0x0, 1,
      [⟨31, 31, .rw, (.val 1), .held⟩,
       ⟨29, 24, .rw, (.val 48), .held⟩,
       ⟨23, 18, .rw, (.val 8), .held⟩,
       ⟨17, 12, .rw, (.val 10), .held⟩,
       ⟨11, 6, .rw, (.val 26), .held⟩,
       ⟨5, 0, .rw, (.val 46), .held⟩]⟩
    , -- NFE_CC_CFG (03_client_queues.md)
      ⟨0x40024, 0x0, 1,
      [⟨31, 24, .rw, (.val 50), .held⟩,
       ⟨23, 16, .rw, (.val 8), .held⟩,
       ⟨15, 8, .rw, (.val 55), .held⟩,
       ⟨7, 0, .rw, (.val 4), .held⟩]⟩
    ]

/-- The registers of block QPM. -/
def regsQPM : List RegDesc :=
  [ -- QPM_FETCH_CFG (03_client_queues.md)
      ⟨0x50000, 0x0, 1,
      [⟨21, 16, .rw, (.val 32), .held⟩,
       ⟨15, 8, .rw, (.val 1), .held⟩,
       ⟨7, 4, .rw, (.val 4), .held⟩]⟩
    , -- QPM_OUTCOME_CFG (03_client_queues.md)
      ⟨0x50004, 0x0, 1,
      [⟨7, 0, .rw, (.val 10), .held⟩]⟩
    , -- QPM_QP_COUNT (03_client_queues.md)
      ⟨0x50010, 0x0, 1,
      [⟨14, 0, .ro, .zero, .zero⟩]⟩
    , -- QPM_ERR_STAT (03_client_queues.md)
      ⟨0x50014, 0x0, 1,
      [⟨31, 16, .rc, .zero, .zero⟩,
       ⟨15, 0, .rc, .zero, .zero⟩]⟩
    ]

/-- The registers of block SCH. -/
def regsSCH : List RegDesc :=
  [ -- SCH_VERSION_LO (05_ordering_and_completion.md)
      ⟨0x60000, 0x0, 1,
      [⟨31, 0, .ro, .held, .held⟩]⟩
    , -- SCH_VERSION_HI (05_ordering_and_completion.md)
      ⟨0x60004, 0x0, 1,
      [⟨31, 0, .ro, .held, .held⟩]⟩
    , -- SCH_DUR_CFG (05_ordering_and_completion.md)
      ⟨0x60010, 0x0, 1,
      [⟨15, 0, .rw, (.val 4096), .held⟩]⟩
    , -- SCH_DRAIN_CFG (05_ordering_and_completion.md)
      ⟨0x60014, 0x0, 1,
      [⟨26, 16, .rwl, (.val 1000), .held⟩,
       ⟨7, 0, .rw, (.val 50), .held⟩]⟩
    , -- SCH_RETAIN_STAT (05_ordering_and_completion.md)
      ⟨0x60020, 0x0, 1,
      [⟨20, 0, .ro, (.val 1048576), .held⟩]⟩
    , -- SCH_REPLAY_STAT (05_ordering_and_completion.md)
      ⟨0x60024, 0x0, 1,
      [⟨31, 16, .rc, .zero, .zero⟩,
       ⟨15, 0, .rc, .zero, .zero⟩]⟩
    ]

/-- The registers of block IDX. -/
def regsIDX : List RegDesc :=
  [ -- IDX_STATUS (06_index_and_express_path.md)
      ⟨0x70000, 0x0, 1,
      [⟨3, 3, .ro, .zero, .zero⟩,
       ⟨2, 2, .ro, .zero, .zero⟩,
       ⟨1, 1, .ro, .zero, .zero⟩,
       ⟨0, 0, .ro, .zero, .zero⟩]⟩
    , -- IDX_KEYS_LO (06_index_and_express_path.md)
      ⟨0x70004, 0x0, 1,
      [⟨31, 0, .ro, .zero, .held⟩]⟩
    , -- IDX_KEYS_HI (06_index_and_express_path.md)
      ⟨0x70008, 0x0, 1,
      [⟨0, 0, .ro, .zero, .held⟩]⟩
    , -- IDX_PINS (06_index_and_express_path.md)
      ⟨0x7000c, 0x0, 1,
      [⟨24, 0, .ro, .zero, .held⟩]⟩
    , -- IDX_INSERT_CFG (06_index_and_express_path.md)
      ⟨0x70010, 0x0, 1,
      [⟨7, 0, .rw, (.val 64), .held⟩]⟩
    , -- IDX_REBUILD_MARK_LO (06_index_and_express_path.md)
      ⟨0x70014, 0x0, 1,
      [⟨31, 0, .ro, .zero, .zero⟩]⟩
    , -- IDX_REBUILD_MARK_HI (06_index_and_express_path.md)
      ⟨0x70018, 0x0, 1,
      [⟨31, 0, .ro, .zero, .zero⟩]⟩
    , -- IDX_LOOKUP_STAT (06_index_and_express_path.md)
      ⟨0x7001c, 0x0, 1,
      [⟨31, 16, .rc, .zero, .zero⟩,
       ⟨15, 0, .rc, .zero, .zero⟩]⟩
    , -- IDX_EXPRESS_LAT (06_index_and_express_path.md)
      ⟨0x70020, 0x0, 1,
      [⟨15, 0, .rc, .zero, .zero⟩]⟩
    , -- IDX_POISON_STAT (06_index_and_express_path.md)
      ⟨0x70024, 0x0, 1,
      [⟨8, 0, .ro, .zero, .zero⟩]⟩
    , -- IDX_MIRROR_CFG (06_index_and_express_path.md)
      ⟨0x70028, 0x0, 1,
      [⟨0, 0, .rwl, (.val 1), .held⟩]⟩
    ]

/-- The registers of block MCH. -/
def regsMCH : List RegDesc :=
  [ -- MCH_CFG (07_match_engine.md)
      ⟨0x80000, 0x0, 1,
      [⟨1, 0, .rwl, .zero, .held⟩]⟩
    , -- MCH_STATUS (07_match_engine.md)
      ⟨0x80004, 0x0, 1,
      [⟨31, 28, .ro, .zero, .held⟩,
       ⟨27, 27, .ro, .zero, .zero⟩,
       ⟨26, 20, .ro, .zero, .zero⟩,
       ⟨19, 0, .ro, .zero, .held⟩]⟩
    , -- MCH_POLICY_MASK_n (07_match_engine.md)
      ⟨0x80010, 0x4, 4,
      [⟨31, 0, .rw, .zero, .held⟩]⟩
    , -- MCH_AUTO_CFG (07_match_engine.md)
      ⟨0x80020, 0x0, 1,
      [⟨8, 0, .rw, (.val 64), .held⟩]⟩
    , -- MCH_SCRUB_CFG (07_match_engine.md)
      ⟨0x80024, 0x0, 1,
      [⟨5, 0, .rwl, (.val 10), .held⟩]⟩
    , -- MCH_ERR_STAT (07_match_engine.md)
      ⟨0x80028, 0x0, 1,
      [⟨31, 16, .rc, .zero, .zero⟩,
       ⟨15, 0, .rc, .zero, .zero⟩]⟩
    , -- MCH_HALVES_STAT (07_match_engine.md)
      ⟨0x8002c, 0x0, 1,
      [⟨23, 16, .ro, .zero, .zero⟩,
       ⟨8, 0, .ro, .zero, .zero⟩]⟩
    ]

/-- The registers of block MD. -/
def regsMD : List RegDesc :=
  [ -- MDn_ID (07_match_engine.md)
      ⟨0xa0000, 0x10000, 4,
      [⟨7, 4, .ro, (.val 1), (.val 1)⟩,
       ⟨1, 0, .ro, .index, .index⟩]⟩
    , -- MDn_PREFIX_ON (07_match_engine.md)
      ⟨0xa0004, 0x10000, 4,
      [⟨31, 0, .ro, .zero, .zero⟩]⟩
    , -- MDn_AUTO_ON (07_match_engine.md)
      ⟨0xa0008, 0x10000, 4,
      [⟨31, 0, .ro, .zero, .zero⟩]⟩
    ]

/-- The registers of block VAL. -/
def regsVAL : List RegDesc :=
  [ -- VAL_CFG (08_value_path_and_check_values.md)
      ⟨0xe0000, 0x0, 1,
      [⟨15, 0, .rw, (.val 256), .held⟩]⟩
    , -- VAL_STATUS (08_value_path_and_check_values.md)
      ⟨0xe0004, 0x0, 1,
      [⟨22, 16, .ro, .zero, .zero⟩,
       ⟨13, 8, .ro, .zero, .zero⟩,
       ⟨4, 0, .ro, .zero, .zero⟩]⟩
    , -- VAL_REPAIR_STAT (08_value_path_and_check_values.md)
      ⟨0xe0008, 0x0, 1,
      [⟨31, 16, .rc, .zero, .zero⟩,
       ⟨15, 0, .rc, .zero, .zero⟩]⟩
    , -- VAL_READ_STAT (08_value_path_and_check_values.md)
      ⟨0xe000c, 0x0, 1,
      [⟨31, 16, .rc, .zero, .zero⟩,
       ⟨15, 0, .rc, .zero, .zero⟩]⟩
    , -- VAL_COMP_STAT (08_value_path_and_check_values.md)
      ⟨0xe0010, 0x0, 1,
      [⟨31, 16, .rc, .zero, .zero⟩,
       ⟨15, 0, .rc, .zero, .zero⟩]⟩
    , -- VAL_E2E_STAT (08_value_path_and_check_values.md)
      ⟨0xe0014, 0x0, 1,
      [⟨15, 0, .rc, .zero, .zero⟩]⟩
    , -- VAL_SWATCH (08_value_path_and_check_values.md)
      ⟨0xe0020, 0x0, 1,
      [⟨9, 9, .rwl, .zero, .zero⟩,
       ⟨8, 8, .rw, .zero, .zero⟩,
       ⟨7, 0, .rw, .zero, .zero⟩]⟩
    ]

/-- The registers of block CIP. -/
def regsCIP : List RegDesc :=
  [ -- CIP_CFG (09_cipher_and_key_slots.md)
      ⟨0xf0000, 0x0, 1,
      [⟨7, 0, .rw, (.val 10), .held⟩]⟩
    , -- CIP_STATUS (09_cipher_and_key_slots.md)
      ⟨0xf0004, 0x0, 1,
      [⟨31, 31, .ro, .zero, .zero⟩,
       ⟨30, 30, .ro, .zero, .zero⟩,
       ⟨29, 29, .ro, .zero, .zero⟩,
       ⟨26, 16, .ro, .zero, .zero⟩,
       ⟨15, 0, .ro, (.val 65535), (.val 65535)⟩]⟩
    , -- CIP_ALARM_EN (09_cipher_and_key_slots.md)
      ⟨0xf0010, 0x0, 1,
      [⟨4, 0, .rwl, (.val 31), .held⟩]⟩
    , -- CIP_ALARM_ERASE (09_cipher_and_key_slots.md)
      ⟨0xf0014, 0x0, 1,
      [⟨4, 0, .rwl, (.val 17), .held⟩]⟩
    , -- CIP_ALARM_STAT (09_cipher_and_key_slots.md)
      ⟨0xf0018, 0x0, 1,
      [⟨4, 0, .ro, .zero, .zero⟩]⟩
    , -- CIP_ALARM_SW (09_cipher_and_key_slots.md)
      ⟨0xf001c, 0x0, 1,
      [⟨15, 0, .wo, .zero, .zero⟩]⟩
    , -- CIP_SLOT_SEL (09_cipher_and_key_slots.md)
      ⟨0xf0020, 0x0, 1,
      [⟨10, 0, .rw, .zero, .held⟩]⟩
    , -- CIP_SLOT_INFO (09_cipher_and_key_slots.md)
      ⟨0xf0024, 0x0, 1,
      [⟨31, 30, .ro, .zero, .zero⟩,
       ⟨29, 29, .ro, .zero, .zero⟩,
       ⟨15, 0, .ro, .zero, .zero⟩]⟩
    , -- CIP_SLOT_EPOCH (09_cipher_and_key_slots.md)
      ⟨0xf0028, 0x0, 1,
      [⟨31, 0, .ro, .zero, .zero⟩]⟩
    , -- CIP_SLOT_CTR_LO (09_cipher_and_key_slots.md)
      ⟨0xf002c, 0x0, 1,
      [⟨31, 0, .ro, .zero, .zero⟩]⟩
    , -- CIP_SLOT_CTR_HI (09_cipher_and_key_slots.md)
      ⟨0xf0030, 0x0, 1,
      [⟨31, 0, .ro, .zero, .zero⟩]⟩
    , -- CIP_SLOT_SERIAL (09_cipher_and_key_slots.md)
      ⟨0xf0034, 0x0, 1,
      [⟨31, 16, .ro, .zero, .zero⟩,
       ⟨15, 0, .ro, .zero, .zero⟩]⟩
    , -- CIP_CTR_TEST (09_cipher_and_key_slots.md)
      ⟨0xf0040, 0x0, 1,
      [⟨31, 31, .rwl, .zero, .zero⟩,
       ⟨30, 30, .wo, .zero, .zero⟩,
       ⟨15, 0, .rw, .zero, .zero⟩]⟩
    , -- CIP_AUTH_STAT (09_cipher_and_key_slots.md)
      ⟨0xf0044, 0x0, 1,
      [⟨31, 16, .rc, .zero, .zero⟩,
       ⟨15, 0, .rc, .zero, .zero⟩]⟩
    , -- CIP_LANE_STAT (09_cipher_and_key_slots.md)
      ⟨0xf0048, 0x0, 1,
      [⟨31, 16, .rc, .zero, .zero⟩,
       ⟨15, 0, .rc, .zero, .zero⟩]⟩
    ]

/-- The registers of block LDG. -/
def regsLDG : List RegDesc :=
  [ -- LDG_STATUS (10_ledger.md)
      ⟨0x100000, 0x0, 1,
      [⟨11, 8, .ro, .held, .held⟩,
       ⟨3, 3, .ro, .held, .held⟩,
       ⟨2, 2, .ro, .held, .held⟩,
       ⟨1, 1, .ro, .held, .held⟩,
       ⟨0, 0, .ro, .zero, .zero⟩]⟩
    , -- LDG_GAUGE_LEVEL (10_ledger.md)
      ⟨0x100004, 0x0, 1,
      [⟨28, 0, .ro, .zero, .zero⟩]⟩
    , -- LDG_GAUGE_CFG (10_ledger.md)
      ⟨0x100008, 0x0, 1,
      [⟨28, 16, .rw, (.val 512), .held⟩,
       ⟨12, 0, .rw, (.val 16), .held⟩]⟩
    , -- LDG_GAUGE_STAT (10_ledger.md)
      ⟨0x10000c, 0x0, 1,
      [⟨31, 16, .rc, .zero, .zero⟩,
       ⟨15, 0, .rc, .zero, .zero⟩]⟩
    , -- LDG_ROT_CFG (10_ledger.md)
      ⟨0x100010, 0x0, 1,
      [⟨7, 0, .rwl, (.val 128), .held⟩]⟩
    , -- LDG_WEAR_STAT (10_ledger.md)
      ⟨0x100014, 0x0, 1,
      [⟨15, 8, .ro, .held, .held⟩,
       ⟨7, 0, .ro, .held, .held⟩]⟩
    , -- LDG_SPARE_STAT (10_ledger.md)
      ⟨0x100018, 0x0, 1,
      [⟨21, 0, .ro, .held, .held⟩]⟩
    , -- LDG_UNMETERED (10_ledger.md)
      ⟨0x10001c, 0x0, 1,
      [⟨31, 0, .rc, .zero, .zero⟩]⟩
    , -- LDG_CLASS_FREE_n (10_ledger.md)
      ⟨0x100020, 0x4, 5,
      [⟨21, 0, .ro, .held, .held⟩]⟩
    ]

/-- The registers of block FTL. -/
def regsFTL : List RegDesc :=
  [ -- FTL_SLC_CFG (11_flash_layout_and_mapping.md)
      ⟨0x110000, 0x0, 1,
      [⟨23, 16, .rw, (.val 10), .held⟩,
       ⟨15, 8, .rw, (.val 50), .held⟩,
       ⟨7, 0, .rw, (.val 10), .held⟩]⟩
    , -- FTL_SLC_STAT (11_flash_layout_and_mapping.md)
      ⟨0x110004, 0x0, 1,
      [⟨31, 16, .ro, .zero, .zero⟩,
       ⟨15, 0, .ro, .zero, .zero⟩]⟩
    , -- FTL_FILL (11_flash_layout_and_mapping.md)
      ⟨0x110008, 0x0, 1,
      [⟨9, 0, .ro, .zero, .zero⟩]⟩
    , -- FTL_MAP_CFG (11_flash_layout_and_mapping.md)
      ⟨0x11000c, 0x0, 1,
      [⟨15, 8, .rw, (.val 90), .held⟩,
       ⟨7, 0, .rw, (.val 75), .held⟩]⟩
    , -- FTL_MAP_STAT (11_flash_layout_and_mapping.md)
      ⟨0x110010, 0x0, 1,
      [⟨22, 0, .ro, .zero, .zero⟩]⟩
    , -- FTL_STATUS (11_flash_layout_and_mapping.md)
      ⟨0x110014, 0x0, 1,
      [⟨1, 1, .ro, .zero, .zero⟩,
       ⟨0, 0, .ro, .zero, .zero⟩]⟩
    , -- FTL_GC_WEAR_K (12_flash_upkeep.md)
      ⟨0x110020, 0x0, 1,
      [⟨9, 0, .rw, (.val 128), .held⟩]⟩
    , -- FTL_UPKEEP_CFG (12_flash_upkeep.md)
      ⟨0x110024, 0x0, 1,
      [⟨31, 16, .rw, (.val 768), .held⟩,
       ⟨15, 0, .rw, (.val 1200), .held⟩]⟩
    , -- FTL_REFRESH_CFG (12_flash_upkeep.md)
      ⟨0x110028, 0x0, 1,
      [⟨15, 8, .rw, (.val 7), .held⟩,
       ⟨7, 0, .rw, (.val 30), .held⟩]⟩
    , -- FTL_WEAR_CFG (12_flash_upkeep.md)
      ⟨0x11002c, 0x0, 1,
      [⟨31, 20, .rwl, (.val 2250), .held⟩,
       ⟨19, 10, .rw, (.val 150), .held⟩,
       ⟨9, 0, .rw, (.val 705), .held⟩]⟩
    , -- FTL_SB_STAT (12_flash_upkeep.md)
      ⟨0x110030, 0x0, 1,
      [⟨27, 18, .ro, .zero, .zero⟩,
       ⟨17, 0, .ro, .zero, .zero⟩]⟩
    , -- FTL_SPARE_STAT (12_flash_upkeep.md)
      ⟨0x110034, 0x0, 1,
      [⟨31, 23, .ro, .zero, .zero⟩,
       ⟨18, 0, .ro, .held, .held⟩]⟩
    , -- FTL_WEAR_STAT (12_flash_upkeep.md)
      ⟨0x110038, 0x0, 1,
      [⟨31, 16, .ro, .held, .held⟩,
       ⟨15, 0, .ro, .held, .held⟩]⟩
    , -- FTL_UPKEEP_STAT (12_flash_upkeep.md)
      ⟨0x11003c, 0x0, 1,
      [⟨31, 16, .rc, .zero, .zero⟩,
       ⟨15, 0, .rc, .zero, .zero⟩]⟩
    , -- FTL_BINDOFF (12_flash_upkeep.md)
      ⟨0x110040, 0x0, 1,
      [⟨15, 8, .ro, .held, .held⟩,
       ⟨1, 1, .ro, .held, .held⟩,
       ⟨0, 0, .ro, .held, .held⟩]⟩
    ]

/-- The registers of block FCH. -/
def regsFCH : List RegDesc :=
  [ -- FCH_CH_CFG (11_flash_layout_and_mapping.md)
      ⟨0x120000, 0x400, 64,
      [⟨31, 24, .rw, (.val 8), .held⟩,
       ⟨23, 0, .rwl, (.val 16777215), .held⟩]⟩
    , -- FCH_CH_SUSPEND (11_flash_layout_and_mapping.md)
      ⟨0x120004, 0x400, 64,
      [⟨12, 0, .rw, (.val 100), .held⟩]⟩
    , -- FCH_CH_STATUS (11_flash_layout_and_mapping.md)
      ⟨0x120008, 0x400, 64,
      [⟨31, 31, .ro, .held, .held⟩,
       ⟨23, 0, .ro, .held, .held⟩]⟩
    , -- FCH_CH_LDPC (11_flash_layout_and_mapping.md)
      ⟨0x12000c, 0x400, 64,
      [⟨31, 16, .rc, .zero, .zero⟩,
       ⟨15, 0, .rc, .zero, .zero⟩]⟩
    ]

/-- The registers of block PEER. -/
def regsPEER : List RegDesc :=
  [ -- PEER_CFG (13_peer_chains.md)
      ⟨0x130000, 0x0, 1,
      [⟨27, 20, .rw, (.val 100), .held⟩,
       ⟨19, 12, .rw, (.val 10), .held⟩,
       ⟨11, 0, .rwl, .zero, .held⟩]⟩
    , -- PEER_TIMEOUT_CFG (13_peer_chains.md)
      ⟨0x130004, 0x0, 1,
      [⟨9, 0, .rw, (.val 150), .held⟩]⟩
    , -- PEER_REVOKE_CFG (13_peer_chains.md)
      ⟨0x130008, 0x0, 1,
      [⟨5, 0, .rw, (.val 5), .held⟩]⟩
    , -- PEER_STATUS (13_peer_chains.md)
      ⟨0x13000c, 0x0, 1,
      [⟨31, 31, .ro, .zero, .zero⟩,
       ⟨23, 12, .ro, .zero, .zero⟩,
       ⟨11, 0, .ro, .zero, .zero⟩]⟩
    , -- PEER_LINK_SEL (13_peer_chains.md)
      ⟨0x130010, 0x0, 1,
      [⟨11, 0, .rw, .zero, .held⟩]⟩
    , -- PEER_LINK_STATE (13_peer_chains.md)
      ⟨0x130014, 0x0, 1,
      [⟨31, 30, .ro, .zero, .zero⟩,
       ⟨29, 29, .ro, .zero, .zero⟩,
       ⟨28, 28, .ro, .zero, .zero⟩,
       ⟨15, 0, .ro, .zero, .zero⟩]⟩
    , -- PEER_CHAIN_STAT (13_peer_chains.md)
      ⟨0x130018, 0x0, 1,
      [⟨31, 16, .rc, .zero, .zero⟩,
       ⟨15, 0, .rc, .zero, .zero⟩]⟩
    , -- PEER_REPAIR_STAT (13_peer_chains.md)
      ⟨0x13001c, 0x0, 1,
      [⟨31, 16, .rc, .zero, .zero⟩,
       ⟨15, 0, .rc, .zero, .zero⟩]⟩
    ]

/-- The registers of block SYS. -/
def regsSYS : List RegDesc :=
  [ -- SYS_LOCK_ALL (14_engine_rings_and_setup.md)
      ⟨0x10, 0x0, 1,
      [⟨0, 0, .w1s, .zero, .zero⟩]⟩
    , -- SYS_MODULE (20_module_signals_and_ratings.md)
      ⟨0x20, 0x0, 1,
      [⟨7, 7, .ro, .zero, .zero⟩,
       ⟨6, 6, .ro, (.val 1), (.val 1)⟩,
       ⟨5, 5, .ro, .zero, .zero⟩,
       ⟨4, 4, .ro, .zero, .zero⟩,
       ⟨2, 0, .ro, .held, .held⟩]⟩
    , -- SYS_ATTN (20_module_signals_and_ratings.md)
      ⟨0x24, 0x0, 1,
      [⟨15, 8, .rw, (.val 127), .held⟩,
       ⟨6, 6, .rw, .zero, .zero⟩,
       ⟨5, 5, .ro, .zero, .zero⟩,
       ⟨4, 4, .ro, .zero, .zero⟩,
       ⟨3, 3, .ro, .zero, .held⟩,
       ⟨2, 2, .ro, .held, .held⟩,
       ⟨1, 1, .ro, .held, .held⟩]⟩
    , -- SYS_LED (20_module_signals_and_ratings.md)
      ⟨0x28, 0x0, 1,
      [⟨0, 0, .rw, .zero, .zero⟩]⟩
    ]

/-- The registers of block ENG. -/
def regsENG : List RegDesc :=
  [ -- ENG_HOLD (14_engine_rings_and_setup.md)
      ⟨0x140000, 0x0, 1,
      [⟨0, 0, .rw, .zero, .zero⟩]⟩
    , -- ENG_ATTACH (14_engine_rings_and_setup.md)
      ⟨0x140004, 0x0, 1,
      [⟨15, 0, .wo, .zero, .zero⟩]⟩
    , -- ENG_IRQ_STAT (14_engine_rings_and_setup.md)
      ⟨0x140010, 0x0, 1,
      [⟨17, 17, .w1c, .zero, .zero⟩,
       ⟨16, 16, .ro, .zero, .zero⟩,
       ⟨9, 0, .w1c, .zero, .zero⟩]⟩
    , -- ENG_IRQ_ROUTE_m (14_engine_rings_and_setup.md)
      ⟨0x140100, 0x4, 18,
      [⟨31, 31, .rw, (.val 1), .held⟩,
       ⟨4, 0, .rw, .irqCore, .held⟩]⟩
    , -- ENG_CREDIT_SEL (14_engine_rings_and_setup.md)
      ⟨0x140020, 0x0, 1,
      [⟨13, 12, .rw, .zero, .held⟩,
       ⟨11, 8, .rw, .zero, .held⟩,
       ⟨5, 0, .rw, .zero, .held⟩]⟩
    , -- ENG_CREDIT_VIEW (14_engine_rings_and_setup.md)
      ⟨0x140024, 0x0, 1,
      [⟨31, 16, .ro, (.val 256), (.val 256)⟩,
       ⟨15, 0, .ro, (.val 256), (.val 256)⟩]⟩
    , -- ENG_CREDIT_FREE (14_engine_rings_and_setup.md)
      ⟨0x140028, 0x0, 1,
      [⟨15, 0, .ro, (.val 256), (.val 256)⟩]⟩
    , -- ENG_RING_CFG_n (14_engine_rings_and_setup.md)
      ⟨0x141000, 0x20, 16,
      [⟨31, 31, .rw, .zero, .zero⟩,
       ⟨30, 30, .ro, .zero, .zero⟩,
       ⟨29, 29, .rw, .zero, .held⟩,
       ⟨28, 28, .ro, .zero, .zero⟩,
       ⟨9, 8, .rw, .ringClass, .held⟩,
       ⟨4, 0, .rw, (.val 6), .held⟩]⟩
    , -- ENG_SQ_BASE_n (14_engine_rings_and_setup.md)
      ⟨0x141004, 0x20, 16,
      [⟨23, 0, .rw, .zero, .held⟩]⟩
    , -- ENG_CQ_BASE_n (14_engine_rings_and_setup.md)
      ⟨0x141008, 0x20, 16,
      [⟨23, 0, .rw, .zero, .held⟩]⟩
    , -- ENG_SQ_PTR_n (14_engine_rings_and_setup.md)
      ⟨0x14100c, 0x20, 16,
      [⟨31, 16, .rw, .zero, .zero⟩,
       ⟨15, 0, .ro, .zero, .zero⟩]⟩
    , -- ENG_CQ_PTR_n (14_engine_rings_and_setup.md)
      ⟨0x141010, 0x20, 16,
      [⟨31, 16, .rw, .zero, .zero⟩,
       ⟨15, 0, .ro, .zero, .zero⟩]⟩
    ]

/-- The registers of block RST. -/
def regsRST : List RegDesc :=
  [ -- RST_CAUSE (15_cast_on_and_pick_up.md)
      ⟨0x30000, 0x0, 1,
      [⟨23, 16, .ro, .held, .held⟩,
       ⟨9, 9, .ro, .held, .held⟩,
       ⟨8, 8, .ro, .zero, (.val 1)⟩,
       ⟨7, 0, .ro, .held, .held⟩]⟩
    , -- RST_START (15_cast_on_and_pick_up.md)
      ⟨0x30004, 0x0, 1,
      [⟨31, 31, .w1s, .zero, .zero⟩,
       ⟨7, 0, .ro, (.val 1), (.val 1)⟩]⟩
    , -- RST_FAILED_STARTS (15_cast_on_and_pick_up.md)
      ⟨0x30008, 0x0, 1,
      [⟨31, 31, .ro, .held, .held⟩,
       ⟨1, 0, .ro, .held, .held⟩]⟩
    , -- RST_START_CFG (15_cast_on_and_pick_up.md)
      ⟨0x3000c, 0x0, 1,
      [⟨16, 16, .rw, .zero, .zero⟩,
       ⟨9, 0, .rwl, (.heldFrom 120), .held⟩]⟩
    , -- RST_SOFT (15_cast_on_and_pick_up.md)
      ⟨0x30010, 0x0, 1,
      [⟨15, 0, .wo, .zero, .zero⟩]⟩
    , -- RST_DIGEST_STAT (15_cast_on_and_pick_up.md)
      ⟨0x30014, 0x0, 1,
      [⟨12, 8, .ro, .zero, .held⟩,
       ⟨4, 0, .ro, .zero, .held⟩]⟩
    , -- RST_START_TIME (15_cast_on_and_pick_up.md)
      ⟨0x30018, 0x0, 1,
      [⟨31, 0, .ro, .held, .held⟩]⟩
    ]

/-- The registers of block PWR. -/
def regsPWR : List RegDesc :=
  [ -- PWR_PS_CFG (16_power_thermal_and_shedding.md)
      ⟨0x20000, 0x0, 1,
      [⟨31, 24, .rw, .zero, .held⟩,
       ⟨15, 8, .rw, (.val 10), .held⟩,
       ⟨7, 0, .rw, (.val 10), .held⟩]⟩
    , -- PWR_PS_STAT (16_power_thermal_and_shedding.md)
      ⟨0x20004, 0x0, 1,
      [⟨31, 30, .ro, .zero, .zero⟩,
       ⟨18, 16, .ro, .zero, .zero⟩,
       ⟨15, 0, .rc, .zero, .zero⟩]⟩
    , -- PWR_PS_CTL (16_power_thermal_and_shedding.md)
      ⟨0x20008, 0x0, 1,
      [⟨15, 0, .wo, .zero, .zero⟩]⟩
    , -- PWR_DOMAIN_ON (16_power_thermal_and_shedding.md)
      ⟨0x20010, 0x0, 1,
      [⟨29, 0, .ro, (.val 1073741823), (.val 1073741823)⟩]⟩
    , -- PWR_DOMAIN_RET (16_power_thermal_and_shedding.md)
      ⟨0x20014, 0x0, 1,
      [⟨29, 0, .ro, .zero, .zero⟩]⟩
    , -- PWR_PHASE_FAULT (16_power_thermal_and_shedding.md)
      ⟨0x20018, 0x0, 1,
      [⟨10, 0, .w1c, .zero, .held⟩]⟩
    , -- PWR_INPUT (16_power_thermal_and_shedding.md)
      ⟨0x20020, 0x0, 1,
      [⟨31, 16, .ro, .zero, .zero⟩,
       ⟨15, 0, .ro, .zero, .zero⟩]⟩
    , -- PWR_INPUT_MIN (16_power_thermal_and_shedding.md)
      ⟨0x20024, 0x0, 1,
      [⟨15, 0, .rc, (.val 65535), (.val 65535)⟩]⟩
    , -- PWR_POWER (16_power_thermal_and_shedding.md)
      ⟨0x20028, 0x0, 1,
      [⟨31, 16, .ro, .zero, .zero⟩,
       ⟨15, 0, .ro, .zero, .zero⟩]⟩
    , -- PWR_SHED_STAT (16_power_thermal_and_shedding.md)
      ⟨0x20030, 0x0, 1,
      [⟨31, 31, .ro, .zero, .zero⟩,
       ⟨19, 16, .w1c, .zero, .zero⟩,
       ⟨3, 0, .ro, .zero, .zero⟩]⟩
    , -- PWR_SHED_CNT (16_power_thermal_and_shedding.md)
      ⟨0x20034, 0x0, 1,
      [⟨31, 16, .rc, .zero, .zero⟩,
       ⟨15, 0, .rc, .zero, .zero⟩]⟩
    , -- PWR_HOLDUP_STAT (16_power_thermal_and_shedding.md)
      ⟨0x20040, 0x0, 1,
      [⟨31, 31, .ro, .zero, .zero⟩,
       ⟨30, 30, .ro, .zero, .held⟩,
       ⟨15, 8, .ro, .zero, .zero⟩,
       ⟨7, 0, .ro, .zero, .zero⟩]⟩
    , -- PWR_HOLDUP_CFG (16_power_thermal_and_shedding.md)
      ⟨0x20044, 0x0, 1,
      [⟨7, 0, .rw, (.val 24), .held⟩]⟩
    ]

/-- The registers of block THM. -/
def regsTHM : List RegDesc :=
  [ -- THM_TEMP (16_power_thermal_and_shedding.md)
      ⟨0x190000, 0x0, 1,
      [⟨31, 16, .ro, .zero, .zero⟩,
       ⟨15, 0, .ro, .zero, .zero⟩]⟩
    , -- THM_STAGE (16_power_thermal_and_shedding.md)
      ⟨0x190004, 0x0, 1,
      [⟨9, 9, .ro, .zero, .zero⟩,
       ⟨8, 8, .ro, .zero, .zero⟩,
       ⟨6, 4, .rc, .zero, .zero⟩,
       ⟨2, 0, .ro, .zero, .zero⟩]⟩
    , -- THM_CFG (16_power_thermal_and_shedding.md)
      ⟨0x190008, 0x0, 1,
      [⟨3, 0, .rwl, .zero, .held⟩]⟩
    , -- THM_TIME (16_power_thermal_and_shedding.md)
      ⟨0x19000c, 0x0, 1,
      [⟨31, 0, .rc, .zero, .zero⟩]⟩
    ]

/-- The registers of block FLT. -/
def regsFLT : List RegDesc :=
  [ -- FLT_CFG (17_fault_collection.md)
      ⟨0x150000, 0x0, 1,
      [⟨15, 8, .rwl, (.val 100), .held⟩,
       ⟨7, 0, .rwl, (.val 20), .held⟩]⟩
    , -- FLT_STATUS (17_fault_collection.md)
      ⟨0x150004, 0x0, 1,
      [⟨17, 17, .ro, .held, .held⟩,
       ⟨16, 16, .ro, .zero, .zero⟩,
       ⟨10, 0, .ro, .held, .held⟩]⟩
    , -- FLT_FIRST (17_fault_collection.md)
      ⟨0x150008, 0x0, 1,
      [⟨31, 31, .w1c, .held, .held⟩,
       ⟨20, 20, .ro, .held, .held⟩,
       ⟨18, 16, .ro, .held, .held⟩,
       ⟨13, 12, .ro, .held, .held⟩,
       ⟨10, 0, .ro, .held, .held⟩]⟩
    , -- FLT_TIME_LO (17_fault_collection.md)
      ⟨0x150010, 0x0, 1,
      [⟨31, 0, .ro, .held, .held⟩]⟩
    , -- FLT_TIME_HI (17_fault_collection.md)
      ⟨0x150014, 0x0, 1,
      [⟨31, 0, .ro, .held, .held⟩]⟩
    , -- FLT_ERR_OUT (17_fault_collection.md)
      ⟨0x150018, 0x0, 1,
      [⟨31, 31, .ro, .held, .held⟩,
       ⟨26, 16, .ro, .held, .held⟩,
       ⟨15, 0, .wo, .zero, .zero⟩]⟩
    , -- FLT_RAIL_STAT (17_fault_collection.md)
      ⟨0x15001c, 0x0, 1,
      [⟨26, 16, .ro, .zero, .zero⟩,
       ⟨10, 0, .ro, .zero, .zero⟩]⟩
    , -- FLT_ESC_STAT (17_fault_collection.md)
      ⟨0x150020, 0x0, 1,
      [⟨15, 0, .rc, .zero, .zero⟩]⟩
    , -- FLT_IRQ_CNT (17_fault_collection.md)
      ⟨0x150024, 0x0, 1,
      [⟨15, 0, .rc, .zero, .zero⟩]⟩
    , -- FLT_SWATCH_CTL (17_fault_collection.md)
      ⟨0x150030, 0x0, 1,
      [⟨31, 31, .rwl, .zero, .zero⟩,
       ⟨26, 24, .rw, .zero, .zero⟩,
       ⟨23, 16, .rw, .zero, .zero⟩,
       ⟨7, 0, .rw, .zero, .zero⟩]⟩
    , -- FLT_SWATCH_ADDR_LO (17_fault_collection.md)
      ⟨0x150034, 0x0, 1,
      [⟨31, 0, .rw, .zero, .zero⟩]⟩
    , -- FLT_SWATCH_ADDR_HI (17_fault_collection.md)
      ⟨0x150038, 0x0, 1,
      [⟨31, 0, .rw, .zero, .zero⟩]⟩
    , -- FLT_SRC_STICKY_m (17_fault_collection.md)
      ⟨0x150100, 0x4, 36,
      [⟨31, 0, .w1c, .held, .held⟩]⟩
    , -- FLT_SRC_LIVE_m (17_fault_collection.md)
      ⟨0x150200, 0x4, 36,
      [⟨31, 0, .ro, .zero, .zero⟩]⟩
    , -- FLT_SRC_REACT_n (17_fault_collection.md)
      ⟨0x151000, 0x4, 1152,
      [⟨25, 24, .ro, .held, .held⟩,
       ⟨21, 16, .rwl, .zero, .held⟩,
       ⟨12, 12, .rwl, .reactPin, .held⟩,
       ⟨10, 8, .rwl, .reactEscMax, .held⟩,
       ⟨6, 4, .ro, .held, .held⟩,
       ⟨2, 0, .rwl, .reactLevel, .held⟩]⟩
    ]

/-- The registers of block REC. -/
def regsREC : List RegDesc :=
  [ -- REC_STATUS (18_event_recorder.md)
      ⟨0x160000, 0x0, 1,
      [⟨31, 31, .ro, .zero, .zero⟩,
       ⟨30, 30, .ro, .held, .held⟩,
       ⟨29, 29, .ro, .held, .held⟩,
       ⟨28, 28, .ro, .zero, .zero⟩,
       ⟨25, 16, .ro, .held, .held⟩,
       ⟨8, 0, .ro, .held, .held⟩]⟩
    , -- REC_ROW_NEXT_LO (18_event_recorder.md)
      ⟨0x160004, 0x0, 1,
      [⟨31, 0, .ro, .held, .held⟩]⟩
    , -- REC_ROW_NEXT_HI (18_event_recorder.md)
      ⟨0x160008, 0x0, 1,
      [⟨31, 0, .ro, .held, .held⟩]⟩
    , -- REC_OLDEST_LO (18_event_recorder.md)
      ⟨0x16000c, 0x0, 1,
      [⟨31, 0, .ro, .zero, .zero⟩]⟩
    , -- REC_OLDEST_HI (18_event_recorder.md)
      ⟨0x160010, 0x0, 1,
      [⟨31, 0, .ro, .zero, .zero⟩]⟩
    , -- REC_CFG (18_event_recorder.md)
      ⟨0x160014, 0x0, 1,
      [⟨7, 0, .rw, (.val 64), .held⟩]⟩
    , -- REC_COAL_STAT (18_event_recorder.md)
      ⟨0x160018, 0x0, 1,
      [⟨31, 16, .rc, .zero, .zero⟩,
       ⟨15, 0, .rc, .zero, .zero⟩]⟩
    , -- REC_LOST_STAT (18_event_recorder.md)
      ⟨0x16001c, 0x0, 1,
      [⟨31, 16, .rc, .zero, .zero⟩,
       ⟨15, 0, .rc, .zero, .zero⟩]⟩
    ]

/-- The registers of block SEC. -/
def regsSEC : List RegDesc :=
  [ -- SEC_STATUS (19_identity_attestation_and_update.md)
      ⟨0x170000, 0x0, 1,
      [⟨31, 31, .ro, .held, .held⟩,
       ⟨30, 30, .ro, .held, .held⟩,
       ⟨29, 29, .ro, .held, .held⟩,
       ⟨28, 28, .ro, .held, .held⟩,
       ⟨27, 27, .ro, .held, .held⟩,
       ⟨26, 26, .ro, .zero, .zero⟩,
       ⟨4, 0, .ro, .zero, .zero⟩]⟩
    , -- SEC_SET_ID (19_identity_attestation_and_update.md)
      ⟨0x170004, 0x0, 1,
      [⟨31, 0, .ro, .held, .held⟩]⟩
    , -- SEC_GOOD_SET_ID (19_identity_attestation_and_update.md)
      ⟨0x170008, 0x0, 1,
      [⟨31, 0, .ro, .held, .held⟩]⟩
    , -- SEC_MIN_EPOCH (19_identity_attestation_and_update.md)
      ⟨0x17000c, 0x0, 1,
      [⟨31, 0, .ro, .held, .held⟩]⟩
    , -- SEC_LEAF (19_identity_attestation_and_update.md)
      ⟨0x170010, 0x0, 1,
      [⟨21, 0, .ro, .held, .held⟩]⟩
    , -- SEC_ATTEST_CFG (19_identity_attestation_and_update.md)
      ⟨0x170014, 0x0, 1,
      [⟨31, 16, .rwl, (.val 60), .held⟩,
       ⟨15, 8, .rwl, (.val 64), .held⟩]⟩
    , -- SEC_UPDATE_CFG (19_identity_attestation_and_update.md)
      ⟨0x170018, 0x0, 1,
      [⟨31, 16, .rw, (.val 600), .held⟩,
       ⟨15, 8, .rw, (.val 20), .held⟩,
       ⟨7, 0, .rw, (.val 30), .held⟩]⟩
    , -- SEC_SESSION (19_identity_attestation_and_update.md)
      ⟨0x17001c, 0x0, 1,
      [⟨31, 29, .ro, .zero, .zero⟩,
       ⟨28, 27, .ro, .zero, .zero⟩,
       ⟨23, 16, .ro, .held, .held⟩,
       ⟨15, 8, .ro, .held, .held⟩]⟩
    , -- SEC_TRIAL (19_identity_attestation_and_update.md)
      ⟨0x170020, 0x0, 1,
      [⟨15, 0, .wo, .zero, .zero⟩]⟩
    ]

/-- The bases of the blocks that have a BLOCK_LOCK (R449, R450). -/
def blockBases : List Nat :=
  [0x000000, 0x010000, 0x020000, 0x030000, 0x040000, 0x050000, 0x060000, 0x070000, 0x080000,
   0x0A0000, 0x0B0000, 0x0C0000, 0x0D0000, 0x0E0000, 0x0F0000, 0x100000, 0x110000, 0x120000,
   0x130000, 0x140000, 0x150000, 0x160000, 0x170000, 0x180000, 0x190000]

/-- The BLOCK_LOCK register of the block at a base, offset 0xFFFC (R450). -/
def lockReg (base : Nat) : RegDesc := ⟨base + 0xFFFC, 0, 1, [⟨0, 0, .w1s, .zero, .zero⟩]⟩

/-- The LOCK field of the block at a base. -/
def Reg.BLOCK_LOCK (base : Nat) : Field := ⟨base + 0xFFFC, 0, 0⟩

/-- Every register of the drive (R445, R449, R450). -/
def regTable : List RegDesc :=
  regsNFE ++ regsQPM ++ regsSCH ++ regsIDX ++ regsMCH ++ regsMD ++ regsVAL ++ regsCIP ++ regsLDG ++ regsFTL ++ regsFCH ++ regsPEER ++ regsSYS ++ regsENG ++ regsRST ++ regsPWR ++ regsTHM ++ regsFLT ++ regsREC ++ regsSEC ++
  blockBases.map lockReg

end Sys2Proof.Machine
end

