-- ==== Sys2Proof/Machine/State.lean ====
section
/-! DEFINITION. The state of the drive as plain data: every register, queue, table, counter, mode and pin
the spec gives it, the queue of waiting commands, the closed reasons a step can stop, and the state right
after reset. Each field's docstring names the rule that gives it and its value at reset. -/

namespace Sys2Proof.Machine

/-- A table of values by number, in ascending order of the number, each at most once. -/
abbrev Tbl (α : Type) := List (Nat × α)

/-! ## Reasons a step can stop -/

/-- The machine stops with a fault. -/
inductive Fault where
  /-- Raised by an access of a directive or a ring to an address outside DRAM group B that no rule
  answers (the rules answer every one the model reaches, with OPERAND_FAULT): safe, the model stops. -/
  | outsideDram
deriving DecidableEq, Repr

/-- No meaning for the command. -/
inductive Refusal where
  /-- Raised by Dispatch for a row whose meaning is not written: safe. -/
  | notModelled (mnemonic : String)
deriving DecidableEq, Repr

/-! ## Codes -/

/-- The status codes of R143. -/
inductive Status where
  | ok | notFound | versionConflict | noSpace | mediaExhausted | abortedReset | e2eCrcMismatch
  | keyErased | authFailed | lengthLimit | nonceExhausted | invalidDescriptor | accessDenied | shed
  | chainDegraded | chainFailed | uncorrectable | busySession | reverted | updateRefused | timeout
deriving DecidableEq, Repr

/-- The service classes of chapter 2, by ascending code. -/
inductive SvcClass where
  | express | normal | bulk | scavenge
deriving DecidableEq, Repr

/-- The opcodes of R136. -/
inductive Opcode where
  | get | put | delete | writeRange | punch | head | scan | scanNext | count | flush | nop
  | sessionOpen | sessionBlock | sessionActivate | sessionCommit | sessionClose | attest | recRead
  | identify
deriving DecidableEq, Repr

/-- The states of a queue-pair context (R99). -/
inductive QpState where
  | free | connecting | active | draining | error
deriving DecidableEq, Repr

/-! ## What leaves the drive -/

/-- Everything the drive sends to the outside, in order of sending: the transmit log. -/
inductive Tx where
  /-- NAK for an invalid request (R92) -/
  | nakInvalid (ctx : Nat)
  /-- remote access NAK (R112) -/
  | nakAccess (ctx : Nat)
  /-- CM REP with its private data, from a context (R95) -/
  | cmRep (ctx : Nat) (raw : Bytes)
  /-- CM REJ, reason 28, with its cause (R98) -/
  | cmRej (link : Link) (cause : Nat)
  /-- CM DREQ with cause and SQ_HEAD (R125, R198) -/
  | cmDreq (ctx cause sqHead : Nat)
  /-- CM DREP (R99, R131) -/
  | cmDrep (ctx : Nat)
  /-- CM REQ of a peer requester (R421) -/
  | peerReq (peer : Nat) (port : Port) (raw : Bytes)
  /-- CM RTU of a peer requester with its PROOF (R421) -/
  | peerRtu (ctx : Nat) (proof : Bytes)
  /-- RDMA READ of submission entries: first count, number, and where they lie in the client's ring (R101, R102, R116) -/
  | fetch (ctx first n addr rkey : Nat)
  /-- RDMA READ of a pointed-to key (R109) -/
  | keyRead (ctx addr rkey len : Nat)
  /-- RDMA READ of value bytes (R109) -/
  | valueRead (ctx addr rkey len : Nat)
  /-- RDMA WRITE of a command's bytes into the client buffer: its address and remote key (R109, R150) -/
  | data (ctx cmd addr rkey : Nat) (bytes : Bytes)
  /-- RDMA WRITE of a completion entry into its slot of the client's ring: the completion count after it, the slot's
  address and remote key (R101, R102, R121), with immediate when notification is due (R124) -/
  | completion (ctx count addr rkey : Nat) (entry : Bytes) (imm : Bool)
  /-- RoCEv2 CNP (R134) -/
  | cnp (ctx : Nat)
  /-- a peer message on a peer queue pair (R423) -/
  | peerMsg (ctx : Nat) (kind : Nat) (m : PeerMsg)
  /-- the answer of the management port to an admin or owner operation -/
  | mgmt (status : Status) (result1 : Nat) (bytes : Bytes)
  /-- a TLS handshake refused, or a connection accepted, on the management port (R587) -/
  | tls (accepted : Bool)
  /-- non-maskable trap to the service cores with the source (R529) -/
  | trap (src : Nat)
  /-- the value a register read returned to a core (R11) -/
  | regRead (addr : Nat) (value : W32)
  /-- bytes returned on the SMBus, with the NACK of a refused byte as none (R595, R596) -/
  | smbus (bytes : Option Bytes)
deriving DecidableEq, Repr

/-- A message as sent, with the DSCP of its packets (R133); none where no class is stated for them, or for what is no
packet. On a tagged link the packets carry the 802.1Q priority; every packet carries an ECN mark (R91). -/
structure Sent where
  tx : Tx
  dscp : Option Nat
  priority : Option Nat
  ecn : Option Nat
deriving DecidableEq, Repr

/-! ## Queue pairs (chapter 3) -/

/-- The rate limiter of a queue pair (R135), with exact rationals. -/
structure CcState where
  rc : Rat
  rt : Rat
  alpha : Rat
  i : Nat
  /-- FLT_TIME at which the recovery timer last started -/
  timer : Nat
deriving DecidableEq, Repr

/-- What a context keeps of its connection (R94, R95, R421). -/
structure QpConn where
  link : Link
  tenant : Nat
  admin : Bool
  expressQp : Bool
  notify : Nat
  ringLog2 : Nat
  maxOut : Nat
  session : W64
  clientNonce : Bytes
  driveNonce : Bytes
  clientQpn : Nat
  coalesceCount : Nat
  coalesceUs : Nat
  /-- the peer of a peer context, and whether this drive is the requester (R421) -/
  peer : Option Nat
  requester : Bool
  /-- REQ_UID of a peer exchange (R421) -/
  reqUid : Bytes
  pathMtu : Nat
  /-- ACK_TIMEOUT, RETRY_CNT and RNR_RETRY as held when the REP was sent (R93) -/
  ackTimeout : Nat
  retryCnt : Nat
  rnrRetry : Nat
  sqAddr : Nat
  sqRkey : Nat
  cqAddr : Nat
  cqRkey : Nat
  /-- UDP source port of the connection's packets (R91) -/
  udpPort : Nat
deriving DecidableEq, Repr

/-- A queue-pair context that is not FREE (R99, R102, R113 to R118, R124). -/
structure Qp where
  st : QpState
  qgen : Nat
  conn : QpConn
  /-- free-running head and last published tail (R102, R113) -/
  head : Nat
  tail : Nat
  /-- completion entries written (R102) -/
  cqCount : Nat
  /-- entries sent without an immediate since the last one (R124) -/
  unnotified : Nat
  /-- entries of the fetch under way, from `head` (R114, R116) -/
  fetching : Nat
  /-- phase re-fetches made of the entry at the head (R118) -/
  phaseTries : Nat
  /-- whether the head entry waits for PHASE_RETRY_US (R118) -/
  phaseWait : Bool
  /-- cause of ERROR, and whether the client's DREQ was answered (R125, R131) -/
  cause : Nat
  /-- highest version of this queue pair's writes that took effect (R140 FLUSH) -/
  topVersion : Nat
  cc : CcState
  /-- FLT_TIME of the last CNP sent to the peer (R134) -/
  lastCnp : Option Nat
  /-- the client's DREQ waits to be answered (R99, R131) -/
  dreq : Bool
  /-- messages sent on a peer queue pair (R423 MSG_SEQ) -/
  msgSeq : Nat
  /-- the newest completion entry written (R121, R124), and the class of the step that sent it (R133) -/
  lastEntry : Bytes
  lastClass : SvcClass
  /-- TIMER_US as the running period of the recovery timer took it (R135) -/
  ccPeriod : Nat
deriving DecidableEq, Repr

/-- The addresses of a link (R89, R91): MAC address, up to 8 IP addresses, and the 802.1Q tag of a tagged link. -/
structure LinkAddr where
  mac : Bytes
  ips : List Bytes
  tag : Option Nat
deriving DecidableEq, Repr

/-- A cage and its pluggable (R586). -/
structure Cage where
  inserted : Bool
  enabled : Bool
  railOn : Bool
deriving DecidableEq, Repr

/-- NFE and QPM: links, cages, contexts, arbiters, and what was sent. -/
structure Nfe where
  /-- R89; reset: all down (DESIGN CHOICE) -/
  linkUp : BitVec 4
  /-- a link's LINKDOWN_MS wait runs (R125); reset 0 -/
  linkWait : BitVec 4
  /-- addresses of links A0, A1, B0, B1 (R89, R91); reset zero, no IP address, untagged (DESIGN CHOICE) -/
  addrs : List LinkAddr
  /-- a port retrains (R530); reset none -/
  retrainA : Bool
  retrainB : Bool
  /-- cages A and B (R586); reset empty with the rail on (DESIGN CHOICE) -/
  cageA : Cage
  cageB : Cage
  /-- contexts 0 to 20,479 that are not FREE (R132); reset none -/
  qps : Tbl Qp
  /-- round-robin pointers of the two fetch groups (R117, R24); reset 0 -/
  rrExpress : Nat
  rrOther : Nat
  /-- acceptance is stopped by an activation, a reset drain or stage 4 (R195, R197, R500); reset false -/
  stopFetch : Bool
  /-- round-robin pointer of the transmit port (R24, R25): the index after the last sender; reset 0 -/
  rrTransmit : Nat
  /-- round-robin pointer of PEER's messages (R442): the index after the last one granted; reset 0 -/
  rrPeer : Nat
  /-- the transmit log (MODEL); reset empty -/
  tx : List Sent
  /-- FLT_TIME of the last client completion (R594); reset none -/
  lastCompletion : Option Nat
  /-- doorbells captured while QPM is in reset, oldest first: context, bytes (R191); reset none -/
  heldDoorbells : List (Nat × Bytes)
  /-- the System Image has answered a CM REQ for a data queue pair since the start (R200); reset false -/
  answered : Bool
  /-- the queue-pair context cache in PD09: at most 2,048 contexts, most recently used first (R34); reset none -/
  ctxCache : List Nat
deriving DecidableEq, Repr

/-! ## Commands (chapters 4 and 5) -/

/-- A submission descriptor, decoded (R105). -/
structure Desc where
  opcode : Nat
  phase : Bool
  keyPtr : Bool
  resubmit : Bool
  ordered : Bool
  cls : Nat
  ifVersion : Bool
  e2eCrc : Bool
  estimate : Bool
  tag : Nat
  variant : Nat
  keyLen : Nat
  clientCrc : W32
  condVersion : Nat
  offset : Nat
  length : Nat
  bufAddr : Nat
  bufRkey : Nat
  param0 : Nat
  param1 : Nat
  keyArea : Bytes
deriving DecidableEq, Repr

/-- The action of a policy rule (R71). -/
structure Action where
  owner : Nat
  rights : Nat
  classCeil : Nat
  parityP : Bool
  allowUnreplicated : Bool
  sealIt : Bool
  compress : Bool
  expressPin : Bool
  template : Nat
  ruleTag : Nat
deriving DecidableEq, Repr

/-- A seal word (R309). -/
structure SealWord where
  epoch : Nat
  serial : Nat
  slot : Nat
  counter : Nat
deriving DecidableEq, Repr

/-- Where stored bytes lie: a Ledger line, or a flash location of R363. -/
inductive Loc where
  | ledger (line : Nat)
  | flash (skein byte len64 : Nat)
deriving DecidableEq, Repr

/-- A stored segment (R272): header fields, payload, and what its seal recorded. -/
structure Seg where
  payload : Bytes
  logicalLen : Nat
  compressed : Bool
  tag : Bytes
  segCrc : W64
  hdrCrc : BitVec 16
  sealWord : Option SealWord
  loc : Loc
  /-- copy B of a Ledger pair, or the parity rebuild, carries true check values (R293) -/
  parityP : Bool
  /-- the payload is lost at its own location: LDPC fails there (R285 step 1) -/
  lost : Bool
deriving DecidableEq, Repr

/-- A filled variant (R213, R46): its length, version, recorded treatment and stored segments; a
segment absent from the table is a hole (R60). -/
structure Variant where
  length : Nat
  version : Nat
  sealed : Bool
  compressed : Bool
  parityP : Bool
  /-- CHAIN_TEMPLATE recorded at the last write (R74, R213) -/
  template : Nat
  segs : Tbl Seg
  /-- map pages by number, and the map index page as number 512, when ROOT_KIND is 2 (R372) -/
  maps : Tbl Loc
deriving DecidableEq, Repr

/-- A directory record (R213), keyed by the key hash and the key. -/
structure DirRec where
  kh : W64
  key : Bytes
  owner : Nat
  pinned : Bool
  /-- where the record lies: DIR_LOC of R214 -/
  loc : Loc
  variants : Tbl Variant
deriving DecidableEq, Repr

/-- The result of a policy search: the action, or no rule (R70). -/
inductive Policy where
  | waiting
  | noRule
  | rule (a : Action)
deriving DecidableEq, Repr

/-- The result of an index lookup: the record as it stood when the lookup resolved (R178). -/
inductive Lookup where
  | waiting
  | absent
  | found (r : DirRec)
  /-- the directory record could not be read (R216) -/
  | unreadable
deriving DecidableEq, Repr

/-- The steps of a command's life. -/
inductive Stage where
  /-- staged in QPM for want of a credit toward SCH (R119) -/
  | staged
  /-- accepted, not started (R173) -/
  | accepted
  /-- first step issued; lookup and search run -/
  | started
  /-- reading segments or fetching and storing the value -/
  | working
  /-- a write at its commit gate (R175) -/
  | gated
  /-- forwarded; waiting for the chain (R430) -/
  | forwarded
  /-- decided; waiting for its completion entry to be written -/
  | done
  /-- completion entry written; waiting for its acknowledgement (R189) -/
  | written
deriving DecidableEq, Repr

/-- What a command's completion entry will hold (R120, R140). -/
structure Outcome where
  status : Status
  result1 : Nat
  version : Nat
  validBytes : Nat
  more : Bool
  replayed : Bool
deriving DecidableEq, Repr

/-- The state of a segment of a write on its way to storage. -/
inductive SegWork where
  /-- bytes of the segment's part that have arrived so far -/
  | filling (bytes : Bytes)
  /-- the part is whole and covers the stored segment only partly: it waits for the read-merge (R270) -/
  | merging (bytes : Bytes)
  /-- the stored segment has passed checks 1 to 3 and waits for its open, to be merged (R270, R285) -/
  | mergeOpen (bytes : Bytes) (old : Seg)
  /-- waiting for a seal -/
  | sealing (s : Seg)
  /-- closed by its check values; its path is not decided (R184) -/
  | built (s : Seg)
  /-- given a location; not yet durable -/
  | writing (s : Seg)
  /-- durable (R183) -/
  | durable (s : Seg)
  /-- of a read: passed checks 1 to 3, waiting for its open (R285) -/
  | opening (s : Seg)
  /-- all zero: a hole (R271) -/
  | hole
deriving DecidableEq, Repr

/-- A retention entry: one command from its acceptance until its completion is acknowledged (R189,
R190), with the work done for it. -/
structure Cmd where
  /-- the client context, or none for an inbound chain write (R431) or a peer's repair request -/
  ctx : Option Nat
  /-- a chain write's message (R431) -/
  chain : Option PeerMsg
  desc : Desc
  op : Opcode
  tenant : Nat
  session : W64
  /-- submission count (R102) -/
  count : Nat
  /-- version assigned, or 0 (R171) -/
  version : Nat
  cls : SvcClass
  stage : Stage
  key : Option Bytes
  policy : Policy
  lookup : Lookup
  /-- conditions found so far (R142) -/
  conds : List Status
  expressPath : Bool
  /-- next byte to fetch, or to deliver (R190 progress marker) -/
  pos : Nat
  /-- running CRC-32C register over bytes fetched or delivered (R283, R284, R148) -/
  crc : W32
  /-- segments of the write (R267) -/
  work : Tbl SegWork
  /-- whether the write goes by the Ledger path (R184), once decided -/
  ledgerPath : Option Bool
  /-- generation of the slot the command refers to: slot, GEN (R318) -/
  slotRef : Option (Nat × Nat)
  /-- committed (R190) -/
  committed : Bool
  /-- COPIES of the chain acknowledgement (R434) -/
  copies : Nat
  /-- path of the forwarded write (R428) -/
  path : List Nat
  outcome : Option Outcome
  /-- scan walk: next KH to examine; of a range write, 1 once its segments are planned (R158, R270) -/
  cursor : Nat
  batch : List DirRec
  /-- keys counted (R166); of a FLUSH, the highest version of earlier writes that took effect (R140) -/
  counted : Nat
  /-- the scan context of the batch (R162) -/
  scanCtx : Option Nat
  /-- repair the read waits on (R287) -/
  repair : Option Nat
  /-- its commit has waited for staging lines (R348) -/
  waited : Bool
  /-- tokens that it has drawn for its commit after waiting for them (R344, R345) -/
  tokens : Nat
  /-- its queue pair has entered ERROR: it runs on without completion entry (R126, R127) -/
  orphan : Bool
  /-- superblocks that its reads hold (R179) -/
  holds : List Nat
  /-- the map pages written for its commit, once allocated (R374) -/
  maps : Option (Tbl Loc)
  /-- value bytes as fetched, kept for the forward along a chain (R430) -/
  buffer : Bytes
  /-- it runs again from its progress marker: requester 0 of the issue arbiter (R192, R201) -/
  replayed : Bool
  /-- it has left SCH's intake queue, its credit returned, and waits in the retention table for earlier commands (R128,
  R181) -/
  parked : Bool
deriving DecidableEq, Repr

/-- An outcome record (R127). -/
structure OutcomeRec where
  session : W64
  tenant : Nat
  tag : Nat
  opcode : Nat
  keyHash : W64
  status : Status
  version : Nat
  validBytes : Nat
  /-- the hold of OUTCOME_HOLD_S has begun (R127, R200) -/
  holding : Bool
deriving DecidableEq, Repr

/-- A tenant record as loaded (R64); a tenant not in the table reads DISABLED (R606). -/
structure Tenant where
  st : Nat
  maxClass : Nat
  pinQuota : Nat
  byteQuota : Nat
  keyQuota : Nat
deriving DecidableEq, Repr

/-- The usage fields of a tenant (R64, R606). -/
structure Usage where
  bytes : Nat
  keys : Nat
  pins : Nat
deriving DecidableEq, Repr

/-- An item of a commit gate that holds no version: a repair rewrite, a restore of a revoked write, a
relocation (R289, R435, R370). It waits behind the writes waiting when it joined. -/
structure GateItem where
  kh : W64
  /-- commands it waits behind -/
  behind : List Nat
  /-- the repair whose rewrite it is, or the revoked version -/
  repair : Option Nat
  revoke : Option Nat
  /-- the move that it is: the key and its version when it joined, and the skein to relocate, none for packing (R370, R377) -/
  move : Option (Bytes × Nat × Option Nat)
deriving DecidableEq, Repr

/-- The phases of the scheduler's acceptance (R195, R197). -/
inductive Drain where
  | none | activation | reset
deriving DecidableEq, Repr

/-- SCH: versions, retention, tenants, outcome records, gates, credits. -/
structure Sch where
  /-- next version to be assigned (R52, R172); reset 2^24 + 1, the stored ceiling -/
  nextVersion : Nat
  /-- retention entries by command number (R189); reset none -/
  cmds : Tbl Cmd
  /-- number of the next command (MODEL); reset 0 -/
  nextCmd : Nat
  /-- outcome records (R127); reset none -/
  outcomes : List OutcomeRec
  /-- tenant records (R64); reset none -/
  tenants : Tbl Tenant
  /-- connection secrets (R97); reset none -/
  secrets : Tbl Bytes
  /-- usage fields (R64, R606); reset none used -/
  usage : Tbl Usage
  /-- tenants whose usage is being counted again (R484); reset false -/
  recount : Bool
  /-- gate items without a version (R289); reset none -/
  gate : List GateItem
  drain : Drain
  /-- writes are held at intake until the bank is READY (R505); reset true -/
  holdWrites : Bool
  /-- credit counters and free entries, by queue × 1024 + channel × 4 + class; unlisted: full (R18, R22) -/
  credits : Tbl (Nat × Nat)
  /-- round-robin pointers of the class arbiter, of the issue arbiter's requesters and of the intake's senders: the index
  after the last grant (R24, R25, R201); reset 0 -/
  rrClass : Nat
  rrIssue : Nat
  rrIntake : Nat
  /-- class pointer of the completion port toward NFE (R24); reset 0 -/
  rrDone : Nat
  /-- class pointer of the port toward VAL (R24); reset 0 -/
  rrJobs : Nat
  /-- the engine blocks in reset (R26, R191); reset none -/
  inReset : List EngBlock
  /-- replays that wait: the block whose reset discarded the entries, and the command, which another block in reset holds
  too (R489); reset none -/
  replayDue : List (EngBlock × Nat)
deriving DecidableEq, Repr

/-! ## Index (chapter 6) -/

/-- A valid slot of the fingerprint table (R206). -/
structure Slot where
  fp : Nat
  pinned : Bool
  loc : Loc
  /-- DIR_LINES and VARIANT_COUNT -/
  lines : Nat
  variants : Nat
  /-- KH and key of the record the location names -/
  kh : W64
  key : Bytes
deriving DecidableEq, Repr

/-- An entry of the express mirror (R217). -/
structure MEntry where
  kh : W64
  key : Bytes
  loc : Loc
deriving DecidableEq, Repr

/-- A mirror change between its first and its second copy's write (R220). -/
inductive MChange where
  /-- a pin of the key, for a write of the tag's rule, or for a directive that then completes; `gone` once the key has been
  deleted (R88) -/
  | pin (kh : W64) (key : Bytes) (tag : Nat) (dir : Option Dir) (gone : Bool)
  | unpin (kh : W64) (key : Bytes) (dir : Option Dir)
  /-- a record's move, with the place that it leaves and the lines of the record there (R215) -/
  | move (kh : W64) (key : Bytes) (loc old : Loc) (lines : Nat)
  /-- the unpin of a DELETE whose command commits when it takes effect (R221) -/
  | delete (cmd : Nat) (kh : W64) (key : Bytes)
deriving DecidableEq, Repr

/-- IDX. -/
structure Idx where
  /-- directory records in index order (R204, R213); reset none -/
  dir : List DirRec
  /-- buckets of the fingerprint table with a valid slot: 8 slots each (R205, R206); reset none -/
  table : Tbl (List (Option Slot))
  /-- the two copies of the mirror: buckets of 8 entries (R217, R218); a change in the pending table is written in copy 0 and
  not yet in copy 1 (R220); reset none -/
  mirror0 : Tbl (List (Option MEntry))
  mirror1 : Tbl (List (Option MEntry))
  /-- pending mirror changes, oldest first, at most 64 (R220); reset none -/
  pending : List MChange
  /-- further changes waiting for a free pending entry (R220); reset none -/
  waiting : List MChange
  /-- poisoned buckets, at most 256 (R227); reset none -/
  poison : List Nat
  /-- a rebuild runs, its mark, and the keys of the mark's KH that it has walked (R225); reset false, 0, none -/
  rebuilding : Bool
  mark : Nat
  walked : List Bytes
  /-- R224; reset false -/
  tableReady : Bool
  mirrorReady : Bool
  /-- the resident slot at which the next path search begins (R210); reset 0 -/
  kickStart : Nat
  /-- the directives that wait for the rebuild (R228, R607) -/
  rebuildDir : List Dir
  /-- hashes of keys for which a rebuild or a rewrite found no slot: their lookups read the directory page (R226); reset
  none -/
  unplaced : List W64
deriving DecidableEq, Repr

/-! ## Match engine (chapter 7) -/

/-- One 320-bit segment of an entry with its CHECK (R236, R238). -/
structure RSeg where
  value : BitVec 320
  mask : BitVec 320
  check : BitVec 16
deriving DecidableEq, Repr

/-- An entry as it lies on its die, or in the shadow (R236, R238, R252). -/
structure Rule where
  segs : List RSeg
  action : Bytes
  actionCheck : Byte
deriving DecidableEq, Repr

/-- The shift record of an insertion (R246, R247): position p, `q` the position after the block's last, the new entry, the
progress mark, which is the shift cursor: the position whose content was copied last, `q` before the first copy; and when
the shift began (R246). -/
structure Shift where
  p : Nat
  q : Nat
  rule : Rule
  cursor : Nat
  begun : Nat
  dir : Dir
deriving DecidableEq, Repr

/-- A regular pattern, parsed (R256). -/
inductive Regex where
  /-- the empty string -/
  | eps
  /-- one byte of the ranges, or of none of them when `neg` -/
  | set (neg : Bool) (ranges : List (Nat × Nat))
  | cat (a b : Regex)
  | alt (a b : Regex)
  | star (a : Regex)
  /-- one or more times -/
  | plus (a : Regex)
  /-- n to m times; no upper bound when m is none -/
  | rep (a : Regex) (n : Nat) (m : Option Nat)
deriving DecidableEq, Repr

/-- A scan context, or the image slot a COUNT holds (R162, R260). -/
structure ScanCtx where
  tenant : Nat
  gen : Nat
  /-- false for a free context whose generation is remembered -/
  live : Bool
  pattern : Regex
  /-- the command whose batch runs on it -/
  busy : Option Nat
  /-- order in which its last batch completed (R163) -/
  lastUse : Nat
  /-- held by a COUNT: never evicted (R260) -/
  isCount : Bool
deriving DecidableEq, Repr

/-- MCH and the match dies. -/
structure Mch where
  /-- valid entries on the dies by position (R233, R236); reset none -/
  rules : Tbl Rule
  /-- shadow records of valid positions (R252); reset none -/
  shadow : Tbl Rule
  /-- R246; reset none -/
  shift : Option Shift
  /-- RULE_INSERT directives waiting behind a shift (R248): directive, p, q, rule -/
  waitShift : List (Dir × Nat × Nat × Rule)
  /-- RULE_WRITE and RULE_CLEAR waiting for the shift: directive, position, rule or none (R248) -/
  waitLoad : List (Dir × Nat × Option Rule)
  /-- image slots 0 to 127 (R162, R260); reset none -/
  contexts : Tbl ScanCtx
  /-- order stamp for `lastUse` (MODEL); reset 0 -/
  useSeq : Nat
  /-- commands waiting for an image slot, oldest first (R163) -/
  waitCtx : List Nat
  /-- automaton halves 0 to 255 granted, to which image slot (R261); reset none -/
  halves : Tbl Nat
  /-- image slots waiting for halves (R262); reset none -/
  waitHalves : List Nat
  /-- the grant pointer of withdrawn halves, by image slot (R24, R262); reset 0 -/
  rrHalf : Nat
  /-- round-robin pointer of the searches (R24, R241): policy searches, rights checks, RULE_SEARCH, scrub reads; reset 0 -/
  rrSearch : Nat
  /-- compiled images by image slot: states of 16 bytes (R252, R257, R258); reset none -/
  images : Tbl (List Bytes)
  /-- the states loaded in each granted half (R230, R259, R261); reset none -/
  lanes : Tbl (List Bytes)
  /-- positions that the scrubber passed over for a pending write and reads when it has completed (R253); reset none -/
  scrubDue : List Nat
  /-- the block reset of MATCH_CASCADE runs: MCH and the four dies as one (R255); reset false -/
  cascade : Bool
deriving DecidableEq, Repr

/-! ## Value path (chapter 8) -/

/-- An entry of the repair table (R291). -/
structure Repair where
  kh : W64
  key : Bytes
  variant : Nat
  version : Nat
  seg : Nat
  old : Seg
  /-- first failed check: 0 header or SEG_CRC, 1 decode, 2 GCM tag, 3 LDPC (R286) -/
  failed : Nat
  /-- CHAIN_TEMPLATE recorded with the version that was read (R426, R438) -/
  template : Nat
  /-- the codewords in which the location lay when it was read (R289) -/
  words : List (Option (Nat × Nat))
  /-- a reclaim or refresh read began it (R291) -/
  upkeep : Bool
  /-- commands that wait on it -/
  readers : List Nat
  /-- PEER was asked for it (R438) -/
  asked : Bool
  /-- the repaired segment once classified, and whether its rewrite waits at the gate (R288, R289) -/
  fixed : Option Seg
deriving DecidableEq, Repr

/-- VAL. -/
structure Val where
  /-- the repair table, at most 64 (R291); reset none -/
  repairs : Tbl Repair
  nextRepair : Nat
  /-- readers waiting for a free repair entry (R291) -/
  waitRepair : List Nat
  /-- round-robin pointer of VAL's units (R268): the index after the last requester granted; reset 0 -/
  rr : Nat
deriving DecidableEq, Repr

/-! ## Cipher (chapter 9) -/

/-- The states of a slot (R299). -/
inductive SlotState where
  | empty | loaded | erasing
deriving DecidableEq, Repr

/-- A retired generation (R319). -/
structure RetiredGen where
  gen : Nat
  root : Bytes
  serial : Nat
  epoch : Nat
  counter : Nat
  refs : Nat
deriving DecidableEq, Repr

/-- A key slot (R299). -/
structure KeySlot where
  st : SlotState
  root : Bytes
  serial : Nat
  epoch : Nat
  counter : Nat
  gen : Nat
  refs : Nat
  retired : List RetiredGen
  /-- the stored KEY_SERIAL cannot be trusted (R306) -/
  untrusted : Bool
  /-- a directive waits for the retired generation (R319): KEY_GENERATE, KEY_IMPORT with its key, KEY_ROLL -/
  waiting : List (Dir × Nat × Bytes)
  /-- the KEY_ERASE directives whose completions wait for EMPTY (R607) -/
  eraseDirs : List Dir
deriving DecidableEq, Repr

/-- A job on a lane (R295 to R297): of a command, 0 a seal and 1 an open of one of its segments; 2 a verify-only pass over
the segment at a location. -/
structure CipJob where
  kind : Nat
  cmd : Nat
  seg : Nat
  loc : Loc
deriving DecidableEq, Repr

/-- A verify-only job that a reclaim or refresh read issued (R313): the segment, its place in the index, and whether its tag
has verified. -/
structure TagCheck where
  kh : W64
  key : Bytes
  variant : Nat
  seg : Nat
  old : Seg
  ok : Bool
deriving DecidableEq, Repr

/-- CIP. -/
structure Cip where
  /-- slots 0 to 0x43F; unlisted: EMPTY, serial 0, GEN 0 (R298, R299); reset none -/
  slots : Tbl KeySlot
  /-- derived-key cache, most recently used first, at most 4,096: slot, serial, epoch (R300) -/
  cache : List (Nat × Nat × Nat)
  /-- FLT_TIME of the recent mismatches of a lane (R296) -/
  mismatches : Tbl (List Nat)
  /-- lanes online (R296); reset 0xFFFF -/
  lanes : BitVec 16
  /-- R325, R306; reset false -/
  alarm : Bool
  alarmSources : BitVec 5
  kekReady : Bool
  restoreDone : Bool
  /-- tenant directives and DOMAIN_LOADs waiting for RESTORE_DONE (R306, R469): directive, domain, key -/
  waitRestore : List (Dir × Nat × Bytes)
  /-- round-robin pointer of the lanes (R24, R297): the index after the last requester granted; reset 0 -/
  rr : Nat
  /-- jobs that run, by lane (R295); reset none -/
  running : Tbl CipJob
  /-- jobs to run again on another lane than the one named (R296); reset none -/
  rerun : List (CipJob × Nat)
  /-- verify-only jobs of reclaim and refresh reads (R313); reset none -/
  checks : List TagCheck
  /-- a lane granted to the buffer directives of ENG, until one runs on it (R297); reset none -/
  bufLane : Option Nat
  /-- the derived key in the key registers of each lane: slot, serial, epoch (R325); reset none -/
  laneKeys : Tbl (Nat × Nat × Nat)
  /-- whether the DRBG holds its state (R325); reset true (DESIGN CHOICE) -/
  drbg : Bool
deriving DecidableEq, Repr

/-! ## Ledger (chapter 10) -/

/-- A Ledger group's rotation state (R337, R340). -/
structure LGroup where
  start : Nat
  gap : Nat
  /-- line writes since the last gap move, and in all -/
  sinceMove : Nat
  writes : Nat
  /-- gap moves since the last state line (R339) -/
  moves : Nat
  failed : Bool
  /-- spare lines used, and retired physical lines with their spares (R340) -/
  sparesUsed : Nat
  remap : Tbl Nat
  /-- the slot that holds the gap's marker (R339) -/
  marker : Nat
  /-- the state lines 0 to 63 that have been written: START, GAP and the write count; and the line whose turn is next (R339) -/
  states : Tbl (Nat × Nat × Nat)
  turn : Nat
  /-- rotating indices from this one on, and single ones, whose lines no spare line holds (R349) -/
  stuckFrom : Nat
  stuck : List Nat
deriving DecidableEq, Repr

/-- What a slot record says (R305): REC_STATE, WRAPPED_ROOT, EPOCH, KEY_SERIAL and CTR_CEILING. -/
structure SlotRec where
  loaded : Bool
  wrapped : Bytes
  epoch : Nat
  serial : Nat
  ceiling : Nat
deriving DecidableEq, Repr

/-- A journal line (R334, R384): of a commit line the key hash, the version, the usage it carries, and the Ledger lines of the
directory record; of a map change the target at offset 12 and the bytes from offset 16 on. -/
structure JLine where
  jseq : Nat
  kind : Nat
  kh : W64
  version : Nat
  usage : Option (Nat × Usage)
  target : Nat
  dirLines : Nat
  dirLine : Nat
  body : Bytes
deriving DecidableEq, Repr

/-- The objects that the Ledger's classes hold across power loss (R336). -/
structure Kept where
  /-- version ceiling (R172); reset 2^24 + 1 + 2^24 once resumed -/
  versionCeiling : Nat
  /-- row ceiling and clear floor of the recorder (R546, R558) -/
  rowCeiling : Nat
  clearFloor : Nat
  /-- last QGEN of each context (R100); unlisted 0 -/
  qgens : Tbl Nat
  /-- 64-byte slot records (R305); unlisted: zeros -/
  slotRecs : Tbl Bytes
  /-- leaf record: NEXT_LEAF and budget level, or lost (R564, R568) -/
  leaf : Option (Nat × Nat)
  /-- the reset record, 64 bytes (R477); none before the first -/
  resetRec : Bytes
  /-- usage checkpoint: highest JSEQ included, usages (R606) -/
  usageCkpt : Nat × Tbl Usage
  /-- the FTL journal above the floor, oldest first, and the next JSEQ (R334) -/
  journal : List JLine
  nextJseq : Nat
  /-- newest MAP_CKPT floor (R385) -/
  mapFloor : Nat
  /-- the piece directory (R482): by piece, where META holds it and its PIECE_CRC; unlisted: no valid entry -/
  pieces : Tbl (Loc × W32)
  /-- owner key (R569) -/
  ownerKey : Option Bytes
  /-- bind-off (R415) -/
  bindOff : Bool
deriving DecidableEq, Repr

/-- LDG. -/
structure Ldg where
  ready : Bool
  /-- gauge tokens, 0 to 2^32 (R342); reset 0 -/
  level : Nat
  /-- copies A and B of written lines, by logical line of copy A (R332); unlisted: zeros (DESIGN CHOICE) -/
  lines : Tbl (Bytes × Bytes)
  /-- groups 0 to 255; unlisted: START 0, GAP 250,880 (R331, R337) -/
  groups : Tbl LGroup
  dev0Failed : Bool
  dev1Failed : Bool
  /-- the objects of the staging class: the first pair of each, how many pairs it takes, and when it was written (R333, R336,
  R377) -/
  taken : Tbl (Nat × Nat)
  /-- first pairs of dead objects that readers still hold (R333) -/
  limbo : List Nat
  /-- metadata draws that wait for tokens, in order of request: lines of each, and the command whose commit waits for them
  (R344, R345); reset none -/
  metaQueue : List (Nat × Option Nat)
  /-- a commit waits for staging lines (R348) -/
  stagingFull : Bool
  kept : Kept
deriving DecidableEq, Repr

/-! ## Flash (chapters 11 and 12) -/

/-- The states of a superblock (R387). -/
inductive SbState where
  | free | opened | closed | unverified | verified | reclaiming | retired
deriving DecidableEq, Repr

/-- An entry of a superblock summary (R388): 1 SLOT, 2 STITCH, 3 SEGMENT, 4 MAP_PAGE, 5 DIR_PAGE. -/
structure SumEntry where
  kind : Nat
  stitch : Nat
  len64 : Nat
  skein : Nat
  pos : Nat
  fold : W64
deriving DecidableEq, Repr

/-- The tag of a physical page (R358): its superblock's sequence number, row, plane, and the skein whose bytes begin in its
first codeword, 0 for none; of a PAR page the source superblock and row in place of the skein (R392); of a parity page
programmed at the hold-up takeover the positions covered (R394); and its check code. -/
structure PageTag where
  seqNo : Nat
  row : Nat
  plane : Nat
  skein : Nat
  source : Option (Nat × Nat)
  mask : BitVec 16
  check : W32
deriving DecidableEq, Repr

/-- Where the PAR stream holds the parity of a row: superblock, stream index of its 16 codewords, and the positions that the
parity covers (R392, R394). -/
structure ParLoc where
  sb : Nat
  q : Nat
  mask : BitVec 16
  /-- released by read-verify, and kept only for the rebuilds that began before (R397) -/
  released : Bool
deriving DecidableEq, Repr

/-- A superblock table entry (R387), with where its rows stand and what they hold. -/
structure Sb where
  st : SbState
  slc : Bool
  layoutR : Bool
  /-- the stream it belongs to: 0 SLC buffer, 1 QLC-P, 2 QLC-R, 3 META, 4 reclaim P, 5 reclaim R, 6 PAR -/
  stream : Nat
  /-- it is being emptied by a fold (R380) -/
  folding : Bool
  wear : Nat
  closeTime : Nat
  vacant : BitVec 16
  /-- members retired by a failed program or erase, vacant from the next erase on (R407, R411) -/
  retiring : BitVec 16
  /-- positions that the data now held skips: those vacant at its last erase (R390) -/
  skipped : BitVec 16
  refreshDue : Bool
  refreshCnt : Tbl Nat
  /-- rows programmed so far, and rows filled by its write pointer (R360, R381) -/
  rows : Nat
  /-- next data codeword of the stream order (R357) -/
  nextQ : Nat
  /-- codewords lost: uncorrectable (R361) -/
  lost : List Nat
  /-- codewords rebuilt, held in the staging buffers until their data has moved (R401) -/
  saved : Tbl Bytes
  /-- sequence number in the order of opening (R358, R384) -/
  seqNo : Nat
  /-- positions whose pages of the next row or wordline are programmed (R183, R394) -/
  done : BitVec 16
  /-- by stream index, the data of codewords in the staging buffers until their row's parity is programmed (R360, R393):
  with the true check values, and as they are written at their own location (R293) -/
  staged : Tbl (Bytes × Bytes)
  /-- the 4,608-byte codewords programmed; one that is absent is a pad (R353, R389) -/
  media : Tbl Bytes
  /-- layout P: the parity codewords of each programmed row and the positions they cover (R389, R391, R394); an empty
  codeword is all zeros -/
  parity : Tbl (BitVec 16 × List Bytes)
  /-- tags of the programmed pages, by (16 × row + position) × 4 + plane (R358) -/
  tags : Tbl PageTag
  /-- the superblock summary (R388), and where META holds it once written -/
  summary : List SumEntry
  sumLocs : List Loc
  /-- order stamps of closing, of the refresh flag, of the last patrol read -/
  seq : Nat
  dueSeq : Nat
  lastRead : Nat
deriving DecidableEq, Repr

/-- A skein map entry (R365), with its stitches when fine (R366). -/
structure Skein where
  fine : Bool
  classP : Bool
  liveUnits : Nat
  sb : Nat
  slot : Nat
  /-- FINE = 1: stored stitches: live objects, superblock, stream index (R366) -/
  stitches : Tbl (Nat × Nat × Nat)
  isMeta : Bool
  /-- FINE = 1: STITCH_TABLE, the index of its stitch table (R365) -/
  table : Nat
  /-- superblocks that held bytes of it before, until their erase: reads may hold them (R371) -/
  past : List Nat
deriving DecidableEq, Repr

/-- A write stream (R364, R378). -/
structure Stream where
  skein : Nat
  byte : Nat
  sb : Option Nat
deriving DecidableEq, Repr

/-- A die operation in progress (R382, R383). -/
structure DieOp where
  erase : Bool
  suspends : Nat
  suspended : Bool
deriving DecidableEq, Repr

/-- A copy of a skein, or of stitches of it, that a reclaim, fold, refresh or evacuation has begun: it is switched to
when it has been programmed (R371, R406). -/
structure SkeinCopy where
  skein : Nat
  /-- the superblock that is emptied -/
  src : Nat
  /-- a coarse skein copied whole: the target and its slot -/
  whole : Option (Nat × Nat)
  /-- stitches copied: number, target, stream index -/
  stitches : Tbl (Nat × Nat)
deriving DecidableEq, Repr

/-- A reclaim directive under way (R404): its ring and code, its pool, the superblocks still to start, those dealt
with, and the one in work. -/
structure Upkeep where
  ring : Nat
  dir : Dir
  code : Nat
  pool : Nat
  left : Nat
  count : Nat
  cur : Nat
deriving DecidableEq, Repr

/-- A read-verify that waits for its failing rows to have moved (R396): its superblock, and the VERIFY_RELEASE that it
belongs to with its count. -/
structure Verify where
  sb : Nat
  dir : Option (Dir × Nat)
deriving DecidableEq, Repr

/-- FTL and FCH. -/
structure Ftl where
  mapReady : Bool
  /-- superblocks by ID; unlisted: FREE, WEAR 0, no vacancy (R387) -/
  sbs : Tbl Sb
  /-- allocated skeins (R365); unlisted: not VALID -/
  skeins : Tbl Skein
  /-- open streams (R378): 1 to 6, and the write pointers of the SLC buffer, 0 and 17 to 31 (R381) -/
  streams : Tbl Stream
  /-- first skein number of the next free run (R362, R364); reset 1, in the run of 64 from 0 -/
  nextSkein : Nat
  /-- freed skein numbers (R371) -/
  freed : List Nat
  /-- directory page index entries: LFA and PAGES (R375) -/
  pageIndex : Tbl (Nat × Nat)
  /-- rebuilds under way: superblock, codeword (R401) -/
  rebuilds : List (Nat × Nat)
  /-- superblocks to evacuate, in order (R402) -/
  evacuate : List Nat
  /-- power-on seconds (R387, R403) -/
  seconds : Nat
  /-- order stamp for closings and reads (MODEL) -/
  seq : Nat
  /-- die operations in progress, by channel × 24 + die -/
  dieOps : Tbl DieOp
  /-- reads hold superblocks: number of readers (R179) -/
  holds : Tbl Nat
  /-- SPARE_LOW was recorded (R413); die groups with a failed die (R402) -/
  spareLow : Bool
  degraded : List Nat
  /-- PAR location table (R392), by superblock × 4,096 + row of layout R; reset none -/
  par : Tbl ParLoc
  /-- copies not yet switched to; reset none -/
  copies : List SkeinCopy
  /-- reclaim directives under way; reset none -/
  upkeep : List Upkeep
  /-- rows whose live data is to be moved: superblock, row (R396, R401); reset none -/
  moves : List (Nat × Nat)
  /-- read-verifies under way (R396); reset none -/
  verifies : List Verify
  /-- closed superblocks whose summary is still to be written to META (R388); reset none -/
  sumQueue : List Nat
  /-- map pieces that have changed without a journal record since they were written (R385); reset none -/
  dirty : List Nat
  /-- round-robin pointers of the channel queues (R25, R382): the index after the last requester served; unlisted 0; reset
  none -/
  rrFch : Tbl Nat
deriving DecidableEq, Repr

/-! ## Peers (chapter 13) -/

/-- A peer entry (R419). -/
structure PeerEntry where
  pstate : Nat
  domain : Nat
  ipv6 : Bool
  sealTransit : Bool
  uid : Bytes
  addrA : Bytes
  addrB : Bytes
deriving DecidableEq, Repr

/-- The live state of a linked peer (R422, R613). -/
inductive PeerLive where
  | down | linking | up
deriving DecidableEq, Repr

/-- A chain template (R426). -/
structure Template where
  depth : Nat
  best : Bool
  timeout : Nat
  repair : Bool
deriving DecidableEq, Repr

/-- A placement slot (R425). -/
structure Place where
  peers : List Nat
deriving DecidableEq, Repr

/-- A dedupe entry (R436): the acknowledgement sent, or none while in progress. -/
structure Dedupe where
  kh : W64
  version : Nat
  ack : Option (Nat × Nat)
deriving DecidableEq, Repr

/-- What a successor keeps for a revoke (R435): the key's record before the write, none when absent. -/
structure RevokeHold where
  kh : W64
  key : Bytes
  version : Nat
  /-- the variant that the write changed; the whole key for a DELETE -/
  variant : Nat
  whole : Bool
  /-- the peer that sent the write -/
  source : Nat
  before : Option DirRec
  /-- stored segments that the commit made dead, kept for the restore -/
  dead : List Seg
deriving DecidableEq, Repr

/-- PEER. -/
structure PeerSt where
  entries : Tbl PeerEntry
  live : Tbl PeerLive
  templates : Tbl Template
  /-- placement slots with VALID = 1 (R425) -/
  places : Tbl Place
  /-- newest last, at most 65,536 (R436) -/
  dedupe : List Dedupe
  revoke : List RevokeHold
  /-- forwarding suspended (R440) -/
  suspended : Bool
  /-- CHAIN_WRITEs waiting for a retention or dedupe entry (R431, R436) -/
  intake : List PeerMsg
deriving DecidableEq, Repr

/-! ## Engine rings (chapter 14) -/

/-- An entry issued by ENG and not yet completed (R457). -/
structure Issued where
  etag : Nat
  code : Nat
  resAddr : Nat
  fence : Bool
  operands : Bytes
deriving DecidableEq, Repr

/-- One engine ring (R453 to R461). -/
structure Ring where
  err : Bool
  sqHead : Nat
  sqTail : Nat
  cqHead : Nat
  cqTail : Nat
  /-- entries that doorbells cover and ENG has not issued, in ring order (R456, R457) -/
  queue : List Bytes
  issued : List Issued
  /-- completion entries (24 bytes and the tail of R460 but the phase) waiting for a slot (R461) -/
  waiting : List (Nat × Nat × Bool × Bytes)
deriving DecidableEq, Repr

/-- ENG. -/
structure Eng where
  /-- rings 0 to 15; unlisted: counts 0, nothing issued (R453) -/
  rings : Tbl Ring
  rr : Nat
  /-- W1C bits of ENG_IRQ_STAT: ring lines and RING_ERR (R470) -/
  irqRings : BitVec 10
  irqErr : Bool
  /-- DRAM group B as bytes, where directives and rings address it (R454, R455); unlisted: 0 (DESIGN CHOICE) -/
  dram : List Host.Cell
deriving DecidableEq, Repr

/-! ## Faults and records (chapters 17 and 18) -/

/-- The latch FLT_FIRST (R527). -/
structure First where
  src : Nat
  cls : Nat
  level : Nat
  coincident : Bool
deriving DecidableEq, Repr

/-- FLT. -/
structure Flt where
  /-- events raised by blocks and not yet accepted by the core, oldest first (R522); a source with an event here is
  LIVE (R523); reset none -/
  raised : List Ev
  /-- STICKY and broken pairs of sources 0 to 1,151 (R524, R520); reset none -/
  sticky : BitVec 1152
  broken : BitVec 1152
  lastBroken : Nat
  /-- escalation counts of sources and of groups; unlisted 0 (R534) -/
  esc : Tbl Nat
  escGroup : Tbl Nat
  first : Option First
  errOut : Bool
  errSrc : Nat
  /-- FLT_TIME in ns (R525) -/
  time : Nat
  /-- collector message failures in a row (R522) -/
  crcFails : Tbl Nat
  /-- storage whose check bits a swatch inverted and no read has met: target, address, bits (R540); reset none -/
  swatched : List (Nat × Nat × Nat)
deriving DecidableEq, Repr

/-- A record of the event recorder (R543). -/
structure Rec where
  row : Nat
  time : Nat
  src : Nat
  rkind : Nat
  cls : Nat
  coincident : Bool
  fallback : Bool
  level : Nat
  k : Nat
  seq : Nat
  payload : Bytes
deriving DecidableEq, Repr

/-- A coalescing counter (R548). -/
structure Coal where
  count : Nat
  firstSeq : Nat
  lastSeq : Nat
  firstTime : Nat
  lastTime : Nat
  level : Nat
  k : Nat
deriving DecidableEq, Repr

/-- The fallback ring (R556): entry 0, then entries 1 to 511 in turn, oldest first; the reports of new lines still to
come; the records lost since it was entered. -/
structure Fallback where
  entry0 : Rec
  ring : List Rec
  reports : Nat
  dropped : Nat
deriving DecidableEq, Repr

/-- REC. -/
structure Recorder where
  ready : Bool
  /-- ROW_NEXT (R544, R546); reset 2^16 + 1 -/
  rowNext : Nat
  srcSeq : Tbl Nat
  /-- intake FIFO, oldest first, at most 256 (R547) -/
  fifo : List Rec
  /-- fatal events waiting in the collector core (R547) -/
  waitFatal : List Rec
  coalescing : Bool
  coal : Tbl Coal
  /-- recorder lines by row mod 2^20 (R544); a lost line is absent from the table -/
  lines : Tbl Rec
  fallback : Option Fallback
  /-- lines lost by a group that failed for want of a spare line, which REC has yet to hear of (R349, R350); reset none -/
  regionDue : Option Nat
deriving DecidableEq, Repr

/-! ## Reset, power, temperature, security, pins -/

/-- Where the drive stands between a chip reset and the end of a start (R475, R479). -/
inductive RunState where
  /-- main power absent or the converters not allowed: everything but PD00 is off -/
  | off
  /-- reset asserted, or released and waiting for the start steps -/
  | inReset
  /-- the reset drain of the prelude runs (R475) -/
  | prelude
  /-- step 14 of a start runs: the data plane is up, START_DONE not written -/
  | starting
  /-- a start has completed -/
  | running
  /-- ROM recovery (R488) -/
  | recovery
deriving DecidableEq, Repr

/-- RST. -/
structure Rst where
  run : RunState
  cause : Nat
  drained : Bool
  warm : Bool
  lastStep : Nat
  failedStarts : Nat
  /-- FLT_TIME when the reset was released (R485) -/
  releasedAt : Nat
  startTime : Nat
  digestVerified : BitVec 5
  digestRecorded : BitVec 5
  /-- PD00 has recorded a loss of P48V or of self-refresh supply (R478) -/
  powerLost : Bool
  /-- FORCE_COLD was set when the reset began (R478) -/
  forceCold : Bool
  /-- the reset is held by RESET_IN_N, by PWR_DISABLE, by temperature (R589, R511) -/
  heldPin : Bool
  heldThermal : Bool
deriving DecidableEq, Repr

/-- The modes of a power domain (R491). -/
inductive DomMode where
  | on | ret | park | lp | sr | off
deriving DecidableEq, Repr

/-- PWR and THM. -/
structure Pwr where
  /-- power state PS0 to PS3 (R494); reset 0 -/
  ps : Nat
  wakeSrc : Nat
  /-- mode of PD00 to PD29; reset all On (PWR_DOMAIN_ON Cold) -/
  domains : List DomMode
  /-- domains due to be switched to a mode, by number (R492) -/
  due : Tbl DomMode
  /-- PS3_REQUEST waits for PS2 (R494, R497); reset false -/
  standby : Bool
  /-- shedding stages 1 to 4 in force (R499) -/
  shed : BitVec 4
  takeover : Bool
  /-- inputs in units of 10 mV and mV, power in 0.1 W (PWR_INPUT, PWR_POWER) -/
  p48 : Nat
  p3v3 : Nat
  inputDw : Nat
  opticsDw : Nat
  p48Present : Bool
  auxPresent : Bool
  holdupReady : Bool
  energyDj : Nat
  bankQv : Nat
  /-- thermal stage 0 to 4, temperatures in 0.125 °C, rejected sensors (R508, R509) -/
  stage : Nat
  stageHeld : Bool
  coldPlate : Int
  dieMax : Int
  sensorA : Bool
  sensorB : Bool
deriving DecidableEq, Repr

/-- The update session (R575 to R582). -/
inductive SessState where
  | idle | openS | activating | trial | awaitingCommit
deriving DecidableEq, Repr

/-- An image set: its ID, epoch, the digest entries of its manifest (R571). -/
structure ImageSet where
  setId : Nat
  epoch : Nat
  testBuild : Bool
  deferLock : Bool
  manifest : Bytes
  images : List Bytes
deriving DecidableEq, Repr

/-- SEC. -/
structure Sec where
  /-- NEXT_LEAF and its PD00 copy (R564, R565) -/
  nextLeaf : Nat
  /-- whether the PD00 copy of NEXT_LEAF is valid (R564) -/
  copyValid : Bool
  /-- image banks whose set failed its verification at the last start (R572, R573, R584) -/
  bankFailed : List Nat
  /-- attestation budget level, in PD00 (R568) -/
  budget : Nat
  /-- when the budget gained its last token, by FLT_TIME (R567); reset 0 -/
  tokenAt : Nat
  /-- FLT_TIME of each requester's last admitted ATTEST (R567) -/
  lastAttest : Tbl Nat
  exhausted : Bool
  tree1Started : Bool
  testAllowed : Bool
  ownerLock : Bool
  /-- revocation fuses of release keys 0 to 3 (R572) -/
  revoked : BitVec 4
  /-- challenges by requester: bytes, time (R570) -/
  challenges : Tbl (Bytes × Nat)
  /-- authorisation references: number, purpose and time (R570) -/
  refs : Tbl (Nat × Nat)
  /-- image banks 0 and 1 (R571), running set, known-good bank, current bank, SEC_MIN_EPOCH -/
  bank0 : Option ImageSet
  bank1 : Option ImageSet
  runningBank : Nat
  goodBank : Nat
  minEpoch : Nat
deriving DecidableEq, Repr

/-- The update session's own state. -/
structure Session where
  st : SessState
  holder : Nat
  /-- the holder's admin command that waits for the trial (R579) -/
  waiting : Option AdminVia
  manifest : Bytes
  /-- received blocks by offset (R578) -/
  blocks : Tbl Bytes
  /-- sources whose session ended by time-out or reset, so that later commands end with TIMEOUT (R577) -/
  ended : List Nat
  lastResult : Nat
  lastReason : Nat
  /-- the drain of an activation runs, and for which bank (R195); reverting -/
  target : Nat
  reverting : Bool
  /-- the holder closed the session while its activation drained (R580, R582) -/
  abandon : Bool
  /-- settings: stored and shadow (R579, R581), as versions of the set that wrote them -/
  settings : Nat
  shadow : Option Nat
deriving DecidableEq, Repr

/-- Pins, SMBus and management (chapter 20). -/
structure Pins where
  resetInLow : Bool
  pwrDisable : Bool
  presentLow : Bool
  slotId : Nat
  transport : Bool
  /-- TRANSPORT_SENSE level (R589) -/
  transportHigh : Bool
  /-- SMBus: read offset, and the dynamic fields at offsets 53 to 59 (R595, R596) -/
  smbOffset : Nat
  smbDynamic : Bytes
  /-- System Image: heartbeats missed in a row, stopped, since when (R38, R41) -/
  missed : Nat
  imageDown : Bool
  /-- SEC_SET_ID of the last start (R596) -/
  startSet : Nat
  /-- Willadra connections accepted (R587) -/
  tlsOpen : Nat
deriving DecidableEq, Repr

/-- The 64-bit pairs whose high word a read of the low register has latched: address of the _LO
register and the latched word (R604). -/
abbrev Latches := Tbl W32

/-- The state of the drive. -/
structure State where
  /-- commands waiting, first in, first out -/
  pending : List Instr
  /-- register words by address; unlisted: the Cold value (R10, R14) -/
  regs : Tbl W32
  latches : Latches
  /-- the model's own counter for free values -/
  free : Nat
  nfe : Nfe
  sch : Sch
  idx : Idx
  mch : Mch
  val : Val
  cip : Cip
  ldg : Ldg
  ftl : Ftl
  peer : PeerSt
  eng : Eng
  flt : Flt
  recorder : Recorder
  rst : Rst
  pwr : Pwr
  sec : Sec
  session : Session
  pins : Pins
deriving DecidableEq, Repr

/-! ## Reset -/

/-- The rotation state of a group that has never moved its gap (R337: DESIGN CHOICE). -/
def LGroup.fresh : LGroup := ⟨0, 250880, 0, 0, 0, false, 0, [], 250880, [], 0, 250880, []⟩

/-- The Ledger's kept objects as the drive leaves manufacture, after the counters have resumed at the
stored ceilings (R172, R546, R568). -/
def Kept.fresh : Kept where
  versionCeiling := 2 ^ 24 + 1
  rowCeiling := 2 ^ 16 + 1
  clearFloor := 1
  qgens := []
  slotRecs := []
  leaf := some (0, 64)
  resetRec := []
  usageCkpt := (0, [])
  journal := []
  nextJseq := 1
  mapFloor := 0
  pieces := []
  ownerKey := none
  bindOff := false

/-- The image set of the drive as shipped: ID 1, epoch 0 (DESIGN CHOICE). -/
def ImageSet.shipped : ImageSet := ⟨1, 0, false, false, [], []⟩

/-- The machine right after the first reset of the drive's life: cause POWER_ON, the reset released,
the start steps of R479 not yet run. -/
def State.reset : State where
  pending := []
  regs := []
  latches := []
  free := 0
  nfe := { linkUp := 0, linkWait := 0, addrs := List.replicate 4 ⟨List.replicate 6 0, [], none⟩,
           retrainA := false, retrainB := false, cageA := ⟨false, false, true⟩,
           cageB := ⟨false, false, true⟩, qps := [], rrExpress := 0, rrOther := 0, stopFetch := false,
           rrTransmit := 0, rrPeer := 0, tx := [], lastCompletion := none, heldDoorbells := [], answered := false,
           ctxCache := [] }
  sch := { nextVersion := 2 ^ 24 + 1, cmds := [], nextCmd := 0, outcomes := [], tenants := [], secrets := [],
           usage := [], recount := false, gate := [], drain := .none, holdWrites := true, credits := [],
           rrClass := 0, rrIssue := 0, rrIntake := 0, rrDone := 0, rrJobs := 0, inReset := [], replayDue := [] }
  idx := { dir := [], table := [], mirror0 := [], mirror1 := [], pending := [], waiting := [], poison := [],
           rebuilding := false, mark := 0, walked := [], tableReady := false, mirrorReady := false, kickStart := 0,
           rebuildDir := [], unplaced := [] }
  mch := { rules := [], shadow := [], shift := none, waitShift := [], waitLoad := [], contexts := [],
           useSeq := 0, waitCtx := [], halves := [], waitHalves := [], rrHalf := 0, rrSearch := 0,
           images := [], lanes := [], scrubDue := [], cascade := false }
  val := { repairs := [], nextRepair := 0, waitRepair := [], rr := 0 }
  cip := { slots := [], cache := [], mismatches := [], lanes := 0xFFFF, alarm := false, alarmSources := 0,
           kekReady := false, restoreDone := false, waitRestore := [], rr := 0, running := [], rerun := [], checks := [],
           bufLane := none, laneKeys := [], drbg := true }
  ldg := { ready := false, level := 0, lines := [], groups := [], dev0Failed := false, dev1Failed := false,
           taken := [], limbo := [], metaQueue := [], stagingFull := false, kept := Kept.fresh }
  ftl := { mapReady := false, sbs := [], skeins := [], streams := [], nextSkein := 1, freed := [],
           pageIndex := [], rebuilds := [], evacuate := [], seconds := 0, seq := 0, dieOps := [],
           holds := [], spareLow := false, degraded := [], par := [], copies := [], upkeep := [],
           moves := [], verifies := [], sumQueue := [], dirty := [], rrFch := [] }
  peer := { entries := [], live := [], templates := [], places := [], dedupe := [], revoke := [],
            suspended := false, intake := [] }
  eng := { rings := [], rr := 0, irqRings := 0, irqErr := false, dram := [] }
  flt := { raised := [], sticky := 0, broken := 0, lastBroken := 0, esc := [], escGroup := [],
           first := none, errOut := false, errSrc := 0, time := 0, crcFails := [], swatched := [] }
  recorder := { ready := false, rowNext := 2 ^ 16 + 1, srcSeq := [], fifo := [], waitFatal := [],
                coalescing := false, coal := [], lines := [], fallback := none,
                regionDue := none }
  rst := { run := .inReset, cause := 0, drained := false, warm := false, lastStep := 0, failedStarts := 0,
           releasedAt := 0, startTime := 0, digestVerified := 0, digestRecorded := 0, powerLost := false,
           forceCold := false, heldPin := false, heldThermal := false }
  pwr := { ps := 0, wakeSrc := 0, domains := List.replicate 30 .on, due := [], standby := false, shed := 0, takeover := false,
           p48 := 0, p3v3 := 0, inputDw := 0, opticsDw := 0, p48Present := true, auxPresent := true,
           holdupReady := false, energyDj := 0, bankQv := 0, stage := 0, stageHeld := false, coldPlate := 0,
           dieMax := 0, sensorA := false, sensorB := false }
  sec := { nextLeaf := 0, copyValid := false, bankFailed := [], budget := 64, tokenAt := 0, lastAttest := [], exhausted := false, tree1Started := false,
           testAllowed := false, ownerLock := false, revoked := 0, challenges := [], refs := [],
           bank0 := some ImageSet.shipped, bank1 := none, runningBank := 0, goodBank := 0, minEpoch := 0 }
  session := { st := .idle, holder := 0, waiting := none, manifest := [], blocks := [], ended := [],
               lastResult := 0, lastReason := 0, target := 0, reverting := false, abandon := false, settings := 0,
               shadow := none }
  pins := { resetInLow := false, pwrDisable := false, presentLow := true, slotId := 7, transport := false,
            transportHigh := false, smbOffset := 0, smbDynamic := List.replicate 7 0, missed := 0,
            imageDown := false, startSet := 1, tlsOpen := 0 }

end Sys2Proof.Machine
end

