-- ==== Sys2Proof/Machine/Flags.lean ====
section
/-! DEFINITION. The code spaces of the drive and what is computed from them: opcodes (R136), status codes
and their order (R142, R143), service classes (R77, R78), event classes and default reactions (R514, R516,
R537), the widths of carried items (R605), queue capacities (R22). -/

namespace Sys2Proof.Machine

/-! ## Opcodes -/

/-- The opcode of a code (R136, R168); none for an undefined value. -/
def Opcode.ofCode : Nat → Option Opcode
  | 0x01 => some .get | 0x02 => some .put | 0x03 => some .delete | 0x04 => some .writeRange
  | 0x05 => some .punch | 0x06 => some .head | 0x08 => some .scan | 0x09 => some .scanNext
  | 0x0A => some .count | 0x0C => some .flush | 0x0F => some .nop
  | 0x20 => some .sessionOpen | 0x21 => some .sessionBlock | 0x22 => some .sessionActivate
  | 0x23 => some .sessionCommit | 0x24 => some .sessionClose | 0x25 => some .attest
  | 0x26 => some .recRead | 0x27 => some .identify
  | _ => none

/-- The code of an opcode (R136, R168). -/
def Opcode.code : Opcode → Nat
  | .get => 0x01 | .put => 0x02 | .delete => 0x03 | .writeRange => 0x04 | .punch => 0x05
  | .head => 0x06 | .scan => 0x08 | .scanNext => 0x09 | .count => 0x0A | .flush => 0x0C | .nop => 0x0F
  | .sessionOpen => 0x20 | .sessionBlock => 0x21 | .sessionActivate => 0x22 | .sessionCommit => 0x23
  | .sessionClose => 0x24 | .attest => 0x25 | .recRead => 0x26 | .identify => 0x27

/-- Admin opcodes (R168). -/
def Opcode.isAdmin : Opcode → Bool
  | .sessionOpen | .sessionBlock | .sessionActivate | .sessionCommit | .sessionClose | .attest
  | .recRead | .identify => true
  | _ => false

/-- The write commands of R52. -/
def Opcode.isWrite : Opcode → Bool
  | .put | .delete | .writeRange | .punch => true
  | _ => false

/-- Opcodes whose key area holds a key (R136). -/
def Opcode.namesKey : Opcode → Bool
  | .get | .put | .delete | .writeRange | .punch | .head => true
  | _ => false

/-- Opcodes whose key area holds a key or a pattern (R137). -/
def Opcode.usesKeyArea : Opcode → Bool
  | .get | .put | .delete | .writeRange | .punch | .head | .scan | .count => true
  | _ => false

/-- Opcodes that use VARIANT (R138). -/
def Opcode.usesVariant : Opcode → Bool
  | .get | .put | .writeRange | .punch => true
  | _ => false

/-- Opcodes that use IF_VERSION (R138). -/
def Opcode.usesCond : Opcode → Bool
  | .get | .put | .delete | .writeRange | .punch => true
  | _ => false

/-- Opcodes that fetch bytes from the client buffer (R138). -/
def Opcode.readsBuffer : Opcode → Bool
  | .put | .writeRange => true
  | _ => false

/-- The bit of RIGHTS that an opcode needs (R71, R72). -/
def Opcode.right : Opcode → Option Nat
  | .get | .head => some 0
  | .put | .writeRange | .punch => some 1
  | .delete => some 2
  | .scan | .scanNext | .count => some 3
  | _ => none

/-! ## Status codes -/

/-- The status code (R143). -/
def Status.code : Status → Nat
  | .ok => 0x00 | .notFound => 0x01 | .versionConflict => 0x02 | .noSpace => 0x03
  | .mediaExhausted => 0x04 | .abortedReset => 0x05 | .e2eCrcMismatch => 0x06 | .keyErased => 0x07
  | .authFailed => 0x08 | .lengthLimit => 0x09 | .nonceExhausted => 0x0A | .invalidDescriptor => 0x0B
  | .accessDenied => 0x0C | .shed => 0x0D | .chainDegraded => 0x0E | .chainFailed => 0x0F
  | .uncorrectable => 0x10 | .busySession => 0x11 | .reverted => 0x12 | .updateRefused => 0x13
  | .timeout => 0x14

/-- The place of a condition in R142's order, 1 the highest; the admin codes stand between SHED and
MEDIA_EXHAUSTED; OK stands last. -/
def Status.rank : Status → Nat
  | .abortedReset => 1 | .invalidDescriptor => 2 | .accessDenied => 3 | .timeout => 4 | .shed => 5
  | .busySession => 6 | .reverted => 7 | .updateRefused => 8 | .mediaExhausted => 9 | .notFound => 10
  | .versionConflict => 11 | .lengthLimit => 12 | .noSpace => 13 | .keyErased => 14
  | .nonceExhausted => 15 | .e2eCrcMismatch => 16 | .uncorrectable => 17 | .authFailed => 18
  | .chainFailed => 19 | .chainDegraded => 20 | .ok => 21

/-- The condition that stands higher (R142). -/
def Status.higher (a b : Status) : Status := if a.rank ≤ b.rank then a else b

/-- The status reported for the conditions found (R142): OK when none was found. -/
def reported (conds : List Status) : Status := conds.foldl Status.higher .ok

/-- Statuses under which a write took effect (R141). -/
def Status.tookEffect : Status → Bool
  | .ok | .chainDegraded => true
  | _ => false

/-! ## Service classes -/

/-- The class of a code of two bits (R77). -/
def SvcClass.ofCode : Nat → SvcClass
  | 0 => .express | 1 => .normal | 2 => .bulk | _ => .scavenge

/-- The code of a class. -/
def SvcClass.code : SvcClass → Nat
  | .express => 0 | .normal => 1 | .bulk => 2 | .scavenge => 3

/-- The numerically greater class (R77). -/
def SvcClass.max (a b : SvcClass) : SvcClass := if a.code < b.code then b else a

/-- R78: SCAN, SCAN_NEXT and COUNT never run at EXPRESS. -/
def scanClass (op : Opcode) (c : SvcClass) : SvcClass :=
  match op with
  | .scan | .scanNext | .count => c.max .normal
  | _ => c

/-- The entry capacity of a queue of R467's numbering for a class (R22). -/
def capacity (queue cls : Nat) : Nat :=
  let row : List Nat := match queue with
    | 0 => [256, 1024, 512, 128]
    | 1 | 2 | 3 => [256, 512, 256, 64]
    | 4 => [128, 256, 256, 64]
    | 5 | 6 => [32, 64, 64, 16]
    | 7 => [64, 256, 64, 16]
    | 8 => [32, 128, 128, 32]
    | 9 => [16, 32, 32, 8]
    | 10 => [64, 128, 128, 32]
    | 11 => [64, 256, 256, 64]
    | 12 => [64, 256, 256, 64]
    | _ => [256, 512, 256, 64]
  row.getD cls 0

/-! ## Events -/

/-- The class codes of FLT_FIRST.CLASS: 0 information, 1 corrected, 2 contained, 3 fatal (R514). -/
def eventClass (src : Nat) : Nat :=
  if 640 ≤ src ∧ src < 1024 then (if (src - 640) % 6 = 0 then 1 else 2)
  else match src with
  | 2 | 3 | 5 | 43 | 66 | 130 | 425 | 518 | 1098 | 1123 => 3
  | 0 | 4 | 6 | 7 | 10 | 11 | 25 | 42 | 45 | 68 | 128 | 129 | 131 | 256 | 288 | 289 | 323 | 326
  | 328 | 332 | 336 | 340 | 329 | 333 | 337 | 341 | 374 | 376 | 377 | 379 | 386 | 390 | 417 | 418
  | 422 | 426 | 514 | 515 | 516 | 517 | 521 | 544 | 547 | 1031 | 1034 | 1089 | 1090 | 1097
  | 1100 | 1122 => 2
  | 1 | 8 | 9 | 44 | 69 | 291 | 320 | 321 | 322 | 368 | 369 | 370 | 371 | 373 | 384 | 385 | 416
  | 420 | 421 | 512 | 513 | 1030 => 1
  | _ => 0

/-- Sources that the chapters define (R515): every other ID is reserved and never raises an event. -/
def sourceDefined (src : Nat) : Bool :=
  src ≤ 12 || src = 16 || src = 24 || src = 25 || (40 ≤ src && src ≤ 46) || (64 ≤ src && src ≤ 71)
    || (128 ≤ src && src ≤ 131) || src = 256 || (288 ≤ src && src ≤ 292) || (320 ≤ src && src ≤ 326)
    || src = 328 || src = 329 || src = 332 || src = 333 || src = 336 || src = 337 || src = 340 || src = 341
    || (368 ≤ src && src ≤ 379) || (384 ≤ src && src ≤ 391) || (416 ≤ src && src ≤ 426)
    || (512 ≤ src && src ≤ 522) || (544 ≤ src && src ≤ 549) || (640 ≤ src && src < 1024)
    || (1024 ≤ src && src ≤ 1036) || (1088 ≤ src && src ≤ 1100) || (1120 ≤ src && src ≤ 1124)

/-- The sources of R537's row "engine internal errors", and source 6. -/
def isEngineError (src : Nat) : Bool :=
  [6, 25, 131, 256, 288, 323, 326, 329, 333, 337, 341, 379, 390, 426, 521, 1034].contains src

/-- Default LEVEL, ESC_MAX and PIN of a source (R537): the first row that fits. -/
def reactDefault (src : Nat) : Nat × Nat × Nat :=
  if src = 43 ∨ src = 66 then (0, 0, 1)
  else if src = 518 then (2, 2, 1)
  else if eventClass src = 3 then (4, 5, 1)
  else if 640 ≤ src ∧ src < 1024 ∧ (src - 640) % 6 = 5 then (3, 3, 0)
  else if isEngineError src then (3, 4, 0)
  else if src = 4 ∨ src = 7 then (2, 3, 0)
  else if eventClass src = 2 then (1, 2, 0)
  else if eventClass src = 1 then (1, 1, 0)
  else (0, 0, 0)

/-- The default class of an engine ring (R453). -/
def ringClassDefault (n : Nat) : Nat := if n = 4 ∨ n = 5 then 3 else 1

/-- The default core of an interrupt line: 16 for lines 8, 9 and 16 (ENG_IRQ_ROUTE_m). -/
def irqCoreDefault (m : Nat) : Nat := if m = 8 ∨ m = 9 ∨ m = 16 then 16 else 0

/-- Whether a slot is a peer link slot (R298). -/
def isPeerSlot (n : Nat) : Bool := 0x410 ≤ n && n ≤ 0x43F

/-- The engine blocks that an engine ring's directives act on (R453). -/
def ringTargets (n : Nat) : List EngBlock :=
  match n with
  | 0 => [.idx] | 1 => [.mch] | 2 => [.val] | 3 => [.cip] | 4 => [.ftl] | 5 => [.ftl] | 6 => [.peer]
  | 7 => [.sch, .qpm] | _ => []

/-- The receiving block of a queue of R467's numbering, with the channel of queue 10 (R22); none where no block of
R191 receives it. -/
def receiverOfQueue (queue channel : Nat) : Option EngBlock :=
  match queue with
  | 0 => some .sch | 1 => some .idx | 2 => some .mch | 3 => some .sch | 4 => some .val | 5 => some .cip
  | 6 => some .val | 7 => some .ldg | 8 => some .ftl | 9 => some (.fch channel) | 10 => some .val
  | 11 => some .peer | _ => none

/-- The internal error source of an engine block (R518). -/
def EngBlock.errorSource : EngBlock → Nat
  | .qpm => 131 | .sch => 256 | .idx => 288 | .mch => 326 | .md n => 329 + 4 * n | .val => 390
  | .cip => 426 | .ldg => 521 | .ftl => 379 | .fch n => 640 + 6 * n + 5 | .peer => 1034 | .eng => 25

/-- The sending block of a queue of R467's numbering, with the channel of queue 10 (R22, R518). -/
def senderOfQueue (queue channel : Nat) : EngBlock :=
  match queue with
  | 0 => .qpm
  | 3 => .idx
  | 5 | 7 | 8 | 12 => .val
  | 6 => .cip
  | 9 => .ftl
  | 10 => .fch channel
  | _ => .sch

/-- The engine block whose sources a range names (R515, R530); none where the block is not in R191. -/
def blockOfSource (src : Nat) : Option EngBlock :=
  if 16 ≤ src ∧ src ≤ 31 then some .eng
  else if src = 131 then some .qpm
  else if 256 ≤ src ∧ src ≤ 287 then some .sch
  else if 288 ≤ src ∧ src ≤ 319 then some .idx
  else if 320 ≤ src ∧ src ≤ 327 then some .mch
  else if 328 ≤ src ∧ src ≤ 343 then some (.md ((src - 328) / 4))
  else if 368 ≤ src ∧ src ≤ 383 then some .ftl
  else if 384 ≤ src ∧ src ≤ 415 then some .val
  else if 416 ≤ src ∧ src ≤ 447 then some .cip
  else if 512 ≤ src ∧ src ≤ 543 then some .ldg
  else if 640 ≤ src ∧ src ≤ 1023 then some (.fch ((src - 640) / 6))
  else if 1024 ≤ src ∧ src ≤ 1087 then some .peer
  else none

/-! ## Chip-reset causes (R474) -/

/-- Whether a cause runs the reset drain. -/
def causeDrains (c : Nat) : Bool := c = 2 || c = 4 || c = 5 || c = 6 || c = 8

/-- Whether a cause takes digests. -/
def causeDigests (c : Nat) : Bool := c = 2 || c = 4 || c = 5 || c = 6

/-- Whether a start that the cause interrupts counts as failed. -/
def causeFails (c : Nat) : Bool := c = 2 || c = 3 || c = 4 || c = 5

end Sys2Proof.Machine
end

