-- ==== Sys2Proof/Machine/Ops.lean ====
section
/-! DEFINITION. The named operations over the state: tables, the byte memory of DRAM group B, updates of one
part of the state, registers by access code (R11 to R14), free values, sending, recording an event, and the
engine rings with their credits (R453 to R461). -/

namespace Sys2Proof.Machine

/-! ## Tables -/

/-- The entry of a number in a table. -/
def tget {α : Type} : Tbl α → Nat → Option α
  | [], _ => none
  | (k, v) :: t, n => if k = n then some v else tget t n

/-- Set the entry of a number, keeping the ascending order. -/
def tset {α : Type} : Tbl α → Nat → α → Tbl α
  | [], n, a => [(n, a)]
  | (k, v) :: t, n, a =>
    if n < k then (n, a) :: (k, v) :: t
    else if n = k then (n, a) :: t
    else (k, v) :: tset t n a

/-- Remove the entry of a number. -/
def tdel {α : Type} : Tbl α → Nat → Tbl α
  | [], _ => []
  | (k, v) :: t, n => if k = n then t else (k, v) :: tdel t n

/-- Change the entry of a number, if it has one. -/
def tmod {α : Type} (t : Tbl α) (n : Nat) (f : α → α) : Tbl α :=
  match tget t n with
  | some a => tset t n (f a)
  | none => t

/-- The numbers of a table rise strictly. -/
def Tbl.wf {α : Type} : Tbl α → Bool
  | [] => true
  | [_] => true
  | (k, _) :: (k', v) :: t => decide (k < k') && Tbl.wf ((k', v) :: t)

/-- The lowest index at or after `ptr` among requesters, wrapping to the lowest (R24). -/
def roundRobin (ptr : Nat) (ready : List Nat) : Option Nat :=
  let low := ready.foldl (fun m n => match m with
    | none => some n
    | some m => some (min m n)) none
  let after := (ready.filter (ptr ≤ ·)).foldl (fun m n => match m with
    | none => some n
    | some m => some (min m n)) none
  match after with
  | some n => some n
  | none => low

/-! ## Byte memory (DRAM group B) -/

/-- Bytes of DRAM group B: 64 GiB (R34). -/
def dramBytes : Nat := 2 ^ 36

/-- One byte; an unlisted address reads 0 (DESIGN CHOICE, log 4). -/
def memRead (m : List Host.Cell) (a : Nat) : Byte := (tget m a).getD 0

/-- Write one byte, keeping the canonical form: a zero byte is not listed. -/
def memWrite (m : List Host.Cell) (a : Nat) (b : Byte) : List Host.Cell :=
  if b = 0 then tdel m a else tset m a b

/-- `n` bytes from an address. -/
def memReadN (m : List Host.Cell) (a : Nat) : Nat → Bytes
  | 0 => []
  | n + 1 => memRead m a :: memReadN m (a + 1) n

/-- Bytes from an address on. -/
def memWriteN (m : List Host.Cell) (a : Nat) : Bytes → List Host.Cell
  | [] => m
  | b :: bs => memWriteN (memWrite m a b) (a + 1) bs

/-- The canonical form: addresses rise strictly and no listed byte is 0. -/
def Memory.wf (m : List Host.Cell) : Bool := Tbl.wf m && m.all (fun c => c.2 ≠ 0)

/-! ## Updates of one part of the state -/

def State.onNfe (s : State) (f : Nfe → Nfe) : State := { s with nfe := f s.nfe }
def State.onSch (s : State) (f : Sch → Sch) : State := { s with sch := f s.sch }
def State.onIdx (s : State) (f : Idx → Idx) : State := { s with idx := f s.idx }
def State.onMch (s : State) (f : Mch → Mch) : State := { s with mch := f s.mch }
def State.onVal (s : State) (f : Val → Val) : State := { s with val := f s.val }
def State.onCip (s : State) (f : Cip → Cip) : State := { s with cip := f s.cip }
def State.onLdg (s : State) (f : Ldg → Ldg) : State := { s with ldg := f s.ldg }
def State.onFtl (s : State) (f : Ftl → Ftl) : State := { s with ftl := f s.ftl }
def State.onPeer (s : State) (f : PeerSt → PeerSt) : State := { s with peer := f s.peer }
def State.onEng (s : State) (f : Eng → Eng) : State := { s with eng := f s.eng }
def State.onFlt (s : State) (f : Flt → Flt) : State := { s with flt := f s.flt }
def State.onRec (s : State) (f : Recorder → Recorder) : State := { s with recorder := f s.recorder }
def State.onRst (s : State) (f : Rst → Rst) : State := { s with rst := f s.rst }
def State.onPwr (s : State) (f : Pwr → Pwr) : State := { s with pwr := f s.pwr }
def State.onSec (s : State) (f : Sec → Sec) : State := { s with sec := f s.sec }
def State.onSession (s : State) (f : Session → Session) : State := { s with session := f s.session }
def State.onPins (s : State) (f : Pins → Pins) : State := { s with pins := f s.pins }

/-- Change what the Ledger's classes keep (R336). -/
def State.onKept (s : State) (f : Kept → Kept) : State :=
  s.onLdg fun l => { l with kept := f l.kept }

/-- A state without change when a premise of the step does not hold: the event names something the drive
does not have (DESIGN CHOICE, log 2). -/
def guardStep (c : Bool) (s : State) (f : State → State) : State := if c then f s else s

/-! ## Blocks that answer (R26, R191, R491, R492) -/

/-- The power domain of an engine block (R491). -/
def domainOf : EngBlock → Nat
  | .sch | .mch | .ftl | .eng => 6
  | .qpm => 9
  | .idx => 10
  | .md n => 11 + n
  | .val => 15
  | .cip => 16
  | .ldg => 17
  | .fch n => 18 + n / 8
  | .peer => 28

/-- Whether a power domain is On. -/
def State.domainOn (s : State) (n : Nat) : Bool := decide (s.pwr.domains.getD n .off = .on)

/-- Whether the engines run: a start has brought them up, and no chip reset has taken them down (R475, R479). -/
def State.engined (s : State) : Bool :=
  decide (s.rst.run = .running) || decide (s.rst.run = .starting) || decide (s.rst.run = .prelude)

/-- Whether an engine block takes no work: it is in reset, or its domain is not On, which its senders treat alike
(R26, R492). IDX works with DRAM group A (R491). -/
def State.blockInReset (s : State) (b : EngBlock) : Bool :=
  !s.engined || s.sch.inReset.contains b || !s.domainOn (domainOf b) || (decide (b = .idx) && !s.domainOn 26)

/-! ## Free values -/

/-- The next free number, and the state after taking it. -/
def State.drawNat (s : State) : Nat × State := (Config.freeNat s.free, { s with free := s.free + 1 })

/-- `n` free bytes. -/
def State.drawBytes (s : State) (n : Nat) : Bytes × State :=
  (padTo n (Config.freeBytes s.free), { s with free := s.free + 1 })

/-- `n` random bytes of the DRBG; once an alarm has zeroized its state (R325) the spec does not say what a draw gives. -/
def State.drawRandom (s : State) (n : Nat) : Bytes × State :=
  (padTo n (if s.cip.drbg then Config.drbg s.free else Config.freeBytes s.free), { s with free := s.free + 1 })

/-! ## Links -/

/-- The link number of R95: 0 A0, 1 A1, 2 B0, 3 B1. -/
def linkIndex : Link → Nat
  | .a0 => 0 | .a1 => 1 | .b0 => 2 | .b1 => 3

/-- The link of a number. -/
def linkOfIndex : Nat → Link
  | 0 => .a0 | 1 => .a1 | 2 => .b0 | _ => .b1

/-- The port of a link (R89, R90). -/
def linkPort : Link → Port
  | .a0 | .a1 => .a
  | .b0 | .b1 => .b

/-- The first link of a port. -/
def portLink : Port → Link
  | .a => .a0 | .b => .b0

/-! ## Sending and recording -/

/-- Raise an event of a source: it goes to its collector (R523), which passes it to the core (R522). -/
def State.raise (s : State) (src : Nat) (payload : Bytes) : State :=
  s.onFlt fun f => { f with raised := f.raised ++ [⟨src, payload⟩] }

/-! ## Registers -/

/-- The word of reset values of a register, from its Cold column (R14); a held field starts at 0, or at the
value its row names. -/
def coldField (n : Nat) : RstVal → Nat
  | .zero | .held => 0
  | .val v | .heldFrom v => v
  | .index => n
  | .ringClass => ringClassDefault n
  | .irqCore => irqCoreDefault n
  | .reactLevel => (reactDefault n).1
  | .reactEscMax => (reactDefault n).2.1
  | .reactPin => (reactDefault n).2.2

/-- The word of reset values of the `n`-th register of an entry. -/
def coldWord (d : RegDesc) (n : Nat) : W32 :=
  BitVec.ofNat 32 ((d.fields.map fun f => coldField n f.cold * 2 ^ f.lo).foldl (· + ·) 0)

/-- The index in an array entry of the register at an address. -/
def RegDesc.indexOf? (d : RegDesc) (a : Nat) : Option Nat :=
  if a < d.addr then none
  else if d.stride = 0 then (if a = d.addr then some 0 else none)
  else
    let k := (a - d.addr) / d.stride
    if (a - d.addr) % d.stride = 0 ∧ k < d.count then some k else none

/-- The register at an address: its description and its index (R445, R449). -/
def findReg (a : Nat) : List RegDesc → Option (RegDesc × Nat)
  | [] => none
  | d :: ds =>
    match d.indexOf? a with
    | some n => some (d, n)
    | none => findReg a ds

/-- The register at an address of the space. -/
def regAt (a : Nat) : Option (RegDesc × Nat) := findReg a regTable

/-- The reset word of the register at an address. -/
def coldAt (a : Nat) : W32 :=
  match regAt a with
  | some (d, n) => coldWord d n
  | none => 0

/-- The stored word of a register. -/
def State.reg (s : State) (a : Nat) : W32 := (tget s.regs a).getD (coldAt a)

/-- Store a register word, keeping the canonical form: a word equal to the reset word is not listed. -/
def State.setReg (s : State) (a : Nat) (w : W32) : State :=
  { s with regs := if w = coldAt a then tdel s.regs a else tset s.regs a w }

/-- The value of a field in a word. -/
def Field.of (f : Field) (w : W32) : Nat := w.toNat / 2 ^ f.lo % 2 ^ (f.hi + 1 - f.lo)

/-- A word with a field replaced. -/
def Field.put (f : Field) (w : W32) (v : Nat) : W32 :=
  let m := (BitVec.ofNat 32 (2 ^ (f.hi + 1 - f.lo) - 1)) <<< f.lo
  (w &&& ~~~m) ||| ((BitVec.ofNat 32 v <<< f.lo) &&& m)

/-- The stored value of a field. -/
def State.fld (s : State) (f : Field) : Nat := f.of (s.reg f.addr)

/-- Set a field. -/
def State.setFld (s : State) (f : Field) (v : Nat) : State := s.setReg f.addr (f.put (s.reg f.addr) v)

/-- Raise a counter field, which saturates at all ones. -/
def State.bump (s : State) (f : Field) (by_ : Nat := 1) : State :=
  s.setFld f (min (s.fld f + by_) (2 ^ (f.hi + 1 - f.lo) - 1))

/-- The DSCP that NFE_DSCP_MAP assigns to a class (R133). -/
def State.dscpOf (s : State) (c : SvcClass) : Nat :=
  s.fld (match c with
    | .express => Reg.NFE_DSCP_MAP_DSCP_EXPRESS
    | .normal => Reg.NFE_DSCP_MAP_DSCP_NORMAL
    | .bulk => Reg.NFE_DSCP_MAP_DSCP_BULK
    | .scavenge => Reg.NFE_DSCP_MAP_DSCP_SCAVENGE)

/-- The DSCP of what no command's class marks (R133): ring fetches by EXPRESS_QP, CNPs by DSCP_CNP, peer messages by the
class that they carry (R431); none where R133 names no class. -/
def State.dscpAlone (s : State) (t : Tx) : Option Nat :=
  match t with
  | .fetch ctx _ _ _ _ =>
    some (s.dscpOf (if ((tget s.nfe.qps ctx).map (·.conn.expressQp)).getD false then .express else .normal))
  | .cnp _ => some (s.fld Reg.NFE_DSCP_MAP_DSCP_CNP)
  | .peerMsg _ _ m => m.cls.map fun c => s.dscpOf (SvcClass.ofCode c)
  | _ => none

/-- The pointer of the transmit port after a message (R24, R25): completions, outbound data, ring fetches, and what PEER
sends. -/
def txPointer (old : Nat) (t : Tx) : Nat :=
  match t with
  | .completion _ _ _ _ _ _ => 1
  | .data _ _ _ _ _ => 2
  | .fetch _ _ _ _ _ => 3
  | .peerMsg _ _ _ => 0
  | _ => old

/-- The pointer of PEER's messages after one (R442): acknowledgements and revokes, chain writes, repair requests,
repair answers and keepalives; messages of EXPRESS commands go by R23. -/
def peerPointer (old : Nat) (t : Tx) : Nat :=
  match t with
  | .peerMsg _ kind m =>
    if m.cls = some 0 then old
    else if kind = 2 ∨ kind = 3 then 1
    else if kind = 1 then 2
    else if kind = 4 then 3
    else 0
  | _ => old

/-- The context whose connection a message goes by. -/
def Tx.ctx? (t : Tx) : Option Nat :=
  match t with
  | .nakInvalid x | .nakAccess x | .cmRep x _ | .cmDreq x _ _ | .cmDrep x | .peerRtu x _ | .fetch x _ _ _ _
  | .keyRead x _ _ _ | .valueRead x _ _ _ | .data x _ _ _ _ | .completion x _ _ _ _ _ | .cnp x | .peerMsg x _ _ => some x
  | _ => none

/-- The link a message leaves by; none for what is no packet. -/
def State.txLink (s : State) (t : Tx) : Option Link :=
  match t with
  | .cmRej l _ => some l
  | .peerReq _ p _ => some (portLink p)
  | _ => t.ctx?.bind fun x => (tget s.nfe.qps x).map (·.conn.link)

/-- The 802.1Q tag of a link (R91). -/
def State.linkTag (s : State) (l : Link) : Option Nat := (s.nfe.addrs[linkIndex l]?).bind (·.tag)

/-- A message with the marks of its packets: on a tagged link the priority is the top three bits of the DSCP (R133), and
every packet is ECT(0) while ECN_EN = 1, else not ECN-capable (R91, NFE_DSCP_MAP). -/
def State.marked (s : State) (t : Tx) (dscp : Option Nat) : Sent :=
  { tx := t, dscp := dscp,
    priority := ((s.txLink t).bind s.linkTag).bind fun _ => dscp.map (· / 8),
    ecn := (s.txLink t).map fun _ => if s.fld Reg.NFE_DSCP_MAP_ECN_EN = 1 then 2 else 0 }

/-- Send to the outside: the transmit log. -/
def State.send (s : State) (t : Tx) : State :=
  s.onNfe fun n => { n with
    tx := n.tx ++ [s.marked t (s.dscpAlone t)], rrTransmit := txPointer n.rrTransmit t, rrPeer := peerPointer n.rrPeer t }

/-- VAL grants a unit (R268): the pointer moves past the requester; EXPRESS work goes by R23. -/
def State.grantVal (s : State) (c : SvcClass) (requester : Nat) : State :=
  if c = .express then s else s.onVal fun v => { v with rr := (requester + 1) % 4 }

/-- Send data or a completion of a command at the class of the step; admin traffic goes at NORMAL (R133). -/
def State.sendAs (s : State) (ctx : Nat) (c : SvcClass) (t : Tx) : State :=
  let admin := ((tget s.nfe.qps ctx).map (·.conn.admin)).getD false
  s.onNfe fun n => { n with
    tx := n.tx ++ [s.marked t (some (s.dscpOf (if admin then .normal else c)))], rrTransmit := txPointer n.rrTransmit t }

/-- A field whose values outside a range act as another value. -/
def State.fldIn (s : State) (f : Field) (lo hi dflt : Nat) : Nat :=
  let v := s.fld f
  if lo ≤ v ∧ v ≤ hi then v else dflt

/-- Whether the BLOCK_LOCK of the block at a base is set (R450). FCH has one lock for all channels. -/
def State.locked (s : State) (base : Nat) : Bool := s.fld (Reg.BLOCK_LOCK base) = 1

/-! ## Engine rings: completion of a directive -/

/-- A ring that nothing has touched. -/
def Ring.fresh : Ring := ⟨false, 0, 0, 0, 0, [], [], []⟩

/-- An engine ring. -/
def State.ring (s : State) (n : Nat) : Ring := (tget s.eng.rings n).getD Ring.fresh

/-- Change an engine ring. -/
def State.onRing (s : State) (n : Nat) (f : Ring → Ring) : State :=
  s.onEng fun e => { e with rings := tset e.rings n (f (s.ring n)) }

/-- log2 of the entries of a ring: 6 to 12, other values act as 6. -/
def State.ringLog2 (s : State) (n : Nat) : Nat := s.fldIn (Reg.ENG_RING_CFG_LOG2 n) 6 12 6

/-- The completion slots in use: written and not yet released (R461). -/
def Ring.cqUsed (r : Ring) : Nat := (r.cqTail + 65536 - r.cqHead) % 65536

/-- Bytes of a completion entry (R460): tag, status, flags with the phase of its count, head, result. -/
def cqeBytes (log2 count : Nat) (etag estatus : Nat) (resExt : Bool) (sqHead : Nat) (result : Bytes) : Bytes :=
  leBytes 4 etag ++ leBytes 1 estatus
    ++ leBytes 1 ((count / 2 ^ log2 + 1) % 2 + (if resExt then 2 else 0))
    ++ leBytes 2 sqHead ++ padTo 24 result

/-- ESTATUS codes of R460. -/
def esDone : Nat := 0
def esRefused : Nat := 1
def esLengthLimit : Nat := 2
def esAuthFailed : Nat := 3
def esUnknownCode : Nat := 4
def esOperandFault : Nat := 5
def esAbortedReset : Nat := 6

/-! ## Credits (R18 to R22) -/

/-- The key of a pool in `Sch.credits`. -/
def poolKey (queue channel cls : Nat) : Nat := queue * 1024 + channel * 4 + cls

/-- What is held of a pool beside the entries that wait in its queue; a pool not listed is full. -/
def State.poolBase (s : State) (queue channel cls : Nat) : Nat × Nat :=
  (tget s.sch.credits (poolKey queue channel cls)).getD (capacity queue cls, capacity queue cls)

/-- The action that governs a command, if the search found one. -/
def Cmd.action? (c : Cmd) : Option Action :=
  match c.policy with
  | .rule a => some a
  | _ => none

/-- The class of every step after the policy result (R77, R78). -/
def Cmd.runClass (c : Cmd) : SvcClass :=
  match c.action? with
  | some a => scanClass c.op (c.cls.max (SvcClass.ofCode a.classCeil))
  | none => c.cls

/-- Whether a command waits for its policy search: a client's keyed command, a SCAN or a COUNT. -/
def Cmd.searches (c : Cmd) : Bool :=
  c.ctx.isSome && c.policy = .waiting && (c.op.namesKey || c.op = .scan || c.op = .count)

/-- Opcodes whose command has a value job for VAL. -/
def Opcode.valueJob : Opcode → Bool
  | .get | .put | .writeRange | .punch => true
  | _ => false

/-- The entries that a command has, at a class, for a queue of R22 between two steps: the lookup and the search it
waits for, the value job until VAL has begun it, the segments at CIP, LDG and FTL, the forward until PEER hears of it,
and its completion toward NFE. -/
def Cmd.entries (c : Cmd) (queue cls : Nat) : Nat :=
  let n := match queue with
    | 1 => if c.stage = .started && c.op.namesKey && c.lookup = .waiting then 1 else 0
    | 2 => if c.stage = .started && c.searches then 1 else 0
    | 4 => if c.stage = .working && c.op.valueJob && c.pos = 0 && c.work.isEmpty then 1 else 0
    | 5 => (c.work.filter fun e => match e.2 with
        | .sealing _ | .opening _ | .mergeOpen _ _ => true
        | _ => false).length
    | 7 => (c.work.filter fun e => match e.2 with
        | .writing g => (match g.loc with | .ledger _ => true | .flash _ _ _ => false)
        | _ => false).length
    | 8 => (c.work.filter fun e => match e.2 with
        | .writing g => (match g.loc with | .ledger _ => false | .flash _ _ _ => true)
        | _ => false).length
    | 11 => if c.stage = .forwarded then 1 else 0
    | 13 => if c.stage = .done && c.ctx.isSome && !c.orphan then 1 else 0
    | _ => 0
  if (if queue = 1 ∨ queue = 2 then c.cls else c.runClass).code = cls then n else 0

/-- Entries of a pool that its receiver has not returned yet: those that commands have for the queue, up to its
capacity; further ones wait at the sender (R18). -/
def State.inQueue (s : State) (queue channel cls : Nat) : Nat :=
  if channel = 0 then min (capacity queue cls) ((s.sch.cmds.map fun e => e.2.entries queue cls).foldl (· + ·) 0) else 0

/-- The sender's counter and the receiver's free entries of a pool (R18). -/
def State.pool (s : State) (queue channel cls : Nat) : Nat × Nat :=
  let b := s.poolBase queue channel cls
  let k := s.inQueue queue channel cls
  (b.1 - k, b.2 - k)

/-- Entries that the commands before a command have for a queue at a class. -/
def State.entriesBefore (s : State) (queue cls n : Nat) : Nat :=
  ((s.sch.cmds.filter fun e => decide (e.1 < n)).map fun e => e.2.entries queue cls).foldl (· + ·) 0

/-- Whether the `i`-th entry of a command for a queue has been sent: the sender had a credit for it (R18). Entries beyond
the capacity wait at the sender. -/
def State.reached (s : State) (queue cls n i : Nat) : Bool := decide (s.entriesBefore queue cls n + i < capacity queue cls)

/-- Send one entry: the counter and the free entries fall by one (R18). -/
def State.sendCredit (s : State) (queue channel cls : Nat) : State :=
  let (c, f) := s.poolBase queue channel cls
  s.onSch fun h => { h with credits := tset h.credits (poolKey queue channel cls) (c - 1, f - 1) }

/-- An entry leaves its queue: the receiver returns one credit (R18); a counter never passes its capacity
(R467), and a pool at full capacity is not listed. -/
def State.returnCredit (s : State) (queue channel cls : Nat) : State :=
  let (c, f) := s.poolBase queue channel cls
  let cap := capacity queue cls
  let k := poolKey queue channel cls
  let c := min (c + 1) cap
  let f := min (f + 1) cap
  s.onSch fun h => { h with
    credits := if c = cap ∧ f = cap then tdel h.credits k else tset h.credits k (c, f) }

end Sys2Proof.Machine
end

