-- ==== Sys2Proof/Machine/Operands.lean ====
section
/-! DEFINITION. The operand forms of the commands: descriptors (R105), connection requests (R94, R95),
tenant records (R64), rule actions (R71), doorbells (R111), completion entries (R120), and the widths of
carried items (R605). -/

namespace Sys2Proof.Machine

/-! ## Links -/

/-! ## The submission descriptor (R105) -/

/-- Decode a 128-byte descriptor; reserved bits are ignored (R107). -/
def parseDesc (b : Bytes) : Desc :=
  let ctrl := fieldAt b 1 1
  let flags := fieldAt b 2 2
  { opcode := fieldAt b 0 1
    phase := bitOf ctrl 0
    keyPtr := bitOf ctrl 1
    resubmit := bitOf ctrl 2
    ordered := bitOf flags 0
    cls := bitsOf flags 2 1
    ifVersion := bitOf flags 3
    e2eCrc := bitOf flags 4
    estimate := bitOf flags 5
    tag := fieldAt b 4 4
    variant := fieldAt b 8 1
    keyLen := fieldAt b 10 2
    clientCrc := BitVec.ofNat 32 (fieldAt b 12 4)
    condVersion := fieldAt b 16 8
    offset := fieldAt b 24 8
    length := fieldAt b 32 8
    bufAddr := fieldAt b 40 8
    bufRkey := fieldAt b 48 4
    param0 := fieldAt b 56 8
    param1 := fieldAt b 64 8
    keyArea := slice b 72 56 }

/-- KEY_ADDR and KEY_RKEY of a descriptor with KEY_PTR = 1. -/
def Desc.keyAddr (d : Desc) : Nat := fieldAt d.keyArea 0 8
def Desc.keyRkey (d : Desc) : Nat := fieldAt d.keyArea 8 4

/-- The key bytes of a descriptor with KEY_PTR = 0. -/
def Desc.inlineKey (d : Desc) : Bytes := d.keyArea.take d.keyLen

/-- The phase of a count on a ring of 2^log2 entries (R102, R454). -/
def phaseOf (log2 count : Nat) : Bool := (count / 2 ^ log2 + 1) % 2 = 1

/-! ## The completion entry (R120) -/

/-- The 32 bytes of a completion entry. -/
def completionBytes (tag status : Nat) (phase more express replayed : Bool)
    (qgen sqHead result1 version validBytes : Nat) : Bytes :=
  leBytes 4 tag ++ leBytes 1 status
    ++ leBytes 1 ((if phase then 1 else 0) + (if more then 2 else 0) + (if express then 4 else 0)
        + (if replayed then 8 else 0))
    ++ leBytes 2 qgen ++ leBytes 4 sqHead ++ leBytes 4 result1 ++ leBytes 8 version ++ leBytes 8 validBytes

/-! ## The connection request (R94) -/

def reqMagic (b : Bytes) : Nat := fieldAt b 0 2
def reqVersion (b : Bytes) : Nat := fieldAt b 2 1
def reqFlags (b : Bytes) : Nat := fieldAt b 3 1
def reqAdmin (b : Bytes) : Bool := bitOf (reqFlags b) 0
def reqExpress (b : Bytes) : Bool := bitOf (reqFlags b) 1
def reqNotify (b : Bytes) : Nat := bitsOf (reqFlags b) 3 2
def reqPeer (b : Bytes) : Bool := bitOf (reqFlags b) 7
def reqTenant (b : Bytes) : Nat := fieldAt b 4 2
def reqRingLog2 (b : Bytes) : Nat := fieldAt b 6 1
def reqSession (b : Bytes) : W64 := BitVec.ofNat 64 (fieldAt b 8 8)
def reqNonce (b : Bytes) : Bytes := slice b 16 16
def reqSqAddr (b : Bytes) : Nat := fieldAt b 32 8
def reqSqRkey (b : Bytes) : Nat := fieldAt b 40 4
def reqCqRkey (b : Bytes) : Nat := fieldAt b 44 4
def reqCqAddr (b : Bytes) : Nat := fieldAt b 48 8
def reqMaxOut (b : Bytes) : Nat := fieldAt b 56 2
def reqCoalCount (b : Bytes) : Nat := fieldAt b 58 2
def reqCoalUs (b : Bytes) : Nat := fieldAt b 60 2
def reqUid (b : Bytes) : Bytes := slice b 62 16

/-- Check 1 of R98: the fields lie within R94. The coalescing values count only with NOTIFY = 2. -/
def reqInRange (b : Bytes) : Bool :=
  reqMagic b = 0x4E50 && reqVersion b = 1
    && 6 ≤ reqRingLog2 b && reqRingLog2 b ≤ (if reqAdmin b then 10 else 16)
    && 1 ≤ reqMaxOut b && reqMaxOut b ≤ 4096 && reqMaxOut b ≤ 2 ^ reqRingLog2 b
    && reqSqAddr b % 4096 = 0 && reqCqAddr b % 4096 = 0
    && (reqNotify b ≠ 2 || (1 ≤ reqCoalCount b && reqCoalCount b ≤ 1024 && 1 ≤ reqCoalUs b
          && reqCoalUs b ≤ 1000))
    && reqNotify b ≠ 3 && bitsOf (reqFlags b) 6 4 = 0 && !(reqAdmin b && reqPeer b)

/-- The private data of a CM REP (R95), cut at the end of its named fields. -/
def repBytes (qgen maxOut doorbellAddr rkey : Nat) (link : Link) (nonce uid : Bytes) : Bytes :=
  leBytes 2 0x4E50 ++ leBytes 1 1 ++ leBytes 1 0 ++ leBytes 2 qgen ++ leBytes 2 maxOut
    ++ leBytes 8 doorbellAddr ++ leBytes 4 rkey ++ leBytes 1 (linkIndex link) ++ zeros 3
    ++ padTo 16 nonce ++ padTo 16 uid

/-- The input of the PROOF of R96. -/
def proofInput (driveNonce clientNonce : Bytes) (tenant driveQpn clientQpn : Nat) (session : W64) : Bytes :=
  driveNonce ++ clientNonce ++ leBytes 2 tenant ++ leBytes 3 driveQpn ++ leBytes 3 clientQpn
    ++ leBytes 8 session.toNat

/-! ## The drive's identity and the keys of its owner (R561, R569) -/

/-- DRIVE_UID (R561). -/
def driveUid : Bytes := padTo 16 Config.driveUid

/-- IMPORT_KEY under an owner key (R569). -/
def importKey (owner : Bytes) : Bytes := padTo 32 (kmac256 owner (ascii "Pennu import") driveUid 32)

/-- The admin connection secret under an owner key (R569). -/
def adminSecret (owner : Bytes) : Bytes := padTo 32 (kmac256 owner (ascii "Pennu admin") driveUid 32)

/-! ## Tenant records and actions -/

/-- The loaded fields of a tenant record (R64); reserved bits are ignored (R464). -/
def parseTenant (b : Bytes) : Tenant :=
  { st := fieldAt b 2 1, maxClass := fieldAt b 3 1 % 4, pinQuota := fieldAt b 4 4,
    byteQuota := fieldAt b 8 8, keyQuota := fieldAt b 16 8 }

/-- The tenant a record names. -/
def tenantIdOf (b : Bytes) : Nat := fieldAt b 0 2 % 1024

/-- A tenant record with its usage fields (R64). -/
def tenantBytes (id : Nat) (t : Tenant) (u : Usage) : Bytes :=
  leBytes 2 id ++ leBytes 1 t.st ++ leBytes 1 t.maxClass ++ leBytes 4 t.pinQuota ++ leBytes 8 t.byteQuota
    ++ leBytes 8 t.keyQuota ++ leBytes 8 u.bytes ++ leBytes 8 u.keys ++ leBytes 4 u.pins ++ zeros 20

/-- An action of 16 bytes (R71). -/
def parseAction (b : Bytes) : Action :=
  let store := fieldAt b 3 1
  { owner := fieldAt b 0 2 % 1024, rights := fieldAt b 2 1 % 16, classCeil := store % 4,
    parityP := bitOf store 2, allowUnreplicated := bitOf store 3, sealIt := bitOf store 4,
    compress := bitOf store 5, expressPin := bitOf store 6, template := fieldAt b 4 1,
    ruleTag := fieldAt b 8 4 }

/-! ## Carried items (R605) -/

def item1 (n : Nat) : Bytes := leBytes 1 n
def item2 (n : Nat) : Bytes := leBytes 2 n
def item4 (n : Nat) : Bytes := leBytes 4 n
def item8 (n : Nat) : Bytes := leBytes 8 n

/-- The core index of REG_ACCESS_FAULT (R446, R448): 0 the service pair, 1 to 16 the application cores. -/
def coreIndex : CoreId → Nat
  | .service => 0
  | .app n => n + 1

/-- A location as the formats carry it: a Ledger line index (R214), or the flash fields of R363. -/
def locWord : Loc → Nat
  | .ledger line => 2 ^ 63 + line
  | .flash skein byte len64 => len64 * 2 ^ 50 + skein * 2 ^ 20 + byte

/-! ## Swatches (R540) -/

/-- The address that the armed swatch names. -/
def State.swatchAddr (s : State) : Nat :=
  s.fld Reg.FLT_SWATCH_ADDR_LO_ADDR_LO + 2 ^ 32 * s.fld Reg.FLT_SWATCH_ADDR_HI_ADDR_HI

/-- A write to a swatch target at an address: the check bits to invert, if the armed swatch names it. The write
counts, is recorded as FLT_SWATCH_APPLIED, and clears ARM when COUNT reaches 0. `addr` is the address as the
target matches it: TARGET 5 by the channel, every other by the whole field. -/
def State.swatch (s : State) (target addr : Nat) : Option Nat × State :=
  let a := s.swatchAddr
  let named := if target = 5 then a % 64 else if target = 6 then a % 2048 else a
  if s.fld Reg.FLT_SWATCH_CTL_ARM = 1 ∧ s.fld Reg.FLT_SWATCH_CTL_TARGET = target ∧ named = addr
      ∧ 0 < s.fld Reg.FLT_SWATCH_CTL_COUNT then
    let left := s.fld Reg.FLT_SWATCH_CTL_COUNT - 1
    let s := s.setFld Reg.FLT_SWATCH_CTL_COUNT left
    let s := if left = 0 then s.setFld Reg.FLT_SWATCH_CTL_ARM 0 else s
    (some (max 1 (s.fld Reg.FLT_SWATCH_CTL_BITS)), s.raise 12 (item1 target ++ item8 a))
  else (none, s)

/-- A write to storage whose swatched check bits the next read of the place will meet: a fresh write without a
swatch leaves good check bits there. -/
def State.swatchWrite (s : State) (target addr : Nat) : State :=
  let (b, s) := s.swatch target addr
  s.onFlt fun f => { f with
    swatched := f.swatched.filter (fun e => !(e.1 = target && decide (e.2.1 = addr)))
      ++ (match b with | some n => [(target, addr, n)] | none => []) }

/-- A read of swatch storage: the inverted bits it meets, and the state once hardware has rewritten the place. -/
def State.swatchRead (s : State) (target addr : Nat) : Option Nat × State :=
  ((s.flt.swatched.find? fun e => e.1 = target && decide (e.2.1 = addr)).map (·.2.2),
    s.onFlt fun f => { f with swatched := f.swatched.filter fun e => !(e.1 = target && decide (e.2.1 = addr)) })

/-- Storage of a target whose places a test names is written: marks that the test meets go, and the armed swatch may
leave a new one at its own address. -/
def State.storageWritten (s : State) (target : Nat) (p : Nat → Bool) : State :=
  let s := s.onFlt fun f => { f with swatched := f.swatched.filter fun e => !(e.1 = target && p e.2.1) }
  if s.fld Reg.FLT_SWATCH_CTL_ARM = 1 ∧ p s.swatchAddr = true then s.swatchWrite target s.swatchAddr else s

/-- The marks of a target that a test meets, and the state without them. -/
def State.storageRead (s : State) (target : Nat) (p : Nat → Bool) : List (Nat × Nat) × State :=
  ((s.flt.swatched.filter fun e => e.1 = target && p e.2.1).map (·.2),
    s.onFlt fun f => { f with swatched := f.swatched.filter fun e => !(e.1 = target && p e.2.1) })

end Sys2Proof.Machine
end

