-- ==== Sys2Proof/Machine/Issue.lean ====
section
/-! DEFINITION. DRAM group B as directives reach it; completion of a directive on its engine ring (R460, R461,
R609); the rings' submission side: what an entry says (R455), how long its operands must be
(R459, R608), and which entries ENG issues (R457, R461, R465). -/

namespace Sys2Proof.Machine

/-! ## DRAM group B (R34, R517, R540) -/

/-- Write bytes into DRAM group B. -/
def State.dramPut (s : State) (a : Nat) (b : Bytes) : State :=
  (s.onEng fun e => { e with dram := memWriteN e.dram a b }).storageWritten 1
    fun x => decide (a ≤ x) && decide (x < a + b.length)

/-- Read bytes of DRAM group B: a word whose check bits a swatch inverted is corrected, source 9, or not, source 11. -/
def State.dramGet (s : State) (a n : Nat) : Bytes × State :=
  let (marks, s) := s.storageRead 1 fun x => decide (a ≤ x) && decide (x < a + n)
  (memReadN s.eng.dram a n,
    marks.foldl (fun s m => s.raise (if m.2 = 1 then 9 else 11) (item8 m.1)) s)

/-! ## Completion of a directive -/

/-- Write one completion entry into DRAM group B and move CQ_TAIL; the ring's line rises when IRQ_EN = 1
(R460, R470). -/
def State.writeCqe (s : State) (n : Nat) (c : Nat × Nat × Bool × Bytes) : State :=
  let r := s.ring n
  let log2 := s.ringLog2 n
  let a := s.fld (Reg.ENG_CQ_BASE_BASE_4K n) * 4096 + 32 * (r.cqTail % 2 ^ log2)
  let s := s.dramPut a (cqeBytes log2 r.cqTail c.1 c.2.1 c.2.2.1 r.sqHead c.2.2.2)
  let s := s.onRing n fun r => { r with cqTail := (r.cqTail + 1) % 65536 }
  if s.fld (Reg.ENG_RING_CFG_IRQ_EN n) = 1 ∧ n < 10 then
    s.onEng fun e => { e with irqRings := e.irqRings ||| (1 <<< n) }
  else s

/-- Write the waiting completions that have a released slot (R461); while ENG is in reset they wait (R463). -/
def State.drainCqes (s : State) (n : Nat) : Nat → State
  | 0 => s
  | fuel + 1 =>
    match (s.ring n).waiting with
    | [] => s
    | c :: _ =>
      if !s.sch.inReset.contains .eng && decide ((s.ring n).cqUsed < 2 ^ s.ringLog2 n) then
        ((s.onRing n fun r => { r with waiting := r.waiting.drop 1 }).writeCqe n c).drainCqes n fuel
      else s

/-- A directive completes on its ring: the entry of its tag is no longer outstanding, and its completion is
written, or waits for a slot (R460, R461). A refused or failed directive returns zeros (R609). -/
def State.ringDone (s : State) (n : Nat) (d : Dir) (estatus : Nat) (result : Bytes) : State :=
  let res := if estatus = 0 then result else []
  let s := s.onRing n fun r => { r with
    issued := r.issued.eraseP (fun i => i.etag = d.etag),
    waiting := r.waiting ++ [(d.etag, estatus, false, res)] }
  s.drainCqes n (s.ring n).waiting.length

/-- A directive with a result longer than 24 bytes completes DONE: the result goes to RES_ADDR, its length
and up to 20 further bytes to RESULT (R609). A result range outside DRAM group B is OPERAND_FAULT (R459). -/
def State.ringDoneExt (s : State) (n : Nat) (d : Dir) (result extra : Bytes) : State :=
  if d.resAddr + result.length > dramBytes then s.ringDone n d 5 []
  else
    let s := s.dramPut d.resAddr result
    let s := s.onRing n fun r => { r with
      issued := r.issued.eraseP (fun i => i.etag = d.etag),
      waiting := r.waiting ++ [(d.etag, 0, true, leBytes 4 result.length ++ extra)] }
    s.drainCqes n (s.ring n).waiting.length

/-! ## Submission entries (R455) -/

def entryCode (e : Bytes) : Nat := fieldAt e 0 1
def entryPtr (e : Bytes) : Bool := bitOf (fieldAt e 1 1) 0
def entryFence (e : Bytes) : Bool := bitOf (fieldAt e 1 1) 1
def entryLen (e : Bytes) : Nat := fieldAt e 2 2
def entryTag (e : Bytes) : Nat := fieldAt e 4 4
def entryAddr (e : Bytes) : Nat := fieldAt e 8 8
def entryRes (e : Bytes) : Nat := fieldAt e 16 8

/-- The operands of an entry: inline, or at OPND_ADDR in DRAM group B. -/
def State.entryOperands (s : State) (e : Bytes) : Bytes :=
  if entryPtr e then memReadN s.eng.dram (entryAddr e) (entryLen e) else slice e 24 (entryLen e)

/-- The directives: ring, code, and the operand bytes that the directive needs before what its operands size
themselves (R608). Rings 4 and 5 take the codes that R453 gives each; the admin opcodes of ring 9 need what
their own checks need. -/
def directiveTable : List (Nat × Nat × Nat) :=
  [(0, 1, 8), (0, 2, 8), (0, 3, 0), (0, 4, 0), (0, 5, 0),
   (1, 1, 100), (1, 2, 104), (1, 3, 4), (1, 4, 60), (1, 5, 4), (1, 6, 1), (1, 7, 1),
   (2, 1, 24),
   (3, 1, 2), (3, 2, 42), (3, 3, 2), (3, 4, 2), (3, 5, 2), (3, 6, 26), (3, 7, 56),
   (4, 1, 3), (4, 2, 4), (4, 4, 2), (4, 6, 0),
   (5, 3, 2), (5, 5, 2),
   (6, 1, 64), (6, 2, 4), (6, 3, 9), (6, 4, 41), (6, 5, 16),
   (7, 1, 64), (7, 2, 2), (7, 3, 42), (7, 4, 2),
   (8, 1, 12), (8, 2, 13),
   (9, 1, 0), (9, 2, 0), (9, 3, 0), (9, 4, 0), (9, 5, 0), (9, 6, 0), (9, 7, 0), (9, 8, 0),
   (9, 16, 1), (9, 17, 34), (9, 18, 36), (9, 19, 5), (9, 20, 4)]

/-- Operand bytes of a directive; none for a code that the ring's target does not define (R459). -/
def operandBytes (ring code : Nat) : Option Nat :=
  (directiveTable.find? fun e => e.1 = ring && e.2.1 = code).map (·.2.2)

/-- Bytes of an operand whose length stands in its first two bytes, padded to 8 (R608: key, AAD). -/
def sizedOperand (b : Bytes) (off : Nat) : Nat := 8 + (fieldAt b off 2 + 7) / 8 * 8

/-- Segments of a rule entry in the cascade mode (R231): 1, 2 or 4. -/
def State.ruleSegs (s : State) : Nat :=
  match s.fld Reg.MCH_CFG_CASCADE with
  | 1 => 2
  | 2 => 4
  | _ => 1

/-- Operand bytes that an entry needs, given the segments of a rule and what its operands size themselves
(R459, R608). -/
def operandNeed (segs ring code : Nat) (ops : Bytes) : Option Nat :=
  (operandBytes ring code).map fun n =>
    if ring = 1 ∧ code = 1 then 4 + 96 * segs
    else if ring = 1 ∧ code = 2 then 8 + 96 * segs
    else if ring = 1 ∧ code = 4 then 40 * segs + 20
    else if ring = 0 ∧ code ≤ 2 then sizedOperand ops 0
    else if ring = 3 ∧ code = 6 then 2 + sizedOperand ops 2 + 16
    else if ring = 3 ∧ code = 7 then 16 + sizedOperand ops 16 + 16 + 16
    else if ring = 6 ∧ code = 2 then 4 + 8 * fieldAt ops 2 2
    else n

/-- Bytes that a directive writes at RES_ADDR, where its table fixes their number (R252, R309, R464, R609): the shadow records
of RULE_READ, the seal word and tag of BUF_SEAL, the record of TENANT_READ. The range of a result whose length its
directive finds is checked when it is written; every other directive has none. -/
def resultBytes (segs ring code : Nat) : Nat :=
  if ring = 1 ∧ code = 5 then 96 * segs
  else if ring = 3 ∧ code = 6 then 32
  else if ring = 7 ∧ code = 2 then 64
  else 0

/-- What ENG finds in an entry: the status that completes it without issue, or none (R459). -/
def State.entryFault (s : State) (ring : Nat) (e : Bytes) : Option Nat :=
  match operandBytes ring (entryCode e) with
  | none => some esUnknownCode
  | some _ =>
    let outside := entryPtr e && decide (dramBytes < entryAddr e + entryLen e)
    let n := resultBytes s.ruleSegs ring (entryCode e)
    let resOutside := decide (0 < n) && decide (dramBytes < entryRes e + n)
    if (!entryPtr e && decide (104 < entryLen e)) || outside || resOutside then
      some esOperandFault
    else match operandNeed s.ruleSegs ring (entryCode e) (s.entryOperands e) with
      | some n => if entryLen e < n then some esOperandFault else none
      | none => some esUnknownCode

/-! ## Issue (R457) -/

/-- The set-up rings, which ENG_HOLD stops (R453, R465). -/
def isSetUpRing (n : Nat) : Bool := n ≤ 3 || n = 6 || n = 7

/-- Whether a ring may issue its next entry: enabled, no ERR, not held, neither ENG nor a target in reset or
switched down, its completion ring not full, no completion waiting, and no fence before an entry still outstanding (R26, R456, R457,
R461, R465). -/
def State.ringReady (s : State) (n : Nat) : Bool :=
  let r := s.ring n
  match r.queue with
  | [] => false
  | e :: _ =>
    decide (n < 10) && decide (s.fld (Reg.ENG_RING_CFG_EN n) = 1) && !r.err
      && !(decide (s.fld Reg.ENG_HOLD_HOLD = 1) && isSetUpRing n)
      && !(EngBlock.eng :: ringTargets n).any s.blockInReset
      && !(decide (n = 1) && [EngBlock.md 0, .md 1, .md 2, .md 3].any s.blockInReset)
      && r.waiting.isEmpty && decide (r.cqUsed < 2 ^ s.ringLog2 n)
      && (!entryFence e || r.issued.isEmpty)

/-- Take the head entry of a ring: issued at its target, or completed with its fault (R457, R459). -/
def State.issueHead (s : State) (n : Nat) : State :=
  match (s.ring n).queue with
  | [] => s
  | e :: rest =>
    let s := s.onRing n fun r => { r with queue := rest, sqHead := (r.sqHead + 1) % 65536 }
    match s.entryFault n e with
    | some es => s.writeCqe n (entryTag e, es, false, [])
    | none => s.onRing n fun r => { r with
        issued := r.issued ++ [⟨entryTag e, entryCode e, entryRes e, entryFence e, s.entryOperands e⟩] }

/-- ENG issues entries, one at a time by the round robin of R24, until no ring is ready. -/
def State.pumpRings (s : State) : Nat → State
  | 0 => s
  | fuel + 1 =>
    match roundRobin s.eng.rr ((List.range 10).filter s.ringReady) with
    | none => s
    | some n => ((s.issueHead n).onEng fun e => { e with rr := n + 1 }).pumpRings fuel

/-- Entries that wait on the rings. -/
def State.ringBacklog (s : State) : Nat :=
  ((s.eng.rings.map fun r => r.2.queue.length).foldl (· + ·) 0)

/-- Issue what can be issued. -/
def State.pump (s : State) : State := s.pumpRings s.ringBacklog

/-- A directive completes, and its ring goes on. -/
def State.finish (s : State) (ring : Nat) (d : Dir) (estatus : Nat) (result : Bytes) : State :=
  (s.ringDone ring d estatus result).pump

/-- A directive with a long result completes, and its ring goes on. -/
def State.finishExt (s : State) (ring : Nat) (d : Dir) (result extra : Bytes) : State :=
  (s.ringDoneExt ring d result extra).pump

/-- The directive that a mirror change completes. -/
def MChange.dir? : MChange → Option Dir
  | .pin _ _ _ d _ | .unpin _ _ d => d
  | .move _ _ _ _ _ | .delete _ _ _ => none

/-- Tags of a ring's directives that have started at the target and have not ended: what they wait for holds them. -/
def State.begunTags (s : State) (ring : Nat) : List Nat :=
  let keys (p : Nat → Bool) : List Dir :=
    (s.cip.slots.filter fun e => p e.1).flatMap fun e => e.2.waiting.map (·.1) ++ e.2.eraseDirs
  let ds : List Dir := match ring with
    | 0 => s.idx.rebuildDir ++ (s.idx.pending ++ s.idx.waiting).filterMap MChange.dir?
    | 1 => (s.mch.shift.map (·.dir)).toList ++ s.mch.waitShift.map (·.1) ++ s.mch.waitLoad.map (·.1)
    | 3 => keys fun n => !isPeerSlot n
    | 4 | 5 => (s.ftl.upkeep.filter fun u => decide (u.ring = ring)).map (·.dir)
        ++ s.ftl.verifies.filterMap fun v => v.dir.map (·.1)
    | 6 => keys isPeerSlot ++ s.cip.waitRestore.map (·.1)
    | 9 => match s.session.waiting with
      | some (.ring _ d) => [d]
      | _ => []
    | _ => []
  ds.map (·.etag)

/-- Whether ENG has issued a directive's entry. -/
def State.hasIssued (s : State) (ring : Nat) (d : Dir) : Bool := (s.ring ring).issued.any fun i => decide (i.etag = d.etag)

/-- Whether an issued entry before a directive's has not started: the entries of a ring start in ring order (R457). -/
def State.early (s : State) (ring : Nat) (d : Dir) : Bool :=
  s.hasIssued ring d && ((s.ring ring).issued.takeWhile fun i => decide (i.etag ≠ d.etag)).any fun i =>
    !(s.begunTags ring).contains i.etag

/-- Whether a directive does not start: an entry before it has not, or its target takes no work (R26, R457). -/
def State.dirWaits (s : State) (ring : Nat) (d : Dir) : Bool := s.early ring d || (ringTargets ring).any s.blockInReset

/-- Whether a set-up request waits: it does not start yet, or the System Image is down and ENG had not issued the entry before
(R39, R465). -/
def State.heldBack (s : State) (ring : Nat) (d : Dir) : Bool :=
  s.dirWaits ring d || (decide (s.fld Reg.ENG_HOLD_HOLD = 1) && !s.hasIssued ring d)

/-- A set-up directive at its target, unless it is held back. -/
def State.setUp (s : State) (ring : Nat) (d : Dir) (f : State → State) : State := guardStep (!s.heldBack ring d) s f

end Sys2Proof.Machine
end

