-- ==== Sys2Proof/Machine/Inflate.lean ====
section
/-! DEFINITION. The decoder of a compressed payload: a raw DEFLATE stream (R276, R278). The steps are those of RFC 1951,
which stands outside the spec (PRESUMED); a code that the stream's tables leave unused, met in the stream, is an error
(DEDUCED). -/

namespace Sys2Proof.Machine

/-- The bits of bytes in the order of RFC 1951: each byte from its least significant bit. -/
def bitsOfBytes (b : Bytes) : List Bool := b.flatMap fun x => (List.range 8).map fun i => x.getLsbD i

/-- A number of `n` bits, least significant first, and the bits after it. -/
def takeBits : Nat → List Bool → Option (Nat × List Bool)
  | 0, bs => some (0, bs)
  | _ + 1, [] => none
  | n + 1, b :: bs => (takeBits n bs).map fun (v, rest) => ((if b then 1 else 0) + 2 * v, rest)

/-- A Huffman code: how many codes of each length 1 to 15, and the symbols by length and then by number. -/
structure HuffCode where
  counts : List Nat
  symbols : List Nat
deriving DecidableEq, Repr

/-- Whether the lengths claim more codes than there are: `left` codes of the length before are free. -/
def oversubscribed : Nat → List Nat → Bool
  | _, [] => false
  | left, c :: cs => if 2 * left < c then true else oversubscribed (2 * left - c) cs

/-- The code of a list of code lengths, none when they are over-subscribed. -/
def huffOf (lengths : List Nat) : Option HuffCode :=
  let counts := (List.range 15).map fun l => lengths.countP (· = l + 1)
  if oversubscribed 1 counts then none
  else some ⟨counts, (List.range 15).flatMap fun l =>
    (lengths.zipIdx.filter fun e => e.1 = l + 1).map (·.2)⟩

/-- One symbol of a code: the code bits so far, the first code of the length, the index of its symbol. -/
def huffSymbol (symbols : List Nat) : List Nat → Nat → Nat → Nat → List Bool → Option (Nat × List Bool)
  | [], _, _, _, _ => none
  | _, _, _, _, [] => none
  | c :: cs, code, first, index, b :: bs =>
    let code := code + (if b then 1 else 0)
    if code < first + c then (symbols[index + (code - first)]?).map fun v => (v, bs)
    else huffSymbol symbols cs (2 * code) (2 * (first + c)) (index + c) bs

def HuffCode.read (h : HuffCode) (bs : List Bool) : Option (Nat × List Bool) := huffSymbol h.symbols h.counts 0 0 0 bs

/-- Base and extra bits of the length codes 257 to 285 and of the distance codes 0 to 29. -/
def lengthBase : List (Nat × Nat) :=
  [(3, 0), (4, 0), (5, 0), (6, 0), (7, 0), (8, 0), (9, 0), (10, 0), (11, 1), (13, 1), (15, 1), (17, 1), (19, 2), (23, 2),
   (27, 2), (31, 2), (35, 3), (43, 3), (51, 3), (59, 3), (67, 4), (83, 4), (99, 4), (115, 4), (131, 5), (163, 5),
   (195, 5), (227, 5), (258, 0)]
def distBase : List (Nat × Nat) :=
  [(1, 0), (2, 0), (3, 0), (4, 0), (5, 1), (7, 1), (9, 2), (13, 2), (17, 3), (25, 3), (33, 4), (49, 4), (65, 5), (97, 5),
   (129, 6), (193, 6), (257, 7), (385, 7), (513, 8), (769, 8), (1025, 9), (1537, 9), (2049, 10), (3073, 10), (4097, 11),
   (6145, 11), (8193, 12), (12289, 12), (16385, 13), (24577, 13)]

/-- A base with its extra bits. -/
def withExtra (t : List (Nat × Nat)) (i : Nat) (bs : List Bool) : Option (Nat × List Bool) :=
  match t[i]? with
  | none => none
  | some (base, extra) => (takeBits extra bs).map fun (v, rest) => (base + v, rest)

/-- Copy `n` bytes from `dist` back; the output stands newest first. -/
def copyBack : Nat → Nat → List Byte → List Byte
  | 0, _, out => out
  | n + 1, dist, out => copyBack n dist (out.getD (dist - 1) 0 :: out)

/-- The symbols of a compressed block up to its end; the output stands newest first. -/
def inflateSymbols (lit dist : HuffCode) : Nat → List Bool → List Byte → Option (List Bool × List Byte)
  | 0, _, _ => none
  | fuel + 1, bs, out =>
    match lit.read bs with
    | none => none
    | some (v, bs) =>
      if v < 256 then inflateSymbols lit dist fuel bs (BitVec.ofNat 8 v :: out)
      else if v = 256 then some (bs, out)
      else match withExtra lengthBase (v - 257) bs with
        | none => none
        | some (len, bs) => match dist.read bs with
          | none => none
          | some (d, bs) => match withExtra distBase d bs with
            | none => none
            | some (back, bs) =>
              if out.length < back then none else inflateSymbols lit dist fuel bs (copyBack len back out)

/-- The order of the code length codes. -/
def clOrder : List Nat := [16, 17, 18, 0, 8, 7, 9, 6, 10, 5, 11, 4, 12, 3, 13, 2, 14, 1, 15]

/-- `n` numbers of 3 bits. -/
def takeThrees : Nat → List Bool → Option (List Nat × List Bool)
  | 0, bs => some ([], bs)
  | n + 1, bs => match takeBits 3 bs with
    | none => none
    | some (v, bs) => (takeThrees n bs).map fun (vs, rest) => (v :: vs, rest)

/-- The code lengths of a dynamic block, up to `total`; they stand newest first. -/
def codeLengths (cl : HuffCode) (total : Nat) : Nat → List Bool → List Nat → Option (List Nat × List Bool)
  | 0, _, _ => none
  | fuel + 1, bs, ls =>
    if ls.length = total then some (ls.reverse, bs)
    else if total < ls.length then none
    else match cl.read bs with
      | none => none
      | some (v, bs) =>
        if v < 16 then codeLengths cl total fuel bs (v :: ls)
        else if v = 16 then match ls.head?, takeBits 2 bs with
          | some l, some (n, bs) => codeLengths cl total fuel bs (List.replicate (3 + n) l ++ ls)
          | _, _ => none
        else match takeBits (if v = 17 then 3 else 7) bs with
          | none => none
          | some (n, bs) => codeLengths cl total fuel bs (List.replicate ((if v = 17 then 3 else 11) + n) 0 ++ ls)

/-- The fixed codes. -/
def fixedLit : List Nat := List.replicate 144 8 ++ List.replicate 112 9 ++ List.replicate 24 7 ++ List.replicate 8 8
def fixedDist : List Nat := List.replicate 30 5

/-- The two codes of a dynamic block. -/
def dynamicCodes (bs : List Bool) : Option (HuffCode × HuffCode × List Bool) :=
  match takeBits 5 bs with
  | none => none
  | some (hlit, bs) => match takeBits 5 bs with
    | none => none
    | some (hdist, bs) => match takeBits 4 bs with
      | none => none
      | some (hclen, bs) =>
        if 29 < hlit then none
        else match takeThrees (hclen + 4) bs with
        | none => none
        | some (threes, bs) =>
          let cls := (List.range 19).map fun i => ((clOrder.zip threes).find? fun e => e.1 = i).elim 0 (·.2)
          match huffOf cls with
          | none => none
          | some cl => match codeLengths cl (hlit + 257 + hdist + 1) 400 bs [] with
            | none => none
            | some (ls, bs) => match huffOf (ls.take (hlit + 257)), huffOf (ls.drop (hlit + 257)) with
              | some l, some d => some (l, d, bs)
              | _, _ => none

/-- `n` whole bytes onto the output, which stands newest first. -/
def takeBytes : Nat → List Bool → List Byte → Option (List Bool × List Byte)
  | 0, bs, out => some (bs, out)
  | n + 1, bs, out => match takeBits 8 bs with
    | none => none
    | some (v, bs) => takeBytes n bs (BitVec.ofNat 8 v :: out)

/-- The blocks up to the last one; the bits left over and the output, newest first. -/
def inflateBlocks : Nat → List Bool → List Byte → Option (List Bool × List Byte)
  | 0, _, _ => none
  | fuel + 1, bs, out =>
    match takeBits 1 bs with
    | none => none
    | some (bfinal, bs) => match takeBits 2 bs with
      | none => none
      | some (btype, bs) =>
        let block := if btype = 0 then
            match takeBits 16 (bs.drop (bs.length % 8)) with
            | none => none
            | some (len, bs) => match takeBits 16 bs with
              | none => none
              | some (nlen, bs) => if len + nlen = 0xFFFF then takeBytes len bs out else none
          else if btype = 1 then
            match huffOf fixedLit, huffOf fixedDist with
            | some l, some d => inflateSymbols l d (bs.length + 1) bs out
            | _, _ => none
          else if btype = 2 then
            match dynamicCodes bs with
            | none => none
            | some (l, d, bs) => inflateSymbols l d (bs.length + 1) bs out
          else none
        match block with
        | none => none
        | some (bs, out) => if bfinal = 1 then some (bs, out) else inflateBlocks fuel bs out

/-- The bytes that a compressed payload stands for (R278): it decodes without error, its last block ends in its last byte,
and it yields exactly the logical length. -/
@[irreducible] def inflate (payload : Bytes) (logicalLen : Nat) : Option Bytes :=
  let bs := bitsOfBytes payload
  match inflateBlocks (bs.length + 1) bs [] with
  | none => none
  | some (rest, out) => if rest.length < 8 ∧ out.length = logicalLen then some out.reverse else none

end Sys2Proof.Machine
end

