-- ==== Sys2Proof/Machine/Aes.lean ====
section
/-! DEFINITION. AES-256 (FIPS 197), its key unwrap (RFC 3394) and AES-256-GCM (NIST SP 800-38D), which the spec names for
slot keys, wrapped keys and seals (R302, R304, R305). The steps are those of the standards, which stand outside the
spec (PRESUMED). -/

namespace Sys2Proof.Machine

/-- Multiplication by x in GF(2^8). -/
def xtime (b : Byte) : Byte := (b <<< 1) ^^^ (if b.getMsbD 0 then 0x1B else 0)

/-- Multiplication in GF(2^8): `n` bits of the second factor are still to come. -/
def gf8Mul : Nat → Byte → Byte → Byte
  | 0, _, _ => 0
  | n + 1, a, b => (if b.getLsbD 0 then a else 0) ^^^ gf8Mul n (xtime a) (b >>> 1)

/-- A table of 256 bytes as one number: rows of 16 bytes, the first byte lowest. -/
def byteTable (rows : List Nat) : Nat := rows.foldr (fun row acc => row + 2 ^ 128 * acc) 0

/-- The S-box. -/
def sboxBits : Nat := byteTable
  [0x76abd7fe2b670130c56f6bf27b777c63, 0xc072a49cafa2d4adf04759fa7dc982ca,
   0x1531d871f1e5a534ccf73f362693fdb7, 0x75b227ebe28012079a059618c323c704,
   0x842fe329b3d63b52a05a6e1b1a2c8309, 0xcf584c4a39becb6a5bb1fc20ed00d153,
   0xa89f3c507f02f94585334d43fbaaefd0, 0xd2f3ff1021dab6bcf5389d928f40a351,
   0x73195d643d7ea7c41744975fec130ccd, 0xdb0b5ede14b8ee4688902a22dc4f8160,
   0x79e4959162acd3c25c2406490a3a32e0, 0x08ae7a65eaf4566ca94ed58d6d37c8e7,
   0x8a8bbd4b1f74dde8c6b4a61c2e2578ba, 0x9e1dc186b95735610ef6034866b53e70,
   0xdf2855cee9871e9b948ed9691198f8e1, 0x16bb54b00f2d99416842e6bf0d89a18c]
def sbox (b : Byte) : Byte := BitVec.ofNat 8 (sboxBits >>> (8 * b.toNat))

/-- The inverse S-box. -/
def invSboxBits : Nat := byteTable
  [0xfbd7f3819ea340bf38a53630d56a0952, 0xcbe9dec444438e3487ff2f9b8239e37c,
   0x4ec3fa420b954cee3d23c2a632947b54, 0x25d18b6d49a25b76b224d92866a12e08,
   0x92b6655dcc5ca4d41698688664f6f872, 0x849d8da75746155edab9edfd5048706c,
   0x0645b3b80558e4f70ad3bc8c00abd890, 0x6b8a130103bdafc1020f3fca8f1e2cd0,
   0x73e6b4f0cecff297eadc674f4111913a, 0x6edf751ce837f9e28535ade72274ac96,
   0x1bbe18aa0e62b76f89c5291d711af147, 0xf45acd78fec0db9a2079d2c64b3e56fc,
   0x5fec8027591012b131c7078833a8dd1f, 0xef9cc9939f7ae52d0d4ab519a97f5160,
   0x619953833cbbebc8b0f52aae4d3be0a0, 0x7d0c2155631469e126d677ba7e042b17]
def invSbox (b : Byte) : Byte := BitVec.ofNat 8 (invSboxBits >>> (8 * b.toNat))

def xorBytes (a b : Bytes) : Bytes := List.zipWith (· ^^^ ·) a b

/-- The 60 words of the key schedule, newest first, from the 8 of the key: `n` words still to come, `i` the number of the
next. -/
def expandKey : Nat → Nat → Byte → List Bytes → List Bytes
  | 0, _, _, ws => ws
  | n + 1, i, rcon, ws =>
    let last := ws.headD []
    let back := ws.getD 7 []
    if i % 8 = 0 then
      let t := ((last.drop 1) ++ last.take 1).map sbox
      let t := xorBytes t [rcon, 0, 0, 0]
      expandKey n (i + 1) (xtime rcon) (xorBytes back t :: ws)
    else if i % 8 = 4 then expandKey n (i + 1) rcon (xorBytes back (last.map sbox) :: ws)
    else expandKey n (i + 1) rcon (xorBytes back last :: ws)

/-- The 15 round keys, first to last, of a 32-byte key. -/
def roundKeys (key : Bytes) : List Bytes :=
  let ws := (expandKey 52 8 1 ((List.range 8).map fun i => slice key (4 * (7 - i)) 4)).reverse
  (List.range 15).map fun r => (slice4 ws (4 * r)).flatten
where
  slice4 (ws : List Bytes) (i : Nat) : List Bytes := (ws.drop i).take 4

/-- ShiftRows over the 16 bytes in column order, and its inverse. -/
def shiftRows (s : Bytes) : Bytes := (List.range 16).map fun i => s.getD ((i + 4 * (i % 4)) % 16) 0
def invShiftRows (s : Bytes) : Bytes := (List.range 16).map fun i => s.getD ((i + 16 - 4 * (i % 4)) % 16) 0

/-- A column of four bytes times the circulant matrix with the given first row. -/
def mixColumn (m : List Byte) (c : Bytes) : Bytes :=
  (List.range 4).map fun r =>
    (List.range 4).foldl (fun acc k => acc ^^^ gf8Mul 8 (c.getD k 0) (m.getD ((k + 4 - r) % 4) 0)) 0

/-- MixColumns, with a matrix's first row. -/
def mixColumns (m : List Byte) (s : Bytes) : Bytes := (List.range 4).flatMap fun c => mixColumn m (slice s (4 * c) 4)

/-- One block enciphered under the round keys. -/
def aesEncrypt (ks : List Bytes) (b : Bytes) : Bytes :=
  let s := xorBytes b (ks.headD [])
  let s := ((ks.drop 1).take 13).foldl (fun s k =>
    xorBytes (mixColumns [2, 3, 1, 1] (shiftRows (s.map sbox))) k) s
  xorBytes (shiftRows (s.map sbox)) (ks.getD 14 [])

/-- One block deciphered under the round keys. -/
def aesDecrypt (ks : List Bytes) (b : Bytes) : Bytes :=
  let s := (invShiftRows (xorBytes b (ks.getD 14 []))).map invSbox
  let s := ((ks.drop 1).take 13).reverse.foldl (fun s k =>
    (invShiftRows (mixColumns [14, 11, 13, 9] (xorBytes s k))).map invSbox) s
  xorBytes s (ks.headD [])

/-! ## Key unwrap (RFC 3394) -/

/-- The big-endian 8 bytes of a number. -/
def be8 (v : Nat) : Bytes := (leBytes 8 v).reverse

/-- The steps of an unwrap, from the last to the first. -/
def unwrapSteps (ks : List Bytes) (n : Nat) : List Nat → Bytes × List Bytes → Bytes × List Bytes
  | [], r => r
  | t :: ts, (a, bs) =>
    let i := t % n
    let b := aesDecrypt ks (xorBytes a (be8 (t + 1)) ++ bs.getD i [])
    unwrapSteps ks n ts (b.take 8, bs.set i (b.drop 8))

/-- Bytes in blocks of 8. -/
def blocks8 (b : Bytes) : List Bytes := (List.range (b.length / 8)).map fun i => slice b (8 * i) 8

/-- AES-256 key unwrap (RFC 3394): key-encryption key and wrapped key; none when the integrity check fails or the length is
no whole number of blocks. -/
@[irreducible] def kwUnwrap (kek wrapped : Bytes) : Option Bytes :=
  let n := wrapped.length / 8 - 1
  let (a, bs) := unwrapSteps (roundKeys (padTo 32 kek)) n (List.range (6 * n)).reverse
    (wrapped.take 8, blocks8 (wrapped.drop 8))
  if wrapped.length % 8 = 0 ∧ 24 ≤ wrapped.length ∧ a = List.replicate 8 0xA6 then some bs.flatten else none

/-- The steps of a wrap. -/
def wrapSteps (ks : List Bytes) (n : Nat) : List Nat → Bytes × List Bytes → Bytes × List Bytes
  | [], r => r
  | t :: ts, (a, bs) =>
    let i := t % n
    let b := aesEncrypt ks (a ++ bs.getD i [])
    wrapSteps ks n ts (xorBytes (b.take 8) (be8 (t + 1)), bs.set i (b.drop 8))

/-- AES-256 key wrap (RFC 3394) of a key of whole blocks. -/
@[irreducible] def kwWrap (kek key : Bytes) : Bytes :=
  let n := key.length / 8
  let (a, bs) := wrapSteps (roundKeys (padTo 32 kek)) n (List.range (6 * n)) (List.replicate 8 0xA6, blocks8 key)
  a ++ bs.flatten

/-! ## GCM (SP 800-38D) -/

/-- A 16-byte block as the polynomial whose first bit is the most significant. -/
def block128 (b : Bytes) : BitVec 128 := BitVec.ofNat 128 (leNat (padTo 16 b).reverse)

def bytes128 (v : BitVec 128) : Bytes := (leBytes 16 v.toNat).reverse

/-- Multiplication in GF(2^128): `n` bits of the first factor are still to come, highest first. -/
def gf128Mul : Nat → BitVec 128 → BitVec 128 → BitVec 128 → BitVec 128
  | 0, _, _, z => z
  | n + 1, x, v, z =>
    gf128Mul n (x <<< 1) ((v >>> 1) ^^^ (if v.getLsbD 0 then 0xE1#128 <<< 120 else 0))
      (if x.getMsbD 0 then z ^^^ v else z)

/-- GHASH over blocks of 16 bytes; the last is padded with zeros. -/
def ghash (h : BitVec 128) : Nat → BitVec 128 → Bytes → BitVec 128
  | 0, y, _ => y
  | n + 1, y, b => ghash h n (gf128Mul 128 (y ^^^ block128 (b.take 16)) h 0) (b.drop 16)

/-- Bytes padded with zeros to whole blocks of 16. -/
def pad16 (b : Bytes) : Bytes := padTo (16 * ((b.length + 15) / 16)) b

/-- The counter mode keystream over bytes, from a counter on. -/
def gcmCtr (ks : List Bytes) (iv : Bytes) : Nat → Nat → Bytes → Bytes
  | 0, _, _ => []
  | n + 1, ctr, b =>
    xorBytes (b.take 16) (aesEncrypt ks (padTo 12 iv ++ (leBytes 4 ctr).reverse)) ++ gcmCtr ks iv n (ctr + 1) (b.drop 16)

/-- The 16 bytes of the tag of a ciphertext. -/
def gcmTag (ks : List Bytes) (iv aad ct : Bytes) : Bytes :=
  let h := block128 (aesEncrypt ks (zeros 16))
  let b := pad16 aad ++ pad16 ct ++ be8 (8 * aad.length) ++ be8 (8 * ct.length)
  padTo 16 (xorBytes (bytes128 (ghash h (b.length / 16) 0 b)) (aesEncrypt ks (padTo 12 iv ++ [0, 0, 0, 1])))

/-- AES-256-GCM: key, nonce of 12 bytes, AAD, plaintext; the ciphertext and the 16-byte tag. -/
@[irreducible] def gcmSeal (key iv aad b : Bytes) : Bytes × Bytes :=
  let ks := roundKeys (padTo 32 key)
  let ct := gcmCtr ks iv (b.length / 16 + 1) 2 b
  (ct, gcmTag ks iv aad ct)

/-- AES-256-GCM: key, nonce, AAD, ciphertext, tag; the plaintext, or none when the tag fails. -/
@[irreducible] def gcmOpen (key iv aad ct tag : Bytes) : Option Bytes :=
  let ks := roundKeys (padTo 32 key)
  if gcmTag ks iv aad ct = tag then some (gcmCtr ks iv (ct.length / 16 + 1) 2 ct) else none

end Sys2Proof.Machine
end

