-- ==== Sys2Proof/Machine/Ledger.lean ====
section
/-! DEFINITION. The Ledger (chapter 10): the gauge, the allocation classes, the groups with their rotation and spare lines,
reads of paired lines, and the journal (R334, R384). -/

namespace Sys2Proof.Machine

/-! ## The gauge (R342 to R346) -/

/-- Tokens of a full gauge (R342). -/
def gaugeMax : Nat := 2 ^ 32

/-- A threshold in tokens: the field's unit is 64 MiB, 2^20 lines; values above 4,096 act as 4,096. -/
def thresholdTokens (v : Nat) : Nat := min v 4096 * 2 ^ 20

/-- RESERVE in tokens (LDG_GAUGE_CFG). -/
def State.reserveTokens (s : State) : Nat := thresholdTokens (s.fld Reg.LDG_GAUGE_CFG_RESERVE)

/-- The threshold of a class (R344): RESERVE, or for BULK and SCAVENGE BULK_FLOOR when that is higher. -/
def State.threshold (s : State) (c : SvcClass) : Nat :=
  let floor := thresholdTokens (s.fld Reg.LDG_GAUGE_CFG_BULK_FLOOR)
  match c with
  | .express | .normal => s.reserveTokens
  | .bulk | .scavenge => max floor s.reserveTokens

/-- Lower LEVEL by `n`; GAUGE_THRESHOLD_REACHED when it first falls to RESERVE (R352, source 520). -/
def State.lowerGauge (s : State) (n : Nat) : State :=
  let old := s.ldg.level
  let new := old - n
  let s := s.onLdg fun l => { l with level := new }
  if s.reserveTokens < old ∧ new ≤ s.reserveTokens then s.raise 520 (item8 new) else s

/-- A single-mode Ledger draws half the tokens of a paired object (R351). -/
def State.pairLines (s : State) (n : Nat) : Nat :=
  if s.ldg.dev0Failed || s.ldg.dev1Failed then n else 2 * n

/-- A recorder or security line write draws min(n, LEVEL); the shortfall is UNMETERED (R344). -/
def State.drawAlways (s : State) (n : Nat) : State :=
  let short := n - s.ldg.level
  let s := s.lowerGauge (min n s.ldg.level)
  if short = 0 then s else s.bump Reg.LDG_UNMETERED_LINES short

/-- Whether a metadata draw of `n` lines is admitted now: enough tokens and no draw waiting before it. -/
def State.metaAdmitted (s : State) (n : Nat) : Bool := s.ldg.metaQueue.isEmpty && n ≤ s.ldg.level

/-- A metadata draw joins the queue, for a command's commit or for none: METADATA_WAITS counts it (R344). -/
def State.queueMeta (s : State) (n : Nat) (cmd : Option Nat) : State :=
  (s.onLdg fun l => { l with metaQueue := l.metaQueue ++ [(n, cmd)] }).bump Reg.LDG_GAUGE_STAT_METADATA_WAITS

/-- A metadata draw whose writer does not wait for it: drawn now, or in the queue until the refill reaches it
(R344; DESIGN CHOICE, log 6). -/
def State.drawMeta (s : State) (n : Nat) : State := if s.metaAdmitted n then s.lowerGauge n else s.queueMeta n none

/-- Whether a command's commit waits in the queue for its tokens. -/
def State.tokensWaited (s : State) (cmd : Nat) : Bool := s.ldg.metaQueue.any fun e => decide (e.2 = some cmd)

/-- The tokens that a draw took from the queue go to the command whose commit waits for them (R345). -/
def State.giveTokens (s : State) (n : Nat) (cmd : Option Nat) : State :=
  match cmd with
  | none => s
  | some c => s.onSch fun h => { h with cmds := tmod h.cmds c fun x => { x with tokens := x.tokens + n } }

/-- Serve the waiting metadata draws that LEVEL covers, in order of request (R345). -/
def State.serveMeta (s : State) : Nat → State
  | 0 => s
  | fuel + 1 =>
    match s.ldg.metaQueue with
    | [] => s
    | (n, cmd) :: rest =>
      if n ≤ s.ldg.level then
        (((s.onLdg fun l => { l with metaQueue := rest }).lowerGauge n).giveTokens n cmd).serveMeta fuel
      else s

/-- A command's commit no longer waits for tokens. -/
def State.dropTokens (s : State) (cmd : Nat) : State :=
  s.onLdg fun l => { l with metaQueue := l.metaQueue.filter fun e => decide (e.2 ≠ some cmd) }

/-! ## Logical lines (R331, R332, R336) -/

/-- The logical line of copy A of the k-th pair of a class, from the class's first line (R332). -/
def pairLine (k : Nat) : Nat := k / 128 * 256 + k % 128

/-- The number of the pair that holds a line of copy A (R332). -/
def pairIndex (line : Nat) : Nat := line / 256 * 128 + line % 128

/-- The allocation class of a logical line (R336). -/
def classOfLine (line : Nat) : Nat :=
  if line < 0x2800000 then 0 else if line < 0x3800000 then 1 else if line < 0x3C00000 then 2
  else if line < 0x3D00000 then 3 else 4

/-- The physical line that holds a logical one: its 64 data bytes and 8 check bytes (R329; the code is a free value, log
183). -/
def physicalLine (data : Bytes) : Bytes := padTo 64 data ++ padTo 8 (Config.ledgerCheck (padTo 64 data))

/-! ## Groups: rotation and writes (R331, R337, R339) -/

/-- A group's rotation state. -/
def State.lgroup (s : State) (g : Nat) : LGroup := (tget s.ldg.groups g).getD LGroup.fresh

/-- Change a group's rotation state. -/
def State.onLgroup (s : State) (g : Nat) (f : LGroup → LGroup) : State :=
  s.onLdg fun l => { l with groups := tset l.groups g (f (s.lgroup g)) }

/-- Whether a device works. -/
def State.deviceWorks (s : State) (dev : Nat) : Bool := if dev = 0 then !s.ldg.dev0Failed else !s.ldg.dev1Failed

/-- Lines of a group are written: they count toward its next gap move and its wear (R337, R339). -/
def State.countGroup (s : State) (g n : Nat) : State :=
  s.onLgroup g fun x => { x with writes := x.writes + n, sinceMove := x.sinceMove + n }

/-- `n` pairs of a class from the k-th on are written, on the devices that work (R332, R351). -/
def State.countPairs (s : State) (k n : Nat) : State :=
  (List.range (min n 128)).foldl (fun s i =>
    let m := n / 128 + if i < n % 128 then 1 else 0
    let g := (k + i) % 128
    let s := if s.deviceWorks 0 then s.countGroup g m else s
    if s.deviceWorks 1 then s.countGroup (128 + g) m else s) s

/-- The rotating slot of index `i` of a group (R337). -/
def LGroup.slot (x : LGroup) (i : Nat) : Nat :=
  let p := (i + x.start) % 250880
  if x.gap ≤ p then p + 1 else p

/-- A state line is written, in turn, every 1,024 gap moves (R339). -/
def LGroup.record (x : LGroup) : LGroup :=
  if x.moves + 1 < 1024 then { x with moves := x.moves + 1 }
  else { x with moves := 0, states := tset x.states x.turn (x.start, x.gap, x.writes), turn := (x.turn + 1) % 64 }

/-- One step of start-gap (R337); the gap slot takes the marker (R339). -/
def LGroup.step (x : LGroup) : LGroup :=
  let x := if x.gap = 0 then { x with gap := 250880, start := (x.start + 1) % 250880 } else { x with gap := x.gap - 1 }
  { x with marker := x.gap }.record

/-- The newest state line of a group: the one with the most writes; START 0 and GAP 250,880 before the first. -/
def LGroup.newest (x : LGroup) : Nat × Nat × Nat :=
  (x.states.map (·.2)).foldl (fun m e => if m.2.2 ≤ e.2.2 then e else m) (0, 250880, 0)

/-- A group as a start restores it (R339): the newest state line, and the marker within the 1,024 slots below its GAP, past
which START has risen where the search wraps. -/
def LGroup.restored (x : LGroup) : LGroup :=
  let (start, gap, writes) := x.newest
  let d := (gap + 250881 - x.marker) % 250881
  if d ≤ 1024 then
    { x with
      start := if gap < x.marker then (start + 1) % 250880 else start
      gap := x.marker, writes := writes, sinceMove := 0, moves := d % 1024 }
  else { x with start := start, gap := gap, writes := writes, sinceMove := 0, moves := 0 }

/-! ## The classes' content (R333, R336) -/

/-- Content capacity of the classes in bytes (R336). -/
def classCapacity (n : Nat) : Nat :=
  [1280 * 2 ^ 20, 512 * 2 ^ 20, 128 * 2 ^ 20, 64 * 2 ^ 20, 8 * 2 ^ 20].getD n 0

/-- The pair of its class in which a kept object lies (DESIGN CHOICE, log 184): of the engine-checkpoint class 0 the version
ceiling, 1 a QGEN, 2 the reset record, 3 a line of the superblock table, 4 a piece-directory entry, 7 the usage checkpoint, 9
the row ceiling, 10 the clear floor, 11 bind-off; of the security class 6 a slot record, 8 the leaf record, 12 the owner
key. -/
def keptPair (object n : Nat) : Nat :=
  match object with
  | 0 => 0
  | 2 => 1
  | 9 => 2
  | 10 => 3
  | 11 => 4
  | 1 => 64 + n / 32
  | 7 => 2 ^ 16
  | 3 => 2 ^ 17 + n / 2
  | 4 => 2 ^ 19 + n / 4
  | 6 => n
  | 8 => 2048
  | _ => 2049

/-- Paired lines of the journal and checkpoint classes are written: a metadata draw (R344). -/
def State.keepMeta (s : State) (object n lines : Nat) : State :=
  (s.drawMeta (s.pairLines lines)).countPairs (keptPair object n) lines

/-- A paired line of the security class is written: its draw is always admitted (R344). -/
def State.keepSecure (s : State) (object n : Nat) : State :=
  (s.drawAlways (s.pairLines 1)).countPairs (keptPair object n) 1

/-- Lines of the engine-checkpoint class that hold something. -/
def State.checkpointLines (s : State) : Nat :=
  let k := s.ldg.kept
  5 + (k.qgens.map fun e => e.1 / 32).eraseDups.length + (s.ftl.sbs.map fun e => e.1 / 2).eraseDups.length
    + (k.pieces.map fun e => e.1 / 4).eraseDups.length + (if k.usageCkpt = (0, []) then 0 else 513)

/-- Content bytes in use of a class (R336, LDG_CLASS_FREE). -/
def State.classUsed (s : State) (n : Nat) : Nat :=
  let k := s.ldg.kept
  64 * (match n with
    | 0 => (s.ldg.taken.map (·.2.1)).foldl (· + ·) 0
    | 1 => k.journal.length
    | 2 => s.checkpointLines
    | 3 => s.recorder.lines.length
    | _ => k.slotRecs.length + (if k.leaf.isSome then 1 else 0) + (if k.ownerKey.isSome then 1 else 0))

/-- Content bytes free of a class. -/
def State.classFree (s : State) (n : Nat) : Nat := classCapacity n - s.classUsed n

/-- The metadata reserve of the staging class (R348). -/
def metaReserve : Nat := 256 * 2 ^ 20

/-- The first of `n` pairs in a row that no object takes, from a pair on. -/
def freeRunFrom (n : Nat) : Nat → Tbl (Nat × Nat) → Option Nat
  | at_, [] => if at_ + n ≤ classCapacity 0 / 64 then some at_ else none
  | at_, (k, m, _) :: rest => if at_ + n ≤ k then some at_ else freeRunFrom n (max at_ (k + m)) rest

/-- The first free run of `n` pairs of the staging class. -/
def State.freeRun (s : State) (n : Nat) : Option Nat := freeRunFrom n 0 s.ldg.taken

/-- Whether the staging class has free lines for an object of `n` pairs: an object's lines follow one another (R334), so that
scattered free lines do not count (DESIGN CHOICE, log 185). -/
def State.stagingFits (s : State) (n : Nat) : Bool := decide (64 * n ≤ s.classFree 0) && (s.freeRun n).isSome

/-- Allocate `n` staging pairs: the first line, and the state with them in use (R333). Callers have tested for room; without
any, the lines follow the last object. -/
def State.allocStaging (s : State) (n : Nat) : Nat × State :=
  let k := (s.freeRun n).getD ((s.ldg.taken.map fun e => e.1 + e.2.1).foldl max 0)
  (pairLine k, s.onLdg fun l => { l with taken := tset l.taken k (n, s.flt.time) })

/-- Allocate staging pairs for a directory record or a map page, which the commit writes (R215, R374). -/
def State.stageLines (s : State) (n : Nat) : Nat × State :=
  let (line, s) := s.allocStaging n
  (line, s.countPairs (pairIndex line) n)

/-- Whether a running command, or a repair, reads a stored segment at a line (R179, R333). -/
def State.lineRead (s : State) (line : Nat) : Bool :=
  (s.sch.cmds.any fun e => e.2.outcome.isNone && match e.2.lookup with
    | .found r => ((tget r.variants e.2.desc.variant).map fun v => v.segs.any fun g => decide (g.2.loc = .ledger line)).getD false
    | _ => false)
  || s.val.repairs.any fun e => decide (e.2.old.loc = .ledger line)

/-- Give back the lines of an object: at once, or when no reader holds them any more (R333). -/
def State.freeLines (s : State) (line : Nat) : State :=
  let k := pairIndex line
  s.onLdg fun l =>
    if s.lineRead line then { l with limbo := if l.limbo.contains k then l.limbo else l.limbo ++ [k] }
    else { l with taken := tdel l.taken k }

/-- Free the dead objects that no reader holds any more (R333). -/
def State.settleLimbo (s : State) : State :=
  let gone := s.ldg.limbo.filter fun k => !s.lineRead (pairLine k)
  s.onLdg fun l => { l with taken := gone.foldl tdel l.taken, limbo := l.limbo.filter fun k => !gone.contains k }

/-! ## Spare lines (R331, R340, R349 to R351) -/

/-- Spare lines of a group (R331). -/
def groupSpares : Nat := 9728

/-- The groups of a device (R331). -/
def deviceGroups (dev : Nat) : List Nat := (List.range 128).map fun i => 128 * dev + i

/-- Spare lines left on a device: those of its groups that work (R351). -/
def State.sparesLeft (s : State) (dev : Nat) : Nat :=
  ((deviceGroups dev).map fun g => if (s.lgroup g).failed then 0 else groupSpares - (s.lgroup g).sparesUsed).foldl (· + ·) 0

/-- Whether a device has fewer than 10 % of its spare lines (R351). -/
def State.spareLineLow (s : State) (dev : Nat) : Bool := decide (10 * s.sparesLeft dev < 1245184)

/-- A physical line number: the spare slots follow the rotating and the meta lines (DESIGN CHOICE, log 27). -/
def physLine (g slot : Nat) : Nat := g * 262144 + slot

/-- LEDGER_SPARE_LOW when a device has fallen below 10 % (R352). -/
def State.noteSpares (s : State) (dev : Nat) (was : Bool) : State :=
  if !was && s.spareLineLow dev then s.raise 519 (item1 dev ++ item4 (s.sparesLeft dev)) else s

/-- Take one spare line of a group. -/
def State.takeSpare (s : State) (g : Nat) : State :=
  (s.onLgroup g fun x => { x with sparesUsed := x.sparesUsed + 1 }).noteSpares (g / 128) (s.spareLineLow (g / 128))

/-- Take spare lines of a device, spread evenly over its working groups; what does not fit is left (R349). -/
def State.takeSpares (s : State) (dev n : Nat) : State :=
  let gs := (deviceGroups dev).filter fun g => !(s.lgroup g).failed
  let k := max 1 gs.length
  ((gs.zipIdx).foldl (fun s e => s.onLgroup e.1 fun x => { x with
    sparesUsed := min groupSpares (x.sparesUsed + n / k + (if e.2 < n % k then 1 else 0)) }) s).noteSpares dev (s.spareLineLow dev)

/-- The working group of a device with the fewest spare lines used. -/
def State.roomiest (s : State) (dev : Nat) : Option Nat :=
  ((deviceGroups dev).filter fun g => !(s.lgroup g).failed && decide ((s.lgroup g).sparesUsed < groupSpares)).foldl
    (fun m g => match m with
      | none => some g
      | some b => if (s.lgroup g).sparesUsed < (s.lgroup b).sparesUsed then some g else m) none

/-- Whether no storage is left for a logical line (R349). -/
def State.lineStuck (s : State) (line : Nat) : Bool :=
  let x := s.lgroup (line % 256)
  decide (x.stuckFrom ≤ line / 256) || x.stuck.contains (line / 256)

/-! ## Lost lines (R349, R350, R555) -/

/-- Rows of the recorder's ring (R544). -/
def recRing : Nat := 1048576

/-- The logical Ledger line of a row (R544). -/
def recLine (row : Nat) : Nat := 0x3C00000 + row % recRing

/-- A recorder line is lost (R555): its record is counted, and reads return a gap. -/
def State.recLineLost (s : State) (row : Nat) : State :=
  ((s.onRec fun q => { q with lines := tdel q.lines (row % recRing) }).bump Reg.REC_LOST_STAT_LINES_LOST).raise 546
    (item8 row)

/-- Recorder lines that a test names are lost: LEDGER_REGION_LOST, and each record in them counts as lost (R350, R555). The
first line and the count are those of the class. -/
def State.regionLost (s : State) (p : Nat → Bool) (first count : Nat) : State :=
  ((s.recorder.lines.filter fun e => p (0x3C00000 + e.1)).map fun e => e.2.row).foldl State.recLineLost
    (s.raise 517 (item4 first ++ item4 count))

/-- The key of a copy's mark: copy B's line stands 2^63 above copy A's. -/
def copyKey (line : Nat) (copyB : Bool) : Nat := if copyB then line + 2 ^ 63 else line

/-- Bit errors of a copy: 0 or 1, 2, or 3 for more than can be corrected (R329, R540). -/
def State.copyMark (s : State) (line : Nat) (copyB : Bool) : Nat :=
  min 3 (((s.flt.swatched.find? fun e => e.1 = 2 && decide (e.2.1 = copyKey line copyB)).map (·.2.2)).getD 0)

/-- A copy becomes uncorrectable. -/
def State.spoilCopy (s : State) (line : Nat) (copyB : Bool) : State :=
  s.onFlt fun f => { f with
    swatched := (f.swatched.filter fun e => !(e.1 = 2 && decide (e.2.1 = copyKey line copyB))) ++ [(2, copyKey line copyB, 3)] }

/-- The lines of a failed group that have no other copy, on a device that works alone, are lost (R351). -/
def State.loseGroup (s : State) (g : Nat) : State :=
  if s.deviceWorks (1 - g / 128) then s
  else ((s.ldg.lines.map (·.1)).filter fun l => decide (l % 128 = g % 128) && decide (classOfLine l ≠ 3)).foldl
    (fun s l => s.spoilCopy l (decide (128 ≤ g))) s

/-- A group has failed: LEDGER_GROUP_FAILED, and its recorder lines are lost before any is remapped (R349, R350). -/
def State.groupGone (s : State) (g : Nat) : State :=
  (((s.onLgroup g fun x => { x with failed := true }).raise 515 (item1 g)).loseGroup g).regionLost
    (fun l => decide (l % 256 = g)) (0x3C00000 + g) 4096

/-- The lines of a failed group move to spare lines of the other groups of its device, the low indices first;
LEDGER_SPARE_EXHAUSTED when the spares do not suffice (R349; which lines go without is a DESIGN CHOICE, log 186). -/
def State.moveGroup (s : State) (g : Nat) : State :=
  let left := s.sparesLeft (g / 128)
  let s := if left < 250880 then (s.onLgroup g fun x => { x with stuckFrom := min x.stuckFrom left }).raise 518 (item1 g) else s
  s.takeSpares (g / 128) 250880

/-- A group that needs a retirement and has no spare line left fails; REC falls back when the event reaches it (R349, R350). -/
def State.failGroup (s : State) (g : Nat) : State :=
  ((s.groupGone g).onRec fun q => { q with regionDue := some (4096 + q.regionDue.getD 0) }).moveGroup g

/-- Retire the physical line of a logical line (R340): LEDGER_LINE_RETIRED. A group without a spare line left fails (R349). A
line of a failed group lies on the spare lines of other groups, at numbers that the spec leaves open; with no spare line left
on the device it is LEDGER_SPARE_EXHAUSTED. -/
def State.retireLine (s : State) (line : Nat) : State :=
  let g := line % 256
  let x := s.lgroup g
  if x.failed then
    match s.roomiest (g / 128) with
    | none => (s.onLgroup g fun x => { x with stuck := x.stuck ++ [line / 256] }).raise 518 (item1 g)
    | some h =>
      let (a, s) := s.drawNat
      let (b, s) := s.drawNat
      (s.takeSpare h).raise 513 (item1 g ++ item4 (a % 2 ^ 26) ++ item4 (b % 2 ^ 26))
  else if x.sparesUsed < groupSpares then
    let p := x.slot (line / 256)
    let spare := 252416 + x.sparesUsed
    let s := (s.takeSpare g).onLgroup g fun x => { x with remap := tset x.remap p spare }
    s.raise 513 (item1 g ++ item4 (physLine g ((tget x.remap p).getD p)) ++ item4 (physLine g spare))
  else s.failGroup g

/-! ## Reads of paired lines (R329, R332, R340, R349, R351) -/

/-- A copy of a line is read: a single error leaves the line as it is, two bits retire it (R329, R340). -/
def State.copyRead (s : State) (line : Nat) (copyB : Bool) : State :=
  let (b, s) := s.swatchRead 2 (copyKey line copyB)
  if b = some 2 then s.retireLine (if copyB then line + 128 else line) else s

/-- Whether a copy of a paired line can be read: its device works, and its errors can be corrected (R329). -/
def State.copyGood (s : State) (line : Nat) (copyB : Bool) : Bool :=
  s.deviceWorks (if copyB then 1 else 0) && decide (s.copyMark line copyB < 3)

/-- One paired line is read (R332, R349): whether a copy of it was good. Copy B is read when copy A is uncorrectable, which is
then repaired, or when device 0 has failed. -/
def State.readLine (s : State) (line : Nat) : Bool × State :=
  if s.copyGood line false then (true, s.copyRead line false)
  else if s.copyGood line true then
    let s := s.copyRead line true
    (true, if s.deviceWorks 0 then ((s.swatchRead 2 line).2.retireLine line).raise 512 (item4 line ++ item1 0) else s)
  else (false, s.raise 514 (item4 line ++ item1 (classOfLine line)))

/-- Some paired lines are read: whether all of them could be (R332, R340, R349, R540). -/
def State.readLines (s : State) : List Nat → Bool × State
  | [] => (true, s)
  | l :: rest =>
    let (ok, s) := s.readLine l
    let (more, s) := s.readLines rest
    (ok && more, s)

/-- The lines that copy A of a Ledger object occupies: pairs one after another (R332). -/
def ledgerLines (loc : Loc) (units : Nat) : List Nat :=
  match loc with
  | .ledger line => (List.range units).map fun i => pairLine (pairIndex line + i)
  | .flash _ _ _ => []

/-- Whether every byte is zero (R271). -/
def allZero (b : Bytes) : Bool := b.all (· = 0)

/-- The bytes of a directory record or a map page go to its lines, in both copies (R215, R332, R374, R540). -/
def State.putLines (s : State) (line : Nat) (b : Bytes) : State :=
  ((ledgerLines (.ledger line) ((b.length + 63) / 64)).zipIdx).foldl (fun s e =>
    let d := padTo 64 (slice b (64 * e.2) 64)
    let s := s.onLdg fun l => { l with lines := if allZero d then tdel l.lines e.1 else tset l.lines e.1 (d, d) }
    let s := if s.deviceWorks 0 then s.swatchWrite 2 (copyKey e.1 false) else s
    if s.deviceWorks 1 then s.swatchWrite 2 (copyKey e.1 true) else s) s

/-! ## The journal (R334, R384) -/

/-- The 64 bytes of a journal line: a commit line (R334), or a map-change record (R384). -/
def JLine.bytes (j : JLine) : Bytes :=
  let head := leBytes 8 j.jseq ++ leBytes 1 j.kind
  let b :=
    if j.kind < 0x10 then
      let u := (j.usage.map (·.2)).getD ⟨0, 0, 0⟩
      head ++ leBytes 1 j.dirLines ++ zeros 2 ++ leBytes 4 j.dirLine ++ leBytes 8 j.kh.toNat ++ leBytes 8 j.version
        ++ leBytes 2 ((j.usage.map (·.1)).getD 0) ++ leBytes 1 (if j.usage.isSome then 1 else 0) ++ zeros 1
        ++ leBytes 4 u.pins ++ leBytes 8 u.bytes ++ leBytes 8 u.keys ++ zeros 4
    else head ++ zeros 3 ++ leBytes 4 (if j.kind = 0x15 then 0 else j.target) ++ padTo 44 j.body
  b ++ leBytes 4 (crc32c b).toNat

/-- The logical line of copy A of a journal line: the lines of the class in turn (R336; DESIGN CHOICE, log 184). -/
def journalLine (jseq : Nat) : Nat := 0x2800000 + pairLine (jseq % 2 ^ 23)

/-- Journal one record: it takes the next JSEQ and one paired line of the journal class. -/
def State.journal (s : State) (j : JLine) : State :=
  let j := { j with jseq := s.ldg.kept.nextJseq }
  ((s.onKept fun k => { k with journal := k.journal ++ [j], nextJseq := k.nextJseq + 1 }).onLdg fun l => { l with
    lines := tset l.lines (journalLine j.jseq) (j.bytes, j.bytes) }).countPairs (j.jseq % 2 ^ 23) 1

/-- Journal a map change of R384, drawing its lines: the target, and the bytes from offset 16 on. -/
def State.journalMap (s : State) (kind target : Nat) (body : Bytes) : State :=
  (s.journal ⟨0, kind, 0, 0, none, target, 0, 0, body⟩).drawMeta (s.pairLines 1)

/-- Whether the journal class is 75 % full (R385). -/
def State.journalHigh (s : State) : Bool := decide (3 * classCapacity 1 ≤ 4 * s.classUsed 1)

/-- A skein's map entry (R365). -/
def Skein.entry (k : Skein) : Nat :=
  2 ^ 63 + (if k.fine then 2 ^ 62 else 0) + (if k.classP then 2 ^ 61 else 0) + k.liveUnits * 2 ^ 46
    + (if k.fine then k.table else k.sb / 4096 * 2 ^ 29 + k.sb % 4096 * 2 ^ 17 + k.slot * 2 ^ 5)

/-- A stitch's entry (R366): its live objects, superblock and codeword. -/
def stitchEntry (e : Nat × Nat × Nat) : Nat :=
  2 ^ 63 + e.1 * 2 ^ 40 + e.2.1 / 4096 * 2 ^ 33 + e.2.1 % 4096 * 2 ^ 21 + e.2.2

/-- The entry of a range in the directory page index (R375): the LFA of its first page, and PAGES. -/
def pageEntry (e : Nat × Nat) : Nat := 2 ^ 63 + e.2 * 2 ^ 57 + e.1

/-- SKEIN_SET of a skein as the map now holds it (R384). -/
def State.journalSkein (s : State) (skein : Nat) : State :=
  s.journalMap 0x10 skein (leBytes 8 (((tget s.ftl.skeins skein).map Skein.entry).getD 0))

/-- Runs of at most four consecutive stitches: first and count. -/
def stitchRuns : List Nat → List (Nat × Nat)
  | [] => []
  | a :: rest =>
    match stitchRuns rest with
    | (b, n) :: more => if b = a + 1 ∧ n < 4 then (a, n + 1) :: more else (a, 1) :: (b, n) :: more
    | [] => [(a, 1)]

/-- STITCH_SET of some stitches of a skein, ascending, as the map now holds them (R384). -/
def State.journalStitches (s : State) (skein : Nat) (stitches : List Nat) : State :=
  let t := ((tget s.ftl.skeins skein).map (·.stitches)).getD []
  (stitchRuns stitches).foldl (fun s e => s.journalMap 0x11 skein (leBytes 1 e.1 ++ leBytes 1 e.2 ++ zeros 2
    ++ (List.range e.2).flatMap fun i => leBytes 8 (((tget t (e.1 + i)).map stitchEntry).getD 0))) s

/-- The STATE of a superblock in its record: FREE, OPEN, or 2 for every closed one (R384; DESIGN CHOICE, log 187). -/
def SbState.recorded : SbState → Nat
  | .free => 0
  | .opened => 1
  | .closed | .unverified | .verified | .reclaiming | .retired => 2

/-- SB_STATE of a superblock as it now is (R384). -/
def State.journalSb (s : State) (id : Nat) : State :=
  let b := tget s.ftl.sbs id
  s.journalMap 0x13 id (leBytes 1 ((b.map (·.st.recorded)).getD 0) ++ leBytes 1 (if (b.map (·.slc)).getD false then 1 else 0)
    ++ leBytes 1 ((b.map (·.stream)).getD 0) ++ zeros 5 ++ leBytes 8 ((b.map (·.seqNo)).getD 0))

end Sys2Proof.Machine
end

