-- ==== Sys2Proof/Machine/Storage.lean ====
section
/-! DEFINITION. Where stored bytes go and how they are accounted for: skeins, streams and superblocks (chapters 11 and 12), and
the release of what a commit makes dead (R368). -/

namespace Sys2Proof.Machine

/-! ## Superblocks (R353 to R357, R387 to R390) -/

/-- A superblock nothing has used (R387; WEAR 0 is a DESIGN CHOICE, log 8). -/
def Sb.fresh : Sb where
  st := .free
  slc := false
  layoutR := false
  stream := 0
  folding := false
  wear := 0
  closeTime := 0
  vacant := 0
  retiring := 0
  skipped := 0
  refreshDue := false
  refreshCnt := []
  rows := 0
  nextQ := 0
  lost := []
  saved := []
  seqNo := 0
  done := 0
  staged := []
  media := []
  parity := []
  tags := []
  summary := []
  sumLocs := []
  seq := 0
  dueSeq := 0
  lastRead := 0

/-- Whether a number is a superblock ID: 96 groups of 2,544 blocks (R354). -/
def sbExists (id : Nat) : Bool := id / 4096 < 96 && id % 4096 < 2544

/-- The number of superblocks (R354). -/
def sbTotal : Nat := 244224

/-- The i-th superblock ID in ascending order. -/
def sbIdOf (i : Nat) : Nat := i / 2544 * 4096 + i % 2544

/-- A superblock's entry. -/
def State.sb (s : State) (id : Nat) : Sb := (tget s.ftl.sbs id).getD Sb.fresh

/-- Change a superblock's entry; the table line is written to the Ledger first (R387). -/
def State.onSb (s : State) (id : Nat) (f : Sb → Sb) : State :=
  (s.onFtl fun t => { t with sbs := tset t.sbs id (f (s.sb id)) }).keepMeta 3 id 1

/-- Change fields of a superblock's entry whose change needs no Ledger write (R387). -/
def State.onSbQuiet (s : State) (id : Nat) (f : Sb → Sb) : State :=
  s.onFtl fun t => { t with sbs := tset t.sbs id (f (s.sb id)) }

/-- Positions of a mask, ascending. -/
def positions (m : BitVec 16) : List Nat := (List.range 16).filter fun p => m.getLsbD p

/-- The mask of a position. -/
def posBit (p : Nat) : BitVec 16 := (1 : BitVec 16) <<< p

/-- Vacant positions of a superblock, with those that its next erase makes vacant. -/
def Sb.vacancies (b : Sb) : Nat := (positions (b.vacant ||| b.retiring)).length

/-- Data codewords per row (R357, R390). -/
def Sb.rowWords (b : Sb) : Nat := 16 * ((if b.layoutR then 16 else 15) - (positions b.skipped).length)

/-- Positions that a superblock's rows use, ascending (R390). -/
def Sb.live (b : Sb) : List Nat := positions (~~~b.skipped)

/-- Data positions of a row: without the parity position in layout P (R356, R390). -/
def Sb.dataPositions (b : Sb) (row : Nat) : List Nat :=
  if b.layoutR then b.live else b.live.eraseIdx (row % max 1 b.live.length)

/-- The position of a data codeword (R357, R390). -/
def Sb.posOf (b : Sb) (q : Nat) : Nat :=
  let w := max 1 b.rowWords
  (b.dataPositions (q / w)).getD (q % w / 16) 0

/-- The channel and the die of a position of a superblock (R354). -/
def chanOf (id pos : Nat) : Nat := 4 * pos + id / 4096 % 4
def dieNoOf (id : Nat) : Nat := id / 4096 / 4

/-- Positions of a superblock whose die FCH_CH_CFG.DIE_EN excludes from use: its rows skip them (DESIGN CHOICE, log
30). -/
def State.disabledDies (s : State) (id : Nat) : BitVec 16 :=
  (List.range 16).foldl (fun m p =>
    if (s.fld (Reg.FCH_CH_CFG_DIE_EN (chanOf id p))).testBit (dieNoOf id) then m else m ||| posBit p) 0

/-- Rows of a superblock by its mode (R353). -/
def Sb.rowsTotal (b : Sb) : Nat := if b.slc then 768 else 3072

/-- Data codewords of a superblock (R357). -/
def Sb.words (b : Sb) : Nat := b.rowWords * b.rowsTotal

/-- Rows that a program takes: a wordline of 4 in QLC mode (R360). -/
def Sb.unit (b : Sb) : Nat := if b.slc then 1 else 4

/-- The row of a stream index (R357). -/
def Sb.rowOf (b : Sb) (q : Nat) : Nat := q / max 1 b.rowWords

/-- Whether a codeword's page has been programmed: its row, or its position of the next row or wordline (R183). -/
def Sb.wordDone (b : Sb) (q : Nat) : Bool :=
  decide (b.rowOf q < b.rows) || (decide (b.rowOf q < b.rows + b.unit) && b.done.getLsbD (b.posOf q))

/-- Skein slots of a superblock (R357). -/
def Sb.slots (b : Sb) : Nat := b.words / 256

/-- Superblocks in a state. -/
def State.sbCount (s : State) (p : Sb → Bool) : Nat := (s.ftl.sbs.filter fun e => p e.2).length

/-- FREE superblocks: those not in the table are FREE (R387). -/
def State.freeSbs (s : State) : Nat := sbTotal - s.sbCount fun b => b.st ≠ .free

/-- The lowest ID with no entry in the table, by search over the entries. -/
def freshSb (t : Tbl Sb) : Nat → Nat → Option Nat
  | 0, _ => none
  | fuel + 1, i => if (tget t (sbIdOf i)).isNone then
      (if i < sbTotal then some (sbIdOf i) else none) else freshSb t fuel (i + 1)

/-- The FREE superblock of lowest WEAR (R410); entries not in the table have WEAR 0. Of several the lowest ID is taken, and any
die group serves any stream (DESIGN CHOICE, log 189). -/
def State.pickFree (s : State) : Option Nat :=
  let listed := s.ftl.sbs.filter fun e => e.2.st = .free
  let best := listed.foldl (fun m e => match m with
    | none => some e
    | some b => if e.2.wear < b.2.wear then some e else some b) (none : Option (Nat × Sb))
  match freshSb s.ftl.sbs (s.ftl.sbs.length + 1) 0, best with
  | some i, some b => if b.2.wear = 0 ∧ b.1 < i then some b.1 else some i
  | some i, none => some i
  | none, some b => some b.1
  | none, none => none

/-! ## Streams (R364, R378)

1 QLC-P; 2 QLC-R; 3 META; 4 and 5 the reclaim streams of P and R; 6 PAR. The SLC buffer has one write pointer for each of its
open superblocks, 0 and 17 to 31 (R381); a write of Class R goes to pointer `n` by the number `n + 64`. -/

/-- The stream of a number. -/
def streamKey (n : Nat) : Nat := n % 64

/-- Whether a stream is a write pointer of the SLC buffer. -/
def slcPointer (n : Nat) : Bool := decide (streamKey n = 0) || decide (16 ≤ streamKey n)

/-- Whether a stream writes SLC-mode superblocks. -/
def streamSlc (n : Nat) : Bool := slcPointer n || n = 3 || n = 6

/-- Whether a stream's superblocks use layout R (R356). -/
def streamLayoutR (n : Nat) : Bool := n = 2 || n = 5

/-- Whether a stream's next skein is Class P. -/
def streamClassP (n : Nat) : Bool := !(decide (64 ≤ n) || n = 2 || n = 5)

/-- Superblocks held by the PAR stream (R392). -/
def State.parSbs (s : State) : Nat := s.sbCount fun b => b.stream = 6 && b.st ≠ .free && b.st ≠ .retired

/-- UNVERIFIED superblocks. -/
def State.unverified (s : State) : Nat := s.sbCount fun b => b.st = .unverified

/-- WEAR that an erase adds (R387). -/
def eraseWear (slc : Bool) : Nat := if slc then 1 else 40

/-- RETIRE_PE: values outside 1,500 to 4,000 act as 2,250. -/
def State.retirePe (s : State) : Nat := s.fldIn Reg.FTL_WEAR_CFG_RETIRE_PE 1500 4000 2250

/-- Whether an erase in a mode brings WEAR to its end: the erase's own wear counts (R411; DESIGN CHOICE, log 190). -/
def State.wornAt (s : State) (b : Sb) (slc : Bool) : Bool := decide (40 * s.retirePe ≤ b.wear + eraseWear slc)

/-- MEMBER_RETIRED (R411). -/
def State.memberRetired (s : State) (id pos reason : Nat) : State := s.raise 370 (item4 id ++ item1 pos ++ item1 reason)

/-- A FREE superblock whose erase wears it out is retired as a whole (R411). -/
def State.retireWorn (s : State) (id : Nat) (slc : Bool) : State :=
  let vacant := (s.sb id).vacant ||| (s.sb id).retiring
  let s := s.onSb id fun b => { b with st := .retired, wear := b.wear + eraseWear slc, vacant := vacant }
  ((positions (~~~vacant)).foldl (fun s p => s.memberRetired id p 3) s).raise 371 (item4 id)

/-- Open a superblock for a stream: it is erased in the stream's mode, which raises WEAR (R355, R387, R410; DEDUCED, log
28). -/
def State.openSb (s : State) (stream id : Nat) : State :=
  let slc := streamSlc stream
  let unused := s.disabledDies id
  let s := s.onSb id fun b => { b with
    st := .opened, slc := slc, layoutR := streamLayoutR stream, stream := if slcPointer stream then 0 else stream
    folding := false, rows := 0, nextQ := 0, wear := b.wear + eraseWear slc, vacant := b.vacant ||| b.retiring
    retiring := 0, skipped := b.vacant ||| b.retiring ||| unused, lost := [], saved := [], refreshCnt := [], refreshDue := false
    seqNo := s.ftl.seq, done := 0, staged := [], media := [], parity := [], tags := [], summary := [], sumLocs := []
    seq := s.ftl.seq }
  (s.onFtl fun t => { t with seq := t.seq + 1 }).journalSb id

/-- Close an open superblock: CLOSED in layout P, UNVERIFIED in layout R (R387, R396); its summary is to be written
(R388). -/
def State.closeSb (s : State) (id : Nat) : State :=
  let s := s.onSb id fun b => { b with
    st := if b.layoutR then .unverified else .closed, closeTime := s.ftl.seconds, seq := s.ftl.seq }
  (s.onFtl fun t => { t with seq := t.seq + 1, sumQueue := t.sumQueue ++ [id] }).journalSb id

/-- Open a new superblock for a stream from those that a choice of FREE ones gives, and close the one it leaves; none when there
is none, or R395 forbids it. A superblock that the erase wears out is retired, and the next is chosen (R395, R410, R411). -/
def State.openNew (s : State) (stream : Nat) (old : Option Nat) (pick : State → Option Nat) : Nat → Option (Nat × State)
  | 0 => none
  | fuel + 1 =>
    if streamLayoutR stream && 256 ≤ s.parSbs then none
    else
      match pick s with
      | none => none
      | some id =>
        if s.wornAt (s.sb id) (streamSlc stream) then (s.retireWorn id (streamSlc stream)).openNew stream old pick fuel
        else
          let s := match old with
            | some o => if (s.sb o).st = SbState.opened then s.closeSb o else s
            | none => s
          some (id, s.openSb stream id)

/-- Superblocks that a choice may pass over. -/
def State.openFuel (s : State) : Nat := s.ftl.sbs.length + 1

/-- Add an entry to the summary of a superblock (R388). -/
def State.addSummary (s : State) (id : Nat) (e : SumEntry) : State :=
  s.onSbQuiet id fun b => { b with summary := b.summary ++ [e] }

/-- The first number of the next free run of 64 skeins (R364): never allocated, or all of it freed. Of the run from 0, which
R362 cuts short, 1 to 63 are taken once, as the first run (DESIGN CHOICE, log 191). -/
def State.nextRun (s : State) : Option Nat :=
  if s.ftl.nextSkein < 805306368 then some s.ftl.nextSkein
  else s.ftl.freed.find? fun k => k % 64 = 0 && (List.range 64).all fun i => s.ftl.freed.contains (k + i)

/-- Take the next run of skein numbers. -/
def State.takeRun (s : State) : Option (Nat × State) :=
  match s.nextRun with
  | none => none
  | some k =>
    some (k, s.onFtl fun t => { t with
      nextSkein := if t.nextSkein < 805306368 then (t.nextSkein / 64 + 1) * 64 else t.nextSkein,
      freed := if t.nextSkein < 805306368 then t.freed else t.freed.filter fun x => x / 64 ≠ k / 64 })

/-- A map piece has changed without a journal record (R385). -/
def State.markPiece (s : State) (p : Nat) : State :=
  s.onFtl fun t => { t with dirty := if t.dirty.contains p then t.dirty else t.dirty ++ [p] }

/-- The first piece of the stitch tables (R482; DEDUCED, log 170). -/
def stitchPiece : Nat := 1572864

/-- Superblocks that hold bytes of a skein, or have held them (R371). -/
def Skein.places (k : Skein) : List Nat := (if k.fine then k.stitches.map (·.2.2.1) else [k.sb]) ++ k.past

/-- Free a skein whose live units are gone: its number returns to the free runs when no stream has it open, and no read holds a
superblock that holds, or has held, its bytes (R368, R371). -/
def State.freeSkein (s : State) (skein : Nat) : State :=
  match tget s.ftl.skeins skein with
  | none => s
  | some k =>
    let open_ := s.ftl.streams.any fun e => e.2.skein = skein
    if k.liveUnits = 0 ∧ ¬ open_ ∧ (k.places.all fun b => decide ((tget s.ftl.holds b).getD 0 = 0)) then
      (s.onFtl fun t => { t with skeins := tdel t.skeins skein, freed := t.freed ++ [skein] }).journalMap 0x12 skein (leBytes 1 1)
    else s

/-- A stream's pointer moves to another skein or superblock: the skein that it leaves is free if nothing in it lives (R368). -/
def State.setStream (s : State) (key : Nat) (st : Stream) : State :=
  let old := tget s.ftl.streams key
  let s := s.onFtl fun t => { t with streams := tset t.streams key st }
  match old with
  | some o => if o.skein = st.skein then s else s.freeSkein o.skein
  | none => s

/-- SLC-mode superblocks that the buffer may hold: TARGET_SB, and beyond it while PAR is full (R380, R395). -/
def State.mayGrow (s : State) (held target : Nat) : Bool := decide (held < target) || decide (256 ≤ s.parSbs)

/-- U of R379: 64 bytes times the live units of every skein outside META. -/
def State.flashUse (s : State) : Nat :=
  64 * ((s.ftl.skeins.filter fun e => !e.2.isMeta).map fun e => e.2.liveUnits).foldl (· + ·) 0

/-- FILL_PERMILLE (R379). -/
def State.fillPermille (s : State) : Nat := min (1000 * s.flashUse / 640000000000000) 1000

/-- The SLC buffer's target in bytes, T of R379: 2,048 GB less 1,984 GB × F. -/
def State.slcTargetBytes (s : State) : Nat := 2048000000000 - 1984000000 * s.fillPermille

/-- TARGET_SB of R379. -/
def State.targetSb (s : State) : Nat := (s.slcTargetBytes + 754974719) / 754974720

/-- Whether a superblock belongs to the SLC buffer. -/
def Sb.inBuffer (b : Sb) : Bool := b.stream = 0 && b.slc && b.st ≠ .free && b.st ≠ .retired

/-- Superblocks now in the SLC buffer. -/
def State.slcSbs (s : State) : Nat := s.sbCount Sb.inBuffer

/-- Whether a stream may open a superblock: the SLC buffer up to TARGET_SB (R380). -/
def State.mayOpen (s : State) (stream : Nat) : Bool := !slcPointer stream || s.mayGrow s.slcSbs s.targetSb

/-- Map a fresh skein of a stream to the next slot of its open superblock, opening one when none has a free
slot (R364, R378, R380); none when no superblock can be opened, or R395 forbids it. -/
def State.mapSkein (s : State) (stream skein : Nat) : Option State :=
  let key := streamKey stream
  let cur := (tget s.ftl.streams key).bind (·.sb)
  let usable : Bool := match cur with
    | some id => decide ((s.sb id).st = SbState.opened) && decide (((s.sb id).nextQ + 255) / 256 < (s.sb id).slots)
    | none => false
  let place (s : State) (id : Nat) : State :=
    let slot := ((s.sb id).nextQ + 255) / 256
    let s := s.onSbQuiet id fun b => { b with nextQ := (slot + 1) * 256, summary := b.summary ++ [⟨1, 0, 0, skein, slot, 0⟩] }
    let s := s.onFtl fun t => { t with
      skeins := tset t.skeins skein ⟨false, streamClassP stream, 0, id, slot, [], stream = 3, 0, []⟩ }
    (s.journalSkein skein).setStream key ⟨skein, 0, some id⟩
  if usable then cur.map (place s)
  else if !s.mayOpen stream then none
  else (s.openNew stream cur State.pickFree s.openFuel).map fun (id, s) => place s id

/-- Add live units to a skein (R365). -/
def State.addLive (s : State) (skein units : Nat) : State :=
  (s.onFtl fun t => { t with skeins := tmod t.skeins skein fun k => { k with liveUnits := k.liveUnits + units } }).markPiece
    (skein / 512)

/-- Units of an object in its first skein: the rest lies in the next (R364). -/
def unitsInFirst (byte units : Nat) : Nat := min units ((1048576 - byte) / 64)

/-- Begin a new run of skeins for a stream. -/
def State.newRun (s : State) (stream : Nat) : Option State :=
  match s.takeRun with
  | none => none
  | some (k, s) => s.mapSkein stream k

/-- Whether a stream's open skein takes what goes to a number: a skein of the SLC buffer holds one class (R378). -/
def State.classFits (s : State) (stream : Nat) (st : Stream) : Bool :=
  !slcPointer stream || ((tget s.ftl.skeins st.skein).map (·.classP)).getD (streamClassP stream) = streamClassP stream

/-- A stream's pointer is ready for `units` units: in its skein, in a fresh skein of its run when the class changes, or in a new
run (R364, R378). -/
def State.readyStream (s : State) (stream units : Nat) : Option State :=
  match tget s.ftl.streams (streamKey stream) with
  | none => s.newRun stream
  | some st =>
    let left := ((st.skein / 64 + 1) * 64 - st.skein) * 1048576 - st.byte
    if s.classFits stream st then (if 64 * units ≤ left then some s else s.newRun stream)
    else if 64 * units ≤ ((st.skein / 64 + 1) * 64 - (st.skein + 1)) * 1048576 then s.mapSkein stream (st.skein + 1)
    else s.newRun stream

/-- Place an object of `units` 64-byte units at a stream's write pointer (R364): back to back, continuing in
the next skein of the run, never across the end of a run. None when no space can be opened. -/
def State.allocFlash (s : State) (stream units : Nat) : Option (Loc × State) :=
  let key := streamKey stream
  match s.readyStream stream units with
  | none => none
  | some s =>
    match tget s.ftl.streams key with
    | none => none
    | some st =>
      let fits := unitsInFirst st.byte units
      let loc : Loc := .flash st.skein st.byte units
      let s := s.addLive st.skein fits
      let at_ := st.byte + 64 * units
      if at_ < 1048576 then some (loc, s.setStream key { st with byte := at_ })
      else if fits = units then
        -- the object ends with the skein: the pointer moves to the next skein of the run, if one is left
        if (st.skein + 1) % 64 = 0 then some (loc, s.setStream key { st with byte := 1048576 })
        else (s.mapSkein stream (st.skein + 1)).map fun s => (loc, s)
      else
        match s.mapSkein stream (st.skein + 1) with
        | none => none
        | some s =>
          let s := s.addLive (st.skein + 1) (units - fits)
          some (loc, s.onFtl fun t => { t with
            streams := tmod t.streams key fun x => { x with byte := at_ - 1048576 } })

/-- One live object less in a stitch: its entry goes with the last (R369). -/
def dropRef (t : Tbl (Nat × Nat × Nat)) (stitch : Nat) : Tbl (Nat × Nat × Nat) :=
  match tget t stitch with
  | some (n, sb, q) => if n ≤ 1 then tdel t stitch else tset t stitch (n - 1, sb, q)
  | none => t

/-- The stitches that some bytes of a skein touch. -/
def stitchesOf (byte units : Nat) : List Nat :=
  (List.range ((byte + 64 * units + 4095) / 4096 - byte / 4096)).map fun i => byte / 4096 + i

/-- Subtract an object's live units from a skein, and free it at 0 (R368, R369). A stitch whose last live object goes is
cleared, which is journaled (R384). -/
def State.subLive (s : State) (skein byte units : Nat) : State :=
  match tget s.ftl.skeins skein with
  | none => s
  | some k =>
    let left := (stitchesOf byte units).foldl dropRef k.stitches
    let gone := (k.stitches.filter fun e => (tget left e.1).isNone).map fun e => (e.1, e.2.2.1)
    let s := s.onFtl fun t => { t with skeins := tset t.skeins skein { k with
      liveUnits := k.liveUnits - units, stitches := left, past := (k.past ++ gone.map (·.2)).eraseDups } }
    let s := (if k.fine then s.markPiece (stitchPiece + k.table / 2) else s).markPiece (skein / 512)
    (if gone.isEmpty then s else s.journalStitches skein (gone.map (·.1))).freeSkein skein

/-- Release what lies at a location: its Ledger lines, or its flash units (R333, R368). -/
def State.releaseLoc (s : State) (loc : Loc) : State :=
  match loc with
  | .ledger line => s.freeLines line
  | .flash skein byte units =>
    let first := unitsInFirst byte units
    let s := s.subLive skein byte first
    if first < units then s.subLive (skein + 1) 0 (units - first) else s

/-- 64-byte units, or Ledger lines, of a stored segment with its header (R274, R363). -/
def segUnits (payloadLen : Nat) : Nat := (32 + payloadLen + 63) / 64

/-- Release a stored segment. -/
def State.releaseSeg (s : State) (g : Seg) : State := s.releaseLoc g.loc

/-- Release several segments. -/
def State.releaseSegs (s : State) (gs : List Seg) : State := gs.foldl State.releaseSeg s

/-- The buffer's data in bytes: the skein slots filled. -/
def State.slcData (s : State) : Nat :=
  (s.ftl.sbs.map fun e => if e.2.inBuffer then e.2.nextQ * 4096 else 0).foldl (· + ·) 0

/-- Whether flash-path writes go direct to QLC (R380): the buffer's unwritten capacity is below DIRECT_PCT
per cent of T. While PAR is full, they go to the SLC buffer (R395). -/
def State.directMode (s : State) : Bool :=
  let pct := min (s.fld Reg.FTL_SLC_CFG_DIRECT_PCT) 50
  decide (256 > s.parSbs) && decide ((s.slcTargetBytes - s.slcData) * 100 < pct * s.slcTargetBytes)

/-- The write pointers that OPEN_SB gives the SLC buffer (R381). -/
def State.slcPointers (s : State) : List Nat :=
  0 :: (List.range (s.fldIn Reg.FTL_SLC_CFG_OPEN_SB 1 16 10 - 1)).map (17 + ·)

/-- The open superblock of a write pointer, and the position of its next codeword; none where it has no open one. -/
def State.pointerAt (s : State) (key : Nat) : Option (Nat × Nat) :=
  (tget s.ftl.streams key).bind fun st => (tget s.ftl.skeins st.skein).bind fun k =>
    if (s.sb k.sb).st = SbState.opened then some (k.sb, (s.sb k.sb).posOf (256 * k.slot + st.byte / 4096)) else none

/-- Whether a die of a group still has to program pages that have been placed (R381, R383). -/
def State.dieBusy (s : State) (group pos : Nat) : Bool :=
  s.ftl.sbs.any fun e => decide (e.1 / 4096 = group) && e.2.staged.any fun w => decide (e.2.posOf w.1 = pos) && !e.2.wordDone w.1

/-- Of some write pointers the one whose open superblock has the lowest ID. -/
def lowestSb : List (Nat × Nat) → Option Nat
  | [] => none
  | e :: rest => some (rest.foldl (fun m x => if x.2 < m.2 then x else m) e).1

/-- The write pointer of the SLC buffer for a write (R381): of those whose die is idle the one of the lowest superblock ID; else
one with no superblock yet, as far as the buffer may grow (R380); else the one whose die finishes first, a free value. -/
def State.slcChoice (s : State) : Nat × State :=
  let at_ := s.slcPointers.filterMap fun n => (s.pointerAt n).map fun p => (n, p)
  match lowestSb ((at_.filter fun e => !s.dieBusy (e.2.1 / 4096) e.2.2).map fun e => (e.1, e.2.1)) with
  | some n => (n, s)
  | none =>
    match s.slcPointers.find? fun n => (s.pointerAt n).isNone with
    | some n => if s.mayOpen n || at_.isEmpty then (n, s) else
        let (x, s) := s.drawNat
        (((at_.map (·.1))[x % at_.length]?).getD n, s)
    | none =>
      let (x, s) := s.drawNat
      (((at_.map (·.1))[x % max 1 at_.length]?).getD 0, s)

/-- The QLC stream of a class (R378). -/
def qlcStream (parityP : Bool) : Nat := if parityP then 1 else 2

/-- The stream that a flash-path write of a class takes (R378, R380, R381). -/
def State.hostStream (s : State) (parityP : Bool) : Nat × State :=
  if s.directMode then (qlcStream parityP, s)
  else
    let (n, s) := s.slcChoice
    (if parityP then n else n + 64, s)

/-- Place an object of a flash-path write of a class; where the SLC buffer can take no more it goes direct (R380; DESIGN
CHOICE, log 192). -/
def State.allocHost (s : State) (parityP : Bool) (units : Nat) : Option (Loc × State) :=
  let (stream, s) := s.hostStream parityP
  match s.allocFlash stream units with
  | some x => some x
  | none => if slcPointer stream then s.allocFlash (qlcStream parityP) units else none

/-- The superblock and stream index of the codeword that holds a stitch of a skein (R367). -/
def Skein.wordOf (k : Skein) (stitch : Nat) : Option (Nat × Nat) :=
  if k.fine then (tget k.stitches stitch).map fun e => (e.2.1, e.2.2) else some (k.sb, 256 * k.slot + stitch)

/-- The codewords of some bytes of a skein; none stands for a stitch the skein does not hold. -/
def State.skeinWords (s : State) (skein byte len : Nat) : List (Option (Nat × Nat)) :=
  let first := byte / 4096
  (List.range ((byte + len + 4095) / 4096 - first)).map fun i =>
    (tget s.ftl.skeins skein).bind fun k => k.wordOf (first + i)

/-- The codewords that hold a flash location (R364, R367). -/
def State.locWords (s : State) (loc : Loc) : List (Option (Nat × Nat)) :=
  match loc with
  | .ledger _ => []
  | .flash skein byte units =>
    let first := unitsInFirst byte units
    s.skeinWords skein byte (64 * first)
      ++ (if first < units then s.skeinWords (skein + 1) 0 (64 * (units - first)) else [])

/-- The superblocks that hold a location, each once. -/
def State.sbsOf (s : State) (loc : Loc) : List Nat := ((s.locWords loc).filterMap fun w => w.map (·.1)).eraseDups

/-- The row of a codeword in its superblock (R357). -/
def State.rowOf (s : State) (sb q : Nat) : Nat := (s.sb sb).rowOf q

/-- Whether a location's pages have all been programmed (R183). -/
def State.programmed (s : State) (loc : Loc) : Bool :=
  (s.locWords loc).all fun w => match w with
    | some (sb, q) => (s.sb sb).wordDone q
    | none => false

/-! ## What the codewords hold (R353, R360, R389, R393) -/

/-- The staging buffers take part of a codeword: with the true check values, and as it is written (R293, R393). -/
def State.stageWord (s : State) (w : Nat × Nat) (at_ : Nat) (t o : Bytes) : State :=
  s.onSbQuiet w.1 fun b =>
    let old := (tget b.staged w.2).getD ([], [])
    { b with staged := tset b.staged w.2 (overlay old.1 at_ t, overlay old.2 at_ o) }

/-- Lay bytes into the codewords of a location: with the true check values, and as they are written. -/
def State.putBytes (s : State) (loc : Loc) (t o : Bytes) : State :=
  match loc with
  | .ledger _ => s
  | .flash _ byte _ =>
    ((s.locWords loc).zipIdx).foldl (fun s e => match e.1 with
      | some w =>
        let at_ := if e.2 = 0 then byte % 4096 else 0
        let off := 4096 * e.2 + at_ - byte % 4096
        s.stageWord w at_ (slice t off (4096 - at_)) (slice o off (4096 - at_))
      | none => s) s

/-- Lay an object of a kind of R388 into the codewords of its location, and enter it in the summary of the superblock in
which it begins. -/
def State.putObject (s : State) (loc : Loc) (kind : Nat) (fold : W64) (t o : Bytes) : State :=
  match loc, s.locWords loc with
  | .flash skein byte units, some (sb, _) :: _ => (s.putBytes loc t o).addSummary sb ⟨kind, 0, units, skein, byte, fold⟩
  | _, _ => s.putBytes loc t o

/-- XOR of codewords, of which an empty one is all zeros (R389). -/
def xorWords (a b : Bytes) : Bytes := if a.isEmpty then b else if b.isEmpty then a else xorBytes a b

/-- A codeword: 4,096 data bytes and their LDPC parity (R353). A parity codeword comes whole (R389). -/
def codeword (d : Bytes) : Bytes :=
  if 4096 < d.length then d else padTo 4096 d ++ padTo 512 (Config.ldpcParity (padTo 4096 d))

/-- A codeword of a superblock as it is, or will be, on its die; empty for a pad (R389). -/
def Sb.word (b : Sb) (q : Nat) : Bytes :=
  match tget b.media q, tget b.staged q with
  | some w, _ => w
  | none, some d => codeword d.2
  | none, none => []

/-- Whether a codeword holds data: a pad is never rebuilt (R381, R389). -/
def Sb.holds (b : Sb) (q : Nat) : Bool := (tget b.staged q).isSome || (tget b.media q).isSome

/-- A codeword as it enters its row's parity: with the true check values (R293, R389). -/
def Sb.trueWord (b : Sb) (q : Nat) : Bytes :=
  match tget b.staged q with
  | some d => codeword d.1
  | none => b.word q

/-- The stream indices of the k-th codewords of a row's data positions that a mask names (R357, R389, R394). -/
def Sb.stripe (b : Sb) (row k : Nat) (mask : BitVec 16) : List Nat :=
  ((b.dataPositions row).zipIdx.filter fun e => mask.getLsbD e.1).map fun e => row * b.rowWords + 16 * e.2 + k

/-- The parity codewords of a row over the positions of a mask (R389, R394). -/
def Sb.rowParity (b : Sb) (row : Nat) (mask : BitVec 16) : List Bytes :=
  (List.range 16).map fun k => ((b.stripe row k mask).map b.trueWord).foldl xorWords []

/-- The key of a row in the PAR location table. -/
def parKey (id row : Nat) : Nat := id * 4096 + row

/-- A codeword from parity codewords of its row over the positions of a mask: XOR with the same codeword of every other
position that they cover (R389, R394, R399). -/
def Sb.xorRest (b : Sb) (q : Nat) (mask : BitVec 16) (ws : List Bytes) : Bytes :=
  let k := q % max 1 b.rowWords % 16
  (((b.stripe (b.rowOf q) k mask).filter (· ≠ q)).map b.word).foldl xorWords (ws.getD k [])

/-- A codeword of a superblock of layout P as its page holds it, or from the row's parity when its member is vacant. -/
def Sb.pageWord (b : Sb) (q : Nat) : Bytes :=
  match b.vacant.getLsbD (b.posOf q), tget b.parity (b.rowOf q) with
  | true, some (mask, ws) => b.xorRest q mask ws
  | _, _ => b.word q

/-- The parity held for a row, with the positions it covers: in the superblock in layout P, in the PAR stream until its
release in layout R (R391, R392, R394, R397). -/
def State.parityOf (s : State) (id row : Nat) : Option (BitVec 16 × List Bytes) :=
  if (s.sb id).layoutR then
    (tget s.ftl.par (parKey id row)).map fun p => (p.mask, (List.range 16).map fun k => (s.sb p.sb).pageWord (p.q + k))
  else tget (s.sb id).parity row

/-- Whether parity covers a codeword: what has been released serves no rebuild that begins later (R391, R394, R397, R399). -/
def State.hasParity (s : State) (id q : Nat) : Bool :=
  let row := s.rowOf id q
  let released := (s.sb id).layoutR && ((tget s.ftl.par (parKey id row)).map (·.released)).getD false
  !released && ((s.parityOf id row).map fun p => p.1.getLsbD ((s.sb id).posOf q)).getD false

/-- Whether another codeword of a codeword's stripe cannot be read either: a rebuild from parity then fails (R400). The staging
buffers serve what they hold (R393). -/
def State.stripeBroken (s : State) (id q : Nat) : Bool :=
  let b := s.sb id
  let row := b.rowOf q
  match s.parityOf id row with
  | none => true
  | some (mask, _) =>
    ((b.stripe row (q % max 1 b.rowWords % 16) mask).any fun w => decide (w ≠ q) && (tget b.staged w).isNone
        && (tget b.saved w).isNone && (b.lost.contains w || b.vacant.getLsbD (b.posOf w)))
      || (!b.layoutR && (positions (b.vacant &&& ~~~b.skipped)).any fun p => !(b.dataPositions row).contains p)

/-- A codeword rebuilt from its row's parity (R389, R399). -/
def State.rebuiltWord (s : State) (id q : Nat) : Bytes :=
  match s.parityOf id (s.rowOf id q) with
  | none => []
  | some (mask, ws) => (s.sb id).xorRest q mask ws

/-- Whether a skein's entry names a codeword. -/
def Skein.names (k : Skein) (sb q : Nat) : Bool :=
  if k.fine then k.stitches.any fun e => decide (e.2.2.1 = sb) && decide (e.2.2.2 = q)
  else decide (k.sb = sb) && decide (q / 256 = k.slot)

/-- Where a copy puts a codeword of its source. -/
def State.copyTarget (s : State) (c : SkeinCopy) (sb q : Nat) : Option (Nat × Nat) :=
  if c.src ≠ sb then none
  else (tget s.ftl.skeins c.skein).bind fun k =>
    match c.whole with
    | some (tgt, slot) => if k.names sb q then some (tgt, 256 * slot + q % 256) else none
    | none => (c.stitches.find? fun e => k.wordOf e.1 = some (sb, q)).map (·.2)

/-- Whether the staging buffers hold a codeword: its row's parity is not programmed, it has been rebuilt, or it has been
read for a copy (R393, R401, R406). -/
def State.wordHeld (s : State) (sb q : Nat) : Bool :=
  (tget (s.sb sb).staged q).isSome || (tget (s.sb sb).saved q).isSome || s.ftl.copies.any fun c =>
    match s.copyTarget c sb q with
    | some (t, r) => (tget (s.sb t).staged r).isSome && !(s.sb t).lost.contains r
    | none => false

/-- The data of a codeword for a copy: rebuilt, from the staging buffers, from its page, or from parity when its member is
vacant (R393, R399, R401, R406). -/
def State.wordData (s : State) (id q : Nat) : Bytes :=
  let b := s.sb id
  match tget b.saved q, tget b.staged q with
  | some d, _ => d
  | none, some d => d.2
  | none, none => (if b.vacant.getLsbD (b.posOf q) then s.rebuiltWord id q else b.word q).take 4096

/-- Whether a codeword's member is vacant, and no staging buffer holds it (R399). -/
def State.wordVacant (s : State) (sb q : Nat) : Bool :=
  (s.sb sb).vacant.getLsbD ((s.sb sb).posOf q) && !s.wordHeld sb q

/-- Whether a location has a codeword on a vacant member. -/
def State.onVacant (s : State) (loc : Loc) : Bool :=
  (s.locWords loc).any fun w => match w with
    | some (sb, q) => s.wordVacant sb q
    | none => false

/-- Whether a location holds a codeword that is lost for good: uncorrectable, with no rebuild under way. -/
def State.lostForGood (s : State) (loc : Loc) : Bool :=
  (s.locWords loc).any fun w => match w with
    | some (sb, q) => (s.sb sb).lost.contains q && !s.ftl.rebuilds.contains (sb, q)
    | none => false

/-- Whether a location holds a codeword whose rebuild is under way (R401). -/
def State.rebuilding (s : State) (loc : Loc) : Bool :=
  (s.locWords loc).any fun w => match w with
    | some c => s.ftl.rebuilds.contains c
    | none => false

/-- Whether a codeword can be had: the staging buffers hold it, or parity covers it (R399). -/
def State.wordCovered (s : State) (sb q : Nat) : Bool := (tget (s.sb sb).staged q).isSome || s.hasParity sb q

/-- Whether the staging buffers or parity cover each codeword of a location that lies on a vacant member (R399). -/
def State.vacantCovered (s : State) (loc : Loc) : Bool :=
  (s.locWords loc).all fun w => match w with
    | some (sb, q) => !s.wordVacant sb q || s.wordCovered sb q
    | none => true

/-- Whether the staging buffers or parity cover every codeword of a location. -/
def State.locParity (s : State) (loc : Loc) : Bool :=
  (s.locWords loc).all fun w => match w with
    | some (sb, q) => s.wordCovered sb q
    | none => false

/-- The stored form of a location as its codewords give it: rebuilt, from the staging buffers, or from parity (R287,
R393, R399). -/
def State.rebuiltBytes (s : State) (loc : Loc) : Bytes :=
  match loc with
  | .ledger _ => []
  | .flash _ byte units =>
    slice ((s.locWords loc).flatMap fun w => match w with
      | some (sb, q) =>
        padTo 4096 (match tget (s.sb sb).staged q, tget (s.sb sb).saved q with
          | some d, _ => d.1
          | none, some d => d
          | none, none => s.rebuiltWord sb q)
      | none => zeros 4096) (byte % 4096) (64 * units)

/-! ## What the dies do next (R360, R382, R383, R406) -/

/-- The first codeword of a superblock that has received nothing: where a stream's pointer stands in it, or its end
of assigned slots (R357). -/
def State.filled (s : State) (id : Nat) : Nat :=
  match s.ftl.streams.find? fun e => (tget s.ftl.skeins e.2.skein).any fun k => decide (k.sb = id) && !k.fine with
  | some e => ((tget s.ftl.skeins e.2.skein).map fun k => min (s.sb id).nextQ (256 * k.slot + (e.2.byte + 4095) / 4096)).getD
      (s.sb id).nextQ
  | none => (s.sb id).nextQ

/-- Whether a superblock still takes programs. -/
def Sb.programs (b : Sb) : Bool :=
  decide (b.st = SbState.opened) || decide (b.st = .closed) || decide (b.st = .unverified)

/-- Whether the next program of a superblock begins at a row and has data: a whole wordline in QLC mode (R360), or what a
closed superblock still holds. -/
def State.mayProgram (s : State) (sb row : Nat) : Bool :=
  let b := s.sb sb
  b.programs && decide (row / b.unit * b.unit = b.rows) && decide (b.rows < b.rowsTotal)
    && (if b.slc || decide (b.st ≠ SbState.opened) then decide (b.rows * b.rowWords < s.filled sb)
        else decide ((b.rows + 4) * b.rowWords ≤ s.filled sb))

/-- Whether a skein's entry names a superblock. -/
def Skein.onSb (k : Skein) (id : Nat) : Bool :=
  if k.fine then k.stitches.any fun e => decide (e.2.2.1 = id) else decide (k.sb = id)

/-- Whether a superblock holds data no more: no skein names it, no read holds it, no parity row of PAR lies in it. -/
def State.emptied (s : State) (id : Nat) : Bool :=
  !(s.ftl.skeins.any fun e => e.2.onSb id) && decide ((tget s.ftl.holds id).getD 0 = 0)
    && !(s.ftl.par.any fun e => decide (e.2.sb = id))

/-- Whether a superblock's erase has taken place: it has been emptied, and no rebuild reads it (R397, R402, R406). -/
def State.mayErase (s : State) (sb : Nat) : Bool :=
  (decide ((s.sb sb).st = .reclaiming) || s.ftl.evacuate.contains sb) && s.emptied sb
    && !(s.ftl.copies.any fun c => decide (c.src = sb)) && !(s.ftl.rebuilds.any fun r => decide (r.1 = sb))

/-- A die, as its group and its position there (R354): its place in the table of die operations, and its channel. -/
def dieChan (die : Nat × Nat) : Nat := 4 * die.2 + die.1 % 4
def dieKey (die : Nat × Nat) : Nat := dieChan die * 24 + die.1 / 4

/-- The dies whose pages a read of a location takes: those of the codewords that no staging buffer holds and no vacancy hides. -/
def State.readDies (s : State) (loc : Loc) : List (Nat × Nat) :=
  ((s.locWords loc).filterMap fun w => w.bind fun w =>
    if s.wordHeld w.1 w.2 || s.wordVacant w.1 w.2 then none else some (w.1 / 4096, (s.sb w.1).posOf w.2)).eraseDups

/-- Whether a superblock's next program takes staged data to a position. -/
def State.programReady (s : State) (id pos : Nat) : Bool :=
  let b := s.sb id
  s.mayProgram id b.rows && !b.done.getLsbD pos
    && b.staged.any fun w => decide (b.posOf w.1 = pos) && decide (b.rowOf w.1 < b.rows + b.unit) && !b.wordDone w.1

/-- The requester of R25 that a program of a superblock at a position comes from: 2 reclaim and refresh, 3 the rewrite of a
repair, 1 any other. -/
def State.programTag (s : State) (id pos : Nat) : Nat :=
  if (s.sb id).stream = 4 ∨ (s.sb id).stream = 5 then 2
  else if s.val.repairs.any fun e => (e.2.fixed.map fun g => (s.locWords g.loc).any fun w => match w with
    | some (b, q) => decide (b = id) && decide ((s.sb id).posOf q = pos) && !(s.sb id).wordDone q
    | none => false).getD false then 3
  else 1

/-- The programs and erases that are ready at a die, by requester. -/
def State.workAt (s : State) (die : Nat × Nat) : List Nat :=
  s.ftl.sbs.flatMap fun e =>
    if e.1 / 4096 = die.1 then
      (if s.programReady e.1 die.2 then [s.programTag e.1 die.2] else []) ++ (if s.mayErase e.1 then [2] else [])
    else []

/-- Spare members (R413): live members of non-retired superblocks less 3,456,000, 0 when negative. -/
def State.spareMembers (s : State) : Nat :=
  let lost := (s.ftl.sbs.map fun e => if e.2.st = .retired then 16 else e.2.vacancies).foldl (· + ·) 0
  16 * sbTotal - lost - 3456000

end Sys2Proof.Machine
end

