-- ==== Sys2Proof/Machine/Cipher.lean ====
section
/-! DEFINITION. What CIP does for everyone (chapter 9): key slots and their generations, derived keys, the
nonce and its counter ceiling, seals and opens, references, and the alarm. -/

namespace Sys2Proof.Machine

/-- A slot nothing has used (R299). -/
def KeySlot.fresh : KeySlot := ⟨.empty, zeros 32, 0, 0, 0, 0, 0, [], false, [], []⟩

/-- A key slot. -/
def State.slot (s : State) (n : Nat) : KeySlot := (tget s.cip.slots n).getD KeySlot.fresh

/-- Change a key slot. -/
def State.onSlot (s : State) (n : Nat) (f : KeySlot → KeySlot) : State :=
  s.onCip fun c => { c with slots := tset c.slots n (f (s.slot n)) }

/-- The highest counter value, which is never drawn (R303). -/
def counterEnd : Nat := 2 ^ 64 - 1

/-- Bytes 0 to 55 of a slot record (R305). -/
def SlotRec.head (r : SlotRec) : Bytes :=
  padTo 40 r.wrapped ++ leBytes 4 r.epoch ++ leBytes 2 r.serial ++ leBytes 1 (if r.loaded then 1 else 0) ++ zeros 1
    ++ leBytes 8 r.ceiling

/-- The 64 bytes of a slot record, with REC_CRC (R305). -/
def SlotRec.bytes (r : SlotRec) : Bytes := r.head ++ leBytes 4 (crc32c r.head).toNat ++ zeros 4

/-- What the bytes of a slot record say. -/
def parseSlotRec (b : Bytes) : SlotRec :=
  ⟨decide (fieldAt b 46 1 = 1), padTo 40 (b.take 40), fieldAt b 40 4, fieldAt b 44 2, fieldAt b 48 8⟩

/-- Whether a slot record passes REC_CRC (R305, R306); a record that cannot be read has no bytes. -/
def slotRecHolds (b : Bytes) : Bool := !b.isEmpty && decide (fieldAt b 56 4 = (crc32c (b.take 56)).toNat)

/-- A slot's record (R305). -/
def State.slotRec (s : State) (n : Nat) : SlotRec := parseSlotRec ((tget s.ldg.kept.slotRecs n).getD [])

/-- ROOT as a record gives it, unwrapped under DEVICE_KEK in slot 0x400 (R298, R305); none when it fails to unwrap. -/
def State.recRoot (s : State) (r : SlotRec) : Option Bytes := kwUnwrap (s.slot 0x400).root r.wrapped

/-- Write a slot record: a security line, which draws what tokens there are (R305, R344). -/
def State.writeSlotRec (s : State) (n : Nat) (r : SlotRec) : State :=
  (s.onKept fun k => { k with slotRecs := tset k.slotRecs n r.bytes }).keepSecure 6 n

/-- A ceiling of 2^20 above a counter (R304, R317). -/
def ceilingOf (counter : Nat) : Nat := min (counter + 2 ^ 20) counterEnd

/-- Write the record that describes a slot now, with a new ceiling (R317). -/
def State.recordSlot (s : State) (n : Nat) : State :=
  let k := s.slot n
  s.writeSlotRec n ⟨decide (k.st = .loaded), kwWrap (s.slot 0x400).root (padTo 32 k.root), k.epoch, k.serial,
    ceilingOf k.counter⟩

/-- The derived key K(s, e) of R300. -/
def derivedKey (root : Bytes) (slot epoch : Nat) : Bytes :=
  kmac256 root (ascii "Pennu seal") (leBytes 2 slot ++ leBytes 4 epoch) 32

/-- Use a derived key: it becomes the most recently used of 4,096 cache entries (R300). -/
def State.useKey (s : State) (slot serial epoch : Nat) : State :=
  s.onCip fun c => { c with
    cache := ((slot, serial, epoch) :: c.cache.filter (· ≠ (slot, serial, epoch))).take 4096 }

/-- The IV of R301: EPOCH, then COUNTER, big-endian. -/
def sealIv (epoch counter : Nat) : Bytes := (leBytes 4 epoch).reverse ++ (leBytes 8 counter).reverse

/-- The AAD of R307. -/
def segAad (variant owner i : Nat) (kh : W64) (logicalLen : Nat) (compressed : Bool) : Bytes :=
  leBytes 1 1 ++ leBytes 1 variant ++ leBytes 2 owner ++ leBytes 4 i ++ leBytes 8 kh.toNat
    ++ leBytes 2 (logicalLen - 1) ++ leBytes 1 ((if compressed then 1 else 0) + 2) ++ zeros 13

/-- The 16 bytes of a seal word (R309). -/
def SealWord.bytes (w : SealWord) : Bytes :=
  leBytes 4 w.epoch ++ leBytes 2 w.serial ++ leBytes 2 w.slot ++ leBytes 8 w.counter

/-- A seal word from its bytes. -/
def parseSealWord (b : Bytes) : SealWord :=
  ⟨fieldAt b 0 4, fieldAt b 4 2, fieldAt b 6 2 % 2048, fieldAt b 8 8⟩

/-! ## Generations (R318, R319) -/

/-- ROOT, serial, epoch and counter of a generation of a slot, current or retired; none when it is gone. -/
def State.generation (s : State) (slot gen : Nat) : Option RetiredGen :=
  let k := s.slot slot
  if k.st = .loaded ∧ k.gen = gen then some ⟨k.gen, k.root, k.serial, k.epoch, k.counter, k.refs⟩
  else k.retired.find? fun r => r.gen = gen

/-- Whether a generation is the slot's current one. -/
def State.isCurrent (s : State) (slot gen : Nat) : Bool :=
  decide ((s.slot slot).st = .loaded) && decide ((s.slot slot).gen = gen)

/-- Change the references of a generation. -/
def State.modRefs (s : State) (slot gen : Nat) (f : Nat → Nat) : State :=
  if s.isCurrent slot gen then s.onSlot slot fun k => { k with refs := f k.refs }
  else s.onSlot slot fun k => { k with
    retired := k.retired.map fun r => if r.gen = gen then { r with refs := f r.refs } else r }

/-- A command takes a reference to the slot and GEN that hold when it issues its first cipher job (R318); before
RESTORE_DONE it waits to issue (R306). A slot that is not LOADED then stays EMPTY for it. -/
def State.issueRef (s : State) (cmd slot : Nat) : State :=
  if ((tget s.sch.cmds cmd).bind (·.slotRef)).isSome || !(s.cip.restoreDone || s.cip.alarm) then s
  else
    let gen := (s.slot slot).gen
    (if (s.slot slot).st = .loaded then s.modRefs slot gen (· + 1) else s).onSch fun h => { h with
      cmds := tmod h.cmds cmd fun c => { c with slotRef := some (slot, gen) } }

/-- The generation under which a command's job on a slot runs (R318): the referenced one; none when the slot is EMPTY for
the command. A job on another slot than the referenced one (a read-merge that changes the owner) uses that slot's current
generation. -/
def State.takeRef (s : State) (cmd slot : Nat) : Option (Nat × State) :=
  let s := s.issueRef cmd slot
  match (tget s.sch.cmds cmd).bind (·.slotRef) with
  | some (sl, gen) =>
    if sl = slot then (if (s.generation slot gen).isSome then some (gen, s) else none)
    else if (s.slot slot).st = .loaded then some ((s.slot slot).gen, s) else none
  | none => none

/-- The derived keys of a generation leave the cache: those of its serial up to its epoch (R319). -/
def State.dropKeys (s : State) (slot serial epoch : Nat) : State :=
  s.onCip fun c => { c with
    cache := c.cache.filter fun e => !(decide (e.1 = slot) && decide (e.2.1 = serial) && decide (e.2.2 ≤ epoch)) }

/-- The current generation's cached keys go with it when no reference retires it (R319, R320). -/
def State.dropOldKeys (s : State) (slot : Nat) : State :=
  let k := s.slot slot
  if k.st = .loaded ∧ k.refs = 0 then s.dropKeys slot k.serial k.epoch else s

/-- A command drops its reference when its last job has ended (R318). -/
def State.dropRef (s : State) (cmd : Nat) : State :=
  match (tget s.sch.cmds cmd).bind (·.slotRef) with
  | none => s
  | some (slot, gen) =>
    (s.modRefs slot gen (· - 1)).onSch fun h => { h with
      cmds := tmod h.cmds cmd fun c => { c with slotRef := none } }

/-! ## Counters (R302 to R304) -/

/-- Draw a counter value of a generation; none at 2^64 - 1. A current generation that comes within 2^19 of
its ceiling writes a new one first; a retired generation observes no ceiling (R319). -/
def State.drawCounter (s : State) (slot gen : Nat) : Option (Nat × State) :=
  match s.generation slot gen with
  | none => none
  | some g =>
    if counterEnd ≤ g.counter then none
    else if s.isCurrent slot gen then
      let s := (s.onSlot slot fun k => { k with counter := k.counter + 1 }).swatchWrite 4 slot
      let r := s.slotRec slot
      let c := ceilingOf (g.counter + 1)
      if r.ceiling ≤ g.counter + 1 + 2 ^ 19 ∧ r.ceiling < c then
        some (g.counter, s.writeSlotRec slot { r with ceiling := c })
      else some (g.counter, s)
    else some (g.counter, s.onSlot slot fun k => { k with
      retired := k.retired.map fun r => if r.gen = gen then { r with counter := r.counter + 1 } else r })

/-- NONCE_EXHAUSTED (R303). -/
def State.nonceExhausted (s : State) (slot epoch : Nat) : State :=
  (s.raise 419 (item2 slot ++ item4 epoch)).bump Reg.CIP_LANE_STAT_NONCE_REFUSALS

/-- Seal bytes under a generation: the seal word, the ciphertext and the tag. None when the seal is refused
(R303). -/
def State.sealBytes (s : State) (slot gen : Nat) (aad data : Bytes) : Option ((SealWord × Bytes × Bytes) × State) :=
  match s.generation slot gen with
  | none => none
  | some g =>
    match s.drawCounter slot gen with
    | none => none
    | some (ctr, s) =>
      let s := s.useKey slot g.serial g.epoch
      let (c, tag) := gcmSeal (derivedKey g.root slot g.epoch) (sealIv g.epoch ctr) aad data
      some ((⟨g.epoch, g.serial, slot, ctr⟩, padTo data.length c, padTo 16 tag), s)

/-- The result of an open (R311, R312). -/
inductive Opened where
  | plain (b : Bytes)
  | keyErased
  | tagFailed
deriving DecidableEq, Repr

/-- Open under a generation by a seal word. -/
def State.openBytes (s : State) (gen : Nat) (w : SealWord) (aad ct tag : Bytes) : Opened × State :=
  match s.generation w.slot gen with
  | none => (.keyErased, s)
  | some g =>
    if g.serial ≠ w.serial then (.keyErased, s)
    else
      let s := s.useKey w.slot g.serial w.epoch
      match gcmOpen (derivedKey g.root w.slot w.epoch) (sealIv w.epoch w.counter) aad ct tag with
      | some p => (.plain (padTo ct.length p), s)
      | none => (.tagFailed, s)

/-- Restore a slot from its record (R323): COUNTER resumes at the ceiling, and a new ceiling is written. A slot that is
ERASING stays so (R320). -/
def State.restoreSlot (s : State) (n : Nat) : State :=
  let r := s.slotRec n
  let root := s.recRoot r
  let s := s.onSlot n fun k => { k with
    st := if k.st = .erasing then .erasing else if r.loaded && root.isSome then .loaded else .empty
    root := if k.st = .erasing then zeros 32 else padTo 32 (root.getD [])
    epoch := r.epoch, serial := r.serial, counter := r.ceiling }
  let s := s.swatchWrite 4 n
  s.writeSlotRec n { r with ceiling := ceilingOf r.ceiling }

/-- Whether SEC loads a slot: DEVICE_KEK, and the slots of security state and recorder sealing (R298). -/
def isSecSlot (n : Nat) : Bool := n = 0x400 || (0x402 ≤ n && n ≤ 0x40F)

/-- A slot with an uncorrectable error comes back (R323): from its record, or, of a slot that SEC loads, from SEC, which
loads the same key again (DESIGN CHOICE, log 174). -/
def State.recoverSlot (s : State) (n : Nat) : State :=
  if isSecSlot n then s.raise 421 (item2 n) else (s.restoreSlot n).raise 421 (item2 n)

/-- A slot is read for a job or a directive: check bits that a swatch inverted are corrected, or the slot is
restored from its record (R323, R540). -/
def State.readSlot (s : State) (n : Nat) : State :=
  let (marks, s) := s.storageRead 4 (· = n)
  marks.foldl (fun s m => if m.2 = 1 then s.raise 420 (item2 n) else s.recoverSlot n) s

/-! ## Lanes (R295 to R297) -/

/-- The lanes that are online, run no job and are not kept for a buffer directive, ascending. -/
def State.freeLanes (s : State) : List Nat :=
  (List.range 16).filter fun l => s.cip.lanes.getLsbD l && (tget s.cip.running l).isNone && decide (s.cip.bufLane ≠ some l)

/-- A grant of a lane: outside EXPRESS the pointer moves past the requester (R24, R297). -/
def State.grantCip (s : State) (express : Bool) (requester : Nat) : State :=
  if express then s else s.onCip fun c => { c with rr := (requester + 1) % 4 }

/-- Two cores disagree: the output is discarded, and a lane with 3 mismatches within 1 s goes offline (R296). -/
def State.laneMismatch (s : State) (lane kind : Nat) : State :=
  let now := s.flt.time
  let seen := (((tget s.cip.mismatches lane).getD []).filter fun t => decide (now < t + 1000000000)) ++ [now]
  let s := (s.raise 416 (item1 lane ++ item1 kind)).bump Reg.CIP_LANE_STAT_LANE_MISMATCHES
  let s := s.onCip fun c => { c with mismatches := tset c.mismatches lane seen }
  if 3 ≤ seen.length then
    (s.onCip fun c => { c with lanes := c.lanes &&& ~~~((1 : BitVec 16) <<< lane) }).raise 417 (item1 lane)
  else s

/-! ## Slot changes (R316 to R320) -/

/-- Retire the current generation when references to it remain (R319, R320). -/
def KeySlot.retire (k : KeySlot) : KeySlot :=
  if k.st = .loaded ∧ 0 < k.refs then
    { k with retired := k.retired ++ [⟨k.gen, k.root, k.serial, k.epoch, k.counter, k.refs⟩], refs := 0 }
  else { k with refs := 0 }

/-- A KEY_SERIAL drawn uniformly from 0x0001 to 0xFFFE (R306): 16-bit draws until one lies there; the fuel is no bound that
a drive meets. -/
def State.drawSerial (s : State) : Nat → Nat × State
  | 0 => (1, s)
  | fuel + 1 =>
    let (b, s) := s.drawRandom 2
    if 1 ≤ leNat b ∧ leNat b ≤ 0xFFFE then (leNat b, s) else s.drawSerial fuel

/-- Place a new ROOT (KEY_GENERATE, KEY_IMPORT): serial + 1, or a random serial for an untrusted one (R306). -/
def State.placeRoot (s : State) (n : Nat) (root : Bytes) : State :=
  let s := s.dropOldKeys n
  let (rnd, s) := if (s.slot n).untrusted then s.drawSerial 64 else (0, s)
  let s := s.onSlot n fun k =>
    let serial := if k.untrusted then rnd else k.serial + 1
    { k.retire with
      st := .loaded, root := root, serial := serial, epoch := 0, counter := 0, gen := (k.gen + 1) % 65536,
      untrusted := false }
  (s.swatchWrite 4 n).recordSlot n

/-- KEY_ROLL's change of a slot. -/
def State.rollSlot (s : State) (n : Nat) : State :=
  (((s.dropOldKeys n).onSlot n fun k => { k.retire with epoch := k.epoch + 1, counter := 0, gen := (k.gen + 1) % 65536 }).swatchWrite 4 n).recordSlot n

/-- Whether a slot is a tenant slot (R298). -/
def isTenantSlot (n : Nat) : Bool := n < 0x400

/-- CIP refuses a directive (R317): source 424. -/
def State.cipRefused (s : State) (code slot : Nat) : State := s.raise 424 (item1 code ++ item2 slot)

/-- Carry out KEY_GENERATE (1), KEY_IMPORT (2, with the wrapped key) or KEY_ROLL (3) on a slot that holds no
retired generation, or refuse it; whether it took effect (R316, R317). -/
def State.keyChange (s : State) (code n : Nat) (wrapped : Bytes) : Bool × State :=
  let k := s.slot n
  if s.cip.alarm then (false, s.cipRefused code n)
  else match code with
  | 1 =>
    if k.serial = 0xFFFF then (false, s.cipRefused code n)
    else
      let (root, s) := s.drawRandom 32
      (true, s.placeRoot n root)
  | 2 =>
    if k.serial = 0xFFFF ∨ (s.slot 0x401).st ≠ .loaded then (false, s.cipRefused code n)
    else match kwUnwrap (s.slot 0x401).root wrapped with
      | some root => (true, s.placeRoot n (padTo 32 root))
      | none => (false, s.cipRefused code n)
  | _ =>
    if k.st ≠ .loaded ∨ k.epoch = 2 ^ 32 - 1 then (false, s.cipRefused code n)
    else (true, s.rollSlot n)

/-- The ring a waiting key directive came from: the cipher ring, or the peer ring for a DOMAIN_LOAD. -/
def keyRing (slot : Nat) : Nat := if isPeerSlot slot then 6 else 3

/-- Carry out the key directives that waited for a retired generation, in order, until one retires another
(R319). -/
def State.runKeyWaits (s : State) (n : Nat) : Nat → State
  | 0 => s
  | fuel + 1 =>
    let k := s.slot n
    match k.waiting with
    | [] => s
    | (d, code, w) :: rest =>
      if k.retired.isEmpty then
        let s := s.onSlot n fun k => { k with waiting := rest }
        let (ok, s) := s.keyChange code n w
        (s.finish (keyRing n) d (if ok then esDone else esRefused) []).runKeyWaits n fuel
      else s

/-- End an erase: the record keeps only the serial, the slot becomes EMPTY, KEY_ERASE completes (R320). -/
def State.finishErase (s : State) (n : Nat) : State :=
  let k := s.slot n
  let r := s.slotRec n
  let s := s.writeSlotRec n { r with loaded := false, wrapped := zeros 40, serial := k.serial }
  let s := s.onSlot n fun k => { k with st := .empty, root := zeros 32, retired := [], eraseDirs := [] }
  k.eraseDirs.foldl (fun s d => s.finish 3 d esDone []) (s.swatchWrite 4 n)

/-- A retired generation clears: its root, counter and cached keys go; then a waiting erase or directive goes
on (R319, R320). -/
def State.clearRetired (s : State) (n gen : Nat) : State :=
  match (s.slot n).retired.find? fun r => r.gen = gen with
  | none => s
  | some g =>
    let s := s.dropKeys n g.serial g.epoch
    let s := s.onSlot n fun k => { k with retired := k.retired.filter fun r => r.gen ≠ gen }
    let s := if (s.slot n).st = .erasing ∧ (s.slot n).retired = [] then s.finishErase n else s
    s.runKeyWaits n (s.slot n).waiting.length

/-- Carry out or queue a key directive of the cipher ring or of DOMAIN_LOAD (R317, R319). A KEY_ROLL on a slot that is
ERASING is refused at once. -/
def State.keyDirective (s : State) (ring : Nat) (d : Dir) (code n : Nat) (wrapped : Bytes) : State :=
  let k := s.slot n
  if !s.cip.alarm && (!k.retired.isEmpty || !k.waiting.isEmpty) && !(decide (code = 3) && decide (k.st = .erasing)) then
    s.onSlot n fun k => { k with waiting := k.waiting ++ [(d, code, wrapped)] }
  else
    let (ok, s) := s.keyChange code n wrapped
    s.finish ring d (if ok then esDone else esRefused) []

/-! ## Alarms (R324 to R327) -/

/-- Zeroize one slot; its serial and generation stay (R299, R325). -/
def KeySlot.zeroize (k : KeySlot) : KeySlot :=
  { k with st := .empty, root := zeros 32, epoch := 0, counter := 0, refs := 0, retired := [], waiting := [],
           eraseDirs := [] }

/-- Complete the directives that an alarm cuts off: a waiting key directive is refused, an erase is done. -/
def State.alarmDirectives (s : State) : List (Nat × KeySlot) → State
  | [] => s
  | (n, k) :: rest =>
    let s := k.waiting.foldl (fun s w => (s.cipRefused w.2.1 n).finish (keyRing n) w.1 esRefused []) s
    (k.eraseDirs.foldl (fun s d => s.finish 3 d esDone []) s).alarmDirectives rest

/-- A slot record overwritten by an alarm (R327): REC_STATE 0, no root, the serial kept. -/
def SlotRec.erased (r : SlotRec) : SlotRec := { r with loaded := false, wrapped := zeros 40 }

/-- An alarm overwrites a slot record, a security line (R305, R327, R344). -/
def State.alarmRecord (s : State) (n : Nat) : State := s.writeSlotRec n (s.slotRec n).erased

/-- The tenant slot records that an alarm overwrites: all of them for a source whose CIP_ALARM_ERASE bit is set (R327); else
those of the slots that a KEY_ERASE has made ERASING, whose erase ends with the alarm (R320). -/
def State.alarmErases (s : State) (all : Bool) : List Nat :=
  if all then (s.ldg.kept.slotRecs.map (·.1)).filter isTenantSlot
  else (s.cip.slots.filter fun e => decide (e.2.st = .erasing)).map (·.1)

/-- The sources given as bits raise an alarm where CIP_ALARM_EN enables them (R324 to R327). -/
def State.cipAlarm (s : State) (sources : Nat) : State :=
  let on := sources &&& s.fld Reg.CIP_ALARM_EN_ENABLE
  if on = 0 then s
  else
    let old := s.cip.slots
    let waits := s.cip.waitRestore
    let erases := s.alarmErases (decide (on &&& s.fld Reg.CIP_ALARM_ERASE_ERASE ≠ 0))
    let s := s.onCip fun c => { c with
      slots := c.slots.map fun e => (e.1, e.2.zeroize), cache := [], checks := [], alarm := true,
      alarmSources := c.alarmSources ||| BitVec.ofNat 5 on, waitRestore := [], laneKeys := [], drbg := false }
    let s := erases.foldl State.alarmRecord s
    let s := s.raise 425 (item1 on)
    waits.foldl (fun s w => (s.cipRefused 2 (0x410 + w.2.1)).finish 6 w.1 esRefused []) (s.alarmDirectives old)

end Sys2Proof.Machine
end

