-- ==== Sys2Proof/Machine/Pattern.lean ====
section
/-! DEFINITION. Scan patterns (R256 to R259): the syntax, what a pattern matches, its anchored literal prefix,
and the compilation limits. -/

namespace Sys2Proof.Machine

/-! ## Syntax (R256) -/

/-- The metacharacters \ . [ ] ( ) | * + ? and the braces. -/
def isMetaByte (b : Nat) : Bool := [92, 46, 91, 93, 40, 41, 124, 42, 43, 63, 123, 125].contains b

/-- The value of a hexadecimal digit. -/
def hexDigit (b : Nat) : Option Nat :=
  if 48 ≤ b ∧ b ≤ 57 then some (b - 48)
  else if 97 ≤ b ∧ b ≤ 102 then some (b - 87)
  else if 65 ≤ b ∧ b ≤ 70 then some (b - 55)
  else none

/-- An escape after its backslash: a metacharacter, or x and two hexadecimal digits. -/
def parseEscape : List Nat → Option (Nat × List Nat)
  | 120 :: h :: l :: rest =>
    match hexDigit h, hexDigit l with
    | some a, some b => some (16 * a + b, rest)
    | _, _ => none
  | b :: rest => if isMetaByte b then some (b, rest) else none
  | [] => none

/-- One byte or escape inside a set. -/
def parseSetByte : List Nat → Option (Nat × List Nat)
  | 92 :: rest => parseEscape rest
  | b :: rest => some (b, rest)
  | [] => none

/-- The items of a set up to its closing bracket: `first` holds at the first item, where a ] and a - stand for
themselves; a - also does as the last item. -/
def parseSetItems : Nat → Bool → List (Nat × Nat) → List Nat → Option (List (Nat × Nat) × List Nat)
  | 0, _, _, _ => none
  | fuel + 1, first, acc, bs =>
    match bs with
    | [] => none
    | 93 :: rest => if first then rangeOrByte fuel acc 93 rest else some (acc, rest)
    | 45 :: rest =>
      if first then rangeOrByte fuel acc 45 rest
      else match rest with
        | 93 :: rest' => some (acc ++ [(45, 45)], rest')
        | _ => none
    | _ => match parseSetByte bs with
      | none => none
      | some (a, rest) => rangeOrByte fuel acc a rest
where
  /-- After one byte of a set: a range when a - and a byte other than the closing bracket follow. -/
  rangeOrByte (fuel : Nat) (acc : List (Nat × Nat)) (a : Nat) (rest : List Nat) :
      Option (List (Nat × Nat) × List Nat) :=
    match rest with
    | 45 :: 93 :: _ => parseSetItems fuel false (acc ++ [(a, a)]) rest
    | 45 :: rest' =>
      match parseSetByte rest' with
      | some (b, rest'') => if a ≤ b then parseSetItems fuel false (acc ++ [(a, b)]) rest'' else none
      | none => none
    | _ => parseSetItems fuel false (acc ++ [(a, a)]) rest

/-- Decimal digits, at least one: the number and the rest. -/
def parseNumber : List Nat → Option (Nat × List Nat)
  | [] => none
  | b :: rest => if 48 ≤ b ∧ b ≤ 57 then some (digits (b - 48) rest) else none
where
  digits (n : Nat) : List Nat → Nat × List Nat
    | [] => (n, [])
    | b :: rest => if 48 ≤ b ∧ b ≤ 57 then digits (10 * n + (b - 48)) rest else (n, b :: rest)

/-- A bounded repeat after its opening brace: n and m (none for no upper bound). -/
def parseBounds (bs : List Nat) : Option ((Nat × Option Nat) × List Nat) :=
  match parseNumber bs with
  | none => none
  | some (n, 125 :: rest) => if 1 ≤ n ∧ n ≤ 255 then some ((n, some n), rest) else none
  | some (n, 44 :: 125 :: rest) => if n ≤ 255 then some ((n, none), rest) else none
  | some (n, 44 :: rest) =>
    match parseNumber rest with
    | some (m, 125 :: rest) => if n ≤ m ∧ m ≤ 255 ∧ 1 ≤ m then some ((n, some m), rest) else none
    | _ => none
  | _ => none

/-- The quantifiers that follow an item. -/
def parseQuants : Nat → Regex → List Nat → Option (Regex × List Nat)
  | 0, _, _ => none
  | fuel + 1, a, bs =>
    match bs with
    | 42 :: rest => parseQuants fuel (.star a) rest
    | 43 :: rest => parseQuants fuel (.plus a) rest
    | 63 :: rest => parseQuants fuel (.rep a 0 (some 1)) rest
    | 123 :: rest =>
      match parseBounds rest with
      | some ((n, m), rest) => parseQuants fuel (.rep a n m) rest
      | none => none
    | _ => some (a, bs)

/-- The three levels of the grammar: 0 an alternation, 1 a sequence, 2 an item with its quantifiers. An empty
sequence follows no row of R256's table and does not parse. -/
def parseLevel : Nat → Nat → List Nat → Option (Regex × List Nat)
  | 0, _, _ => none
  | fuel + 1, 0, bs =>
    match parseLevel fuel 1 bs with
    | none => none
    | some (a, 124 :: rest) => (parseLevel fuel 0 rest).map fun (b, r) => (.alt a b, r)
    | some r => some r
  | fuel + 1, 1, bs =>
    match parseLevel fuel 2 bs with
    | none => none
    | some (a, []) => some (a, [])
    | some (a, b :: rest) =>
      if b = 124 ∨ b = 41 then some (a, b :: rest)
      else (parseLevel fuel 1 (b :: rest)).map fun (c, r) => (.cat a c, r)
  | fuel + 1, _, bs =>
    match bs with
    | [] => none
    | 40 :: rest =>
      match parseLevel fuel 0 rest with
      | some (a, 41 :: rest) => parseQuants (rest.length + 1) a rest
      | _ => none
    | 91 :: 94 :: rest =>
      match parseSetItems (rest.length + 1) true [] rest with
      | some (rs, rest) => parseQuants (rest.length + 1) (.set true rs) rest
      | none => none
    | 91 :: rest =>
      match parseSetItems (rest.length + 1) true [] rest with
      | some (rs, rest) => parseQuants (rest.length + 1) (.set false rs) rest
      | none => none
    | 46 :: rest => parseQuants (rest.length + 1) (.set false [(0, 255)]) rest
    | 92 :: rest =>
      match parseEscape rest with
      | some (b, rest) => parseQuants (rest.length + 1) (.set false [(b, b)]) rest
      | none => none
    | b :: rest => if isMetaByte b then none else parseQuants (rest.length + 1) (.set false [(b, b)]) rest

/-- Parse a pattern of 1 to 1,024 bytes; none when it does not parse (R256, R139). -/
def parsePattern (p : Bytes) : Option Regex :=
  match parseLevel (4 * p.length + 4) 0 (p.map BitVec.toNat) with
  | some (r, []) => some r
  | _ => none

/-! ## Matching (R256, R259) -/

/-- The pattern that matches nothing. -/
def Regex.nothing : Regex := .set false []

/-- Whether a byte is in the set. -/
def inRanges (neg : Bool) (rs : List (Nat × Nat)) (b : Nat) : Bool :=
  (rs.any fun r => decide (r.1 ≤ b) && decide (b ≤ r.2)) != neg

/-- Whether the pattern matches the empty string. -/
def Regex.nullable : Regex → Bool
  | .eps => true
  | .set _ _ => false
  | .cat a b => a.nullable && b.nullable
  | .alt a b => a.nullable || b.nullable
  | .star _ => true
  | .plus a => a.nullable
  | .rep a n _ => n = 0 || a.nullable

/-- Sequence and alternation that drop what matches nothing. -/
def Regex.mkCat (a b : Regex) : Regex :=
  if a = Regex.nothing ∨ b = Regex.nothing then Regex.nothing else if a = .eps then b else .cat a b

def Regex.mkAlt (a b : Regex) : Regex :=
  if a = Regex.nothing then b else if b = Regex.nothing ∨ a = b then a else .alt a b

/-- What must match after one byte. -/
def Regex.after (x : Nat) : Regex → Regex
  | .eps => Regex.nothing
  | .set neg rs => if inRanges neg rs x then .eps else Regex.nothing
  | .cat a b =>
    let l := Regex.mkCat (a.after x) b
    if a.nullable then Regex.mkAlt l (b.after x) else l
  | .alt a b => Regex.mkAlt (a.after x) (b.after x)
  | .star a => Regex.mkCat (a.after x) (.star a)
  | .plus a => Regex.mkCat (a.after x) (.star a)
  | .rep a n m =>
    match m with
    | none => Regex.mkCat (a.after x) (.rep a (n - 1) none)
    | some 0 => Regex.nothing
    | some (k + 1) => Regex.mkCat (a.after x) (if k = 0 then .eps else .rep a (n - 1) (some k))

/-- Whether a pattern matches the whole key (R256). -/
def Regex.matchesKey (r : Regex) (key : Bytes) : Bool :=
  (key.foldl (fun r b => r.after b.toNat) r).nullable

/-! ## The anchored literal prefix (R257) -/

/-- The literals from the start of a pattern, up to the first byte that another construct follows or governs. -/
def literalRun : Nat → List Nat → List Nat
  | 0, _ => []
  | fuel + 1, bs =>
    let tok := match bs with
      | 92 :: rest => parseEscape rest
      | b :: rest => if isMetaByte b then none else some (b, rest)
      | [] => none
    match tok with
    | none => []
    | some (b, rest) =>
      match rest with
      | q :: _ => if q = 42 ∨ q = 43 ∨ q = 63 ∨ q = 123 then [] else b :: literalRun fuel rest
      | [] => [b]

/-- The anchored literal prefix of a pattern: empty when an alternation governs all of it. -/
def literalPrefix (p : Bytes) : Bytes :=
  match parsePattern p with
  | some (.alt _ _) => []
  | _ => (literalRun (p.length + 1) (p.map BitVec.toNat)).map (BitVec.ofNat 8)

/-! ## Compilation limits (R257) -/

/-- States of the expanded pattern. -/
def Regex.states : Regex → Nat
  | .eps => 0
  | .set _ rs => max 1 ((rs.length + 1) / 2)
  | .cat a b => a.states + b.states
  | .alt a b => a.states + b.states
  | .star a => a.states
  | .plus a => a.states
  | .rep a n m =>
    match m with
    | none => a.states * (n + 1)
    | some k => a.states * k

/-- A piece of the automaton: the next free state, whether it matches the empty string, its first and last
states, and successors by state. -/
structure Frag where
  next : Nat
  nullable : Bool
  first : List Nat
  last : List Nat
  follow : List (Nat × List Nat)
deriving DecidableEq, Repr

/-- The empty piece. -/
def Frag.empty (n : Nat) : Frag := ⟨n, true, [], [], []⟩

/-- One piece after another. -/
def Frag.cat (f g : Frag) : Frag :=
  ⟨g.next, f.nullable && g.nullable, if f.nullable then f.first ++ g.first else f.first,
   if g.nullable then f.last ++ g.last else g.last, f.follow ++ g.follow ++ f.last.map fun p => (p, g.first)⟩

/-- A piece that may be left out. -/
def Frag.opt (f : Frag) : Frag := { f with nullable := true }

/-- A piece one or more times. -/
def Frag.plus (f : Frag) : Frag := { f with follow := f.follow ++ f.last.map fun p => (p, f.first) }

/-- A piece zero or more times. -/
def Frag.star (f : Frag) : Frag := f.plus.opt

/-- Optional copies, each inside the one before. -/
def optCopies (mk : Nat → Frag) : Nat → Nat → Frag
  | 0, n => Frag.empty n
  | k + 1, n =>
    let f := mk n
    (f.cat (optCopies mk k f.next)).opt

/-- Required copies, then what follows them. -/
def mustCopies (mk rest : Nat → Frag) : Nat → Nat → Frag
  | 0, n => rest n
  | k + 1, n =>
    let f := mk n
    f.cat (mustCopies mk rest k f.next)

/-- The automaton of a pattern from a first state number. -/
def Regex.frag : Regex → Nat → Frag
  | .eps, n => Frag.empty n
  | .set _ rs, n =>
    let ps := (List.range (max 1 ((rs.length + 1) / 2))).map (n + ·)
    ⟨n + ps.length, false, ps, ps, []⟩
  | .cat a b, n =>
    let f := a.frag n
    f.cat (b.frag f.next)
  | .alt a b, n =>
    let f := a.frag n
    let g := b.frag f.next
    ⟨g.next, f.nullable || g.nullable, f.first ++ g.first, f.last ++ g.last, f.follow ++ g.follow⟩
  | .star a, n => (a.frag n).star
  | .plus a, n => (a.frag n).plus
  | .rep a k m, n =>
    match m with
    | none => mustCopies a.frag (fun n => (a.frag n).star) k n
    | some u => mustCopies a.frag (optCopies a.frag (u - k)) k n

/-- Runs of consecutive states, each of at most 16, that a set of states below `n` needs: first state and length. -/
def runsOf (n : Nat) (set : List Nat) : List (Nat × Nat) :=
  ((List.range n).foldl (fun (acc : List (Nat × Nat)) p =>
    if set.contains p then match acc with
      | (b, k) :: rest => if b + k = p ∧ k < 16 then (b, k + 1) :: rest else (p, 1) :: acc
      | [] => [(p, 1)]
    else acc) []).reverse

/-- Successors of a state of a piece. -/
def Frag.succ (f : Frag) (p : Nat) : List Nat := (f.follow.filter fun e => e.1 = p).flatMap (·.2)

/-- The runs of a state's successors, and whether SELF stands for its own loop: where two runs do not hold them all
(DESIGN CHOICE, log 159). -/
def Frag.runs (f : Frag) (p : Nat) : Bool × List (Nat × Nat) :=
  let all := runsOf f.next (f.succ p)
  if all.length ≤ 2 then (false, all) else (decide (p ∈ f.succ p), runsOf f.next ((f.succ p).filter (· ≠ p)))

/-- Whether a compiled pattern keeps the limits of R257: 4,096 states, and successors in at most two runs, a
state's own loop taken by SELF or by a run. -/
def Regex.compiles (r : Regex) : Bool :=
  decide (r.states ≤ 4096) &&
    let f := r.frag 0
    (List.range f.next).all fun p => decide ((f.runs p).2.length ≤ 2)

/-! ## Compiled images (R252, R257, R258) -/

/-- Put a range at its place among ascending ones. -/
def placeRange (r : Nat × Nat) : List (Nat × Nat) → List (Nat × Nat)
  | [] => [r]
  | x :: xs => if r.1 ≤ x.1 then r :: x :: xs else x :: placeRange r xs

/-- Ranges in ascending order, those that meet joined. -/
def joinRanges (rs : List (Nat × Nat)) : List (Nat × Nat) :=
  ((rs.foldr placeRange []).foldl (fun (acc : List (Nat × Nat)) r => match acc with
    | (a, b) :: rest => if r.1 ≤ b + 1 then (a, max b r.2) :: rest else r :: acc
    | [] => [r]) []).reverse

/-- The gaps between ranges in ascending order. -/
def gapsOf : List (Nat × Nat) → List (Nat × Nat)
  | (_, b) :: (c, d) :: rest => (b + 1, c - 1) :: gapsOf ((c, d) :: rest)
  | _ => []

/-- An empty range: its low byte lies above its high byte (R258). -/
def noRange : Nat × Nat := (255, 0)

/-- Ranges two by two: those of the parallel states of a set (R257). -/
def pairRanges : List (Nat × Nat) → List ((Nat × Nat) × (Nat × Nat))
  | a :: b :: rest => (a, b) :: pairRanges rest
  | [a] => [(a, noRange)]
  | [] => []

/-- NEG and the two ranges of each parallel state of a set (R257, R258): ⌈k / 2⌉ of them for k ranges. A set of bytes in
none of them needs one state with NEG, which leaves the bytes before the first range, between it and the second, and
after the last, and states for the gaps between the others (DESIGN CHOICE, log 159). -/
def setStates (neg : Bool) (rs : List (Nat × Nat)) : List (Bool × (Nat × Nat) × (Nat × Nat)) :=
  let want := max 1 ((rs.length + 1) / 2)
  let own := if neg then
      match joinRanges rs with
      | [] => [(true, noRange, noRange)]
      | [a] => [(true, a, noRange)]
      | a :: b :: rest =>
        let last := ((b :: rest).getLast?).getD b
        (true, a, (b.1, last.2)) :: (pairRanges (gapsOf (b :: rest))).map fun p => (false, p.1, p.2)
    else (pairRanges rs).map fun p => (false, p.1, p.2)
  own ++ List.replicate (want - own.length) (false, noRange, noRange)

/-- NEG and ranges of every state of a pattern, in the order of `Regex.frag`. -/
def Regex.rangesOf : Regex → List (Bool × (Nat × Nat) × (Nat × Nat))
  | .eps => []
  | .set neg rs => setStates neg rs
  | .cat a b | .alt a b => a.rangesOf ++ b.rangesOf
  | .star a | .plus a => a.rangesOf
  | .rep a n m => match m with
    | none => (List.replicate (n + 1) a.rangesOf).flatten
    | some k => (List.replicate k a.rangesOf).flatten

/-- CHECK of a state (R258): the XOR of bytes 0 to 4 and 6 to 11. -/
def stateCheck (st : Bytes) : Byte := (st.take 5 ++ slice st 6 6).foldl (· ^^^ ·) 0

/-- The 16 bytes of a state (R258). -/
def stateBytes (neg start accept self : Bool) (r0 r1 : Nat × Nat) (runs : List (Nat × Nat)) : Bytes :=
  let run (i : Nat) := runs.getD i (0, 0)
  let head := leBytes 1 r0.1 ++ leBytes 1 r0.2 ++ leBytes 1 r1.1 ++ leBytes 1 r1.2
    ++ leBytes 1 (1 + (if neg then 2 else 0) + (if start then 4 else 0) + (if accept then 8 else 0)
        + (if self then 16 else 0))
  let tail := leBytes 2 (run 0).1 ++ leBytes 2 (run 1).1 ++ leBytes 1 (run 0).2 ++ leBytes 1 (run 1).2
  head ++ [(head ++ tail).foldl (· ^^^ ·) 0] ++ tail ++ zeros 4

/-- The compiled image of a pattern (R257, R258). -/
def Regex.image (r : Regex) : List Bytes :=
  let f := r.frag 0
  (r.rangesOf.zipIdx).map fun ((neg, r0, r1), p) =>
    let (self, runs) := f.runs p
    stateBytes neg (f.first.contains p) (f.last.contains p) self r0 r1 runs

/-- Whether the CHECK of every state holds (R259). -/
def statesHold (sts : List Bytes) : Bool := sts.all fun st => st.getD 5 0 = stateCheck st

end Sys2Proof.Machine
end

