-- ==== Sys2Proof/Machine/Halves.lean ====
section
/-! DEFINITION. The automaton halves of the match dies: granted to the image slots of running searches, loaded with their
images, withdrawn and given back (R230, R259 to R262). -/

namespace Sys2Proof.Machine

/-- MAX_HALVES: 0 and values above 256 act as 256. -/
def State.maxHalves (s : State) : Nat :=
  let v := s.fld Reg.MCH_AUTO_CFG_MAX_HALVES
  if v = 0 ∨ 256 < v then 256 else v

/-- Halves that may run at once: none while a shedding stage is in force (R500), else as the thermal stage caps them
(R509). -/
def State.halfCap (s : State) : Nat :=
  if s.pwr.shed ≠ 0 then 0
  else match s.pwr.stage with
    | 0 => 256
    | 1 => 128
    | 2 => 64
    | 3 => 32
    | _ => 16

/-- Free halves in ascending index. -/
def State.freeHalves (s : State) : List Nat :=
  ((List.range 256).filter fun h => (tget s.mch.halves h).isNone).take (s.halfCap - s.mch.halves.length)

/-- A half runs for an image slot, and holds its image (R261). -/
def Mch.giveHalf (m : Mch) (slot half : Nat) : Mch :=
  { m with halves := tset m.halves half slot, lanes := tset m.lanes half ((tget m.images slot).getD []) }

/-- Keep the halves that a test names; the others hold nothing. -/
def Mch.keepHalves (m : Mch) (p : Nat × Nat → Bool) : Mch :=
  let kept := m.halves.filter p
  { m with halves := kept, lanes := m.lanes.filter fun e => (tget kept e.1).isSome }

/-- Load every granted half from its image (R255, R264). -/
def State.reloadHalves (s : State) : State :=
  s.onMch fun m => { m with lanes := m.halves.map fun e => (e.1, (tget m.images e.2).getD []) }

/-- Grant halves to an image slot: at most `n`, the lowest first. -/
def State.grantHalves (s : State) (slot n : Nat) : State :=
  s.onMch fun m => (s.freeHalves.take n).foldl (fun m h => m.giveHalf slot h) m

/-- Image slots that hold halves, each once. -/
def State.runningSlots (s : State) : List Nat := (s.mch.halves.map (·.2)).eraseDups

/-- Halves an image slot holds. -/
def State.halvesOf (s : State) (slot : Nat) : List Nat :=
  (s.mch.halves.filter fun e => e.2 = slot).map (·.1)

/-- Running and waiting searches (R262, MCH_HALVES_STAT). -/
def State.searches (s : State) : Nat := (s.runningSlots ++ s.mch.waitHalves).eraseDups.length

/-- The most halves that a search keeps while another waits: ⌊256 / N⌋ (R262). -/
def State.halfShare (s : State) : Nat := 256 / max 1 s.searches

/-- Give halves to searches that wait, by the round robin of the image slot (R262). -/
def State.serveHalves (s : State) : Nat → State
  | 0 => s
  | fuel + 1 =>
    if s.freeHalves.isEmpty then s
    else match roundRobin s.mch.rrHalf s.mch.waitHalves with
      | none => s
      | some slot =>
        ((s.grantHalves slot (min s.maxHalves s.halfShare - (s.halvesOf slot).length)).onMch
          fun m => { m with waitHalves := m.waitHalves.filter (· ≠ slot), rrHalf := slot + 1 }).serveHalves fuel

/-- A batch starts: it takes halves, or waits for them (R261, R262). -/
def State.startHalves (s : State) (slot : Nat) : State :=
  if s.freeHalves.isEmpty then
    s.onMch fun m => { m with waitHalves := m.waitHalves.filter (· ≠ slot) ++ [slot] }
  else s.grantHalves slot s.maxHalves

/-- More halves are granted than the cap allows: the highest are withdrawn; a search left without one waits again
(R262, R500, R509). -/
def State.capHalves (s : State) : State :=
  let kept := s.mch.halves.take s.halfCap
  let bare := s.runningSlots.filter fun x => !(kept.map (·.2)).contains x && !s.mch.waitHalves.contains x
  s.onMch fun m => { m.keepHalves kept.contains with waitHalves := m.waitHalves ++ bare }

/-- A batch ends: its halves are free for those that wait (R262). -/
def State.endHalves (s : State) (slot : Nat) : State :=
  let s := s.onMch fun m => { m.keepHalves fun e => e.2 ≠ slot with waitHalves := m.waitHalves.filter (· ≠ slot) }
  s.serveHalves s.mch.waitHalves.length

/-- The search that holds the most halves, if it holds more than the share and does not wait: the lowest slot among
equals. -/
def State.mostHalves (s : State) : Option Nat :=
  ((s.runningSlots.filter fun x => decide (s.halfShare < (s.halvesOf x).length) && !s.mch.waitHalves.contains x).foldl
    (fun m x => match m with
      | none => some x
      | some b => if (s.halvesOf b).length < (s.halvesOf x).length
          ∨ ((s.halvesOf b).length = (s.halvesOf x).length ∧ x < b) then some x else some b) none)

/-- Searches that wait and may take another half: MAX_HALVES bounds what one is granted (R261). -/
def State.halfTakers (s : State) : List Nat := s.mch.waitHalves.filter fun x => decide ((s.halvesOf x).length < s.maxHalves)

/-- The withdrawal is over once no running search holds more than the share, or none that waits may take another half: the
searches that hold a half then wait no more. -/
def State.endWithdraw (s : State) : State :=
  if s.mostHalves.isSome && !s.halfTakers.isEmpty then s
  else s.onMch fun m => { m with waitHalves := m.waitHalves.filter fun x => (s.halvesOf x).isEmpty }

/-- One half of the search that holds the most goes, at its key boundary, to the waiting search whose turn it is (R24,
R262). -/
def State.withdrawHalf (s : State) : State :=
  match s.mostHalves with
  | none => s.endWithdraw
  | some slot =>
    match (s.halvesOf slot).getLast?, roundRobin s.mch.rrHalf s.halfTakers with
    | some h, some w => (s.onMch fun m => { m.giveHalf w h with rrHalf := w + 1 }).endWithdraw
    | _, _ => s.endWithdraw

end Sys2Proof.Machine
end

