-- ==== Sys2Proof/Machine/Keys.lean ====
section
/-! DEFINITION. The index: directory records in index order (R204, R213), the fingerprint table with its
relocations (R205 to R210), the express mirror (R217 to R221), lookups (R207, R219, R226, R227), usage
(R64, R66) and pins (R85 to R88). -/

namespace Sys2Proof.Machine

/-! ## Directory records -/

/-- Lines of a directory record (R213). -/
def recLines (keyLen variants : Nat) : Nat := (40 + (keyLen + 7) / 8 * 8 + 32 * variants + 63) / 64

/-- Lines of this record. -/
def DirRec.lines (r : DirRec) : Nat := recLines r.key.length r.variants.length

/-- The version of a key (R54): the highest among its filled variants. -/
def DirRec.version (r : DirRec) : Nat := (r.variants.map fun v => v.2.version).foldl max 0

/-- PRESENCE (R213). -/
def DirRec.presence (r : DirRec) : Nat := (r.variants.map fun v => 2 ^ v.1).foldl (· + ·) 0

/-- Byte order of keys: a key that is a prefix of another comes first (R204). -/
def keyLt : Bytes → Bytes → Bool
  | [], [] => false
  | [], _ :: _ => true
  | _ :: _, [] => false
  | a :: as, b :: bs => if a = b then keyLt as bs else decide (a.toNat < b.toNat)

/-- Index order (R204): ascending KH, then byte order. -/
def recLt (r q : DirRec) : Bool :=
  decide (r.kh.toNat < q.kh.toNat) || (r.kh = q.kh && keyLt r.key q.key)

/-- The record of a key; keys compare byte for byte (R43). -/
def dirFind (d : List DirRec) (key : Bytes) : Option DirRec := d.find? fun r => r.key = key

/-- Set the record of a key, keeping index order. -/
def dirPut : List DirRec → DirRec → List DirRec
  | [], r => [r]
  | q :: d, r => if q.key = r.key then r :: d else if recLt r q then r :: q :: d else q :: dirPut d r

/-- Remove the record of a key. -/
def dirRemove (d : List DirRec) (key : Bytes) : List DirRec := d.filter fun r => r.key ≠ key

/-- Segments of a value of a length (R269). -/
def segCount (len : Nat) : Nat := (len + 65535) / 65536

/-- Logical length of segment `i` of a value of a length (R269). -/
def segLen (len i : Nat) : Nat := min 65536 (len - 65536 * i)

/-- ROOT_KIND of a variant (R213, R310): 0 no stored segment, 1 one segment, 2 a segment map. -/
def Variant.rootKind (v : Variant) : Nat :=
  if v.segs.isEmpty then 0
  else if segCount v.length = 1 ∧ !(v.segs.any fun g => g.2.sealWord.isSome) then 1 else 2

/-- VFLAGS of R154. -/
def Variant.flags (v : Variant) : Nat :=
  (if v.sealed then 1 else 0) + (if v.segs.any (fun g => g.2.compressed) then 2 else 0)
    + (if v.parityP then 4 else 0) + (if v.template ≠ 0 then 8 else 0)
    + (if v.segs.length < segCount v.length then 16 else 0)

/-- Logical bytes charged for a variant (R66): of its stored segments. -/
def Variant.charged (v : Variant) : Nat := (v.segs.map fun g => segLen v.length g.1).foldl (· + ·) 0

/-- Logical bytes charged for a key. -/
def DirRec.charged (r : DirRec) : Nat := (r.variants.map fun v => v.2.charged).foldl (· + ·) 0

/-- Every stored segment of a key. -/
def DirRec.segs (r : DirRec) : List Seg := r.variants.flatMap fun v => v.2.segs.map (·.2)

/-- Bytes of a map page of `n` entries, padded to 64 (R373). -/
def mapPageBytes (n : Nat) (sealed : Bool) : Nat := (64 + 8 * n + (if sealed then 16 * n else 0) + 63) / 64 * 64

/-- Entries of map page `j` of a value of `n` segments (R372). -/
def mapEntries (n j : Nat) : Nat := min 2048 (n - 2048 * j)

/-- 64-byte units of the map page numbered `j` of a variant: 512 is the map index page (R372, R373). -/
def Variant.mapUnits (v : Variant) (j : Nat) : Nat :=
  let n := segCount v.length
  if j = 512 then mapPageBytes ((n + 2047) / 2048) false / 64
  else mapPageBytes (mapEntries n j) v.sealed / 64

/-! ## Buckets with relocation (R208, R221) -/

/-- A bucket of eight places. -/
def bget {α : Type} (t : Tbl (List (Option α))) (b : Nat) : List (Option α) :=
  (tget t b).getD (List.replicate 8 none)

/-- Set a bucket; an empty bucket is not listed. -/
def bset {α : Type} (t : Tbl (List (Option α))) (b : Nat) (l : List (Option α)) : Tbl (List (Option α)) :=
  if l.all Option.isNone then tdel t b else tset t b l

/-- The lowest free place of a bucket. -/
def freeIdx {α : Type} (l : List (Option α)) : Option Nat := l.findIdx? Option.isNone

/-- Free places of a bucket. -/
def freeCount {α : Type} (l : List (Option α)) : Nat := (l.filter Option.isNone).length

/-- Put into the lowest free place of a bucket. -/
def bplace {α : Type} (t : Tbl (List (Option α))) (b : Nat) (a : α) : Tbl (List (Option α)) :=
  match freeIdx (bget t b) with
  | some i => bset t b ((bget t b).set i (some a))
  | none => t

/-- A step of a relocation path: the bucket and place of the resident that moves to its alternate bucket. -/
abbrev Move := Nat × Nat

/-- Look for the shortest relocation path, bucket by bucket from b1 and b2 (R208 step 2, which takes any path; DESIGN
CHOICE, log 9): a list of moves whose head is the
far end, and the bucket with a free place that the head moves to. `from_` is the place at which the search of
each bucket begins (R210). -/
def searchPath {α : Type} (alt : Nat → α → Nat) (t : Tbl (List (Option α))) (from_ : Nat) :
    Nat → List (Nat × List Move) → List Nat → Option (List Move × Nat)
  | 0, _, _ => none
  | fuel + 1, frontier, seen =>
    let order := (List.range 8).map fun i => (i + from_) % 8
    let nexts := frontier.flatMap fun (b, path) =>
      order.filterMap fun i => match (bget t b).getD i none with
        | some a => some (alt b a, (b, i) :: path)
        | none => none
    match nexts.find? fun n => (freeIdx (bget t n.1)).isSome with
    | some (dest, path) => some (path, dest)
    | none =>
      let fresh := nexts.foldl (fun (acc : List (Nat × List Move) × List Nat) n =>
        if acc.2.contains n.1 then acc else (acc.1 ++ [n], n.1 :: acc.2)) ([], seen)
      if fresh.1.isEmpty then none else searchPath alt t from_ fuel fresh.1 fresh.2

/-- Carry out a path from its far end (R208 step 3). -/
def applyPath {α : Type} : List Move → Nat → Tbl (List (Option α)) → Tbl (List (Option α))
  | [], _, t => t
  | (b, i) :: rest, dest, t =>
    match (bget t b).getD i none with
    | some a =>
      let t := bplace t dest a
      applyPath rest b (bset t b ((bget t b).set i none))
    | none => applyPath rest b t

/-- Insert into one of two buckets (R208): the one with more free places, the first on a tie; else over a
relocation path of at most `kicks` moves. None when there is no such path. -/
def binsert {α : Type} (alt : Nat → α → Nat) (t : Tbl (List (Option α))) (b1 b2 kicks from_ : Nat) (a : α) :
    Option (Tbl (List (Option α))) :=
  let f1 := freeCount (bget t b1)
  let f2 := freeCount (bget t b2)
  if 0 < f1 ∨ 0 < f2 then some (bplace t (if f1 < f2 then b2 else b1) a)
  else
    match searchPath alt t from_ kicks [(b1, []), (b2, [])] [b1, b2] with
    | none => none
    | some (path, dest) =>
      let t := applyPath path dest t
      let into := (path.getLast?.map (·.1)).getD b1
      some (bplace t into a)

/-- Remove what a test names from a bucket. -/
def bremove {α : Type} (t : Tbl (List (Option α))) (b : Nat) (p : α → Bool) : Tbl (List (Option α)) :=
  bset t b ((bget t b).map fun o => match o with
    | some a => if p a then none else some a
    | none => none)

/-- Change what a test names in a bucket. -/
def bmodify {α : Type} (t : Tbl (List (Option α))) (b : Nat) (f : α → α) : Tbl (List (Option α)) :=
  bset t b ((bget t b).map (·.map f))

/-! ## The fingerprint table -/

/-- MAX_KICKS (IDX_INSERT_CFG): values below 8 act as 8. -/
def State.maxKicks (s : State) : Nat := max 8 (s.fld Reg.IDX_INSERT_CFG_MAX_KICKS)

/-- The alternate bucket of a slot (R205). -/
def slotAlt (b : Nat) (x : Slot) : Nat := otherBucket b x.fp

/-- The slot of a record. -/
def slotOf (r : DirRec) : Slot := ⟨fpOf r.kh, r.pinned, r.loc, r.lines, r.variants.length, r.kh, r.key⟩

/-- The place in the table of a byte offset in DRAM group A (R206). -/
def placeAt (t : Tbl (List (Option Slot))) (a : Nat) : Option Slot := (bget t (a / 128)).getD (a % 128 / 16) none

/-- Set the table: the words of the slots that change are written (R540). -/
def State.setTable (s : State) (t : Tbl (List (Option Slot))) : State :=
  let old := s.idx.table
  (s.onIdx fun i => { i with table := t }).storageWritten 0 fun a => decide (placeAt old a ≠ placeAt t a)

/-- Insert a key's slot (R208); none when no path exists (R210). A slot already present is rewritten. -/
def State.tableInsert (s : State) (r : DirRec) : Option State :=
  let b1 := bucket1 r.kh
  let b2 := bucket2 r.kh
  let has := (bget s.idx.table b1 ++ bget s.idx.table b2).any fun o => match o with
    | some x => x.key = r.key
    | none => false
  let upd (t : Tbl (List (Option Slot))) (b : Nat) := bmodify t b fun x => if x.key = r.key then slotOf r else x
  if has then some (s.setTable (upd (upd s.idx.table b1) b2))
  else (binsert slotAlt s.idx.table b1 b2 s.maxKicks s.idx.kickStart (slotOf r)).map s.setTable

/-- Remove a key's slot. -/
def State.tableRemove (s : State) (kh : W64) (key : Bytes) : State :=
  s.setTable (bremove (bremove s.idx.table (bucket1 kh) fun x => x.key = key) (bucket2 kh) fun x => x.key = key)

/-- Keys the drive holds at most (R45). -/
def maxKeys : Nat := 7500000000

/-- Keys held (R45). -/
def State.keyCount (s : State) : Nat := s.idx.dir.length

/-- Pinned keys (R85). -/
def State.pinCount (s : State) : Nat := (s.idx.dir.filter fun r => r.pinned).length

/-- The valid slots of the table: IDX_KEYS counts them, and IDX_PINS those with PINNED, so that both fall to 0 when a rebuild
clears the table and rise as it inserts. -/
def State.tableSlots (s : State) : List Slot := s.idx.table.flatMap fun b => b.2.filterMap id

/-- Pins the set holds at most (R85). -/
def maxPins : Nat := 16777216

/-! ## Lookups -/

/-- The directory reads of a table lookup (R207): the slots of both buckets whose FP is the key's, in slot
order; the match, and the keys of the other records read, in order. -/
def State.tableLookup (s : State) (kh : W64) (key : Bytes) : Option DirRec × List Bytes :=
  let slots := (bget s.idx.table (bucket1 kh) ++ bget s.idx.table (bucket2 kh)).filterMap id
  let cands := slots.filter fun x => x.fp = fpOf kh
  let before := cands.takeWhile fun x => x.key ≠ key
  (if before.length < cands.length then dirFind s.idx.dir key else none, before.map (·.key))

/-- The mirror bucket numbered `m` of a copy. -/
def Idx.mbucket (i : Idx) (copy m : Nat) : List MEntry :=
  (bget (if copy = 0 then i.mirror0 else i.mirror1) m).filterMap id

/-- The record that a mirror entry supplies: the key's, at the entry's location. -/
def State.mirrorRecord (s : State) (e : MEntry) : Option DirRec :=
  (dirFind s.idx.dir e.key).map fun r => { r with loc := e.loc }

/-- The entries of a KH in a bucket of a copy as a lookup sees them (R218, R220): what the pending changes have made of copy
0 it sees from before, which is as copy 1 still holds it. -/
def Idx.mhits (i : Idx) (copy m : Nat) (kh : W64) : List MEntry :=
  (i.mbucket (if i.pending.isEmpty then copy else 1) m).filter fun e => e.kh = kh

/-- An EXPRESS lookup in the mirror (R218, R219): m1 from copy 0, or from copy 1 while copy 0 is in a refresh window, then m2
from the other copy. The record when a mirror entry supplied it, whether m2 was read, and the keys of the other records with
the KH that were read. -/
def State.mirrorLookup (s : State) (refreshing0 : Bool) (kh : W64) (key : Bytes) : Option DirRec × Bool × List Bytes :=
  let c1 := if refreshing0 then 1 else 0
  let h1 := s.idx.mhits c1 (mbucket1 kh) kh
  let h2 := s.idx.mhits (1 - c1) (mbucket2 kh) kh
  let other (l : List MEntry) := (l.takeWhile fun e => e.key ≠ key).map (·.key)
  match h1.find? fun e => e.key = key with
  | some e => (s.mirrorRecord e, false, other h1)
  | none => (((h2.find? fun e => e.key = key).bind s.mirrorRecord), true, other h1 ++ other h2)

/-- Whether a lookup reads the directory page instead of the table (R226, R227); so it does for a key without a slot (log
179). -/
def State.usesPages (s : State) (kh : W64) : Bool :=
  (s.idx.rebuilding && decide (s.idx.mark ≤ kh.toNat)) || s.idx.poison.contains (bucket1 kh)
    || s.idx.poison.contains (bucket2 kh) || s.idx.unplaced.contains kh

/-! ## Mirror changes (R220) -/

/-- The alternate mirror bucket of an entry. -/
def mirrorAlt (b : Nat) (e : MEntry) : Nat :=
  if b = mbucket1 e.kh then mbucket2 e.kh else mbucket1 e.kh

/-- Insert a mirror entry by R208's rule with at most 16 relocation moves (R221); the rule of placement is a
DESIGN CHOICE (log 9). -/
def mirrorInsert (t : Tbl (List (Option MEntry))) (e : MEntry) : Option (Tbl (List (Option MEntry))) :=
  binsert mirrorAlt t (mbucket1 e.kh) (mbucket2 e.kh) 16 0 e

/-- Remove the mirror entry of a key. -/
def mirrorRemove (t : Tbl (List (Option MEntry))) (kh : W64) (key : Bytes) : Tbl (List (Option MEntry)) :=
  bremove (bremove t (mbucket1 kh) fun e => e.key = key) (mbucket2 kh) fun e => e.key = key

/-- Change the location of a key's mirror entry. -/
def mirrorMove (t : Tbl (List (Option MEntry))) (kh : W64) (key : Bytes) (loc : Loc) : Tbl (List (Option MEntry)) :=
  let f (e : MEntry) : MEntry := if e.key = key then { e with loc := loc } else e
  bmodify (bmodify t (mbucket1 kh) f) (mbucket2 kh) f

/-- Whether a copy holds a key's entry. -/
def mirrorHas (t : Tbl (List (Option MEntry))) (kh : W64) (key : Bytes) : Bool :=
  (bget t (mbucket1 kh) ++ bget t (mbucket2 kh)).any fun o => match o with
    | some e => e.key = key
    | none => false

/-- A copy of the mirror after a change is written in it (R220). A pin that finds no place leaves the copy as it is
(R221). -/
def MChange.write (c : MChange) (t : Tbl (List (Option MEntry))) : Tbl (List (Option MEntry)) :=
  match c with
  | .pin kh key _ _ gone =>
    let t' := if mirrorHas t kh key then t else (mirrorInsert t ⟨kh, key, .ledger 0⟩).getD t
    if gone then mirrorRemove t' kh key else t'
  | .unpin kh key _ | .delete _ kh key => mirrorRemove t kh key
  | .move kh key loc _ _ => mirrorMove t kh key loc

/-- The key that a change is about. -/
def MChange.key : MChange → Bytes
  | .pin _ key _ _ _ | .unpin _ key _ | .move _ key _ _ _ | .delete _ _ key => key

/-- Copy 0 as the pending changes make it of copy 1 (R220). -/
def Idx.expected0 (i : Idx) : Tbl (List (Option MEntry)) := i.pending.foldl (fun t c => c.write t) i.mirror1

/-- A bucket of copy 1 as copy 0 and the pending table give it (R220, R227): copy 0's, but what a pending change has made
there is as it was before. -/
def Idx.before1 (i : Idx) (b : Nat) : List (Option MEntry) :=
  List.zipWith (fun x e => if e.1 = e.2 then x else e.2) (bget i.mirror0 b) ((bget i.expected0 b).zip (bget i.mirror1 b))

/-- A change enters the pending table: it is written in copy 0 (R220). -/
def State.enterChange (s : State) (c : MChange) : State :=
  s.onIdx fun i => { i with pending := i.pending ++ [c], mirror0 := c.write i.mirror0 }

/-- A mirror change enters the 64-entry pending table, or waits for a free entry (R220). -/
def State.queueMirror (s : State) (c : MChange) : State :=
  if s.idx.pending.length < 64 ∧ s.idx.waiting.isEmpty then s.enterChange c
  else s.onIdx fun i => { i with waiting := i.waiting ++ [c] }

/-- A change that waited takes a free pending entry. -/
def State.admitChange (s : State) : State :=
  match s.idx.waiting with
  | c :: rest => if s.idx.pending.length < 64 then (s.onIdx fun i => { i with waiting := rest }).enterChange c else s
  | [] => s

/-- The pins asked for a key that is now deleted come to nothing (R88): what they wrote in copy 0 goes again. -/
def State.dropPins (s : State) (kh : W64) (key : Bytes) : State :=
  let gone (c : MChange) : MChange := match c with
    | .pin h k tag d g => .pin h k tag d (g || decide (k = key))
    | c => c
  let asked := s.idx.pending.any fun c => match c with
    | .pin _ k _ _ g => !g && decide (k = key)
    | _ => false
  s.onIdx fun i => { i with
    pending := i.pending.map gone, waiting := i.waiting.map gone
    mirror0 := if asked then mirrorRemove i.mirror0 kh key else i.mirror0 }

/-! ## Usage (R64, R66, R606) -/

/-- A tenant's usage. -/
def State.usageOf (s : State) (t : Nat) : Usage := (tget s.sch.usage t).getD ⟨0, 0, 0⟩

/-- Set a tenant's usage. -/
def State.setUsage (s : State) (t : Nat) (u : Usage) : State :=
  s.onSch fun h => { h with usage := tset h.usage t u }

/-- Add to a tenant's usage; a negative step subtracts. -/
def State.addUsage (s : State) (t : Nat) (bytes keys pins : Int) : State :=
  let u := s.usageOf t
  s.setUsage t ⟨(u.bytes + bytes).toNat, (u.keys + keys).toNat, (u.pins + pins).toNat⟩

/-- A tenant's record; a tenant whose record is not loaded reads DISABLED (R606). -/
def State.tenant (s : State) (t : Nat) : Tenant := (tget s.sch.tenants t).getD ⟨0, 0, 0, 0, 0⟩

/-! ## The mark of a rebuild (R225) -/

/-- Whether a record lies in a directory page, not on the Ledger (R214). -/
def pageHeld (r : DirRec) : Bool :=
  match r.loc with
  | .ledger _ => false
  | .flash _ _ _ => true

/-- The end of a rebuild: table and mirror are ready, and the directives that wait complete (R228). -/
def State.finishRebuild (s : State) : State :=
  let ds := s.idx.rebuildDir
  let s := s.onIdx fun i => { i with
    rebuilding := false, mark := 0, walked := [], tableReady := true, mirrorReady := true, rebuildDir := [] }
  ds.foldl (fun s d => s.finish 0 d esDone []) s

/-- The records of directory pages not yet walked, in index order. -/
def State.unwalked (s : State) : List DirRec :=
  s.idx.dir.filter fun r => pageHeld r && decide (s.idx.mark ≤ r.kh.toNat)
    && !(decide (r.kh.toNat = s.idx.mark) && s.idx.walked.contains r.key)

/-- Set the mark to the first record not yet walked; the rebuild ends when there is none (R225). -/
def State.setMark (s : State) : State :=
  match s.unwalked with
  | r :: _ => s.onIdx fun i => { i with
      mark := r.kh.toNat, walked := if r.kh.toNat = i.mark then i.walked else [] }
  | [] => s.finishRebuild

/-- A record has gone from the pages: a running rebuild has one less to walk (R225). -/
def State.markAgain (s : State) : State := if s.idx.rebuilding then s.setMark else s

/-! ## The record as bytes (R213, R214) -/

/-- SEG_ROOT of a variant entry: the one segment's location, the map's, or 0. -/
def Variant.segRoot (v : Variant) : Nat :=
  match v.rootKind with
  | 0 => 0
  | 1 => (v.segs.head?.map fun g => locWord g.2.loc).getD 0
  | _ => (((tget v.maps 512).orElse fun _ => tget v.maps 0).map locWord).getD 0

/-- A variant entry of 32 bytes. -/
def Variant.entry (v : Variant) (n : Nat) : Bytes :=
  leBytes 1 n ++ leBytes 1 v.flags ++ leBytes 6 v.length ++ leBytes 8 v.version ++ leBytes 8 v.segRoot
    ++ leBytes 4 v.segs.length ++ leBytes 1 v.rootKind ++ leBytes 1 v.template ++ zeros 2

/-- The whole lines of a record with a value of REC_CRC. -/
def DirRec.bytesWith (r : DirRec) (crc : W32) : Bytes :=
  padTo (64 * r.lines) (leBytes 8 r.kh.toNat ++ leBytes 2 r.key.length ++ leBytes 1 r.variants.length
    ++ leBytes 1 (if r.pinned then 1 else 0) ++ leBytes 2 r.owner ++ leBytes 2 r.lines ++ leBytes 8 r.presence
    ++ leBytes 8 r.version ++ leBytes 4 crc.toNat ++ zeros 4 ++ padTo ((r.key.length + 7) / 8 * 8) r.key
    ++ r.variants.flatMap fun v => v.2.entry v.1)

/-- REC_CRC: CRC-32C over the lines with the field as zero (R146, R213). -/
def DirRec.crc (r : DirRec) : W32 := crc32c (r.bytesWith 0)

/-- The record as it is stored. -/
def DirRec.bytes (r : DirRec) : Bytes := r.bytesWith r.crc

/-- Whether the bytes read for a record are the record's: their REC_CRC holds. -/
def recordHolds (raw : Bytes) : Bool :=
  decide (fieldAt raw 32 4 = (crc32c (raw.take 32 ++ zeros 4 ++ raw.drop 36)).toNat)

/-! ## Writing a directory record -/

/-- INDEX_PLACEMENT_FAILED (R210): the next path search begins from another resident slot. R210 does not say which: the next
place number, modulo 8 (DESIGN CHOICE, log 158). -/
def State.noPlace (s : State) (kh : W64) : State :=
  (s.raise 290 (item8 kh.toNat)).onIdx fun i => { i with kickStart := (i.kickStart + 1) % 8 }

/-- Insert the slot of a key that exists: where no path places it (R210), the key is kept for lookups to find (R226; DESIGN
CHOICE, log 179). -/
def State.insertSlot (s : State) (r : DirRec) : State :=
  match s.tableInsert r with
  | some s => s
  | none => (s.noPlace r.kh).onIdx fun i => { i with unplaced := if i.unplaced.contains r.kh then i.unplaced else i.unplaced ++ [r.kh] }

/-- A record has a new place: its slot follows, and of a pinned key its mirror entry. The old place is released once no lookup
holds it: at once, or when the mirror's move takes effect (R215, R220). -/
def State.moveRecord (s : State) (old : Option DirRec) (r : DirRec) : State :=
  let s := (s.onIdx fun i => { i with dir := dirPut i.dir r }).insertSlot r
  let s := match old with
    | some o => if r.pinned && o.pinned then s.queueMirror (.move r.kh r.key r.loc o.loc o.lines) else s.releaseLoc o.loc
    | none => s
  s.markAgain

/-- Write a record of a key to the Ledger (R215): new staging lines. -/
def State.writeRecord (s : State) (r : DirRec) : State :=
  let (line, s) := s.stageLines r.lines
  (s.putLines line r.bytes).moveRecord (dirFind s.idx.dir r.key) { r with loc := .ledger line }

/-- Remove a key: its record, its slot and its Ledger lines. -/
def State.removeRecord (s : State) (r : DirRec) : State :=
  let s := s.releaseLoc r.loc
  ((s.onIdx fun i => { i with dir := dirRemove i.dir r.key }).tableRemove r.kh r.key).markAgain

/-- The Ledger lines that a commit line names: those of the key's record; of a DIR_REMOVE, and of a record that packing has put
on a directory page, none (R334; the latter a DESIGN CHOICE, log 188). -/
def State.dirLines (s : State) (kind : Nat) (key : Bytes) : Nat × Nat :=
  match if kind = 1 then dirFind s.idx.dir key else none with
  | none => (0, 0)
  | some r => match r.loc with
    | .ledger line => (r.lines, line)
    | .flash _ _ _ => (0, 0)

/-- The commit line of R334 with the owner's usage after the commit (R606). -/
def State.commitLine (s : State) (kind : Nat) (r : DirRec) (version : Nat) (owner : Nat) : State :=
  let (n, line) := s.dirLines kind r.key
  s.journal ⟨0, kind, r.kh, version, some (owner, s.usageOf owner), 0, n, line, []⟩

/-! ## Pins (R86, R221, R228) -/

/-- Pins admitted whose mirror change has not taken effect, by the test of their owner. -/
def State.pinsDue (s : State) (p : Nat → Bool) : Nat :=
  ((s.idx.pending ++ s.idx.waiting).filter fun c => match c with
    | .pin _ key _ _ gone => !gone && ((dirFind s.idx.dir key).map fun r => p r.owner).getD false
    | _ => false).length

/-- Why a pin is refused: the reasons of source 292. Pins admitted before it count (R87). R86 gives no order of the reasons:
set full, quota, mirror is the model's (DESIGN CHOICE, log 149). -/
def State.pinRefusal (s : State) (r : DirRec) (owner : Nat) : Option Nat :=
  if maxPins ≤ s.pinCount + s.pinsDue (fun _ => true) then some 0
  else if (s.tenant owner).pinQuota ≤ (s.usageOf owner).pins + s.pinsDue (· = owner) then some 1
  else if (mirrorInsert s.idx.mirror0 ⟨r.kh, r.key, r.loc⟩).isNone then some 2
  else none

/-- PIN_REFUSED (R86). -/
def State.pinRefused (s : State) (kh : W64) (tag reason : Nat) : State :=
  s.raise 292 (item8 kh.toNat ++ item4 tag ++ item1 reason)

end Sys2Proof.Machine
end

