-- ==== Sys2Proof/Machine/Life.lean ====
section
/-! DEFINITION. The life of a command from its retention entry to its end (R189, R190): access, what orders it
(R175, R181, R187), how it ends, rolls back or leaves an outcome record (R126, R127), and a queue pair's
entry into ERROR (R125 to R127, R131). -/

namespace Sys2Proof.Machine

/-! ## Access -/

/-- A command by number. -/
def State.cmd? (s : State) (n : Nat) : Option Cmd := tget s.sch.cmds n

/-- Change a command. -/
def State.onCmd (s : State) (n : Nat) (f : Cmd → Cmd) : State :=
  s.onSch fun h => { h with cmds := tmod h.cmds n f }

/-- Do something with a command in a given stage; a command not in that stage is left alone (log 2). -/
def State.withCmd (s : State) (n : Nat) (p : Cmd → Bool) (f : Cmd → State) : State :=
  match s.cmd? n with
  | some c => if p c then f c else s
  | none => s

/-- KH of a command's key. -/
def Cmd.kh (c : Cmd) : W64 := keyHash (c.key.getD [])

/-- A command has completed when its entry has been handed to NFE (R173). -/
def Cmd.completed (c : Cmd) : Bool := decide (c.stage = .written)

/-- Outcome decided: nothing more happens to the drive's data. -/
def Cmd.decided (c : Cmd) : Bool := decide (c.stage = .done) || decide (c.stage = .written)

/-- Whether the commands of a context fetched before a command have all completed (R155, R181): commands are numbered
in the order of their acceptance, which submission counts, modulo 2^32, do not keep (R102). -/
def State.earlierDone (s : State) (ctx : Option Nat) (n : Nat) : Bool :=
  s.sch.cmds.all fun e => !(e.2.ctx = ctx && !e.2.orphan && decide (e.1 < n)) || e.2.completed

/-- Commands of a context fetched and not yet completed (R116). -/
def State.outstanding (s : State) (ctx : Nat) : Nat :=
  (s.sch.cmds.filter fun e => e.2.ctx = some ctx && !e.2.orphan && !e.2.completed).length

/-- Writes not yet decided that hold the key hash with a lower version (R175). -/
def State.lowerWrites (s : State) (kh : W64) (version : Nat) : Bool :=
  s.sch.cmds.any fun e => e.2.op.isWrite && e.2.key.isSome && !e.2.decided && !e.2.committed
    && decide (e.2.version < version) && decide (e.2.kh = kh)

/-- A write whose key has not been fetched yet, with a lower version: its key hash is not known. -/
def State.lowerKeyless (s : State) (version : Nat) : Bool :=
  s.sch.cmds.any fun e => e.2.op.isWrite && e.2.key.isNone && !e.2.decided && decide (e.2.version < version)

/-- Writes that wait at the gate of a key hash: what a repair rewrite joins behind (R289). -/
def State.gateWaiters (s : State) (kh : W64) : List Nat :=
  (s.sch.cmds.filter fun e => e.2.op.isWrite && !e.2.decided && decide (e.2.kh = kh)
    && (e.2.stage = .gated || e.2.stage = .forwarded)).map (·.1)

/-- Whether a gate item has reached the front: the writes it joined behind are decided. -/
def State.itemFront (s : State) (g : GateItem) : Bool :=
  g.behind.all fun n => match s.cmd? n with
    | some c => c.decided
    | none => true

/-! ## Peers' queue pairs (R422) -/

/-- The contexts of a peer's queue pairs. -/
def State.peerCtxs (s : State) (peer : Nat) : List Nat :=
  (s.nfe.qps.filter fun e => e.2.conn.peer = some peer).map (·.1)

/-- The ACTIVE context of a peer that messages go by: port A, else port B (R422). -/
def State.peerCtx (s : State) (peer : Nat) : Option Nat :=
  let act := s.nfe.qps.filter fun e => e.2.conn.peer = some peer && e.2.st = .active
  match act.find? fun e => linkPort e.2.conn.link = .a with
  | some e => some e.1
  | none => (act.head?).map (·.1)

/-- The drive's own peer ID (PEER_CFG). -/
def State.selfId (s : State) : Nat := s.fld Reg.PEER_CFG_SELF_ID

/-- Bytes 0 to 123 of a peer message (R423). -/
def msgHead (kind : Nat) (m : PeerMsg) : Bytes :=
  leBytes 1 kind ++ leBytes 1 m.hop ++ leBytes 1 m.depth ++ leBytes 1 m.template ++ leBytes 2 (m.srcPeer % 4096)
    ++ leBytes 2 ((if m.policyBest then 1 else 0) + if m.sealed then 2 else 0)
    ++ leBytes 8 (((m.path.zip [1, 2 ^ 12, 2 ^ 24]).map fun e => e.1 % 4096 * e.2).foldl (· + ·) 0)
    ++ leBytes 8 m.version ++ leBytes 8 m.keyHash.toNat ++ leBytes 1 m.wop ++ leBytes 1 m.variant
    ++ leBytes 2 (m.ownerTenant % 1024) ++ leBytes 1 m.store ++ leBytes 1 m.status ++ leBytes 1 m.copies ++ zeros 1
    ++ leBytes 8 m.offset ++ leBytes 8 m.length ++ leBytes 8 m.bufAddr ++ leBytes 4 m.bufRkey ++ leBytes 2 m.keyLen
    ++ zeros 2 ++ leBytes 4 m.segIndex ++ zeros 4 ++ leBytes 8 m.msgSeq ++ leBytes 8 m.priorVersion ++ zeros 28

/-- MSG_CRC of a message (R146, R423). -/
def msgCrc (kind : Nat) (m : PeerMsg) : W32 := crc32c (msgHead kind m)

/-- The 64 KiB pieces of the data of a message (R424): how many, and the i-th. -/
def pieceCount (data : Bytes) : Nat := (data.length + 65535) / 65536
def pieceAt (data : Bytes) (i : Nat) : Bytes := (data.drop (65536 * i)).take 65536

/-- The AAD of a piece (R424): message bytes 16 to 39, the piece index, SRC_PEER and two zero bytes. -/
def pieceAad (head : Bytes) (srcPeer i : Nat) : Bytes :=
  (head.drop 16).take 24 ++ leBytes 4 i ++ leBytes 2 srcPeer ++ zeros 2

/-- The transit headers and the pieces of a message as the sender's buffer holds them (R424): plain with headers of zeros, or
each piece sealed under a domain slot with its seal word and tag; none when a seal is refused, which is recorded (R303). -/
def State.transitSeal (s : State) (slot : Option Nat) (head data : Bytes) : Option (List Bytes × Bytes) × State :=
  match slot with
  | none => (some ((List.range (pieceCount data)).map fun _ => zeros 32, data), s)
  | some slot => (List.range (pieceCount data)).foldl (fun x i =>
      match x.1 with
      | none => x
      | some (hs, ds) =>
        match x.2.sealBytes slot (x.2.slot slot).gen (pieceAad head s.selfId i) (pieceAt data i) with
        | some ((w, c, tag), s) => (some (hs ++ [w.bytes ++ tag], ds ++ c), s)
        | none => (none, if (x.2.slot slot).st = .loaded then x.2.nonceExhausted slot (x.2.slot slot).epoch else x.2))
      (some ([], []), s)

/-- Open one sealed piece under a domain slot (R424): each drive holds the domain's ROOT in a generation of its own, so the
SERIAL of the seal word is the sender's and is not compared (DEDUCED, log 198). -/
def State.openPiece (s : State) (slot : Nat) (header aad ct : Bytes) : Option Bytes × State :=
  let k := s.slot slot
  let w := parseSealWord (padTo 32 header)
  if k.st = .loaded then
    ((gcmOpen (derivedKey k.root slot w.epoch) (sealIv w.epoch w.counter) aad ct ((padTo 32 header).drop 16)).map (padTo ct.length),
      s.useKey slot k.serial w.epoch)
  else (none, s)

/-- The data of a received message (R424): as it lies in the buffer, or each piece opened under the domain slot of the peer
when the message carries SEALED; none when a tag fails. -/
def State.openPieces (s : State) (peer kind : Nat) (m : PeerMsg) : Option Bytes × State :=
  if m.sealed then
    match tget s.peer.entries peer with
    | none => (none, s)
    | some e => (List.range (pieceCount m.data)).foldl (fun x i =>
        match x.1 with
        | none => x
        | some b =>
          let (p, s) := x.2.openPiece (0x410 + e.domain) (m.headers.getD i []) (pieceAad (msgHead kind m) (m.srcPeer % 4096) i)
            (pieceAt m.data i)
          (p.map (b ++ ·), s)) (some [], s)
  else (some m.data, s)

/-- Whether transit headers to a peer carry seals (R424). -/
def State.sealsTransit (s : State) (peer : Nat) : Bool := ((tget s.peer.entries peer).map (·.sealTransit)).getD false

/-- The domain slot that seals what goes to a peer, if it is sealed. -/
def State.transitSlot (s : State) (peer : Nat) : Option Nat :=
  (tget s.peer.entries peer).bind fun e => if e.sealTransit then some (0x410 + e.domain) else none

/-- Why data of some length cannot be sealed for transit to a peer, if it cannot: the domain slot holds no key (R326), or too
few counter values are left (R303, R424). -/
def State.transitBar (s : State) (peer len : Nat) : Option Status :=
  match tget s.peer.entries peer with
  | none => none
  | some e =>
    let k := s.slot (0x410 + e.domain)
    if !e.sealTransit || decide (len = 0) then none
    else if k.st ≠ .loaded then some .keyErased
    else if counterEnd < k.counter + (len + 65535) / 65536 then some .nonceExhausted
    else none

/-- A seal for transit is refused for want of counter values (R303): recorded with the domain slot. -/
def State.transitRefused (s : State) (peer : Nat) : State :=
  match tget s.peer.entries peer with
  | none => s
  | some e => s.nonceExhausted (0x410 + e.domain) (s.slot (0x410 + e.domain)).epoch

/-- A message as a queue pair carries it (R423): the drive's own ID, the message count, the buffer of what it names, and
whether its headers carry seals. -/
def State.addressed (s : State) (ctx peer seq : Nat) (m : PeerMsg) : PeerMsg :=
  let full := !(m.key.isEmpty && m.data.isEmpty)
  { m with
    ctx := ctx, srcPeer := s.selfId, msgSeq := seq, sealed := s.sealsTransit peer
    bufAddr := if full then Config.peerBufAddr ctx seq else 0
    bufRkey := if full then Config.peerBufRkey ctx seq else 0 }

/-- The next message of a queue pair: its MSG_SEQ is counted (R423). -/
def State.nextMsg (s : State) (ctx peer : Nat) (m : PeerMsg) : PeerMsg × State :=
  let seq := ((tget s.nfe.qps ctx).map (·.msgSeq)).getD 0 + 1
  (s.addressed ctx peer seq m, s.onNfe fun n => { n with qps := tmod n.qps ctx fun q => { q with msgSeq := seq } })

/-- A message goes out with its MSG_CRC (R423). -/
def State.sendMsg (s : State) (ctx kind : Nat) (m : PeerMsg) : State :=
  s.send (.peerMsg ctx kind { m with crc := msgCrc kind m })

/-- Send a peer message on the queue pair R422 names, its data with transit headers (R424); nothing when none is ACTIVE, or
when its data cannot be sealed for transit (R303; DEDUCED, log 161). -/
def State.sendPeer (s : State) (peer kind : Nat) (m : PeerMsg) : State :=
  match s.peerCtx peer with
  | none => s
  | some ctx =>
    let (m, s) := s.nextMsg ctx peer m
    match s.transitSeal (s.transitSlot peer) (msgHead kind m) m.data with
    | (some (hs, ds), s) => s.sendMsg ctx kind { m with headers := hs, data := ds }
    | (none, s) => s

/-! ## Reads hold superblocks (R179) -/

/-- Take or give back the holds on superblocks. -/
def State.takeHolds (s : State) (sbs : List Nat) : State :=
  s.onFtl fun t => { t with holds := sbs.foldl (fun h b => tset h b ((tget h b).getD 0 + 1)) t.holds }

def State.giveHolds (s : State) (sbs : List Nat) : State :=
  s.onFtl fun t => { t with holds := sbs.foldl (fun h b =>
    let n := (tget h b).getD 0
    if n ≤ 1 then tdel h b else tset h b (n - 1)) t.holds }

/-- Free the skeins that were kept only by a hold (R371). -/
def State.freeDeadSkeins (s : State) : State :=
  ((s.ftl.skeins.filter fun e => e.2.liveUnits = 0).map (·.1)).foldl State.freeSkein s

/-- A command gives up what its reads held. -/
def State.dropHolds (s : State) (n : Nat) : State :=
  match s.cmd? n with
  | none => s
  | some c =>
    if c.holds.isEmpty then s
    else ((s.giveHolds c.holds).onCmd n fun c => { c with holds := [] }).freeDeadSkeins

/-! ## Ends -/

/-- Give up the segments and map pages that a write stored and does not commit (R283, R333). -/
def State.releaseWork (s : State) (c : Cmd) : State :=
  let s := c.work.foldl (fun s e => match e.2 with
    | .writing g | .durable g => s.releaseSeg g
    | _ => s) s
  match c.maps with
  | none => s
  | some m => m.foldl (fun s e => match e.2 with
    | .ledger _ => s
    | .flash k b u => s.releaseLoc (.flash k b u)) s

/-- The outcome record of a write (R127). -/
def Cmd.record (c : Cmd) (o : Outcome) (holding : Bool) : OutcomeRec :=
  ⟨c.session, c.tenant, c.desc.tag, c.op.code, c.kh, o.status, o.version, o.validBytes, holding⟩

/-- Whether commands of a context still run after its ERROR. -/
def State.orphans (s : State) (ctx : Nat) : Bool :=
  s.sch.cmds.any fun e => e.2.orphan && e.2.ctx = some ctx

/-- A context becomes FREE: held doorbells of it are dropped, and it leaves the cache. -/
def State.freeCtx (s : State) (ctx : Nat) : State :=
  s.onNfe fun n => { n with
    qps := tdel n.qps ctx, heldDoorbells := n.heldDoorbells.filter fun h => h.1 ≠ ctx, ctxCache := n.ctxCache.filter (· ≠ ctx) }

/-- QPM uses a context: it is the most recently used of the 2,048 cached ones (R34); which one a new one replaces the spec
does not say (DESIGN CHOICE, log 176). -/
def State.touchCtx (s : State) (ctx : Nat) : State :=
  s.onNfe fun n => { n with ctxCache := (ctx :: n.ctxCache.filter (· ≠ ctx)).take 2048 }

/-- After ERROR, a DREQ of the client is answered and the context freed once the outcome records of its
commands are written (R131). -/
def State.settleError (s : State) (ctx : Nat) : State :=
  match tget s.nfe.qps ctx with
  | some q => if q.st = .error ∧ q.dreq ∧ ¬ s.orphans ctx then (s.send (.cmDrep ctx)).freeCtx ctx else s
  | none => s

/-- Retention entries in use (R189): commands, chain writes (R431) and outcome records; a peer's repair request
takes none. A write that runs on after its queue pair entered ERROR keeps its entry until it ends (R126, R127; DEDUCED, log
153). -/
def State.retained (s : State) : Nat :=
  (s.sch.cmds.filter fun e => e.2.ctx.isSome || e.2.op.isWrite).length + s.sch.outcomes.length

/-- Whether a free retention entry may be used at a class: 65,536 are for EXPRESS (R189). EXPRESS commands take the other
entries first (DESIGN CHOICE, log 154). -/
def State.retentionFree (s : State) (c : SvcClass) : Bool :=
  decide (s.retained < (if c = .express then 1048576 else 983040))

/-! ## The intake of chain writes (R431, R436) -/

/-- The opcode of a chain write. -/
def msgOp (m : PeerMsg) : Opcode := (Opcode.ofCode m.wop).getD .put

/-- The class of the retention entry of a chain write (R431). -/
def msgClass (m : PeerMsg) : SvcClass := (m.cls.map SvcClass.ofCode).getD .normal

/-- The treatment that a chain write carries, under which the successor stores it (R431). The message holds no RULE_TAG: 0
stands for it (R86; DESIGN CHOICE, log 148). -/
def msgAction (m : PeerMsg) : Action :=
  { owner := m.ownerTenant % 1024, rights := 15, classCeil := m.store % 4, parityP := bitOf m.store 2,
    allowUnreplicated := bitOf m.store 3, sealIt := bitOf m.store 4, compress := bitOf m.store 5,
    expressPin := bitOf m.store 6, template := m.template, ruleTag := 0 }

/-- A chain write as a descriptor. -/
def msgDesc (m : PeerMsg) : Desc :=
  { opcode := m.wop, phase := false, keyPtr := false, resubmit := false, ordered := false, cls := 0,
    ifVersion := false, e2eCrc := false, estimate := false, tag := 0, variant := m.variant, keyLen := m.keyLen,
    clientCrc := 0, condVersion := 0, offset := m.offset, length := m.length, bufAddr := 0, bufRkey := 0, param0 := 0,
    param1 := 0, keyArea := [] }

/-- The retention entry of what a peer asks for: a chain write with the version that the head assigned (R55, R431),
or a repair request (R439). -/
def peerCmd (m : PeerMsg) (op : Opcode) (cls : SvcClass) : Cmd :=
  { ctx := none, chain := some m, desc := msgDesc m, op := op, tenant := m.ownerTenant % 1024, session := 0,
    count := 0, version := if op.isWrite then m.version else 0, cls := cls, stage := .accepted,
    key := some (padTo m.keyLen m.key), policy := .rule (msgAction m), lookup := .waiting, conds := [],
    expressPath := false, pos := 0, crc := crc32cInit, work := [], ledgerPath := none, slotRef := none,
    committed := false, copies := 0, path := [], outcome := none, cursor := 0, batch := [], counted := 0,
    scanCtx := none, repair := none, waited := false, orphan := false, holds := [], maps := none, buffer := [], replayed := false,
    parked := false, tokens := 0 }

/-- A retention entry for what a peer asks for, and its number. -/
def State.addPeerCmd (s : State) (c : Cmd) : Nat × State :=
  (s.sch.nextCmd, s.onSch fun h => { h with cmds := tset h.cmds h.nextCmd c, nextCmd := h.nextCmd + 1 })

/-- Room in the dedupe table: the oldest acknowledged entry gives way when it is full; none when every entry is in
progress (R436). -/
def dedupeRoom (d : List Dedupe) : Option (List Dedupe) :=
  if d.length < 65536 then some d
  else if d.any fun e => e.ack.isSome then some (d.eraseP fun e => e.ack.isSome) else none

/-- Take a CHAIN_WRITE in: a version that the dedupe table holds is answered from it; any other takes a dedupe entry
and a retention entry; none when it must wait (R189, R431, R436), as it does while SCH is in reset (R26). -/
def State.takeChain (s : State) (m : PeerMsg) : Option State :=
  if s.blockInReset .sch then none
  else match s.peer.dedupe.find? fun e => e.kh = m.keyHash && decide (e.version = m.version) with
  | some e => match e.ack with
    | some (st, copies) => some (s.sendPeer m.srcPeer 2
        { m with status := st, copies := copies, path := [], data := [], key := [] })
    | none => some s
  | none =>
    match dedupeRoom s.peer.dedupe with
    | none => none
    | some d =>
      if s.retentionFree (msgClass m) then
        some (((s.onPeer fun p => { p with dedupe := d ++ [⟨m.keyHash, m.version, none⟩] }).onSch fun h => { h with
          rrIntake := 2 }).addPeerCmd
          (peerCmd m (msgOp m) (msgClass m))).2
      else none

/-- Chain writes that wait at intake go on as entries come free, oldest first. -/
def State.serveIntake (s : State) : State :=
  s.peer.intake.foldl (fun s m =>
    match s.takeChain m with
    | some t => t.onPeer fun p => { p with intake := p.intake.erase m }
    | none => s) s

/-- Free a retention entry: a chain write that waits for one goes on (R431). -/
def State.dropCmd (s : State) (n : Nat) : State := (s.onSch fun h => { h with cmds := tdel h.cmds n }).serveIntake

/-- Whether the original of a resubmitted command still runs (R128): an earlier command of the session and the tenant
with the tag. -/
def State.originalRuns (s : State) (n : Nat) (c : Cmd) : Bool :=
  s.sch.cmds.any fun e => decide (e.1 < n) && e.2.ctx.isSome && !e.2.decided && decide (e.2.session = c.session)
    && decide (e.2.tenant = c.tenant) && decide (e.2.desc.tag = c.desc.tag)

/-- Whether a command is to wait for earlier ones in the retention table, and keeps no entry of SCH's intake queue while it
does: it holds back no other command (R128, R181). -/
def State.parks (s : State) (n : Nat) (c : Cmd) : Bool :=
  (c.desc.ordered && !s.earlierDone c.ctx n) || (c.desc.resubmit && s.originalRuns n c)

/-- A descriptor goes to SCH: it takes an entry of the intake queue, or passes through it to wait (R18, R119). -/
def State.toSch (s : State) (n : Nat) : State :=
  match s.cmd? n with
  | none => s
  | some c =>
    if s.parks n c then s.onCmd n fun c => { c with stage := .accepted, parked := true }
    else (s.sendCredit 0 0 c.cls.code).onCmd n fun c => { c with stage := .accepted }

/-- Staged descriptors go to SCH, the oldest first, while their class has a credit (R119). -/
def State.serveStaged (s : State) : State :=
  (s.sch.cmds.filter fun e => decide (e.2.stage = .staged)).foldl (fun s e =>
    if 0 < (s.pool 0 0 e.2.cls.code).1 then s.toSch e.1 else s) s

/-- A command leaves SCH's intake queue: its credit returns to QPM, and descriptors staged for want of a credit go to SCH
(R18, R119). -/
def State.leaveIntake (s : State) (n : Nat) : State :=
  match s.cmd? n with
  | none => s
  | some c =>
    if c.stage = .accepted ∧ c.ctx.isSome ∧ c.replayed = false ∧ c.parked = false then
      (s.returnCredit 0 0 c.cls.code).serveStaged
    else s

/-- A command that runs on after ERROR has ended: an outcome record for a write, and the entry is free (R127). -/
def State.retireOrphan (s : State) (n : Nat) : State :=
  match s.cmd? n with
  | none => s
  | some c =>
    if c.orphan && c.decided then
      let s := match c.outcome with
        | some o => if c.op.isWrite then
            s.onSch fun h => { h with outcomes := h.outcomes ++ [c.record o true] } else s
        | none => s
      let s := s.dropCmd n
      match c.ctx with
      | some x => s.settleError x
      | none => s
    else s

/-- A peer message with nothing in it but what it answers (R423). -/
def answerMsg (m : PeerMsg) (st : Status) (copies : Nat) : PeerMsg :=
  { m with status := st.code, copies := copies, path := [], data := [], key := [] }

/-- The acknowledgement of a chain write is sent and kept in the dedupe table (R432, R436). -/
def State.sendAck (s : State) (m : PeerMsg) (st : Status) (copies : Nat) : State :=
  (s.onPeer fun p => { p with dedupe := p.dedupe.map fun e =>
    if e.kh = m.keyHash ∧ e.version = m.version then { e with ack := some (st.code, copies) } else e }).sendPeer
      m.srcPeer 2 (answerMsg m st copies)

/-- What PEER asked for has ended: a chain write is acknowledged with its own status, a repair request whose bytes
have not gone out is answered with the status that ended its read; its entry is free (R431, R439). -/
def State.answerPeer (s : State) (n : Nat) : State :=
  match s.cmd? n with
  | none => s
  | some c =>
    match c.ctx, c.chain, c.outcome with
    | none, some m, some o =>
      let s := if c.op.isWrite then s.sendAck m o.status o.result1
        else if c.committed then s
        else s.sendPeer m.srcPeer 5 (answerMsg m o.status 0)
      s.dropCmd n
    | _, _, _ => s

/-- The fields of an outcome that a command's opcode fills whatever the status (R140): VALID_BYTES of a PUT or
WRITE_RANGE is its LENGTH, VERSION of a FLUSH the highest of its queue pair's earlier writes that took effect, RESULT1 of a
SCAN_NEXT the SCAN_HANDLE of the context that it names; a replayed outcome stands as recorded. -/
def Cmd.filled (c : Cmd) (o : Outcome) : Outcome :=
  if o.replayed then o
  else if c.op.readsBuffer then { o with validBytes := c.desc.length }
  else if c.op = .flush then { o with version := c.counted }
  else if c.op = .scanNext then { o with result1 := c.desc.param1 % 2 ^ 32 }
  else o

/-- A command ends with an outcome: its cipher reference and holds are dropped; a write that did not commit
gives up what it stored (R141, R283). -/
def State.endCmd (s : State) (n : Nat) (o : Outcome) : State :=
  match s.cmd? n with
  | none => s
  | some c =>
    if c.decided then s
    else
      let s := s.leaveIntake n
      let s := if o.status = .shed ∧ c.ctx.isSome = true then
          if c.op.isWrite then s.bump Reg.PWR_SHED_CNT_SHED_WRITES else s.bump Reg.PWR_SHED_CNT_SHED_READS
        else s
      let s := if c.op.isWrite && !c.committed then s.releaseWork c else s
      let s := (s.dropRef n).dropHolds n
      let s := s.onVal fun v => { v with
        waitRepair := v.waitRepair.filter (· ≠ n),
        repairs := v.repairs.map fun e => (e.1, { e.2 with readers := e.2.readers.filter (· ≠ n) }) }
      let s := s.onCmd n fun c => { c with
        stage := .done, outcome := some (c.filled o), work := [], maps := none }
      ((s.dropTokens n).settleLimbo.retireOrphan n).answerPeer n

/-- The plain outcome of a status. -/
def Outcome.of (st : Status) : Outcome := ⟨st, 0, 0, 0, false, false⟩

/-- End a command with the highest of the conditions found (R142); `version` is the version held, for
VERSION_CONFLICT (R144). -/
def State.failCmd (s : State) (n : Nat) (version : Nat) : State :=
  match s.cmd? n with
  | none => s
  | some c =>
    let st := reported c.conds
    let s := if st = .e2eCrcMismatch then s.bump Reg.VAL_E2E_STAT_E2E_MISMATCHES else s
    s.endCmd n { Outcome.of st with version := if st = .versionConflict then version else 0 }

/-- Add a condition found. -/
def State.addCond (s : State) (n : Nat) (st : Status) : State :=
  s.onCmd n fun c => { c with conds := c.conds ++ [st] }

/-- Whether a condition ends a write at once: it stands above every condition that the gate decides (R142). -/
def endsAtOnce (conds : List Status) : Bool := conds.any fun st => st.rank < Status.notFound.rank

/-- A command whose value work is over drops its reference unless a job of it still runs on a lane (R318). -/
def State.dropIdleRef (s : State) (n : Nat) : State :=
  match s.cmd? n with
  | none => s
  | some c =>
    if c.stage ≠ .working ∧ (s.cip.running.any fun r => decide (r.2.kind ≠ 2) && decide (r.2.cmd = n)) = false then s.dropRef n
    else s

/-- A condition is found while a write runs: it ends at once, or goes to its gate, where the conditions that
stand higher are decided in version order (R142, R176). A chain write is answered at once (R431). -/
def State.writeFails (s : State) (n : Nat) (st : Status) : State :=
  let s := s.addCond n st
  match s.cmd? n with
  | none => s
  | some c =>
    if endsAtOnce c.conds || c.ctx.isNone then s.failCmd n 0
    else (s.onCmd n fun c => { c with stage := .gated }).dropIdleRef n

/-! ## Versions held -/

/-- The variant that a command names, as the directory stands now. -/
def State.variantNow (s : State) (c : Cmd) : Option Variant :=
  (dirFind s.idx.dir (c.key.getD [])).bind fun r => tget r.variants c.desc.variant

/-- The version that a condition compares with: of the variant, or of the key for DELETE; 0 when absent (R144). -/
def State.heldVersion (s : State) (c : Cmd) : Nat :=
  match c.op with
  | .delete => ((dirFind s.idx.dir (c.key.getD [])).map DirRec.version).getD 0
  | _ => ((s.variantNow c).map (·.version)).getD 0

/-! ## Queue pairs in ERROR (R125 to R127) -/

/-- Whether a write still needs bytes from the client (R126). -/
def Cmd.needsBytes (c : Cmd) : Bool :=
  c.key.isNone || (c.op.readsBuffer && decide (c.pos < c.desc.length)
    && decide (c.stage ≠ .gated) && decide (c.stage ≠ .forwarded))

/-- Admin opcodes that move bytes by their queue pair (R168). -/
def Opcode.adminTransfers : Opcode → Bool
  | .sessionOpen | .sessionBlock | .attest | .recRead | .identify => true
  | _ => false

/-- Whether a command runs on, or has an outcome still to be recorded, after ERROR of its queue pair (R126, R127). -/
def Cmd.runsOn (c : Cmd) : Bool :=
  c.decided || (if c.op.isWrite then !c.needsBytes
    else match c.op with
      | .get | .head | .scan | .scanNext => false
      | _ => !(c.op.adminTransfers || (c.op.usesKeyArea && c.key.isNone)))

/-- What ERROR of its queue pair does to one command (R126, R127): one that runs on is marked before; one whose outcome is
decided leaves its record, and every other ends. -/
def State.cmdOnError (s : State) (n : Nat) : State :=
  match s.cmd? n with
  | none => s
  | some c => if c.orphan then s.retireOrphan n else (s.endCmd n (Outcome.of .abortedReset)).dropCmd n

/-! ## Peers' live states (R422) -/

/-- The live state of a peer. -/
def State.peerLive (s : State) (peer : Nat) : PeerLive := (tget s.peer.live peer).getD .down

/-- Set the live state of a peer; a DOWN peer is not listed. -/
def State.setLive (s : State) (peer : Nat) (l : PeerLive) : State :=
  s.onPeer fun p => { p with live := if l = .down then tdel p.live peer else tset p.live peer l }

/-- A peer goes DOWN: PEER_DOWN when it was UP (R422). -/
def State.peerDown (s : State) (peer : Nat) : State :=
  let was := s.peerLive peer
  let s := s.setLive peer .down
  if was = .up then s.raise 1024 (item2 peer) else s

/-- A peer without an ACTIVE queue pair is DOWN (R422). -/
def State.peerCheck (s : State) (peer : Nat) : State :=
  if s.peerLive peer = .up ∧ s.peerCtx peer = none then s.peerDown peer else s

/-- A queue pair in ACTIVE or DRAINING enters ERROR with a cause: fetching stops, a DREQ carries the cause and
the final head, its commands are handled under R126, and the scan contexts and halves of stopped scans are let go. -/
def State.qpError (s : State) (ctx cause : Nat) : State :=
  match tget s.nfe.qps ctx with
  | none => s
  | some q =>
    if q.st = .active ∨ q.st = .draining then
      let s := s.onNfe fun n => { n with qps := tset n.qps ctx { q with
        st := .error, cause := cause, fetching := 0, phaseWait := false } }
      let s := s.send (.cmDreq ctx cause q.head)
      let mine := (s.sch.cmds.filter fun e => e.2.ctx = some ctx).map (·.1)
      let s := s.onSch fun h => { h with
        cmds := h.cmds.map fun e =>
          if e.2.ctx = some ctx && e.2.runsOn then (e.1, { e.2 with orphan := true }) else e }
      let s := mine.foldl State.cmdOnError s
      let gone (x : ScanCtx) := x.busy.isSome && (x.busy.bind s.cmd?).isNone
      let s := ((s.mch.contexts.filter fun e => gone e.2).map (·.1)).foldl State.endHalves (s.onMch fun m => { m with
        contexts := m.contexts.map fun e => (e.1, if gone e.2 then { e.2 with busy := none } else e.2),
        waitCtx := m.waitCtx.filter fun n => (s.cmd? n).isSome })
      let s := match q.conn.peer with
        | some p => s.peerCheck p
        | none => s
      if q.dreq then s.settleError ctx else s
    else s

/-- A CONNECTING context returns to FREE (R99). -/
def State.freeConnecting (s : State) (ctx : Nat) : State :=
  match tget s.nfe.qps ctx with
  | some q => if q.st = .connecting then s.freeCtx ctx else s
  | none => s

end Sys2Proof.Machine
end

