-- ==== Sys2Proof/Machine/Match.lean ====
section
/-! DEFINITION. The match engine's rule arrays (R230 to R255): positions, search words, entries with their
checks, searches with repair from the shadow, loads and shifts; and the automaton halves of scans (R260 to
R264). -/

namespace Sys2Proof.Machine

/-! ## Positions (R231 to R233) -/

/-- Positions of the cascade mode. -/
def State.rulePositions (s : State) : Nat := 524288 / s.ruleSegs

/-- The level of a position. -/
def levelOf (p : Nat) : Nat := p / 131072

/-- The bank of a position within its level. -/
def bankOf (p : Nat) : Nat := p / 4096 % 32

/-- The lowest die of a level, where the position's action lies (R231). -/
def State.dieOf (s : State) (p : Nat) : Nat := levelOf p * s.ruleSegs

/-- The position whose entry no search sees: the shift cursor's, while a shift runs (R247). -/
def State.atCursor (s : State) (p : Nat) : Bool :=
  match s.mch.shift with
  | some h => decide (h.cursor = p)
  | none => false

/-- VALID_ENTRIES, in units of 320-bit segments: each rule of a block that shifts counts once. -/
def State.validEntries (s : State) : Nat := (s.mch.rules.filter fun e => !s.atCursor e.1).length * s.ruleSegs

/-! ## The search word (R234, R235) -/

/-- The nine bits of key byte `i`: PRESENT and the data, or nine zeros beyond the key. -/
def wordByte (key : Bytes) (i : Nat) : Nat := if i < key.length then 256 + (key.getD i 0).toNat else 0

/-- Segment 0 of a search word. -/
def wordSeg0 (tenant epoch : Nat) (key : Bytes) : BitVec 320 :=
  BitVec.ofNat 320 (tenant % 1024 * 2 ^ 310 + epoch % 16 * 2 ^ 306
    + ((List.range 34).map fun i => wordByte key i * 2 ^ (297 - 9 * i)).foldl (· + ·) 0)

/-- Segment `k + 1` of a search word. -/
def wordSegNext (key : Bytes) (k : Nat) : BitVec 320 :=
  BitVec.ofNat 320 (((List.range 35).map fun j => wordByte key (34 + 35 * k + j) * 2 ^ (311 - 9 * j)).foldl
    (· + ·) 0)

/-- The search word of a policy search in the cascade mode, with the current epoch (R234, R245). -/
def State.searchWord (s : State) (tenant : Nat) (key : Bytes) : List (BitVec 320) :=
  wordSeg0 tenant (s.fld Reg.MCH_STATUS_EPOCH) key :: (List.range (s.ruleSegs - 1)).map (wordSegNext key)

/-! ## Entries (R236 to R238) -/

/-- The 16-bit CHECK of R238. -/
def segCheck (value mask : BitVec 320) : BitVec 16 :=
  (List.range 20).foldl (fun c i => c ^^^ ((value >>> (16 * i)).truncate 16) ^^^ ((mask >>> (16 * i)).truncate 16)) 0

/-- What one bit of an action adds to its check: never zero, so that every single-bit error shows (R254). -/
def actionBit (i : Nat) : Byte := if Config.actionColumn i = 0 then 1 else Config.actionColumn i

/-- The 8-bit check over an action, whose code the spec does not give: a linear code that finds every single-bit error
(R238, R254; DESIGN CHOICE, log 18). -/
def actionSum (action : Bytes) : Byte :=
  let bits := leNat (action.take 16)
  (List.range 128).foldl (fun c i => if bitOf bits i then c ^^^ actionBit i else c) Config.actionBase

/-- A rule as it is loaded from shadow records, one for each segment (R252, R608): a VALUE bit is stored as 0
where its MASK bit is 0 (R237), and both checks are computed (R238). -/
def ruleOfRecords (segs : Nat) (recs : Bytes) : Rule :=
  let one (i : Nat) : RSeg :=
    let m := BitVec.ofNat 320 (fieldAt recs (96 * i + 40) 40)
    let v := BitVec.ofNat 320 (fieldAt recs (96 * i) 40) &&& m
    ⟨v, m, segCheck v m⟩
  let action := padTo 16 (slice recs 80 16)
  ⟨(List.range segs).map one, action, actionSum action⟩

/-- The shadow records of a rule, its action in the first (R608). -/
def recordsOfRule (r : Rule) : Bytes :=
  (r.segs.zipIdx).flatMap fun (g, i) =>
    leBytes 40 g.value.toNat ++ leBytes 40 g.mask.toNat ++ (if i = 0 then padTo 16 r.action else zeros 16)

/-- Whether the CHECKs of an entry's segments hold. -/
def Rule.checksHold (r : Rule) : Bool := r.segs.all fun g => g.check = segCheck g.value g.mask

/-- Whether the action's check holds. -/
def Rule.actionHolds (r : Rule) : Bool := r.actionCheck = actionSum r.action

/-- Whether every bit of every segment matches (R236). -/
def Rule.matchesWord (r : Rule) (word : List (BitVec 320)) : Bool :=
  (r.segs.zip word).all fun (g, w) => (g.value ^^^ w) &&& g.mask = 0

/-- The entry as a write lays it on the die: an armed swatch inverts the lowest bits of the CHECKs (R540). -/
def Rule.swatched (r : Rule) (bits : Nat) : Rule :=
  { r with segs := r.segs.map fun g => { g with check := g.check ^^^ BitVec.ofNat 16 (2 ^ min bits 16 - 1) } }

/-- Write an entry to its die. -/
def State.dieWrite (s : State) (p : Nat) (r : Rule) : State :=
  let (b, s) := s.swatch 3 p
  s.onMch fun m => { m with rules := tset m.rules p (match b with | some n => r.swatched n | none => r) }

/-- LOAD_GEN rises by one, modulo 128 (R610). -/
def State.loaded (s : State) : State :=
  s.setFld Reg.MCH_STATUS_LOAD_GEN ((s.fld Reg.MCH_STATUS_LOAD_GEN + 1) % 128)

/-- Write a rule: the shadow record first, the die second (R244). -/
def State.putRule (s : State) (p : Nat) (r : Rule) : State :=
  (s.onMch fun m => { m with shadow := tset m.shadow p r }).dieWrite p r

/-- Make a position invalid. -/
def State.dropRule (s : State) (p : Nat) : State :=
  s.onMch fun m => { m with shadow := tdel m.shadow p, rules := tdel m.rules p }

/-- Rewrite an entry from its shadow record: MATCH_ENTRY_REPAIRED (R251). -/
def State.repairRule (s : State) (p : Nat) : State :=
  match tget s.mch.shadow p with
  | none => s
  | some r => ((s.dieWrite p r).raise 320 (item4 p)).bump Reg.MCH_ERR_STAT_CHECK_FIXES

/-! ## Searches (R239, R249, R251) -/

/-- The result of a search. -/
structure Found where
  hit : Option (Nat × Rule)
  multi : Bool
deriving DecidableEq, Repr

/-- Whether a bank of a die takes part: bit 32n + b of the mask. -/
def inMask (mask die bank : Nat) : Bool := bitOf mask (32 * die + bank)

/-- The mask of policy searches and rights checks (R249). -/
def State.policyMask (s : State) : Nat :=
  ((List.range 4).map fun n => s.fld (Reg.MCH_POLICY_MASK_BANKS n) * 2 ^ (32 * n)).foldl (· + ·) 0

/-- Entries in the banks of a mask, whose CHECKs a search tests (R249, R251). -/
def State.checkedRules (s : State) (mask : Nat) : Tbl Rule :=
  s.mch.rules.filter fun e => inMask mask (s.dieOf e.1) (bankOf e.1)

/-- Entries that a search may find: those of the mask's banks without the one at the shift cursor (R247, R249). -/
def State.enabledRules (s : State) (mask : Nat) : Tbl Rule := (s.checkedRules mask).filter fun e => !s.atCursor e.1

/-- One issue of a search from a START position. -/
def searchOnce (rules : Tbl Rule) (word : List (BitVec 320)) (start : Nat) : Found :=
  let hits := rules.filter fun e => decide (start ≤ e.1) && e.2.matchesWord word
  ⟨hits.head?, decide (1 < hits.length)⟩

/-- A search with the repairs of R251: entries whose check fails, and the winner whose action's does, are rewritten from the shadow and the search is
issued again. An entry written while a swatch is armed may fail again, so `fuel` bounds the issues. -/
def State.search (s : State) (word : List (BitVec 320)) (start mask : Nat) : Nat → Found × State
  | 0 => (searchOnce (s.enabledRules mask) word start, s)
  | fuel + 1 =>
    let rules := s.enabledRules mask
    let f := searchOnce rules word start
    let bad := ((s.checkedRules mask).filter fun e => !e.2.checksHold).map (·.1)
    let bad := match f.hit with
      | some (p, r) => if r.actionHolds || bad.contains p then bad else bad ++ [p]
      | none => bad
    if bad.isEmpty then (f, s) else (bad.foldl State.repairRule s).search word start mask fuel

/-- Issues that a search may need: a swatch spoils at most COUNT rewrites. -/
def State.searchFuel (s : State) : Nat := s.fld Reg.FLT_SWATCH_CTL_COUNT + 3

/-- Whether an EXPRESS command waits at a unit for what a test names (R23). -/
def State.expressWaits (s : State) (p : Cmd → Bool) : Bool :=
  s.sch.cmds.any fun e => decide (e.2.cls = .express) && decide (e.2.stage = .started) && !e.2.decided && p e.2

/-- MCH's search pointer after a grant to a requester: 0 policy searches, 1 rights checks, 2 RULE_SEARCH, 3 scrub reads
(R24, R241); an EXPRESS search goes by R23 and leaves it. -/
def State.grantSearch (s : State) (express : Bool) (requester : Nat) : State :=
  if express then s else s.onMch fun m => { m with rrSearch := (requester + 1) % 4 }

/-- Whether MCH takes a search of a requester next (R23, R24, R241): EXPRESS searches first; else by the pointer among the
requesters that wait, which are policy searches of started commands, the RULE_SEARCH directives issued, and itself. -/
def State.searchTurn (s : State) (express : Bool) (requester : Nat) : Bool :=
  express || (!s.expressWaits Cmd.searches && decide (roundRobin s.mch.rrSearch (requester
    :: (if s.sch.cmds.any fun e => decide (e.2.stage = .started) && !e.2.decided && e.2.searches then [0] else [])
    ++ if (s.ring 1).issued.any fun i => decide (i.code = 4) then [2] else []) = some requester))

/-- Dies whose MATCH_IN parity failed in successive issues of a search; MATCH_IN of MD0 is inactive (R230, R255). -/
def parityDies (parity : List Nat) : List Nat := parity.filter fun n => decide (1 ≤ n) && decide (n ≤ 3)

/-- MATCH_CASCADE when the parity failed twice in a row, with the die of the second failure (R255, R265). -/
def State.matchParity (s : State) (parity : List Nat) : State :=
  match parityDies parity with
  | _ :: n :: _ => s.raise 323 (item1 n)
  | _ => s

/-- A policy search or a rights check: the action of the lowest matching rule (R70, R239). -/
def State.policyOf (s : State) (tenant : Nat) (key : Bytes) : Policy × State :=
  let (f, s) := s.search (s.searchWord tenant key) 0 s.policyMask s.searchFuel
  (match f.hit with
    | some (_, r) => .rule (parseAction r.action)
    | none => .noRule, s)

/-! ## Shifts (R246 to R248) -/

/-- Whether RULE_INSERT at p with block end q is allowed: q at least p − 1, the block and position q + 1 within
one level of the mode, and q + 1 invalid. `q1` is q + 1. -/
def State.mayInsert (s : State) (p q1 : Nat) : Bool :=
  decide (p ≤ q1) && decide (q1 < s.rulePositions) && decide (levelOf p = levelOf q1)
    && (tget s.mch.rules q1).isNone

/-- Copy the entries of positions lo to hi − 1 down one place, the last first; what stood at hi goes, and the entry at lo
stays where it is as well. -/
def shiftTable (t : Tbl Rule) (lo hi : Nat) : Tbl Rule :=
  (t.filter fun e => decide (e.1 ≤ lo) && decide (e.1 < hi))
    ++ ((t.filter fun e => decide (lo ≤ e.1) && decide (e.1 < hi)).map fun e => (e.1 + 1, e.2))
    ++ t.filter fun e => decide (hi < e.1)

/-- Some moves of a shift: the shadow records first, then the dies, each moved entry written as its shadow record holds
it; the cursor and the progress mark go with them (R246, R247). -/
def State.moveShift (s : State) (h : Shift) (moves : Nat) : State :=
  let lo := max h.p (h.cursor - moves)
  let s := s.onMch fun m => { m with
    shadow := shiftTable m.shadow lo h.cursor, rules := shiftTable m.rules lo h.cursor, shift := some { h with cursor := lo } }
  let moved := (s.mch.shadow.filter fun e => decide (lo < e.1) && decide (e.1 ≤ h.cursor)).reverse
  if lo < h.cursor then moved.foldl (fun s e => s.dieWrite e.1 e.2) s else s

/-- Finish a shift from its progress mark: the moves that are left, then the new entry at p (R246, R255). -/
def State.finishShift (s : State) (h : Shift) : State :=
  ((s.moveShift h (h.cursor - h.p)).putRule h.p h.rule).onMch fun m => { m with shift := none }

/-- The moves that a shift has made by a time, one per 2 FCLK after the first 72 (R246). -/
def Shift.due (h : Shift) (time : Nat) : Nat := (time - h.begun) * 6 / 10 - 36

/-- A shift goes on as time passes. -/
def State.shiftTick (s : State) : State :=
  match s.mch.shift with
  | some h => if h.q - h.cursor < h.due s.flt.time ∧ h.p < h.cursor then s.moveShift h (h.due s.flt.time - (h.q - h.cursor)) else s
  | none => s

/-- Reload the dies from the shadow records (R255): a shift record is finished first; LOAD_GEN rises. -/
def State.reloadRules (s : State) : State :=
  let s := match s.mch.shift with
    | some h => s.finishShift h
    | none => s
  (s.mch.shadow.foldl (fun s e => s.dieWrite e.1 e.2) (s.onMch fun m => { m with rules := [] })).loaded

end Sys2Proof.Machine
end

