-- ==== Sys2Proof/Machine/PeerLink.lean ====
section
/-! DEFINITION. Linking to peers (R419 to R422, R613): entries, proofs, the peer CM exchange on both sides, and
sending peer messages (R423). -/

namespace Sys2Proof.Machine

/-- A peer's entry when it is ENABLED and not the drive itself (R419, R420). -/
def State.peerEnabled (s : State) (peer : Nat) : Option PeerEntry :=
  if peer = s.selfId then none
  else match tget s.peer.entries peer with
    | some e => if e.pstate = 1 then some e else none
    | none => none

/-- The slot of a peer domain's link key (R419). -/
def domainSlot (domain : Nat) : Nat := 0x410 + domain

/-- The ROOT of a domain slot, if it is LOADED. -/
def State.domainRoot (s : State) (domain : Nat) : Option Bytes :=
  let k := s.slot (domainSlot domain)
  if k.st = .loaded then some k.root else none

/-- Peers with at least one peer queue pair. -/
def State.peersLinked (s : State) : List Nat :=
  (s.nfe.qps.filterMap fun e => e.2.conn.peer).eraseDups

/-- The lowest free context in a range: R98 does not say which free one an admitted REQ gets (DESIGN CHOICE, log 151). -/
def State.freeContext (s : State) (first n : Nat) : Option Nat :=
  ((List.range n).find? fun i => (tget s.nfe.qps (first + i)).isNone).map (first + ·)

/-- A free context among contexts that are mostly in use is looked for only as far as it must be. -/
def State.freeContextIn (s : State) (first n : Nat) : Option Nat :=
  s.freeContext first (min n (s.nfe.qps.length + 1))

/-- The next QGEN of a context, kept across resets (R100): one checkpoint line. -/
def State.nextQgen (s : State) (ctx : Nat) : Nat × State :=
  let g := ((tget s.ldg.kept.qgens ctx).getD 0 + 1) % 65536
  (g, (s.onKept fun k => { k with qgens := tset k.qgens ctx g }).keepMeta 1 ctx 1)

/-- The line rate of a link in Mb/s (R135). -/
def State.lineRate (s : State) (l : Link) : Nat :=
  let split := match linkPort l with
    | .a => s.fld Reg.NFE_LINK_CFG_SPLIT_A
    | .b => s.fld Reg.NFE_LINK_CFG_SPLIT_B
  if split = 1 then 400000 else 800000

/-- The congestion state when a queue pair becomes ACTIVE: its timer starts (R135). -/
def State.ccStart (s : State) (l : Link) : CcState := ⟨s.lineRate l, s.lineRate l, 1, 0, s.flt.time⟩

/-- The UDP source port of a context's packets (R91). -/
def udpPortOf (ctx : Nat) : Nat := 0xC000 + Config.qpnHash ctx % 2 ^ 14

/-- ACK_TIMEOUT (R93): 8 to 20; a value outside acts as the nearer bound (DESIGN CHOICE, log 13). -/
def State.ackTimeout (s : State) : Nat := max 8 (min 20 (s.fld Reg.NFE_TRANSPORT_CFG_ACK_TIMEOUT))

/-- MAX_PMTU in bytes: the reserved value 3 acts as 2 (DESIGN CHOICE, log 13). -/
def State.maxPmtu (s : State) : Nat :=
  match s.fld Reg.NFE_TRANSPORT_CFG_MAX_PMTU with
  | 0 => 1024 | 1 => 2048 | _ => 4096

/-- The connection of a context made from a REQ (R94, R93, R91). MAX_OUTSTANDING is granted as requested: R95 only bounds
it by the request (DESIGN CHOICE, log 152). -/
def State.connOf (s : State) (req : ReqMsg) (peer : Option Nat) (nonce : Bytes) (ctx : Nat) : QpConn :=
  let b := req.raw
  { link := req.link, tenant := if reqAdmin b ∨ peer.isSome then 0 else reqTenant b % 1024, admin := reqAdmin b,
    expressQp := reqExpress b && peer.isNone, notify := if peer.isSome then 0 else reqNotify b,
    ringLog2 := reqRingLog2 b, maxOut := reqMaxOut b, session := reqSession b, clientNonce := reqNonce b,
    driveNonce := nonce, clientQpn := req.clientQpn % 2 ^ 24, coalesceCount := reqCoalCount b,
    coalesceUs := reqCoalUs b, peer := peer, requester := false, reqUid := reqUid b,
    pathMtu := min req.pathMtu s.maxPmtu, ackTimeout := s.ackTimeout,
    retryCnt := s.fld Reg.NFE_TRANSPORT_CFG_RETRY_CNT, rnrRetry := s.fld Reg.NFE_TRANSPORT_CFG_RNR_RETRY,
    sqAddr := reqSqAddr b, sqRkey := reqSqRkey b, cqAddr := reqCqAddr b, cqRkey := reqCqRkey b
    udpPort := udpPortOf ctx }

/-- A context in CONNECTING (R99). -/
def Qp.connecting (qgen : Nat) (c : QpConn) : Qp :=
  { st := .connecting, qgen := qgen, conn := c, head := 0, tail := 0, cqCount := 0, unnotified := 0,
    fetching := 0, phaseTries := 0, phaseWait := false, cause := 0, topVersion := 0, cc := ⟨0, 0, 0, 0, 0⟩,
    lastCnp := none, dreq := false, msgSeq := 0, lastEntry := [], lastClass := .normal, ccPeriod := 0 }

/-- A context becomes ACTIVE: counters at 0, the rate limiter started (R102, R135). -/
def State.activate (s : State) (ctx : Nat) : State :=
  s.onNfe fun n => { n with qps := tmod n.qps ctx fun q => { q with
    st := .active, head := 0, tail := 0, cqCount := 0, cc := s.ccStart q.conn.link, ccPeriod := s.fld Reg.NFE_CC_CFG_TIMER_US } }

/-- Refuse a REQ (R98). -/
def State.reject (s : State) (l : Link) (cause : Nat) : State := s.send (.cmRej l cause)

/-- The input of a peer proof: R96's, with REQ_UID (R421). -/
def peerProofInput (driveNonce clientNonce : Bytes) (requester driveQpn clientQpn : Nat) (session : W64)
    (uid : Bytes) : Bytes :=
  proofInput driveNonce clientNonce requester driveQpn clientQpn session ++ padTo 16 uid

/-- RESP_PROOF and the RTU's PROOF of a peer exchange (R421). -/
def peerReplyProof (root input : Bytes) : Bytes := padTo 32 (kmac256 root (ascii "Pennu peer reply") input 32)
def peerProof (root input : Bytes) : Bytes := padTo 32 (kmac256 root (ascii "Pennu peer") input 32)

/-- PEER_AUTH_FAILED (R421). -/
def State.peerAuthFailed (s : State) (peer : Nat) : State := s.raise 1032 (item2 peer)

/-- Checks 1 and 2 of R98 (R421). -/
def reqMalformed (req : ReqMsg) : Bool := !reqInRange req.raw
def reqPathShort (req : ReqMsg) : Bool := decide (req.pathMtu < 1024)

/-- The responder's answer to a peer REQ (R421): checks 1, 2 and 7 of R98, then the entry and its identity;
a REP with RESP_PROOF in bytes 56 to 87. A REQ of a peer beyond the 2,048 linked is refused with cause 0x04, which R98 gives
a want of contexts: no rule says what answers it (DESIGN CHOICE, log 175). -/
def State.peerRequest (s : State) (req : ReqMsg) : State :=
  let peer := reqTenant req.raw % 4096
  if reqMalformed req then s.reject req.link 0x01
  else if reqPathShort req then s.reject req.link 0x06
  else match s.freeContextIn 16384 4096 with
    | none => s.reject req.link 0x04
    | some ctx =>
      match s.peerEnabled peer with
      | none => s.reject req.link 0x0A
      | some e =>
        match s.domainRoot e.domain with
        | none => s.reject req.link 0x0A
        | some root =>
          if reqUid req.raw ≠ e.uid then (s.reject req.link 0x02).peerAuthFailed peer
          else if 2048 ≤ s.peersLinked.length ∧ ¬ s.peersLinked.contains peer then s.reject req.link 0x04
          else
            let (nonce, s) := s.drawRandom 16
            let (qgen, s) := s.nextQgen ctx
            let conn := s.connOf req (some peer) nonce ctx
            let s := s.onNfe fun n => { n with qps := tset n.qps ctx (Qp.connecting qgen conn) }
            let input := peerProofInput nonce conn.clientNonce (reqTenant req.raw) ctx conn.clientQpn conn.session
              conn.reqUid
            let s := if s.peerLive peer = .up then s else s.setLive peer .linking
            s.send (.cmRep ctx (repBytes qgen conn.maxOut 0 0 req.link nonce driveUid
              ++ peerReplyProof root input))

/-- The REQ of a peer requester (R421): the layout of R94 with PEER set, its own ID and REQ_UID. The ring
fields, which a peer REQ does not use, hold values that pass check 1 (DESIGN CHOICE, log 14). -/
def peerReqBytes (self : Nat) (nonce : Bytes) : Bytes :=
  leBytes 2 0x4E50 ++ leBytes 1 1 ++ leBytes 1 0x80 ++ leBytes 2 self ++ leBytes 1 6 ++ zeros 1 ++ zeros 8
    ++ padTo 16 nonce ++ zeros 8 ++ zeros 4 ++ zeros 4 ++ zeros 8 ++ leBytes 2 1 ++ zeros 4
    ++ driveUid ++ zeros 14

/-- The context of a peer's exchange that this drive began on a port. -/
def State.linkingCtx (s : State) (peer : Nat) (port : Port) : Option Nat :=
  (s.nfe.qps.find? fun e => e.2.conn.peer = some peer && e.2.conn.requester && e.2.st = .connecting
    && linkPort e.2.conn.link = port).map (·.1)

/-- Whether a peer has an ACTIVE queue pair on a port. -/
def State.peerOnPort (s : State) (peer : Nat) (port : Port) : Bool :=
  s.nfe.qps.any fun e => e.2.conn.peer = some peer && e.2.st = .active && linkPort e.2.conn.link = port

/-- Send the REQ of a peer queue pair on a port, in the context of an exchange under way or in a free one, and
read LINKING until the peer is UP (R421, R613). -/
def State.linkPeer (s : State) (peer : Nat) (port : Port) : State :=
  let ctx := match s.linkingCtx peer port with
    | some c => some c
    | none => s.freeContextIn 16384 4096
  match ctx with
  | none => s
  | some ctx =>
    let (nonce, s) := s.drawRandom 16
    let (qgen, s) := s.nextQgen ctx
    let raw := peerReqBytes s.selfId nonce
    let conn := { s.connOf ⟨portLink port, raw, s.maxPmtu, ctx⟩ (some peer) [] ctx with requester := true }
    let s := s.onNfe fun n => { n with qps := tset n.qps ctx (Qp.connecting qgen conn) }
    let s := if s.peerLive peer = .up then s else s.setLive peer .linking
    s.send (.peerReq peer port raw)

/-- A message from a peer on an ACTIVE queue pair: the peer is UP (R422, R613). -/
def State.peerHeard (s : State) (peer : Nat) : State :=
  match s.peerEnabled peer with
  | none => s
  | some _ =>
    if s.peerLive peer = .up then s else (s.setLive peer .up).raise 1025 (item2 peer)

end Sys2Proof.Machine
end

