-- ==== Sys2Proof/Machine/Segments.lean ====
section
/-! DEFINITION. Stored segments (R267 to R285): building, check values, swatches, and the read checks; map pages
(R372 to R374). -/

namespace Sys2Proof.Machine

/-! ## Header and check values (R272, R281) -/

/-- SFLAGS (R272). -/
def Seg.flags (g : Seg) : Nat := (if g.compressed then 1 else 0) + (if g.sealWord.isSome then 2 else 0)

/-- Header bytes 8 to 29. -/
def Seg.middle (g : Seg) : Bytes :=
  padTo 16 g.tag ++ leBytes 2 (g.payload.length - 1) ++ leBytes 2 (g.logicalLen - 1) ++ leBytes 1 g.flags ++ zeros 1

/-- HDR_CRC over header bytes 0 to 29 (R281). -/
def Seg.hdrOf (g : Seg) : BitVec 16 := crc16 0 (leBytes 8 g.segCrc.toNat ++ g.middle)

/-- A segment with both check values computed for a locator (R281). -/
def Seg.close (g : Seg) (loc : W64) : Seg :=
  let g := { g with segCrc := crc64 loc g.payload }
  { g with hdrCrc := g.hdrOf }

/-- The stored form: 32-byte header and payload (R272). -/
def Seg.bytes (g : Seg) : Bytes :=
  leBytes 8 g.segCrc.toNat ++ g.middle ++ leBytes 2 g.hdrCrc.toNat ++ g.payload

/-- Step 2 of R285. -/
def Seg.hdrHolds (g : Seg) : Bool := g.hdrCrc = g.hdrOf

/-- Step 3 of R285, with the locator that the reader expects (R282). -/
def Seg.crcHolds (g : Seg) (loc : W64) : Bool := g.segCrc = crc64 loc g.payload

/-- A stored segment from its bytes, as a copy at the place of `old`. -/
def parseSeg (raw : Bytes) (old : Seg) : Seg :=
  let flags := fieldAt raw 28 1
  { old with
    segCrc := BitVec.ofNat 64 (fieldAt raw 0 8), tag := slice raw 8 16, logicalLen := fieldAt raw 26 2 + 1,
    compressed := bitOf flags 0, hdrCrc := BitVec.ofNat 16 (fieldAt raw 30 2),
    payload := slice raw 32 (fieldAt raw 24 2 + 1) }

/-- Step 5 of R285: the logical bytes of an opened payload (R278). -/
def Seg.decode (g : Seg) (payload : Bytes) : Option Bytes :=
  if g.compressed then inflate payload g.logicalLen
  else some (padTo g.logicalLen payload)

/-- The AAD of a segment (R307). -/
def Seg.aad (g : Seg) (kh : W64) (variant owner i : Nat) : Bytes :=
  segAad variant owner i kh g.logicalLen g.compressed

/-! ## Building (R271, R275 to R277) -/

/-- MIN_COMPRESS: values below 64 act as 64. -/
def State.minCompress (s : State) : Nat := max 64 (s.fld Reg.VAL_CFG_MIN_COMPRESS)

/-- The payload of a segment's logical bytes: probed and compressed, or raw (R275, R277). -/
def State.pack (s : State) (compress : Bool) (b : Bytes) : Bytes × Bool × State :=
  if !compress || decide (b.length < s.minCompress) then (b, false, s)
  else
    let n := min 4096 b.length
    let m := Config.probeSize (b.take n)
    let c := Config.compress b
    if 100 * n < 105 * m then (b, false, s.bump Reg.VAL_COMP_STAT_RAW_BY_PROBE)
    else if decide (b.length ≤ c.length) || decide (inflate c b.length ≠ some b) then (b, false, s.bump Reg.VAL_COMP_STAT_RAW_BY_RESULT)
    else (c, true, s)

/-- A segment before its seal and its check values. -/
def Seg.raw (payload : Bytes) (logicalLen : Nat) (compressed parityP : Bool) : Seg :=
  ⟨payload, logicalLen, compressed, zeros 16, 0, 0, none, .ledger 0, parityP, false⟩

/-! ## Swatch of check values (R293) -/

/-- A segment as it is written at its own location: an armed VAL_SWATCH inverts a check value and counts. -/
def State.valSwatch (s : State) (g : Seg) : Seg × State :=
  if s.fld Reg.VAL_SWATCH_ARM = 1 ∧ 0 < s.fld Reg.VAL_SWATCH_COUNT then
    let target := s.fld Reg.VAL_SWATCH_TARGET
    let left := s.fld Reg.VAL_SWATCH_COUNT - 1
    let s := s.setFld Reg.VAL_SWATCH_COUNT left
    let s := if left = 0 then s.setFld Reg.VAL_SWATCH_ARM 0 else s
    let g := if target = 0 then
        let g := { g with segCrc := ~~~g.segCrc }
        { g with hdrCrc := g.hdrOf }
      else { g with hdrCrc := ~~~g.hdrCrc }
    (g, s.raise 391 (item8 (locWord g.loc) ++ item1 target))
  else (g, s)

/-- Give a segment a location and write it there under its locator (R280, R388): what an armed swatch inverts is inverted
at that location alone (R293). -/
def State.writeSegAt (s : State) (g : Seg) (loc : Loc) (fold : W64) : Seg × State :=
  let g := { g with loc := loc }
  let (own, s) := s.valSwatch g
  (own, s.putObject loc 3 fold g.bytes own.bytes)

/-! ## Jobs for CIP's lanes (R295 to R297, R313) -/

/-- The command whose job it is; a verify-only job is of none. -/
def CipJob.owner (j : CipJob) : Option Nat := if j.kind = 2 then none else some j.cmd

/-- The cipher jobs that a command waits for: 0 a seal, 1 an open. -/
def Cmd.jobs (c : Cmd) (n : Nat) : List CipJob :=
  if c.stage = .working then
    c.work.filterMap fun e => match e.2 with
      | .sealing g => some ⟨0, n, e.1, g.loc⟩
      | .opening g | .mergeOpen _ g => some ⟨1, n, e.1, g.loc⟩
      | _ => none
  else []

/-- The jobs that wait for a lane, each with whether it is EXPRESS: those of commands that VAL had a credit to send (R18). -/
def State.waitingJobs (s : State) : List (CipJob × Bool) :=
  let cmds : List (CipJob × Bool) :=
    s.sch.cmds.flatMap fun e => ((e.2.jobs e.1).zipIdx.filter fun j => s.reached 5 e.2.runClass.code e.1 j.2).map fun j =>
      (j.1, decide (e.2.runClass = .express))
  let checks : List (CipJob × Bool) :=
    (s.cip.checks.filter fun (k : TagCheck) => !k.ok).map fun k => (⟨2, 0, k.seg, k.old.loc⟩, false)
  (cmds ++ checks).filter fun j => !(s.cip.running.any fun r => decide (r.2 = j.1))

/-- The lowest free lane for a job: a job that runs again takes another lane (R296). -/
def State.laneFor (s : State) (j : CipJob) : Option Nat := s.freeLanes.find? fun l => !(s.cip.rerun.contains (j, l))

/-- The next job to be granted a lane, and the lane: EXPRESS first, then by the round robin of R24 over the requesters
(R297). -/
def State.nextJob (s : State) : Option (CipJob × Bool × Nat) :=
  let js := s.waitingJobs.filterMap fun j => (s.laneFor j.1).map fun l => (j.1, j.2, l)
  match js.find? fun j => j.2.1 with
  | some j => some j
  | none => (roundRobin s.cip.rr (js.map fun j => j.1.kind)).bind fun k => js.find? fun j => decide (j.1.kind = k)

/-- The derived key that a job takes into its lane's key registers: slot, serial, epoch (R300, R325); none when its key is
gone. -/
def State.jobKey (s : State) (j : CipJob) : Option (Nat × Nat × Nat) :=
  let word (g : Seg) := g.sealWord.map fun w => (w.slot, w.serial, w.epoch)
  if j.kind = 2 then (s.cip.checks.find? fun k => decide (k.old.loc = j.loc)).bind fun k => word k.old
  else (tget s.sch.cmds j.cmd).bind fun c => match tget c.work j.seg with
    | some (.opening g) | some (.mergeOpen _ g) => word g
    | _ => c.slotRef.bind fun r => (s.generation r.1 r.2).map fun g => (r.1, g.serial, g.epoch)

/-- A job begins on a lane. -/
def State.startJob (s : State) (j : CipJob) (lane : Nat) : State :=
  let key := s.jobKey j
  s.onCip fun c => { c with
    running := tset c.running lane j, rerun := c.rerun.filter fun r => decide (r.1 ≠ j)
    laneKeys := match key with
      | some k => tset c.laneKeys lane k
      | none => tdel c.laneKeys lane }

/-- Whether a buffer directive is issued at CIP and has no lane yet: requester 3 (R297). -/
def State.bufWaits (s : State) : Bool :=
  s.cip.bufLane.isNone && (s.ring 3).issued.any fun i => decide (i.code = 6) || decide (i.code = 7)

/-- What the lanes are granted to next: a job with its lane, or, when the pointer names requester 3, the buffer directives
(R297). -/
def State.nextGrant (s : State) : Option ((CipJob × Bool × Nat) ⊕ Nat) :=
  match s.nextJob with
  | none => if s.bufWaits then (s.freeLanes.head?).map .inr else none
  | some j =>
    if j.2.1 || !s.bufWaits then some (.inl j)
    else if roundRobin s.cip.rr [j.1.kind, 3] = some 3 then (s.freeLanes.head?).map .inr
    else some (.inl j)

/-- Grant the free lanes while jobs wait; none before RESTORE_DONE (R306). -/
def State.fillLanes (s : State) : Nat → State
  | 0 => s
  | fuel + 1 =>
    if !(s.cip.restoreDone || s.cip.alarm) || s.blockInReset .cip then s
    else
      match s.nextGrant with
      | none => s
      | some (.inl (j, express, lane)) => ((s.startJob j lane).grantCip express j.kind).fillLanes fuel
      | some (.inr lane) => ((s.onCip fun c => { c with bufLane := some lane }).grantCip false 3).fillLanes fuel

/-! ## Read checks (R285) -/

/-- What steps 1 to 3 of R285 find. -/
inductive ReadCheck where
  /-- steps 1 to 3 pass -/
  | clean
  /-- the codewords must first be rebuilt from parity (R399) -/
  | rebuildFirst
  /-- the codewords can be had only from a peer, or not at all -/
  | lost
  /-- HDR_CRC or SEG_CRC fails -/
  | badCheck
deriving DecidableEq, Repr

/-- Whether the staging buffers hold every codeword of a location, so that no page is read (R360, R393). -/
def State.locHeld (s : State) (loc : Loc) : Bool :=
  (s.locWords loc).all fun w => match w with
    | some (sb, q) => (tget (s.sb sb).staged q).isSome
    | none => false

/-- Steps 1 to 3 of R285 for a segment expected at a locator; `ldpcOk` says whether every codeword decoded. -/
def State.checkRead (s : State) (g : Seg) (loc : W64) (ldpcOk : Bool) : ReadCheck :=
  if s.rebuilding g.loc then .rebuildFirst
  else if g.lost || s.lostForGood g.loc then .lost
  else match g.loc with
    | .ledger _ => if g.hdrHolds && g.crcHolds loc then .clean else .badCheck
    | .flash _ _ _ =>
      if s.onVacant g.loc then (if s.vacantCovered g.loc then .rebuildFirst else .lost)
      else if !ldpcOk && !s.locHeld g.loc then (if s.locParity g.loc then .rebuildFirst else .lost)
      else if g.hdrHolds && g.crcHolds loc then .clean else .badCheck

/-- A read that meets more bit errors than can be corrected: of a Ledger object, in copy A of its first line (R329). -/
def State.spoilLine (s : State) (loc : Loc) (good : Bool) : State :=
  match loc with
  | .ledger line => if good then s else s.spoilCopy line false
  | .flash _ _ _ => s

/-! ## Map pages (R372 to R374) -/

/-- Numbers of the map pages that cover some segments of a variant, with the index page (512) above them. -/
def mapPagesOf (n : Nat) (segs : List Nat) : List Nat :=
  let pages := (segs.map (· / 2048)).eraseDups.filter (2048 * · < n)
  pages ++ (if 2048 < n && !pages.isEmpty then [512] else [])

/-- Every map page of a variant. -/
def Variant.allPages (v : Variant) : List Nat :=
  if v.rootKind = 2 then
    let n := segCount v.length
    List.range ((n + 2047) / 2048) ++ (if 2048 < n then [512] else [])
  else []

/-- Release map pages. -/
def State.releaseMaps (s : State) (v : Variant) (pages : List Nat) : State :=
  pages.foldl (fun s j => match tget v.maps j with
    | some loc => s.releaseLoc loc
    | none => s) s

/-- Lines that map pages take on the Ledger. -/
def Variant.mapLines (v : Variant) (pages : List Nat) : Nat := (pages.map v.mapUnits).foldl (· + ·) 0

/-- The value XORed into the initial value of a map page's PAGE_CRC: the locator for its index (R373). -/
def mapFold (kh : W64) (num j : Nat) : W64 := locator kh num (if j = 512 then 2 ^ 21 else 2 ^ 20 + j)

/-- The bytes of map page `j` of a variant, 512 the map index page, with the map pages of a table in place of the variant's
own (R372, R373). -/
def Variant.mapPage (v : Variant) (kh : W64) (num : Nat) (t : Tbl Loc) (j : Nat) : Bytes :=
  let n := segCount v.length
  let entries := if j = 512 then (n + 2047) / 2048 else mapEntries n j
  let segs := (List.range entries).map fun i => tget v.segs (2048 * j + i)
  let locs := if j = 512 then (List.range entries).map fun i => (((tget t i).orElse fun _ => tget v.maps i).map locWord).getD 0
    else segs.map fun g => (g.map fun g => locWord g.loc).getD 0
  let seals := if v.sealed && decide (j ≠ 512) then segs.flatMap fun g => ((g.bind (·.sealWord)).map SealWord.bytes).getD (zeros 16)
    else []
  let body := padTo (64 * v.mapUnits j - 40) (zeros 24 ++ locs.flatMap (leBytes 8) ++ seals)
  leBytes 1 (if j = 512 then 2 else 1) ++ leBytes 1 num ++ leBytes 2 entries ++ leBytes 4 (if j = 512 then 0 else 2048 * j)
    ++ leBytes 8 kh.toNat ++ leBytes 8 v.version ++ leBytes 1 (if seals.isEmpty then 0 else 1) ++ zeros 7
    ++ leBytes 8 (crc64 (mapFold kh num j) body).toNat ++ body

/-- Write a map page at its location. -/
def State.putMap (s : State) (v : Variant) (kh : W64) (num : Nat) (t : Tbl Loc) (j : Nat) (loc : Loc) : State :=
  let b := v.mapPage kh num t j
  s.putObject loc 4 (mapFold kh num j) b b

/-- Place map pages in the META stream (R374). -/
def State.allocMaps (s : State) (v : Variant) (kh : W64) (num : Nat) : List Nat → Tbl Loc → Option (Tbl Loc × State)
  | [], t => some (t, s)
  | j :: rest, t =>
    match s.allocFlash 3 (v.mapUnits j) with
    | some (loc, s) => (s.putMap v kh num t j loc).allocMaps v kh num rest (tset t j loc)
    | none => none

/-- Write map pages to staging lines (R374). -/
def State.stageMaps (s : State) (v : Variant) (kh : W64) (num : Nat) : List Nat → Tbl Loc → Tbl Loc × State
  | [], t => (t, s)
  | j :: rest, t =>
    let (line, s) := s.stageLines (v.mapUnits j)
    (s.putLines line (v.mapPage kh num t j)).stageMaps v kh num rest (tset t j (.ledger line))

end Sys2Proof.Machine
end

