-- ==== Sys2Proof/Machine/Index.lean ====
section
/-! DEFINITION. The index's own work: rebuilds (R224, R225), poisoned buckets (R227), the directives of the
index ring (R228) and the effect of pins and unpins (R85 to R88, R221). -/

namespace Sys2Proof.Machine

/-! ## Rebuild (R224 to R226) -/

/-- Insert a walked record: its slot, and a mirror entry in both copies when it is pinned; in copy 0 as the pending changes of
the key leave it (R220, R225). -/
def State.indexRecord (s : State) (r : DirRec) : State :=
  let s := s.insertSlot r
  let put (t : Tbl (List (Option MEntry))) := (mirrorInsert (mirrorRemove t r.kh r.key) ⟨r.kh, r.key, r.loc⟩).getD t
  if r.pinned then s.onIdx fun i => { i with
      mirror0 := (i.pending.filter fun c => c.key = r.key).foldl (fun t c => c.write t) (put i.mirror0)
      mirror1 := put i.mirror1 }
  else s

/-- Start a rebuild of the table, of the mirror, or of both: what is affected is cleared, and the records on the Ledger are
inserted first (R224, R225). -/
def State.rebuildFrom (s : State) (table mirror : Bool) (ds : List Dir) : State :=
  let s := s.onIdx fun i => { i with
    table := if table then [] else i.table
    mirror0 := if mirror then i.pending.foldl (fun t c => c.write t) [] else i.mirror0
    mirror1 := if mirror then [] else i.mirror1, poison := if table then [] else i.poison
    unplaced := if table then [] else i.unplaced
    rebuilding := true, mark := 0, walked := [], tableReady := i.tableReady && !table, mirrorReady := i.mirrorReady && !mirror
    rebuildDir := i.rebuildDir ++ ds }
  ((s.idx.dir.filter fun r => !pageHeld r).foldl State.indexRecord s).setMark

/-- Start a full rebuild (R224, R225). -/
def State.startRebuild (s : State) (ds : List Dir) : State := s.rebuildFrom true true ds

/-- A codeword of the page at the mark has been read: its records are inserted, and the walk goes on, at the mark's own KH
when a later codeword holds more records of it. -/
def State.walkWord (s : State) (sb q : Nat) : State :=
  if !s.idx.rebuilding then s
  else
    let got := s.unwalked.takeWhile fun r => (s.locWords r.loc).contains (some (sb, q))
    match got.getLast? with
    | none => s
    | some r => ((got.foldl State.indexRecord s).onIdx fun i => { i with
        mark := r.kh.toNat
        walked := (if r.kh.toNat = i.mark then i.walked else [])
          ++ (got.filter fun q => q.kh = r.kh).map (·.key) }).setMark

/-! ## Poisoned buckets (R227) -/

/-- An uncorrectable error hits a table bucket: it enters the poison list; a 257th starts a full rebuild. -/
def State.poisonBucket (s : State) (b : Nat) : State :=
  if s.idx.poison.contains b then s
  else
    let s := s.raise 289 (item4 b)
    if 256 ≤ s.idx.poison.length then s.startRebuild []
    else s.onIdx fun i => { i with poison := i.poison ++ [b] }

/-- A mirror bucket is rebuilt from the other copy, and from the pending table what that copy holds earlier or later
(R220, R227). -/
def State.repairMirror (s : State) (copy b : Nat) : State :=
  (s.onIdx fun i =>
    if copy = 0 then { i with mirror0 := bset i.mirror0 b (bget i.expected0 b) }
    else { i with mirror1 := bset i.mirror1 b (i.before1 b) }).raise 291 (item4 b ++ item1 copy)

/-- What an uncorrectable error in a bucket read by a lookup does: numbers below 2^30 name table buckets, then
follow the 2^22 buckets of mirror copy 0 and those of copy 1. -/
def State.bucketError (s : State) (b : Nat) : State :=
  if b < 2 ^ 30 then s.poisonBucket b
  else s.repairMirror ((b - 2 ^ 30) / 2 ^ 22 % 2) ((b - 2 ^ 30) % 2 ^ 22)

/-! ## Pins (R86, R88, R220, R228) -/

/-- Whether the Ledger admits the lines of a record's rewrite with its commit line (R344). -/
def State.recordLines (s : State) (r : DirRec) : Nat := s.pairLines (r.lines + 1)

/-- Rewrite a key's record with its pin changed, charge the owner, and write the commit line. -/
def State.markPin (s : State) (r : DirRec) (pinned : Bool) : State :=
  let s := s.drawMeta (s.recordLines r)
  let s := s.addUsage r.owner 0 0 (if pinned then 1 else -1)
  (s.writeRecord { r with pinned := pinned }).commitLine 1 r r.version r.owner

/-- Complete a pin directive, if the change came from one. -/
def State.pinDone (s : State) (d : Option Dir) (outcome : Nat) : State :=
  match d with
  | some d => s.finish 0 d esDone (leBytes 1 outcome)
  | none => s

/-- A pin takes effect: both copies hold the entry (R221). -/
def State.pinNow (s : State) (c : MChange) (kh : W64) (key : Bytes) (tag : Nat) (d : Option Dir) (gone : Bool) : State :=
  let s' := s.onIdx fun i => { i with mirror1 := c.write i.mirror1 }
  match if gone then none else dirFind s.idx.dir key with
  | none => s'.pinDone d 1
  | some r =>
    if r.pinned then s'.pinDone d 2
    else if mirrorHas s'.idx.mirror0 kh key && mirrorHas s'.idx.mirror1 kh key then
      let s := s'.markPin r true
      let loc := ((dirFind s.idx.dir key).map (·.loc)).getD r.loc
      (s.onIdx fun i => { i with
        mirror0 := mirrorMove i.mirror0 kh key loc, mirror1 := mirrorMove i.mirror1 kh key loc }).pinDone d 0
    else
      ((s'.onIdx fun i => { i with
        mirror0 := mirrorRemove i.mirror0 kh key, mirror1 := mirrorRemove i.mirror1 kh key }).pinRefused kh tag 2).pinDone d 3

/-- A key's entries leave both copies. -/
def State.unmirror (s : State) (kh : W64) (key : Bytes) : State :=
  s.onIdx fun i => { i with mirror0 := mirrorRemove i.mirror0 kh key, mirror1 := mirrorRemove i.mirror1 kh key }

/-- An unpin takes effect (R228); the key may be gone by then (R435). -/
def State.unpinNow (s : State) (kh : W64) (key : Bytes) (d : Option Dir) : State :=
  let s := s.onIdx fun i => { i with mirror1 := mirrorRemove i.mirror1 kh key }
  match dirFind s.idx.dir key with
  | none => s.pinDone d 1
  | some r => if r.pinned then (s.markPin r false).pinDone d 0 else s.pinDone d 2

/-! ## Directives (R228) -/

/-- UNPIN (R228). -/
def execUnpin (d : Dir) (key : Bytes) (s : State) : Host.Outcome State Fault Refusal :=
  .next (s.setUp 0 d fun s => match dirFind s.idx.dir key with
  | none => s.finish 0 d esDone (leBytes 1 1)
  | some r => if r.pinned then s.queueMirror (.unpin r.kh key (some d)) else s.finish 0 d esDone (leBytes 1 2))

/-- PIN (R228): as if written under a rule with EXPRESS_PIN = 1; a refusal carries RULE_TAG 0. -/
def execPin (d : Dir) (key : Bytes) (s : State) : Host.Outcome State Fault Refusal :=
  .next (s.setUp 0 d fun s => match dirFind s.idx.dir key with
  | none => s.finish 0 d esDone (leBytes 1 1)
  | some r =>
    if r.pinned then s.finish 0 d esDone (leBytes 1 2)
    else match s.pinRefusal r r.owner with
      | some reason => (s.pinRefused r.kh 0 reason).finish 0 d esDone (leBytes 1 3)
      | none => s.queueMirror (.pin r.kh key 0 (some d) false))

/-- REBUILD (R224, R225, R228). -/
def execRebuild (d : Dir) (s : State) : Host.Outcome State Fault Refusal := .next (s.setUp 0 d fun s => s.startRebuild [d])

/-- REPAIR_POISON (R227): every poisoned bucket is rebuilt from the directory: slots of keys that the directory
does not hold go, slots of keys that it holds are written again. -/
def execRepairPoison (d : Dir) (s : State) : Host.Outcome State Fault Refusal :=
  .next (s.setUp 0 d fun s =>
    let bad := s.idx.poison
    let s := s.onIdx fun i => { i with
      poison := [],
      table := bad.foldl (fun t b => bset t b ((bget t b).map fun o => o.bind fun x =>
        (dirFind i.dir x.key).map slotOf)) i.table }
    s.finish 0 d esDone (leBytes 4 bad.length))

/-- A mirror entry as the directory gives it: that of a pinned key, at its record's location. -/
def State.trueEntry (s : State) (e : MEntry) : Option MEntry :=
  match dirFind s.idx.dir e.key with
  | some r => if r.pinned then some { e with loc := r.loc } else none
  | none => none

/-- Two entries of one place as the scrub leaves them: as they are where they agree, else the one that the directory
confirms. -/
def State.scrubEntry (s : State) (a b : Option MEntry) : Option MEntry :=
  if a = b then a else (a.bind s.trueEntry).orElse fun _ => b.bind s.trueEntry

/-- The places of a bucket as the scrub leaves them, in copy 0 and in copy 1, and whether they were found to differ: a place at
which a pending change makes the copies differ is passed over (R220, R228). -/
def State.scrubBucket (s : State) (b : Nat) : List (Option MEntry × Option MEntry × Bool) :=
  List.zipWith (fun x e =>
    if e.1 ≠ e.2 then (x, e.2, false)
    else (s.scrubEntry x e.2, s.scrubEntry x e.2, decide (x ≠ e.2)))
    (bget s.idx.mirror0 b) ((bget s.idx.expected0 b).zip (bget s.idx.mirror1 b))

/-- MIRROR_SCRUB (R228, R229): every entry that differs between the copies, but for a pending change, is rewritten in both
from the directory records; it pauses while shedding stage 1 lasts (R500). -/
def execMirrorScrub (d : Dir) (s : State) : Host.Outcome State Fault Refusal :=
  .next (s.setUp 0 d fun s => guardStep (decide (s.pwr.shed = 0)) s fun s =>
    let bs := ((((s.idx.mirror0.map (·.1)) ++ (s.idx.mirror1.map (·.1))).eraseDups).map fun b => (b, s.scrubBucket b)).filter
      fun e => e.2.any (·.2.2)
    let n := (bs.map fun e => (e.2.filter (·.2.2)).length).foldl (· + ·) 0
    let s := bs.foldl (fun s e => s.onIdx fun i => { i with
      mirror0 := bset i.mirror0 e.1 (e.2.map (·.1)), mirror1 := bset i.mirror1 e.1 (e.2.map (·.2.1)) }) s
    s.finish 0 d esDone (leBytes 4 n))

end Sys2Proof.Machine
end

