-- ==== Sys2Proof/Machine/QueuePairs.lean ====
section
/-! DEFINITION. Client queue pairs (chapter 3): connection set-up, doorbells, fetch and acceptance with the
intake checks, completion entries, congestion control, links and cages. -/

namespace Sys2Proof.Machine

/-! ## Access -/

/-- A context that is not FREE. -/
def State.qp? (s : State) (ctx : Nat) : Option Qp := tget s.nfe.qps ctx

/-- Change a context. -/
def State.onQp (s : State) (ctx : Nat) (f : Qp → Qp) : State :=
  s.onNfe fun n => { n with qps := tmod n.qps ctx f }

/-- Do something with a context that meets a condition; else nothing changes (log 2). -/
def State.withQp (s : State) (ctx : Nat) (p : Qp → Bool) (f : Qp → State) : State :=
  match s.qp? ctx with
  | some q => if p q then f q else s
  | none => s

/-- ACTIVE or DRAINING. -/
def Qp.live (q : Qp) : Bool := decide (q.st = .active) || decide (q.st = .draining)

/-- Whether the drive answers the network: between the end of the start steps and a chip reset. -/
def State.netUp (s : State) : Bool :=
  decide (s.rst.run = .starting) || decide (s.rst.run = .running) || decide (s.rst.run = .prelude)

/-! ## Connection set-up (R94 to R100) -/

/-- Whether a link exists in the port's mode (R89). -/
def State.linkExists (s : State) (l : Link) : Bool :=
  match l with
  | .a1 => decide (s.fld Reg.NFE_LINK_CFG_SPLIT_A = 1)
  | .b1 => decide (s.fld Reg.NFE_LINK_CFG_SPLIT_B = 1)
  | _ => true

/-- Whether the System Image answers a REQ for a data queue pair (R98 check 3, R99, R452, R486). -/
def State.imageServes (s : State) : Bool :=
  !s.pins.imageDown && (decide (s.rst.run = .running)
    || (decide (s.rst.run = .starting) && decide (s.fld Reg.SYS_LOCK_ALL_ALL = 1)))

/-- The admin context of a link's port (R132). -/
def adminCtx (l : Link) : Nat :=
  match linkPort l with
  | .a => 0 | .b => 1

/-- Check 4 of R98. -/
def State.tenantMayConnect (s : State) (b : Bytes) : Bool :=
  if reqAdmin b then decide (reqTenant b = 0) && s.ldg.kept.ownerKey.isSome
  else decide (reqTenant b < 1024) && decide ((s.tenant (reqTenant b)).st ≠ 0)
    && (tget s.sch.secrets (reqTenant b)).isSome

/-- Whether a session is in use by a client queue pair of another tenant (check 6). -/
def State.sessionTaken (s : State) (session : W64) (tenant : Nat) : Bool :=
  s.nfe.qps.any fun e => e.2.conn.peer.isNone && e.2.conn.session = session && decide (e.2.conn.tenant ≠ tenant)

/-- The checks of R98 in their order: the cause of the first failed one, or the context to use. -/
def State.reqCheck (s : State) (req : ReqMsg) : Nat ⊕ Nat :=
  let b := req.raw
  if reqMalformed req then .inl 0x01
  else if reqPathShort req then .inl 0x06
  else if !reqAdmin b && !s.imageServes then .inl 0x07
  else if !s.tenantMayConnect b then .inl 0x03
  else if reqAdmin b && (s.qp? (adminCtx req.link)).isSome then .inl 0x08
  else if s.sessionTaken (reqSession b) (reqTenant b) then .inl 0x09
  else if reqAdmin b then .inr (adminCtx req.link)
  else match s.freeContextIn 2 16382 with
    | some ctx => .inr ctx
    | none => .inl 0x04

/-- The System Image, having set SYS_LOCK_ALL, has answered a data REQ: the hold of kept outcome records
begins (R200). -/
def State.imageAnswered (s : State) (req : ReqMsg) : State :=
  if !reqAdmin req.raw && s.imageServes && decide (s.fld Reg.SYS_LOCK_ALL_ALL = 1) && !s.nfe.answered then
    (s.onNfe fun n => { n with answered := true }).onSch fun h => { h with
      outcomes := h.outcomes.map fun r => { r with holding := true } }
  else s

/-- Admit a REQ into a context: REP with a fresh QGEN and DRIVE_NONCE (R95, R100). The doorbell's address and
key are free values: the spec gives none. -/
def State.admitReq (s : State) (req : ReqMsg) (ctx : Nat) : State :=
  let (nonce, s) := s.drawRandom 16
  let (qgen, s) := s.nextQgen ctx
  let (addr, s) := s.drawNat
  let (rkey, s) := s.drawNat
  let conn := s.connOf req none nonce ctx
  let s := s.onNfe fun n => { n with qps := tset n.qps ctx (Qp.connecting qgen conn) }
  s.send (.cmRep ctx (repBytes qgen conn.maxOut (addr % 2 ^ 61 * 8) rkey req.link nonce driveUid))

/-- Answer a client REQ (R95, R98). -/
def State.clientRequest (s : State) (req : ReqMsg) : State :=
  let s := s.imageAnswered req
  match s.reqCheck req with
  | .inl cause => s.reject req.link cause
  | .inr ctx => s.admitReq req ctx

/-- CM_REQ (R89, R94, R95, R98): a REQ with PEER set goes to the checks of R421; none comes by a link that the port's
mode does not have. -/
def execCmReq (req : ReqMsg) (s : State) : Host.Outcome State Fault Refusal :=
  .next (guardStep (s.netUp && s.linkExists req.link) s fun s =>
    if reqPeer req.raw && !reqAdmin req.raw then s.peerRequest req else s.clientRequest req)

/-- The secret that a connection's PROOF is keyed with (R96, R97). -/
def State.connSecret (s : State) (c : QpConn) : Option Bytes :=
  if c.admin then s.ldg.kept.ownerKey.map adminSecret
  else tget s.sch.secrets c.tenant

/-- The PROOF of R96 for a context; the drive queue-pair number is the context index (DESIGN CHOICE, log 150). -/
def clientProof (secret : Bytes) (ctx : Nat) (c : QpConn) : Bytes :=
  padTo 32 (kmac256 secret (ascii "Pennu connect")
    (proofInput c.driveNonce c.clientNonce c.tenant ctx c.clientQpn c.session) 32)

/-- A failed PROOF: a DREQ with cause AUTH; the context never becomes ACTIVE (R98). -/
def State.proofFailed (s : State) (ctx : Nat) : State :=
  (s.onQp ctx fun q => { q with cause := 2 }).send (.cmDreq ctx 2 0)

/-- CM_RTU (R96, R98): the PROOF decides. -/
def execCmRtu (ctx : Nat) (proof : Bytes) (s : State) : Host.Outcome State Fault Refusal :=
  .next (s.withQp ctx (fun q => decide (q.st = .connecting) && decide (q.cause = 0) && q.conn.peer.isNone) fun q =>
    match s.connSecret q.conn with
    | some k => if clientProof k ctx q.conn = proof.take 32 then s.activate ctx else s.proofFailed ctx
    | none => s.proofFailed ctx)

/-- Free a context and the retention entries whose completions it can no longer see acknowledged. -/
def State.closeCtx (s : State) (ctx : Nat) : State :=
  ((s.onSch fun h => { h with cmds := h.cmds.filter fun e => !(e.2.ctx = some ctx && e.2.completed) }).freeCtx ctx).serveIntake

/-- A DRAINING context with no command left sends its DREP and becomes FREE (R99). -/
def State.settleDrain (s : State) (ctx : Nat) : State :=
  match s.qp? ctx with
  | none => s
  | some q =>
    if q.st = .draining ∧ s.outstanding ctx = 0 then
      let s := (s.send (.cmDrep ctx)).closeCtx ctx
      match q.conn.peer with
      | some p => s.peerCheck p
      | none => s
    else s

/-- CM_DREQ (R99, R131): ACTIVE becomes DRAINING; after ERROR the DREQ is answered once the outcome records are
written. -/
def execCmDreq (ctx : Nat) (s : State) : Host.Outcome State Fault Refusal :=
  .next (match s.qp? ctx with
  | none => s
  | some q =>
    match q.st with
    | .active =>
      let s := s.onQp ctx fun q => { q with st := .draining, fetching := 0, phaseWait := false, dreq := true }
      let s := match q.conn.peer with
        | some p => s.peerCheck p
        | none => s
      s.settleDrain ctx
    | .error => (s.onQp ctx fun q => { q with dreq := true }).settleError ctx
    | _ => s)

/-- CM_DREP (R125): the answer to the drive's DREQ frees a context in ERROR, or one whose PROOF failed. -/
def execCmDrep (ctx : Nat) (s : State) : Host.Outcome State Fault Refusal :=
  .next (s.withQp ctx (fun q => decide (q.st = .error) || (decide (q.st = .connecting) && decide (q.cause ≠ 0)))
    fun _ => s.freeCtx ctx)

/-- CONNECTING_TIMEOUT (R99). -/
def execConnectingTimeout (ctx : Nat) (s : State) : Host.Outcome State Fault Refusal :=
  .next (s.freeConnecting ctx)

/-! ## Doorbells (R111 to R115) -/

/-- QPM checks a doorbell (R113, R115). -/
def State.applyDoorbell (s : State) (ctx : Nat) (raw : Bytes) : State :=
  s.withQp ctx (fun q => decide (q.st = .active)) fun q =>
    let tail := fieldAt raw 0 4
    let size := 2 ^ q.conn.ringLog2
    if fieldAt raw 4 2 ≠ q.qgen then s.bump Reg.QPM_ERR_STAT_QGEN_DROPS
    else if size < (tail + 2 ^ 32 - q.tail) % 2 ^ 32 ∨ size < (tail + 2 ^ 32 - q.head) % 2 ^ 32 then
      s.qpError ctx 0x13
    else (s.onQp ctx fun q => { q with tail := tail }).touchCtx ctx

/-- DOORBELL (R111 to R115, R191): a malformed write is refused at NFE; while QPM is in reset NFE holds the
doorbell. -/
def execDoorbell (ctx arrival : Nat) (aligned : Bool) (raw : Bytes) (s : State) :
    Host.Outcome State Fault Refusal :=
  .next (guardStep s.netUp s fun s =>
    if raw.length ≠ 8 ∨ aligned = false ∨ arrival ≠ ctx then (s.send (.nakAccess arrival)).qpError arrival 0x12
    else if s.blockInReset .qpm then
      s.onNfe fun n => { n with heldDoorbells := n.heldDoorbells ++ [(ctx, raw)] }
    else s.applyDoorbell ctx raw)

/-- UNSUPPORTED_REQUEST (R92). -/
def execUnsupportedRequest (ctx : Nat) (s : State) : Host.Outcome State Fault Refusal :=
  .next (s.withQp ctx (fun _ => true) fun _ => (s.send (.nakInvalid ctx)).qpError ctx 0x15)

/-- REMOTE_ACCESS_NAK (R109, R125). -/
def execRemoteAccessNak (ctx : Nat) (s : State) : Host.Outcome State Fault Refusal := .next (s.qpError ctx 0x12)

/-- TRANSPORT_RETRY_EXHAUSTED (R93, R125). -/
def execTransportRetryExhausted (ctx : Nat) (s : State) : Host.Outcome State Fault Refusal :=
  .next (s.qpError ctx 0x11)

/-- OUTCOME_RECORD_EXPIRY (R127): the record's hold has passed. -/
def execOutcomeRecordExpiry (session tag : Nat) (s : State) : Host.Outcome State Fault Refusal :=
  .next (s.onSch fun h => { h with
    outcomes := h.outcomes.eraseP fun r => r.holding && decide (r.session = BitVec.ofNat 64 session)
      && decide (r.tag = tag) }).serveIntake

/-! ## Fetch (R116, R117) -/

/-- Whether acceptance stops for a context: an activation, a reset drain, or shedding stage 4, through which the
admin queue pairs keep running (R195, R197, R500, R501). -/
def State.fetchStopped (s : State) (q : Qp) : Bool :=
  s.nfe.stopFetch || (s.pwr.shed.getLsbD 3 && !q.conn.admin) || s.blockInReset .qpm

/-- Whether a context may be granted a fetch (R116). -/
def State.mayFetch (s : State) (ctx : Nat) (q : Qp) : Bool :=
  decide (ctx < 16384) && decide (q.st = .active) && decide (q.fetching = 0) && !q.phaseWait
    && decide (q.head ≠ q.tail) && decide (s.outstanding ctx < q.conn.maxOut) && !s.fetchStopped q

/-- Entries of the next fetch (R116): the batch, the credit, the tail and the end of the ring bound it. A
FETCH_BATCH outside 1 to 32 acts as 32 (DESIGN CHOICE, log 16). -/
def State.fetchCount (s : State) (ctx : Nat) (q : Qp) : Nat :=
  let size := 2 ^ q.conn.ringLog2
  min (min (s.fldIn Reg.QPM_FETCH_CFG_FETCH_BATCH 1 32 32) (q.conn.maxOut - s.outstanding ctx))
    (min ((q.tail + 2 ^ 32 - q.head) % 2 ^ 32) (size - q.head % size))

/-- The RDMA READ of some entries from the head on: slot c mod 2^RING_LOG2 of the submission ring, 128 bytes each (R101,
R102). -/
def Qp.fetchFrom (q : Qp) (ctx n : Nat) : Tx :=
  .fetch ctx q.head n (q.conn.sqAddr + 128 * (q.head % 2 ^ q.conn.ringLog2)) q.conn.sqRkey

/-- Grant a fetch to a context. -/
def State.grantFetch (s : State) (ctx : Nat) : State :=
  s.withQp ctx (fun _ => true) fun q =>
    let n := s.fetchCount ctx q
    ((s.onQp ctx fun q => { q with fetching := n }).touchCtx ctx).send (q.fetchFrom ctx n)

/-- The queue pair that QPM fetches for next, and whether it is an EXPRESS one (R117): EXPRESS queue pairs first, then the
others, each group by its own round robin. -/
def State.nextFetch (s : State) : Option (Nat × Bool) :=
  let ready := s.nfe.qps.filter fun e => s.mayFetch e.1 e.2
  let express := (ready.filter fun e => e.2.conn.expressQp).map (·.1)
  let other := (ready.filter fun e => !e.2.conn.expressQp).map (·.1)
  match roundRobin s.nfe.rrExpress express with
  | some ctx => some (ctx, true)
  | none => (roundRobin s.nfe.rrOther other).map fun ctx => (ctx, false)

/-- The class that a sending port grants among ready ones (R23, R24): EXPRESS, else by the class pointer. -/
def classGrant (ptr : Nat) (ready : List SvcClass) : Option SvcClass :=
  if ready.contains .express then some .express
  else (roundRobin ptr (ready.map fun c => c.code - 1)).map fun i => SvcClass.ofCode (i + 1)

/-- The class pointer after a grant (R24); EXPRESS goes by R23. -/
def classPointer (ptr : Nat) (c : SvcClass) : Nat := if c = .express then ptr else c.code % 3

/-- Whether a completion entry waits to go to NFE: its command is decided and its queue pair takes entries. -/
def State.entryReady (s : State) (c : Cmd) : Bool :=
  decide (c.stage = .done) && !c.orphan && ((c.ctx.bind s.qp?).map Qp.live).getD false

/-- What waits at the NFE transmit port between steps, by class and requester of R25: completion entries of SCH, 0, and the
next ring fetch of QPM, 2, at the class of R133. Data and peer messages go out in the step that makes them. -/
def State.txReady (s : State) : List (SvcClass × Nat) :=
  ((s.sch.cmds.filter fun e => s.entryReady e.2).map fun e => (e.2.runClass, 0))
    ++ (match s.nextFetch with
      | some (_, true) => [(.express, 2)]
      | some (_, false) => [(.normal, 2)]
      | none => [])

/-- The class and the requester that the NFE transmit port grants next (R23, R24, R25): EXPRESS first, else the class by its
pointer; then the requester by the port's pointer. -/
def State.txGrant (s : State) : Option (SvcClass × Nat) :=
  (classGrant s.sch.rrDone (s.txReady.map (·.1))).bind fun k =>
    (roundRobin s.nfe.rrTransmit ((s.txReady.filter fun e => e.1 = k).map (·.2))).map fun r => (k, r)

/-- DESCRIPTOR_FETCH (R23 to R25, R116, R117): the fetch goes out when the transmit port grants QPM. -/
def execDescriptorFetch (s : State) : Host.Outcome State Fault Refusal :=
  .next (match s.nextFetch, s.txGrant with
  | some (ctx, express), some (k, 2) =>
    ((s.grantFetch ctx).onNfe fun n => if express then { n with rrExpress := ctx + 1 } else { n with rrOther := ctx + 1 }).onSch
      fun h => { h with rrDone := classPointer h.rrDone k }
  | _, _ => s)

/-! ## Intake checks -/

/-- Checks of R44, R47, R108, R110 and R139 that the descriptor alone decides. A LENGTH of 0 is valid for every opcode
but SCAN and SCAN_NEXT, whose own bound refuses it (DEDUCED, log 155). -/
def descInvalid (q : QpConn) (d : Desc) : Bool :=
  match Opcode.ofCode d.opcode with
  | none => true
  | some op =>
    (op.isAdmin && !q.admin) || (!op.isAdmin && decide (op ≠ .nop) && q.admin)
    || (decide (d.cls ≠ 0) && q.expressQp)
    || (op.usesKeyArea && (decide (d.keyLen = 0) || decide (1024 < d.keyLen)
        || (!d.keyPtr && decide (56 < d.keyLen))))
    || (op.usesVariant && decide (63 < d.variant))
    || ((op = .get || op = .writeRange || op = .punch) && decide (2 ^ 64 - 1 < d.offset + d.length))
    || (op = .head && decide (1 ≤ d.length) && decide (d.length ≤ 31))
    || ((op = .scan || op = .scanNext) && decide (d.length < 1064))

/-- Whether a pattern command's pattern fails to parse (R139, R256). -/
def patternInvalid (op : Opcode) (key : Bytes) : Bool :=
  (op = .scan || op = .count) && (parsePattern key).isNone

/-- The outcome record that a RESUBMIT descriptor names (R128): of several with its CMD_TAG the oldest, which the spec does not
say (DESIGN CHOICE, log 177). -/
def State.recordOf (s : State) (c : Cmd) : Option OutcomeRec :=
  s.sch.outcomes.find? fun r => r.session = c.session && decide (r.tenant = c.tenant) && decide (r.tag = c.desc.tag)

/-- Complete a resubmitted command from its record, or refuse it when the record's opcode or key hash differs
(R110, R128). RESULT1 of a replayed write that took effect is a free value: the record holds no COPIES. -/
def State.resubmit (s : State) (n : Nat) : State :=
  match s.cmd? n with
  | none => s
  | some c =>
    if !c.desc.resubmit || c.ctx.isNone || c.decided || s.originalRuns n c then s
    else match s.recordOf c with
      | none => s
      | some r =>
        if r.opcode ≠ c.desc.opcode then (s.addCond n .invalidDescriptor).failCmd n 0
        else if c.op.usesKeyArea && c.key.isNone then s
        else if c.op.namesKey ∧ r.keyHash ≠ c.kh then (s.addCond n .invalidDescriptor).failCmd n 0
        else
          let (copies, s) := s.drawNat
          s.endCmd n ⟨r.status, if r.status.tookEffect then 1 + copies % 4 else 0, r.version, r.validBytes,
            false, true⟩

/-- Whether a condition that stands above those found at intake is still open: an invalid pattern or resubmission while
the key is on its way, a denied right before the policy search (R142). -/
def Cmd.openAbove (c : Cmd) : Bool :=
  (c.key.isNone && c.op.usesKeyArea && (c.desc.resubmit || decide (c.op = .scan) || decide (c.op = .count)))
    || (!c.conds.contains .accessDenied && c.searches)

/-- A command with a condition found at intake ends with it once none above it can come (R142); a resubmitted one is held
until its original has ended (R128). -/
def State.endHeld (s : State) (n : Nat) : State :=
  match s.cmd? n with
  | none => s
  | some c =>
    if c.conds.isEmpty || c.decided || c.openAbove || (c.desc.resubmit && s.originalRuns n c) then s else s.failCmd n 0

/-- Checks that need the key: the pattern's syntax and the resubmission. -/
def State.keyKnown (s : State) (n : Nat) : State :=
  match s.cmd? n with
  | none => s
  | some c =>
    let s := match c.key with
      | some k => if patternInvalid c.op k then (s.addCond n .invalidDescriptor).failCmd n 0 else s
      | none => s
    (s.resubmit n).endHeld n

/-- The conditions found at intake besides the descriptor's own (R65, R416, R500). -/
def State.intakeConds (s : State) (q : QpConn) (op : Opcode) : List Status :=
  let t := s.tenant q.tenant
  let denied := !q.admin && decide (op ≠ .nop) && (decide (t.st = 0) || (decide (t.st = 2) && op.isWrite))
  let shed := op.isWrite && (s.pwr.shed.getLsbD 2 || s.pwr.shed.getLsbD 3)
  let shedScan := (op = .scan || op = .scanNext || op = .count) && decide (s.pwr.shed ≠ 0)
  let worn := s.ldg.kept.bindOff && (op = .put || op = .writeRange || op = .punch)
  (if denied then [.accessDenied] else []) ++ (if shed || shedScan then [.shed] else [])
    ++ (if worn then [.mediaExhausted] else [])

/-! ## Acceptance (R118, R119, R170 to R172, R189) -/

/-- Assign the next version (R171); a new ceiling 2^24 above the counter is written when the counter comes
within 2^23 of the stored one (R172). -/
def State.assignVersion (s : State) : Nat × State :=
  let v := s.sch.nextVersion
  let s := s.onSch fun h => { h with nextVersion := v + 1 }
  if s.ldg.kept.versionCeiling ≤ v + 1 + 2 ^ 23 then
    (v, (s.onKept fun k => { k with versionCeiling := v + 1 + 2 ^ 24 }).keepMeta 0 0 1)
  else (v, s)

/-- A command as it is accepted. -/
def Cmd.accepted (ctx : Nat) (q : Qp) (d : Desc) (op : Opcode) (cls : SvcClass) (version : Nat) (stage : Stage) :
    Cmd :=
  { ctx := some ctx, chain := none, desc := d, op := op, tenant := q.conn.tenant, session := q.conn.session,
    count := q.head, version := version, cls := cls, stage := stage,
    key := if op.usesKeyArea && !d.keyPtr then some d.inlineKey else none,
    policy := .waiting, lookup := .waiting, conds := [], expressPath := false, pos := 0, crc := crc32cInit,
    work := [], ledgerPath := none, slotRef := none, committed := false, copies := 0, path := [],
    outcome := none, cursor := 0, batch := [], counted := q.topVersion, scanCtx := none, repair := none,
    waited := false, orphan := false, holds := [], maps := none, buffer := [], replayed := false, parked := false, tokens := 0 }

/-- The intake class of a descriptor (R77, R78, R132). -/
def State.intakeClass (s : State) (q : QpConn) (d : Desc) (op : Opcode) : SvcClass :=
  if q.admin then .normal
  else scanClass op ((SvcClass.ofCode d.cls).max (SvcClass.ofCode (s.tenant q.tenant).maxClass))

/-- What a SCAN_NEXT's handle names (R164): a refusal, or the context. -/
def State.handleCheck (s : State) (c : Cmd) : Status ⊕ (Nat × ScanCtx) :=
  let slot := c.desc.param1 % 65536
  match tget s.mch.contexts slot with
  | none => .inl .timeout
  | some x =>
    if !x.live || x.isCount then .inl .timeout
    else if x.tenant ≠ c.tenant then .inl .accessDenied
    else if x.gen ≠ c.desc.param1 / 65536 % 65536 then .inl .timeout
    else .inr (slot, x)

/-- The conditions that an intake condition does not let wait for its start: a SCAN_NEXT's handle (R142, R164). -/
def State.handleConds (s : State) (c : Cmd) : List Status :=
  if c.conds.isEmpty || decide (c.op ≠ .scanNext) then []
  else match s.handleCheck c with
    | .inl st => [st]
    | .inr _ => []

/-- Accept a descriptor whose phase matches: head, version, retention entry, credit, intake checks. Nothing goes to SCH
while it is in reset (R26). -/
def State.acceptDesc (s : State) (ctx : Nat) (q : Qp) (d : Desc) : State :=
  let known := Opcode.ofCode d.opcode
  let op := known.getD .nop
  let cls := s.intakeClass q.conn d op
  if s.blockInReset .sch || !s.retentionFree cls || (op.isWrite && decide (s.ldg.kept.versionCeiling ≤ s.sch.nextVersion)) then s
  else
    let s := s.onQp ctx fun q => { q with
      head := (q.head + 1) % 2 ^ 32, fetching := q.fetching - 1, phaseTries := 0 }
    let (version, s) := if op.isWrite then s.assignVersion else (0, s)
    let n := s.sch.nextCmd
    let credit := decide (0 < (s.pool 0 0 cls.code).1)
    let c := Cmd.accepted ctx q d op cls version .staged
    let s := s.onSch fun h => { h with cmds := tset h.cmds n c, nextCmd := n + 1, rrIntake := 1 }
    let s := if credit then s.toSch n else s
    let conds := s.intakeConds q.conn op
    if descInvalid q.conn d then (s.onCmd n fun c => { c with conds := .invalidDescriptor :: conds }).failCmd n 0
    else
      let s := (s.onCmd n fun c =>
        let c := { c with conds := conds }
        { c with conds := conds ++ s.handleConds c }).keyKnown n
      match s.cmd? n with
      | some c => if c.key.isNone && op.usesKeyArea && !c.decided then
          s.sendAs ctx c.cls (.keyRead ctx d.keyAddr d.keyRkey d.keyLen) else s
      | none => s

/-- DESCRIPTOR_ACCEPT (R118, R119, R170 to R172, R189): a phase that differs discards the rest of the batch and
waits for the re-fetch. -/
def execDescriptorAccept (ctx : Nat) (raw : Bytes) (s : State) : Host.Outcome State Fault Refusal :=
  .next (s.withQp ctx (fun q => decide (q.st = .active) && decide (0 < q.fetching) && !s.fetchStopped q) fun q =>
    let d := parseDesc (padTo 128 raw)
    if d.phase = phaseOf q.conn.ringLog2 q.head then s.acceptDesc ctx q d
    else s.onQp ctx fun q => { q with fetching := 0, phaseWait := true })

/-- PHASE_REFETCH (R118): one more fetch of the entry, or ERROR with cause PHASE. -/
def execPhaseRefetch (ctx : Nat) (s : State) : Host.Outcome State Fault Refusal :=
  .next (s.withQp ctx (fun q => decide (q.st = .active) && q.phaseWait && !s.fetchStopped q) fun q =>
    if s.fld Reg.QPM_FETCH_CFG_PHASE_RETRIES ≤ q.phaseTries then s.qpError ctx 0x14
    else ((s.onQp ctx fun q => { q with phaseWait := false, fetching := 1, phaseTries := q.phaseTries + 1 }).bump
      Reg.QPM_ERR_STAT_PHASE_REFETCHES).send (q.fetchFrom ctx 1))

/-- KEY_FETCH (R109): the pointed-to key arrives. -/
def execKeyFetch (cmd : Nat) (key : Bytes) (s : State) : Host.Outcome State Fault Refusal :=
  .next (s.withCmd cmd (fun c => c.key.isNone && c.op.usesKeyArea && !c.decided) fun _ =>
    (s.onCmd cmd fun c => { c with key := some (padTo c.desc.keyLen key) }).keyKnown cmd)

/-! ## Completion (R120 to R124, R189) -/

/-- RESULT1's entry flags and the bytes of a command's completion at a count. -/
def Cmd.entry (c : Cmd) (q : Qp) (o : Outcome) : Bytes :=
  completionBytes c.desc.tag o.status.code (phaseOf q.conn.ringLog2 q.cqCount) o.more c.expressPath o.replayed
    q.qgen q.head o.result1 o.version o.validBytes

/-- Whether the next entry goes with immediate (R124). -/
def Qp.notifies (q : Qp) : Bool :=
  q.conn.notify = 1 || (q.conn.notify = 2 && decide (q.conn.coalesceCount ≤ q.unnotified + 1))

/-- The RDMA WRITE of the completion entry of a count: slot c mod 2^RING_LOG2 of the completion ring, 32 bytes each
(R101, R102, R121); the immediate is the completion count after it (R124). -/
def Qp.entryWrite (q : Qp) (ctx count : Nat) (entry : Bytes) (imm : Bool) : Tx :=
  .completion ctx ((count + 1) % 2 ^ 32) (q.conn.cqAddr + 32 * (count % 2 ^ q.conn.ringLog2)) q.conn.cqRkey entry imm

/-- Write a decided command's completion entry (R120 to R124): the command completes. -/
def State.writeCompletion (s : State) (cmd : Nat) : State :=
  s.withCmd cmd (fun c => decide (c.stage = .done) && !c.orphan) fun c =>
    match c.ctx, c.outcome with
    | some ctx, some o =>
      s.withQp ctx Qp.live fun q =>
        let imm := q.notifies
        let s := s.onQp ctx fun q => { q with
          cqCount := (q.cqCount + 1) % 2 ^ 32, unnotified := if imm then 0 else q.unnotified + 1, lastEntry := c.entry q o
          lastClass := c.runClass }
        let s := (s.touchCtx ctx).onNfe fun n => { n with lastCompletion := some s.flt.time }
        let s := s.sendAs ctx c.runClass (q.entryWrite ctx q.cqCount (c.entry q o) imm)
        (s.onCmd cmd fun c => { c with stage := .written }).settleDrain ctx
    | _, _ => s

/-- COMPLETION_WRITE (R23 to R25, R120 to R124): an entry of the class that the transmit port grants to SCH. -/
def execCompletionWrite (cmd : Nat) (s : State) : Host.Outcome State Fault Refusal :=
  .next (s.withCmd cmd (fun c => s.entryReady c && s.txGrant = some (c.runClass, 0)) fun c =>
    (s.onSch fun h => { h with rrDone := classPointer h.rrDone c.runClass }).writeCompletion cmd)

/-- COALESCE_TIMER (R124): COALESCE_US after the first entry without an immediate, the newest entry goes once more, with
immediate (DESIGN CHOICE, log 156); like its first write it is admin traffic or of the class that sent it (R133). -/
def execCoalesceTimer (ctx : Nat) (s : State) : Host.Outcome State Fault Refusal :=
  .next (s.withQp ctx (fun q => q.live && decide (q.conn.notify = 2) && decide (0 < q.unnotified)) fun q =>
    (s.onQp ctx fun q => { q with unnotified := 0 }).sendAs ctx q.lastClass
      (q.entryWrite ctx ((q.cqCount + 2 ^ 32 - 1) % 2 ^ 32) q.lastEntry true))

/-! ## Congestion (R134, R135) -/

/-- CE_PACKET_RECEIVED (R134): at most one CNP per CNP_GAP_US. -/
def execCePacketReceived (ctx : Nat) (s : State) : Host.Outcome State Fault Refusal :=
  .next (s.withQp ctx (fun _ => decide (s.fld Reg.NFE_DSCP_MAP_ECN_EN = 1)) fun q =>
    let due := match q.lastCnp with
      | none => true
      | some t => decide (t + 1000 * s.fld Reg.NFE_CC_CFG_CNP_GAP_US ≤ s.flt.time)
    if due then (s.onQp ctx fun q => { q with lastCnp := some s.flt.time }).send (.cnp ctx) else s)

/-- The gain g of R135. -/
def State.ccGain (s : State) : Rat := 1 / ((2 ^ s.fld Reg.NFE_CC_CFG_G_SHIFT : Nat) : Rat)

/-- A CNP's cut; the timer starts again (R135). -/
def CcState.cut (c : CcState) (g : Rat) (now : Nat) : CcState :=
  { timer := now, rc := max (c.rc * (1 - c.alpha / 2)) 100, rt := c.rc, alpha := (1 - g) * c.alpha + g, i := 0 }

/-- An expiry of the recovery timer, which starts again (R135). -/
def CcState.recover (c : CcState) (g : Rat) (aiStep line now : Nat) : CcState :=
  let rt := if 5 < c.i + 1 then min (c.rt + ((aiStep * 10 : Nat) : Rat)) (line : Rat) else c.rt
  { rc := min ((c.rc + rt) / 2) (line : Rat), rt := rt, alpha := (1 - g) * c.alpha, i := c.i + 1, timer := now }

/-- CNP_RECEIVED (R135). -/
def execCnpReceived (ctx : Nat) (s : State) : Host.Outcome State Fault Refusal :=
  .next (s.withQp ctx Qp.live fun _ => s.onQp ctx fun q => { q with
    cc := q.cc.cut s.ccGain s.flt.time, ccPeriod := s.fld Reg.NFE_CC_CFG_TIMER_US })

/-- Whether a recovery timer has run for the TIMER_US that it last started with (R135): a change of NFE_CC_CFG applies from the
next CNP or expiry. -/
def State.ccTimerDue (s : State) (q : Qp) : Bool := decide (q.cc.timer + 1000 * q.ccPeriod ≤ s.flt.time)

/-- CC_TIMER_EXPIRY (R135): an expiry that a CNP has overtaken by starting the timer again is discarded. -/
def execCcTimerExpiry (ctx : Nat) (s : State) : Host.Outcome State Fault Refusal :=
  .next (s.withQp ctx (fun q => q.live && s.ccTimerDue q) fun _ => s.onQp ctx fun q => { q with
    cc := q.cc.recover s.ccGain (s.fld Reg.NFE_CC_CFG_AI_STEP) (s.lineRate q.conn.link) s.flt.time
    ccPeriod := s.fld Reg.NFE_CC_CFG_TIMER_US })

/-! ## Links and cages (R89, R99, R125, R586) -/

/-- The bit of a link. -/
def linkBit (l : Link) : BitVec 4 := 1 <<< linkIndex l

/-- The contexts on a link. -/
def State.ctxsOn (s : State) (p : Link → Bool) : List Nat :=
  (s.nfe.qps.filter fun e => p e.2.conn.link).map (·.1)

/-- The contexts of some links leave service with cause LINK_DOWN: ACTIVE and DRAINING enter ERROR, CONNECTING
becomes FREE (R99, R125). -/
def State.linksLost (s : State) (p : Link → Bool) : State :=
  (s.ctxsOn p).foldl (fun s ctx => (s.qpError ctx 0x10).freeConnecting ctx) s

/-- LINK_DOWN (R125): the wait of LINKDOWN_MS begins. -/
def execLinkDown (l : Link) (s : State) : Host.Outcome State Fault Refusal :=
  .next (s.onNfe fun n => { n with linkUp := n.linkUp &&& ~~~linkBit l, linkWait := n.linkWait ||| linkBit l })

/-- LINKDOWN_TIMEOUT (R125): the link has stayed down. -/
def execLinkdownTimeout (l : Link) (s : State) : Host.Outcome State Fault Refusal :=
  .next (guardStep (s.nfe.linkWait.getLsbD (linkIndex l)) s fun s =>
    (s.linksLost (· = l)).onNfe fun n => { n with linkWait := n.linkWait &&& ~~~linkBit l })

/-- Whether a port retrains (R530). -/
def State.retrains (s : State) (p : Port) : Bool :=
  match p with
  | .a => s.nfe.retrainA | .b => s.nfe.retrainB

/-- PORT_RETRAIN_END (R530). -/
def execPortRetrainEnd (p : Port) (s : State) : Host.Outcome State Fault Refusal :=
  .next (s.onNfe fun n => match p with
    | .a => { n with retrainA := false }
    | .b => { n with retrainB := false })

/-- Set a port's cage. -/
def State.setCage (s : State) (p : Port) (c : Cage) : State :=
  s.onNfe fun n => match p with
    | .a => { n with cageA := c }
    | .b => { n with cageB := c }

def State.cage (s : State) (p : Port) : Cage :=
  match p with
  | .a => s.nfe.cageA | .b => s.nfe.cageB

/-- Whether a port's cage lets its links come up: its rail is on, and a pluggable that was inserted has been brought up
(R586). -/
def State.cageReady (s : State) (p : Port) : Bool := (s.cage p).railOn && (!(s.cage p).inserted || (s.cage p).enabled)

/-- LINK_UP (R89, R586): the link may carry connections again; a retraining port's links stay down (R530). -/
def execLinkUp (l : Link) (s : State) : Host.Outcome State Fault Refusal :=
  .next (guardStep (s.linkExists l && !s.retrains (linkPort l) && s.cageReady (linkPort l)) s fun s =>
    s.onNfe fun n => { n with linkUp := n.linkUp ||| linkBit l, linkWait := n.linkWait &&& ~~~linkBit l })

/-- PORT_A_FAULT or PORT_B_FAULT of a cage (R586). -/
def State.portFault (s : State) (p : Port) (cause : Nat) : State :=
  s.raise (match p with | .a => 128 | .b => 129) (item1 (linkIndex (portLink p)) ++ item1 cause)

/-- OPTICS_INSERT (R586, R602): the cage's rail is on again, and the pluggable is brought up, or stays in low-power mode
with the port's fault raised. -/
def execOpticsInsert (p : Port) (watts : Nat) (laneMatch cmis : Bool) (s : State) :
    Host.Outcome State Fault Refusal :=
  let ok := decide (watts ≤ 20) && laneMatch && cmis
  let s := s.setCage p ⟨true, ok, true⟩
  .next (if !decide (watts ≤ 20) then s.portFault p 1
    else if !cmis then s.portFault p 4
    else if !laneMatch then s.portFault p 3
    else s)

/-- OPTICS_RAIL_TRIP (R586): the rail is switched off. -/
def execOpticsRailTrip (p : Port) (s : State) : Host.Outcome State Fault Refusal :=
  .next ((s.setCage p { s.cage p with enabled := false, railOn := false }).portFault p 2)

end Sys2Proof.Machine
end

