-- ==== Sys2Proof/Machine/Path.lean ====
section
/-! DEFINITION. The start of a command on its path: the policy search (R70, R239, R258) and the index lookup
(R207, R219, R226), which start it (R173). -/

namespace Sys2Proof.Machine

/-! ## Starting (R173, R181, R505) -/

/-- Whether an accepted command may run: its key is known, earlier commands hold it no more (R181), the hold-up bank
does not hold writes (R505), and the original of a resubmission has ended (R128). -/
def State.startable (s : State) (n : Nat) (c : Cmd) : Bool :=
  decide (c.stage = .accepted) && (c.key.isSome || !c.op.usesKeyArea)
    && (!c.desc.ordered || s.earlierDone c.ctx n) && !(c.op.isWrite && s.sch.holdWrites)
    && !(c.desc.resubmit && s.originalRuns n c) && !s.blockInReset .sch

/-- Whether the match engine or a die is in reset (R255). -/
def State.mchDown (s : State) : Bool :=
  [EngBlock.mch, .md 0, .md 1, .md 2, .md 3].any s.blockInReset

/-- The lowest free image slot. -/
def State.freeSlot (s : State) : Option Nat :=
  (List.range 128).find? fun i => match tget s.mch.contexts i with
    | none => true
    | some x => !x.live

/-- The context to evict: idle, no COUNT's, the one whose last batch ended first (R163). -/
def State.victim (s : State) : Option Nat :=
  ((s.mch.contexts.filter fun e => e.2.live && e.2.busy.isNone && !e.2.isCount).foldl
    (fun (m : Option (Nat × ScanCtx)) e => match m with
      | none => some e
      | some b => if e.2.lastUse < b.2.lastUse then some e else some b) none).map (·.1)

/-- The image slot that a command may take: free, or of the context to evict, once the commands that wait longer have
theirs (R162, R163, R260). -/
def State.slotFor (s : State) (n : Nat) : Option Nat :=
  let first := match s.mch.waitCtx with
    | [] => true
    | w :: _ => decide (w = n)
  if first then s.freeSlot.orElse fun _ => s.victim else none

/-- Whether an earlier SCAN_NEXT names the same context (R164). -/
def State.earlierScan (s : State) (n : Nat) (c : Cmd) : Bool :=
  s.sch.cmds.any fun e => decide (e.1 < n) && decide (e.2.op = .scanNext) && !e.2.decided
    && decide (e.2.desc.param1 % 2 ^ 32 = c.desc.param1 % 2 ^ 32) && decide (e.2.tenant = c.tenant)

/-- Whether a command waits for its issue (R173, R201): its first step can be sent. A keyed command's lookup and search
need credits toward IDX and MCH (R18); a SCAN or COUNT has its prefix search behind it and an image slot to take; a
SCAN_NEXT's context is idle. -/
def State.issuable (s : State) (n : Nat) (c : Cmd) : Bool :=
  s.startable n c
    && (!c.op.namesKey || (decide (0 < (s.pool 1 0 c.cls.code).1) && !s.blockInReset .idx))
    && (!(c.op.namesKey && c.searches) || (decide (0 < (s.pool 2 0 c.cls.code).1) && !s.mchDown))
    && (!(decide (c.op = .scan) || decide (c.op = .count)) || (decide (c.policy ≠ .waiting) && !s.mchDown
        && (!s.mch.waitCtx.contains n || (s.slotFor n).isSome)))
    && (!decide (c.op = .scanNext) || (!s.mchDown && match s.handleCheck c with
        | .inl _ => true
        | .inr (_, x) => x.busy.isNone && !s.earlierScan n c))

/-- The requester of the issue arbiter that a command comes from (R201); ENG's commands, requester 3, are none of the
retention table. -/
def Cmd.requester (c : Cmd) : Nat := if c.replayed then 0 else if c.ctx.isSome then 1 else 2

/-- The class of the directives of ring 7, which SCH carries out (R453, R458). -/
def State.engClass (s : State) : SvcClass := SvcClass.ofCode (s.fld (Reg.ENG_RING_CFG_CLASS 7))

/-- What waits at the issue arbiter, by class and requester: the issuable commands, and ENG's when a directive of ring 7 is
issued (R201, R458). -/
def State.issueReady (s : State) (eng : Bool) : List (SvcClass × Nat) :=
  ((s.sch.cmds.filter fun e => s.issuable e.1 e.2).map fun e => (e.2.cls, e.2.requester))
    ++ if eng then [(s.engClass, 3)] else []

/-- The class and the requester that the issue arbiter grants (R23, R24, R201): EXPRESS first, else the class by its pointer;
then the requester by its pointer. -/
def State.issueWinner (s : State) (eng : Bool) : Option (SvcClass × Nat) :=
  (classGrant s.sch.rrClass ((s.issueReady eng).map (·.1))).bind fun k =>
    (roundRobin s.sch.rrIssue (((s.issueReady eng).filter fun e => e.1 = k).map (·.2))).map fun r => (k, r)

/-- The command that the issue arbiter grants: of one requester the command that reached SCH first (R201). -/
def State.issueGrant (s : State) : Option Nat :=
  (s.issueWinner (!(s.ring 7).issued.isEmpty)).bind fun w =>
    (s.sch.cmds.find? fun e => s.issuable e.1 e.2 && decide (e.2.cls = w.1) && decide (e.2.requester = w.2)).map (·.1)

/-- Whether the issue arbiter grants ENG, whose directive of ring 7 is at SCH (R201). -/
def State.engTurn (s : State) : Bool := s.issueWinner true = some (s.engClass, 3)

/-- A directive of ring 7 at SCH: it waits for its grant (R201, R458). -/
def State.schDirective (s : State) (d : Dir) (f : State → State) : State :=
  s.setUp 7 d fun s => guardStep s.engTurn s fun s =>
    f (s.onSch fun h => { h with rrClass := classPointer h.rrClass s.engClass, rrIssue := 0 })

/-- Whether an accepted command starts now: it waits for its issue and has the grant. -/
def State.mayStart (s : State) (n : Nat) (c : Cmd) : Bool := s.issuable n c && s.issueGrant = some n

/-- Whether a command's first steps may run: it has started, or may. -/
def State.runnable (s : State) (n : Nat) (c : Cmd) : Bool := decide (c.stage = .started) || s.mayStart n c

/-- Start a command: it leaves SCH's intake, and a resubmission with a record completes (R128). -/
def State.beginCmd (s : State) (n : Nat) : State :=
  match s.cmd? n with
  | none => s
  | some c =>
    if c.stage = .accepted then
      let s := s.onSch fun h => { h with
        rrClass := classPointer h.rrClass c.cls, rrIssue := (c.requester + 1) % 4 }
      ((s.leaveIntake n).onCmd n fun c => { c with stage := .started }).resubmit n
    else s

/-- Start a runnable command and go on with it unless that ended it. -/
def State.running (s : State) (n : Nat) (p : Cmd → Bool) (f : State → Cmd → State) : State :=
  s.withCmd n (fun c => s.runnable n c && p c) fun _ =>
    let s := s.beginCmd n
    s.withCmd n (fun c => !c.decided) fun c => f s c

/-! ## Policy search -/

/-- The key of a policy search: a scan's is the anchored literal prefix (R157, R258). -/
def Cmd.searchKey (c : Cmd) : Bytes :=
  let k := c.key.getD []
  if c.op.namesKey then k else literalPrefix k

/-- Whether MCH takes the search of a command next (R23, R24, R241). A keyed command's search is
its first step; a SCAN's or COUNT's comes before its start (R173). -/
def State.searchNext (s : State) (n : Nat) (c : Cmd) : Bool :=
  c.searches && !s.mchDown && (if c.op.namesKey then s.runnable n c else s.startable n c)
    && s.searchTurn (decide (c.cls = .express)) 0

/-- Whether the policy denies a command that names a key: no rule, or a right that is clear. A SCAN or COUNT is not denied by
the search of its prefix (R70, R258). -/
def Cmd.denied (c : Cmd) : Bool :=
  c.op.namesKey && match c.policy with
  | .waiting => false
  | .noRule => true
  | .rule a => match c.op.right with
    | some b => !bitOf a.rights b
    | none => false

/-- ACCESS_DENIED and UNCORRECTABLE as the search and the lookup give them. -/
def Cmd.startConds (c : Cmd) : List Status :=
  (if c.denied then [.accessDenied] else []) ++ (if c.lookup = .unreadable then [.uncorrectable] else [])

/-- The policy search of a command gives its result; one that a condition of the intake holds may end now (R142). -/
def State.searchDone (s : State) (n : Nat) (p : Policy) : State :=
  (s.onCmd n fun c =>
    let c := { c with policy := p }
    { c with conds := c.conds ++ if c.conds.isEmpty then [] else c.startConds }).endHeld n

/-- POLICY_SEARCH (R70, R239, R241, R251, R255, R258): `parity` names the dies whose MATCH_IN parity failed in successive
issues; one failure is met by a second issue, and after two in a row the search waits for the reload. -/
def execPolicySearch (cmd : Nat) (parity : List Nat) (s : State) : Host.Outcome State Fault Refusal :=
  .next (s.withCmd cmd (fun c => s.searchNext cmd c) fun c =>
    let s := if c.op.namesKey then s.beginCmd cmd else s
    s.withCmd cmd (fun c => !c.decided) fun c =>
      let s := s.grantSearch (decide (c.cls = .express)) 0
      if 2 ≤ (parityDies parity).length then s.matchParity parity
      else
        let (p, s) := s.policyOf c.tenant c.searchKey
        s.searchDone cmd p)

/-! ## Index lookup -/

/-- Whether an EXPRESS lookup uses the mirror (R219, R226, IDX_MIRROR_CFG). -/
def State.usesMirror (s : State) (c : SvcClass) : Bool :=
  decide (c = .express) && s.idx.mirrorReady && !s.idx.rebuilding
    && decide (s.fld Reg.IDX_MIRROR_CFG_MIRROR_EN = 1)

/-- The table or directory-page part of a lookup (R207, R226, R227): the record, and the keys of the other records that were
read. -/
def State.plainLookup (s : State) (kh : W64) (key : Bytes) : Option DirRec × List Bytes :=
  if s.usesPages kh then (dirFind s.idx.dir key, []) else s.tableLookup kh key

/-- What a lookup finds: the record, whether the mirror supplied it, whether m2 was read, and the keys of the other records
that were read before it (R207, R219). -/
def State.lookupKey (s : State) (cls : SvcClass) (refreshing0 : Bool) (kh : W64) (key : Bytes) :
    Option DirRec × Bool × Bool × List Bytes :=
  if s.usesMirror cls then
    match s.mirrorLookup refreshing0 kh key with
    | (some r, second, others) => (some r, true, second, others)
    | (none, second, others) => ((s.plainLookup kh key).1, false, second, others ++ (s.plainLookup kh key).2)
  else ((s.plainLookup kh key).1, false, false, (s.plainLookup kh key).2)

/-- The counts of a lookup (IDX_LOOKUP_STAT, IDX_EXPRESS_LAT). -/
def State.countLookup (s : State) (express second : Bool) (others fclk : Nat) : State :=
  let s := if second then s.bump Reg.IDX_LOOKUP_STAT_SECOND_PROBES else s
  let s := if others = 0 then s else s.bump Reg.IDX_LOOKUP_STAT_SPURIOUS_READS others
  if express && decide (s.fld Reg.IDX_EXPRESS_LAT_MAX_FCLK < fclk) then
    s.setFld Reg.IDX_EXPRESS_LAT_MAX_FCLK (min fclk 65535) else s

/-- A read of a table bucket meets the check bits that a swatch inverted there (R540): one is corrected, two
poison the bucket. -/
def State.readBucket (s : State) (b : Nat) : State :=
  let (marks, s) := s.storageRead 0 fun a => decide (a / 128 = b)
  marks.foldl (fun s m => if m.2 = 1 then s.raise 8 (item8 m.1) else (s.raise 10 (item8 m.1)).poisonBucket b) s

/-- The superblocks that hold a record's variant (R179). -/
def State.variantSbs (s : State) (r : DirRec) (variant : Nat) : List Nat :=
  match tget r.variants variant with
  | some v => (v.segs.flatMap fun g => s.sbsOf g.2.loc).eraseDups
  | none => []

/-- Whether a record's read waits for a rebuild of its codewords (R399). -/
def State.recordWaits (s : State) (r : DirRec) : Bool := s.rebuilding r.loc || (s.onVacant r.loc && s.locParity r.loc)

/-- Whether a record's bytes can be had from neither source (R216): lost on flash, or on the Ledger. -/
def State.recordLost (s : State) (r : DirRec) : Bool :=
  s.lostForGood r.loc || !(s.readLines (ledgerLines r.loc r.lines)).1

/-- The records of a lookup are read: what the Ledger's lines meet happens (R216, R332). -/
def State.readRecords (s : State) (rs : List DirRec) : State :=
  rs.foldl (fun s r => (s.readLines (ledgerLines r.loc r.lines)).2) s

/-- IDX rewrites a record whose REC_CRC failed in one source, from the other, when the staging class has lines for it (R216,
R348). -/
def State.rewriteRecord (s : State) (key : Bytes) : State :=
  match dirFind s.idx.dir key with
  | none => s
  | some r => if s.stagingFits r.lines then (s.drawMeta (s.pairLines r.lines)).writeRecord r else s

/-- The directory record that a lookup found, as it is after a rewrite of it (R216). -/
def State.foundRecord (s : State) (bad : Option DirRec) (r : DirRec) : DirRec :=
  if bad.map (·.key) = some r.key then (dirFind s.idx.dir r.key).getD r else r

/-- INDEX_LOOKUP (R207, R216, R219, R226, R227), with what its reads meet. A record that can be read from no source,
be it another key's, leaves the lookup unreadable (R216). -/
def execIndexLookup (cmd : Nat) (refreshing0 : Bool) (errs : LookupErrors) (fclk : Nat) (s : State) :
    Host.Outcome State Fault Refusal :=
  .next (s.running cmd (fun c => c.op.namesKey && c.lookup = .waiting && !s.blockInReset .idx
      && (decide (c.cls = .express) || !s.expressWaits fun e => e.op.namesKey && e.lookup = .waiting)) fun s c =>
    let kh := c.kh
    let key := c.key.getD []
    let s := errs.buckets.foldl State.bucketError s
    let hit := s.usesMirror c.cls && (s.mirrorLookup refreshing0 kh key).1.isSome
    let s := if hit || s.usesPages kh then s else (s.readBucket (bucket1 kh)).readBucket (bucket2 kh)
    let (r, express, second, others) := s.lookupKey c.cls refreshing0 kh key
    let read := others.filterMap (dirFind s.idx.dir) ++ r.toList
    let bad := if errs.crcFails = 0 then none else read[errs.crcAt]?
    if read.any s.recordWaits then s
    else
      let lost := read.any s.recordLost || (bad.isSome && decide (2 ≤ errs.crcFails))
      let s := (s.countLookup express second others.length fclk).readRecords read
      if lost then s.onCmd cmd fun c => { c with lookup := .unreadable }
      else
        let s := match bad with
          | some q => s.rewriteRecord q.key
          | none => s
        match r with
        | none => s.onCmd cmd fun c => { c with lookup := .absent }
        | some r =>
          let r := s.foundRecord bad r
          let sbs := if c.op = .get ∨ c.op = .writeRange ∨ c.op = .punch then s.variantSbs r c.desc.variant else []
          (s.takeHolds sbs).onCmd cmd fun c => { c with lookup := .found r, expressPath := express, holds := sbs })

end Sys2Proof.Machine
end

