-- ==== Sys2Proof/Machine/Work.lean ====
section
/-! DEFINITION. The value work of reads and writes on their segments (R267 to R278): delivery in order (R150), filling
and merging (R270, R271), the durability path (R184), and what a failed segment does to its command. -/

namespace Sys2Proof.Machine

/-! ## Reads (R149, R150, R179) -/

/-- The variant that a read observes: as its lookup found it (R178). -/
def Cmd.observed (c : Cmd) : Option Variant :=
  match c.lookup with
  | .found r => tget r.variants c.desc.variant
  | _ => none

/-- Bytes that a read delivers in all: clipped at the end of the value (R149). -/
def Cmd.readTotal (c : Cmd) : Nat :=
  match c.observed with
  | some v => min c.desc.length (v.length - c.desc.offset)
  | none => 0

/-- End a GET: VALID_BYTES are the bytes delivered, RESULT1 their CRC-32C when E2E_CRC = 1 (R140, R148, R150). -/
def State.endRead (s : State) (n : Nat) (st : Status) : State :=
  match s.cmd? n with
  | none => s
  | some c => s.endCmd n ⟨st, if c.desc.e2eCrc then (crc32cOut c.crc).toNat else 0,
      ((c.observed.map (·.version)).getD 0), c.pos, false, false⟩

/-- Hand logical bytes on: to the client buffer, or as the answer to a peer's repair request (R150, R439). -/
def State.deliver (s : State) (n : Nat) (bytes : Bytes) : State :=
  match s.cmd? n with
  | none => s
  | some c =>
    let s := match c.ctx, c.chain with
      | some ctx, _ => s.sendAs ctx c.runClass (.data ctx n (c.desc.bufAddr + c.pos) c.desc.bufRkey bytes)
      | none, some m => (s.sendPeer m.srcPeer 5 { answerMsg m .ok 0 with data := bytes, length := bytes.length }).onCmd
          n fun c => { c with committed := true }
      | none, none => s
    s.onCmd n fun c => { c with pos := c.pos + bytes.length, crc := crc32cRun c.crc bytes }

/-- Go on with a read: holes read as zeros (R60), and the read ends when it has delivered everything; it stops at a
stored segment. -/
def State.advanceRead (s : State) (n : Nat) : Nat → State
  | 0 => s
  | fuel + 1 =>
    match s.cmd? n with
    | none => s
    | some c =>
      if c.readTotal ≤ c.pos then s.endRead n .ok
      else
        let p := c.desc.offset + c.pos
        let i := p / 65536
        match c.observed.bind fun v => tget v.segs i with
        | some _ => s
        | none =>
          (s.deliver n (zeros (min (65536 * (i + 1) - p) (c.readTotal - c.pos)))).advanceRead n fuel

/-- Segments that a read may still meet. -/
def Cmd.readFuel (c : Cmd) : Nat := (c.readTotal - c.pos) / 65536 + 3

/-- The part of a segment's logical bytes that a read delivers next. -/
def Cmd.readPart (c : Cmd) (i : Nat) (logical : Bytes) : Bytes :=
  let p := c.desc.offset + c.pos
  slice logical (p - 65536 * i) (min (65536 * (i + 1) - p) (c.readTotal - c.pos))

/-- Whether a read still needs an open: of a sealed segment after some segment (R318). -/
def Cmd.opensAfter (c : Cmd) (i : Nat) : Bool :=
  match c.observed with
  | some v => v.segs.any fun g => decide (i < g.1) && decide (65536 * g.1 < c.desc.offset + c.readTotal) && g.2.sealWord.isSome
  | none => false

/-- The segment a read needs next has passed its checks: deliver its part and go on; the reference goes with the last job
(R318). -/
def State.readGood (s : State) (n i : Nat) (logical : Bytes) : State :=
  match s.cmd? n with
  | none => s
  | some c =>
    let s := (s.deliver n (c.readPart i logical)).onCmd n fun c => { c with work := tdel c.work i, repair := none }
    (if c.opensAfter i then s else s.dropRef n).advanceRead n c.readFuel

/-! ## Writes: segments (R57 to R61, R269 to R277) -/

/-- The action a write applies: its rule's, or the one that a chain write carries (R74, R431). -/
def Cmd.act (c : Cmd) : Action := c.action?.getD ⟨0, 0, 0, true, true, false, false, false, 0, 0⟩

/-- The length of the variant after the write (R57 to R59). -/
def Cmd.newLength (c : Cmd) (old : Nat) : Nat :=
  match c.op with
  | .put => c.desc.length
  | .writeRange => if c.desc.length = 0 then old else max old (c.desc.offset + c.desc.length)
  | _ => old

/-- Where the command's bytes begin inside a segment. -/
def Cmd.partStart (c : Cmd) (i : Nat) : Nat :=
  if c.op = .put then 0 else if i = c.desc.offset / 65536 then c.desc.offset % 65536 else 0

/-- Set the work of one segment. -/
def State.setWork (s : State) (n i : Nat) (w : SegWork) : State :=
  s.onCmd n fun c => { c with work := tset c.work i w }

/-- A segment's new logical bytes are known: a hole when all are zero (R271); else compressed if it pays, and sealed
or closed by its check values (R272, R275, R281). -/
def State.segReady (s : State) (n i : Nat) (bytes : Bytes) : State :=
  match s.cmd? n with
  | none => s
  | some c =>
    if allZero bytes then s.setWork n i .hole
    else
      let (p, comp, s) := s.pack c.act.compress bytes
      let g := Seg.raw p bytes.length comp c.act.parityP
      if c.act.sealIt then ((s.issueRef n c.act.owner).setWork n i (.sealing g)).fillLanes 16
      else s.setWork n i (.built (g.close (locator c.kh c.desc.variant i)))

/-- Spread arriving bytes over the segments they belong to; `pos` is their place in the value. -/
def feedSegs : Nat → Nat → Bytes → Tbl SegWork → Tbl SegWork
  | 0, _, _, w => w
  | fuel + 1, pos, data, w =>
    if data.isEmpty then w
    else
      let i := pos / 65536
      let part := data.take (65536 - pos % 65536)
      let have_ := match tget w i with
        | some (.filling b) => b
        | _ => []
      feedSegs fuel (pos + part.length) (data.drop part.length) (tset w i (.filling (have_ ++ part)))

/-- Whether the bytes that have arrived for a segment make it whole: all of a PUT's segment, or a full 64 KiB. -/
def Cmd.partWhole (c : Cmd) (i : Nat) (b : Bytes) : Bool :=
  if c.op = .put then decide (b.length = segLen c.desc.length i)
  else decide (c.partStart i = 0) && decide (b.length = 65536)

/-- Hand on the segments that are whole (R267). -/
def State.handOn (s : State) (n : Nat) : State :=
  match s.cmd? n with
  | none => s
  | some c => c.work.foldl (fun s e => match e.2 with
    | .filling b => if c.partWhole e.1 b then s.segReady n e.1 b else s
    | _ => s) s

/-! ## Planning a range (R270) -/

/-- One partly covered segment of a WRITE_RANGE against the variant as it stands: whole after all, over a hole, or to
be merged with the stored segment. -/
def State.planPart (s : State) (n : Nat) (c : Cmd) (v : Variant) (i : Nat) (b : Bytes) : State :=
  let len := segLen (c.newLength v.length) i
  if c.partStart i = 0 ∧ b.length = len then s.segReady n i b
  else if (tget v.segs i).isNone then s.segReady n i (padTo len (overlay [] (c.partStart i) b))
  else s

/-- The stored last segment of the old value that a longer value makes longer: it is rewritten with zeros (R58,
R60). -/
def Cmd.grown (c : Cmd) (v : Variant) : Option Nat :=
  let i := v.length / 65536
  if v.length % 65536 ≠ 0 ∧ v.length < c.newLength v.length ∧ (tget v.segs i).isSome ∧ (tget c.work i).isNone then
    some i
  else none

/-- Plan a WRITE_RANGE. -/
def State.planWrite (s : State) (n : Nat) (c : Cmd) (v : Variant) : State :=
  let s := match c.grown v with
    | some i => s.setWork n i (.merging [])
    | none => s
  c.work.foldl (fun s e => match e.2 with
    | .merging b => s.planPart n c v e.1 b
    | _ => s) s

/-- Plan a PUNCH: a stored segment covered whole becomes a hole, one covered in part is merged with zeros; what is a
hole already stays one (R59, R60). -/
def State.planPunch (s : State) (n : Nat) (c : Cmd) (v : Variant) : State :=
  let last := min (c.desc.offset + c.desc.length) v.length
  v.segs.foldl (fun s e =>
    let base := 65536 * e.1
    let len := segLen v.length e.1
    let a := max c.desc.offset base - base
    let z := min last (base + len) - base
    if z ≤ a then s
    else if a = 0 ∧ z = len then s.setWork n e.1 .hole
    else s.setWork n e.1 (.merging (zeros (z - a)))) s

/-- Plan a WRITE_RANGE or PUNCH once its bytes are in and every lower write to the key is decided; a variant that is
empty is left to the gate. -/
def State.planRange (s : State) (n : Nat) : State :=
  match s.cmd? n with
  | none => s
  | some c =>
    if c.stage ≠ .working ∨ c.cursor ≠ 0 ∨ (c.op ≠ .writeRange ∧ c.op ≠ .punch)
        ∨ (c.op = .writeRange ∧ c.pos < c.desc.length) ∨ s.lowerWrites c.kh c.version = true
        ∨ s.lowerKeyless c.version = true then s
    else match s.variantNow c with
      | none => ((s.releaseWork c).onCmd n fun c => { c with work := [], stage := .gated }).dropIdleRef n
      | some v =>
        let s := s.onCmd n fun c => { c with cursor := 1 }
        if c.op = .writeRange then s.planWrite n c v else s.planPunch n c v

/-! ## The durability path (R184, R185, R344, R345) -/

/-- The closed segments of a write, by index. -/
def Cmd.built (c : Cmd) : Tbl Seg :=
  c.work.filterMap fun e => match e.2 with
    | .built g => some (e.1, g)
    | _ => none

/-- Whether every segment of a write is a hole, or closed by its check values. -/
def Cmd.segsReady (c : Cmd) : Bool :=
  c.work.all fun e => match e.2 with
    | .hole | .built _ | .writing _ | .durable _ => true
    | _ => false

/-- Whether every segment of a write is a hole, or durable (R183). -/
def Cmd.segsDurable (c : Cmd) : Bool :=
  c.work.all fun e => match e.2 with
    | .durable _ | .hole => true
    | _ => false

/-- Whether the value of a write is in, and a range is planned. -/
def Cmd.valueIn (c : Cmd) : Bool := if c.op = .put then decide (c.desc.length ≤ c.pos) else decide (c.cursor ≠ 0)

/-- LEDGER_MAX: values above 16,384 act as 16,384. -/
def State.ledgerMax (s : State) : Nat := min 16384 (s.fld Reg.SCH_DUR_CFG_LEDGER_MAX)

/-- Units, that is Ledger lines of one copy, of some segments. -/
def unitsOf (gs : Tbl Seg) : Nat := (gs.map fun g => segUnits g.2.payload.length).foldl (· + ·) 0

/-- The locator of a segment of a command's variant (R280). -/
def State.segFold (s : State) (n i : Nat) : W64 := ((s.cmd? n).map fun c => locator c.kh c.desc.variant i).getD 0

/-- Place the segments on staging lines (R274, R332). -/
def State.placeLedger (s : State) (n : Nat) (gs : Tbl Seg) : State :=
  gs.foldl (fun s e =>
    let (line, s) := s.allocStaging (segUnits e.2.payload.length)
    let (g, s) := s.writeSegAt e.2 (.ledger line) (s.segFold n e.1)
    s.setWork n e.1 (.writing g)) s

/-- Place the segments of a class in the flash streams of writes (R364, R380, R381); NO_SPACE when none can be opened. -/
def State.placeFlash (s : State) (n : Nat) (parityP : Bool) : Tbl Seg → State
  | [] => s
  | (i, g) :: rest =>
    match s.allocHost parityP (segUnits g.payload.length) with
    | none => s.writeFails n .noSpace
    | some (loc, s) =>
      let (g, s) := s.writeSegAt g loc (s.segFold n i)
      (s.setWork n i (.writing g)).placeFlash n parityP rest

/-- Whether the class has room for some lines outside the metadata reserve (R184, R348). -/
def State.stagingRoom (s : State) (units : Nat) : Bool := decide (metaReserve + 64 * units ≤ s.classFree 0)

/-- Decide the path of a write whose segments are all closed (R184): tokens are drawn at once on the Ledger path; a
refusal by the gauge counts in FALLBACKS. A write that stores nothing goes to its gate. -/
def State.decidePath (s : State) (n : Nat) : State :=
  match s.cmd? n with
  | none => s
  | some c =>
    let gs := c.built
    if gs.isEmpty then s.onCmd n fun c => { c with stage := .gated }
    else
      let units := unitsOf gs
      let fits := gs.all (fun g => decide (g.2.payload.length ≤ s.ledgerMax)) && s.stagingRoom units
      let metered := decide (s.threshold c.runClass + s.pairLines units ≤ s.ldg.level)
      if fits && metered then
        ((s.lowerGauge (s.pairLines units)).onCmd n fun c => { c with ledgerPath := some true }).placeLedger n gs
      else
        let s := if fits then s.bump Reg.LDG_GAUGE_STAT_FALLBACKS else s
        (s.onCmd n fun c => { c with ledgerPath := some false }).placeFlash n c.act.parityP gs

/-- Whether a write is bound for flash whatever follows (R184): a segment exceeds what the Ledger path takes, or its
segments exceed the whole small-value staging class. -/
def State.tooLong (s : State) (c : Cmd) : Bool :=
  (c.built.any fun g => decide (s.ledgerMax < g.2.payload.length))
    || decide (classCapacity 0 < metaReserve + 64 * unitsOf c.built)

/-- A write goes on when a segment is closed: once the value is in and every segment is closed, its last cipher job has
ended (R318), and its path is decided; a write that is bound for flash stores its segments as they are handed on (R184,
R283). -/
def State.pathWhenReady (s : State) (n : Nat) : State :=
  match s.cmd? n with
  | none => s
  | some c =>
    if c.stage ≠ .working then s
    else
      let all := c.valueIn && c.segsReady
      let s := if all then s.dropRef n else s
      if c.ledgerPath = some false ∨ (c.ledgerPath = none ∧ s.tooLong c = true) then
        ((s.onCmd n fun c => { c with ledgerPath := some false }).placeFlash n c.act.parityP c.built).onCmd n
          fun c => if c.stage = .working && c.valueIn && c.segsDurable then { c with stage := .gated } else c
      else if c.ledgerPath = none ∧ all = true then s.decidePath n
      else s

/-- A stored segment of a write is durable (R183); the write goes to its gate when all are. -/
def State.makeDurable (s : State) (n i : Nat) : State :=
  match s.cmd? n with
  | none => s
  | some c =>
    match tget c.work i with
    | some (.writing g) =>
      let s := s.setWork n i (.durable g)
      s.onCmd n fun c => if c.stage = .working && c.valueIn && c.segsDurable then { c with stage := .gated } else c
    | _ => s

/-- Segments whose pages have all been programmed are durable (R183, R360). -/
def State.settleProgrammed (s : State) : State :=
  s.sch.cmds.foldl (fun s e => e.2.work.foldl (fun s w => match w.2 with
    | .writing g => match g.loc with
      | .flash _ _ _ => if s.programmed g.loc then s.makeDurable e.1 w.1 else s
      | .ledger _ => s
    | _ => s) s) s

/-! ## The value arrives (R147, R283, R284) -/

/-- The last byte of a value or range is in: the client's CRC-32C is compared (R147, R283), then the parts of a
range are planned. -/
def State.intakeDone (s : State) (n : Nat) : State :=
  match s.cmd? n with
  | none => s
  | some c =>
    if c.desc.e2eCrc && decide (c.desc.clientCrc ≠ crc32cOut c.crc) then
      (s.raise 388 (item2 c.tenant ++ item4 c.desc.tag)).writeFails n .e2eCrcMismatch
    else
      let s := s.onCmd n fun c => { c with work := c.work.map fun e => match e.2 with
        | .filling b => (e.1, .merging b)
        | w => (e.1, w) }
      (s.planRange n).pathWhenReady n

/-- Value bytes arrive in order. -/
def State.takeData (s : State) (n : Nat) (data : Bytes) : State :=
  match s.cmd? n with
  | none => s
  | some c =>
    let data := data.take (c.desc.length - c.pos)
    let base := if c.op = .put then 0 else c.desc.offset
    let s := s.onCmd n fun c => { c with
      work := feedSegs (data.length / 65536 + 2) (base + c.pos) data c.work, pos := c.pos + data.length, buffer := c.buffer ++ data,
      crc := crc32cRun c.crc data }
    let s := s.handOn n
    if c.desc.length ≤ c.pos + data.length then s.intakeDone n else s.pathWhenReady n

/-- Bytes of a segment's work that the staging buffers hold: fetched and not yet durable (R34). -/
def SegWork.stagedBytes (w : SegWork) : Nat :=
  match w with
  | .filling b | .merging b | .mergeOpen b _ => b.length
  | .sealing g | .built g | .writing g => g.payload.length
  | .durable _ | .opening _ | .hole => 0

/-- Value bytes that the staging buffers hold (R34). -/
def State.stagedBytes (s : State) : Nat :=
  (s.sch.cmds.map fun e => if e.2.stage = .working && e.2.op.readsBuffer then
    (e.2.work.map fun w => w.2.stagedBytes).foldl (· + ·) 0 else 0).foldl (· + ·) 0

/-- The value staging buffers (R34). -/
def stagingBytes : Nat := 2 ^ 34

/-- VALUE_DATA_ARRIVAL (R34, R147, R184, R267 to R271, R283): the next bytes of a write's value or range. While the staging
buffers have no room for them the arrival changes nothing: what happens then the spec does not say (DESIGN CHOICE, log
173). -/
def execValueDataArrival (cmd : Nat) (data : Bytes) (s : State) : Host.Outcome State Fault Refusal :=
  .next (s.withCmd cmd (fun c => decide (c.stage = .working) && c.op.readsBuffer && decide (c.pos < c.desc.length)
      && !s.blockInReset .val && decide (s.stagedBytes + data.length ≤ stagingBytes)) fun c => (s.grantVal c.runClass 0).takeData cmd data)

/-! ## Merging (R270) and failures of a segment -/

/-- The stored segment of a partly covered segment has been read: merge the new bytes or zeros, and store it again. -/
def State.mergeGood (s : State) (n i : Nat) (part logical : Bytes) : State :=
  match s.cmd? n with
  | none => s
  | some c =>
    let old := ((s.variantNow c).map (·.length)).getD 0
    let len := segLen (c.newLength old) i
    let bytes := (overlay (padTo len logical) (c.partStart i) part).take len
    ((s.onCmd n fun c => { c with repair := none }).segReady n i bytes).pathWhenReady n

/-- A segment has passed every check: its reader goes on with the logical bytes. -/
def State.segGood (s : State) (n i : Nat) (logical : Bytes) : State :=
  match s.cmd? n with
  | none => s
  | some c =>
    if c.op = .get then s.readGood n i logical
    else match tget c.work i with
      | some (.merging part) | some (.mergeOpen part _) => s.mergeGood n i part logical
      | _ => s

/-- A segment fails: a GET ends there (R150, R315), a read-merge ends its write (R315). -/
def State.segFails (s : State) (n : Nat) (st : Status) : State :=
  match s.cmd? n with
  | none => s
  | some c => if c.op = .get then s.endRead n st else s.writeFails n st

end Sys2Proof.Machine
end

