-- ==== Sys2Proof/Machine/Reads.lean ====
section
/-! DEFINITION. Read checks, cipher jobs and read repair (R285 to R291, R295 to R297, R311 to R315, R438, R612). -/

namespace Sys2Proof.Machine

/-! ## What a reader reads -/

/-- The next stored segment that a command reads: of a GET the one at its position, of a range write the first that
waits to be merged; with the version it belongs to. -/
def State.nextRead (s : State) (c : Cmd) : Option (Nat × Seg × Variant) :=
  if c.op = .get then
    let i := (c.desc.offset + c.pos) / 65536
    c.observed.bind fun v => (tget v.segs i).map fun g => (i, g, v)
  else
    (c.work.find? fun e => match e.2 with
      | .merging _ => true
      | _ => false).bind fun e => (s.variantNow c).bind fun v => (tget v.segs e.1).map fun g => (e.1, g, v)

/-! ## The repair table (R291) -/

/-- A repair by number. -/
def State.repair? (s : State) (r : Nat) : Option Repair := tget s.val.repairs r

/-- The lowest version of a template's permission (R426, R438): REPAIR = 1. -/
def State.repairAllowed (s : State) (template : Nat) : Bool :=
  decide (template ≠ 0) && ((tget s.peer.templates template).map (·.repair)).getD false

/-- The placement slot of a key (R425). -/
def placeSlot (kh : W64) : Nat := kh.toNat / 2 ^ 32 % 65536

/-- The peers that a slot names, without the drive itself (R420, R425). -/
def State.slotPeers (s : State) (kh : W64) : List Nat :=
  (((tget s.peer.places (placeSlot kh)).map (·.peers)).getD []).filter (· ≠ s.selfId)

/-- Peers of a slot that are UP. -/
def State.slotPeersUp (s : State) (kh : W64) : List Nat := (s.slotPeers kh).filter fun p => s.peerLive p = .up

/-- A REPAIR_REQ (R423, R438). -/
def repairMsg (r : Repair) : PeerMsg :=
  { ctx := 0, hop := 0, depth := 0, template := 0, srcPeer := 0, policyBest := false, sealed := false, path := [],
    version := r.version, keyHash := r.kh, wop := 0, variant := r.variant, ownerTenant := 0, store := 0, status := 0,
    copies := 0, offset := 0, length := 0, segIndex := r.seg, msgSeq := 0, priorVersion := 0,
    keyLen := r.key.length, bufAddr := 0, bufRkey := 0, crc := 0, cls := none, key := r.key, headers := [], data := [] }

/-- An entry leaves the repair table: a waiting reader may begin its own repair. -/
def State.dropRepair (s : State) (rid : Nat) : State :=
  (s.onVal fun v => { v with repairs := tdel v.repairs rid, waitRepair := v.waitRepair.drop 1 }).onSch fun h => { h with
    gate := h.gate.filter fun g => g.repair ≠ some rid }

/-- A reclaim or refresh read has found a segment that nothing repairs: its payload is lost where it lies, so that later
readers find the failure and reclaim goes on (R290, R291, R399). -/
def State.markLost (s : State) (r : Repair) : State :=
  s.onIdx fun i => { i with dir := i.dir.map fun d =>
    if d.key = r.key then { d with variants := tmod d.variants r.variant fun v =>
      if v.version = r.version then { v with segs := tmod v.segs r.seg fun g =>
        if g.loc = r.old.loc then { g with lost := true } else g } else v }
    else d }

/-- No second copy passes: AUTH_FAILURE when the tag was the first check to fail, else SEGMENT_UNRECOVERABLE; every
reader's segment fails (R290, R314). -/
def State.repairLost (s : State) (rid : Nat) : State :=
  match s.repair? rid with
  | none => s
  | some r =>
    let s := if r.failed = 2 then
        let w := (r.old.sealWord.map SealWord.bytes).getD (zeros 16)
        (s.raise 418 (item8 (locWord r.old.loc) ++ item2 ((r.old.sealWord.map (·.slot)).getD 0) ++ w)).bump
          Reg.CIP_AUTH_STAT_AUTH_FAILURES
      else (s.raise 386 (item8 (locWord r.old.loc) ++ item8 (locator r.kh r.variant r.seg).toNat ++ item8 r.kh.toNat)).bump
        Reg.VAL_READ_STAT_UNRECOVERABLE
    let s := (if r.upkeep then s.markLost r else s).dropRepair rid
    r.readers.foldl (fun s n => s.segFails n (if r.failed = 2 then .authFailed else .uncorrectable)) s

/-- READ_REPAIR_FAILED: the segment is lost to peers (R438). -/
def State.peersFailed (s : State) (rid : Nat) : State :=
  match s.repair? rid with
  | none => s
  | some r => (((s.raise 1031 (item8 r.kh.toNat ++ item4 r.seg)).bump Reg.PEER_REPAIR_STAT_REPAIR_MISSES)).repairLost rid

/-- Ask every UP peer of the key's slot (R438), or lose the segment at once. -/
def State.askPeers (s : State) (rid : Nat) : State :=
  match s.repair? rid with
  | none => s
  | some r =>
    let ps := s.slotPeersUp r.kh
    if !s.repairAllowed r.template || s.peer.suspended || ps.isEmpty then s.peersFailed rid
    else
      let s := s.onVal fun v => { v with repairs := tset v.repairs rid { r with asked := true } }
      ps.foldl (fun s p => s.sendPeer p 4 (repairMsg r)) s

/-- The generation under which a command opens a slot's seals (R318). -/
def State.openGen (s : State) (c : Cmd) (slot : Nat) : Nat :=
  match c.slotRef with
  | some (sl, gen) => if sl = slot then gen else (s.slot slot).gen
  | none => (s.slot slot).gen

/-- Whether a sealed segment's key is gone for a command (R311). -/
def State.sealGone (s : State) (c : Cmd) (g : Seg) : Bool :=
  match g.sealWord with
  | none => false
  | some w => match s.generation w.slot (s.openGen c w.slot) with
    | none => true
    | some gen => decide (gen.serial ≠ w.serial)

/-- The logical bytes of a repaired segment whose rewrite waits, for a further reader (R291); none when its key is gone. -/
def State.repairedBytes (s : State) (c : Cmd) (r : Repair) (g : Seg) : Option Bytes × State :=
  match g.sealWord with
  | none => (g.decode g.payload, s)
  | some w =>
    match s.openBytes (s.openGen c w.slot) w (g.aad r.kh r.variant w.slot r.seg) g.payload g.tag with
    | (.plain p, s) => (g.decode p, s)
    | (_, s) => (none, s)

/-- Enter a repair in the table: its number. -/
def State.addRepair (s : State) (r : Repair) : Nat × State :=
  (s.val.nextRepair, s.onVal fun x => { x with
    repairs := tset x.repairs x.nextRepair r, nextRepair := x.nextRepair + 1 })

/-- Where a repair looks first (R83, R286, R287, R399): a location with no page and no parity is lost, but to the peers of a
Class R segment; without parity the peers are asked; else the local second copy comes. -/
def State.seekCopy (s : State) (rid : Nat) : State :=
  match s.repair? rid with
  | none => s
  | some r => match r.old.loc with
    | .ledger _ => s
    | .flash _ _ _ =>
      if r.failed = 3 then (if r.old.parityP then s.repairLost rid else s.askPeers rid)
      else if s.locParity r.old.loc then s else s.askPeers rid

/-- Start a repair of a segment that failed a check, or wait for the one that holds its location (R286, R287, R291,
R612). -/
def State.startRepair (s : State) (n i : Nat) (g : Seg) (v : Variant) (failed : Nat) : State :=
  match s.cmd? n with
  | none => s
  | some c =>
    if s.sealGone c g then s.segFails n .keyErased
    else match s.val.repairs.find? fun e => decide (e.2.old.loc = g.loc) with
      | some (rid, r) =>
        match r.fixed with
        | some f => match s.repairedBytes c r f with
          | (some b, s) => s.segGood n i b
          | (none, s) => s.segFails n .keyErased
        | none =>
          (s.onVal fun x => { x with repairs := tset x.repairs rid { r with readers := r.readers ++ [n] } }).onCmd n
            fun c => { c with repair := some rid }
      | none =>
        if 64 ≤ s.val.repairs.length then
          s.onVal fun x => { x with waitRepair := x.waitRepair.filter (· ≠ n) ++ [n] }
        else
          let (rid, s) := s.addRepair ⟨c.kh, c.key.getD [], c.desc.variant, v.version, i, g, failed, v.template,
            s.locWords g.loc, false, [n], false, none⟩
          ((s.onVal fun x => { x with waitRepair := x.waitRepair.filter (· ≠ n) }).onCmd n
            fun c => { c with repair := some rid }).seekCopy rid

/-- Whether the key of a sealed segment is gone for reads that no command makes (R311). -/
def State.keyGone (s : State) (g : Seg) : Bool :=
  match g.sealWord with
  | none => false
  | some w => !(decide ((s.slot w.slot).st = .loaded) && decide ((s.slot w.slot).serial = w.serial))

/-- A reclaim or refresh read begins a repair for which no command waits (R285, R291, R399, R402); it waits while the table
is full or holds the location. A segment whose key is gone is not repaired (R311, R612). -/
def State.upkeepRepair (s : State) (d : DirRec) (variant : Nat) (v : Variant) (i : Nat) (g : Seg) (failed : Nat) : State :=
  if s.keyGone g ∨ 64 ≤ s.val.repairs.length ∨ (s.val.repairs.any fun e => decide (e.2.old.loc = g.loc)) = true then s
  else
    let (rid, s) := s.addRepair ⟨d.kh, d.key, variant, v.version, i, g, failed, v.template, s.locWords g.loc, true, [],
      false, none⟩
    s.seekCopy rid

/-! ## The queues at the dies (R24, R25, R382, R383) -/

/-- The location that the queued host read of a command needs now. -/
def State.hostRead (s : State) (n : Nat) (c : Cmd) : Option Loc :=
  if c.stage = .working && c.repair.isNone && (c.jobs 0).isEmpty && !s.val.waitRepair.contains n && !s.blockInReset .val then
    (s.nextRead c).bind fun x => if x.2.1.lost || s.rebuilding x.2.1.loc then none else some x.2.1.loc
  else none

/-- Whether a host read of some command is queued at a die. -/
def State.readAt (s : State) (p : Cmd → Bool) (die : Nat × Nat) : Bool :=
  s.sch.cmds.any fun e => p e.2 && (s.hostRead e.1 e.2).any fun loc => (s.readDies loc).contains die

/-- Whether the queue of a die serves a requester of R25 next: EXPRESS reads first, then the round robin over what is ready there
(R24, R382). -/
def State.dieTurn (s : State) (requester : Nat) (express : Bool) (die : Nat × Nat) : Bool :=
  express || (!s.readAt (fun c => decide (c.runClass = .express)) die
    && roundRobin ((tget s.ftl.rrFch (dieChan die)).getD 0) (requester :: s.workAt die
      ++ if s.readAt (fun _ => true) die then [0] else []) = some requester)

/-- Whether a read may run at a die: its channel works, no operation is in progress there but a suspended one (R383), and it is
the requester's turn. -/
def State.readTurn (s : State) (requester : Nat) (express : Bool) (die : Nat × Nat) : Bool :=
  !s.blockInReset (.fch (dieChan die)) && ((tget s.ftl.dieOps (dieKey die)).map (·.suspended)).getD true
    && s.dieTurn requester express die

/-- Whether a read of a location may run at each of its dies. -/
def State.mayRead (s : State) (requester : Nat) (express : Bool) (loc : Loc) : Bool :=
  (s.readDies loc).all (s.readTurn requester express)

/-- Whether a program or erase may come to its end at a die: its channel works, and it is not suspended for reads that are still
queued (R383); one that has not been seen to begin takes its turn. -/
def State.mayFinish (s : State) (requester : Nat) (die : Nat × Nat) : Bool :=
  !s.blockInReset (.fch (dieChan die)) && (match tget s.ftl.dieOps (dieKey die) with
    | some op => !(op.suspended && s.readAt (fun _ => true) die)
    | none => s.dieTurn requester false die)

/-- The reads queued at some dies have run: a suspended operation resumes where none is left (R383). -/
def State.resumeDies (s : State) (dies : List (Nat × Nat)) : State :=
  let ks := (dies.filter fun d => !s.readAt (fun _ => true) d).map dieKey
  s.onFtl fun t => { t with dieOps := t.dieOps.map fun e => if ks.contains e.1 then (e.1, { e.2 with suspended := false }) else e }

/-- FCH serves a requester of R25 at the channels of a location: the pointer of each moves past it (R24, R382). -/
def State.grantFch (s : State) (loc : Loc) (express : Bool) (requester : Nat) : State :=
  if express then s
  else s.onFtl fun t => { t with rrFch := ((s.locWords loc).filterMap fun w => w.map fun w =>
    chanOf w.1 ((s.sb w.1).posOf w.2)).foldl (fun t ch => tset t ch ((requester + 1) % 4)) t.rrFch }

/-! ## SEGMENT_READ (R285, R286) -/

/-- One segment is read for a command: steps 1 to 3 of R285, then the open of a sealed segment or the decoding. -/
def State.readSeg (s : State) (cmd : Nat) (c : Cmd) (i : Nat) (g : Seg) (v : Variant) (ldpcOk : Bool) : State :=
  let s := (s.grantVal c.runClass 1).grantFch g.loc (decide (c.runClass = .express)) 0
  let (lines, s) := (s.spoilLine g.loc ldpcOk).readLines (ledgerLines g.loc (segUnits g.payload.length))
  match if lines then s.checkRead g (locator c.kh c.desc.variant i) ldpcOk else .lost with
  | .rebuildFirst => s
  | .lost => s.startRepair cmd i g v 3
  | .badCheck => s.startRepair cmd i g v 0
  | .clean =>
    if g.sealWord.isSome then
      ((s.issueRef cmd ((g.sealWord.map (·.slot)).getD 0)).setWork cmd i (match tget c.work i with
        | some (.merging part) => .mergeOpen part g
        | _ => .opening g)).fillLanes 16
    else match g.decode g.payload with
      | some b => s.segGood cmd i b
      | none => s.startRepair cmd i g v 1

/-- SEGMENT_READ (R285, R286): at each die it takes the turn of its class (R382), and a suspended operation resumes when no read
is queued any more (R383). -/
def execSegmentRead (cmd : Nat) (ldpcOk : Bool) (s : State) : Host.Outcome State Fault Refusal :=
  .next (s.withCmd cmd (fun c => decide (c.stage = .working) && c.repair.isNone && !s.blockInReset .val) fun _ =>
    let s := s.planRange cmd
    s.withCmd cmd (fun c => decide (c.stage = .working)) fun c =>
      match s.nextRead c with
      | none => s.pathWhenReady cmd
      | some (i, g, v) =>
        let waits := match tget c.work i with
          | some (.opening _) => true
          | _ => false
        if waits || !s.mayRead 0 (decide (c.runClass = .express)) g.loc then s
        else (s.readSeg cmd c i g v ldpcOk).resumeDies (s.readDies g.loc))

/-! ## Cipher jobs (R296, R303, R311, R312) -/

/-- Seal one segment (R301 to R303, R307, R318). -/
def State.sealJob (s : State) (n i : Nat) (g : Seg) : State :=
  match s.cmd? n with
  | none => s
  | some c =>
    let slot := c.act.owner
    match s.takeRef n slot with
    | none => s.writeFails n .keyErased
    | some (gen, s) =>
      match s.sealBytes slot gen (segAad c.desc.variant slot i c.kh g.logicalLen g.compressed) g.payload with
      | none => (s.nonceExhausted slot (((s.generation slot gen).map (·.epoch)).getD 0)).writeFails n .nonceExhausted
      | some ((w, ct, tag), s) =>
        (s.setWork n i (.built ({ g with payload := ct, tag := tag, sealWord := some w }.close
          (locator c.kh c.desc.variant i)))).pathWhenReady n

/-- Open one segment (R311 to R315); the owner in its AAD is the tenant whose slot sealed it. -/
def State.openJob (s : State) (n i : Nat) (g : Seg) : State :=
  match s.cmd? n, g.sealWord with
  | some c, some w =>
    match s.takeRef n w.slot with
    | none => s.segFails n .keyErased
    | some (gen, s) =>
      let v := if c.op = .get then c.observed else s.variantNow c
      match s.openBytes gen w (g.aad c.kh c.desc.variant w.slot i) g.payload g.tag, v with
      | (.keyErased, s), _ => s.segFails n .keyErased
      | (.plain p, s), some v => match g.decode p with
        | some b => s.segGood n i b
        | none => (s.onCmd n fun c => { c with work := match tget c.work i with
            | some (.mergeOpen part _) => tset c.work i (.merging part)
            | _ => tdel c.work i }).startRepair n i g v 1
      | (.tagFailed, s), some v => (s.onCmd n fun c => { c with work := match tget c.work i with
          | some (.mergeOpen part _) => tset c.work i (.merging part)
          | _ => tdel c.work i }).startRepair n i g v 2
      | (_, s), none => s
  | _, _ => s

/-- What the lane of a command's job has finished: the seal or open that it still waits for; a seal of a command that has
ended in the meantime is refused on its own when the counter is exhausted (R303). -/
def State.cmdJob (s : State) (j : CipJob) : State :=
  match (s.cmd? j.cmd).bind fun c => (tget c.work j.seg).map fun w => (c, w) with
  | some (c, .sealing g) => if j.kind = 0 then ((s.readSlot c.act.owner).grantVal c.runClass 2).sealJob j.cmd j.seg g else s
  | some (c, .opening g) | some (c, .mergeOpen _ g) =>
    if j.kind = 1 then ((s.readSlot ((g.sealWord.map (·.slot)).getD 0)).grantVal c.runClass 2).openJob j.cmd j.seg g else s
  | _ =>
    match s.cmd? j.cmd with
    | some c =>
      let k := s.slot c.act.owner
      if j.kind = 0 ∧ (c.outcome.map (·.status)) = some .nonceExhausted ∧ counterEnd ≤ k.counter then
        s.nonceExhausted c.act.owner k.epoch
      else s
    | none => s

/-- A verify-only pass has ended (R313): the tag is computed from the ciphertext, and no output is produced. A tag that fails
begins a repair (R285 step 4, R314); a segment whose key is gone has no check left (R311). -/
def State.verifyJob (s : State) (loc : Loc) : State :=
  match s.cip.checks.find? fun k => decide (k.old.loc = loc) with
  | none => s
  | some k =>
    let pass (s : State) := s.onCip fun c => { c with checks := c.checks.map fun x =>
      if x.old.loc = loc then { x with ok := true } else x }
    match k.old.sealWord with
    | none => pass s
    | some w =>
      let s := (s.readSlot w.slot).grantVal .normal 2
      match s.openBytes (s.slot w.slot).gen w (k.old.aad k.kh k.variant w.slot k.seg) k.old.payload k.old.tag with
      | (.tagFailed, s) =>
        let s := s.onCip fun c => { c with checks := c.checks.filter fun x => decide (x.old.loc ≠ loc) }
        (match (dirFind s.idx.dir k.key).bind fun d => (tget d.variants k.variant).map fun v => (d, v) with
        | some (d, v) =>
          if (tget v.segs k.seg).map (·.loc) = some loc then s.upkeepRepair d k.variant v k.seg k.old 2 else s
        | none => s)
      | (_, s) => pass s

/-- The counter value of a seal whose cores disagreed is spent (R296, R302). -/
def State.spendCounter (s : State) (j : CipJob) : State :=
  match s.cmd? j.cmd with
  | some c =>
    if j.kind = 0 then
      match s.takeRef j.cmd c.act.owner with
      | some (gen, s) => ((s.drawCounter c.act.owner gen).map (·.2)).getD s
      | none => s
    else s
  | none => s

/-- CIPHER_JOB_DONE (R295 to R297, R303, R306, R311 to R314, R318): the job on a lane ends, and the lane is free for the next;
when its cores disagree it runs again on another lane. `cmd` is the command whose job it is. -/
def execCipherJobDone (cmd : Option Nat) (lane : Nat) (agree : Bool) (s : State) : Host.Outcome State Fault Refusal :=
  .next (if s.blockInReset .cip then s
  else match tget s.cip.running lane with
  | none => s
  | some j => guardStep (decide (cmd = j.owner)) s fun s =>
    let s := s.onCip fun c => { c with running := tdel c.running lane }
    let s := if agree then (if j.kind = 2 then s.verifyJob j.loc else (s.cmdJob j).dropIdleRef j.cmd)
      else ((s.laneMismatch lane j.kind).spendCounter j).onCip fun c => { c with rerun := c.rerun ++ [(j, lane)] }
    s.fillLanes 16)

/-! ## A second copy (R287 to R289, R612) -/

/-- Decode an opened copy (R285 step 5). -/
def Seg.decoded (g : Seg) (p : Bytes) : Opened :=
  match g.decode p with
  | some b => .plain b
  | none => .tagFailed

/-- Open and decode a stored copy for a reader: its logical bytes when it passes steps 2 to 5 of R285, or that its key is
gone (R311). -/
def State.readCopy (s : State) (r : Repair) (g : Seg) : Opened × State :=
  if g.hdrHolds && g.crcHolds (locator r.kh r.variant r.seg) then
    match g.sealWord with
    | none => (g.decoded g.payload, s)
    | some w =>
      let gen := (((r.readers.head?).bind s.cmd?).map fun c => s.openGen c w.slot).getD (s.slot w.slot).gen
      match s.openBytes gen w (g.aad r.kh r.variant w.slot r.seg) g.payload g.tag with
      | (.plain p, s) => (g.decoded p, s)
      | (e, s) => (e, s)
  else (.tagFailed, s)

/-- The key of a segment under repair has gone: the repair ends, and its readers' segment fails with KEY_ERASED (R311). -/
def State.repairErased (s : State) (rid : Nat) : State :=
  match s.repair? rid with
  | none => s
  | some r => r.readers.foldl (fun s n => s.segFails n .keyErased) (s.dropRepair rid)

/-- The rewrite is not made: REPAIR_REWRITE_SKIPPED (R289, R612). -/
def State.skipRewrite (s : State) (rid : Nat) : State :=
  match s.repair? rid with
  | none => s
  | some r => ((s.raise 387 (item8 (locWord r.old.loc))).bump Reg.VAL_READ_STAT_REWRITES_SKIPPED).dropRepair rid

/-- Readers go on with the good bytes (R288). -/
def State.readersGo (s : State) (r : Repair) (logical : Bytes) : State :=
  r.readers.foldl (fun s n => s.segGood n r.seg logical) s

/-- The repaired segment is given a new location and its rewrite joins the key's gate; without a segment or a
location the rewrite is skipped (R289, R612). -/
def State.queueRewrite (s : State) (rid : Nat) (g : Option Seg) : State :=
  match s.repair? rid, g with
  | some r, some g =>
    match s.allocHost r.old.parityP (segUnits g.payload.length) with
    | none => s.skipRewrite rid
    | some (loc, s) =>
      let (g, s) := s.writeSegAt g loc (locator r.kh r.variant r.seg)
      (s.onVal fun v => { v with repairs := tset v.repairs rid { r with readers := [], fixed := some g } }).onSch
        fun h => { h with gate := h.gate ++ [⟨r.kh, s.gateWaiters r.kh, some rid, none, none⟩] }
  | _, _ => s.skipRewrite rid

/-- Classify a repair, record it, let the readers go on and queue the rewrite (R288, R612). `check` says that only the
check values were wrong; no classification is made when LDPC was the first check to fail (R286). -/
def State.repairGood (s : State) (rid : Nat) (check : Bool) (source : Nat) (logical : Bytes) (g : Option Seg) : State :=
  match s.repair? rid with
  | none => s
  | some r =>
    let where_ := item8 (locWord r.old.loc) ++ item8 (locator r.kh r.variant r.seg).toNat ++ item2 source
    let s := if r.failed = 3 then s
      else if check then (s.raise 384 where_).bump Reg.VAL_REPAIR_STAT_CHECK_REPAIRS
      else (s.raise 385 (where_ ++ item1 r.failed)).bump Reg.VAL_REPAIR_STAT_DATA_RECOVERIES
    let s := if r.failed = 2 then s.bump Reg.CIP_AUTH_STAT_TAG_REPAIRS else s
    (s.queueRewrite rid g).readersGo r logical

/-- The segment with its check values computed again (R288). -/
def Repair.closed (r : Repair) (g : Seg) : Seg := g.close (locator r.kh r.variant r.seg)

/-- The stored copy that READ_REPAIR brings (R287): of a staged segment copy B of its Ledger lines, which holds the true check
values (R293); of a flash location what its codewords give, rebuilt or from the staging buffers (R393, R399). -/
def State.secondCopy (s : State) (r : Repair) : Bytes :=
  match r.old.loc with
  | .ledger _ => (ledgerLines r.old.loc (segUnits r.old.payload.length)).flatMap fun l =>
      padTo 64 (((tget s.ldg.lines l).map (·.2)).getD [])
  | .flash _ _ _ => s.rebuiltBytes r.old.loc

/-- READ_REPAIR (R287, R288, R290): the local second copy of a segment arrives, or there is none. -/
def execReadRepair (repair : Nat) (copy : RepairCopy) (s : State) : Host.Outcome State Fault Refusal :=
  .next (match s.repair? repair with
  | none => s
  | some r =>
    if r.asked ∨ r.fixed.isSome = true then s
    else
      let s := s.grantVal .normal 3
      let none_ (s : State) := match r.old.loc with
        | .ledger _ => if r.template = 0 then s.repairLost repair else s.askPeers repair
        | .flash _ _ _ => s.repairLost repair
      match copy with
      | .noCopy => none_ s
      | .stored _ passes =>
        let g := parseSeg (s.secondCopy r) r.old
        match if passes then s.readCopy r g else (.tagFailed, s) with
        | (.keyErased, s) => s.repairErased repair
        | (.tagFailed, s) => none_ s
        | (.plain b, s) =>
          let check := decide (r.failed ≠ 2) && decide (g.middle = r.old.middle) && decide (g.payload = r.old.payload)
          s.repairGood repair check 0xFFFF b (some (r.closed (if check then r.old else g))))

/-! ## The copy of a peer (R288, R438) -/

/-- A peer's bytes as a new stored segment under the treatment recorded for the variant; none when the seal is refused
(R288, R612). -/
def State.storeAnew (s : State) (r : Repair) (b : Bytes) : Option Seg × State :=
  let treat := (((dirFind s.idx.dir r.key).bind fun d => tget d.variants r.variant).map (·.compressed)).getD false
  let (p, comp, s) := s.pack treat b
  let g := Seg.raw p b.length comp r.old.parityP
  match r.old.sealWord with
  | none => (some (r.closed g), s)
  | some w =>
    let k := s.slot w.slot
    match s.sealBytes w.slot k.gen (segAad r.variant w.slot r.seg r.kh g.logicalLen g.compressed) g.payload with
    | none => (none, if k.st = .loaded then s.nonceExhausted w.slot k.epoch else s)
    | some ((w, ct, tag), s) => (some (r.closed { g with payload := ct, tag := tag, sealWord := some w }), s)

/-- The local read decoded through steps 4 and 5 (R288). -/
def State.localBytes (s : State) (r : Repair) : Opened × State := s.readCopy r (r.closed r.old)

/-- A peer's answer supplies the segment (R438): READ_REPAIR_DONE, and the classification of R288. -/
def State.peerCopy (s : State) (rid peer : Nat) (b : Bytes) : State :=
  match s.repair? rid with
  | none => s
  | some r =>
    let s := (s.raise 1030 (item8 r.kh.toNat ++ item4 r.seg ++ item2 peer)).bump Reg.PEER_REPAIR_STAT_REPAIRS
    let s := s.grantVal .normal 3
    let (own, s) := if r.failed = 0 then s.localBytes r else (.tagFailed, s)
    if own = .plain b then s.repairGood rid true peer b (some (r.closed r.old))
    else
      let (g, s) := s.storeAnew r b
      s.repairGood rid false peer b g

/-! ## The rewrite at its gate (R289) -/

/-- Put a segment of the current version at a new location: its map pages and its record are written again (R374),
and the old bytes are dead. -/
def State.moveSeg (s : State) (d : DirRec) (variant : Nat) (v : Variant) (i : Nat) (old g : Seg) : State :=
  let v' := { v with segs := tset v.segs i g }
  let pages := if v'.rootKind = 2 then mapPagesOf (segCount v.length) [i] else []
  let (maps, s) := s.stageMaps v' d.kh variant pages v.maps
  let s := s.drawMeta (s.pairLines (d.lines + 1 + v'.mapLines pages))
  let s := (s.releaseMaps v (pages.filter fun j => (tget v.maps j).isSome)).releaseSeg old
  let d := { d with variants := tset d.variants variant { v' with maps := maps } }
  (s.writeRecord d).commitLine 1 d d.version d.owner

/-- Whether the staging class has lines for a segment's move (R348). -/
def State.moveFits (s : State) (d : DirRec) (v : Variant) (i : Nat) : Bool :=
  s.stagingFits (d.lines + if v.rootKind = 2 then v.mapLines (mapPagesOf (segCount v.length) [i]) else 0)

/-- REPAIR_REWRITE (R289): at the front of the gate it takes effect only if the old location still holds that segment
of the current version, and lies where it was read; else it is dropped and its copy released. -/
def execRepairRewrite (repair : Nat) (s : State) : Host.Outcome State Fault Refusal :=
  .next (match s.repair? repair, s.sch.gate.find? fun g => g.repair = some repair with
  | some r, some item =>
    match r.fixed with
    | none => s
    | some g =>
      if s.itemFront item && s.programmed g.loc then
        match (dirFind s.idx.dir r.key).bind fun d => (tget d.variants r.variant).map fun v => (d, v) with
        | some (d, v) =>
          if v.version = r.version ∧ (tget v.segs r.seg).map (·.loc) = some r.old.loc ∧ s.locWords r.old.loc = r.words then
            if s.moveFits d v r.seg then (s.moveSeg d r.variant v r.seg r.old g).dropRepair repair else s
          else (s.releaseSeg g).skipRewrite repair
        | none => (s.releaseSeg g).skipRewrite repair
      else s
  | _, _ => s)

end Sys2Proof.Machine
end

