-- ==== Sys2Proof/Machine/Commit.lean ====
section
/-! DEFINITION. The commit gate (R174 to R177): its checks (R45, R67, R144, R210, R414), the path along a chain (R426 to
R430), the commit itself (R213, R310, R374, R606), and mirror changes (R220, R221). -/

namespace Sys2Proof.Machine

/-! ## What a write makes of a key -/

/-- The stored segments of the variant after the write. -/
def Cmd.newSegs (c : Cmd) (old : Tbl Seg) : Tbl Seg :=
  c.work.foldl (fun t e => match e.2 with
    | .durable g => tset t e.1 g
    | .hole => tdel t e.1
    | _ => t) (if c.op = .put then [] else old)

/-- The variant after the write, its map pages not yet placed (R54, R74, R213). -/
def Cmd.newVariant (c : Cmd) (old : Option Variant) : Variant :=
  let segs := c.newSegs ((old.map (·.segs)).getD [])
  { length := c.newLength ((old.map (·.length)).getD 0), version := c.version,
    sealed := segs.any fun g => g.2.sealWord.isSome, compressed := segs.any fun g => g.2.compressed,
    parityP := c.act.parityP, template := c.act.template, segs := segs, maps := [] }

/-- The key's record after the write (R48, R66). -/
def Cmd.newRecord (c : Cmd) (old : Option DirRec) (v : Variant) : DirRec :=
  match old with
  | some r => { r with owner := c.act.owner, variants := tset r.variants c.desc.variant v }
  | none => ⟨c.kh, c.key.getD [], c.act.owner, false, .ledger 0, [(c.desc.variant, v)]⟩

/-- The key's record as the directory holds it. -/
def State.recordNow (s : State) (c : Cmd) : Option DirRec := dirFind s.idx.dir (c.key.getD [])

/-- The record that a PUT, WRITE_RANGE or PUNCH would leave. -/
def State.recordAfter (s : State) (c : Cmd) : DirRec := c.newRecord (s.recordNow c) (c.newVariant (s.variantNow c))

/-- Stored segments that the commit makes dead: those of the old variant that the new one does not name. -/
def deadSegs (old new : Tbl Seg) : List Seg :=
  (old.filter fun e => decide ((tget new e.1).map (·.loc) ≠ some e.2.loc)).map (·.2)

/-! ## Quota (R66, R67) -/

/-- Bytes and keys that a write would add to its owner. A key that comes from another owner counts as one more key of its new
owner, which KEY_QUOTA then bounds like a created one: R67 names only created keys (DESIGN CHOICE, log 178). -/
def State.chargeOf (s : State) (c : Cmd) : Int × Int :=
  let after := s.recordAfter c
  match s.recordNow c with
  | some r => if r.owner = c.act.owner then ((after.charged : Int) - r.charged, 0) else (after.charged, 1)
  | none => (after.charged, 1)

/-- The most that the undecided lower writes to the key of a write may add to it, whoever owns them. -/
def State.keyGrowth (s : State) (c : Cmd) : Nat :=
  ((s.sch.cmds.filter fun e => e.2.op.isWrite && !e.2.decided && !e.2.committed && decide (e.2.version < c.version)
    && (e.2.key.isNone || decide (e.2.kh = c.kh))).map fun e => e.2.desc.length + 131072).foldl (· + ·) 0

/-- What the key of a write would bring to the write's owner besides the written bytes, when another owner holds it
by then (R66). -/
def State.broughtAlong (s : State) (c : Cmd) : Nat :=
  let now := s.recordNow c
  if s.lowerWrites c.kh c.version || s.lowerKeyless c.version then (now.map DirRec.charged).getD 0 + s.keyGrowth c
  else match now with
    | some r => if r.owner = c.act.owner then 0 else r.charged
    | none => 0

/-- The most by which a WRITE_RANGE can raise the charge of a variant (R58, R66): the segments it covers become whole and
stored, and the old last segment grows. -/
def Cmd.rangeGain (c : Cmd) (old : Variant) : Nat :=
  let len := c.newLength old.length
  let first := c.desc.offset / 65536
  let last := (c.desc.offset + c.desc.length - 1) / 65536
  let had := ((old.segs.filter fun g => decide (first ≤ g.1) && decide (g.1 ≤ last)).map fun g => segLen old.length g.1).foldl
    (· + ·) 0
  let tail := old.length / 65536
  let grown := if decide (tail < first) && (tget old.segs tail).isSome then segLen len tail - segLen old.length tail else 0
  if c.desc.length = 0 then 0 else min len (65536 * (last + 1)) - 65536 * first - had + grown

/-- The most bytes that a write may still add to its variant (R66, R67): what it can add net, while no lower write to its key
is undecided. -/
def State.mostGain (s : State) (c : Cmd) : Nat :=
  let old := s.variantNow c
  if s.lowerWrites c.kh c.version || s.lowerKeyless c.version then
    (match c.op with
      | .put => c.desc.length
      | .writeRange => c.desc.length + 131072
      | _ => 0)
  else match c.op, old with
    | .put, some v => c.desc.length - v.charged
    | .put, none => c.desc.length
    | .writeRange, some v => c.rangeGain v
    | _, _ => 0

/-- Whether the owner's key count may still rise by a write: its key is absent or another owner's, or a lower write to
it is undecided. -/
def State.keyMayCount (s : State) (c : Cmd) : Bool :=
  s.lowerWrites c.kh c.version || ((s.recordNow c).map fun r => decide (r.owner ≠ c.act.owner)).getD true

/-- What an undecided write may still reserve (R67): exact at the front of its gate, else the most that it can add net;
without a policy result its owner may be any. -/
def State.mayReserve (s : State) (c : Cmd) : Nat × Nat :=
  let keys := if s.keyMayCount c then 1 else 0
  if c.op = .delete then (0, 0)
  else if c.searches then (c.desc.length + 131072 + ((s.recordNow c).map DirRec.charged).getD 0 + s.keyGrowth c, 1)
  else if (c.stage = .gated ∨ c.stage = .forwarded) ∧ s.lowerWrites c.kh c.version = false then
    ((s.chargeOf c).1.toNat, (s.chargeOf c).2.toNat)
  else (s.mostGain c + s.broughtAlong c, keys)

/-- Undecided writes with a lower version that have the same owner, or may have it: their search is not done. -/
def State.ownerLower (s : State) (c : Cmd) : List Cmd :=
  (s.sch.cmds.filter fun e => e.2.op.isWrite && !e.2.decided && !e.2.committed && decide (e.2.version < c.version)
    && (e.2.searches || (e.2.action?.isSome && decide (e.2.act.owner = c.act.owner)))).map (·.2)

/-- Whether a quota refuses the write: a charge that rises past it. -/
def quotaBroken (used quota : Nat) (add : Int) : Bool :=
  decide (quota ≠ 0) && decide (0 < add) && decide ((quota : Int) < (used : Int) + add)

/-- NO_SPACE by quota (R67); not while usage is being counted again (R484). -/
def State.overQuota (s : State) (c : Cmd) : Bool :=
  let t := s.tenant c.act.owner
  let u := s.usageOf c.act.owner
  let (b, k) := s.chargeOf c
  !s.sch.recount && (quotaBroken u.bytes t.byteQuota b || quotaBroken u.keys t.keyQuota k)

/-- Whether the write's admission depends on lower writes of its owner (R67): with their reservations it would pass
the quota. -/
def State.quotaWaits (s : State) (c : Cmd) : Bool :=
  let t := s.tenant c.act.owner
  let u := s.usageOf c.act.owner
  let (b, k) := s.chargeOf c
  let low := (s.ownerLower c).map s.mayReserve
  let lb := (low.map (·.1)).foldl (· + ·) 0
  let lk := (low.map (·.2)).foldl (· + ·) 0
  !s.sch.recount && !low.isEmpty && (quotaBroken (u.bytes + lb) t.byteQuota b || quotaBroken (u.keys + lk) t.keyQuota k)

/-! ## Space and placement (R45, R210, R414) -/

/-- 64-byte units of stored segments on flash or for it. -/
def segsUnits (gs : List Seg) : Nat := (gs.map fun g => segUnits g.payload.length).foldl (· + ·) 0

/-- Whether a segment lies on flash. -/
def Seg.onFlash (g : Seg) : Bool :=
  match g.loc with
  | .flash _ _ _ => true
  | .ledger _ => false

/-- R414: the commit would raise U above 640 × 10^12 bytes. -/
def State.overSpace (s : State) (c : Cmd) : Bool :=
  let mine := c.work.filterMap fun e => match e.2 with
    | .durable g => some g
    | _ => none
  let base := s.flashUse - 64 * segsUnits (mine.filter Seg.onFlash)
  let dead := deadSegs ((((s.variantNow c).map (·.segs)).getD [])) (c.newVariant (s.variantNow c)).segs
  let after := base + 64 * segsUnits mine - 64 * segsUnits (dead.filter Seg.onFlash)
  decide (640000000000000 < after) && decide (base < after)

/-- Whether no relocation path places the key's slot (R210): a key that has none yet, be it new or not yet walked by a
rebuild (R226). -/
def State.unplaceable (s : State) (c : Cmd) : Bool :=
  (s.tableInsert (s.recordAfter c)).isNone

/-- What the gate itself finds besides placement (R45, R67, R144, R152, R153, R414, R416). -/
def State.gateConds (s : State) (c : Cmd) : List Status :=
  let held := s.heldVersion c
  let absent := match c.op with
    | .delete => (s.recordNow c).isNone && c.ctx.isSome
    | .put => false
    | _ => (s.variantNow c).isNone
  (if s.ldg.kept.bindOff && decide (c.op ≠ .delete) then [.mediaExhausted] else [])
    ++ (if absent then [.notFound] else [])
    ++ (if c.desc.ifVersion && decide (held ≠ c.desc.condVersion) then [.versionConflict] else [])
    ++ (if c.op ≠ .delete && !absent && ((decide (maxKeys ≤ s.keyCount) && (s.recordNow c).isNone) || s.overQuota c
        || s.overSpace c) then [.noSpace] else [])

/-! ## Waiting for lines and tokens (R344, R348) -/

/-- A commit draws the tokens of its metadata lines and goes on; short of them it joins the queue of the draws, once, and
goes on when the refill has served it (R344, R345). -/
def State.withTokens (s : State) (n lines : Nat) (f : State → State) : State :=
  let short := lines - ((s.cmd? n).map (·.tokens)).getD 0
  if short = 0 then f s
  else if s.tokensWaited n then s
  else if s.metaAdmitted short then f (s.lowerGauge short)
  else s.queueMeta short (some n)

/-- The staging class has too few lines even with its reserve: STAGING_FULL, METADATA_WAITS counts the wait, and the commit
waits (R348). -/
def State.waitStaging (s : State) (n : Nat) : State :=
  s.withCmd n (fun c => !c.waited) fun _ =>
    (((s.onLdg fun l => { l with stagingFull := true }).raise 522 (item4 (s.classFree 0 / 64))).bump
      Reg.LDG_GAUGE_STAT_METADATA_WAITS).onCmd n fun c => { c with waited := true }

/-! ## Effects of a commit -/

/-- The charge of a key moves with a write (R66): what it was charged goes, what it is charged now comes. -/
def State.recharge (s : State) (old new : Option DirRec) : State :=
  let s := match old with
    | some r => s.addUsage r.owner (-(r.charged : Int)) (-1) (if r.pinned then -1 else 0)
    | none => s
  match new with
  | some r => s.addUsage r.owner r.charged 1 (if r.pinned then 1 else 0)
  | none => s

/-- The highest version of its queue pair's writes that took effect, which a later FLUSH reports (R140). -/
def State.noteVersion (s : State) (n : Nat) (c : Cmd) : State :=
  match c.ctx with
  | none => s
  | some ctx =>
    (s.onQp ctx fun q => { q with topVersion := max q.topVersion c.version }).onSch fun h => { h with
      cmds := h.cmds.map fun e =>
        if e.2.op = .flush && e.2.ctx = some ctx && decide (n < e.1) then
          (e.1, { e.2 with counted := max e.2.counted c.version }) else e }

/-- The commit lines of a write (R334, R606): one for each owner whose usage it changes, the old owner's first. -/
def State.commitLines (s : State) (kind : Nat) (r : DirRec) (version : Nat) (old : Option DirRec) : State :=
  let s := match old with
    | some o => if o.owner = r.owner then s else s.commitLine kind r version o.owner
    | none => s
  s.commitLine kind r version r.owner

/-- How many commit lines a write has. -/
def commitLineCount (old : Option DirRec) (owner : Nat) : Nat :=
  match old with
  | some o => if o.owner = owner then 1 else 2
  | none => 1

/-- Dead segments are released; a successor keeps them for a revoke (R435). -/
def State.buryOrKeep (s : State) (c : Cmd) (whole : Bool) (before : Option DirRec) (dead : List Seg) : State :=
  match c.ctx, c.chain with
  | none, some m => s.onPeer fun p => { p with revoke := p.revoke
      ++ [⟨c.kh, c.key.getD [], c.version, c.desc.variant, whole, m.srcPeer, before, dead⟩] }
  | _, _ => s.releaseSegs dead

/-- The status that a committed write ends with: CHAIN_DEGRADED when its chain left it so (R434). -/
def Cmd.commitStatus (c : Cmd) : Status := if c.conds.contains .chainDegraded then .chainDegraded else .ok

/-- End a write that has committed (R141, R186); the entry may still count COPIES 1 (no chain). -/
def State.committed (s : State) (n : Nat) (c : Cmd) (valid : Nat) : State :=
  let s := (s.onCmd n fun c => { c with committed := true }).noteVersion n c
  let s := if c.commitStatus = .chainDegraded then
      (s.raise 1026 (item8 c.kh.toNat ++ item8 c.version ++ item1 (max 1 c.copies))).bump Reg.PEER_CHAIN_STAT_DEGRADED
    else s
  s.endCmd n ⟨c.commitStatus, max 1 c.copies, c.version, valid, false, false⟩

/-- A pin that the write's rule asks for (R86): refused with its event, or queued as a mirror change (R220). -/
def State.pinByRule (s : State) (c : Cmd) (r : DirRec) : State :=
  let due := (s.idx.pending ++ s.idx.waiting).any fun x => match x with
    | .pin _ key _ _ gone => !gone && decide (key = r.key)
    | _ => false
  if c.act.expressPin && !r.pinned && !due then
    match s.pinRefusal r r.owner with
    | some reason => s.pinRefused r.kh c.act.ruleTag reason
    | none => s.queueMirror (.pin r.kh r.key c.act.ruleTag none false)
  else s

/-- Segments whose map entries a write changes (R374): all of a new map; else those rewritten and those added. -/
def Cmd.changedSegs (c : Cmd) (old : Option Variant) (v : Variant) : List Nat :=
  match old with
  | some o =>
    if c.op = .put ∨ o.rootKind ≠ 2 then List.range (segCount v.length)
    else c.work.map (·.1) ++ (List.range (segCount v.length)).drop (segCount o.length)
  | none => List.range (segCount v.length)

/-- Map pages that a write rewrites. -/
def Cmd.newPages (c : Cmd) (old : Option Variant) (v : Variant) : List Nat :=
  if v.rootKind = 2 then mapPagesOf (segCount v.length) (c.changedSegs old v) else []

/-- VALID_BYTES of a write that took effect (R140). -/
def Cmd.validBytes (c : Cmd) (old : Option Variant) : Nat :=
  match c.op with
  | .punch => min (c.desc.offset + c.desc.length) ((old.map (·.length)).getD 0) - c.desc.offset
  | _ => c.desc.length

/-- Map pages that a write leaves where they are. -/
def Variant.keptMaps (v : Variant) (old : Option Variant) (pages : List Nat) (whole : Bool) : Tbl Loc :=
  match old with
  | some o => if !whole ∧ v.rootKind = 2 ∧ o.rootKind = 2 then o.maps.filter fun e => !pages.contains e.1 else []
  | none => []

/-- Commit a PUT, WRITE_RANGE or PUNCH whose lines are drawn: the record, the slot and the commit line; the old
locations are dead, the charge moves, the pin is asked for (R174, R213, R368, R606). -/
def State.commitWrite (s : State) (n : Nat) (c : Cmd) : State :=
  let old := s.recordNow c
  let ov := s.variantNow c
  let v := c.newVariant ov
  let pages := c.newPages ov v
  let kept := v.keptMaps ov pages (c.op = .put)
  let (maps, s) : Tbl Loc × State := match c.maps with
    | some t => (t.foldl (fun m e => tset m e.1 e.2) kept, s)
    | none => s.stageMaps v c.kh c.desc.variant pages kept
  let s : State := match ov with
    | some o => s.releaseMaps o ((o.maps.map (·.1)).filter fun j => (tget kept j).isNone)
    | none => s
  let s := s.buryOrKeep c false old (deadSegs ((ov.map (·.segs)).getD []) v.segs)
  let r := c.newRecord old { v with maps := maps }
  let s := ((s.recharge old (some r)).writeRecord r).commitLines 1 r c.version old
  (s.pinByRule c r).committed n c (c.validBytes ov)

/-- Commit a DELETE: the key goes with all its variants (R49, R88, R153). A successor that does not hold the key
commits the DELETE all the same (R431). -/
def State.commitDelete (s : State) (n : Nat) (c : Cmd) : State :=
  match s.recordNow c with
  | none => if c.ctx.isNone then s.committed n c 0 else (s.addCond n .notFound).failCmd n 0
  | some r =>
    let s := r.variants.foldl (fun s v => s.releaseMaps v.2 (v.2.maps.map (·.1))) s
    let s := s.buryOrKeep c true (some r) r.segs
    let s := (if r.pinned then s.unmirror r.kh r.key else s).dropPins r.kh r.key
    let s := ((s.recharge (some r) none).removeRecord r).commitLine 2 r c.version r.owner
    s.committed n c r.variants.length

/-- Whether a DELETE's mirror change is under way (R221). -/
def State.deletePending (s : State) (n : Nat) : Bool :=
  (s.idx.pending ++ s.idx.waiting).any fun x => match x with
    | .delete m _ _ => decide (m = n)
    | _ => false

/-- A DELETE draws its commit line; of a pinned key it commits when the mirror change has taken effect (R221). -/
def State.tryDelete (s : State) (n : Nat) (c : Cmd) (r : DirRec) : State :=
  if s.deletePending n then s
  else s.withTokens n (s.pairLines 1) fun s =>
    if r.pinned then s.queueMirror (.delete n r.kh r.key) else s.commitDelete n c

/-- Place the map pages of a flash-path write in the META stream, once; none when no space can be opened (R374). -/
def State.placeMaps (s : State) (n : Nat) (c : Cmd) (v : Variant) (pages : List Nat) : Option State :=
  if c.ledgerPath = some false ∧ pages ≠ [] ∧ c.maps = none then
    let kept := v.keptMaps (s.variantNow c) pages (c.op = .put)
    (s.allocMaps { v with maps := kept } c.kh c.desc.variant pages []).map fun (t, s) =>
      s.onCmd n fun c => { c with maps := some t }
  else some s

/-- A write that nothing refuses commits when its map pages are durable, the staging class holds its lines, and the
gauge holds their tokens (R183, R344, R348). -/
def State.tryWrite (s : State) (n : Nat) (c : Cmd) : State :=
  let v := c.newVariant (s.variantNow c)
  let pages := c.newPages (s.variantNow c) v
  match s.placeMaps n c v pages with
  | none => (s.addCond n .noSpace).failCmd n 0
  | some s =>
    s.withCmd n (fun _ => true) fun c =>
      let placed := (c.maps.getD []).all fun e => s.programmed e.2
      let units := (s.recordAfter c).lines + (if c.maps.isSome then 0 else v.mapLines pages)
      let lines := s.pairLines (units + commitLineCount (s.recordNow c) c.act.owner)
      if !placed then s
      else if !s.stagingFits units then s.waitStaging n
      else s.withTokens n lines fun s => s.commitWrite n c

/-- A placement failure (R210): the write ends with NO_SPACE. -/
def State.placementFailed (s : State) (n : Nat) (kh : W64) : State := ((s.noPlace kh).addCond n .noSpace).failCmd n 0

/-- Commit a write at the front of its gate, or let it wait; one that its chain has acknowledged may find no place any
more (R210). -/
def State.tryCommit (s : State) (n : Nat) : State :=
  s.withCmd n (fun c => decide (c.stage = .gated)) fun c =>
    match c.op, s.recordNow c with
    | .delete, some r => s.tryDelete n c r
    | .delete, none => s.commitDelete n c
    | _, _ => if s.unplaceable c then s.placementFailed n c.kh else s.tryWrite n c

/-! ## Chains (R426 to R430, R432, R433) -/

/-- A write is told its chain's outcome: COPIES in all, and whether fewer than the template names; it commits. -/
def State.chainCommit (s : State) (n copies : Nat) (degraded : Bool) : State :=
  (s.onCmd n fun c => { c with
    stage := .gated, copies := copies
    conds := if degraded then c.conds ++ [.chainDegraded] else c.conds }).tryCommit n

/-- The STORE byte of an action (R71). -/
def Action.store (a : Action) : Nat :=
  a.classCeil + (if a.parityP then 4 else 0) + (if a.allowUnreplicated then 8 else 0) + (if a.sealIt then 16 else 0)
    + (if a.compress then 32 else 0) + (if a.expressPin then 64 else 0)

/-- The CHAIN_WRITE of a command (R423, R430); a successor hands PRIOR_VERSION of the head on. -/
def State.chainMsg (s : State) (c : Cmd) (hop : Nat) (path : List Nat) (best : Bool) : PeerMsg :=
  { ctx := 0, hop := hop, depth := path.length, template := c.act.template, srcPeer := 0, policyBest := best,
    sealed := false, path := path, version := c.version, keyHash := c.kh, wop := c.op.code, variant := c.desc.variant,
    ownerTenant := c.act.owner, store := c.act.store, status := 0, copies := 0, offset := c.desc.offset,
    length := c.desc.length, segIndex := 0, msgSeq := 0, priorVersion := (match c.ctx, c.chain with
      | none, some m => m.priorVersion
      | _, _ => ((s.variantNow c).map (·.version)).getD 0),
    keyLen := (c.key.getD []).length, bufAddr := 0, bufRkey := 0, crc := 0, cls := some c.runClass.code,
    key := c.key.getD [], headers := [], data := c.buffer }

/-- Whether SCH may send a forward of a class to PEER: PEER takes work, and SCH holds a credit (R18, R22, R26). -/
def State.mayForward (s : State) (c : Cmd) : Bool :=
  !s.blockInReset .peer && (decide (c.stage = .forwarded) || decide (0 < (s.pool 11 0 c.runClass.code).1))

/-- Forward a write to a peer of its path and wait for its acknowledgement. A write whose data cannot be sealed for transit
ends with what bars the seal (R303, R326). The path that it keeps begins with the peer it waits for; the head keeps what it sent, with the
template's DEPTH, to decide the write by (R429, R434). -/
def State.forward (s : State) (n : Nat) (c : Cmd) (peer hop : Nat) (path : List Nat) (best : Bool) (depth : Nat) :
    State :=
  let m := s.chainMsg c hop path best
  match s.transitBar peer m.data.length with
  | some st =>
    let s := if st = .nonceExhausted then s.transitRefused peer else s
    (s.addCond n st).failCmd n 0
  | none =>
    (s.sendPeer peer 1 m).onCmd n fun c => { c with
      stage := .forwarded, path := path.drop (hop - 1)
      chain := if c.ctx.isSome then some { m with depth := depth, data := [] } else c.chain }

/-- CHAIN_FAILED at the head (R426, R428, R434): recorded and counted; a forwarded write is revoked at every UP peer
of its path (R435). -/
def State.chainFailed (s : State) (n : Nat) : State :=
  match s.cmd? n with
  | none => s
  | some c =>
    let s := (s.raise 1027 (item8 c.kh.toNat ++ item8 c.version)).bump Reg.PEER_CHAIN_STAT_FAILED
    let s := if c.stage = .forwarded then
        (c.path.filter fun p => s.peerLive p = .up).foldl (fun s p =>
          s.sendPeer p 3 { s.chainMsg c 0 c.path false with data := [] }) s
      else s
    (s.addCond n .chainFailed).failCmd n 0

/-- The head's path for a write (R428): the first DEPTH peers of the key's slot, without DOWN ones; a peer that is
not UP counts as DOWN (R422; DEDUCED, log 19). -/
def State.headPath (s : State) (kh : W64) (depth : Nat) : List Nat :=
  ((s.slotPeers kh).take depth).filter fun p => s.peerLive p = .up

/-- The head's write is at the front of its gate (R426, R428 to R430, R440). -/
def State.headChain (s : State) (n : Nat) (c : Cmd) : State :=
  if c.act.template = 0 then s.tryCommit n
  else match tget s.peer.templates c.act.template with
    | none => s.chainFailed n
    | some t =>
      let path := s.headPath c.kh t.depth
      if s.peer.suspended then (if t.best then s.chainCommit n 1 true else s.chainFailed n)
      else if !t.best && decide (path.length < t.depth) then s.chainFailed n
      else match path with
        | [] => s.chainCommit n 1 true
        | p :: _ => if s.mayForward c then s.forward n c p 1 path t.best t.depth else s

/-- A successor's write is at the front of its gate: the tail commits; another forwards it, skipping DOWN peers under
BEST (R432, R433, R440). -/
def State.successorChain (s : State) (n : Nat) (c : Cmd) (m : PeerMsg) : State :=
  let rest := ((List.range m.path.length).zip m.path).drop m.hop
  match rest with
  | [] => s.chainCommit n 1 false
  | (_, next) :: _ =>
    if m.policyBest then
      match if s.peer.suspended then none else rest.find? fun e => s.peerLive e.2 = .up with
      | some (i, p) => if s.mayForward c then s.forward n c p (i + 1) m.path true m.path.length else s
      | none => s.chainCommit n 1 false
    else if s.peer.suspended ∨ s.peerLive next ≠ .up then s.endCmd n (Outcome.of .chainFailed)
    else if s.mayForward c then s.forward n c next (m.hop + 1) m.path false m.path.length
    else s

/-! ## Restores of revoked writes (R435) -/

/-- Whether a key still holds the version of a hold. -/
def State.holdsVersion (s : State) (h : RevokeHold) : Bool :=
  if h.whole then (dirFind s.idx.dir h.key).isNone
  else decide (((dirFind s.idx.dir h.key).bind fun r => tget r.variants h.variant).map (·.version) = some h.version)

/-- The record as it stood before the write: the kept segments come back, the others are where the key holds them
now. -/
def RevokeHold.restored (h : RevokeHold) (now : Option DirRec) : Option DirRec :=
  if h.whole then h.before
  else
    let was := h.before.bind fun r => tget r.variants h.variant
    match now with
    | none => h.before
    | some r =>
      match was with
      | none =>
        let vs := tdel r.variants h.variant
        if vs.isEmpty then none else some { r with variants := vs }
      | some v =>
        let cur := ((tget r.variants h.variant).map (·.segs)).getD []
        let segs := v.segs.map fun e => (e.1, if h.dead.any fun g => decide (g.loc = e.2.loc) then e.2
          else (tget cur e.1).getD e.2)
        some { r with owner := (h.before.map (·.owner)).getD r.owner,
                      variants := tset r.variants h.variant { v with segs := segs } }

/-- Map pages of a variant that a restore writes again. -/
def RevokeHold.pagesBack (h : RevokeHold) (e : Nat × Variant) : List Nat :=
  e.2.allPages.filter fun j => h.whole || decide (e.1 = h.variant) || (tget e.2.maps j).isNone

/-- Carry out a restore that has reached the front of its gate. -/
def State.restore (s : State) (h : RevokeHold) : State :=
  let now := dirFind s.idx.dir h.key
  let s := s.onPeer fun p => { p with revoke := p.revoke.filter fun x => !(x.kh = h.kh && decide (x.version = h.version)) }
  match h.restored now with
  | none =>
    match now with
    | none => s
    | some r =>
      let s := s.drawMeta (s.pairLines 1)
      let s := s.releaseSegs r.segs
      let s := (if r.pinned then s.queueMirror (.unpin r.kh r.key none) else s).dropPins r.kh r.key
      (((s.recharge (some r) none).removeRecord r).commitLine 2 r h.version r.owner).raise 1028
        (item8 h.kh.toNat ++ item8 h.version)
  | some r =>
    if now.isNone ∧ (s.tableInsert r).isNone = true then
      ((s.noPlace h.kh).raise 1029 (item8 h.kh.toNat ++ item8 h.version ++ item2 h.source)).releaseSegs h.dead
    else
      let curSegs := ((now.bind fun q => tget q.variants h.variant).map (·.segs)).getD []
      let backSegs := ((tget r.variants h.variant).map (·.segs)).getD []
      let s := if h.whole then s else s.releaseSegs (deadSegs curSegs backSegs)
      let remap (s : State) (e : Nat × Variant) : Tbl Loc × State :=
        s.stageMaps e.2 r.kh e.1 (h.pagesBack e) e.2.maps
      let (vs, s) := r.variants.foldl (fun (acc : Tbl Variant × State) e =>
        let (maps, s) := remap acc.2 e
        (tset acc.1 e.1 { e.2 with maps := maps }, s)) (([] : Tbl Variant), s)
      let r := { r with variants := vs, pinned := (now.map (·.pinned)).getD false }
      let s := s.drawMeta (s.pairLines (r.lines + commitLineCount now r.owner))
      (((s.recharge now (some r)).writeRecord r).commitLines 1 r r.version now).raise 1028
        (item8 h.kh.toNat ++ item8 h.version)

/-- Whether the staging class has lines for what a restore writes (R348). -/
def State.restoreFits (s : State) (h : RevokeHold) : Bool :=
  match h.restored (dirFind s.idx.dir h.key) with
  | none => true
  | some r => s.stagingFits (r.lines + (r.variants.map fun e => e.2.mapLines (h.pagesBack e)).foldl (· + ·) 0)

/-- Restores that have reached the front of their gate take effect, or are dropped; one for which the staging class has too
few lines waits (R348, R435). -/
def State.serveRestores (s : State) : State :=
  (s.sch.gate.filter fun g => g.revoke.isSome && s.itemFront g).foldl (fun s g =>
    let done := s.onSch fun h => { h with gate := h.gate.erase g }
    match s.peer.revoke.find? fun h => h.kh = g.kh && decide (some h.version = g.revoke) with
    | some h => if !s.holdsVersion h then done else if s.restoreFits h then done.restore h else s
    | none => done) s

/-! ## COMMIT_GATE and MIRROR_CHANGE_DONE -/

/-- Whether a write has reached the front of its key's gate (R175). -/
def State.atFront (s : State) (c : Cmd) : Bool := !s.lowerWrites c.kh c.version && !s.lowerKeyless c.version


/-- The front write of a gate is decided: its conditions, its quota, then its chain or its commit. While its quota depends
on lower writes of its owner, only a condition above NO_SPACE ends it (R67, R142). -/
def State.decideFront (s : State) (n : Nat) (c : Cmd) : State :=
  if 0 < c.copies then s.tryCommit n
  else
    let conds := c.conds ++ s.gateConds c
    let end_ := (s.onCmd n fun c => { c with conds := conds }).failCmd n (s.heldVersion c)
    if conds.any fun st => decide (st.rank < Status.noSpace.rank) then end_
    else if c.op ≠ .delete ∧ s.quotaWaits c = true then s
    else if !conds.isEmpty then end_
    else if c.op ≠ .delete ∧ s.unplaceable c = true then s.placementFailed n c.kh
    else match c.ctx, c.chain with
      | none, some m => s.successorChain n c m
      | _, _ => s.headChain n c

/-- COMMIT_GATE (R174 to R177, R183, R428 to R430). -/
def execCommitGate (cmd : Nat) (s : State) : Host.Outcome State Fault Refusal :=
  .next ((s.withCmd cmd (fun c => decide (c.stage = .gated) && s.atFront c && !s.blockInReset .sch
      && !s.blockInReset .idx && s.ldg.ready) fun c => s.decideFront cmd c).serveRestores)

/-- The second copy of a mirror change is written: it takes effect (R220, R221). -/
def State.applyChange (s : State) (c : MChange) : State :=
  match c with
  | .pin kh key tag d gone => s.pinNow c kh key tag d gone
  | .unpin kh key d => s.unpinNow kh key d
  | .move kh key loc old _ =>
    (s.onIdx fun i => { i with mirror1 := mirrorMove i.mirror1 kh key loc }).releaseLoc old
  | .delete n _ _ => s.withCmd n (fun c => decide (c.stage = .gated)) fun c => s.commitDelete n c

/-- Whether the staging class has lines for the record that a pin change rewrites (R348). -/
def State.changeFits (s : State) (c : MChange) : Bool :=
  match c with
  | .pin _ key _ _ _ | .unpin _ key _ => ((dirFind s.idx.dir key).map fun r => s.stagingFits r.lines).getD true
  | .move _ _ _ _ _ | .delete _ _ _ => true

/-- MIRROR_CHANGE_DONE (R220, R221): the oldest pending change has reached the second copy; one that waited takes its
place in the table. -/
def execMirrorChangeDone (s : State) : Host.Outcome State Fault Refusal :=
  .next (match s.idx.pending with
  | [] => s
  | c :: rest =>
    if !s.changeFits c then s
    else (((s.onIdx fun i => { i with pending := rest }).applyChange c).admitChange).serveRestores)

end Sys2Proof.Machine
end

