-- ==== Sys2Proof/Machine/ClientCmd.lean ====
section
/-! DEFINITION. The client commands once their search and lookup have resolved (R149 to R156), and the scans (R157 to
R167). -/

namespace Sys2Proof.Machine

/-! ## Conditions found at the start (R70, R72, R216) -/

/-- Whether a keyed command's search and lookup have both resolved. -/
def Cmd.resolved (c : Cmd) : Bool :=
  decide (c.stage = .started) && decide (c.policy ≠ .waiting) && decide (c.lookup ≠ .waiting)

/-- R75: a write under SEAL = 1 whose owner's slot holds no key. Until RESTORE_DONE its seals wait instead (R306). -/
def State.sealConds (s : State) (c : Cmd) : List Status :=
  if c.act.sealIt && (s.cip.restoreDone || s.cip.alarm) && decide ((s.slot c.act.owner).st ≠ .loaded) then [.keyErased]
  else []

/-! ## The port toward VAL (R17, R18, R22 to R26) -/

/-- Whether a command's value job can go to VAL: SCH holds a credit of its class, and VAL takes work. -/
def State.jobReady (s : State) (c : Cmd) : Bool :=
  c.resolved && c.op.valueJob && !s.blockInReset .val && decide (0 < (s.pool 4 0 c.runClass.code).1)

/-- The classes of the value jobs that are ready at SCH's port toward VAL. -/
def State.readyJobs (s : State) : List SvcClass := (s.sch.cmds.filter fun e => s.jobReady e.2).map fun e => e.2.runClass

/-- What VAL grants its units to next (R23, R24, R268): EXPRESS jobs first; else by its pointer among the requesters that
wait, 0 for value jobs and 3 for check directives. -/
def State.valTurn (s : State) (express : Bool) (requester : Nat) : Bool :=
  express || (!s.readyJobs.contains .express && decide (roundRobin s.val.rr (requester
    :: (if s.readyJobs.isEmpty then [] else [0]) ++ if (s.ring 2).issued.isEmpty then [] else [3]) = some requester))

/-- Whether SCH's port toward VAL grants a command's class (R23, R24): EXPRESS first, else by the class pointer; and VAL
takes the job (R268). -/
def State.jobTurn (s : State) (c : Cmd) : Bool :=
  s.jobReady c && decide (classGrant s.sch.rrJobs s.readyJobs = some c.runClass)
    && s.valTurn (decide (c.runClass = .express)) 0

/-- Send a command's value job to VAL when the port grants it; until then the job waits in SCH. -/
def State.sendJob (s : State) (n : Nat) (c : Cmd) (f : State → State) : State :=
  guardStep (s.jobTurn c) s fun s =>
    f (((s.grantVal c.runClass 0).onSch fun h => { h with rrJobs := classPointer h.rrJobs c.runClass }).onCmd n fun c => { c with stage := .working })

/-! ## GET and HEAD (R145, R149, R154) -/

/-- GET (R50, R145, R149, R150): conditions, then the read from OFFSET. -/
def execGet (cmd : Nat) (s : State) : Host.Outcome State Fault Refusal :=
  .next (s.withCmd cmd (fun c => decide (c.op = .get) && c.resolved) fun c =>
    let held := (c.observed.map (·.version)).getD 0
    let conds := c.startConds ++ (match c.lookup, c.observed with
      | .unreadable, _ => []
      | _, none => [.notFound]
      | _, some v => if c.desc.ifVersion ∧ c.desc.condVersion ≠ v.version then [.versionConflict] else [])
    if conds.isEmpty then s.sendJob cmd c fun s => s.advanceRead cmd c.readFuel
    else (s.onCmd cmd fun c => { c with conds := c.conds ++ conds }).failCmd cmd held)

/-- The record of a variant in the result block (R154). -/
def variantRecord (v : Option Variant) : Bytes :=
  match v with
  | some v => leBytes 6 v.length ++ leBytes 1 v.flags ++ zeros 1 ++ leBytes 8 v.version
  | none => zeros 16

/-- The 1,056 bytes of the result block (R154). -/
def headBytes (r : DirRec) : Bytes :=
  leBytes 8 r.presence ++ leBytes 8 r.version ++ leBytes 1 (if r.pinned then 1 else 0) ++ zeros 15
    ++ (List.range 64).flatMap fun v => variantRecord (tget r.variants v)

/-- HEAD (R154). -/
def execHead (cmd : Nat) (s : State) : Host.Outcome State Fault Refusal :=
  .next (s.withCmd cmd (fun c => decide (c.op = .head) && c.resolved) fun c =>
    let conds := c.startConds ++ (if c.lookup = .absent then [Status.notFound] else [])
    match conds.isEmpty, c.lookup, c.ctx with
    | true, .found r, some ctx =>
      let b := (headBytes r).take c.desc.length
      let s := if b.isEmpty then s else s.sendAs ctx c.runClass (.data ctx cmd c.desc.bufAddr c.desc.bufRkey b)
      s.endCmd cmd ⟨.ok, r.variants.length, r.version, b.length, false, false⟩
    | _, _, _ => (s.onCmd cmd fun c => { c with conds := c.conds ++ conds }).failCmd cmd 0)

/-! ## Chain writes at a successor (R431) -/

/-- The segments that a chain write will store, where its data alone tells them (R271): all of a PUT's; of a WRITE_RANGE none
when zeros would be merged into a stored segment. -/
def State.foreseen (s : State) (c : Cmd) (m : PeerMsg) : Option (Tbl SegWork) :=
  let data := padTo c.desc.length m.data
  let base := if c.op = .put then 0 else c.desc.offset
  let old := ((s.variantNow c).map (·.segs)).getD []
  (feedSegs (data.length / 65536 + 2) base data []).foldl (fun acc e => match acc, e.2 with
    | some w, .filling b =>
      if !allZero b then some (w ++ [(e.1, .durable (Seg.raw b b.length false c.act.parityP))])
      else if c.op = .put ∨ (tget old e.1).isNone = true ∨ b.length = 65536 then some (w ++ [(e.1, .hole)])
      else none
    | _, _ => none) (some [])

/-- Whether a chain write would end with NO_SPACE for want of keys or of quota (R45, R67, R431), as far as it shows before its
data is stored: no lower write is undecided, and its data tells what it stores. What its stored size does to U (R414) shows at
its gate (log 199). -/
def State.lacksSpace (s : State) (c : Cmd) (m : PeerMsg) : Bool :=
  (decide (c.op = .put) || decide (c.op = .writeRange)) && s.atFront c &&
    match s.foreseen c m with
    | none => false
    | some w =>
      let c := { c with work := w }
      !s.quotaWaits c && ((decide (maxKeys ≤ s.keyCount) && (s.recordNow c).isNone) || s.overQuota c)

/-- What a successor decides before it stores anything, against the variant it holds (R431, R441): superseded,
diverged, refused. -/
def State.chainDecide (s : State) (n : Nat) : State :=
  match s.cmd? n with
  | none => s
  | some c =>
    match c.chain with
    | none => s
    | some m =>
      let held := s.heldVersion c
      if c.version < held then s.endCmd n ⟨.ok, 1, 0, 0, false, false⟩
      else if (c.op = .writeRange ∨ c.op = .punch) ∧ held ≠ m.priorVersion then
        (s.raise 1029 (item8 m.keyHash.toNat ++ item8 m.version ++ item2 m.srcPeer)).endCmd n (Outcome.of .versionConflict)
      else if s.pwr.shed.getLsbD 2 || s.pwr.shed.getLsbD 3 then s.endCmd n (Outcome.of .shed)
      else if s.ldg.kept.bindOff then s.endCmd n (Outcome.of .mediaExhausted)
      else if s.lacksSpace c m then s.endCmd n (Outcome.of .noSpace)
      else if c.op ≠ .delete ∧ s.atFront c = true ∧ s.unplaceable c = true then (s.noPlace c.kh).endCmd n (Outcome.of .noSpace)
      else s

/-! ## Writes (R151 to R153) -/

/-- A write's value job starts, unless a condition ends it: one that stands above the gate's conditions at once, any
other at its gate (R142). A chain write is answered at once (R431). -/
def State.startWrite (s : State) (n : Nat) (c : Cmd) (conds : List Status) (f : State → State) : State :=
  if conds.isEmpty then (if c.op = .delete then f s else s.sendJob n c f)
  else
  let s := s.onCmd n fun c => { c with conds := c.conds ++ conds }
  if endsAtOnce conds || ((s.cmd? n).map fun c => c.ctx.isNone).getD false then s.failCmd n 0
  else s.onCmd n fun c => { c with stage := .gated }

/-- Fetch the value or range from the client (R109), or take what a chain write brought; nothing for LENGTH 0. -/
def State.fetchValue (s : State) (n : Nat) : State :=
  match s.cmd? n with
  | none => s
  | some c =>
    if c.desc.length = 0 then s.intakeDone n
    else match c.ctx, c.chain with
      | some ctx, _ => s.sendAs ctx c.runClass (.valueRead ctx c.desc.bufAddr c.desc.bufRkey c.desc.length)
      | none, some m => s.takeData n (padTo c.desc.length m.data)
      | none, none => s

/-- Start a write of one opcode once it is resolved, after a successor's own decision. -/
def State.writeRow (s : State) (n : Nat) (op : Opcode) (f : State → Cmd → State) : State :=
  s.withCmd n (fun c => decide (c.op = op) && c.resolved) fun _ =>
    let s := s.chainDecide n
    s.withCmd n (fun c => !c.decided) fun c => f s c

/-- The longest value: 64 GiB (R56). -/
def maxValue : Nat := 2 ^ 36

/-- PUT (R56, R57, R75, R151). -/
def execPut (cmd : Nat) (s : State) : Host.Outcome State Fault Refusal :=
  .next (s.writeRow cmd .put fun s c =>
    s.startWrite cmd c (c.startConds ++ (if maxValue < c.desc.length then [.lengthLimit] else []) ++ s.sealConds c)
      fun s => s.fetchValue cmd)

/-- WRITE_RANGE (R56, R58, R75, R152). -/
def execWriteRange (cmd : Nat) (s : State) : Host.Outcome State Fault Refusal :=
  .next (s.writeRow cmd .writeRange fun s c =>
    let long := decide (1 ≤ c.desc.length) && decide (maxValue < c.desc.offset + c.desc.length)
    s.startWrite cmd c (c.startConds ++ (if long then [.lengthLimit] else []) ++ s.sealConds c) fun s => s.fetchValue cmd)

/-- PUNCH (R59, R75, R152). -/
def execPunch (cmd : Nat) (s : State) : Host.Outcome State Fault Refusal :=
  .next (s.writeRow cmd .punch fun s c =>
    s.startWrite cmd c (c.startConds ++ s.sealConds c) fun s => (s.planRange cmd).pathWhenReady cmd)

/-- DELETE (R49, R153): to its gate. -/
def execDelete (cmd : Nat) (s : State) : Host.Outcome State Fault Refusal :=
  .next (s.writeRow cmd .delete fun s c =>
    s.startWrite cmd c c.startConds fun s => s.onCmd cmd fun c => { c with stage := .gated })

/-! ## FLUSH and NOP (R155, R156, R187, R188) -/

/-- FLUSH (R155, R187, R188): completes when every command fetched before it on its queue pair has. -/
def execFlush (cmd : Nat) (s : State) : Host.Outcome State Fault Refusal :=
  .next (s.running cmd (fun c => decide (c.op = .flush)) fun s c =>
    if s.earlierDone c.ctx cmd then s.endCmd cmd { Outcome.of .ok with version := c.counted } else s)

/-- NOP (R156). -/
def execNop (cmd : Nat) (s : State) : Host.Outcome State Fault Refusal :=
  .next (s.running cmd (fun c => decide (c.op = .nop)) fun s _ => s.endCmd cmd (Outcome.of .ok))

/-! ## Scan contexts and image slots (R162, R163, R260) -/

/-- Take an image slot for a command, which holds the compiled image of its pattern (R252, R257): the generation of a scan
context rises when a SCAN uses it again, and a COUNT, which uses none, leaves it; a command waits behind those that wait
already, and while every context has a batch in progress (R162, R163). -/
def State.takeSlot (s : State) (n tenant : Nat) (p : Regex) (isCount : Bool) : Option (Nat × State) :=
  match s.slotFor n with
  | none => none
  | some i =>
    let gen := match tget s.mch.contexts i with
      | none => if isCount then 65535 else 0
      | some x => if isCount then x.gen else (x.gen + 1) % 65536
    some (i, s.onMch fun m => { m with
      contexts := tset m.contexts i ⟨tenant, gen, true, p, some n, 0, isCount⟩, waitCtx := m.waitCtx.filter (· ≠ n)
      images := tset m.images i p.image })

/-- Wait for an image slot. -/
def State.waitSlot (s : State) (n : Nat) : State :=
  s.onMch fun m => { m with waitCtx := if m.waitCtx.contains n then m.waitCtx else m.waitCtx ++ [n] }

/-- SCAN_HANDLE of a slot (R162). -/
def State.handleOf (s : State) (slot : Nat) : Nat :=
  slot + 65536 * ((tget s.mch.contexts slot).map (·.gen)).getD 0

/-! ## Batches (R158, R159, R164, R165) -/

/-- An entry of a batch (R158). -/
def scanEntry (r : DirRec) : Bytes :=
  let len := 24 + 8 * ((r.key.length + 7) / 8)
  padTo len (leBytes 2 r.key.length ++ zeros 2 ++ leBytes 4 len ++ leBytes 8 r.version ++ leBytes 8 r.presence ++ r.key)

/-- A batch with its header (R158). -/
def batchBytes (next : Nat) (rs : List DirRec) : Bytes :=
  leBytes 8 next ++ leBytes 4 rs.length ++ zeros 4 ++ rs.flatMap scanEntry

/-- A batch's image slot is idle again, or free when the scan is over or a COUNT held it (R162, R260); its halves go
back. -/
def State.releaseSlot (s : State) (slot : Nat) (keep : Bool) : State :=
  (s.endHalves slot).onMch fun m => { m with
    useSeq := m.useSeq + 1,
    images := if keep then m.images else tdel m.images slot
    contexts := tmod m.contexts slot fun x => { x with busy := none, live := x.live && keep && !x.isCount,
                                                        lastUse := m.useSeq } }

/-- End a batch: header and entries are written, NEXT_CURSOR continues the scan when there is more; past the last key hash
there is none. -/
def State.endBatch (s : State) (n : Nat) (st : Status) (more : Bool) : State :=
  match s.cmd? n with
  | none => s
  | some c =>
    match c.scanCtx, c.ctx with
    | some slot, some ctx =>
      let more := more && decide (c.cursor < 2 ^ 64)
      let b := batchBytes (if more then c.cursor else 0) c.batch
      let handle := s.handleOf slot
      let s := (s.sendAs ctx c.runClass (.data ctx n c.desc.bufAddr c.desc.bufRkey b)).releaseSlot slot more
      s.endCmd n ⟨st, handle, 0, b.length, more, false⟩
    | _, _ => s

/-- End a COUNT (R166, R167). -/
def State.endCount (s : State) (n : Nat) (st : Status) : State :=
  match s.cmd? n with
  | none => s
  | some c =>
    let s := match c.scanCtx with
      | some slot => s.releaseSlot slot false
      | none => s
    if st = .ok then
      if c.desc.estimate then s.endCmd n ⟨.ok, c.counted, 0, 64 * c.counted, false, false⟩
      else s.endCmd n ⟨.ok, 0, 0, c.counted, false, false⟩
    else s.endCmd n (Outcome.of st)

/-- The keys of the lowest key hash at or above a cursor: no batch ends between them (R204). -/
def State.nextGroup (s : State) (cursor : Nat) : List DirRec :=
  match s.idx.dir.find? fun r => decide (cursor ≤ r.kh.toNat) with
  | some r => s.idx.dir.filter fun q => q.kh = r.kh
  | none => []

/-- The keys of a group that match and that the tenant may search, by a rights check on each (R161, R258). -/
def State.accepted (s : State) (tenant : Nat) (p : Regex) : List DirRec → List DirRec × State
  | [] => ([], s)
  | r :: rest =>
    if p.matchesKey r.key then
      let (pol, s) := (s.grantSearch false 1).policyOf tenant r.key
      let ok := match pol with
        | .rule a => bitOf a.rights 3
        | _ => false
      let (rs, s) := s.accepted tenant p rest
      (if ok then r :: rs else rs, s)
    else s.accepted tenant p rest

/-- Whether a rights check is due in a group and its parity has failed twice in a row: the walk stops before the group, for the
reset of MATCH_CASCADE (R255, R258, R264). -/
def State.checkFails (s : State) (p : Regex) (parity : List Nat) (group : List DirRec) : Bool :=
  decide (2 ≤ (parityDies parity).length) && group.any fun r => p.matchesKey r.key

/-- Bytes of a batch so far, header included. -/
def batchLen (rs : List DirRec) : Nat := 16 + (rs.map fun r => (scanEntry r).length).foldl (· + ·) 0

/-- Examine up to a number of key hashes for a scan batch (R159, R263): ended by the next entry's size, by MAX_ENTRIES,
or by the end of the index; a record that no source can supply ends it with UNCORRECTABLE (R216). -/
def State.walkScan (s : State) (n : Nat) (p : Regex) (parity : List Nat) : Nat → State
  | 0 => s
  | fuel + 1 =>
    match s.cmd? n with
    | none => s
    | some c =>
      match s.nextGroup c.cursor with
      | [] => s.endBatch n .ok false
      | r :: rest =>
        let kh := r.kh.toNat
        let s := s.onCmd n fun c => { c with cursor := kh }
        if (r :: rest).any fun r => s.lostForGood r.loc then s.endBatch n .uncorrectable true
        else if s.checkFails p parity (r :: rest) then s.matchParity parity
        else
          let (got, s) := s.accepted c.tenant p (r :: rest)
          let batch := c.batch ++ got
          let max := c.desc.param1 / 2 ^ 32
          if min c.desc.length (2 ^ 24) < batchLen batch then s.endBatch n .ok true
          else
            let s := s.onCmd n fun c => { c with batch := batch, cursor := kh + 1 }
            if max ≠ 0 ∧ max ≤ batch.length ∧ kh + 1 < 2 ^ 64 then s.endBatch n .ok true
            else s.walkScan n p parity fuel

/-- Whether a key's slot lies in a bucket of the fixed sample (R167). -/
def State.sampled (s : State) (r : DirRec) : Bool :=
  [bucket1 r.kh, bucket2 r.kh].any fun b => decide (b % 64 = Config.sampleClass % 64) && (bget s.idx.table b).any fun o =>
    (o.map fun x => decide (x.key = r.key)).getD false

/-- Examine up to a number of key hashes for a COUNT (R166, R167). -/
def State.walkCount (s : State) (n : Nat) (p : Regex) (parity : List Nat) : Nat → State
  | 0 => s
  | fuel + 1 =>
    match s.cmd? n with
    | none => s
    | some c =>
      match s.nextGroup c.cursor with
      | [] => s.endCount n .ok
      | r :: rest =>
        let kh := r.kh.toNat
        let group := if c.desc.estimate then (r :: rest).filter s.sampled else r :: rest
        if group.any fun r => s.lostForGood r.loc then s.endCount n .uncorrectable
        else if s.checkFails p parity group then s.matchParity parity
        else
          let (got, s) := s.accepted c.tenant p group
          (s.onCmd n fun c => { c with counted := c.counted + got.length, cursor := kh + 1 }).walkCount n p parity fuel

/-- The command's image slot, once it holds halves (R261). -/
def State.slotOfScan (s : State) (c : Cmd) : Option ScanCtx :=
  c.scanCtx.bind fun i => if (s.halvesOf i).isEmpty then none else tget s.mch.contexts i

/-- Start a started command's walk on an image slot: it takes halves and begins at the cursor (R160, R261). -/
def State.startWalk (s : State) (n slot cursor : Nat) : State :=
  (s.startHalves slot).onCmd n fun c => { c with
    stage := .working, scanCtx := some slot, cursor := cursor, batch := [], counted := 0 }

/-- Start a SCAN or COUNT: LENGTH_LIMIT when its pattern exceeds the compilation limits (R157, R257); else an image
slot, or the wait for one. -/
def State.startPattern (s : State) (n : Nat) (c : Cmd) (cursor : Nat) : State :=
  match parsePattern (c.key.getD []) with
  | none => (s.addCond n .invalidDescriptor).failCmd n 0
  | some p =>
    if !p.compiles then (s.addCond n .lengthLimit).failCmd n 0
    else if (s.slotFor n).isNone then s.waitSlot n
    else
      let s := s.beginCmd n
      s.withCmd n (fun c => !c.decided) fun _ => match s.takeSlot n c.tenant p (decide (c.op = .count)) with
        | some (slot, s) => s.startWalk n slot cursor
        | none => s

/-- Whether a batch or count goes on: its rights checks have their turn at MCH (R23, R24, R241). -/
def State.walks (s : State) (op : Opcode) (c : Cmd) : Bool :=
  decide (c.op = op) && decide (c.stage = .working) && !s.mchDown && s.searchTurn false 1

/-- SCAN (R157 to R163, R257 to R263): the step examines `budget.keys` key hashes. -/
def execScan (cmd : Nat) (budget : ScanStep) (s : State) : Host.Outcome State Fault Refusal :=
  let s := s.withCmd cmd (fun c => decide (c.op = .scan) && s.mayStart cmd c) fun c => s.startPattern cmd c c.desc.param0
  .next (s.withCmd cmd (s.walks .scan) fun c =>
    match s.slotOfScan c with
    | some x => s.walkScan cmd x.pattern budget.parity budget.keys
    | none => s)

/-- SCAN_NEXT (R158, R160 to R164): a batch on a context, after the batches fetched before it. -/
def execScanNext (cmd : Nat) (budget : ScanStep) (s : State) : Host.Outcome State Fault Refusal :=
  let s := s.running cmd (fun c => decide (c.op = .scanNext) && !s.mchDown) fun s c =>
    match s.handleCheck c with
    | .inl st => (s.addCond cmd st).failCmd cmd 0
    | .inr (slot, x) =>
      if x.busy.isSome || s.earlierScan cmd c then s
      else (s.onMch fun m => { m with contexts := tset m.contexts slot { x with busy := some cmd } }).startWalk cmd slot
        c.desc.param0
  .next (s.withCmd cmd (s.walks .scanNext) fun c =>
    match s.slotOfScan c with
    | some x => s.walkScan cmd x.pattern budget.parity budget.keys
    | none => s)

/-- COUNT (R166, R167, R260). -/
def execCount (cmd : Nat) (budget : ScanStep) (s : State) : Host.Outcome State Fault Refusal :=
  let s := s.withCmd cmd (fun c => decide (c.op = .count) && s.mayStart cmd c) fun c => s.startPattern cmd c 0
  .next (s.withCmd cmd (s.walks .count) fun c =>
    match s.slotOfScan c with
    | some x => s.walkCount cmd x.pattern budget.parity budget.keys
    | none => s)

/-- SCAN_BATCH_TIMEOUT (R159): 250 ms since the batch began. -/
def execScanBatchTimeout (cmd : Nat) (s : State) : Host.Outcome State Fault Refusal :=
  .next (s.withCmd cmd (fun c => (decide (c.op = .scan) || decide (c.op = .scanNext)) && decide (c.stage = .working))
    fun _ => s.endBatch cmd .ok true)

/-- SCAN_CONTEXT_EXPIRY (R162): 30 s without SCAN_NEXT since the last batch. -/
def execScanContextExpiry (index : Nat) (s : State) : Host.Outcome State Fault Refusal :=
  .next (s.onMch fun m => { m with contexts := tmod m.contexts index fun x =>
    if x.busy.isNone && !x.isCount then { x with live := false } else x })

end Sys2Proof.Machine
end

