-- ==== Sys2Proof/Machine/MchDir.lean ====
section
/-! DEFINITION. The directives of the match engine's ring and its own steps: shifts, scrubs, automaton halves,
the cascade mode (chapter 7). -/

namespace Sys2Proof.Machine

/-- MATCH_RULE_REFUSED (R243, R265), and REFUSED on the ring. -/
def State.ruleRefused (s : State) (d : Dir) (code pos : Nat) : State :=
  (s.raise 325 (item1 code ++ item4 pos)).finish 1 d esRefused []

/-- R73: an action without parity, chain or leave to go unreplicated is refused; so is one whose chain template
is not loaded (R469). -/
def State.actionRefused (s : State) (action : Bytes) : Bool :=
  let a := parseAction action
  (!a.parityP && decide (a.template = 0) && !a.allowUnreplicated)
    || (decide (a.template ≠ 0) && (tget s.peer.templates a.template).isNone)

/-- Whether a position lies in the block that the running shift moves (R248). -/
def State.inShift (s : State) (pos : Nat) : Bool :=
  match s.mch.shift with
  | some h => decide (h.p ≤ pos) && decide (pos ≤ h.q)
  | none => false

/-- Carry out a load or a clear. -/
def State.loadRule (s : State) (d : Dir) (pos : Nat) (r : Option Rule) : State :=
  ((match r with | some r => s.putRule pos r | none => s.dropRule pos).loaded).finish 1 d esDone []

/-- Carry out a RULE_WRITE or RULE_CLEAR, or let it wait for the shift (R248). -/
def State.loadOrWait (s : State) (d : Dir) (pos : Nat) (r : Option Rule) : State :=
  if s.inShift pos then s.onMch fun m => { m with waitLoad := m.waitLoad ++ [(d, pos, r)] }
  else s.loadRule d pos r

/-- RULE_WRITE (R242 to R244, R73). -/
def execRuleWrite (d : Dir) (pos : Nat) (recs : Bytes) (s : State) : Host.Outcome State Fault Refusal :=
  let p := pos % 2 ^ 19
  let r := ruleOfRecords s.ruleSegs recs
  .next (s.setUp 1 d fun s => if s.rulePositions ≤ p ∨ s.actionRefused r.action then s.ruleRefused d 1 p
    else s.loadOrWait d p (some r))

/-- Start a shift, or refuse the insertion (R246). -/
def State.startShift (s : State) (d : Dir) (p q1 : Nat) (r : Rule) : State :=
  if s.mayInsert p q1 && !s.actionRefused r.action then
    s.onMch fun m => { m with shift := some ⟨p, q1, r, q1, s.flt.time, d⟩ }
  else s.ruleRefused d 2 p

/-- RULE_INSERT (R242, R246, R248): a second insertion waits for the first. At p = 0 a block end of 0x7FFFF, p − 1 modulo
2^19, names the empty block (DESIGN CHOICE, log 182). -/
def execRuleInsert (d : Dir) (pos last : Nat) (recs : Bytes) (s : State) : Host.Outcome State Fault Refusal :=
  let p := pos % 2 ^ 19
  let q1 := (last + 1) % 2 ^ 19
  let r := ruleOfRecords s.ruleSegs recs
  .next (s.setUp 1 d fun s => if s.mch.shift.isSome || !s.mch.waitShift.isEmpty then
      s.onMch fun m => { m with waitShift := m.waitShift ++ [(d, p, q1, r)] }
    else s.startShift d p q1 r)

/-- Carry out the loads that waited for a shift, in order. -/
def State.runWaitLoads (s : State) : List (Dir × Nat × Option Rule) → State
  | [] => s
  | (d, p, r) :: rest => (s.loadOrWait d p r).runWaitLoads rest

/-- Start the next insertion that waits; refused ones complete. -/
def State.nextShift (s : State) : Nat → State
  | 0 => s
  | fuel + 1 =>
    match s.mch.shift, s.mch.waitShift with
    | none, (d, p, q1, r) :: rest =>
      ((s.onMch fun m => { m with waitShift := rest }).startShift d p q1 r).nextShift fuel
    | _, _ => s

/-- Whether a position's entry has a directive write pending, so that the scrubber passes over it (R253). -/
def State.writePending (s : State) (p : Nat) : Bool :=
  s.inShift p || s.mch.waitLoad.any fun w => w.2.1 = p

/-- The scrubber reads an entry: one that differs from its shadow record is rewritten (R253). -/
def State.scrubEntry1 (s : State) (p : Nat) : State :=
  match tget s.mch.rules p, tget s.mch.shadow p with
  | some e, some r => if e = r then s else ((s.dieWrite p r).raise 321 (item4 p)).bump Reg.MCH_ERR_STAT_SCRUB_FIXES
  | _, _ => s

/-- The scrubber reads the positions that it passed over, once their writes have completed (R253). -/
def State.scrubLate (s : State) : State :=
  (s.mch.scrubDue.filter fun p => !s.writePending p).foldl State.scrubEntry1
    (s.onMch fun m => { m with scrubDue := m.scrubDue.filter s.writePending })

/-- What waited for a shift goes on: the loads of its positions, then the next insertion (R248), and the scrubber's reads
(R253). -/
def State.afterShift (s : State) : State :=
  let waits := s.mch.waitLoad
  let s := (s.onMch fun m => { m with waitLoad := [] }).runWaitLoads waits
  (s.nextShift s.mch.waitShift.length).scrubLate

/-- The shift's end: the block stands one place lower and the new entry at p; waiting directives go on (R246,
R248, R610). -/
def State.completeShift (s : State) (h : Shift) : State :=
  (((s.finishShift h).loaded).finish 1 h.dir esDone []).afterShift

/-- SHIFT_COMPLETE (R246). -/
def execShiftComplete (s : State) : Host.Outcome State Fault Refusal :=
  .next (match s.mch.shift with
  | some h => s.completeShift h
  | none => s)

/-- RULE_CLEAR (R242, R243, R248). -/
def execRuleClear (d : Dir) (pos : Nat) (s : State) : Host.Outcome State Fault Refusal :=
  let p := pos % 2 ^ 19
  .next (s.setUp 1 d fun s => if s.rulePositions ≤ p then s.ruleRefused d 3 p else s.loadOrWait d p none)

/-- RULE_SEARCH (R239, R241, R242, R249, R255, R609): the word's segments from START in the banks of the mask. A parity
failure that does not come twice in a row is met by a second issue; after two in a row the directive ends with the reset of
MATCH_CASCADE (R462). -/
def execRuleSearch (d : Dir) (word : Bytes) (start : Nat) (issue : SearchIssue) (s : State) :
    Host.Outcome State Fault Refusal :=
  let segs := (List.range s.ruleSegs).map fun i => BitVec.ofNat 320 (fieldAt word (40 * i) 40)
  .next (s.setUp 1 d fun s => guardStep (s.searchTurn false 2) s fun s =>
    let s := s.grantSearch false 2
    if 2 ≤ (parityDies issue.parity).length then s.matchParity issue.parity
    else
      let (f, s) := s.search segs (start % 2 ^ 19) issue.mask s.searchFuel
      let gen := leBytes 1 (s.fld Reg.MCH_STATUS_LOAD_GEN)
      match f.hit with
      | some (p, r) => s.finish 1 d esDone (leBytes 1 1 ++ leBytes 1 (if f.multi then 1 else 0) ++ gen ++ zeros 1
          ++ leBytes 4 p ++ padTo 16 r.action)
      | none => s.finish 1 d esDone (zeros 2 ++ gen))

/-- RULE_READ (R242, R243, R609): the entry as it lies on the die, with its CHECK status. An invalid entry's
content is a free value: the spec does not say what its arrays hold. -/
def execRuleRead (d : Dir) (pos : Nat) (s : State) : Host.Outcome State Fault Refusal :=
  let p := pos % 2 ^ 19
  .next (s.setUp 1 d fun s => if s.rulePositions ≤ p then s.ruleRefused d 5 p
    else match tget s.mch.rules p with
      | some r => s.finishExt 1 d (recordsOfRule r) (leBytes 1 (if r.checksHold && r.actionHolds then 0 else 1))
      | none =>
        let (b, s) := s.drawBytes (96 * s.ruleSegs)
        let (c, s) := s.drawNat
        s.finishExt 1 d b (leBytes 1 (c % 2)))

/-- EPOCH_SET (R242, R243, R245, R610). -/
def execEpochSet (d : Dir) (epoch : Nat) (s : State) : Host.Outcome State Fault Refusal :=
  .next (s.setUp 1 d fun s => if 15 < epoch then s.ruleRefused d 6 0
    else ((s.setFld Reg.MCH_STATUS_EPOCH epoch).loaded).finish 1 d esDone [])

/-! ## Scrubs (R253) -/

/-- The dies of a position: all those of its level. -/
def State.diesOf (s : State) (p : Nat) : List Nat := (List.range s.ruleSegs).map (s.dieOf p + ·)

/-- Read every entry of the named dies and rewrite what differs from its shadow record; entries with a pending write are read
later (R253). -/
def State.scrubEntries (s : State) (dieMask : Nat) : State :=
  let ps := (s.mch.rules.filter fun e => (s.diesOf e.1).any fun die => bitOf dieMask die).map (·.1)
  (ps.filter fun p => !s.writePending p).foldl State.scrubEntry1
    (s.onMch fun m => { m with scrubDue := (m.scrubDue ++ ps.filter s.writePending).eraseDups })

/-- Reload a half from its image, for a state that fails its check or differs from the image: event 322, and the half runs
on (R253, R259). Also when the scrub found the difference, CHECK_FIXES counts it, as a repair under R259, and not SCRUB_FIXES
(DESIGN CHOICE, log 181). -/
def State.reloadHalf (s : State) (h : Nat) : State :=
  match tget s.mch.halves h with
  | some slot => ((s.onMch fun m => { m with lanes := tset m.lanes h ((tget m.images slot).getD []) }).raise 322
      (item2 h ++ item2 slot)).bump Reg.MCH_ERR_STAT_CHECK_FIXES
  | none => s

/-- Granted halves whose states differ from their compiled image, or fail their CHECK (R253, R259). -/
def State.badHalves (s : State) : List Nat :=
  (s.mch.halves.filter fun e => decide ((tget s.mch.lanes e.1).getD [] ≠ (tget s.mch.images e.2).getD [])
    || !statesHold ((tget s.mch.lanes e.1).getD [])).map (·.1)

/-- The scrubber's pass over named dies: entries, then the states of running halves (R253). -/
def State.scrubDies (s : State) (dieMask : Nat) : State :=
  let s := (s.scrubEntries dieMask).grantSearch false 3
  (s.badHalves.filter fun h => bitOf dieMask (h / 64)).foldl State.reloadHalf s

/-- MATCH_SCRUB (R241, R253): paused while shedding stage 1 lasts (R500), and until its turn among the searches (R23, R24). -/
def execMatchScrub (dieMask : Nat) (s : State) : Host.Outcome State Fault Refusal :=
  .next (guardStep (decide (s.pwr.shed = 0) && s.searchTurn false 3) s fun s => s.scrubDies dieMask)

/-- SCRUB_NOW (R242, R253): a pass of the named dies at once, in its turn among the searches (R23, R24, R241). -/
def execScrubNow (d : Dir) (dieMask : Nat) (s : State) : Host.Outcome State Fault Refusal :=
  .next (s.setUp 1 d fun s => guardStep (s.searchTurn false 3) s fun s => (s.scrubDies dieMask).finish 1 d esDone [])

/-- MATCH_STATE_RELOADED (R259). -/
def execMatchStateReloaded (half : Nat) (s : State) : Host.Outcome State Fault Refusal := .next (s.reloadHalf half)

/-! ## Halves (R262) -/

/-- HALF_WITHDRAW (R262): while a search waits and no half is free. -/
def execHalfWithdraw (s : State) : Host.Outcome State Fault Refusal :=
  .next (guardStep (!s.mch.waitHalves.isEmpty && s.freeHalves.isEmpty) s State.withdrawHalf)

/-! ## Cascade mode (R232) -/

/-- A write of MCH_CFG.CASCADE: applied only while no entry is valid and MCH is not locked (R232, R450). -/
def State.cascadeWrite (s : State) (value : Nat) : State :=
  if s.locked 0x80000 then s
  else if s.mch.rules.isEmpty then s.setFld Reg.MCH_CFG_CASCADE (value % 4)
  else s.raise 324 (item1 (value % 4) ++ leBytes 3 s.validEntries)

/-- CASCADE_WRITE (R232, R450). -/
def execCascadeWrite (value : Nat) (s : State) : Host.Outcome State Fault Refusal := .next (s.cascadeWrite value)

end Sys2Proof.Machine
end

