-- ==== Sys2Proof/Machine/PeerChain.lean ====
section
/-! DEFINITION. What arrives from peers (R422 to R424, R431 to R439): chain writes, acknowledgements, revokes, repair
requests and answers, keepalives, the time-outs of their waits, and the CM exchange of peers (R421, R613). -/

namespace Sys2Proof.Machine

/-! ## Messages (R423, R424) -/

/-- The peer of an ACTIVE peer queue pair. -/
def State.activePeer (s : State) (ctx : Nat) : Option Nat :=
  match tget s.nfe.qps ctx with
  | some q => if q.st = .active then q.conn.peer else none
  | none => none

/-- A message of one KIND comes in on an ACTIVE peer queue pair; one whose MSG_CRC fails counts as never received, and is
recorded (R424). -/
def State.takeMsg (s : State) (kind : Nat) (m : PeerMsg) (f : State → Nat → State) : State :=
  match s.activePeer m.ctx with
  | none => s
  | some p => if m.crc = msgCrc kind m then f s p else s.raise 1033 (item2 p ++ item8 m.msgSeq)

/-- Fetch and open what a message names, and go on with the sender as the queue pair's peer, which is heard; a piece whose tag
fails makes the message one never received (R424). -/
def State.openMsg (s : State) (peer kind : Nat) (m : PeerMsg) (f : State → PeerMsg → State) : State :=
  match s.openPieces peer kind m with
  | (some b, s) => f (s.peerHeard peer) { m with
      srcPeer := peer, sealed := false, crc := 0, headers := [], data := b }
  | (none, s) => s.raise 1033 (item2 peer ++ item8 m.msgSeq)

/-- Take a message and open it. -/
def State.withMsg (s : State) (kind : Nat) (m : PeerMsg) (f : State → PeerMsg → State) : State :=
  s.takeMsg kind m fun s p => s.openMsg p kind m f

/-- A message with no content (R423). -/
def blankMsg : PeerMsg :=
  { ctx := 0, hop := 0, depth := 0, template := 0, srcPeer := 0, policyBest := false, sealed := false, path := [],
    version := 0, keyHash := 0, wop := 0, variant := 0, ownerTenant := 0, store := 0, status := 0, copies := 0,
    offset := 0, length := 0, segIndex := 0, msgSeq := 0, priorVersion := 0, keyLen := 0, bufAddr := 0,
    bufRkey := 0, crc := 0, cls := none, key := [], headers := [], data := [] }

/-! ## CHAIN_WRITE (R431, R436) -/

/-- Messages that R431 discards as never received. -/
def msgRefused (m : PeerMsg) : Bool :=
  decide (m.wop < 2) || decide (5 < m.wop) || decide (m.keyLen < 1) || decide (1024 < m.keyLen)
    || decide (m.hop = 0) || decide (m.depth < m.hop) || (decide (63 < m.variant) && decide (m.wop ≠ 3))

/-- CHAIN_WRITE (R55, R423, R431, R436, R441): one that R431 discards comes before any other step. -/
def execChainWrite (m : PeerMsg) (s : State) : Host.Outcome State Fault Refusal :=
  .next (s.takeMsg 1 m fun s p =>
    if msgRefused m then s.raise 1036 (item2 p ++ item8 m.msgSeq ++ item1 1)
    else s.openMsg p 1 m fun s m => match s.takeChain m with
      | some t => t
      | none => s.onPeer fun p => { p with intake := p.intake ++ [m] })

/-- COMPLETION_ACKED (R189): the retention entry is free. -/
def execCompletionAcked (cmd : Nat) (s : State) : Host.Outcome State Fault Refusal :=
  .next (s.withCmd cmd (fun c => decide (c.stage = .written)) fun _ => s.dropCmd cmd)

/-! ## CHAIN_ACK (R432, R434) -/

/-- The status of a code; a code that R143 does not define counts as CHAIN_FAILED. -/
def statusOf (code : Nat) : Status :=
  ([.ok, .notFound, .versionConflict, .noSpace, .mediaExhausted, .abortedReset, .e2eCrcMismatch, .keyErased,
    .authFailed, .lengthLimit, .nonceExhausted, .invalidDescriptor, .accessDenied, .shed, .chainDegraded,
    .chainFailed, .uncorrectable, .busySession, .reverted, .updateRefused, .timeout] : List Status).getD code
      .chainFailed

/-- The head decides a forwarded write by its acknowledgement (R434). -/
def State.headAck (s : State) (n : Nat) (sent m : PeerMsg) : State :=
  if m.status = 0 then
    if sent.policyBest then s.chainCommit n (1 + m.copies) (decide (m.copies < sent.depth))
    else if m.copies = sent.depth then s.chainCommit n (1 + m.copies) false
    else s.chainFailed n
  else if sent.policyBest then s.chainCommit n 1 true
  else s.chainFailed n

/-- A successor hears from its successor (R432). -/
def State.hopAck (s : State) (n : Nat) (taken m : PeerMsg) : State :=
  if m.status = 0 then s.chainCommit n (m.copies + 1) false
  else if taken.policyBest then s.chainCommit n 1 false
  else s.endCmd n { Outcome.of (statusOf m.status) with result1 := m.copies }

/-- The forwarded write that an acknowledgement of a peer answers: one that waits for this peer (R433, R434). -/
def State.ackedWrite (s : State) (peer : Nat) (m : PeerMsg) : Option (Nat × Cmd) :=
  s.sch.cmds.find? fun e => e.2.stage = .forwarded && e.2.kh = m.keyHash && decide (e.2.version = m.version)
    && decide (e.2.path.head? = some peer)

/-- CHAIN_ACK (R177, R432, R434, R435). -/
def execChainAck (m : PeerMsg) (s : State) : Host.Outcome State Fault Refusal :=
  .next (s.withMsg 2 m fun s m =>
    match s.ackedWrite m.srcPeer m with
    | none => s
    | some (n, c) => match c.ctx, c.chain with
      | some _, some w => (s.headAck n w m).serveRestores
      | none, some w => (s.hopAck n w m).serveRestores
      | _, none => s)

/-! ## Waits that end (R433, R434, R440) -/

/-- A forwarded write is decided as if no acknowledgement had come: at the head by R434, at a successor by R433. -/
def State.ackTimedOut (s : State) (n : Nat) : State :=
  s.withCmd n (fun c => decide (c.stage = .forwarded)) fun c =>
    match c.ctx, c.chain with
    | some _, some w => if w.policyBest then s.chainCommit n 1 true else s.chainFailed n
    | none, some w => if w.policyBest then s.chainCommit n 1 false else s.endCmd n (Outcome.of .chainFailed)
    | _, none => s

/-- SUCCESSOR_ACK_TIMEOUT (R433). -/
def execSuccessorAckTimeout (cmd : Nat) (s : State) : Host.Outcome State Fault Refusal :=
  .next (s.withCmd cmd (fun c => c.ctx.isNone) fun _ => (s.ackTimedOut cmd).serveRestores)

/-- HEAD_CHAIN_TIMEOUT (R177, R434). -/
def execHeadChainTimeout (cmd : Nat) (s : State) : Host.Outcome State Fault Refusal :=
  .next (s.withCmd cmd (fun c => c.ctx.isSome) fun _ => (s.ackTimedOut cmd).serveRestores)

/-- DEDUPE_EXPIRY (R436): 10 s after its acknowledgement. -/
def execDedupeExpiry (keyHash : W64) (version : Nat) (s : State) : Host.Outcome State Fault Refusal :=
  .next (s.onPeer fun p => { p with
    dedupe := p.dedupe.filter fun e => !(e.kh = keyHash && decide (e.version = version) && e.ack.isSome) }).serveIntake

/-! ## Revokes (R435) -/

/-- CHAIN_REVOKE: the restore joins the key's gate behind the writes waiting there. -/
def execChainRevoke (m : PeerMsg) (s : State) : Host.Outcome State Fault Refusal :=
  .next (s.withMsg 3 m fun s m =>
    let held := s.peer.revoke.any fun h => h.kh = m.keyHash && decide (h.version = m.version)
    let due := s.sch.gate.any fun g => g.kh = m.keyHash && decide (g.revoke = some m.version)
    if held && !due then
      (s.onSch fun h => { h with
        gate := h.gate ++ [⟨m.keyHash, s.gateWaiters m.keyHash, none, some m.version, none⟩] }).serveRestores
    else s)

/-- REVOKE_HOLD_EXPIRY: HOLD_S after the commit the replaced locations are dead, and a restore that still waits is
dropped. -/
def execRevokeHoldExpiry (keyHash : W64) (version : Nat) (s : State) : Host.Outcome State Fault Refusal :=
  .next (match s.peer.revoke.find? fun h => h.kh = keyHash && decide (h.version = version) with
  | none => s
  | some h =>
    ((s.onPeer fun p => { p with revoke := p.revoke.erase h }).onSch fun q => { q with
      gate := q.gate.filter fun g => !(g.kh = keyHash && decide (g.revoke = some version)) }).releaseSegs h.dead)

/-! ## Repairs between peers (R438, R439) -/

/-- The read that serves a repair request. -/
def repairRead (m : PeerMsg) (v : Variant) (r : DirRec) (holds : List Nat) : Cmd :=
  { peerCmd { m with offset := 65536 * m.segIndex, length := segLen v.length m.segIndex } .get .scavenge with
    lookup := .found r, stage := .working, holds := holds }

/-- REPAIR_REQ (R439): only exactly VERSION is served. -/
def execRepairReq (m : PeerMsg) (s : State) : Host.Outcome State Fault Refusal :=
  .next (s.withMsg 4 m fun s m =>
    let deny (st : Status) := s.sendPeer m.srcPeer 5 (answerMsg m st 0)
    if s.pwr.shed.getLsbD 3 then deny .shed
    else match (dirFind s.idx.dir (padTo m.keyLen m.key)).bind fun r => (tget r.variants m.variant).map fun v => (r, v) with
      | none => deny .notFound
      | some (r, v) =>
        if v.version ≠ m.version ∨ segCount v.length ≤ m.segIndex then deny .notFound
        else
          let holds := s.variantSbs r m.variant
          let (n, s) := (s.takeHolds holds).addPeerCmd (repairRead m v r holds)
          s.advanceRead n 3)

/-- The repair that an answer belongs to. -/
def State.askedRepair (s : State) (m : PeerMsg) : Option (Nat × Repair) :=
  s.val.repairs.find? fun e => e.2.asked && e.2.fixed.isNone && e.2.kh = m.keyHash && decide (e.2.variant = m.variant)
    && decide (e.2.version = m.version) && decide (e.2.seg = m.segIndex)

/-- REPAIR_RESP (R438): the first good answer supplies the segment; the others are discarded. -/
def execRepairResp (m : PeerMsg) (s : State) : Host.Outcome State Fault Refusal :=
  .next (s.withMsg 5 m fun s m =>
    match s.askedRepair m with
    | none => s
    | some (rid, r) =>
      if m.status = 0 ∧ m.data.length = r.old.logicalLen then s.peerCopy rid m.srcPeer m.data else s)

/-- REPAIR_TIMEOUT (R438): no good answer within T. -/
def execRepairTimeout (repair : Nat) (s : State) : Host.Outcome State Fault Refusal :=
  .next (match s.repair? repair with
  | some r => if r.asked ∧ r.fixed.isNone = true then s.peersFailed repair else s
  | none => s)

/-! ## Liveness (R422) -/

/-- KEEPALIVE: the peer is heard. -/
def execKeepalive (m : PeerMsg) (s : State) : Host.Outcome State Fault Refusal := .next (s.withMsg 6 m fun s _ => s)

/-- KEEPALIVE_SEND: on a queue pair that has carried nothing for KEEPALIVE_MS. -/
def execKeepaliveSend (ctx : Nat) (s : State) : Host.Outcome State Fault Refusal :=
  .next (match s.activePeer ctx with
  | none => s
  | some p =>
    let (m, s) := s.nextMsg ctx p blankMsg
    s.sendMsg ctx 6 m)

/-- PEER_DEAD: silent for DEAD_MS. -/
def execPeerDead (peer : Nat) (s : State) : Host.Outcome State Fault Refusal :=
  .next (if s.peerLive peer = .up then s.peerDown peer else s)

/-! ## Linking (R421, R613) -/

/-- PEER_LINK_REQUEST (R613): the drive with the lower SELF_ID sends the REQ on a port that has no ACTIVE queue pair of the
peer, or on any port of a peer that is DOWN; at most 2,048 peers are linked. -/
def execPeerLinkRequest (peer : Nat) (port : Port) (s : State) : Host.Outcome State Fault Refusal :=
  .next (match s.peerEnabled peer with
  | none => s
  | some _ =>
    if s.netUp ∧ s.selfId < peer ∧ (s.peerOnPort peer port = false ∨ s.peerLive peer = .down)
        ∧ (s.peersLinked.contains peer = true ∨ s.peersLinked.length < 2048) then s.linkPeer peer port
    else s)

/-- A peer queue pair becomes ACTIVE in place of the one that the peer had on its port, which a DREQ ends (R613, R421; DEDUCED,
log 200). -/
def State.replacePairs (s : State) (peer ctx : Nat) : State :=
  let port := (tget s.nfe.qps ctx).map fun q => linkPort q.conn.link
  let old := s.nfe.qps.filter fun e => decide (e.1 ≠ ctx) && e.2.conn.peer = some peer && e.2.st = .active
    && decide (some (linkPort e.2.conn.link) = port)
  (old.foldl (fun s e => (s.send (.cmDreq e.1 0 0)).freeCtx e.1) s).activate ctx

/-- PEER_CM_REQ (R421). -/
def execPeerCmReq (req : ReqMsg) (s : State) : Host.Outcome State Fault Refusal :=
  .next (guardStep (s.netUp && reqPeer req.raw) s fun s => s.peerRequest req)

/-- PEER_CM_REP (R421 check 2): the requester checks identity and RESP_PROOF, then sends its own PROOF. -/
def execPeerCmRep (ctx : Nat) (rep : PeerRep) (s : State) : Host.Outcome State Fault Refusal :=
  .next (s.withQp ctx (fun q => decide (q.st = .connecting) && q.conn.requester) fun q =>
    match q.conn.peer with
    | none => s
    | some p =>
      let input := peerProofInput (padTo 16 rep.driveNonce) q.conn.clientNonce s.selfId rep.remoteQpn ctx
        q.conn.session driveUid
      let good := match s.peerEnabled p with
        | none => none
        | some e => match s.domainRoot e.domain with
          | none => none
          | some root =>
            if rep.driveUid = e.uid ∧ rep.respProof = peerReplyProof root input then some root else none
      match good with
      | some root =>
        ((s.onQp ctx fun q => { q with conn := { q.conn with
            clientQpn := rep.remoteQpn, driveNonce := padTo 16 rep.driveNonce } }).send
          (.peerRtu ctx (peerProof root input))).replacePairs p ctx
      | none => ((s.send (.cmRej q.conn.link 0x02)).freeCtx ctx).peerAuthFailed p)

/-- PEER_CM_RTU (R421 check 3): the PROOF decides. -/
def execPeerCmRtu (ctx : Nat) (proof : Bytes) (s : State) : Host.Outcome State Fault Refusal :=
  .next (s.withQp ctx (fun q => decide (q.st = .connecting) && decide (q.cause = 0) && !q.conn.requester) fun q =>
    match q.conn.peer with
    | none => s
    | some p =>
      let input := peerProofInput q.conn.driveNonce q.conn.clientNonce p ctx q.conn.clientQpn q.conn.session
        q.conn.reqUid
      let root := (s.peerEnabled p).bind fun e => s.domainRoot e.domain
      if root.map (fun k => peerProof k input) = some (proof.take 32) then s.replacePairs p ctx
      else (s.proofFailed ctx).peerAuthFailed p)

end Sys2Proof.Machine
end

