-- ==== Sys2Proof/Machine/Recorder.lean ====
section
/-! DEFINITION. The event recorder (chapter 18): rows, the intake FIFO and coalescing, writing records, the fallback
ring, and read results. -/

namespace Sys2Proof.Machine

/-! ## Records (R543, R554, R605) -/

/-- The 64 bytes of a record, its REC_CRC folded with the row. -/
def Rec.bytes (r : Rec) : Bytes :=
  let b := leBytes 8 r.row ++ leBytes 8 r.time ++ leBytes 2 r.src ++ leBytes 1 r.rkind
    ++ leBytes 1 (r.cls + (if r.coincident then 4 else 0) + (if r.fallback then 8 else 0))
    ++ leBytes 1 (r.level + 8 * r.k) ++ zeros 3 ++ leBytes 4 r.seq ++ zeros 4 ++ padTo 24 r.payload
  b ++ leBytes 8 (crc64 (BitVec.ofNat 64 r.row) b).toNat

/-- The gap record of a row (R554). -/
def gapRec (row : Nat) : Rec :=
  { row := row, time := 0, src := 546, rkind := 3, cls := 0, coincident := false, fallback := false, level := 0, k := 0,
    seq := 0, payload := [] }

/-! ## Rows (R544 to R546) -/

/-- A new row ceiling 2^16 above ROW_NEXT when ROW_NEXT comes within 2^15 of the stored one (R546). -/
def State.rowCeiling (s : State) : State :=
  let next := s.recorder.rowNext
  if s.ldg.kept.rowCeiling ≤ next + 2 ^ 15 then
    (s.onKept fun k => { k with rowCeiling := next + 2 ^ 16 }).keepMeta 9 0 1
  else s

/-- The next row, and the state after assigning it. -/
def State.takeRow (s : State) : Nat × State :=
  let s := s.rowCeiling
  let row := s.recorder.rowNext
  (row, (s.onRec fun r => { r with rowNext := row + 1 }).rowCeiling)

/-- The next SRC_SEQ of a source (R545). -/
def State.takeSeq (s : State) (src : Nat) : Nat × State :=
  let n := ((tget s.recorder.srcSeq src).getD 0 + 1) % 2 ^ 32
  (n, s.onRec fun r => { r with srcSeq := tset r.srcSeq src n })

/-! ## Intake (R547, R548) -/

/-- Non-fatal entries held. -/
def State.nonFatalHeld (s : State) : Nat := (s.recorder.fifo.filter fun r => r.cls ≠ 3).length

/-- A record enters the FIFO and takes its row. -/
def State.enqueue (s : State) (r : Rec) : State :=
  let (row, s) := s.takeRow
  s.onRec fun q => { q with fifo := q.fifo ++ [{ r with row := row }] }

/-- A non-fatal event while coalescing goes to its source's counter. -/
def State.absorb (s : State) (r : Rec) : State :=
  let c : Coal := match tget s.recorder.coal r.src with
    | some c => { c with count := c.count + 1, lastSeq := r.seq, lastTime := r.time, level := max c.level r.level, k := r.k }
    | none => ⟨1, r.seq, r.seq, r.time, r.time, r.level, r.k⟩
  (s.onRec fun q => { q with coalescing := true, coal := tset q.coal r.src c }).bump Reg.REC_COAL_STAT_ABSORBED

/-- An event's record arrives at the intake (R547): a fatal one waits in the core when the FIFO is full; a non-fatal
one is admitted, or coalescing begins. -/
def State.recIntake (s : State) (r : Rec) : State :=
  let (seq, s) := s.takeSeq r.src
  let r := { r with seq := seq }
  let held := s.recorder.fifo.length
  if r.cls = 3 then
    if held < 256 ∧ s.recorder.waitFatal = [] then s.enqueue r
    else s.onRec fun q => { q with waitFatal := q.waitFatal ++ [r] }
  else if s.recorder.coalescing = false ∧ s.nonFatalHeld < 240 ∧ held < 256 then s.enqueue r
  else s.absorb r

/-- The summary record of a coalescing counter (R548). -/
def summaryRec (src cls : Nat) (c : Coal) : Rec :=
  { row := 0, time := c.firstTime, src := src, rkind := 1, cls := cls, coincident := false, fallback := false,
    level := c.level, k := c.k, seq := c.lastSeq,
    payload := leBytes 4 c.count ++ leBytes 4 c.firstSeq ++ leBytes 4 c.lastSeq ++ zeros 4 ++ leBytes 8 c.lastTime }

/-- SUMMARY_MARK: values outside 16 to 200 act as 64. -/
def State.summaryMark (s : State) : Nat := s.fldIn Reg.REC_CFG_SUMMARY_MARK 16 200 64

/-- The FIFO has gained room: a waiting fatal event enters, and below SUMMARY_MARK the summaries are enqueued in
ascending source ID and coalescing ends (R547, R548). -/
def State.fifoDrained (s : State) : State :=
  let s := match s.recorder.waitFatal with
    | r :: rest => if s.recorder.fifo.length < 256 then (s.enqueue r).onRec fun q => { q with waitFatal := rest } else s
    | [] => s
  if s.recorder.coalescing = true ∧ s.recorder.fifo.length < s.summaryMark then
    let due := s.recorder.coal
    due.foldl (fun s e => (s.enqueue (summaryRec e.1 (eventClass e.1) e.2)).bump Reg.REC_COAL_STAT_SUMMARIES)
      (s.onRec fun q => { q with coal := [], coalescing := false })
  else s

/-! ## Writing (R549, R556, R557) -/

/-- A record goes to the fallback ring: entries 1 to 511 in turn; the one it overwrites is lost. -/
def State.toFallback (s : State) (f : Fallback) (r : Rec) : State :=
  let r := { r with fallback := true }
  if f.ring.length < 511 then s.onRec fun q => { q with fallback := some { f with ring := f.ring ++ [r] } }
  else (s.onRec fun q => { q with fallback := some { f with ring := f.ring.drop 1 ++ [r], dropped := f.dropped + 1 } }).bump
    Reg.REC_LOST_STAT_SRAM_OVERWRITTEN

/-- Whether LDG accepts line writes: it has restored its state, works, and the hold-up takeover has not begun (R330). -/
def State.ledgerOpen (s : State) : Bool := s.ldg.ready && !s.pwr.takeover && !s.blockInReset .ldg

/-- A record goes to its Ledger line: one atomic line write that draws a gauge token (R330, R344, R549); a line without storage
takes none, and the record is lost (R349). -/
def State.toLine (s : State) (r : Rec) : State :=
  if s.lineStuck (recLine r.row) then s.recLineLost r.row
  else (((s.onRec fun q => { q with lines := tset q.lines (r.row % recRing) r }).drawAlways 1).countGroup
    (recLine r.row % 256) 1).swatchWrite 2 (recLine r.row)

/-- RECORD_WRITE (R549): the head of the FIFO is written, in row order. -/
def execRecordWrite (s : State) : Host.Outcome State Fault Refusal :=
  .next (match s.recorder.fifo, s.recorder.fallback with
  | [], _ => s
  | r :: rest, some f => ((s.toFallback f r).onRec fun q => { q with fifo := rest }).fifoDrained
  | r :: rest, none =>
    if s.recorder.ready && s.ledgerOpen then ((s.toLine r).onRec fun q => { q with fifo := rest }).fifoDrained else s)

/-- REC enters fallback (R556): a record of source 544 takes the next row and entry 0, or stays there when fallback
lasted already. -/
def State.recFallback (s : State) (level k : Nat) (coincident : Bool) (lostLines cause : Nat) : State :=
  match s.recorder.fallback with
  | some f => s.onRec fun q => { q with fallback := some { f with reports := f.reports + 1 } }
  | none =>
    let (seq, s) := s.takeSeq 544
    let (row, s) := s.takeRow
    let r : Rec :=
      { row := row, time := s.flt.time, src := 544, rkind := 0, cls := 2, coincident := coincident, fallback := true,
        level := level, k := k, seq := seq, payload := item8 row ++ item4 lostLines ++ item1 cause }
    s.onRec fun q => { q with fallback := some ⟨r, [], 1, 0⟩ }

/-- REC_COPY_BACK (R557): a report of new lines; with the last one every fallback entry goes back to its slot, in row
order, and REC leaves fallback. -/
def execRecCopyBack (s : State) : Host.Outcome State Fault Refusal :=
  .next (match s.recorder.fallback with
  | none => s
  | some f =>
    if 1 < f.reports then s.onRec fun q => { q with fallback := some { f with reports := f.reports - 1 } }
    else if !s.ledgerOpen then s
    else
      let s := (f.entry0 :: f.ring).foldl State.toLine (s.onRec fun q => { q with fallback := none })
      s.raise 545 (item4 (f.ring.length + 1) ++ item4 f.dropped))

/-! ## Reading (R551 to R554) -/

/-- The oldest readable row. -/
def State.oldestRow (s : State) : Nat := max s.ldg.kept.clearFloor (s.recorder.rowNext - recRing)

/-- What a row's place holds: the fallback entry of the row, else its Ledger slot. -/
def State.recAt (s : State) (row : Nat) : Option Rec :=
  let back := s.recorder.fallback.bind fun f => (f.entry0 :: f.ring).find? fun r => r.row = row
  match back with
  | some r => some r
  | none => tget s.recorder.lines (row % recRing)

/-- Records from a row on, at most `n`, below the snapshot; whether the ring has passed the reader (OVERRUN). -/
def State.readRows (s : State) (snap : Nat) : Nat → Nat → List Rec × Bool
  | 0, _ => ([], false)
  | n + 1, row =>
    if snap ≤ row then ([], false)
    else match s.recAt row with
      | some r =>
        if r.row = row then
          let (l, o) := s.readRows snap n (row + 1)
          (r :: l, o)
        else if row < r.row then ([], true)
        else
          let (l, o) := s.readRows snap n (row + 1)
          (gapRec row :: l, o)
      | none =>
        let (l, o) := s.readRows snap n (row + 1)
        (gapRec row :: l, o)

/-- A read result (R551, R552) and its record count. -/
def State.readResult (s : State) (first length : Nat) : Bytes × Nat :=
  if length < 32 then ([], 0)
  else
    let snap := s.recorder.rowNext
    let oldest := s.oldestRow
    let from_ := if first = 0 ∨ first < oldest then oldest else first
    let cut := decide (first ≠ 0) && decide (first < oldest)
    let room := min ((length - 32) / 64) 65536
    let (rs, passed) := s.readRows snap room from_
    let more := !passed && decide (from_ + rs.length < snap)
    (leBytes 8 from_ ++ leBytes 8 snap ++ leBytes 8 oldest ++ leBytes 4 rs.length
      ++ leBytes 1 ((if cut then 1 else 0) + (if more then 2 else 0) + (if passed then 4 else 0)
          + (if s.recorder.fallback.isSome then 8 else 0))
      ++ zeros 3 ++ rs.flatMap Rec.bytes, rs.length)

end Sys2Proof.Machine
end

