-- ==== Sys2Proof/Machine/Rings.lean ====
section
/-! DEFINITION. The engine rings as the System Image drives them (R453 to R461, R465, R466) and the System Image's
own supervision (R38, R41, R465). -/

namespace Sys2Proof.Machine

/-! ## Doorbells (R454 to R457) -/

/-- The byte offset in DRAM group B of the submission slot of a count (R454). -/
def State.sqSlot (s : State) (n count : Nat) : Nat :=
  s.fld (Reg.ENG_SQ_BASE_BASE_4K n) * 4096 + 128 * (count % 2 ^ s.ringLog2 n)

/-- Whether both rings lie in DRAM group B (R454). -/
def State.ringInDram (s : State) (n : Nat) : Bool :=
  decide (s.fld (Reg.ENG_SQ_BASE_BASE_4K n) * 4096 + 128 * 2 ^ s.ringLog2 n ≤ dramBytes)
    && decide (s.fld (Reg.ENG_CQ_BASE_BASE_4K n) * 4096 + 32 * 2 ^ s.ringLog2 n ≤ dramBytes)

/-- The check of a doorbell (R456): that of R113, with counts modulo 2^16. -/
def Ring.tailOutOfRange (r : Ring) (log2 tail : Nat) : Bool :=
  decide (2 ^ log2 < (tail + 65536 - r.sqTail) % 65536) || decide (2 ^ log2 < (tail + 65536 - r.sqHead) % 65536)

/-- The entries that the System Image wrote before the doorbell, at their slots from a count on (R456). -/
def State.putEntries (s : State) (n count : Nat) : List Bytes → State
  | [] => s
  | e :: rest => (s.dramPut (s.sqSlot n count) (padTo 128 e)).putEntries n (count + 1) rest

/-- ENG fetches the entries of `k` counts. -/
def State.fetchEntries (s : State) (n count : Nat) : Nat → State
  | 0 => s
  | k + 1 =>
    let (e, s) := s.dramGet (s.sqSlot n count) 128
    (s.onRing n fun r => { r with queue := r.queue ++ [e] }).fetchEntries n (count + 1) k

/-- A doorbell out of range sets ERR: ENG_RING_ERROR, and the RING_ERR line (R456, R470, R471). -/
def State.ringError (s : State) (n tail : Nat) : State :=
  (((s.onRing n fun r => { r with err := true }).onEng fun e => { e with irqErr := true }).raise 24
    (item1 n ++ item2 tail))

/-- The entries that a good doorbell covers are fetched, and issued as far as they can be (R456, R457). -/
def State.ringFill (s : State) (n tail : Nat) (entries : List Bytes) : State :=
  let old := (s.ring n).sqTail
  let k := (tail + 65536 - old) % 65536
  let s := s.putEntries n old (entries.take k)
  let s := s.onRing n fun r => { r with sqTail := tail }
  (s.fetchEntries n old k).pump

/-- A doorbell of an engine ring (R454 to R457): a ring that is not enabled, or that has stopped with ERR, takes the count and
fetches nothing. A ring set up outside DRAM group
B stops the model: the spec says that it lies there, and nothing of one that does not (log 24). -/
def engDoorbell (ring tail : Nat) (entries : List Bytes) (s : State) : Host.Outcome State Fault Refusal :=
  let tail := tail % 65536
  if 10 ≤ ring ∨ s.fld (Reg.ENG_RING_CFG_EN ring) ≠ 1 ∨ (s.ring ring).err = true then
    .next (s.onRing ring fun r => { r with sqTail := tail })
  else if (s.ring ring).tailOutOfRange (s.ringLog2 ring) tail then
    .next ((s.ringError ring tail).onRing ring fun r => { r with sqTail := tail })
  else if s.ringInDram ring = false then .fault .outsideDram
  else .next (s.ringFill ring tail entries)

/-- ENG_DOORBELL (R454 to R457). -/
def execEngDoorbell (ring tail : Nat) (entries : List Bytes) (s : State) : Host.Outcome State Fault Refusal :=
  engDoorbell ring tail entries s

/-- A write of ENG_CQ_PTR.CQ_HEAD: released slots take the waiting completions, and the ring goes on (R461). -/
def State.cqHeadWrite (s : State) (ring headCount : Nat) : State :=
  let s := s.onRing ring fun r => { r with cqHead := headCount % 65536 }
  if ring < 10 then (s.drainCqes ring (s.ring ring).waiting.length).pump else s

/-- ENG_CQ_HEAD_WRITE (R461). -/
def execEngCqHeadWrite (ring headCount : Nat) (s : State) : Host.Outcome State Fault Refusal :=
  .next (s.cqHeadWrite ring headCount)

/-- EN is set on a ring of R453 that is not enabled and has no issued entry left: both counts and ERR are zeroed
(R453, R454). -/
def State.ringEnable (s : State) (ring : Nat) : State :=
  guardStep (decide (ring < 10) && decide (s.fld (Reg.ENG_RING_CFG_EN ring) = 0) && (s.ring ring).issued.isEmpty) s
    fun s => (s.setFld (Reg.ENG_RING_CFG_EN ring) 1).onRing ring fun _ => Ring.fresh

/-- ENG_RING_ENABLE (R453, R454). -/
def execEngRingEnable (ring : Nat) (s : State) : Host.Outcome State Fault Refusal := .next (s.ringEnable ring)

/-! ## The System Image (R38, R41, R465, R466) -/

/-- The System Image has re-attached (R41, R465): HOLD clears, and set-up rings go on. -/
def State.attachImage (s : State) : State :=
  ((s.setFld Reg.ENG_HOLD_HOLD 0).onPins fun p => { p with imageDown := false, missed := 0 }).pump

/-- HEARTBEAT (R38). -/
def execHeartbeat (s : State) : Host.Outcome State Fault Refusal :=
  .next (guardStep (!s.pins.imageDown) s fun s => s.onPins fun p => { p with missed := 0 })

/-- The service cores stop the application cores and restart the System Image (R38, R465). -/
def State.stopImage (s : State) : State :=
  (s.setFld Reg.ENG_HOLD_HOLD 1).onPins fun p => { p with imageDown := true }

/-- HEARTBEAT_MISSED (R38, R498): counted while the System Image runs and the drive is not in PS3; the fifth in a row
restarts it. -/
def execHeartbeatMissed (s : State) : Host.Outcome State Fault Refusal :=
  .next (guardStep (!s.pins.imageDown && decide (s.pwr.ps ≠ 3)
      && (decide (s.rst.run = .starting) || decide (s.rst.run = .running))) s fun s =>
    let n := s.pins.missed + 1
    let s := (s.onPins fun p => { p with missed := n }).raise 4 (item4 n)
    if 5 ≤ n then s.stopImage else s)

end Sys2Proof.Machine
end

