-- ==== Sys2Proof/Machine/Resets.lean ====
section
/-! DEFINITION. Engine block resets with their replays (R26, R27, R191 to R193, R462, R463), and the chip reset with
its drain (R197 to R199, R473 to R477). -/

namespace Sys2Proof.Machine

/-! ## Entering an engine block reset (R191, R462) -/

/-- The rings whose directives act on a block. -/
def ringsOf (b : EngBlock) : List Nat := (List.range 10).filter fun n => (ringTargets n).contains b

/-- The issued directives of a ring end with ABORTED_RESET, but for the RULE_INSERT whose shift runs (R462). -/
def State.abortRing (s : State) (n : Nat) : State :=
  let kept := if n = 1 then s.mch.shift.map (·.dir.etag) else none
  ((s.ring n).issued.filter fun i => decide (some i.etag ≠ kept)).foldl
    (fun s i => s.ringDone n ⟨i.etag, i.resAddr⟩ esAbortedReset []) s

/-- A mirror change whose directive has been aborted: it takes effect whole, and completes nothing. -/
def MChange.bare (c : MChange) : MChange :=
  match c with
  | .pin kh key tag _ gone => .pin kh key tag none gone
  | .unpin kh key _ => .unpin kh key none
  | c => c

/-- What a block holds for aborted directives goes with them. -/
def State.dropWaits (s : State) (b : EngBlock) : State :=
  let keys (p : Nat → Bool) (s : State) : State := s.onCip fun c => { c with
    slots := c.slots.map fun e => if p e.1 then (e.1, { e.2 with waiting := [], eraseDirs := [] }) else e }
  match b with
  | .idx => s.onIdx fun i => { i with
      rebuildDir := [], pending := i.pending.map MChange.bare, waiting := i.waiting.map MChange.bare }
  | .mch => s.onMch fun m => { m with waitShift := [], waitLoad := [] }
  | .ftl => s.onFtl fun f => { f with upkeep := [], verifies := f.verifies.map fun v => { v with dir := none } }
  | .cip => keys (fun n => !isPeerSlot n) s
  | .peer => keys isPeerSlot (s.onCip fun c => { c with waitRestore := [] })
  | _ => s

/-- An engine block enters reset; a second reset of it starts nothing, and none runs during a prelude (R489, R542). -/
def State.resetBlock (s : State) (b : EngBlock) : State :=
  if s.sch.inReset.contains b || !(decide (s.rst.run = .running) || decide (s.rst.run = .starting)) then s
  else
    let s := (s.onSch fun h => { h with inReset := h.inReset ++ [b] })
    let s := (ringsOf b).foldl State.abortRing s
    (s.dropWaits b).pump

/-! ## Leaving it: credits (R26) -/

/-- A pool after a reset of one of its ends: full when the receiver was reset, the receiver's free entries when the
sender was. -/
def poolAfter (b : EngBlock) (e : Nat × Nat × Nat) : Option (Nat × Nat × Nat) :=
  let queue := e.1 / 1024
  let channel := e.1 % 1024 / 4
  if receiverOfQueue queue channel = some b then none
  else if senderOfQueue queue channel = b then
    (if e.2.2 = capacity queue (e.1 % 4) then none else some (e.1, e.2.2, e.2.2))
  else some e

/-- The counters of a block's queues after its reset. -/
def State.restoreCredits (s : State) (b : EngBlock) : State :=
  (s.onSch fun h => { h with credits := h.credits.filterMap (poolAfter b) }).serveStaged

/-! ## Leaving it: replay (R192) -/

/-- Segments that a write has placed and that are not durable. -/
def Cmd.placed (c : Cmd) (p : Loc → Bool) : Tbl Seg :=
  c.work.filterMap fun e => match e.2 with
    | .writing g => if p g.loc then some (e.1, g) else none
    | _ => none

/-- Whether a location is a Ledger line. -/
def Loc.isLedger (l : Loc) : Bool :=
  match l with
  | .ledger _ => true
  | .flash _ _ _ => false

/-- Whether a flash location has a codeword on a channel. -/
def State.onChannel (s : State) (ch : Nat) (l : Loc) : Bool :=
  (s.locWords l).any fun w => match w with
    | some (id, q) => decide (chanOf id ((s.sb id).posOf q) = ch)
    | none => false

/-- The placed segments that a block was writing. -/
def State.writingAt (s : State) (b : EngBlock) (c : Cmd) : Tbl Seg :=
  match b with
  | .ldg => c.placed Loc.isLedger
  | .ftl => c.placed fun l => !l.isLedger
  | .fch n => c.placed fun l => s.onChannel n l
  | _ => []

/-- Whether a read of a segment is outstanding in a block: the segment that the command reads next lies there, and its
checks have not passed. -/
def State.readingAt (s : State) (b : EngBlock) (c : Cmd) : Bool :=
  match if c.stage = .working && c.repair.isNone && (c.jobs 0).isEmpty then s.nextRead c else none with
  | none => false
  | some (_, g, _) => match b with
    | .ldg => g.loc.isLedger
    | .ftl => !g.loc.isLedger
    | .fch n => s.onChannel n g.loc
    | _ => false

/-- Whether a command had entries in a block: it is replayed when the block leaves reset. SCH's own intake, the results
on their way to it and the completions not yet handed on count for SCH, descriptors staged for it for QPM. -/
def State.heldBy (s : State) (b : EngBlock) (c : Cmd) : Bool :=
  match b with
  | .idx => (decide (c.stage = .started) && c.op.namesKey && decide (c.lookup = .waiting))
      || (decide (c.stage = .working) && c.scanCtx.isSome)
  | .mch | .md _ => (decide (c.stage = .started) && c.searches) || (decide (c.stage = .working) && c.scanCtx.isSome)
  | .val => decide (c.stage = .working) && c.scanCtx.isNone
  | .cip => !(c.jobs 0).isEmpty
  | .ldg | .ftl | .fch _ => !(s.writingAt b c).isEmpty || s.readingAt b c
  | .peer => decide (c.stage = .forwarded)
  | .sch => decide (c.stage = .accepted) || decide (c.stage = .done)
      || (decide (c.stage = .started) && (c.searches || (c.op.namesKey && decide (c.lookup = .waiting))))
  | .qpm => decide (c.stage = .staged)
  | .eng => false

/-- A value job starts again: a write fetches from its first segment not yet handed on, whole, a read drops the segments it
has not delivered. -/
def State.replayValue (s : State) (n : Nat) : State :=
  match s.cmd? n with
  | none => s
  | some c =>
    let work := c.work.filterMap fun e => match e.2 with
      | .opening _ => none
      | .mergeOpen part _ => some (e.1, .merging part)
      | w => some (e.1, w)
    let s := s.onCmd n fun c => { c with work := work }
    if c.op.readsBuffer && c.ctx.isSome && decide (c.pos < c.desc.length) then
      let base := if c.op = .put then 0 else c.desc.offset
      let first := (work.find? fun e => match e.2 with
        | .filling _ => true
        | _ => false).map fun e => 65536 * e.1 - base
      let pos := min c.pos (first.getD c.pos)
      let kept := c.buffer.take pos
      let s := s.onCmd n fun c => { c with
        work := work.filter fun e => decide (e.1 < (base + pos) / 65536)
        pos := pos, buffer := kept, crc := crc32cRun crc32cInit kept }
      match c.ctx with
      | some ctx => s.sendAs ctx c.runClass (.valueRead ctx (c.desc.bufAddr + pos) c.desc.bufRkey (c.desc.length - pos))
      | none => s
    else s

/-- Written segments go to new locations; the orphaned copies are reclaimed. -/
def State.replayWrites (s : State) (n : Nat) (gs : Tbl Seg) : State :=
  match s.cmd? n with
  | none => s
  | some c =>
    let s := s.releaseSegs (gs.map (·.2))
    let gs := gs.map fun e => (e.1, e.2.close (locator c.kh c.desc.variant e.1))
    let units := unitsOf gs
    if c.ledgerPath = some true ∧ s.stagingRoom units = true
        ∧ s.threshold c.runClass + s.pairLines units ≤ s.ldg.level then
      (s.lowerGauge (s.pairLines units)).placeLedger n gs
    else s.placeFlash n c.act.parityP gs

/-- A forward is sent again with the same version. -/
def State.replayForward (s : State) (n : Nat) : State :=
  match s.cmd? n with
  | none => s
  | some c =>
    match c.ctx, c.chain, c.path with
    | some _, some w, p :: _ => s.forward n c p 1 c.path w.policyBest w.depth
    | none, some m, _ => s.successorChain n c m
    | _, _, _ => s

/-- One command's replay. What SCH's or QPM's reset discarded SCH takes up from its retention table: it holds no credit
of the intake queue, and is issued as a replayed command (R26, R191, R201). -/
def State.replayCmd (s : State) (b : EngBlock) (n : Nat) : State :=
  match b, s.cmd? n with
  | .val, some _ => s.replayValue n
  | .ldg, some c => s.replayWrites n (s.writingAt .ldg c)
  | .ftl, some c => s.replayWrites n (s.writingAt .ftl c)
  | .fch ch, some c => s.replayWrites n (s.writingAt (.fch ch) c)
  | .peer, some _ => s.replayForward n
  | .sch, some c | .qpm, some c =>
    if c.stage = .accepted ∨ c.stage = .staged then s.onCmd n fun c => { c with stage := .accepted, replayed := true }
    else s
  | _, _ => s

/-- The commands that had entries in a block. -/
def State.heldCmds (s : State) (b : EngBlock) : List Nat := (s.sch.cmds.filter fun e => s.heldBy b e.2).map (·.1)

/-- Whether a replay waits: another block that the command needs is in reset (R489). -/
def State.replayWaits (s : State) (e : EngBlock × Nat) : Bool :=
  match s.cmd? e.2 with
  | some c => s.sch.inReset.any fun b => decide (b ≠ e.1) && s.heldBy b c
  | none => false

/-- SCH replays the commands whose entries the reset of a block discarded, and those whose last block it was; the others wait for
theirs (R192, R489). -/
def State.replay (s : State) (b : EngBlock) (ns : List Nat) : State :=
  let all := s.sch.replayDue ++ (ns.filter fun n => !s.sch.replayDue.contains (b, n)).map fun n => (b, n)
  let all := all.filter fun e => (s.cmd? e.2).isSome
  let due := all.filter fun e => !s.replayWaits e
  let s := s.onSch fun h => { h with replayDue := all.filter fun e => !due.contains e }
  (due.foldl (fun s e => s.replayCmd e.1 e.2) s).bump Reg.SCH_REPLAY_STAT_REPLAYS due.length

/-- MCH, or a match die, loads its entries from the shadow; an interrupted RULE_INSERT is finished and completes
(R255, R462), with what waited for it (R248), and the running halves are loaded from their images (R264). -/
def State.matchReload (s : State) : State :=
  let h := s.mch.shift
  let s := s.reloadHalves.reloadRules
  match h with
  | some h => (s.finish 1 h.dir esDone []).afterShift
  | none => s

/-- QPM starts again: batches in flight are fetched anew, and NFE's held doorbells are applied in order (R191). -/
def State.qpmRestart (s : State) : State :=
  let held := s.nfe.heldDoorbells
  let s := s.onNfe fun n => { n with
    heldDoorbells := [], qps := n.qps.map fun e => (e.1, { e.2 with fetching := 0, phaseWait := false }) }
  held.foldl (fun s d => s.applyDoorbell d.1 d.2) s

/-- ENG starts again: the completions that waited are written, and the entries fetched and not issued are fetched again from
SQ_HEAD (R463). -/
def State.engRestart (s : State) : State :=
  (List.range 10).foldl (fun s n =>
    let r := s.ring n
    let s := (s.onRing n fun r => { r with queue := [] }).fetchEntries n r.sqHead r.queue.length
    s.drainCqes n r.waiting.length) s

/-- What the block does on its own when it leaves reset (R255, R264, R322, R438, R463). -/
def State.restartBlock (s : State) (b : EngBlock) : State :=
  match b with
  | .mch | .md _ => s.matchReload
  | .cip => (s.onCip fun c => { c with cache := [], running := [], rerun := [], bufLane := none, laneKeys := [] }).fillLanes 16
  | .qpm => s.qpmRestart
  | .eng => s.engRestart
  | .peer => ((s.val.repairs.filter fun e => e.2.asked).map (·.1)).foldl State.askPeers s
  | _ => s

/-- The _LO registers of a block whose reads latch a high word (R604). -/
def latchesOf (b : EngBlock) : List Nat :=
  match b with
  | .sch => [0x60000]
  | .idx => [0x70004, 0x70014]
  | .cip => [0xF002C]
  | _ => []

/-- After a reset of its block, a latch holds nothing (R604). -/
def State.dropLatches (s : State) (b : EngBlock) : State :=
  { s with latches := s.latches.filter fun e => !(latchesOf b).contains e.1 }

/-- The round-robin pointers of a block's arbiters are 0 after its reset (R24). -/
def State.resetPointers (s : State) (b : EngBlock) : State :=
  match b with
  | .sch => s.onSch fun h => { h with rrClass := 0, rrIssue := 0, rrIntake := 0, rrDone := 0, rrJobs := 0 }
  | .qpm => s.onNfe fun n => { n with rrExpress := 0, rrOther := 0 }
  | .mch => s.onMch fun m => { m with rrHalf := 0, rrSearch := 0 }
  | .val => s.onVal fun v => { v with rr := 0 }
  | .cip => s.onCip fun c => { c with rr := 0 }
  | .fch n => s.onFtl fun t => { t with rrFch := tdel t.rrFch n }
  | .peer => s.onNfe fun n => { n with rrPeer := 0 }
  | .eng => s.onEng fun e => { e with rr := 0 }
  | _ => s

/-- MCH and the match dies. -/
def matchBlocks : List EngBlock := [.mch, .md 0, .md 1, .md 2, .md 3]

/-- The blocks that leave reset with a block: all five of the match engine after MATCH_CASCADE (R255). -/
def State.resetGroup (s : State) (b : EngBlock) : List EngBlock :=
  if s.mch.cascade && matchBlocks.contains b then matchBlocks else [b]

/-- A block leaves reset (R24, R26, R27, R191, R192, R604); the blocks of one reset leave it together (R255). -/
def State.leaveReset (s : State) (b : EngBlock) : State :=
  let held := s.heldCmds b
  let group := s.resetGroup b
  let s := s.onMch fun m => { m with cascade := m.cascade && !matchBlocks.contains b }
  let s := (s.onSch fun h => { h with inReset := h.inReset.filter fun x => !group.contains x }).dropLatches b
  let s := group.foldl State.restoreCredits (s.bump Reg.SCH_REPLAY_STAT_BLOCK_RESETS)
  (((group.foldl State.resetPointers s).restartBlock b).replay b held).serveIntake.pump

/-- BLOCK_RESET_EXIT (R26, R27, R191, R192). -/
def execBlockResetExit (b : EngBlock) (s : State) : Host.Outcome State Fault Refusal :=
  .next (guardStep (s.sch.inReset.contains b) s fun s => s.leaveReset b)

/-! ## Ports (R530) -/

/-- A port's MAC and PCS retrain: its links go down, and its queue pairs in ACTIVE or DRAINING enter ERROR at once; one
in CONNECTING waits for LINKDOWN_MS (R99, R125, R530). -/
def State.retrainPort (s : State) (p : Port) : State :=
  let links := [Link.a0, .a1, .b0, .b1].filter fun l => decide (linkPort l = p)
  let s := s.onNfe fun n => match p with
    | .a => { n with retrainA := true }
    | .b => { n with retrainB := true }
  let s := links.foldl (fun s l => s.onNfe fun n => { n with
    linkUp := n.linkUp &&& ~~~linkBit l, linkWait := n.linkWait ||| (n.linkUp &&& linkBit l) }) s
  (s.ctxsOn fun l => decide (linkPort l = p)).foldl (fun s ctx => s.qpError ctx 0x10) s

/-! ## What a chip reset leaves (R473) -/

/-- Retention entries of writes that committed, as outcome records that wait for the start (R200). -/
def State.committedRecords (s : State) : List OutcomeRec :=
  (s.sch.outcomes.filter fun r => (statusOf r.status.code).tookEffect).map (fun r => { r with holding := false })
    ++ s.sch.cmds.filterMap fun e =>
      if e.2.op.isWrite && e.2.committed && e.2.ctx.isSome then e.2.outcome.map fun o => e.2.record o false else none

/-- The mirror changes under way end with a chip reset: the moves of records are written in both copies and what they left is
released, the others are undone (R220; DESIGN CHOICE, log 180). -/
def State.endChanges (s : State) : State :=
  let s := (s.idx.pending ++ s.idx.waiting).foldl (fun s c => match c with
    | .move kh key loc old _ => (s.onIdx fun i => { i with mirror1 := mirrorMove i.mirror1 kh key loc }).releaseLoc old
    | _ => s) s
  s.onIdx fun i => { i with pending := [], waiting := [], mirror0 := i.mirror1 }

/-- What no commit names goes (R199, R333): the work of uncommitted writes, of repair rewrites, and what successors
kept for a revoke. -/
def State.dropUncommitted (s : State) : State :=
  let s := s.sch.cmds.foldl (fun s e => if e.2.op.isWrite && !e.2.committed && !e.2.decided then s.releaseWork e.2 else s) s
  let s := s.val.repairs.foldl (fun s e => match e.2.fixed with
    | some g => s.releaseSeg g
    | none => s) s
  s.peer.revoke.foldl (fun s h => s.releaseSegs h.dead) s

/-- The image set in a bank. -/
def Sec.bank (x : Sec) (n : Nat) : Option ImageSet := if n = 0 then x.bank0 else x.bank1

/-- The ID of the set in a bank; 0 for an empty bank. -/
def Sec.setIdOf (x : Sec) (n : Nat) : Nat := ((x.bank n).map (·.setId)).getD 0

/-- The session ends with a result; the sources listed find that it no longer exists (R577, R582). -/
def State.endSession (s : State) (result : Nat) (gone : Bool) : State :=
  s.onSession fun x => { x with
    st := .idle, waiting := none, manifest := [], blocks := [], shadow := none, reverting := false, abandon := false
    lastResult := result, ended := if gone then x.ended ++ [x.holder] else x.ended }

/-- UPDATE_REVERTED of the set that was under trial (R580, R582, R584); the spec gives its cause item no values. -/
def State.revertedEvent (s : State) : State :=
  let (cause, s) := s.drawNat
  s.raise 1095 (item4 (s.sec.setIdOf s.session.target) ++ item1 cause)

/-- An update session ends with a chip reset (R582): REVERTED when its activation had begun, else TIMEOUT. -/
def State.sessionReset (s : State) : State :=
  match s.session.st with
  | .idle => s
  | .openS => s.endSession Status.timeout.code true
  | _ => s.revertedEvent.endSession Status.reverted.code true

/-- The rebuilds under way end with a chip reset: their codewords are met again by the next read (R399). -/
def State.stopRebuilds (s : State) : State :=
  s.onFtl fun t => { t with
    rebuilds := []
    sbs := t.sbs.map fun e => (e.1, { e.2 with lost := e.2.lost.filter fun q => !t.rebuilds.contains (e.1, q) })
    par := t.par.filter fun e => !e.2.released }

/-- The volatile state of the engines is gone; DRAM, the Ledger, flash and PD00 keep theirs (R473). The mirror's
pending changes, scan contexts, repairs, key slots, peers and rings are not kept. -/
def State.wipe (s : State) : State :=
  let recs := s.committedRecords
  let s := s.dropUncommitted.endChanges.sessionReset.stopRebuilds
  let r := State.reset
  { s with
    latches := []
    nfe := { r.nfe with cageA := s.nfe.cageA, cageB := s.nfe.cageB, tx := s.nfe.tx }
    sch := { r.sch with outcomes := recs, usage := s.sch.usage, nextCmd := s.sch.nextCmd, nextVersion := s.sch.nextVersion }
    idx := { s.idx with
      poison := [], rebuilding := false, mark := 0, tableReady := false
      mirrorReady := false, kickStart := 0, rebuildDir := [] }
    mch := { r.mch with shadow := s.mch.shadow, shift := s.mch.shift }
    val := r.val
    cip := r.cip
    ldg := { s.ldg with
      ready := false, level := 0, metaQueue := [], stagingFull := false
      taken := s.ldg.limbo.foldl tdel s.ldg.taken, limbo := [] }
    ftl := { s.ftl with
      mapReady := false, dieOps := [], holds := [], copies := [], upkeep := [], moves := [], verifies := [], rrFch := [] }
    peer := r.peer
    eng := { r.eng with dram := s.eng.dram }
    flt := { s.flt with
      broken := 0, lastBroken := 0, crcFails := []
      swatched := s.flt.swatched.filter fun e => decide (e.1 ≠ 3) && decide (e.1 ≠ 4) }
    recorder := { s.recorder with ready := false }
    pwr := { s.pwr with ps := 0 }
    pins := { s.pins with missed := 0, imageDown := false, tlsOpen := 0 } }

/-- Every domain but PD00 is off, and DRAM has lost its supply (R478, R506, R589). -/
def State.mainOff (s : State) : State :=
  ((s.onPwr fun p => { p with domains := .on :: List.replicate 29 .off, due := [], standby := false, takeover := false }).onEng
    fun e => { e with dram := [] }).onRst fun r => { r with run := .off, powerLost := true }

/-- Whether the module powers down with its chip reset (R506, R589, R602). -/
def State.powersDown (s : State) : Bool :=
  decide (s.rst.cause = 7) || decide (s.rst.cause = 8) || s.pins.pwrDisable || !s.pins.presentLow

/-- The chip reset is asserted (R475). -/
def State.assertReset (s : State) : State :=
  let s := s.wipe.onRst fun r => { r with run := .inReset }
  if s.powersDown then s.mainOff else s

/-! ## The prelude (R474, R475, R477) -/

/-- What the reset record says (R477): RSEQ, whether RKIND is CLEAN, CAUSE, VALID_MASK, JSEQ_APPLIED and the five digests. -/
structure ResetRec where
  rseq : Nat
  clean : Bool
  cause : Nat
  validMask : BitVec 5
  jseqApplied : Nat
  digests : List W64
deriving DecidableEq, Repr

/-- The 64 bytes of the reset record (R477). -/
def ResetRec.bytes (r : ResetRec) : Bytes :=
  let b := leBytes 4 r.rseq ++ leBytes 1 (if r.clean then 1 else 0) ++ leBytes 1 r.cause ++ leBytes 1 r.validMask.toNat
    ++ zeros 1 ++ leBytes 8 r.jseqApplied ++ ((List.range 5).flatMap fun n => leBytes 8 (r.digests.getD n 0).toNat) ++ zeros 4
  b ++ leBytes 4 (crc32c b).toNat

/-- The reset record of its 64 bytes; one whose LINE_CRC fails says NONE (R477, R480). -/
def parseResetRec (b : Bytes) : ResetRec :=
  if fieldAt b 60 4 = (crc32c (b.take 60)).toNat then
    ⟨fieldAt b 0 4, decide (fieldAt b 4 1 = 1), fieldAt b 5 1, BitVec.ofNat 5 (fieldAt b 6 1), fieldAt b 8 8,
      (List.range 5).map fun n => BitVec.ofNat 64 (fieldAt b (16 + 8 * n) 8)⟩
  else ⟨0, false, 0, 0, 0, []⟩

/-- Whether an uncorrectable word lies in a region of DRAM group B (R475). -/
def State.regionSpoiled (s : State) (n : Nat) : Bool :=
  s.flt.swatched.any fun e => e.1 = 1 && decide (e.2.2 ≠ 1) && decide (Config.regionAt e.2.1 = n)

/-- Whether the prelude finds a region's digest valid (R475): an uncorrectable word in it invalidates it; so does, of FP_TABLE,
a rebuild that has not ended or a poisoned bucket, and of the mirrors an unfinished rebuild (DESIGN CHOICE, log 22). -/
def State.digestValid (s : State) (n : Nat) : Bool :=
  match n with
  | 0 => !(s.flt.swatched.any fun e => e.1 = 0 && decide (e.2.2 ≠ 1)) && s.idx.poison.isEmpty && s.idx.tableReady
      && !s.idx.rebuilding
  | 1 | 2 => s.idx.mirrorReady && !s.idx.rebuilding && !s.regionSpoiled n
  | _ => !s.regionSpoiled n

/-- VALID_MASK (R477). -/
def State.digestMask (s : State) : BitVec 5 :=
  ((List.range 5).filter s.digestValid).foldl (fun m n => m ||| ((1 : BitVec 5) <<< n)) 0

/-- The digest step writes the reset record (R475, R477): a paired line of the engine-checkpoint class. -/
def State.takeDigests (s : State) : State :=
  let mask := s.digestMask
  (s.onKept fun k =>
    let rseq := ((parseResetRec k.resetRec).rseq + 1) % 2 ^ 32
    { k with
      resetRec := (ResetRec.mk rseq true s.rst.cause mask (k.nextJseq - 1)
        ((List.range 5).map fun n => Config.regionDigest n rseq)).bytes }).keepMeta 2 0 1

/-- RKIND of the reset record becomes NONE (R481). -/
def State.clearResetRec (s : State) : State :=
  (s.onKept fun k => { k with resetRec := ({ parseResetRec k.resetRec with clean := false } : ResetRec).bytes }).keepMeta 2 0 1

/-- A command's fate when the drain begins (R197): one not started ends, a scan batch ends at once. -/
def State.drainCmd (s : State) (n : Nat) : State :=
  match s.cmd? n with
  | none => s
  | some c =>
    if c.decided then s
    else match c.op with
      | .scan | .scanNext => if c.scanCtx.isSome && decide (c.stage = .working) then s.endBatch n .abortedReset true
          else s.endCmd n (Outcome.of .abortedReset)
      | _ => if c.stage = .accepted ∨ c.stage = .staged then s.endCmd n (Outcome.of .abortedReset) else s

/-- The reset drain begins. -/
def State.beginDrain (s : State) : State :=
  let s := (s.onNfe fun n => { n with stopFetch := true }).onSch fun h => { h with drain := .reset }
  let s := s.onRst fun r => { r with run := .prelude, drained := true }
  (s.sch.cmds.map (·.1)).foldl State.drainCmd s

/-- A chip reset takes its cause: the step it interrupts, and a failed start, are noted (R474, R486). -/
def State.noteCause (s : State) (cause : Nat) : State :=
  let cold := decide (s.fld Reg.RST_START_CFG_FORCE_COLD = 1)
  s.onRst fun r => { r with
    cause := cause, drained := false, forceCold := cold
    lastStep := match r.run with
      | .running => 0xFF
      | .starting => 14
      | .recovery => if r.failedStarts = 3 then 1 else 4
      | _ => r.lastStep
    failedStarts := if r.run = .starting && causeFails cause then min 3 (r.failedStarts + 1) else r.failedStarts }

/-- A chip reset of a cause (R197, R474, R475, R489): the drain first where the cause has one and SCH and NFE work; during
the prelude the first cause stands, but a clock fault or the hold-up ends it without digests. -/
def State.chipResetWith (s : State) (cause : Nat) (nfeWorks : Bool) : State :=
  match s.rst.run with
  | .off | .inReset => s
  | .prelude =>
    if cause = 3 then s.assertReset
    else if cause = 7 then (s.onRst fun r => { r with cause := 7 }).assertReset
    else s
  | .recovery => (s.noteCause cause).assertReset
  | .starting | .running =>
    let s := s.noteCause cause
    if causeDrains cause && nfeWorks && !s.sch.inReset.contains .sch then s.beginDrain
    else (if causeDigests cause then s.takeDigests else s).assertReset

/-- A chip reset while NFE works. -/
def State.chipReset (s : State) (cause : Nat) : State := s.chipResetWith cause true

/-! ## The end of the drain (R197, R198) -/

/-- A command's fate when the drain ends. -/
def State.endDrained (s : State) (n : Nat) : State :=
  match s.cmd? n with
  | none => s
  | some c =>
    if c.decided then s
    else match c.op with
      | .get => s.endRead n .abortedReset
      | .count => s.endCount n .abortedReset
      | _ => s.endCmd n (Outcome.of .abortedReset)

/-- Every ACTIVE client queue pair gets its DREQ with the final head. -/
def State.sendDreqs (s : State) : State :=
  (s.nfe.qps.filter fun e => decide (e.2.st = .active) && e.2.conn.peer.isNone).foldl
    (fun s e => s.send (.cmDreq e.1 0 e.2.head)) s

/-- The drain ends: what has not committed rolls back, every completion is handed on, the clients are told, the digests
are taken, and the reset is asserted (R197, R198, R475). -/
def State.endDrain (s : State) : State :=
  let s := (s.sch.cmds.map (·.1)).foldl State.endDrained s
  let s := (s.sch.cmds.map (·.1)).foldl State.writeCompletion s
  let s := s.sendDreqs
  (if causeDigests s.rst.cause then s.takeDigests else s).assertReset

/-- RESET_DRAIN_END (R197, R198). -/
def execResetDrainEnd (s : State) : Host.Outcome State Fault Refusal :=
  .next (guardStep (decide (s.rst.run = .prelude)) s State.endDrain)

/-! ## Chip resets by command -/

/-- RST_SOFT_WRITE (R474, RST_SOFT): 0x5EC0 by the service cores. -/
def execRstSoftWrite (core : CoreId) (code : Nat) (s : State) : Host.Outcome State Fault Refusal :=
  .next (guardStep (decide (core = .service) && decide (code = 0x5EC0)) s fun s => s.chipReset 6)

/-- HEADLESS_TIMEOUT (R41): the System Image has not re-attached within 2 s; the fatal event of source 5 and its chip
reset. -/
def execHeadlessTimeout (s : State) : Host.Outcome State Fault Refusal :=
  .next (guardStep s.pins.imageDown s fun s => (s.raise 5 []).chipReset 4)

/-- START_TIMEOUT (R485): LIMIT_S has passed without START_DONE. -/
def execStartTimeout (s : State) : Host.Outcome State Fault Refusal :=
  .next (guardStep (decide (s.rst.run = .starting)) s fun s => s.chipReset 5)

end Sys2Proof.Machine
end

