-- ==== Sys2Proof/Machine/Admin.lean ====
section
/-! DEFINITION. Admin operations by their three ways in (R40, R168, R550, chapter 19): who asks and how the answer goes
back; IDENTIFY, ATTEST, REC_READ and REC_CLEAR; authorisation references (R570). -/

namespace Sys2Proof.Machine

/-! ## Ways in and answers (R168, R453, R609) -/

/-- The answer to an admin operation. -/
structure AdminAns where
  status : Status
  result1 : Nat
  validBytes : Nat
  output : Bytes
deriving DecidableEq, Repr

/-- An answer without output. -/
def AdminAns.plain (st : Status) (result1 : Nat) : AdminAns := ⟨st, result1, 0, []⟩

/-- An answer OK with output. -/
def AdminAns.ok (result1 : Nat) (output : Bytes) : AdminAns := ⟨.ok, result1, output.length, output⟩

/-- The requester of an admin operation (R169, R566): 0 and 1 the admin queue pairs of ports A and B, 2 the management
port; on a ring, whom the service cores name. -/
def State.adminSource (s : State) (via : AdminVia) : Nat :=
  match via with
  | .qp n => match (s.cmd? n).bind (·.ctx) with
    | some 0 => 0
    | _ => 1
  | .mgmt => 2
  | .ring requester _ => requester

/-- The ring on which a REC_READ directive was issued: 8 by its code there, else 9 (R453, R550). -/
def State.recRing (s : State) (d : Dir) : Nat :=
  if (s.ring 8).issued.any fun i => decide (i.etag = d.etag) && decide (i.code = 1) then 8 else 9

/-- The answer on a ring: RESULT holds RESULT1 and VALID_BYTES, and output goes to RES_ADDR (R550, R609). -/
def State.ringAnswer (s : State) (d : Dir) (a : AdminAns) : State :=
  let n := s.recRing d
  if a.status ≠ .ok then s.finish n d esRefused []
  else if n = 8 then s.finishExt n d a.output (leBytes 4 a.result1)
  else if a.output.isEmpty then s.finish n d esDone (leBytes 4 a.result1 ++ zeros 4 ++ leBytes 8 a.validBytes)
  else s.finishExt n d a.output (leBytes 4 a.result1 ++ leBytes 8 a.validBytes)

/-- Answer an admin operation by the way it came. -/
def State.answer (s : State) (via : AdminVia) (a : AdminAns) : State :=
  match via with
  | .mgmt => s.send (.mgmt a.status a.result1 a.output)
  | .ring _ d => s.ringAnswer d a
  | .qp n =>
    match s.cmd? n with
    | none => s
    | some c =>
      let s := match c.ctx with
        | some ctx => if a.output.isEmpty || c.orphan then s else s.sendAs ctx .normal (.data ctx n c.desc.bufAddr c.desc.bufRkey (a.output.take c.desc.length))
        | none => s
      s.endCmd n ⟨a.status, a.result1, 0, a.validBytes, false, false⟩

/-- Whether an admin operation may start: one that came by a ring has its turn there (R457). -/
def State.adminTurn (s : State) (via : AdminVia) : Bool :=
  match via with
  | .ring _ d => !s.early (s.recRing d) d
  | _ => true

/-- Carry out an admin operation: a queue pair's command starts first, when it may. -/
def State.admin (s : State) (via : AdminVia) (op : Opcode) (f : State → State) : State :=
  match via with
  | .qp n => s.running n (fun c => decide (c.op = op) && s.netUp) fun s _ => f s
  | _ => if s.netUp && s.adminTurn via then f s else s

/-- The descriptor of an admin operation that came by a queue pair: its fields stand for the operands (R168). -/
def State.adminDesc (s : State) (via : AdminVia) : Option Desc :=
  match via with
  | .qp n => (s.cmd? n).map (·.desc)
  | _ => none

/-- The length of the buffer of an admin operation (R168). -/
def State.adminLength (s : State) (via : AdminVia) (length : Nat) : Nat := ((s.adminDesc via).map (·.length)).getD length

/-- Bytes that an admin operation brings: the LENGTH bytes of its buffer (R168). -/
def State.adminBytes (s : State) (via : AdminVia) (b : Bytes) : Bytes :=
  ((s.adminDesc via).map fun d => padTo d.length b).getD b

/-- The nonce of an ATTEST: OPC_PARAM0 and OPC_PARAM1 (R168, R566). -/
def State.adminNonce (s : State) (via : AdminVia) (nonce : Bytes) : Bytes :=
  ((s.adminDesc via).map fun d => leBytes 8 d.param0 ++ leBytes 8 d.param1).getD nonce

/-! ## What SEC shows (R562, R574, R579) -/

/-- The image set running. -/
def Sec.running (x : Sec) : ImageSet := (x.bank x.runningBank).getD ImageSet.shipped

/-- Bits 31 to 24 of SEC_STATUS. -/
def State.secFlags (s : State) : Nat :=
  (if s.ldg.kept.ownerKey.isSome then 128 else 0) + (if s.sec.ownerLock then 64 else 0)
    + (if s.sec.testAllowed then 32 else 0) + (if s.sec.tree1Started then 16 else 0)
    + (if s.sec.exhausted then 8 else 0) + (if s.session.st = .trial then 4 else 0)

/-- The identity block (R562): 3,072 bytes. -/
def State.identityBlock (s : State) : Bytes :=
  let made := padTo 3012 Config.identityBlock
  driveUid ++ padTo 16 (ascii "VXK-640") ++ slice made 32 156 ++ zeros 4 ++ made.drop 192
    ++ leBytes 4 (s.sec.setIdOf s.sec.runningBank) ++ leBytes 4 (s.sec.setIdOf s.sec.goodBank)
    ++ leBytes 4 s.sec.nextLeaf ++ leBytes 4 s.secFlags ++ zeros 44

/-- IDENTIFY (R562). -/
def execIdentify (via : AdminVia) (length : Nat) (s : State) : Host.Outcome State Fault Refusal :=
  .next (s.admin via .identify fun s => s.answer via (.ok 0 (s.identityBlock.take (s.adminLength via length))))

/-! ## Attestation (R563 to R568) -/

/-- INTERVAL_S: values above 3,600 act as 3,600. -/
def State.attestInterval (s : State) : Nat := min 3600 (s.fld Reg.SEC_ATTEST_CFG_INTERVAL_S)

/-- BUDGET_DEPTH: 0 acts as 64. -/
def State.budgetDepth (s : State) : Nat :=
  let d := s.fld Reg.SEC_ATTEST_CFG_BUDGET_DEPTH
  if d = 0 then 64 else d

/-- Whole seconds, rounded up, until a requester's interval has passed (R567, R169). -/
def State.intervalWait (s : State) (requester : Nat) : Nat :=
  match tget s.sec.lastAttest requester with
  | none => 0
  | some t => (t + s.attestInterval * 1000000000 - s.flt.time + 999999999) / 1000000000

/-- QFLAGS (R566). -/
def State.quoteFlags (s : State) : Nat :=
  (if s.fld Reg.SYS_LOCK_ALL_ALL = 1 then 1 else 0) + (if s.sec.ownerLock then 2 else 0)
    + (if s.sec.running.testBuild then 4 else 0) + (if s.ldg.kept.bindOff then 8 else 0)
    + (if s.session.st = .trial then 16 else 0) + (if s.sec.running.deferLock then 32 else 0)
    + (if s.ldg.kept.ownerKey.isSome then 64 else 0)

/-- SHAKE256 of an image of the running set. -/
def Sec.imageDigest (x : Sec) (i : Nat) : Bytes := padTo 32 (shake256 (x.running.images.getD i []))

/-- Bytes 0 to 255 of the quote (R566). -/
def State.quoteBody (s : State) (requester leaf : Nat) (nonce : Bytes) : Bytes :=
  leBytes 2 0x5156 ++ leBytes 1 1 ++ leBytes 1 requester ++ leBytes 4 leaf ++ driveUid ++ padTo 16 nonce
    ++ leBytes 8 s.flt.time ++ leBytes 8 s.recorder.rowNext ++ leBytes 4 (s.sec.setIdOf s.sec.runningBank)
    ++ leBytes 2 s.quoteFlags ++ zeros 2
    ++ s.sec.imageDigest 0 ++ s.sec.imageDigest 1 ++ s.sec.imageDigest 2 ++ s.sec.imageDigest 3
    ++ padTo 32 (shake256 s.sec.running.manifest) ++ zeros 32

/-- Leaves of both trees (R563). -/
def leafEnd : Nat := 2097152

/-- Spend the next leaf (R564, R565, R568): NEXT_LEAF and the budget after the draw go to the leaf record first. -/
def State.spendLeaf (s : State) (requester : Nat) : State :=
  let next := s.sec.nextLeaf + 1
  let s := s.onSec fun x => { x with
    nextLeaf := next, budget := x.budget - 1, lastAttest := tset x.lastAttest requester s.flt.time
    tree1Started := x.tree1Started || decide (2 ^ 20 < next), exhausted := x.exhausted || decide (leafEnd ≤ next) }
  let s := (s.onKept fun k => { k with leaf := some (next, s.sec.budget) }).keepSecure 8 0
  let s := s.raise 1088 (item1 requester ++ item4 (next - 1))
  if leafEnd ≤ next then s.raise 1090 [] else s

/-- The quote (R566), signed with a leaf. -/
def State.quote (s : State) (requester leaf : Nat) (nonce : Bytes) : Bytes :=
  let body := s.quoteBody requester leaf nonce
  body ++ padTo 2820 (Config.xmssSign leaf body)
    ++ slice (padTo 3012 Config.identityBlock) (48 + 68 * (leaf / 2 ^ 20)) 68

/-- Whole seconds, rounded up, until the budget gains its next token, 86.4 s after the last (R567). -/
def State.tokenWait (s : State) : Nat := max 1 ((s.sec.tokenAt + 86400000000 - s.flt.time + 999999999) / 1000000000)

/-- An ATTEST of a requester (R565 to R568): refused for good when no leaf remains; nothing for a short buffer; SHED
with the longer of the two waits; else a quote. -/
def State.attestFor (s : State) (via : AdminVia) (nonce : Bytes) (length : Nat) : State :=
  let r := s.adminSource via
  if s.sec.exhausted then s.answer via (.plain .shed 0xFFFFFFFF)
  else if length < 3144 then s.answer via (.plain .ok 0)
  else
    let wait := s.intervalWait r
    if wait = 0 ∧ 0 < s.sec.budget then
      let q := s.quote r s.sec.nextLeaf nonce
      (s.spendLeaf r).answer via (.ok 0 q)
    else s.answer via (.plain .shed (if 0 < s.sec.budget then wait else max wait s.tokenWait))

/-- ATTEST (R565 to R568). -/
def execAttest (via : AdminVia) (nonce : Bytes) (length : Nat) (s : State) : Host.Outcome State Fault Refusal :=
  .next (s.admin via .attest fun s => if s.ldg.ready then s.attestFor via (s.adminNonce via nonce) (s.adminLength via length) else s)

/-- ATTEST_TOKEN_REFILL (R567, R568): one token, up to BUDGET_DEPTH; the next is due 86.4 s later. -/
def execAttestTokenRefill (s : State) : Host.Outcome State Fault Refusal :=
  .next (s.onSec fun x => { x with
    budget := max x.budget (min (x.budget + 1) s.budgetDepth), tokenAt := s.flt.time })

/-! ## Reading the recorder (R550 to R553) -/

/-- Rows whose lines a swatch has spoiled beyond correction: a read finds them uncorrectable (R349, R540). -/
def State.spoiledRows (s : State) : List Nat :=
  (s.flt.swatched.filter fun e => decide (e.1 = 2) && decide (2 < e.2.2) && decide (0x3C00000 ≤ e.2.1)
    && decide (e.2.1 < 0x3D00000)).filterMap fun e => (tget s.recorder.lines (e.2.1 - 0x3C00000)).map (·.row)

/-- Rows among those that a read returns, whose lines it finds with two bits wrong: they are corrected, and each line is
retired (R329, R340). -/
def State.retireSpoiled (s : State) (first count : Nat) : State :=
  (s.recorder.lines.filter fun e => decide (first ≤ e.2.row) && decide (e.2.row < first + count)).foldl (fun s e =>
    if s.copyMark (0x3C00000 + e.1) false < 3 then s.copyRead (0x3C00000 + e.1) false else s) s

/-- The rows that a read would return and whose lines it finds uncorrectable are lost first. -/
def State.loseSpoiled (s : State) (first count : Nat) : State :=
  (s.spoiledRows.filter fun r => decide (first ≤ r) && decide (r < first + count)).foldl (fun s r =>
    ((s.onFlt fun f => { f with swatched := f.swatched.filter fun e =>
        !(decide (e.1 = 2) && decide (e.2.1 = recLine r)) }).raise 514 (item4 (recLine r) ++ item1 3)).recLineLost r) s

/-- REC_READ (R550 to R553). -/
def execRecRead (via : AdminVia) (first length : Nat) (s : State) : Host.Outcome State Fault Refusal :=
  .next (s.admin via .recRead fun s =>
    let first := ((s.adminDesc via).map (·.param0)).getD first
    let length := s.adminLength via length
    let from_ := if first = 0 ∨ first < s.oldestRow then s.oldestRow else first
    let n := min ((length - 32) / 64) 65536
    let s := (s.retireSpoiled from_ n).loseSpoiled from_ n
    let (b, n) := s.readResult first length
    s.answer via (.ok n b))

/-! ## Authorisation references (R570) -/

/-- Validity of challenges and references: 60 s. -/
def authLife : Nat := 60000000000

/-- Whether a reference of a purpose is current. -/
def State.refValid (s : State) (ref purpose : Nat) : Bool :=
  match tget s.sec.refs ref with
  | some (p, t) => decide (p = purpose) && decide (s.flt.time ≤ t + authLife)
  | none => false

/-- A directive uses a reference: consumed when it is valid for the purpose; else OWNER_AUTH_FAILED. -/
def State.useRef (s : State) (requester purpose ref : Nat) : Bool × State :=
  if s.refValid ref purpose then (true, s.onSec fun x => { x with refs := tdel x.refs ref })
  else (false, s.raise 1099 (item1 requester ++ item1 purpose))

/-- The clear marker (R558): a record of source 548 with RKIND 2. -/
def State.clearMarker (s : State) (old next requester : Nat) : State :=
  let (seq, s) := s.takeSeq 548
  s.enqueue
    { row := 0, time := s.flt.time, src := 548, rkind := 2, cls := 0, coincident := false, fallback := false,
      level := 0, k := 0, seq := seq, payload := leBytes 8 old ++ leBytes 8 (next - 1) ++ leBytes 1 requester ++ zeros 7 }

/-- REC_CLEAR (R457, R550, R558): the floor rises to C, and the marker takes the next row. -/
def execRecClear (d : Dir) (clearTo requester ref : Nat) (s : State) : Host.Outcome State Fault Refusal :=
  .next (guardStep (!s.early 8 d) s fun s =>
    let (ok, s) := s.useRef requester 1 ref
    let floor := s.ldg.kept.clearFloor
    if ok && decide (floor ≤ clearTo) && decide (clearTo ≤ s.recorder.rowNext) then
      let s := (s.onKept fun k => { k with clearFloor := clearTo }).keepMeta 10 0 1
      (s.clearMarker floor clearTo requester).finish 8 d esDone []
    else (s.raise 549 (item1 2 ++ item1 requester)).finish 8 d esRefused [])

end Sys2Proof.Machine
end

