-- ==== Sys2Proof/Machine/CipDir.lean ====
section
/-! DEFINITION. The directives of the cipher ring and the events of key slots and of the alarm (chapter 9). -/

namespace Sys2Proof.Machine

/-- A directive of the cipher ring that names a slot other than a tenant slot is refused (R317); else it acts. -/
def State.tenantDirective (s : State) (d : Dir) (code n : Nat) (wrapped : Bytes) : State :=
  if isTenantSlot n then s.keyDirective 3 d code n wrapped
  else (s.cipRefused code n).finish 3 d esRefused []

/-- KEY_GENERATE (R316, R317, R319): a new ROOT from the DRBG. -/
def execKeyGenerate (d : Dir) (slot : Nat) (s : State) : Host.Outcome State Fault Refusal :=
  .next (s.setUp 3 d fun s => s.tenantDirective d 1 slot [])

/-- KEY_IMPORT (R316, R317, R319): ROOT unwrapped under IMPORT_KEY. -/
def execKeyImport (d : Dir) (slot : Nat) (wrapped : Bytes) (s : State) : Host.Outcome State Fault Refusal :=
  .next (s.setUp 3 d fun s => s.tenantDirective d 2 slot wrapped)

/-- KEY_ROLL (R316, R317, R319): the next epoch of the same ROOT. -/
def execKeyRoll (d : Dir) (slot : Nat) (s : State) : Host.Outcome State Fault Refusal :=
  .next (s.setUp 3 d fun s => s.tenantDirective d 3 slot [])

/-- KEY_ERASE (R320): ERASING at once and the current generation retired; EMPTY when no generation is held. On a
slot that is already ERASING it completes at the same end. -/
def State.eraseSlot (s : State) (d : Dir) (n : Nat) : State :=
  let k := s.slot n
  match k.st with
  | .erasing => s.onSlot n fun k => { k with eraseDirs := k.eraseDirs ++ [d] }
  | _ =>
    let s := (s.dropOldKeys n).onSlot n fun k => { k.retire with
      st := .erasing, gen := (k.gen + 1) % 65536, root := zeros 32, eraseDirs := [d] }
    if (s.slot n).retired = [] then s.finishErase n else s

/-- KEY_ERASE (R316, R317, R320). -/
def execKeyErase (d : Dir) (slot : Nat) (s : State) : Host.Outcome State Fault Refusal :=
  .next (s.setUp 3 d fun s => if isTenantSlot slot && !s.cip.alarm then s.eraseSlot d slot
    else (s.cipRefused 4 slot).finish 3 d esRefused [])

/-- The code of a slot state (CIP_SLOT_INFO.STATE). -/
def SlotState.code : SlotState → Nat
  | .empty => 0 | .loaded => 1 | .erasing => 2

/-- The RESULT of KEY_QUERY (R609). -/
def KeySlot.query (k : KeySlot) : Bytes :=
  leBytes 1 k.st.code ++ zeros 1 ++ leBytes 2 k.gen ++ leBytes 2 k.serial ++ zeros 2 ++ leBytes 4 k.epoch
    ++ leBytes 8 k.counter

/-- KEY_QUERY (R316): any slot of R298; a number above them is refused (R317: no such slot; DESIGN CHOICE,
log 12). -/
def execKeyQuery (d : Dir) (slot : Nat) (s : State) : Host.Outcome State Fault Refusal :=
  .next (s.setUp 3 d fun s => if slot ≤ 0x43F then
      let s := s.readSlot slot
      s.finish 3 d esDone (s.slot slot).query
    else (s.cipRefused 5 slot).finish 3 d esRefused [])

/-- Whether a lane may take a buffer job now: the lane granted to ENG, or a free one. -/
def State.bufReady (s : State) : Bool := s.cip.bufLane.isSome || !s.freeLanes.isEmpty

/-- The lanes on which a buffer job ran before its two cores agreed: each disagreement spends a seal's counter value, and
the job runs again on another lane that is free (R296). -/
def State.bufferMisses (s : State) (kind : Nat) (slot : Option Nat) : Option Nat → List Nat → State
  | _, [] => s
  | last, l :: rest =>
    if s.freeLanes.contains l && decide (last ≠ some l) then
      let s := s.laneMismatch l kind
      let s : State := match slot with
        | some n => ((s.drawCounter n (s.slot n).gen).map fun x => x.2).getD s
        | none => s
      s.bufferMisses kind slot (some l) rest
    else s.bufferMisses kind slot last rest

/-- A buffer job runs, requester 3 of the lanes, and its lane is free again (R296, R297). -/
def State.bufferRuns (s : State) (kind : Nat) (slot : Option Nat) (lanes : List Nat) : State :=
  let s := s.onCip fun c => { c with bufLane := none }
  (s.grantCip false 3).bufferMisses kind slot none lanes

/-- BUF_SEAL (R296, R303, R306, R308, R316, R317): seals the buffer in place; RESULT holds the seal word and the tag. It waits
for RESTORE_DONE and for a lane. A slot without a key, or one whose counter is
exhausted, refuses (DEDUCED, log 145). -/
def execBufSeal (d : Dir) (slot : Nat) (aad : Bytes) (addr len : Nat) (job : BufferJob) (s : State) :
    Host.Outcome State Fault Refusal :=
  .next (s.setUp 3 d fun s =>
    let s := s.readSlot slot
    if !isTenantSlot slot || s.cip.alarm then (s.cipRefused 6 slot).finish 3 d esRefused []
    else if !s.cip.restoreDone || !s.bufReady then s
    else if dramBytes < addr + len then s.finish 3 d esOperandFault []
    else if 65536 < len ∨ 256 < aad.length then s.finish 3 d esLengthLimit []
    else if (s.slot slot).st ≠ .loaded then (s.cipRefused 6 slot).finish 3 d esRefused []
    else
      let s := s.bufferRuns 0 (some slot) job.bad
      match s.sealBytes slot (s.slot slot).gen aad (padTo len job.data) with
      | none => (s.nonceExhausted slot (s.slot slot).epoch).finish 3 d esRefused []
      | some ((w, c, tag), s) =>
        ((s.dramPut addr c).finishExt 3 d (w.bytes ++ tag) []).fillLanes 16)

/-- BUF_OPEN (R296, R306, R308, R316, R317): opens the buffer in place, or clears it and fails with AUTH_FAILED; it waits for
RESTORE_DONE and for a lane. A seal word whose slot holds no such key fails the same way (DEDUCED, log 145). -/
def execBufOpen (d : Dir) (sealWord aad tag : Bytes) (addr len : Nat) (job : BufferJob) (s : State) :
    Host.Outcome State Fault Refusal :=
  let w := parseSealWord (padTo 16 sealWord)
  .next (s.setUp 3 d fun s =>
    let s := s.readSlot w.slot
    if !isTenantSlot w.slot || s.cip.alarm then (s.cipRefused 7 w.slot).finish 3 d esRefused []
    else if !s.cip.restoreDone || !s.bufReady then s
    else if dramBytes < addr + len then s.finish 3 d esOperandFault []
    else if 65536 < len ∨ 256 < aad.length then s.finish 3 d esLengthLimit []
    else
      let s := s.bufferRuns 1 none job.bad
      match s.openBytes (s.slot w.slot).gen w aad (padTo len job.data) (padTo 16 tag) with
      | (.plain p, s) => ((s.dramPut addr p).finish 3 d esDone []).fillLanes 16
      | (_, s) => ((s.dramPut addr (zeros len)).finish 3 d esAuthFailed []).fillLanes 16)

/-- RETIRED_GEN_RELEASE (R319): a retired generation without references clears. -/
def execRetiredGenRelease (slot gen : Nat) (s : State) : Host.Outcome State Fault Refusal :=
  .next (guardStep ((s.slot slot).retired.any fun r => r.gen = gen && r.refs = 0) s
    fun s => s.clearRetired slot gen)

/-- Cipher jobs that hold a retired generation of a slot: those of the commands that refer to one (R318, R320). -/
def State.heldJobs (s : State) (slot : Nat) : Nat :=
  (s.sch.cmds.map fun (e : Nat × Cmd) => match e.2.slotRef with
    | some (n, gen) => if n = slot ∧ ((s.slot slot).retired.any fun r => r.gen = gen) = true then (e.2.jobs e.1).length else 0
    | none => 0).foldl (· + ·) 0

/-- ERASE_WAIT_EXPIRY (R320): every retired generation is zeroized, the record overwritten, the slot EMPTY;
the jobs that held one fail, and KEY_ERASE_FORCED carries their count. -/
def execEraseWaitExpiry (slot : Nat) (s : State) : Host.Outcome State Fault Refusal :=
  .next (guardStep (decide ((s.slot slot).st = .erasing)) s fun s =>
    let held := s.heldJobs slot
    let s := (s.slot slot).retired.foldl (fun (s : State) (r : RetiredGen) => s.dropKeys slot r.serial r.epoch) s
    let s := if held = 0 then s else s.raise 423 (item2 slot ++ item4 held)
    let s := s.finishErase slot
    s.runKeyWaits slot (s.slot slot).waiting.length)

/-- SLOT_ECC_ERROR (R323): corrected; the slot restored from its record; or a retired generation cleared, whose
holders then fail. -/
def execSlotEccError (slot : Nat) (hit : EccHit) (s : State) : Host.Outcome State Fault Refusal :=
  .next (guardStep (decide (slot ≤ 0x43F)) s fun s =>
    match hit with
    | .corrected => s.raise 420 (item2 slot)
    | .uncorrectable => s.recoverSlot slot
    | .retired gen => s.clearRetired slot gen)

/-- A write of CIP_CTR_TEST: ARM and STEPS_LEFT are set, and APPLY presets the selected tenant slot's counter. -/
def State.ctrTestWrite (s : State) (value : W32) : State :=
  let s := s.setFld Reg.CIP_CTR_TEST_STEPS_LEFT (Reg.CIP_CTR_TEST_STEPS_LEFT.of value)
  let s := if s.locked 0xF0000 then s else s.setFld Reg.CIP_CTR_TEST_ARM (Reg.CIP_CTR_TEST_ARM.of value)
  let n := min (s.fld Reg.CIP_SLOT_SEL_SLOT) 0x43F
  if s.fld Reg.CIP_CTR_TEST_ARM = 1 ∧ Reg.CIP_CTR_TEST_APPLY.of value = 1 ∧ isTenantSlot n
      ∧ (s.slot n).st = .loaded then
    let s := s.onSlot n fun k => { k with counter := counterEnd - s.fld Reg.CIP_CTR_TEST_STEPS_LEFT }
    let s := s.swatchWrite 4 n
    s.writeSlotRec n { s.slotRec n with ceiling := counterEnd }
  else s

/-- CIP_CTR_PRESET (CIP_CTR_TEST): a write with APPLY while ARM = 1 presets the selected tenant slot's COUNTER
and its ceiling; ARM and STEPS_LEFT take the written values, ARM only while CIP is unlocked. -/
def execCipCtrPreset (value : W32) (s : State) : Host.Outcome State Fault Refusal := .next (s.ctrTestWrite value)

/-- CIP_ALARM_SW_WRITE (R324): 0x5A5A raises source 4. -/
def execCipAlarmSwWrite (code : Nat) (s : State) : Host.Outcome State Fault Refusal :=
  .next (guardStep (decide (code = 0x5A5A)) s fun s => s.cipAlarm 16)

/-- TAMPER_DETECTED (R324): SEC reports the detector, whose event is fatal, and source 0 raises the alarm. -/
def execTamperDetected (detector : Nat) (s : State) : Host.Outcome State Fault Refusal :=
  .next ((s.raise 1098 (item1 detector)).cipAlarm 1)

/-- GLITCH_DETECTED (R324): source 1. -/
def execGlitchDetected (s : State) : Host.Outcome State Fault Refusal := .next (s.cipAlarm 2)

end Sys2Proof.Machine
end

