-- ==== Sys2Proof/Machine/Faults.lean ====
section
/-! DEFINITION. The fault collector (chapter 17): dual-rail pairs and collectors, acceptance and ordering of events,
escalation, reactions, acknowledgement, and swatches. -/

namespace Sys2Proof.Machine

/-! ## Pairs and collectors (R520 to R523) -/

/-- The bit of a source. -/
def srcBit (n : Nat) : BitVec 1152 := (1 : BitVec 1152) <<< n

/-- The power domain, and so the collector, of a source (R16, R515, R520; DEDUCED, log 23). -/
def collectorOf (src : Nat) : Nat :=
  if src = 2 ∨ src = 4 ∨ src = 5 then 1
  else if src = 7 then 2
  else if src = 8 ∨ src = 10 then 26
  else if src = 9 ∨ src = 11 then 27
  else if src < 16 then 0
  else if src < 32 then 6
  else if src < 128 then 0
  else if src = 128 then 7
  else if src = 129 then 8
  else if src < 144 then 9
  else if src < 288 then 6
  else if src < 320 then 10
  else if src < 328 then 6
  else if src < 344 then 11 + (src - 328) / 4
  else if src < 384 then 6
  else if src < 416 then 15
  else if src < 448 then 16
  else if src < 544 then 17
  else if src < 640 then 29
  else if src < 1024 then 18 + (src - 640) / 48
  else if src < 1088 then 28
  else if src < 1120 then 1
  else 0

/-- A pair is broken: its source is ignored until the next chip reset, and counted (R520). -/
def State.ignoreSource (s : State) (src : Nat) : State :=
  s.onFlt fun f => { f with broken := f.broken ||| srcBit src, lastBroken := src }

/-- Whether a source is defined and its pair is not broken. -/
def State.watched (s : State) (src : Nat) : Bool := sourceDefined src && !s.flt.broken.getLsbD src

/-- RAIL_BROKEN with the source (R520). -/
def State.breakPair (s : State) (src : Nat) : State :=
  if s.watched src then (s.ignoreSource src).raise 0 (item2 src) else s

/-- RAIL_PAIR_FAULT (R520): 0, 0 or 1, 1 for 2 samples. -/
def execRailPairFault (src : Nat) (s : State) : Host.Outcome State Fault Refusal := .next (s.breakPair src)

/-- RAIL_TEST (R521, R540): every source answers a test; the failing pairs are broken, and so is the pair whose test
the armed swatch spoils. -/
def execRailTest (failing : List Nat) (s : State) : Host.Outcome State Fault Refusal :=
  let a := s.swatchAddr % 2048
  let (hit, s) := if s.watched a then s.swatch 6 a else (none, s)
  .next ((failing ++ (if hit.isSome then [a] else [])).foldl State.breakPair s)

/-- COLLECTOR_MESSAGE (R522): a good message hands its events to the core; a bad one is sent again; after 3 failures
in a row the collector's link is broken, with all its sources. RAIL_BROKEN's item for a link is a free value. -/
def execCollectorMessage (collector : Nat) (crcOk : Bool) (evs : List Ev) (s : State) :
    Host.Outcome State Fault Refusal :=
  .next (
    if crcOk then
      let s := s.onFlt fun f => { f with crcFails := tdel f.crcFails collector }
      evs.foldl (fun s e => if s.flt.raised.contains e then s else s.raise e.src e.payload) s
    else
      let n := (tget s.flt.crcFails collector).getD 0 + 1
      if n < 3 then s.onFlt fun f => { f with crcFails := tset f.crcFails collector n }
      else
        let (id, s) := s.drawNat
        let s := (s.onFlt fun f => { f with crcFails := tdel f.crcFails collector }).raise 0 (item2 (id % 1152))
        ((List.range 1152).filter fun n => decide (collectorOf n = collector) && s.watched n).foldl
          State.ignoreSource s)

/-! ## Escalation (R534) -/

/-- ESC_GROUP of a source. -/
def State.groupOf (s : State) (src : Nat) : Nat := s.fld (Reg.FLT_SRC_REACT_ESC_GROUP src)

/-- The escalation count that a source's next event uses. -/
def State.escCount (s : State) (src : Nat) : Nat :=
  let g := s.groupOf src
  if g = 0 then (tget s.flt.esc src).getD 0 else (tget s.flt.escGroup g).getD 0

/-- The level at which a source's next event applies. -/
def State.escLevel (s : State) (src : Nat) : Nat :=
  let level := s.fld (Reg.FLT_SRC_REACT_LEVEL src)
  if eventClass src = 0 then level
  else min (level + s.escCount src) (max level (s.fld (Reg.FLT_SRC_REACT_ESC_MAX src)))

/-- Raise a count by one, up to 7. -/
def raiseCount (t : Tbl Nat) (n : Nat) : Tbl Nat := tset t n (min ((tget t n).getD 0 + 1) 7)

/-- The counts after an event of a fault source. -/
def State.escalate (s : State) (src : Nat) : State :=
  if eventClass src = 0 then s
  else
    let g := s.groupOf src
    s.onFlt fun f => { f with
      esc := raiseCount f.esc src, escGroup := if g = 0 then f.escGroup else raiseCount f.escGroup g }

/-- Sources with STICKY = 1. -/
def Flt.stickySources (f : Flt) : List Nat := (List.range 1152).filter fun n => f.sticky.getLsbD n

/-- A group that no sticky source names holds 0 (R534). -/
def State.settleGroups (s : State) : State :=
  let named := s.flt.stickySources.map s.groupOf
  s.onFlt fun f => { f with escGroup := f.escGroup.filter fun e => named.contains e.1 }

/-! ## Acceptance (R524 to R527, R531, R532) -/

/-- Drive ERR_OUT for a source (R532). -/
def State.assertErrOut (s : State) (src : Nat) : State :=
  s.onFlt fun f => { f with errOut := true, errSrc := src }

/-- What the core does with an accepted event besides its record and its level's action: the sticky bit, the counts,
the first-fault latch and ERR_OUT. Answers the level applied and the count used. -/
def State.acceptCore (s : State) (coincident : Bool) (src : Nat) : (Nat × Nat) × State :=
  let level := s.escLevel src
  let k := s.escCount src
  let s := (s.onFlt fun f => { f with sticky := f.sticky ||| srcBit src }).escalate src
  let s := if s.fld (Reg.FLT_SRC_REACT_LEVEL src) < level then s.bump Reg.FLT_ESC_STAT_ESCALATIONS else s
  let s := if eventClass src ≠ 0 ∧ s.flt.first = none then
      s.onFlt fun f => { f with first := some ⟨src, eventClass src, level, coincident⟩ }
    else s
  let s := if s.fld (Reg.FLT_SRC_REACT_PIN src) = 1 ∨ 5 ≤ level then s.assertErrOut src else s
  ((level, k), s)

/-- An event with the level it applies at. -/
structure Applied where
  ev : Ev
  level : Nat
deriving DecidableEq, Repr

/-- Accept events in their order: each is stamped and handed to the recorder (R524, R526). A pair that a swatch spoils
is broken instead (R540). -/
def State.acceptAll (s : State) (coincident : Bool) : List Ev → List Applied × State
  | [] => ([], s)
  | e :: rest =>
    let (hit, s) := s.swatch 6 e.src
    if hit.isSome then (s.breakPair e.src).acceptAll coincident rest
    else
      let ((level, k), s) := s.acceptCore coincident e.src
      let s := s.recIntake
        { row := 0, time := s.flt.time, src := e.src, rkind := 0, cls := eventClass e.src, coincident := coincident,
          fallback := false, level := level, k := k, seq := 0, payload := e.payload }
      let (l, s) := s.acceptAll coincident rest
      (⟨e, level⟩ :: l, s)

/-- Whether an event stands before another: higher class first, then the lower source (R526). -/
def evBefore (a b : Ev) : Bool :=
  decide (eventClass b.src < eventClass a.src) || (decide (eventClass a.src = eventClass b.src) && decide (a.src ≤ b.src))

/-- Put an event at its place among ordered ones. -/
def insertEv (e : Ev) : List Ev → List Ev
  | [] => [e]
  | x :: xs => if evBefore e x then e :: x :: xs else x :: insertEv e xs

/-- The order of events of one cycle. -/
def orderEvents (evs : List Ev) : List Ev := evs.foldr insertEv []

/-! ## Reactions (R528 to R530) -/

/-- Whether an event calls for a chip reset: levels 4 and above, and level 3 of source 130 (R529, R530). -/
def Applied.resetsChip (a : Applied) : Bool := 4 ≤ a.level || (3 ≤ a.level && decide (a.ev.src = 130))

/-- The cause of the chip reset that an event calls for (R529). -/
def chipCause (src : Nat) : Nat :=
  match src with
  | 3 => 3
  | 5 => 4
  | _ => 2

/-- The block that level 3 resets for an event (R530). -/
def blockOfEvent (e : Ev) : Option EngBlock :=
  if e.src = 6 then some (senderOfQueue (fieldAt e.payload 0 1) (fieldAt e.payload 2 1)) else blockOfSource e.src

/-- Whether an FCH channel is offline. -/
def State.chOffline (s : State) (n : Nat) : Bool := decide (s.fld (Reg.FCH_CH_STATUS_OFFLINE n) = 1)

/-- The block reset of level 3: a retraining port for 128 and 129, MCH with the four dies for 323 (R255), nothing more where the source has no block; an
offline channel is not reset again (R519, R530). -/
def State.blockReaction (s : State) (e : Ev) : State :=
  if !(decide (s.rst.run = .running) || decide (s.rst.run = .starting)) then s
  else if e.src = 128 then s.retrainPort .a
  else if e.src = 129 then s.retrainPort .b
  else if e.src = 323 then (matchBlocks.foldl State.resetBlock s).onMch fun m => { m with cascade := true }
  else match blockOfEvent e with
    | some (.fch n) => if s.chOffline n then s else s.resetBlock (.fch n)
    | some b => s.resetBlock b
    | none => s

/-- The actions of levels 1 to 3. -/
def State.react (s : State) (a : Applied) : State :=
  let s := if 1 ≤ a.level then s.bump Reg.FLT_IRQ_CNT_COUNT else s
  let s := if 2 ≤ a.level then s.send (.trap a.ev.src) else s
  if 3 ≤ a.level then s.blockReaction a.ev else s

/-- Carry out the reactions of one cycle: a chip reset supersedes block resets and interrupts (R528); after a fault of the
shared transport, NFE does not work (R191, R197). -/
def State.reactAll (s : State) (l : List Applied) : State :=
  let chip := l.find? Applied.resetsChip
  let live := decide (s.rst.run = .running) || decide (s.rst.run = .starting)
  match chip with
  | some a =>
    let s := s.chipResetWith (chipCause a.ev.src) !(l.any fun x => decide (x.ev.src = 130))
    if live then s else (l.filter fun x => !x.resetsChip).foldl State.react s
  | none => l.foldl State.react s

/-! ## The recorder loses its region (R350, R556) -/

/-- REC enters fallback on its own: the event of source 544 applies without passing the intake, and ERR_OUT is
asserted. -/
def State.enterFallback (s : State) (lostLines cause : Nat) : State :=
  if s.recorder.fallback.isSome then s.recFallback 0 0 false lostLines cause
  else
    let ((level, k), s) := s.acceptCore false 544
    let s := (s.recFallback level k false lostLines cause).assertErrOut 544
    s.reactAll [⟨⟨544, []⟩, level⟩]

/-- FAULT_EVENT (R524, R526 to R532, R534, R542): the events that the core accepts in one HCLK cycle. Reserved and
ignored sources raise none. REC falls back when it hears of a region lost with a group that failed (R350). -/
def execFaultEvent (evs : List Ev) (s : State) : Host.Outcome State Fault Refusal :=
  let s := s.onFlt fun f => { f with raised := evs.foldl List.erase f.raised }
  let live := orderEvents (evs.filter fun e => s.watched e.src)
  let (l, s) := s.acceptAll (decide (1 < live.length)) live
  let s := s.reactAll l
  .next (match s.recorder.regionDue with
    | some n => if evs.any fun e => e.src = 517 then (s.onRec fun q => { q with regionDue := none }).enterFallback n 0 else s
    | none => s)

/-! ## Acknowledgement (R532 to R534) -/

/-- Clear one sticky bit, unless the source is LIVE: its own count returns to 0. -/
def State.clearSticky (s : State) (src : Nat) : State :=
  if s.flt.raised.any fun e => e.src = src then s
  else if s.flt.sticky.getLsbD src then s.onFlt fun f => { f with
    sticky := f.sticky &&& ~~~srcBit src, esc := tdel f.esc src }
  else s

/-- Write 1s to FLT_SRC_STICKY_m (R533, R534). -/
def State.stickyWrite (s : State) (word : Nat) (mask : W32) : State :=
  (((List.range 32).filter fun b => mask.getLsbD b && decide (32 * word + b < 1152)).foldl
    (fun s b => s.clearSticky (32 * word + b)) s).settleGroups

/-- STICKY_CLEAR (R533, R534): the service cores write 1s to FLT_SRC_STICKY_m. -/
def execStickyClear (word : Nat) (mask : W32) (s : State) : Host.Outcome State Fault Refusal := .next (s.stickyWrite word mask)

/-- The first-fault latch is armed again (R527). -/
def State.clearFirst (s : State) : State := s.onFlt fun f => { f with first := none }

/-- FLT_FIRST_CLEAR (R527). -/
def execFltFirstClear (s : State) : Host.Outcome State Fault Refusal := .next s.clearFirst

/-- A write of FLT_ERR_OUT.CODE: 0xE7C1 releases ERR_OUT (R532). -/
def State.errOutWrite (s : State) (code : Nat) : State :=
  if code = 0xE7C1 then s.onFlt fun f => { f with errOut := false } else s

/-- ERR_OUT_RELEASE (R532). -/
def execErrOutRelease (code : Nat) (s : State) : Host.Outcome State Fault Refusal := .next (s.errOutWrite code)

/-! ## Swatches (R293, R540, R541) -/

/-- A write of FLT_SWATCH_CTL (R540, R541): ARM sets only with COUNT above 0, a defined target and an unlocked FLT. -/
def State.swatchCtlWrite (s : State) (value : W32) : State :=
  let count := Reg.FLT_SWATCH_CTL_COUNT.of value
  let target := Reg.FLT_SWATCH_CTL_TARGET.of value
  let arm := Reg.FLT_SWATCH_CTL_ARM.of value
  let was := s.fld Reg.FLT_SWATCH_CTL_ARM
  let s := ((s.setFld Reg.FLT_SWATCH_CTL_TARGET target).setFld Reg.FLT_SWATCH_CTL_BITS
    (Reg.FLT_SWATCH_CTL_BITS.of value)).setFld Reg.FLT_SWATCH_CTL_COUNT count
  let asked := if s.locked 0x150000 then was else arm
  s.setFld Reg.FLT_SWATCH_CTL_ARM (if count = 0 ∨ target = 7 then 0 else asked)

/-- FLT_SWATCH_ARM (R540, R541). -/
def execFltSwatchArm (value : W32) (s : State) : Host.Outcome State Fault Refusal := .next (s.swatchCtlWrite value)

/-- A write of VAL_SWATCH (R293). -/
def State.valSwatchWrite (s : State) (value : W32) : State :=
  let count := Reg.VAL_SWATCH_COUNT.of value
  let was := s.fld Reg.VAL_SWATCH_ARM
  let s := (s.setFld Reg.VAL_SWATCH_TARGET (Reg.VAL_SWATCH_TARGET.of value)).setFld Reg.VAL_SWATCH_COUNT count
  let asked := if s.locked 0xE0000 then was else Reg.VAL_SWATCH_ARM.of value
  s.setFld Reg.VAL_SWATCH_ARM (if count = 0 then 0 else asked)

/-- VAL_SWATCH_ARM (R293). -/
def execValSwatchArm (value : W32) (s : State) : Host.Outcome State Fault Refusal := .next (s.valSwatchWrite value)

end Sys2Proof.Machine
end

