-- ==== Sys2Proof/Machine/Flash.lean ====
section
/-! DEFINITION. Flash at work (chapters 11 and 12): what is live where, copies of skeins and their switch (R369, R371,
R406), programmed rows with their parity (R360, R391, R392), members that are lost (R402, R411), rebuilds (R399 to
R401), and the choice of what to reclaim (R403). -/

namespace Sys2Proof.Machine

/-! ## What is live (R365 to R368, R387) -/

/-- Where the segments and map pages of a variant lie. -/
def Variant.locs (v : Variant) : List Loc := v.segs.map (·.2.loc) ++ v.maps.map (·.2)

/-- Where a segment of a write lies, once it has a place. -/
def SegWork.loc? (w : SegWork) : Option Loc :=
  match w with
  | .writing g | .durable g => some g.loc
  | _ => none

/-- What a write that has not committed has stored. -/
def Cmd.locs (c : Cmd) : List Loc :=
  if c.committed || c.decided then [] else c.work.filterMap (fun e => e.2.loc?) ++ (c.maps.getD []).map (·.2)

/-- Every place that a live object takes: the directory's, those of writes, repairs and revocable versions, and those of
superblock summaries and map checkpoint pieces (R385, R388). -/
def State.liveLocs (s : State) : List Loc :=
  (s.idx.dir.flatMap fun r => r.loc :: r.variants.flatMap fun v => v.2.locs)
    ++ (s.sch.cmds.flatMap fun e => e.2.locs)
    ++ (s.val.repairs.filterMap fun e => e.2.fixed.map (·.loc))
    ++ (s.peer.revoke.flatMap fun h => h.dead.map (·.loc))
    ++ (s.ftl.sbs.flatMap fun e => e.2.sumLocs) ++ (s.ldg.kept.pieces.map fun p => p.2.1)

/-- The parts of a flash location by skein: skein, byte, units. -/
def Loc.parts (l : Loc) : List (Nat × Nat × Nat) :=
  match l with
  | .ledger _ => []
  | .flash skein byte units =>
    let first := unitsInFirst byte units
    (skein, byte, first) :: (if first < units then [(skein + 1, 0, units - first)] else [])

/-- Whether a location begins in a skein, or continues in it. -/
def Loc.inSkein (l : Loc) (skein : Nat) : Bool := l.parts.any fun p => decide (p.1 = skein)

/-- The live objects of a skein: byte and units of each. -/
def State.objectsIn (s : State) (skein : Nat) : List (Nat × Nat) :=
  (s.liveLocs.flatMap Loc.parts).filterMap fun p => if p.1 = skein then some p.2 else none

/-- Live objects with bytes in a stitch: REFS (R366). -/
def stitchRefs (objs : List (Nat × Nat)) (stitch : Nat) : Nat :=
  (objs.filter fun o => (stitchesOf o.1 o.2).contains stitch).length

/-- Live units in a stitch. -/
def stitchUnits (objs : List (Nat × Nat)) (stitch : Nat) : Nat :=
  (objs.map fun o => (min (o.1 + 64 * o.2) (4096 * (stitch + 1)) - max o.1 (4096 * stitch)) / 64).foldl (· + ·) 0

/-- The stitches of a skein that hold live objects. -/
def State.liveStitches (s : State) (skein : Nat) : List Nat :=
  let objs := s.objectsIn skein
  (List.range 256).filter fun st => decide (0 < stitchRefs objs st)

/-- LIVE of a superblock: live units, stitches included (R387). -/
def State.sbLive (s : State) (id : Nat) : Nat :=
  (s.ftl.skeins.map fun e =>
    if e.2.fine then
      let objs := s.objectsIn e.1
      (e.2.stitches.map fun t => if t.2.2.1 = id then stitchUnits objs t.1 else 0).foldl (· + ·) 0
    else if e.2.sb = id then e.2.liveUnits else 0).foldl (· + ·) 0

/-! ## Streams: pads and room (R360, R364, R381) -/

/-- A stream that has no skein of its own open: the next write begins a run. The number is none of R362. -/
def noSkein : Nat := 2 ^ 30 - 1

/-- Pad a stream up to a codeword of a superblock: pads keep their place in the skein's addresses and are dead
(R360, R364, R381). -/
def State.padStream (s : State) (stream id q : Nat) : Nat → State
  | 0 => s
  | fuel + 1 =>
    match tget s.ftl.streams stream with
    | none => s
    | some st =>
      match tget s.ftl.skeins st.skein with
      | none => s
      | some k =>
        let n := if k.classP || !slcPointer stream then stream else stream + 64
        if k.sb ≠ id ∨ q ≤ 256 * k.slot + (st.byte + 4095) / 4096 then s
        else if q < 256 * (k.slot + 1) then s.setStream stream { st with byte := (q - 256 * k.slot) * 4096 }
        else
          match (if (st.skein + 1) % 64 = 0 then s.newRun n else s.mapSkein n (st.skein + 1)) with
          | some s => s.padStream stream id q fuel
          | none => s

/-- The open superblock of a copy stream with room for some codewords, and the first of them; a whole skein takes a
slot. A superblock is opened from the FREE ones when there is no room (R364, R378, R410); none when that is impossible
or R395 forbids it. -/
def State.copyRoom (s : State) (stream words : Nat) : Option (Nat × Nat × State) :=
  let unit := if words = 256 then 256 else 1
  let start (s : State) (id : Nat) := ((s.sb id).nextQ + unit - 1) / unit * unit
  let take (s : State) (id : Nat) : Nat × Nat × State :=
    (id, start s id, s.onSbQuiet id fun b => { b with nextQ := start s id + words })
  let cur := (tget s.ftl.streams stream).bind (·.sb)
  let fits : Bool := match cur with
    | some id => decide ((s.sb id).st = SbState.opened) && decide (start s id + words ≤ 256 * (s.sb id).slots)
    | none => false
  if fits then cur.map (take s)
  else (s.openNew stream cur State.pickFree s.openFuel).map fun (id, s) =>
    take (s.setStream stream ⟨noSkein, 1048576, some id⟩) id

/-! ## Copies (R369, R406) -/

/-- The stream that takes a copy: the QLC stream of the class in a fold, else the reclaim stream of the class (R378, R380,
R406). -/
def copyStream (src : Sb) (classP : Bool) : Nat :=
  if src.folding then (if classP then 1 else 2) else (if classP then 4 else 5)

/-- Fine-mapped skeins: FINE_SKEINS. -/
def State.fineSkeins (s : State) : Nat := (s.ftl.skeins.filter fun e => e.2.fine).length

/-- Fine-mapped skeins at most (R369). -/
def maxFine : Nat := 7629394

/-- Promotions that have begun and not yet been switched to. -/
def State.promoting (s : State) : Nat :=
  (s.ftl.copies.filter fun c => c.whole.isNone && ((tget s.ftl.skeins c.skein).map fun k => !k.fine).getD false).length

/-- Whether a move promotes a coarse skein to stitches (R369). -/
def State.promotes (s : State) (k : Skein) : Bool :=
  decide (100 * k.liveUnits < min (s.fld Reg.FTL_MAP_CFG_PROMOTE_PCT) 100 * 16384)
    && decide (s.fineSkeins + s.promoting < maxFine)

/-- Whether a rebuild of a codeword on a vacant member fails for a second loss in its stripe (R400). -/
def State.rebuildFails (s : State) (id q : Nat) : Bool :=
  s.wordVacant id q && s.hasParity id q && s.stripeBroken id q && !(s.sb id).lost.contains q

/-- Whether a codeword can be had neither from the staging buffers, nor from its page, nor from parity (R393, R399, R400). -/
def State.wordGone (s : State) (id q : Nat) : Bool :=
  !s.wordHeld id q && !s.ftl.rebuilds.contains (id, q) && ((s.sb id).lost.contains q
    || (s.wordVacant id q && (!s.hasParity id q || s.stripeBroken id q)))

/-- Whether a location has a codeword that cannot be had. -/
def State.locGone (s : State) (loc : Loc) : Bool :=
  (s.locWords loc).any fun w => match w with
    | some (id, q) => s.wordGone id q
    | none => false

/-- The live segments of a skein that lie in a superblock, with where the directory names them. -/
def State.segsIn (s : State) (src skein : Nat) : List (DirRec × Nat × Variant × Nat × Seg) :=
  s.idx.dir.flatMap fun r => r.variants.flatMap fun v =>
    (v.2.segs.filter fun g => g.2.loc.inSkein skein && (s.sbsOf g.2.loc).contains src).map fun g => (r, v.1, v.2, g.1, g.2)

/-- The Class R segments in a codeword that the drive cannot recover are fetched from successor peers (R83, R399, R400). -/
def State.fetchObjects (s : State) (id q : Nat) : State :=
  (s.idx.dir.flatMap fun r => r.variants.flatMap fun v => (v.2.segs.filter fun g => !g.2.parityP && !g.2.lost
      && (s.locWords g.2.loc).contains (some (id, q))).map fun g => (r, v.1, v.2, g)).foldl
    (fun s x => s.upkeepRepair x.1 x.2.1 x.2.2.1 x.2.2.2.1 x.2.2.2.2 3) s

/-- A rebuild has failed: REBUILD_FAILED, the codeword is lost, and its objects are fetched from peers (R400). -/
def State.rebuildLost (s : State) (id q : Nat) : State :=
  ((s.raise 377 (item4 id ++ item4 q)).onSbQuiet id fun b => { b with
    lost := if b.lost.contains q then b.lost else b.lost ++ [q] }).fetchObjects id q

/-- The rebuilds of a location's codewords on vacant members fail where their stripes are broken (R400, R402). -/
def State.failRebuilds (s : State) (loc : Loc) : State :=
  (s.locWords loc).foldl (fun s w => match w with
    | some (id, q) => if s.rebuildFails id q then s.rebuildLost id q else s
    | none => s) s

/-- A reclaim or refresh read of one segment (R285, R291, R313, R402): whether the copy may go on. A check that fails begins
a repair; the tag is checked by a verify-only job; a segment that nothing repairs holds nothing up, and is not copied. It takes its turn at the dies (R382). -/
def State.readOut1 (s : State) (x : DirRec × Nat × Variant × Nat × Seg) : Bool × State :=
  let (r, num, v, i, g) := x
  if !s.mayRead 2 false g.loc then (false, s)
  else
  let s := ((s.failRebuilds g.loc).grantVal .normal 3).grantFch g.loc false 2
  let (lines, s) := s.readLines (ledgerLines g.loc (segUnits g.payload.length))
  if g.lost then (true, s)
  else if s.val.repairs.any fun e => decide (e.2.old.loc = g.loc) then (false, s)
  else if s.locGone g.loc || !lines then (false, s.upkeepRepair r num v i g 3)
  else if !(g.hdrHolds && g.crcHolds (locator r.kh num i)) then (false, s.upkeepRepair r num v i g 0)
  else if g.sealWord.isSome then
    match s.cip.checks.find? fun k => decide (k.old.loc = g.loc) with
    | some k => (k.ok, s)
    | none => (false, (s.onCip fun c => { c with checks := c.checks ++ [⟨r.kh, r.key, num, i, g, false⟩] }).fillLanes 16)
  else if (g.decode g.payload).isSome then (true, s)
  else (false, s.upkeepRepair r num v i g 1)

/-- The verify-only job of a segment that has moved is done with. -/
def State.dropCheck (s : State) (loc : Loc) : State :=
  s.onCip fun c => { c with checks := c.checks.filter fun k => decide (k.old.loc ≠ loc) }

/-- Read a skein's live segments out of a superblock: whether all of them may be copied. -/
def State.readOut (s : State) (src skein : Nat) : Bool × State :=
  (s.segsIn src skein).foldl (fun x e =>
    let (ok, s) := x.2.readOut1 e
    (x.1 && ok, s)) (true, s)

/-- The staging buffers take one codeword for its copy; a pad stays a pad, and a codeword that cannot be had is lost at its
copy too (R389, R400, R406). -/
def State.copyWord (s : State) (id q tgt q' : Nat) : State :=
  let s := if s.rebuildFails id q then s.rebuildLost id q else s
  if s.wordGone id q then s.onSbQuiet tgt fun b => { b with lost := b.lost ++ [q'] }
  else if (s.sb id).holds q then
    let d := s.wordData id q
    s.onSbQuiet tgt fun b => { b with staged := tset b.staged q' (d, d) }
  else s

/-- Places of segments that nothing repairs (R290). -/
def State.lostLocs (s : State) : List Loc :=
  s.idx.dir.flatMap fun r => r.variants.flatMap fun v => (v.2.segs.filter fun g => g.2.lost).map (·.2.loc)

/-- Whether a place has bytes in a stitch of a skein. -/
def Loc.inStitch (l : Loc) (skein n : Nat) : Bool :=
  l.parts.any fun p => decide (p.1 = skein) && (stitchesOf p.2.1 p.2.2).contains n

/-- Whether a stitch holds segments that nothing repairs and no other live object: reclaim does not copy it (R291). -/
def State.notCopied (s : State) (skein n : Nat) : Bool :=
  s.lostLocs.any (fun l => l.inStitch skein n) && !(s.liveLocs.any fun l => !s.lostLocs.contains l && l.inStitch skein n)

/-- The summary of a copy's target takes the slot or the stitches, and the objects that lie in them (R388). -/
def State.copySummary (s : State) (src tgt skein : Nat) (marks : List SumEntry) (ns : List Nat) : State :=
  let objs := (s.sb src).summary.filter fun e => decide (3 ≤ e.kind) && decide (e.skein = skein)
    && !s.lostLocs.contains (.flash e.skein e.pos e.len64)
    && (stitchesOf e.pos (unitsInFirst e.pos e.len64)).all fun n => ns.contains n
  s.onSbQuiet tgt fun b => { b with summary := b.summary ++ marks ++ objs }

/-- Begin the copy of a skein out of a superblock: whole, promoted, or the stitches that lie there (R369, R406), once its
segments have been read and checked. -/
def State.beginCopy (s : State) (src skein : Nat) : State :=
  match tget s.ftl.skeins skein with
  | none => s
  | some k =>
    let busy := (s.ftl.copies.any fun c => decide (c.skein = skein) && decide (c.src = src))
      || s.ftl.streams.any fun e => decide (e.2.skein = skein)
    if busy || !k.onSb src then s
    else
      let (ok, s) := s.readOut src skein
      let stream := copyStream (s.sb src) k.classP
      let whole := !k.fine && !s.promotes k
      let ns := if whole then List.range 256
        else if k.fine then (k.stitches.filter fun e => decide (e.2.2.1 = src)).map (·.1) else s.liveStitches skein
      if !ok then s
      else if ns.isEmpty then s.freeSkein skein
      else
        match s.copyRoom stream ns.length with
        | none => s
        | some (tgt, q0, s) =>
          let s := (ns.zipIdx).foldl (fun s e => match if s.notCopied skein e.1 then none else k.wordOf e.1 with
            | some w => s.copyWord w.1 w.2 tgt (q0 + e.2)
            | none => s) s
          let marks : List SumEntry := if whole then [⟨1, 0, 0, skein, q0 / 256, 0⟩]
            else (ns.zipIdx).map fun e => ⟨2, e.1, 0, skein, q0 + e.2, 0⟩
          let s := (s.copySummary src tgt skein marks ns).onCip fun c => { c with
            checks := c.checks.filter fun k => !(k.old.loc.inSkein skein) }
          s.onFtl fun t => { t with copies := t.copies ++ [⟨skein, src, if whole then some (tgt, q0 / 256) else none,
            if whole then [] else (ns.zipIdx).map fun e => (e.1, tgt, q0 + e.2)⟩] }

/-- Copy everything live out of a superblock, as far as there is room; dead skeins are freed (R368, R406). -/
def State.copyOut (s : State) (src : Nat) : State :=
  let ks := (s.ftl.skeins.filter fun e => e.2.onSb src).map (·.1)
  ks.foldl (fun s k =>
    if ((tget s.ftl.skeins k).map (·.liveUnits)).getD 0 = 0 then s.freeSkein k else s.beginCopy src k) s

/-- Superblocks being emptied: those to evacuate in their order, then those RECLAIMING (R402, R406). -/
def State.emptying (s : State) : List Nat :=
  s.ftl.evacuate ++ (s.ftl.sbs.filter fun e => decide (e.2.st = .reclaiming)).map (·.1)

/-- Skeins with codewords in a row of a superblock. -/
def State.skeinsInRow (s : State) (id row : Nat) : List Nat :=
  let w := (s.sb id).rowWords
  (s.ftl.skeins.filter fun e =>
    if e.2.fine then e.2.stitches.any fun t => decide (t.2.2.1 = id) && decide (t.2.2.2 / max 1 w = row)
    else decide (e.2.sb = id) && decide (256 * e.2.slot < (row + 1) * w) && decide (row * w < 256 * (e.2.slot + 1))).map (·.1)

/-- The live data of a row goes into a reclaim stream (R396, R401). -/
def State.moveRow (s : State) (m : Nat × Nat) : State := (s.skeinsInRow m.1 m.2).foldl (fun s k => s.beginCopy m.1 k) s

/-- Begin to move the live data of a row. -/
def State.queueMove (s : State) (id row : Nat) : State :=
  (s.onFtl fun t => { t with moves := t.moves.filter (· ≠ (id, row)) ++ [(id, row)] }).moveRow (id, row)

/-- Go on with every superblock that is being emptied, and with the rows to be moved. -/
def State.pumpCopies (s : State) : State :=
  let s := s.emptying.foldl State.copyOut s
  s.ftl.moves.foldl State.moveRow s

/-- Reclaim a superblock (R406): it is RECLAIMING until its erase. -/
def State.reclaim (s : State) (id : Nat) : State :=
  ((s.onSb id fun b => { b with st := .reclaiming }).journalSb id).copyOut id

/-- The address of a codeword in the marks of LDPC swatches. -/
def ldpcMark (id q : Nat) : Nat := id * 2 ^ 20 + q

/-- A decode counts toward the refresh of its member (R408); RECLAIMING superblocks keep their reclaim. -/
def State.countRefresh (s : State) (id pos : Nat) : State :=
  let n := min 8 ((tget (s.sb id).refreshCnt pos).getD 0 + 1)
  let due := decide (n = 8) && !(s.sb id).refreshDue
  let s := s.onSbQuiet id fun b => { b with refreshCnt := tset b.refreshCnt pos n }
  if due then
    let s := s.onSb id fun b => { b with refreshDue := true, dueSeq := s.ftl.seq }
    (s.onFtl fun t => { t with seq := t.seq + 1 }).raise 372 (item4 id)
  else s

/-- The codewords of a copy. -/
def SkeinCopy.words (c : SkeinCopy) : List (Nat × Nat) :=
  match c.whole with
  | some (tgt, slot) => (List.range 256).map fun i => (tgt, 256 * slot + i)
  | none => c.stitches.map (·.2)

/-- The codewords of a copy that a read-back finds with more than 84 bit errors (R406, R540). -/
def State.badWords (s : State) (c : SkeinCopy) : List (Nat × Nat) :=
  c.words.filter fun w => s.flt.swatched.any fun e => e.1 = 5 && decide (e.2.1 = ldpcMark w.1 w.2) && decide (84 < e.2.2)

/-- A copy whose read-back fails is given up: its decodes count toward refresh (R408), and the data is copied again (R406; DESIGN
CHOICE, log 193). -/
def State.dropCopy (s : State) (c : SkeinCopy) : State :=
  (s.badWords c).foldl (fun s w => s.countRefresh w.1 ((s.sb w.1).posOf w.2))
    (s.onFtl fun t => { t with copies := t.copies.erase c })

/-- Whether every codeword of a copy has been programmed. -/
def State.copyDone (s : State) (c : SkeinCopy) : Bool := c.words.all fun w => (s.sb w.1).wordDone w.2

/-- The lowest stitch table that no fine skein has (R365; DESIGN CHOICE, log 162). -/
def State.freeTable (s : State) : Nat :=
  let used := (s.ftl.skeins.filter fun e => e.2.fine).map fun e => e.2.table
  ((List.range (used.length + 1)).find? fun i => !used.contains i).getD 0

/-- Switch a skein's entry to its copy, once it has been journaled (R368, R371, R384, R406). -/
def State.switchCopy (s : State) (c : SkeinCopy) : State :=
  let s := s.onFtl fun t => { t with copies := t.copies.erase c }
  match tget s.ftl.skeins c.skein with
  | none => s
  | some k =>
    match c.whole with
    | some (tgt, slot) =>
      (s.onFtl fun t => { t with skeins := tset t.skeins c.skein { k with
        sb := tgt, slot := slot, past := (k.past ++ [c.src]).eraseDups } }).journalSkein c.skein
    | none =>
      let objs := s.objectsIn c.skein
      let kept := k.stitches.filter fun e => decide (e.2.2.1 ≠ c.src) || (tget c.stitches e.1).isNone
      let moved := c.stitches.filter fun e => decide (0 < stitchRefs objs e.1)
      let table := moved.foldl (fun t e => tset t e.1 (stitchRefs objs e.1, e.2.1, e.2.2)) kept
      let s := s.onFtl fun t => { t with skeins := tset t.skeins c.skein { k with
        fine := true, stitches := table, table := if k.fine then k.table else s.freeTable
        past := (k.past ++ [c.src]).eraseDups } }
      let s := s.journalStitches c.skein (moved.map (·.1))
      (if k.fine then s else s.journalSkein c.skein).freeSkein c.skein

/-! ## Parity rows (R392, R395, R397) -/

/-- Write a row's parity over the positions of a mask to one position of the PAR stream (R392, R394); the 256th superblock of
the stream records PAR_STREAM_FULL (R395). -/
def State.writePar (s : State) (id row : Nat) (mask : BitVec 16) : State :=
  let cur := (tget s.ftl.streams 6).bind (·.sb)
  let fits : Bool := match cur with
    | some p => decide ((s.sb p).st = SbState.opened) && decide ((s.sb p).nextQ + 16 ≤ (s.sb p).words)
    | none => false
  let put (s : State) (p : Nat) : State :=
    let q := (s.sb p).nextQ
    let ws := ((s.sb id).rowParity row mask).zipIdx.filter fun w => !w.1.isEmpty
    (s.onSbQuiet p fun b => { b with
      nextQ := q + 16, staged := ws.foldl (fun t w => tset t (q + w.2) (w.1, w.1)) b.staged }).onFtl fun t => { t with
        par := tset t.par (parKey id row) ⟨p, q, mask, false⟩ }
  match fits, cur with
  | true, some p => put s p
  | _, _ =>
    if 256 ≤ s.parSbs then s
    else
      match s.openNew 6 cur State.pickFree s.openFuel with
      | none => s
      | some (p, s) =>
        let s := s.setStream 6 ⟨noSkein, 1048576, some p⟩
        put (if s.parSbs = 256 then s.raise 378 (item4 s.unverified) else s) p

/-- Superblocks of the PAR stream that hold no row any more are erased (R397). -/
def State.dropParSbs (s : State) : State :=
  let cur := (tget s.ftl.streams 6).bind (·.sb)
  (s.ftl.sbs.filter fun e => decide (e.2.stream = 6) && decide (e.2.st = .closed) && decide (some e.1 ≠ cur)
    && !(s.ftl.par.any fun p => decide (p.2.sb = e.1))).foldl
    (fun s e => s.onSb e.1 fun b => { b with st := .reclaiming }) s

/-- Released parity rows go, but those that a rebuild still reads which began before the release (R397). -/
def State.dropReleased (s : State) : State :=
  (s.onFtl fun t => { t with
    par := t.par.filter fun e => !e.2.released || t.rebuilds.any fun r => decide (parKey r.1 (s.rowOf r.1 r.2) = e.1) }).dropParSbs

/-- Release the parity rows of a superblock (R396, R397). -/
def State.releasePar (s : State) (id : Nat) : State :=
  (s.onFtl fun t => { t with
    par := t.par.map fun e => if e.1 / 4096 = id then (e.1, { e.2 with released := true }) else e }).dropReleased

/-! ## Read-verify comes to its end (R396) -/

/-- A superblock whose failing rows have moved is VERIFIED, and only then its parity rows are released; the directive is
done with its last superblock (R396, R404). One that has come to be evacuated stays UNVERIFIED: its parity is held until it is
emptied (R402). -/
def State.endVerify (s : State) (v : Verify) : State :=
  let s := s.onFtl fun t => { t with verifies := t.verifies.erase v }
  let s := if (s.sb v.sb).st = SbState.unverified ∧ ¬ s.ftl.evacuate.contains v.sb then
      ((s.onSb v.sb fun b => { b with
        st := .verified, staged := b.staged.filter fun w => !b.wordDone w.1 }).journalSb v.sb).releasePar v.sb
    else s
  match v.dir with
  | some (d, n) => if s.ftl.verifies.any fun x => decide (x.dir = v.dir) then s else s.finish 5 d esDone (leBytes 4 n)
  | none => s

/-- Rows that hold no data any more have moved, and read-verifies that waited for them end. -/
def State.settleMoves (s : State) : State :=
  let s := s.onFtl fun t => { t with moves := t.moves.filter fun m => !(s.skeinsInRow m.1 m.2).isEmpty }
  (s.ftl.verifies.filter fun v => !(s.ftl.moves.any fun m => decide (m.1 = v.sb))).foldl State.endVerify s

/-- Switch to every copy that has been programmed and read back (R371, R406). -/
def State.switchCopies (s : State) : State :=
  ((s.ftl.copies.filter s.copyDone).foldl (fun s c => if (s.badWords c).isEmpty then s.switchCopy c else s.dropCopy c) s).settleMoves

/-! ## Programmed rows (R360, R383, R540) -/

/-- The pages of some positions of a row are written: an LDPC swatch of a position's channel spoils the parity of its first
codeword (R540). -/
def State.swatchRow (s : State) (id row : Nat) (ps : BitVec 16) : State :=
  let b := s.sb id
  (((b.dataPositions row).zipIdx).filter fun e => ps.getLsbD e.1).foldl (fun s e =>
    let (hit, s) := s.swatch 5 (chanOf id e.1)
    match hit with
    | some n => s.onFlt fun f => { f with swatched := f.swatched ++ [(5, ldpcMark id (row * b.rowWords + 16 * e.2), n)] }
    | none => s) s

/-! ## Page tags (R358, R392, R394) -/

/-- The number of a physical page in its superblock: row, position, plane. -/
def pageNo (row pos plane : Nat) : Nat := (16 * row + pos) * 4 + plane

/-- A page tag with its check code. -/
def PageTag.make (seqNo row plane skein : Nat) (source : Option (Nat × Nat)) (mask : BitVec 16) : PageTag where
  seqNo := seqNo
  row := row
  plane := plane
  skein := skein
  source := source
  mask := mask
  check := Config.tagCheck (leBytes 8 seqNo ++ leBytes 2 row ++ leBytes 1 plane ++ leBytes 4 skein
    ++ leBytes 4 ((source.map (·.1)).getD 0) ++ leBytes 2 ((source.map (·.2)).getD 0) ++ leBytes 2 mask.toNat)

/-- The skein whose bytes begin in a codeword, as the superblock's summary says; 0 for none. -/
def Sb.skeinAt (b : Sb) (q : Nat) : Nat :=
  ((b.summary.reverse.find? fun e => (decide (e.kind = 1) && decide (e.pos = q / 256))
    || (decide (e.kind = 2) && decide (e.pos = q))).map (·.skein)).getD 0

/-- The tags of one position of a row: of a PAR page the source row and the mask in place of the skein, of a parity page the
mask alone. -/
def State.tagsOf (s : State) (id row pos : Nat) (mask : BitVec 16) : List (Nat × PageTag) :=
  let b := s.sb id
  match ((b.dataPositions row).zipIdx.find? fun e => decide (e.1 = pos)).map (·.2) with
  | none => (List.range 4).map fun pl => (pageNo row pos pl, .make b.seqNo row pl 0 none mask)
  | some i =>
    let q := row * b.rowWords + 16 * i
    match if b.stream = 6 then s.ftl.par.find? fun p => decide (p.2.sb = id) && decide (p.2.q = q) else none with
    | some p => (List.range 4).map fun pl =>
        (pageNo row pos pl, .make b.seqNo row pl 0 (some (p.1 / 4096, p.1 % 4096)) p.2.mask)
    | none => (List.range 4).map fun pl => (pageNo row pos pl, .make b.seqNo row pl (b.skeinAt (q + 4 * pl)) none 0)

/-- The pages of some positions of some rows are programmed: their codewords, as they are written, and their tags. -/
def State.writePages (s : State) (id : Nat) (rows : List Nat) (ps mask : BitVec 16) : State :=
  let tags := rows.flatMap fun r => (positions ps).flatMap fun p => s.tagsOf id r p mask
  s.onSbQuiet id fun b => { b with
    media := (b.staged.filter fun e => rows.contains (b.rowOf e.1) && ps.getLsbD (b.posOf e.1)).foldl
      (fun m e => tset m e.1 (codeword e.2.2)) b.media
    tags := tags.foldl (fun t e => tset t e.1 e.2) b.tags }

/-- The staging buffers keep the pages of a row until its parity is programmed (R393): in layout P with the row, in layout R
with the row's position of the PAR stream. -/
def State.unstage (s : State) (id : Nat) : State :=
  if (s.sb id).layoutR then s
  else
    let s := s.onSbQuiet id fun b => { b with staged := b.staged.filter fun e => decide (b.rows ≤ b.rowOf e.1) }
    (s.ftl.par.filter fun p => decide (p.2.sb = id) && (s.sb id).wordDone p.2.q).foldl (fun s p =>
      s.onSbQuiet (p.1 / 4096) fun b => { b with staged := b.staged.filter fun e => decide (b.rowOf e.1 ≠ p.1 % 4096) }) s

/-- Record or write the parity of some rows over the positions of a mask (R391, R392, R394). -/
def State.rowsParity (s : State) (id : Nat) (rows : List Nat) (mask : BitVec 16) : State :=
  if (s.sb id).layoutR then rows.foldl (fun s r => s.writePar id r mask) s
  else s.onSbQuiet id fun b => { b with parity := rows.foldl (fun t r => tset t r (mask, b.rowParity r mask)) b.parity }

/-- Die operations of a superblock's dies end: their suspends count no more (R383). -/
def State.dieIdle (s : State) (id : Nat) : State :=
  s.onFtl fun t => { t with
    dieOps := t.dieOps.filter fun e => !(List.range 16).any (fun p => decide (e.1 = chanOf id p * 24 + dieNoOf id)) }

/-- The stream whose own skein lies in a superblock. -/
def State.streamIn (s : State) (id : Nat) : Option Nat :=
  (s.ftl.streams.find? fun e => (tget s.ftl.skeins e.2.skein).any fun k => decide (k.sb = id)).map (·.1)

/-! ## Superblock summaries (R388) -/

/-- The codeword that holds a byte of a skein, as the superblock's summary says. -/
def Sb.placeOf (b : Sb) (skein byte : Nat) : Option Nat :=
  (b.summary.reverse.find? fun e => decide (e.skein = skein) && (decide (e.kind = 1)
    || (decide (e.kind = 2) && decide (e.stitch = byte / 4096)))).map fun e =>
    if e.kind = 1 then 256 * e.pos + byte / 4096 else e.pos

/-- The codewords of an object that the summary names; those that lie elsewhere are none. -/
def Sb.objectWords (b : Sb) (e : SumEntry) : List (Option Nat) :=
  (Loc.parts (.flash e.skein e.pos e.len64)).flatMap fun p => (stitchesOf p.2.1 p.2.2).map fun n => b.placeOf p.1 (4096 * n)

/-- The 24 bytes of a summary entry (R388). -/
def SumEntry.bytes (e : SumEntry) : Bytes :=
  leBytes 1 e.kind ++ leBytes 1 e.stitch ++ leBytes 2 e.len64 ++ leBytes 4 e.skein ++ leBytes 4 e.pos ++ zeros 4
    ++ leBytes 8 e.fold.toNat

/-- The place of a summary entry in stream order: its codeword, a slot or stitch before the objects in it, then the byte (R388). -/
def Sb.entryAt (b : Sb) (e : SumEntry) : Nat :=
  if e.kind = 1 then 8192 * (256 * e.pos)
  else if e.kind = 2 then 8192 * e.pos
  else 8192 * ((b.placeOf e.skein e.pos).getD 0) + 1 + e.pos % 4096

/-- Put an entry at its place among entries in ascending order of a measure. -/
def putBy {α : Type} (f : α → Nat) (x : α) : List α → List α
  | [] => [x]
  | y :: ys => if f x ≤ f y then x :: y :: ys else y :: putBy f x ys

/-- A superblock's summary in stream order (R388). -/
def Sb.inOrder (b : Sb) : List SumEntry := b.summary.foldr (putBy b.entryAt) []

/-- A summary in parts of at most 2,730 entries, each an object of at most 64 KiB. -/
def summaryParts (es : List SumEntry) : List Bytes :=
  (List.range ((es.length + 2729) / 2730)).map fun i => ((es.drop (2730 * i)).take 2730).flatMap SumEntry.bytes

/-- Write the summary of a closed superblock to the META stream; what finds no space is left out. -/
def State.writeSummary (s : State) (id : Nat) : State :=
  (summaryParts (s.sb id).inOrder).foldl (fun s p =>
    match s.allocFlash 3 ((p.length + 63) / 64) with
    | some (loc, s) => (s.putBytes loc p p).onSbQuiet id fun b => { b with sumLocs := b.sumLocs ++ [loc] }
    | none => s) s

/-- Write the summaries that wait. -/
def State.writeSummaries (s : State) : Nat → State
  | 0 => s
  | fuel + 1 =>
    match s.ftl.sumQueue with
    | [] => s
    | id :: rest => ((s.onFtl fun t => { t with sumQueue := rest }).writeSummary id).writeSummaries fuel

/-! ## Programs (R183, R360, R381, R391 to R394) -/

/-- Pad the stream of a superblock up to a codeword (R360, R381). -/
def State.padUpTo (s : State) (id q : Nat) : State :=
  match s.streamIn id with
  | some n => s.padStream n id q 66
  | none => s.onSbQuiet id fun b => { b with nextQ := if b.nextQ < q then q else b.nextQ }

/-- The rows that a superblock programs next. -/
def Sb.nextRows (b : Sb) : List Nat := (List.range (min (b.rows + b.unit) b.rowsTotal - b.rows)).map fun i => b.rows + i

/-- The next program of a superblock is done: its rows are programmed, what they lack is pad, the rows take their parity,
the staging buffers give up what parity covers, segments become durable, and copies are switched to (R183, R360, R371, R381,
R391 to R393). -/
def State.programNext (s : State) (id : Nat) : State :=
  let b := s.sb id
  let news := b.nextRows
  let last := b.rows + news.length
  let s := s.padUpTo id (last * b.rowWords)
  let s := news.foldl (fun s r => s.swatchRow id r (~~~b.done)) s
  let s := (s.writePages id news (~~~b.skipped &&& ~~~b.done) 0xFFFF).rowsParity id news 0xFFFF
  let s := s.onSbQuiet id fun b => { b with rows := last, done := 0 }
  (((((s.unstage id).dieIdle id).settleProgrammed).switchCopies).writeSummaries 4)

/-- The end of the last data position of a mask in a row; the row's start for none. -/
def Sb.endOf (b : Sb) (row : Nat) (ps : BitVec 16) : Nat :=
  row * b.rowWords + (((b.dataPositions row).zipIdx.filter fun e => ps.getLsbD e.1).map fun e => 16 * (e.2 + 1)).foldl max 0

/-- Some positions of the next row or wordline have been programmed; with the last of them, the row is (R183, R360, R381,
R393). -/
def State.programSome (s : State) (id : Nat) (ps : BitVec 16) : State :=
  let b := s.sb id
  let ps := ps &&& ~~~b.skipped &&& ~~~b.done
  if b.done ||| ps = ~~~b.skipped then s.programNext id
  else
    let s := if b.slc then s.padUpTo id (b.endOf b.rows ps) else s
    let s := b.nextRows.foldl (fun s r => s.swatchRow id r ps) s
    let s := (s.writePages id b.nextRows ps 0).onSbQuiet id fun b => { b with done := b.done ||| ps }
    s.settleProgrammed.switchCopies

/-- The hold-up takeover programs the running XOR of the positions already programmed in an open row in place of the row's
parity, with their mask in its tag; what was not programmed is gone (R394, R506). -/
def State.partialRow (s : State) (id : Nat) : State :=
  let b := s.sb id
  if b.done = 0 then s
  else
    let par := ~~~b.skipped &&& ~~~b.done
    let s := ((s.rowsParity id b.nextRows b.done).writePages id b.nextRows (if b.layoutR then 0 else par) b.done)
    s.onSbQuiet id fun b => { b with
      media := b.media.filter fun e => decide (b.rowOf e.1 < b.rows) || b.done.getLsbD (b.posOf e.1)
      rows := b.rows + b.nextRows.length, done := 0 }

/-- Program everything that has been placed in a stream's superblocks. -/
def State.programAll (s : State) (id : Nat) : Nat → State
  | 0 => s
  | fuel + 1 =>
    let b := s.sb id
    if b.programs && decide (b.rows * b.rowWords < s.filled id) && decide (b.rows < b.rowsTotal) then
      (s.programNext id).programAll id fuel
    else s

/-- A superblock of the PAR stream: its full rows are programmed, then the positions that its open row has received and that
row's own running XOR (R392, R394). -/
def State.partialPar (s : State) (id : Nat) : State :=
  let full := (List.range 768).filter fun r => decide ((s.sb id).rows ≤ r) && decide ((r + 1) * (s.sb id).rowWords ≤ (s.sb id).nextQ)
  let s := full.foldl (fun s _ => s.programNext id) s
  let b := s.sb id
  let ps := ((b.dataPositions b.rows).zipIdx.filter fun e => decide (b.rows * b.rowWords + 16 * e.2 < b.nextQ)).foldl
    (fun m e => m ||| posBit e.1) (0 : BitVec 16)
  ((s.writePages id [b.rows] ps 0).onSbQuiet id fun b => { b with done := b.done ||| ps }).partialRow id

/-- Flush a stream: the superblocks that hold unprogrammed data of it are programmed to their end. -/
def State.flushStream (s : State) (stream : Nat) : State :=
  (s.ftl.sbs.filter fun e => decide (e.2.stream = stream) && e.2.programs).foldl
    (fun s e => s.programAll e.1 3072) s

/-! ## Members and spares (R402, R411, R413, R415) -/

/-- The drive enters bind-off (R415, R416): writes that have not committed end with MEDIA_EXHAUSTED. -/
def State.enterBindOff (s : State) : State :=
  if s.ldg.kept.bindOff then s
  else
    let s := ((s.onKept fun k => { k with bindOff := true }).keepMeta 11 0 1).raise 376 []
    (s.sch.cmds.filter fun e => e.2.op.isWrite && decide (e.2.op ≠ .delete) && !e.2.committed && !e.2.decided).foldl
      (fun s e => (s.addCond e.1 .mediaExhausted).failCmd e.1 0) s

/-- SPARE_MEMBERS has fallen: SPARE_LOW the first time below its mark, bind-off at 0 (R413, R415). -/
def State.sparesFell (s : State) : State :=
  let n := s.spareMembers
  let s := if n < 64 * s.fld Reg.FTL_WEAR_CFG_SPARE_WARN ∧ s.ftl.spareLow = false then
      (s.onFtl fun t => { t with spareLow := true }).raise 375 (item4 n)
    else s
  if n = 0 then s.enterBindOff else s

/-- A member is retired by a failed program or erase: vacant from its superblock's next erase (R407, R411). -/
def State.retireMember (s : State) (id pos reason : Nat) : State :=
  ((s.onSb id fun b => { b with retiring := b.retiring ||| posBit pos }).memberRetired id pos reason).sparesFell

/-- A stream gives up its open superblock: its next write begins a new run in another one. -/
def State.leaveStream (s : State) (id : Nat) : State :=
  let inIt (e : Nat × Stream) : Bool := decide (e.2.sb = some id) || (tget s.ftl.skeins e.2.skein).any fun k => decide (k.sb = id)
  (s.ftl.streams.filter inIt).foldl (fun s e => s.freeSkein e.2.skein)
    (s.onFtl fun t => { t with streams := t.streams.filter fun e => !inIt e })

/-- Whether some of a location has been placed in a superblock and not programmed. -/
def State.unprogrammedIn (s : State) (id : Nat) (l : Loc) : Bool :=
  (s.locWords l).any fun w => match w with
    | some (b, q) => decide (b = id) && !(s.sb id).wordDone q
    | none => false

/-- What a summary entry names has been programmed. -/
def Sb.entryDone (b : Sb) (e : SumEntry) : Bool :=
  if e.kind = 1 then b.wordDone (256 * e.pos)
  else if e.kind = 2 then b.wordDone e.pos
  else (b.objectWords e).all fun w => (w.map b.wordDone).getD true

/-- Summaries that lie unprogrammed in a superblock are to be written anew (R388, R411). -/
def State.requeueSummaries (s : State) (id : Nat) : State :=
  (s.ftl.sbs.filter fun e => e.2.sumLocs.any (s.unprogrammedIn id)).foldl (fun s e =>
    ((e.2.sumLocs.foldl State.releaseLoc s).onSbQuiet e.1 fun b => { b with sumLocs := [] }).onFtl fun t => { t with
      sumQueue := t.sumQueue.filter (· ≠ e.1) ++ [e.1] }) s

/-- A superblock takes no more programs: it closes with the rows already programmed, and what was to follow goes, from
the staging buffers or the source, into the next superblock of its stream (R407, R411); what a row that was not finished
already holds moves too. Its summary keeps what has been programmed (R388), and the row parities that a PAR superblock had not
programmed go to the next (R392). -/
def State.cutSb (s : State) (id : Nat) : State :=
  let cut := s.ftl.copies.filter fun c => !s.copyDone c && (match c.whole with
    | some (t, _) => decide (t = id)
    | none => c.stitches.any fun e => decide (e.2.1 = id))
  let segs := s.sch.cmds.map fun e => (e.1, e.2.placed (s.unprogrammedIn id))
  let maps := (s.sch.cmds.filter fun e => !e.2.committed && !e.2.decided
    && (e.2.maps.getD []).any fun m => s.unprogrammedIn id m.2)
  let begun := if (s.sb id).done = 0 then [] else (s.sb id).nextRows
  let pars := s.ftl.par.filter fun e => decide (e.2.sb = id) && decide ((s.sb id).rows ≤ s.rowOf id e.2.q)
  let s := s.requeueSummaries id
  let s := if (s.sb id).st = SbState.opened then s.closeSb id else s
  let s := (s.onSbQuiet id fun b => { b with
    nextQ := b.rows * b.rowWords, summary := b.summary.filter ({ b with done := 0 } : Sb).entryDone }).leaveStream id
  let s := pars.foldl (fun s e => s.writePar (e.1 / 4096) (e.1 % 4096) e.2.mask) s
  let s := s.onFtl fun t => { t with copies := t.copies.filter fun c => !cut.contains c }
  let s := segs.foldl (fun s e => if e.2.isEmpty then s else s.replayWrites e.1 e.2) s
  let s := maps.foldl (fun s e => (((e.2.maps.getD []).map (·.2)).foldl (fun s l => match l with
      | .ledger _ => s
      | .flash _ _ _ => s.releaseLoc l) s).onCmd e.1 fun c => { c with maps := none }) s
  (begun.foldl (fun s r => s.queueMove id r) s).pumpCopies

/-! ## Decodes and rebuilds (R361, R399 to R401, R408) -/

/-- The items that name a codeword in FCH's events: die, flash block, flash row, plane, codeword (R386). -/
def State.wordItems (s : State) (id q : Nat) : Bytes :=
  let w := q % max 1 (s.sb id).rowWords
  item1 (dieNoOf id) ++ item2 (id % 4096) ++ item2 (s.rowOf id q) ++ item1 (w % 16 / 4) ++ item1 (w % 4)

/-- The channel of a codeword. -/
def State.chanOfWord (s : State) (id q : Nat) : Nat := chanOf id ((s.sb id).posOf q)

/-- A codeword cannot be read (R389, R393, R399, R401): the staging buffers serve it; a pad is never rebuilt; without parity
it is lost, and its objects are fetched from peers; else its rebuild starts, if one of the 64 is free. A reader that finds
all 64 in use waits. -/
def State.beginRebuild (s : State) (id q : Nat) : State :=
  let lose (s : State) := s.onSbQuiet id fun b => { b with lost := if b.lost.contains q then b.lost else b.lost ++ [q] }
  if s.ftl.rebuilds.contains (id, q) || (tget (s.sb id).staged q).isSome || !(s.sb id).holds q then s
  else if !s.hasParity id q then (lose s).fetchObjects id q
  else if s.ftl.rebuilds.length < 64 then (lose s).onFtl fun t => { t with rebuilds := t.rebuilds ++ [(id, q)] }
  else s

/-- What a read of a codeword came to, with the parity bits that a swatch inverted (R361, R540). -/
def State.decodeOf (s : State) (id q : Nat) (d : Decode1) : Decode1 :=
  let extra := ((s.flt.swatched.find? fun e => e.1 = 5 && decide (e.2.1 = ldpcMark id q)).map (·.2.2)).getD 0
  match d with
  | .hard n => if n + extra ≤ 120 then .hard (n + extra) else .soft
  | d => d

/-- A die read has been decoded (R361, R408): counts, events, refresh, and the rebuild of what is uncorrectable. A vacant
member is not read (R399). The bit-error count of a soft decode is a free value. -/
def State.decoded (s : State) (id q : Nat) (d : Decode1) : State :=
  let ch := s.chanOfWord id q
  let pos := (s.sb id).posOf q
  if (tget (s.sb id).saved q).isSome then s
  else if s.wordVacant id q then s.beginRebuild id q
  else match s.decodeOf id q d with
    | .hard n => if 84 < n then s.countRefresh id pos else s
    | .soft =>
      let (n, s) := s.drawNat
      ((s.bump (Reg.FCH_CH_LDPC_SOFT_DECODES ch)).raise (640 + 6 * ch) (s.wordItems id q ++ item2 n)).countRefresh id pos
    | .uncorrectable =>
      (((s.bump (Reg.FCH_CH_LDPC_UNCORRECTABLE ch)).raise (640 + 6 * ch + 1) (s.wordItems id q)).countRefresh id
        pos).beginRebuild id q

/-! ## What to reclaim (R403, R404, R405, R409, R412) -/

/-- Whether a superblock may be reclaimed: CLOSED or VERIFIED, and not being evacuated. -/
def State.mayReclaim (s : State) (id : Nat) : Bool :=
  (decide ((s.sb id).st = .closed) || decide ((s.sb id).st = .verified)) && !s.ftl.evacuate.contains id

/-- The score of a reclaim candidate (R403), exact. -/
def State.score (s : State) (id : Nat) : Rat :=
  let b := s.sb id
  let u : Rat := (s.sbLive id : Rat) / (max 1 (64 * b.words) : Nat)
  let age : Rat := ((s.ftl.seconds - b.closeTime : Nat) : Rat)
  let e : Rat := (b.wear : Rat) / 40
  let k : Rat := (s.fld Reg.FTL_GC_WEAR_K_K : Rat) / 256
  (1 - u) * age / (u + 2 / 100) * (1 + k * (1 - e / (s.retirePe : Nat)))

/-- The best of some superblocks by a measure; among equals the first. -/
def bestOf (f : Nat → Rat) : List Nat → Option Nat
  | [] => none
  | i :: rest => some ((rest.foldl (fun m j => if m.2 < f j then (j, f j) else m) (i, f i)).1)

/-- The candidates of a pool: 0 QLC, 1 META (R404). -/
def State.candidates (s : State) (pool : Nat) : List Nat :=
  ((s.ftl.sbs.filter fun e => s.mayReclaim e.1 && (if pool = 0 then !e.2.slc else decide (e.2.stream = 3)))).map (·.1)

/-- The highest-scoring candidate of a pool. -/
def State.bestCandidate (s : State) (pool : Nat) : Option Nat := bestOf s.score (s.candidates pool)

/-- The superblock whose refresh is due for longest. -/
def State.oldestDue (s : State) : Option Nat :=
  bestOf (fun i => -((s.sb i).dueSeq : Rat)) ((s.ftl.sbs.filter fun e => e.2.refreshDue
    && (s.mayReclaim e.1 || (decide (e.2.st = .unverified) && !s.ftl.evacuate.contains e.1))).map (·.1))

/-- WEAR of the superblocks that are not retired: the lowest, with those that nothing has used at 0, and the
highest. -/
def State.wearSpan (s : State) : Nat × Nat :=
  let ws := (s.ftl.sbs.filter fun e => decide (e.2.st ≠ .retired)).map fun e => e.2.wear
  (if s.ftl.sbs.length < sbTotal then 0 else (ws.min?).getD 0, (ws.max?).getD 0)

/-- Whether the spread of e exceeds its mark (R412). -/
def State.spreadHigh (s : State) : Bool := decide (40 * s.fld Reg.FTL_WEAR_CFG_SPREAD < s.wearSpan.2 - s.wearSpan.1)

/-- The CLOSED or VERIFIED superblock of lowest WEAR (R412); of several the lowest ID, which the rule leaves open (DESIGN CHOICE,
log 194). -/
def State.leastWorn (s : State) : Option Nat :=
  bestOf (fun i => -((s.sb i).wear : Rat)) ((s.ftl.sbs.filter fun e => s.mayReclaim e.1).map (·.1))

/-- The FREE superblock of highest WEAR (R412); of several the lowest ID (DESIGN CHOICE, log 194). -/
def State.mostWornFree (s : State) : Option Nat :=
  match bestOf (fun i => ((s.sb i).wear : Rat)) ((s.ftl.sbs.filter fun e => decide (e.2.st = .free)).map (·.1)) with
  | some i => some i
  | none => s.pickFree

/-- Open the streams that take a superblock's copies anew, each in the FREE superblock of highest WEAR (R412). -/
def State.openMostWorn (s : State) (src : Nat) : State :=
  let streams := ((s.ftl.skeins.filter fun e => e.2.onSb src).map fun e => copyStream (s.sb src) e.2.classP).eraseDups
  streams.foldl (fun s stream =>
    match s.openNew stream ((tget s.ftl.streams stream).bind (·.sb)) State.mostWornFree s.openFuel with
    | none => s
    | some (id, s) => s.setStream stream ⟨noSkein, 1048576, some id⟩) s

/-! ## Read-verify (R396, R398) -/

/-- UNVERIFIED superblocks that have programmed what they hold, the oldest first, at most `n`. -/
def State.oldestUnverified (s : State) : Nat → List Nat → List Nat
  | 0, _ => []
  | n + 1, skip =>
    match bestOf (fun i => -((s.sb i).seq : Rat)) ((s.ftl.sbs.filter fun e => decide (e.2.st = .unverified)
      && decide (s.filled e.1 ≤ e.2.rows * e.2.rowWords) && !skip.contains e.1 && !s.ftl.evacuate.contains e.1
      && !(s.ftl.verifies.any fun v => decide (v.sb = e.1))).map
        (·.1)) with
    | none => []
    | some i => i :: s.oldestUnverified n (i :: skip)

/-- Whether an object of KIND 0x03 to 0x05 passes HDR_CRC and its CRC-64 under FOLD (R281, R373, R376, R396). -/
def objectHolds (e : SumEntry) (raw : Bytes) : Bool :=
  match e.kind with
  | 3 => decide (fieldAt raw 30 2 = (crc16 0 (raw.take 30)).toNat)
      && decide (fieldAt raw 0 8 = (crc64 e.fold (slice raw 32 (fieldAt raw 24 2 + 1))).toNat)
  | 4 => decide (fieldAt raw 32 8 = (crc64 e.fold (slice raw 40 (64 * e.len64 - 40))).toNat)
  | 5 => decide (fieldAt raw 16 8 = (crc64 e.fold (slice raw 24 (fieldAt raw 12 4 - 24))).toNat)
  | _ => true

/-- Where the codewords of an object of a summary lie: here as the summary says, elsewhere, for an object that lives, as the maps
now say. -/
def State.objectPlaces (s : State) (id : Nat) (e : SumEntry) : List (Option (Nat × Nat)) :=
  let live := s.liveLocs.contains (.flash e.skein e.pos e.len64)
  (((s.sb id).objectWords e).zip (s.locWords (.flash e.skein e.pos e.len64))).map fun w =>
    match w.1 with
    | some q => some (id, q)
    | none => if live then w.2 else none

/-- The rows of the objects of a superblock's summary that fail a check of read-verify (R396). A dead object whose rest lies
elsewhere has nothing to be checked. -/
def State.objectRows (s : State) (id : Nat) : List Nat :=
  (s.sb id).summary.flatMap fun e =>
    let ws := s.objectPlaces id e
    if e.kind < 3 ∨ ws.any Option.isNone then []
    else
      let raw := slice (ws.flatMap fun w => padTo 4096 ((w.map fun w => ((s.sb w.1).word w.2).take 4096).getD [])) (e.pos % 4096)
        (64 * e.len64)
      if objectHolds e raw then []
      else ws.filterMap fun w => w.bind fun w => if w.1 = id then some (s.rowOf id w.2) else none

/-- Rows of a superblock that fail read-verify: those named, those with more than 84 inverted parity bits in a codeword, and
those of an object whose check values fail (R396, R540). -/
def State.failingRows (s : State) (id : Nat) (badRows : List (Nat × Nat)) : List Nat :=
  ((badRows.filter fun e => decide (e.1 = id)).map (·.2)
    ++ (s.flt.swatched.filter fun e => e.1 = 5 && decide (e.2.1 / 2 ^ 20 = id) && decide (84 < e.2.2)).map
      (fun e => s.rowOf id (e.2.1 % 2 ^ 20)) ++ s.objectRows id).eraseDups

/-- Read-verify one superblock (R396): failing rows are moved and count toward refresh, at a member that is free; it passes
when they have moved. -/
def State.verifySb (s : State) (badRows : List (Nat × Nat)) (dir : Option (Dir × Nat)) (id : Nat) : State :=
  let rows := s.failingRows id badRows
  let s := s.onFtl fun t => { t with verifies := t.verifies ++ [⟨id, dir⟩] }
  rows.foldl (fun s r =>
    let (p, s) := s.drawNat
    ((s.raise 373 (item4 id ++ item2 r)).queueMove id r).countRefresh id (p % 16)) s

end Sys2Proof.Machine
end

