-- ==== Sys2Proof/Machine/FlashDir.lean ====
section
/-! DEFINITION. The directives of the FTL rings (R404) and the upkeep that FTL does on its own (R380, R398, R405, R409). -/

namespace Sys2Proof.Machine

/-! ## Directives that empty superblocks (R404, R406) -/

/-- The next superblock of a directive. -/
def State.nextUpkeep (s : State) (u : Upkeep) : Option Nat :=
  match u.code with
  | 1 => s.bestCandidate u.pool
  | 2 => if s.mayReclaim u.cur then some u.cur else none
  | 4 => s.oldestDue
  | _ => if s.spreadHigh then s.leastWorn else none

/-- Start the next superblock of a directive, or complete it with the superblocks dealt with (R404, R609). -/
def State.goUpkeep (s : State) (u : Upkeep) : State :=
  match (if u.left = 0 then none else s.nextUpkeep u) with
  | none => s.finish u.ring u.dir esDone (leBytes 4 u.count)
  | some id =>
    let s := s.onFtl fun t => { t with upkeep := t.upkeep ++ [{ u with left := u.left - 1, cur := id }] }
    (if u.code = 6 then s.openMostWorn id else s).reclaim id

/-- A superblock has been erased: the directive that works on it goes on. -/
def State.upkeepErased (s : State) (id : Nat) : State :=
  match s.ftl.upkeep.find? fun u => u.cur = id with
  | none => s
  | some u => (s.onFtl fun t => { t with upkeep := t.upkeep.erase u }).goUpkeep { u with count := u.count + 1 }

/-- SCAVENGE-class upkeep pauses while shedding stage 1 or thermal stage 1 is in force (R500, R509). -/
def State.scavengePaused (s : State) : Bool := decide (s.pwr.shed ≠ 0) || decide (1 ≤ s.pwr.stage)

/-- The directives of a ring pause with the SCAVENGE class, when the ring has it (R453, R500, R509). -/
def State.upkeepPaused (s : State) (ring : Nat) : Bool :=
  decide (s.fld (Reg.ENG_RING_CFG_CLASS ring) = 3) && s.scavengePaused

/-- A directive of the FTL rings: it waits for its turn (R457), paused, refused for an operand out of its range (DESIGN CHOICE, log 29), or carried
out. -/
def State.ftlDir (s : State) (ring : Nat) (d : Dir) (inRange : Bool) (f : State → State) : State :=
  guardStep (!s.upkeepPaused ring && !s.dirWaits ring d) s fun s => if inRange then f s else s.finish ring d esRefused []

/-- RECLAIM_BEST (R403, R404, R406). -/
def execReclaimBest (d : Dir) (pool n : Nat) (s : State) : Host.Outcome State Fault Refusal :=
  .next (s.ftlDir 4 d (decide (pool ≤ 1) && decide (1 ≤ n) && decide (n ≤ 64)) fun s => s.goUpkeep ⟨4, d, 1, pool, n, 0, 0⟩)

/-- RECLAIM_SB (R404, R406). -/
def execReclaimSb (d : Dir) (sb : Nat) (s : State) : Host.Outcome State Fault Refusal :=
  .next (s.ftlDir 4 d (sbExists sb) fun s => s.goUpkeep ⟨4, d, 2, 0, 1, 0, sb⟩)

/-- REFRESH_DUE (R404, R409). -/
def execRefreshDue (d : Dir) (n : Nat) (s : State) : Host.Outcome State Fault Refusal :=
  .next (s.ftlDir 4 d (decide (1 ≤ n) && decide (n ≤ 64)) fun s => s.goUpkeep ⟨4, d, 4, 0, n, 0, 0⟩)

/-- WEAR_MOVE (R404, R412). -/
def execWearMove (d : Dir) (s : State) : Host.Outcome State Fault Refusal :=
  .next (s.ftlDir 4 d true fun s => s.goUpkeep ⟨4, d, 6, 0, 1, 0, 0⟩)

/-- VERIFY_RELEASE (R396, R404): `badRows` are the rows that fail, as superblock and row. -/
def execVerifyRelease (d : Dir) (n : Nat) (badRows : List (Nat × Nat)) (s : State) : Host.Outcome State Fault Refusal :=
  .next (s.ftlDir 5 d (decide (1 ≤ n) && decide (n ≤ 64)) fun s =>
    let ids := s.oldestUnverified n []
    if ids.isEmpty then s.finish 5 d esDone (leBytes 4 0)
    else (ids.foldl (fun s i => s.verifySb badRows (some (d, ids.length)) i) s).settleMoves)

/-- Superblocks that patrol reads: closed ones, the least recently read first, at most `n`. A read that counts here is one of
patrol; of several the lowest ID comes first (DESIGN CHOICE, log 195). -/
def State.leastRead (s : State) : Nat → List Nat → List Nat
  | 0, _ => []
  | n + 1, skip =>
    match bestOf (fun i => -((s.sb i).lastRead : Rat)) ((s.ftl.sbs.filter fun e =>
      (decide (e.2.st = .closed) || decide (e.2.st = .unverified) || decide (e.2.st = .verified))
        && !skip.contains e.1).map (·.1)) with
    | none => []
    | some i => i :: s.leastRead n (i :: skip)

/-- PATROL (R404, R408): `found` are the codewords whose decode was other than a hard one of few errors. -/
def execPatrol (d : Dir) (n : Nat) (found : List (Nat × Nat × Decode1)) (s : State) :
    Host.Outcome State Fault Refusal :=
  .next (s.ftlDir 5 d (decide (1 ≤ n) && decide (n ≤ 1024)) fun s =>
    let ids := s.leastRead n []
    let s := ids.foldl (fun s i =>
      let s := s.onSbQuiet i fun b => { b with lastRead := s.ftl.seq }
      s.onFtl fun t => { t with seq := t.seq + 1 }) s
    let s := (found.filter fun e => ids.contains e.1).foldl (fun s e => s.decoded e.1 e.2.1 e.2.2) s
    s.finish 5 d esDone (leBytes 4 ids.length))

/-! ## Upkeep without a directive -/

/-- AUTO_RECLAIM (R405): fewer than FREE_FLOOR superblocks are FREE. -/
def execAutoReclaim (s : State) : Host.Outcome State Fault Refusal :=
  .next (guardStep (s.ftl.mapReady && decide (s.freeSbs < s.fldIn Reg.FTL_UPKEEP_CFG_FREE_FLOOR 256 4096 1200)) s fun s =>
    match s.bestCandidate 0 with
    | some id => s.reclaim id
    | none => s)

/-- URGENT_VERIFY (R398): at VERIFY_URGENT UNVERIFIED superblocks, the oldest are read-verified until the number falls
below the mark. -/
def execUrgentVerify (badRows : List (Nat × Nat)) (s : State) : Host.Outcome State Fault Refusal :=
  let mark := s.fldIn Reg.FTL_UPKEEP_CFG_VERIFY_URGENT 64 960 768
  .next (guardStep (s.ftl.mapReady && decide (mark ≤ s.unverified)) s fun s =>
    ((s.oldestUnverified (s.unverified + 1 - mark) []).foldl (fun s i => s.verifySb badRows none i) s).settleMoves)

/-- REFRESH_AUTO (R409): a superblock has waited AUTO_S seconds with REFRESH_DUE set. -/
def execRefreshAuto (sb : Nat) (s : State) : Host.Outcome State Fault Refusal :=
  .next (guardStep ((s.sb sb).refreshDue && (s.mayReclaim sb
      || (decide ((s.sb sb).st = .unverified) && !s.ftl.evacuate.contains sb))) s fun s => s.reclaim sb)

/-- SLC_FOLD (R380): the buffer's data exceeds FOLD_START_PCT per cent of T; its oldest superblock is emptied into the
QLC streams and erased. Folds are of SCAVENGE class, which pauses under shedding and thermal stage 1 (R500, R509). -/
def execSlcFold (s : State) : Host.Outcome State Fault Refusal :=
  let pct := s.fldIn Reg.FTL_SLC_CFG_FOLD_START_PCT 10 95 50
  .next (guardStep (s.ftl.mapReady && !s.scavengePaused && decide (pct * s.slcTargetBytes < 100 * s.slcData)) s fun s =>
    match bestOf (fun i => -((s.sb i).seq : Rat)) ((s.ftl.sbs.filter fun e => e.2.slc
        && decide (e.2.stream = 0) && s.mayReclaim e.1).map (·.1)) with
    | some id => (s.onSbQuiet id fun b => { b with folding := true }).reclaim id
    | none => s)

end Sys2Proof.Machine
end

