-- ==== Sys2Proof/Machine/FlashSteps.lean ====
section
/-! DEFINITION. What the dies report: reads, programs and erases done or failed (R360, R361, R406, R407, R411), failed dies
and channels (R402, R519), suspends (R383); hangs (R518). -/

namespace Sys2Proof.Machine

/-! ## Reads and rebuilds -/

/-- DIE_READ_DONE (R361, R399, R408): one codeword has been read; the index rebuild may have waited for it (R225). -/
def execDieReadDone (sb q : Nat) (outcome : Decode1) (s : State) : Host.Outcome State Fault Refusal :=
  .next (guardStep (decide (q < (s.sb sb).words) && !s.blockInReset (.fch (s.chanOfWord sb q))) s fun s =>
    let s := s.decoded sb q outcome
    if (s.sb sb).lost.contains q || s.wordVacant sb q then s else s.walkWord sb q)

/-- DROPPED_STITCH_REBUILT (R400, R401): the codeword is delivered to its readers and its row moved; or a second codeword
of the stripe has failed, and it is lost. -/
def execDroppedStitchRebuilt (sb q : Nat) (secondFails : Bool) (s : State) : Host.Outcome State Fault Refusal :=
  .next (guardStep (s.ftl.rebuilds.contains (sb, q)) s fun s =>
    let failed := secondFails || s.stripeBroken sb q
    let done (s : State) := (s.onFtl fun t => { t with rebuilds := t.rebuilds.erase (sb, q) }).dropReleased
    if failed then (done s).rebuildLost sb q
    else
      let d := (s.rebuiltWord sb q).take 4096
      let s := (done s).onSbQuiet sb fun b => { b with lost := b.lost.filter (· ≠ q), saved := tset b.saved q d }
      let s := (s.raise 368 (item4 sb ++ item4 q)).bump Reg.FTL_UPKEEP_STAT_REBUILDS
      s.queueMove sb (s.rowOf sb q))

/-! ## Programs -/

/-- The dies at which a program of some positions of a superblock still takes place. -/
def State.programDies (s : State) (sb : Nat) (ps : BitVec 16) : List (Nat × Nat) :=
  (positions (ps &&& ~~~(s.sb sb).skipped &&& ~~~(s.sb sb).done)).map fun p => (sb / 4096, p)

/-- FCH serves a requester of R25 at some dies: the pointer of each channel moves past it (R24, R382). -/
def State.grantDies (s : State) (requester : Nat → Nat) (dies : List (Nat × Nat)) : State :=
  s.onFtl fun t => { t with rrFch := dies.foldl (fun t d => tset t (dieChan d) ((requester d.2 + 1) % 4)) t.rrFch }

/-- The operations at some dies have ended: their suspends count no more (R383). -/
def State.endOps (s : State) (dies : List (Nat × Nat)) : State :=
  s.onFtl fun t => { t with dieOps := t.dieOps.filter fun e => !(dies.map dieKey).contains e.1 }

/-- PROGRAM_DONE (R183, R360, R371, R382, R392, R393): the pages of some positions of a superblock's next row, or wordline in
QLC mode, have been programmed. -/
def execProgramDone (sb : Nat) (pages : RowPages) (s : State) : Host.Outcome State Fault Refusal :=
  .next (guardStep (s.mayProgram sb pages.row && (s.programDies sb pages.positions).all fun d =>
      s.mayFinish (s.programTag sb d.2) d) s fun s =>
    ((s.grantDies (s.programTag sb) (s.programDies sb pages.positions)).endOps
      (s.programDies sb pages.positions)).programSome sb pages.positions)

/-- WORDLINE_PAD (R360): the rest of an open QLC wordline is filled with pad, and the wordline is programmed. -/
def execWordlinePad (sb : Nat) (s : State) : Host.Outcome State Fault Refusal :=
  let b := s.sb sb
  .next (guardStep (!b.slc && decide (b.st = SbState.opened) && decide (b.rows < b.rowsTotal)
      && decide (b.rows * b.rowWords < s.filled sb) && decide (s.filled sb < (b.rows + 4) * b.rowWords)) s fun s =>
    s.programNext sb)

/-- PROGRAM_FAIL (R407, R411): the member is retired and the superblock closes; a copy target records that too. -/
def execProgramFail (sb row position : Nat) (s : State) : Host.Outcome State Fault Refusal :=
  .next (guardStep (s.mayProgram sb row && decide (position < 16)
      && s.mayFinish (s.programTag sb position) (sb / 4096, position)) s fun s =>
    let target := decide ((s.sb sb).stream = 4) || decide ((s.sb sb).stream = 5)
      || s.ftl.copies.any fun c => c.words.any fun w => decide (w.1 = sb)
    let s := s.raise (640 + 6 * chanOf sb position + 2) (item1 (dieNoOf sb) ++ item2 (sb % 4096) ++ item2 row)
    let s := s.retireMember sb position 0
    let s := if target then
        (s.raise 369 (item4 sb ++ item1 position)).bump Reg.FTL_UPKEEP_STAT_TARGET_FAILS
      else s
    (s.dieIdle sb).cutSb sb)

/-- Whether the operation that a die is busy with is an erase: one is ready there, and no program. -/
def State.erasing (s : State) (die : Nat × Nat) : Bool :=
  !(s.ftl.sbs.any fun e => decide (e.1 / 4096 = die.1) && s.programReady e.1 die.2)

/-- PROGRAM_SUSPEND (R383): a program or erase for whose die a host read waits is suspended, at most MAX_SUSPENDS times; the reads
queued there run (SEGMENT_READ), and it resumes. -/
def execProgramSuspend (channel die : Nat) (s : State) : Host.Outcome State Fault Refusal :=
  let at_ := (4 * die + channel % 4, channel / 4)
  let op := (tget s.ftl.dieOps (dieKey at_)).getD ⟨s.erasing at_, 0, false⟩
  .next (guardStep (decide (channel < 64) && decide (die < 24) && !op.suspended
      && decide (op.suspends < min 32 (s.fld (Reg.FCH_CH_CFG_MAX_SUSPENDS channel))) && !s.blockInReset (.fch channel)
      && ((tget s.ftl.dieOps (dieKey at_)).isSome || !(s.workAt at_).isEmpty) && s.readAt (fun _ => true) at_) s fun s =>
    s.onFtl fun t => { t with
      dieOps := tset t.dieOps (dieKey at_) { op with suspends := op.suspends + 1, suspended := true } })

/-! ## Erases (R402, R406, R411) -/

/-- The mode of the erase: that of the superblock, but QLC for a folded one while the buffer holds more than TARGET_SB
(R380). -/
def State.eraseSlc (s : State) (sb : Nat) : Bool :=
  let b := s.sb sb
  b.slc && !(b.folding && decide (s.targetSb < s.slcSbs))

/-- A superblock has been erased: its wear rises, it is FREE with its vacancies, or RETIRED with more than two or when
worn out, this erase's own wear counted (R387, R402, R406, R411; DESIGN CHOICE, log 190). -/
def State.erased (s : State) (sb : Nat) : State :=
  let b := s.sb sb
  let slc := s.eraseSlc sb
  let wear := b.wear + eraseWear slc
  let vacant := b.vacant ||| b.retiring
  let worn := s.wornAt b slc
  let out := worn || decide (2 < (positions vacant).length)
  let s := b.sumLocs.foldl (fun s l => s.releaseLoc l) s
  let s := s.onSb sb fun _ => { Sb.fresh with
    st := if out then .retired else .free, slc := slc, wear := wear, vacant := vacant, skipped := vacant }
  let s := ((s.journalSb sb).dieIdle sb).releasePar sb
  let s := s.onFtl fun t => { t with
    evacuate := t.evacuate.filter (· ≠ sb), sumQueue := t.sumQueue.filter (· ≠ sb)
    par := t.par.filter fun e => decide (e.1 / 4096 ≠ sb)
    skeins := t.skeins.map fun e => (e.1, { e.2 with past := e.2.past.filter (· ≠ sb) })
    moves := t.moves.filter fun m => decide (m.1 ≠ sb) }
  let s := s.onFlt fun f => { f with swatched := f.swatched.filter fun e =>
    !(e.1 = 5 && decide (e.2.1 / 2 ^ 20 = sb)) }
  let s := if worn then (positions (~~~vacant)).foldl (fun s p => s.memberRetired sb p 3) s else s
  let s := if out then (s.raise 371 (item4 sb)).sparesFell else s
  (s.upkeepErased sb).pumpCopies.settleMoves

/-- The dies of a superblock that its erase takes: those of its members (R382). -/
def State.eraseDies (s : State) (sb : Nat) : List (Nat × Nat) :=
  (positions (~~~(s.sb sb).vacant)).map fun p => (sb / 4096, p)

/-- Whether a superblock's erase may come to its end at each of its dies (R382, R383, R406). -/
def State.eraseEnds (s : State) (sb : Nat) : Bool := s.mayErase sb && (s.eraseDies sb).all (s.mayFinish 2)

/-- An erase has ended: FCH has served it (R24, R382), and the superblock is erased. -/
def State.endErase (s : State) (sb : Nat) : State :=
  ((s.grantDies (fun _ => 2) (s.eraseDies sb)).endOps (s.eraseDies sb)).erased sb

/-- ERASE_DONE (R406). -/
def execEraseDone (sb : Nat) (s : State) : Host.Outcome State Fault Refusal :=
  .next (guardStep (s.eraseEnds sb) s fun s => s.endErase sb)

/-- ERASE_FAIL (R411): the member is retired; the erase of the others stands. -/
def execEraseFail (sb position : Nat) (s : State) : Host.Outcome State Fault Refusal :=
  .next (guardStep (s.eraseEnds sb && decide (position < 16)) s fun s =>
    let s := s.raise (640 + 6 * chanOf sb position + 3) (item1 (dieNoOf sb) ++ item2 (sb % 4096))
    (s.retireMember sb position 1).endErase sb)

/-! ## Failed dies and channels (R402, R519) -/

/-- The place of a superblock in the order of evacuation (R402); none when it holds nothing to move. -/
def evacRank (b : Sb) : Option Nat :=
  if b.stream = 6 then none
  else match b.st with
  | .opened | .unverified => some 0
  | .closed => some 1
  | .verified => some 2
  | .free | .reclaiming | .retired => none

/-- A position of a superblock becomes vacant by a failure of its die. -/
def State.vacate (s : State) (id pos : Nat) : State :=
  let b := s.sb id
  if b.st = SbState.retired ∨ b.vacant.getLsbD pos = true then s
  else
    let s := (s.onSb id fun b => { b with vacant := b.vacant ||| posBit pos }).memberRetired id pos 2
    if b.st = SbState.free ∧ 2 < (positions (s.sb id).vacant).length then
      (s.onSb id fun b => { b with st := .retired }).raise 371 (item4 id)
    else s

/-- The die of a group at a position has failed: GROUP_DEGRADED, and its member of each of the 2,544 superblocks is
vacant. -/
def State.degradeGroup (s : State) (group pos dieItem : Nat) : State :=
  let s := s.raise 374 (item1 group ++ item1 (4 * pos + group % 4) ++ item1 dieItem)
  let s := s.onFtl fun t => { t with degraded := (t.degraded ++ [group]).eraseDups }
  (List.range 2544).foldl (fun s k => s.vacate (group * 4096 + k) pos) s

/-- The superblocks of some groups that hold data join the evacuation, in the order of R402; within one of its three classes those
of earlier failures come first, then the lower ID (DESIGN CHOICE, log 196). -/
def State.evacuateGroups (s : State) (groups : List Nat) : State :=
  let ids := (s.ftl.sbs.filter fun e => groups.contains (e.1 / 4096) && (evacRank e.2).isSome).map (·.1)
  let all := (s.ftl.evacuate ++ ids).eraseDups
  let ranked := [0, 1, 2].flatMap fun n => all.filter fun i => decide (((evacRank (s.sb i)).getD 2) = n)
  let s := s.onFtl fun t => { t with evacuate := ranked }
  ((ids.filter fun i => decide ((s.sb i).st = .opened)).foldl State.cutSb s).pumpCopies.sparesFell

/-- DIE_FAILED (R386, R402). -/
def execDieFailed (channel die : Nat) (s : State) : Host.Outcome State Fault Refusal :=
  .next (guardStep (!bitOf (s.fld (Reg.FCH_CH_STATUS_DIE_FAILED channel)) die) s fun s =>
    let group := 4 * die + channel % 4
    let failed := s.fld (Reg.FCH_CH_STATUS_DIE_FAILED channel) + 2 ^ die
    let s := (s.setFld (Reg.FCH_CH_STATUS_DIE_FAILED channel) failed).raise (640 + 6 * channel + 4) (item1 die)
    (s.degradeGroup group (channel / 4) die).evacuateGroups [group])

/-- A channel is taken offline: each of its dies is handled as failed (R402, R519). -/
def State.channelOffline (s : State) (channel : Nat) : State :=
  let groups := (List.range 24).map fun die => 4 * die + channel % 4
  let s := s.setFld (Reg.FCH_CH_STATUS_OFFLINE channel) 1
  (groups.foldl (fun s g => s.degradeGroup g (channel / 4) 0xFF) s).evacuateGroups groups

/-- CHANNEL_FAULT with its cause (R386, R519): a second one while the first is not acknowledged takes the channel
offline. -/
def State.channelFaulted (s : State) (channel cause : Nat) : State :=
  let src := 640 + 6 * channel + 5
  let again := s.flt.sticky.getLsbD src
  let s := s.raise src (item1 cause)
  if again && !s.chOffline channel then s.channelOffline channel else s

/-- CHANNEL_FAULT (R519). -/
def execChannelFault (channel cause : Nat) (s : State) : Host.Outcome State Fault Refusal :=
  .next (s.channelFaulted channel cause)

/-- HANG_DETECTED (R518, R519): an operation of a block, or a credit pool, has made no progress for HANG_MS. The unit
that VAL and CIP name, and the number that names a sending block, are free values. -/
def execHangDetected (what : Hang) (s : State) : Host.Outcome State Fault Refusal :=
  .next (match what with
  | .block (.fch n) => s.channelFaulted n 1
  | .block b =>
    if b = .val ∨ b = .cip then
      let (u, s) := s.drawNat
      s.raise (EngBlock.errorSource b) (item1 u)
    else s.raise (EngBlock.errorSource b) []
  | .pool queue cls channel =>
    let (c, f) := s.pool queue channel cls
    guardStep (decide (c = 0) && decide (0 < f)) s fun s =>
      let (b, s) := s.drawNat
      s.raise 6 (item1 queue ++ item1 cls ++ item1 channel ++ item1 b))

end Sys2Proof.Machine
end

