-- ==== Sys2Proof/Machine/LedgerSteps.lean ====
section
/-! DEFINITION. The Ledger's own work (chapter 10): line writes, wear rotation, failures of its storage, the gauge, and the
checkpoints of usage and maps (R385, R606). -/

namespace Sys2Proof.Machine

/-! ## Line writes (R330, R332, R338, R340, R540) -/

/-- Lines that name storage (R331). -/
def ledgerLinesTotal : Nat := 0x3D40000

/-- Whether a line belongs to a class with one copy: the event recorder (R336). -/
def singleCopy (line : Nat) : Bool := classOfLine line = 3

/-- The logical line of copy A of the pair that a line belongs to (R332). -/
def copyAOf (line : Nat) : Nat := if singleCopy line || decide (line % 256 < 128) then line else line - 128

/-- One copy of a line is written: it counts in its group, and three failed write-verifies in a row retire it. -/
def State.writeCopy (s : State) (line fails : Nat) : State :=
  let s := s.countGroup (line % 256) 1
  if 3 ≤ fails then s.retireLine line else s

/-- The bytes that make a segment durable at a line, when the command is writing the segment there (R274): for copy A what an
armed swatch has left, for copy B those with the true check values (R293). -/
def State.durLine (s : State) (ref : DurRef) (line : Nat) : Option (Bytes × Bytes) :=
  match s.cmd? ref.cmd with
  | none => none
  | some c =>
    match tget c.work ref.seg with
    | some (.writing g) =>
      match g.loc with
      | .ledger l =>
        let i := pairIndex line - pairIndex l
        let part (g : Seg) : Bytes := padTo 64 (slice g.bytes (64 * i) 64)
        if pairIndex l ≤ pairIndex line ∧ i < segUnits g.payload.length then
          some (part g, part (g.close (s.segFold ref.cmd ref.seg)))
        else none
      | .flash _ _ _ => none
    | _ => none

/-- Whether a copy of a line can be written: its device works, and it has storage (R349, R351). -/
def State.copyOpen (s : State) (line dev : Nat) : Bool := s.deviceWorks dev && !s.lineStuck line

/-- Whether LDG can write some copy of the line that copy A names; a recorder line of a failed device lies on the survivor
(R349). -/
def State.lineOpen (s : State) (a : Nat) : Bool :=
  if singleCopy a then (s.deviceWorks 0 || s.deviceWorks 1) && !s.lineStuck a else s.copyOpen a 0 || s.copyOpen (a + 128) 1

/-- Whether the entry of a staged segment has been sent to LDG: VAL had a credit for it (R18, R22). -/
def State.lineSent (s : State) (ref : DurRef) : Bool :=
  match s.cmd? ref.cmd with
  | none => true
  | some c => s.reached 7 c.runClass.code ref.cmd (c.work.filter fun e => decide (e.1 < ref.seg) && match e.2 with
      | .writing g => (match g.loc with | .ledger _ => true | .flash _ _ _ => false)
      | _ => false).length

/-- LEDGER_LINE_WRITE (R330, R332, R340): the copies that work are written whole. `ref` names the segment that is durable
with this line. -/
def execLedgerLineWrite (line : Nat) (data : Bytes) (failsA failsB : Nat) (ref : Option DurRef) (s : State) :
    Host.Outcome State Fault Refusal :=
  let a := copyAOf line
  .next (guardStep (s.ledgerOpen && decide (line < ledgerLinesTotal) && s.lineOpen a
      && (ref.map s.lineSent).getD true) s fun s =>
    let seg := ref.bind fun r => s.durLine r a
    let raw := seg.getD (padTo 64 data, padTo 64 data)
    let s := s.onLdg fun l => { l with
      lines := if allZero raw.1 && allZero raw.2 then tdel l.lines a else tset l.lines a raw }
    let s := if singleCopy a || s.copyOpen a 0 then (s.swatchWrite 2 a).writeCopy a failsA else s
    let s := if !singleCopy a && s.copyOpen (a + 128) 1 then (s.swatchWrite 2 (a + 2 ^ 63)).writeCopy (a + 128) failsB else s
    match ref, seg with
    | some r, some _ => s.makeDurable r.cmd r.seg
    | _, _ => s)

/-- GAP_INTERVAL: values below 32 act as 32. -/
def State.gapInterval (s : State) : Nat := max 32 (s.fld Reg.LDG_ROT_CFG_GAP_INTERVAL)

/-- GAP_MOVE (R330, R337, R339): the writes beyond the interval count toward the next move. -/
def execGapMove (group : Nat) (s : State) : Host.Outcome State Fault Refusal :=
  .next (guardStep (s.ledgerOpen && decide (group < 256) && !(s.lgroup group).failed
      && decide (s.gapInterval ≤ (s.lgroup group).sinceMove)) s fun s =>
    s.onLgroup group fun x => { x.step with sinceMove := x.sinceMove - s.gapInterval })

/-! ## Failures (R349 to R351) -/

/-- LEDGER_GROUP_FAILED (R349, R350): its recorder lines are lost and REC falls back; then its lines move to spares of the
other groups of the device. -/
def execLedgerGroupFailed (group : Nat) (s : State) : Host.Outcome State Fault Refusal :=
  .next (guardStep (decide (group < 256) && !(s.lgroup group).failed && s.deviceWorks (group / 128)) s fun s =>
    ((s.groupGone group).enterFallback 4096 0).moveGroup group)

/-- The recorder lines of a failed device move to spare lines of the survivor, the low indices of each group first;
LEDGER_SPARE_EXHAUSTED when they do not suffice, or no device is left (R349; DESIGN CHOICE, log 186). -/
def State.moveRecorder (s : State) (device : Nat) : State :=
  let other := 1 - device
  let works := s.deviceWorks other
  let left := if works then s.sparesLeft other else 0
  let s := if left < 524288 then
      (((if works then deviceGroups device else List.range 256).foldl (fun s g => s.onLgroup g fun x => { x with
        stuckFrom := min x.stuckFrom (245760 + left / 128) }) s).raise 518 (item1 (128 * other)))
    else s
  if works then s.takeSpares other 524288 else s

/-- LEDGER_DEVICE_FAILED (R349 to R351): single mode; the recorder lines of the device are lost, REC falls back, and they move
to the survivor's spares. -/
def execLedgerDeviceFailed (device : Nat) (s : State) : Host.Outcome State Fault Refusal :=
  .next (guardStep (decide (device < 2) && s.deviceWorks device) s fun s =>
    let s := (s.onLdg fun l => if device = 0 then { l with dev0Failed := true } else { l with dev1Failed := true }).raise 516
      (item1 device)
    let alone := !s.deviceWorks (1 - device)
    let count := if alone then 1048576 else 524288
    let s := s.regionLost (fun l => alone || decide (l % 256 / 128 = device)) (0x3C00000 + if alone then 0 else 128 * device) count
    (s.enterFallback count 1).moveRecorder device)

/-! ## The gauge (R342, R345) -/

/-- GAUGE_REFILL (R342): one token in every 32 FCLK while LEVEL is below 2^32; then the waiting metadata is served. -/
def execGaugeRefill (s : State) : Host.Outcome State Fault Refusal :=
  .next (guardStep (s.ldg.ready && decide (s.ldg.level < gaugeMax)) s fun s =>
    (s.onLdg fun l => { l with level := l.level + 1 }).serveMeta s.ldg.metaQueue.length)

/-! ## Checkpoints (R385, R606) -/

/-- Write the usage checkpoint: 512 paired lines and a header (R606). -/
def State.checkpointUsage (s : State) : State :=
  (s.onKept fun k => { k with usageCkpt := (k.nextJseq - 1, s.sch.usage) }).keepMeta 7 0 513

/-- USAGE_CHECKPOINT (R606): while usage has changed. -/
def execUsageCheckpoint (s : State) : Host.Outcome State Fault Refusal :=
  .next (guardStep (s.ldg.ready && decide (s.ldg.kept.usageCkpt.2 ≠ s.sch.usage) && !s.blockInReset .sch) s
    State.checkpointUsage)

/-- Pieces are numbered in the order of R482: the skein map, then the stitch-map region of R34, which ends with the directory
page index (R375; DEDUCED, log 170). -/
def indexPiece : Nat := 5767168 - 131072

/-- The 4,096 bytes of a map piece as the maps stand (R365, R366, R375, R385). -/
def State.pieceBytes (s : State) (p : Nat) : Bytes :=
  if p < stitchPiece then
    (List.range 512).flatMap fun i => leBytes 8 (((tget s.ftl.skeins (512 * p + i)).map Skein.entry).getD 0)
  else if p < indexPiece then
    [0, 1].flatMap fun t =>
      match s.ftl.skeins.find? fun e => e.2.fine && decide (e.2.table = 2 * (p - stitchPiece) + t) with
      | some (_, k) => (List.range 256).flatMap fun i => leBytes 8 (((tget k.stitches i).map stitchEntry).getD 0)
      | none => zeros 2048
  else (List.range 512).flatMap fun i =>
    leBytes 8 (((tget s.ftl.pageIndex (512 * (p - indexPiece) + i)).map pageEntry).getD 0)

/-- The piece that a journal record changes (R384). -/
def State.pieceOf (s : State) (kind target : Nat) : Option Nat :=
  if kind = 0x10 ∨ kind = 0x12 then some (target / 512)
  else if kind = 0x11 then (tget s.ftl.skeins target).bind fun k => if k.fine then some (stitchPiece + k.table / 2) else none
  else if kind = 0x14 then some (indexPiece + target / 512)
  else none

/-- Bring a stream's pointer to the start of a codeword (R482). -/
def State.alignStream (s : State) (stream : Nat) : Option State :=
  match tget s.ftl.streams stream with
  | none => some s
  | some st =>
    let at_ := (st.byte + 4095) / 4096 * 4096
    if at_ < 1048576 ∨ (st.skein + 1) % 64 = 0 then
      some (s.setStream stream { st with byte := at_ })
    else s.mapSkein stream (st.skein + 1)

/-- Write one piece to a codeword of the META stream, and its entry of the piece directory (R385, R482). -/
def State.writePiece (s : State) (p : Nat) : Option State :=
  (s.alignStream 3).bind fun s => (s.allocFlash 3 64).map fun (loc, s) =>
    let b := s.pieceBytes p
    let s := s.putBytes loc b b
    let s := match tget s.ldg.kept.pieces p with
      | some (old, _) => s.releaseLoc old
      | none => s
    (s.onKept fun k => { k with pieces := tset k.pieces p (loc, crc32c b) }).keepMeta 4 p 1

/-- A checkpoint of the maps (R385, R482, R606): the pieces changed by records below the floor, and those that have changed
without a record, are in META, the usage checkpoint is written, and the journal lines below the floor are free. -/
def State.checkpointMaps (s : State) : State :=
  let s := s.checkpointUsage
  let floor := s.ldg.kept.usageCkpt.1 + 1
  let below := s.ldg.kept.journal.filter fun j => decide (j.jseq < floor)
  let ps := ((below.filterMap fun j => s.pieceOf j.kind j.target) ++ s.ftl.dirty).eraseDups
  match ps.foldl (fun (m : Option State) p => m.bind fun s => s.writePiece p) (some (s.onFtl fun t => { t with dirty := [] })) with
  | none => s
  | some s =>
    let s := (s.flushStream 3).journalMap 0x15 floor (leBytes 8 floor)
    s.onKept fun k => { k with
      journal := k.journal.filter fun j => decide (floor ≤ j.jseq), mapFloor := floor }

/-- MAP_CHECKPOINT (R385, R482, R606). -/
def execMapCheckpoint (s : State) : Host.Outcome State Fault Refusal :=
  .next (guardStep (s.ftl.mapReady && !s.blockInReset .ftl) s State.checkpointMaps)

end Sys2Proof.Machine
end

