-- ==== Sys2Proof/Machine/OwnerDir.lean ====
section
/-! DEFINITION. The owner directives (R569, R570), from ring 9 or the management port. -/

namespace Sys2Proof.Machine

/-- The answer to an owner directive: done with its RESULT, or refused. -/
def State.ownerAnswer (s : State) (via : OwnerVia) (ok : Bool) (result : Bytes) : State :=
  match via with
  | .ring d => s.finish 9 d (if ok then esDone else esRefused) result
  | .mgmt => s.send (.mgmt (if ok then .ok else .accessDenied) 0 (if ok then result else []))

/-- An owner directive, when it has its turn on the ring that it came by (R457). -/
def State.ownerTurn (s : State) (via : OwnerVia) (f : State → State) : State :=
  guardStep (match via with
    | .ring d => !s.early 9 d
    | .mgmt => true) s f

/-- Use a reference of a purpose: the requester of OWNER_AUTH_FAILED is 2 for the management port; the directives of
ring 9 name none, so that the item is a free value there (log 26). -/
def State.ownerRef (s : State) (via : OwnerVia) (purpose ref : Nat) : Bool × State :=
  match via with
  | .mgmt => s.useRef 2 purpose ref
  | .ring _ =>
    let (r, s) := s.drawNat
    s.useRef r purpose ref

/-- OWNER_CHALLENGE (R570): a fresh challenge replaces the requester's old one. -/
def execOwnerChallenge (via : OwnerVia) (requester : Nat) (s : State) : Host.Outcome State Fault Refusal :=
  .next (s.ownerTurn via fun s =>
    let (c, s) := s.drawRandom 16
    (s.onSec fun x => { x with challenges := tset x.challenges requester (c, s.flt.time) }).ownerAnswer via true c)

/-- The response that authorises a purpose (R570). -/
def ownerResponse (owner challenge : Bytes) (purpose : Nat) : Bytes :=
  padTo 32 (kmac256 owner (ascii "Pennu owner") (challenge ++ leBytes 1 purpose ++ driveUid) 32)

/-- A requester's challenge, while it is valid: 60 s. -/
def State.challengeOf (s : State) (requester : Nat) : Option Bytes :=
  match tget s.sec.challenges requester with
  | some (c, t) => if s.flt.time ≤ t + authLife then some c else none
  | none => none

/-- A new authorisation reference: 4 bytes that no current reference has. -/
def State.newRef (s : State) (purpose : Nat) : Nat × State :=
  let (n, s) := s.drawNat
  let n := n % 2 ^ 32
  let ref := if (tget s.sec.refs n).isNone then n
    else ((List.range (s.sec.refs.length + 1)).find? fun i => (tget s.sec.refs i).isNone).getD 0
  (ref, s.onSec fun x => { x with refs := tset x.refs ref (purpose, s.flt.time) })

/-- OWNER_AUTH (R570): the right response to the requester's valid challenge returns a reference. A response without a valid
challenge, or a wrong one, is refused. -/
def execOwnerAuth (via : OwnerVia) (requester purpose : Nat) (response : Bytes) (s : State) :
    Host.Outcome State Fault Refusal :=
  .next (s.ownerTurn via fun s => match s.ldg.kept.ownerKey, s.challengeOf requester with
  | some k, some c =>
    if ownerResponse k c purpose = response then
      let (ref, s) := s.newRef purpose
      s.ownerAnswer via true (leBytes 4 ref)
    else (s.raise 1099 (item1 requester ++ item1 purpose)).ownerAnswer via false []
  | _, _ => (s.raise 1099 (item1 requester ++ item1 purpose)).ownerAnswer via false [])

/-- IMPORT_KEY is placed in slot 0x401 (R298, R569); after an alarm the slots stay EMPTY until the next chip reset (R327). -/
def State.placeImportKey (s : State) : State :=
  match s.ldg.kept.ownerKey with
  | some k => if s.cip.alarm then s else s.onSlot 0x401 fun x => { x with st := .loaded, root := importKey k }
  | none => s

/-- Install an owner key (R569): a security-state line, and the keys derived from it; IMPORT_KEY is a new ROOT in its slot, and
KEY_SERIAL rises (R299). -/
def State.setOwner (s : State) (key : Bytes) : State :=
  let s := ((s.onKept fun k => { k with ownerKey := some (padTo 32 key) }).keepSecure 12 0).placeImportKey
  let s := s.onSlot 0x401 fun x => { x with serial := min 0xFFFF (x.serial + 1), gen := (x.gen + 1) % 65536, epoch := 0, counter := 0 }
  s.recordSlot 0x401

/-- OWNER_SET (R569, R570): from the management port only; an owned drive needs a reference of purpose 2. -/
def execOwnerSet (via : OwnerVia) (key : Bytes) (ref : Nat) (s : State) : Host.Outcome State Fault Refusal :=
  .next (s.ownerTurn via fun s => match via with
  | .ring _ => s.ownerAnswer via false []
  | .mgmt =>
    if s.ldg.kept.ownerKey.isNone then (s.setOwner key).ownerAnswer via true []
    else
      let (ok, s) := s.ownerRef via 2 ref
      if ok then (s.setOwner key).ownerAnswer via true [] else s.ownerAnswer via false [])

/-- OWNER_LOCK (R570): setting needs no reference; clearing needs one of purpose 3. -/
def execOwnerLock (via : OwnerVia) (set : Bool) (ref : Nat) (s : State) : Host.Outcome State Fault Refusal :=
  .next (s.ownerTurn via fun s =>
    if set then (s.onSec fun x => { x with ownerLock := true }).ownerAnswer via true []
    else
      let (ok, s) := s.ownerRef via 3 ref
      if ok then (s.onSec fun x => { x with ownerLock := false }).ownerAnswer via true []
      else s.ownerAnswer via false [])

/-- OWNER_ERASE (R324, R570): alarm source 4 with a reference of purpose 4. -/
def execOwnerErase (via : OwnerVia) (ref : Nat) (s : State) : Host.Outcome State Fault Refusal :=
  .next (s.ownerTurn via fun s =>
    let (ok, s) := s.ownerRef via 4 ref
    if ok then (s.cipAlarm 16).ownerAnswer via true [] else s.ownerAnswer via false [])

end Sys2Proof.Machine
end

