-- ==== Sys2Proof/Machine/PeerDir.lean ====
section
/-! DEFINITION. The directives of the peer ring (R443), of the tenant ring (R464), and CHECK_COMPUTE (R292). -/

namespace Sys2Proof.Machine

/-! ## Peer directives (R443) -/

/-- A refused directive of the peer ring. -/
def State.peerRefused (s : State) (d : Dir) (code : Nat) : State := (s.raise 1035 (item1 code)).finish 6 d esRefused []

/-- A peer entry (R419); reserved bits are ignored. -/
def parsePeer (b : Bytes) : PeerEntry :=
  let fl := fieldAt b 4 2
  { pstate := fieldAt b 2 1, domain := fieldAt b 3 1, ipv6 := bitOf fl 0, sealTransit := bitOf fl 1,
    uid := slice b 8 16, addrA := slice b 24 16, addrB := slice b 40 16 }

/-- Whether a new entry relinks the peer: its address, domain or DRIVE_UID changed, or it left ENABLED (R613). -/
def relinks (old new : PeerEntry) : Bool :=
  decide (old.pstate = 1) && (decide (new.pstate ≠ 1) || decide (old.domain ≠ new.domain) || decide (old.uid ≠ new.uid)
    || decide (old.addrA ≠ new.addrA) || decide (old.addrB ≠ new.addrB) || decide (old.ipv6 ≠ new.ipv6))

/-- The queue pairs of a peer are given up, and it is DOWN (R422, R613). -/
def State.unlinkPeer (s : State) (peer : Nat) : State :=
  ((s.peerCtxs peer).foldl (fun s x => (s.send (.cmDreq x 0 0)).freeCtx x) s).peerDown peer

/-- PEER_WRITE (R419, R420, R443, R613). -/
def execPeerWrite (d : Dir) (entry : Bytes) (s : State) : Host.Outcome State Fault Refusal :=
  let b := padTo 64 entry
  let id := fieldAt b 0 2 % 4096
  let e := parsePeer b
  .next (s.setUp 6 d fun s => if 2 < e.pstate ∨ 47 < e.domain then s.peerRefused d 1
    else
      let s := match tget s.peer.entries id with
        | some old => if relinks old e then s.unlinkPeer id else s
        | none => s
      (s.onPeer fun p => { p with entries := tset p.entries id e }).finish 6 d esDone [])

/-- A placement entry (R425); none when VALID = 0. -/
def parsePlace (w : W64) : Option Place :=
  let v := w.toNat
  if bitOf v 63 then some ⟨[bitsOf v 11 0, bitsOf v 23 12, bitsOf v 35 24].take (bitsOf v 37 36)⟩ else none

/-- Load placement slots from a first one on. -/
def loadPlaces (t : Tbl Place) (first : Nat) : List W64 → Tbl Place
  | [] => t
  | w :: ws => loadPlaces (match parsePlace w with
    | some p => tset t first p
    | none => tdel t first) (first + 1) ws

/-- PLACE_WRITE (R425, R443). -/
def execPlaceWrite (d : Dir) (first : Nat) (entries : List W64) (s : State) : Host.Outcome State Fault Refusal :=
  .next (s.setUp 6 d fun s => if entries.length < 1 ∨ 4096 < entries.length ∨ 65536 < first + entries.length then s.peerRefused d 2
    else (s.onPeer fun p => { p with places := loadPlaces p.places first entries }).finish 6 d esDone [])

/-- TEMPLATE_WRITE (R426, R443). -/
def execTemplateWrite (d : Dir) (number : Nat) (record : Bytes) (s : State) : Host.Outcome State Fault Refusal :=
  let b := padTo 8 record
  let depth := fieldAt b 0 1
  let policy := fieldAt b 1 1
  let t := fieldAt b 2 2
  .next (s.setUp 6 d fun s => if number < 1 ∨ 255 < number ∨ depth < 1 ∨ 3 < depth ∨ 1 < policy ∨ 1000 < t then s.peerRefused d 3
    else (s.onPeer fun p => { p with
      templates := tset p.templates number ⟨depth, decide (policy = 1), t, bitOf (fieldAt b 4 1) 0⟩ }).finish 6 d esDone [])

/-- DOMAIN_LOAD (R316, R443, R469): by KEY_IMPORT into the domain's slot; it waits for RESTORE_DONE. -/
def execDomainLoad (d : Dir) (domain : Nat) (wrapped : Bytes) (s : State) : Host.Outcome State Fault Refusal :=
  .next (s.setUp 6 d fun s => if 47 < domain then s.peerRefused d 4
    else if !s.cip.restoreDone && !s.cip.alarm then
      s.onCip fun c => { c with waitRestore := c.waitRestore ++ [(d, domain, wrapped)] }
    else s.keyDirective 6 d 2 (domainSlot domain) wrapped)

/-! ## RESYNC_RANGE (R443) -/

/-- The logical bytes of a stored segment, when its local copy passes R285; a check that fails begins a repair. -/
def State.segBytes (s : State) (r : DirRec) (variant : Nat) (v : Variant) (i : Nat) (g : Seg) : Option Bytes × State :=
  let (lines, s) := s.readLines (ledgerLines g.loc (segUnits g.payload.length))
  let fails (s : State) (check : Nat) : Option Bytes × State := (none, s.upkeepRepair r variant v i g check)
  let decoded (s : State) (p : Bytes) : Option Bytes × State := match g.decode p with
    | some b => (some b, s)
    | none => fails s 1
  match if lines then s.checkRead g (locator r.kh variant i) true else .lost with
  | .rebuildFirst => (none, s)
  | .lost => fails s 3
  | .badCheck => fails s 0
  | .clean =>
    match g.sealWord with
    | none => decoded s g.payload
    | some w =>
      match s.openBytes (s.slot w.slot).gen w (g.aad r.kh variant w.slot i) g.payload g.tag with
      | (.plain p, s) => decoded s p
      | (.tagFailed, s) => fails s 2
      | (.keyErased, s) => (none, s)

/-- The logical bytes of a variant; none when a segment cannot be read. -/
def State.variantBytes (s : State) (r : DirRec) (variant : Nat) (v : Variant) : Option Bytes × State :=
  (List.range (segCount v.length)).foldl (fun acc i => match acc.1, tget v.segs i with
    | none, _ => acc
    | some b, none => (some (b ++ zeros (segLen v.length i)), acc.2)
    | some b, some g =>
      let (x, s) := acc.2.segBytes r variant v i g
      (x.map (b ++ ·), s)) (some [], s)

/-- The CHAIN_WRITE that copies a variant: a PUT with its stored version and PRIOR_VERSION 0. The STORE byte is built
from what the variant records (R74, R213), with the class of the walk. -/
def resyncMsg (r : DirRec) (variant : Nat) (v : Variant) (path : List Nat) (best : Bool) (b : Bytes) : PeerMsg :=
  { blankMsg with
    hop := 1, depth := path.length, template := v.template, policyBest := best, path := path, version := v.version,
    keyHash := r.kh, wop := 2, variant := variant, ownerTenant := r.owner,
    store := 3 + (if v.parityP then 4 else 8) + (if v.sealed then 16 else 0) + (if v.compressed then 32 else 0),
    length := v.length, keyLen := r.key.length, key := r.key, cls := some 3, data := b }

/-- Send one variant to the first peer of its path, and whether it was sent: not without a template or a path, not when it
cannot be read, where a failed check has begun a repair (R285), and not when it cannot be sealed for transit (R303). -/
def State.resyncVariant (s : State) (r : DirRec) (variant : Nat) (v : Variant) : Bool × State :=
  match tget s.peer.templates v.template with
  | none => (false, s)
  | some t =>
    match s.headPath r.kh t.depth with
    | [] => (false, s)
    | p :: ps =>
      match s.variantBytes r variant v with
      | (some b, s) => ((s.transitBar p b.length).isNone, s.sendPeer p 1 (resyncMsg r variant v (p :: ps) t.best b))
      | (none, s) => (false, s)

/-- Send every filled variant of a key, and whether one was sent. -/
def State.resyncKey (s : State) (r : DirRec) : Bool × State :=
  r.variants.foldl (fun (acc : Bool × State) e =>
    if e.2.template = 0 then acc
    else
      let (sent, s) := acc.2.resyncVariant r e.1 e.2
      (acc.1 || sent, s)) (false, s)

/-- RESYNC_RANGE (R443): walks the range in index order and returns the keys sent. It waits while forwarding is
suspended (R440). -/
def execResyncRange (d : Dir) (firstKh lastKh : W64) (s : State) : Host.Outcome State Fault Refusal :=
  .next (s.setUp 6 d fun s => if lastKh < firstKh then s.peerRefused d 5
    else if s.peer.suspended then s
    else
      let rs := s.idx.dir.filter fun r => decide (firstKh ≤ r.kh) && decide (r.kh ≤ lastKh)
      let (n, s) := rs.foldl (fun (acc : Nat × State) r =>
        let (sent, s) := acc.2.resyncKey r
        (acc.1 + (if sent then 1 else 0), s)) (0, s)
      s.finish 6 d esDone (leBytes 8 n))

/-! ## Tenant directives (R464) -/

/-- A tenant becomes DISABLED: its queue pairs enter ERROR with TENANT_REMOVED, those in CONNECTING are free (R99,
R125). -/
def State.removeTenant (s : State) (tenant : Nat) : State :=
  let mine := (s.nfe.qps.filter fun e => decide (e.2.conn.tenant = tenant) && !e.2.conn.admin && e.2.conn.peer.isNone).map
    (·.1)
  mine.foldl (fun s x => (s.freeConnecting x).qpError x 0x16) s

/-- TENANT_WRITE (R64, R68, R464): the usage fields stay. -/
def execTenantWrite (d : Dir) (record : Bytes) (s : State) : Host.Outcome State Fault Refusal :=
  let b := padTo 64 record
  let t := parseTenant b
  let id := tenantIdOf b
  .next (s.schDirective d fun s => if 2 < t.st then s.finish 7 d esRefused []
    else
      let s := s.onSch fun h => { h with tenants := tset h.tenants id t }
      let s := if t.st = 0 then s.removeTenant id else s
      s.finish 7 d esDone [])

/-- TENANT_READ (R464): the record with its usage fields. -/
def execTenantRead (d : Dir) (tenant : Nat) (s : State) : Host.Outcome State Fault Refusal :=
  .next (s.schDirective d fun s => if tenant < 1024 then s.finishExt 7 d (tenantBytes tenant (s.tenant tenant) (s.usageOf tenant)) []
    else s.finish 7 d esRefused [])

/-- SECRET_LOAD (R97, R464, R569): unwrapped under IMPORT_KEY, and refused while slot 0x401 is EMPTY. -/
def execSecretLoad (d : Dir) (tenant : Nat) (wrapped : Bytes) (s : State) : Host.Outcome State Fault Refusal :=
  .next (s.schDirective d fun s => match kwUnwrap (s.slot 0x401).root (padTo 40 wrapped) with
  | some k =>
    if tenant < 1024 ∧ (s.slot 0x401).st = .loaded then
      (s.onSch fun h => { h with secrets := tset h.secrets tenant (padTo 32 k) }).finish 7 d esDone []
    else s.finish 7 d esRefused []
  | none => s.finish 7 d esRefused [])

/-- SECRET_CLEAR (R464): ACTIVE queue pairs go on. -/
def execSecretClear (d : Dir) (tenant : Nat) (s : State) : Host.Outcome State Fault Refusal :=
  .next (s.schDirective d fun s => (s.onSch fun h => { h with secrets := tdel h.secrets tenant }).finish 7 d esDone [])

/-! ## CHECK_COMPUTE (R292) -/

/-- The bits of a 32-bit word in reverse order. -/
def reverse32 (w : W32) : W32 :=
  (List.range 32).foldl (fun (r : W32) i => if w.getLsbD i then r ||| ((1 : W32) <<< (31 - i)) else r) 0

/-- The check value of an algorithm with a fold (R279, R292): the fold meets the initial value in the form of the
table, and the reflected algorithm loads the result in reflected bit order. -/
def checkValue (algo : Nat) (fold : W64) (b : Bytes) : Nat :=
  match algo with
  | 0 => (crc32cOut (crc32cRun (reverse32 (crc32cInit ^^^ fold.setWidth 32)) b)).toNat
  | 1 => (crc64 fold b).toNat
  | _ => (crc16 (fold.setWidth 16) b).toNat

/-- CHECK_COMPUTE (R268, R292): a reserved ALGO and a length above 16 MiB are refused. -/
def execCheckCompute (d : Dir) (addr len algo : Nat) (fold : W64) (data : Bytes) (s : State) :
    Host.Outcome State Fault Refusal :=
  .next (s.setUp 2 d fun s => if 2 < algo ∨ 16777216 < len then
      (s.raise 389 (leBytes 8 addr ++ leBytes 4 len ++ leBytes 1 algo ++ zeros 3 ++ leBytes 8 fold.toNat)).finish 2 d
        esRefused []
    else if dramBytes < addr + len then s.finish 2 d esOperandFault []
    else
      let cls := SvcClass.ofCode (s.fld (Reg.ENG_RING_CFG_CLASS 2))
      guardStep (s.valTurn (decide (cls = .express)) 3) s fun s =>
        (s.grantVal cls 3).finish 2 d esDone (leBytes 8 (checkValue algo fold (padTo len data))))

end Sys2Proof.Machine
end

