-- ==== Sys2Proof/Machine/Relocate.lean ====
section
/-! DEFINITION. The moves of live objects that FTL makes on its own: packing of the Ledger into directory pages (R375 to R377), and
the relocation of thinly used skeins (R370). -/

namespace Sys2Proof.Machine

/-! ## Packing (R375 to R377) -/

/-- The range of a key hash in the directory page index (R375). -/
def rangeOf (kh : W64) : Nat := kh.toNat / 2 ^ 38

/-- A place some units further on (R364). -/
def locAfter (skein byte units len : Nat) : Loc :=
  let a := byte + 64 * units
  .flash (skein + a / 1048576) (a % 1048576) len

/-- Split records into directory pages of at most 1,023 lines after the header (R376). -/
def pagesOf (rs : List DirRec) : List (List DirRec) :=
  rs.foldl (fun ps r =>
    match ps.getLast? with
    | some p => if (p.map DirRec.lines).foldl (· + ·) 0 + r.lines ≤ 1023 then ps.dropLast ++ [p ++ [r]] else ps ++ [[r]]
    | none => [[r]]) []

/-- Lines of some records. -/
def linesOf (rs : List DirRec) : Nat := (rs.map DirRec.lines).foldl (· + ·) 0

/-- Map pages of a variant that a move writes again: some, and the index page above them (R372, R374). -/
def Variant.pagesAgain (v : Variant) (js : List Nat) : List Nat :=
  let data := (js.filter (· ≠ 512)).eraseDups
  data ++ (if 2048 < segCount v.length && !js.isEmpty then [512] else [])

/-- Write some map pages of a variant anew in the META stream; the old ones are dead (R374). -/
def State.rewriteMaps (s : State) (v : Variant) (kh : W64) (num : Nat) (js : List Nat) : Option (Variant × State) :=
  let ps := v.pagesAgain js
  (s.allocMaps v kh num ps v.maps).map fun (maps, s) => ({ v with maps := maps }, s.releaseMaps v ps)

/-- Whether the staged segments of a record pass the checks of R285: one that does not keeps the record on the Ledger. -/
def State.packReady (s : State) (r : DirRec) : Bool × State :=
  r.variants.foldl (fun (m : Bool × State) v => v.2.segs.foldl (fun (m : Bool × State) g =>
    if g.2.loc.isLedger then
      let (ok, s) := m.2.readOut1 (r, v.1, v.2, g.1, g.2)
      (m.1 && ok, s)
    else m) m) (true, s)

/-- Move the staged segments of a variant to the flash stream of its class, and to META the map pages that are staged or that
name what has moved (R374, R377 step 1); none when no space can be opened. -/
def State.packVariant (s : State) (kh : W64) (num : Nat) (v : Variant) : Option (Variant × State) :=
  let due := v.segs.filter fun e => e.2.loc.isLedger && !e.2.lost
  let segs := due.foldl (fun (m : Option (Tbl Seg × State)) e =>
    m.bind fun (t, s) => (s.allocFlash (qlcStream v.parityP) (segUnits e.2.payload.length)).map fun (loc, s) =>
      let (g, s) := s.writeSegAt e.2 loc (locator kh num e.1)
      (tset t e.1 g, (s.dropCheck e.2.loc).releaseLoc e.2.loc)) (some (v.segs, s))
  segs.bind fun (segs, s) =>
    let staged := (v.maps.filter fun e => e.2.isLedger).map (·.1)
    let named := if v.rootKind = 2 then due.map (·.1 / 2048) else []
    s.rewriteMaps { v with segs := segs } kh num (staged ++ named)

/-- Move everything staged of a record's variants. -/
def State.packRecord (s : State) (r : DirRec) : Option (DirRec × State) :=
  (r.variants.foldl (fun (m : Option (Tbl Variant × State)) e =>
    m.bind fun (t, s) => (s.packVariant r.kh e.1 e.2).map fun (v, s) => (tset t e.1 v, s)) (some (r.variants, s))).map
    fun (vs, s) => ({ r with variants := vs }, s)

/-- A record has moved to a directory page: its old place is dead, its slot and mirror entry follow, and its commit line is
written (R215, R377). -/
def State.recordMoved (s : State) (old r : DirRec) : State :=
  let s := s.moveRecord (some old) r
  (s.commitLine 1 r r.version r.owner).drawMeta (s.pairLines 1)

/-- The records of a page lie one after another behind its header (R376). -/
def State.placeRecords (s : State) (skein byte : Nat) : Nat → List (DirRec × DirRec) → State
  | _, [] => s
  | at_, (old, r) :: rest =>
    (s.recordMoved old { r with loc := locAfter skein byte at_ r.lines }).placeRecords skein byte (at_ + r.lines) rest

/-- Begin a new run of the META stream when the present one has no room for some units (R364). -/
def State.roomInRun (s : State) (units : Nat) : Option State :=
  match tget s.ftl.streams 3 with
  | none => s.newRun 3
  | some st => if 64 * units ≤ ((st.skein / 64 + 1) * 64 - st.skein) * 1048576 - st.byte then some s else s.newRun 3

/-- The initial value of a directory page's PAGE_CRC: KH_BASE xor PAGE_NO (R376). -/
def dirFold (x no : Nat) : W64 := BitVec.ofNat 64 (x * 2 ^ 38) ^^^ BitVec.ofNat 64 no

/-- A directory page: its header and its records (R376). -/
def dirPage (x no count : Nat) (rs : List DirRec) : Bytes :=
  let body := zeros 40 ++ rs.flatMap DirRec.bytes
  leBytes 8 (x * 2 ^ 38) ++ leBytes 1 no ++ leBytes 1 count ++ leBytes 2 rs.length ++ leBytes 4 (24 + body.length)
    ++ leBytes 8 (crc64 (dirFold x no) body).toNat ++ body

/-- Write one directory page of a range: its header counts no live unit. -/
def State.writePage (s : State) (x no count : Nat) (p : List (DirRec × DirRec)) : Option (Nat × State) :=
  match s.allocFlash 3 (1 + linesOf (p.map (·.2))) with
  | some (.flash skein byte units, s) =>
    let b := dirPage x no count (p.map (·.2))
    let s := s.putObject (.flash skein byte units) 5 (dirFold x no) b b
    some (skein * 2 ^ 20 + byte, (s.placeRecords skein byte 1 p).subLive skein byte 1)
  | _ => none

/-- Write the pages of a range back to back into the META stream (R375, R377 step 2); the index entry names the first. -/
def State.writeRange (s : State) (x : Nat) (pages : List (List (DirRec × DirRec))) : Option State :=
  let units := (pages.map fun p => 1 + linesOf (p.map (·.2))).foldl (· + ·) 0
  let written := pages.foldl (fun (m : Option (List Nat × State)) p =>
    m.bind fun (l, s) => (s.writePage x l.length pages.length p).map fun (a, s) => (l ++ [a], s))
    ((s.roomInRun units).map fun s => ([], s))
  match written with
  | some (a :: _, s) =>
    some ((s.onFtl fun t => { t with pageIndex := tset t.pageIndex x (a, pages.length) }).journalMap 0x14 x
      (leBytes 8 (pageEntry (a, pages.length))))
  | _ => none

/-- Pages of at most what one run can hold back to back: 63 pages (R375). -/
def maxPages : Nat := 63

/-- The records of a range that its pages would hold: those they hold, and some of the Ledger (R376, R377). -/
def State.rangeRecs (s : State) (x : Nat) (keys : List Bytes) : List DirRec :=
  s.idx.dir.filter fun r => decide (rangeOf r.kh = x) && (pageHeld r || keys.contains r.key)

/-- Of some keys those whose records the pages of a range have room for; the excess stays in the Ledger (R377). -/
def State.keysFit (s : State) (x : Nat) (keys : List Bytes) : List Bytes :=
  keys.foldl (fun ks k => if (pagesOf (s.rangeRecs x (ks ++ [k]))).length ≤ maxPages then ks ++ [k] else ks) []

/-- Pack a record that goes from the Ledger to a page; one that a page holds stays as it is. -/
def State.packOne (s : State) (r : DirRec) : Option (DirRec × State) := if pageHeld r then some (r, s) else s.packRecord r

/-- Write the pages of a range anew with some records of the Ledger merged in, and program what has been written (R377); none
when no space can be opened. -/
def State.packRange (s : State) (x : Nat) (keys : List Bytes) : Option State :=
  let packed := (pagesOf (s.rangeRecs x keys)).foldl (fun (m : Option (List (List (DirRec × DirRec)) × State)) p =>
    m.bind fun (ps, s) =>
      (p.foldl (fun (m : Option (List (DirRec × DirRec) × State)) r =>
        m.bind fun (l, s) => (s.packOne r).map fun (q, s) => (l ++ [(r, q)], s)) (some ([], s))).map
        fun (l, s) => (ps ++ [l], s)) (some ([], s))
  (packed.bind fun (ps, s) => s.writeRange x ps).map fun s => ((s.flushStream 1).flushStream 2).flushStream 3

/-- Pack some Ledger-held keys of a range, as far as their segments pass and the pages have room. -/
def State.packKeys (s : State) (x : Nat) (rs : List DirRec) : State :=
  let (keys, s) := rs.foldl (fun (m : List Bytes × State) r =>
    let (ok, s) := m.2.packReady r
    (if ok then m.1 ++ [r.key] else m.1, s)) ([], s)
  let keys := s.keysFit x keys
  if keys.isEmpty then s else (s.packRange x keys).getD s

/-! ## Moves that wait at a gate (R289, R370, R377) -/

/-- Whether a move of a key waits at its gate. -/
def State.moveWaits (s : State) (key : Bytes) (skein : Option Nat) : Bool :=
  s.sch.gate.any fun g => match g.move with
    | some (k, _, n) => decide (k = key) && decide (n = skein)
    | none => false

/-- A move of a key joins its gate, behind the writes that wait there. -/
def State.queueKeyMove (s : State) (r : DirRec) (skein : Option Nat) : State :=
  if s.moveWaits r.key skein then s
  else s.onSch fun h => { h with
    gate := h.gate ++ [⟨r.kh, s.gateWaiters r.kh, none, none, some (r.key, r.version, skein)⟩] }

/-! ## LEDGER_PACK (R348, R377) -/

/-- When a directory record was written to the Ledger. -/
def State.stagedAt (s : State) (r : DirRec) : Nat :=
  match r.loc with
  | .ledger line => ((tget s.ldg.taken (pairIndex line)).map (·.2)).getD 0
  | .flash _ _ _ => 0

/-- The directory records in the Ledger that packing may take: the pages of their range have room, and no move of them waits. -/
def State.packable (s : State) : List DirRec :=
  s.idx.dir.filter fun r => !pageHeld r && !s.moveWaits r.key none
    && decide ((pagesOf (s.rangeRecs (rangeOf r.kh) [r.key])).length ≤ maxPages)

/-- The oldest of some records in the Ledger; of several the first in index order (DESIGN CHOICE, log 197). -/
def State.oldestStaged (s : State) : List DirRec → Option DirRec
  | [] => none
  | r :: rest => some (rest.foldl (fun m q => if s.stagedAt q < s.stagedAt m then q else m) r)

/-- Whether packing runs (R348, R377): the staging class is more than 25 % full, a record has been in the Ledger for 60 s, or
STAGING_FULL is in force. -/
def State.packDue (s : State) : Bool :=
  decide (classCapacity 0 < 4 * s.classUsed 0) || s.ldg.stagingFull
    || s.packable.any fun r => decide (s.stagedAt r + 60000000000 ≤ s.flt.time)

/-- Whether packing pauses: SCAVENGE-class packing while stage 1 lasts, but not at NORMAL class under STAGING_FULL (R348,
R500, R509). -/
def State.packPaused (s : State) : Bool := s.scavengePaused && !s.ldg.stagingFull

/-- LEDGER_PACK (R377): the KH range of the oldest directory record in the Ledger. The records of keys at whose gates writes wait
join those gates. The copies' programs are part of the step. -/
def execLedgerPack (range : Nat) (s : State) : Host.Outcome State Fault Refusal :=
  .next (guardStep (s.ftl.mapReady && !s.packPaused && s.packDue
      && (s.oldestStaged s.packable).map (fun r => rangeOf r.kh) = some range) s fun s =>
    let rs := s.packable.filter fun r => decide (rangeOf r.kh = range)
    let (free, gated) := rs.partition fun r => s.gateWaiters r.kh = []
    let s := (gated.foldl (fun s r => s.queueKeyMove r none) s).packKeys range free
    if metaReserve ≤ s.classFree 0 then s.onLdg fun l => { l with stagingFull := false } else s)

/-! ## Relocation (R370) -/

/-- Put a map page of a current variant at a new location, with the index page above it (R374); the rewrite of the record is a
repair rewrite of the key. -/
def State.moveMap (s : State) (r : DirRec) (variant : Nat) (v : Variant) (j : Nat) : State :=
  match s.rewriteMaps v r.kh variant [j] with
  | none => s
  | some (v, s) =>
    let r := { r with variants := tset r.variants variant v }
    ((s.drawMeta (s.pairLines (r.lines + 1))).writeRecord r).commitLine 1 r r.version r.owner

/-- The stream that takes the relocated objects of a skein: one of the same class (R370). -/
def relocStream (k : Skein) : Nat := if k.isMeta then 3 else qlcStream k.classP

/-- Relocate the segments that pass the checks of R285, and the map pages, of one variant that lie in a skein; each rewrite of
the record is a repair rewrite of the key. -/
def State.relocateVariant (s : State) (skein stream : Nat) (key : Bytes) (variant : Nat) : State :=
  let now (s : State) : Option (DirRec × Variant) :=
    (dirFind s.idx.dir key).bind fun r => (tget r.variants variant).map fun v => (r, v)
  match now s with
  | none => s
  | some (_, v0) =>
    let s := (v0.segs.filter fun e => e.2.loc.inSkein skein).foldl (fun s e =>
      match now s with
      | none => s
      | some (r, v) =>
        match s.readOut1 (r, variant, v, e.1, e.2) with
        | (false, s) => s
        | (true, s) =>
          if e.2.lost || !s.moveFits r v e.1 then s
          else match s.allocFlash stream (segUnits e.2.payload.length) with
            | some (loc, s) =>
              let (g, s) := s.writeSegAt e.2 loc (locator r.kh variant e.1)
              (s.dropCheck e.2.loc).moveSeg r variant v e.1 e.2 g
            | none => s) s
    (v0.maps.filter fun e => e.2.inSkein skein).foldl (fun s e =>
      match now s with
      | none => s
      | some (r, v) => if tget v.maps e.1 = some e.2 ∧ s.stagingFits r.lines = true then s.moveMap r variant v e.1 else s) s

/-- Relocate the segments and map pages that a key has in a skein. -/
def State.relocateKey (s : State) (skein stream : Nat) (r : DirRec) : State :=
  (r.variants.map (·.1)).foldl (fun s v => s.relocateVariant skein stream r.key v) s

/-- Whether a key has segments or map pages in a skein. -/
def DirRec.inSkein (r : DirRec) (skein : Nat) : Bool := r.variants.any fun v => v.2.locs.any fun l => l.inSkein skein

/-- The directory pages that lie in a skein are written anew in the META stream, range by range (R370, R375). -/
def State.relocatePages (s : State) (skein : Nat) : State :=
  (((s.idx.dir.filter fun r => r.loc.inSkein skein).map fun r => rangeOf r.kh).eraseDups).foldl
    (fun s x => (s.packRange x []).getD s) s

/-- Relocate what lives in a skein: keys at whose gates writes wait join those gates; its copies are programmed, and it is freed
when nothing is left in it (R370, R371). -/
def State.relocateSkein (s : State) (k : Nat) (e : Skein) : State :=
  let stream := relocStream e
  let s := (s.idx.dir.filter fun r => r.inSkein k).foldl (fun s r =>
    if s.gateWaiters r.kh = [] then s.relocateKey k stream r else s.queueKeyMove r (some k)) s
  (((s.relocatePages k).flushStream stream).flushStream 3).freeSkein k

/-- The allocated skein, of no open stream, with the fewest live units. -/
def State.leastLive (s : State) : Option Nat :=
  bestOf (fun k => -((((tget s.ftl.skeins k).map (·.liveUnits)).getD 0 : Nat) : Rat))
    ((s.ftl.skeins.filter fun e => !(s.ftl.streams.any fun t => decide (t.2.skein = e.1))).map (·.1))

/-- Skein numbers that are free. -/
def State.freeSkeins (s : State) : Nat := 805306367 - s.ftl.skeins.length

/-- SKEIN_DEMOTE (R370): too many fine skeins, or too few free numbers; the skein with the fewest live units is relocated. -/
def execSkeinDemote (s : State) : Host.Outcome State Fault Refusal :=
  let pct := s.fldIn Reg.FTL_MAP_CFG_DEMOTE_PCT 50 100 90
  .next (guardStep (s.ftl.mapReady && (decide (pct * maxFine ≤ 100 * s.fineSkeins)
      || decide (100 * s.freeSkeins < 5 * 805306367))) s fun s =>
    match s.leastLive with
    | none => s
    | some k => match tget s.ftl.skeins k with
      | none => s
      | some e => s.relocateSkein k e)

/-! ## Moves served at their gates (R289) -/

/-- A move at the front of its gate: dropped when the key has another version by then, else made. -/
def State.serveMove (s : State) (g : GateItem) : State :=
  let s := s.onSch fun h => { h with gate := h.gate.erase g }
  match g.move with
  | none => s
  | some (key, version, skein) =>
    match dirFind s.idx.dir key, skein with
    | none, _ => s
    | some r, none => if r.version = version && !pageHeld r then s.packKeys (rangeOf r.kh) [r] else s
    | some r, some k => match if r.version = version then tget s.ftl.skeins k else none with
      | some e => (((s.relocateKey k (relocStream e) r).flushStream (relocStream e)).flushStream 3).freeSkein k
      | none => s

/-- The moves that have reached the front of their gates. -/
def State.serveMoves (s : State) : State :=
  (s.sch.gate.filter fun g => g.move.isSome && s.itemFront g).foldl State.serveMove s

end Sys2Proof.Machine
end

