-- ==== Sys2Proof/Machine/Update.lean ====
section
/-! DEFINITION. Firmware updates: manifests (R571, R572), the update session (R575 to R582), and the activation of an
image set (R195, R196, R579, R580). -/

namespace Sys2Proof.Machine

/-! ## Manifests (R571, R572) -/

def manMagic (m : Bytes) : Nat := fieldAt m 0 4
def manVersion (m : Bytes) : Nat := fieldAt m 4 2
def manTest (m : Bytes) : Bool := bitOf (fieldAt m 6 2) 0
def manDefer (m : Bytes) : Bool := bitOf (fieldAt m 6 2) 1
def manSetId (m : Bytes) : Nat := fieldAt m 8 4
def manEpoch (m : Bytes) : Nat := fieldAt m 12 4
def manCompatCount (m : Bytes) : Nat := fieldAt m 16 4
def manSigner (m : Bytes) : Nat := fieldAt m 20 4
def manCompat (m : Bytes) : List Nat := (List.range (manCompatCount m)).map fun i => fieldAt m (256 + 4 * i) 4
def imgLength (m : Bytes) (i : Nat) : Nat := fieldAt m (64 + 48 * i) 4
def imgSent (m : Bytes) (i : Nat) : Nat := fieldAt m (68 + 48 * i) 4
def imgBase (m : Bytes) (i : Nat) : Nat := fieldAt m (72 + 48 * i) 4
def imgDigest (m : Bytes) (i : Nat) : Bytes := slice m (80 + 48 * i) 32

/-- The longest image of a kind: 8, 448, 32 and 16 MiB. -/
def imgMax (i : Nat) : Nat := [8, 448, 32, 16].getD i 0 * 2 ^ 20

/-- An image entry within R571: a full image carries LENGTH bytes. -/
def imgWellFormed (m : Bytes) (i : Nat) : Bool :=
  decide (imgLength m i ≤ imgMax i) && (decide (imgBase m i ≠ 0) || decide (imgSent m i = imgLength m i))

/-- A manifest within R571. -/
def manWellFormed (m : Bytes) : Bool :=
  decide (m.length = 3204) && decide (manMagic m = 0x4D4B5856) && decide (manVersion m = 1)
    && decide (manSetId m ≠ 0) && decide (1 ≤ manCompatCount m) && decide (manCompatCount m ≤ 32)
    && decide (manSigner m ≤ 3) && (!manDefer m || manTest m) && (List.range 4).all (imgWellFormed m)

/-- MSIG verifies (R571, R572). -/
def manSigned (m : Bytes) : Bool := Config.xmssVerify (manSigner m) (m.take 384) (slice m 384 2820)

/-- Bytes of the transfer stream (R578). -/
def manStream (m : Bytes) : Nat := ((List.range 4).map (imgSent m)).foldl (· + ·) 0

/-- Where an image's bytes begin in the stream (R578). -/
def imgStart (m : Bytes) (i : Nat) : Nat := ((List.range i).map (imgSent m)).foldl (· + ·) 0

/-- An image of the set of an ID, of the running or the known-good set (R571, R576 reason 11). -/
def State.baseImage (s : State) (setId i : Nat) : Bytes :=
  let n := if s.sec.setIdOf s.sec.runningBank = setId then s.sec.runningBank else s.sec.goodBank
  ((s.sec.bank n).map fun x => x.images.getD i []).getD []

/-- A final image from the transfer stream (R571): full, copied unchanged, or the base with the delta applied. -/
def State.finalImage (s : State) (m stream : Bytes) (i : Nat) : Bytes :=
  let part := slice stream (imgStart m i) (imgSent m i)
  if imgBase m i = 0 then part
  else if imgSent m i = 0 then s.baseImage (imgBase m i) i
  else Config.applyDelta (s.baseImage (imgBase m i) i) part

/-- The image set that a manifest and a stream make. -/
def State.buildSet (s : State) (m stream : Bytes) : ImageSet :=
  ⟨manSetId m, manEpoch m, manTest m, manDefer m, m, (List.range 4).map (s.finalImage m stream)⟩

/-- All four images match their DIGESTs and lengths (R572, R576 reason 13). -/
def ImageSet.matchesManifest (x : ImageSet) : Bool :=
  (List.range 4).all fun i =>
    let b := x.images.getD i []
    decide (b.length = imgLength x.manifest i) && decide (padTo 32 (shake256 b) = imgDigest x.manifest i)

/-! ## Refusals (R576) -/

/-- Whether reason 1 to 5 holds now (R576, SEC_STATUS.REFUSE). -/
def State.refuseHolds (s : State) (reason : Nat) : Bool :=
  match reason with
  | 1 => s.sec.ownerLock
  | 2 => !s.pwr.holdupReady
  | 3 => decide (3 ≤ s.pwr.stage)
  | 4 => s.pins.transport
  | 5 => !s.ftl.evacuate.isEmpty || s.idx.rebuilding
  | _ => false

/-- The first of reasons 1 to 5 that holds. -/
def State.refusal (s : State) : Option Nat := [1, 2, 3, 4, 5].find? s.refuseHolds

/-- The first reason that bars a manifest, of 6 to 11 (R576). -/
def State.manifestRefusal (s : State) (m : Bytes) : Option Nat :=
  let known := [s.sec.setIdOf s.sec.runningBank, s.sec.setIdOf s.sec.goodBank]
  if !manWellFormed m || !manSigned m then some 6
  else if s.sec.revoked.getLsbD (manSigner m) then some 7
  else if manEpoch m < s.sec.minEpoch then some 8
  else if !(manCompat m).contains (s.sec.setIdOf s.sec.runningBank) then some 9
  else if manTest m && !s.sec.testAllowed then some 10
  else if (List.range 4).any fun i => decide (imgBase m i ≠ 0) && !known.contains (imgBase m i) then some 11
  else none

/-- UPDATE_REFUSED with its reason (R576). -/
def State.updateRefused (s : State) (via : AdminVia) (reason : Nat) : State :=
  let src := s.adminSource via
  ((s.onSession fun x => { x with lastReason := reason }).raise 1092 (item1 src ++ item1 reason)).answer via
    (.plain .updateRefused reason)

/-- A session command other than SESSION_OPEN: TIMEOUT when the source's session no longer exists (R577), NOT_HOLDER when
it holds none, else the reasons 1 to 5 where the command checks them. -/
def State.sessionCmd (s : State) (via : AdminVia) (op : Opcode) (checks : Bool) (f : State → State) : State :=
  s.admin via op fun s =>
    let src := s.adminSource via
    if s.session.st = .idle ∨ s.session.holder ≠ src then
      (if s.session.ended.contains src then s.answer via (.plain .timeout 0) else s.updateRefused via 14)
    else match (if checks then s.refusal else none) with
      | some r => s.updateRefused via r
      | none => f s

/-! ## Opening and filling (R575 to R578) -/

/-- SESSION_OPEN (R575 to R577). -/
def execSessionOpen (via : AdminVia) (manifest : Bytes) (s : State) : Host.Outcome State Fault Refusal :=
  .next (s.admin via .sessionOpen fun s =>
    let manifest := s.adminBytes via manifest
    let src := s.adminSource via
    if s.session.st ≠ .idle then s.answer via (.plain .busySession s.session.holder)
    else match (match s.refusal with
        | some r => some r
        | none => s.manifestRefusal manifest) with
      | some r => s.updateRefused via r
      | none =>
        let s := s.onSession fun x => { x with
          st := .openS, holder := src, manifest := manifest, blocks := [], waiting := none
          target := 1 - s.sec.runningBank, ended := x.ended.filter (· ≠ src) }
        (s.raise 1091 (item1 src ++ item4 (manSetId manifest))).answer via (.plain .ok 0))

/-- Whether a block agrees with the bytes received before it (R578). -/
def blockAgrees (received : Tbl Bytes) (offset : Nat) (block : Bytes) : Bool :=
  received.all fun e =>
    let lo := max e.1 offset
    let hi := min (e.1 + e.2.length) (offset + block.length)
    decide (hi ≤ lo) || decide (slice e.2 (lo - e.1) (hi - lo) = slice block (lo - offset) (hi - lo))

/-- A block within R578. -/
def blockValid (total offset : Nat) (block : Bytes) : Bool :=
  decide (1 ≤ block.length) && decide (block.length ≤ 2 ^ 24) && decide (offset % 4096 = 0)
    && (decide (block.length % 4096 = 0) || decide (offset + block.length = total))
    && decide (offset + block.length ≤ total)

/-- Keep a block: the longer of two at one offset. -/
def keepBlock (received : Tbl Bytes) (offset : Nat) (block : Bytes) : Tbl Bytes :=
  match tget received offset with
  | some b => if b.length < block.length then tset received offset block else received
  | none => tset received offset block

/-- SESSION_BLOCK (R576, R578). -/
def execSessionBlock (via : AdminVia) (offset : Nat) (block : Bytes) (s : State) :
    Host.Outcome State Fault Refusal :=
  .next (s.sessionCmd via .sessionBlock true fun s =>
    let offset := ((s.adminDesc via).map (·.offset)).getD offset
    let block := s.adminBytes via block
    let total := manStream s.session.manifest
    if blockValid total offset block && blockAgrees s.session.blocks offset block then
      (s.onSession fun x => { x with blocks := keepBlock x.blocks offset block }).answer via (.plain .ok 0)
    else s.updateRefused via 12)

/-- How far the received bytes reach without a gap. -/
def receivedUpTo (received : Tbl Bytes) : Nat :=
  received.foldl (fun n e => if e.1 ≤ n then max n (e.1 + e.2.length) else n) 0

/-- The transfer stream as received. -/
def receivedStream (received : Tbl Bytes) : Bytes := received.foldl (fun b e => overlay b e.1 e.2) []

/-! ## Activation (R195, R196, R579, R580) -/

/-- Step 1 of R195: QPM stops accepting. -/
def State.beginActivation (s : State) : State :=
  ((s.onNfe fun n => { n with stopFetch := true }).onSch fun h => { h with drain := .activation }).onSession
    fun x => { x with st := .activating }

/-- Write an image set to a bank. -/
def State.writeBank (s : State) (n : Nat) (x : ImageSet) : State :=
  s.onSec fun c => if n = 0 then { c with bank0 := some x } else { c with bank1 := some x }

/-- SESSION_ACTIVATE (R576, R579): the deltas, the digests, then the activation; it completes when the trial passes or
the previous set runs again. A digest that fails closes the session. -/
def execSessionActivate (via : AdminVia) (s : State) : Host.Outcome State Fault Refusal :=
  .next (s.sessionCmd via .sessionActivate true fun s =>
    let m := s.session.manifest
    if s.session.st ≠ .openS ∨ receivedUpTo s.session.blocks < manStream m then s.updateRefused via 15
    else
      let set := s.buildSet m (receivedStream s.session.blocks)
      if set.matchesManifest then
        ((s.writeBank s.session.target set).onSession fun x => { x with waiting := some via }).beginActivation
      else (s.updateRefused via 13).endSession Status.updateRefused.code false)

/-- The previous set is activated again (R580): the settings shadow is discarded. -/
def State.beginRevert (s : State) : State :=
  (s.onSession fun x => { x with reverting := true, shadow := none }).beginActivation

/-- The engine blocks whose microcode an activation changes: all of them when the engine microcode differs, the match
dies when theirs does (R195; DESIGN CHOICE, log 25). -/
def changedBlocks (a b : ImageSet) : List EngBlock :=
  (if a.images.getD 2 [] = b.images.getD 2 [] then []
    else [.qpm, .sch, .idx, .mch, .val, .cip, .ldg, .ftl, .peer, .eng] ++ (List.range 64).map .fch)
    ++ (if a.images.getD 3 [] = b.images.getD 3 [] then [] else (List.range 4).map .md)

/-- Step 3 of R195: each changed block goes through its reset; one in reset for another reason stays there. -/
def State.reloadBlocks (s : State) (bs : List EngBlock) : State :=
  let bs := bs.filter fun b => !s.sch.inReset.contains b
  bs.foldl State.leaveReset (bs.foldl State.resetBlock s)

/-- Steps 3 and 4 of R195 for the set of a bank: it becomes current, its System Image starts, and acceptance
resumes. -/
def State.runBank (s : State) (n : Nat) : State :=
  let old := s.sec.running
  let s := s.onSec fun x => { x with runningBank := n }
  let s := (s.reloadBlocks (changedBlocks old s.sec.running)).stopImage
  (s.onNfe fun n => { n with stopFetch := false }).onSch fun h => { h with drain := .none }

/-- ACTIVATION_DRAIN_END (R195, R196, R579, R580): the new set runs on trial, or, of a revert, the previous one runs; a
session that its holder closed meanwhile reverts at once. -/
def execActivationDrainEnd (s : State) : Host.Outcome State Fault Refusal :=
  .next (guardStep (decide (s.sch.drain = .activation)) s fun s =>
    if s.session.reverting then s.runBank s.sec.goodBank
    else
      let s := s.runBank s.session.target
      let s := (s.raise 1093 (item4 (s.sec.setIdOf s.session.target))).onSession fun x => { x with st := .trial }
      if s.session.abandon then s.beginRevert else s)

/-- The previous set's System Image has re-attached: SESSION_ACTIVATE completes with REVERTED, and the session ends
(R580). -/
def State.finishRevert (s : State) : State :=
  let s := s.revertedEvent
  let s := match s.session.waiting with
    | some via => s.answer via (.plain .reverted 0)
    | none => s
  s.endSession Status.reverted.code (s.session.waiting.isNone)

/-- A write of ENG_ATTACH.CODE: 0xA77A re-attaches the System Image; with the previous set's, a revert has ended (R41,
R465, R580). -/
def State.attachWrite (s : State) (code : Nat) : State :=
  guardStep (decide (code = 0xA77A)) s fun s =>
    let s := s.attachImage
    if s.session.reverting && decide (s.sch.drain = .none) then s.finishRevert else s

/-- ENG_ATTACH_WRITE (R41, R465): 0xA77A clears HOLD, and the System Image runs again; with the previous set's, a revert
has ended (R580). -/
def execEngAttachWrite (code : Nat) (s : State) : Host.Outcome State Fault Refusal := .next (s.attachWrite code)

/-- SEC_TRIAL takes 0x7A11 of the new set's re-attached System Image: SESSION_ACTIVATE completes OK (R579). -/
def State.trialPass (s : State) : State :=
  guardStep (decide (s.session.st = .trial) && !s.pins.imageDown) s fun s =>
    let via := s.session.waiting
    let s := s.onSession fun x => { x with
      st := .awaitingCommit, waiting := none, shadow := some (manSetId x.manifest) }
    match via with
    | some v => s.answer v (.plain .ok 0)
    | none => s

/-- SEC_TRIAL_PASS (R579). -/
def execSecTrialPass (s : State) : Host.Outcome State Fault Refusal := .next s.trialPass

/-- SEC_TRIAL takes 0x7A1F during a trial: the previous set is activated again (R580). -/
def State.trialFail (s : State) : State :=
  guardStep (decide (s.session.st = .trial)) s fun s =>
    (s.raise 1096 (item4 (s.sec.setIdOf s.session.target))).beginRevert

/-- SEC_TRIAL_FAIL (R580). -/
def execSecTrialFail (s : State) : Host.Outcome State Fault Refusal := .next s.trialFail

/-- TRIAL_TIMEOUT (R580): TRIAL_S has passed since the activation began; one whose drain still runs reverts at its
end. -/
def execTrialTimeout (s : State) : Host.Outcome State Fault Refusal :=
  .next (match s.session.st with
  | .trial => s.beginRevert
  | .activating => if s.session.reverting then s else s.onSession fun x => { x with abandon := true }
  | _ => s)

/-! ## Commit and close (R577, R580 to R582) -/

/-- SESSION_COMMIT (R576, R581). -/
def execSessionCommit (via : AdminVia) (s : State) : Host.Outcome State Fault Refusal :=
  .next (s.sessionCmd via .sessionCommit false fun s =>
    if s.session.st ≠ .awaitingCommit then s.updateRefused via 15
    else
      let set := s.sec.running
      let s := s.onSec fun x => { x with goodBank := x.runningBank, minEpoch := max x.minEpoch set.epoch }
      let s := s.onSession fun x => { x with settings := x.shadow.getD x.settings }
      ((s.raise 1094 (item4 set.setId ++ item4 set.epoch)).endSession Status.ok.code false).answer via (.plain .ok 0))

/-- Close the session: one that is open ends; one on trial or awaiting its commit reverts; one whose activation drains
runs on to its end first (R577, R580 to R582). -/
def State.closeSession (s : State) (result : Nat) (gone : Bool) : State :=
  match s.session.st with
  | .idle => s
  | .openS => s.endSession result gone
  | .activating => if s.session.reverting then s else s.onSession fun x => { x with abandon := true }
  | .trial | .awaitingCommit => s.beginRevert

/-- SESSION_CLOSE (R576, R577, R580, R581). -/
def execSessionClose (via : AdminVia) (s : State) : Host.Outcome State Fault Refusal :=
  .next (s.sessionCmd via .sessionClose false fun s =>
    (s.closeSession Status.ok.code false).answer via (.plain .ok 0))

/-- SESSION_IDLE_TIMEOUT (R577): IDLE_10S × 10 s without a session command of the holder, who waits for none. -/
def execSessionIdleTimeout (s : State) : Host.Outcome State Fault Refusal :=
  .next (guardStep (decide (s.session.st = .openS) || decide (s.session.st = .awaitingCommit)) s fun s =>
    s.closeSession Status.timeout.code true)

/-- COMMIT_TIMEOUT (R581): COMMIT_S after an OK activation. -/
def execCommitTimeout (s : State) : Host.Outcome State Fault Refusal :=
  .next (guardStep (decide (s.session.st = .awaitingCommit)) s State.beginRevert)

end Sys2Proof.Machine
end

