-- ==== Sys2Proof/Machine/Start.lean ====
section
/-! DEFINITION. Starts (chapter 15): which start follows a reset (R478), the steps of a cast-on and of a pick-up (R479 to
R487), lost checkpoint objects (R484), the end of a start (R485), and ROM recovery (R488, R573, R583). -/

namespace Sys2Proof.Machine

/-! ## Which start follows (R478) -/

/-- Whether the start is a cast-on. -/
def State.startsCold (s : State) : Bool :=
  s.rst.powerLost || s.rst.forceCold || decide (s.rst.cause = 0) || decide (s.rst.cause = 7)
    || decide (s.rst.cause = 8) || decide (s.rst.cause = 9)

/-- Whether a start can begin: the reset is released, and the converters run (R489, R511, R589, R599). -/
def State.mayStartChip (s : State) : Bool :=
  (decide (s.rst.run = .off) || decide (s.rst.run = .inReset)) && !s.rst.heldPin && !s.rst.heldThermal
    && !s.pins.pwrDisable && s.pins.presentLow && s.pwr.p48Present

/-! ## Registers (R14, R451, R473) -/

/-- Whether a Cold or Warm cell keeps the value. -/
def RstVal.keeps (c : RstVal) : Bool :=
  match c with
  | .held | .heldFrom _ => true
  | _ => false

/-- The word of a register after a start. -/
def startWord (d : RegDesc) (n : Nat) (cold : Bool) (w : W32) : W32 :=
  BitVec.ofNat 32 ((d.fields.map fun f =>
    let c := if cold then f.cold else f.warm
    (if c.keeps then Field.of ⟨d.addr, f.hi, f.lo⟩ w else coldField n c) * 2 ^ f.lo).foldl (· + ·) 0)

/-- Every register takes its Cold or its Warm column. A word that is not listed stands at its Cold value, which the Warm
column keeps. -/
def State.startRegs (s : State) (cold : Bool) : State :=
  s.regs.foldl (fun s e => match regAt e.1 with
    | some (d, n) => s.setReg e.1 (startWord d n cold e.2)
    | none => s) s

/-! ## The image set (R572, R573, R574) -/

/-- Whether the boot ROM starts the set of a bank: it passes R572 in the store, its signer's fuse is intact, its epoch is
high enough, and a test build is allowed. -/
def State.bankStarts (s : State) (bankOk : List Bool) (n : Nat) : Bool :=
  match s.sec.bank n with
  | some x => bankOk.getD n false && !s.sec.revoked.getLsbD (manSigner x.manifest) && decide (s.sec.minEpoch ≤ x.epoch)
      && (!x.testBuild || s.sec.testAllowed)
  | none => false

/-- The banks that the boot ROM tries: the committed set is both the current and the known-good one; then the other
bank (R487, R573, R581, R582). -/
def State.bankOrder (s : State) : List Nat := [s.sec.goodBank, 1 - s.sec.goodBank]

/-- IMAGE_BANK_INVALID for a bank (R573, R584); which of the four images failed is a free value. -/
def State.bankInvalid (s : State) (n : Nat) : State :=
  let (k, s) := s.drawNat
  ((s.onSec fun x => { x with bankFailed := x.bankFailed ++ [n] }).raise 1097 (item1 n ++ item1 (k % 4)))

/-- Choose the image set (R573): none when no set passes. -/
def State.chooseBank (s : State) (bankOk : List Bool) : Option Nat × State :=
  let s := s.onSec fun x => { x with bankFailed := [] }
  let bad := s.bankOrder.takeWhile fun n => !s.bankStarts bankOk n
  let s := bad.foldl State.bankInvalid s
  match s.bankOrder.find? fun n => s.bankStarts bankOk n with
  | some n => (some n, s.onSec fun x => { x with runningBank := n })
  | none => (none, s)

/-! ## ROM recovery (R487, R488) -/

/-- The drive enters ROM recovery: the service cores run alone, beside the always-on and the management domains. -/
def State.enterRecovery (s : State) : State :=
  let s := s.onPwr fun p => { p with
    ps := 0, due := [], standby := false
    domains := (List.range 30).map fun n => if n ≤ 1 ∨ n = 29 then .on else .off }
  (s.onRst fun r => { r with run := .recovery }).raise 43 (item1 s.rst.failedStarts)

/-! ## Lost checkpoint objects (R484) -/

/-- Whether an object of the engine-checkpoint class is lost. -/
def objectLost (i : StartIn) (object : Nat) : Bool := i.lostObjects.any fun o => decide (o.1 = object)

/-- CHECKPOINT_LOST (R484, R490): the JSEQ of an object without one is a free value. -/
def State.checkpointLost (s : State) (o : Nat × Nat) : State :=
  if o.1 = 5 then s.raise 45 (item1 o.1 ++ item8 o.2)
  else
    let (j, s) := s.drawNat
    s.raise 45 (item1 o.1 ++ item8 j)

/-- The highest version in the Ledger's commit lines and in the directory (R484). -/
def State.highestVersion (s : State) : Nat :=
  max ((s.ldg.kept.journal.map (·.version)).foldl max 0) ((s.idx.dir.map DirRec.version).foldl max 0)

/-- The version counter resumes at the stored ceiling, or at the next multiple of 2^60 when that is lost, and a new ceiling
is written (R172, R484). -/
def State.resumeVersions (s : State) (lost : Bool) : State :=
  let next := if lost then (s.highestVersion / 2 ^ 60 + 1) * 2 ^ 60 else s.ldg.kept.versionCeiling
  let s := s.onSch fun h => { h with nextVersion := next }
  (s.onKept fun k => { k with versionCeiling := next + 2 ^ 24 }).keepMeta 0 0 1

/-- A context of a lost QGEN line takes a random QGEN (R484). -/
def State.redrawQgen (s : State) (ctx : Nat) : State :=
  let (b, s) := s.drawRandom 2
  (s.onKept fun k => { k with qgens := tset k.qgens ctx (leNat b) }).keepMeta 1 ctx 1

/-- The superblocks of a superblock's die group. -/
def State.groupWear (s : State) (id : Nat) : Nat :=
  ((s.ftl.sbs.filter fun e => decide (e.1 / 4096 = id / 4096)).map fun e => e.2.wear).foldl max 0

/-- A superblock whose table line is lost: the highest WEAR of its die group, and a refresh is due (R484). -/
def State.rebuildSbLine (s : State) (id : Nat) : State :=
  let w := s.groupWear id
  if sbExists id then s.onSb id fun b => { b with wear := w, refreshDue := true, dueSeq := s.ftl.seq } else s

/-- LEDGER_PAIR_LOST of the line of a kept object (R349). -/
def State.pairLost (s : State) (o : Nat × Nat) : State :=
  let line := if o.1 = 5 then journalLine o.2
    else (if o.1 = 6 ∨ o.1 = 8 then 0x3D00000 else 0x3800000) + pairLine (keptPair o.1 o.2)
  s.raise 514 (item4 line ++ item1 (classOfLine line))

/-- The lost objects of the maps and of the engines (R484). -/
def State.lostObject (s : State) (o : Nat × Nat) : State :=
  let s := (s.pairLost o).checkpointLost o
  match o.1 with
  | 1 => s.redrawQgen o.2
  | 3 => s.rebuildSbLine o.2
  | 5 => s.onKept fun k => { k with journal := k.journal.filter fun j => decide (j.jseq ≠ o.2) }
  | 8 => s.onKept fun k => { k with leaf := none }
  | _ => s

/-! ## Steps 9 to 13 (R479) -/

/-- The leaf index (R563 to R565, R568): the greater of the record and the PD00 copy; with both lost, the rest of the
tree. -/
def State.resumeLeaf (s : State) : State :=
  match s.ldg.kept.leaf, s.sec.copyValid with
  | some (n, _), true => s.onSec fun x => { x with nextLeaf := max n x.nextLeaf }
  | some (n, _), false => s.onSec fun x => { x with nextLeaf := n, copyValid := true }
  | none, true => s
  | none, false =>
    let s := if s.sec.tree1Started then s.onSec fun x => { x with exhausted := true, budget := 0 }
      else s.onSec fun x => { x with nextLeaf := 2 ^ 20, copyValid := true, budget := 0 }
    let s := s.raise 1089 (item4 s.sec.nextLeaf)
    if s.sec.exhausted then s.raise 1090 [] else s

/-- A slot record that cannot be trusted: it cannot be read at any later start either, and the slot stays EMPTY until a new
ROOT writes its record (R306). -/
def State.slotLost (s : State) (n : Nat) : State :=
  ((s.onKept fun k => { k with slotRecs := tset k.slotRecs n [] }).onSlot n fun k =>
    { k with st := .empty, untrusted := true }).raise 422 (item2 n)

/-- CIP restores a slot from its record: a tenant slot whose record holds and unwraps; one without a root, or that is no tenant
slot, keeps its serial (R299, R306). -/
def State.restoreTenant (s : State) (bad : List Nat) (e : Nat × Bytes) : State :=
  let r := parseSlotRec e.2
  if !isTenantSlot e.1 then s.onSlot e.1 fun k => { k with serial := r.serial }
  else if bad.contains e.1 || !slotRecHolds e.2 || (r.loaded && (s.recRoot r).isNone) then s.slotLost e.1
  else if r.loaded then s.restoreSlot e.1
  else s.onSlot e.1 fun k => { k with serial := r.serial }

/-- SEC loads the slots of security state and recorder sealing (R298); the keys are free values (log 171). -/
def State.loadSystemKeys (s : State) : State :=
  (List.range 14).foldl (fun s i => s.onSlot (0x402 + i) fun k =>
    { k with st := .loaded, root := padTo 32 (Config.systemKey (0x402 + i)) }) s

/-- Step 10: SEC loads DEVICE_KEK, the import key and its own slots, and CIP restores the slots (R298, R306, R569). -/
def State.restoreKeys (s : State) (bad : List Nat) : State :=
  let s := s.onSlot 0x400 fun k => { k with st := .loaded, root := padTo 32 Config.deviceKek }
  let s := s.ldg.kept.slotRecs.foldl (fun s e => s.restoreTenant bad e) s
  (s.placeImportKey.loadSystemKeys.resumeLeaf).onCip fun c => { c with kekReady := true, restoreDone := true }

/-! ## Page tags (R358, R483) -/

/-- Whether a tag passes its check code (R358). -/
def PageTag.holds (t : PageTag) : Bool :=
  decide (t = .make t.seqNo t.row t.plane t.skein t.source t.mask)

/-- The first codeword of a data page, from the page's number; none for a page of the parity position. -/
def Sb.pageStart (b : Sb) (page : Nat) : Option Nat :=
  let row := page / 64
  ((b.dataPositions row).zipIdx.find? fun e => decide (e.1 = page / 4 % 16)).map fun e =>
    row * b.rowWords + 16 * e.2 + 4 * (page % 4)

/-- The SLOT entries that the page tags of a superblock give: of each slot that no stitch lies in, the skein its pages name. -/
def Sb.tagSlots (b : Sb) : List SumEntry :=
  (b.tags.filterMap fun e =>
    if e.2.holds && e.2.source.isNone && decide (e.2.seqNo = b.seqNo) && decide (e.2.skein ≠ 0) then
      (b.pageStart e.1).bind fun q =>
        if b.summary.any fun x => decide (x.kind = 2) && decide (x.pos / 256 = q / 256) then none
        else some (⟨1, 0, 0, e.2.skein, q / 256, 0⟩ : SumEntry)
    else none).eraseDups

/-- An OPEN superblock that MAPS does not supply is closed at its first erased row, with the summary that its tags give
(R358, R483); what the tags do not show of it, stitches and objects, are those of the programmed pages (DESIGN CHOICE, log
172). -/
def State.closeOpen (s : State) (e : Nat × Sb) : State :=
  if e.2.st = .opened then
    (s.onSbQuiet e.1 fun b =>
      let rows := b.rows + (if b.done = 0 then 0 else b.nextRows.length)
      { b with
        summary := b.tagSlots ++ b.summary.filter fun x => decide (2 ≤ x.kind) && b.entryDone x
        rows := rows, done := 0, nextQ := min b.nextQ (rows * b.rowWords) }).closeSb e.1
  else s

/-- Put a superblock at its place among ascending sequence numbers. -/
def placeSeq (e : Nat × Sb) : List (Nat × Sb) → List (Nat × Sb)
  | [] => [e]
  | x :: xs => if e.2.seqNo ≤ x.2.seqNo then e :: x :: xs else x :: placeSeq e xs

/-- The PAR location table from the tags of the PAR stream's pages, for rows whose superblock is not yet verified; of two tags of a
row the one of the higher sequence number stands (R358, R392, R483). -/
def State.tagPar (s : State) : Tbl ParLoc :=
  ((s.ftl.sbs.filter fun e => decide (e.2.stream = 6) && (decide (e.2.st = .opened) || decide (e.2.st = .closed)
      || decide (e.2.st = .reclaiming))).foldr placeSeq []).foldl (fun t e =>
    e.2.tags.foldl (fun t p => match p.2.source, e.2.pageStart p.1 with
      | some (id, row), some q =>
        let held := (s.sb id).layoutR && decide (row < (s.sb id).rows)
          && (decide ((s.sb id).st = .opened) || decide ((s.sb id).st = .unverified) || decide ((s.sb id).st = .reclaiming))
        if p.2.holds && p.2.plane = 0 && held then tset t (parKey id row) ⟨e.1, q, p.2.mask, false⟩ else t
      | _, _ => t) t) []

/-- FTL without MAPS: what the staging buffers held is gone, every OPEN superblock closes, and the PAR location table comes from
tags (R393, R483). -/
def State.rebuildOpen (s : State) : State :=
  let s := s.onFtl fun t => { t with sbs := t.sbs.map fun e => (e.1, { e.2 with staged := [], saved := [] }) }
  let s := s.onFtl fun t => { t with par := s.tagPar }
  (s.ftl.sbs.foldl State.closeOpen s).onFtl fun t => { t with streams := [] }

/-- Usage from the newest checkpoint and the commit lines above it (R606). -/
def State.restoredUsage (s : State) : Tbl Usage :=
  (s.ldg.kept.journal.filter fun j => decide (s.ldg.kept.usageCkpt.1 < j.jseq)).foldl (fun t j => match j.usage with
    | some (n, u) => tset t n u
    | none => t) s.ldg.kept.usageCkpt.2

/-- Usage counted from the directory records (R484). -/
def State.countedUsage (s : State) : Tbl Usage :=
  s.idx.dir.foldl (fun t r =>
    let u := (tget t r.owner).getD ⟨0, 0, 0⟩
    tset t r.owner ⟨u.bytes + r.charged, u.keys + 1, u.pins + if r.pinned then 1 else 0⟩) []

/-- What a summary entry puts into the skein map (R365, R366, R388). -/
def mapEntry (id : Nat) (b : Sb) (t : Tbl Skein) (e : SumEntry) : Tbl Skein :=
  if e.kind = 1 then tset t e.skein ⟨false, streamClassP b.stream, 0, id, e.pos, [], decide (b.stream = 3), 0, []⟩
  else if e.kind = 2 then
    let k := (tget t e.skein).getD ⟨true, streamClassP b.stream, 0, id, 0, [], decide (b.stream = 3), 0, []⟩
    tset t e.skein { k with fine := true, stitches := tset k.stitches e.stitch (0, id, e.pos) }
  else t

/-- The summary of a superblock as a map scan finds it: where it was not written, from its page tags (R484). -/
def Sb.scanned (b : Sb) : List SumEntry :=
  if b.sumLocs.isEmpty then b.tagSlots ++ b.summary.filter fun e => decide (2 ≤ e.kind) else b.summary

/-- The live units, the stitches and the class of a scanned skein, from the objects that lie in it: a skein of the SLC buffer
holds one class (R378). -/
def State.recountSkein (s : State) (skein : Nat) (k : Skein) : Skein :=
  let objs := s.objectsIn skein
  let seg := (s.idx.dir.flatMap fun r => r.variants.flatMap fun v => v.2.segs.map (·.2)).find? fun g => g.loc.inSkein skein
  { k with
    classP := (seg.map (·.parityP)).getD k.classP
    liveUnits := (objs.map (·.2)).foldl (· + ·) 0
    stitches := (k.stitches.map fun e => (e.1, stitchRefs objs e.1, e.2.2)).filter fun e => decide (0 < e.2.1) }

/-- Number the stitch tables of the fine skeins anew. -/
def numberTables : Nat → Tbl Skein → Tbl Skein
  | _, [] => []
  | n, (i, k) :: rest => if k.fine then (i, { k with table := n }) :: numberTables (n + 1) rest else (i, k) :: numberTables n rest

/-- MAP_SCAN (R484, R490): the maps from the superblock summaries in sequence-number order; its duration is a free value. -/
def State.mapScan (s : State) : State :=
  let (ms, s) := s.drawNat
  let sbs := (s.ftl.sbs.filter fun e => decide (e.2.st ≠ .free) && decide (e.2.st ≠ .retired)).foldr placeSeq []
  let found := sbs.foldl (fun t e => e.2.scanned.foldl (mapEntry e.1 e.2) t) ([] : Tbl Skein)
  let ks := (found.map fun e => (e.1, s.recountSkein e.1 e.2)).filter fun e =>
    decide (0 < e.2.liveUnits) || s.ftl.streams.any fun t => decide (t.2.skein = e.1)
  let gone := (s.ftl.skeins.filter fun e => (tget ks e.1).isNone).map (·.1)
  (s.onFtl fun t => { t with
    skeins := numberTables 0 ks, freed := (t.freed.filter fun k => (tget ks k).isNone) ++ gone }).raise 46 (item4 ms)

/-- Step 11: the maps, open superblocks, and the tenants' usage (R479, R482, R483, R606); what was being emptied goes on
being emptied (R402, R406). -/
def State.restoreMaps (s : State) (maps : Bool) (i : StartIn) : State :=
  let s := if maps then s else s.rebuildOpen
  let s := if objectLost i 4 || objectLost i 5 then s.mapScan else s
  let s := s.onSch fun h => { h with
    usage := if objectLost i 7 then s.countedUsage else s.restoredUsage, recount := objectLost i 7 }
  (s.onFtl fun f => { f with mapReady := true }).pumpCopies

/-- Step 12: the table and the mirror that verify are ready; one mirror copy is copied from the other; what does not
verify is rebuilt (R224, R479, R480). -/
def State.restoreIndex (s : State) (table m0 m1 : Bool) : State :=
  let s := s.onIdx fun i => { i with
    mirror0 := if m0 then i.mirror0 else i.mirror1, mirror1 := if m1 then i.mirror1 else i.mirror0
    tableReady := table, mirrorReady := m0 || m1 }
  if table && (m0 || m1) then s else s.rebuildFrom (!table) (!(m0 || m1)) []

/-- Step 13: the match entries (R255, R479, R480). -/
def State.restoreRules (s : State) (engine : Bool) : State :=
  if engine then s.reloadRules else s.onMch fun m => { m with rules := [], shadow := [], shift := none }

/-! ## CHIP_START (R479) -/

/-- Step 7 of a pick-up (R480, R481): which regions verify; DIGEST_MISMATCH for each that does not; RKIND becomes NONE. -/
def State.verifyRegions (s : State) (i : StartIn) : State :=
  let r := parseResetRec s.ldg.kept.resetRec
  let recorded : BitVec 5 := if r.clean && !objectLost i 2 then r.validMask else 0
  let ok : BitVec 5 := (List.range 5).foldl (fun m n =>
    if recorded.getLsbD n && i.regionOk.getD n false then m ||| ((1 : BitVec 5) <<< n) else m) 0
  let s := s.onRst fun x => { x with digestRecorded := recorded, digestVerified := ok }
  let s := ((List.range 5).filter fun n => !ok.getLsbD n).foldl (fun s n => s.raise 44 (item1 n)) s
  s.clearResetRec

/-- A cast-on skips step 7; the reset record still becomes NONE, so that no later reset finds a stale CLEAN record (R479,
R481; DEDUCED, log 65). -/
def State.forgetDigests (s : State) : State :=
  (s.onRst fun r => { r with digestVerified := 0, digestRecorded := 0 }).clearResetRec

/-- The records of the reset and of a failed start (R490). -/
def State.resetRecords (s : State) : State :=
  let s := s.raise 40 (item1 s.rst.cause ++ item1 (if s.startsCold then 0 else 1) ++ item1 (if s.rst.drained then 1 else 0))
  if decide (s.rst.lastStep ≠ 0xFF) && causeFails s.rst.cause then
    s.raise 42 (item1 s.rst.cause ++ item1 s.rst.lastStep ++ item1 s.rst.failedStarts)
  else s

/-- A temperature as a signed 16-bit number in units of 0.125 °C. -/
def tempItem (t : Int) : Bytes := item2 (t % 65536).toNat

/-- Steps 2 to 6: domains, registers, temperature, DRAM and the Ledger (R479, R512, R602). -/
def State.powerUp (s : State) (cold : Bool) (i : StartIn) : State :=
  let s := (s.startRegs cold).onPwr fun p => { p with
    ps := 0, wakeSrc := 0, domains := List.replicate 30 .on, due := [], standby := false, shed := 0, takeover := false
    stage := 0, stageHeld := false, sensorA := false, sensorB := false, coldPlate := i.coldPlate
    p48 := 0, p3v3 := 0, inputDw := 0, opticsDw := 0, holdupReady := false, energyDj := 0, bankQv := 0, dieMax := 0 }
  let s := s.onSession fun x => { x with holder := 0 }
  let s := if i.coldPlate < -320 then s.raise 1124 (tempItem i.coldPlate) else s
  let s := s.onNfe fun n => { n with
    cageA := { n.cageA with railOn := true }, cageB := { n.cageB with railOn := true } }
  let s := if cold then (s.settleGroups.onEng fun e => { e with dram := [] }).onFlt fun f => { f with
      swatched := f.swatched.filter fun e => decide (e.1 ≠ 0) && decide (e.1 ≠ 1) } else s
  (s.onLdg fun l => { l with ready := true, groups := l.groups.map fun e => (e.1, e.2.restored) }).onRec fun r => { r with ready := true }

/-- Steps 7 to 13 (R479). -/
def State.bringUp (s : State) (cold : Bool) (i : StartIn) : State :=
  let s := if cold then s.forgetDigests else s.verifyRegions i
  let ok := s.rst.digestVerified
  let s := i.lostObjects.foldl State.lostObject s
  let s := (s.resumeVersions (objectLost i 0)).onSch fun h => { h with
    outcomes := if ok.getLsbD 4 then h.outcomes else [], holdWrites := !s.pwr.holdupReady }
  let s := s.restoreKeys (i.badSlots ++ (i.lostObjects.filter fun o => decide (o.1 = 6)).map (·.2))
  let s := s.restoreMaps (ok.getLsbD 3) i
  (s.restoreIndex (ok.getLsbD 0) (ok.getLsbD 1) (ok.getLsbD 2)).restoreRules (ok.getLsbD 4)

/-- The steps of a start up to the System Image (R479, R487): recovery with three failed starts, or with no set that
passes. -/
def State.chipStart (s : State) (i : StartIn) : State :=
  let cold := s.startsCold
  let s := s.resetRecords
  let s := (s.onPins fun p => { p with slotId := i.slotId % 8 }).onRst fun r => { r with
    releasedAt := s.flt.time, warm := !cold, powerLost := false, forceCold := false }
  if s.rst.failedStarts = 3 then s.enterRecovery
  else match s.chooseBank i.bankOk with
    | (none, s) => s.enterRecovery
    | (some _, s) =>
      (((s.powerUp cold i).bringUp cold i).onRst fun r => { r with run := .starting }).onPins fun p => { p with
        startSet := s.sec.setIdOf s.sec.runningBank }

/-- CHIP_START (R478 to R484, R487, R573, R606). -/
def execChipStart (i : StartIn) (s : State) : Host.Outcome State Fault Refusal :=
  .next (guardStep s.mayStartChip s fun s => s.chipStart i)

/-! ## START_DONE (R485, R486, R490) -/

/-- The System Image completes the start. -/
def State.completeStart (s : State) : State :=
  let ms := (s.flt.time - s.rst.releasedAt) / 1000000
  let s := s.onRst fun r => { r with run := .running, failedStarts := 0, startTime := ms % 2 ^ 32 }
  let s := s.onSch fun h => { h with recount := false }
  s.raise 41 (item1 (if s.rst.warm then 1 else 0) ++ item4 ms)

/-- START_DONE (R485): a write of 1 to RST_START.START_DONE counts after SYS_LOCK_ALL.ALL reads 1. -/
def State.startDone (s : State) : State :=
  guardStep (decide (s.rst.run = .starting) && decide (s.fld Reg.SYS_LOCK_ALL_ALL = 1)) s State.completeStart

/-- START_DONE (R485, R486). -/
def execStartDone (s : State) : Host.Outcome State Fault Refusal := .next s.startDone

/-! ## RECOVERY_DOWNLOAD (R488, R583) -/

/-- The first reason that bars a recovery image set: 2 to 4, 6 to 10 and 13 of R576. For reason 9 the running SET_ID is the
one that SEC_SET_ID shows (log 71). A delta, or a stream of another length, is malformed. -/
def State.recoveryRefusal (s : State) (m stream : Bytes) : Option Nat :=
  let full := (List.range 4).all fun i => decide (imgBase m i = 0) && decide (imgSent m i = imgLength m i)
  match [2, 3, 4].find? s.refuseHolds with
  | some r => some r
  | none =>
    if !manWellFormed m || !manSigned m || !full || decide (stream.length ≠ manStream m) then some 6
    else if s.sec.revoked.getLsbD (manSigner m) then some 7
    else if manEpoch m < s.sec.minEpoch then some 8
    else if !(manCompat m).contains (s.sec.setIdOf s.sec.runningBank) then some 9
    else if manTest m && !s.sec.testAllowed then some 10
    else if (s.buildSet m stream).matchesManifest then none else some 13

/-- The bank that a recovery writes: one that failed, bank 0 when both did; with none tried, the other than the known-good
one. -/
def State.recoveryBank (s : State) : Nat :=
  if s.sec.bankFailed.contains 0 then 0 else if s.sec.bankFailed.contains 1 then 1 else 1 - s.sec.goodBank

/-- The set is written, and becomes current and known-good; the drive resets (R486, R488, R583). -/
def State.recover (s : State) (x : ImageSet) : State :=
  let n := s.recoveryBank
  let s := (s.writeBank n x).onSec fun c => { c with
    runningBank := n, goodBank := n, minEpoch := max c.minEpoch x.epoch, bankFailed := [] }
  (s.onRst fun r => { r with failedStarts := 0 }).chipReset 9

/-- RECOVERY_DOWNLOAD (R488, R583). -/
def execRecoveryDownload (manifest stream : Bytes) (s : State) : Host.Outcome State Fault Refusal :=
  .next (guardStep (decide (s.rst.run = .recovery)) s fun s =>
    match s.recoveryRefusal manifest stream with
    | some r => (s.raise 1092 (item1 2 ++ item1 r)).send (.mgmt .updateRefused r [])
    | none => (s.send (.mgmt .ok 0 [])).recover (s.buildSet manifest stream))

end Sys2Proof.Machine
end

