-- ==== Sys2Proof/Machine/Power.lean ====
section
/-! DEFINITION. Power (chapter 16): PD00 and its loss of power, the domains and the power states (R491 to R498),
supply-sag shedding (R499 to R502), and the hold-up bank (R503 to R507). -/

namespace Sys2Proof.Machine

/-! ## PD00 (R473, R525, R535, R546, R568, R599) -/

/-- Whether PD00 is powered: from either rail. -/
def State.aonPowered (s : State) : Bool := s.pwr.p48Present || s.pwr.auxPresent

/-- PD00 has lost power: what it holds is gone. -/
def State.aonLost (s : State) : State :=
  let s := s.onFlt fun f => { f with
    raised := [], sticky := 0, broken := 0, lastBroken := 0, esc := [], escGroup := [], first := none, errOut := false
    errSrc := 0, time := 0, crcFails := []
    swatched := f.swatched.filter fun e => decide (e.1 = 2) || decide (e.1 = 5) }
  let s := s.onRec fun r => { r with
    srcSeq := [], fifo := [], waitFatal := [], coalescing := false, coal := [], fallback := none }
  let s := s.onSec fun x => { x with copyValid := false, budget := 0, tokenAt := 0, lastAttest := [], challenges := [], refs := [] }
  let s := s.onRst fun r => { r with
    cause := 0, drained := false, lastStep := 0, failedStarts := 0, releasedAt := 0, startTime := 0 }
  s.onPins fun p => { p with smbOffset := 0, smbDynamic := zeros 7 }

/-- PD00 starts without power: ROW_NEXT and the attestation budget resume from the Ledger, LIMIT_S is 120 (R485, R546,
R568). -/
def State.aonStart (s : State) : State :=
  let s := (s.onRec fun r => { r with rowNext := s.ldg.kept.rowCeiling }).rowCeiling
  let s := s.onSec fun x => { x with budget := (s.ldg.kept.leaf.map (·.2)).getD 0 }
  s.setFld Reg.RST_START_CFG_LIMIT_S 120

/-- A rail changes: PD00 may gain or lose its power. -/
def State.railsChanged (s : State) (f : Pwr → Pwr) : State :=
  let t := s.onPwr f
  if s.aonPowered && !t.aonPowered then t.aonLost
  else if !s.aonPowered && t.aonPowered then t.aonStart
  else t

/-! ## Domains (R491, R492) -/

/-- Domains that a domain needs (R491). -/
def domainNeeds (n : Nat) : List Nat :=
  if n = 0 then []
  else if n = 1 ∨ n = 29 then [0]
  else if n ≤ 6 then [1]
  else if n ≤ 8 then [9]
  else if n = 9 then [6, 27]
  else if n = 10 then [6, 26, 27]
  else if n = 16 then [15]
  else if n ≤ 25 then [6]
  else if n ≤ 27 then [1]
  else [6, 9]

/-- The mode of a domain in a power state (R491); `lp` is the port that PS1 puts in LP (R496). PD27 stays On for its bank
groups in PS2 and PS3. -/
def domainMode (ps lp n : Nat) : DomMode :=
  if n ≤ 1 ∨ n = 9 ∨ n = 27 ∨ n = 29 then .on
  else if n ≤ 6 ∨ n = 10 ∨ n = 17 then (if ps = 3 then .ret else .on)
  else if n ≤ 8 then (if 2 ≤ ps ∨ (ps = 1 ∧ n = lp) then .lp else .on)
  else if n ≤ 14 then (if 1 ≤ ps then .ret else .on)
  else if n = 15 then (if 2 ≤ ps then .off else .on)
  else if n = 16 then (if 2 ≤ ps then .ret else .on)
  else if n ≤ 25 then (if 2 ≤ ps then .park else .on)
  else if n = 26 then (if 2 ≤ ps then .sr else .on)
  else (if ps = 3 then .off else .on)

/-- Whether a domain may be switched on: every domain it needs is On. -/
def State.needsMet (s : State) (n : Nat) : Bool := (domainNeeds n).all s.domainOn

/-- The next domain to switch: the lowest that is due and whose needs are On. -/
def State.nextDue (s : State) : Option Nat := (s.pwr.due.find? fun e => s.needsMet e.1).map (·.1)

/-- DOMAIN_SWITCH (R491, R492): one domain is switched on, and work that waited for it goes on. -/
def execDomainSwitch (s : State) : Host.Outcome State Fault Refusal :=
  .next (match s.nextDue with
  | some n => (s.onPwr fun p => { p with domains := p.domains.set n .on, due := tdel p.due n }).pump
  | none => s)

/-- The bit of PWR_PHASE_FAULT of a domain with two phases (R493). -/
def phaseBit (n : Nat) : Option Nat :=
  if n = 0 then some 0 else if 18 ≤ n ∧ n ≤ 25 then some (n - 17) else if n = 26 then some 9 else if n = 27 then some 10
  else none

/-- PHASE_LOST (R493): the domain runs on its other phase. -/
def execPhaseLost (domain phase : Nat) (s : State) : Host.Outcome State Fault Refusal :=
  .next (match phaseBit domain with
  | some b => (s.setFld Reg.PWR_PHASE_FAULT_PHASE (s.fld Reg.PWR_PHASE_FAULT_PHASE ||| 2 ^ b)).raise 69
      (item1 domain ++ item1 phase)
  | none => s)

/-! ## Power states (R494 to R498) -/

/-- Whether the drive may leave PS0 (R495): it runs, nothing wakes, no command is under way, and ring 1 is empty. -/
def State.quiet1 (s : State) : Bool :=
  decide (s.rst.run = .running) && s.pwr.due.isEmpty && (s.sch.cmds.all fun e => e.2.completed) && s.peer.intake.isEmpty
    && (s.ring 1).queue.isEmpty && (s.ring 1).issued.isEmpty && s.mch.shift.isNone

/-- Whether it may leave PS1: rings 4 and 5 are empty too, no flash or Ledger operation is outstanding, and no rebuild
runs. -/
def State.quiet2 (s : State) : Bool :=
  s.quiet1 && ([4, 5].all fun n => (s.ring n).queue.isEmpty && (s.ring n).issued.isEmpty) && !s.idx.rebuilding
    && s.ftl.dieOps.isEmpty && s.ftl.copies.isEmpty && s.ftl.rebuilds.isEmpty && s.ftl.evacuate.isEmpty
    && s.ftl.moves.isEmpty && s.ftl.verifies.isEmpty && s.ftl.sumQueue.isEmpty && s.cip.checks.isEmpty
    && s.val.repairs.isEmpty && s.sch.gate.isEmpty && s.ldg.metaQueue.isEmpty

/-- Whether it may leave PS2: no block that is switched off or held has work. -/
def State.quiet3 (s : State) : Bool :=
  s.quiet2 && s.idx.pending.isEmpty && ((List.range 10).all fun n => (s.ring n).queue.isEmpty && (s.ring n).issued.isEmpty)

/-- ACTIVE client queue pairs of a port. -/
def State.activeOn (s : State) (p : Port) : Nat :=
  (s.nfe.qps.filter fun e => decide (e.2.st = .active) && e.2.conn.peer.isNone && decide (linkPort e.2.conn.link = p)).length

/-- The domain of the port that enters LP in PS1: the port with fewer ACTIVE client queue pairs, B on a tie (R496). -/
def State.lpPort (s : State) : Nat := if s.activeOn .a < s.activeOn .b then 7 else 8

/-- Enter a power state: every domain takes its mode; PS_CHANGE (R491, R495). -/
def State.enterPs (s : State) (ps : Nat) : State :=
  let old := s.pwr.ps
  let lp := s.lpPort
  (s.onPwr fun p => { p with ps := ps, due := [], domains := (List.range 30).map (domainMode ps lp) }).raise 70
    (item1 old ++ item1 ps ++ item1 s.pwr.wakeSrc)

/-- PS1_ENTRY (R495, R496). -/
def execPs1Entry (s : State) : Host.Outcome State Fault Refusal :=
  .next (guardStep (decide (s.pwr.ps = 0) && decide (s.fld Reg.PWR_PS_CFG_PS1_IDLE_MS ≠ 0) && s.quiet1) s fun s => s.enterPs 1)

/-- Go on to PS3 (R494, R497). -/
def State.enterStandby (s : State) : State := (s.enterPs 3).onPwr fun p => { p with standby := false }

/-- PS2_ENTRY (R495): a standby request goes on to PS3. -/
def execPs2Entry (s : State) : Host.Outcome State Fault Refusal :=
  .next (guardStep (decide (s.pwr.ps = 1) && decide (s.fld Reg.PWR_PS_CFG_PS2_IDLE_100MS ≠ 0) && s.quiet2) s fun s =>
    let s := s.enterPs 2
    if s.pwr.standby && s.quiet3 then s.enterStandby else s)

/-- PS3_ENTRY (R495): by the idle timer while no peer is linked, or by a standby request. -/
def execPs3Entry (s : State) : Host.Outcome State Fault Refusal :=
  .next (guardStep (decide (s.pwr.ps = 2) && s.quiet3 && (s.pwr.standby
    || (decide (s.fld Reg.PWR_PS_CFG_PS3_IDLE_S ≠ 0) && s.peersLinked.isEmpty))) s State.enterStandby)

/-- A standby request: from PS2 at once, from a state above it when PS2 is reached (R495). -/
def State.requestPs3 (s : State) : State :=
  if decide (s.pwr.ps = 2) && s.quiet3 then s.enterStandby
  else if s.pwr.ps = 3 then s
  else s.onPwr fun p => { p with standby := true }

/-- PS3_REQUEST (R495): 0x5B03 in PWR_PS_CTL. -/
def execPs3Request (s : State) : Host.Outcome State Fault Refusal := .next (guardStep s.engined s State.requestPs3)

/-- A wake event: PS0 at once, and every domain that is not On is due (R492, R494, R497). -/
def State.wake (s : State) (source : Nat) : State :=
  let s := s.onPwr fun p => { p with standby := false }
  if s.pwr.ps = 0 then s
  else
    let old := s.pwr.ps
    let due := ((List.range 30).filter fun n => !s.domainOn n).map fun n => (n, DomMode.on)
    ((s.onPwr fun p => { p with ps := 0, wakeSrc := source, due := due }).bump Reg.PWR_PS_STAT_WAKES).raise 70
      (item1 old ++ item1 0 ++ item1 source)

/-- PS0_REQUEST (R497): 0x5B00 in PWR_PS_CTL. -/
def execPs0Request (s : State) : Host.Outcome State Fault Refusal := .next (guardStep s.engined s fun s => s.wake 5)

/-- WAKE_EVENT (R497): 1 doorbell, 2 CM REQ, 3 peer, 4 ENG, 6 management. -/
def execWakeEvent (source : Nat) (s : State) : Host.Outcome State Fault Refusal :=
  .next (guardStep (s.engined && decide (1 ≤ source) && decide (source ≤ 6)) s fun s => s.wake source)

/-! ## Shedding (R499 to R502) -/

/-- The input threshold of a stage in units of 10 mV (R500). -/
def shedThreshold (stage : Nat) : Nat := 4000 - 100 * stage

/-- The bit of a stage. -/
def shedBit (stage : Nat) : BitVec 4 := (1 : BitVec 4) <<< (stage - 1)

/-- A sample of the input: PWR_INPUT_MIN keeps the lowest. -/
def State.inputSample (s : State) (input : Nat) : State :=
  (s.onPwr fun p => { p with p48 := input }).setFld Reg.PWR_INPUT_MIN_P48V_MIN_10MV
    (min (s.fld Reg.PWR_INPUT_MIN_P48V_MIN_10MV) input)

/-- Stage 1 of one command: a batch ends with a valid cursor, a COUNT ends, and one that has not begun ends too (R165,
R166). -/
def State.shedScan (s : State) (n : Nat) : State :=
  s.withCmd n (fun c => !c.decided && c.ctx.isSome) fun c =>
    let runs := c.scanCtx.isSome && decide (c.stage = .working)
    match c.op with
    | .scan => if runs then s.endBatch n .shed true else (s.addCond n .shed).failCmd n 0
    | .scanNext =>
      if runs then s.endBatch n .shed true
      else match s.handleCheck c with
        | .inl st => ((s.addCond n .shed).addCond n st).failCmd n 0
        | .inr _ => (s.addCond n .shed).failCmd n 0
    | .count => s.endCount n .shed
    | _ => s

/-- Whether a write has started its work at VAL, in the words of stage 3 (R500). -/
def State.valStarted (s : State) (c : Cmd) : Bool :=
  match c.stage with
  | .staged | .accepted | .started => false
  | .gated =>
    match c.op with
    | .delete => s.atFront c
    | .punch => (c.work.any fun e => decide (e.2 ≠ .hole)) || s.atFront c
    | _ => decide (0 < c.pos) || c.conds.isEmpty
  | _ => true

/-- Stage 3 of one command: a write that has not started ends without effect. -/
def State.shedWrite (s : State) (n : Nat) : State :=
  s.withCmd n (fun c => !c.decided && c.ctx.isSome && c.op.isWrite && !s.valStarted c) fun _ =>
    (s.addCond n .shed).failCmd n 0

/-- Stage 4 of one command: one that has not started ends with the highest of its conditions and SHED (R142), and a GET or HEAD
under way stops at its segment boundary; FLUSH, NOP and admin commands go on (R500, R501). -/
def State.shedAny (s : State) (n : Nat) : State :=
  s.withCmd n (fun c => !c.decided && c.ctx.isSome && !c.op.isAdmin && decide (c.op ≠ .flush) && decide (c.op ≠ .nop)) fun c =>
    if c.stage = .staged ∨ c.stage = .accepted then (s.addCond n .shed).failCmd n 0
    else match c.op with
      | .get => s.endRead n .shed
      | .head => s.endCmd n (Outcome.of .shed)
      | _ => s

/-- Put a command at its place among ascending versions. -/
def placeVersion (e : Nat × Nat) : List (Nat × Nat) → List (Nat × Nat)
  | [] => [e]
  | x :: xs => if e.2 ≤ x.2 then e :: x :: xs else x :: placeVersion e xs

/-- The commands in the order of their versions, in which their gates decide (R87, R175). -/
def State.byVersion (s : State) : List Nat :=
  ((s.sch.cmds.map fun e => (e.1, e.2.version)).foldr placeVersion []).map (·.1)

/-- What a stage does when it enters (R440, R500). -/
def State.stageActions (s : State) (stage : Nat) : State :=
  let ns := s.sch.cmds.map (·.1)
  match stage with
  | 1 =>
    let s := (ns.foldl State.shedScan s).capHalves
    s.onMch fun m => { m with waitCtx := m.waitCtx.filter fun n => ((s.cmd? n).map fun c => !c.decided).getD false }
  | 2 => (s.byVersion.foldl State.ackTimedOut (s.onPeer fun p => { p with suspended := true })).serveRestores
  | 3 => ns.foldl State.shedWrite s
  | _ => ns.foldl State.shedAny s

/-- One stage enters: SHED_STAGE_ENTERED, then its actions. -/
def State.enterShed (s : State) (input stage : Nat) : State :=
  let s := s.onPwr fun p => { p with shed := p.shed ||| shedBit stage }
  let s := s.setFld Reg.PWR_SHED_STAT_SEEN (s.fld Reg.PWR_SHED_STAT_SEEN ||| 2 ^ (stage - 1))
  (s.raise 64 (item1 stage ++ item2 input)).stageActions stage

/-- Whether a stage is in force. -/
def State.shedding (s : State) (stage : Nat) : Bool := s.pwr.shed.getLsbD (stage - 1)

/-- SHED_STAGE_ENTERED (R440, R499 to R502): the stages whose thresholds the input has crossed, up to the one named, enter in
one cycle. -/
def execShedStageEntered (stage input : Nat) (s : State) : Host.Outcome State Fault Refusal :=
  .next (guardStep (s.engined && decide (1 ≤ stage) && decide (stage ≤ 4) && !s.shedding stage
      && decide (input < shedThreshold stage)) s fun s =>
    ([1, 2, 3, 4].filter fun k => decide (k ≤ stage) && !s.shedding k).foldl (fun s k => s.enterShed input k)
      (s.inputSample input))

/-- What resumes when a stage lifts (R440, R500). -/
def State.stageResumes (s : State) (stage : Nat) : State :=
  match stage with
  | 1 => s.serveHalves s.mch.waitHalves.length
  | 2 => s.onPeer fun p => { p with suspended := false }
  | _ => s

/-- SHED_STAGE_LEFT (R440, R499): not while a deeper stage is in force. -/
def execShedStageLeft (stage ms : Nat) (s : State) : Host.Outcome State Fault Refusal :=
  .next (guardStep (decide (1 ≤ stage) && decide (stage ≤ 4) && s.shedding stage
      && ([1, 2, 3, 4].all fun k => decide (k ≤ stage) || !s.shedding k)) s fun s =>
    ((s.onPwr fun p => { p with shed := p.shed &&& ~~~shedBit stage }).raise 65 (item1 stage ++ item4 ms)).stageResumes stage)

/-! ## Hold-up (R503 to R507) -/

/-- Every open row takes its partial parity; those of layout R put theirs into the PAR stream, whose superblocks come last (R394,
R506). -/
def State.partialRows (s : State) : State :=
  let s := (s.ftl.sbs.filter fun e => decide (e.2.done ≠ 0) && decide (e.2.stream ≠ 6)).foldl (fun s e => s.partialRow e.1) s
  (s.ftl.sbs.filter fun e => decide (e.2.stream = 6) && e.2.programs && decide (e.2.rows * e.2.rowWords < e.2.nextQ)).foldl
    (fun s e => s.partialPar e.1) s

/-- The module powers down from the bank (R394, R506, R507, R489): open rows take their partial parity, and the reset of cause
HOLDUP ends it. -/
def State.orderlyDown (s : State) : State :=
  match s.rst.run with
  | .off => s
  | .inReset => (s.onRst fun r => { r with cause := 7 }).mainOff
  | _ => ((s.onPwr fun p => { p with takeover := true }).partialRows).chipReset 7

/-- HOLDUP_TAKEOVER (R330, R474, R489, R499, R502, R506, R507): two samples below 35.0 V. -/
def execHoldupTakeover (input bank : Nat) (s : State) : Host.Outcome State Fault Refusal :=
  .next (guardStep (s.pwr.p48Present && decide (input < 3500)) s fun s =>
    let s := s.inputSample input
    let s := if s.rst.run = .off then s else s.raise 66 (item2 input ++ item1 bank)
    s.orderlyDown.railsChanged fun p => { p with p48Present := false, bankQv := bank % 256 })

/-- Whether the measured energy in units of 0.1 J makes the bank READY (R504). -/
def bankEnough (dj : Nat) : Bool := 30 ≤ dj

/-- HOLDUP_TEST (R504): the capacitance measured gives the usable energy at full charge. -/
def execHoldupTest (energyDj : Nat) (s : State) : Host.Outcome State Fault Refusal :=
  let ok := bankEnough energyDj
  let s := s.onPwr fun p => { p with energyDj := min energyDj 255, holdupReady := p.holdupReady && ok }
  let s := s.setFld Reg.PWR_HOLDUP_STAT_TEST_FAILED (if ok then 0 else 1)
  .next (if ok then s else s.raise 68 (item4 energyDj))

/-- The writes held since the start go on (R505). -/
def State.releaseWrites (s : State) : State := s.onSch fun h => { h with holdWrites := false }

/-- HOLDUP_READY (R503 to R505): the usable energy has reached 3.0 J; how much it is, up to the 12.07 J of a full bank, and the
bank's voltage, above 30.0 V and up to 62.0 V, are free values. -/
def execHoldupReady (s : State) : Host.Outcome State Fault Refusal :=
  let (e, s) := s.drawNat
  let (v, s) := s.drawNat
  .next ((s.onPwr fun p => { p with holdupReady := true, energyDj := 30 + e % 91, bankQv := 121 + v % 128 }).releaseWrites)

/-- HOLDUP_NOT_READY (R505): 10 s after the release of the reset. -/
def execHoldupNotReady (s : State) : Host.Outcome State Fault Refusal :=
  .next (guardStep (s.engined && s.sch.holdWrites && !s.pwr.holdupReady) s fun s =>
    s.releaseWrites.raise 67 (item4 s.pwr.energyDj))

end Sys2Proof.Machine
end

