-- ==== Sys2Proof/Machine/Thermal.lean ====
section
/-! DEFINITION. Temperature (R508 to R512) and the reference clock (R31). Temperatures are in units of 0.125 °C. -/

namespace Sys2Proof.Machine

/-- The entry temperature of a stage (R509). -/
def enterTemp (stage : Nat) : Int := 8 * ([0, 95, 105, 110, 120].getD stage 0)

/-- EARLY_C in units of 0.125 °C. -/
def State.earlyTemp (s : State) : Int := 8 * (s.fld Reg.THM_CFG_EARLY_C : Int)

/-- A stage takes effect: PEAK keeps the highest, and the halves are capped (R509). -/
def State.enterThermal (s : State) (stage : Nat) (temp : Int) : State :=
  let s := s.onPwr fun p => { p with stage := stage }
  let s := s.setFld Reg.THM_STAGE_PEAK (max (s.fld Reg.THM_STAGE_PEAK) stage)
  (s.raise 1120 (item1 stage ++ tempItem temp)).capHalves

/-- THERMAL_STAGE_ENTERED (R502, R509, R512): one sample at or above the stage's entry temperature. -/
def execThermalStageEntered (stage : Nat) (temp : Int) (s : State) : Host.Outcome State Fault Refusal :=
  .next (guardStep (decide (stage ≤ 4) && decide (s.pwr.stage < stage) && decide (enterTemp stage - s.earlyTemp ≤ temp)) s
    fun s => (s.onPwr fun p => { p with coldPlate := temp }).enterThermal stage temp)

/-- THERMAL_STAGE_LEFT (R509): the next stage below is in force; stage 3 is held after both sensors have failed (R508). -/
def execThermalStageLeft (stage seconds : Nat) (s : State) : Host.Outcome State Fault Refusal :=
  .next (guardStep (decide (1 ≤ stage) && decide (s.pwr.stage = stage) && !(s.pwr.stageHeld && decide (stage = 3))) s fun s =>
    let s := s.onPwr fun p => { p with stage := stage - 1 }
    let s := if stage = 1 then s.bump Reg.THM_TIME_THROTTLE_S seconds else s
    let s := s.raise 1121 (item1 stage ++ item4 seconds)
    s.serveHalves s.mch.waitHalves.length)

/-- Whether a cold-plate sensor reads within −55 °C to +150 °C (R508). -/
def sensorInRange (t : Int) : Bool := decide (-440 ≤ t) && decide (t ≤ 1200)

/-- The distance of a sensor from the junction maximum minus 15 °C. -/
def sensorGap (t junction : Int) : Nat := (t - (junction - 120)).natAbs

/-- Which sensors are rejected (R508): those out of range, and of two in range that differ by more than 10 °C the one
farther from the junction maximum minus 15 °C; A stays on a tie. -/
def rejected (a b junction : Int) : Bool × Bool :=
  if sensorInRange a && sensorInRange b then
    if 80 < (a - b).natAbs then
      (if sensorGap b junction < sensorGap a junction then (true, false) else (false, true))
    else (false, false)
  else (!sensorInRange a, !sensorInRange b)

/-- The cold-plate temperature: the higher of the sensors in use, and the last one when both have failed. -/
def coldPlateOf (ra rb : Bool) (a b old : Int) : Int :=
  match ra, rb with
  | false, false => max a b
  | true, false => b
  | false, true => a
  | true, true => old

/-- THM_SENSOR_FAULT (R508): recorded for each sensor newly rejected, 0 for A and 1 for B. -/
def execThmSensorFault (sensorA sensorB junction : Int) (s : State) : Host.Outcome State Fault Refusal :=
  let r := rejected sensorA sensorB junction
  let newA := r.1 && !s.pwr.sensorA
  let newB := r.2 && !s.pwr.sensorB
  let s := s.onPwr fun p => { p with
    sensorA := r.1, sensorB := r.2, dieMax := junction, coldPlate := coldPlateOf r.1 r.2 sensorA sensorB p.coldPlate
    stageHeld := p.stageHeld || (r.1 && r.2) }
  let s := if newA then s.raise 1122 (item1 0) else s
  let s := if newB then s.raise 1122 (item1 1) else s
  .next (if r.1 && r.2 && decide (s.pwr.stage < 3) then s.enterThermal 3 s.pwr.coldPlate else s)

/-- THERMAL_CRITICAL (R511): the cold plate at or above 128.0 °C for 1 s, or a junction at 140.0 °C. FLT resets the chip by
the event; PD00 holds that reset. -/
def execThermalCritical (coldPlate junction : Int) (s : State) : Host.Outcome State Fault Refusal :=
  .next (guardStep (decide (1024 ≤ coldPlate) || decide (1120 ≤ junction)) s fun s =>
    let s := (s.onPwr fun p => { p with coldPlate := coldPlate, dieMax := junction }).onRst fun r => { r with
      heldThermal := true }
    s.raise 1123 (tempItem coldPlate ++ tempItem junction))

/-- THERMAL_RESET_RELEASE (R511): the cold plate has stayed below 115.0 °C for 10 s. -/
def execThermalResetRelease (s : State) : Host.Outcome State Fault Refusal :=
  .next (s.onRst fun r => { r with heldThermal := false })

/-- OVERTEMP (R324): a die above 150 °C raises alarm source 3. -/
def execOvertemp (temp : Int) (s : State) : Host.Outcome State Fault Refusal :=
  .next (guardStep (decide (1200 < temp)) s fun s => (s.onPwr fun p => { p with dieMax := temp }).cipAlarm 8)

/-- CLOCK_FAULT (R31, R324, R529): four periods with fewer than 2,900 or more than 3,200 edges; the fatal event, to which FLT
reacts at FAULT_EVENT, and alarm source 2. -/
def execClockFault (edges : Nat) (s : State) : Host.Outcome State Fault Refusal :=
  .next (guardStep (decide (edges < 2900) || decide (3200 < edges)) s fun s => (s.raise 3 (item4 edges)).cipAlarm 4)

end Sys2Proof.Machine
end

