-- ==== Sys2Proof/Machine/Pins.lean ====
section
/-! DEFINITION. The module's pins and rails (R589, R599, R602), the sideband identity (R595, R596) and the management port
(R587). -/

namespace Sys2Proof.Machine

/-! ## Rails (R599) -/

/-- P48V_APPLIED (R474, R507, R599): POWER_ON, unless PD00 still holds the cause of an orderly power-down (R489). -/
def execP48vApplied (s : State) : Host.Outcome State Fault Refusal :=
  .next (guardStep (!s.pwr.p48Present) s fun s =>
    let (v, s) := s.drawNat
    let s := s.railsChanged fun p => { p with p48Present := true, p48 := v % 65536 }
    s.onRst fun r => { r with cause := if r.cause = 7 then 7 else 0, drained := false, powerLost := true })

/-- P3V3_AUX_LOST (R513, R599); the rail's voltage is a free value. -/
def execP3v3AuxLost (s : State) : Host.Outcome State Fault Refusal :=
  .next (guardStep s.pwr.auxPresent s fun s =>
    let (v, s) := s.drawNat
    (s.raise 71 []).railsChanged fun p => { p with auxPresent := false, p3v3 := v % 65536 })

/-- P3V3_AUX_APPLIED (R546, R568, R599). -/
def execP3v3AuxApplied (s : State) : Host.Outcome State Fault Refusal :=
  .next (guardStep (!s.pwr.auxPresent) s fun s =>
    let (v, s) := s.drawNat
    s.railsChanged fun p => { p with auxPresent := true, p3v3 := v % 65536 })

/-! ## Control inputs (R589, R602) -/

/-- RESET_IN_ASSERT (R199, R474, R489, R582, R589): the reset holds while the pin is low. -/
def execResetInAssert (s : State) : Host.Outcome State Fault Refusal :=
  .next (((s.onPins fun p => { p with resetInLow := true }).onRst fun r => { r with heldPin := true }).chipReset 1)

/-- RESET_IN_RELEASE (R589): the start follows. -/
def execResetInRelease (s : State) : Host.Outcome State Fault Refusal :=
  .next ((s.onPins fun p => { p with resetInLow := false }).onRst fun r => { r with heldPin := false })

/-- A power-down from outside: its chip reset, and off at once when the reset is already asserted (R589, R602). -/
def State.powerOff (s : State) : State :=
  match s.rst.run with
  | .inReset => s.mainOff
  | _ => s.chipReset 8

/-- PWR_DISABLE_ASSERT (R474, R589, R602). -/
def execPwrDisableAssert (s : State) : Host.Outcome State Fault Refusal :=
  .next (guardStep (!s.pins.pwrDisable) s fun s => (s.onPins fun p => { p with pwrDisable := true }).powerOff)

/-- PWR_DISABLE_RELEASE (R589): with P48V present a cast-on begins. -/
def execPwrDisableRelease (s : State) : Host.Outcome State Fault Refusal :=
  .next (s.onPins fun p => { p with pwrDisable := false })

/-- PRESENT_N_FALL (R589, R599): PRESENT_N has been low for 100 ms; the converters may run. -/
def execPresentNFall (s : State) : Host.Outcome State Fault Refusal :=
  .next (s.onPins fun p => { p with presentLow := true })

/-- PRESENT_N_RISE (R589): as an assertion of PWR_DISABLE. -/
def execPresentNRise (s : State) : Host.Outcome State Fault Refusal :=
  .next (guardStep s.pins.presentLow s fun s => (s.onPins fun p => { p with presentLow := false }).powerOff)

/-- TRANSPORT_SENSE_RISE (R589): indicated at once. -/
def execTransportSenseRise (s : State) : Host.Outcome State Fault Refusal :=
  .next (s.onPins fun p => { p with transportHigh := true, transport := true })

/-- TRANSPORT_SENSE_CLEAR (R589): the pin has been low for 10 s. -/
def execTransportSenseClear (s : State) : Host.Outcome State Fault Refusal :=
  .next (s.onPins fun p => { p with transportHigh := false, transport := false })

/-! ## Sideband identity (R595, R596) -/

/-- MODULE_STATE (R596). -/
def State.moduleState (s : State) : Nat :=
  (if s.pwr.p48Present then 1 else 0) + (if s.rst.run = .running then 2 else 0) + (if s.rst.run = .recovery then 4 else 0)
    + (if s.ldg.kept.bindOff then 8 else 0) + (if s.flt.errOut then 16 else 0) + (if s.pins.transport then 32 else 0)
    + (if s.pwr.holdupReady then 64 else 0)

/-- The dynamic fields at offsets 53 to 59 (R596). -/
def State.identityDynamic (s : State) : Bytes :=
  leBytes 1 s.moduleState ++ (if s.pwr.p48Present then tempItem s.pwr.coldPlate else leBytes 2 0x8000)
    ++ leBytes 2 (if s.pwr.p48Present then s.pwr.inputDw else 0) ++ leBytes 2 165

/-- Bytes 0 to 123 of the identity data (R596); BOARD_REV is fixed by the build. -/
def State.identityBody (s : State) : Bytes :=
  [0x56, 1] ++ leBytes 2 128 ++ padTo 16 (ascii "VXK-640") ++ padTo 16 (slice Config.identityBlock 32 16) ++ driveUid
    ++ leBytes 1 (s.pins.slotId % 8) ++ padTo 7 s.pins.smbDynamic ++ leBytes 2 40 ++ leBytes 2 Config.boardRev
    ++ leBytes 8 640000000000000 ++ leBytes 4 s.pins.startSet ++ zeros 48

/-- The 128 bytes of the identity data with ID_CRC (R279, R596). -/
def State.identityData (s : State) : Bytes :=
  s.identityBody ++ leBytes 2 (crc16 0 s.identityBody).toNat ++ zeros 2

/-- `n` bytes from an offset, wrapping at 128. -/
def wrapRead (b : Bytes) (off : Nat) : Nat → Bytes
  | 0 => []
  | n + 1 => b.getD (off % 128) 0 :: wrapRead b (off + 1) n

/-- SMBUS_OFFSET_WRITE (R595): the first byte is the offset; each further byte is refused with a NACK. -/
def execSmbusOffsetWrite (raw : Bytes) (s : State) : Host.Outcome State Fault Refusal :=
  .next (guardStep s.aonPowered s fun s =>
    match raw with
    | [] => s
    | b :: more => more.foldl (fun s _ => s.send (.smbus none)) (s.onPins fun p => { p with smbOffset := b.toNat % 128 }))

/-- SMBUS_READ (R595, R596): bytes of one snapshot from the offset on. -/
def execSmbusRead (n : Nat) (s : State) : Host.Outcome State Fault Refusal :=
  .next (guardStep s.aonPowered s fun s =>
    (s.send (.smbus (some (wrapRead s.identityData s.pins.smbOffset n)))).onPins fun p => { p with
      smbOffset := (p.smbOffset + n) % 128 })

/-- The power drawn is measured (PWR_POWER): free values in units of 0.1 W. -/
def State.samplePower (s : State) : State :=
  let (p, s) := s.drawNat
  let (o, s) := s.drawNat
  s.onPwr fun x => { x with inputDw := p % 65536, opticsDw := o % 65536 }

/-- IDENTITY_REFRESH (R596). -/
def execIdentityRefresh (s : State) : Host.Outcome State Fault Refusal :=
  .next (guardStep s.aonPowered s fun s =>
    let s := s.samplePower
    s.onPins fun p => { p with smbDynamic := s.identityDynamic })

/-! ## Management port (R587) -/

/-- WILLADRA_CONNECTION (R587): TLS 1.3 only. -/
def execWilladraConnection (tlsMinor : Nat) (s : State) : Host.Outcome State Fault Refusal :=
  .next (guardStep (s.domainOn 29) s fun s =>
    if tlsMinor = 3 then (s.onPins fun p => { p with tlsOpen := p.tlsOpen + 1 }).send (.tls true) else s.send (.tls false))

end Sys2Proof.Machine
end

