-- ==== Sys2Proof/Machine/RegView.lean ====
section
/-! DEFINITION. What the drive shows of itself: the register fields that hardware computes (the RO fields of the chapters'
register tables), the registers of a block as a read finds them, the interrupt lines (R470), the error and attention
outputs and the LEDs (R591, R593, R594). -/

namespace Sys2Proof.Machine

/-- A flag as a number. -/
def flag (b : Bool) : Nat := if b then 1 else 0

/-- Some flags as a mask, the first in bit 0. -/
def maskOf (bs : List Bool) : Nat := bs.foldr (fun b n => flag b + 2 * n) 0

/-- The low and the high word of a 64-bit quantity. -/
def loWord (n : Nat) : Nat := n % 2 ^ 32
def hiWord (n : Nat) : Nat := n / 2 ^ 32 % 2 ^ 32

/-! ## The data plane's blocks -/

/-- QPM: client contexts in ACTIVE or DRAINING. -/
def State.activeQps (s : State) : Nat := (s.nfe.qps.filter fun e => decide (e.1 < 16384) && e.2.live).length

/-- Fields of QPM, SCH and IDX. -/
def State.viewFront (s : State) (a : Nat) : List (Field × Nat) :=
  match a with
  | 0x50010 => [(Reg.QPM_QP_COUNT_ACTIVE_QPS, s.activeQps)]
  | 0x60000 => [(Reg.SCH_VERSION_LO_NEXT_LO, loWord s.sch.nextVersion)]
  | 0x60004 => [(Reg.SCH_VERSION_HI_NEXT_HI, hiWord s.sch.nextVersion)]
  | 0x60020 => [(Reg.SCH_RETAIN_STAT_FREE_ENTRIES, 1048576 - s.retained)]
  | 0x70000 => [(Reg.IDX_STATUS_POISONED, flag !s.idx.poison.isEmpty), (Reg.IDX_STATUS_REBUILD_ACTIVE, flag s.idx.rebuilding),
      (Reg.IDX_STATUS_MIRROR_READY, flag s.idx.mirrorReady), (Reg.IDX_STATUS_TABLE_READY, flag s.idx.tableReady)]
  | 0x70004 => [(Reg.IDX_KEYS_LO_KEYS_LO, loWord s.tableSlots.length)]
  | 0x70008 => [(Reg.IDX_KEYS_HI_KEYS_32, hiWord s.tableSlots.length)]
  | 0x7000C => [(Reg.IDX_PINS_PINNED_KEYS, (s.tableSlots.filter fun x => x.pinned).length)]
  | 0x70014 => [(Reg.IDX_REBUILD_MARK_LO_MARK_LO, loWord s.idx.mark)]
  | 0x70018 => [(Reg.IDX_REBUILD_MARK_HI_MARK_HI, hiWord s.idx.mark)]
  | 0x70024 => [(Reg.IDX_POISON_STAT_POISON_COUNT, s.idx.poison.length)]
  | _ => []

/-- Whether a prefix-rule bank is clocked (R231, R249, R250): the mask of the level's lowest die names it, it holds a rule,
and the die is On. -/
def State.bankClocked (s : State) (die bank : Nat) : Bool :=
  s.domainOn (11 + die) && inMask s.policyMask (die / s.ruleSegs * s.ruleSegs) bank
    && s.mch.rules.any fun e => (s.diesOf e.1).contains die && decide (bankOf e.1 = bank)

/-- Whether an automaton bank has a running half (R249, R261). -/
def State.bankRuns (s : State) (die bank : Nat) : Bool :=
  (tget s.mch.halves (64 * die + 2 * bank)).isSome || (tget s.mch.halves (64 * die + 2 * bank + 1)).isSome

/-- Fields of MCH and of the match dies. -/
def State.viewMatch (s : State) (a : Nat) : List (Field × Nat) :=
  if a = 0x80004 then
    [(Reg.MCH_STATUS_SHIFT_ACTIVE, flag s.mch.shift.isSome), (Reg.MCH_STATUS_VALID_ENTRIES, s.validEntries)]
  else if a = 0x8002C then
    [(Reg.MCH_HALVES_STAT_SEARCHES, s.searches), (Reg.MCH_HALVES_STAT_HALVES_BUSY, s.mch.halves.length)]
  else
    let n := (a - 0xA0000) / 0x10000
    if a = 0xA0004 + 0x10000 * n ∧ n < 4 then
      [(Reg.MD_PREFIX_ON_BANKS n, maskOf ((List.range 32).map (s.bankClocked n)))]
    else if a = 0xA0008 + 0x10000 * n ∧ n < 4 then
      [(Reg.MD_AUTO_ON_BANKS n, maskOf ((List.range 32).map (s.bankRuns n)))]
    else []

/-- The slot that CIP_SLOT_SEL selects. -/
def State.shownSlot (s : State) : Nat := min (s.fld Reg.CIP_SLOT_SEL_SLOT) 0x43F

/-- Whether VAL has work. -/
def State.valBusy (s : State) : Bool :=
  !s.val.repairs.isEmpty || s.sch.cmds.any fun e => decide (e.2.stage = .working) && e.2.scanCtx.isNone

/-- Fields of VAL and CIP. How many compressors and intake lanes work in the cycle of a read is a free value while VAL has
work, and none without (R14). -/
def State.viewValue (s : State) (a : Nat) : List (Field × Nat) :=
  let k := s.slot s.shownSlot
  match a with
  | 0xE0004 => [(Reg.VAL_STATUS_REPAIRS_ACTIVE, s.val.repairs.length),
      (Reg.VAL_STATUS_COMPRESSORS_BUSY, if s.valBusy then Config.freeNat s.free % 33 else 0),
      (Reg.VAL_STATUS_INTAKE_BUSY, if s.valBusy then Config.freeNat (s.free + 1) % 17 else 0)]
  | 0xF0004 => [(Reg.CIP_STATUS_ALARM, flag s.cip.alarm), (Reg.CIP_STATUS_KEK_READY, flag s.cip.kekReady),
      (Reg.CIP_STATUS_RESTORE_DONE, flag s.cip.restoreDone),
      (Reg.CIP_STATUS_SLOTS_LOADED, (s.cip.slots.filter fun e => e.2.st = .loaded).length),
      (Reg.CIP_STATUS_LANES_ONLINE, s.cip.lanes.toNat)]
  | 0xF0018 => [(Reg.CIP_ALARM_STAT_SOURCES, s.cip.alarmSources.toNat)]
  | 0xF0024 => [(Reg.CIP_SLOT_INFO_STATE, k.st.code), (Reg.CIP_SLOT_INFO_RETIRED, flag !k.retired.isEmpty),
      (Reg.CIP_SLOT_INFO_GEN, k.gen)]
  | 0xF0028 => [(Reg.CIP_SLOT_EPOCH_EPOCH, k.epoch)]
  | 0xF002C => [(Reg.CIP_SLOT_CTR_LO_CTR_LO, loWord k.counter)]
  | 0xF0030 => [(Reg.CIP_SLOT_CTR_HI_CTR_HI, hiWord k.counter)]
  | 0xF0034 => [(Reg.CIP_SLOT_SERIAL_REFS, min k.refs 0xFFFF), (Reg.CIP_SLOT_SERIAL_KEY_SERIAL, k.serial)]
  | _ => []

/-- Line writes of a group as a percentage of 10^8 per rotating line. -/
def wearPct (writes lines : Nat) : Nat := min 255 (100 * writes / (lines * 100000000))

/-- Fields of LDG. -/
def State.viewLedger (s : State) (a : Nat) : List (Field × Nat) :=
  let writes := s.ldg.groups.map fun e => e.2.writes
  match a with
  | 0x100000 => [(Reg.LDG_STATUS_FAILED_GROUPS, min 15 (s.ldg.groups.filter fun e => e.2.failed).length),
      (Reg.LDG_STATUS_SPARE_LOW, flag (s.spareLineLow 0 || s.spareLineLow 1)),
      (Reg.LDG_STATUS_DEV1_FAILED, flag s.ldg.dev1Failed), (Reg.LDG_STATUS_DEV0_FAILED, flag s.ldg.dev0Failed),
      (Reg.LDG_STATUS_READY, flag s.ldg.ready)]
  | 0x100004 => [(Reg.LDG_GAUGE_LEVEL_LEVEL_KIB, s.ldg.level / 16)]
  | 0x100014 => [(Reg.LDG_WEAR_STAT_WEAR_MAX_PCT, wearPct (writes.foldl max 0) 250881),
      (Reg.LDG_WEAR_STAT_WEAR_MEAN_PCT, wearPct (writes.foldl (· + ·) 0) (256 * 250881))]
  | 0x100018 => [(Reg.LDG_SPARE_STAT_SPARE_FREE, s.sparesLeft 0 + s.sparesLeft 1)]
  | 0x100020 | 0x100024 | 0x100028 | 0x10002C | 0x100030 =>
    let n := (a - 0x100020) / 4
    [(Reg.LDG_CLASS_FREE_FREE_KIB n, s.classFree n / 1024)]
  | _ => []

/-- The mean of WEAR / 40 over the superblocks that are not RETIRED; those not in the table have WEAR 0. -/
def State.meanWear (s : State) : Nat :=
  let kept := s.ftl.sbs.filter fun e => e.2.st ≠ .retired
  (kept.map fun e => e.2.wear).foldl (· + ·) 0 / (40 * max 1 (sbTotal - (s.ftl.sbs.length - kept.length)))

/-- Fields of FTL; the counts read 0 until MAP_READY. -/
def State.viewFlash (s : State) (a : Nat) : List (Field × Nat) :=
  let once (n : Nat) : Nat := if s.ftl.mapReady then n else 0
  match a with
  | 0x110004 => [(Reg.FTL_SLC_STAT_TARGET_SB, once s.targetSb), (Reg.FTL_SLC_STAT_SLC_SB, once s.slcSbs)]
  | 0x110008 => [(Reg.FTL_FILL_FILL_PERMILLE, once s.fillPermille)]
  | 0x110010 => [(Reg.FTL_MAP_STAT_FINE_SKEINS, once s.fineSkeins)]
  | 0x110014 => [(Reg.FTL_STATUS_DIRECT_MODE, once (flag s.directMode)), (Reg.FTL_STATUS_MAP_READY, flag s.ftl.mapReady)]
  | 0x110030 => [(Reg.FTL_SB_STAT_UNVERIFIED, once s.unverified), (Reg.FTL_SB_STAT_FREE_SB, once s.freeSbs)]
  | 0x110034 => [(Reg.FTL_SPARE_STAT_PAR_SB, s.parSbs), (Reg.FTL_SPARE_STAT_SPARE_MEMBERS, s.spareMembers)]
  | 0x110038 => [(Reg.FTL_WEAR_STAT_WEAR_MAX, ((s.ftl.sbs.filter fun e => decide (e.2.st ≠ .retired)).map fun e => e.2.wear).foldl max 0 / 40),
      (Reg.FTL_WEAR_STAT_WEAR_MEAN, s.meanWear)]
  | 0x110040 => [(Reg.FTL_BINDOFF_DEGRADED_GROUPS, s.ftl.degraded.length),
      (Reg.FTL_BINDOFF_SPARE_LOW, flag (decide (s.spareMembers < 64 * s.fld Reg.FTL_WEAR_CFG_SPARE_WARN))),
      (Reg.FTL_BINDOFF_BIND_OFF, flag s.ldg.kept.bindOff)]
  | _ => []

/-- The code of a peer's live state (PEER_LINK_STATE). -/
def PeerLive.code : PeerLive → Nat
  | .down => 0 | .linking => 1 | .up => 2

/-- Chain writes that wait for a peer's acknowledgement: those whose next hop it is. -/
def State.awaiting (s : State) (peer : Nat) : Nat :=
  (s.sch.cmds.filter fun e => decide (e.2.stage = .forwarded) && decide (e.2.path.head? = some peer)).length

/-- Fields of PEER. -/
def State.viewPeer (s : State) (a : Nat) : List (Field × Nat) :=
  let p := s.fld Reg.PEER_LINK_SEL_PEER
  match a with
  | 0x13000C => [(Reg.PEER_STATUS_SUSPENDED, flag s.peer.suspended),
      (Reg.PEER_STATUS_PEERS_UP, (s.peer.live.filter fun e => e.2 = .up).length),
      (Reg.PEER_STATUS_PEERS_LINKED, s.peersLinked.length)]
  | 0x130014 => [(Reg.PEER_LINK_STATE_STATE, (s.peerLive p).code), (Reg.PEER_LINK_STATE_QP_A, flag (s.peerOnPort p .a)),
      (Reg.PEER_LINK_STATE_QP_B, flag (s.peerOnPort p .b)), (Reg.PEER_LINK_STATE_OUTSTANDING, min 0xFFFF (s.awaiting p))]
  | _ => []

/-! ## ENG, RST, PWR and THM -/

/-- Whether the fault collector's interrupt is pending (FLT_IRQ_CNT). -/
def State.fltIrq (s : State) : Bool := decide (s.fld Reg.FLT_IRQ_CNT_COUNT ≠ 0)

/-- The pool that ENG_CREDIT_SEL selects (R467): values of QUEUE above 13 act as 13, and CHANNEL is for queue 9. -/
def State.shownPool (s : State) : Nat × Nat × Nat :=
  let q := min 13 (s.fld Reg.ENG_CREDIT_SEL_QUEUE)
  (q, if q = 9 then s.fld Reg.ENG_CREDIT_SEL_CHANNEL else 0, s.fld Reg.ENG_CREDIT_SEL_CLASS)

/-- Fields of ENG. -/
def State.viewEng (s : State) (a : Nat) : List (Field × Nat) :=
  let (q, ch, cls) := s.shownPool
  let n := (a - 0x141000) / 0x20
  if a = 0x140010 then
    [(Reg.ENG_IRQ_STAT_RING_ERR, flag s.eng.irqErr), (Reg.ENG_IRQ_STAT_FLT, flag s.fltIrq),
      (Reg.ENG_IRQ_STAT_RING, s.eng.irqRings.toNat)]
  else if a = 0x140024 then
    [(Reg.ENG_CREDIT_VIEW_CAPACITY, capacity q cls), (Reg.ENG_CREDIT_VIEW_COUNTER, (s.pool q ch cls).1)]
  else if a = 0x140028 then [(Reg.ENG_CREDIT_FREE_FREE, (s.pool q ch cls).2)]
  else if 0x141000 ≤ a ∧ n < 16 then
    match (a - 0x141000) % 0x20 with
    | 0 => [(Reg.ENG_RING_CFG_ERR n, flag (s.ring n).err), (Reg.ENG_RING_CFG_BUSY n, flag !(s.ring n).issued.isEmpty)]
    | 0xC => [(Reg.ENG_SQ_PTR_SQ_TAIL n, (s.ring n).sqTail), (Reg.ENG_SQ_PTR_SQ_HEAD n, (s.ring n).sqHead)]
    | 0x10 => [(Reg.ENG_CQ_PTR_CQ_HEAD n, (s.ring n).cqHead), (Reg.ENG_CQ_PTR_CQ_TAIL n, (s.ring n).cqTail)]
    | _ => []
  else []

/-- The start step running (RST_START): steps 1 to 13 run with CHIP_START; recovery stays at its own step. -/
def State.startStep (s : State) : Nat :=
  match s.rst.run with
  | .running => 0xFF
  | .prelude => s.rst.lastStep
  | .starting => 14
  | .recovery => if s.rst.failedStarts = 3 then 1 else 4
  | .off | .inReset => 1

/-- Fields of RST. -/
def State.viewRst (s : State) (a : Nat) : List (Field × Nat) :=
  let r := s.rst
  match a with
  | 0x30000 => [(Reg.RST_CAUSE_LAST_STEP, r.lastStep), (Reg.RST_CAUSE_DRAINED, flag r.drained),
      (Reg.RST_CAUSE_KIND, flag r.warm), (Reg.RST_CAUSE_CAUSE, r.cause)]
  | 0x30004 => [(Reg.RST_START_START_DONE, flag (decide (s.startStep = 0xFF))), (Reg.RST_START_STEP, s.startStep)]
  | 0x30008 => [(Reg.RST_FAILED_STARTS_RECOVERY, flag (decide (r.run = .recovery))),
      (Reg.RST_FAILED_STARTS_COUNT, r.failedStarts)]
  | 0x30014 => [(Reg.RST_DIGEST_STAT_VERIFIED, r.digestVerified.toNat), (Reg.RST_DIGEST_STAT_RECORDED, r.digestRecorded.toNat)]
  | 0x30018 => [(Reg.RST_START_TIME_MS, r.startTime)]
  | _ => []

/-- Whether a domain holds state without running (PWR_DOMAIN_RET). -/
def DomMode.held : DomMode → Bool
  | .ret | .park | .lp | .sr => true
  | .on | .off => false

/-- Fields of PWR and THM. -/
def State.viewPower (s : State) (a : Nat) : List (Field × Nat) :=
  let p := s.pwr
  match a with
  | 0x20004 => [(Reg.PWR_PS_STAT_STATE, p.ps), (Reg.PWR_PS_STAT_WAKE_SRC, p.wakeSrc)]
  | 0x20010 => [(Reg.PWR_DOMAIN_ON_ON, maskOf (p.domains.map fun m => decide (m = .on)))]
  | 0x20014 => [(Reg.PWR_DOMAIN_RET_HELD, maskOf (p.domains.map DomMode.held))]
  | 0x20020 => [(Reg.PWR_INPUT_P3V3_MV, p.p3v3), (Reg.PWR_INPUT_P48V_10MV, p.p48)]
  | 0x20028 => [(Reg.PWR_POWER_OPTICS_DW, p.opticsDw), (Reg.PWR_POWER_INPUT_DW, p.inputDw)]
  | 0x20030 => [(Reg.PWR_SHED_STAT_TAKEOVER, flag p.takeover), (Reg.PWR_SHED_STAT_LIVE, p.shed.toNat)]
  | 0x20040 => [(Reg.PWR_HOLDUP_STAT_READY, flag p.holdupReady), (Reg.PWR_HOLDUP_STAT_ENERGY_DJ, min 255 p.energyDj),
      (Reg.PWR_HOLDUP_STAT_BANK_QV, p.bankQv)]
  | 0x190000 => [(Reg.THM_TEMP_DIE_MAX, (p.dieMax % 65536).toNat), (Reg.THM_TEMP_COLD_PLATE, (p.coldPlate % 65536).toNat)]
  | 0x190004 => [(Reg.THM_STAGE_SENSOR_B_FAULT, flag p.sensorB), (Reg.THM_STAGE_SENSOR_A_FAULT, flag p.sensorA),
      (Reg.THM_STAGE_STAGE, p.stage)]
  | _ => []

/-! ## FLT, REC, SEC and SYS -/

/-- Whether a source is LIVE (R523): its event waits to be accepted. -/
def State.srcLive (s : State) (src : Nat) : Bool := s.flt.raised.any fun e => decide (e.src = src)

/-- Fields of FLT. -/
def State.viewFlt (s : State) (a : Nat) : List (Field × Nat) :=
  let f := s.flt
  let m := (a - 0x150100) % 0x100 / 4
  let src := (a - 0x151000) / 4
  if a = 0x150004 then
    [(Reg.FLT_STATUS_ERR_OUT, flag f.errOut), (Reg.FLT_STATUS_FATAL_LIVE, flag (f.raised.any fun e => decide (eventClass e.src = 3))),
      (Reg.FLT_STATUS_STICKY_COUNT, f.stickySources.length)]
  else if a = 0x150008 then
    match f.first with
    | some x => [(Reg.FLT_FIRST_VALID, 1), (Reg.FLT_FIRST_COINCIDENT, flag x.coincident), (Reg.FLT_FIRST_LEVEL, x.level),
        (Reg.FLT_FIRST_CLASS, x.cls), (Reg.FLT_FIRST_SRC, x.src)]
    | none => []
  else if a = 0x150010 then [(Reg.FLT_TIME_LO_TIME_LO, loWord f.time)]
  else if a = 0x150014 then [(Reg.FLT_TIME_HI_TIME_HI, hiWord f.time)]
  else if a = 0x150018 then [(Reg.FLT_ERR_OUT_ASSERTED, flag f.errOut), (Reg.FLT_ERR_OUT_SRC, f.errSrc)]
  else if a = 0x15001C then
    [(Reg.FLT_RAIL_STAT_BROKEN, ((List.range 1152).filter fun n => f.broken.getLsbD n).length),
      (Reg.FLT_RAIL_STAT_LAST_SRC, f.lastBroken)]
  else if 0x150100 ≤ a ∧ a < 0x150190 then
    [(Reg.FLT_SRC_STICKY_STICKY m, maskOf ((List.range 32).map fun b => f.sticky.getLsbD (32 * m + b)))]
  else if 0x150200 ≤ a ∧ a < 0x150290 then
    [(Reg.FLT_SRC_LIVE_LIVE m, maskOf ((List.range 32).map fun b => s.srcLive (32 * m + b)))]
  else if 0x151000 ≤ a ∧ src < 1152 then
    [(Reg.FLT_SRC_REACT_CLASS src, if sourceDefined src then eventClass src else 0), (Reg.FLT_SRC_REACT_ESC src, s.escCount src)]
  else []

/-- Fields of REC. The copy-back of one report is one step, so that COPY_BACK reads 0. -/
def State.viewRec (s : State) (a : Nat) : List (Field × Nat) :=
  let r := s.recorder
  let oldest := if r.ready then s.oldestRow else 0
  match a with
  | 0x160000 => [(Reg.REC_STATUS_READY, flag r.ready), (Reg.REC_STATUS_FALLBACK, flag r.fallback.isSome),
      (Reg.REC_STATUS_COALESCING, flag r.coalescing),
      (Reg.REC_STATUS_SRAM_HELD, (r.fallback.map fun f => 1 + f.ring.length).getD 0), (Reg.REC_STATUS_FIFO_HELD, r.fifo.length)]
  | 0x160004 => [(Reg.REC_ROW_NEXT_LO_ROW_LO, loWord r.rowNext)]
  | 0x160008 => [(Reg.REC_ROW_NEXT_HI_ROW_HI, hiWord r.rowNext)]
  | 0x16000C => [(Reg.REC_OLDEST_LO_OLDEST_LO, loWord oldest)]
  | 0x160010 => [(Reg.REC_OLDEST_HI_OLDEST_HI, hiWord oldest)]
  | _ => []

/-- The code of the update session's state (SEC_SESSION). -/
def SessState.code : SessState → Nat
  | .idle => 0 | .openS => 1 | .activating => 2 | .trial => 3 | .awaitingCommit => 4

/-- Fields of SEC. -/
def State.viewSec (s : State) (a : Nat) : List (Field × Nat) :=
  let x := s.sec
  match a with
  | 0x170000 => [(Reg.SEC_STATUS_OWNED, flag s.ldg.kept.ownerKey.isSome), (Reg.SEC_STATUS_OWNER_LOCK, flag x.ownerLock),
      (Reg.SEC_STATUS_TEST_ALLOWED, flag x.testAllowed), (Reg.SEC_STATUS_TREE1_STARTED, flag x.tree1Started),
      (Reg.SEC_STATUS_EXHAUSTED, flag x.exhausted), (Reg.SEC_STATUS_TRIAL, flag (decide (s.session.st = .trial))),
      (Reg.SEC_STATUS_REFUSE, maskOf ([1, 2, 3, 4, 5].map s.refuseHolds))]
  | 0x170004 => [(Reg.SEC_SET_ID_SET_ID, x.setIdOf x.runningBank)]
  | 0x170008 => [(Reg.SEC_GOOD_SET_ID_SET_ID, x.setIdOf x.goodBank)]
  | 0x17000C => [(Reg.SEC_MIN_EPOCH_EPOCH, x.minEpoch)]
  | 0x170010 => [(Reg.SEC_LEAF_NEXT_LEAF, x.nextLeaf)]
  | 0x17001C => [(Reg.SEC_SESSION_STATE, s.session.st.code), (Reg.SEC_SESSION_HOLDER, s.session.holder),
      (Reg.SEC_SESSION_LAST_RESULT, s.session.lastResult), (Reg.SEC_SESSION_LAST_REASON, s.session.lastReason)]
  | _ => []

/-- Attention causes 1 to 6 as bits of SYS_ATTN (R593): BIND_OFF, SPARE_LOW, HOLDUP_TEST, THERMAL, TRANSPORT, SOFTWARE. -/
def State.attnCauses (s : State) : List (Nat × Bool) :=
  [(1, s.ldg.kept.bindOff), (2, decide (s.spareMembers < 64 * s.fld Reg.FTL_WEAR_CFG_SPARE_WARN)),
    (3, decide (s.fld Reg.PWR_HOLDUP_STAT_TEST_FAILED = 1)), (4, decide (3 ≤ s.pwr.stage)), (5, s.pins.transport),
    (6, decide (s.fld Reg.SYS_ATTN_SOFTWARE = 1))]

/-- Fields of SYS. -/
def State.viewSys (s : State) (a : Nat) : List (Field × Nat) :=
  let held (c : Nat) : Nat := flag (s.attnCauses.any fun e => decide (e.1 = c) && e.2)
  match a with
  | 0x20 => [(Reg.SYS_MODULE_TRANSPORT, flag s.pins.transport), (Reg.SYS_MODULE_PRESENT, flag s.pins.presentLow),
      (Reg.SYS_MODULE_PWR_DISABLE, flag s.pins.pwrDisable), (Reg.SYS_MODULE_P3V3_AUX_OK, flag s.pwr.auxPresent),
      (Reg.SYS_MODULE_SLOT_ID, s.pins.slotId % 8)]
  | 0x24 => [(Reg.SYS_ATTN_TRANSPORT, held 5), (Reg.SYS_ATTN_THERMAL, held 4), (Reg.SYS_ATTN_HOLDUP_TEST, held 3),
      (Reg.SYS_ATTN_SPARE_LOW, held 2), (Reg.SYS_ATTN_BIND_OFF, held 1)]
  | _ => []

/-! ## A register as a read finds it (R10, R11, R13, R449) -/

/-- The fields that hardware computes of the register at an address. -/
def State.viewed (s : State) (a : Nat) : List (Field × Nat) :=
  match a / 0x10000 with
  | 0x00 => s.viewSys a
  | 0x02 | 0x19 => s.viewPower a
  | 0x03 => s.viewRst a
  | 0x05 | 0x06 | 0x07 => s.viewFront a
  | 0x08 | 0x0A | 0x0B | 0x0C | 0x0D => s.viewMatch a
  | 0x0E | 0x0F => s.viewValue a
  | 0x10 => s.viewLedger a
  | 0x11 => s.viewFlash a
  | 0x13 => s.viewPeer a
  | 0x14 => s.viewEng a
  | 0x15 => s.viewFlt a
  | 0x16 => s.viewRec a
  | 0x17 => s.viewSec a
  | _ => []

/-- The word of a register now: the stored fields and those that hardware computes. Reserved bits are stored as 0, and so
are WO fields (R11, R13). -/
def State.regNow (s : State) (a : Nat) : W32 := (s.viewed a).foldl (fun w e => e.1.put w e.2) (s.reg a)

/-! ## Interrupt lines (R470) -/

/-- The lines of ENG_IRQ_STAT that are raised. -/
def State.irqLines (s : State) : List Nat :=
  (List.range 18).filter fun m =>
    if m = 17 then s.eng.irqErr else if m = 16 then s.fltIrq else decide (m < 10) && s.eng.irqRings.getLsbD m

/-- The core that a line interrupts: values of CORE above 16 act as 16, the service cores. -/
def State.irqCore (s : State) (m : Nat) : CoreId :=
  let c := s.fld (Reg.ENG_IRQ_ROUTE_CORE m)
  if c < 16 then .app c else .service

/-- The raised lines that interrupt a core. -/
def State.interrupting (s : State) (core : CoreId) : List Nat :=
  s.irqLines.filter fun m => decide (s.fld (Reg.ENG_IRQ_ROUTE_EN m) = 1) && decide (s.irqCore m = core)

/-! ## Outputs (R591, R593, R594) -/

/-- The level of ERR_OUT_N: high while released, 0 V without power (R591). -/
def State.errOutN (s : State) : Bool := s.aonPowered && !s.flt.errOut

/-- The level of ERR_OUT_T (R591). -/
def State.errOutT (s : State) : Bool := s.aonPowered && s.flt.errOut

/-- Whether ATTN_N is low (R593). -/
def State.attn (s : State) : Bool :=
  decide (s.rst.run = .recovery)
    || s.attnCauses.any fun e => e.2 && (s.fld Reg.SYS_ATTN_EN).testBit e.1

/-- The patterns of an LED (R594): blinks by their rate in units of 0.5 Hz. -/
inductive Led where
  | off
  | on
  | blink (halfHz : Nat)
deriving DecidableEq, Repr

/-- LED_FLT (R594). -/
def State.ledFlt (s : State) : Led :=
  if s.flt.errOut then .on
  else if s.rst.run = .recovery then .blink 2
  else if s.fld Reg.SYS_LED_LOCATE = 1 then .blink 4
  else .off

/-- LED_ACT (R594). -/
def State.ledAct (s : State) : Led :=
  if s.pwr.p48Present = false ∨ s.domainOn 1 = false then .off
  else if (s.nfe.lastCompletion.map fun t => decide (s.flt.time ≤ t + 250000000)).getD false then .blink 8
  else if s.pwr.ps = 3 then .blink 1
  else .on

/-- Whether a link's LED is lit (R585): while the link is up. -/
def State.ledLink (s : State) (l : Link) : Bool := decide (s.nfe.linkUp &&& linkBit l ≠ 0)

end Sys2Proof.Machine
end

