-- ==== Sys2Proof/Machine/Registers.lean ====
section
/-! DEFINITION. Register accesses by the cores: locks (R450 to R452), reads (R603, R604), writes by access code and what a
write makes hardware do (R10 to R14, R445 to R448). Addresses are offsets in the register space. -/

namespace Sys2Proof.Machine

/-! ## Locks (R450 to R452) -/

/-- Whether every block is locked. -/
def State.allLocked (s : State) : Bool := blockBases.all s.locked

/-- Set the lock of the block at a base; SYS_LOCK_ALL.ALL reads 1 once every block is locked. -/
def State.setLock (s : State) (base : Nat) : State :=
  if blockBases.contains base then
    let s := s.setFld (Reg.BLOCK_LOCK base) 1
    if s.allLocked then s.setFld Reg.SYS_LOCK_ALL_ALL 1 else s
  else s

/-- Set every lock. -/
def State.lockAll (s : State) : State := blockBases.foldl State.setLock s

/-- BLOCK_LOCK_SET (R450, R451): a block by its base in units of 64 KiB. -/
def execBlockLockSet (block : Nat) (s : State) : Host.Outcome State Fault Refusal := .next (s.setLock (0x10000 * block))

/-- SYS_LOCK_ALL_SET (R451, R452). -/
def execSysLockAllSet (s : State) : Host.Outcome State Fault Refusal := .next s.lockAll

/-! ## What an access meets (R445 to R447) -/

/-- The physical address of the register space (R445). -/
def regSpace : Nat := 0xF000000000

/-- The domain of a core: PD01 for the service cores, PD02 to PD05 for the quads of the application cores (R16). -/
def coreDomain : CoreId → Nat
  | .service => 1
  | .app n => 2 + n / 4

/-- Whether a core runs: between a reset and the next, in a domain that is On; the application cores outside ROM recovery only
(R16, R475, R488, R491). -/
def State.coreRuns (s : State) (core : CoreId) : Bool :=
  s.domainOn (coreDomain core) && match s.rst.run, core with
    | .off, _ | .inReset, _ => false
    | .recovery, .app _ => false
    | _, _ => true

/-- REG_ACCESS_FAULT (R446). -/
def State.accessFault (s : State) (core : CoreId) (a : Nat) : State :=
  s.raise 16 (item8 (regSpace + a) ++ item1 (coreIndex core))

/-- Whether an access is an aligned 32-bit one to a register (R445, R446); the width is in bytes. -/
def goodAccess (a width : Nat) : Bool := decide (width = 4) && decide (a % 4 = 0) && (regAt a).isSome

/-- Registers that only the service cores write (R447): CLK, RST, FLT, SEC and ENG_HOLD, but for RST_START and SEC_TRIAL. -/
def serviceOnly (a : Nat) : Bool :=
  ([0x01, 0x03, 0x15, 0x17].contains (a / 0x10000) && decide (a ≠ 0x30004) && decide (a ≠ 0x170020)) || decide (a = 0x140000)

/-! ## Reads (R11, R603, R604) -/

/-- The register pairs that share a latch: the _LO and the _HI register of each 64-bit quantity (R604; DEDUCED,
log 31). -/
def latchPairs : List (Nat × Nat) :=
  [(0x60000, 0x60004), (0x70004, 0x70008), (0x70014, 0x70018), (0xF002C, 0xF0030), (0x150010, 0x150014), (0x150034, 0x150038),
   (0x160004, 0x160008), (0x16000C, 0x160010)]

/-- The latch of a pair takes the high word as it stands. -/
def State.latchHigh (s : State) (p : Nat × Nat) : State := { s with latches := tset s.latches p.1 (s.regNow p.2) }

/-- What a read of a _HI register returns: the latched word, or, until the first read of the _LO register after a reset,
the current high word. A latch that only reads of the _HI register have set is set anew by the next one, so that it is not
kept. -/
def State.latched (s : State) (p : Nat × Nat) : W32 := (tget s.latches p.1).getD (s.regNow p.2)

/-- The value that a read sets an RC field to: zero, or what its description names (R603). -/
def rcAfter (a : Nat) : Nat := if a = 0x20024 then 0xFFFF else 0

/-- A read of a register returns its RC fields to zero or to their named value. -/
def State.clearRc (s : State) (a : Nat) (fs : List FieldDesc) : State :=
  (fs.filter fun f => f.access = .rc).foldl (fun s f => s.setFld ⟨a, f.hi, f.lo⟩ (rcAfter a)) s

/-- Sensors and units that a read samples: the power drawn (PWR_POWER), and the units at work (VAL_STATUS), as free
values; a read of a selected slot reads the slot table (R322). -/
def State.sample (s : State) (a : Nat) : State :=
  if a = 0x20028 then
    s.samplePower
  else if 0xF0024 ≤ a ∧ a ≤ 0xF0034 then s.readSlot s.shownSlot
  else if a = 0xE0004 then { s with free := s.free + 2 }
  else s

/-- The word that a read returns, and the state after it. -/
def State.readWord (s : State) (d : RegDesc) (a : Nat) : W32 × State :=
  let s := s.sample a
  match latchPairs.find? fun p => decide (p.1 = a) || decide (p.2 = a) with
  | some p =>
    if p.1 = a then (s.regNow a, s.latchHigh p)
    else (s.latched p, s)
  | none => (s.regNow a, s.clearRc a d.fields)

/-- A read of a register by a core: the value goes to the core; a bad access reads as zero (R446). -/
def State.readReg (s : State) (core : CoreId) (a : Nat) : State :=
  match if a % 4 = 0 then regAt a else none with
  | some (d, _) =>
    let (w, s) := s.readWord d a
    s.send (.regRead a w)
  | none => (s.accessFault core a).send (.regRead a 0)

/-- RC_FIELD_READ (R11, R12, R446, R603). -/
def execRcFieldRead (core : CoreId) (addr : Nat) (s : State) : Host.Outcome State Fault Refusal :=
  .next (guardStep (s.coreRuns core) s fun s => s.readReg core addr)

/-- LO_WORD_READ (R446, R604). -/
def execLoWordRead (core : CoreId) (addr : Nat) (s : State) : Host.Outcome State Fault Refusal :=
  .next (guardStep (s.coreRuns core) s fun s => s.readReg core addr)

/-! ## Writes: the fields (R11, R13) -/

/-- A field after a write of a word to its register; WO fields store nothing. -/
def Field.written (f : Field) (c : Access) (locked : Bool) (old value : W32) : W32 :=
  match c with
  | .rw => f.put old (f.of value)
  | .rwl => if locked then old else f.put old (f.of value)
  | .w1c => old &&& ~~~(f.put 0 (f.of value))
  | .w1s => old ||| f.put 0 (f.of value)
  | .ro | .wo | .rc => old

/-- Whether a field's write is stored. Those of the ring pointers, of the interrupt status, of the lock registers, of
MCH_CFG and of the swatch and preset registers act elsewhere; a ring's LOG2 and its bases are written only while its EN
is 0 (ENG_RING_CFG_n, ENG_SQ_BASE_n). -/
def State.stores (s : State) (a : Nat) (f : FieldDesc) : Bool :=
  let n := (a - 0x141000) / 0x20
  let ringReg := decide (0x141000 ≤ a) && decide (n < 16)
  let off := (a - 0x141000) % 0x20
  let closed := decide (s.fld (Reg.ENG_RING_CFG_EN n) = 0)
  if ringReg then
    (if off = 0 then (if f.lo = 31 then false else if f.lo = 0 then closed else true)
      else if off = 4 ∨ off = 8 then closed else false)
  else !([0x140010, 0x10, 0x30004, 0x80000, 0xE0020, 0xF0040, 0x150008, 0x150030].contains a || decide (a % 0x10000 = 0xFFFC)
    || (decide (0x150100 ≤ a) && decide (a < 0x150190)))

/-- The stored fields of a register after a write. -/
def State.storeWrite (s : State) (d : RegDesc) (a : Nat) (value : W32) : State :=
  let locked := s.locked (a / 0x10000 * 0x10000)
  s.setReg a (d.fields.foldl (fun w f => if s.stores a f then Field.written ⟨a, f.hi, f.lo⟩ f.access locked w value else w)
    (s.reg a))

/-! ## Writes: what they do -/

/-- A write of ENG_RING_CFG_n.EN (R453, R457): 1 enables the ring, 0 stops it from issuing. -/
def State.ringEnWrite (s : State) (n : Nat) (value : W32) : State :=
  if (Reg.ENG_RING_CFG_EN n).of value = 1 then s.ringEnable n
  else if n < 10 then s.setFld (Reg.ENG_RING_CFG_EN n) 0 else s

/-- A write of ENG_IRQ_STAT clears the lines written 1 (R470). -/
def State.irqClear (s : State) (value : W32) : State :=
  s.onEng fun e => { e with
    irqRings := e.irqRings &&& ~~~(BitVec.ofNat 10 (Reg.ENG_IRQ_STAT_RING.of value))
    irqErr := e.irqErr && decide (Reg.ENG_IRQ_STAT_RING_ERR.of value = 0) }

/-- A write of PWR_PS_CTL.CODE (R495, R497). -/
def State.psWrite (s : State) (code : Nat) : State :=
  if !s.engined then s else if code = 0x5B03 then s.requestPs3 else if code = 0x5B00 then s.wake 5 else s

/-- A write of SEC_TRIAL.CODE (R579, R580). -/
def State.trialWrite (s : State) (code : Nat) : State :=
  if code = 0x7A11 then s.trialPass else if code = 0x7A1F then s.trialFail else s

/-- A lower BUDGET_DEPTH lowers the attestation budget at once (R567). -/
def State.capBudget (s : State) : State := s.onSec fun x => { x with budget := min x.budget s.budgetDepth }

/-- What hardware does on a write to a register, once its fields are stored. -/
def State.writeActs (s : State) (a : Nat) (value : W32) : State :=
  let code := value.toNat % 65536
  let set0 := decide (value.toNat % 2 = 1)
  if a % 0x10000 = 0xFFFC then (if set0 then s.setLock (a - 0xFFFC) else s)
  else match a with
    | 0x10 => if set0 then s.lockAll else s
    | 0x20008 => s.psWrite code
    | 0x30004 => if Reg.RST_START_START_DONE.of value = 1 then s.startDone else s
    | 0x30010 => if code = 0x5EC0 then s.chipReset 6 else s
    | 0x80000 => s.cascadeWrite (Reg.MCH_CFG_CASCADE.of value)
    | 0xE0020 => s.valSwatchWrite value
    | 0xF001C => if code = 0x5A5A then s.cipAlarm 16 else s
    | 0xF0040 => s.ctrTestWrite value
    | 0x140000 => s.pump
    | 0x140004 => s.attachWrite code
    | 0x140010 => s.irqClear value
    | 0x150008 => if Reg.FLT_FIRST_VALID.of value = 1 then s.clearFirst else s
    | 0x150018 => s.errOutWrite code
    | 0x150030 => s.swatchCtlWrite value
    | 0x170014 => s.capBudget
    | 0x170020 => s.trialWrite code
    | _ =>
      if 0x150100 ≤ a ∧ a < 0x150190 then s.stickyWrite ((a - 0x150100) / 4) value
      else if 0x151000 ≤ a ∧ a < 0x152200 then s.settleGroups
      else if 0x141000 ≤ a ∧ a < 0x141200 then
        (match (a - 0x141000) % 0x20 with
        | 0 => s.ringEnWrite ((a - 0x141000) / 0x20) value
        | 0x10 => s.cqHeadWrite ((a - 0x141000) / 0x20) (value.toNat / 65536)
        | _ => s)
      else s

/-- The ring whose ENG_SQ_PTR_n lies at an address: its write is a doorbell (R456). -/
def doorbellRing (a : Nat) : Option Nat :=
  if 0x141000 ≤ a ∧ a < 0x141200 ∧ (a - 0x141000) % 0x20 = 0xC then some ((a - 0x141000) / 0x20) else none

/-- A write that its register takes. -/
def State.writeReg (s : State) (d : RegDesc) (a : Nat) (value : W32) : State := (s.storeWrite d a value).writeActs a value

/-- REGISTER_WRITE (R10 to R13, R445 to R447, R451): `width` in bytes. A write of ENG_SQ_PTR_n covers entries that are in
the ring's memory already. -/
def execRegisterWrite (core : CoreId) (addr width : Nat) (value : W32) (s : State) : Host.Outcome State Fault Refusal :=
  if s.coreRuns core = false then .next s
  else if goodAccess addr width = false then .next (s.accessFault core addr)
  else if decide (core ≠ .service) && serviceOnly addr then .next s
  else match doorbellRing addr with
    | some n => engDoorbell n (value.toNat / 65536) [] s
    | none => .next (match regAt addr with
      | some (d, _) => s.writeReg d addr value
      | none => s)

end Sys2Proof.Machine
end

