-- ==== Sys2Proof/Machine/Dispatch.lean ====
section
/-! DEFINITION. One arm for each command: a direct call of its meaning. -/

namespace Sys2Proof.Machine

def exec (i : Instr) (s : State) : Host.Outcome State Fault Refusal :=
  match i with
  | .get cmd => Sys2Proof.Machine.execGet cmd s
  | .put cmd => Sys2Proof.Machine.execPut cmd s
  | .delete cmd => Sys2Proof.Machine.execDelete cmd s
  | .writeRange cmd => Sys2Proof.Machine.execWriteRange cmd s
  | .punch cmd => Sys2Proof.Machine.execPunch cmd s
  | .head cmd => Sys2Proof.Machine.execHead cmd s
  | .scan cmd budget => Sys2Proof.Machine.execScan cmd budget s
  | .scanNext cmd budget => Sys2Proof.Machine.execScanNext cmd budget s
  | .count cmd budget => Sys2Proof.Machine.execCount cmd budget s
  | .flush cmd => Sys2Proof.Machine.execFlush cmd s
  | .nop cmd => Sys2Proof.Machine.execNop cmd s
  | .sessionOpen via manifest => Sys2Proof.Machine.execSessionOpen via manifest s
  | .sessionBlock via offset block => Sys2Proof.Machine.execSessionBlock via offset block s
  | .sessionActivate via => Sys2Proof.Machine.execSessionActivate via s
  | .sessionCommit via => Sys2Proof.Machine.execSessionCommit via s
  | .sessionClose via => Sys2Proof.Machine.execSessionClose via s
  | .attest via nonce length => Sys2Proof.Machine.execAttest via nonce length s
  | .identify via length => Sys2Proof.Machine.execIdentify via length s
  | .recRead via first length => Sys2Proof.Machine.execRecRead via first length s
  | .recClear d clearTo requester ref => Sys2Proof.Machine.execRecClear d clearTo requester ref s
  | .doorbell ctx arrival aligned raw => Sys2Proof.Machine.execDoorbell ctx arrival aligned raw s
  | .unsupportedRequest ctx => Sys2Proof.Machine.execUnsupportedRequest ctx s
  | .cmReq req => Sys2Proof.Machine.execCmReq req s
  | .cmRtu ctx proof => Sys2Proof.Machine.execCmRtu ctx proof s
  | .cmDreq ctx => Sys2Proof.Machine.execCmDreq ctx s
  | .connectingTimeout ctx => Sys2Proof.Machine.execConnectingTimeout ctx s
  | .descriptorFetch => Sys2Proof.Machine.execDescriptorFetch s
  | .descriptorAccept ctx raw => Sys2Proof.Machine.execDescriptorAccept ctx raw s
  | .phaseRefetch ctx => Sys2Proof.Machine.execPhaseRefetch ctx s
  | .remoteAccessNak ctx => Sys2Proof.Machine.execRemoteAccessNak ctx s
  | .transportRetryExhausted ctx => Sys2Proof.Machine.execTransportRetryExhausted ctx s
  | .outcomeRecordExpiry session tag => Sys2Proof.Machine.execOutcomeRecordExpiry session tag s
  | .completionAcked cmd => Sys2Proof.Machine.execCompletionAcked cmd s
  | .coalesceTimer ctx => Sys2Proof.Machine.execCoalesceTimer ctx s
  | .cePacketReceived ctx => Sys2Proof.Machine.execCePacketReceived ctx s
  | .cnpReceived ctx => Sys2Proof.Machine.execCnpReceived ctx s
  | .ccTimerExpiry ctx => Sys2Proof.Machine.execCcTimerExpiry ctx s
  | .linkDown l => Sys2Proof.Machine.execLinkDown l s
  | .linkdownTimeout l => Sys2Proof.Machine.execLinkdownTimeout l s
  | .linkUp l => Sys2Proof.Machine.execLinkUp l s
  | .portRetrainEnd p => Sys2Proof.Machine.execPortRetrainEnd p s
  | .opticsInsert p watts laneMatch cmis => Sys2Proof.Machine.execOpticsInsert p watts laneMatch cmis s
  | .opticsRailTrip p => Sys2Proof.Machine.execOpticsRailTrip p s
  | .policySearch cmd parity => Sys2Proof.Machine.execPolicySearch cmd parity s
  | .indexLookup cmd refreshing0 errs fclk => Sys2Proof.Machine.execIndexLookup cmd refreshing0 errs fclk s
  | .valueDataArrival cmd data => Sys2Proof.Machine.execValueDataArrival cmd data s
  | .cipherJobDone cmd lane agree => Sys2Proof.Machine.execCipherJobDone cmd lane agree s
  | .commitGate cmd => Sys2Proof.Machine.execCommitGate cmd s
  | .mirrorChangeDone => Sys2Proof.Machine.execMirrorChangeDone s
  | .segmentRead cmd ldpcOk => Sys2Proof.Machine.execSegmentRead cmd ldpcOk s
  | .readRepair repair copy => Sys2Proof.Machine.execReadRepair repair copy s
  | .repairRewrite repair => Sys2Proof.Machine.execRepairRewrite repair s
  | .completionWrite cmd => Sys2Proof.Machine.execCompletionWrite cmd s
  | .scanBatchTimeout cmd => Sys2Proof.Machine.execScanBatchTimeout cmd s
  | .scanContextExpiry index => Sys2Proof.Machine.execScanContextExpiry index s
  | .halfWithdraw => Sys2Proof.Machine.execHalfWithdraw s
  | .matchStateReloaded half => Sys2Proof.Machine.execMatchStateReloaded half s
  | .matchScrub dieMask => Sys2Proof.Machine.execMatchScrub dieMask s
  | .blockResetExit b => Sys2Proof.Machine.execBlockResetExit b s
  | .engDoorbell ring tail entries => Sys2Proof.Machine.execEngDoorbell ring tail entries s
  | .engCqHeadWrite ring headCount => Sys2Proof.Machine.execEngCqHeadWrite ring headCount s
  | .engRingEnable ring => Sys2Proof.Machine.execEngRingEnable ring s
  | .engAttachWrite code => Sys2Proof.Machine.execEngAttachWrite code s
  | .unpin d key => Sys2Proof.Machine.execUnpin d key s
  | .pin d key => Sys2Proof.Machine.execPin d key s
  | .rebuild d => Sys2Proof.Machine.execRebuild d s
  | .repairPoison d => Sys2Proof.Machine.execRepairPoison d s
  | .mirrorScrub d => Sys2Proof.Machine.execMirrorScrub d s
  | .ruleWrite d pos recs => Sys2Proof.Machine.execRuleWrite d pos recs s
  | .ruleInsert d pos last recs => Sys2Proof.Machine.execRuleInsert d pos last recs s
  | .shiftComplete => Sys2Proof.Machine.execShiftComplete s
  | .ruleClear d pos => Sys2Proof.Machine.execRuleClear d pos s
  | .ruleSearch d word start issue => Sys2Proof.Machine.execRuleSearch d word start issue s
  | .ruleRead d pos => Sys2Proof.Machine.execRuleRead d pos s
  | .epochSet d epoch => Sys2Proof.Machine.execEpochSet d epoch s
  | .scrubNow d dieMask => Sys2Proof.Machine.execScrubNow d dieMask s
  | .checkCompute d addr len algo fold data => Sys2Proof.Machine.execCheckCompute d addr len algo fold data s
  | .keyGenerate d slot => Sys2Proof.Machine.execKeyGenerate d slot s
  | .keyImport d slot wrapped => Sys2Proof.Machine.execKeyImport d slot wrapped s
  | .keyRoll d slot => Sys2Proof.Machine.execKeyRoll d slot s
  | .keyErase d slot => Sys2Proof.Machine.execKeyErase d slot s
  | .keyQuery d slot => Sys2Proof.Machine.execKeyQuery d slot s
  | .bufSeal d slot aad addr len job => Sys2Proof.Machine.execBufSeal d slot aad addr len job s
  | .bufOpen d sealWord aad tag addr len job => Sys2Proof.Machine.execBufOpen d sealWord aad tag addr len job s
  | .retiredGenRelease slot gen => Sys2Proof.Machine.execRetiredGenRelease slot gen s
  | .eraseWaitExpiry slot => Sys2Proof.Machine.execEraseWaitExpiry slot s
  | .slotEccError slot hit => Sys2Proof.Machine.execSlotEccError slot hit s
  | .reclaimBest d pool n => Sys2Proof.Machine.execReclaimBest d pool n s
  | .reclaimSb d sb => Sys2Proof.Machine.execReclaimSb d sb s
  | .verifyRelease d n badRows => Sys2Proof.Machine.execVerifyRelease d n badRows s
  | .refreshDue d n => Sys2Proof.Machine.execRefreshDue d n s
  | .patrol d n found => Sys2Proof.Machine.execPatrol d n found s
  | .wearMove d => Sys2Proof.Machine.execWearMove d s
  | .peerWrite d entry => Sys2Proof.Machine.execPeerWrite d entry s
  | .placeWrite d first entries => Sys2Proof.Machine.execPlaceWrite d first entries s
  | .templateWrite d number record => Sys2Proof.Machine.execTemplateWrite d number record s
  | .domainLoad d domain wrapped => Sys2Proof.Machine.execDomainLoad d domain wrapped s
  | .resyncRange d firstKh lastKh => Sys2Proof.Machine.execResyncRange d firstKh lastKh s
  | .tenantWrite d record => Sys2Proof.Machine.execTenantWrite d record s
  | .tenantRead d tenant => Sys2Proof.Machine.execTenantRead d tenant s
  | .secretLoad d tenant wrapped => Sys2Proof.Machine.execSecretLoad d tenant wrapped s
  | .secretClear d tenant => Sys2Proof.Machine.execSecretClear d tenant s
  | .ownerChallenge via requester => Sys2Proof.Machine.execOwnerChallenge via requester s
  | .ownerAuth via requester purpose response => Sys2Proof.Machine.execOwnerAuth via requester purpose response s
  | .ownerSet via key ref => Sys2Proof.Machine.execOwnerSet via key ref s
  | .ownerLock via set ref => Sys2Proof.Machine.execOwnerLock via set ref s
  | .ownerErase via ref => Sys2Proof.Machine.execOwnerErase via ref s
  | .chainWrite m => Sys2Proof.Machine.execChainWrite m s
  | .chainAck m => Sys2Proof.Machine.execChainAck m s
  | .chainRevoke m => Sys2Proof.Machine.execChainRevoke m s
  | .repairReq m => Sys2Proof.Machine.execRepairReq m s
  | .repairResp m => Sys2Proof.Machine.execRepairResp m s
  | .keepalive m => Sys2Proof.Machine.execKeepalive m s
  | .keepaliveSend ctx => Sys2Proof.Machine.execKeepaliveSend ctx s
  | .peerDead peer => Sys2Proof.Machine.execPeerDead peer s
  | .peerLinkRequest peer port => Sys2Proof.Machine.execPeerLinkRequest peer port s
  | .peerCmReq req => Sys2Proof.Machine.execPeerCmReq req s
  | .peerCmRep ctx rep => Sys2Proof.Machine.execPeerCmRep ctx rep s
  | .peerCmRtu ctx proof => Sys2Proof.Machine.execPeerCmRtu ctx proof s
  | .successorAckTimeout cmd => Sys2Proof.Machine.execSuccessorAckTimeout cmd s
  | .headChainTimeout cmd => Sys2Proof.Machine.execHeadChainTimeout cmd s
  | .repairTimeout repair => Sys2Proof.Machine.execRepairTimeout repair s
  | .dedupeExpiry keyHash version => Sys2Proof.Machine.execDedupeExpiry keyHash version s
  | .revokeHoldExpiry keyHash version => Sys2Proof.Machine.execRevokeHoldExpiry keyHash version s
  | .ledgerLineWrite line data failsA failsB ref => Sys2Proof.Machine.execLedgerLineWrite line data failsA failsB ref s
  | .gapMove group => Sys2Proof.Machine.execGapMove group s
  | .ledgerGroupFailed group => Sys2Proof.Machine.execLedgerGroupFailed group s
  | .ledgerDeviceFailed device => Sys2Proof.Machine.execLedgerDeviceFailed device s
  | .gaugeRefill => Sys2Proof.Machine.execGaugeRefill s
  | .ledgerPack range => Sys2Proof.Machine.execLedgerPack range s
  | .usageCheckpoint => Sys2Proof.Machine.execUsageCheckpoint s
  | .mapCheckpoint => Sys2Proof.Machine.execMapCheckpoint s
  | .dieReadDone sb q outcome => Sys2Proof.Machine.execDieReadDone sb q outcome s
  | .droppedStitchRebuilt sb q secondFails => Sys2Proof.Machine.execDroppedStitchRebuilt sb q secondFails s
  | .programDone sb pages => Sys2Proof.Machine.execProgramDone sb pages s
  | .programFail sb row position => Sys2Proof.Machine.execProgramFail sb row position s
  | .eraseDone sb => Sys2Proof.Machine.execEraseDone sb s
  | .eraseFail sb position => Sys2Proof.Machine.execEraseFail sb position s
  | .dieFailed channel die => Sys2Proof.Machine.execDieFailed channel die s
  | .channelFault channel cause => Sys2Proof.Machine.execChannelFault channel cause s
  | .wordlinePad sb => Sys2Proof.Machine.execWordlinePad sb s
  | .programSuspend channel die => Sys2Proof.Machine.execProgramSuspend channel die s
  | .slcFold => Sys2Proof.Machine.execSlcFold s
  | .autoReclaim => Sys2Proof.Machine.execAutoReclaim s
  | .urgentVerify badRows => Sys2Proof.Machine.execUrgentVerify badRows s
  | .refreshAuto sb => Sys2Proof.Machine.execRefreshAuto sb s
  | .skeinDemote => Sys2Proof.Machine.execSkeinDemote s
  | .faultEvent evs => Sys2Proof.Machine.execFaultEvent evs s
  | .hangDetected what => Sys2Proof.Machine.execHangDetected what s
  | .railTest failing => Sys2Proof.Machine.execRailTest failing s
  | .collectorMessage collector crcOk evs => Sys2Proof.Machine.execCollectorMessage collector crcOk evs s
  | .stickyClear word mask => Sys2Proof.Machine.execStickyClear word mask s
  | .fltFirstClear => Sys2Proof.Machine.execFltFirstClear s
  | .errOutRelease code => Sys2Proof.Machine.execErrOutRelease code s
  | .fltSwatchArm value => Sys2Proof.Machine.execFltSwatchArm value s
  | .valSwatchArm value => Sys2Proof.Machine.execValSwatchArm value s
  | .cipCtrPreset value => Sys2Proof.Machine.execCipCtrPreset value s
  | .cipAlarmSwWrite code => Sys2Proof.Machine.execCipAlarmSwWrite code s
  | .tamperDetected detector => Sys2Proof.Machine.execTamperDetected detector s
  | .glitchDetected => Sys2Proof.Machine.execGlitchDetected s
  | .recordWrite => Sys2Proof.Machine.execRecordWrite s
  | .recCopyBack => Sys2Proof.Machine.execRecCopyBack s
  | .heartbeat => Sys2Proof.Machine.execHeartbeat s
  | .heartbeatMissed => Sys2Proof.Machine.execHeartbeatMissed s
  | .headlessTimeout => Sys2Proof.Machine.execHeadlessTimeout s
  | .activationDrainEnd => Sys2Proof.Machine.execActivationDrainEnd s
  | .resetDrainEnd => Sys2Proof.Machine.execResetDrainEnd s
  | .chipStart given => Sys2Proof.Machine.execChipStart given s
  | .startDone => Sys2Proof.Machine.execStartDone s
  | .startTimeout => Sys2Proof.Machine.execStartTimeout s
  | .rstSoftWrite core code => Sys2Proof.Machine.execRstSoftWrite core code s
  | .recoveryDownload manifest stream => Sys2Proof.Machine.execRecoveryDownload manifest stream s
  | .domainSwitch => Sys2Proof.Machine.execDomainSwitch s
  | .phaseLost domain phase => Sys2Proof.Machine.execPhaseLost domain phase s
  | .ps1Entry => Sys2Proof.Machine.execPs1Entry s
  | .ps2Entry => Sys2Proof.Machine.execPs2Entry s
  | .ps3Entry => Sys2Proof.Machine.execPs3Entry s
  | .ps3Request => Sys2Proof.Machine.execPs3Request s
  | .ps0Request => Sys2Proof.Machine.execPs0Request s
  | .wakeEvent source => Sys2Proof.Machine.execWakeEvent source s
  | .shedStageEntered stage input => Sys2Proof.Machine.execShedStageEntered stage input s
  | .shedStageLeft stage ms => Sys2Proof.Machine.execShedStageLeft stage ms s
  | .holdupTakeover input bank => Sys2Proof.Machine.execHoldupTakeover input bank s
  | .holdupTest energyDj => Sys2Proof.Machine.execHoldupTest energyDj s
  | .holdupNotReady => Sys2Proof.Machine.execHoldupNotReady s
  | .thermalStageEntered stage temp => Sys2Proof.Machine.execThermalStageEntered stage temp s
  | .thermalStageLeft stage seconds => Sys2Proof.Machine.execThermalStageLeft stage seconds s
  | .thmSensorFault sensorA sensorB junction => Sys2Proof.Machine.execThmSensorFault sensorA sensorB junction s
  | .thermalCritical coldPlate junction => Sys2Proof.Machine.execThermalCritical coldPlate junction s
  | .thermalResetRelease => Sys2Proof.Machine.execThermalResetRelease s
  | .clockFault edges => Sys2Proof.Machine.execClockFault edges s
  | .p48vApplied => Sys2Proof.Machine.execP48vApplied s
  | .p3v3AuxLost => Sys2Proof.Machine.execP3v3AuxLost s
  | .resetInAssert => Sys2Proof.Machine.execResetInAssert s
  | .resetInRelease => Sys2Proof.Machine.execResetInRelease s
  | .pwrDisableAssert => Sys2Proof.Machine.execPwrDisableAssert s
  | .pwrDisableRelease => Sys2Proof.Machine.execPwrDisableRelease s
  | .presentNFall => Sys2Proof.Machine.execPresentNFall s
  | .presentNRise => Sys2Proof.Machine.execPresentNRise s
  | .transportSenseRise => Sys2Proof.Machine.execTransportSenseRise s
  | .transportSenseClear => Sys2Proof.Machine.execTransportSenseClear s
  | .smbusOffsetWrite raw => Sys2Proof.Machine.execSmbusOffsetWrite raw s
  | .smbusRead n => Sys2Proof.Machine.execSmbusRead n s
  | .identityRefresh => Sys2Proof.Machine.execIdentityRefresh s
  | .secTrialPass => Sys2Proof.Machine.execSecTrialPass s
  | .secTrialFail => Sys2Proof.Machine.execSecTrialFail s
  | .trialTimeout => Sys2Proof.Machine.execTrialTimeout s
  | .commitTimeout => Sys2Proof.Machine.execCommitTimeout s
  | .sessionIdleTimeout => Sys2Proof.Machine.execSessionIdleTimeout s
  | .attestTokenRefill => Sys2Proof.Machine.execAttestTokenRefill s
  | .blockLockSet block => Sys2Proof.Machine.execBlockLockSet block s
  | .sysLockAllSet => Sys2Proof.Machine.execSysLockAllSet s
  | .cascadeWrite value => Sys2Proof.Machine.execCascadeWrite value s
  | .rcFieldRead core addr => Sys2Proof.Machine.execRcFieldRead core addr s
  | .loWordRead core addr => Sys2Proof.Machine.execLoWordRead core addr s
  | .registerWrite core addr width value => Sys2Proof.Machine.execRegisterWrite core addr width value s
  | .holdupReady => Sys2Proof.Machine.execHoldupReady s
  | .overtemp temp => Sys2Proof.Machine.execOvertemp temp s
  | .keyFetch cmd key => Sys2Proof.Machine.execKeyFetch cmd key s
  | .cmDrep ctx => Sys2Proof.Machine.execCmDrep ctx s
  | .p3v3AuxApplied => Sys2Proof.Machine.execP3v3AuxApplied s
  | .willadraConnection tlsMinor => Sys2Proof.Machine.execWilladraConnection tlsMinor s
  | .railPairFault src => Sys2Proof.Machine.execRailPairFault src s

end Sys2Proof.Machine
end

