-- ==== Sys2Proof/Machine/Tick.lean ====
section
/-! DEFINITION. The passing of time when no command waits. -/

namespace Sys2Proof.Machine

/-- FTL checkpoints its maps on its own while the journal class is at least 75 % full (R385). -/
def State.checkpointTick (s : State) : State :=
  if s.journalHigh && s.ldg.ready && !s.pwr.takeover then s.checkpointMaps else s

/-- FTL's own work goes on while it works: summaries, switches to programmed copies, copies that waited, moves at the front of their
gates, released parity, spares, and the journal's mark (R370, R371, R377, R385, R388, R397, R406, R413). -/
def State.upkeepTick (s : State) : State :=
  if s.ftl.mapReady && !s.blockInReset .ftl then
    ((s.writeSummaries 4).switchCopies.pumpCopies.serveMoves.dropReleased.sparesFell).checkpointTick
  else s

/-- One idle cycle while PD00 has power: an HCLK cycle of 10 ns, or with PD01 off and HCLK stopped one of AONCLK
(R525); a shift of the match engine and the upkeep of flash go on (R246, R406); the power-on seconds go on while P48V is present (R387). -/
def idleTick (s : State) : State :=
  if s.pwr.p48Present || s.pwr.auxPresent then
    let t := s.flt.time + (if s.domainOn 1 then 10 else 30518)
    let s := if s.pwr.p48Present && decide (s.flt.time / 1000000000 ≠ t / 1000000000) then
        s.onFtl fun f => { f with seconds := f.seconds + 1 } else s
    (s.onFlt fun f => { f with time := t }).shiftTick.upkeepTick
  else s

end Sys2Proof.Machine
end

