-- ==== Sys2Proof/Machine/Step.lean ====
section
/-! DEFINITION. One step of the drive: the command at the front of the queue, or an idle HCLK cycle. -/

namespace Sys2Proof.Machine

/-- Take the command at the front of `pending` and carry it out on the state with the queue's rest; on an
empty queue the drive idles for one HCLK cycle (R525; DESIGN CHOICE, log 1). -/
def step (s : State) : Host.Outcome State Fault Refusal :=
  match s.pending with
  | [] => .next (idleTick s)
  | c :: rest => exec c { s with pending := rest }

/-- No row of the opcode table gives bits, so no word spells a command: the state is unchanged. -/
def State.withFetchWord (s : State) (nbits w : Nat) : State :=
  match Sys2Proof.decodeTableWord nbits w with
  | some c => { s with pending := c :: s.pending }
  | none => s

end Sys2Proof.Machine
end

