-- ==== Sys2Proof/Safety.lean ====
section
/-! DEFINITION. What claims are stated in: a step that goes on, the parts of the state, what it is for a part to be
unchanged, and the canonical form of the two stores. -/

namespace Sys2Proof

open Sys2Proof.Machine

/-- The step neither faults nor refuses. -/
def Runs (s : State) : Prop := ∃ t, step s = .next t

/-- The parts of the state that a frame names. Each register word is a part of its own, and the byte memory of DRAM group B is one, beside the engine
rings. -/
inductive Part where
  | reg (addr : Nat) | latches | nfe | sch | idx | mch | val | cip | ldg | ftl | peer | rings | dram | flt | recorder | rst | pwr
  | sec | session | pins
deriving DecidableEq, Repr

/-- A part is the same in two states: a register word reads the same, and of DRAM group B every byte. -/
def Part.same (p : Part) (s t : State) : Prop :=
  match p with
  | .reg a => t.reg a = s.reg a
  | .latches => t.latches = s.latches
  | .nfe => t.nfe = s.nfe
  | .sch => t.sch = s.sch
  | .idx => t.idx = s.idx
  | .mch => t.mch = s.mch
  | .val => t.val = s.val
  | .cip => t.cip = s.cip
  | .ldg => t.ldg = s.ldg
  | .ftl => t.ftl = s.ftl
  | .peer => t.peer = s.peer
  | .rings => { t.eng with dram := [] } = { s.eng with dram := [] }
  | .dram => ∀ a, memRead t.eng.dram a = memRead s.eng.dram a
  | .flt => t.flt = s.flt
  | .recorder => t.recorder = s.recorder
  | .rst => t.rst = s.rst
  | .pwr => t.pwr = s.pwr
  | .sec => t.sec = s.sec
  | .session => t.session = s.session
  | .pins => t.pins = s.pins

/-- Every part outside a list is the same. -/
def OnlyChanges (ps : List Part) (s t : State) : Prop := ∀ p, p ∉ ps → p.same s t

/-- The canonical form of the two sparse stores: DRAM group B lists rising addresses and no byte that an unlisted
address reads as, and the register store lists rising addresses. -/
def Canonical (s : State) : Prop := Memory.wf s.eng.dram = true ∧ Tbl.wf s.regs = true

/-- Flash has no upkeep to go on with: nothing is being copied, moved, verified or emptied, no summary waits, no released parity
is left, spares stand, and the journal is below its mark (R385, R388, R397, R406, R413). -/
def FlashIdle (s : State) : Prop :=
  s.ftl.sumQueue = [] ∧ s.ftl.copies = [] ∧ s.ftl.moves = [] ∧ s.ftl.verifies = [] ∧ s.emptying = [] ∧
    (∀ g ∈ s.sch.gate, g.move = none) ∧ (∀ e ∈ s.ftl.par, e.2.released = false) ∧
    (∀ e ∈ s.ftl.sbs, e.2.stream = 6 → e.2.st ≠ .closed) ∧ 0 < s.spareMembers ∧
    (s.ftl.spareLow = true ∨ 64 * s.fld Reg.FTL_WEAR_CFG_SPARE_WARN ≤ s.spareMembers) ∧ s.journalHigh = false

/-- The messages that a step sends, in their order, after all that was sent before. -/
def Sends (s t : State) (xs : List Tx) : Prop := ∃ ms : List Sent, ms.map Sent.tx = xs ∧ t.nfe.tx = s.nfe.tx ++ ms

/-- What is left of a queue pair that leaves service with a cause (R125). -/
def Machine.Qp.failed (q : Qp) (cause : Nat) : Qp := { q with st := .error, cause := cause, fetching := 0, phaseWait := false }

/-- No retention entry of a queue pair is in use, and no peer's link rests on it. -/
def ClientIdle (s : State) (ctx : Nat) (q : Qp) : Prop :=
  q.conn.peer = none ∧ q.dreq = false ∧ ∀ e ∈ s.sch.cmds, e.2.ctx ≠ some ctx

/-- A command has been decided with an outcome and waits for its completion entry to be written (R120, R140). -/
def Ended (s : State) (n : Nat) (o : Outcome) : Prop :=
  ∃ c, s.cmd? n = some c ∧ c.stage = .done ∧ c.outcome = some o

/-- A client's command that has started, with its policy found, the right given, its lookup resolved with a record that
can be read, and no condition found (R142, R173). -/
def CmdReady (c : Cmd) (ctx : Nat) : Prop :=
  c.ctx = some ctx ∧ c.chain = none ∧ c.orphan = false ∧ c.resolved = true ∧ c.denied = false ∧
    c.lookup ≠ .unreadable ∧ c.conds = []

/-- An admin operation may be carried out: the drive answers the network, and an admin queue pair's command has started,
and every entry issued before a ring's directive has started (R168, R457). -/
def AdminReady (s : State) (via : AdminVia) (op : Opcode) : Prop :=
  s.netUp = true ∧ s.adminTurn via = true ∧ ∀ n, via = .qp n → ∃ c, s.cmd? n = some c ∧ c.op = op ∧ c.stage = .started

/-- A message of one KIND arrives whole and unsealed on an ACTIVE peer queue pair, from a peer that is UP (R422, R424). -/
def HeardFrom (s : State) (kind : Nat) (m : PeerMsg) (p : Nat) : Prop :=
  s.activePeer m.ctx = some p ∧ s.peerLive p = .up ∧ m.crc = msgCrc kind m ∧ m.sealed = false

/-- A sealed message as it stands once its pieces have opened to some bytes (R424). -/
def plainMsg (kind : Nat) (m : PeerMsg) (b : Bytes) : PeerMsg :=
  let m := { m with sealed := false, headers := [], data := b }
  { m with crc := msgCrc kind m }

/-- The parts beside the registers that a command may change, whatever the state. -/
def touched (c : Instr) : List Part :=
  match c with
  | .get _ | .head _ | .flush _ | .nop _ | .descriptorAccept _ _ | .valueDataArrival _ _ | .repairReq _
  | .repairResp _ | .keyFetch _ _ =>
    [.nfe, .sch, .val, .cip, .ldg, .ftl, .peer, .flt]
  | .put _ | .delete _ | .writeRange _ | .punch _ | .cipherJobDone _ _ _ | .readRepair _ _ | .repairTimeout _ =>
    [.nfe, .sch, .idx, .val, .cip, .ldg, .ftl, .peer, .flt]
  | .scan _ _ | .scanNext _ _ | .count _ _ | .doorbell _ _ _ _ | .unsupportedRequest _ | .phaseRefetch _
  | .remoteAccessNak _ | .transportRetryExhausted _ | .linkdownTimeout _ | .policySearch _ _
  | .scanBatchTimeout _ =>
    [.nfe, .sch, .mch, .val, .cip, .ldg, .ftl, .peer, .flt]
  | .sessionOpen _ _ | .sessionBlock _ _ _ | .sessionClose _ | .secTrialPass =>
    [.nfe, .sch, .val, .cip, .ldg, .ftl, .peer, .rings, .dram, .flt, .session]
  | .sessionActivate _ | .sessionCommit _ =>
    [.nfe, .sch, .val, .cip, .ldg, .ftl, .peer, .rings, .dram, .flt, .sec, .session]
  | .attest _ _ _ =>
    [.nfe, .sch, .val, .cip, .ldg, .ftl, .peer, .rings, .dram, .flt, .sec]
  | .identify _ _ =>
    [.nfe, .sch, .val, .cip, .ldg, .ftl, .peer, .rings, .dram, .flt]
  | .recRead _ _ _ =>
    [.nfe, .sch, .val, .cip, .ldg, .ftl, .peer, .rings, .dram, .flt, .recorder]
  | .recClear _ _ _ _ =>
    [.ldg, .rings, .dram, .flt, .recorder, .sec]
  | .cmReq _ =>
    [.nfe, .sch, .ldg, .peer, .flt]
  | .cmRtu _ _ | .connectingTimeout _ | .coalesceTimer _ | .cePacketReceived _ | .cnpReceived _
  | .ccTimerExpiry _ | .linkDown _ | .linkUp _ | .portRetrainEnd _ | .keepaliveSend _ | .cmDrep _ =>
    [.nfe]
  | .cmDreq _ | .outcomeRecordExpiry _ _ | .completionAcked _ | .completionWrite _ | .chainWrite _
  | .dedupeExpiry _ _ =>
    [.nfe, .sch, .cip, .ldg, .peer, .flt]
  | .descriptorFetch =>
    [.nfe, .sch]
  | .opticsInsert _ _ _ _ | .opticsRailTrip _ | .peerCmRep _ _ | .peerCmRtu _ _ =>
    [.nfe, .flt]
  | .indexLookup _ _ _ _ | .reclaimBest _ _ _ | .reclaimSb _ _ | .verifyRelease _ _ _ | .refreshDue _ _
  | .wearMove _ | .resyncRange _ _ _ | .ledgerPack _ | .eraseDone _ | .eraseFail _ _ | .urgentVerify _
  | .skeinDemote =>
    [.nfe, .sch, .idx, .val, .cip, .ldg, .ftl, .peer, .rings, .dram, .flt, .recorder]
  | .commitGate _ | .mirrorChangeDone | .patrol _ _ _ | .chainAck _ | .successorAckTimeout _
  | .headChainTimeout _ | .dieReadDone _ _ _ =>
    [.nfe, .sch, .idx, .val, .cip, .ldg, .ftl, .peer, .rings, .dram, .flt]
  | .segmentRead _ _ | .droppedStitchRebuilt _ _ _ | .programFail _ _ _ | .dieFailed _ _ | .channelFault _ _
  | .slcFold | .autoReclaim | .refreshAuto _ | .hangDetected _ =>
    [.nfe, .sch, .idx, .val, .cip, .ldg, .ftl, .peer, .flt, .recorder]
  | .repairRewrite _ =>
    [.sch, .idx, .val, .ldg, .ftl, .rings, .dram, .flt]
  | .scanContextExpiry _ | .halfWithdraw =>
    [.mch]
  | .matchStateReloaded _ | .matchScrub _ =>
    [.mch, .flt]
  | .blockResetExit _ =>
    [.latches, .nfe, .sch, .idx, .mch, .val, .cip, .ldg, .ftl, .peer, .rings, .dram, .flt]
  | .engDoorbell _ _ _ | .engCqHeadWrite _ _ | .ruleRead _ _ | .epochSet _ _ =>
    [.rings, .dram, .flt]
  | .engRingEnable _ =>
    [.rings]
  | .engAttachWrite _ =>
    [.nfe, .sch, .val, .cip, .ldg, .ftl, .peer, .rings, .dram, .flt, .session, .pins]
  | .unpin _ _ | .pin _ _ | .rebuild _ | .repairPoison _ | .mirrorScrub _ =>
    [.idx, .rings, .dram, .flt]
  | .ruleWrite _ _ _ | .ruleInsert _ _ _ _ | .shiftComplete | .ruleClear _ _ | .ruleSearch _ _ _ _
  | .scrubNow _ _ =>
    [.mch, .rings, .dram, .flt]
  | .checkCompute _ _ _ _ _ _ =>
    [.val, .rings, .dram, .flt]
  | .keyGenerate _ _ | .keyImport _ _ _ | .keyRoll _ _ | .keyErase _ _ | .keyQuery _ _ | .bufSeal _ _ _ _ _ _
  | .bufOpen _ _ _ _ _ _ _ | .retiredGenRelease _ _ | .eraseWaitExpiry _ | .slotEccError _ _ | .domainLoad _ _ _
  | .cipAlarmSwWrite _ | .tamperDetected _ | .glitchDetected | .clockFault _ =>
    [.cip, .ldg, .rings, .dram, .flt]
  | .peerWrite _ _ =>
    [.nfe, .peer, .rings, .dram, .flt]
  | .placeWrite _ _ _ | .templateWrite _ _ _ =>
    [.peer, .rings, .dram, .flt]
  | .tenantWrite _ _ =>
    [.nfe, .sch, .mch, .val, .cip, .ldg, .ftl, .peer, .rings, .dram, .flt]
  | .tenantRead _ _ | .secretLoad _ _ _ | .secretClear _ _ =>
    [.sch, .rings, .dram, .flt]
  | .ownerChallenge _ _ | .ownerAuth _ _ _ _ | .ownerLock _ _ _ =>
    [.nfe, .rings, .dram, .flt, .sec]
  | .ownerSet _ _ _ | .ownerErase _ _ =>
    [.nfe, .cip, .ldg, .rings, .dram, .flt, .sec]
  | .chainRevoke _ =>
    [.sch, .idx, .cip, .ldg, .ftl, .peer, .rings, .dram, .flt]
  | .keepalive _ =>
    [.cip, .peer, .flt]
  | .peerDead _ =>
    [.peer, .flt]
  | .peerLinkRequest _ _ | .peerCmReq _ =>
    [.nfe, .ldg, .peer, .flt]
  | .revokeHoldExpiry _ _ =>
    [.sch, .ldg, .ftl, .peer, .flt]
  | .ledgerLineWrite _ _ _ _ _ =>
    [.sch, .ldg, .flt, .recorder]
  | .gapMove _ =>
    [.ldg]
  | .ledgerGroupFailed _ | .ledgerDeviceFailed _ | .faultEvent _ | .headlessTimeout | .resetDrainEnd
  | .startTimeout | .rstSoftWrite _ _ | .resetInAssert | .pwrDisableAssert | .presentNRise =>
    [.latches, .nfe, .sch, .idx, .mch, .val, .cip, .ldg, .ftl, .peer, .rings, .dram, .flt, .recorder, .rst, .pwr,
      .session, .pins]
  | .gaugeRefill =>
    [.sch, .ldg, .flt]
  | .usageCheckpoint =>
    [.ldg, .flt]
  | .mapCheckpoint | .programDone _ _ | .wordlinePad _ =>
    [.sch, .ldg, .ftl, .rings, .dram, .flt]
  | .programSuspend _ _ =>
    [.ftl]
  | .railTest _ | .collectorMessage _ _ _ | .stickyClear _ _ | .fltFirstClear | .errOutRelease _ | .phaseLost _ _
  | .cascadeWrite _ | .railPairFault _ =>
    [.flt]
  | .fltSwatchArm _ | .valSwatchArm _ | .blockLockSet _ | .sysLockAllSet =>
    []
  | .cipCtrPreset _ =>
    [.cip, .ldg, .flt]
  | .recordWrite | .recCopyBack =>
    [.ldg, .flt, .recorder]
  | .heartbeat | .pwrDisableRelease | .presentNFall | .transportSenseRise | .transportSenseClear =>
    [.pins]
  | .heartbeatMissed =>
    [.flt, .pins]
  | .activationDrainEnd =>
    [.latches, .nfe, .sch, .idx, .mch, .val, .cip, .ldg, .ftl, .peer, .rings, .dram, .flt, .sec, .session, .pins]
  | .chipStart _ =>
    [.nfe, .sch, .idx, .mch, .val, .cip, .ldg, .ftl, .peer, .rings, .dram, .flt, .recorder, .rst, .pwr, .sec,
      .session, .pins]
  | .startDone =>
    [.sch, .flt, .rst]
  | .recoveryDownload _ _ | .holdupTakeover _ _ | .registerWrite _ _ _ _ =>
    [.latches, .nfe, .sch, .idx, .mch, .val, .cip, .ldg, .ftl, .peer, .rings, .dram, .flt, .recorder, .rst, .pwr,
      .sec, .session, .pins]
  | .domainSwitch =>
    [.rings, .dram, .flt, .pwr]
  | .ps1Entry | .ps2Entry | .ps3Entry | .ps3Request | .ps0Request | .wakeEvent _ | .holdupTest _ =>
    [.flt, .pwr]
  | .shedStageEntered _ _ =>
    [.nfe, .sch, .idx, .mch, .val, .cip, .ldg, .ftl, .peer, .rings, .dram, .flt, .pwr]
  | .shedStageLeft _ _ =>
    [.mch, .peer, .flt, .pwr]
  | .holdupNotReady =>
    [.sch, .flt]
  | .thermalStageEntered _ _ | .thermalStageLeft _ _ | .thmSensorFault _ _ _ =>
    [.mch, .flt, .pwr]
  | .thermalCritical _ _ =>
    [.flt, .rst, .pwr]
  | .thermalResetRelease =>
    [.rst]
  | .p48vApplied | .p3v3AuxLost | .p3v3AuxApplied =>
    [.ldg, .flt, .recorder, .rst, .pwr, .sec, .pins]
  | .resetInRelease =>
    [.rst, .pins]
  | .smbusOffsetWrite _ | .smbusRead _ | .willadraConnection _ =>
    [.nfe, .pins]
  | .identityRefresh =>
    [.pwr, .pins]
  | .secTrialFail =>
    [.nfe, .sch, .flt, .session]
  | .trialTimeout | .commitTimeout | .sessionIdleTimeout =>
    [.nfe, .sch, .session]
  | .attestTokenRefill =>
    [.sec]
  | .rcFieldRead _ _ | .loWordRead _ _ =>
    [.latches, .nfe, .cip, .ldg, .flt, .pwr]
  | .holdupReady =>
    [.sch, .pwr]
  | .overtemp _ =>
    [.cip, .ldg, .rings, .dram, .flt, .pwr]

/-- The register words that a command may change by itself, each named by one of its fields: counters and status that
hardware keeps, and the registers that the command is a write of. A chip start and a write of a register may change any. -/
def touchedReg (c : Instr) (a : Nat) : Prop :=
  match c with
  | .get _ | .delete _ | .head _ | .flush _ | .nop _ | .sessionOpen _ _ | .sessionBlock _ _ _
  | .sessionActivate _ | .sessionCommit _ | .sessionClose _ | .attest _ _ _ | .identify _ _
  | .descriptorAccept _ _ | .keyFetch _ _ =>
    a ∈ [Reg.CIP_LANE_STAT_NONCE_REFUSALS.addr, Reg.FLT_SWATCH_CTL_ARM.addr, Reg.LDG_GAUGE_STAT_FALLBACKS.addr,
      Reg.LDG_UNMETERED_LINES.addr, Reg.PWR_SHED_CNT_SHED_WRITES.addr, Reg.VAL_E2E_STAT_E2E_MISMATCHES.addr]
  | .put _ | .writeRange _ | .punch _ | .valueDataArrival _ _ =>
    a ∈ [Reg.CIP_LANE_STAT_NONCE_REFUSALS.addr, Reg.FLT_SWATCH_CTL_ARM.addr, Reg.LDG_GAUGE_STAT_FALLBACKS.addr,
      Reg.LDG_UNMETERED_LINES.addr, Reg.PWR_SHED_CNT_SHED_WRITES.addr, Reg.VAL_COMP_STAT_RAW_BY_PROBE.addr,
      Reg.VAL_E2E_STAT_E2E_MISMATCHES.addr, Reg.VAL_SWATCH_ARM.addr]
  | .scan _ _ | .scanNext _ _ | .count _ _ | .policySearch _ _ =>
    a ∈ [Reg.CIP_LANE_STAT_NONCE_REFUSALS.addr, Reg.FLT_SWATCH_CTL_ARM.addr, Reg.LDG_GAUGE_STAT_FALLBACKS.addr,
      Reg.LDG_UNMETERED_LINES.addr, Reg.MCH_ERR_STAT_SCRUB_FIXES.addr, Reg.PWR_SHED_CNT_SHED_WRITES.addr,
      Reg.VAL_E2E_STAT_E2E_MISMATCHES.addr]
  | .recRead _ _ _ =>
    a ∈ [Reg.CIP_LANE_STAT_NONCE_REFUSALS.addr, Reg.FLT_SWATCH_CTL_ARM.addr, Reg.LDG_GAUGE_STAT_FALLBACKS.addr,
      Reg.LDG_UNMETERED_LINES.addr, Reg.PWR_SHED_CNT_SHED_WRITES.addr, Reg.REC_LOST_STAT_SRAM_OVERWRITTEN.addr,
      Reg.VAL_E2E_STAT_E2E_MISMATCHES.addr]
  | .recClear _ _ _ _ | .chainRevoke _ | .mapCheckpoint | .programDone _ _ | .wordlinePad _ =>
    a ∈ [Reg.FLT_SWATCH_CTL_ARM.addr, Reg.LDG_GAUGE_STAT_FALLBACKS.addr]
  | .doorbell _ _ _ _ | .phaseRefetch _ =>
    a ∈ [Reg.CIP_LANE_STAT_NONCE_REFUSALS.addr, Reg.FLT_SWATCH_CTL_ARM.addr, Reg.LDG_GAUGE_STAT_FALLBACKS.addr,
      Reg.LDG_UNMETERED_LINES.addr, Reg.PWR_SHED_CNT_SHED_WRITES.addr, Reg.QPM_ERR_STAT_QGEN_DROPS.addr]
  | .unsupportedRequest _ | .remoteAccessNak _ | .transportRetryExhausted _ | .linkdownTimeout _
  | .scanBatchTimeout _ | .tenantWrite _ _ | .repairReq _ | .headlessTimeout | .resetDrainEnd | .startTimeout
  | .rstSoftWrite _ _ | .recoveryDownload _ _ | .resetInAssert | .pwrDisableAssert | .presentNRise
  | .secTrialPass =>
    a ∈ [Reg.CIP_LANE_STAT_NONCE_REFUSALS.addr, Reg.FLT_SWATCH_CTL_ARM.addr, Reg.LDG_GAUGE_STAT_FALLBACKS.addr,
      Reg.LDG_UNMETERED_LINES.addr, Reg.PWR_SHED_CNT_SHED_WRITES.addr]
  | .cmReq _ | .peerLinkRequest _ _ | .peerCmReq _ | .revokeHoldExpiry _ _ | .usageCheckpoint =>
    a ∈ [Reg.LDG_GAUGE_STAT_FALLBACKS.addr]
  | .cmRtu _ _ | .connectingTimeout _ | .descriptorFetch | .coalesceTimer _ | .cePacketReceived _
  | .cnpReceived _ | .ccTimerExpiry _ | .linkDown _ | .linkUp _ | .portRetrainEnd _ | .opticsInsert _ _ _ _
  | .opticsRailTrip _ | .scanContextExpiry _ | .halfWithdraw | .keepalive _ | .keepaliveSend _ | .peerDead _
  | .peerCmRep _ _ | .peerCmRtu _ _ | .gapMove _ | .gaugeRefill | .programSuspend _ _ | .collectorMessage _ _ _
  | .stickyClear _ _ | .fltFirstClear | .errOutRelease _ | .heartbeat | .startDone | .ps1Entry | .ps2Entry
  | .ps3Entry | .ps3Request | .shedStageLeft _ _ | .holdupNotReady | .thermalCritical _ _ | .thermalResetRelease
  | .resetInRelease | .pwrDisableRelease | .presentNFall | .transportSenseRise | .transportSenseClear
  | .smbusOffsetWrite _ | .smbusRead _ | .identityRefresh | .secTrialFail | .trialTimeout | .commitTimeout
  | .sessionIdleTimeout | .attestTokenRefill | .holdupReady | .cmDrep _ | .willadraConnection _
  | .railPairFault _ =>
    False
  | .cmDreq _ | .outcomeRecordExpiry _ _ | .completionAcked _ | .completionWrite _ | .bufSeal _ _ _ _ _ _
  | .bufOpen _ _ _ _ _ _ _ | .chainWrite _ | .dedupeExpiry _ _ =>
    a ∈ [Reg.CIP_LANE_STAT_NONCE_REFUSALS.addr, Reg.FLT_SWATCH_CTL_ARM.addr, Reg.LDG_UNMETERED_LINES.addr]
  | .indexLookup _ _ _ _ =>
    a ∈ [Reg.CIP_LANE_STAT_NONCE_REFUSALS.addr, Reg.FLT_SWATCH_CTL_ARM.addr, Reg.IDX_EXPRESS_LAT_MAX_FCLK.addr,
      Reg.IDX_LOOKUP_STAT_SPURIOUS_READS.addr, Reg.LDG_GAUGE_STAT_FALLBACKS.addr, Reg.LDG_UNMETERED_LINES.addr,
      Reg.PWR_SHED_CNT_SHED_WRITES.addr, Reg.REC_LOST_STAT_SRAM_OVERWRITTEN.addr,
      Reg.VAL_E2E_STAT_E2E_MISMATCHES.addr]
  | .cipherJobDone _ _ _ =>
    a ∈ [Reg.CIP_AUTH_STAT_AUTH_FAILURES.addr, Reg.CIP_LANE_STAT_NONCE_REFUSALS.addr, Reg.FLT_SWATCH_CTL_ARM.addr,
      Reg.LDG_GAUGE_STAT_FALLBACKS.addr, Reg.LDG_UNMETERED_LINES.addr, Reg.PEER_REPAIR_STAT_REPAIRS.addr,
      Reg.PWR_SHED_CNT_SHED_WRITES.addr, Reg.VAL_COMP_STAT_RAW_BY_PROBE.addr, Reg.VAL_E2E_STAT_E2E_MISMATCHES.addr,
      Reg.VAL_READ_STAT_UNRECOVERABLE.addr, Reg.VAL_SWATCH_ARM.addr]
  | .commitGate _ | .mirrorChangeDone | .chainAck _ | .successorAckTimeout _ | .headChainTimeout _ =>
    a ∈ [Reg.CIP_LANE_STAT_NONCE_REFUSALS.addr, Reg.FLT_SWATCH_CTL_ARM.addr, Reg.LDG_GAUGE_STAT_FALLBACKS.addr,
      Reg.LDG_UNMETERED_LINES.addr, Reg.PEER_CHAIN_STAT_DEGRADED.addr, Reg.PWR_SHED_CNT_SHED_WRITES.addr,
      Reg.VAL_E2E_STAT_E2E_MISMATCHES.addr]
  | .segmentRead _ _ =>
    a ∈ [Reg.CIP_AUTH_STAT_AUTH_FAILURES.addr, Reg.CIP_LANE_STAT_NONCE_REFUSALS.addr, Reg.FLT_SWATCH_CTL_ARM.addr,
      Reg.LDG_GAUGE_STAT_FALLBACKS.addr, Reg.LDG_UNMETERED_LINES.addr, Reg.PEER_REPAIR_STAT_REPAIRS.addr,
      Reg.PWR_SHED_CNT_SHED_WRITES.addr, Reg.REC_LOST_STAT_SRAM_OVERWRITTEN.addr,
      Reg.VAL_COMP_STAT_RAW_BY_PROBE.addr, Reg.VAL_E2E_STAT_E2E_MISMATCHES.addr,
      Reg.VAL_READ_STAT_UNRECOVERABLE.addr, Reg.VAL_SWATCH_ARM.addr]
  | .readRepair _ _ | .repairResp _ =>
    a ∈ [Reg.CIP_AUTH_STAT_AUTH_FAILURES.addr, Reg.CIP_LANE_STAT_NONCE_REFUSALS.addr, Reg.FLT_SWATCH_CTL_ARM.addr,
      Reg.LDG_GAUGE_STAT_FALLBACKS.addr, Reg.LDG_UNMETERED_LINES.addr, Reg.PEER_REPAIR_STAT_REPAIRS.addr,
      Reg.PWR_SHED_CNT_SHED_WRITES.addr, Reg.VAL_COMP_STAT_RAW_BY_PROBE.addr, Reg.VAL_E2E_STAT_E2E_MISMATCHES.addr,
      Reg.VAL_READ_STAT_UNRECOVERABLE.addr, Reg.VAL_REPAIR_STAT_CHECK_REPAIRS.addr, Reg.VAL_SWATCH_ARM.addr]
  | .repairRewrite _ =>
    a ∈ [Reg.FLT_SWATCH_CTL_ARM.addr, Reg.LDG_GAUGE_STAT_FALLBACKS.addr, Reg.VAL_READ_STAT_UNRECOVERABLE.addr]
  | .matchStateReloaded _ =>
    a ∈ [Reg.MCH_ERR_STAT_SCRUB_FIXES.addr]
  | .matchScrub _ | .ruleSearch _ _ _ _ | .scrubNow _ _ =>
    a ∈ [Reg.FLT_SWATCH_CTL_ARM.addr, Reg.MCH_ERR_STAT_SCRUB_FIXES.addr]
  | .blockResetExit _ =>
    a ∈ [Reg.CIP_AUTH_STAT_AUTH_FAILURES.addr, Reg.CIP_LANE_STAT_NONCE_REFUSALS.addr, Reg.FLT_SWATCH_CTL_ARM.addr,
      Reg.LDG_GAUGE_STAT_FALLBACKS.addr, Reg.LDG_UNMETERED_LINES.addr, Reg.MCH_ERR_STAT_SCRUB_FIXES.addr,
      Reg.MCH_STATUS_EPOCH.addr, Reg.PEER_CHAIN_STAT_DEGRADED.addr, Reg.PEER_REPAIR_STAT_REPAIRS.addr,
      Reg.PWR_SHED_CNT_SHED_WRITES.addr, Reg.QPM_ERR_STAT_QGEN_DROPS.addr, Reg.SCH_REPLAY_STAT_REPLAYS.addr,
      Reg.VAL_E2E_STAT_E2E_MISMATCHES.addr, Reg.VAL_READ_STAT_UNRECOVERABLE.addr, Reg.VAL_SWATCH_ARM.addr]
  | .engDoorbell _ _ _ | .engCqHeadWrite _ _ | .unpin _ _ | .pin _ _ | .rebuild _ | .repairPoison _
  | .mirrorScrub _ | .ruleInsert _ _ _ _ | .ruleRead _ _ | .checkCompute _ _ _ _ _ _ | .peerWrite _ _
  | .placeWrite _ _ _ | .templateWrite _ _ _ | .tenantRead _ _ | .secretLoad _ _ _ | .secretClear _ _
  | .ownerChallenge _ _ | .ownerAuth _ _ _ _ | .ownerLock _ _ _ | .railTest _ | .fltSwatchArm _ | .domainSwitch =>
    a ∈ [Reg.FLT_SWATCH_CTL_ARM.addr]
  | .engRingEnable _ =>
    (∃ n, a = (Reg.ENG_RING_CFG_EN n).addr)
  | .engAttachWrite _ =>
    a ∈ [Reg.CIP_LANE_STAT_NONCE_REFUSALS.addr, Reg.ENG_HOLD_HOLD.addr, Reg.FLT_SWATCH_CTL_ARM.addr,
      Reg.LDG_GAUGE_STAT_FALLBACKS.addr, Reg.LDG_UNMETERED_LINES.addr, Reg.PWR_SHED_CNT_SHED_WRITES.addr]
  | .ruleWrite _ _ _ | .ruleClear _ _ | .epochSet _ _ =>
    a ∈ [Reg.FLT_SWATCH_CTL_ARM.addr, Reg.MCH_STATUS_EPOCH.addr]
  | .shiftComplete =>
    a ∈ [Reg.FLT_SWATCH_CTL_ARM.addr, Reg.MCH_ERR_STAT_SCRUB_FIXES.addr, Reg.MCH_STATUS_EPOCH.addr]
  | .keyGenerate _ _ | .keyImport _ _ _ | .keyRoll _ _ | .keyErase _ _ | .keyQuery _ _ | .retiredGenRelease _ _
  | .eraseWaitExpiry _ | .slotEccError _ _ | .domainLoad _ _ _ | .ownerSet _ _ _ | .ownerErase _ _
  | .cipAlarmSwWrite _ | .tamperDetected _ | .glitchDetected | .clockFault _ | .overtemp _ =>
    a ∈ [Reg.FLT_SWATCH_CTL_ARM.addr, Reg.LDG_UNMETERED_LINES.addr]
  | .reclaimBest _ _ _ | .reclaimSb _ _ | .verifyRelease _ _ _ | .refreshDue _ _ | .wearMove _
  | .resyncRange _ _ _ | .eraseDone _ | .eraseFail _ _ | .slcFold | .autoReclaim | .urgentVerify _
  | .refreshAuto _ =>
    a ∈ [Reg.CIP_AUTH_STAT_AUTH_FAILURES.addr, Reg.CIP_LANE_STAT_NONCE_REFUSALS.addr, Reg.FLT_SWATCH_CTL_ARM.addr,
      Reg.LDG_GAUGE_STAT_FALLBACKS.addr, Reg.LDG_UNMETERED_LINES.addr, Reg.PEER_REPAIR_STAT_REPAIRS.addr,
      Reg.PWR_SHED_CNT_SHED_WRITES.addr, Reg.REC_LOST_STAT_SRAM_OVERWRITTEN.addr,
      Reg.VAL_E2E_STAT_E2E_MISMATCHES.addr, Reg.VAL_READ_STAT_UNRECOVERABLE.addr]
  | .patrol _ _ _ | .dieReadDone _ _ _ =>
    a ∈ [Reg.CIP_AUTH_STAT_AUTH_FAILURES.addr, Reg.CIP_LANE_STAT_NONCE_REFUSALS.addr, Reg.FLT_SWATCH_CTL_ARM.addr,
      Reg.LDG_GAUGE_STAT_FALLBACKS.addr, Reg.LDG_UNMETERED_LINES.addr, Reg.PEER_REPAIR_STAT_REPAIRS.addr,
      Reg.PWR_SHED_CNT_SHED_WRITES.addr, Reg.VAL_E2E_STAT_E2E_MISMATCHES.addr, Reg.VAL_READ_STAT_UNRECOVERABLE.addr]
      ∨ (∃ n, a = (Reg.FCH_CH_LDPC_SOFT_DECODES n).addr)
  | .repairTimeout _ =>
    a ∈ [Reg.CIP_AUTH_STAT_AUTH_FAILURES.addr, Reg.CIP_LANE_STAT_NONCE_REFUSALS.addr, Reg.FLT_SWATCH_CTL_ARM.addr,
      Reg.LDG_GAUGE_STAT_FALLBACKS.addr, Reg.LDG_UNMETERED_LINES.addr, Reg.PEER_REPAIR_STAT_REPAIRS.addr,
      Reg.PWR_SHED_CNT_SHED_WRITES.addr, Reg.VAL_E2E_STAT_E2E_MISMATCHES.addr, Reg.VAL_READ_STAT_UNRECOVERABLE.addr]
  | .ledgerLineWrite _ _ _ _ _ =>
    a ∈ [Reg.FLT_SWATCH_CTL_ARM.addr, Reg.REC_LOST_STAT_SRAM_OVERWRITTEN.addr]
  | .ledgerGroupFailed _ | .ledgerDeviceFailed _ =>
    a ∈ [Reg.CIP_LANE_STAT_NONCE_REFUSALS.addr, Reg.FLT_ESC_STAT_ESCALATIONS.addr, Reg.FLT_IRQ_CNT_COUNT.addr,
      Reg.FLT_SWATCH_CTL_ARM.addr, Reg.LDG_GAUGE_STAT_FALLBACKS.addr, Reg.LDG_UNMETERED_LINES.addr,
      Reg.PWR_SHED_CNT_SHED_WRITES.addr, Reg.REC_LOST_STAT_SRAM_OVERWRITTEN.addr]
  | .ledgerPack _ | .skeinDemote =>
    a ∈ [Reg.CIP_AUTH_STAT_AUTH_FAILURES.addr, Reg.CIP_LANE_STAT_NONCE_REFUSALS.addr, Reg.FLT_SWATCH_CTL_ARM.addr,
      Reg.LDG_GAUGE_STAT_FALLBACKS.addr, Reg.LDG_UNMETERED_LINES.addr, Reg.PEER_REPAIR_STAT_REPAIRS.addr,
      Reg.PWR_SHED_CNT_SHED_WRITES.addr, Reg.REC_LOST_STAT_SRAM_OVERWRITTEN.addr,
      Reg.VAL_E2E_STAT_E2E_MISMATCHES.addr, Reg.VAL_READ_STAT_UNRECOVERABLE.addr, Reg.VAL_SWATCH_ARM.addr]
  | .droppedStitchRebuilt _ _ _ =>
    a ∈ [Reg.CIP_AUTH_STAT_AUTH_FAILURES.addr, Reg.CIP_LANE_STAT_NONCE_REFUSALS.addr, Reg.FLT_SWATCH_CTL_ARM.addr,
      Reg.FTL_UPKEEP_STAT_REBUILDS.addr, Reg.LDG_GAUGE_STAT_FALLBACKS.addr, Reg.LDG_UNMETERED_LINES.addr,
      Reg.PEER_REPAIR_STAT_REPAIRS.addr, Reg.PWR_SHED_CNT_SHED_WRITES.addr, Reg.REC_LOST_STAT_SRAM_OVERWRITTEN.addr,
      Reg.VAL_E2E_STAT_E2E_MISMATCHES.addr, Reg.VAL_READ_STAT_UNRECOVERABLE.addr]
  | .programFail _ _ _ =>
    a ∈ [Reg.CIP_AUTH_STAT_AUTH_FAILURES.addr, Reg.CIP_LANE_STAT_NONCE_REFUSALS.addr, Reg.FLT_SWATCH_CTL_ARM.addr,
      Reg.FTL_UPKEEP_STAT_REBUILDS.addr, Reg.LDG_GAUGE_STAT_FALLBACKS.addr, Reg.LDG_UNMETERED_LINES.addr,
      Reg.PEER_REPAIR_STAT_REPAIRS.addr, Reg.PWR_SHED_CNT_SHED_WRITES.addr, Reg.REC_LOST_STAT_SRAM_OVERWRITTEN.addr,
      Reg.VAL_E2E_STAT_E2E_MISMATCHES.addr, Reg.VAL_READ_STAT_UNRECOVERABLE.addr, Reg.VAL_SWATCH_ARM.addr]
  | .dieFailed _ _ | .channelFault _ _ | .hangDetected _ =>
    a ∈ [Reg.CIP_AUTH_STAT_AUTH_FAILURES.addr, Reg.CIP_LANE_STAT_NONCE_REFUSALS.addr, Reg.FLT_SWATCH_CTL_ARM.addr,
      Reg.LDG_GAUGE_STAT_FALLBACKS.addr, Reg.LDG_UNMETERED_LINES.addr, Reg.PEER_REPAIR_STAT_REPAIRS.addr,
      Reg.PWR_SHED_CNT_SHED_WRITES.addr, Reg.REC_LOST_STAT_SRAM_OVERWRITTEN.addr,
      Reg.VAL_E2E_STAT_E2E_MISMATCHES.addr, Reg.VAL_READ_STAT_UNRECOVERABLE.addr, Reg.VAL_SWATCH_ARM.addr] ∨ (∃ n, a
      = (Reg.FCH_CH_STATUS_OFFLINE n).addr)
  | .faultEvent _ =>
    a ∈ [Reg.CIP_LANE_STAT_NONCE_REFUSALS.addr, Reg.FLT_ESC_STAT_ESCALATIONS.addr, Reg.FLT_IRQ_CNT_COUNT.addr,
      Reg.FLT_SWATCH_CTL_ARM.addr, Reg.LDG_GAUGE_STAT_FALLBACKS.addr, Reg.LDG_UNMETERED_LINES.addr,
      Reg.PWR_SHED_CNT_SHED_WRITES.addr, Reg.REC_COAL_STAT_SUMMARIES.addr]
  | .valSwatchArm _ =>
    a ∈ [Reg.VAL_SWATCH_ARM.addr]
  | .cipCtrPreset _ =>
    a ∈ [Reg.CIP_CTR_TEST_ARM.addr, Reg.FLT_SWATCH_CTL_ARM.addr, Reg.LDG_UNMETERED_LINES.addr]
  | .recordWrite =>
    a ∈ [Reg.FLT_SWATCH_CTL_ARM.addr, Reg.LDG_GAUGE_STAT_FALLBACKS.addr, Reg.LDG_UNMETERED_LINES.addr,
      Reg.REC_COAL_STAT_SUMMARIES.addr, Reg.REC_LOST_STAT_SRAM_OVERWRITTEN.addr]
  | .recCopyBack =>
    a ∈ [Reg.FLT_SWATCH_CTL_ARM.addr, Reg.LDG_UNMETERED_LINES.addr, Reg.REC_LOST_STAT_SRAM_OVERWRITTEN.addr]
  | .heartbeatMissed =>
    a ∈ [Reg.ENG_HOLD_HOLD.addr]
  | .activationDrainEnd =>
    a ∈ [Reg.CIP_AUTH_STAT_AUTH_FAILURES.addr, Reg.CIP_LANE_STAT_NONCE_REFUSALS.addr, Reg.ENG_HOLD_HOLD.addr,
      Reg.FLT_SWATCH_CTL_ARM.addr, Reg.LDG_GAUGE_STAT_FALLBACKS.addr, Reg.LDG_UNMETERED_LINES.addr,
      Reg.MCH_ERR_STAT_SCRUB_FIXES.addr, Reg.MCH_STATUS_EPOCH.addr, Reg.PEER_CHAIN_STAT_DEGRADED.addr,
      Reg.PEER_REPAIR_STAT_REPAIRS.addr, Reg.PWR_SHED_CNT_SHED_WRITES.addr, Reg.QPM_ERR_STAT_QGEN_DROPS.addr,
      Reg.SCH_REPLAY_STAT_REPLAYS.addr, Reg.VAL_E2E_STAT_E2E_MISMATCHES.addr, Reg.VAL_READ_STAT_UNRECOVERABLE.addr,
      Reg.VAL_SWATCH_ARM.addr]
  | .chipStart _ | .blockLockSet _ | .sysLockAllSet | .rcFieldRead _ _ | .loWordRead _ _ | .registerWrite _ _ _ _ =>
    True
  | .phaseLost _ _ =>
    a ∈ [Reg.PWR_PHASE_FAULT_PHASE.addr]
  | .ps0Request | .wakeEvent _ =>
    a ∈ [Reg.PWR_PS_STAT_STATE.addr]
  | .shedStageEntered _ _ =>
    a ∈ [Reg.CIP_LANE_STAT_NONCE_REFUSALS.addr, Reg.FLT_SWATCH_CTL_ARM.addr, Reg.LDG_GAUGE_STAT_FALLBACKS.addr,
      Reg.LDG_UNMETERED_LINES.addr, Reg.PEER_CHAIN_STAT_DEGRADED.addr, Reg.PWR_INPUT_MIN_P48V_MIN_10MV.addr,
      Reg.PWR_SHED_CNT_SHED_WRITES.addr, Reg.PWR_SHED_STAT_TAKEOVER.addr, Reg.VAL_E2E_STAT_E2E_MISMATCHES.addr]
  | .holdupTakeover _ _ =>
    a ∈ [Reg.CIP_LANE_STAT_NONCE_REFUSALS.addr, Reg.FLT_SWATCH_CTL_ARM.addr, Reg.LDG_GAUGE_STAT_FALLBACKS.addr,
      Reg.LDG_UNMETERED_LINES.addr, Reg.PWR_INPUT_MIN_P48V_MIN_10MV.addr, Reg.PWR_SHED_CNT_SHED_WRITES.addr,
      Reg.RST_START_CFG_FORCE_COLD.addr]
  | .holdupTest _ =>
    a ∈ [Reg.PWR_HOLDUP_STAT_READY.addr]
  | .thermalStageEntered _ _ | .thmSensorFault _ _ _ =>
    a ∈ [Reg.THM_STAGE_SENSOR_B_FAULT.addr]
  | .thermalStageLeft _ _ =>
    a ∈ [Reg.THM_TIME_THROTTLE_S.addr]
  | .p48vApplied | .p3v3AuxLost | .p3v3AuxApplied =>
    a ∈ [Reg.LDG_GAUGE_STAT_FALLBACKS.addr, Reg.RST_START_CFG_FORCE_COLD.addr]
  | .cascadeWrite _ =>
    a ∈ [Reg.MCH_CFG_CASCADE.addr]

/-- Whether a command may change a part: it leaves every other part as it is. -/
def MayTouch (c : Instr) (p : Part) : Prop :=
  match p with
  | .reg a => touchedReg c a
  | p => p ∈ touched c

end Sys2Proof
end

