-- ==== Sys2Proof/Certificates/Slice0/Obligations.lean ====
section
/-! DEFINITION. The statements for the provers: what the commands of the drive do, by the rules of the spec. -/

open Sys2Proof Sys2Proof.Machine

/-- For every command c and state s, a step of s with c at the front of its queue is exec of c on s with the rest of the
queue (the queue is the model's own: log 1). From 03_client_queues.md; 00_scope.md. -/
def Obligations.StepRunsFront : Prop :=
  ∀ (c : Instr) (rest : List Instr) (s : State), step { s with pending := c :: rest } = exec c { s with pending := rest }

/-- With no command waiting a step answers a next state that leaves the power unit, the start, the latches, SEC, the
update session and the pins as they were. With no supply nothing changes at all. While PD00 has power and neither a
shift of the match engine nor the upkeep of flash has work, FLT_TIME gains 10 ns with HCLK running and 30518 ns
without it, the power-on seconds gain at most one and only while P48V is present, and no register, memory byte or
other part changes. That an empty queue stands for one idle cycle is the model's choice (log 1). From
17_fault_collection.md (R525); 12_flash_upkeep.md (R387, R388, R406); 07_match_engine.md (R246). -/
def Obligations.IdleStep : Prop :=
  ∀ s : State, s.pending = [] →
    ∃ t, step s = .next t ∧ t.pending = [] ∧
      t.latches = s.latches ∧ t.rst = s.rst ∧ t.pwr = s.pwr ∧ t.sec = s.sec ∧
      t.session = s.session ∧ t.pins = s.pins ∧
      (s.pwr.p48Present = false → s.pwr.auxPresent = false → t = s) ∧
      (s.mch.shift = none →
        s.ftl.mapReady = false ∨ s.blockInReset .ftl = true ∨ FlashIdle s →
        (t.flt.time = if s.pwr.p48Present || s.pwr.auxPresent then s.flt.time + (if s.domainOn 1 then 10 else 30518)
          else s.flt.time) ∧
        { t.flt with time := s.flt.time } = s.flt ∧ { t.ftl with seconds := s.ftl.seconds } = s.ftl ∧
        s.ftl.seconds ≤ t.ftl.seconds ∧ t.ftl.seconds ≤ s.ftl.seconds + 1 ∧
        (s.pwr.p48Present = false → t.ftl = s.ftl) ∧ OnlyChanges [.flt, .ftl] s t)

/-- The two sparse stores of the state after reset (DRAM group B and the register words) are in canonical form, no command
waits, every register word holds its Cold column, the cause is POWER_ON with the start still to come, the versions
begin above the stored ceiling, no slot holds a key, all lanes are online, the gauge is empty, nothing is sticky, and
no update session is open. That unlisted bytes of DRAM read 0 is the model's choice (log 4). From 00_scope.md (R14);
05_ordering_and_completion.md (R172); 09_cipher_and_key_slots.md (R299); 10_ledger.md (R343);
14_engine_rings_and_setup.md (R449); 15_cast_on_and_pick_up.md (R474); 17_fault_collection.md (R524). -/
def Obligations.ResetIsCanonical : Prop :=
  Canonical State.reset ∧ State.reset.pending = [] ∧ (∀ a, State.reset.reg a = coldAt a) ∧
    State.reset.rst.cause = 0 ∧ State.reset.rst.run = .inReset ∧ State.reset.sch.nextVersion = 2 ^ 24 + 1 ∧
    State.reset.cip.slots = [] ∧ State.reset.cip.lanes = 0xFFFF ∧ State.reset.ldg.level = 0 ∧
    State.reset.flt.sticky = 0 ∧ State.reset.flt.first = none ∧ State.reset.pwr.ps = 0 ∧
    State.reset.session.st = .idle

/-- From every canonical state, whatever command stands in front, a step that answers a next state leaves DRAM group B
listed by rising address with no byte that an unlisted address reads as, leaves the register words listed by rising
address, takes exactly the front command from the queue, and never hands back a free value already taken. The
canonical form of the stores is the model's own (log 4). From 14_engine_rings_and_setup.md (R449); 01_architecture.md
(R34). -/
def Obligations.StepsKeepCanonical : Prop :=
  ∀ s t : State, Canonical s → step s = .next t →
    Canonical t ∧ t.pending = s.pending.drop 1 ∧ s.free ≤ t.free

/-- For every command of the table: when exec answers a next state, every register word, every other register group,
queue, table, counter, mode and pin, and every byte of DRAM group B that MayTouch does not give to the command is
unchanged, and so is the queue. The steps that ENG or a chip start make within a command belong to it. From
14_engine_rings_and_setup.md (R449, R451); 95_what_each_step_holds.md. -/
def Obligations.CommandsLeaveTheRest : Prop :=
  ∀ (c : Instr) (s t : State), exec c s = .next t → (∀ p, ¬ MayTouch c p → p.same s t) ∧ t.pending = s.pending

/-- exec answers a next state for every command in every state, but for a doorbell of an engine ring (by ENG_DOORBELL or
by a write of the ring's register): that one stops with the fault outsideDram where the ring is set up outside DRAM
group B, of which the spec says nothing (log 24). From 95_what_each_step_holds.md; 14_engine_rings_and_setup.md (R454,
R455). -/
def Obligations.EveryCommandHasAnEffect : Prop :=
  ∀ (c : Instr) (s : State),
    (∃ t, exec c s = .next t) ∨
      (exec c s = .fault .outsideDram ∧
        ((∃ ring tail entries, c = .engDoorbell ring tail entries) ∨ ∃ core a w v, c = .registerWrite core a w v))

/-- When a directive completes and a slot of its completion ring is released, the 32 bytes of its entry (tag, status, the
phase of the count, the submission head, the result; zeros for a refused or failed one) stand at CQ_BASE plus 32 times
the count modulo the ring size, CQ_TAIL rises by one, no other byte of DRAM group B changes, and the directive is no
longer outstanding; with no released slot, or while ENG is in reset and takes no work, the entry waits and memory is
unchanged. From 14_engine_rings_and_setup.md (R460, R461, R463, R609). -/
def Obligations.DirectiveAnswered : Prop :=
  ∀ (s : State) (n : Nat) (d : Dir) (estatus : Nat) (result : Bytes),
    Canonical s → (s.ring n).waiting = [] →
    let t := s.ringDone n d estatus result
    let a := s.fld (Reg.ENG_CQ_BASE_BASE_4K n) * 4096 + 32 * ((s.ring n).cqTail % 2 ^ s.ringLog2 n)
    let res := if estatus = 0 then result else []
    (t.ring n).issued = (s.ring n).issued.eraseP (fun i => i.etag = d.etag) ∧
    ((s.ring n).cqUsed < 2 ^ s.ringLog2 n → s.sch.inReset.contains .eng = false →
      memReadN t.eng.dram a 32
          = cqeBytes (s.ringLog2 n) (s.ring n).cqTail d.etag estatus false (s.ring n).sqHead res ∧
      (t.ring n).cqTail = ((s.ring n).cqTail + 1) % 65536 ∧ (t.ring n).waiting = [] ∧
      ∀ x, x < a ∨ a + 32 ≤ x → memRead t.eng.dram x = memRead s.eng.dram x) ∧
    (2 ^ s.ringLog2 n ≤ (s.ring n).cqUsed ∨ s.sch.inReset.contains .eng = true →
      (t.ring n).waiting = [(d.etag, estatus, false, res)] ∧ (t.ring n).cqTail = (s.ring n).cqTail ∧
      ∀ x, memRead t.eng.dram x = memRead s.eng.dram x)

/-- On a ring of R453 that is not enabled and has nothing outstanding, ENG_RING_ENABLE sets EN and zeroes counts and ERR.
A doorbell in range of an enabled ring in DRAM group B without ERR fetches the entries up to the tail, sets SQ_TAIL
and issues what it can; one out of range sets ERR and RING_ERR, takes the tail and raises ENG_RING_ERROR with the ring
and the tail; one of a ring that is not enabled or has stopped with ERR only takes the tail. A write of CQ_HEAD sets
the released count, and waiting completions and new issues follow. From 14_engine_rings_and_setup.md (R454, R456,
R461). -/
def Obligations.RingRegistersAct : Prop :=
  (∀ (s : State) (ring : Nat), ring < 10 → Canonical s → s.fld (Reg.ENG_RING_CFG_EN ring) = 0 → (s.ring ring).issued = [] →
      ∃ t, exec (.engRingEnable ring) s = .next t ∧ t.fld (Reg.ENG_RING_CFG_EN ring) = 1 ∧
        t.ring ring = Ring.fresh ∧ (∀ m, m ≠ ring → t.ring m = s.ring m) ∧ t.eng.dram = s.eng.dram) ∧
    (∀ (s : State) (ring tail : Nat) (entries : List Bytes), ring < 10 → s.fld (Reg.ENG_RING_CFG_EN ring) = 1 →
      (s.ring ring).err = false → s.ringInDram ring = true → tail < 65536 →
      (s.ring ring).tailOutOfRange (s.ringLog2 ring) tail = false →
      exec (.engDoorbell ring tail entries) s = .next (s.ringFill ring tail entries)) ∧
    (∀ (s : State) (ring tail : Nat) (entries : List Bytes), ring < 10 → s.fld (Reg.ENG_RING_CFG_EN ring) = 1 →
      (s.ring ring).err = false → tail < 65536 → (s.ring ring).tailOutOfRange (s.ringLog2 ring) tail = true →
      ∃ t, exec (.engDoorbell ring tail entries) s = .next t ∧ (t.ring ring).err = true ∧ t.eng.irqErr = true ∧
        t.flt.raised = s.flt.raised ++ [⟨24, leBytes 1 ring ++ leBytes 2 tail⟩] ∧ t.eng.dram = s.eng.dram ∧
        (t.ring ring).sqTail = tail ∧ (t.ring ring).queue = (s.ring ring).queue ∧ OnlyChanges [.rings, .flt] s t) ∧
    (∀ (s : State) (ring tail : Nat) (entries : List Bytes), tail < 65536 →
      s.fld (Reg.ENG_RING_CFG_EN ring) ≠ 1 ∨ (s.ring ring).err = true →
      ∃ t, exec (.engDoorbell ring tail entries) s = .next t ∧ t.ring ring = { s.ring ring with sqTail := tail } ∧
        t.eng.dram = s.eng.dram ∧ OnlyChanges [.rings] s t) ∧
    (∀ (s : State) (ring headCount : Nat), ring < 10 →
      ∃ u : State, exec (.engCqHeadWrite ring headCount) s = .next ((u.drainCqes ring (s.ring ring).waiting.length).pump) ∧
        (u.ring ring).cqHead = headCount % 65536 ∧ (u.ring ring).waiting = (s.ring ring).waiting ∧
        OnlyChanges [.rings] s u)

/-- A heartbeat while the System Image runs zeroes the missed count. A missed one raises source 4 with the count, and the
fifth in a row sets ENG_HOLD and stops the image; before the fifth nothing is held. Writing 0xA77A to ENG_ATTACH
clears HOLD and the image counts as up again. While HOLD is 1 a set-up directive that ENG had not issued before
changes nothing. From 01_architecture.md (R38, R39); 14_engine_rings_and_setup.md (R465). -/
def Obligations.ImageSupervised : Prop :=
  (∀ s : State, s.pins.imageDown = false →
      ∃ t, exec .heartbeat s = .next t ∧ t.pins = { s.pins with missed := 0 } ∧ OnlyChanges [.pins] s t) ∧
    (∀ s : State, Canonical s → s.pins.imageDown = false → s.pwr.ps ≠ 3 → s.rst.run = .running →
      ∃ t, exec .heartbeatMissed s = .next t ∧ t.pins.missed = s.pins.missed + 1 ∧
        t.flt.raised = s.flt.raised ++ [⟨4, leBytes 4 (s.pins.missed + 1)⟩] ∧
        (t.pins.imageDown = true ↔ 4 ≤ s.pins.missed) ∧
        (4 ≤ s.pins.missed → t.fld Reg.ENG_HOLD_HOLD = 1) ∧ (s.pins.missed < 4 → t.regs = s.regs)) ∧
    (∀ s : State, Canonical s → s.session.reverting = false →
      ∃ u : State, exec (.engAttachWrite 0xA77A) s = .next u.pump ∧ u.fld Reg.ENG_HOLD_HOLD = 0 ∧
        u.pins = { s.pins with imageDown := false, missed := 0 } ∧ OnlyChanges [.reg Reg.ENG_HOLD_HOLD.addr, .pins] s u) ∧
    (∀ (s : State) (code : Nat), code ≠ 0xA77A → exec (.engAttachWrite code) s = .next s) ∧
    (∀ (s : State) (d : Dir) (c : Instr), s.fld Reg.ENG_HOLD_HOLD = 1 →
      ((∃ key, (s.ring 0).issued.any (fun i => decide (i.etag = d.etag)) = false ∧ (c = .pin d key ∨ c = .unpin d key)) ∨
        (∃ pos recs, (s.ring 1).issued.any (fun i => decide (i.etag = d.etag)) = false ∧ c = .ruleWrite d pos recs) ∨
        (∃ a n g f b, (s.ring 2).issued.any (fun i => decide (i.etag = d.etag)) = false ∧ c = .checkCompute d a n g f b) ∨
        (∃ n, (s.ring 3).issued.any (fun i => decide (i.etag = d.etag)) = false ∧ (c = .keyGenerate d n ∨ c = .keyRoll d n)) ∨
        (∃ b, (s.ring 6).issued.any (fun i => decide (i.etag = d.etag)) = false ∧ c = .peerWrite d b) ∨
        (∃ b, (s.ring 7).issued.any (fun i => decide (i.etag = d.etag)) = false ∧ c = .tenantWrite d b)) →
      exec c s = .next s)

/-- A client CM REQ on a link of the port's mode that passes the checks of R98 puts the free context they choose into
CONNECTING with the next QGEN of that context, which is kept, and answers a REP; one that fails is answered with a REJ
of the first failed cause and takes no context. An RTU whose PROOF verifies makes the context ACTIVE with its counts
at 0 and the limiter started at the line rate; one whose PROOF fails is answered with a DREQ of cause 2 (AUTH). A
context whose RTU does not come, and one in ERROR whose DREQ is answered, become FREE. No other context changes. From
03_client_queues.md (R95, R96, R98, R99, R100, R102, R125, R135). -/
def Obligations.ConnectionSetUp : Prop :=
  (∀ (s : State) (req : ReqMsg) (ctx : Nat), s.netUp = true → s.linkExists req.link = true → (reqPeer req.raw && !reqAdmin req.raw) = false →
      s.reqCheck req = .inr ctx →
      ∃ t q raw, exec (.cmReq req) s = .next t ∧ t.qp? ctx = some q ∧ q.st = .connecting ∧
        q.qgen = ((tget s.ldg.kept.qgens ctx).getD 0 + 1) % 65536 ∧ tget t.ldg.kept.qgens ctx = some q.qgen ∧
        q.conn.clientNonce = reqNonce req.raw ∧ q.conn.link = req.link ∧
        Sends s t [.cmRep ctx raw] ∧ ∀ x, x ≠ ctx → t.qp? x = s.qp? x) ∧
    (∀ (s : State) (req : ReqMsg) (cause : Nat), s.netUp = true → s.linkExists req.link = true → (reqPeer req.raw && !reqAdmin req.raw) = false →
      s.reqCheck req = .inl cause →
      ∃ t, exec (.cmReq req) s = .next t ∧ t.nfe.qps = s.nfe.qps ∧
        Sends s t [.cmRej req.link cause]) ∧
    (∀ (s : State) (ctx : Nat) (q : Qp) (proof k : Bytes), s.qp? ctx = some q → q.st = .connecting → q.cause = 0 →
      q.conn.peer = none → s.connSecret q.conn = some k →
      ∃ t, exec (.cmRtu ctx proof) s = .next t ∧ (∀ x, x ≠ ctx → t.qp? x = s.qp? x) ∧
        (clientProof k ctx q.conn = proof.take 32 →
          t.qp? ctx = some { q with
            st := .active, head := 0, tail := 0, cqCount := 0, 
            cc := ⟨s.lineRate q.conn.link, s.lineRate q.conn.link, 1, 0, s.flt.time⟩
            ccPeriod := s.fld Reg.NFE_CC_CFG_TIMER_US } ∧ t.nfe.tx = s.nfe.tx) ∧
        (clientProof k ctx q.conn ≠ proof.take 32 →
          t.qp? ctx = some { q with cause := 2 } ∧ Sends s t [.cmDreq ctx 2 0])) ∧
    (∀ (s : State) (ctx : Nat) (q : Qp) (c : Instr), Tbl.wf s.nfe.qps = true → s.qp? ctx = some q →
      (c = .connectingTimeout ctx ∧ q.st = .connecting ∨ c = .cmDrep ctx ∧ q.st = .error) →
      ∃ t, exec c s = .next t ∧ t.qp? ctx = none ∧ t.nfe.tx = s.nfe.tx ∧ ∀ x, x ≠ ctx → t.qp? x = s.qp? x)

/-- A well-formed doorbell of an ACTIVE queue pair with its generation and a tail within the ring publishes the tail and
changes no other context; with another generation it counts in QGEN_DROPS and changes no context; out of range it puts
the queue pair into ERROR with cause 0x13, and where the client queue pair has no command outstanding it sends a DREQ
with the cause and the head and leaves every other context as it was. One that is misaligned, not of 8 bytes, or of
another queue pair's page is NAKed and in the same way ends the queue pair that it came by with cause 0x12; while QPM
is in reset a doorbell is held. From 03_client_queues.md (R92, R112, R113, R115, R125); 05_ordering_and_completion.md
(R191). -/
def Obligations.DoorbellsAct : Prop :=
  ∀ (s : State) (ctx : Nat) (raw : Bytes) (q : Qp), s.netUp = true → s.qp? ctx = some q → q.st = .active →
      (raw.length = 8 → s.blockInReset .qpm = false → fieldAt raw 4 2 = q.qgen →
        (fieldAt raw 0 4 + 2 ^ 32 - q.tail) % 2 ^ 32 ≤ 2 ^ q.conn.ringLog2 →
        (fieldAt raw 0 4 + 2 ^ 32 - q.head) % 2 ^ 32 ≤ 2 ^ q.conn.ringLog2 →
        ∃ t, exec (.doorbell ctx ctx true raw) s = .next t ∧ t.qp? ctx = some { q with tail := fieldAt raw 0 4 } ∧
          (∀ x, x ≠ ctx → t.qp? x = s.qp? x) ∧ t.nfe.tx = s.nfe.tx ∧ OnlyChanges [.nfe] s t) ∧
      (raw.length = 8 → s.blockInReset .qpm = false → Canonical s → fieldAt raw 4 2 ≠ q.qgen →
        ∃ t, exec (.doorbell ctx ctx true raw) s = .next t ∧
          t.fld Reg.QPM_ERR_STAT_QGEN_DROPS = min (s.fld Reg.QPM_ERR_STAT_QGEN_DROPS + 1) 65535 ∧
          OnlyChanges [.reg Reg.QPM_ERR_STAT_QGEN_DROPS.addr] s t) ∧
      (raw.length = 8 → s.blockInReset .qpm = false → fieldAt raw 4 2 = q.qgen →
        2 ^ q.conn.ringLog2 < (fieldAt raw 0 4 + 2 ^ 32 - q.head) % 2 ^ 32
          ∨ 2 ^ q.conn.ringLog2 < (fieldAt raw 0 4 + 2 ^ 32 - q.tail) % 2 ^ 32 →
        ∃ t, exec (.doorbell ctx ctx true raw) s = .next t ∧ t = s.qpError ctx 0x13 ∧
          (ClientIdle s ctx q → t.qp? ctx = some (q.failed 0x13) ∧ Sends s t [.cmDreq ctx 0x13 q.head] ∧
            ∀ x, x ≠ ctx → t.qp? x = s.qp? x)) ∧
      (∀ (page : Nat) (aligned : Bool), raw.length ≠ 8 ∨ aligned = false ∨ ctx ≠ page →
        ∃ t, exec (.doorbell page ctx aligned raw) s = .next t ∧ t = (s.send (.nakAccess ctx)).qpError ctx 0x12 ∧
          (ClientIdle s ctx q →
            t.qp? ctx = some (q.failed 0x12) ∧ Sends s t [.nakAccess ctx, .cmDreq ctx 0x12 q.head] ∧
            ∀ x, x ≠ ctx → t.qp? x = s.qp? x)) ∧
      (raw.length = 8 → s.blockInReset .qpm = true →
        ∃ t, exec (.doorbell ctx ctx true raw) s = .next t ∧
          t.nfe.heldDoorbells = s.nfe.heldDoorbells ++ [(ctx, raw)] ∧ t.nfe.qps = s.nfe.qps ∧ OnlyChanges [.nfe] s t)

/-- On an ACTIVE client queue pair with no command outstanding, a remote access NAK, exhausted retries and an unsupported
request each put it into ERROR with the cause of R125 (0x12, 0x11, 0x15), and a DREQ carries the cause and the head;
the unsupported request is NAKed first. A client DREQ of such a queue pair is answered with a DREP and frees the
context, after which waiting chain writes are taken in. A link that stays down ends its ACTIVE queue pairs with cause
0x10. No other context changes. From 03_client_queues.md (R92, R93, R99, R109, R125, R126, R131). -/
def Obligations.QueuePairsEnd : Prop :=
  (∀ (s : State) (ctx : Nat) (q : Qp), s.qp? ctx = some q → q.st = .active → ClientIdle s ctx q →
      (∃ t, exec (.remoteAccessNak ctx) s = .next t ∧
        t.qp? ctx = some (q.failed 0x12) ∧
        Sends s t [.cmDreq ctx 0x12 q.head] ∧ ∀ x, x ≠ ctx → t.qp? x = s.qp? x) ∧
      (∃ t, exec (.transportRetryExhausted ctx) s = .next t ∧
        t.qp? ctx = some (q.failed 0x11) ∧
        Sends s t [.cmDreq ctx 0x11 q.head] ∧ ∀ x, x ≠ ctx → t.qp? x = s.qp? x) ∧
      (∃ t, exec (.unsupportedRequest ctx) s = .next t ∧
        t.qp? ctx = some (q.failed 0x15) ∧
        Sends s t [.nakInvalid ctx, .cmDreq ctx 0x15 q.head] ∧
        ∀ x, x ≠ ctx → t.qp? x = s.qp? x) ∧
      (Tbl.wf s.nfe.qps = true →
        ∃ u : State, exec (.cmDreq ctx) s = .next u.serveIntake ∧ u.qp? ctx = none ∧ Sends s u [.cmDrep ctx] ∧
          (∀ x, x ≠ ctx → u.qp? x = s.qp? x) ∧ (s.peer.intake = [] → u.serveIntake = u))) ∧
    (∀ (s : State) (l : Link) (ctx : Nat) (q : Qp), s.nfe.qps = [(ctx, q)] → q.conn.link = l → q.st = .active →
      q.conn.peer = none → q.dreq = false → s.sch.cmds = [] → s.nfe.linkWait.getLsbD (linkIndex l) = true →
      ∃ t, exec (.linkdownTimeout l) s = .next t ∧
        t.nfe.qps = [(ctx, q.failed 0x10)] ∧
        t.nfe.linkWait.getLsbD (linkIndex l) = false ∧
        Sends s t [.cmDreq ctx 0x10 q.head])

/-- When the transmit port grants QPM, DESCRIPTOR_FETCH reads, for the queue pair that the fetch arbiter grants, as many
entries from its head as the batch, its credit, its tail and the ring's end allow, and changes no other context; a
queue pair that may fetch is granted when it is the only one and no completion entry waits. While SCH works, a fetched
descriptor of the expected phase is accepted, whatever it holds: the head rises by one, the command takes a retention
entry with the submission count of the head, and a write takes the next version; an invalid one ends at once with
INVALID_DESCRIPTOR, and one in which intake finds nothing stays to be started. One of another phase changes nothing
but that the rest of the batch is discarded and the re-fetch waits; the re-fetch reads that one entry again and
counts, until PHASE_RETRIES have failed, after which the queue pair ends with cause 0x14. From 03_client_queues.md
(R114, R116, R117, R118, R119); 05_ordering_and_completion.md (R170, R171, R189). -/
def Obligations.FetchAndAccept : Prop :=
  (∀ (s : State) (ctx : Nat) (q : Qp) (express : Bool) (k : SvcClass), s.nextFetch = some (ctx, express) →
      s.txGrant = some (k, 2) → s.qp? ctx = some q →
      ∃ t, exec .descriptorFetch s = .next t ∧ t.qp? ctx = some { q with fetching := s.fetchCount ctx q } ∧
        s.fetchCount ctx q ≤ (q.tail + 2 ^ 32 - q.head) % 2 ^ 32 ∧
        s.fetchCount ctx q ≤ q.conn.maxOut - s.outstanding ctx ∧ (∀ x, x ≠ ctx → t.qp? x = s.qp? x) ∧
        Sends s t [q.fetchFrom ctx (s.fetchCount ctx q)] ∧ OnlyChanges [.nfe, .sch] s t) ∧
    (∀ (s : State) (ctx : Nat) (q : Qp), Tbl.wf s.nfe.qps = true → s.qp? ctx = some q → s.mayFetch ctx q = true →
      (∀ x p, s.qp? x = some p → s.mayFetch x p = true → x = ctx) → (∀ e ∈ s.sch.cmds, s.entryReady e.2 = false) →
      s.nextFetch = some (ctx, q.conn.expressQp) ∧ ∃ k, s.txGrant = some (k, 2)) ∧
    (∀ (s : State) (ctx : Nat) (q : Qp) (raw : Bytes), s.qp? ctx = some q → q.st = .active →
      0 < q.fetching → s.fetchStopped q = false → s.blockInReset .sch = false → raw.length = 128 →
      (parseDesc raw).phase = phaseOf q.conn.ringLog2 q.head →
      let op := (Opcode.ofCode (parseDesc raw).opcode).getD .nop
      s.retentionFree (s.intakeClass q.conn (parseDesc raw) op) = true →
      (op.isWrite = true → s.sch.nextVersion < s.ldg.kept.versionCeiling) →
      ∃ t c, exec (.descriptorAccept ctx raw) s = .next t ∧
        t.qp? ctx = some { q with
          head := (q.head + 1) % 2 ^ 32, fetching := q.fetching - 1, phaseTries := 0 } ∧
        t.cmd? s.sch.nextCmd = some c ∧ c.ctx = some ctx ∧ c.op = op ∧ c.count = q.head ∧
        c.desc = parseDesc raw ∧
        (descInvalid q.conn (parseDesc raw) = true → c.outcome = some (c.filled (Outcome.of .invalidDescriptor))) ∧
        (descInvalid q.conn (parseDesc raw) = false → s.intakeConds q.conn op = [] →
          (∀ r ∈ s.sch.outcomes, r.tag ≠ (parseDesc raw).tag) →
          ((parseDesc raw).keyPtr = false → patternInvalid op (parseDesc raw).inlineKey = false) →
          c.conds = [] ∧ c.decided = false) ∧
        c.version = (if op.isWrite then s.sch.nextVersion else 0) ∧
        t.sch.nextVersion = (if op.isWrite then s.sch.nextVersion + 1 else s.sch.nextVersion) ∧
        t.sch.nextCmd = s.sch.nextCmd + 1) ∧
    (∀ (s : State) (ctx : Nat) (q : Qp) (raw : Bytes), s.qp? ctx = some q → q.st = .active → 0 < q.fetching →
      s.fetchStopped q = false → raw.length = 128 → (parseDesc raw).phase ≠ phaseOf q.conn.ringLog2 q.head →
      ∃ t, exec (.descriptorAccept ctx raw) s = .next t ∧
        t.qp? ctx = some { q with fetching := 0, phaseWait := true } ∧ (∀ x, x ≠ ctx → t.qp? x = s.qp? x) ∧
        t.nfe.tx = s.nfe.tx ∧ OnlyChanges [.nfe] s t) ∧
    (∀ (s : State) (ctx : Nat) (q : Qp), s.qp? ctx = some q → q.st = .active → q.phaseWait = true →
      s.fetchStopped q = false →
      (q.phaseTries < s.fld Reg.QPM_FETCH_CFG_PHASE_RETRIES → Canonical s →
        ∃ t, exec (.phaseRefetch ctx) s = .next t ∧
          t.qp? ctx = some { q with phaseWait := false, fetching := 1, phaseTries := q.phaseTries + 1 } ∧
          Sends s t [q.fetchFrom ctx 1] ∧
          t.fld Reg.QPM_ERR_STAT_PHASE_REFETCHES = min (s.fld Reg.QPM_ERR_STAT_PHASE_REFETCHES + 1) 65535 ∧
          OnlyChanges [.nfe, .reg Reg.QPM_ERR_STAT_PHASE_REFETCHES.addr] s t) ∧
      (s.fld Reg.QPM_FETCH_CFG_PHASE_RETRIES ≤ q.phaseTries →
        exec (.phaseRefetch ctx) s = .next (s.qpError ctx 0x14)))

/-- A fetched key is held by its command, which needs it. The completion entry of a decided command, when the port grants
its class, goes to its live queue pair's ring at the slot of the completion count, with immediate when NOTIFY asks for
it, and the command then only waits for the acknowledgement; a DRAINING queue pair may then be freed. The
acknowledgement frees its retention entry, after which waiting chain writes are taken in. The coalescing timer sends
the newest entry once more, with immediate (log 156), and clears the count of unnotified entries. An outcome record
whose hold runs is discarded, after which waiting chain writes are taken in too. From 03_client_queues.md (R102, R109,
R120, R121, R124, R127); 05_ordering_and_completion.md (R189). -/
def Obligations.CompletionsReachTheClient : Prop :=
  (∀ (s : State) (n : Nat) (c : Cmd) (key : Bytes), s.cmd? n = some c → c.key = none → c.op.usesKeyArea = true →
      c.decided = false → c.conds = [] → patternInvalid c.op (padTo c.desc.keyLen key) = false →
      (∀ r ∈ s.sch.outcomes, r.tag ≠ c.desc.tag) →
      ∃ t, exec (.keyFetch n key) s = .next t ∧ t.cmd? n = some { c with key := some (padTo c.desc.keyLen key) } ∧
        (∀ m, m ≠ n → t.cmd? m = s.cmd? m) ∧ OnlyChanges [.sch] s t) ∧
    (∀ (s : State) (n ctx : Nat) (c : Cmd) (q : Qp) (o : Outcome), s.cmd? n = some c → c.stage = .done →
      c.orphan = false → c.ctx = some ctx → c.outcome = some o → s.qp? ctx = some q → q.live = true →
      s.txGrant = some (c.runClass, 0) →
      ∃ t, exec (.completionWrite n) s = .next (t.settleDrain ctx) ∧ (q.st = .active → t.settleDrain ctx = t) ∧
        t.cmd? n = some { c with stage := .written } ∧
        t.qp? ctx = some { q with
          cqCount := (q.cqCount + 1) % 2 ^ 32, unnotified := if q.notifies then 0 else q.unnotified + 1,
          lastEntry := c.entry q o, lastClass := c.runClass } ∧
        Sends s t [.completion ctx ((q.cqCount + 1) % 2 ^ 32) (q.conn.cqAddr + 32 * (q.cqCount % 2 ^ q.conn.ringLog2))
          q.conn.cqRkey (c.entry q o) q.notifies] ∧
        (∀ m, m ≠ n → t.cmd? m = s.cmd? m) ∧ OnlyChanges [.nfe, .sch] s t) ∧
    (∀ (s : State) (n : Nat) (c : Cmd), Tbl.wf s.sch.cmds = true → s.cmd? n = some c → c.stage = .written →
      ∃ t, exec (.completionAcked n) s = .next t.serveIntake ∧ t.cmd? n = none ∧ (∀ m, m ≠ n → t.cmd? m = s.cmd? m) ∧
        (s.peer.intake = [] → t.serveIntake = t) ∧ OnlyChanges [.sch] s t) ∧
    (∀ (s : State) (ctx : Nat) (q : Qp), s.qp? ctx = some q → q.st = .active → q.conn.notify = 2 → 0 < q.unnotified →
      ∃ t, exec (.coalesceTimer ctx) s = .next t ∧ t.qp? ctx = some { q with unnotified := 0 } ∧
        Sends s t [q.entryWrite ctx ((q.cqCount + 2 ^ 32 - 1) % 2 ^ 32) q.lastEntry true] ∧ (∀ x, x ≠ ctx → t.qp? x = s.qp? x) ∧
        OnlyChanges [.nfe] s t) ∧
    (∀ (s : State) (r : OutcomeRec) (rest : List OutcomeRec), s.sch.outcomes = r :: rest → r.holding = true →
      ∃ u : State, exec (.outcomeRecordExpiry r.session.toNat r.tag) s = .next u.serveIntake ∧ u.sch.outcomes = rest ∧
        (s.peer.intake = [] → u.serveIntake = u) ∧ OnlyChanges [.sch] s u)

/-- With ECN_EN = 1 a packet marked CE for a queue pair makes the drive send that queue pair's peer a CNP when the queue
pair has sent none before or CNP_GAP_US have passed since its last one; within the gap it sends none and changes
nothing. The time of the CNP is kept with the queue pair; no other context changes. Formalises R134. -/
def Obligations.CnpAtMostOnePerGap : Prop :=
  ∀ (s : State) (ctx : Nat) (q : Qp), s.qp? ctx = some q → s.fld Reg.NFE_DSCP_MAP_ECN_EN = 1 →
      ((∀ u, q.lastCnp = some u → u + 1000 * s.fld Reg.NFE_CC_CFG_CNP_GAP_US ≤ s.flt.time) →
        ∃ t, exec (.cePacketReceived ctx) s = .next t ∧ t.qp? ctx = some { q with lastCnp := some s.flt.time } ∧
          (∀ x, x ≠ ctx → t.qp? x = s.qp? x) ∧ Sends s t [.cnp ctx] ∧ OnlyChanges [.nfe] s t) ∧
      (∀ u, q.lastCnp = some u → s.flt.time < u + 1000 * s.fld Reg.NFE_CC_CFG_CNP_GAP_US →
        exec (.cePacketReceived ctx) s = .next s)

/-- A received CNP sets the target rate to the old rate, cuts the rate by half of alpha, but not below 100 Mb/s, raises
alpha by the gain, and restarts the increase counter and the timer; an expiry of the recovery timer, due the TIMER_US
that it started with after its last start, lowers alpha by the gain, moves the rate half way to the target and counts,
and the timer starts again; after five it raises the target by AI_STEP, never above the line rate. An expiry that is
not due is discarded. Nothing else of the queue pair and no other context changes. From 03_client_queues.md (R135). -/
def Obligations.RateLimiter : Prop :=
  ∀ (s : State) (ctx : Nat) (q : Qp), s.qp? ctx = some q → q.live = true →
      (∃ t c, exec (.cnpReceived ctx) s = .next t ∧
        t.qp? ctx = some { q with cc := c, ccPeriod := s.fld Reg.NFE_CC_CFG_TIMER_US } ∧
        c.rt = q.cc.rc ∧ c.rc = max (q.cc.rc * (1 - q.cc.alpha / 2)) 100 ∧ c.i = 0 ∧ c.timer = s.flt.time ∧
        c.alpha = (1 - s.ccGain) * q.cc.alpha + s.ccGain ∧ (∀ x, x ≠ ctx → t.qp? x = s.qp? x) ∧ OnlyChanges [.nfe] s t) ∧
      (q.cc.timer + 1000 * q.ccPeriod ≤ s.flt.time →
        ∃ t c, exec (.ccTimerExpiry ctx) s = .next t ∧
        t.qp? ctx = some { q with cc := c, ccPeriod := s.fld Reg.NFE_CC_CFG_TIMER_US } ∧
        c.alpha = (1 - s.ccGain) * q.cc.alpha ∧ c.i = q.cc.i + 1 ∧ c.timer = s.flt.time ∧
        c.rc ≤ (s.lineRate q.conn.link : Rat) ∧ (q.cc.i + 1 ≤ 5 → c.rt = q.cc.rt) ∧
        (5 < q.cc.i + 1 →
          c.rt = min (q.cc.rt + ((s.fld Reg.NFE_CC_CFG_AI_STEP * 10 : Nat) : Rat)) (s.lineRate q.conn.link : Rat)) ∧
        (c.rt + q.cc.rc ≤ 2 * (s.lineRate q.conn.link : Rat) → 2 * c.rc = q.cc.rc + c.rt) ∧
        (∀ x, x ≠ ctx → t.qp? x = s.qp? x) ∧ OnlyChanges [.nfe] s t) ∧
      (s.flt.time < q.cc.timer + 1000 * q.ccPeriod → exec (.ccTimerExpiry ctx) s = .next s)

/-- A link that goes down begins its wait; an existing link of a port that does not retrain, with its cage ready, comes up
and its wait ends, and no other link changes; a link of a retraining port stays as it is. The end of a port's retrain
clears it. A pluggable of at most 20 W whose lanes match and that answers CMIS is enabled without a fault; one over 20
W, one that does not answer CMIS and one whose lanes do not match stay in low power with the port's source 128 or 129
raised and cause 1, 4 or 3; a rail trip switches the rail off and raises it with cause 2. From 03_client_queues.md
(R89, R125); 17_fault_collection.md (R530); 20_module_signals_and_ratings.md (R586, R602). -/
def Obligations.LinksAndCages : Prop :=
  (∀ (s : State) (l : Link),
      ∃ t, exec (.linkDown l) s = .next t ∧
        (∀ m, t.nfe.linkUp.getLsbD (linkIndex m) = (decide (m ≠ l) && s.nfe.linkUp.getLsbD (linkIndex m))) ∧
        (∀ m, t.nfe.linkWait.getLsbD (linkIndex m) = (decide (m = l) || s.nfe.linkWait.getLsbD (linkIndex m))) ∧
        t.nfe.qps = s.nfe.qps ∧ OnlyChanges [.nfe] s t) ∧
    (∀ (s : State) (l : Link), s.linkExists l = true → s.retrains (linkPort l) = false → s.cageReady (linkPort l) = true →
      ∃ t, exec (.linkUp l) s = .next t ∧
        (∀ m, t.nfe.linkUp.getLsbD (linkIndex m) = (decide (m = l) || s.nfe.linkUp.getLsbD (linkIndex m))) ∧
        (∀ m, t.nfe.linkWait.getLsbD (linkIndex m) = (decide (m ≠ l) && s.nfe.linkWait.getLsbD (linkIndex m))) ∧
        t.nfe.qps = s.nfe.qps ∧ OnlyChanges [.nfe] s t) ∧
    (∀ (s : State) (l : Link), s.retrains (linkPort l) = true → exec (.linkUp l) s = .next s) ∧
    (∀ (s : State) (p : Port),
      ∃ t, exec (.portRetrainEnd p) s = .next t ∧ t.retrains p = false ∧
        (∀ p', p' ≠ p → t.retrains p' = s.retrains p') ∧ t.nfe.linkUp = s.nfe.linkUp ∧ OnlyChanges [.nfe] s t) ∧
    (∀ (s : State) (p : Port) (watts : Nat), watts ≤ 20 →
      ∃ t, exec (.opticsInsert p watts true true) s = .next t ∧ t.cage p = ⟨true, true, true⟩ ∧
        (∀ p', p' ≠ p → t.cage p' = s.cage p') ∧ OnlyChanges [.nfe] s t) ∧
    (∀ (s : State) (p : Port) (watts : Nat) (laneMatch cmis : Bool),
      20 < watts ∨ cmis = false ∨ laneMatch = false →
      ∃ t, exec (.opticsInsert p watts laneMatch cmis) s = .next t ∧ t.cage p = ⟨true, false, true⟩ ∧
        (∀ p', p' ≠ p → t.cage p' = s.cage p') ∧
        t.flt.raised = s.flt.raised ++ [⟨match p with | .a => 128 | .b => 129,
          leBytes 1 (linkIndex (portLink p)) ++ leBytes 1 (if 20 < watts then 1 else if cmis = false then 4 else 3)⟩] ∧
        OnlyChanges [.nfe, .flt] s t) ∧
    (∀ (s : State) (p : Port),
      ∃ t, exec (.opticsRailTrip p) s = .next t ∧ (t.cage p).railOn = false ∧ (t.cage p).enabled = false ∧
        (∀ p', p' ≠ p → t.cage p' = s.cage p') ∧
        t.flt.raised = s.flt.raised ++ [⟨match p with | .a => 128 | .b => 129,
          leBytes 1 (linkIndex (portLink p)) ++ leBytes 1 2⟩] ∧
        OnlyChanges [.nfe, .flt] s t)

/-- For a command that waits for its policy and is next at MCH (a keyed one has started, the prefix search of a SCAN or
COUNT comes before its start), with every check of the entries in the enabled banks holding, POLICY_SEARCH leaves it
with the action of the lowest matching rule in the enabled banks, or with no rule when none matches; beside it only
MCH's search pointer moves. When the parity of MATCH_IN fails in two issues in a row, source 323 is raised with the
die of the second and the command is left without a result. From 07_match_engine.md (R230, R234, R236, R239, R241,
R251, R255, R265); 02_object_model.md (R70); 05_ordering_and_completion.md (R173). -/
def Obligations.PolicySearchFindsLowestRule : Prop :=
  ∀ (s : State) (n : Nat) (c : Cmd), s.cmd? n = some c → s.searchNext n c = true → c.conds = [] →
      (c.op.namesKey = true → c.stage = .started) →
      (∀ parity, (parityDies parity).length < 2 → Tbl.wf s.mch.rules = true →
        (∀ e ∈ s.checkedRules s.policyMask, e.2.checksHold = true ∧ e.2.actionHolds = true) →
        ∃ t p, exec (.policySearch n parity) s = .next t ∧ t.cmd? n = some { c with policy := p } ∧
          (∀ m, m ≠ n → t.cmd? m = s.cmd? m) ∧ OnlyChanges [.sch, .mch] s t ∧
          { t.mch with rrSearch := s.mch.rrSearch } = s.mch ∧
          t.mch.rrSearch = (if c.cls = .express then s.mch.rrSearch else 1) ∧
          ((∀ e ∈ s.enabledRules s.policyMask, e.2.matchesWord (s.searchWord c.tenant c.searchKey) = false) →
            p = .noRule) ∧
          (∀ e ∈ s.enabledRules s.policyMask, e.2.matchesWord (s.searchWord c.tenant c.searchKey) = true →
            (∀ f ∈ s.enabledRules s.policyMask,
              f.2.matchesWord (s.searchWord c.tenant c.searchKey) = true → e.1 ≤ f.1) →
            p = .rule (parseAction e.2.action))) ∧
      (∀ parity d1 d2 more, parityDies parity = d1 :: d2 :: more →
        ∃ t, exec (.policySearch n parity) s = .next t ∧ t.cmd? n = some c ∧
          t.flt.raised = s.flt.raised ++ [⟨323, leBytes 1 d2⟩] ∧ OnlyChanges [.flt, .mch] s t)

/-- For a started keyed command whose turn at IDX it is, a lookup that reads no bucket with an error resolves as the
records that it reads allow, those of other keys before the match among them, unless one of them waits for a rebuild:
to absent when it finds no such key; to the record that the mirror supplies when it is EXPRESS and the mirror holds
the key, which sets EXPRESS_PATH and keeps the largest FCLK count, and else to the record of the table or the
directory page; to the record as IDX rewrites it when the REC_CRC of one of its sources fails; and to unreadable when
the bytes of one that it reads are lost for good or both sources of one fail. From 06_index_and_express_path.md (R207,
R212, R216, R219, R226); 01_architecture.md (R23). -/
def Obligations.IndexLookupResolves : Prop :=
  ∀ (s : State) (n fclk : Nat) (refreshing0 : Bool) (c : Cmd) (r : Option DirRec) (express second : Bool) (others : List Bytes),
      s.cmd? n = some c → c.stage = .started → c.op.namesKey = true →
      c.lookup = .waiting → s.blockInReset .idx = false → s.flt.swatched = [] → Canonical s →
      (c.cls = .express ∨ s.expressWaits (fun e => e.op.namesKey && e.lookup = .waiting) = false) →
      s.lookupKey c.cls refreshing0 c.kh (c.key.getD []) = (r, express, second, others) →
      (express = true ↔ s.usesMirror c.cls = true ∧ (s.mirrorLookup refreshing0 c.kh (c.key.getD [])).1.isSome = true) ∧
      (∀ read, read = others.filterMap (dirFind s.idx.dir) ++ r.toList → (∀ q ∈ read, s.recordWaits q = false) →
        ((∀ q ∈ read, s.recordLost q = false) →
          (r = none →
            ∃ t, exec (.indexLookup n refreshing0 ⟨[], 0, 0⟩ fclk) s = .next t ∧ t.cmd? n = some { c with lookup := .absent } ∧
              (second = false → others = [] → OnlyChanges [.sch] s t)) ∧
          (∀ x, r = some x →
            (∃ t h, exec (.indexLookup n refreshing0 ⟨[], 0, 0⟩ fclk) s = .next t ∧
              t.cmd? n = some { c with lookup := .found x, expressPath := express, holds := h } ∧
              (express = true → t.fld Reg.IDX_EXPRESS_LAT_MAX_FCLK
                = max (s.fld Reg.IDX_EXPRESS_LAT_MAX_FCLK) (min fclk 65535))) ∧
            (∀ k, read[k]? = some x → dirFind s.idx.dir x.key = some x →
              ∃ t h x', exec (.indexLookup n refreshing0 ⟨[], 1, k⟩ fclk) s = .next t ∧ dirFind t.idx.dir x.key = some x' ∧
                x'.variants = x.variants ∧
                t.cmd? n = some { c with lookup := .found x', expressPath := express, holds := h }))) ∧
        (∀ fails k, (∃ q ∈ read, s.recordLost q = true) ∨ (2 ≤ fails ∧ k < read.length) →
          ∃ t, exec (.indexLookup n refreshing0 ⟨[], fails, k⟩ fclk) s = .next t ∧
            t.cmd? n = some { c with lookup := .unreadable }))

/-- A GET whose checks pass delivers the zeros of a hole that covers its range to its buffer and completes OK with the
observed version and the bytes delivered; of a variant whose next bytes are stored it goes to work on the stored
segment; past the end it completes with 0 bytes. Its job goes to VAL when the port grants it and waits until then. An
absent variant completes NOT_FOUND, another version under IF_VERSION completes VERSION_CONFLICT with the version held,
a missing right of a GET or a HEAD ACCESS_DENIED. A HEAD of a key that the directory does not hold completes
NOT_FOUND; else it writes the first LENGTH bytes of the result block and completes with the number of variants and the
key version. From 04_command_set.md (R138, R140, R144, R145, R149, R150, R154); 02_object_model.md (R60);
03_client_queues.md (R109). -/
def Obligations.ReadsAnswer : Prop :=
  (∀ (s : State) (n ctx : Nat) (c : Cmd) (r : DirRec) (v : Variant), s.cmd? n = some c → CmdReady c ctx → c.op = .get →
      c.lookup = .found r → tget r.variants c.desc.variant = some v →
      (c.desc.ifVersion = false ∨ c.desc.condVersion = v.version) → c.pos = 0 → c.crc = crc32cInit →
      (s.jobTurn c = false → exec (.get n) s = .next s) ∧
      (s.jobTurn c = true → c.readTotal = 0 →
        ∃ t, exec (.get n) s = .next t ∧
          Ended t n ⟨.ok, if c.desc.e2eCrc then (crc32cOut crc32cInit).toNat else 0, v.version, 0, false, false⟩) ∧
      (s.jobTurn c = true → 0 < c.readTotal → (tget v.segs (c.desc.offset / 65536)).isSome = true →
        ∃ t, exec (.get n) s = .next t ∧ t.cmd? n = some { c with stage := .working } ∧
          { t.val with rr := s.val.rr } = s.val ∧ OnlyChanges [.sch, .val] s t) ∧
      (s.jobTurn c = true → 0 < c.readTotal → v.segs = [] → c.desc.offset / 65536 = (c.desc.offset + c.readTotal - 1) / 65536 →
        ∃ t, exec (.get n) s = .next t ∧
          Sends s t [.data ctx n c.desc.bufAddr c.desc.bufRkey (zeros c.readTotal)] ∧
          Ended t n ⟨.ok, if c.desc.e2eCrc then (crc32cOut (crc32cRun crc32cInit (zeros c.readTotal))).toNat else 0,
            v.version, c.readTotal, false, false⟩)) ∧
    (∀ (s : State) (n ctx : Nat) (c : Cmd), s.cmd? n = some c → CmdReady c ctx → c.op = .get →
      (c.observed = none → ∃ t, exec (.get n) s = .next t ∧ Ended t n (Outcome.of .notFound)) ∧
      (∀ v, c.observed = some v → c.desc.ifVersion = true → c.desc.condVersion ≠ v.version →
        ∃ t, exec (.get n) s = .next t ∧ Ended t n ⟨.versionConflict, 0, v.version, 0, false, false⟩)) ∧
    (∀ (s : State) (n ctx : Nat) (c : Cmd) (r : DirRec) (x : Instr), s.cmd? n = some c → c.ctx = some ctx →
      c.orphan = false → c.op = .head ∧ x = .head n ∨ c.op = .get ∧ x = .get n → c.resolved = true → c.conds = [] →
      c.denied = true → c.lookup = .found r →
      ∃ t, exec x s = .next t ∧ Ended t n (Outcome.of .accessDenied)) ∧
    (∀ (s : State) (n ctx : Nat) (c : Cmd), s.cmd? n = some c → CmdReady c ctx → c.op = .head →
      (c.lookup = .absent → ∃ t, exec (.head n) s = .next t ∧ Ended t n (Outcome.of .notFound)) ∧
      (∀ r, c.lookup = .found r → 0 < c.desc.length →
        ∃ t, exec (.head n) s = .next t ∧
          Sends s t [.data ctx n c.desc.bufAddr c.desc.bufRkey ((headBytes r).take c.desc.length)] ∧
          Ended t n ⟨.ok, r.variants.length, r.version, ((headBytes r).take c.desc.length).length, false, false⟩) ∧
      (∀ r, c.lookup = .found r → c.desc.length = 0 →
        ∃ t, exec (.head n) s = .next t ∧ Sends s t [] ∧
          Ended t n ⟨.ok, r.variants.length, r.version, 0, false, false⟩))

/-- Once the port toward VAL grants its job, which waits until then, a ready PUT or WRITE_RANGE of a length in bounds goes
to work and fetches its value from the client; a PUT of length 0 goes to its gate, and so does a PUNCH of a variant
that the directory does not hold, or of one with only holes, when no lower write to the key is undecided. A DELETE
goes to its gate at once. A PUNCH that covers a stored segment whole makes it a hole; one that covers it in part waits
to merge it with zeros. A PUT or WRITE_RANGE past 64 GiB goes to its gate with LENGTH_LIMIT found. A missing right
ends each of them with ACCESS_DENIED. From 04_command_set.md (R138, R140, R142, R151, R152, R153); 02_object_model.md
(R56, R59). -/
def Obligations.WritesStart : Prop :=
  (∀ (s : State) (n ctx : Nat) (c : Cmd), s.cmd? n = some c → CmdReady c ctx → s.sealConds c = [] → c.work = [] →
      c.ledgerPath = none → c.slotRef = none → c.cursor = 0 → c.pos = 0 →
      (s.jobTurn c = false →
        (c.op = .put → c.desc.length ≤ 2 ^ 36 → exec (.put n) s = .next s) ∧
        (c.op = .writeRange → c.desc.offset + c.desc.length ≤ 2 ^ 36 → exec (.writeRange n) s = .next s) ∧
        (c.op = .punch → exec (.punch n) s = .next s)) ∧
      (c.op = .put → s.jobTurn c = true → 0 < c.desc.length → c.desc.length ≤ 2 ^ 36 →
        ∃ t, exec (.put n) s = .next t ∧ t.cmd? n = some { c with stage := .working } ∧
          Sends s t [.valueRead ctx c.desc.bufAddr c.desc.bufRkey c.desc.length] ∧
          { t.val with rr := s.val.rr } = s.val ∧ OnlyChanges [.nfe, .sch, .val] s t) ∧
      (c.op = .put → s.jobTurn c = true → c.desc.length = 0 → c.desc.e2eCrc = false ∨ c.desc.clientCrc = crc32cOut c.crc →
        ∃ t, exec (.put n) s = .next t ∧ t.cmd? n = some { c with stage := .gated } ∧ OnlyChanges [.sch, .val] s t) ∧
      (c.op = .put → 2 ^ 36 < c.desc.length →
        ∃ t, exec (.put n) s = .next t ∧ t.cmd? n = some { c with stage := .gated, conds := [.lengthLimit] } ∧
          OnlyChanges [.sch] s t) ∧
      (c.op = .writeRange → s.jobTurn c = true → 0 < c.desc.length → c.desc.offset + c.desc.length ≤ 2 ^ 36 →
        ∃ t, exec (.writeRange n) s = .next t ∧ t.cmd? n = some { c with stage := .working } ∧
          Sends s t [.valueRead ctx c.desc.bufAddr c.desc.bufRkey c.desc.length] ∧
          { t.val with rr := s.val.rr } = s.val ∧ OnlyChanges [.nfe, .sch, .val] s t) ∧
      (c.op = .writeRange → 0 < c.desc.length → 2 ^ 36 < c.desc.offset + c.desc.length →
        ∃ t, exec (.writeRange n) s = .next t ∧ t.cmd? n = some { c with stage := .gated, conds := [.lengthLimit] } ∧
          OnlyChanges [.sch] s t) ∧
      (c.op = .punch → s.jobTurn c = true → s.lowerWrites c.kh c.version = false → s.lowerKeyless c.version = false →
        (s.variantNow c = none →
          ∃ t, exec (.punch n) s = .next t ∧ t.cmd? n = some { c with stage := .gated } ∧ OnlyChanges [.sch, .val] s t) ∧
        (∀ v, s.variantNow c = some v → v.segs = [] →
          ∃ t, exec (.punch n) s = .next t ∧ t.cmd? n = some { c with stage := .gated, cursor := 1 } ∧
            OnlyChanges [.sch, .val] s t) ∧
        (∀ v i g a z, s.variantNow c = some v → v.segs = [(i, g)] → a = max c.desc.offset (65536 * i) - 65536 * i →
          z = min (min (c.desc.offset + c.desc.length) v.length) (65536 * i + segLen v.length i) - 65536 * i → a < z →
          (a = 0 → z = segLen v.length i →
            ∃ t, exec (.punch n) s = .next t ∧
              t.cmd? n = some { c with stage := .gated, cursor := 1, work := [(i, .hole)] } ∧
                OnlyChanges [.sch, .val] s t) ∧
          (0 < a ∨ z ≠ segLen v.length i →
            ∃ t, exec (.punch n) s = .next t ∧
              t.cmd? n = some { c with stage := .working, cursor := 1, work := [(i, .merging (zeros (z - a)))] } ∧
              OnlyChanges [.sch, .val] s t))) ∧
      (c.op = .delete →
        ∃ t, exec (.delete n) s = .next t ∧ t.cmd? n = some { c with stage := .gated } ∧ OnlyChanges [.sch] s t)) ∧
    (∀ (s : State) (n ctx : Nat) (c : Cmd) (x : Instr), s.cmd? n = some c → c.ctx = some ctx → c.chain = none →
      c.orphan = false → c.resolved = true → c.conds = [] → c.denied = true → c.lookup ≠ .unreadable →
      s.sealConds c = [] →
      (c.op = .put ∧ c.desc.length ≤ 2 ^ 36 ∧ x = .put n ∨ c.op = .delete ∧ x = .delete n ∨
        c.op = .punch ∧ x = .punch n ∨ c.op = .writeRange ∧ c.desc.offset + c.desc.length ≤ 2 ^ 36 ∧ x = .writeRange n) →
      ∃ t, exec x s = .next t ∧ Ended t n (c.filled (Outcome.of .accessDenied)))

/-- A runnable FLUSH ends OK with the highest version of the earlier writes that took effect when every command of its
queue pair fetched before it has completed, and changes nothing but its own start while one has not. A runnable NOP
ends OK with no results. From 04_command_set.md (R155, R156); 05_ordering_and_completion.md (R187, R188). -/
def Obligations.FlushAndNopComplete : Prop :=
  ∀ (s : State) (n ctx : Nat) (c : Cmd), s.cmd? n = some c → c.ctx = some ctx → c.orphan = false → c.desc.resubmit = false →
      s.runnable n c = true →
      (c.op = .flush → s.earlierDone c.ctx n = true →
        ∃ t, exec (.flush n) s = .next t ∧ Ended t n ⟨.ok, 0, c.counted, 0, false, false⟩) ∧
      (c.op = .flush → c.stage = .started → s.earlierDone c.ctx n = false → exec (.flush n) s = .next s) ∧
      (c.op = .nop → ∃ t, exec (.nop n) s = .next t ∧ Ended t n ⟨.ok, 0, 0, 0, false, false⟩)

/-- A SCAN that may start and whose pattern compiles takes a free image slot (or that of the context to evict) with the
context's next generation and halves, and goes to work from the cursor asked for; a SCAN_NEXT does so on the idle
context that its handle names. A handle that names no live context ends with TIMEOUT, another tenant's with
ACCESS_DENIED. When MCH takes its rights checks, examining the lowest key hash at or above the cursor adds the keys
that match and that the tenant may search to the batch, and the cursor passes it; an entry that does not fit LENGTH,
or MAX_ENTRIES reached, ends the batch with MORE and the cursor to go on from; past the last key the batch ends with
cursor 0. The 250 ms limit ends a batch with MORE and the cursor it has reached. A context idle for 30 s is free. A
COUNT likewise takes a slot, whose context keeps its generation, and goes to work from the first key hash; it adds the
number of the keys that match and may be searched, under ESTIMATE only those whose slot lies in the sample, and past
the last key ends OK with the total in VALID_BYTES; under ESTIMATE RESULT1 is the number counted and VALID_BYTES 64
times that. RESULT1 of a SCAN_NEXT is the handle that it names. From 04_command_set.md (R157, R158, R159, R160, R161,
R162, R164, R165, R166, R167); 07_match_engine.md (R257, R258, R260, R261). -/
def Obligations.ScansWalk : Prop :=
  (∀ (s : State) (n ctx i : Nat) (c : Cmd) (p : Regex), s.cmd? n = some c → c.ctx = some ctx → c.op = .scan →
      s.mayStart n c = true → c.desc.resubmit = false → parsePattern (c.key.getD []) = some p → p.compiles = true →
      s.slotFor n = some i → s.freeHalves ≠ [] →
      ∃ t x, exec (.scan n ⟨0, []⟩) s = .next t ∧
        t.cmd? n = some { c with
          stage := .working, scanCtx := some i, cursor := c.desc.param0, batch := [], counted := 0 } ∧
        tget t.mch.contexts i = some x ∧ x.tenant = c.tenant ∧ x.pattern = p ∧ x.live = true ∧ x.busy = some n ∧
        x.isCount = false ∧ (tget s.mch.contexts i = none → x.gen = 0) ∧
        (∀ y, tget s.mch.contexts i = some y → x.gen = (y.gen + 1) % 65536) ∧ (t.halvesOf i).isEmpty = false ∧
        Sends s t []) ∧
    (∀ (s : State) (n ctx slot : Nat) (c : Cmd) (x : ScanCtx), s.cmd? n = some c → c.ctx = some ctx → c.op = .scanNext →
      c.conds = [] → c.orphan = false → s.runnable n c = true → c.desc.resubmit = false → s.mchDown = false →
      (∀ st, s.handleCheck c = .inl st → ∃ t, exec (.scanNext n ⟨0, []⟩) s = .next t ∧ Ended t n (c.filled (Outcome.of st))) ∧
      (s.handleCheck c = .inr (slot, x) → x.busy = none → s.earlierScan n c = false → s.freeHalves ≠ [] →
        ∃ t, exec (.scanNext n ⟨0, []⟩) s = .next t ∧
          t.cmd? n = some { c with
            stage := .working, scanCtx := some slot, cursor := c.desc.param0, batch := [], counted := 0 } ∧
          tget t.mch.contexts slot = some { x with busy := some n } ∧ (t.halvesOf slot).isEmpty = false)) ∧
    (∀ (s : State) (n ctx slot : Nat) (c : Cmd) (x : ScanCtx) (i : Instr), s.cmd? n = some c → c.ctx = some ctx →
      c.orphan = false → c.stage = .working → c.scanCtx = some slot → s.mchDown = false → s.slotOfScan c = some x →
      s.searchTurn false 1 = true → (c.op = .scan ∧ i = .scan n ⟨1, []⟩ ∨ c.op = .scanNext ∧ i = .scanNext n ⟨1, []⟩) →
      (s.nextGroup c.cursor = [] →
        ∃ t, exec i s = .next t ∧ Sends s t [.data ctx n c.desc.bufAddr c.desc.bufRkey (batchBytes 0 c.batch)] ∧
          Ended t n (c.filled ⟨.ok, s.handleOf slot, 0, (batchBytes 0 c.batch).length, false, false⟩)) ∧
      (∀ r rest got, s.nextGroup c.cursor = r :: rest → (∀ q ∈ r :: rest, s.lostForGood q.loc = false) →
        got = (s.accepted c.tenant x.pattern (r :: rest)).1 →
        (batchLen (c.batch ++ got) ≤ min c.desc.length (2 ^ 24) →
          (c.desc.param1 / 2 ^ 32 = 0 ∨ (c.batch ++ got).length < c.desc.param1 / 2 ^ 32 →
            ∃ t, exec i s = .next t ∧
              t.cmd? n = some { c with batch := c.batch ++ got, cursor := r.kh.toNat + 1 } ∧ Sends s t []) ∧
          (c.desc.param1 / 2 ^ 32 ≠ 0 → c.desc.param1 / 2 ^ 32 ≤ (c.batch ++ got).length → r.kh.toNat + 1 < 2 ^ 64 →
            ∃ t, exec i s = .next t ∧
              Sends s t [.data ctx n c.desc.bufAddr c.desc.bufRkey (batchBytes (r.kh.toNat + 1) (c.batch ++ got))] ∧
              Ended t n (c.filled ⟨.ok, s.handleOf slot, 0, (batchBytes (r.kh.toNat + 1) (c.batch ++ got)).length, true,
                false⟩))) ∧
        (min c.desc.length (2 ^ 24) < batchLen (c.batch ++ got) →
          ∃ t, exec i s = .next t ∧
            Sends s t [.data ctx n c.desc.bufAddr c.desc.bufRkey (batchBytes r.kh.toNat c.batch)] ∧
            Ended t n (c.filled ⟨.ok, s.handleOf slot, 0, (batchBytes r.kh.toNat c.batch).length, true, false⟩)))) ∧
    (∀ (s : State) (n ctx slot : Nat) (c : Cmd), s.cmd? n = some c → c.ctx = some ctx → c.orphan = false →
      (c.op = .scan ∨ c.op = .scanNext) → c.stage = .working → c.scanCtx = some slot → c.cursor < 2 ^ 64 →
      ∃ t, exec (.scanBatchTimeout n) s = .next t ∧
        Sends s t [.data ctx n c.desc.bufAddr c.desc.bufRkey (batchBytes c.cursor c.batch)] ∧
        Ended t n (c.filled ⟨.ok, s.handleOf slot, 0, (batchBytes c.cursor c.batch).length, true, false⟩)) ∧
    (∀ (s : State) (i : Nat) (x : ScanCtx), tget s.mch.contexts i = some x → x.busy = none → x.isCount = false →
      ∃ t, exec (.scanContextExpiry i) s = .next t ∧ tget t.mch.contexts i = some { x with live := false } ∧
        (∀ j, j ≠ i → tget t.mch.contexts j = tget s.mch.contexts j) ∧ OnlyChanges [.mch] s t) ∧
    (∀ (s : State) (n ctx i : Nat) (c : Cmd) (p : Regex), s.cmd? n = some c → c.ctx = some ctx → c.op = .count →
      s.mayStart n c = true → c.desc.resubmit = false → parsePattern (c.key.getD []) = some p → p.compiles = true →
      s.slotFor n = some i → s.freeHalves ≠ [] →
      ∃ t x, exec (.count n ⟨0, []⟩) s = .next t ∧
        t.cmd? n = some { c with stage := .working, scanCtx := some i, cursor := 0, batch := [], counted := 0 } ∧
        tget t.mch.contexts i = some x ∧ x.pattern = p ∧ x.busy = some n ∧ x.isCount = true ∧
        (∀ y, tget s.mch.contexts i = some y → x.gen = y.gen) ∧ (t.halvesOf i).isEmpty = false ∧ Sends s t []) ∧
    (∀ (s : State) (n ctx slot : Nat) (c : Cmd) (x : ScanCtx), s.cmd? n = some c → c.ctx = some ctx →
      c.orphan = false → c.op = .count → c.stage = .working → c.scanCtx = some slot → s.mchDown = false →
      s.slotOfScan c = some x → s.searchTurn false 1 = true →
      (s.nextGroup c.cursor = [] →
        ∃ t, exec (.count n ⟨1, []⟩) s = .next t ∧ Sends s t [] ∧
          Ended t n (if c.desc.estimate then ⟨.ok, c.counted, 0, 64 * c.counted, false, false⟩
            else ⟨.ok, 0, 0, c.counted, false, false⟩)) ∧
      (∀ r rest group got, s.nextGroup c.cursor = r :: rest →
        group = (if c.desc.estimate then (r :: rest).filter s.sampled else r :: rest) →
        (∀ q ∈ group, s.lostForGood q.loc = false) → got = (s.accepted c.tenant x.pattern group).1 →
        ∃ t, exec (.count n ⟨1, []⟩) s = .next t ∧
          t.cmd? n = some { c with counted := c.counted + got.length, cursor := r.kh.toNat + 1 } ∧ Sends s t []))

/-- While a write waits for value bytes and the staging buffers have room, those that arrive advance its position and its
running CRC-32C and join its buffer; where they make no segment whole, they only join the segments that they belong
to, and no other command changes. When they end the value and the client's check value under E2E_CRC differs from the
CRC of all bytes, source 388 is raised with the tenant and the tag, and the write waits at its gate with
E2E_CRC_MISMATCH found. From 04_command_set.md (R147); 08_value_path_and_check_values.md (R267, R283, R284);
01_architecture.md (R34); 05_ordering_and_completion.md (R176). -/
def Obligations.ValueBytesArrive : Prop :=
  ∀ (s : State) (n : Nat) (c : Cmd) (data : Bytes), s.cmd? n = some c → c.stage = .working → c.op.readsBuffer = true →
      s.blockInReset .val = false → c.pos < c.desc.length → s.stagedBytes + data.length ≤ 2 ^ 34 → c.orphan = false →
      c.ctx.isSome = true →
      (c.pos + data.length < c.desc.length →
        (∃ t e, exec (.valueDataArrival n data) s = .next t ∧ t.cmd? n = some e ∧ e.pos = c.pos + data.length ∧
          e.crc = crc32cRun c.crc data ∧ e.buffer = c.buffer ++ data) ∧
        (∀ w, w = feedSegs (data.length / 65536 + 2) ((if c.op = .put then 0 else c.desc.offset) + c.pos) data c.work →
          (∀ i b, (i, SegWork.filling b) ∈ w → c.partWhole i b = false) → (∀ i g, (i, SegWork.built g) ∉ w) →
          c.ledgerPath = none → c.cursor = 0 →
          ∃ t, exec (.valueDataArrival n data) s = .next t ∧
            t.cmd? n = some { c with
              work := w, pos := c.pos + data.length, buffer := c.buffer ++ data, crc := crc32cRun c.crc data } ∧
            (∀ m, m ≠ n → t.cmd? m = s.cmd? m) ∧ OnlyChanges [.sch, .val] s t)) ∧
      (c.pos + data.length = c.desc.length → c.desc.e2eCrc = true → c.conds = [] →
        c.desc.clientCrc ≠ crc32cOut (crc32cRun c.crc data) →
        ∃ t e, exec (.valueDataArrival n data) s = .next t ∧ t.cmd? n = some e ∧ e.stage = .gated ∧
          e.conds = [.e2eCrcMismatch] ∧
          (⟨388, leBytes 2 c.tenant ++ leBytes 4 c.desc.tag⟩ : Ev) ∈ t.flt.raised)

/-- For a GET at work on the stored segment at its position, whose turn it is at each of its dies: when the codewords
decode and the header and segment CRCs hold, a sealed segment waits for its open, for which the command takes its
reference to the slot, and an unsealed one delivers its part of the range at the position, after which the read goes
on and an operation suspended for reads resumes where none is queued any more; when a CRC fails, and no repair holds
its location, a repair is entered in the table with the check that failed and the read waits on it. From
08_value_path_and_check_values.md (R285, R286, R287, R291); 04_command_set.md (R150); 09_cipher_and_key_slots.md
(R318); 11_flash_layout_and_mapping.md (R382, R383). -/
def Obligations.SegmentsAreRead : Prop :=
  ∀ (s : State) (n i ctx : Nat) (c : Cmd) (g : Seg) (v : Variant) (ldpcOk : Bool), s.cmd? n = some c → c.ctx = some ctx → c.stage = .working →
      c.repair = none → c.op = .get → s.blockInReset .val = false → c.observed = some v →
      i = (c.desc.offset + c.pos) / 65536 → tget v.segs i = some g → c.work = [] → c.slotRef = none →
      s.mayRead 0 (decide (c.runClass = .express)) g.loc = true →
      ((s.spoilLine g.loc ldpcOk).readLines (ledgerLines g.loc (segUnits g.payload.length))).1 = true →
      (∀ w, s.checkRead g (locator c.kh c.desc.variant i) ldpcOk = .clean → g.sealWord = some w → s.cip.restoreDone = true →
        ∃ t, exec (.segmentRead n ldpcOk) s = .next t ∧
          t.cmd? n = some { c with work := [(i, .opening g)], slotRef := some (w.slot, (s.slot w.slot).gen) } ∧
          Sends s t []) ∧
      (∀ b, s.checkRead g (locator c.kh c.desc.variant i) ldpcOk = .clean → g.sealWord = none → g.decode g.payload = some b →
        ∃ (u : State) (e : Cmd) (fuel : Nat), exec (.segmentRead n ldpcOk) s = .next ((u.advanceRead n fuel).resumeDies (s.readDies g.loc)) ∧ u.cmd? n = some e ∧
          e.pos = c.pos + (c.readPart i b).length ∧ e.crc = crc32cRun c.crc (c.readPart i b) ∧ e.repair = none ∧
          Sends s u [.data ctx n (c.desc.bufAddr + c.pos) c.desc.bufRkey (c.readPart i b)]) ∧
      (s.checkRead g (locator c.kh c.desc.variant i) ldpcOk = .badCheck → s.sealGone c g = false →
        (∀ x ∈ s.val.repairs, x.2.old.loc ≠ g.loc) → s.val.repairs.length < 64 →
        (∀ k b u, g.loc = .flash k b u → s.locParity g.loc = true) →
        ∃ t, exec (.segmentRead n ldpcOk) s = .next t ∧
          t.repair? s.val.nextRepair = some ⟨c.kh, c.key.getD [], c.desc.variant, v.version, i, g, 0, v.template,
            s.locWords g.loc, false, [n], false, none⟩ ∧
          t.cmd? n = some { c with repair := some s.val.nextRepair } ∧ t.val.nextRepair = s.val.nextRepair + 1)

/-- When no second copy of a flash segment passes, the repair leaves the table, SEGMENT_UNRECOVERABLE is raised with its
location, locator and key hash, and its reading GET ends with UNCORRECTABLE and the bytes delivered so far. A copy
that passes is classified: CHECK_ONLY (source 384) when the payload and the middle header are those that were read,
else DATA (source 385); the repaired segment is then queued for its rewrite and the readers go on. A rewrite at the
front takes effect in the record of the current version when the segment lies where it was read and the staging class
has lines for its record, and is dropped with source 387 when the key is gone. When the key of the segment under
repair has been erased, the repair ends and its reading GET with KEY_ERASED. From 08_value_path_and_check_values.md
(R287, R288, R289, R290); 09_cipher_and_key_slots.md (R311); 10_ledger.md (R348). -/
def Obligations.RepairsEnd : Prop :=
  (∀ (s : State) (rid n k b u : Nat) (r : Repair) (c : Cmd), Tbl.wf s.val.repairs = true → s.repair? rid = some r → r.asked = false → r.fixed = none →
      r.old.loc = .flash k b u → r.failed ≠ 2 → r.readers = [n] → s.cmd? n = some c → c.op = .get → c.stage = .working →
      c.ctx.isSome = true → c.orphan = false →
      ∃ t, exec (.readRepair rid .noCopy) s = .next t ∧ t.repair? rid = none ∧
        (⟨386, leBytes 8 (locWord r.old.loc) ++ leBytes 8 (locator r.kh r.variant r.seg).toNat ++ leBytes 8 r.kh.toNat⟩ : Ev)
          ∈ t.flt.raised ∧
        Ended t n ⟨.uncorrectable, if c.desc.e2eCrc then (crc32cOut c.crc).toNat else 0,
          (c.observed.map (·.version)).getD 0, c.pos, false, false⟩) ∧
    (∀ (s : State) (rid : Nat) (r : Repair) (raw b : Bytes), s.repair? rid = some r → r.asked = false → r.fixed = none →
      (r.failed = 0 ∨ r.failed = 1) → (s.readCopy r (parseSeg (s.secondCopy r) r.old)).1 = .plain b →
      ∃ (u : State) (g : Seg), exec (.readRepair rid (.stored raw true)) s = .next ((u.queueRewrite rid (some g)).readersGo r b) ∧
        u.val.repairs = s.val.repairs ∧ g = r.closed g ∧
        ((parseSeg (s.secondCopy r) r.old).middle = r.old.middle ∧
            (parseSeg (s.secondCopy r) r.old).payload = r.old.payload →
          g.payload = r.old.payload ∧ u.flt.raised = s.flt.raised ++ [⟨384, leBytes 8 (locWord r.old.loc)
            ++ leBytes 8 (locator r.kh r.variant r.seg).toNat ++ leBytes 2 0xFFFF⟩]) ∧
        ((parseSeg (s.secondCopy r) r.old).payload ≠ r.old.payload →
          g.payload = (parseSeg (s.secondCopy r) r.old).payload ∧
          u.flt.raised = s.flt.raised ++ [⟨385, leBytes 8 (locWord r.old.loc)
            ++ leBytes 8 (locator r.kh r.variant r.seg).toNat ++ leBytes 2 0xFFFF ++ leBytes 1 r.failed⟩])) ∧
    (∀ (s : State) (rid : Nat) (r : Repair) (g : Seg) (item : GateItem), Tbl.wf s.val.repairs = true → s.repair? rid = some r → r.fixed = some g →
      s.sch.gate.find? (fun x => x.repair = some rid) = some item → s.itemFront item = true → s.programmed g.loc = true →
      dirFind s.idx.dir r.key = none →
      ∃ t, exec (.repairRewrite rid) s = .next t ∧ t.repair? rid = none ∧ t.idx.dir = s.idx.dir ∧
        (⟨387, leBytes 8 (locWord r.old.loc)⟩ : Ev) ∈ t.flt.raised) ∧
    (∀ (s : State) (rid : Nat) (r : Repair) (g : Seg) (item : GateItem) (d : DirRec) (v : Variant), Tbl.wf s.val.repairs = true → s.repair? rid = some r →
      r.fixed = some g → s.sch.gate.find? (fun x => x.repair = some rid) = some item → s.itemFront item = true →
      s.programmed g.loc = true → dirFind s.idx.dir r.key = some d → tget d.variants r.variant = some v →
      v.version = r.version → (tget v.segs r.seg).map (·.loc) = some r.old.loc → s.locWords r.old.loc = r.words →
      s.moveFits d v r.seg = true →
      ∃ t d' v', exec (.repairRewrite rid) s = .next t ∧ t.repair? rid = none ∧ dirFind t.idx.dir r.key = some d' ∧
        tget d'.variants r.variant = some v' ∧ tget v'.segs r.seg = some g ∧ v'.version = v.version ∧
        (∀ i, i ≠ r.seg → tget v'.segs i = tget v.segs i)) ∧
    (∀ (s : State) (rid n : Nat) (r : Repair) (c : Cmd) (raw : Bytes), Tbl.wf s.val.repairs = true → s.repair? rid = some r → r.asked = false →
      r.fixed = none → r.readers = [n] → (s.readCopy r (parseSeg (s.secondCopy r) r.old)).1 = .keyErased →
      s.cmd? n = some c → c.op = .get → c.stage = .working → c.ctx.isSome = true → c.orphan = false →
      ∃ t, exec (.readRepair rid (.stored raw true)) s = .next t ∧ t.repair? rid = none ∧
        Ended t n ⟨.keyErased, if c.desc.e2eCrc then (crc32cOut c.crc).toNat else 0,
          (c.observed.map (·.version)).getD 0, c.pos, false, false⟩)

/-- When the two cores of a lane agree on the seal that it runs, under the reference of its command to a LOADED slot whose
counter is below its end, the lane is free, the segment is closed with a seal word of the slot, its serial and epoch,
and the counter value that the slot held, and the slot's counter has risen by one. At the end of the counter the seal
is refused: NONCE_EXHAUSTED is raised with the slot and the epoch, and the write waits at its gate with that
condition, its reference gone with its last job. When the cores disagree on an open, source 416 is raised with the
lane and the kind, the mismatch is counted, no counter value is drawn, the command still waits, and the lane does not
take the job again; on a seal the counter value is spent. From 09_cipher_and_key_slots.md (R295, R296, R301, R302,
R303, R309, R311, R318). -/
def Obligations.CipherJobsEnd : Prop :=
  ∀ (s : State) (n lane i : Nat) (c : Cmd) (g : Seg) (loc : Loc), s.cmd? n = some c → c.stage = .working →
      s.blockInReset .cip = false → s.flt.swatched = [] → Tbl.wf s.cip.running = true →
      (tget s.cip.running lane = some ⟨0, n, i, loc⟩ → tget c.work i = some (.sealing g) →
        c.slotRef = some (c.act.owner, (s.slot c.act.owner).gen) → (s.slot c.act.owner).st = .loaded →
        (s.slot c.act.owner).counter < counterEnd →
        ∃ (u : State) (w : SealWord) (ct tag : Bytes), exec (.cipherJobDone (some n) lane true) s = .next (((u.pathWhenReady n).dropIdleRef n).fillLanes 16) ∧
          tget u.cip.running lane = none ∧ (u.slot c.act.owner).counter = (s.slot c.act.owner).counter + 1 ∧
          w = ⟨(s.slot c.act.owner).epoch, (s.slot c.act.owner).serial, c.act.owner, (s.slot c.act.owner).counter⟩ ∧
          (u.cmd? n).map (·.work) = some (tset c.work i (.built ({ g with
            payload := ct, tag := tag, sealWord := some w }.close (locator c.kh c.desc.variant i))))) ∧
      (tget s.cip.running lane = some ⟨0, n, i, loc⟩ → tget c.work i = some (.sealing g) →
        c.slotRef = some (c.act.owner, (s.slot c.act.owner).gen) → (s.slot c.act.owner).st = .loaded →
        counterEnd ≤ (s.slot c.act.owner).counter → c.conds = [] → c.ctx.isSome = true →
        ∃ t ref, exec (.cipherJobDone (some n) lane true) s = .next t ∧
          t.cmd? n = some { c with stage := .gated, conds := [.nonceExhausted], slotRef := ref } ∧
          ((∀ x ∈ s.cip.running, x.1 ≠ lane → x.2.kind = 2 ∨ x.2.cmd ≠ n) → ref = none) ∧
          t.flt.raised = s.flt.raised
            ++ [⟨419, leBytes 2 c.act.owner ++ leBytes 4 (s.slot c.act.owner).epoch⟩]) ∧
      (tget s.cip.running lane = some ⟨0, n, i, loc⟩ → c.slotRef = some (c.act.owner, (s.slot c.act.owner).gen) →
        (s.slot c.act.owner).st = .loaded → (s.slot c.act.owner).counter < counterEnd →
        ∃ t, exec (.cipherJobDone (some n) lane false) s = .next t ∧ t.cmd? n = some c ∧
          (t.slot c.act.owner).counter = (s.slot c.act.owner).counter + 1 ∧
          tget t.cip.running lane ≠ some ⟨0, n, i, loc⟩) ∧
      (Canonical s → tget s.cip.running lane = some ⟨1, n, i, loc⟩ →
        ∃ t, exec (.cipherJobDone (some n) lane false) s = .next t ∧ t.cmd? n = some c ∧ t.cip.slots = s.cip.slots ∧
          tget t.cip.running lane ≠ some ⟨1, n, i, loc⟩ ∧
          (∃ more, t.flt.raised = s.flt.raised ++ (⟨416, leBytes 1 lane ++ leBytes 1 1⟩ : Ev) :: more) ∧
          t.fld Reg.CIP_LANE_STAT_LANE_MISMATCHES =
            min (s.fld Reg.CIP_LANE_STAT_LANE_MISMATCHES + 1)
              (2 ^ (Reg.CIP_LANE_STAT_LANE_MISMATCHES.hi + 1 - Reg.CIP_LANE_STAT_LANE_MISMATCHES.lo) - 1))

/-- A gated write at the front of its key's gate with conditions found ends with the one that stands highest, carrying the
version held under VERSION_CONFLICT, and the directory is unchanged; only a write whose highest condition is NO_SPACE
or below, and whose quota lower writes of its owner may still change, waits. A PUT without conditions, chain or map
pages, whose lines the staging class and the gauge take, commits: the directory then holds the key with the variant at
the command's version and length, and the command ends OK with COPIES 1, its version and its LENGTH. A write that is
not at the front waits unchanged. From 05_ordering_and_completion.md (R174, R175, R176); 04_command_set.md (R140,
R142); 02_object_model.md (R54); 06_index_and_express_path.md (R213). -/
def Obligations.CommitGateDecides : Prop :=
  ∀ (s : State) (n ctx : Nat) (c : Cmd), s.cmd? n = some c → c.ctx = some ctx → c.orphan = false → c.stage = .gated →
      s.blockInReset .sch = false → s.blockInReset .idx = false → s.ldg.ready = true → s.sch.gate = [] →
      (s.atFront c = false → exec (.commitGate n) s = .next s) ∧
      (s.atFront c = true → c.copies = 0 → c.conds ++ s.gateConds c ≠ [] →
        (c.op = .delete ∨ s.quotaWaits c = false ∨ ∃ st ∈ c.conds ++ s.gateConds c, st.rank < Status.noSpace.rank) →
        ∃ t st, exec (.commitGate n) s = .next t ∧ st = reported (c.conds ++ s.gateConds c) ∧ t.idx.dir = s.idx.dir ∧
          Ended t n (c.filled { Outcome.of st with version := if st = .versionConflict then s.heldVersion c else 0 })) ∧
      (s.atFront c = true → c.copies = 0 → c.op = .put → c.conds = [] → s.gateConds c = [] → s.quotaWaits c = false →
        s.unplaceable c = false → c.act.template = 0 → c.act.expressPin = false → c.chain = none → c.maps = none →
        c.newPages (s.variantNow c) (c.newVariant (s.variantNow c)) = [] →
        s.stagingFits (s.recordAfter c).lines = true → s.tokensWaited n = false →
        s.metaAdmitted (s.pairLines ((s.recordAfter c).lines + commitLineCount (s.recordNow c) c.act.owner) - c.tokens) = true →
        ∃ t r v, exec (.commitGate n) s = .next t ∧ dirFind t.idx.dir (c.key.getD []) = some r ∧
          tget r.variants c.desc.variant = some v ∧ v.version = c.version ∧ v.length = c.desc.length ∧
          v.segs = c.newSegs ((s.variantNow c).map (·.segs) |>.getD []) ∧ r.owner = c.act.owner ∧
          Ended t n ⟨.ok, 1, c.version, c.desc.length, false, false⟩)

/-- A change that finds a free entry of the pending table, with none waiting before it, enters it and is written in copy
0; another waits. MIRROR_CHANGE_DONE takes the oldest pending change from the table, carries it out, and lets the
first waiting one in, unless the staging class has no lines for the record that it rewrites; a move gives the key's
entry in copy 1 the new location and releases the old one. With none pending nothing happens. From
06_index_and_express_path.md (R215, R217, R220, R221); 10_ledger.md (R348). -/
def Obligations.MirrorChangesTakeEffect : Prop :=
  (∀ (s : State) (c : MChange), 
      (s.idx.pending.length < 64 → s.idx.waiting = [] →
        (s.queueMirror c).idx = { s.idx with pending := s.idx.pending ++ [c], mirror0 := c.write s.idx.mirror0 }) ∧
      (64 ≤ s.idx.pending.length ∨ s.idx.waiting ≠ [] →
        (s.queueMirror c).idx = { s.idx with waiting := s.idx.waiting ++ [c] }) ∧
      OnlyChanges [.idx] s (s.queueMirror c)) ∧
    (∀ (s : State) (c : MChange) (rest : List MChange), s.idx.pending = c :: rest →
      (s.changeFits c = true → ∃ u : State, exec .mirrorChangeDone s = .next (((u.applyChange c).admitChange).serveRestores) ∧
        u.idx = { s.idx with pending := rest } ∧ OnlyChanges [.idx] s u) ∧
      (s.changeFits c = false → exec .mirrorChangeDone s = .next s)) ∧
    (∀ (s : State) (kh : W64) (key : Bytes) (loc old : Loc) (lines : Nat) (rest : List MChange),
      s.idx.pending = .move kh key loc old lines :: rest → s.sch.gate = [] →
      ∃ t, exec .mirrorChangeDone s = .next t ∧ t.idx.mirror1 = mirrorMove s.idx.mirror1 kh key loc ∧
        t.idx.dir = s.idx.dir ∧ t.idx.table = s.idx.table ∧
        OnlyChanges [.idx, .ldg, .ftl, .flt, .reg Reg.LDG_GAUGE_STAT_FALLBACKS.addr] s t ∧
        (s.idx.waiting = [] → t.idx.pending = rest ∧ t.idx.mirror0 = s.idx.mirror0) ∧
        (∀ w more, s.idx.waiting = w :: more → rest.length < 64 → t.idx.pending = rest ++ [w] ∧ t.idx.waiting = more ∧
          t.idx.mirror0 = w.write s.idx.mirror0)) ∧
    (∀ s : State, s.idx.pending = [] → exec .mirrorChangeDone s = .next s)

/-- While MCH is not locked, a write of MCH_CFG.CASCADE with no valid entry sets the field to its two bits, and
VALID_ENTRIES is then 0; with a valid entry it changes no register and no entry and records MATCH_CFG_IGNORED (source
324). A locked MCH ignores the write. Formalises R232. -/
def Obligations.CascadeWriteOnlyWhenEmpty : Prop :=
  ∀ (s : State) (value : Nat), Canonical s →
      (s.locked 0x80000 = false → s.mch.rules = [] → s.validEntries = 0 ∧
        ∃ t, exec (.cascadeWrite value) s = .next t ∧ t.fld Reg.MCH_CFG_CASCADE = value % 4 ∧
          OnlyChanges [.reg Reg.MCH_CFG_CASCADE.addr] s t) ∧
      (s.locked 0x80000 = false → s.mch.rules ≠ [] →
        ∃ t e, exec (.cascadeWrite value) s = .next t ∧ t.flt.raised = s.flt.raised ++ [e] ∧ e.src = 324 ∧
          OnlyChanges [.flt] s t) ∧
      (s.locked 0x80000 = true → exec (.cascadeWrite value) s = .next s)

/-- With no swatch armed and the directive not held back, a RULE_WRITE of an allowed action at a position of the mode
outside the running shift writes the entry of its shadow record there, to the shadow and to the die, and no other
position; RULE_CLEAR makes the position invalid; an allowed RULE_INSERT with no shift running becomes the shift with
its cursor at the block's end, and waits while one runs; EPOCH_SET of 0 to 15 sets the epoch. Each that completes
raises LOAD_GEN by one and answers DONE. A position outside the mode and an epoch above 15 are refused with source
325, the directive answers REFUSED and the arrays stay. From 07_match_engine.md (R242, R243, R244, R245, R246, R248,
R610); 14_engine_rings_and_setup.md (R460). -/
def Obligations.RulesAreLoaded : Prop :=
  ∀ (s : State) (d : Dir) (pos : Nat), Canonical s → s.heldBack 1 d = false → s.fld Reg.FLT_SWATCH_CTL_ARM = 0 → Tbl.wf s.mch.rules = true →
      Tbl.wf s.mch.shadow = true → pos < 2 ^ 19 →
      (∀ recs, pos < s.rulePositions → s.actionRefused (ruleOfRecords s.ruleSegs recs).action = false → s.inShift pos = false →
        ∃ u : State, exec (.ruleWrite d pos recs) s = .next (u.finish 1 d esDone []) ∧
          tget u.mch.rules pos = some (ruleOfRecords s.ruleSegs recs) ∧
          tget u.mch.shadow pos = some (ruleOfRecords s.ruleSegs recs) ∧
          (∀ x, x ≠ pos → tget u.mch.rules x = tget s.mch.rules x) ∧
          u.fld Reg.MCH_STATUS_LOAD_GEN = (s.fld Reg.MCH_STATUS_LOAD_GEN + 1) % 128) ∧
      (pos < s.rulePositions → s.inShift pos = false →
        ∃ u : State, exec (.ruleClear d pos) s = .next (u.finish 1 d esDone []) ∧ tget u.mch.rules pos = none ∧
          tget u.mch.shadow pos = none ∧ (∀ x, x ≠ pos → tget u.mch.rules x = tget s.mch.rules x) ∧
          u.fld Reg.MCH_STATUS_LOAD_GEN = (s.fld Reg.MCH_STATUS_LOAD_GEN + 1) % 128) ∧
      (s.rulePositions ≤ pos →
        (∃ (u : State) (e : Ev), exec (.ruleClear d pos) s = .next (u.finish 1 d esRefused []) ∧
          u.flt.raised = s.flt.raised ++ [e] ∧ e.src = 325 ∧ OnlyChanges [.flt] s u) ∧
        ∀ recs, ∃ (u : State) (e : Ev), exec (.ruleWrite d pos recs) s = .next (u.finish 1 d esRefused []) ∧
          u.flt.raised = s.flt.raised ++ [e] ∧ e.src = 325 ∧ OnlyChanges [.flt] s u) ∧
      (∀ last recs, last + 1 < 2 ^ 19 → s.mch.shift = none → s.mch.waitShift = [] → pos ≤ last + 1 →
        last + 1 < s.rulePositions → levelOf pos = levelOf (last + 1) → tget s.mch.rules (last + 1) = none →
        s.actionRefused (ruleOfRecords s.ruleSegs recs).action = false →
        ∃ t, exec (.ruleInsert d pos last recs) s = .next t ∧
          t.mch.shift = some ⟨pos, last + 1, ruleOfRecords s.ruleSegs recs, last + 1, s.flt.time, d⟩ ∧ t.mch.rules = s.mch.rules ∧
          OnlyChanges [.mch] s t) ∧
      (∀ last recs, last + 1 < 2 ^ 19 → s.mch.shift.isSome = true →
        ∃ t, exec (.ruleInsert d pos last recs) s = .next t ∧ t.mch.shift = s.mch.shift ∧
          t.mch.waitShift = s.mch.waitShift ++ [(d, pos, last + 1, ruleOfRecords s.ruleSegs recs)] ∧
          OnlyChanges [.mch] s t) ∧
      (∀ epoch, epoch ≤ 15 →
        ∃ u : State, exec (.epochSet d epoch) s = .next (u.finish 1 d esDone []) ∧ u.fld Reg.MCH_STATUS_EPOCH = epoch ∧
          u.fld Reg.MCH_STATUS_LOAD_GEN = (s.fld Reg.MCH_STATUS_LOAD_GEN + 1) % 128 ∧ u.mch = s.mch) ∧
      (∀ epoch, 15 < epoch →
        ∃ (u : State) (e : Ev), exec (.epochSet d epoch) s = .next (u.finish 1 d esRefused []) ∧
          u.flt.raised = s.flt.raised ++ [e] ∧ e.src = 325 ∧ OnlyChanges [.flt] s u)

/-- When a shift completes with no directive and no scrub read waiting behind it, no swatch armed, and dies that hold what
the shadow holds, the new entry stands at p, every entry from p up to the cursor stands one place higher, the others
stay, LOAD_GEN rises, no shift runs and its directive answers DONE. RULE_SEARCH, in its turn among the searches and
with every check of the enabled banks holding, returns HIT, MULTI, LOAD_GEN, the position and the action of the lowest
enabled entry at or after START that matches, or no hit; two parity failures in a row raise source 323 with the die of
the second instead. RULE_READ returns the entry as it lies on the die with its check status. Neither changes the
arrays. From 01_architecture.md (R24); 07_match_engine.md (R239, R241, R242, R246, R247, R251, R253, R255, R265);
14_engine_rings_and_setup.md (R609). -/
def Obligations.ShiftsAndReadsOfRules : Prop :=
  (∀ (s : State) (h : Shift), s.mch.shift = some h → s.fld Reg.FLT_SWATCH_CTL_ARM = 0 → Tbl.wf s.mch.rules = true →
      Tbl.wf s.mch.shadow = true → Canonical s → h.p ≤ h.cursor → h.cursor ≤ h.q →
      (∀ x, h.p ≤ x → x < h.cursor → tget s.mch.shadow x = tget s.mch.rules x) → s.mch.waitLoad = [] → s.mch.waitShift = [] →
      s.mch.scrubDue = [] →
      ∃ u : State, exec .shiftComplete s = .next (u.finish 1 h.dir esDone []) ∧ u.mch.shift = none ∧
        tget u.mch.rules h.p = some h.rule ∧
        (∀ x, h.p ≤ x → x < h.cursor → tget u.mch.rules (x + 1) = tget s.mch.rules x) ∧
        (∀ x, x < h.p ∨ h.cursor < x → tget u.mch.rules x = tget s.mch.rules x) ∧
        u.fld Reg.MCH_STATUS_LOAD_GEN = (s.fld Reg.MCH_STATUS_LOAD_GEN + 1) % 128) ∧
    (∀ (s : State) (d : Dir) (word : Bytes) (start mask : Nat) (parity : List Nat) (segs : List (BitVec 320)), start < 2 ^ 19 →
      s.heldBack 1 d = false → s.searchTurn false 2 = true → Tbl.wf s.mch.rules = true →
      (∀ e ∈ s.checkedRules mask, e.2.checksHold = true ∧ e.2.actionHolds = true) →
      segs = (List.range s.ruleSegs).map (fun i => BitVec.ofNat 320 (fieldAt word (40 * i) 40)) →
      ((parityDies parity).length < 2 → ∃ u : State, u.mch = { s.mch with rrSearch := 3 } ∧ OnlyChanges [.mch] s u ∧
        ((∀ e ∈ s.enabledRules mask, start ≤ e.1 → e.2.matchesWord segs = false) →
          exec (.ruleSearch d word start ⟨mask, parity⟩) s
            = .next (u.finish 1 d esDone ([0, 0] ++ leBytes 1 (s.fld Reg.MCH_STATUS_LOAD_GEN)))) ∧
        (∀ e ∈ s.enabledRules mask, start ≤ e.1 → e.2.matchesWord segs = true →
          (∀ f ∈ s.enabledRules mask, start ≤ f.1 → f.2.matchesWord segs = true → e.1 ≤ f.1) →
          ∃ multi : Bool, exec (.ruleSearch d word start ⟨mask, parity⟩) s
            = .next (u.finish 1 d esDone (leBytes 1 1 ++ leBytes 1 (if multi then 1 else 0) ++
                leBytes 1 (s.fld Reg.MCH_STATUS_LOAD_GEN) ++ zeros 1 ++ leBytes 4 e.1 ++ padTo 16 e.2.action)) ∧
            (multi = true ↔ ∃ f ∈ s.enabledRules mask, f.1 ≠ e.1 ∧ start ≤ f.1 ∧ f.2.matchesWord segs = true))) ∧
      (∀ d1 d2 more, parityDies parity = d1 :: d2 :: more →
        ∃ t, exec (.ruleSearch d word start ⟨mask, parity⟩) s = .next t ∧
          t.flt.raised = s.flt.raised ++ [⟨323, leBytes 1 d2⟩] ∧ OnlyChanges [.flt, .mch] s t)) ∧
    (∀ (s : State) (d : Dir) (pos : Nat) (r : Rule), s.heldBack 1 d = false → pos < 2 ^ 19 → pos < s.rulePositions →
      tget s.mch.rules pos = some r →
      exec (.ruleRead d pos) s = .next (s.finishExt 1 d (recordsOfRule r)
        (leBytes 1 (if r.checksHold && r.actionHolds then 0 else 1))))

/-- A scrub of a die whose one entry differs from its shadow record, with no write pending and no swatch armed, rewrites
it from the shadow, raises source 321 with the position and counts it, by MATCH_SCRUB and by SCRUB_NOW alike, each in
its turn among the searches; a scheduled scrub does nothing while a shedding stage is in force; an entry with a write
pending is left for a read after that write. A granted half is reloaded from the compiled image of its search: source
322 is raised with the half and its slot and it counts. HALF_WITHDRAW gives a half of the search that holds the most,
loaded with the new image, to the waiting search whose turn it is, among those that MAX_HALVES lets take another. From
07_match_engine.md (R241, R242, R253, R259, R261, R262); 16_power_thermal_and_shedding.md (R500); 01_architecture.md
(R23). -/
def Obligations.MatchUpkeep : Prop :=
  (∀ (s : State) (d : Dir) (pos mask : Nat) (r r0 : Rule), Canonical s → s.mch.rules = [(pos, r)] → tget s.mch.shadow pos = some r0 →
      r ≠ r0 → (s.diesOf pos).any (fun die => bitOf mask die) = true → s.writePending pos = false → s.badHalves = [] →
      s.fld Reg.FLT_SWATCH_CTL_ARM = 0 →
      (s.pwr.shed = 0 → s.searchTurn false 3 = true →
        ∃ t, exec (.matchScrub mask) s = .next t ∧
        t.mch = { s.mch with rules := [(pos, r0)], rrSearch := 0, scrubDue := s.mch.scrubDue.eraseDups } ∧
        t.flt.raised = s.flt.raised ++ [⟨321, leBytes 4 pos⟩] ∧
        t.fld Reg.MCH_ERR_STAT_SCRUB_FIXES = min (s.fld Reg.MCH_ERR_STAT_SCRUB_FIXES + 1)
          (2 ^ (Reg.MCH_ERR_STAT_SCRUB_FIXES.hi + 1 - Reg.MCH_ERR_STAT_SCRUB_FIXES.lo) - 1)) ∧
      (s.pwr.shed ≠ 0 → exec (.matchScrub mask) s = .next s) ∧
      (s.heldBack 1 d = false → s.searchTurn false 3 = true →
        ∃ u : State, exec (.scrubNow d mask) s = .next (u.finish 1 d esDone []) ∧
          u.mch = { s.mch with rules := [(pos, r0)], rrSearch := 0, scrubDue := s.mch.scrubDue.eraseDups } ∧
          u.flt.raised = s.flt.raised ++ [⟨321, leBytes 4 pos⟩] ∧
          u.fld Reg.MCH_ERR_STAT_SCRUB_FIXES = min (s.fld Reg.MCH_ERR_STAT_SCRUB_FIXES + 1)
            (2 ^ (Reg.MCH_ERR_STAT_SCRUB_FIXES.hi + 1 - Reg.MCH_ERR_STAT_SCRUB_FIXES.lo) - 1))) ∧
    (∀ (s : State) (d : Dir) (pos mask : Nat) (r : Rule), s.mch.rules = [(pos, r)] →
      (s.diesOf pos).any (fun die => bitOf mask die) = true → s.writePending pos = true → s.badHalves = [] → s.mch.scrubDue = [] →
      s.heldBack 1 d = false → s.searchTurn false 3 = true →
      exec (.scrubNow d mask) s
        = .next ((s.onMch fun m => { m with rrSearch := 0, scrubDue := [pos] }).finish 1 d esDone [])) ∧
    (∀ (s : State) (h slot : Nat), Canonical s → tget s.mch.halves h = some slot →
      ∃ t, exec (.matchStateReloaded h) s = .next t ∧ tget t.mch.lanes h = some ((tget s.mch.images slot).getD []) ∧
        (∀ x, x ≠ h → tget t.mch.lanes x = tget s.mch.lanes x) ∧ { t.mch with lanes := s.mch.lanes } = s.mch ∧
        t.flt.raised = s.flt.raised ++ [⟨322, leBytes 2 h ++ leBytes 2 slot⟩] ∧
        t.fld Reg.MCH_ERR_STAT_CHECK_FIXES = min (s.fld Reg.MCH_ERR_STAT_CHECK_FIXES + 1)
          (2 ^ (Reg.MCH_ERR_STAT_CHECK_FIXES.hi + 1 - Reg.MCH_ERR_STAT_CHECK_FIXES.lo) - 1)) ∧
    (∀ (s : State) (slot h w : Nat), s.mch.waitHalves ≠ [] → s.freeHalves = [] → s.mostHalves = some slot →
      (s.halvesOf slot).getLast? = some h → roundRobin s.mch.rrHalf s.halfTakers = some w →
      ∃ t, exec .halfWithdraw s = .next t ∧ tget t.mch.halves h = some w ∧
        tget t.mch.lanes h = some ((tget s.mch.images w).getD []) ∧
        (t.mch.waitHalves = s.mch.waitHalves ∨ w ∉ t.mch.waitHalves) ∧
        (∀ x, x ≠ h → tget t.mch.halves x = tget s.mch.halves x) ∧ t.mch.rrHalf = w + 1 ∧ OnlyChanges [.mch] s t)

/-- Without an alarm and not held back, on a tenant slot that holds no retired generation, no reference and no waiting
directive: KEY_GENERATE and KEY_IMPORT (of a key that unwraps under IMPORT_KEY) place a new root at serial + 1, epoch
0, counter 0 and the next generation and write the slot record, its root wrapped under DEVICE_KEK and its ceiling
2^20; KEY_ROLL of a LOADED slot keeps the root and serial, takes the next epoch and generation, zeroes the counter and
writes the record; KEY_ERASE empties the slot, keeps the serial and overwrites the record. Each answers DONE.
KEY_QUERY returns the state, generation, serial, epoch and counter. A slot that is not a tenant slot is refused with
source 424 and the directive's code, and no slot changes. From 09_cipher_and_key_slots.md (R299, R304, R305, R316,
R317, R319, R320). -/
def Obligations.KeyDirectives : Prop :=
  (∀ (s : State) (d : Dir) (n : Nat), n < 0x400 → s.heldBack 3 d = false → s.cip.alarm = false → (s.slot n).retired = [] →
      (s.slot n).waiting = [] → (s.slot n).refs = 0 → (s.slot n).untrusted = false →
      ((s.slot n).serial ≠ 0xFFFF →
        (∃ (u : State) (root : Bytes), exec (.keyGenerate d n) s = .next (u.finish 3 d esDone []) ∧
          u.slot n = { s.slot n with
            st := .loaded, root := root, serial := (s.slot n).serial + 1, epoch := 0, counter := 0
            gen := ((s.slot n).gen + 1) % 65536 } ∧
          tget u.ldg.kept.slotRecs n = some (SlotRec.bytes ⟨true, kwWrap (s.slot 0x400).root (padTo 32 root), 0,
            (s.slot n).serial + 1, 2 ^ 20⟩) ∧ ∀ m, m ≠ n → u.slot m = s.slot m) ∧
        ∀ wrapped root, (s.slot 0x401).st = .loaded → kwUnwrap (s.slot 0x401).root wrapped = some root →
          ∃ u : State, exec (.keyImport d n wrapped) s = .next (u.finish 3 d esDone []) ∧
            u.slot n = { s.slot n with
              st := .loaded, root := padTo 32 root, serial := (s.slot n).serial + 1, epoch := 0, counter := 0
              gen := ((s.slot n).gen + 1) % 65536 } ∧
            tget u.ldg.kept.slotRecs n = some (SlotRec.bytes ⟨true, kwWrap (s.slot 0x400).root (padTo 32 root), 0,
              (s.slot n).serial + 1, 2 ^ 20⟩) ∧ ∀ m, m ≠ n → u.slot m = s.slot m) ∧
      ((s.slot n).st = .loaded → (s.slot n).epoch ≠ 2 ^ 32 - 1 →
        ∃ u : State, exec (.keyRoll d n) s = .next (u.finish 3 d esDone []) ∧
          u.slot n = { s.slot n with
            epoch := (s.slot n).epoch + 1, counter := 0, gen := ((s.slot n).gen + 1) % 65536 } ∧
          tget u.ldg.kept.slotRecs n = some (SlotRec.bytes ⟨true, kwWrap (s.slot 0x400).root (padTo 32 (s.slot n).root),
            (s.slot n).epoch + 1, (s.slot n).serial, 2 ^ 20⟩) ∧
          ∀ m, m ≠ n → u.slot m = s.slot m) ∧
      ((s.slot n).st = .loaded →
        ∃ u : State, exec (.keyErase d n) s = .next (u.finish 3 d esDone []) ∧ (u.slot n).st = .empty ∧
          (u.slot n).root = zeros 32 ∧ (u.slot n).serial = (s.slot n).serial ∧
          tget u.ldg.kept.slotRecs n = some (SlotRec.bytes { s.slotRec n with
            loaded := false, wrapped := zeros 40, serial := (s.slot n).serial }) ∧
          ∀ m, m ≠ n → u.slot m = s.slot m)) ∧
    (∀ (s : State) (d : Dir) (n : Nat), s.heldBack 3 d = false → n ≤ 0x43F → s.flt.swatched = [] →
      exec (.keyQuery d n) s = .next (s.finish 3 d esDone (s.slot n).query)) ∧
    (∀ (s : State) (d : Dir) (n : Nat) (wrapped : Bytes) (c : Instr) (code : Nat), s.heldBack 3 d = false → 0x400 ≤ n →
      (c = .keyGenerate d n ∧ code = 1 ∨ c = .keyImport d n wrapped ∧ code = 2 ∨ c = .keyRoll d n ∧ code = 3 ∨
        c = .keyErase d n ∧ code = 4) →
      ∃ u : State, exec c s = .next (u.finish 3 d esRefused []) ∧
        u.flt.raised = s.flt.raised ++ [⟨424, leBytes 1 code ++ leBytes 2 n⟩] ∧ OnlyChanges [.flt] s u)

/-- BUF_SEAL of a LOADED tenant slot below its counter's end seals the buffer under the derived key of the slot's epoch
and the IV of its counter value, leaves the ciphertext in its place, raises the counter by one and returns the seal
word and the tag; when the cores of the first lane disagree, source 416 names it, its counter value is spent, and the
seal word holds the next one. BUF_OPEN under a word of the slot's serial leaves the plaintext in place when the tag
holds and answers DONE; else it clears the buffer and answers AUTH_FAILED. No byte of DRAM outside the buffer changes
before the answer, after which the freed lane goes to the next job. From 09_cipher_and_key_slots.md (R296, R297, R300,
R301, R302, R308, R316). -/
def Obligations.BuffersAreSealedAndOpened : Prop :=
  (∀ (s : State) (d : Dir) (n addr len : Nat) (aad data : Bytes), Canonical s → s.flt.swatched = [] → n < 0x400 → s.heldBack 3 d = false →
      s.cip.alarm = false → s.cip.restoreDone = true → s.freeLanes ≠ [] → addr + len ≤ dramBytes → len ≤ 65536 → aad.length ≤ 256 → (s.slot n).st = .loaded →
      (s.slot n).counter < counterEnd →
      (∃ (u : State) (tag : Bytes), exec (.bufSeal d n aad addr len ⟨data, []⟩) s
          = .next ((u.finishExt 3 d (SealWord.bytes ⟨(s.slot n).epoch, (s.slot n).serial, n, (s.slot n).counter⟩ ++ tag) []).fillLanes 16) ∧
        tag.length = 16 ∧ (u.slot n).counter = (s.slot n).counter + 1 ∧
        memReadN u.eng.dram addr len = padTo len (gcmSeal (derivedKey (s.slot n).root n (s.slot n).epoch)
          (sealIv (s.slot n).epoch (s.slot n).counter) aad (padTo len data)).1 ∧
        ∀ a, a < addr ∨ addr + len ≤ a → memRead u.eng.dram a = memRead s.eng.dram a) ∧
      (∀ lane, lane ∈ s.freeLanes → (s.slot n).counter + 1 < counterEnd →
        ∃ (u : State) (tag : Bytes), exec (.bufSeal d n aad addr len ⟨data, [lane]⟩) s
            = .next ((u.finishExt 3 d
              (SealWord.bytes ⟨(s.slot n).epoch, (s.slot n).serial, n, (s.slot n).counter + 1⟩ ++ tag) []).fillLanes 16) ∧
          (u.slot n).counter = (s.slot n).counter + 2 ∧
          (⟨416, leBytes 1 lane ++ leBytes 1 0⟩ : Ev) ∈ u.flt.raised)) ∧
    (∀ (s : State) (d : Dir) (addr len : Nat) (bad : List Nat) (word aad tag data : Bytes) (w : SealWord), Canonical s → s.flt.swatched = [] →
      w = parseSealWord (padTo 16 word) → w.slot < 0x400 → s.heldBack 3 d = false → s.cip.alarm = false →
      s.cip.restoreDone = true → s.freeLanes ≠ [] → addr + len ≤ dramBytes → len ≤ 65536 →
      aad.length ≤ 256 → (s.slot w.slot).st = .loaded → (s.slot w.slot).serial = w.serial →
      (∀ p, gcmOpen (derivedKey (s.slot w.slot).root w.slot w.epoch) (sealIv w.epoch w.counter) aad
          (padTo len data) (padTo 16 tag) = some p →
        ∃ u : State, exec (.bufOpen d word aad tag addr len ⟨data, bad⟩) s = .next ((u.finish 3 d esDone []).fillLanes 16) ∧
          memReadN u.eng.dram addr len = padTo len p ∧
          ∀ a, a < addr ∨ addr + len ≤ a → memRead u.eng.dram a = memRead s.eng.dram a) ∧
      (gcmOpen (derivedKey (s.slot w.slot).root w.slot w.epoch) (sealIv w.epoch w.counter) aad
          (padTo len data) (padTo 16 tag) = none →
        ∃ u : State, exec (.bufOpen d word aad tag addr len ⟨data, bad⟩) s = .next ((u.finish 3 d esAuthFailed []).fillLanes 16) ∧
          memReadN u.eng.dram addr len = zeros len ∧
          ∀ a, a < addr ∨ addr + len ≤ a → memRead u.eng.dram a = memRead s.eng.dram a))

/-- A retired generation without references leaves its slot. When the wait of an erase expires the slot is EMPTY without a
root or retired generation and its record keeps no root. A corrected slot error raises source 420; an uncorrectable
one restores the slot from its record with the counter at the recorded ceiling and raises 421; a slot that is ERASING
stays so, and one that SEC loads keeps its key (the model's choice, log 174). A preset with APPLY while ARM is set
puts the selected LOADED tenant slot's counter STEPS_LEFT below its end. An enabled alarm source (0x5A5A to
CIP_ALARM_SW, tamper, glitch) leaves every slot EMPTY with its serial and generation, empties the key cache, the
lanes' key registers and the DRBG, holds the alarm and raises 425; a tamper reports its detector first. From
09_cipher_and_key_slots.md (R299, R319, R320, R323, R324, R325, R327); 08_value_path_and_check_values.md (R293). -/
def Obligations.KeySlotsEnd : Prop :=
  (∀ (s : State) (n gen : Nat) (g : RetiredGen), (s.slot n).retired = [g] → g.gen = gen → g.refs = 0 → (s.slot n).st = .loaded →
      (s.slot n).waiting = [] →
      ∃ t, exec (.retiredGenRelease n gen) s = .next t ∧ t.slot n = { s.slot n with retired := [] } ∧
        (∀ e, e ≤ g.epoch → (n, g.serial, e) ∉ t.cip.cache) ∧ (∀ m, m ≠ n → t.slot m = s.slot m) ∧ OnlyChanges [.cip] s t) ∧
    (∀ (s : State) (n : Nat) (d : Dir), (s.slot n).st = .erasing → (s.slot n).eraseDirs = [d] → (s.slot n).waiting = [] →
      ∃ t u : State, exec (.eraseWaitExpiry n) s = .next t ∧ t = u.finish 3 d esDone [] ∧ (u.slot n).st = .empty ∧
        (u.slot n).root = zeros 32 ∧ (u.slot n).retired = [] ∧
        tget u.ldg.kept.slotRecs n = some (SlotRec.bytes { s.slotRec n with
          loaded := false, wrapped := zeros 40, serial := (s.slot n).serial }) ∧ (u.slot n).serial = (s.slot n).serial) ∧
    (∀ (s : State) (n : Nat), n ≤ 0x43F →
      (∃ t, exec (.slotEccError n .corrected) s = .next t ∧ t.flt.raised = s.flt.raised ++ [⟨420, leBytes 2 n⟩] ∧
        OnlyChanges [.flt] s t) ∧
      (isSecSlot n = true →
        ∃ t, exec (.slotEccError n .uncorrectable) s = .next t ∧ t.flt.raised = s.flt.raised ++ [⟨421, leBytes 2 n⟩] ∧
          OnlyChanges [.flt] s t) ∧
      (isSecSlot n = false → (s.slot n).st = .erasing →
        ∃ t, exec (.slotEccError n .uncorrectable) s = .next t ∧ (t.slot n).st = .erasing ∧ (t.slot n).root = zeros 32 ∧
          (⟨421, leBytes 2 n⟩ : Ev) ∈ t.flt.raised) ∧
      (isSecSlot n = false → (s.slot n).st ≠ .erasing → s.fld Reg.FLT_SWATCH_CTL_ARM = 0 →
        ∃ t, exec (.slotEccError n .uncorrectable) s = .next t ∧ (t.slot n).counter = (s.slotRec n).ceiling ∧
          (t.slot n).root = padTo 32 ((s.recRoot (s.slotRec n)).getD []) ∧ (t.slot n).epoch = (s.slotRec n).epoch ∧
          ((t.slot n).st = .loaded ↔ (s.slotRec n).loaded = true ∧ (s.recRoot (s.slotRec n)).isSome = true) ∧ (⟨421, leBytes 2 n⟩ : Ev) ∈ t.flt.raised)) ∧
    (∀ (s : State) (value : W32) (n : Nat), Canonical s → s.locked 0xF0000 = false → Reg.CIP_CTR_TEST_ARM.of value = 1 →
      Reg.CIP_CTR_TEST_APPLY.of value = 1 → s.fld Reg.CIP_SLOT_SEL_SLOT = n → n < 0x400 → (s.slot n).st = .loaded →
      ∃ t, exec (.cipCtrPreset value) s = .next t ∧
        (t.slot n).counter = counterEnd - Reg.CIP_CTR_TEST_STEPS_LEFT.of value ∧ (t.slotRec n).ceiling = counterEnd ∧
        t.fld Reg.CIP_CTR_TEST_STEPS_LEFT = Reg.CIP_CTR_TEST_STEPS_LEFT.of value ∧ ∀ m, m ≠ n → t.slot m = s.slot m) ∧
    (∀ (s : State) (c : Instr) (bits : Nat) (pre : List Ev),
      (c = .cipAlarmSwWrite 0x5A5A ∧ bits = 16 ∧ pre = [] ∨ c = .glitchDetected ∧ bits = 2 ∧ pre = [] ∨
        ∃ x, c = .tamperDetected x ∧ bits = 1 ∧ pre = [⟨1098, leBytes 1 x⟩]) →
      s.fld Reg.CIP_ALARM_EN_ENABLE &&& bits = bits → s.cip.waitRestore = [] →
      (∀ e ∈ s.cip.slots, e.2.waiting = [] ∧ e.2.eraseDirs = []) →
      ∃ t, exec c s = .next t ∧ t.cip.alarm = true ∧ t.cip.cache = [] ∧
        t.cip.alarmSources = s.cip.alarmSources ||| BitVec.ofNat 5 bits ∧
        (∀ n, (t.slot n).st = .empty ∧ (t.slot n).root = zeros 32 ∧ (t.slot n).serial = (s.slot n).serial ∧
          (t.slot n).gen = (s.slot n).gen ∧ (t.slot n).retired = []) ∧
        (∃ more, t.flt.raised = s.flt.raised ++ pre ++ more ++ [⟨425, leBytes 1 bits⟩] ∧ ∀ e ∈ more, e.src = 520) ∧
        t.cip.drbg = false ∧ t.cip.laneKeys = [] ∧
        OnlyChanges [.cip, .ldg, .flt, .reg Reg.LDG_UNMETERED_LINES.addr] s t)

/-- UNPIN of a pinned key queues a mirror change and waits; of a key that is absent or not pinned it answers at once with
outcome 1 or 2. PIN of an absent key answers 1, of a pinned one 2, of one that may not be pinned 3 with source 292,
else it queues the change. REBUILD of an empty directory clears table and mirror but for the pending changes in copy 0
and answers DONE; with records in directory pages it goes on at the pages, and its directive waits. REPAIR_POISON
empties the poison list and returns how many buckets it rebuilt. MIRROR_SCRUB with no change pending leaves the two
copies equal, and waits while a shedding stage is in force. From 06_index_and_express_path.md (R220, R224, R225, R227,
R228); 14_engine_rings_and_setup.md (R609). -/
def Obligations.IndexDirectives : Prop :=
  (∀ (s : State) (d : Dir) (key : Bytes), s.heldBack 0 d = false →
      (dirFind s.idx.dir key = none →
        exec (.unpin d key) s = .next (s.finish 0 d esDone [1]) ∧ exec (.pin d key) s = .next (s.finish 0 d esDone [1])) ∧
      (∀ r, dirFind s.idx.dir key = some r → r.pinned = false →
        exec (.unpin d key) s = .next (s.finish 0 d esDone [2]) ∧
        (∀ reason, s.pinRefusal r r.owner = some reason →
          ∃ (u : State) (e : Ev), exec (.pin d key) s = .next (u.finish 0 d esDone [3]) ∧
            u.flt.raised = s.flt.raised ++ [e] ∧ e.src = 292 ∧ OnlyChanges [.flt] s u) ∧
        (s.pinRefusal r r.owner = none → s.idx.pending.length < 64 → s.idx.waiting = [] →
          ∃ t, exec (.pin d key) s = .next t ∧ t.idx = { s.idx with
            pending := s.idx.pending ++ [.pin r.kh key 0 (some d) false]
            mirror0 := (MChange.pin r.kh key 0 (some d) false).write s.idx.mirror0 } ∧ OnlyChanges [.idx] s t)) ∧
      (∀ r, dirFind s.idx.dir key = some r → r.pinned = true →
        exec (.pin d key) s = .next (s.finish 0 d esDone [2]) ∧
        (s.idx.pending.length < 64 → s.idx.waiting = [] →
          ∃ t, exec (.unpin d key) s = .next t ∧ t.idx = { s.idx with
            pending := s.idx.pending ++ [.unpin r.kh key (some d)]
            mirror0 := (MChange.unpin r.kh key (some d)).write s.idx.mirror0 } ∧ OnlyChanges [.idx] s t))) ∧
    (∀ (s : State) (d : Dir), s.heldBack 0 d = false → s.idx.rebuildDir = [] →
      (s.idx.dir = [] →
        ∃ u : State, exec (.rebuild d) s = .next (u.finish 0 d esDone []) ∧ u.idx.rebuilding = false ∧
          u.idx.tableReady = true ∧ u.idx.mirrorReady = true ∧ u.idx.table = [] ∧
          u.idx.mirror0 = s.idx.pending.foldl (fun t c => c.write t) [] ∧ u.idx.mirror1 = [] ∧ u.idx.poison = [] ∧ OnlyChanges [.idx] s u) ∧
      (s.idx.dir ≠ [] → (∀ r ∈ s.idx.dir, pageHeld r = true) →
        ∃ t, exec (.rebuild d) s = .next t ∧ t.idx.rebuilding = true ∧ t.idx.tableReady = false ∧
          t.idx.mirrorReady = false ∧ t.idx.rebuildDir = [d] ∧ t.idx.dir = s.idx.dir ∧ OnlyChanges [.idx] s t)) ∧
    (∀ (s : State) (d : Dir), s.heldBack 0 d = false →
      ∃ u : State, exec (.repairPoison d) s = .next (u.finish 0 d esDone (leBytes 4 s.idx.poison.length)) ∧
        u.idx.poison = [] ∧ u.idx.dir = s.idx.dir ∧ u.idx.mirror0 = s.idx.mirror0 ∧ OnlyChanges [.idx] s u) ∧
    (∀ (s : State) (d : Dir), s.heldBack 0 d = false → Tbl.wf s.idx.mirror0 = true → Tbl.wf s.idx.mirror1 = true →
      (∀ b, (bget s.idx.mirror0 b).length = 8 ∧ (bget s.idx.mirror1 b).length = 8) →
      (s.pwr.shed = 0 → s.idx.pending = [] →
        ∃ (u : State) (k : Nat), exec (.mirrorScrub d) s = .next (u.finish 0 d esDone (leBytes 4 k)) ∧
          (∀ b, bget u.idx.mirror0 b = bget u.idx.mirror1 b) ∧ u.idx.dir = s.idx.dir ∧ OnlyChanges [.idx] s u) ∧
      (s.pwr.shed ≠ 0 → exec (.mirrorScrub d) s = .next s))

/-- PEER_WRITE of an entry with legal PSTATE and DOMAIN stores it under its ID and touches PEER alone, but when it relinks
an ENABLED peer it frees that peer's queue pairs and takes it DOWN; PLACE_WRITE of 1 to 4,096 entries within the
65,536 slots loads each slot or makes it invalid; TEMPLATE_WRITE of a legal record stores it; DOMAIN_LOAD waits for
RESTORE_DONE and else imports the key into its slot, or CIP refuses it with source 424; RESYNC_RANGE of a range with
one key sends its chained variant to the first peer of its path, when it can be read, and returns the keys sent, and
of a range without a chained variant 0. Each answers DONE. An illegal one of the five is refused with source 1035 and
its code, and RESYNC_RANGE waits while forwarding is suspended. From 13_peer_chains.md (R419, R425, R426, R443, R613);
09_cipher_and_key_slots.md (R317); 08_value_path_and_check_values.md (R285); 14_engine_rings_and_setup.md (R469). -/
def Obligations.PeerDirectives : Prop :=
  (∀ (s : State) (d : Dir) (entry : Bytes) (id : Nat), s.heldBack 6 d = false → Tbl.wf s.nfe.qps = true → id = fieldAt (padTo 64 entry) 0 2 % 4096 →
      ((parsePeer (padTo 64 entry)).pstate ≤ 2 → (parsePeer (padTo 64 entry)).domain ≤ 47 →
        ∃ u : State, exec (.peerWrite d entry) s = .next (u.finish 6 d esDone []) ∧
          tget u.peer.entries id = some (parsePeer (padTo 64 entry)) ∧
          (∀ x, x ≠ id → tget u.peer.entries x = tget s.peer.entries x) ∧
          ((∀ old, tget s.peer.entries id = some old → relinks old (parsePeer (padTo 64 entry)) = false) → OnlyChanges [.peer] s u) ∧
          (∀ old, tget s.peer.entries id = some old → relinks old (parsePeer (padTo 64 entry)) = true →
            Tbl.wf s.peer.live = true → u.peerLive id = .down ∧ ∀ x ∈ s.peerCtxs id, u.qp? x = none)) ∧
      (2 < (parsePeer (padTo 64 entry)).pstate ∨ 47 < (parsePeer (padTo 64 entry)).domain →
        ∃ u : State, exec (.peerWrite d entry) s = .next (u.finish 6 d esRefused []) ∧
          u.flt.raised = s.flt.raised ++ [⟨1035, leBytes 1 1⟩] ∧ OnlyChanges [.flt] s u)) ∧
    (∀ (s : State) (d : Dir) (first : Nat) (entries : List W64), s.heldBack 6 d = false → Tbl.wf s.peer.places = true →
      (1 ≤ entries.length → entries.length ≤ 4096 → first + entries.length ≤ 65536 →
        ∃ u : State, exec (.placeWrite d first entries) s = .next (u.finish 6 d esDone []) ∧
          (∀ i w, entries[i]? = some w → tget u.peer.places (first + i) = parsePlace w) ∧
          (∀ x, x < first ∨ first + entries.length ≤ x → tget u.peer.places x = tget s.peer.places x) ∧
          OnlyChanges [.peer] s u) ∧
      (entries.length < 1 ∨ 4096 < entries.length ∨ 65536 < first + entries.length →
        ∃ u : State, exec (.placeWrite d first entries) s = .next (u.finish 6 d esRefused []) ∧
          u.flt.raised = s.flt.raised ++ [⟨1035, leBytes 1 2⟩] ∧ OnlyChanges [.flt] s u)) ∧
    (∀ (s : State) (d : Dir) (number depth policy timeout : Nat) (repair : Bool) (record : Bytes), s.heldBack 6 d = false →
      fieldAt (padTo 8 record) 0 1 = depth → fieldAt (padTo 8 record) 1 1 = policy → fieldAt (padTo 8 record) 2 2 = timeout →
      bitOf (fieldAt (padTo 8 record) 4 1) 0 = repair →
      (1 ≤ number → number ≤ 255 → 1 ≤ depth → depth ≤ 3 → policy ≤ 1 → timeout ≤ 1000 →
        ∃ u : State, exec (.templateWrite d number record) s = .next (u.finish 6 d esDone []) ∧
          tget u.peer.templates number = some ⟨depth, decide (policy = 1), timeout, repair⟩ ∧
          (∀ x, x ≠ number → tget u.peer.templates x = tget s.peer.templates x) ∧ OnlyChanges [.peer] s u) ∧
      (number < 1 ∨ 255 < number ∨ depth < 1 ∨ 3 < depth ∨ 1 < policy ∨ 1000 < timeout →
        ∃ u : State, exec (.templateWrite d number record) s = .next (u.finish 6 d esRefused []) ∧
          u.flt.raised = s.flt.raised ++ [⟨1035, leBytes 1 3⟩] ∧ OnlyChanges [.flt] s u)) ∧
    (∀ (s : State) (d : Dir) (domain : Nat) (wrapped : Bytes), s.heldBack 6 d = false →
      (47 < domain → ∃ u : State, exec (.domainLoad d domain wrapped) s = .next (u.finish 6 d esRefused []) ∧
        u.flt.raised = s.flt.raised ++ [⟨1035, leBytes 1 4⟩] ∧ OnlyChanges [.flt] s u) ∧
      (domain ≤ 47 → s.cip.alarm = true ∨ (s.cip.restoreDone = true ∧ (s.slot (0x410 + domain)).retired = [] ∧
          (s.slot (0x410 + domain)).waiting = [] ∧ ((s.slot (0x410 + domain)).serial = 0xFFFF ∨ (s.slot 0x401).st ≠ .loaded ∨
            kwUnwrap (s.slot 0x401).root wrapped = none)) →
        ∃ u : State, exec (.domainLoad d domain wrapped) s = .next (u.finish 6 d esRefused []) ∧
          u.flt.raised = s.flt.raised ++ [⟨424, leBytes 1 2 ++ leBytes 2 (0x410 + domain)⟩] ∧ OnlyChanges [.flt] s u)) ∧
    (∀ (s : State) (d : Dir) (domain : Nat) (wrapped root : Bytes), s.heldBack 6 d = false → domain ≤ 47 → s.cip.alarm = false →
      (s.cip.restoreDone = false →
        ∃ t, exec (.domainLoad d domain wrapped) s = .next t ∧
          t.cip.waitRestore = s.cip.waitRestore ++ [(d, domain, wrapped)] ∧ OnlyChanges [.cip] s t) ∧
      (s.cip.restoreDone = true → (s.slot (0x410 + domain)).retired = [] → (s.slot (0x410 + domain)).waiting = [] →
        (s.slot (0x410 + domain)).serial ≠ 0xFFFF → (s.slot 0x401).st = .loaded →
        kwUnwrap (s.slot 0x401).root wrapped = some root →
        ∃ u : State, exec (.domainLoad d domain wrapped) s = .next (u.finish 6 d esDone []) ∧
          (u.slot (0x410 + domain)).st = .loaded ∧ (u.slot (0x410 + domain)).root = padTo 32 root ∧
          ∀ m, m ≠ 0x410 + domain → u.slot m = s.slot m)) ∧
    (∀ (s : State) (d : Dir) (a b : W64), s.heldBack 6 d = false →
      (b < a → ∃ u : State, exec (.resyncRange d a b) s = .next (u.finish 6 d esRefused []) ∧
        u.flt.raised = s.flt.raised ++ [⟨1035, leBytes 1 5⟩] ∧ OnlyChanges [.flt] s u) ∧
      (a ≤ b → s.peer.suspended = true → exec (.resyncRange d a b) s = .next s) ∧
      (a ≤ b → s.peer.suspended = false → (∀ r ∈ s.idx.dir, r.kh < a ∨ b < r.kh ∨ ∀ e ∈ r.variants, e.2.template = 0) →
        exec (.resyncRange d a b) s = .next (s.finish 6 d esDone (leBytes 8 0))) ∧
      (∀ r i v, a ≤ b → s.peer.suspended = false → (s.idx.dir.filter fun x => decide (a ≤ x.kh) && decide (x.kh ≤ b)) = [r] →
        r.variants = [(i, v)] → v.template ≠ 0 →
        exec (.resyncRange d a b) s
          = .next ((s.resyncVariant r i v).2.finish 6 d esDone (leBytes 8 (if (s.resyncVariant r i v).1 then 1 else 0)))) ∧
      (∀ r i v t p ps bytes u, tget s.peer.templates v.template = some t → s.headPath r.kh t.depth = p :: ps →
        s.variantBytes r i v = (some bytes, u) →
        s.resyncVariant r i v = (true, u.sendPeer p 1 (resyncMsg r i v (p :: ps) t.best bytes))))

/-- In the turn of ENG at the issue arbiter, TENANT_WRITE of a record with a legal state stores it for its tenant, whose
usage and the other tenants' records stay; a reserved state is refused. TENANT_READ returns the record with the usage
fields. SECRET_LOAD of a secret that unwraps under IMPORT_KEY holds it for the tenant, and is refused while slot 0x401
is EMPTY; SECRET_CLEAR removes it. Held back or out of turn each of the four waits. In its turn at VAL, CHECK_COMPUTE
of CRC-32C, CRC-64 or CRC-16 over at most 16 MiB of DRAM group B returns the check value; a reserved algorithm or a
longer buffer is refused with source 389. From 14_engine_rings_and_setup.md (R458, R464);
05_ordering_and_completion.md (R201); 02_object_model.md (R64, R68); 03_client_queues.md (R97);
08_value_path_and_check_values.md (R268, R292). -/
def Obligations.TenantDirectivesAndChecks : Prop :=
  (∀ (s : State) (d : Dir) (record : Bytes), s.heldBack 7 d = false → s.engTurn = true →
      ((parseTenant (padTo 64 record)).st ≤ 2 → (parseTenant (padTo 64 record)).st ≠ 0 →
        ∃ u : State, exec (.tenantWrite d record) s = .next (u.finish 7 d esDone []) ∧
          u.tenant (tenantIdOf (padTo 64 record)) = parseTenant (padTo 64 record) ∧
          (∀ x, x ≠ tenantIdOf (padTo 64 record) → u.tenant x = s.tenant x) ∧ u.sch.usage = s.sch.usage ∧
          OnlyChanges [.sch] s u) ∧
      ((parseTenant (padTo 64 record)).st = 0 → s.nfe.qps = [] →
        ∃ u : State, exec (.tenantWrite d record) s = .next (u.finish 7 d esDone []) ∧
          (u.tenant (tenantIdOf (padTo 64 record))).st = 0 ∧ OnlyChanges [.sch] s u) ∧
      (2 < (parseTenant (padTo 64 record)).st →
        ∃ u : State, exec (.tenantWrite d record) s = .next (u.finish 7 d esRefused []) ∧
          u.sch.tenants = s.sch.tenants ∧ OnlyChanges [.sch] s u)) ∧
    (∀ (s : State) (d : Dir) (record wrapped : Bytes) (tenant : Nat), s.heldBack 7 d = true ∨ s.engTurn = false →
      exec (.tenantWrite d record) s = .next s ∧ exec (.tenantRead d tenant) s = .next s ∧
      exec (.secretLoad d tenant wrapped) s = .next s ∧ exec (.secretClear d tenant) s = .next s) ∧
    (∀ (s g : State) (d : Dir) (tenant : Nat), s.heldBack 7 d = false → s.engTurn = true →
      g = s.onSch (fun h => { h with rrClass := classPointer h.rrClass s.engClass, rrIssue := 0 }) →
      (tenant < 1024 → exec (.tenantRead d tenant) s
        = .next (g.finishExt 7 d (tenantBytes tenant (s.tenant tenant) (s.usageOf tenant)) [])) ∧
      (1024 ≤ tenant → exec (.tenantRead d tenant) s = .next (g.finish 7 d esRefused [])) ∧
      (Tbl.wf s.sch.secrets = true →
        ∃ u : State, exec (.secretClear d tenant) s = .next (u.finish 7 d esDone []) ∧ tget u.sch.secrets tenant = none ∧
          (∀ x, x ≠ tenant → tget u.sch.secrets x = tget s.sch.secrets x) ∧ u.nfe = s.nfe ∧ OnlyChanges [.sch] s u) ∧
      ∀ wrapped k, kwUnwrap (s.slot 0x401).root (padTo 40 wrapped) = some k → tenant < 1024 →
        ((s.slot 0x401).st = .loaded →
          ∃ u : State, exec (.secretLoad d tenant wrapped) s = .next (u.finish 7 d esDone []) ∧
            tget u.sch.secrets tenant = some (padTo 32 k) ∧
            (∀ x, x ≠ tenant → tget u.sch.secrets x = tget s.sch.secrets x) ∧ OnlyChanges [.sch] s u) ∧
        ((s.slot 0x401).st = .empty →
          exec (.secretLoad d tenant wrapped) s = .next (g.finish 7 d esRefused []))) ∧
    (∀ (s : State) (d : Dir) (addr len algo : Nat) (fold : W64) (data : Bytes), s.heldBack 2 d = false →
      (algo ≤ 2 → len ≤ 16777216 → addr + len ≤ dramBytes →
        s.valTurn (decide (SvcClass.ofCode (s.fld (Reg.ENG_RING_CFG_CLASS 2)) = .express)) 3 = true →
        ∃ u : State, exec (.checkCompute d addr len algo fold data) s
            = .next (u.finish 2 d esDone (leBytes 8 (checkValue algo fold (padTo len data)))) ∧
          { u.val with rr := s.val.rr } = s.val ∧ OnlyChanges [.val] s u) ∧
      (2 < algo ∨ 16777216 < len →
        ∃ (u : State) (e : Ev), exec (.checkCompute d addr len algo fold data) s = .next (u.finish 2 d esRefused []) ∧
          u.flt.raised = s.flt.raised ++ [e] ∧ e.src = 389 ∧ OnlyChanges [.flt] s u))

/-- An answer to the management port is sent there, one to an admin queue pair ends its command with the status, RESULT1
and VALID_BYTES. IDENTIFY answers OK with the first LENGTH bytes of the identity block. ATTEST, with a leaf, a budget
and its requester's interval passed, spends one leaf and one token, keeps both in the leaf record and answers the
quote of that leaf; with a buffer under 3,144 bytes it answers nothing and spends nothing; within the interval it
answers SHED with the wait, and with no token left with the longer of that and the wait for the next token; with no
leaf left it answers SHED with 0xFFFFFFFF. REC_READ answers the records from its first row. A queue pair's command
takes its length, nonce and first row from its descriptor. The refill adds one token while the budget is below its
depth, and the next is due 86.4 s later. From 19_identity_attestation_and_update.md (R562, R564, R565, R566, R567,
R568); 18_event_recorder.md (R550, R551); 04_command_set.md (R168). -/
def Obligations.AdminReadsAnswer : Prop :=
  (∀ (s : State) (a : AdminAns), s.answer .mgmt a = s.send (.mgmt a.status a.result1 a.output)) ∧
    (∀ (s : State) (n ctx : Nat) (c : Cmd) (a : AdminAns), s.cmd? n = some c → c.ctx = some ctx → c.orphan = false →
      c.stage = .started → Ended (s.answer (.qp n) a) n (c.filled ⟨a.status, a.result1, 0, a.validBytes, false, false⟩)) ∧
    (∀ (s : State) (via : AdminVia) (length : Nat), AdminReady s via .identify →
      exec (.identify via length) s = .next (s.answer via (.ok 0 (s.identityBlock.take (s.adminLength via length))))) ∧
    (∀ (s : State) (via : AdminVia) (nonce : Bytes) (length : Nat), AdminReady s via .attest → s.ldg.ready = true →
      (s.sec.exhausted = true → exec (.attest via nonce length) s = .next (s.answer via (.plain .shed 0xFFFFFFFF))) ∧
      (s.sec.exhausted = false → s.adminLength via length < 3144 → exec (.attest via nonce length) s = .next (s.answer via (.plain .ok 0))) ∧
      (s.sec.exhausted = false → 3144 ≤ s.adminLength via length → s.intervalWait (s.adminSource via) ≠ 0 → 0 < s.sec.budget →
        exec (.attest via nonce length) s
          = .next (s.answer via (.plain .shed (s.intervalWait (s.adminSource via))))) ∧
      (s.sec.exhausted = false → 3144 ≤ s.adminLength via length → s.sec.budget = 0 →
        exec (.attest via nonce length) s
          = .next (s.answer via (.plain .shed (max (s.intervalWait (s.adminSource via)) s.tokenWait)))) ∧
      (s.sec.exhausted = false → 3144 ≤ s.adminLength via length → s.intervalWait (s.adminSource via) = 0 → 0 < s.sec.budget →
        ∃ u : State, exec (.attest via nonce length) s
            = .next (u.answer via (.ok 0 (s.quote (s.adminSource via) s.sec.nextLeaf (s.adminNonce via nonce)))) ∧
          u.sec.nextLeaf = s.sec.nextLeaf + 1 ∧ u.sec.budget = s.sec.budget - 1 ∧
          u.ldg.kept.leaf = some (s.sec.nextLeaf + 1, s.sec.budget - 1) ∧
          tget u.sec.lastAttest (s.adminSource via) = some s.flt.time ∧
          (⟨1088, leBytes 1 (s.adminSource via) ++ leBytes 4 s.sec.nextLeaf⟩ : Ev) ∈ u.flt.raised)) ∧
    (∀ (s : State) (via : AdminVia) (first length row room : Nat), AdminReady s via .recRead → s.flt.swatched = [] →
      row = ((s.adminDesc via).map (·.param0)).getD first → room = s.adminLength via length →
      exec (.recRead via first length) s
        = .next (s.answer via (.ok (s.readResult row room).2 (s.readResult row room).1))) ∧
    (∀ s : State, s.sec.budget < s.budgetDepth →
      ∃ t, exec .attestTokenRefill s = .next t ∧ t.sec = { s.sec with budget := s.sec.budget + 1, tokenAt := s.flt.time } ∧
        OnlyChanges [.sec] s t) ∧
    (∀ s : State, s.budgetDepth ≤ s.sec.budget →
      ∃ t, exec .attestTokenRefill s = .next t ∧ t.sec = { s.sec with tokenAt := s.flt.time } ∧ OnlyChanges [.sec] s t)

/-- OWNER_CHALLENGE keeps a fresh challenge with its time and returns it. OWNER_AUTH with the right response to a valid
challenge returns a reference that is kept for its purpose; a wrong one is refused with source 1099 and keeps nothing.
From the management port OWNER_SET on a drive without owner installs the key and, without an alarm, IMPORT_KEY, whose
serial rises; on an owned drive it needs a reference of purpose 2, and without one is refused with source 1099; from a
ring it is refused. OWNER_LOCK is set without a reference; clearing it, OWNER_ERASE and REC_CLEAR each consume a valid
reference of their purpose and take effect, and without one are refused with source 1099 and change nothing else.
REC_CLEAR raises the clear floor to the row asked for. A directive of a ring starts only after those issued before it,
so that one that comes early changes nothing. From 19_identity_attestation_and_update.md (R569, R570);
09_cipher_and_key_slots.md (R299, R324, R327); 18_event_recorder.md (R558); 14_engine_rings_and_setup.md (R457). -/
def Obligations.OwnerDirectives : Prop :=
  (∀ (s : State) (via : OwnerVia) (requester : Nat), (∀ d, via = .ring d → s.early 9 d = false) →
      ∃ (u : State) (c : Bytes), exec (.ownerChallenge via requester) s = .next (u.ownerAnswer via true c) ∧ c.length = 16 ∧
        u.sec = { s.sec with challenges := tset s.sec.challenges requester (c, s.flt.time) } ∧ OnlyChanges [.sec] s u) ∧
    (∀ (s : State) (via : OwnerVia) (requester purpose : Nat) (response k c : Bytes), (∀ d, via = .ring d → s.early 9 d = false) →
      s.ldg.kept.ownerKey = some k →
      s.challengeOf requester = some c →
      (ownerResponse k c purpose = response →
        ∃ (u : State) (ref : Nat), exec (.ownerAuth via requester purpose response) s
            = .next (u.ownerAnswer via true (leBytes 4 ref)) ∧
          tget s.sec.refs ref = none ∧ u.sec = { s.sec with refs := tset s.sec.refs ref (purpose, s.flt.time) } ∧
          OnlyChanges [.sec] s u) ∧
      (ownerResponse k c purpose ≠ response →
        ∃ u : State, exec (.ownerAuth via requester purpose response) s = .next (u.ownerAnswer via false []) ∧
          u.flt.raised = s.flt.raised ++ [⟨1099, leBytes 1 requester ++ leBytes 1 purpose⟩] ∧ OnlyChanges [.flt] s u)) ∧
    (∀ (s : State) (d : Dir) (key : Bytes) (ref : Nat),
      (s.early 9 d = false → exec (.ownerSet (.ring d) key ref) s = .next (s.ownerAnswer (.ring d) false [])) ∧
      (s.ldg.kept.ownerKey = none →
        ∃ u : State, exec (.ownerSet .mgmt key ref) s = .next (u.ownerAnswer .mgmt true []) ∧
          u.ldg.kept.ownerKey = some (padTo 32 key) ∧
          (s.cip.alarm = false → (u.slot 0x401).st = .loaded ∧ (u.slot 0x401).root = importKey (padTo 32 key)) ∧
          (s.cip.alarm = true → (u.slot 0x401).st = (s.slot 0x401).st ∧ (u.slot 0x401).root = (s.slot 0x401).root) ∧
          (u.slot 0x401).serial = min 0xFFFF ((s.slot 0x401).serial + 1)) ∧
      (s.ldg.kept.ownerKey.isSome = true → s.refValid ref 2 = true →
        ∃ u : State, exec (.ownerSet .mgmt key ref) s = .next (u.ownerAnswer .mgmt true []) ∧
          u.ldg.kept.ownerKey = some (padTo 32 key) ∧ u.sec = { s.sec with refs := tdel s.sec.refs ref }) ∧
      (s.ldg.kept.ownerKey.isSome = true → s.refValid ref 2 = false →
        ∃ u : State, exec (.ownerSet .mgmt key ref) s = .next (u.ownerAnswer .mgmt false []) ∧
          u.flt.raised = s.flt.raised ++ [⟨1099, leBytes 1 2 ++ leBytes 1 2⟩] ∧ OnlyChanges [.flt] s u)) ∧
    (∀ (s : State) (via : OwnerVia) (ref : Nat), (∀ d, via = .ring d → s.early 9 d = false) →
      (∃ u : State, exec (.ownerLock via true ref) s = .next (u.ownerAnswer via true []) ∧
        u.sec = { s.sec with ownerLock := true } ∧ OnlyChanges [.sec] s u) ∧
      (s.refValid ref 3 = true →
        ∃ u : State, exec (.ownerLock via false ref) s = .next (u.ownerAnswer via true []) ∧
          u.sec = { s.sec with ownerLock := false, refs := tdel s.sec.refs ref } ∧ OnlyChanges [.sec] s u) ∧
      (s.refValid ref 3 = false →
        ∃ (u : State) (e : Ev), exec (.ownerLock via false ref) s = .next (u.ownerAnswer via false []) ∧
          u.flt.raised = s.flt.raised ++ [e] ∧ e.src = 1099 ∧ OnlyChanges [.flt] s u) ∧
      (s.refValid ref 4 = true →
        ∃ u : State, exec (.ownerErase via ref) s = .next ((u.cipAlarm 16).ownerAnswer via true []) ∧
          u.sec = { s.sec with refs := tdel s.sec.refs ref } ∧ OnlyChanges [.sec] s u) ∧
      (s.refValid ref 4 = false →
        ∃ (u : State) (e : Ev), exec (.ownerErase via ref) s = .next (u.ownerAnswer via false []) ∧
          u.flt.raised = s.flt.raised ++ [e] ∧ e.src = 1099 ∧ OnlyChanges [.flt] s u)) ∧
    (∀ (s : State) (d : Dir) (clearTo requester ref : Nat), s.early 8 d = false →
      (s.refValid ref 1 = true → s.ldg.kept.clearFloor ≤ clearTo → clearTo ≤ s.recorder.rowNext →
        ∃ u : State, exec (.recClear d clearTo requester ref) s = .next (u.finish 8 d esDone []) ∧
          u.ldg.kept.clearFloor = clearTo ∧ u.sec = { s.sec with refs := tdel s.sec.refs ref }) ∧
      (s.refValid ref 1 = false →
        ∃ u : State, exec (.recClear d clearTo requester ref) s = .next (u.finish 8 d esRefused []) ∧
          u.flt.raised = s.flt.raised ++ [⟨1099, leBytes 1 requester ++ leBytes 1 1⟩, ⟨549, leBytes 1 2 ++ leBytes 1 requester⟩] ∧
          OnlyChanges [.flt] s u)) ∧
    (∀ (s : State) (d : Dir) (a b c : Nat) (x : Bytes),
      (s.early 8 d = true → exec (.recClear d a b c) s = .next s) ∧
      (s.early 9 d = true → exec (.ownerChallenge (.ring d) a) s = .next s ∧ exec (.ownerAuth (.ring d) a b x) s = .next s ∧
        exec (.ownerSet (.ring d) x a) s = .next s ∧ exec (.ownerLock (.ring d) true a) s = .next s ∧
        exec (.ownerErase (.ring d) a) s = .next s))

/-- With no session open, no bar of R576 and a manifest that passes, SESSION_OPEN opens the session for its source on the
bank that does not run, raises source 1091 and answers OK; with one open it answers BUSY with the holder; the first
bar of 1 to 5, or else of the manifest, answers UPDATE_REFUSED with its reason and source 1092. A queue pair's command
takes its operands from its descriptor. For the holder of the open session: a valid block that agrees with those
received is kept and answered OK, another refused with reason 12 and source 1092; an activation with the whole stream
and matching digests writes the bank and begins the drain, waiting for the trial; a commit after a passed trial makes
the running bank known-good, raises the epoch floor and ends the session; a close of an open session ends it, and one
before the commit begins the revert. A source that holds no session gets TIMEOUT when its session has ended by itself,
else it is refused with reason 14 and source 1092. From 19_identity_attestation_and_update.md (R575, R576, R577, R578,
R579, R581). -/
def Obligations.SessionCommands : Prop :=
  (∀ (s : State) (via : AdminVia) (m : Bytes), AdminReady s via .sessionOpen →
      (s.session.st ≠ .idle → exec (.sessionOpen via m) s = .next (s.answer via (.plain .busySession s.session.holder))) ∧
      (s.session.st = .idle → s.refusal = none → s.manifestRefusal (s.adminBytes via m) = none →
        ∃ u : State, exec (.sessionOpen via m) s = .next (u.answer via (.plain .ok 0)) ∧ u.session.st = .openS ∧
          u.session.holder = s.adminSource via ∧ u.session.manifest = s.adminBytes via m ∧ u.session.blocks = [] ∧
          u.session.target = 1 - s.sec.runningBank ∧
          u.flt.raised = s.flt.raised ++ [⟨1091, leBytes 1 (s.adminSource via) ++ leBytes 4 (manSetId (s.adminBytes via m))⟩] ∧
          OnlyChanges [.session, .flt] s u) ∧
      (∀ reason, s.session.st = .idle →
          (s.refusal = some reason ∨ s.refusal = none ∧ s.manifestRefusal (s.adminBytes via m) = some reason) →
        ∃ u : State, exec (.sessionOpen via m) s = .next (u.answer via (.plain .updateRefused reason)) ∧
          u.session = { s.session with lastReason := reason } ∧
          u.flt.raised = s.flt.raised ++ [⟨1092, leBytes 1 (s.adminSource via) ++ leBytes 1 reason⟩] ∧
          OnlyChanges [.session, .flt] s u)) ∧
    (∀ (s : State) (via : AdminVia) (offset0 offset : Nat) (block0 block : Bytes), AdminReady s via .sessionBlock →
      s.session.st ≠ .idle → s.session.holder = s.adminSource via → s.refusal = none → block = s.adminBytes via block0 →
      (∀ d, s.adminDesc via = some d → offset = d.offset) → (s.adminDesc via = none → offset = offset0) →
      (blockValid (manStream s.session.manifest) offset block = true → blockAgrees s.session.blocks offset block = true →
        ∃ u : State, exec (.sessionBlock via offset0 block0) s = .next (u.answer via (.plain .ok 0)) ∧
          u.session = { s.session with blocks := keepBlock s.session.blocks offset block } ∧ OnlyChanges [.session] s u) ∧
      (blockValid (manStream s.session.manifest) offset block = false ∨ blockAgrees s.session.blocks offset block = false →
        ∃ u : State, exec (.sessionBlock via offset0 block0) s = .next (u.answer via (.plain .updateRefused 12)) ∧
          u.session = { s.session with lastReason := 12 } ∧
          u.flt.raised = s.flt.raised ++ [⟨1092, leBytes 1 (s.adminSource via) ++ leBytes 1 12⟩] ∧
          OnlyChanges [.session, .flt] s u)) ∧
    (∀ (s : State) (via : AdminVia), AdminReady s via .sessionActivate → s.session.st = .openS →
      s.session.holder = s.adminSource via → s.refusal = none → s.session.target < 2 →
      manStream s.session.manifest ≤ receivedUpTo s.session.blocks →
      (s.buildSet s.session.manifest (receivedStream s.session.blocks)).matchesManifest = true →
      ∃ t, exec (.sessionActivate via) s = .next t ∧ t.session.st = .activating ∧ t.session.waiting = some via ∧
        t.sec.bank s.session.target = some (s.buildSet s.session.manifest (receivedStream s.session.blocks)) ∧
        t.sec.bank (1 - s.session.target) = s.sec.bank (1 - s.session.target) ∧ t.nfe.stopFetch = true ∧
        t.sch.drain = .activation ∧ OnlyChanges [.session, .sec, .nfe, .sch] s t) ∧
    (∀ (s : State) (via : AdminVia), AdminReady s via .sessionCommit → s.session.st = .awaitingCommit →
      s.session.holder = s.adminSource via →
      ∃ u : State, exec (.sessionCommit via) s = .next (u.answer via (.plain .ok 0)) ∧ u.session.st = .idle ∧
        u.sec = { s.sec with
          goodBank := s.sec.runningBank, minEpoch := max s.sec.minEpoch s.sec.running.epoch } ∧
        u.session.settings = s.session.shadow.getD s.session.settings ∧
        u.flt.raised = s.flt.raised ++ [⟨1094, leBytes 4 s.sec.running.setId ++ leBytes 4 s.sec.running.epoch⟩] ∧
        OnlyChanges [.session, .sec, .flt] s u) ∧
    (∀ (s : State) (via : AdminVia), AdminReady s via .sessionClose →
      (s.session.st = .openS → s.session.holder = s.adminSource via →
        ∃ u : State, exec (.sessionClose via) s = .next (u.answer via (.plain .ok 0)) ∧ u.session.st = .idle ∧
          u.session.blocks = [] ∧ OnlyChanges [.session] s u) ∧
      (s.session.st = .awaitingCommit → s.session.holder = s.adminSource via →
        ∃ u : State, exec (.sessionClose via) s = .next (u.answer via (.plain .ok 0)) ∧
          u.session = { s.session with st := .activating, reverting := true, shadow := none } ∧ u.nfe.stopFetch = true ∧
          u.sch.drain = .activation ∧ OnlyChanges [.session, .nfe, .sch] s u)) ∧
    (∀ (s : State) (via : AdminVia) (op : Opcode) (c : Instr) (offset : Nat) (block : Bytes), AdminReady s via op →
      (op = .sessionBlock ∧ c = .sessionBlock via offset block ∨ op = .sessionActivate ∧ c = .sessionActivate via ∨
        op = .sessionCommit ∧ c = .sessionCommit via ∨ op = .sessionClose ∧ c = .sessionClose via) →
      (s.session.st = .idle ∨ s.session.holder ≠ s.adminSource via) →
      (s.session.ended.contains (s.adminSource via) = true → exec c s = .next (s.answer via (.plain .timeout 0))) ∧
      (s.session.ended.contains (s.adminSource via) = false →
        ∃ u : State, exec c s = .next (u.answer via (.plain .updateRefused 14)) ∧
          u.session = { s.session with lastReason := 14 } ∧
          u.flt.raised = s.flt.raised ++ [⟨1092, leBytes 1 (s.adminSource via) ++ leBytes 1 14⟩] ∧
          OnlyChanges [.session, .flt] s u))

/-- When the drain of an activation ends, with no change of engine microcode, the target set runs on trial with source
1093 raised, its System Image starts anew and acceptance resumes; of a revert the known-good set runs. A trial passed
by the re-attached image leaves the session awaiting its commit with its settings in the shadow. A failed trial raises
source 1096 and begins the revert, as do the trial's time-out and the commit's; an open session that idles ends, and
its source will find TIMEOUT. From 19_identity_attestation_and_update.md (R577, R579, R580, R581, R582);
05_ordering_and_completion.md (R195). -/
def Obligations.ActivationsEnd : Prop :=
  (∀ s : State, s.sch.drain = .activation → s.session.abandon = false →
      changedBlocks s.sec.running ((s.sec.bank s.session.target).getD ImageSet.shipped) = [] →
      changedBlocks s.sec.running ((s.sec.bank s.sec.goodBank).getD ImageSet.shipped) = [] → Canonical s →
      ∃ t, exec .activationDrainEnd s = .next t ∧ t.nfe.stopFetch = false ∧ t.sch.drain = .none ∧
        t.pins.imageDown = true ∧ t.fld Reg.ENG_HOLD_HOLD = 1 ∧
        (s.session.reverting = true → t.sec = { s.sec with runningBank := s.sec.goodBank } ∧ t.session = s.session) ∧
        (s.session.reverting = false → t.sec = { s.sec with runningBank := s.session.target } ∧ t.session.st = .trial ∧
          t.flt.raised = s.flt.raised ++ [⟨1093, leBytes 4 (s.sec.setIdOf s.session.target)⟩])) ∧
    (∀ s : State, s.session.st = .trial → s.pins.imageDown = false →
      ∃ u : State, exec .secTrialPass s = .next (match s.session.waiting with
          | some v => u.answer v (.plain .ok 0)
          | none => u) ∧
        u.session = { s.session with
          st := .awaitingCommit, waiting := none, shadow := some (manSetId s.session.manifest) } ∧
        OnlyChanges [.session] s u) ∧
    (∀ (s : State) (c : Instr) (pre : List Ev),
      (s.session.st = .trial ∧ c = .secTrialFail ∧ pre = [⟨1096, leBytes 4 (s.sec.setIdOf s.session.target)⟩] ∨
        s.session.st = .trial ∧ c = .trialTimeout ∧ pre = [] ∨
        s.session.st = .awaitingCommit ∧ c = .commitTimeout ∧ pre = []) →
      ∃ t, exec c s = .next t ∧ t.flt.raised = s.flt.raised ++ pre ∧
        t.session = { s.session with st := .activating, reverting := true, shadow := none } ∧
        t.sch.drain = .activation ∧ t.nfe.stopFetch = true ∧ OnlyChanges [.session, .sch, .nfe, .flt] s t) ∧
    (∀ s : State, s.session.st = .openS →
      ∃ t, exec .sessionIdleTimeout s = .next t ∧ t.session.st = .idle ∧ t.session.blocks = [] ∧
        t.session.ended = s.session.ended ++ [s.session.holder] ∧ OnlyChanges [.session] s t)

/-- PEER_LINK_REQUEST toward an ENABLED peer of higher SELF_ID that is DOWN or has no queue pair on the port makes a
CONNECTING context, sends the REQ and reads LINKING. PEER_CM_REQ that passes the checks makes a CONNECTING context and
sends a REP; one with a foreign DRIVE_UID is refused with 0x02 and PEER_AUTH_FAILED. PEER_CM_REP with a good
RESP_PROOF sends the RTU and makes the queue pair ACTIVE; another frees it. PEER_CM_RTU with the right PROOF makes it
ACTIVE; another ends it. A queue pair that becomes ACTIVE replaces the one the peer had on its port, which a DREQ ends
(the model's choice, log 200). KEEPALIVE of an UP peer changes nothing, of another makes it UP with event 1025, and
one whose MSG_CRC fails is recorded with event 1033 alone; KEEPALIVE_SEND sends one message of kind 6; PEER_DEAD takes
an UP peer DOWN with event 1024. From 13_peer_chains.md (R421, R422, R423, R424, R613). -/
def Obligations.PeersLink : Prop :=
  (∀ (s : State) (peer : Nat) (port : Port) (e : PeerEntry) (ctx : Nat), s.peerEnabled peer = some e → s.netUp = true →
      s.selfId < peer → s.peerOnPort peer port = false ∨ s.peerLive peer = .down →
      s.peersLinked.contains peer = true ∨ s.peersLinked.length < 2048 →
      s.linkingCtx peer port = some ctx ∨ s.linkingCtx peer port = none ∧ s.freeContextIn 16384 4096 = some ctx →
      ∃ (t : State) (q : Qp) (raw : Bytes), exec (.peerLinkRequest peer port) s = .next t ∧ t.qp? ctx = some q ∧
        q.st = .connecting ∧ q.conn.peer = some peer ∧ q.conn.requester = true ∧
        (∀ x, x ≠ ctx → t.qp? x = s.qp? x) ∧
        Sends s t [.peerReq peer port raw] ∧
        t.peerLive peer = (if s.peerLive peer = .up then .up else .linking)) ∧
    (∀ (s : State) (req : ReqMsg) (ctx peer : Nat) (e : PeerEntry) (root : Bytes), s.netUp = true → reqPeer req.raw = true →
      reqMalformed req = false → reqPathShort req = false → s.freeContextIn 16384 4096 = some ctx →
      reqTenant req.raw % 4096 = peer → s.peerEnabled peer = some e → s.domainRoot e.domain = some root →
      (reqUid req.raw = e.uid → s.peersLinked.length < 2048 →
        ∃ (t : State) (q : Qp) (rep : Bytes), exec (.peerCmReq req) s = .next t ∧ t.qp? ctx = some q ∧ q.st = .connecting ∧
          q.conn.peer = some peer ∧ q.conn.requester = false ∧ Sends s t [.cmRep ctx rep] ∧
          t.peerLive peer = (if s.peerLive peer = .up then .up else .linking)) ∧
      (reqUid req.raw ≠ e.uid →
        ∃ t, exec (.peerCmReq req) s = .next t ∧ t.nfe.qps = s.nfe.qps ∧ Sends s t [.cmRej req.link 0x02] ∧
          t.flt.raised = s.flt.raised ++ [⟨1032, item2 peer⟩] ∧ OnlyChanges [.nfe, .flt] s t)) ∧
    (∀ (s : State) (ctx peer : Nat) (q : Qp) (rep : PeerRep) (e : PeerEntry) (root : Bytes), Tbl.wf s.nfe.qps = true →
      s.qp? ctx = some q → q.st = .connecting → q.conn.requester = true → q.conn.peer = some peer →
      s.peerEnabled peer = some e → s.domainRoot e.domain = some root →
      let gone := fun x => ∃ e ∈ s.nfe.qps, e.1 = x ∧ x ≠ ctx ∧ e.2.conn.peer = some peer ∧ e.2.st = .active ∧
        linkPort e.2.conn.link = linkPort q.conn.link
      let input := peerProofInput (padTo 16 rep.driveNonce) q.conn.clientNonce s.selfId rep.remoteQpn ctx q.conn.session driveUid
      (rep.driveUid = e.uid → rep.respProof = peerReplyProof root input →
        ∃ (t : State) (q' : Qp) (old : List Nat), exec (.peerCmRep ctx rep) s = .next t ∧ t.qp? ctx = some q' ∧ q'.st = .active ∧
          q'.conn.clientQpn = rep.remoteQpn ∧
          Sends s t (.peerRtu ctx (peerProof root input) :: old.map fun x => .cmDreq x 0 0) ∧
          (∀ x, x ∈ old ↔ gone x) ∧ (∀ x ∈ old, t.qp? x = none) ∧ OnlyChanges [.nfe] s t) ∧
      (rep.driveUid ≠ e.uid ∨ rep.respProof ≠ peerReplyProof root input →
        ∃ t, exec (.peerCmRep ctx rep) s = .next t ∧ t.qp? ctx = none ∧
          Sends s t [.cmRej q.conn.link 0x02] ∧
          t.flt.raised = s.flt.raised ++ [⟨1032, item2 peer⟩] ∧ OnlyChanges [.nfe, .flt] s t)) ∧
    (∀ (s : State) (ctx peer : Nat) (q : Qp) (proof : Bytes) (e : PeerEntry) (root : Bytes), Tbl.wf s.nfe.qps = true → s.qp? ctx = some q →
      q.st = .connecting → q.cause = 0 → q.conn.requester = false → q.conn.peer = some peer →
      s.peerEnabled peer = some e → s.domainRoot e.domain = some root →
      let gone := fun x => ∃ e ∈ s.nfe.qps, e.1 = x ∧ x ≠ ctx ∧ e.2.conn.peer = some peer ∧ e.2.st = .active ∧
        linkPort e.2.conn.link = linkPort q.conn.link
      let want := peerProof root (peerProofInput q.conn.driveNonce q.conn.clientNonce peer ctx q.conn.clientQpn
        q.conn.session q.conn.reqUid)
      (proof.take 32 = want →
        ∃ (t : State) (q' : Qp) (old : List Nat), exec (.peerCmRtu ctx proof) s = .next t ∧ t.qp? ctx = some q' ∧ q'.st = .active ∧
          Sends s t (old.map fun x => .cmDreq x 0 0) ∧ (∀ x, x ∈ old ↔ gone x) ∧ (∀ x ∈ old, t.qp? x = none) ∧
          OnlyChanges [.nfe] s t) ∧
      (proof.take 32 ≠ want →
        ∃ (t : State) (q' : Qp), exec (.peerCmRtu ctx proof) s = .next t ∧ t.qp? ctx = some q' ∧ q'.st = .connecting ∧
          q'.cause = 2 ∧ Sends s t [.cmDreq ctx 2 0] ∧
          t.flt.raised = s.flt.raised ++ [⟨1032, item2 peer⟩] ∧ OnlyChanges [.nfe, .flt] s t)) ∧
    (∀ (s : State) (m : PeerMsg) (p : Nat), s.activePeer m.ctx = some p →
      (HeardFrom s 6 m p → exec (.keepalive m) s = .next s) ∧
      (∀ e, m.crc = msgCrc 6 m → m.sealed = false → s.peerEnabled p = some e → s.peerLive p ≠ .up →
        ∃ t, exec (.keepalive m) s = .next t ∧ t.peerLive p = .up ∧
          t.flt.raised = s.flt.raised ++ [⟨1025, item2 p⟩] ∧ OnlyChanges [.peer, .flt] s t) ∧
      (m.crc ≠ msgCrc 6 m →
        ∃ t, exec (.keepalive m) s = .next t ∧ t.flt.raised = s.flt.raised ++ [⟨1033, item2 p ++ item8 m.msgSeq⟩] ∧
          OnlyChanges [.flt] s t)) ∧
    (∀ (s : State) (ctx p : Nat) (q : Qp), s.activePeer ctx = some p → s.qp? ctx = some q →
      ∃ (t : State) (m : PeerMsg) (q' : Qp), exec (.keepaliveSend ctx) s = .next t ∧
        Sends s t [.peerMsg ctx 6 m] ∧ m.srcPeer = s.selfId ∧ m.msgSeq = q.msgSeq + 1 ∧ m.crc = msgCrc 6 m ∧
        t.qp? ctx = some q' ∧ q'.msgSeq = q.msgSeq + 1 ∧ OnlyChanges [.nfe] s t) ∧
    (∀ (s : State) (peer : Nat), Tbl.wf s.peer.live = true → s.peerLive peer = .up →
      ∃ t, exec (.peerDead peer) s = .next t ∧ t.peerLive peer = .down ∧
        t.flt.raised = s.flt.raised ++ [⟨1024, item2 peer⟩] ∧ OnlyChanges [.peer, .flt] s t)

/-- CHAIN_WRITE from an UP peer: a message that R431 discards is recorded with source 1036 and changes nothing else. A new
version with room takes a dedupe entry in progress and a retention entry with the version that it carries; with no
free retention entry, or while SCH is in reset, it waits at intake. One whose version the dedupe table holds is
answered with the acknowledgement it sent before, or, still in progress, is dropped. One whose MSG_CRC fails, or of
which a sealed piece does not open, is recorded with source 1033 and not taken; one whose pieces open acts as the same
message with the plain bytes. With no chain write waiting at intake, DEDUPE_EXPIRY takes the acknowledged entry out
and leaves the others. From 13_peer_chains.md (R423, R424, R431, R436); 01_architecture.md (R26). -/
def Obligations.ChainWritesArrive : Prop :=
  (∀ (s : State) (m : PeerMsg) (p : Nat), HeardFrom s 1 m p →
      (msgRefused m = true →
        ∃ t, exec (.chainWrite m) s = .next t ∧
          t.flt.raised = s.flt.raised ++ [⟨1036, item2 p ++ item8 m.msgSeq ++ item1 1⟩] ∧ OnlyChanges [.flt] s t) ∧
      (msgRefused m = false →
        (s.peer.dedupe.find? (fun e => e.kh = m.keyHash && decide (e.version = m.version))) = none →
        s.peer.dedupe.length < 65536 → s.blockInReset .sch = false →
        (s.retentionFree (msgClass m) = true →
          ∃ (t : State) (c : Cmd), exec (.chainWrite m) s = .next t ∧ t.cmd? s.sch.nextCmd = some c ∧ c.ctx = none ∧
            c.version = m.version ∧ c.stage = .accepted ∧ c.key = some (padTo m.keyLen m.key) ∧ c.op = msgOp m ∧
            c.cls = msgClass m ∧ (∀ x, x ≠ s.sch.nextCmd → t.cmd? x = s.cmd? x) ∧
            t.sch.nextCmd = s.sch.nextCmd + 1 ∧
            t.peer = { s.peer with dedupe := s.peer.dedupe ++ [⟨m.keyHash, m.version, none⟩] } ∧
            OnlyChanges [.sch, .peer] s t) ∧
        (s.retentionFree (msgClass m) = false →
          ∃ t, exec (.chainWrite m) s = .next t ∧
            t.peer = { s.peer with intake := s.peer.intake ++ [{ m with srcPeer := p, crc := 0, headers := [] }] } ∧
            OnlyChanges [.peer] s t)) ∧
      (msgRefused m = false → s.blockInReset .sch = true →
        ∃ t, exec (.chainWrite m) s = .next t ∧
          t.peer = { s.peer with intake := s.peer.intake ++ [{ m with srcPeer := p, crc := 0, headers := [] }] } ∧
          OnlyChanges [.peer] s t) ∧
      (∀ e, msgRefused m = false → s.blockInReset .sch = false →
        (s.peer.dedupe.find? (fun e => e.kh = m.keyHash && decide (e.version = m.version))) = some e →
        (e.ack = none → exec (.chainWrite m) s = .next s) ∧
        (∀ st copies x, e.ack = some (st, copies) → s.peerCtx p = some x →
          ∃ (t : State) (a : PeerMsg), exec (.chainWrite m) s = .next t ∧ Sends s t [.peerMsg x 2 a] ∧ a.status = st ∧ a.copies = copies ∧ a.keyHash = m.keyHash ∧
            a.version = m.version ∧ a.crc = msgCrc 2 a ∧ OnlyChanges [.nfe] s t))) ∧
    (∀ (s : State) (m : PeerMsg) (p : Nat), s.activePeer m.ctx = some p →
      (m.crc ≠ msgCrc 1 m → exec (.chainWrite m) s = .next (s.raise 1033 (item2 p ++ item8 m.msgSeq))) ∧
      (∀ u, m.crc = msgCrc 1 m → m.sealed = true → msgRefused m = false → s.openPieces p 1 m = (none, u) →
        exec (.chainWrite m) s = .next (u.raise 1033 (item2 p ++ item8 m.msgSeq))) ∧
      (∀ b u, m.crc = msgCrc 1 m → m.sealed = true → msgRefused m = false → s.openPieces p 1 m = (some b, u) →
        exec (.chainWrite m) s = exec (.chainWrite (plainMsg 1 m b)) u)) ∧
    (∀ (s : State) (kh : W64) (version : Nat), s.peer.intake = [] →
      ∃ t, exec (.dedupeExpiry kh version) s = .next t ∧
        (∀ e, e ∈ t.peer.dedupe ↔ e ∈ s.peer.dedupe ∧ ¬(e.kh = kh ∧ e.version = version ∧ e.ack.isSome = true)) ∧
        OnlyChanges [.peer] s t)

/-- At the head a CHAIN_ACK of status OK with as many copies as the template names ends the command OK with the copies and
its own; with fewer, or another status, ALL ends it CHAIN_FAILED, and BEST ends it CHAIN_DEGRADED; HEAD_CHAIN_TIMEOUT
does as no copy would. At a successor that does not hold the key an acknowledgement of status OK commits and
acknowledges one copy more; another status under ALL is passed on, and under BEST acknowledged as one copy;
SUCCESSOR_ACK_TIMEOUT acknowledges CHAIN_FAILED under ALL and one copy under BEST. The successor's retention entry is
then free. An acknowledgement of a write that waits for no acknowledgement of its sender changes nothing. From
13_peer_chains.md (R426, R428, R431, R432, R433, R434); 05_ordering_and_completion.md (R177). -/
def Obligations.ChainsDecide : Prop :=
  (∀ (s : State) (m w : PeerMsg) (p n ctx : Nat) (c : Cmd) (r : DirRec), HeardFrom s 2 m p → s.sch.gate = [] →
      s.ackedWrite p m = some (n, c) → s.cmd? n = some c → c.stage = .forwarded → c.ctx = some ctx → c.chain = some w → c.op = .delete →
      c.conds = [] → c.orphan = false → s.recordNow c = some r → r.pinned = false → s.deletePending n = false →
      s.tokensWaited n = false → s.metaAdmitted (s.pairLines 1 - c.tokens) = true →
      (m.status = 0 → m.copies = w.depth →
        ∃ t, exec (.chainAck m) s = .next t ∧ Ended t n ⟨.ok, 1 + m.copies, c.version, r.variants.length, false, false⟩) ∧
      (m.status = 0 → m.copies < w.depth → w.policyBest = true →
        ∃ t, exec (.chainAck m) s = .next t ∧
          Ended t n ⟨.chainDegraded, 1 + m.copies, c.version, r.variants.length, false, false⟩) ∧
      (m.status ≠ 0 → w.policyBest = true →
        ∃ t, exec (.chainAck m) s = .next t ∧
          Ended t n ⟨.chainDegraded, 1, c.version, r.variants.length, false, false⟩) ∧
      (w.policyBest = false → (m.status ≠ 0 ∨ m.copies ≠ w.depth) →
        ∃ t, exec (.chainAck m) s = .next t ∧ Ended t n (Outcome.of .chainFailed)) ∧
      (w.policyBest = true →
        ∃ t, exec (.headChainTimeout n) s = .next t ∧
          Ended t n ⟨.chainDegraded, 1, c.version, r.variants.length, false, false⟩) ∧
      (w.policyBest = false →
        ∃ t, exec (.headChainTimeout n) s = .next t ∧ Ended t n (Outcome.of .chainFailed))) ∧
    (∀ (s : State) (m w : PeerMsg) (p n : Nat) (c : Cmd), HeardFrom s 2 m p → s.sch.gate = [] → s.peer.intake = [] → Tbl.wf s.sch.cmds = true →
      s.ackedWrite p m = some (n, c) → s.cmd? n = some c → c.stage = .forwarded → c.ctx = none → c.chain = some w → c.op = .delete →
      c.conds = [] → c.orphan = false → s.recordNow c = none →
      let acked : State → Nat → Nat → Prop := fun t st copies => t.cmd? n = none ∧
          ∀ e ∈ t.peer.dedupe, e.kh = w.keyHash → e.version = w.version → e.ack = some (st, copies)
      (m.status = 0 → ∃ t, exec (.chainAck m) s = .next t ∧ acked t 0 (m.copies + 1)) ∧
      (m.status ≠ 0 → w.policyBest = false →
        ∃ t, exec (.chainAck m) s = .next t ∧ acked t (statusOf m.status).code m.copies) ∧
      (m.status ≠ 0 → w.policyBest = true → ∃ t, exec (.chainAck m) s = .next t ∧ acked t 0 1) ∧
      (w.policyBest = false → ∃ t, exec (.successorAckTimeout n) s = .next t ∧ acked t 0x0F 0) ∧
      (w.policyBest = true → ∃ t, exec (.successorAckTimeout n) s = .next t ∧ acked t 0 1)) ∧
    (∀ (s : State) (m : PeerMsg) (p : Nat), HeardFrom s 2 m p → s.ackedWrite p m = none → exec (.chainAck m) s = .next s)

/-- CHAIN_REVOKE of a held version waits at the key's gate behind the writes waiting there; with none, a key that the
write created and that still holds it goes, with event 1028. REVOKE_HOLD_EXPIRY drops the hold and the restore that
waits for it. REPAIR_REQ of exactly the held version starts a read of the segment, or answers a hole with zeros; of an
absent key or another version it answers NOT_FOUND, and at stage 4 SHED. REPAIR_RESP with a segment of the right
length records 1030, and, of a segment whose check failed, 384 when the local bytes agree and else 385; another answer
changes nothing. REPAIR_TIMEOUT ends a repair that no command waits for with 1031 and the loss, 386 or, of a failed
tag, 418. From 13_peer_chains.md (R435, R438, R439, R441). -/
def Obligations.RevokesAndRepairs : Prop :=
  (∀ (s : State) (m : PeerMsg) (p : Nat) (h : RevokeHold), HeardFrom s 3 m p → s.sch.gate = [] → s.peer.revoke = [h] →
      h.kh = m.keyHash → h.version = m.version →
      (s.gateWaiters m.keyHash ≠ [] → Tbl.wf s.sch.cmds = true →
        ∃ t, exec (.chainRevoke m) s = .next t ∧
          t.sch = { s.sch with gate := [⟨m.keyHash, s.gateWaiters m.keyHash, none, some m.version, none⟩] } ∧
          OnlyChanges [.sch] s t) ∧
      (∀ r v, s.gateWaiters m.keyHash = [] → h.whole = false → h.before = none → s.idx.dir = [r] → r.key = h.key →
        r.variants = [(h.variant, v)] → v.version = h.version →
        ∃ (t : State) (evs : List Ev), exec (.chainRevoke m) s = .next t ∧ t.idx.dir = [] ∧ t.sch.gate = [] ∧ t.peer.revoke = [] ∧
          t.flt.raised = s.flt.raised ++ evs ++ [⟨1028, item8 h.kh.toNat ++ item8 h.version⟩])) ∧
    (∀ (s : State) (kh : W64) (version : Nat) (h : RevokeHold),
      s.peer.revoke.find? (fun h => h.kh = kh && decide (h.version = version)) = some h →
      ∃ t, exec (.revokeHoldExpiry kh version) s = .next t ∧ t.peer = { s.peer with revoke := s.peer.revoke.erase h } ∧
        (∀ g, g ∈ t.sch.gate ↔ g ∈ s.sch.gate ∧ ¬(g.kh = kh ∧ g.revoke = some version)) ∧
        (h.dead = [] → OnlyChanges [.sch, .peer] s t)) ∧
    (∀ (s : State) (m : PeerMsg) (p : Nat), HeardFrom s 4 m p →
      (∀ r v g, s.pwr.shed.getLsbD 3 = false → dirFind s.idx.dir (padTo m.keyLen m.key) = some r →
        tget r.variants m.variant = some v → v.version = m.version → m.segIndex < segCount v.length →
        tget v.segs m.segIndex = some g →
        ∃ t c, exec (.repairReq m) s = .next t ∧ t.cmd? s.sch.nextCmd = some c ∧ c.stage = .working ∧ c.op = .get ∧
          c.chain.isSome = true ∧ c.ctx = none ∧ c.desc.offset = 65536 * m.segIndex ∧
          c.desc.length = segLen v.length m.segIndex ∧ c.lookup = .found r ∧ OnlyChanges [.sch, .ftl] s t) ∧
      (∀ x, s.peerCtx p = some x →
        (∀ r v, s.pwr.shed.getLsbD 3 = false → dirFind s.idx.dir (padTo m.keyLen m.key) = some r →
          tget r.variants m.variant = some v → v.version = m.version → m.segIndex < segCount v.length →
          tget v.segs m.segIndex = none → s.sealsTransit p = false → s.peer.intake = [] →
          ∃ (t : State) (a : PeerMsg), exec (.repairReq m) s = .next t ∧ Sends s t [.peerMsg x 5 a] ∧ a.status = Status.ok.code ∧
            a.data = zeros (segLen v.length m.segIndex)) ∧
        (s.pwr.shed.getLsbD 3 = false → dirFind s.idx.dir (padTo m.keyLen m.key) = none →
          ∃ (t : State) (a : PeerMsg), exec (.repairReq m) s = .next t ∧ Sends s t [.peerMsg x 5 a] ∧
            a.status = Status.notFound.code ∧ OnlyChanges [.nfe] s t) ∧
        (∀ r v, s.pwr.shed.getLsbD 3 = false → dirFind s.idx.dir (padTo m.keyLen m.key) = some r →
          tget r.variants m.variant = some v → v.version ≠ m.version →
          ∃ (t : State) (a : PeerMsg), exec (.repairReq m) s = .next t ∧ Sends s t [.peerMsg x 5 a] ∧
            a.status = Status.notFound.code ∧ OnlyChanges [.nfe] s t) ∧
        (s.pwr.shed.getLsbD 3 = true →
          ∃ (t : State) (a : PeerMsg), exec (.repairReq m) s = .next t ∧ Sends s t [.peerMsg x 5 a] ∧
            a.status = Status.shed.code ∧ OnlyChanges [.nfe] s t))) ∧
    (∀ (s : State) (m : PeerMsg) (p rid : Nat) (r : Repair), HeardFrom s 5 m p → s.askedRepair m = some (rid, r) →
      s.repair? rid = some r →
      let done : Ev := ⟨1030, item8 r.kh.toNat ++ item4 r.seg ++ item2 p⟩
      let items := item8 (locWord r.old.loc) ++ item8 (locator r.kh r.variant r.seg).toNat ++ item2 p
      (m.status = 0 → m.data.length = r.old.logicalLen → r.failed = 0 → (s.localBytes r).1 = .plain m.data →
        ∃ (t : State) (evs : List Ev), exec (.repairResp m) s = .next t ∧
          t.flt.raised = s.flt.raised ++ [done, ⟨384, items⟩] ++ evs) ∧
      (m.status = 0 → m.data.length = r.old.logicalLen → r.failed = 0 → (s.localBytes r).1 ≠ .plain m.data →
        ∃ (t : State) (pre evs : List Ev), exec (.repairResp m) s = .next t ∧
          t.flt.raised = s.flt.raised ++ [done] ++ pre ++ [⟨385, items ++ item1 0⟩] ++ evs) ∧
      (m.status ≠ 0 ∨ m.data.length ≠ r.old.logicalLen → exec (.repairResp m) s = .next s)) ∧
    (∀ (s : State) (rid : Nat) (r : Repair), Tbl.wf s.val.repairs = true → s.repair? rid = some r → r.asked = true →
      r.fixed = none → r.readers = [] →
      ∃ (t : State) (e : Ev), exec (.repairTimeout rid) s = .next t ∧ t.repair? rid = none ∧
        t.flt.raised = s.flt.raised ++ [⟨1031, item8 r.kh.toNat ++ item4 r.seg⟩, e] ∧
        (r.failed ≠ 2 → e = ⟨386, item8 (locWord r.old.loc) ++ item8 (locator r.kh r.variant r.seg).toNat ++
          item8 r.kh.toNat⟩) ∧
        (∀ w, r.failed = 2 → r.old.sealWord = some w →
          e = ⟨418, item8 (locWord r.old.loc) ++ item2 w.slot ++ w.bytes⟩))

/-- RECLAIM_BEST, RECLAIM_SB, REFRESH_DUE and WEAR_MOVE put the superblock that their rule chooses into RECLAIMING and
wait for its erase; with none to choose they answer DONE with 0. With no read-verify or move under way VERIFY_RELEASE
makes the oldest UNVERIFIED superblocks, when their rows pass, VERIFIED and returns their number; a row that fails is
recorded with source 373; PATROL returns the number of superblocks read, and a clean pass changes only FTL's stamps. A
directive of a SCAVENGE-class ring waits while shedding or thermal stage 1 is in force, while an entry issued before
it on its ring has not started, and while FTL is in reset. That an operand out of its range is refused is the model's
choice (log 29). From 12_flash_upkeep.md (R396, R403, R404, R406, R408, R409, R412); 14_engine_rings_and_setup.md
(R457, R609); 01_architecture.md (R26). -/
def Obligations.FlashDirectives : Prop :=
  (∀ (s : State) (d : Dir), s.upkeepPaused 4 = false → s.dirWaits 4 d = false →
      (∀ pool n, pool ≤ 1 → 1 ≤ n → n ≤ 64 →
        (s.bestCandidate pool = none → exec (.reclaimBest d pool n) s = .next (s.finish 4 d esDone (leBytes 4 0))) ∧
        (∀ id, s.bestCandidate pool = some id →
          ∃ t, exec (.reclaimBest d pool n) s = .next t ∧ (t.sb id).st = .reclaiming ∧
            t.ftl.upkeep = s.ftl.upkeep ++ [⟨4, d, 1, pool, n - 1, 0, id⟩])) ∧
      (∀ sb, sbExists sb = true →
        (s.mayReclaim sb = false → exec (.reclaimSb d sb) s = .next (s.finish 4 d esDone (leBytes 4 0))) ∧
        (s.mayReclaim sb = true →
          ∃ t, exec (.reclaimSb d sb) s = .next t ∧ (t.sb sb).st = .reclaiming ∧ t.ftl.upkeep = s.ftl.upkeep ++ [⟨4, d, 2, 0, 0, 0, sb⟩])) ∧
      (∀ n, 1 ≤ n → n ≤ 64 →
        (s.oldestDue = none → exec (.refreshDue d n) s = .next (s.finish 4 d esDone (leBytes 4 0))) ∧
        (∀ id, s.oldestDue = some id →
          ∃ t, exec (.refreshDue d n) s = .next t ∧ (t.sb id).st = .reclaiming ∧
            t.ftl.upkeep = s.ftl.upkeep ++ [⟨4, d, 4, 0, n - 1, 0, id⟩])) ∧
      (s.spreadHigh = false → exec (.wearMove d) s = .next (s.finish 4 d esDone (leBytes 4 0))) ∧
      (∀ id, s.spreadHigh = true → s.leastWorn = some id →
        ∃ t, exec (.wearMove d) s = .next t ∧ (t.sb id).st = .reclaiming ∧ t.ftl.upkeep = s.ftl.upkeep ++ [⟨4, d, 6, 0, 0, 0, id⟩])) ∧
    (∀ (s : State) (d : Dir) (n : Nat), s.upkeepPaused 5 = false → s.dirWaits 5 d = false → 1 ≤ n →
      (∀ badRows, n ≤ 64 → s.ftl.verifies = [] → s.ftl.moves = [] →
        (∀ id ∈ s.oldestUnverified n [], s.failingRows id badRows = []) →
        ∃ u : State, exec (.verifyRelease d n badRows) s
            = .next (u.finish 5 d esDone (leBytes 4 (s.oldestUnverified n []).length)) ∧
          ∀ id ∈ s.oldestUnverified n [], (u.sb id).st = .verified) ∧
      (∀ badRows id more row rows, n ≤ 64 → s.oldestUnverified n [] = id :: more → s.failingRows id badRows = row :: rows →
        ∃ t evs, exec (.verifyRelease d n badRows) s = .next t ∧
          t.flt.raised = s.flt.raised ++ ⟨373, item4 id ++ item2 row⟩ :: evs) ∧
      (n ≤ 1024 →
        ∃ u : State, exec (.patrol d n []) s = .next (u.finish 5 d esDone (leBytes 4 (s.leastRead n []).length)) ∧
          OnlyChanges [.ftl] s u) ∧
      (∀ found, n ≤ 1024 →
        ∃ u : State, exec (.patrol d n found) s = .next (u.finish 5 d esDone (leBytes 4 (s.leastRead n []).length)))) ∧
    (∀ (s : State) (d : Dir),
      (s.upkeepPaused 4 = true ∨ s.dirWaits 4 d = true → ∀ pool n sb, exec (.reclaimBest d pool n) s = .next s ∧
        exec (.reclaimSb d sb) s = .next s ∧ exec (.refreshDue d n) s = .next s ∧ exec (.wearMove d) s = .next s) ∧
      (s.upkeepPaused 5 = true ∨ s.dirWaits 5 d = true → ∀ n badRows found, exec (.verifyRelease d n badRows) s = .next s ∧
        exec (.patrol d n found) s = .next s)) ∧
    (∀ (s : State) (d : Dir), s.upkeepPaused 4 = false → s.upkeepPaused 5 = false → s.dirWaits 4 d = false → s.dirWaits 5 d = false →
      (∀ pool n, 1 < pool ∨ n < 1 ∨ 64 < n → exec (.reclaimBest d pool n) s = .next (s.finish 4 d esRefused [])) ∧
      (∀ sb, sbExists sb = false → exec (.reclaimSb d sb) s = .next (s.finish 4 d esRefused [])) ∧
      (∀ n badRows, n < 1 ∨ 64 < n → exec (.refreshDue d n) s = .next (s.finish 4 d esRefused []) ∧
        exec (.verifyRelease d n badRows) s = .next (s.finish 5 d esRefused [])) ∧
      (∀ n found, n < 1 ∨ 1024 < n → exec (.patrol d n found) s = .next (s.finish 5 d esRefused [])))

/-- AUTO_RECLAIM below FREE_FLOOR, SLC_FOLD above its mark while the SCAVENGE class runs, and REFRESH_AUTO of a superblock
that is due put the superblock that their rule chooses into RECLAIMING, and a fold marks it as folding; with none to
choose nothing changes. URGENT_VERIFY at its mark, with no read-verify or move under way, makes the oldest UNVERIFIED
superblocks whose rows pass VERIFIED. SKEIN_DEMOTE at its marks relocates the skein with the fewest live units: where
nothing lies in it and nothing holds it or is still to be programmed, its number is free again, and no other skein
changes. LEDGER_PACK, when packing is due and for the range of the one directory record in the Ledger, puts that
record, with nothing of its values staged, behind the header of a directory page at the write pointer of META, and its
key is otherwise as it was; a record at whose gate writes wait joins that gate and stays where it is. Where the
premise of the upkeep does not hold, or its class pauses, nothing changes. From 10_ledger.md (R348);
11_flash_layout_and_mapping.md (R370, R371, R375, R376, R377, R380); 12_flash_upkeep.md (R396, R398, R405, R409);
16_power_thermal_and_shedding.md (R500, R509). -/
def Obligations.FlashKeepsItselfUp : Prop :=
  (∀ s : State,
      (∀ id, s.ftl.mapReady = true → s.freeSbs < s.fldIn Reg.FTL_UPKEEP_CFG_FREE_FLOOR 256 4096 1200 → s.bestCandidate 0 = some id →
        ∃ t, exec .autoReclaim s = .next t ∧ (t.sb id).st = .reclaiming ∧ t.ftl.upkeep = s.ftl.upkeep) ∧
      (s.ftl.mapReady = false ∨ s.fldIn Reg.FTL_UPKEEP_CFG_FREE_FLOOR 256 4096 1200 ≤ s.freeSbs ∨ s.bestCandidate 0 = none →
        exec .autoReclaim s = .next s) ∧
      (s.ftl.mapReady = true → s.pwr.shed = 0 → s.pwr.stage = 0 →
        s.fldIn Reg.FTL_SLC_CFG_FOLD_START_PCT 10 95 50 * s.slcTargetBytes < 100 * s.slcData →
        let oldest := bestOf (fun i => -((s.sb i).seq : Rat)) ((s.ftl.sbs.filter fun e => e.2.slc
          && decide (e.2.stream = 0) && s.mayReclaim e.1).map (·.1))
        (∀ id, oldest = some id →
          ∃ t, exec .slcFold s = .next t ∧ (t.sb id).st = .reclaiming ∧ (t.sb id).folding = true ∧ t.ftl.upkeep = s.ftl.upkeep) ∧
        (oldest = none → exec .slcFold s = .next s)) ∧
      (s.ftl.mapReady = false ∨ s.pwr.shed ≠ 0 ∨ s.pwr.stage ≠ 0 ∨
        100 * s.slcData ≤ s.fldIn Reg.FTL_SLC_CFG_FOLD_START_PCT 10 95 50 * s.slcTargetBytes → exec .slcFold s = .next s) ∧
      (∀ badRows, s.ftl.mapReady = true → s.fldIn Reg.FTL_UPKEEP_CFG_VERIFY_URGENT 64 960 768 ≤ s.unverified →
        s.ftl.verifies = [] → s.ftl.moves = [] →
        (∀ id ∈ s.oldestUnverified (s.unverified + 1 - s.fldIn Reg.FTL_UPKEEP_CFG_VERIFY_URGENT 64 960 768) [],
          s.failingRows id badRows = []) →
        ∃ t, exec (.urgentVerify badRows) s = .next t ∧
          ∀ id ∈ s.oldestUnverified (s.unverified + 1 - s.fldIn Reg.FTL_UPKEEP_CFG_VERIFY_URGENT 64 960 768) [],
            (t.sb id).st = .verified) ∧
      (∀ badRows, s.ftl.mapReady = false ∨ s.unverified < s.fldIn Reg.FTL_UPKEEP_CFG_VERIFY_URGENT 64 960 768 →
        exec (.urgentVerify badRows) s = .next s)) ∧
    (∀ (s : State) (sb : Nat), s.mayReclaim sb = true ∨ (s.sb sb).st = .unverified ∧ s.ftl.evacuate.contains sb = false →
      ((s.sb sb).refreshDue = true →
        ∃ t, exec (.refreshAuto sb) s = .next t ∧ (t.sb sb).st = .reclaiming ∧ t.ftl.upkeep = s.ftl.upkeep) ∧
      ((s.sb sb).refreshDue = false → exec (.refreshAuto sb) s = .next s)) ∧
    (∀ (s : State),
      let due := s.fldIn Reg.FTL_MAP_CFG_DEMOTE_PCT 50 100 90 * maxFine ≤ 100 * s.fineSkeins ∨
        100 * s.freeSkeins < 5 * 805306367
      (∀ k sk, s.ftl.mapReady = true → due → s.leastLive = some k → tget s.ftl.skeins k = some sk →
        (∀ r ∈ s.idx.dir, r.inSkein k = false ∧ r.loc.inSkein k = false) → sk.liveUnits = 0 →
        (∀ e ∈ s.ftl.sbs, e.2.stream = relocStream sk ∨ e.2.stream = 3 → e.2.programs = false) →
        (∀ b ∈ sk.places, (tget s.ftl.holds b).getD 0 = 0) → Tbl.wf s.ftl.skeins = true →
        ∃ t, exec .skeinDemote s = .next t ∧ tget t.ftl.skeins k = none ∧ t.ftl.freed = s.ftl.freed ++ [k] ∧
          (∀ x, x ≠ k → tget t.ftl.skeins x = tget s.ftl.skeins x) ∧
          OnlyChanges [.ftl, .ldg, .flt, .reg Reg.LDG_GAUGE_STAT_FALLBACKS.addr] s t) ∧
      (s.ftl.mapReady = false ∨ ¬ due ∨ s.leastLive = none → exec .skeinDemote s = .next s)) ∧
    (∀ (s : State) (r : DirRec), s.ftl.mapReady = true → s.packPaused = false → s.packDue = true → s.idx.dir = [r] →
      pageHeld r = false → s.moveWaits r.key none = false →
      (∀ st, s.gateWaiters r.kh = [] →
        (∀ v ∈ r.variants, (∀ g ∈ v.2.segs, g.2.loc.isLedger = false) ∧ ∀ m ∈ v.2.maps, m.2.isLedger = false) →
        Tbl.wf r.variants = true → tget s.ftl.streams 3 = some st → st.byte + 64 * (1 + r.lines) < 1048576 →
        ∃ t, exec (.ledgerPack (rangeOf r.kh)) s = .next t ∧
          t.idx.dir = [{ r with loc := .flash st.skein (st.byte + 64) r.lines }]) ∧
      (s.gateWaiters r.kh ≠ [] →
        ∃ t, exec (.ledgerPack (rangeOf r.kh)) s = .next t ∧
          t.sch.gate = s.sch.gate ++ [⟨r.kh, s.gateWaiters r.kh, none, none, some (r.key, r.version, none)⟩] ∧
          OnlyChanges [.sch, .ldg] s t)) ∧
    (∀ (s : State) (range : Nat), s.ftl.mapReady = false ∨ s.packPaused = true ∨ s.packDue = false ∨
        (s.oldestStaged s.packable).map (fun r => rangeOf r.kh) ≠ some range → exec (.ledgerPack range) s = .next s)

/-- PROGRAM_DONE, at dies whose queues serve it, adds its positions to those done of the next row and with the last of
them, as WORDLINE_PAD does, raises the rows of a superblock by its unit. PROGRAM_SUSPEND suspends the program or erase
of a die for whose queued host read it waits, and counts that up to its limit. DIE_READ_DONE of a clean codeword
changes nothing; an uncorrectable one that parity covers starts a rebuild, and DROPPED_STITCH_REBUILT ends it, with
the codeword of its parity saved and event 368, or, with a second loss in its stripe, lost with event 377.
PROGRAM_FAIL and ERASE_FAIL record their event and retire the member; With nothing else being emptied, moved or
verified, ERASE_DONE leaves the superblock FREE with its wear raised, or, worn out or with more than two vacancies,
RETIRED with event 371, and completes the directive that waited. DIE_FAILED degrades its group; CHANNEL_FAULT is
recorded, and a second one takes the channel offline. HANG_DETECTED records the error of its block, or of a credit
pool that is empty. From 11_flash_layout_and_mapping.md (R360, R361, R383, R386); 12_flash_upkeep.md (R399, R400,
R401, R402, R406, R407, R411); 17_fault_collection.md (R518, R519). -/
def Obligations.DiesReport : Prop :=
  (∀ (s : State) (sb row : Nat), s.mayProgram sb row = true →
      (∀ ps : BitVec 16, (∀ d ∈ s.programDies sb ps, s.mayFinish (s.programTag sb d.2) d = true) →
        ((s.sb sb).done ||| (ps &&& ~~~(s.sb sb).skipped &&& ~~~(s.sb sb).done) = ~~~(s.sb sb).skipped →
          ∃ t, exec (.programDone sb ⟨row, ps⟩) s = .next t ∧
            (t.sb sb).rows = min ((s.sb sb).rows + (s.sb sb).unit) (s.sb sb).rowsTotal ∧ (t.sb sb).done = 0) ∧
        ((s.sb sb).done ||| (ps &&& ~~~(s.sb sb).skipped &&& ~~~(s.sb sb).done) ≠ ~~~(s.sb sb).skipped →
          ∃ t, exec (.programDone sb ⟨row, ps⟩) s = .next t ∧ (t.sb sb).rows = (s.sb sb).rows ∧
            (t.sb sb).done = ((s.sb sb).done ||| (ps &&& ~~~(s.sb sb).skipped &&& ~~~(s.sb sb).done)))) ∧
      (∀ pos, pos < 16 → s.mayFinish (s.programTag sb pos) (sb / 4096, pos) = true →
        ∃ (t : State) (evs : List Ev), exec (.programFail sb row pos) s = .next t ∧ (t.sb sb).retiring.getLsbD pos = true ∧
          (t.sb sb).st ≠ .opened ∧
          t.flt.raised = s.flt.raised
            ++ ⟨640 + 6 * chanOf sb pos + 2, item1 (dieNoOf sb) ++ item2 (sb % 4096) ++ item2 row⟩ :: evs ∧
          ⟨370, item4 sb ++ item1 pos ++ item1 0⟩ ∈ evs)) ∧
    (∀ (s : State) (sb : Nat), (s.sb sb).slc = false → (s.sb sb).st = .opened → (s.sb sb).rows < 3072 →
      (s.sb sb).rows * (s.sb sb).rowWords < s.filled sb → s.filled sb < ((s.sb sb).rows + 4) * (s.sb sb).rowWords →
      ∃ t, exec (.wordlinePad sb) s = .next t ∧ (t.sb sb).rows = min ((s.sb sb).rows + 4) 3072 ∧ (t.sb sb).done = 0) ∧
    (∀ (s : State) (channel die : Nat), channel < 64 → die < 24 → s.blockInReset (.fch channel) = false →
      let at_ := (4 * die + channel % 4, channel / 4)
      let op := (tget s.ftl.dieOps (dieKey at_)).getD ⟨s.erasing at_, 0, false⟩
      ((tget s.ftl.dieOps (dieKey at_)).isSome = true ∨ s.workAt at_ ≠ [] →
        op.suspended = false → op.suspends < min 32 (s.fld (Reg.FCH_CH_CFG_MAX_SUSPENDS channel)) →
        s.readAt (fun _ => true) at_ = true →
        ∃ t, exec (.programSuspend channel die) s = .next t ∧
          tget t.ftl.dieOps (dieKey at_) = some { op with suspends := op.suspends + 1, suspended := true } ∧
          (∀ x, x ≠ dieKey at_ → tget t.ftl.dieOps x = tget s.ftl.dieOps x) ∧ OnlyChanges [.ftl] s t) ∧
      (op.suspended = true ∨ min 32 (s.fld (Reg.FCH_CH_CFG_MAX_SUSPENDS channel)) ≤ op.suspends ∨
          s.readAt (fun _ => true) at_ = false →
        exec (.programSuspend channel die) s = .next s)) ∧
    (∀ (s : State) (sb q n : Nat), q < (s.sb sb).words → s.blockInReset (.fch (s.chanOfWord sb q)) = false →
      tget (s.sb sb).saved q = none → s.wordVacant sb q = false →
      s.flt.swatched = [] →
      (n ≤ 84 → s.idx.rebuilding = false → exec (.dieReadDone sb q (.hard n)) s = .next s) ∧
      (s.hasParity sb q = true → tget (s.sb sb).staged q = none → (s.sb sb).holds q = true → s.ftl.rebuilds.length < 64 →
        s.ftl.rebuilds.contains (sb, q) = false →
        ∃ (t : State) (evs : List Ev), exec (.dieReadDone sb q .uncorrectable) s = .next t ∧
          t.ftl.rebuilds = s.ftl.rebuilds ++ [(sb, q)] ∧ (t.sb sb).lost.contains q = true ∧
          t.flt.raised = s.flt.raised ++ ⟨640 + 6 * s.chanOfWord sb q + 1, s.wordItems sb q⟩ :: evs)) ∧
    (∀ (s : State) (sb q : Nat), s.ftl.rebuilds.contains (sb, q) = true →
      (∀ second, second = true ∨ s.stripeBroken sb q = true →
        ∃ (t : State) (evs : List Ev), exec (.droppedStitchRebuilt sb q second) s = .next t ∧
          t.ftl.rebuilds = s.ftl.rebuilds.erase (sb, q) ∧ t.flt.raised = s.flt.raised ++ evs ∧
          ⟨377, item4 sb ++ item4 q⟩ ∈ evs ∧ (t.sb sb).lost.contains q = true ∧
          (s.idx.dir = [] → (∀ e ∈ s.ftl.sbs, e.2.stream = 6 → e.2.st ≠ .closed) →
            evs = [⟨377, item4 sb ++ item4 q⟩] ∧ OnlyChanges [.ftl, .flt] s t)) ∧
      ((s.sb sb).st ≠ .free → s.stripeBroken sb q = false →
        ∃ (t : State) (evs : List Ev), exec (.droppedStitchRebuilt sb q false) s = .next t ∧
          t.ftl.rebuilds = s.ftl.rebuilds.erase (sb, q) ∧
          tget (t.sb sb).saved q = some ((s.rebuiltWord sb q).take 4096) ∧
          t.flt.raised = s.flt.raised ++ evs ∧ ⟨368, item4 sb ++ item4 q⟩ ∈ evs)) ∧
    (∀ (s : State) (sb : Nat), s.eraseEnds sb = true → (∀ x ∈ s.emptying, x = sb) → s.ftl.moves = [] →
      s.ftl.verifies = [] → (∀ e ∈ s.ftl.sbs, e.2.stream = 6 → e.2.st ≠ .closed) →
      let wear := (s.sb sb).wear + eraseWear (s.eraseSlc sb)
      let vacant := (s.sb sb).vacant ||| (s.sb sb).retiring
      (s.ftl.upkeep = [] → wear < 40 * s.retirePe → (positions vacant).length ≤ 2 →
        ∃ t, exec (.eraseDone sb) s = .next t ∧
          t.sb sb = { Sb.fresh with
            slc := s.eraseSlc sb, wear := wear, vacant := vacant, skipped := vacant } ∧ t.emptying = []) ∧
      (s.ftl.upkeep = [] → (40 * s.retirePe ≤ wear ∨ 2 < (positions vacant).length) →
        ∃ (t : State) (evs : List Ev), exec (.eraseDone sb) s = .next t ∧ (t.sb sb).st = .retired ∧ (t.sb sb).wear = wear ∧
          ⟨371, item4 sb⟩ ∈ evs ∧ t.flt.raised = s.flt.raised ++ evs) ∧
      (∀ d k, s.ftl.upkeep = [⟨4, d, 2, 0, 0, k, sb⟩] → wear < 40 * s.retirePe → (positions vacant).length ≤ 2 →
        ∃ u : State, exec (.eraseDone sb) s = .next (u.finish 4 d esDone (leBytes 4 (k + 1))) ∧ (u.sb sb).st = .free ∧
          u.ftl.upkeep = []) ∧
      (∀ pos, s.ftl.upkeep = [] → pos < 16 →
        ∃ (t : State) (evs : List Ev), exec (.eraseFail sb pos) s = .next t ∧ (t.sb sb).vacant.getLsbD pos = true ∧
          t.flt.raised = s.flt.raised
            ++ ⟨640 + 6 * chanOf sb pos + 3, item1 (dieNoOf sb) ++ item2 (sb % 4096)⟩ :: evs)) ∧
    (∀ (s : State) (channel die : Nat), channel < 64 → die < 24 →
      (bitOf (s.fld (Reg.FCH_CH_STATUS_DIE_FAILED channel)) die = true → exec (.dieFailed channel die) s = .next s) ∧
      (bitOf (s.fld (Reg.FCH_CH_STATUS_DIE_FAILED channel)) die = false →
        ∃ (t : State) (evs : List Ev), exec (.dieFailed channel die) s = .next t ∧
          bitOf (t.fld (Reg.FCH_CH_STATUS_DIE_FAILED channel)) die = true ∧ 4 * die + channel % 4 ∈ t.ftl.degraded ∧
          t.flt.raised = s.flt.raised ++ [⟨640 + 6 * channel + 4, item1 die⟩,
            ⟨374, item1 (4 * die + channel % 4) ++ item1 channel ++ item1 die⟩] ++ evs)) ∧
    (∀ (s : State) (channel cause : Nat), channel < 64 →
      (s.flt.sticky.getLsbD (640 + 6 * channel + 5) = false →
        (∃ t, exec (.channelFault channel cause) s = .next t ∧
          t.flt.raised = s.flt.raised ++ [⟨640 + 6 * channel + 5, item1 cause⟩] ∧ OnlyChanges [.flt] s t) ∧
        ∃ t, exec (.hangDetected (.block (.fch channel))) s = .next t ∧
          t.flt.raised = s.flt.raised ++ [⟨640 + 6 * channel + 5, item1 1⟩] ∧ OnlyChanges [.flt] s t) ∧
      (s.flt.sticky.getLsbD (640 + 6 * channel + 5) = true → s.chOffline channel = false →
        ∃ t, exec (.channelFault channel cause) s = .next t ∧ t.chOffline channel = true ∧
          ∀ die < 24, 4 * die + channel % 4 ∈ t.ftl.degraded)) ∧
    (∀ (s : State) (b : EngBlock), (∀ n, b ≠ .fch n) →
      ∃ (t : State) (x : Nat), exec (.hangDetected (.block b)) s = .next t ∧ t.flt.raised = s.flt.raised
          ++ [⟨EngBlock.errorSource b, if b = .val ∨ b = .cip then item1 x else []⟩] ∧ OnlyChanges [.flt] s t) ∧
    (∀ (s : State) (queue cls channel : Nat), (s.pool queue channel cls).1 = 0 → 0 < (s.pool queue channel cls).2 →
      ∃ (t : State) (x : Nat), exec (.hangDetected (.pool queue cls channel)) s = .next t ∧
        t.flt.raised = s.flt.raised ++ [⟨6, item1 queue ++ item1 cls ++ item1 channel ++ item1 x⟩] ∧ OnlyChanges [.flt] s t)

/-- LEDGER_LINE_WRITE of a line with storage stores the bytes in both copies of a pair and counts a write in both groups,
and makes the segment durable that it completes; a third failed write-verify retires the line, with event 513.
GAP_MOVE moves the gap of a group one line with its marker, wrapping with START, and keeps what was written beyond the
interval. GAUGE_REFILL adds one token below 2^32, and gives a waiting commit its tokens when they suffice.
LEDGER_GROUP_FAILED and LEDGER_DEVICE_FAILED record the loss, lose the recorder lines there, and REC falls back. A LDG
that is not ready, or is in reset, writes no line. USAGE_CHECKPOINT, when usage has changed, stores it with the
highest JSEQ; MAP_CHECKPOINT stores it too, and, when the META stream has room, every map piece that a line below the
floor changed or that changed without a line; the next JSEQ becomes the floor, and no journal line below it is left.
From 10_ledger.md (R330, R332, R337, R340, R342, R349, R350, R351); 18_event_recorder.md (R556);
11_flash_layout_and_mapping.md (R385); 15_cast_on_and_pick_up.md (R606). -/
def Obligations.LedgerKeepsItsLines : Prop :=
  (∀ (s : State) (line failsA failsB : Nat) (data : Bytes), s.ldg.ready = true → line < ledgerLinesTotal →
      s.pwr.takeover = false → s.blockInReset .ldg = false → s.ldg.dev0Failed = false → s.ldg.dev1Failed = false →
      singleCopy (copyAOf line) = false → s.fld Reg.FLT_SWATCH_CTL_ARM = 0 → Tbl.wf s.ldg.lines = true →
      let a := copyAOf line
      s.lineStuck a = false → s.lineStuck (a + 128) = false →
      (failsA < 3 → failsB < 3 →
        ∃ t, exec (.ledgerLineWrite line data failsA failsB none) s = .next t ∧
          tget t.ldg.lines a = (if allZero (padTo 64 data) then none else some (padTo 64 data, padTo 64 data)) ∧
          (∀ x, x ≠ a → tget t.ldg.lines x = tget s.ldg.lines x) ∧
          (∀ g, t.lgroup g = if g = a % 256 ∨ g = (a + 128) % 256 then
            { s.lgroup g with
              writes := (s.lgroup g).writes + 1, sinceMove := (s.lgroup g).sinceMove + 1 } else s.lgroup g) ∧
          OnlyChanges [.ldg, .flt] s t) ∧
      (3 ≤ failsA → failsB < 3 → (s.lgroup (a % 256)).failed = false → (s.lgroup (a % 256)).sparesUsed < groupSpares →
        ∃ (t : State) (e : Ev), exec (.ledgerLineWrite line data failsA failsB none) s = .next t ∧ e ∈ t.flt.raised ∧ e.src = 513 ∧
          (t.lgroup (a % 256)).sparesUsed = (s.lgroup (a % 256)).sparesUsed + 1) ∧
      (∀ ref raw c g, s.durLine ref a = some raw → s.cmd? ref.cmd = some c → tget c.work ref.seg = some (.writing g) →
        s.lineSent ref = true → failsA < 3 → failsB < 3 →
        ∃ t c', exec (.ledgerLineWrite line data failsA failsB (some ref)) s = .next t ∧
          tget t.ldg.lines a = (if allZero raw.1 && allZero raw.2 then none else some raw) ∧ t.cmd? ref.cmd = some c' ∧
          tget c'.work ref.seg = some (.durable g))) ∧
    (∀ (s : State) (line failsA failsB : Nat) (data : Bytes) (ref : Option DurRef),
      s.ldg.ready = false ∨ s.pwr.takeover = true ∨ s.blockInReset .ldg = true ∨ ledgerLinesTotal ≤ line ∨
        s.lineOpen (copyAOf line) = false →
      exec (.ledgerLineWrite line data failsA failsB ref) s = .next s) ∧
    (∀ (s : State) (group : Nat),
      (s.ledgerOpen = true → group < 256 → (s.lgroup group).failed = false → s.gapInterval ≤ (s.lgroup group).sinceMove →
        ∃ t, exec (.gapMove group) s = .next t ∧
          (t.lgroup group).sinceMove = (s.lgroup group).sinceMove - s.gapInterval ∧
          (t.lgroup group).marker = (t.lgroup group).gap ∧
          ((s.lgroup group).gap = 0 → (t.lgroup group).gap = 250880 ∧
            (t.lgroup group).start = ((s.lgroup group).start + 1) % 250880) ∧
          ((s.lgroup group).gap ≠ 0 → (t.lgroup group).gap = (s.lgroup group).gap - 1 ∧
            (t.lgroup group).start = (s.lgroup group).start) ∧
          (∀ g, g ≠ group → t.lgroup g = s.lgroup g) ∧ OnlyChanges [.ldg] s t) ∧
      (s.ledgerOpen = false ∨ (s.lgroup group).failed = true ∨ (s.lgroup group).sinceMove < s.gapInterval →
        exec (.gapMove group) s = .next s)) ∧
    (∀ s : State,
      (s.ldg.ready = true → s.ldg.level < 2 ^ 32 → s.ldg.metaQueue = [] →
        ∃ t, exec .gaugeRefill s = .next t ∧ t.ldg = { s.ldg with level := s.ldg.level + 1 } ∧ OnlyChanges [.ldg] s t) ∧
      (∀ n cmd c, s.ldg.ready = true → s.ldg.level < 2 ^ 32 → s.ldg.metaQueue = [(n, some cmd)] → n ≤ s.ldg.level + 1 →
        s.cmd? cmd = some c →
        ∃ t, exec .gaugeRefill s = .next t ∧ t.ldg.metaQueue = [] ∧ t.ldg.level = s.ldg.level + 1 - n ∧
          t.cmd? cmd = some { c with tokens := c.tokens + n }) ∧
      (s.ldg.ready = false ∨ 2 ^ 32 ≤ s.ldg.level → exec .gaugeRefill s = .next s)) ∧
    (∀ (s : State) (group : Nat), group < 256 → (s.lgroup group).failed = false → s.deviceWorks (group / 128) = true →
      Tbl.wf s.recorder.lines = true → (∀ e ∈ s.recorder.lines, e.2.row % recRing = e.1) →
      ∃ (t : State) (evs : List Ev), exec (.ledgerGroupFailed group) s = .next t ∧ (t.lgroup group).failed = true ∧
        (∀ row, (0x3C00000 + row) % 256 = group → tget t.recorder.lines row = none) ∧
        t.recorder.fallback.isSome = true ∧ t.flt.raised = s.flt.raised ++ ⟨515, item1 group⟩ :: evs) ∧
    (∀ (s : State) (device : Nat), device < 2 → s.deviceWorks device = true →
      Tbl.wf s.recorder.lines = true → (∀ e ∈ s.recorder.lines, e.2.row % recRing = e.1) →
      ∃ (t : State) (evs : List Ev), exec (.ledgerDeviceFailed device) s = .next t ∧ t.deviceWorks device = false ∧
        (∀ row, (0x3C00000 + row) % 256 / 128 = device → tget t.recorder.lines row = none) ∧
        t.recorder.fallback.isSome = true ∧ t.flt.raised = s.flt.raised ++ ⟨516, item1 device⟩ :: evs) ∧
    (∀ s : State, s.ldg.ready = true → s.blockInReset .sch = false →
      (s.ldg.kept.usageCkpt.2 ≠ s.sch.usage →
        ∃ t, exec .usageCheckpoint s = .next t ∧ t.ldg.kept.usageCkpt = (s.ldg.kept.nextJseq - 1, s.sch.usage) ∧
          t.ldg.kept.journal = s.ldg.kept.journal ∧ t.sch = s.sch) ∧
      (s.ldg.kept.usageCkpt.2 = s.sch.usage → exec .usageCheckpoint s = .next s)) ∧
    (∀ s : State, s.ftl.mapReady = true → s.blockInReset .ftl = false → 1 ≤ s.ldg.kept.nextJseq →
      let changed := (((s.ldg.kept.journal.filter fun j => decide (j.jseq < s.ldg.kept.nextJseq)).filterMap
        fun j => s.pieceOf j.kind j.target) ++ s.ftl.dirty).eraseDups
      let written := changed.foldl (fun (m : Option State) p => m.bind fun s => s.writePiece p)
        (some (s.checkpointUsage.onFtl fun t => { t with dirty := [] }))
      (written.isSome = true →
        ∃ t, exec .mapCheckpoint s = .next t ∧ t.ldg.kept.usageCkpt = (s.ldg.kept.nextJseq - 1, s.sch.usage) ∧
          t.ldg.kept.mapFloor = s.ldg.kept.nextJseq ∧ (∀ p ∈ changed, (tget t.ldg.kept.pieces p).isSome = true) ∧
          ∀ j ∈ t.ldg.kept.journal, s.ldg.kept.nextJseq ≤ j.jseq) ∧
      (written = none → exec .mapCheckpoint s = .next s.checkpointUsage))

/-- FAULT_EVENT of one raised event of a watched source takes it out of the raised ones and sets its STICKY bit; the first
fault latches FLT_FIRST; level 2 traps, level 3 puts its block in reset, level 4 and above begins a chip reset with
the cause of R529; REC falls back with the event of a region that a group lost. RAIL_PAIR_FAULT and RAIL_TEST break a
watched pair, with event 0; COLLECTOR_MESSAGE hands a new event on, counts a bad message, and breaks the collector's
sources at the third. STICKY_CLEAR clears the bits written unless their source is LIVE (log 20); FLT_FIRST_CLEAR arms
the latch; ERR_OUT_RELEASE needs 0xE7C1. A swatch arms only with a COUNT, a target and an unlocked block. From
17_fault_collection.md (R520, R521, R522, R524, R526, R527, R529, R530, R531, R532, R533, R540);
08_value_path_and_check_values.md (R293). -/
def Obligations.FaultsAreCollected : Prop :=
  (∀ (s : State) (e : Ev), s.watched e.src = true → s.fld Reg.FLT_SWATCH_CTL_ARM = 0 →
      let level := s.escLevel e.src
      (e.src = 517 → s.recorder.regionDue.isSome = true → level ≤ 2 →
        ∃ t, exec (.faultEvent [e]) s = .next t ∧ t.recorder.fallback.isSome = true) ∧
      (e.src ≠ 517 ∨ s.recorder.regionDue = none →
      ∃ t, exec (.faultEvent [e]) s = .next t ∧
        (level ≤ 2 → t.flt.sticky.getLsbD e.src = true ∧
          (∃ evs, t.flt.raised = s.flt.raised.erase e ++ evs) ∧
          (eventClass e.src ≠ 0 → s.flt.first = none →
            t.flt.first = some ⟨e.src, eventClass e.src, level, false⟩) ∧
          (level = 2 → Sends s t [.trap e.src]) ∧
          (level < 2 → t.nfe = s.nfe)) ∧
        (level = 3 → s.rst.run = .running → e.src ≠ 128 → e.src ≠ 129 → e.src ≠ 130 → ∀ b, blockOfEvent e = some b →
          (∀ n, b ≠ .fch n) → b ∈ t.sch.inReset) ∧
        (4 ≤ level → s.rst.run = .running → t.rst.cause = chipCause e.src ∧ t.rst.run ≠ .running))) ∧
    (∀ (s : State) (src : Nat), src < 1152 →
      (s.watched src = true →
        ∃ t, exec (.railPairFault src) s = .next t ∧ t.flt.broken.getLsbD src = true ∧ t.flt.lastBroken = src ∧
          t.flt.raised = s.flt.raised ++ [⟨0, item2 src⟩] ∧ OnlyChanges [.flt] s t) ∧
      (s.watched src = false → exec (.railPairFault src) s = .next s) ∧
      (s.watched src = true → s.fld Reg.FLT_SWATCH_CTL_ARM = 0 →
        ∃ t, exec (.railTest [src]) s = .next t ∧ t.flt.broken.getLsbD src = true ∧
          t.flt.raised = s.flt.raised ++ [⟨0, item2 src⟩] ∧ OnlyChanges [.flt] s t) ∧
      (s.fld Reg.FLT_SWATCH_CTL_ARM = 0 → exec (.railTest []) s = .next s)) ∧
    (∀ (s : State) (collector : Nat) (e : Ev), e ∉ s.flt.raised →
      (∃ t, exec (.collectorMessage collector true [e]) s = .next t ∧ t.flt.raised = s.flt.raised ++ [e] ∧
        OnlyChanges [.flt] s t) ∧
      ((tget s.flt.crcFails collector).getD 0 < 2 →
        ∃ t, exec (.collectorMessage collector false [e]) s = .next t ∧
          tget t.flt.crcFails collector = some ((tget s.flt.crcFails collector).getD 0 + 1) ∧
          t.flt.raised = s.flt.raised ∧ OnlyChanges [.flt] s t) ∧
      (2 ≤ (tget s.flt.crcFails collector).getD 0 →
        ∃ (t : State) (x : Nat), exec (.collectorMessage collector false [e]) s = .next t ∧
          t.flt.raised = s.flt.raised ++ [⟨0, item2 x⟩] ∧
          (∀ n < 1152, sourceDefined n = true → collectorOf n = collector → t.flt.broken.getLsbD n = true) ∧
          OnlyChanges [.flt] s t)) ∧
    (∀ (s : State) (word : Nat) (mask : W32), word < 36 →
      ∃ t, exec (.stickyClear word mask) s = .next t ∧ t.flt.raised = s.flt.raised ∧
        (∀ n < 1152, t.flt.sticky.getLsbD n = (s.flt.sticky.getLsbD n && !(decide (n / 32 = word) && mask.getLsbD (n % 32)
          && !(s.flt.raised.any fun e => decide (e.src = n))))) ∧ OnlyChanges [.flt] s t) ∧
    (∀ (s : State) (code : Nat),
      (∃ t, exec .fltFirstClear s = .next t ∧ t.flt = { s.flt with first := none } ∧ OnlyChanges [.flt] s t) ∧
      (∃ t, exec (.errOutRelease 0xE7C1) s = .next t ∧ t.flt = { s.flt with errOut := false } ∧ OnlyChanges [.flt] s t) ∧
      (code ≠ 0xE7C1 → exec (.errOutRelease code) s = .next s)) ∧
    (∀ (s : State) (value : W32),
      (∃ t, exec (.fltSwatchArm value) s = .next t ∧
        t.fld Reg.FLT_SWATCH_CTL_TARGET = Reg.FLT_SWATCH_CTL_TARGET.of value ∧
        t.fld Reg.FLT_SWATCH_CTL_COUNT = Reg.FLT_SWATCH_CTL_COUNT.of value ∧
        t.fld Reg.FLT_SWATCH_CTL_ARM =
          (if Reg.FLT_SWATCH_CTL_COUNT.of value = 0 ∨ Reg.FLT_SWATCH_CTL_TARGET.of value = 7 then 0
            else if s.locked 0x150000 then s.fld Reg.FLT_SWATCH_CTL_ARM else Reg.FLT_SWATCH_CTL_ARM.of value) ∧
        OnlyChanges [.reg Reg.FLT_SWATCH_CTL_ARM.addr] s t) ∧
      ∃ t, exec (.valSwatchArm value) s = .next t ∧
        t.fld Reg.VAL_SWATCH_TARGET = Reg.VAL_SWATCH_TARGET.of value ∧
        t.fld Reg.VAL_SWATCH_COUNT = Reg.VAL_SWATCH_COUNT.of value ∧
        t.fld Reg.VAL_SWATCH_ARM = (if Reg.VAL_SWATCH_COUNT.of value = 0 then 0
          else if s.locked 0xE0000 then s.fld Reg.VAL_SWATCH_ARM else Reg.VAL_SWATCH_ARM.of value) ∧
        OnlyChanges [.reg Reg.VAL_SWATCH_ARM.addr] s t)

/-- With no fatal event waiting and no coalescing, RECORD_WRITE takes the head of the FIFO to the Ledger line of its row
while LDG may write, or in fallback to the fallback ring; a row whose line has no storage is lost with event 546; an
empty FIFO changes nothing. REC_COPY_BACK counts one report of new lines; with the last one the fallback entries go to
their lines, REC leaves fallback and records event 545. From 18_event_recorder.md (R544, R547, R549, R556, R557). -/
def Obligations.RecordsAreWritten : Prop :=
  (∀ (s : State) (r : Rec) (rest : List Rec), s.recorder.fifo = r :: rest → s.recorder.waitFatal = [] →
      s.recorder.coalescing = false →
      (s.recorder.fallback = none → s.recorder.ready = true → s.ledgerOpen = true → s.lineStuck (recLine r.row) = false →
        ∃ t, exec .recordWrite s = .next t ∧ t.recorder.fifo = rest ∧ tget t.recorder.lines (r.row % recRing) = some r ∧
          (∀ x, x ≠ r.row % recRing → tget t.recorder.lines x = tget s.recorder.lines x) ∧
          t.recorder.rowNext = s.recorder.rowNext) ∧
      (s.recorder.fallback = none → s.recorder.ready = true → s.ledgerOpen = true → s.lineStuck (recLine r.row) = true →
        Tbl.wf s.recorder.lines = true →
        ∃ t, exec .recordWrite s = .next t ∧ t.recorder.fifo = rest ∧ tget t.recorder.lines (r.row % recRing) = none ∧
          ⟨546, item8 r.row⟩ ∈ t.flt.raised) ∧
      (s.recorder.fallback = none → s.recorder.ready = false ∨ s.ledgerOpen = false → exec .recordWrite s = .next s) ∧
      (∀ f, s.recorder.fallback = some f → f.ring.length < 511 →
        ∃ t, exec .recordWrite s = .next t ∧ t.recorder.fifo = rest ∧
          t.recorder.fallback = some { f with ring := f.ring ++ [{ r with fallback := true }] } ∧
          OnlyChanges [.recorder] s t)) ∧
    (∀ s : State, s.recorder.fifo = [] → exec .recordWrite s = .next s) ∧
    (∀ (s : State) (f : Fallback), s.recorder.fallback = some f →
      (1 < f.reports →
        ∃ t, exec .recCopyBack s = .next t ∧
          t.recorder = { s.recorder with fallback := some { f with reports := f.reports - 1 } } ∧
          OnlyChanges [.recorder] s t) ∧
      (f.reports ≤ 1 → s.ledgerOpen = false → exec .recCopyBack s = .next s) ∧
      (f.reports ≤ 1 → s.ledgerOpen = true → (∀ r ∈ f.entry0 :: f.ring, s.lineStuck (recLine r.row) = false) →
        (f.entry0 :: f.ring).Pairwise (fun a b => a.row % recRing ≠ b.row % recRing) →
        ∃ (t : State) (evs : List Ev), exec .recCopyBack s = .next t ∧ t.recorder.fallback = none ∧
          (∀ r ∈ f.entry0 :: f.ring, tget t.recorder.lines (r.row % recRing) = some r) ∧
          t.flt.raised = s.flt.raised ++ evs ++ [⟨545, item4 (f.ring.length + 1) ++ item4 f.dropped⟩]))

/-- BLOCK_RESET_EXIT takes the block out of reset and drops its latches. HEADLESS_TIMEOUT, START_TIMEOUT and
RST_SOFT_WRITE of 0x5EC0 by the service cores give a running or starting drive a chip reset of their cause;
START_TIMEOUT counts a failed start. RESET_DRAIN_END leaves no command and, where the cause calls for digests, a clean
reset record. CHIP_START runs the steps of a start with the first bank that passes, resumes the versions at their
ceiling, holds writes until the hold-up bank is ready, and leaves the drive starting; with none, or after three failed
starts, it is in ROM recovery. START_DONE, once every block is locked, completes the start. RECOVERY_DOWNLOAD of a
good set writes its bank and resets with cause 9, and refuses another. From 01_architecture.md (R41);
15_cast_on_and_pick_up.md (R474, R475, R477, R478, R479, R484, R485, R486, R487, R488); 05_ordering_and_completion.md
(R192, R197); 19_identity_attestation_and_update.md (R573, R583); 00_scope.md (R604). -/
def Obligations.ResetsAndStarts : Prop :=
  (∀ (s : State) (b : EngBlock),
      (b ∈ s.sch.inReset →
        ∃ t, exec (.blockResetExit b) s = .next t ∧ (∀ x, x ∈ t.sch.inReset ↔ x ∈ s.sch.inReset ∧ x ≠ b) ∧
          ∀ a ∈ latchesOf b, tget t.latches a = none) ∧
      (b ∉ s.sch.inReset → exec (.blockResetExit b) s = .next s)) ∧
    (∀ s : State, s.rst.run = .running →
      (s.pins.imageDown = true →
        ∃ (t : State) (evs : List Ev), exec .headlessTimeout s = .next t ∧ t.rst.cause = 4 ∧ t.rst.run ≠ .running ∧
          t.flt.raised = s.flt.raised ++ ⟨5, []⟩ :: evs) ∧
      (s.pins.imageDown = false → exec .headlessTimeout s = .next s) ∧
      (∃ t, exec (.rstSoftWrite .service 0x5EC0) s = .next t ∧ t.rst.cause = 6 ∧ t.rst.run ≠ .running) ∧
      (∀ core code, core ≠ .service ∨ code ≠ 0x5EC0 → exec (.rstSoftWrite core code) s = .next s) ∧
      exec .startTimeout s = .next s) ∧
    (∀ s : State, s.rst.run = .starting →
      (∃ t, exec .startTimeout s = .next t ∧ t.rst.cause = 5 ∧ t.rst.run ≠ .starting ∧
        t.rst.failedStarts = min 3 (s.rst.failedStarts + 1)) ∧
      (s.fld Reg.SYS_LOCK_ALL_ALL = 1 →
        ∃ t, exec .startDone s = .next t ∧ t.rst.run = .running ∧ t.rst.failedStarts = 0 ∧
          t.flt.raised = s.flt.raised ++ [⟨41, item1 (if s.rst.warm then 1 else 0) ++
            item4 ((s.flt.time - s.rst.releasedAt) / 1000000)⟩] ∧ OnlyChanges [.rst, .sch, .flt] s t) ∧
      (s.fld Reg.SYS_LOCK_ALL_ALL ≠ 1 → exec .startDone s = .next s)) ∧
    (∀ s : State,
      (s.rst.run = .prelude →
        ∃ t, exec .resetDrainEnd s = .next t ∧ (t.rst.run = .inReset ∨ t.rst.run = .off) ∧ t.sch.cmds = [] ∧
          t.rst.cause = s.rst.cause ∧
          (causeDigests s.rst.cause = true → ∃ (mask : BitVec 5) (jseq : Nat) (ds : List W64), t.ldg.kept.resetRec
            = (ResetRec.mk (((parseResetRec s.ldg.kept.resetRec).rseq + 1) % 2 ^ 32) true s.rst.cause mask jseq ds).bytes)) ∧
      (s.rst.run ≠ .prelude → exec .resetDrainEnd s = .next s)) ∧
    (∀ (s : State) (i : StartIn), s.mayStartChip = true →
      (∀ n, s.rst.failedStarts ≠ 3 → s.bankOrder.find? (fun n => s.bankStarts i.bankOk n) = some n →
        ∃ t, exec (.chipStart i) s = .next t ∧ t.rst.run = .starting ∧ t.sec.runningBank = n ∧ t.ldg.ready = true ∧
          t.recorder.ready = true ∧ t.cip.kekReady = true ∧ t.cip.restoreDone = true ∧ t.ftl.mapReady = true ∧
          t.rst.warm = !s.startsCold ∧ t.pwr.ps = 0 ∧ (∀ k < 30, t.domainOn k = true) ∧
          (objectLost i 0 = false → t.sch.nextVersion = s.ldg.kept.versionCeiling) ∧
          (s.ldg.level = 0 → t.ldg.level = 0) ∧ t.sch.holdWrites = true ∧ t.pwr.holdupReady = false) ∧
      (s.rst.failedStarts = 3 ∨ s.bankOrder.find? (fun n => s.bankStarts i.bankOk n) = none →
        ∃ (t : State) (evs : List Ev), exec (.chipStart i) s = .next t ∧ t.rst.run = .recovery ∧
          t.flt.raised = s.flt.raised ++ evs ++ [⟨43, item1 s.rst.failedStarts⟩] ∧
          ∀ k < 30, t.domainOn k = decide (k ≤ 1 ∨ k = 29))) ∧
    (∀ (s : State) (i : StartIn), s.mayStartChip = false → exec (.chipStart i) s = .next s) ∧
    (∀ (s : State) (manifest stream : Bytes), s.rst.run = .recovery →
      (s.recoveryRefusal manifest stream = none →
        ∃ t, exec (.recoveryDownload manifest stream) s = .next t ∧ t.rst.cause = 9 ∧ t.rst.failedStarts = 0 ∧
          (t.rst.run = .inReset ∨ t.rst.run = .off) ∧ t.sec.goodBank = s.recoveryBank ∧
          t.sec.bank s.recoveryBank = some (s.buildSet manifest stream) ∧
          Sends s t [.mgmt .ok 0 []]) ∧
      (∀ r, s.recoveryRefusal manifest stream = some r →
        ∃ t, exec (.recoveryDownload manifest stream) s = .next t ∧
          Sends s t [.mgmt .updateRefused r []] ∧
          t.flt.raised = s.flt.raised ++ [⟨1092, item1 2 ++ item1 r⟩] ∧ OnlyChanges [.nfe, .flt] s t))

/-- PS1_ENTRY, PS2_ENTRY and PS3_ENTRY from the state above, while the drive is quiet and their timer is enabled, give
every domain its mode in the new state and record event 70; a standby request goes on from PS2 to PS3, or waits for
it. PS0_REQUEST and WAKE_EVENT return to PS0, count a wake, name its source, and make every domain that is not On due;
DOMAIN_SWITCH switches the lowest one due whose needs are On. PHASE_LOST of a domain with two phases sets its bit and
records event 69. From 16_power_thermal_and_shedding.md (R491, R492, R493, R494, R495, R496, R497). -/
def Obligations.PowerStatesChange : Prop :=
  (∀ s : State,
      (s.pwr.ps = 0 → s.fld Reg.PWR_PS_CFG_PS1_IDLE_MS ≠ 0 → s.quiet1 = true →
        ∃ t, exec .ps1Entry s = .next t ∧ t.pwr.ps = 1 ∧
          (∀ n < 30, t.pwr.domains[n]? = some (domainMode 1 s.lpPort n)) ∧
          t.flt.raised = s.flt.raised ++ [⟨70, item1 0 ++ item1 1 ++ item1 s.pwr.wakeSrc⟩] ∧
          OnlyChanges [.pwr, .flt] s t) ∧
      (s.pwr.ps ≠ 0 ∨ s.fld Reg.PWR_PS_CFG_PS1_IDLE_MS = 0 ∨ s.quiet1 = false → exec .ps1Entry s = .next s) ∧
      (s.pwr.ps = 1 → s.fld Reg.PWR_PS_CFG_PS2_IDLE_100MS ≠ 0 → s.quiet2 = true →
        (s.pwr.standby = false ∨ s.quiet3 = false →
          ∃ t, exec .ps2Entry s = .next t ∧ t.pwr.ps = 2 ∧ t.pwr.standby = s.pwr.standby ∧
            (∀ n < 30, t.pwr.domains[n]? = some (domainMode 2 s.lpPort n)) ∧
            t.flt.raised = s.flt.raised ++ [⟨70, item1 1 ++ item1 2 ++ item1 s.pwr.wakeSrc⟩] ∧ OnlyChanges [.pwr, .flt] s t) ∧
        (s.pwr.standby = true → s.quiet3 = true →
          ∃ t, exec .ps2Entry s = .next t ∧ t.pwr.ps = 3 ∧ t.pwr.standby = false ∧
            (∀ n < 30, t.pwr.domains[n]? = some (domainMode 3 s.lpPort n)) ∧
            t.flt.raised = s.flt.raised ++ [⟨70, item1 1 ++ item1 2 ++ item1 s.pwr.wakeSrc⟩,
              ⟨70, item1 2 ++ item1 3 ++ item1 s.pwr.wakeSrc⟩] ∧ OnlyChanges [.pwr, .flt] s t)) ∧
      (s.pwr.ps ≠ 1 ∨ s.fld Reg.PWR_PS_CFG_PS2_IDLE_100MS = 0 ∨ s.quiet2 = false → exec .ps2Entry s = .next s) ∧
      (s.pwr.ps = 2 → s.quiet3 = true →
        s.pwr.standby = true ∨ (s.fld Reg.PWR_PS_CFG_PS3_IDLE_S ≠ 0 ∧ s.peersLinked = []) →
        ∃ t, exec .ps3Entry s = .next t ∧ t.pwr.ps = 3 ∧ t.pwr.standby = false ∧
          (∀ n < 30, t.pwr.domains[n]? = some (domainMode 3 s.lpPort n)) ∧
          t.flt.raised = s.flt.raised ++ [⟨70, item1 2 ++ item1 3 ++ item1 s.pwr.wakeSrc⟩] ∧ OnlyChanges [.pwr, .flt] s t) ∧
      (s.pwr.ps ≠ 2 ∨ s.quiet3 = false → exec .ps3Entry s = .next s)) ∧
    (∀ s : State, s.engined = true →
      (s.pwr.ps = 2 → s.quiet3 = true →
        ∃ t, exec .ps3Request s = .next t ∧ t.pwr.ps = 3 ∧ t.pwr.standby = false ∧
          (∀ n < 30, t.pwr.domains[n]? = some (domainMode 3 s.lpPort n)) ∧
          t.flt.raised = s.flt.raised ++ [⟨70, item1 2 ++ item1 3 ++ item1 s.pwr.wakeSrc⟩] ∧ OnlyChanges [.pwr, .flt] s t) ∧
      (s.pwr.ps < 2 ∨ s.pwr.ps = 2 ∧ s.quiet3 = false →
        ∃ t, exec .ps3Request s = .next t ∧ t.pwr = { s.pwr with standby := true } ∧ OnlyChanges [.pwr] s t) ∧
      (∀ (c : Instr) (source : Nat), (c = .wakeEvent source ∧ 1 ≤ source ∧ source ≤ 6 ∨ c = .ps0Request ∧ source = 5) →
        (s.pwr.ps ≠ 0 →
          ∃ t, exec c s = .next t ∧ t.pwr.ps = 0 ∧ t.pwr.wakeSrc = source ∧ t.pwr.standby = false ∧
            t.pwr.domains = s.pwr.domains ∧
            (∀ n < 30, (n, DomMode.on) ∈ t.pwr.due ↔ s.domainOn n = false) ∧
            t.fld Reg.PWR_PS_STAT_WAKES = min (s.fld Reg.PWR_PS_STAT_WAKES + 1) 0xFFFF ∧
            t.flt.raised = s.flt.raised ++ [⟨70, item1 s.pwr.ps ++ item1 0 ++ item1 source⟩]) ∧
        (s.pwr.ps = 0 →
          ∃ t, exec c s = .next t ∧ t.pwr = { s.pwr with standby := false } ∧ OnlyChanges [.pwr] s t))) ∧
    (∀ s : State, s.pwr.domains.length = 30 →
      (∀ n, s.nextDue = some n → n < 30 → Tbl.wf s.pwr.due = true →
        ∃ t, exec .domainSwitch s = .next t ∧ t.domainOn n = true ∧ tget t.pwr.due n = none ∧
          ∀ k, k ≠ n → t.domainOn k = s.domainOn k) ∧
      (s.nextDue = none → exec .domainSwitch s = .next s)) ∧
    (∀ (s : State) (domain phase b : Nat), phaseBit domain = some b →
      ∃ t, exec (.phaseLost domain phase) s = .next t ∧ (t.fld Reg.PWR_PHASE_FAULT_PHASE).testBit b = true ∧
        (∀ k, k ≠ b → (t.fld Reg.PWR_PHASE_FAULT_PHASE).testBit k = (s.fld Reg.PWR_PHASE_FAULT_PHASE).testBit k) ∧
        t.flt.raised = s.flt.raised ++ [⟨69, item1 domain ++ item1 phase⟩] ∧
        OnlyChanges [.reg Reg.PWR_PHASE_FAULT_PHASE.addr, .flt] s t) ∧
    (∀ (s : State) (domain phase : Nat), phaseBit domain = none → exec (.phaseLost domain phase) s = .next s)

/-- SHED_STAGE_ENTERED below the threshold of a stage puts it and every shallower one in force and records event 64 for
each that enters; stage 2 suspends forwarding, and stage 3 ends an accepted PUT with SHED. SHED_STAGE_LEFT lifts a
stage below which none is deeper, with event 65. HOLDUP_TAKEOVER below 35.0 V records event 66, resets with cause
HOLDUP and leaves only PD00 on. HOLDUP_TEST keeps the energy and, below 3.0 J, READY off with event 68. HOLDUP_READY
and HOLDUP_NOT_READY release the writes that a start holds, the second with event 67. From
16_power_thermal_and_shedding.md (R499, R500, R504, R505, R506, R507); 13_peer_chains.md (R440);
15_cast_on_and_pick_up.md (R474, R489). -/
def Obligations.SheddingAndHoldup : Prop :=
  (∀ (s : State) (k input : Nat), s.engined = true → 1 ≤ k → k ≤ 4 → s.pwr.shed = 0 → input < shedThreshold k →
      ∃ t, exec (.shedStageEntered k input) s = .next t ∧ t.pwr.p48 = input ∧
        (∀ j, 1 ≤ j → j ≤ 4 → t.shedding j = decide (j ≤ k)) ∧
        (∀ j, 1 ≤ j → j ≤ k → ⟨64, item1 j ++ item2 input⟩ ∈ t.flt.raised) ∧ (2 ≤ k → t.peer.suspended = true)) ∧
    (∀ (s : State) (input n : Nat) (c : Cmd), s.engined = true → s.pwr.shed = 3 → input < shedThreshold 3 → s.cmd? n = some c →
      c.ctx.isSome = true → c.stage = .accepted → c.op = .put → c.conds = [] → c.orphan = false →
      ∃ t, exec (.shedStageEntered 3 input) s = .next t ∧ Ended t n (c.filled (Outcome.of .shed))) ∧
    (∀ (s : State) (k input : Nat), s.shedding k = true ∨ shedThreshold k ≤ input →
      exec (.shedStageEntered k input) s = .next s) ∧
    (∀ (s : State) (k ms : Nat), 1 ≤ k → k ≤ 4 → s.shedding k = true →
      ((∀ j, k < j → j ≤ 4 → s.shedding j = false) →
        ∃ t, exec (.shedStageLeft k ms) s = .next t ∧ t.shedding k = false ∧
          (∀ j, 1 ≤ j → j < k → t.shedding j = s.shedding j) ∧
          (k = 2 → t.peer.suspended = false) ∧ t.flt.raised = s.flt.raised ++ [⟨65, item1 k ++ item4 ms⟩]) ∧
      (∀ j, k < j → j ≤ 4 → s.shedding j = true → exec (.shedStageLeft k ms) s = .next s)) ∧
    (∀ (s : State) (input bank : Nat), s.pwr.p48Present = true → s.pwr.auxPresent = true →
      (input < 3500 → s.rst.run = .running →
        ∃ (t : State) (evs : List Ev), exec (.holdupTakeover input bank) s = .next t ∧ t.rst.cause = 7 ∧ t.rst.run = .off ∧
          t.pwr.p48Present = false ∧ t.pwr.bankQv = bank % 256 ∧ t.eng.dram = [] ∧ t.sch.cmds = [] ∧
          (∀ n < 30, t.domainOn n = decide (n = 0)) ∧
          t.flt.raised = s.flt.raised ++ ⟨66, item2 input ++ item1 bank⟩ :: evs) ∧
      (3500 ≤ input → exec (.holdupTakeover input bank) s = .next s)) ∧
    (∀ (s : State) (dj : Nat),
      (30 ≤ dj →
        ∃ t, exec (.holdupTest dj) s = .next t ∧ t.fld Reg.PWR_HOLDUP_STAT_TEST_FAILED = 0 ∧
          t.pwr = { s.pwr with energyDj := min dj 255 } ∧
          OnlyChanges [.pwr, .reg Reg.PWR_HOLDUP_STAT_TEST_FAILED.addr] s t) ∧
      (dj < 30 →
        ∃ t, exec (.holdupTest dj) s = .next t ∧ t.fld Reg.PWR_HOLDUP_STAT_TEST_FAILED = 1 ∧
          t.pwr = { s.pwr with energyDj := dj, holdupReady := false } ∧
          t.flt.raised = s.flt.raised ++ [⟨68, item4 dj⟩] ∧
          OnlyChanges [.pwr, .flt, .reg Reg.PWR_HOLDUP_STAT_TEST_FAILED.addr] s t)) ∧
    (∀ s : State,
      (∃ t, exec .holdupReady s = .next t ∧ t.pwr.holdupReady = true ∧ 30 ≤ t.pwr.energyDj ∧ t.pwr.energyDj ≤ 120 ∧
        121 ≤ t.pwr.bankQv ∧ t.pwr.bankQv ≤ 248 ∧
        t.sch = { s.sch with holdWrites := false } ∧ OnlyChanges [.pwr, .sch] s t) ∧
      (s.engined = true → s.sch.holdWrites = true → s.pwr.holdupReady = false →
        ∃ t, exec .holdupNotReady s = .next t ∧ t.sch = { s.sch with holdWrites := false } ∧
          t.flt.raised = s.flt.raised ++ [⟨67, item4 s.pwr.energyDj⟩] ∧ OnlyChanges [.sch, .flt] s t) ∧
      (s.sch.holdWrites = false → exec .holdupNotReady s = .next s))

/-- THERMAL_STAGE_ENTERED at or above the stage's temperature less EARLY_C puts it in force, raises PEAK and records event
1120; THERMAL_STAGE_LEFT goes one stage down with event 1121, but not from a held stage 3. THM_SENSOR_FAULT of two
sensors that agree takes the higher; one out of range is rejected with event 1122; with both out, stage 3 is in force
and held. THERMAL_CRITICAL records event 1123 and holds the reset, until THERMAL_RESET_RELEASE. OVERTEMP above 150
degrees with its source enabled raises the CIP alarm. CLOCK_FAULT outside 2,900 to 3,200 edges records event 3 and,
with its source enabled, raises the CIP alarm. From 16_power_thermal_and_shedding.md (R508, R509, R511);
09_cipher_and_key_slots.md (R324); 01_architecture.md (R31). -/
def Obligations.TemperatureAndClock : Prop :=
  (∀ (s : State) (stage : Nat) (temp : Int), stage ≤ 4 →
      (s.pwr.stage < stage → enterTemp stage - s.earlyTemp ≤ temp →
        ∃ t, exec (.thermalStageEntered stage temp) s = .next t ∧
          t.pwr = { s.pwr with
            stage := stage, coldPlate := temp } ∧
          t.fld Reg.THM_STAGE_PEAK = max (s.fld Reg.THM_STAGE_PEAK) stage ∧
          t.flt.raised = s.flt.raised ++ [⟨1120, item1 stage ++ tempItem temp⟩] ∧
          OnlyChanges [.pwr, .flt, .mch, .reg Reg.THM_STAGE_PEAK.addr] s t) ∧
      (stage ≤ s.pwr.stage ∨ temp < enterTemp stage - s.earlyTemp → exec (.thermalStageEntered stage temp) s = .next s)) ∧
    (∀ (s : State) (stage seconds : Nat), 1 ≤ stage → s.pwr.stage = stage →
      (¬(s.pwr.stageHeld = true ∧ stage = 3) →
        ∃ t, exec (.thermalStageLeft stage seconds) s = .next t ∧ t.pwr = { s.pwr with stage := stage - 1 } ∧
          t.flt.raised = s.flt.raised ++ [⟨1121, item1 stage ++ item4 seconds⟩] ∧ t.cip = s.cip ∧ t.sch = s.sch) ∧
      (s.pwr.stageHeld = true → stage = 3 → exec (.thermalStageLeft stage seconds) s = .next s)) ∧
    (∀ (s : State) (a b junction : Int), s.pwr.sensorA = false → s.pwr.sensorB = false →
      (sensorInRange a = true → sensorInRange b = true → (a - b).natAbs ≤ 80 →
        ∃ t, exec (.thmSensorFault a b junction) s = .next t ∧
          t.pwr = { s.pwr with
            dieMax := junction, coldPlate := max a b } ∧ OnlyChanges [.pwr] s t) ∧
      (sensorInRange a = false → sensorInRange b = true →
        ∃ t, exec (.thmSensorFault a b junction) s = .next t ∧
          t.pwr = { s.pwr with
            sensorA := true, dieMax := junction, coldPlate := b } ∧
          t.flt.raised = s.flt.raised ++ [⟨1122, item1 0⟩] ∧ OnlyChanges [.pwr, .flt] s t) ∧
      (sensorInRange a = false → sensorInRange b = false → s.pwr.stage < 3 →
        ∃ t, exec (.thmSensorFault a b junction) s = .next t ∧ t.pwr.stage = 3 ∧ t.pwr.stageHeld = true ∧
          t.pwr.coldPlate = s.pwr.coldPlate ∧
          t.flt.raised = s.flt.raised ++ [⟨1122, item1 0⟩, ⟨1122, item1 1⟩,
            ⟨1120, item1 3 ++ tempItem s.pwr.coldPlate⟩])) ∧
    (∀ (s : State) (plate junction : Int),
      (1024 ≤ plate ∨ 1120 ≤ junction →
        ∃ t, exec (.thermalCritical plate junction) s = .next t ∧ t.rst = { s.rst with heldThermal := true } ∧
          t.flt.raised = s.flt.raised ++ [⟨1123, tempItem plate ++ tempItem junction⟩] ∧
          OnlyChanges [.pwr, .rst, .flt] s t) ∧
      (plate < 1024 → junction < 1120 → exec (.thermalCritical plate junction) s = .next s) ∧
      ∃ t, exec .thermalResetRelease s = .next t ∧ t.rst = { s.rst with heldThermal := false } ∧ OnlyChanges [.rst] s t) ∧
    (∀ (s : State) (temp : Int),
      (1200 < temp → (s.fld Reg.CIP_ALARM_EN_ENABLE).testBit 3 = true →
        ∃ t, exec (.overtemp temp) s = .next t ∧ t.pwr = { s.pwr with dieMax := temp } ∧ t.cip.alarm = true ∧
          ⟨425, item1 8⟩ ∈ t.flt.raised) ∧
      (1200 < temp → (s.fld Reg.CIP_ALARM_EN_ENABLE).testBit 3 = false →
        ∃ t, exec (.overtemp temp) s = .next t ∧ t.pwr = { s.pwr with dieMax := temp } ∧ OnlyChanges [.pwr] s t) ∧
      (temp ≤ 1200 → exec (.overtemp temp) s = .next s)) ∧
    (∀ (s : State) (edges : Nat),
      (edges < 2900 ∨ 3200 < edges → (s.fld Reg.CIP_ALARM_EN_ENABLE).testBit 2 = false →
        ∃ t, exec (.clockFault edges) s = .next t ∧ t.flt.raised = s.flt.raised ++ [⟨3, item4 edges⟩] ∧
          OnlyChanges [.flt] s t) ∧
      (edges < 2900 ∨ 3200 < edges → (s.fld Reg.CIP_ALARM_EN_ENABLE).testBit 2 = true →
        ∃ (t : State) (evs : List Ev), exec (.clockFault edges) s = .next t ∧
          t.flt.raised = s.flt.raised ++ [⟨3, item4 edges⟩] ++ evs ∧ ⟨425, item1 4⟩ ∈ evs ∧ t.cip.alarm = true) ∧
      (2900 ≤ edges → edges ≤ 3200 → exec (.clockFault edges) s = .next s))

/-- P48V_APPLIED and P3V3_AUX_APPLIED bring their rail; the first rail starts PD00 with its row at the stored ceiling.
P3V3_AUX_LOST records event 71, and without P48V takes PD00's state. RESET_IN_ASSERT, PWR_DISABLE_ASSERT and
PRESENT_N_RISE give a running drive a chip reset of cause 1 or 8, and their counterparts let it start; the transport
indication follows its pin. SMBUS_OFFSET_WRITE sets the offset and refuses further bytes, SMBUS_READ returns the
identity data from it, IDENTITY_REFRESH takes the dynamic fields anew. WILLADRA_CONNECTION accepts TLS 1.3 only. From
20_module_signals_and_ratings.md (R587, R589, R595, R596, R599, R602); 15_cast_on_and_pick_up.md (R474, R485, R489);
18_event_recorder.md (R546); 19_identity_attestation_and_update.md (R568). -/
def Obligations.PinsRailsAndPorts : Prop :=
  (∀ s : State, s.pwr.p48Present = false →
      (s.pwr.auxPresent = true →
        ∃ t, exec .p48vApplied s = .next t ∧ t.pwr.p48Present = true ∧ t.rst.powerLost = true ∧ t.rst.drained = false ∧
          t.rst.cause = (if s.rst.cause = 7 then 7 else 0) ∧ OnlyChanges [.pwr, .rst] s t) ∧
      (s.pwr.auxPresent = false →
        ∃ t, exec .p48vApplied s = .next t ∧ t.pwr.p48Present = true ∧ t.recorder.rowNext = s.ldg.kept.rowCeiling ∧
          t.sec.budget = (s.ldg.kept.leaf.map (·.2)).getD 0 ∧ t.fld Reg.RST_START_CFG_LIMIT_S = 120)) ∧
    (∀ s : State,
      (s.pwr.p48Present = true → exec .p48vApplied s = .next s) ∧
      (s.pwr.auxPresent = true →
        exec .p3v3AuxApplied s = .next s ∧
        (s.pwr.p48Present = true →
          ∃ t, exec .p3v3AuxLost s = .next t ∧ t.pwr.auxPresent = false ∧ t.flt.raised = s.flt.raised ++ [⟨71, []⟩] ∧
            OnlyChanges [.pwr, .flt] s t) ∧
        (s.pwr.p48Present = false →
          ∃ t, exec .p3v3AuxLost s = .next t ∧ t.pwr.auxPresent = false ∧ t.flt.sticky = 0 ∧ t.flt.time = 0 ∧
            t.flt.errOut = false ∧ t.recorder.fifo = [] ∧ t.sec.copyValid = false ∧ t.rst.failedStarts = 0)) ∧
      (s.pwr.auxPresent = false →
        exec .p3v3AuxLost s = .next s ∧
        (s.pwr.p48Present = true →
          ∃ t, exec .p3v3AuxApplied s = .next t ∧ t.pwr.auxPresent = true ∧ OnlyChanges [.pwr] s t))) ∧
    (∀ s : State,
      (s.rst.run = .running →
        (∃ t, exec .resetInAssert s = .next t ∧ t.rst.cause = 1 ∧ t.rst.heldPin = true ∧ t.pins.resetInLow = true ∧
          (t.rst.run = .inReset ∨ t.rst.run = .off) ∧ t.rst.drained = false) ∧
        (s.pins.pwrDisable = false →
          ∃ t, exec .pwrDisableAssert s = .next t ∧ t.rst.cause = 8 ∧ t.pins.pwrDisable = true ∧ t.rst.run ≠ .running) ∧
        (s.pins.presentLow = true →
          ∃ t, exec .presentNRise s = .next t ∧ t.rst.cause = 8 ∧ t.pins.presentLow = false ∧ t.rst.run ≠ .running)) ∧
      (∃ t, exec .resetInRelease s = .next t ∧ t.rst = { s.rst with heldPin := false } ∧
        t.pins = { s.pins with resetInLow := false } ∧ OnlyChanges [.rst, .pins] s t) ∧
      (∃ t, exec .pwrDisableRelease s = .next t ∧ t.pins = { s.pins with pwrDisable := false } ∧ OnlyChanges [.pins] s t) ∧
      (∃ t, exec .presentNFall s = .next t ∧ t.pins = { s.pins with presentLow := true } ∧ OnlyChanges [.pins] s t) ∧
      (∃ t, exec .transportSenseRise s = .next t ∧ OnlyChanges [.pins] s t ∧
        t.pins = { s.pins with
          transportHigh := true, transport := true }) ∧
      (∃ t, exec .transportSenseClear s = .next t ∧ OnlyChanges [.pins] s t ∧
        t.pins = { s.pins with
          transportHigh := false, transport := false })) ∧
    (∀ (s : State) (b c : Byte) (n : Nat), s.aonPowered = true →
      (∃ t, exec (.smbusOffsetWrite [b]) s = .next t ∧ t.pins = { s.pins with smbOffset := b.toNat % 128 } ∧
        OnlyChanges [.pins] s t) ∧
      (∃ t, exec (.smbusOffsetWrite [b, c]) s = .next t ∧ t.pins = { s.pins with smbOffset := b.toNat % 128 } ∧
        Sends s t [.smbus none] ∧ OnlyChanges [.pins, .nfe] s t) ∧
      (∃ t, exec (.smbusRead n) s = .next t ∧
        Sends s t [.smbus (some (wrapRead s.identityData s.pins.smbOffset n))] ∧
        t.pins = { s.pins with smbOffset := (s.pins.smbOffset + n) % 128 } ∧ OnlyChanges [.pins, .nfe] s t) ∧
      (∃ t, exec .identityRefresh s = .next t ∧ t.pins.smbDynamic.length = 7 ∧
        t.pins.smbDynamic.head? = some (BitVec.ofNat 8 s.moduleState) ∧ OnlyChanges [.pins, .pwr] s t)) ∧
    (∀ (s : State) (minor : Nat), s.domainOn 29 = true →
      (∃ t, exec (.willadraConnection 3) s = .next t ∧ t.pins = { s.pins with tlsOpen := s.pins.tlsOpen + 1 } ∧
        Sends s t [.tls true] ∧ OnlyChanges [.pins, .nfe] s t) ∧
      (minor ≠ 3 →
        ∃ t, exec (.willadraConnection minor) s = .next t ∧ Sends s t [.tls false] ∧
          OnlyChanges [.nfe] s t))

/-- BLOCK_LOCK_SET locks its block and no other; SYS_LOCK_ALL_SET locks every one and reads 1. A read that samples a
sensor or a slot does so first; a read that clears returns the word and leaves each RC field at its value after a
read; a read of a _LO register latches the high word, which the _HI register then returns. REGISTER_WRITE of the
service cores to a register where a write does nothing more stores its RW fields, its RWL fields while the block is
not locked, clears W1C bits written 1, and changes no other register. An access of another width or to no register
records event 16; that it carries the physical address is the model's reading (log 74). From 00_scope.md (R10, R11,
R13, R603, R604); 14_engine_rings_and_setup.md (R445, R446, R449, R450, R451). -/
def Obligations.RegistersAct : Prop :=
  (∀ (s : State) (block : Nat),
      (0x10000 * block ∈ blockBases →
        ∃ t, exec (.blockLockSet block) s = .next t ∧ t.locked (0x10000 * block) = true ∧
          (∀ b ∈ blockBases, b ≠ 0x10000 * block → t.locked b = s.locked b) ∧
          OnlyChanges [.reg (0x10000 * block + 0xFFFC), .reg 0x10] s t) ∧
      (0x10000 * block ∉ blockBases → exec (.blockLockSet block) s = .next s)) ∧
    (∀ s : State, ∃ t, exec .sysLockAllSet s = .next t ∧ (∀ b ∈ blockBases, t.locked b = true) ∧
      t.fld Reg.SYS_LOCK_ALL_ALL = 1 ∧ ∀ a, a ≠ 0x10 → a % 0x10000 ≠ 0xFFFC → t.reg a = s.reg a) ∧
    (∀ (s u : State) (c : Instr) (core : CoreId) (a k : Nat) (d : RegDesc), (c = .rcFieldRead core a ∨ c = .loWordRead core a) →
      s.coreRuns core = true → a % 4 = 0 → regAt a = some (d, k) → u = s.sample a →
      ((∀ p ∈ latchPairs, a ≠ p.1 ∧ a ≠ p.2) →
        ∃ t, exec c s = .next t ∧ Sends u t [.regRead a (u.regNow a)] ∧
          (∀ f ∈ d.fields, f.access = .rc → t.fld ⟨a, f.hi, f.lo⟩ = rcAfter a % 2 ^ (f.hi + 1 - f.lo)) ∧
          (∀ f ∈ d.fields, f.access ≠ .rc → t.fld ⟨a, f.hi, f.lo⟩ = u.fld ⟨a, f.hi, f.lo⟩) ∧
          OnlyChanges [.nfe, .reg a] u t) ∧
      (∀ hi, (a, hi) ∈ latchPairs →
        ∃ t, exec c s = .next t ∧ Sends u t [.regRead a (u.regNow a)] ∧
          tget t.latches a = some (u.regNow hi) ∧ (∀ x, x ≠ a → tget t.latches x = tget u.latches x) ∧
          OnlyChanges [.nfe, .latches] u t) ∧
      (∀ lo, (lo, a) ∈ latchPairs →
        ∃ t, exec c s = .next t ∧ Sends u t [.regRead a ((tget u.latches lo).getD (u.regNow a))] ∧
          OnlyChanges [.nfe] u t)) ∧
    (∀ (s : State) (a k : Nat) (d : RegDesc) (f : FieldDesc) (value : W32), s.coreRuns .service = true → a % 4 = 0 →
      regAt a = some (d, k) → doorbellRing a = none → (∀ x : State, x.writeActs a value = x) → f ∈ d.fields →
      s.stores a f = true →
      let h : Field := ⟨a, f.hi, f.lo⟩
      ∃ t, exec (.registerWrite .service a 4 value) s = .next t ∧ OnlyChanges [.reg a] s t ∧
        (f.access = .rw → t.fld h = h.of value) ∧
        (f.access = .rwl → t.fld h = if s.locked (a / 0x10000 * 0x10000) then s.fld h else h.of value) ∧
        (f.access = .w1c → ∀ i ≤ f.hi - f.lo, (t.fld h).testBit i = ((s.fld h).testBit i && !(h.of value).testBit i)) ∧
        (f.access = .ro ∨ f.access = .rc → t.fld h = s.fld h)) ∧
    (∀ (s : State) (core : CoreId) (a width : Nat) (value : W32), s.coreRuns core = true →
      (goodAccess a width = false →
        ∃ t, exec (.registerWrite core a width value) s = .next t ∧
          t.flt.raised = s.flt.raised ++ [⟨16, item8 (regSpace + a) ++ item1 (coreIndex core)⟩] ∧
          OnlyChanges [.flt] s t) ∧
      (a % 4 ≠ 0 ∨ regAt a = none →
        ∀ c : Instr, (c = .rcFieldRead core a ∨ c = .loWordRead core a) → ∃ t, exec c s = .next t ∧ Sends s t [.regRead a 0] ∧
          t.flt.raised = s.flt.raised ++ [⟨16, item8 (regSpace + a) ++ item1 (coreIndex core)⟩] ∧
          OnlyChanges [.nfe, .flt] s t))

/-- A 32-bit write by an application core to a register of the blocks CLK, RST, FLT or SEC, or to ENG_HOLD, leaves the
state as it is, unless the register is RST_START or SEC_TRIAL, whose write acts as the service cores' does; everywhere
else an application core writes as the service cores do. Both kinds of core read every register alike. Formalises
R447. -/
def Obligations.WhoMayWriteRegisters : Prop :=
  ∀ (s : State) (n a : Nat) (value : W32), s.coreRuns .service = true → s.coreRuns (.app n) = true → goodAccess a 4 = true →
      ((a / 0x10000 = 0x01 ∨ a / 0x10000 = 0x03 ∨ a / 0x10000 = 0x15 ∨ a / 0x10000 = 0x17 ∨ a = 0x140000) →
        a ≠ 0x30004 → a ≠ 0x170020 → exec (.registerWrite (.app n) a 4 value) s = .next s) ∧
      (¬(a / 0x10000 = 0x01 ∨ a / 0x10000 = 0x03 ∨ a / 0x10000 = 0x15 ∨ a / 0x10000 = 0x17 ∨ a = 0x140000)
          ∨ a = 0x30004 ∨ a = 0x170020 →
        exec (.registerWrite (.app n) a 4 value) s = exec (.registerWrite .service a 4 value) s) ∧
      exec (.rcFieldRead (.app n) a) s = exec (.rcFieldRead .service a) s ∧
      exec (.loWordRead (.app n) a) s = exec (.loWordRead .service a) s
end

