-- ==== Sys2Proof/Laws/State.lean ====
section
/-! SUPPORT. What each update of one part of the state leaves of every part: one lemma per part per update, so that no
proof unfolds a record update. -/

namespace Sys2Proof.Machine

variable (s : State)

/-! `State.onNfe` -/

@[simp] theorem State.onNfe_pending (f : Nfe → Nfe) : (s.onNfe f).pending = s.pending := rfl
@[simp] theorem State.onNfe_regs (f : Nfe → Nfe) : (s.onNfe f).regs = s.regs := rfl
@[simp] theorem State.onNfe_latches (f : Nfe → Nfe) : (s.onNfe f).latches = s.latches := rfl
@[simp] theorem State.onNfe_free (f : Nfe → Nfe) : (s.onNfe f).free = s.free := rfl
@[simp] theorem State.onNfe_nfe (f : Nfe → Nfe) : (s.onNfe f).nfe = f s.nfe := rfl
@[simp] theorem State.onNfe_sch (f : Nfe → Nfe) : (s.onNfe f).sch = s.sch := rfl
@[simp] theorem State.onNfe_idx (f : Nfe → Nfe) : (s.onNfe f).idx = s.idx := rfl
@[simp] theorem State.onNfe_mch (f : Nfe → Nfe) : (s.onNfe f).mch = s.mch := rfl
@[simp] theorem State.onNfe_val (f : Nfe → Nfe) : (s.onNfe f).val = s.val := rfl
@[simp] theorem State.onNfe_cip (f : Nfe → Nfe) : (s.onNfe f).cip = s.cip := rfl
@[simp] theorem State.onNfe_ldg (f : Nfe → Nfe) : (s.onNfe f).ldg = s.ldg := rfl
@[simp] theorem State.onNfe_ftl (f : Nfe → Nfe) : (s.onNfe f).ftl = s.ftl := rfl
@[simp] theorem State.onNfe_peer (f : Nfe → Nfe) : (s.onNfe f).peer = s.peer := rfl
@[simp] theorem State.onNfe_eng (f : Nfe → Nfe) : (s.onNfe f).eng = s.eng := rfl
@[simp] theorem State.onNfe_flt (f : Nfe → Nfe) : (s.onNfe f).flt = s.flt := rfl
@[simp] theorem State.onNfe_recorder (f : Nfe → Nfe) : (s.onNfe f).recorder = s.recorder := rfl
@[simp] theorem State.onNfe_rst (f : Nfe → Nfe) : (s.onNfe f).rst = s.rst := rfl
@[simp] theorem State.onNfe_pwr (f : Nfe → Nfe) : (s.onNfe f).pwr = s.pwr := rfl
@[simp] theorem State.onNfe_sec (f : Nfe → Nfe) : (s.onNfe f).sec = s.sec := rfl
@[simp] theorem State.onNfe_session (f : Nfe → Nfe) : (s.onNfe f).session = s.session := rfl
@[simp] theorem State.onNfe_pins (f : Nfe → Nfe) : (s.onNfe f).pins = s.pins := rfl

/-! `State.onSch` -/

@[simp] theorem State.onSch_pending (f : Sch → Sch) : (s.onSch f).pending = s.pending := rfl
@[simp] theorem State.onSch_regs (f : Sch → Sch) : (s.onSch f).regs = s.regs := rfl
@[simp] theorem State.onSch_latches (f : Sch → Sch) : (s.onSch f).latches = s.latches := rfl
@[simp] theorem State.onSch_free (f : Sch → Sch) : (s.onSch f).free = s.free := rfl
@[simp] theorem State.onSch_nfe (f : Sch → Sch) : (s.onSch f).nfe = s.nfe := rfl
@[simp] theorem State.onSch_sch (f : Sch → Sch) : (s.onSch f).sch = f s.sch := rfl
@[simp] theorem State.onSch_idx (f : Sch → Sch) : (s.onSch f).idx = s.idx := rfl
@[simp] theorem State.onSch_mch (f : Sch → Sch) : (s.onSch f).mch = s.mch := rfl
@[simp] theorem State.onSch_val (f : Sch → Sch) : (s.onSch f).val = s.val := rfl
@[simp] theorem State.onSch_cip (f : Sch → Sch) : (s.onSch f).cip = s.cip := rfl
@[simp] theorem State.onSch_ldg (f : Sch → Sch) : (s.onSch f).ldg = s.ldg := rfl
@[simp] theorem State.onSch_ftl (f : Sch → Sch) : (s.onSch f).ftl = s.ftl := rfl
@[simp] theorem State.onSch_peer (f : Sch → Sch) : (s.onSch f).peer = s.peer := rfl
@[simp] theorem State.onSch_eng (f : Sch → Sch) : (s.onSch f).eng = s.eng := rfl
@[simp] theorem State.onSch_flt (f : Sch → Sch) : (s.onSch f).flt = s.flt := rfl
@[simp] theorem State.onSch_recorder (f : Sch → Sch) : (s.onSch f).recorder = s.recorder := rfl
@[simp] theorem State.onSch_rst (f : Sch → Sch) : (s.onSch f).rst = s.rst := rfl
@[simp] theorem State.onSch_pwr (f : Sch → Sch) : (s.onSch f).pwr = s.pwr := rfl
@[simp] theorem State.onSch_sec (f : Sch → Sch) : (s.onSch f).sec = s.sec := rfl
@[simp] theorem State.onSch_session (f : Sch → Sch) : (s.onSch f).session = s.session := rfl
@[simp] theorem State.onSch_pins (f : Sch → Sch) : (s.onSch f).pins = s.pins := rfl

/-! `State.onIdx` -/

@[simp] theorem State.onIdx_pending (f : Idx → Idx) : (s.onIdx f).pending = s.pending := rfl
@[simp] theorem State.onIdx_regs (f : Idx → Idx) : (s.onIdx f).regs = s.regs := rfl
@[simp] theorem State.onIdx_latches (f : Idx → Idx) : (s.onIdx f).latches = s.latches := rfl
@[simp] theorem State.onIdx_free (f : Idx → Idx) : (s.onIdx f).free = s.free := rfl
@[simp] theorem State.onIdx_nfe (f : Idx → Idx) : (s.onIdx f).nfe = s.nfe := rfl
@[simp] theorem State.onIdx_sch (f : Idx → Idx) : (s.onIdx f).sch = s.sch := rfl
@[simp] theorem State.onIdx_idx (f : Idx → Idx) : (s.onIdx f).idx = f s.idx := rfl
@[simp] theorem State.onIdx_mch (f : Idx → Idx) : (s.onIdx f).mch = s.mch := rfl
@[simp] theorem State.onIdx_val (f : Idx → Idx) : (s.onIdx f).val = s.val := rfl
@[simp] theorem State.onIdx_cip (f : Idx → Idx) : (s.onIdx f).cip = s.cip := rfl
@[simp] theorem State.onIdx_ldg (f : Idx → Idx) : (s.onIdx f).ldg = s.ldg := rfl
@[simp] theorem State.onIdx_ftl (f : Idx → Idx) : (s.onIdx f).ftl = s.ftl := rfl
@[simp] theorem State.onIdx_peer (f : Idx → Idx) : (s.onIdx f).peer = s.peer := rfl
@[simp] theorem State.onIdx_eng (f : Idx → Idx) : (s.onIdx f).eng = s.eng := rfl
@[simp] theorem State.onIdx_flt (f : Idx → Idx) : (s.onIdx f).flt = s.flt := rfl
@[simp] theorem State.onIdx_recorder (f : Idx → Idx) : (s.onIdx f).recorder = s.recorder := rfl
@[simp] theorem State.onIdx_rst (f : Idx → Idx) : (s.onIdx f).rst = s.rst := rfl
@[simp] theorem State.onIdx_pwr (f : Idx → Idx) : (s.onIdx f).pwr = s.pwr := rfl
@[simp] theorem State.onIdx_sec (f : Idx → Idx) : (s.onIdx f).sec = s.sec := rfl
@[simp] theorem State.onIdx_session (f : Idx → Idx) : (s.onIdx f).session = s.session := rfl
@[simp] theorem State.onIdx_pins (f : Idx → Idx) : (s.onIdx f).pins = s.pins := rfl

/-! `State.onMch` -/

@[simp] theorem State.onMch_pending (f : Mch → Mch) : (s.onMch f).pending = s.pending := rfl
@[simp] theorem State.onMch_regs (f : Mch → Mch) : (s.onMch f).regs = s.regs := rfl
@[simp] theorem State.onMch_latches (f : Mch → Mch) : (s.onMch f).latches = s.latches := rfl
@[simp] theorem State.onMch_free (f : Mch → Mch) : (s.onMch f).free = s.free := rfl
@[simp] theorem State.onMch_nfe (f : Mch → Mch) : (s.onMch f).nfe = s.nfe := rfl
@[simp] theorem State.onMch_sch (f : Mch → Mch) : (s.onMch f).sch = s.sch := rfl
@[simp] theorem State.onMch_idx (f : Mch → Mch) : (s.onMch f).idx = s.idx := rfl
@[simp] theorem State.onMch_mch (f : Mch → Mch) : (s.onMch f).mch = f s.mch := rfl
@[simp] theorem State.onMch_val (f : Mch → Mch) : (s.onMch f).val = s.val := rfl
@[simp] theorem State.onMch_cip (f : Mch → Mch) : (s.onMch f).cip = s.cip := rfl
@[simp] theorem State.onMch_ldg (f : Mch → Mch) : (s.onMch f).ldg = s.ldg := rfl
@[simp] theorem State.onMch_ftl (f : Mch → Mch) : (s.onMch f).ftl = s.ftl := rfl
@[simp] theorem State.onMch_peer (f : Mch → Mch) : (s.onMch f).peer = s.peer := rfl
@[simp] theorem State.onMch_eng (f : Mch → Mch) : (s.onMch f).eng = s.eng := rfl
@[simp] theorem State.onMch_flt (f : Mch → Mch) : (s.onMch f).flt = s.flt := rfl
@[simp] theorem State.onMch_recorder (f : Mch → Mch) : (s.onMch f).recorder = s.recorder := rfl
@[simp] theorem State.onMch_rst (f : Mch → Mch) : (s.onMch f).rst = s.rst := rfl
@[simp] theorem State.onMch_pwr (f : Mch → Mch) : (s.onMch f).pwr = s.pwr := rfl
@[simp] theorem State.onMch_sec (f : Mch → Mch) : (s.onMch f).sec = s.sec := rfl
@[simp] theorem State.onMch_session (f : Mch → Mch) : (s.onMch f).session = s.session := rfl
@[simp] theorem State.onMch_pins (f : Mch → Mch) : (s.onMch f).pins = s.pins := rfl

/-! `State.onVal` -/

@[simp] theorem State.onVal_pending (f : Val → Val) : (s.onVal f).pending = s.pending := rfl
@[simp] theorem State.onVal_regs (f : Val → Val) : (s.onVal f).regs = s.regs := rfl
@[simp] theorem State.onVal_latches (f : Val → Val) : (s.onVal f).latches = s.latches := rfl
@[simp] theorem State.onVal_free (f : Val → Val) : (s.onVal f).free = s.free := rfl
@[simp] theorem State.onVal_nfe (f : Val → Val) : (s.onVal f).nfe = s.nfe := rfl
@[simp] theorem State.onVal_sch (f : Val → Val) : (s.onVal f).sch = s.sch := rfl
@[simp] theorem State.onVal_idx (f : Val → Val) : (s.onVal f).idx = s.idx := rfl
@[simp] theorem State.onVal_mch (f : Val → Val) : (s.onVal f).mch = s.mch := rfl
@[simp] theorem State.onVal_val (f : Val → Val) : (s.onVal f).val = f s.val := rfl
@[simp] theorem State.onVal_cip (f : Val → Val) : (s.onVal f).cip = s.cip := rfl
@[simp] theorem State.onVal_ldg (f : Val → Val) : (s.onVal f).ldg = s.ldg := rfl
@[simp] theorem State.onVal_ftl (f : Val → Val) : (s.onVal f).ftl = s.ftl := rfl
@[simp] theorem State.onVal_peer (f : Val → Val) : (s.onVal f).peer = s.peer := rfl
@[simp] theorem State.onVal_eng (f : Val → Val) : (s.onVal f).eng = s.eng := rfl
@[simp] theorem State.onVal_flt (f : Val → Val) : (s.onVal f).flt = s.flt := rfl
@[simp] theorem State.onVal_recorder (f : Val → Val) : (s.onVal f).recorder = s.recorder := rfl
@[simp] theorem State.onVal_rst (f : Val → Val) : (s.onVal f).rst = s.rst := rfl
@[simp] theorem State.onVal_pwr (f : Val → Val) : (s.onVal f).pwr = s.pwr := rfl
@[simp] theorem State.onVal_sec (f : Val → Val) : (s.onVal f).sec = s.sec := rfl
@[simp] theorem State.onVal_session (f : Val → Val) : (s.onVal f).session = s.session := rfl
@[simp] theorem State.onVal_pins (f : Val → Val) : (s.onVal f).pins = s.pins := rfl

/-! `State.onCip` -/

@[simp] theorem State.onCip_pending (f : Cip → Cip) : (s.onCip f).pending = s.pending := rfl
@[simp] theorem State.onCip_regs (f : Cip → Cip) : (s.onCip f).regs = s.regs := rfl
@[simp] theorem State.onCip_latches (f : Cip → Cip) : (s.onCip f).latches = s.latches := rfl
@[simp] theorem State.onCip_free (f : Cip → Cip) : (s.onCip f).free = s.free := rfl
@[simp] theorem State.onCip_nfe (f : Cip → Cip) : (s.onCip f).nfe = s.nfe := rfl
@[simp] theorem State.onCip_sch (f : Cip → Cip) : (s.onCip f).sch = s.sch := rfl
@[simp] theorem State.onCip_idx (f : Cip → Cip) : (s.onCip f).idx = s.idx := rfl
@[simp] theorem State.onCip_mch (f : Cip → Cip) : (s.onCip f).mch = s.mch := rfl
@[simp] theorem State.onCip_val (f : Cip → Cip) : (s.onCip f).val = s.val := rfl
@[simp] theorem State.onCip_cip (f : Cip → Cip) : (s.onCip f).cip = f s.cip := rfl
@[simp] theorem State.onCip_ldg (f : Cip → Cip) : (s.onCip f).ldg = s.ldg := rfl
@[simp] theorem State.onCip_ftl (f : Cip → Cip) : (s.onCip f).ftl = s.ftl := rfl
@[simp] theorem State.onCip_peer (f : Cip → Cip) : (s.onCip f).peer = s.peer := rfl
@[simp] theorem State.onCip_eng (f : Cip → Cip) : (s.onCip f).eng = s.eng := rfl
@[simp] theorem State.onCip_flt (f : Cip → Cip) : (s.onCip f).flt = s.flt := rfl
@[simp] theorem State.onCip_recorder (f : Cip → Cip) : (s.onCip f).recorder = s.recorder := rfl
@[simp] theorem State.onCip_rst (f : Cip → Cip) : (s.onCip f).rst = s.rst := rfl
@[simp] theorem State.onCip_pwr (f : Cip → Cip) : (s.onCip f).pwr = s.pwr := rfl
@[simp] theorem State.onCip_sec (f : Cip → Cip) : (s.onCip f).sec = s.sec := rfl
@[simp] theorem State.onCip_session (f : Cip → Cip) : (s.onCip f).session = s.session := rfl
@[simp] theorem State.onCip_pins (f : Cip → Cip) : (s.onCip f).pins = s.pins := rfl

/-! `State.onLdg` -/

@[simp] theorem State.onLdg_pending (f : Ldg → Ldg) : (s.onLdg f).pending = s.pending := rfl
@[simp] theorem State.onLdg_regs (f : Ldg → Ldg) : (s.onLdg f).regs = s.regs := rfl
@[simp] theorem State.onLdg_latches (f : Ldg → Ldg) : (s.onLdg f).latches = s.latches := rfl
@[simp] theorem State.onLdg_free (f : Ldg → Ldg) : (s.onLdg f).free = s.free := rfl
@[simp] theorem State.onLdg_nfe (f : Ldg → Ldg) : (s.onLdg f).nfe = s.nfe := rfl
@[simp] theorem State.onLdg_sch (f : Ldg → Ldg) : (s.onLdg f).sch = s.sch := rfl
@[simp] theorem State.onLdg_idx (f : Ldg → Ldg) : (s.onLdg f).idx = s.idx := rfl
@[simp] theorem State.onLdg_mch (f : Ldg → Ldg) : (s.onLdg f).mch = s.mch := rfl
@[simp] theorem State.onLdg_val (f : Ldg → Ldg) : (s.onLdg f).val = s.val := rfl
@[simp] theorem State.onLdg_cip (f : Ldg → Ldg) : (s.onLdg f).cip = s.cip := rfl
@[simp] theorem State.onLdg_ldg (f : Ldg → Ldg) : (s.onLdg f).ldg = f s.ldg := rfl
@[simp] theorem State.onLdg_ftl (f : Ldg → Ldg) : (s.onLdg f).ftl = s.ftl := rfl
@[simp] theorem State.onLdg_peer (f : Ldg → Ldg) : (s.onLdg f).peer = s.peer := rfl
@[simp] theorem State.onLdg_eng (f : Ldg → Ldg) : (s.onLdg f).eng = s.eng := rfl
@[simp] theorem State.onLdg_flt (f : Ldg → Ldg) : (s.onLdg f).flt = s.flt := rfl
@[simp] theorem State.onLdg_recorder (f : Ldg → Ldg) : (s.onLdg f).recorder = s.recorder := rfl
@[simp] theorem State.onLdg_rst (f : Ldg → Ldg) : (s.onLdg f).rst = s.rst := rfl
@[simp] theorem State.onLdg_pwr (f : Ldg → Ldg) : (s.onLdg f).pwr = s.pwr := rfl
@[simp] theorem State.onLdg_sec (f : Ldg → Ldg) : (s.onLdg f).sec = s.sec := rfl
@[simp] theorem State.onLdg_session (f : Ldg → Ldg) : (s.onLdg f).session = s.session := rfl
@[simp] theorem State.onLdg_pins (f : Ldg → Ldg) : (s.onLdg f).pins = s.pins := rfl

/-! `State.onFtl` -/

@[simp] theorem State.onFtl_pending (f : Ftl → Ftl) : (s.onFtl f).pending = s.pending := rfl
@[simp] theorem State.onFtl_regs (f : Ftl → Ftl) : (s.onFtl f).regs = s.regs := rfl
@[simp] theorem State.onFtl_latches (f : Ftl → Ftl) : (s.onFtl f).latches = s.latches := rfl
@[simp] theorem State.onFtl_free (f : Ftl → Ftl) : (s.onFtl f).free = s.free := rfl
@[simp] theorem State.onFtl_nfe (f : Ftl → Ftl) : (s.onFtl f).nfe = s.nfe := rfl
@[simp] theorem State.onFtl_sch (f : Ftl → Ftl) : (s.onFtl f).sch = s.sch := rfl
@[simp] theorem State.onFtl_idx (f : Ftl → Ftl) : (s.onFtl f).idx = s.idx := rfl
@[simp] theorem State.onFtl_mch (f : Ftl → Ftl) : (s.onFtl f).mch = s.mch := rfl
@[simp] theorem State.onFtl_val (f : Ftl → Ftl) : (s.onFtl f).val = s.val := rfl
@[simp] theorem State.onFtl_cip (f : Ftl → Ftl) : (s.onFtl f).cip = s.cip := rfl
@[simp] theorem State.onFtl_ldg (f : Ftl → Ftl) : (s.onFtl f).ldg = s.ldg := rfl
@[simp] theorem State.onFtl_ftl (f : Ftl → Ftl) : (s.onFtl f).ftl = f s.ftl := rfl
@[simp] theorem State.onFtl_peer (f : Ftl → Ftl) : (s.onFtl f).peer = s.peer := rfl
@[simp] theorem State.onFtl_eng (f : Ftl → Ftl) : (s.onFtl f).eng = s.eng := rfl
@[simp] theorem State.onFtl_flt (f : Ftl → Ftl) : (s.onFtl f).flt = s.flt := rfl
@[simp] theorem State.onFtl_recorder (f : Ftl → Ftl) : (s.onFtl f).recorder = s.recorder := rfl
@[simp] theorem State.onFtl_rst (f : Ftl → Ftl) : (s.onFtl f).rst = s.rst := rfl
@[simp] theorem State.onFtl_pwr (f : Ftl → Ftl) : (s.onFtl f).pwr = s.pwr := rfl
@[simp] theorem State.onFtl_sec (f : Ftl → Ftl) : (s.onFtl f).sec = s.sec := rfl
@[simp] theorem State.onFtl_session (f : Ftl → Ftl) : (s.onFtl f).session = s.session := rfl
@[simp] theorem State.onFtl_pins (f : Ftl → Ftl) : (s.onFtl f).pins = s.pins := rfl

/-! `State.onPeer` -/

@[simp] theorem State.onPeer_pending (f : PeerSt → PeerSt) : (s.onPeer f).pending = s.pending := rfl
@[simp] theorem State.onPeer_regs (f : PeerSt → PeerSt) : (s.onPeer f).regs = s.regs := rfl
@[simp] theorem State.onPeer_latches (f : PeerSt → PeerSt) : (s.onPeer f).latches = s.latches := rfl
@[simp] theorem State.onPeer_free (f : PeerSt → PeerSt) : (s.onPeer f).free = s.free := rfl
@[simp] theorem State.onPeer_nfe (f : PeerSt → PeerSt) : (s.onPeer f).nfe = s.nfe := rfl
@[simp] theorem State.onPeer_sch (f : PeerSt → PeerSt) : (s.onPeer f).sch = s.sch := rfl
@[simp] theorem State.onPeer_idx (f : PeerSt → PeerSt) : (s.onPeer f).idx = s.idx := rfl
@[simp] theorem State.onPeer_mch (f : PeerSt → PeerSt) : (s.onPeer f).mch = s.mch := rfl
@[simp] theorem State.onPeer_val (f : PeerSt → PeerSt) : (s.onPeer f).val = s.val := rfl
@[simp] theorem State.onPeer_cip (f : PeerSt → PeerSt) : (s.onPeer f).cip = s.cip := rfl
@[simp] theorem State.onPeer_ldg (f : PeerSt → PeerSt) : (s.onPeer f).ldg = s.ldg := rfl
@[simp] theorem State.onPeer_ftl (f : PeerSt → PeerSt) : (s.onPeer f).ftl = s.ftl := rfl
@[simp] theorem State.onPeer_peer (f : PeerSt → PeerSt) : (s.onPeer f).peer = f s.peer := rfl
@[simp] theorem State.onPeer_eng (f : PeerSt → PeerSt) : (s.onPeer f).eng = s.eng := rfl
@[simp] theorem State.onPeer_flt (f : PeerSt → PeerSt) : (s.onPeer f).flt = s.flt := rfl
@[simp] theorem State.onPeer_recorder (f : PeerSt → PeerSt) : (s.onPeer f).recorder = s.recorder := rfl
@[simp] theorem State.onPeer_rst (f : PeerSt → PeerSt) : (s.onPeer f).rst = s.rst := rfl
@[simp] theorem State.onPeer_pwr (f : PeerSt → PeerSt) : (s.onPeer f).pwr = s.pwr := rfl
@[simp] theorem State.onPeer_sec (f : PeerSt → PeerSt) : (s.onPeer f).sec = s.sec := rfl
@[simp] theorem State.onPeer_session (f : PeerSt → PeerSt) : (s.onPeer f).session = s.session := rfl
@[simp] theorem State.onPeer_pins (f : PeerSt → PeerSt) : (s.onPeer f).pins = s.pins := rfl

/-! `State.onEng` -/

@[simp] theorem State.onEng_pending (f : Eng → Eng) : (s.onEng f).pending = s.pending := rfl
@[simp] theorem State.onEng_regs (f : Eng → Eng) : (s.onEng f).regs = s.regs := rfl
@[simp] theorem State.onEng_latches (f : Eng → Eng) : (s.onEng f).latches = s.latches := rfl
@[simp] theorem State.onEng_free (f : Eng → Eng) : (s.onEng f).free = s.free := rfl
@[simp] theorem State.onEng_nfe (f : Eng → Eng) : (s.onEng f).nfe = s.nfe := rfl
@[simp] theorem State.onEng_sch (f : Eng → Eng) : (s.onEng f).sch = s.sch := rfl
@[simp] theorem State.onEng_idx (f : Eng → Eng) : (s.onEng f).idx = s.idx := rfl
@[simp] theorem State.onEng_mch (f : Eng → Eng) : (s.onEng f).mch = s.mch := rfl
@[simp] theorem State.onEng_val (f : Eng → Eng) : (s.onEng f).val = s.val := rfl
@[simp] theorem State.onEng_cip (f : Eng → Eng) : (s.onEng f).cip = s.cip := rfl
@[simp] theorem State.onEng_ldg (f : Eng → Eng) : (s.onEng f).ldg = s.ldg := rfl
@[simp] theorem State.onEng_ftl (f : Eng → Eng) : (s.onEng f).ftl = s.ftl := rfl
@[simp] theorem State.onEng_peer (f : Eng → Eng) : (s.onEng f).peer = s.peer := rfl
@[simp] theorem State.onEng_eng (f : Eng → Eng) : (s.onEng f).eng = f s.eng := rfl
@[simp] theorem State.onEng_flt (f : Eng → Eng) : (s.onEng f).flt = s.flt := rfl
@[simp] theorem State.onEng_recorder (f : Eng → Eng) : (s.onEng f).recorder = s.recorder := rfl
@[simp] theorem State.onEng_rst (f : Eng → Eng) : (s.onEng f).rst = s.rst := rfl
@[simp] theorem State.onEng_pwr (f : Eng → Eng) : (s.onEng f).pwr = s.pwr := rfl
@[simp] theorem State.onEng_sec (f : Eng → Eng) : (s.onEng f).sec = s.sec := rfl
@[simp] theorem State.onEng_session (f : Eng → Eng) : (s.onEng f).session = s.session := rfl
@[simp] theorem State.onEng_pins (f : Eng → Eng) : (s.onEng f).pins = s.pins := rfl

/-! `State.onFlt` -/

@[simp] theorem State.onFlt_pending (f : Flt → Flt) : (s.onFlt f).pending = s.pending := rfl
@[simp] theorem State.onFlt_regs (f : Flt → Flt) : (s.onFlt f).regs = s.regs := rfl
@[simp] theorem State.onFlt_latches (f : Flt → Flt) : (s.onFlt f).latches = s.latches := rfl
@[simp] theorem State.onFlt_free (f : Flt → Flt) : (s.onFlt f).free = s.free := rfl
@[simp] theorem State.onFlt_nfe (f : Flt → Flt) : (s.onFlt f).nfe = s.nfe := rfl
@[simp] theorem State.onFlt_sch (f : Flt → Flt) : (s.onFlt f).sch = s.sch := rfl
@[simp] theorem State.onFlt_idx (f : Flt → Flt) : (s.onFlt f).idx = s.idx := rfl
@[simp] theorem State.onFlt_mch (f : Flt → Flt) : (s.onFlt f).mch = s.mch := rfl
@[simp] theorem State.onFlt_val (f : Flt → Flt) : (s.onFlt f).val = s.val := rfl
@[simp] theorem State.onFlt_cip (f : Flt → Flt) : (s.onFlt f).cip = s.cip := rfl
@[simp] theorem State.onFlt_ldg (f : Flt → Flt) : (s.onFlt f).ldg = s.ldg := rfl
@[simp] theorem State.onFlt_ftl (f : Flt → Flt) : (s.onFlt f).ftl = s.ftl := rfl
@[simp] theorem State.onFlt_peer (f : Flt → Flt) : (s.onFlt f).peer = s.peer := rfl
@[simp] theorem State.onFlt_eng (f : Flt → Flt) : (s.onFlt f).eng = s.eng := rfl
@[simp] theorem State.onFlt_flt (f : Flt → Flt) : (s.onFlt f).flt = f s.flt := rfl
@[simp] theorem State.onFlt_recorder (f : Flt → Flt) : (s.onFlt f).recorder = s.recorder := rfl
@[simp] theorem State.onFlt_rst (f : Flt → Flt) : (s.onFlt f).rst = s.rst := rfl
@[simp] theorem State.onFlt_pwr (f : Flt → Flt) : (s.onFlt f).pwr = s.pwr := rfl
@[simp] theorem State.onFlt_sec (f : Flt → Flt) : (s.onFlt f).sec = s.sec := rfl
@[simp] theorem State.onFlt_session (f : Flt → Flt) : (s.onFlt f).session = s.session := rfl
@[simp] theorem State.onFlt_pins (f : Flt → Flt) : (s.onFlt f).pins = s.pins := rfl

/-! `State.onRec` -/

@[simp] theorem State.onRec_pending (f : Recorder → Recorder) : (s.onRec f).pending = s.pending := rfl
@[simp] theorem State.onRec_regs (f : Recorder → Recorder) : (s.onRec f).regs = s.regs := rfl
@[simp] theorem State.onRec_latches (f : Recorder → Recorder) : (s.onRec f).latches = s.latches := rfl
@[simp] theorem State.onRec_free (f : Recorder → Recorder) : (s.onRec f).free = s.free := rfl
@[simp] theorem State.onRec_nfe (f : Recorder → Recorder) : (s.onRec f).nfe = s.nfe := rfl
@[simp] theorem State.onRec_sch (f : Recorder → Recorder) : (s.onRec f).sch = s.sch := rfl
@[simp] theorem State.onRec_idx (f : Recorder → Recorder) : (s.onRec f).idx = s.idx := rfl
@[simp] theorem State.onRec_mch (f : Recorder → Recorder) : (s.onRec f).mch = s.mch := rfl
@[simp] theorem State.onRec_val (f : Recorder → Recorder) : (s.onRec f).val = s.val := rfl
@[simp] theorem State.onRec_cip (f : Recorder → Recorder) : (s.onRec f).cip = s.cip := rfl
@[simp] theorem State.onRec_ldg (f : Recorder → Recorder) : (s.onRec f).ldg = s.ldg := rfl
@[simp] theorem State.onRec_ftl (f : Recorder → Recorder) : (s.onRec f).ftl = s.ftl := rfl
@[simp] theorem State.onRec_peer (f : Recorder → Recorder) : (s.onRec f).peer = s.peer := rfl
@[simp] theorem State.onRec_eng (f : Recorder → Recorder) : (s.onRec f).eng = s.eng := rfl
@[simp] theorem State.onRec_flt (f : Recorder → Recorder) : (s.onRec f).flt = s.flt := rfl
@[simp] theorem State.onRec_recorder (f : Recorder → Recorder) : (s.onRec f).recorder = f s.recorder := rfl
@[simp] theorem State.onRec_rst (f : Recorder → Recorder) : (s.onRec f).rst = s.rst := rfl
@[simp] theorem State.onRec_pwr (f : Recorder → Recorder) : (s.onRec f).pwr = s.pwr := rfl
@[simp] theorem State.onRec_sec (f : Recorder → Recorder) : (s.onRec f).sec = s.sec := rfl
@[simp] theorem State.onRec_session (f : Recorder → Recorder) : (s.onRec f).session = s.session := rfl
@[simp] theorem State.onRec_pins (f : Recorder → Recorder) : (s.onRec f).pins = s.pins := rfl

/-! `State.onRst` -/

@[simp] theorem State.onRst_pending (f : Rst → Rst) : (s.onRst f).pending = s.pending := rfl
@[simp] theorem State.onRst_regs (f : Rst → Rst) : (s.onRst f).regs = s.regs := rfl
@[simp] theorem State.onRst_latches (f : Rst → Rst) : (s.onRst f).latches = s.latches := rfl
@[simp] theorem State.onRst_free (f : Rst → Rst) : (s.onRst f).free = s.free := rfl
@[simp] theorem State.onRst_nfe (f : Rst → Rst) : (s.onRst f).nfe = s.nfe := rfl
@[simp] theorem State.onRst_sch (f : Rst → Rst) : (s.onRst f).sch = s.sch := rfl
@[simp] theorem State.onRst_idx (f : Rst → Rst) : (s.onRst f).idx = s.idx := rfl
@[simp] theorem State.onRst_mch (f : Rst → Rst) : (s.onRst f).mch = s.mch := rfl
@[simp] theorem State.onRst_val (f : Rst → Rst) : (s.onRst f).val = s.val := rfl
@[simp] theorem State.onRst_cip (f : Rst → Rst) : (s.onRst f).cip = s.cip := rfl
@[simp] theorem State.onRst_ldg (f : Rst → Rst) : (s.onRst f).ldg = s.ldg := rfl
@[simp] theorem State.onRst_ftl (f : Rst → Rst) : (s.onRst f).ftl = s.ftl := rfl
@[simp] theorem State.onRst_peer (f : Rst → Rst) : (s.onRst f).peer = s.peer := rfl
@[simp] theorem State.onRst_eng (f : Rst → Rst) : (s.onRst f).eng = s.eng := rfl
@[simp] theorem State.onRst_flt (f : Rst → Rst) : (s.onRst f).flt = s.flt := rfl
@[simp] theorem State.onRst_recorder (f : Rst → Rst) : (s.onRst f).recorder = s.recorder := rfl
@[simp] theorem State.onRst_rst (f : Rst → Rst) : (s.onRst f).rst = f s.rst := rfl
@[simp] theorem State.onRst_pwr (f : Rst → Rst) : (s.onRst f).pwr = s.pwr := rfl
@[simp] theorem State.onRst_sec (f : Rst → Rst) : (s.onRst f).sec = s.sec := rfl
@[simp] theorem State.onRst_session (f : Rst → Rst) : (s.onRst f).session = s.session := rfl
@[simp] theorem State.onRst_pins (f : Rst → Rst) : (s.onRst f).pins = s.pins := rfl

/-! `State.onPwr` -/

@[simp] theorem State.onPwr_pending (f : Pwr → Pwr) : (s.onPwr f).pending = s.pending := rfl
@[simp] theorem State.onPwr_regs (f : Pwr → Pwr) : (s.onPwr f).regs = s.regs := rfl
@[simp] theorem State.onPwr_latches (f : Pwr → Pwr) : (s.onPwr f).latches = s.latches := rfl
@[simp] theorem State.onPwr_free (f : Pwr → Pwr) : (s.onPwr f).free = s.free := rfl
@[simp] theorem State.onPwr_nfe (f : Pwr → Pwr) : (s.onPwr f).nfe = s.nfe := rfl
@[simp] theorem State.onPwr_sch (f : Pwr → Pwr) : (s.onPwr f).sch = s.sch := rfl
@[simp] theorem State.onPwr_idx (f : Pwr → Pwr) : (s.onPwr f).idx = s.idx := rfl
@[simp] theorem State.onPwr_mch (f : Pwr → Pwr) : (s.onPwr f).mch = s.mch := rfl
@[simp] theorem State.onPwr_val (f : Pwr → Pwr) : (s.onPwr f).val = s.val := rfl
@[simp] theorem State.onPwr_cip (f : Pwr → Pwr) : (s.onPwr f).cip = s.cip := rfl
@[simp] theorem State.onPwr_ldg (f : Pwr → Pwr) : (s.onPwr f).ldg = s.ldg := rfl
@[simp] theorem State.onPwr_ftl (f : Pwr → Pwr) : (s.onPwr f).ftl = s.ftl := rfl
@[simp] theorem State.onPwr_peer (f : Pwr → Pwr) : (s.onPwr f).peer = s.peer := rfl
@[simp] theorem State.onPwr_eng (f : Pwr → Pwr) : (s.onPwr f).eng = s.eng := rfl
@[simp] theorem State.onPwr_flt (f : Pwr → Pwr) : (s.onPwr f).flt = s.flt := rfl
@[simp] theorem State.onPwr_recorder (f : Pwr → Pwr) : (s.onPwr f).recorder = s.recorder := rfl
@[simp] theorem State.onPwr_rst (f : Pwr → Pwr) : (s.onPwr f).rst = s.rst := rfl
@[simp] theorem State.onPwr_pwr (f : Pwr → Pwr) : (s.onPwr f).pwr = f s.pwr := rfl
@[simp] theorem State.onPwr_sec (f : Pwr → Pwr) : (s.onPwr f).sec = s.sec := rfl
@[simp] theorem State.onPwr_session (f : Pwr → Pwr) : (s.onPwr f).session = s.session := rfl
@[simp] theorem State.onPwr_pins (f : Pwr → Pwr) : (s.onPwr f).pins = s.pins := rfl

/-! `State.onSec` -/

@[simp] theorem State.onSec_pending (f : Sec → Sec) : (s.onSec f).pending = s.pending := rfl
@[simp] theorem State.onSec_regs (f : Sec → Sec) : (s.onSec f).regs = s.regs := rfl
@[simp] theorem State.onSec_latches (f : Sec → Sec) : (s.onSec f).latches = s.latches := rfl
@[simp] theorem State.onSec_free (f : Sec → Sec) : (s.onSec f).free = s.free := rfl
@[simp] theorem State.onSec_nfe (f : Sec → Sec) : (s.onSec f).nfe = s.nfe := rfl
@[simp] theorem State.onSec_sch (f : Sec → Sec) : (s.onSec f).sch = s.sch := rfl
@[simp] theorem State.onSec_idx (f : Sec → Sec) : (s.onSec f).idx = s.idx := rfl
@[simp] theorem State.onSec_mch (f : Sec → Sec) : (s.onSec f).mch = s.mch := rfl
@[simp] theorem State.onSec_val (f : Sec → Sec) : (s.onSec f).val = s.val := rfl
@[simp] theorem State.onSec_cip (f : Sec → Sec) : (s.onSec f).cip = s.cip := rfl
@[simp] theorem State.onSec_ldg (f : Sec → Sec) : (s.onSec f).ldg = s.ldg := rfl
@[simp] theorem State.onSec_ftl (f : Sec → Sec) : (s.onSec f).ftl = s.ftl := rfl
@[simp] theorem State.onSec_peer (f : Sec → Sec) : (s.onSec f).peer = s.peer := rfl
@[simp] theorem State.onSec_eng (f : Sec → Sec) : (s.onSec f).eng = s.eng := rfl
@[simp] theorem State.onSec_flt (f : Sec → Sec) : (s.onSec f).flt = s.flt := rfl
@[simp] theorem State.onSec_recorder (f : Sec → Sec) : (s.onSec f).recorder = s.recorder := rfl
@[simp] theorem State.onSec_rst (f : Sec → Sec) : (s.onSec f).rst = s.rst := rfl
@[simp] theorem State.onSec_pwr (f : Sec → Sec) : (s.onSec f).pwr = s.pwr := rfl
@[simp] theorem State.onSec_sec (f : Sec → Sec) : (s.onSec f).sec = f s.sec := rfl
@[simp] theorem State.onSec_session (f : Sec → Sec) : (s.onSec f).session = s.session := rfl
@[simp] theorem State.onSec_pins (f : Sec → Sec) : (s.onSec f).pins = s.pins := rfl

/-! `State.onSession` -/

@[simp] theorem State.onSession_pending (f : Session → Session) : (s.onSession f).pending = s.pending := rfl
@[simp] theorem State.onSession_regs (f : Session → Session) : (s.onSession f).regs = s.regs := rfl
@[simp] theorem State.onSession_latches (f : Session → Session) : (s.onSession f).latches = s.latches := rfl
@[simp] theorem State.onSession_free (f : Session → Session) : (s.onSession f).free = s.free := rfl
@[simp] theorem State.onSession_nfe (f : Session → Session) : (s.onSession f).nfe = s.nfe := rfl
@[simp] theorem State.onSession_sch (f : Session → Session) : (s.onSession f).sch = s.sch := rfl
@[simp] theorem State.onSession_idx (f : Session → Session) : (s.onSession f).idx = s.idx := rfl
@[simp] theorem State.onSession_mch (f : Session → Session) : (s.onSession f).mch = s.mch := rfl
@[simp] theorem State.onSession_val (f : Session → Session) : (s.onSession f).val = s.val := rfl
@[simp] theorem State.onSession_cip (f : Session → Session) : (s.onSession f).cip = s.cip := rfl
@[simp] theorem State.onSession_ldg (f : Session → Session) : (s.onSession f).ldg = s.ldg := rfl
@[simp] theorem State.onSession_ftl (f : Session → Session) : (s.onSession f).ftl = s.ftl := rfl
@[simp] theorem State.onSession_peer (f : Session → Session) : (s.onSession f).peer = s.peer := rfl
@[simp] theorem State.onSession_eng (f : Session → Session) : (s.onSession f).eng = s.eng := rfl
@[simp] theorem State.onSession_flt (f : Session → Session) : (s.onSession f).flt = s.flt := rfl
@[simp] theorem State.onSession_recorder (f : Session → Session) : (s.onSession f).recorder = s.recorder := rfl
@[simp] theorem State.onSession_rst (f : Session → Session) : (s.onSession f).rst = s.rst := rfl
@[simp] theorem State.onSession_pwr (f : Session → Session) : (s.onSession f).pwr = s.pwr := rfl
@[simp] theorem State.onSession_sec (f : Session → Session) : (s.onSession f).sec = s.sec := rfl
@[simp] theorem State.onSession_session (f : Session → Session) : (s.onSession f).session = f s.session := rfl
@[simp] theorem State.onSession_pins (f : Session → Session) : (s.onSession f).pins = s.pins := rfl

/-! `State.onPins` -/

@[simp] theorem State.onPins_pending (f : Pins → Pins) : (s.onPins f).pending = s.pending := rfl
@[simp] theorem State.onPins_regs (f : Pins → Pins) : (s.onPins f).regs = s.regs := rfl
@[simp] theorem State.onPins_latches (f : Pins → Pins) : (s.onPins f).latches = s.latches := rfl
@[simp] theorem State.onPins_free (f : Pins → Pins) : (s.onPins f).free = s.free := rfl
@[simp] theorem State.onPins_nfe (f : Pins → Pins) : (s.onPins f).nfe = s.nfe := rfl
@[simp] theorem State.onPins_sch (f : Pins → Pins) : (s.onPins f).sch = s.sch := rfl
@[simp] theorem State.onPins_idx (f : Pins → Pins) : (s.onPins f).idx = s.idx := rfl
@[simp] theorem State.onPins_mch (f : Pins → Pins) : (s.onPins f).mch = s.mch := rfl
@[simp] theorem State.onPins_val (f : Pins → Pins) : (s.onPins f).val = s.val := rfl
@[simp] theorem State.onPins_cip (f : Pins → Pins) : (s.onPins f).cip = s.cip := rfl
@[simp] theorem State.onPins_ldg (f : Pins → Pins) : (s.onPins f).ldg = s.ldg := rfl
@[simp] theorem State.onPins_ftl (f : Pins → Pins) : (s.onPins f).ftl = s.ftl := rfl
@[simp] theorem State.onPins_peer (f : Pins → Pins) : (s.onPins f).peer = s.peer := rfl
@[simp] theorem State.onPins_eng (f : Pins → Pins) : (s.onPins f).eng = s.eng := rfl
@[simp] theorem State.onPins_flt (f : Pins → Pins) : (s.onPins f).flt = s.flt := rfl
@[simp] theorem State.onPins_recorder (f : Pins → Pins) : (s.onPins f).recorder = s.recorder := rfl
@[simp] theorem State.onPins_rst (f : Pins → Pins) : (s.onPins f).rst = s.rst := rfl
@[simp] theorem State.onPins_pwr (f : Pins → Pins) : (s.onPins f).pwr = s.pwr := rfl
@[simp] theorem State.onPins_sec (f : Pins → Pins) : (s.onPins f).sec = s.sec := rfl
@[simp] theorem State.onPins_session (f : Pins → Pins) : (s.onPins f).session = s.session := rfl
@[simp] theorem State.onPins_pins (f : Pins → Pins) : (s.onPins f).pins = f s.pins := rfl

/-! `State.setReg` -/

@[simp] theorem State.setReg_pending (a : Nat) (w : W32) : (s.setReg a w).pending = s.pending := rfl
@[simp] theorem State.setReg_latches (a : Nat) (w : W32) : (s.setReg a w).latches = s.latches := rfl
@[simp] theorem State.setReg_free (a : Nat) (w : W32) : (s.setReg a w).free = s.free := rfl
@[simp] theorem State.setReg_nfe (a : Nat) (w : W32) : (s.setReg a w).nfe = s.nfe := rfl
@[simp] theorem State.setReg_sch (a : Nat) (w : W32) : (s.setReg a w).sch = s.sch := rfl
@[simp] theorem State.setReg_idx (a : Nat) (w : W32) : (s.setReg a w).idx = s.idx := rfl
@[simp] theorem State.setReg_mch (a : Nat) (w : W32) : (s.setReg a w).mch = s.mch := rfl
@[simp] theorem State.setReg_val (a : Nat) (w : W32) : (s.setReg a w).val = s.val := rfl
@[simp] theorem State.setReg_cip (a : Nat) (w : W32) : (s.setReg a w).cip = s.cip := rfl
@[simp] theorem State.setReg_ldg (a : Nat) (w : W32) : (s.setReg a w).ldg = s.ldg := rfl
@[simp] theorem State.setReg_ftl (a : Nat) (w : W32) : (s.setReg a w).ftl = s.ftl := rfl
@[simp] theorem State.setReg_peer (a : Nat) (w : W32) : (s.setReg a w).peer = s.peer := rfl
@[simp] theorem State.setReg_eng (a : Nat) (w : W32) : (s.setReg a w).eng = s.eng := rfl
@[simp] theorem State.setReg_flt (a : Nat) (w : W32) : (s.setReg a w).flt = s.flt := rfl
@[simp] theorem State.setReg_recorder (a : Nat) (w : W32) : (s.setReg a w).recorder = s.recorder := rfl
@[simp] theorem State.setReg_rst (a : Nat) (w : W32) : (s.setReg a w).rst = s.rst := rfl
@[simp] theorem State.setReg_pwr (a : Nat) (w : W32) : (s.setReg a w).pwr = s.pwr := rfl
@[simp] theorem State.setReg_sec (a : Nat) (w : W32) : (s.setReg a w).sec = s.sec := rfl
@[simp] theorem State.setReg_session (a : Nat) (w : W32) : (s.setReg a w).session = s.session := rfl
@[simp] theorem State.setReg_pins (a : Nat) (w : W32) : (s.setReg a w).pins = s.pins := rfl

/-! `State.setFld` -/

@[simp] theorem State.setFld_pending (f : Field) (v : Nat) : (s.setFld f v).pending = s.pending := rfl
@[simp] theorem State.setFld_latches (f : Field) (v : Nat) : (s.setFld f v).latches = s.latches := rfl
@[simp] theorem State.setFld_free (f : Field) (v : Nat) : (s.setFld f v).free = s.free := rfl
@[simp] theorem State.setFld_nfe (f : Field) (v : Nat) : (s.setFld f v).nfe = s.nfe := rfl
@[simp] theorem State.setFld_sch (f : Field) (v : Nat) : (s.setFld f v).sch = s.sch := rfl
@[simp] theorem State.setFld_idx (f : Field) (v : Nat) : (s.setFld f v).idx = s.idx := rfl
@[simp] theorem State.setFld_mch (f : Field) (v : Nat) : (s.setFld f v).mch = s.mch := rfl
@[simp] theorem State.setFld_val (f : Field) (v : Nat) : (s.setFld f v).val = s.val := rfl
@[simp] theorem State.setFld_cip (f : Field) (v : Nat) : (s.setFld f v).cip = s.cip := rfl
@[simp] theorem State.setFld_ldg (f : Field) (v : Nat) : (s.setFld f v).ldg = s.ldg := rfl
@[simp] theorem State.setFld_ftl (f : Field) (v : Nat) : (s.setFld f v).ftl = s.ftl := rfl
@[simp] theorem State.setFld_peer (f : Field) (v : Nat) : (s.setFld f v).peer = s.peer := rfl
@[simp] theorem State.setFld_eng (f : Field) (v : Nat) : (s.setFld f v).eng = s.eng := rfl
@[simp] theorem State.setFld_flt (f : Field) (v : Nat) : (s.setFld f v).flt = s.flt := rfl
@[simp] theorem State.setFld_recorder (f : Field) (v : Nat) : (s.setFld f v).recorder = s.recorder := rfl
@[simp] theorem State.setFld_rst (f : Field) (v : Nat) : (s.setFld f v).rst = s.rst := rfl
@[simp] theorem State.setFld_pwr (f : Field) (v : Nat) : (s.setFld f v).pwr = s.pwr := rfl
@[simp] theorem State.setFld_sec (f : Field) (v : Nat) : (s.setFld f v).sec = s.sec := rfl
@[simp] theorem State.setFld_session (f : Field) (v : Nat) : (s.setFld f v).session = s.session := rfl
@[simp] theorem State.setFld_pins (f : Field) (v : Nat) : (s.setFld f v).pins = s.pins := rfl

/-! `State.bump` -/

@[simp] theorem State.bump_pending (f : Field) (n : Nat) : (s.bump f n).pending = s.pending := rfl
@[simp] theorem State.bump_latches (f : Field) (n : Nat) : (s.bump f n).latches = s.latches := rfl
@[simp] theorem State.bump_free (f : Field) (n : Nat) : (s.bump f n).free = s.free := rfl
@[simp] theorem State.bump_nfe (f : Field) (n : Nat) : (s.bump f n).nfe = s.nfe := rfl
@[simp] theorem State.bump_sch (f : Field) (n : Nat) : (s.bump f n).sch = s.sch := rfl
@[simp] theorem State.bump_idx (f : Field) (n : Nat) : (s.bump f n).idx = s.idx := rfl
@[simp] theorem State.bump_mch (f : Field) (n : Nat) : (s.bump f n).mch = s.mch := rfl
@[simp] theorem State.bump_val (f : Field) (n : Nat) : (s.bump f n).val = s.val := rfl
@[simp] theorem State.bump_cip (f : Field) (n : Nat) : (s.bump f n).cip = s.cip := rfl
@[simp] theorem State.bump_ldg (f : Field) (n : Nat) : (s.bump f n).ldg = s.ldg := rfl
@[simp] theorem State.bump_ftl (f : Field) (n : Nat) : (s.bump f n).ftl = s.ftl := rfl
@[simp] theorem State.bump_peer (f : Field) (n : Nat) : (s.bump f n).peer = s.peer := rfl
@[simp] theorem State.bump_eng (f : Field) (n : Nat) : (s.bump f n).eng = s.eng := rfl
@[simp] theorem State.bump_flt (f : Field) (n : Nat) : (s.bump f n).flt = s.flt := rfl
@[simp] theorem State.bump_recorder (f : Field) (n : Nat) : (s.bump f n).recorder = s.recorder := rfl
@[simp] theorem State.bump_rst (f : Field) (n : Nat) : (s.bump f n).rst = s.rst := rfl
@[simp] theorem State.bump_pwr (f : Field) (n : Nat) : (s.bump f n).pwr = s.pwr := rfl
@[simp] theorem State.bump_sec (f : Field) (n : Nat) : (s.bump f n).sec = s.sec := rfl
@[simp] theorem State.bump_session (f : Field) (n : Nat) : (s.bump f n).session = s.session := rfl
@[simp] theorem State.bump_pins (f : Field) (n : Nat) : (s.bump f n).pins = s.pins := rfl

/-! `State.send` -/

@[simp] theorem State.send_pending (t : Tx) : (s.send t).pending = s.pending := rfl
@[simp] theorem State.send_regs (t : Tx) : (s.send t).regs = s.regs := rfl
@[simp] theorem State.send_latches (t : Tx) : (s.send t).latches = s.latches := rfl
@[simp] theorem State.send_free (t : Tx) : (s.send t).free = s.free := rfl
@[simp] theorem State.send_sch (t : Tx) : (s.send t).sch = s.sch := rfl
@[simp] theorem State.send_idx (t : Tx) : (s.send t).idx = s.idx := rfl
@[simp] theorem State.send_mch (t : Tx) : (s.send t).mch = s.mch := rfl
@[simp] theorem State.send_val (t : Tx) : (s.send t).val = s.val := rfl
@[simp] theorem State.send_cip (t : Tx) : (s.send t).cip = s.cip := rfl
@[simp] theorem State.send_ldg (t : Tx) : (s.send t).ldg = s.ldg := rfl
@[simp] theorem State.send_ftl (t : Tx) : (s.send t).ftl = s.ftl := rfl
@[simp] theorem State.send_peer (t : Tx) : (s.send t).peer = s.peer := rfl
@[simp] theorem State.send_eng (t : Tx) : (s.send t).eng = s.eng := rfl
@[simp] theorem State.send_flt (t : Tx) : (s.send t).flt = s.flt := rfl
@[simp] theorem State.send_recorder (t : Tx) : (s.send t).recorder = s.recorder := rfl
@[simp] theorem State.send_rst (t : Tx) : (s.send t).rst = s.rst := rfl
@[simp] theorem State.send_pwr (t : Tx) : (s.send t).pwr = s.pwr := rfl
@[simp] theorem State.send_sec (t : Tx) : (s.send t).sec = s.sec := rfl
@[simp] theorem State.send_session (t : Tx) : (s.send t).session = s.session := rfl
@[simp] theorem State.send_pins (t : Tx) : (s.send t).pins = s.pins := rfl

/-! `State.sendAs` -/

@[simp] theorem State.sendAs_pending (ctx : Nat) (c : SvcClass) (t : Tx) : (s.sendAs ctx c t).pending = s.pending := rfl
@[simp] theorem State.sendAs_regs (ctx : Nat) (c : SvcClass) (t : Tx) : (s.sendAs ctx c t).regs = s.regs := rfl
@[simp] theorem State.sendAs_latches (ctx : Nat) (c : SvcClass) (t : Tx) : (s.sendAs ctx c t).latches = s.latches := rfl
@[simp] theorem State.sendAs_free (ctx : Nat) (c : SvcClass) (t : Tx) : (s.sendAs ctx c t).free = s.free := rfl
@[simp] theorem State.sendAs_sch (ctx : Nat) (c : SvcClass) (t : Tx) : (s.sendAs ctx c t).sch = s.sch := rfl
@[simp] theorem State.sendAs_idx (ctx : Nat) (c : SvcClass) (t : Tx) : (s.sendAs ctx c t).idx = s.idx := rfl
@[simp] theorem State.sendAs_mch (ctx : Nat) (c : SvcClass) (t : Tx) : (s.sendAs ctx c t).mch = s.mch := rfl
@[simp] theorem State.sendAs_val (ctx : Nat) (c : SvcClass) (t : Tx) : (s.sendAs ctx c t).val = s.val := rfl
@[simp] theorem State.sendAs_cip (ctx : Nat) (c : SvcClass) (t : Tx) : (s.sendAs ctx c t).cip = s.cip := rfl
@[simp] theorem State.sendAs_ldg (ctx : Nat) (c : SvcClass) (t : Tx) : (s.sendAs ctx c t).ldg = s.ldg := rfl
@[simp] theorem State.sendAs_ftl (ctx : Nat) (c : SvcClass) (t : Tx) : (s.sendAs ctx c t).ftl = s.ftl := rfl
@[simp] theorem State.sendAs_peer (ctx : Nat) (c : SvcClass) (t : Tx) : (s.sendAs ctx c t).peer = s.peer := rfl
@[simp] theorem State.sendAs_eng (ctx : Nat) (c : SvcClass) (t : Tx) : (s.sendAs ctx c t).eng = s.eng := rfl
@[simp] theorem State.sendAs_flt (ctx : Nat) (c : SvcClass) (t : Tx) : (s.sendAs ctx c t).flt = s.flt := rfl
@[simp] theorem State.sendAs_recorder (ctx : Nat) (c : SvcClass) (t : Tx) : (s.sendAs ctx c t).recorder = s.recorder := rfl
@[simp] theorem State.sendAs_rst (ctx : Nat) (c : SvcClass) (t : Tx) : (s.sendAs ctx c t).rst = s.rst := rfl
@[simp] theorem State.sendAs_pwr (ctx : Nat) (c : SvcClass) (t : Tx) : (s.sendAs ctx c t).pwr = s.pwr := rfl
@[simp] theorem State.sendAs_sec (ctx : Nat) (c : SvcClass) (t : Tx) : (s.sendAs ctx c t).sec = s.sec := rfl
@[simp] theorem State.sendAs_session (ctx : Nat) (c : SvcClass) (t : Tx) : (s.sendAs ctx c t).session = s.session := rfl
@[simp] theorem State.sendAs_pins (ctx : Nat) (c : SvcClass) (t : Tx) : (s.sendAs ctx c t).pins = s.pins := rfl

/-! `State.raise` -/

@[simp] theorem State.raise_pending (src : Nat) (b : Bytes) : (s.raise src b).pending = s.pending := rfl
@[simp] theorem State.raise_regs (src : Nat) (b : Bytes) : (s.raise src b).regs = s.regs := rfl
@[simp] theorem State.raise_latches (src : Nat) (b : Bytes) : (s.raise src b).latches = s.latches := rfl
@[simp] theorem State.raise_free (src : Nat) (b : Bytes) : (s.raise src b).free = s.free := rfl
@[simp] theorem State.raise_nfe (src : Nat) (b : Bytes) : (s.raise src b).nfe = s.nfe := rfl
@[simp] theorem State.raise_sch (src : Nat) (b : Bytes) : (s.raise src b).sch = s.sch := rfl
@[simp] theorem State.raise_idx (src : Nat) (b : Bytes) : (s.raise src b).idx = s.idx := rfl
@[simp] theorem State.raise_mch (src : Nat) (b : Bytes) : (s.raise src b).mch = s.mch := rfl
@[simp] theorem State.raise_val (src : Nat) (b : Bytes) : (s.raise src b).val = s.val := rfl
@[simp] theorem State.raise_cip (src : Nat) (b : Bytes) : (s.raise src b).cip = s.cip := rfl
@[simp] theorem State.raise_ldg (src : Nat) (b : Bytes) : (s.raise src b).ldg = s.ldg := rfl
@[simp] theorem State.raise_ftl (src : Nat) (b : Bytes) : (s.raise src b).ftl = s.ftl := rfl
@[simp] theorem State.raise_peer (src : Nat) (b : Bytes) : (s.raise src b).peer = s.peer := rfl
@[simp] theorem State.raise_eng (src : Nat) (b : Bytes) : (s.raise src b).eng = s.eng := rfl
@[simp] theorem State.raise_recorder (src : Nat) (b : Bytes) : (s.raise src b).recorder = s.recorder := rfl
@[simp] theorem State.raise_rst (src : Nat) (b : Bytes) : (s.raise src b).rst = s.rst := rfl
@[simp] theorem State.raise_pwr (src : Nat) (b : Bytes) : (s.raise src b).pwr = s.pwr := rfl
@[simp] theorem State.raise_sec (src : Nat) (b : Bytes) : (s.raise src b).sec = s.sec := rfl
@[simp] theorem State.raise_session (src : Nat) (b : Bytes) : (s.raise src b).session = s.session := rfl
@[simp] theorem State.raise_pins (src : Nat) (b : Bytes) : (s.raise src b).pins = s.pins := rfl

/-! `State.onKept` -/

@[simp] theorem State.onKept_pending (f : Kept → Kept) : (s.onKept f).pending = s.pending := rfl
@[simp] theorem State.onKept_regs (f : Kept → Kept) : (s.onKept f).regs = s.regs := rfl
@[simp] theorem State.onKept_latches (f : Kept → Kept) : (s.onKept f).latches = s.latches := rfl
@[simp] theorem State.onKept_free (f : Kept → Kept) : (s.onKept f).free = s.free := rfl
@[simp] theorem State.onKept_nfe (f : Kept → Kept) : (s.onKept f).nfe = s.nfe := rfl
@[simp] theorem State.onKept_sch (f : Kept → Kept) : (s.onKept f).sch = s.sch := rfl
@[simp] theorem State.onKept_idx (f : Kept → Kept) : (s.onKept f).idx = s.idx := rfl
@[simp] theorem State.onKept_mch (f : Kept → Kept) : (s.onKept f).mch = s.mch := rfl
@[simp] theorem State.onKept_val (f : Kept → Kept) : (s.onKept f).val = s.val := rfl
@[simp] theorem State.onKept_cip (f : Kept → Kept) : (s.onKept f).cip = s.cip := rfl
@[simp] theorem State.onKept_ftl (f : Kept → Kept) : (s.onKept f).ftl = s.ftl := rfl
@[simp] theorem State.onKept_peer (f : Kept → Kept) : (s.onKept f).peer = s.peer := rfl
@[simp] theorem State.onKept_eng (f : Kept → Kept) : (s.onKept f).eng = s.eng := rfl
@[simp] theorem State.onKept_flt (f : Kept → Kept) : (s.onKept f).flt = s.flt := rfl
@[simp] theorem State.onKept_recorder (f : Kept → Kept) : (s.onKept f).recorder = s.recorder := rfl
@[simp] theorem State.onKept_rst (f : Kept → Kept) : (s.onKept f).rst = s.rst := rfl
@[simp] theorem State.onKept_pwr (f : Kept → Kept) : (s.onKept f).pwr = s.pwr := rfl
@[simp] theorem State.onKept_sec (f : Kept → Kept) : (s.onKept f).sec = s.sec := rfl
@[simp] theorem State.onKept_session (f : Kept → Kept) : (s.onKept f).session = s.session := rfl
@[simp] theorem State.onKept_pins (f : Kept → Kept) : (s.onKept f).pins = s.pins := rfl

/-! `State.onRing` -/

@[simp] theorem State.onRing_pending (n : Nat) (f : Ring → Ring) : (s.onRing n f).pending = s.pending := rfl
@[simp] theorem State.onRing_regs (n : Nat) (f : Ring → Ring) : (s.onRing n f).regs = s.regs := rfl
@[simp] theorem State.onRing_latches (n : Nat) (f : Ring → Ring) : (s.onRing n f).latches = s.latches := rfl
@[simp] theorem State.onRing_free (n : Nat) (f : Ring → Ring) : (s.onRing n f).free = s.free := rfl
@[simp] theorem State.onRing_nfe (n : Nat) (f : Ring → Ring) : (s.onRing n f).nfe = s.nfe := rfl
@[simp] theorem State.onRing_sch (n : Nat) (f : Ring → Ring) : (s.onRing n f).sch = s.sch := rfl
@[simp] theorem State.onRing_idx (n : Nat) (f : Ring → Ring) : (s.onRing n f).idx = s.idx := rfl
@[simp] theorem State.onRing_mch (n : Nat) (f : Ring → Ring) : (s.onRing n f).mch = s.mch := rfl
@[simp] theorem State.onRing_val (n : Nat) (f : Ring → Ring) : (s.onRing n f).val = s.val := rfl
@[simp] theorem State.onRing_cip (n : Nat) (f : Ring → Ring) : (s.onRing n f).cip = s.cip := rfl
@[simp] theorem State.onRing_ldg (n : Nat) (f : Ring → Ring) : (s.onRing n f).ldg = s.ldg := rfl
@[simp] theorem State.onRing_ftl (n : Nat) (f : Ring → Ring) : (s.onRing n f).ftl = s.ftl := rfl
@[simp] theorem State.onRing_peer (n : Nat) (f : Ring → Ring) : (s.onRing n f).peer = s.peer := rfl
@[simp] theorem State.onRing_flt (n : Nat) (f : Ring → Ring) : (s.onRing n f).flt = s.flt := rfl
@[simp] theorem State.onRing_recorder (n : Nat) (f : Ring → Ring) : (s.onRing n f).recorder = s.recorder := rfl
@[simp] theorem State.onRing_rst (n : Nat) (f : Ring → Ring) : (s.onRing n f).rst = s.rst := rfl
@[simp] theorem State.onRing_pwr (n : Nat) (f : Ring → Ring) : (s.onRing n f).pwr = s.pwr := rfl
@[simp] theorem State.onRing_sec (n : Nat) (f : Ring → Ring) : (s.onRing n f).sec = s.sec := rfl
@[simp] theorem State.onRing_session (n : Nat) (f : Ring → Ring) : (s.onRing n f).session = s.session := rfl
@[simp] theorem State.onRing_pins (n : Nat) (f : Ring → Ring) : (s.onRing n f).pins = s.pins := rfl

/-! `State.sendCredit` -/

@[simp] theorem State.sendCredit_pending (q ch c : Nat) : (s.sendCredit q ch c).pending = s.pending := rfl
@[simp] theorem State.sendCredit_regs (q ch c : Nat) : (s.sendCredit q ch c).regs = s.regs := rfl
@[simp] theorem State.sendCredit_latches (q ch c : Nat) : (s.sendCredit q ch c).latches = s.latches := rfl
@[simp] theorem State.sendCredit_free (q ch c : Nat) : (s.sendCredit q ch c).free = s.free := rfl
@[simp] theorem State.sendCredit_nfe (q ch c : Nat) : (s.sendCredit q ch c).nfe = s.nfe := rfl
@[simp] theorem State.sendCredit_idx (q ch c : Nat) : (s.sendCredit q ch c).idx = s.idx := rfl
@[simp] theorem State.sendCredit_mch (q ch c : Nat) : (s.sendCredit q ch c).mch = s.mch := rfl
@[simp] theorem State.sendCredit_val (q ch c : Nat) : (s.sendCredit q ch c).val = s.val := rfl
@[simp] theorem State.sendCredit_cip (q ch c : Nat) : (s.sendCredit q ch c).cip = s.cip := rfl
@[simp] theorem State.sendCredit_ldg (q ch c : Nat) : (s.sendCredit q ch c).ldg = s.ldg := rfl
@[simp] theorem State.sendCredit_ftl (q ch c : Nat) : (s.sendCredit q ch c).ftl = s.ftl := rfl
@[simp] theorem State.sendCredit_peer (q ch c : Nat) : (s.sendCredit q ch c).peer = s.peer := rfl
@[simp] theorem State.sendCredit_eng (q ch c : Nat) : (s.sendCredit q ch c).eng = s.eng := rfl
@[simp] theorem State.sendCredit_flt (q ch c : Nat) : (s.sendCredit q ch c).flt = s.flt := rfl
@[simp] theorem State.sendCredit_recorder (q ch c : Nat) : (s.sendCredit q ch c).recorder = s.recorder := rfl
@[simp] theorem State.sendCredit_rst (q ch c : Nat) : (s.sendCredit q ch c).rst = s.rst := rfl
@[simp] theorem State.sendCredit_pwr (q ch c : Nat) : (s.sendCredit q ch c).pwr = s.pwr := rfl
@[simp] theorem State.sendCredit_sec (q ch c : Nat) : (s.sendCredit q ch c).sec = s.sec := rfl
@[simp] theorem State.sendCredit_session (q ch c : Nat) : (s.sendCredit q ch c).session = s.session := rfl
@[simp] theorem State.sendCredit_pins (q ch c : Nat) : (s.sendCredit q ch c).pins = s.pins := rfl

/-! `State.returnCredit` -/

@[simp] theorem State.returnCredit_pending (q ch c : Nat) : (s.returnCredit q ch c).pending = s.pending := rfl
@[simp] theorem State.returnCredit_regs (q ch c : Nat) : (s.returnCredit q ch c).regs = s.regs := rfl
@[simp] theorem State.returnCredit_latches (q ch c : Nat) : (s.returnCredit q ch c).latches = s.latches := rfl
@[simp] theorem State.returnCredit_free (q ch c : Nat) : (s.returnCredit q ch c).free = s.free := rfl
@[simp] theorem State.returnCredit_nfe (q ch c : Nat) : (s.returnCredit q ch c).nfe = s.nfe := rfl
@[simp] theorem State.returnCredit_idx (q ch c : Nat) : (s.returnCredit q ch c).idx = s.idx := rfl
@[simp] theorem State.returnCredit_mch (q ch c : Nat) : (s.returnCredit q ch c).mch = s.mch := rfl
@[simp] theorem State.returnCredit_val (q ch c : Nat) : (s.returnCredit q ch c).val = s.val := rfl
@[simp] theorem State.returnCredit_cip (q ch c : Nat) : (s.returnCredit q ch c).cip = s.cip := rfl
@[simp] theorem State.returnCredit_ldg (q ch c : Nat) : (s.returnCredit q ch c).ldg = s.ldg := rfl
@[simp] theorem State.returnCredit_ftl (q ch c : Nat) : (s.returnCredit q ch c).ftl = s.ftl := rfl
@[simp] theorem State.returnCredit_peer (q ch c : Nat) : (s.returnCredit q ch c).peer = s.peer := rfl
@[simp] theorem State.returnCredit_eng (q ch c : Nat) : (s.returnCredit q ch c).eng = s.eng := rfl
@[simp] theorem State.returnCredit_flt (q ch c : Nat) : (s.returnCredit q ch c).flt = s.flt := rfl
@[simp] theorem State.returnCredit_recorder (q ch c : Nat) : (s.returnCredit q ch c).recorder = s.recorder := rfl
@[simp] theorem State.returnCredit_rst (q ch c : Nat) : (s.returnCredit q ch c).rst = s.rst := rfl
@[simp] theorem State.returnCredit_pwr (q ch c : Nat) : (s.returnCredit q ch c).pwr = s.pwr := rfl
@[simp] theorem State.returnCredit_sec (q ch c : Nat) : (s.returnCredit q ch c).sec = s.sec := rfl
@[simp] theorem State.returnCredit_session (q ch c : Nat) : (s.returnCredit q ch c).session = s.session := rfl
@[simp] theorem State.returnCredit_pins (q ch c : Nat) : (s.returnCredit q ch c).pins = s.pins := rfl

/-! What the part itself becomes. -/

@[simp] theorem State.raise_flt (src : Nat) (b : Bytes) :
    (s.raise src b).flt = { s.flt with raised := s.flt.raised ++ [⟨src, b⟩] } := rfl
@[simp] theorem State.send_nfe (t : Tx) :
    (s.send t).nfe = { s.nfe with
      tx := s.nfe.tx ++ [s.marked t (s.dscpAlone t)], rrTransmit := txPointer s.nfe.rrTransmit t
      rrPeer := peerPointer s.nfe.rrPeer t } := rfl
@[simp] theorem State.onKept_ldg (f : Kept → Kept) : (s.onKept f).ldg = { s.ldg with kept := f s.ldg.kept } := rfl
@[simp] theorem State.onRing_eng (n : Nat) (f : Ring → Ring) :
    (s.onRing n f).eng = { s.eng with rings := tset s.eng.rings n (f (s.ring n)) } := rfl

/-! Free values: only the counter moves. -/

@[simp] theorem State.drawNat_fst : s.drawNat.1 = Config.freeNat s.free := rfl
@[simp] theorem State.drawNat_snd : s.drawNat.2 = { s with free := s.free + 1 } := rfl
@[simp] theorem State.drawBytes_snd (n : Nat) : (s.drawBytes n).2 = { s with free := s.free + 1 } := rfl
@[simp] theorem State.drawRandom_snd (n : Nat) : (s.drawRandom n).2 = { s with free := s.free + 1 } := rfl

/-! A step whose premise holds, and one whose premise does not. -/

@[simp] theorem guardStep_true (f : State → State) : guardStep true s f = f s := rfl
@[simp] theorem guardStep_false (f : State → State) : guardStep false s f = s := rfl

end Sys2Proof.Machine
end

