-- ==== Sys2Proof/Laws/Tables.lean ====
section
/-! SUPPORT. The laws of tables and of the byte memory: read after write, the untouched entries, and the canonical
form that every operation keeps. -/

namespace Sys2Proof.Machine

variable {α : Type}

@[simp] theorem tget_nil (n : Nat) : tget ([] : Tbl α) n = none := rfl

/-- The entry just set. -/
@[simp] theorem tget_tset_self (t : Tbl α) (n : Nat) (a : α) : tget (tset t n a) n = some a := by
  induction t with
  | nil => simp [tset, tget]
  | cons e t ih =>
    obtain ⟨k, v⟩ := e
    simp only [tset]
    split
    · simp [tget]
    · split
      · simp [tget]
      · rename_i h1 h2
        simp [tget, ih, Ne.symm h2]

/-- Other entries stay when one is set. -/
@[simp] theorem tget_tset_of_ne (t : Tbl α) (n m : Nat) (a : α) (h : m ≠ n) : tget (tset t n a) m = tget t m := by
  induction t with
  | nil => simp [tset, tget, Ne.symm h]
  | cons e t ih =>
    obtain ⟨k, v⟩ := e
    simp only [tset]
    split
    · simp [tget, Ne.symm h]
    · split
      · rename_i h1 h2
        simp [tget, Ne.symm h, ← h2]
      · simp [tget, ih]

/-- Every number after the first is greater. -/
theorem Tbl.wf_cons (k : Nat) (v : α) (t : Tbl α) :
    Tbl.wf ((k, v) :: t) = true ↔ (∀ e ∈ t, k < e.1) ∧ Tbl.wf t = true := by
  induction t generalizing k v with
  | nil => simp [Tbl.wf]
  | cons e t ih =>
    obtain ⟨k', v'⟩ := e
    simp only [Tbl.wf, Bool.and_eq_true, decide_eq_true_eq, List.mem_cons, forall_eq_or_imp]
    constructor
    · rintro ⟨h1, h2⟩
      exact ⟨⟨h1, fun e he => lt_trans h1 (((ih k' v').mp h2).1 e he)⟩, h2⟩
    · rintro ⟨⟨h1, _⟩, h2⟩
      exact ⟨h1, h2⟩

/-- A number below every entry has none. -/
theorem tget_none_of_lt (t : Tbl α) (n : Nat) (h : ∀ e ∈ t, n < e.1) : tget t n = none := by
  induction t with
  | nil => rfl
  | cons e t ih =>
    obtain ⟨k, v⟩ := e
    have hk : n < k := h (k, v) (by simp)
    simp only [tget, Nat.ne_of_gt hk, if_false]
    exact ih fun e he => h e (by simp [he])

/-- The members of a table after an entry is set. -/
theorem mem_tset (t : Tbl α) (n : Nat) (a : α) (e : Nat × α) (h : e ∈ tset t n a) : e = (n, a) ∨ e ∈ t := by
  induction t with
  | nil => simpa [tset] using h
  | cons x t ih =>
    obtain ⟨k, v⟩ := x
    simp only [tset] at h
    split at h
    · simpa using h
    · split at h
      · rename_i h1 h2
        rcases List.mem_cons.mp h with h | h
        · exact .inl h
        · exact .inr (by simp [h])
      · rcases List.mem_cons.mp h with h | h
        · exact .inr (by simp [h])
        · rcases ih h with h | h
          · exact .inl h
          · exact .inr (by simp [h])

/-- Setting an entry keeps the order. -/
theorem Tbl.wf_tset (t : Tbl α) (n : Nat) (a : α) (h : Tbl.wf t = true) : Tbl.wf (tset t n a) = true := by
  induction t with
  | nil => simp [tset, Tbl.wf]
  | cons e t ih =>
    obtain ⟨k, v⟩ := e
    obtain ⟨hk, ht⟩ := (Tbl.wf_cons k v t).mp h
    simp only [tset]
    split
    · rename_i h1
      refine (Tbl.wf_cons _ _ _).mpr ⟨?_, h⟩
      intro e he
      rcases List.mem_cons.mp he with he | he
      · simpa [he] using h1
      · exact lt_trans h1 (hk e he)
    · split
      · rename_i h1 h2
        exact (Tbl.wf_cons _ _ _).mpr ⟨fun e he => by rw [h2]; exact hk e he, ht⟩
      · rename_i h1 h2
        refine (Tbl.wf_cons _ _ _).mpr ⟨fun e he => ?_, ih ht⟩
        rcases mem_tset t n a e he with he | he
        · rw [he]; omega
        · exact hk e he

/-- The members of a table after one is removed. -/
theorem mem_tdel (t : Tbl α) (n : Nat) (e : Nat × α) (h : e ∈ tdel t n) : e ∈ t := by
  induction t with
  | nil => simpa [tdel] using h
  | cons x t ih =>
    obtain ⟨k, v⟩ := x
    simp only [tdel] at h
    split at h
    · exact List.mem_cons_of_mem _ h
    · rcases List.mem_cons.mp h with h | h
      · simp [h]
      · exact List.mem_cons_of_mem _ (ih h)

/-- Removing an entry keeps the order. -/
theorem Tbl.wf_tdel (t : Tbl α) (n : Nat) (h : Tbl.wf t = true) : Tbl.wf (tdel t n) = true := by
  induction t with
  | nil => exact h
  | cons e t ih =>
    obtain ⟨k, v⟩ := e
    obtain ⟨hk, ht⟩ := (Tbl.wf_cons k v t).mp h
    simp only [tdel]
    split
    · exact ht
    · exact (Tbl.wf_cons _ _ _).mpr ⟨fun e he => hk e (mem_tdel t n e he), ih ht⟩

/-- The entry removed is gone. -/
theorem tget_tdel_self (t : Tbl α) (n : Nat) (h : Tbl.wf t = true) : tget (tdel t n) n = none := by
  induction t with
  | nil => rfl
  | cons e t ih =>
    obtain ⟨k, v⟩ := e
    obtain ⟨hk, ht⟩ := (Tbl.wf_cons k v t).mp h
    simp only [tdel]
    split
    · rename_i h1
      exact tget_none_of_lt t n fun e he => h1 ▸ hk e he
    · rename_i h1
      simp [tget, h1, ih ht]

/-- Other entries stay when one is removed. -/
@[simp] theorem tget_tdel_of_ne (t : Tbl α) (n m : Nat) (h : m ≠ n) : tget (tdel t n) m = tget t m := by
  induction t with
  | nil => rfl
  | cons e t ih =>
    obtain ⟨k, v⟩ := e
    simp only [tdel]
    split
    · rename_i h1
      simp [tget, h1, Ne.symm h]
    · simp [tget, ih]

/-! ## The byte memory -/

/-- Writing keeps the canonical form. -/
theorem Memory.wf_memWrite (m : List Host.Cell) (a : Nat) (b : Byte) (h : Memory.wf m = true) :
    Memory.wf (memWrite m a b) = true := by
  simp only [Memory.wf, Bool.and_eq_true, List.all_eq_true, decide_eq_true_eq] at h ⊢
  obtain ⟨h1, h2⟩ := h
  unfold memWrite
  split
  · exact ⟨Tbl.wf_tdel m a h1, fun c hc => h2 c (mem_tdel m a c hc)⟩
  · rename_i hb
    refine ⟨Tbl.wf_tset m a b h1, fun c hc => ?_⟩
    rcases mem_tset m a b c hc with hc | hc
    · simpa [hc] using hb
    · exact h2 c hc

/-- So does writing bytes in a row. -/
theorem Memory.wf_memWriteN (b : Bytes) (m : List Host.Cell) (a : Nat) (h : Memory.wf m = true) :
    Memory.wf (memWriteN m a b) = true := by
  induction b generalizing m a with
  | nil => exact h
  | cons x b ih => exact ih _ _ (Memory.wf_memWrite m a x h)

/-- A byte reads as written. -/
theorem memRead_memWrite_self (m : List Host.Cell) (a : Nat) (b : Byte) (h : Memory.wf m = true) :
    memRead (memWrite m a b) a = b := by
  have h1 : Tbl.wf m = true := by
    simp only [Memory.wf, Bool.and_eq_true] at h
    exact h.1
  unfold memRead memWrite
  split
  · rename_i hb
    rw [tget_tdel_self m a h1, hb]
    rfl
  · simp

/-- Other bytes stay. -/
@[simp] theorem memRead_memWrite_of_ne (m : List Host.Cell) (a c : Nat) (b : Byte) (h : c ≠ a) :
    memRead (memWrite m a b) c = memRead m c := by
  unfold memRead memWrite
  split <;> simp [h]

/-- Bytes outside those written in a row stay. -/
theorem memRead_memWriteN_outside (b : Bytes) (m : List Host.Cell) (a c : Nat) (h : c < a ∨ a + b.length ≤ c) :
    memRead (memWriteN m a b) c = memRead m c := by
  induction b generalizing m a with
  | nil => rfl
  | cons x b ih =>
    simp only [memWriteN]
    have hc : c ≠ a := by
      simp only [List.length_cons] at h
      omega
    rw [ih _ (a + 1) (by simp only [List.length_cons] at h; omega)]
    exact memRead_memWrite_of_ne m a c x hc

/-- Bytes written in a row read back. -/
theorem memReadN_memWriteN (b : Bytes) (m : List Host.Cell) (a : Nat) (h : Memory.wf m = true) :
    memReadN (memWriteN m a b) a b.length = b := by
  induction b generalizing m a with
  | nil => rfl
  | cons x b ih =>
    simp only [List.length_cons, memReadN, memWriteN]
    rw [ih _ (a + 1) (Memory.wf_memWrite m a x h),
      memRead_memWriteN_outside b _ (a + 1) a (.inl (Nat.lt_succ_self a)), memRead_memWrite_self m a x h]

end Sys2Proof.Machine
end

