-- ==== Sys2Proof/Laws/Registers.lean ====
section
/-! SUPPORT. The laws of stored registers: a field reads as it was set, other fields and other registers stay, and the
table of register words keeps its canonical form. -/

namespace Sys2Proof.Machine

/-! ## Words -/

/-- A register's word after it is stored. -/
theorem State.reg_setReg_self (s : State) (a : Nat) (w : W32) (h : Tbl.wf s.regs = true) : (s.setReg a w).reg a = w := by
  unfold State.setReg State.reg
  simp only
  split
  · rename_i hw
    rw [tget_tdel_self s.regs a h, hw]
    rfl
  · simp

/-- Other registers stay. -/
@[simp] theorem State.reg_setReg_of_ne (s : State) (a b : Nat) (w : W32) (h : b ≠ a) : (s.setReg a w).reg b = s.reg b := by
  unfold State.setReg State.reg
  simp only
  split <;> simp [h]

/-- Storing a register keeps the order of the table. -/
theorem State.regs_wf_setReg (s : State) (a : Nat) (w : W32) (h : Tbl.wf s.regs = true) :
    Tbl.wf (s.setReg a w).regs = true := by
  unfold State.setReg
  simp only
  split
  · exact Tbl.wf_tdel _ _ h
  · exact Tbl.wf_tset _ _ _ h

/-! ## Fields -/

/-- The bits of a field's value. -/
theorem Field.testBit_of (f : Field) (w : W32) (i : Nat) :
    (f.of w).testBit i = (decide (i < f.hi + 1 - f.lo) && w.getLsbD (f.lo + i)) := by
  unfold Field.of
  rw [Nat.testBit_mod_two_pow, Nat.testBit_div_two_pow, BitVec.testBit_toNat, Nat.add_comm i]

/-- The bits of a word with a field replaced. -/
theorem Field.getLsbD_put (f : Field) (w : W32) (v j : Nat) :
    (f.put w v).getLsbD j =
      if f.lo ≤ j ∧ j - f.lo < f.hi + 1 - f.lo then decide (j < 32) && v.testBit (j - f.lo) else w.getLsbD j := by
  unfold Field.put
  simp only [BitVec.getLsbD_or, BitVec.getLsbD_and, BitVec.getLsbD_not, BitVec.getLsbD_shiftLeft, BitVec.getLsbD_ofNat,
    Nat.testBit_two_pow_sub_one]
  by_cases hj : j < 32
  · by_cases hl : f.lo ≤ j
    · have : j - f.lo < 32 := by omega
      by_cases hk : j - f.lo < f.hi + 1 - f.lo <;> simp [hj, hl, hk, this, Nat.not_lt.mpr hl]
    · simp [hj, hl, Nat.lt_of_not_le hl]
  · have : w.getLsbD j = false := BitVec.getLsbD_of_ge w j (by omega)
    simp [hj, this]

/-- A field reads as it was put, reduced to its width. -/
theorem Field.of_put_self (f : Field) (w : W32) (v : Nat) (h : f.hi < 32) :
    f.of (f.put w v) = v % 2 ^ (f.hi + 1 - f.lo) := by
  apply Nat.eq_of_testBit_eq
  intro i
  rw [Field.testBit_of, Field.getLsbD_put, Nat.testBit_mod_two_pow]
  by_cases hi : i < f.hi + 1 - f.lo
  · simp [hi, show f.lo + i < 32 by omega]
  · simp [hi]

/-- Another field of the register stays. -/
theorem Field.of_put_disjoint (f g : Field) (w : W32) (v : Nat) (h : f.hi < g.lo ∨ g.hi < f.lo) :
    f.of (g.put w v) = f.of w := by
  apply Nat.eq_of_testBit_eq
  intro i
  rw [Field.testBit_of, Field.testBit_of, Field.getLsbD_put]
  by_cases hi : i < f.hi + 1 - f.lo
  · have : ¬(g.lo ≤ f.lo + i ∧ f.lo + i - g.lo < g.hi + 1 - g.lo) := by omega
    simp [hi, this]
  · simp [hi]

/-- A field of the state reads as it was set. -/
theorem State.fld_setFld_self (s : State) (f : Field) (v : Nat) (hw : Tbl.wf s.regs = true) (h : f.hi < 32) :
    (s.setFld f v).fld f = v % 2 ^ (f.hi + 1 - f.lo) := by
  unfold State.setFld State.fld
  rw [State.reg_setReg_self s _ _ hw, Field.of_put_self f _ _ h]

/-- A field of another register stays. -/
theorem State.fld_setFld_of_ne (s : State) (f g : Field) (v : Nat) (h : f.addr ≠ g.addr) :
    (s.setFld g v).fld f = s.fld f := by
  unfold State.setFld State.fld
  rw [State.reg_setReg_of_ne s _ _ _ h]

/-- Another field of the same register stays. -/
theorem State.fld_setFld_disjoint (s : State) (f g : Field) (v : Nat) (hw : Tbl.wf s.regs = true)
    (ha : f.addr = g.addr) (h : f.hi < g.lo ∨ g.hi < f.lo) : (s.setFld g v).fld f = s.fld f := by
  unfold State.setFld State.fld
  rw [ha, State.reg_setReg_self s _ _ hw, Field.of_put_disjoint f g _ _ h]

/-- Setting a field keeps the order of the table. -/
theorem State.regs_wf_setFld (s : State) (f : Field) (v : Nat) (h : Tbl.wf s.regs = true) :
    Tbl.wf (s.setFld f v).regs = true := s.regs_wf_setReg _ _ h

/-- So does counting in one. -/
theorem State.regs_wf_bump (s : State) (f : Field) (n : Nat) (h : Tbl.wf s.regs = true) :
    Tbl.wf (s.bump f n).regs = true := s.regs_wf_setFld _ _ h

end Sys2Proof.Machine
end

