-- ==== Sys2Proof/Laws/Keeps.lean ====
section
/-! SUPPORT. What an operation over the state can do, said once for each in the files beside this one: which parts it may
change, that it leaves the queue of commands alone, that the counter of free values does not fall, and that the two sparse
stores stay canonical. -/

set_option linter.unusedTactic false
set_option linter.unreachableTactic false

namespace Sys2Proof.Machine

/-- A state reached from `o` by operations that change only the parts that `r` admits. -/
structure Keeps (r : Part → Prop) (o s : State) : Prop where
  same : ∀ p, ¬ r p → p.same o s
  pending : s.pending = o.pending
  free : o.free ≤ s.free
  mem : Memory.wf o.eng.dram = true → Memory.wf s.eng.dram = true
  wf : Tbl.wf o.regs = true → Tbl.wf s.regs = true

/-- Nothing has happened yet. -/
theorem Keeps.refl (r : Part → Prop) (o : State) : Keeps r o o :=
  ⟨fun p _ => by cases p <;> simp [Part.same], rfl, Nat.le_refl _, id, id⟩

/-- One more operation: the state after it differs from the one before only in admitted parts. -/
theorem Keeps.next {r : Part → Prop} {o s t : State} (h : Keeps r o s)
    (same : ∀ p, ¬ r p → p.same s t) (pending : t.pending = s.pending) (free : s.free ≤ t.free)
    (mem : Memory.wf s.eng.dram = true → Memory.wf t.eng.dram = true)
    (wf : Tbl.wf s.regs = true → Tbl.wf t.regs = true) : Keeps r o t := by
  refine ⟨fun p hp => ?_, pending.trans h.pending, Nat.le_trans h.free free, fun w => mem (h.mem w), fun w => wf (h.wf w)⟩
  have a := h.same p hp
  have b := same p hp
  cases p <;> simp only [Part.same] at a b ⊢ <;> first | exact b.trans a | exact fun x => (b x).trans (a x)

variable {r : Part → Prop} {o s : State}

theorem keeps_onNfe (f) (h : Keeps r o s) (c : r .nfe) : Keeps r o (s.onNfe f) :=
  h.next (fun p hp => by cases p <;> first | rfl | (intro _; rfl) | exact absurd c hp) rfl (Nat.le_refl _) id id

theorem keeps_onSch (f) (h : Keeps r o s) (c : r .sch) : Keeps r o (s.onSch f) :=
  h.next (fun p hp => by cases p <;> first | rfl | (intro _; rfl) | exact absurd c hp) rfl (Nat.le_refl _) id id

theorem keeps_onIdx (f) (h : Keeps r o s) (c : r .idx) : Keeps r o (s.onIdx f) :=
  h.next (fun p hp => by cases p <;> first | rfl | (intro _; rfl) | exact absurd c hp) rfl (Nat.le_refl _) id id

theorem keeps_onMch (f) (h : Keeps r o s) (c : r .mch) : Keeps r o (s.onMch f) :=
  h.next (fun p hp => by cases p <;> first | rfl | (intro _; rfl) | exact absurd c hp) rfl (Nat.le_refl _) id id

theorem keeps_onVal (f) (h : Keeps r o s) (c : r .val) : Keeps r o (s.onVal f) :=
  h.next (fun p hp => by cases p <;> first | rfl | (intro _; rfl) | exact absurd c hp) rfl (Nat.le_refl _) id id

theorem keeps_onCip (f) (h : Keeps r o s) (c : r .cip) : Keeps r o (s.onCip f) :=
  h.next (fun p hp => by cases p <;> first | rfl | (intro _; rfl) | exact absurd c hp) rfl (Nat.le_refl _) id id

theorem keeps_onLdg (f) (h : Keeps r o s) (c : r .ldg) : Keeps r o (s.onLdg f) :=
  h.next (fun p hp => by cases p <;> first | rfl | (intro _; rfl) | exact absurd c hp) rfl (Nat.le_refl _) id id

theorem keeps_onFtl (f) (h : Keeps r o s) (c : r .ftl) : Keeps r o (s.onFtl f) :=
  h.next (fun p hp => by cases p <;> first | rfl | (intro _; rfl) | exact absurd c hp) rfl (Nat.le_refl _) id id

theorem keeps_onPeer (f) (h : Keeps r o s) (c : r .peer) : Keeps r o (s.onPeer f) :=
  h.next (fun p hp => by cases p <;> first | rfl | (intro _; rfl) | exact absurd c hp) rfl (Nat.le_refl _) id id

theorem keeps_onFlt (f) (h : Keeps r o s) (c : r .flt) : Keeps r o (s.onFlt f) :=
  h.next (fun p hp => by cases p <;> first | rfl | (intro _; rfl) | exact absurd c hp) rfl (Nat.le_refl _) id id

theorem keeps_onRec (f) (h : Keeps r o s) (c : r .recorder) : Keeps r o (s.onRec f) :=
  h.next (fun p hp => by cases p <;> first | rfl | (intro _; rfl) | exact absurd c hp) rfl (Nat.le_refl _) id id

theorem keeps_onRst (f) (h : Keeps r o s) (c : r .rst) : Keeps r o (s.onRst f) :=
  h.next (fun p hp => by cases p <;> first | rfl | (intro _; rfl) | exact absurd c hp) rfl (Nat.le_refl _) id id

theorem keeps_onPwr (f) (h : Keeps r o s) (c : r .pwr) : Keeps r o (s.onPwr f) :=
  h.next (fun p hp => by cases p <;> first | rfl | (intro _; rfl) | exact absurd c hp) rfl (Nat.le_refl _) id id

theorem keeps_onSec (f) (h : Keeps r o s) (c : r .sec) : Keeps r o (s.onSec f) :=
  h.next (fun p hp => by cases p <;> first | rfl | (intro _; rfl) | exact absurd c hp) rfl (Nat.le_refl _) id id

theorem keeps_onSession (f) (h : Keeps r o s) (c : r .session) : Keeps r o (s.onSession f) :=
  h.next (fun p hp => by cases p <;> first | rfl | (intro _; rfl) | exact absurd c hp) rfl (Nat.le_refl _) id id

theorem keeps_onPins (f) (h : Keeps r o s) (c : r .pins) : Keeps r o (s.onPins f) :=
  h.next (fun p hp => by cases p <;> first | rfl | (intro _; rfl) | exact absurd c hp) rfl (Nat.le_refl _) id id

theorem keeps_onKept (f) (h : Keeps r o s) (c : r .ldg) : Keeps r o (s.onKept f) := keeps_onLdg _ h c

/-- A change of the rings that leaves DRAM group B alone. -/
theorem keeps_onEng (f : Eng → Eng) (h : Keeps r o s) (c : r .rings) (d : (f s.eng).dram = s.eng.dram) :
    Keeps r o (s.onEng f) :=
  h.next (fun p hp => by
    cases p <;> first
      | rfl
      | (intro _; simp [State.onEng, d])
      | exact absurd c hp) rfl (Nat.le_refl _) (by simp [State.onEng, d]) id

theorem keeps_onRing (n f) (h : Keeps r o s) (c : r .rings) : Keeps r o (s.onRing n f) := keeps_onEng _ h c rfl

theorem keeps_setReg (a w) (h : Keeps r o s) (c : r (.reg a)) : Keeps r o (s.setReg a w) :=
  h.next (fun p hp => by
    cases p with
    | reg b => exact State.reg_setReg_of_ne s a b w (fun e => hp (e ▸ c))
    | dram => exact fun _ => rfl
    | _ => rfl) rfl (Nat.le_refl _) id (State.regs_wf_setReg s a w)

theorem keeps_setFld (f v) (h : Keeps r o s) (c : r (.reg f.addr)) : Keeps r o (s.setFld f v) := keeps_setReg _ _ h c

theorem keeps_bump (f n) (h : Keeps r o s) (c : r (.reg f.addr)) : Keeps r o (s.bump f n) := keeps_setFld _ _ h c

/-- A run of operations, one for each entry of a list. -/
theorem keeps_foldl {α : Type} (f : State → α → State) (l : List α)
    (step : ∀ s a, Keeps r o s → Keeps r o (f s a)) (h : Keeps r o s) : Keeps r o (l.foldl f s) := by
  induction l generalizing s with
  | nil => exact h
  | cons a l ih => exact ih (step s a h)

theorem keeps_guardStep (c f) (step : Keeps r o s → Keeps r o (f s)) (h : Keeps r o s) : Keeps r o (guardStep c s f) := by
  unfold guardStep
  split
  · exact step h
  · exact h

/-! ## Operations that answer something beside the state -/

/-- A value with the state after it. -/
def Keeps2 {α : Type} (r : Part → Prop) (o : State) (x : α × State) : Prop := Keeps r o x.2

/-- Two values with the state after them. -/
def Keeps3 {α β : Type} (r : Part → Prop) (o : State) (x : α × β × State) : Prop := Keeps r o x.2.2

/-- A state, where there is one. -/
def KeepsO (r : Part → Prop) (o : State) (x : Option State) : Prop := ∀ t, x = some t → Keeps r o t

/-- A value with the state after it, where there is one. -/
def KeepsO2 {α : Type} (r : Part → Prop) (o : State) (x : Option (α × State)) : Prop := ∀ t, x = some t → Keeps r o t.2

/-- Two values with the state after them, where there are some. -/
def KeepsO3 {α β : Type} (r : Part → Prop) (o : State) (x : Option (α × β × State)) : Prop :=
  ∀ t, x = some t → Keeps r o t.2.2

/-- The next state of an outcome, where it has one. -/
def KeepsN (r : Part → Prop) (o : State) (x : Host.Outcome State Fault Refusal) : Prop := ∀ t, x = .next t → Keeps r o t

theorem Keeps2.mk {α : Type} (a : α) (h : Keeps r o s) : Keeps2 r o (a, s) := h
theorem Keeps3.mk {α β : Type} (a : α) (b : β) (h : Keeps r o s) : Keeps3 r o (a, b, s) := h
theorem Keeps3.mk2 {α β : Type} {x : β × State} (a : α) (h : Keeps2 r o x) : Keeps3 r o (a, x) := h
theorem KeepsO.none : KeepsO r o none := fun _ e => by cases e
theorem KeepsO2.none {α : Type} : KeepsO2 (α := α) r o none := fun _ e => by cases e
theorem KeepsO3.none {α β : Type} : KeepsO3 (α := α) (β := β) r o none := fun _ e => by cases e
theorem KeepsO.mk (h : Keeps r o s) : KeepsO r o (some s) := fun _ e => by cases e; exact h
theorem KeepsO2.mk {α : Type} (x : α × State) (h : Keeps2 r o x) : KeepsO2 r o (some x) := fun _ e => by cases e; exact h
theorem KeepsO2.mk2 {α : Type} (a : α) (h : Keeps r o s) : KeepsO2 r o (some (a, s)) := KeepsO2.mk _ h
theorem KeepsO3.mk {α β : Type} (x : α × β × State) (h : Keeps3 r o x) : KeepsO3 r o (some x) := fun _ e => by
  cases e; exact h
theorem KeepsN.mk (h : Keeps r o s) : KeepsN r o (.next s) := fun _ e => by cases e; exact h
theorem KeepsN.fault (f : Fault) : KeepsN r o (.fault f) := fun _ e => by cases e
theorem Keeps2.snd {α : Type} {x : α × State} (h : Keeps2 r o x) : Keeps r o x.2 := h
theorem Keeps3.snd {α β : Type} {x : α × β × State} (h : Keeps3 r o x) : Keeps r o x.2.2 := h
theorem Keeps2.of {α : Type} {x : α × State} {a : α} (e : x = (a, s)) (h : Keeps2 r o x) : Keeps r o s := by
  subst e; exact h
theorem Keeps3.of {α β : Type} {x : α × β × State} {a : α} {b : β} (e : x = (a, b, s)) (h : Keeps3 r o x) : Keeps r o s := by
  subst e; exact h
theorem Keeps3.of2 {α β : Type} {x : α × β × State} {a : α} {y : β × State} (e : x = (a, y)) (h : Keeps3 r o x) : Keeps2 r o y := by
  subst e; exact h
theorem KeepsO.of {x : Option State} (e : x = some s) (h : KeepsO r o x) : Keeps r o s := h _ e
theorem KeepsO2.of {α : Type} {x : Option (α × State)} {a : α} (e : x = some (a, s)) (h : KeepsO2 r o x) : Keeps r o s := h _ e
theorem KeepsO2.pair {α : Type} {x : Option (α × State)} {a : α × State} (e : x = some a) (h : KeepsO2 r o x) : Keeps2 r o a := h _ e
theorem KeepsO3.of {α β : Type} {x : Option (α × β × State)} {a : α} {b : β} (e : x = some (a, b, s)) (h : KeepsO3 r o x) :
    Keeps r o s := h _ e

/-- The state after an operation that may find nothing to do. -/
theorem keeps_getD (x : Option State) (t : State) (h : KeepsO r o x) (k : Keeps r o t) : Keeps r o (x.getD t) := by
  cases x with
  | none => exact k
  | some u => exact h u rfl

/-- A change of the state that a step may find nothing to make. -/
theorem keepsO_map (x : Option α) (f : α → State) (h : ∀ a, x = some a → Keeps r o (f a)) : KeepsO r o (x.map f) := by
  cases x with
  | none => exact KeepsO.none
  | some a => exact KeepsO.mk (h a rfl)

/-- One operation for each entry of a list, with a value handed on. -/
theorem keeps2_foldl {α β : Type} (f : β × State → α → β × State) (l : List α)
    (step : ∀ x a, Keeps2 r o x → Keeps2 r o (f x a)) (x : β × State) (h : Keeps2 r o x) : Keeps2 r o (l.foldl f x) := by
  induction l generalizing x with
  | nil => exact h
  | cons a l ih => exact ih _ (step x a h)

/-- A state that a definition names on its way. -/
theorem Keeps.cut {P : Prop} {x : State} (a : Keeps r o x) (b : Keeps r o x → P) : P := b a

/-- A value with a state that a definition names on its way. -/
theorem Keeps2.cut {P : Prop} {α : Type} {x : α × State} (a : Keeps2 r o x) (b : Keeps2 r o x → P) : P := b a

/-- An operation that may find nothing to do, or may answer a value, named on the way. -/
theorem KeepsO.cut {P : Prop} {x : Option State} (a : KeepsO r o x) (b : KeepsO r o x → P) : P := b a
theorem KeepsO2.cut {P : Prop} {α : Type} {x : Option (α × State)} (a : KeepsO2 r o x) (b : KeepsO2 r o x → P) : P := b a

/-! Chains of operations of which each may find nothing to do. -/

theorem Keeps2.get {α : Type} {a : α} (h : Keeps2 r o (a, s)) : Keeps r o s := h
theorem KeepsO2.get {α : Type} {a : α} (h : KeepsO2 r o (some (a, s))) : Keeps r o s := h _ rfl
theorem keepsO2_bind {α β : Type} (x : Option (α × State)) (f : α × State → Option (β × State)) (h : KeepsO2 r o x)
    (g : ∀ a, Keeps2 r o a → KeepsO2 r o (f a)) : KeepsO2 r o (x.bind f) := by
  cases x with
  | none => exact KeepsO2.none
  | some a => exact g a (h a rfl)
theorem keepsO2_bindO {α : Type} (x : Option (α × State)) (f : α × State → Option State) (h : KeepsO2 r o x)
    (g : ∀ a, Keeps2 r o a → KeepsO r o (f a)) : KeepsO r o (x.bind f) := by
  cases x with
  | none => exact KeepsO.none
  | some a => exact g a (h a rfl)
theorem keepsO2_map {α β : Type} (x : Option (α × State)) (f : α × State → β × State) (h : KeepsO2 r o x)
    (g : ∀ a, Keeps2 r o a → Keeps2 r o (f a)) : KeepsO2 r o (x.map f) := by
  cases x with
  | none => exact KeepsO2.none
  | some a => exact KeepsO2.mk _ (g a (h a rfl))
theorem keepsO2_mapO {β : Type} (x : Option State) (f : State → β × State) (h : KeepsO r o x)
    (g : ∀ a, Keeps r o a → Keeps2 r o (f a)) : KeepsO2 r o (x.map f) := by
  cases x with
  | none => exact KeepsO2.none
  | some a => exact KeepsO2.mk _ (g a (h a rfl))
theorem keepsO_bind (x : Option State) (f : State → Option State) (h : KeepsO r o x)
    (g : ∀ a, Keeps r o a → KeepsO r o (f a)) : KeepsO r o (x.bind f) := by
  cases x with
  | none => exact KeepsO.none
  | some a => exact g a (h a rfl)
theorem keepsO2_mapS {α : Type} (x : Option (α × State)) (f : α × State → State) (h : KeepsO2 r o x)
    (g : ∀ a, Keeps2 r o a → Keeps r o (f a)) : KeepsO r o (x.map f) := by
  cases x with
  | none => exact KeepsO.none
  | some a => exact KeepsO.mk (g a (h a rfl))
theorem keepsO_foldl {α : Type} (f : Option State → α → Option State) (l : List α)
    (step : ∀ x a, KeepsO r o x → KeepsO r o (f x a)) (x : Option State) (h : KeepsO r o x) :
    KeepsO r o (l.foldl f x) := by
  induction l generalizing x with
  | nil => exact h
  | cons a l ih => exact ih _ (step x a h)
theorem keepsO2_foldl {α β : Type} (f : Option (β × State) → α → Option (β × State)) (l : List α)
    (step : ∀ x a, KeepsO2 r o x → KeepsO2 r o (f x a)) (x : Option (β × State)) (h : KeepsO2 r o x) :
    KeepsO2 r o (l.foldl f x) := by
  induction l generalizing x with
  | nil => exact h
  | cons a l ih => exact ih _ (step x a h)

theorem keeps_drawNat (h : Keeps r o s) : Keeps2 r o s.drawNat :=
  h.next (fun p _ => by cases p <;> first | rfl | exact fun _ => rfl) rfl (Nat.le_succ _) id id

theorem keeps_drawBytes (n) (h : Keeps r o s) : Keeps2 r o (s.drawBytes n) :=
  h.next (fun p _ => by cases p <;> first | rfl | exact fun _ => rfl) rfl (Nat.le_succ _) id id

theorem keeps_drawRandom (n) (h : Keeps r o s) : Keeps2 r o (s.drawRandom n) :=
  h.next (fun p _ => by cases p <;> first | rfl | exact fun _ => rfl) rfl (Nat.le_succ _) id id

/-- Bytes go into DRAM group B. -/
theorem keeps_dramWrite (a : Nat) (b : Bytes) (h : Keeps r o s) (c : r .dram) :
    Keeps r o (s.onEng fun e => { e with dram := memWriteN e.dram a b }) :=
  h.next (fun p hp => by cases p <;> first | rfl | exact fun _ => rfl | exact absurd c hp) rfl (Nat.le_refl _)
    (fun w => Memory.wf_memWriteN b _ a w) id

/-- DRAM group B loses its supply: every byte reads as an unlisted one. -/
theorem keeps_dramClear (h : Keeps r o s) (c : r .dram) :
    Keeps r o (s.onEng fun e => { e with dram := [] }) :=
  h.next (fun p hp => by cases p <;> first | rfl | (intro _; rfl) | exact absurd c hp) rfl (Nat.le_refl _) (fun _ => rfl) id

end Sys2Proof.Machine
end

