-- ==== Sys2Proof/Laws/KeepOps.lean ====
section
/-! SUPPORT. What each operation of Machine/Ops.lean may change. -/

set_option linter.unusedTactic false
set_option linter.unreachableTactic false

namespace Sys2Proof.Machine

variable {r : Part → Prop} {o s : State}

theorem keeps_raise (src : ℕ) (payload : Bytes) (h : Keeps r o s) (c_flt : r .flt) :
    Keeps r o (State.raise s src payload) := by
  unfold State.raise
  repeat' first
    | with_reducible assumption | with_reducible apply keeps_onFlt

theorem keeps_send (t' : Tx) (h : Keeps r o s) (c_nfe : r .nfe) :
    Keeps r o (State.send s t') := by
  unfold State.send
  repeat' first
    | with_reducible assumption | with_reducible apply keeps_onNfe

theorem keeps_grantVal (c : SvcClass) (requester : ℕ) (h : Keeps r o s) (c_val : r .val) :
    Keeps r o (State.grantVal s c requester) := by
  unfold State.grantVal
  repeat' first
    | with_reducible assumption | with_reducible apply keeps_onVal | with_reducible apply keeps_foldl
    | with_reducible apply keeps2_foldl | (with_reducible intro _; beta_reduce)
    | with_reducible refine Keeps2.of (by assumption) ?_ | with_reducible apply Keeps2.snd
    | (extract_lets +onlyGivenNames x; refine @Keeps.cut r o _ x ?_ (fun hx => ?_); rotate_left; clear_value x; rotate_right; dsimp -zeta only [x])
    | (extract_lets +onlyGivenNames x; clear_value x) | split

theorem keeps_sendAs (ctx : ℕ) (c : SvcClass) (t' : Tx) (h : Keeps r o s) (c_nfe : r .nfe) :
    Keeps r o (State.sendAs s ctx c t') := by
  unfold State.sendAs
  repeat' first
    | with_reducible assumption | with_reducible apply keeps_onNfe

theorem keeps_sendCredit (queue : ℕ) (channel : ℕ) (cls : ℕ) (h : Keeps r o s) (c_sch : r .sch) :
    Keeps r o (State.sendCredit s queue channel cls) := by
  unfold State.sendCredit
  repeat' first
    | with_reducible assumption | with_reducible apply keeps_onSch

theorem keeps_returnCredit (queue : ℕ) (channel : ℕ) (cls : ℕ) (h : Keeps r o s) (c_sch : r .sch) :
    Keeps r o (State.returnCredit s queue channel cls) := by
  unfold State.returnCredit
  repeat' first
    | with_reducible assumption | with_reducible apply keeps_onSch

end Sys2Proof.Machine
end

