-- ==== Sys2Proof/Laws/KeepOperands.lean ====
section
/-! SUPPORT. What each operation of Machine/Operands.lean may change. -/

set_option linter.unusedTactic false
set_option linter.unreachableTactic false

namespace Sys2Proof.Machine

variable {r : Part → Prop} {o s : State}

theorem keeps_swatch (target : ℕ) (addr : ℕ) (h : Keeps r o s) (c_flt : r .flt) (c_FLT_SWATCH_CTL_ARM : r (.reg Reg.FLT_SWATCH_CTL_ARM.addr)) :
    Keeps2 r o (State.swatch s target addr) := by
  unfold State.swatch
  repeat' first
    | with_reducible assumption | exact c_FLT_SWATCH_CTL_ARM | with_reducible apply keeps_setFld
    | with_reducible apply keeps_raise | with_reducible apply keeps_foldl | with_reducible apply keeps2_foldl
    | (with_reducible intro _; beta_reduce) | with_reducible refine Keeps2.of (by assumption) ?_
    | with_reducible apply Keeps2.snd
    | (extract_lets +onlyGivenNames x; refine @Keeps.cut r o _ x ?_ (fun hx => ?_); rotate_left; clear_value x; rotate_right; dsimp -zeta only [x])
    | (extract_lets +onlyGivenNames x; clear_value x) | split | with_reducible apply Keeps2.mk

theorem keeps_swatchWrite (target : ℕ) (addr : ℕ) (h : Keeps r o s) (c_flt : r .flt) (c_FLT_SWATCH_CTL_ARM : r (.reg Reg.FLT_SWATCH_CTL_ARM.addr)) :
    Keeps r o (State.swatchWrite s target addr) := by
  unfold State.swatchWrite
  repeat' first
    | with_reducible assumption | with_reducible apply keeps_swatch | with_reducible apply keeps_onFlt
    | with_reducible apply keeps_foldl | with_reducible apply keeps2_foldl | (with_reducible intro _; beta_reduce)
    | with_reducible refine Keeps2.of (by assumption) ?_ | with_reducible apply Keeps2.snd

theorem keeps_swatchRead (target : ℕ) (addr : ℕ) (h : Keeps r o s) (c_flt : r .flt) :
    Keeps2 r o (State.swatchRead s target addr) := by
  unfold State.swatchRead
  repeat' first
    | with_reducible assumption | with_reducible apply keeps_onFlt | with_reducible apply keeps_foldl
    | with_reducible apply keeps2_foldl | (with_reducible intro _; beta_reduce)
    | with_reducible refine Keeps2.of (by assumption) ?_ | with_reducible apply Keeps2.snd
    | (extract_lets +onlyGivenNames x; refine @Keeps.cut r o _ x ?_ (fun hx => ?_); rotate_left; clear_value x; rotate_right; dsimp -zeta only [x])
    | (extract_lets +onlyGivenNames x; clear_value x) | split | with_reducible apply Keeps2.mk

theorem keeps_storageWritten (target : ℕ) (p : ℕ → Bool) (h : Keeps r o s) (c_flt : r .flt) (c_FLT_SWATCH_CTL_ARM : r (.reg Reg.FLT_SWATCH_CTL_ARM.addr)) :
    Keeps r o (State.storageWritten s target p) := by
  unfold State.storageWritten
  repeat' first
    | with_reducible assumption | with_reducible apply keeps_onFlt | with_reducible apply keeps_swatchWrite
    | with_reducible apply keeps_foldl | with_reducible apply keeps2_foldl | (with_reducible intro _; beta_reduce)
    | with_reducible refine Keeps2.of (by assumption) ?_ | with_reducible apply Keeps2.snd
    | (extract_lets +onlyGivenNames x; refine @Keeps.cut r o _ x ?_ (fun hx => ?_); rotate_left; clear_value x; rotate_right; dsimp -zeta only [x])
    | (extract_lets +onlyGivenNames x; clear_value x) | split

theorem keeps_storageRead (target : ℕ) (p : ℕ → Bool) (h : Keeps r o s) (c_flt : r .flt) :
    Keeps2 r o (State.storageRead s target p) := by
  unfold State.storageRead
  repeat' first
    | with_reducible assumption | with_reducible apply keeps_onFlt | with_reducible apply keeps_foldl
    | with_reducible apply keeps2_foldl | (with_reducible intro _; beta_reduce)
    | with_reducible refine Keeps2.of (by assumption) ?_ | with_reducible apply Keeps2.snd
    | (extract_lets +onlyGivenNames x; refine @Keeps.cut r o _ x ?_ (fun hx => ?_); rotate_left; clear_value x; rotate_right; dsimp -zeta only [x])
    | (extract_lets +onlyGivenNames x; clear_value x) | split | with_reducible apply Keeps2.mk

end Sys2Proof.Machine
end

