-- ==== Sys2Proof/Laws/KeepIssue.lean ====
section
/-! SUPPORT. What each operation of Machine/Issue.lean may change. -/

set_option linter.unusedTactic false
set_option linter.unreachableTactic false

namespace Sys2Proof.Machine

variable {r : Part → Prop} {o s : State}

theorem keeps_dramPut (a : ℕ) (b : Bytes) (h : Keeps r o s) (c_rings : r .rings) (c_dram : r .dram) (c_flt : r .flt) (c_FLT_SWATCH_CTL_ARM : r (.reg Reg.FLT_SWATCH_CTL_ARM.addr)) :
    Keeps r o (State.dramPut s a b) := by
  unfold State.dramPut
  repeat' first
    | with_reducible assumption | with_reducible apply keeps_storageWritten | with_reducible apply keeps_dramClear
    | with_reducible apply keeps_dramWrite

theorem keeps_dramGet (a : ℕ) (n : ℕ) (h : Keeps r o s) (c_flt : r .flt) :
    Keeps2 r o (State.dramGet s a n) := by
  unfold State.dramGet
  repeat' first
    | with_reducible assumption | with_reducible apply keeps_raise | with_reducible apply keeps_storageRead
    | with_reducible apply keeps_foldl | with_reducible apply keeps2_foldl | (with_reducible intro _; beta_reduce)
    | with_reducible refine Keeps2.of (by assumption) ?_ | with_reducible apply Keeps2.snd
    | (extract_lets +onlyGivenNames x; refine @Keeps.cut r o _ x ?_ (fun hx => ?_); rotate_left; clear_value x; rotate_right; dsimp -zeta only [x])
    | (extract_lets +onlyGivenNames x; refine @Keeps2.cut r o _ _ x ?_ (fun hx => ?_); rotate_left; clear_value x; rotate_right; dsimp -zeta only [x])
    | (extract_lets +onlyGivenNames x; clear_value x) | split | with_reducible apply Keeps2.mk

theorem keeps_writeCqe (n : ℕ) (c : ℕ × ℕ × Bool × Bytes) (h : Keeps r o s) (c_rings : r .rings) (c_dram : r .dram) (c_flt : r .flt) (c_FLT_SWATCH_CTL_ARM : r (.reg Reg.FLT_SWATCH_CTL_ARM.addr)) :
    Keeps r o (State.writeCqe s n c) := by
  unfold State.writeCqe
  repeat' first
    | with_reducible assumption | with_reducible apply keeps_dramPut | with_reducible apply keeps_onRing
    | with_reducible apply keeps_dramClear | with_reducible apply keeps_dramWrite | (with_reducible apply keeps_onEng)
    | with_reducible apply keeps_foldl | with_reducible apply keeps2_foldl | (with_reducible intro _; beta_reduce)
    | with_reducible refine Keeps2.of (by assumption) ?_ | with_reducible apply Keeps2.snd
    | (extract_lets +onlyGivenNames x; refine @Keeps.cut r o _ x ?_ (fun hx => ?_); rotate_left; clear_value x; rotate_right; dsimp -zeta only [x])
    | (extract_lets +onlyGivenNames x; clear_value x) | split | with_reducible apply Keeps2.mk | rfl

theorem keeps_drainCqes (n : ℕ) (y2 : ℕ) (h : Keeps r o s) (c_rings : r .rings) (c_dram : r .dram) (c_flt : r .flt) (c_FLT_SWATCH_CTL_ARM : r (.reg Reg.FLT_SWATCH_CTL_ARM.addr)) :
    Keeps r o (State.drainCqes s n y2) := by
  induction y2 generalizing s n with
  | zero =>
    unfold State.drainCqes
    repeat' first
      | with_reducible assumption | with_reducible apply ih | with_reducible apply keeps_writeCqe
      | with_reducible apply keeps_onRing | with_reducible apply keeps_foldl | with_reducible apply keeps2_foldl
      | (with_reducible intro _; beta_reduce) | with_reducible refine Keeps2.of (by assumption) ?_
      | with_reducible apply Keeps2.snd
      | (extract_lets +onlyGivenNames x; refine @Keeps.cut r o _ x ?_ (fun hx => ?_); rotate_left; clear_value x; rotate_right; dsimp -zeta only [x])
      | (extract_lets +onlyGivenNames x; clear_value x) | split | with_reducible apply Keeps2.mk
  | succ _ ih =>
    unfold State.drainCqes
    repeat' first
      | with_reducible assumption | with_reducible apply ih | with_reducible apply keeps_writeCqe
      | with_reducible apply keeps_onRing | with_reducible apply keeps_foldl | with_reducible apply keeps2_foldl
      | (with_reducible intro _; beta_reduce) | with_reducible refine Keeps2.of (by assumption) ?_
      | with_reducible apply Keeps2.snd
      | (extract_lets +onlyGivenNames x; refine @Keeps.cut r o _ x ?_ (fun hx => ?_); rotate_left; clear_value x; rotate_right; dsimp -zeta only [x])
      | (extract_lets +onlyGivenNames x; clear_value x) | split | with_reducible apply Keeps2.mk

theorem keeps_ringDone (n : ℕ) (d : Dir) (estatus : ℕ) (result : Bytes) (h : Keeps r o s) (c_rings : r .rings) (c_dram : r .dram) (c_flt : r .flt) (c_FLT_SWATCH_CTL_ARM : r (.reg Reg.FLT_SWATCH_CTL_ARM.addr)) :
    Keeps r o (State.ringDone s n d estatus result) := by
  unfold State.ringDone
  repeat' first
    | with_reducible assumption | with_reducible apply keeps_onRing | with_reducible apply keeps_drainCqes

theorem keeps_ringDoneExt (n : ℕ) (d : Dir) (result : Bytes) (extra : Bytes) (h : Keeps r o s) (c_rings : r .rings) (c_dram : r .dram) (c_flt : r .flt) (c_FLT_SWATCH_CTL_ARM : r (.reg Reg.FLT_SWATCH_CTL_ARM.addr)) :
    Keeps r o (State.ringDoneExt s n d result extra) := by
  unfold State.ringDoneExt
  repeat' first
    | with_reducible assumption | with_reducible apply keeps_dramPut | with_reducible apply keeps_onRing
    | with_reducible apply keeps_ringDone | with_reducible apply keeps_drainCqes | with_reducible apply keeps_foldl
    | with_reducible apply keeps2_foldl | (with_reducible intro _; beta_reduce)
    | with_reducible refine Keeps2.of (by assumption) ?_ | with_reducible apply Keeps2.snd
    | (extract_lets +onlyGivenNames x; refine @Keeps.cut r o _ x ?_ (fun hx => ?_); rotate_left; clear_value x; rotate_right; dsimp -zeta only [x])
    | (extract_lets +onlyGivenNames x; clear_value x) | split

theorem keeps_issueHead (n : ℕ) (h : Keeps r o s) (c_rings : r .rings) (c_dram : r .dram) (c_flt : r .flt) (c_FLT_SWATCH_CTL_ARM : r (.reg Reg.FLT_SWATCH_CTL_ARM.addr)) :
    Keeps r o (State.issueHead s n) := by
  unfold State.issueHead
  repeat' first
    | with_reducible assumption | with_reducible apply keeps_writeCqe | with_reducible apply keeps_onRing
    | with_reducible apply keeps_foldl | with_reducible apply keeps2_foldl | (with_reducible intro _; beta_reduce)
    | with_reducible refine Keeps2.of (by assumption) ?_ | with_reducible apply Keeps2.snd
    | (extract_lets +onlyGivenNames x; refine @Keeps.cut r o _ x ?_ (fun hx => ?_); rotate_left; clear_value x; rotate_right; dsimp -zeta only [x])
    | (extract_lets +onlyGivenNames x; clear_value x) | split

theorem keeps_pumpRings (y1 : ℕ) (h : Keeps r o s) (c_rings : r .rings) (c_dram : r .dram) (c_flt : r .flt) (c_FLT_SWATCH_CTL_ARM : r (.reg Reg.FLT_SWATCH_CTL_ARM.addr)) :
    Keeps r o (State.pumpRings s y1) := by
  induction y1 generalizing s  with
  | zero =>
    unfold State.pumpRings
    repeat' first
      | with_reducible assumption | with_reducible apply ih | with_reducible apply keeps_issueHead
      | with_reducible apply keeps_dramClear | with_reducible apply keeps_dramWrite
      | (with_reducible apply keeps_onEng) | with_reducible apply keeps_foldl | with_reducible apply keeps2_foldl
      | (with_reducible intro _; beta_reduce) | with_reducible refine Keeps2.of (by assumption) ?_
      | with_reducible apply Keeps2.snd
      | (extract_lets +onlyGivenNames x; refine @Keeps.cut r o _ x ?_ (fun hx => ?_); rotate_left; clear_value x; rotate_right; dsimp -zeta only [x])
      | (extract_lets +onlyGivenNames x; clear_value x) | split | with_reducible apply Keeps2.mk | rfl
  | succ _ ih =>
    unfold State.pumpRings
    repeat' first
      | with_reducible assumption | with_reducible apply ih | with_reducible apply keeps_issueHead
      | with_reducible apply keeps_dramClear | with_reducible apply keeps_dramWrite
      | (with_reducible apply keeps_onEng) | with_reducible apply keeps_foldl | with_reducible apply keeps2_foldl
      | (with_reducible intro _; beta_reduce) | with_reducible refine Keeps2.of (by assumption) ?_
      | with_reducible apply Keeps2.snd
      | (extract_lets +onlyGivenNames x; refine @Keeps.cut r o _ x ?_ (fun hx => ?_); rotate_left; clear_value x; rotate_right; dsimp -zeta only [x])
      | (extract_lets +onlyGivenNames x; clear_value x) | split | with_reducible apply Keeps2.mk | rfl

theorem keeps_pump (h : Keeps r o s) (c_rings : r .rings) (c_dram : r .dram) (c_flt : r .flt) (c_FLT_SWATCH_CTL_ARM : r (.reg Reg.FLT_SWATCH_CTL_ARM.addr)) :
    Keeps r o (State.pump s) := by
  unfold State.pump
  repeat' first
    | with_reducible assumption | with_reducible apply keeps_pumpRings

theorem keeps_finish (ring : ℕ) (d : Dir) (estatus : ℕ) (result : Bytes) (h : Keeps r o s) (c_rings : r .rings) (c_dram : r .dram) (c_flt : r .flt) (c_FLT_SWATCH_CTL_ARM : r (.reg Reg.FLT_SWATCH_CTL_ARM.addr)) :
    Keeps r o (State.finish s ring d estatus result) := by
  unfold State.finish
  repeat' first
    | with_reducible assumption | with_reducible apply keeps_pump | with_reducible apply keeps_ringDone

theorem keeps_finishExt (ring : ℕ) (d : Dir) (result : Bytes) (extra : Bytes) (h : Keeps r o s) (c_rings : r .rings) (c_dram : r .dram) (c_flt : r .flt) (c_FLT_SWATCH_CTL_ARM : r (.reg Reg.FLT_SWATCH_CTL_ARM.addr)) :
    Keeps r o (State.finishExt s ring d result extra) := by
  unfold State.finishExt
  repeat' first
    | with_reducible assumption | with_reducible apply keeps_ringDoneExt | with_reducible apply keeps_pump

theorem keeps_setUp (ring : ℕ) (d : Dir) (f : State → State) (step : ∀ s, Keeps r o s → Keeps r o (f s)) (h : Keeps r o s) :
    Keeps r o (State.setUp s ring d f) := by
  unfold State.setUp
  repeat' first
    | with_reducible assumption | with_reducible apply step | with_reducible apply keeps_guardStep

end Sys2Proof.Machine
end

