-- ==== Sys2Proof/Laws/KeepLedger.lean ====
section
/-! SUPPORT. What each operation of Machine/Ledger.lean may change. -/

set_option linter.unusedTactic false
set_option linter.unreachableTactic false

namespace Sys2Proof.Machine

variable {r : Part → Prop} {o s : State}

theorem keeps_lowerGauge (n : ℕ) (h : Keeps r o s) (c_ldg : r .ldg) (c_flt : r .flt) :
    Keeps r o (State.lowerGauge s n) := by
  unfold State.lowerGauge
  repeat' first
    | with_reducible assumption | with_reducible apply keeps_raise | with_reducible apply keeps_onLdg
    | with_reducible apply keeps_foldl | with_reducible apply keeps2_foldl | (with_reducible intro _; beta_reduce)
    | with_reducible refine Keeps2.of (by assumption) ?_ | with_reducible apply Keeps2.snd
    | (extract_lets +onlyGivenNames x; refine @Keeps.cut r o _ x ?_ (fun hx => ?_); rotate_left; clear_value x; rotate_right; dsimp -zeta only [x])
    | (extract_lets +onlyGivenNames x; clear_value x) | split

theorem keeps_drawAlways (n : ℕ) (h : Keeps r o s) (c_ldg : r .ldg) (c_flt : r .flt) (c_LDG_UNMETERED_LINES : r (.reg Reg.LDG_UNMETERED_LINES.addr)) :
    Keeps r o (State.drawAlways s n) := by
  unfold State.drawAlways
  repeat' first
    | with_reducible assumption | exact c_LDG_UNMETERED_LINES | with_reducible apply keeps_bump
    | with_reducible apply keeps_lowerGauge | with_reducible apply keeps_foldl | with_reducible apply keeps2_foldl
    | (with_reducible intro _; beta_reduce) | with_reducible refine Keeps2.of (by assumption) ?_
    | with_reducible apply Keeps2.snd
    | (extract_lets +onlyGivenNames x; refine @Keeps.cut r o _ x ?_ (fun hx => ?_); rotate_left; clear_value x; rotate_right; dsimp -zeta only [x])
    | (extract_lets +onlyGivenNames x; clear_value x) | split

theorem keeps_queueMeta (n : ℕ) (cmd : Option ℕ) (h : Keeps r o s) (c_ldg : r .ldg) (c_LDG_GAUGE_STAT_FALLBACKS : r (.reg Reg.LDG_GAUGE_STAT_FALLBACKS.addr)) :
    Keeps r o (State.queueMeta s n cmd) := by
  unfold State.queueMeta
  repeat' first
    | with_reducible assumption | exact c_LDG_GAUGE_STAT_FALLBACKS | with_reducible apply keeps_bump
    | with_reducible apply keeps_onLdg

theorem keeps_drawMeta (n : ℕ) (h : Keeps r o s) (c_ldg : r .ldg) (c_flt : r .flt) (c_LDG_GAUGE_STAT_FALLBACKS : r (.reg Reg.LDG_GAUGE_STAT_FALLBACKS.addr)) :
    Keeps r o (State.drawMeta s n) := by
  unfold State.drawMeta
  repeat' first
    | with_reducible assumption | with_reducible apply keeps_queueMeta | with_reducible apply keeps_lowerGauge
    | with_reducible apply keeps_foldl | with_reducible apply keeps2_foldl | (with_reducible intro _; beta_reduce)
    | with_reducible refine Keeps2.of (by assumption) ?_ | with_reducible apply Keeps2.snd
    | (extract_lets +onlyGivenNames x; refine @Keeps.cut r o _ x ?_ (fun hx => ?_); rotate_left; clear_value x; rotate_right; dsimp -zeta only [x])
    | (extract_lets +onlyGivenNames x; clear_value x) | split

theorem keeps_giveTokens (n : ℕ) (cmd : Option ℕ) (h : Keeps r o s) (c_sch : r .sch) :
    Keeps r o (State.giveTokens s n cmd) := by
  unfold State.giveTokens
  repeat' first
    | with_reducible assumption | with_reducible apply keeps_onSch | with_reducible apply keeps_foldl
    | with_reducible apply keeps2_foldl | (with_reducible intro _; beta_reduce)
    | with_reducible refine Keeps2.of (by assumption) ?_ | with_reducible apply Keeps2.snd
    | (extract_lets +onlyGivenNames x; refine @Keeps.cut r o _ x ?_ (fun hx => ?_); rotate_left; clear_value x; rotate_right; dsimp -zeta only [x])
    | (extract_lets +onlyGivenNames x; clear_value x) | split

theorem keeps_serveMeta (y1 : ℕ) (h : Keeps r o s) (c_sch : r .sch) (c_ldg : r .ldg) (c_flt : r .flt) :
    Keeps r o (State.serveMeta s y1) := by
  induction y1 generalizing s  with
  | zero =>
    unfold State.serveMeta
    repeat' first
      | with_reducible assumption | with_reducible apply ih | with_reducible apply keeps_giveTokens
      | with_reducible apply keeps_onLdg | with_reducible apply keeps_lowerGauge | with_reducible apply keeps_foldl
      | with_reducible apply keeps2_foldl | (with_reducible intro _; beta_reduce)
      | with_reducible refine Keeps2.of (by assumption) ?_ | with_reducible apply Keeps2.snd
      | (extract_lets +onlyGivenNames x; refine @Keeps.cut r o _ x ?_ (fun hx => ?_); rotate_left; clear_value x; rotate_right; dsimp -zeta only [x])
      | (extract_lets +onlyGivenNames x; clear_value x) | split | with_reducible apply Keeps2.mk
  | succ _ ih =>
    unfold State.serveMeta
    repeat' first
      | with_reducible assumption | with_reducible apply ih | with_reducible apply keeps_giveTokens
      | with_reducible apply keeps_onLdg | with_reducible apply keeps_lowerGauge | with_reducible apply keeps_foldl
      | with_reducible apply keeps2_foldl | (with_reducible intro _; beta_reduce)
      | with_reducible refine Keeps2.of (by assumption) ?_ | with_reducible apply Keeps2.snd
      | (extract_lets +onlyGivenNames x; refine @Keeps.cut r o _ x ?_ (fun hx => ?_); rotate_left; clear_value x; rotate_right; dsimp -zeta only [x])
      | (extract_lets +onlyGivenNames x; clear_value x) | split | with_reducible apply Keeps2.mk

theorem keeps_dropTokens (cmd : ℕ) (h : Keeps r o s) (c_ldg : r .ldg) :
    Keeps r o (State.dropTokens s cmd) := by
  unfold State.dropTokens
  repeat' first
    | with_reducible assumption | with_reducible apply keeps_onLdg

theorem keeps_onLgroup (g : ℕ) (f : LGroup → LGroup) (h : Keeps r o s) (c_ldg : r .ldg) :
    Keeps r o (State.onLgroup s g f) := by
  unfold State.onLgroup
  repeat' first
    | with_reducible assumption | with_reducible apply keeps_onLdg

theorem keeps_countGroup (g : ℕ) (n : ℕ) (h : Keeps r o s) (c_ldg : r .ldg) :
    Keeps r o (State.countGroup s g n) := by
  unfold State.countGroup
  repeat' first
    | with_reducible assumption | with_reducible apply keeps_onLgroup

theorem keeps_countPairs (k : ℕ) (n : ℕ) (h : Keeps r o s) (c_ldg : r .ldg) :
    Keeps r o (State.countPairs s k n) := by
  unfold State.countPairs
  repeat' first
    | with_reducible assumption | with_reducible apply keeps_countGroup | with_reducible apply keeps_foldl
    | with_reducible apply keeps2_foldl | (with_reducible intro _; beta_reduce)
    | with_reducible refine Keeps2.of (by assumption) ?_ | with_reducible apply Keeps2.snd
    | (extract_lets +onlyGivenNames x; refine @Keeps.cut r o _ x ?_ (fun hx => ?_); rotate_left; clear_value x; rotate_right; dsimp -zeta only [x])
    | (extract_lets +onlyGivenNames x; clear_value x) | split

theorem keeps_keepMeta (object : ℕ) (n : ℕ) (lines : ℕ) (h : Keeps r o s) (c_ldg : r .ldg) (c_flt : r .flt) (c_LDG_GAUGE_STAT_FALLBACKS : r (.reg Reg.LDG_GAUGE_STAT_FALLBACKS.addr)) :
    Keeps r o (State.keepMeta s object n lines) := by
  unfold State.keepMeta
  repeat' first
    | with_reducible assumption | with_reducible apply keeps_drawMeta | with_reducible apply keeps_countPairs

theorem keeps_keepSecure (object : ℕ) (n : ℕ) (h : Keeps r o s) (c_ldg : r .ldg) (c_flt : r .flt) (c_LDG_UNMETERED_LINES : r (.reg Reg.LDG_UNMETERED_LINES.addr)) :
    Keeps r o (State.keepSecure s object n) := by
  unfold State.keepSecure
  repeat' first
    | with_reducible assumption | with_reducible apply keeps_countPairs | with_reducible apply keeps_drawAlways

theorem keeps_allocStaging (n : ℕ) (h : Keeps r o s) (c_ldg : r .ldg) :
    Keeps2 r o (State.allocStaging s n) := by
  unfold State.allocStaging
  repeat' first
    | with_reducible assumption | with_reducible apply keeps_onLdg | with_reducible apply keeps_foldl
    | with_reducible apply keeps2_foldl | (with_reducible intro _; beta_reduce)
    | with_reducible refine Keeps2.of (by assumption) ?_ | with_reducible apply Keeps2.snd
    | (extract_lets +onlyGivenNames x; refine @Keeps.cut r o _ x ?_ (fun hx => ?_); rotate_left; clear_value x; rotate_right; dsimp -zeta only [x])
    | (extract_lets +onlyGivenNames x; clear_value x) | split | with_reducible apply Keeps2.mk

theorem keeps_stageLines (n : ℕ) (h : Keeps r o s) (c_ldg : r .ldg) :
    Keeps2 r o (State.stageLines s n) := by
  unfold State.stageLines
  repeat' first
    | with_reducible assumption | with_reducible apply keeps_allocStaging | with_reducible apply keeps_countPairs
    | with_reducible apply keeps_foldl | with_reducible apply keeps2_foldl | (with_reducible intro _; beta_reduce)
    | with_reducible refine Keeps2.of (by assumption) ?_ | with_reducible apply Keeps2.snd
    | (extract_lets +onlyGivenNames x; refine @Keeps.cut r o _ x ?_ (fun hx => ?_); rotate_left; clear_value x; rotate_right; dsimp -zeta only [x])
    | (extract_lets +onlyGivenNames x; refine @Keeps2.cut r o _ _ x ?_ (fun hx => ?_); rotate_left; clear_value x; rotate_right; dsimp -zeta only [x])
    | (extract_lets +onlyGivenNames x; clear_value x) | split | with_reducible apply Keeps2.mk

theorem keeps_freeLines (line : ℕ) (h : Keeps r o s) (c_ldg : r .ldg) :
    Keeps r o (State.freeLines s line) := by
  unfold State.freeLines
  repeat' first
    | with_reducible assumption | with_reducible apply keeps_onLdg

theorem keeps_settleLimbo (h : Keeps r o s) (c_ldg : r .ldg) :
    Keeps r o (State.settleLimbo s) := by
  unfold State.settleLimbo
  repeat' first
    | with_reducible assumption | with_reducible apply keeps_onLdg

theorem keeps_noteSpares (dev : ℕ) (was : Bool) (h : Keeps r o s) (c_flt : r .flt) :
    Keeps r o (State.noteSpares s dev was) := by
  unfold State.noteSpares
  repeat' first
    | with_reducible assumption | with_reducible apply keeps_raise | with_reducible apply keeps_foldl
    | with_reducible apply keeps2_foldl | (with_reducible intro _; beta_reduce)
    | with_reducible refine Keeps2.of (by assumption) ?_ | with_reducible apply Keeps2.snd
    | (extract_lets +onlyGivenNames x; refine @Keeps.cut r o _ x ?_ (fun hx => ?_); rotate_left; clear_value x; rotate_right; dsimp -zeta only [x])
    | (extract_lets +onlyGivenNames x; clear_value x) | split

theorem keeps_takeSpare (g : ℕ) (h : Keeps r o s) (c_ldg : r .ldg) (c_flt : r .flt) :
    Keeps r o (State.takeSpare s g) := by
  unfold State.takeSpare
  repeat' first
    | with_reducible assumption | with_reducible apply keeps_noteSpares | with_reducible apply keeps_onLgroup

theorem keeps_takeSpares (dev : ℕ) (n : ℕ) (h : Keeps r o s) (c_ldg : r .ldg) (c_flt : r .flt) :
    Keeps r o (State.takeSpares s dev n) := by
  unfold State.takeSpares
  repeat' first
    | with_reducible assumption | with_reducible apply keeps_noteSpares | with_reducible apply keeps_onLgroup
    | with_reducible apply keeps_foldl | with_reducible apply keeps2_foldl | (with_reducible intro _; beta_reduce)

theorem keeps_recLineLost (row : ℕ) (h : Keeps r o s) (c_flt : r .flt) (c_recorder : r .recorder) (c_REC_LOST_STAT_SRAM_OVERWRITTEN : r (.reg Reg.REC_LOST_STAT_SRAM_OVERWRITTEN.addr)) :
    Keeps r o (State.recLineLost s row) := by
  unfold State.recLineLost
  repeat' first
    | with_reducible assumption | exact c_REC_LOST_STAT_SRAM_OVERWRITTEN | with_reducible apply keeps_bump
    | with_reducible apply keeps_onRec | with_reducible apply keeps_raise

theorem keeps_regionLost (p : ℕ → Bool) (first : ℕ) (count : ℕ) (h : Keeps r o s) (c_flt : r .flt) (c_recorder : r .recorder) (c_REC_LOST_STAT_SRAM_OVERWRITTEN : r (.reg Reg.REC_LOST_STAT_SRAM_OVERWRITTEN.addr)) :
    Keeps r o (State.regionLost s p first count) := by
  unfold State.regionLost
  repeat' first
    | with_reducible assumption | with_reducible apply keeps_raise | with_reducible apply keeps_recLineLost
    | with_reducible apply keeps_foldl | with_reducible apply keeps2_foldl | (with_reducible intro _; beta_reduce)

theorem keeps_spoilCopy (line : ℕ) (copyB : Bool) (h : Keeps r o s) (c_flt : r .flt) :
    Keeps r o (State.spoilCopy s line copyB) := by
  unfold State.spoilCopy
  repeat' first
    | with_reducible assumption | with_reducible apply keeps_onFlt

theorem keeps_loseGroup (g : ℕ) (h : Keeps r o s) (c_flt : r .flt) :
    Keeps r o (State.loseGroup s g) := by
  unfold State.loseGroup
  repeat' first
    | with_reducible assumption | with_reducible apply keeps_spoilCopy | with_reducible apply keeps_foldl
    | with_reducible apply keeps2_foldl | (with_reducible intro _; beta_reduce)
    | with_reducible refine Keeps2.of (by assumption) ?_ | with_reducible apply Keeps2.snd
    | (extract_lets +onlyGivenNames x; refine @Keeps.cut r o _ x ?_ (fun hx => ?_); rotate_left; clear_value x; rotate_right; dsimp -zeta only [x])
    | (extract_lets +onlyGivenNames x; clear_value x) | split

theorem keeps_groupGone (g : ℕ) (h : Keeps r o s) (c_ldg : r .ldg) (c_flt : r .flt) (c_recorder : r .recorder) (c_REC_LOST_STAT_SRAM_OVERWRITTEN : r (.reg Reg.REC_LOST_STAT_SRAM_OVERWRITTEN.addr)) :
    Keeps r o (State.groupGone s g) := by
  unfold State.groupGone
  repeat' first
    | with_reducible assumption | with_reducible apply keeps_onLgroup | with_reducible apply keeps_raise
    | with_reducible apply keeps_loseGroup | with_reducible apply keeps_regionLost

theorem keeps_moveGroup (g : ℕ) (h : Keeps r o s) (c_ldg : r .ldg) (c_flt : r .flt) :
    Keeps r o (State.moveGroup s g) := by
  unfold State.moveGroup
  repeat' first
    | with_reducible assumption | with_reducible apply keeps_onLgroup | with_reducible apply keeps_raise
    | with_reducible apply keeps_takeSpares | with_reducible apply keeps_foldl | with_reducible apply keeps2_foldl
    | (with_reducible intro _; beta_reduce) | with_reducible refine Keeps2.of (by assumption) ?_
    | with_reducible apply Keeps2.snd
    | (extract_lets +onlyGivenNames x; refine @Keeps.cut r o _ x ?_ (fun hx => ?_); rotate_left; clear_value x; rotate_right; dsimp -zeta only [x])
    | (extract_lets +onlyGivenNames x; clear_value x) | split

theorem keeps_failGroup (g : ℕ) (h : Keeps r o s) (c_ldg : r .ldg) (c_flt : r .flt) (c_recorder : r .recorder) (c_REC_LOST_STAT_SRAM_OVERWRITTEN : r (.reg Reg.REC_LOST_STAT_SRAM_OVERWRITTEN.addr)) :
    Keeps r o (State.failGroup s g) := by
  unfold State.failGroup
  repeat' first
    | with_reducible assumption | with_reducible apply keeps_onRec | with_reducible apply keeps_moveGroup
    | with_reducible apply keeps_groupGone

theorem keeps_retireLine (line : ℕ) (h : Keeps r o s) (c_ldg : r .ldg) (c_flt : r .flt) (c_recorder : r .recorder) (c_REC_LOST_STAT_SRAM_OVERWRITTEN : r (.reg Reg.REC_LOST_STAT_SRAM_OVERWRITTEN.addr)) :
    Keeps r o (State.retireLine s line) := by
  unfold State.retireLine
  repeat' first
    | with_reducible assumption | with_reducible apply keeps_onLgroup | with_reducible apply keeps_takeSpare
    | with_reducible apply keeps_raise | with_reducible apply keeps_drawNat | with_reducible apply keeps_failGroup
    | with_reducible apply keeps_foldl | with_reducible apply keeps2_foldl | (with_reducible intro _; beta_reduce)
    | with_reducible refine Keeps2.of (by assumption) ?_ | with_reducible apply Keeps2.snd
    | (extract_lets +onlyGivenNames x; refine @Keeps.cut r o _ x ?_ (fun hx => ?_); rotate_left; clear_value x; rotate_right; dsimp -zeta only [x])
    | (extract_lets +onlyGivenNames x; refine @Keeps2.cut r o _ _ x ?_ (fun hx => ?_); rotate_left; clear_value x; rotate_right; dsimp -zeta only [x])
    | (extract_lets +onlyGivenNames x; clear_value x) | split

theorem keeps_copyRead (line : ℕ) (copyB : Bool) (h : Keeps r o s) (c_ldg : r .ldg) (c_flt : r .flt) (c_recorder : r .recorder) (c_REC_LOST_STAT_SRAM_OVERWRITTEN : r (.reg Reg.REC_LOST_STAT_SRAM_OVERWRITTEN.addr)) :
    Keeps r o (State.copyRead s line copyB) := by
  unfold State.copyRead
  repeat' first
    | with_reducible assumption | with_reducible apply keeps_swatchRead | with_reducible apply keeps_retireLine
    | with_reducible apply keeps_foldl | with_reducible apply keeps2_foldl | (with_reducible intro _; beta_reduce)
    | with_reducible refine Keeps2.of (by assumption) ?_ | with_reducible apply Keeps2.snd
    | (extract_lets +onlyGivenNames x; refine @Keeps.cut r o _ x ?_ (fun hx => ?_); rotate_left; clear_value x; rotate_right; dsimp -zeta only [x])
    | (extract_lets +onlyGivenNames x; refine @Keeps2.cut r o _ _ x ?_ (fun hx => ?_); rotate_left; clear_value x; rotate_right; dsimp -zeta only [x])
    | (extract_lets +onlyGivenNames x; clear_value x) | split

theorem keeps_readLine (line : ℕ) (h : Keeps r o s) (c_ldg : r .ldg) (c_flt : r .flt) (c_recorder : r .recorder) (c_REC_LOST_STAT_SRAM_OVERWRITTEN : r (.reg Reg.REC_LOST_STAT_SRAM_OVERWRITTEN.addr)) :
    Keeps2 r o (State.readLine s line) := by
  unfold State.readLine
  repeat' first
    | with_reducible assumption | with_reducible apply keeps_swatchRead | with_reducible apply keeps_raise
    | with_reducible apply keeps_copyRead | with_reducible apply keeps_retireLine | with_reducible apply keeps_foldl
    | with_reducible apply keeps2_foldl | (with_reducible intro _; beta_reduce)
    | with_reducible refine Keeps2.of (by assumption) ?_ | with_reducible apply Keeps2.snd
    | (extract_lets +onlyGivenNames x; refine @Keeps.cut r o _ x ?_ (fun hx => ?_); rotate_left; clear_value x; rotate_right; dsimp -zeta only [x])
    | (extract_lets +onlyGivenNames x; refine @Keeps2.cut r o _ _ x ?_ (fun hx => ?_); rotate_left; clear_value x; rotate_right; dsimp -zeta only [x])
    | (extract_lets +onlyGivenNames x; clear_value x) | split | with_reducible apply Keeps2.mk

theorem keeps_readLines (y1 : List ℕ) (h : Keeps r o s) (c_ldg : r .ldg) (c_flt : r .flt) (c_recorder : r .recorder) (c_REC_LOST_STAT_SRAM_OVERWRITTEN : r (.reg Reg.REC_LOST_STAT_SRAM_OVERWRITTEN.addr)) :
    Keeps2 r o (State.readLines s y1) := by
  induction y1 generalizing s  with
  | nil =>
    unfold State.readLines
    repeat' first
      | with_reducible assumption | with_reducible apply ih | with_reducible apply keeps_readLine
      | with_reducible apply keeps_foldl | with_reducible apply keeps2_foldl | (with_reducible intro _; beta_reduce)
      | with_reducible refine Keeps2.of (by assumption) ?_ | with_reducible apply Keeps2.snd
      | (extract_lets +onlyGivenNames x; refine @Keeps.cut r o _ x ?_ (fun hx => ?_); rotate_left; clear_value x; rotate_right; dsimp -zeta only [x])
      | (extract_lets +onlyGivenNames x; refine @Keeps2.cut r o _ _ x ?_ (fun hx => ?_); rotate_left; clear_value x; rotate_right; dsimp -zeta only [x])
      | (extract_lets +onlyGivenNames x; clear_value x) | split | with_reducible apply Keeps2.mk
  | cons _ _ ih =>
    unfold State.readLines
    repeat' first
      | with_reducible assumption | with_reducible apply ih | with_reducible apply keeps_readLine
      | with_reducible apply keeps_foldl | with_reducible apply keeps2_foldl | (with_reducible intro _; beta_reduce)
      | with_reducible refine Keeps2.of (by assumption) ?_ | with_reducible apply Keeps2.snd
      | (extract_lets +onlyGivenNames x; refine @Keeps.cut r o _ x ?_ (fun hx => ?_); rotate_left; clear_value x; rotate_right; dsimp -zeta only [x])
      | (extract_lets +onlyGivenNames x; refine @Keeps2.cut r o _ _ x ?_ (fun hx => ?_); rotate_left; clear_value x; rotate_right; dsimp -zeta only [x])
      | (extract_lets +onlyGivenNames x; clear_value x) | split | with_reducible apply Keeps2.mk

theorem keeps_putLines (line : ℕ) (b : Bytes) (h : Keeps r o s) (c_ldg : r .ldg) (c_flt : r .flt) (c_FLT_SWATCH_CTL_ARM : r (.reg Reg.FLT_SWATCH_CTL_ARM.addr)) :
    Keeps r o (State.putLines s line b) := by
  unfold State.putLines
  repeat' first
    | with_reducible assumption | with_reducible apply keeps_onLdg | with_reducible apply keeps_swatchWrite
    | with_reducible apply keeps_foldl | with_reducible apply keeps2_foldl | (with_reducible intro _; beta_reduce)
    | with_reducible refine Keeps2.of (by assumption) ?_ | with_reducible apply Keeps2.snd
    | (extract_lets +onlyGivenNames x; refine @Keeps.cut r o _ x ?_ (fun hx => ?_); rotate_left; clear_value x; rotate_right; dsimp -zeta only [x])
    | (extract_lets +onlyGivenNames x; clear_value x) | split

theorem keeps_journal (j : JLine) (h : Keeps r o s) (c_ldg : r .ldg) :
    Keeps r o (State.journal s j) := by
  unfold State.journal
  repeat' first
    | with_reducible assumption | with_reducible apply keeps_onKept | with_reducible apply keeps_countPairs
    | with_reducible apply keeps_onLdg

theorem keeps_journalMap (kind : ℕ) (target : ℕ) (body : Bytes) (h : Keeps r o s) (c_ldg : r .ldg) (c_flt : r .flt) (c_LDG_GAUGE_STAT_FALLBACKS : r (.reg Reg.LDG_GAUGE_STAT_FALLBACKS.addr)) :
    Keeps r o (State.journalMap s kind target body) := by
  unfold State.journalMap
  repeat' first
    | with_reducible assumption | with_reducible apply keeps_drawMeta | with_reducible apply keeps_journal

theorem keeps_journalSkein (skein : ℕ) (h : Keeps r o s) (c_ldg : r .ldg) (c_flt : r .flt) (c_LDG_GAUGE_STAT_FALLBACKS : r (.reg Reg.LDG_GAUGE_STAT_FALLBACKS.addr)) :
    Keeps r o (State.journalSkein s skein) := by
  unfold State.journalSkein
  repeat' first
    | with_reducible assumption | with_reducible apply keeps_journalMap

theorem keeps_journalStitches (skein : ℕ) (stitches : List ℕ) (h : Keeps r o s) (c_ldg : r .ldg) (c_flt : r .flt) (c_LDG_GAUGE_STAT_FALLBACKS : r (.reg Reg.LDG_GAUGE_STAT_FALLBACKS.addr)) :
    Keeps r o (State.journalStitches s skein stitches) := by
  unfold State.journalStitches
  repeat' first
    | with_reducible assumption | with_reducible apply keeps_journalMap | with_reducible apply keeps_foldl
    | with_reducible apply keeps2_foldl | (with_reducible intro _; beta_reduce)

theorem keeps_journalSb (id : ℕ) (h : Keeps r o s) (c_ldg : r .ldg) (c_flt : r .flt) (c_LDG_GAUGE_STAT_FALLBACKS : r (.reg Reg.LDG_GAUGE_STAT_FALLBACKS.addr)) :
    Keeps r o (State.journalSb s id) := by
  unfold State.journalSb
  repeat' first
    | with_reducible assumption | with_reducible apply keeps_journalMap

end Sys2Proof.Machine
end

