-- ==== Sys2Proof/Laws/KeepCipher.lean ====
section
/-! SUPPORT. What each operation of Machine/Cipher.lean may change. -/

set_option linter.unusedTactic false
set_option linter.unreachableTactic false

namespace Sys2Proof.Machine

variable {r : Part → Prop} {o s : State}

theorem keeps_onSlot (n : ℕ) (f : KeySlot → KeySlot) (h : Keeps r o s) (c_cip : r .cip) :
    Keeps r o (State.onSlot s n f) := by
  unfold State.onSlot
  repeat' first
    | with_reducible assumption | with_reducible apply keeps_onCip

theorem keeps_writeSlotRec (n : ℕ) (r' : SlotRec) (h : Keeps r o s) (c_ldg : r .ldg) (c_flt : r .flt) (c_LDG_UNMETERED_LINES : r (.reg Reg.LDG_UNMETERED_LINES.addr)) :
    Keeps r o (State.writeSlotRec s n r') := by
  unfold State.writeSlotRec
  repeat' first
    | with_reducible assumption | with_reducible apply keeps_onKept | with_reducible apply keeps_keepSecure

theorem keeps_recordSlot (n : ℕ) (h : Keeps r o s) (c_ldg : r .ldg) (c_flt : r .flt) (c_LDG_UNMETERED_LINES : r (.reg Reg.LDG_UNMETERED_LINES.addr)) :
    Keeps r o (State.recordSlot s n) := by
  unfold State.recordSlot
  repeat' first
    | with_reducible assumption | with_reducible apply keeps_writeSlotRec

theorem keeps_useKey (slot : ℕ) (serial : ℕ) (epoch : ℕ) (h : Keeps r o s) (c_cip : r .cip) :
    Keeps r o (State.useKey s slot serial epoch) := by
  unfold State.useKey
  repeat' first
    | with_reducible assumption | with_reducible apply keeps_onCip

theorem keeps_modRefs (slot : ℕ) (gen : ℕ) (f : ℕ → ℕ) (h : Keeps r o s) (c_cip : r .cip) :
    Keeps r o (State.modRefs s slot gen f) := by
  unfold State.modRefs
  repeat' first
    | with_reducible assumption | with_reducible apply keeps_onSlot | with_reducible apply keeps_foldl
    | with_reducible apply keeps2_foldl | (with_reducible intro _; beta_reduce)
    | with_reducible refine Keeps2.of (by assumption) ?_ | with_reducible apply Keeps2.snd
    | (extract_lets +onlyGivenNames x; refine @Keeps.cut r o _ x ?_ (fun hx => ?_); rotate_left; clear_value x; rotate_right; dsimp -zeta only [x])
    | (extract_lets +onlyGivenNames x; clear_value x) | split

theorem keeps_issueRef (cmd : ℕ) (slot : ℕ) (h : Keeps r o s) (c_sch : r .sch) (c_cip : r .cip) :
    Keeps r o (State.issueRef s cmd slot) := by
  unfold State.issueRef
  repeat' first
    | with_reducible assumption | with_reducible apply keeps_modRefs | with_reducible apply keeps_onSch
    | with_reducible apply keeps_foldl | with_reducible apply keeps2_foldl | (with_reducible intro _; beta_reduce)
    | with_reducible refine Keeps2.of (by assumption) ?_ | with_reducible apply Keeps2.snd
    | (extract_lets +onlyGivenNames x; refine @Keeps.cut r o _ x ?_ (fun hx => ?_); rotate_left; clear_value x; rotate_right; dsimp -zeta only [x])
    | (extract_lets +onlyGivenNames x; clear_value x) | split

theorem keeps_takeRef (cmd : ℕ) (slot : ℕ) (h : Keeps r o s) (c_sch : r .sch) (c_cip : r .cip) :
    KeepsO2 r o (State.takeRef s cmd slot) := by
  unfold State.takeRef
  repeat' first
    | with_reducible exact KeepsO2.none | with_reducible apply KeepsO2.mk2 | with_reducible apply KeepsO2.mk
    | with_reducible assumption | with_reducible apply keeps_issueRef | with_reducible apply keeps_foldl
    | with_reducible apply keeps2_foldl | (with_reducible intro _; beta_reduce)
    | with_reducible refine Keeps2.of (by assumption) ?_ | with_reducible apply Keeps2.snd
    | (extract_lets +onlyGivenNames x; refine @Keeps.cut r o _ x ?_ (fun hx => ?_); rotate_left; clear_value x; rotate_right; dsimp -zeta only [x])
    | (extract_lets +onlyGivenNames x; clear_value x) | split

theorem keeps_dropKeys (slot : ℕ) (serial : ℕ) (epoch : ℕ) (h : Keeps r o s) (c_cip : r .cip) :
    Keeps r o (State.dropKeys s slot serial epoch) := by
  unfold State.dropKeys
  repeat' first
    | with_reducible assumption | with_reducible apply keeps_onCip

theorem keeps_dropOldKeys (slot : ℕ) (h : Keeps r o s) (c_cip : r .cip) :
    Keeps r o (State.dropOldKeys s slot) := by
  unfold State.dropOldKeys
  repeat' first
    | with_reducible assumption | with_reducible apply keeps_dropKeys | with_reducible apply keeps_foldl
    | with_reducible apply keeps2_foldl | (with_reducible intro _; beta_reduce)
    | with_reducible refine Keeps2.of (by assumption) ?_ | with_reducible apply Keeps2.snd
    | (extract_lets +onlyGivenNames x; refine @Keeps.cut r o _ x ?_ (fun hx => ?_); rotate_left; clear_value x; rotate_right; dsimp -zeta only [x])
    | (extract_lets +onlyGivenNames x; clear_value x) | split

theorem keeps_dropRef (cmd : ℕ) (h : Keeps r o s) (c_sch : r .sch) (c_cip : r .cip) :
    Keeps r o (State.dropRef s cmd) := by
  unfold State.dropRef
  repeat' first
    | with_reducible assumption | with_reducible apply keeps_modRefs | with_reducible apply keeps_onSch
    | with_reducible apply keeps_foldl | with_reducible apply keeps2_foldl | (with_reducible intro _; beta_reduce)
    | with_reducible refine Keeps2.of (by assumption) ?_ | with_reducible apply Keeps2.snd
    | (extract_lets +onlyGivenNames x; refine @Keeps.cut r o _ x ?_ (fun hx => ?_); rotate_left; clear_value x; rotate_right; dsimp -zeta only [x])
    | (extract_lets +onlyGivenNames x; clear_value x) | split

theorem keeps_drawCounter (slot : ℕ) (gen : ℕ) (h : Keeps r o s) (c_cip : r .cip) (c_ldg : r .ldg) (c_flt : r .flt) (c_FLT_SWATCH_CTL_ARM : r (.reg Reg.FLT_SWATCH_CTL_ARM.addr)) (c_LDG_UNMETERED_LINES : r (.reg Reg.LDG_UNMETERED_LINES.addr)) :
    KeepsO2 r o (State.drawCounter s slot gen) := by
  unfold State.drawCounter
  repeat' first
    | with_reducible exact KeepsO2.none | with_reducible apply KeepsO2.mk2 | with_reducible apply KeepsO2.mk
    | with_reducible assumption | with_reducible apply keeps_writeSlotRec | with_reducible apply keeps_swatchWrite
    | with_reducible apply keeps_onSlot | with_reducible apply keeps_foldl | with_reducible apply keeps2_foldl
    | (with_reducible intro _; beta_reduce) | with_reducible refine Keeps2.of (by assumption) ?_
    | with_reducible apply Keeps2.snd
    | (extract_lets +onlyGivenNames x; refine @Keeps.cut r o _ x ?_ (fun hx => ?_); rotate_left; clear_value x; rotate_right; dsimp -zeta only [x])
    | (extract_lets +onlyGivenNames x; clear_value x) | split

theorem keeps_nonceExhausted (slot : ℕ) (epoch : ℕ) (h : Keeps r o s) (c_flt : r .flt) (c_CIP_LANE_STAT_NONCE_REFUSALS : r (.reg Reg.CIP_LANE_STAT_NONCE_REFUSALS.addr)) :
    Keeps r o (State.nonceExhausted s slot epoch) := by
  unfold State.nonceExhausted
  repeat' first
    | with_reducible assumption | exact c_CIP_LANE_STAT_NONCE_REFUSALS | with_reducible apply keeps_bump
    | with_reducible apply keeps_raise

theorem keeps_sealBytes (slot : ℕ) (gen : ℕ) (aad : Bytes) (data : Bytes) (h : Keeps r o s) (c_cip : r .cip) (c_ldg : r .ldg) (c_flt : r .flt) (c_FLT_SWATCH_CTL_ARM : r (.reg Reg.FLT_SWATCH_CTL_ARM.addr)) (c_LDG_UNMETERED_LINES : r (.reg Reg.LDG_UNMETERED_LINES.addr)) :
    KeepsO2 r o (State.sealBytes s slot gen aad data) := by
  unfold State.sealBytes
  repeat' first
    | with_reducible exact KeepsO2.none | with_reducible apply KeepsO2.mk2 | with_reducible apply KeepsO2.mk
    | with_reducible assumption | with_reducible apply keeps_drawCounter | with_reducible apply keeps_useKey
    | with_reducible apply keeps_foldl | with_reducible apply keeps2_foldl | (with_reducible intro _; beta_reduce)
    | with_reducible refine Keeps2.of (by assumption) ?_ | with_reducible apply Keeps2.snd
    | with_reducible refine KeepsO2.of (by assumption) ?_ | with_reducible refine KeepsO2.pair (by assumption) ?_
    | with_reducible apply keeps_getD | with_reducible apply keepsO_map
    | (extract_lets +onlyGivenNames x; refine @Keeps.cut r o _ x ?_ (fun hx => ?_); rotate_left; clear_value x; rotate_right; dsimp -zeta only [x])
    | (extract_lets +onlyGivenNames x; refine @KeepsO2.cut r o _ _ x ?_ (fun hx => ?_); rotate_left; clear_value x; rotate_right; dsimp -zeta only [x])
    | (extract_lets +onlyGivenNames x; clear_value x) | split

theorem keeps_openBytes (gen : ℕ) (w : SealWord) (aad : Bytes) (ct : Bytes) (tag : Bytes) (h : Keeps r o s) (c_cip : r .cip) :
    Keeps2 r o (State.openBytes s gen w aad ct tag) := by
  unfold State.openBytes
  repeat' first
    | with_reducible assumption | with_reducible apply keeps_useKey | with_reducible apply keeps_foldl
    | with_reducible apply keeps2_foldl | (with_reducible intro _; beta_reduce)
    | with_reducible refine Keeps2.of (by assumption) ?_ | with_reducible apply Keeps2.snd
    | (extract_lets +onlyGivenNames x; refine @Keeps.cut r o _ x ?_ (fun hx => ?_); rotate_left; clear_value x; rotate_right; dsimp -zeta only [x])
    | (extract_lets +onlyGivenNames x; clear_value x) | split | with_reducible apply Keeps2.mk

theorem keeps_restoreSlot (n : ℕ) (h : Keeps r o s) (c_cip : r .cip) (c_ldg : r .ldg) (c_flt : r .flt) (c_FLT_SWATCH_CTL_ARM : r (.reg Reg.FLT_SWATCH_CTL_ARM.addr)) (c_LDG_UNMETERED_LINES : r (.reg Reg.LDG_UNMETERED_LINES.addr)) :
    Keeps r o (State.restoreSlot s n) := by
  unfold State.restoreSlot
  repeat' first
    | with_reducible assumption | with_reducible apply keeps_writeSlotRec | with_reducible apply keeps_swatchWrite
    | with_reducible apply keeps_onSlot

theorem keeps_recoverSlot (n : ℕ) (h : Keeps r o s) (c_cip : r .cip) (c_ldg : r .ldg) (c_flt : r .flt) (c_FLT_SWATCH_CTL_ARM : r (.reg Reg.FLT_SWATCH_CTL_ARM.addr)) (c_LDG_UNMETERED_LINES : r (.reg Reg.LDG_UNMETERED_LINES.addr)) :
    Keeps r o (State.recoverSlot s n) := by
  unfold State.recoverSlot
  repeat' first
    | with_reducible assumption | with_reducible apply keeps_raise | with_reducible apply keeps_restoreSlot
    | with_reducible apply keeps_foldl | with_reducible apply keeps2_foldl | (with_reducible intro _; beta_reduce)
    | with_reducible refine Keeps2.of (by assumption) ?_ | with_reducible apply Keeps2.snd
    | (extract_lets +onlyGivenNames x; refine @Keeps.cut r o _ x ?_ (fun hx => ?_); rotate_left; clear_value x; rotate_right; dsimp -zeta only [x])
    | (extract_lets +onlyGivenNames x; clear_value x) | split

theorem keeps_readSlot (n : ℕ) (h : Keeps r o s) (c_cip : r .cip) (c_ldg : r .ldg) (c_flt : r .flt) (c_FLT_SWATCH_CTL_ARM : r (.reg Reg.FLT_SWATCH_CTL_ARM.addr)) (c_LDG_UNMETERED_LINES : r (.reg Reg.LDG_UNMETERED_LINES.addr)) :
    Keeps r o (State.readSlot s n) := by
  unfold State.readSlot
  repeat' first
    | with_reducible assumption | with_reducible apply keeps_raise | with_reducible apply keeps_storageRead
    | with_reducible apply keeps_recoverSlot | with_reducible apply keeps_foldl | with_reducible apply keeps2_foldl
    | (with_reducible intro _; beta_reduce) | with_reducible refine Keeps2.of (by assumption) ?_
    | with_reducible apply Keeps2.snd
    | (extract_lets +onlyGivenNames x; refine @Keeps.cut r o _ x ?_ (fun hx => ?_); rotate_left; clear_value x; rotate_right; dsimp -zeta only [x])
    | (extract_lets +onlyGivenNames x; refine @Keeps2.cut r o _ _ x ?_ (fun hx => ?_); rotate_left; clear_value x; rotate_right; dsimp -zeta only [x])
    | (extract_lets +onlyGivenNames x; clear_value x) | split

theorem keeps_grantCip (express : Bool) (requester : ℕ) (h : Keeps r o s) (c_cip : r .cip) :
    Keeps r o (State.grantCip s express requester) := by
  unfold State.grantCip
  repeat' first
    | with_reducible assumption | with_reducible apply keeps_onCip | with_reducible apply keeps_foldl
    | with_reducible apply keeps2_foldl | (with_reducible intro _; beta_reduce)
    | with_reducible refine Keeps2.of (by assumption) ?_ | with_reducible apply Keeps2.snd
    | (extract_lets +onlyGivenNames x; refine @Keeps.cut r o _ x ?_ (fun hx => ?_); rotate_left; clear_value x; rotate_right; dsimp -zeta only [x])
    | (extract_lets +onlyGivenNames x; clear_value x) | split

theorem keeps_laneMismatch (lane : ℕ) (kind : ℕ) (h : Keeps r o s) (c_cip : r .cip) (c_flt : r .flt) (c_CIP_LANE_STAT_NONCE_REFUSALS : r (.reg Reg.CIP_LANE_STAT_NONCE_REFUSALS.addr)) :
    Keeps r o (State.laneMismatch s lane kind) := by
  unfold State.laneMismatch
  repeat' first
    | with_reducible assumption | exact c_CIP_LANE_STAT_NONCE_REFUSALS | with_reducible apply keeps_bump
    | with_reducible apply keeps_raise | with_reducible apply keeps_onCip | with_reducible apply keeps_foldl
    | with_reducible apply keeps2_foldl | (with_reducible intro _; beta_reduce)
    | with_reducible refine Keeps2.of (by assumption) ?_ | with_reducible apply Keeps2.snd
    | (extract_lets +onlyGivenNames x; refine @Keeps.cut r o _ x ?_ (fun hx => ?_); rotate_left; clear_value x; rotate_right; dsimp -zeta only [x])
    | (extract_lets +onlyGivenNames x; clear_value x) | split

theorem keeps_drawSerial (y1 : ℕ) (h : Keeps r o s) :
    Keeps2 r o (State.drawSerial s y1) := by
  induction y1 generalizing s  with
  | zero =>
    unfold State.drawSerial
    repeat' first
      | with_reducible assumption | with_reducible apply ih | with_reducible apply keeps_drawRandom
      | with_reducible apply keeps_foldl | with_reducible apply keeps2_foldl | (with_reducible intro _; beta_reduce)
      | with_reducible refine Keeps2.of (by assumption) ?_ | with_reducible apply Keeps2.snd
      | (extract_lets +onlyGivenNames x; refine @Keeps.cut r o _ x ?_ (fun hx => ?_); rotate_left; clear_value x; rotate_right; dsimp -zeta only [x])
      | (extract_lets +onlyGivenNames x; refine @Keeps2.cut r o _ _ x ?_ (fun hx => ?_); rotate_left; clear_value x; rotate_right; dsimp -zeta only [x])
      | (extract_lets +onlyGivenNames x; clear_value x) | split | with_reducible apply Keeps2.mk
  | succ _ ih =>
    unfold State.drawSerial
    repeat' first
      | with_reducible assumption | with_reducible apply ih | with_reducible apply keeps_drawRandom
      | with_reducible apply keeps_foldl | with_reducible apply keeps2_foldl | (with_reducible intro _; beta_reduce)
      | with_reducible refine Keeps2.of (by assumption) ?_ | with_reducible apply Keeps2.snd
      | (extract_lets +onlyGivenNames x; refine @Keeps.cut r o _ x ?_ (fun hx => ?_); rotate_left; clear_value x; rotate_right; dsimp -zeta only [x])
      | (extract_lets +onlyGivenNames x; refine @Keeps2.cut r o _ _ x ?_ (fun hx => ?_); rotate_left; clear_value x; rotate_right; dsimp -zeta only [x])
      | (extract_lets +onlyGivenNames x; clear_value x) | split | with_reducible apply Keeps2.mk

theorem keeps_placeRoot (n : ℕ) (root : Bytes) (h : Keeps r o s) (c_cip : r .cip) (c_ldg : r .ldg) (c_flt : r .flt) (c_FLT_SWATCH_CTL_ARM : r (.reg Reg.FLT_SWATCH_CTL_ARM.addr)) (c_LDG_UNMETERED_LINES : r (.reg Reg.LDG_UNMETERED_LINES.addr)) :
    Keeps r o (State.placeRoot s n root) := by
  unfold State.placeRoot
  repeat' first
    | with_reducible assumption | with_reducible apply keeps_recordSlot | with_reducible apply keeps_dropOldKeys
    | with_reducible apply keeps_drawSerial | with_reducible apply keeps_swatchWrite
    | with_reducible apply keeps_onSlot | with_reducible apply keeps_foldl | with_reducible apply keeps2_foldl
    | (with_reducible intro _; beta_reduce) | with_reducible refine Keeps2.of (by assumption) ?_
    | with_reducible apply Keeps2.snd
    | (extract_lets +onlyGivenNames x; refine @Keeps.cut r o _ x ?_ (fun hx => ?_); rotate_left; clear_value x; rotate_right; dsimp -zeta only [x])
    | (extract_lets +onlyGivenNames x; refine @Keeps2.cut r o _ _ x ?_ (fun hx => ?_); rotate_left; clear_value x; rotate_right; dsimp -zeta only [x])
    | (extract_lets +onlyGivenNames x; clear_value x) | split | with_reducible apply Keeps2.mk

theorem keeps_rollSlot (n : ℕ) (h : Keeps r o s) (c_cip : r .cip) (c_ldg : r .ldg) (c_flt : r .flt) (c_FLT_SWATCH_CTL_ARM : r (.reg Reg.FLT_SWATCH_CTL_ARM.addr)) (c_LDG_UNMETERED_LINES : r (.reg Reg.LDG_UNMETERED_LINES.addr)) :
    Keeps r o (State.rollSlot s n) := by
  unfold State.rollSlot
  repeat' first
    | with_reducible assumption | with_reducible apply keeps_recordSlot | with_reducible apply keeps_dropOldKeys
    | with_reducible apply keeps_swatchWrite | with_reducible apply keeps_onSlot

theorem keeps_cipRefused (code : ℕ) (slot : ℕ) (h : Keeps r o s) (c_flt : r .flt) :
    Keeps r o (State.cipRefused s code slot) := by
  unfold State.cipRefused
  repeat' first
    | with_reducible assumption | with_reducible apply keeps_raise

theorem keeps_keyChange (code : ℕ) (n : ℕ) (wrapped : Bytes) (h : Keeps r o s) (c_cip : r .cip) (c_ldg : r .ldg) (c_flt : r .flt) (c_FLT_SWATCH_CTL_ARM : r (.reg Reg.FLT_SWATCH_CTL_ARM.addr)) (c_LDG_UNMETERED_LINES : r (.reg Reg.LDG_UNMETERED_LINES.addr)) :
    Keeps2 r o (State.keyChange s code n wrapped) := by
  unfold State.keyChange
  repeat' first
    | with_reducible assumption | with_reducible apply keeps_placeRoot | with_reducible apply keeps_rollSlot
    | with_reducible apply keeps_cipRefused | with_reducible apply keeps_drawRandom | with_reducible apply keeps_foldl
    | with_reducible apply keeps2_foldl | (with_reducible intro _; beta_reduce)
    | with_reducible refine Keeps2.of (by assumption) ?_ | with_reducible apply Keeps2.snd
    | (extract_lets +onlyGivenNames x; refine @Keeps.cut r o _ x ?_ (fun hx => ?_); rotate_left; clear_value x; rotate_right; dsimp -zeta only [x])
    | (extract_lets +onlyGivenNames x; refine @Keeps2.cut r o _ _ x ?_ (fun hx => ?_); rotate_left; clear_value x; rotate_right; dsimp -zeta only [x])
    | (extract_lets +onlyGivenNames x; clear_value x) | split | with_reducible apply Keeps2.mk

theorem keeps_runKeyWaits (n : ℕ) (y2 : ℕ) (h : Keeps r o s) (c_cip : r .cip) (c_ldg : r .ldg) (c_rings : r .rings) (c_dram : r .dram) (c_flt : r .flt) (c_FLT_SWATCH_CTL_ARM : r (.reg Reg.FLT_SWATCH_CTL_ARM.addr)) (c_LDG_UNMETERED_LINES : r (.reg Reg.LDG_UNMETERED_LINES.addr)) :
    Keeps r o (State.runKeyWaits s n y2) := by
  induction y2 generalizing s n with
  | zero =>
    unfold State.runKeyWaits
    repeat' first
      | with_reducible assumption | with_reducible apply ih | with_reducible apply keeps_keyChange
      | with_reducible apply keeps_finish | with_reducible apply keeps_onSlot | with_reducible apply keeps_foldl
      | with_reducible apply keeps2_foldl | (with_reducible intro _; beta_reduce)
      | with_reducible refine Keeps2.of (by assumption) ?_ | with_reducible apply Keeps2.snd
      | (extract_lets +onlyGivenNames x; refine @Keeps.cut r o _ x ?_ (fun hx => ?_); rotate_left; clear_value x; rotate_right; dsimp -zeta only [x])
      | (extract_lets +onlyGivenNames x; refine @Keeps2.cut r o _ _ x ?_ (fun hx => ?_); rotate_left; clear_value x; rotate_right; dsimp -zeta only [x])
      | (extract_lets +onlyGivenNames x; clear_value x) | split | with_reducible apply Keeps2.mk
  | succ _ ih =>
    unfold State.runKeyWaits
    repeat' first
      | with_reducible assumption | with_reducible apply ih | with_reducible apply keeps_keyChange
      | with_reducible apply keeps_finish | with_reducible apply keeps_onSlot | with_reducible apply keeps_foldl
      | with_reducible apply keeps2_foldl | (with_reducible intro _; beta_reduce)
      | with_reducible refine Keeps2.of (by assumption) ?_ | with_reducible apply Keeps2.snd
      | (extract_lets +onlyGivenNames x; refine @Keeps.cut r o _ x ?_ (fun hx => ?_); rotate_left; clear_value x; rotate_right; dsimp -zeta only [x])
      | (extract_lets +onlyGivenNames x; refine @Keeps2.cut r o _ _ x ?_ (fun hx => ?_); rotate_left; clear_value x; rotate_right; dsimp -zeta only [x])
      | (extract_lets +onlyGivenNames x; clear_value x) | split | with_reducible apply Keeps2.mk

theorem keeps_finishErase (n : ℕ) (h : Keeps r o s) (c_cip : r .cip) (c_ldg : r .ldg) (c_rings : r .rings) (c_dram : r .dram) (c_flt : r .flt) (c_FLT_SWATCH_CTL_ARM : r (.reg Reg.FLT_SWATCH_CTL_ARM.addr)) (c_LDG_UNMETERED_LINES : r (.reg Reg.LDG_UNMETERED_LINES.addr)) :
    Keeps r o (State.finishErase s n) := by
  unfold State.finishErase
  repeat' first
    | with_reducible assumption | with_reducible apply keeps_finish | with_reducible apply keeps_writeSlotRec
    | with_reducible apply keeps_swatchWrite | with_reducible apply keeps_onSlot | with_reducible apply keeps_foldl
    | with_reducible apply keeps2_foldl | (with_reducible intro _; beta_reduce)

theorem keeps_clearRetired (n : ℕ) (gen : ℕ) (h : Keeps r o s) (c_cip : r .cip) (c_ldg : r .ldg) (c_rings : r .rings) (c_dram : r .dram) (c_flt : r .flt) (c_FLT_SWATCH_CTL_ARM : r (.reg Reg.FLT_SWATCH_CTL_ARM.addr)) (c_LDG_UNMETERED_LINES : r (.reg Reg.LDG_UNMETERED_LINES.addr)) :
    Keeps r o (State.clearRetired s n gen) := by
  unfold State.clearRetired
  repeat' first
    | with_reducible assumption | with_reducible apply keeps_dropKeys | with_reducible apply keeps_runKeyWaits
    | with_reducible apply keeps_finishErase | with_reducible apply keeps_onSlot | with_reducible apply keeps_foldl
    | with_reducible apply keeps2_foldl | (with_reducible intro _; beta_reduce)
    | with_reducible refine Keeps2.of (by assumption) ?_ | with_reducible apply Keeps2.snd
    | (extract_lets +onlyGivenNames x; refine @Keeps.cut r o _ x ?_ (fun hx => ?_); rotate_left; clear_value x; rotate_right; dsimp -zeta only [x])
    | (extract_lets +onlyGivenNames x; clear_value x) | split

theorem keeps_keyDirective (ring : ℕ) (d : Dir) (code : ℕ) (n : ℕ) (wrapped : Bytes) (h : Keeps r o s) (c_cip : r .cip) (c_ldg : r .ldg) (c_rings : r .rings) (c_dram : r .dram) (c_flt : r .flt) (c_FLT_SWATCH_CTL_ARM : r (.reg Reg.FLT_SWATCH_CTL_ARM.addr)) (c_LDG_UNMETERED_LINES : r (.reg Reg.LDG_UNMETERED_LINES.addr)) :
    Keeps r o (State.keyDirective s ring d code n wrapped) := by
  unfold State.keyDirective
  repeat' first
    | with_reducible assumption | with_reducible apply keeps_keyChange | with_reducible apply keeps_finish
    | with_reducible apply keeps_onSlot | with_reducible apply keeps_foldl | with_reducible apply keeps2_foldl
    | (with_reducible intro _; beta_reduce) | with_reducible refine Keeps2.of (by assumption) ?_
    | with_reducible apply Keeps2.snd
    | (extract_lets +onlyGivenNames x; refine @Keeps.cut r o _ x ?_ (fun hx => ?_); rotate_left; clear_value x; rotate_right; dsimp -zeta only [x])
    | (extract_lets +onlyGivenNames x; refine @Keeps2.cut r o _ _ x ?_ (fun hx => ?_); rotate_left; clear_value x; rotate_right; dsimp -zeta only [x])
    | (extract_lets +onlyGivenNames x; clear_value x) | split

theorem keeps_alarmDirectives (y1 : List (ℕ × KeySlot)) (h : Keeps r o s) (c_rings : r .rings) (c_dram : r .dram) (c_flt : r .flt) (c_FLT_SWATCH_CTL_ARM : r (.reg Reg.FLT_SWATCH_CTL_ARM.addr)) :
    Keeps r o (State.alarmDirectives s y1) := by
  induction y1 generalizing s  with
  | nil =>
    unfold State.alarmDirectives
    repeat' first
      | with_reducible assumption | with_reducible apply ih | with_reducible apply keeps_cipRefused
      | with_reducible apply keeps_finish | with_reducible apply keeps_foldl | with_reducible apply keeps2_foldl
      | (with_reducible intro _; beta_reduce) | with_reducible refine Keeps2.of (by assumption) ?_
      | with_reducible apply Keeps2.snd
      | (extract_lets +onlyGivenNames x; refine @Keeps.cut r o _ x ?_ (fun hx => ?_); rotate_left; clear_value x; rotate_right; dsimp -zeta only [x])
      | (extract_lets +onlyGivenNames x; clear_value x) | split | with_reducible apply Keeps2.mk
  | cons _ _ ih =>
    unfold State.alarmDirectives
    repeat' first
      | with_reducible assumption | with_reducible apply ih | with_reducible apply keeps_cipRefused
      | with_reducible apply keeps_finish | with_reducible apply keeps_foldl | with_reducible apply keeps2_foldl
      | (with_reducible intro _; beta_reduce) | with_reducible refine Keeps2.of (by assumption) ?_
      | with_reducible apply Keeps2.snd
      | (extract_lets +onlyGivenNames x; refine @Keeps.cut r o _ x ?_ (fun hx => ?_); rotate_left; clear_value x; rotate_right; dsimp -zeta only [x])
      | (extract_lets +onlyGivenNames x; clear_value x) | split | with_reducible apply Keeps2.mk

theorem keeps_alarmRecord (n : ℕ) (h : Keeps r o s) (c_ldg : r .ldg) (c_flt : r .flt) (c_LDG_UNMETERED_LINES : r (.reg Reg.LDG_UNMETERED_LINES.addr)) :
    Keeps r o (State.alarmRecord s n) := by
  unfold State.alarmRecord
  repeat' first
    | with_reducible assumption | with_reducible apply keeps_writeSlotRec

theorem keeps_cipAlarm (sources : ℕ) (h : Keeps r o s) (c_cip : r .cip) (c_ldg : r .ldg) (c_rings : r .rings) (c_dram : r .dram) (c_flt : r .flt) (c_FLT_SWATCH_CTL_ARM : r (.reg Reg.FLT_SWATCH_CTL_ARM.addr)) (c_LDG_UNMETERED_LINES : r (.reg Reg.LDG_UNMETERED_LINES.addr)) :
    Keeps r o (State.cipAlarm s sources) := by
  unfold State.cipAlarm
  repeat' first
    | with_reducible assumption | with_reducible apply keeps_alarmDirectives | with_reducible apply keeps_cipRefused
    | with_reducible apply keeps_finish | with_reducible apply keeps_raise | with_reducible apply keeps_onCip
    | with_reducible apply keeps_alarmRecord | with_reducible apply keeps_foldl | with_reducible apply keeps2_foldl
    | (with_reducible intro _; beta_reduce) | with_reducible refine Keeps2.of (by assumption) ?_
    | with_reducible apply Keeps2.snd
    | (extract_lets +onlyGivenNames x; refine @Keeps.cut r o _ x ?_ (fun hx => ?_); rotate_left; clear_value x; rotate_right; dsimp -zeta only [x])
    | (extract_lets +onlyGivenNames x; clear_value x) | split

end Sys2Proof.Machine
end

