-- ==== Sys2Proof/Laws/KeepHalves.lean ====
section
/-! SUPPORT. What each operation of Machine/Halves.lean may change. -/

set_option linter.unusedTactic false
set_option linter.unreachableTactic false

namespace Sys2Proof.Machine

variable {r : Part → Prop} {o s : State}

theorem keeps_reloadHalves (h : Keeps r o s) (c_mch : r .mch) :
    Keeps r o (State.reloadHalves s) := by
  unfold State.reloadHalves
  repeat' first
    | with_reducible assumption | with_reducible apply keeps_onMch

theorem keeps_grantHalves (slot : ℕ) (n : ℕ) (h : Keeps r o s) (c_mch : r .mch) :
    Keeps r o (State.grantHalves s slot n) := by
  unfold State.grantHalves
  repeat' first
    | with_reducible assumption | with_reducible apply keeps_onMch

theorem keeps_serveHalves (y1 : ℕ) (h : Keeps r o s) (c_mch : r .mch) :
    Keeps r o (State.serveHalves s y1) := by
  induction y1 generalizing s  with
  | zero =>
    unfold State.serveHalves
    repeat' first
      | with_reducible assumption | with_reducible apply ih | with_reducible apply keeps_grantHalves
      | with_reducible apply keeps_onMch | with_reducible apply keeps_foldl | with_reducible apply keeps2_foldl
      | (with_reducible intro _; beta_reduce) | with_reducible refine Keeps2.of (by assumption) ?_
      | with_reducible apply Keeps2.snd
      | (extract_lets +onlyGivenNames x; refine @Keeps.cut r o _ x ?_ (fun hx => ?_); rotate_left; clear_value x; rotate_right; dsimp -zeta only [x])
      | (extract_lets +onlyGivenNames x; clear_value x) | split | with_reducible apply Keeps2.mk
  | succ _ ih =>
    unfold State.serveHalves
    repeat' first
      | with_reducible assumption | with_reducible apply ih | with_reducible apply keeps_grantHalves
      | with_reducible apply keeps_onMch | with_reducible apply keeps_foldl | with_reducible apply keeps2_foldl
      | (with_reducible intro _; beta_reduce) | with_reducible refine Keeps2.of (by assumption) ?_
      | with_reducible apply Keeps2.snd
      | (extract_lets +onlyGivenNames x; refine @Keeps.cut r o _ x ?_ (fun hx => ?_); rotate_left; clear_value x; rotate_right; dsimp -zeta only [x])
      | (extract_lets +onlyGivenNames x; clear_value x) | split | with_reducible apply Keeps2.mk

theorem keeps_startHalves (slot : ℕ) (h : Keeps r o s) (c_mch : r .mch) :
    Keeps r o (State.startHalves s slot) := by
  unfold State.startHalves
  repeat' first
    | with_reducible assumption | with_reducible apply keeps_grantHalves | with_reducible apply keeps_onMch
    | with_reducible apply keeps_foldl | with_reducible apply keeps2_foldl | (with_reducible intro _; beta_reduce)
    | with_reducible refine Keeps2.of (by assumption) ?_ | with_reducible apply Keeps2.snd
    | (extract_lets +onlyGivenNames x; refine @Keeps.cut r o _ x ?_ (fun hx => ?_); rotate_left; clear_value x; rotate_right; dsimp -zeta only [x])
    | (extract_lets +onlyGivenNames x; clear_value x) | split

theorem keeps_capHalves (h : Keeps r o s) (c_mch : r .mch) :
    Keeps r o (State.capHalves s) := by
  unfold State.capHalves
  repeat' first
    | with_reducible assumption | with_reducible apply keeps_onMch

theorem keeps_endHalves (slot : ℕ) (h : Keeps r o s) (c_mch : r .mch) :
    Keeps r o (State.endHalves s slot) := by
  unfold State.endHalves
  repeat' first
    | with_reducible assumption | with_reducible apply keeps_serveHalves | with_reducible apply keeps_onMch

theorem keeps_endWithdraw (h : Keeps r o s) (c_mch : r .mch) :
    Keeps r o (State.endWithdraw s) := by
  unfold State.endWithdraw
  repeat' first
    | with_reducible assumption | with_reducible apply keeps_onMch | with_reducible apply keeps_foldl
    | with_reducible apply keeps2_foldl | (with_reducible intro _; beta_reduce)
    | with_reducible refine Keeps2.of (by assumption) ?_ | with_reducible apply Keeps2.snd
    | (extract_lets +onlyGivenNames x; refine @Keeps.cut r o _ x ?_ (fun hx => ?_); rotate_left; clear_value x; rotate_right; dsimp -zeta only [x])
    | (extract_lets +onlyGivenNames x; clear_value x) | split

theorem keeps_withdrawHalf (h : Keeps r o s) (c_mch : r .mch) :
    Keeps r o (State.withdrawHalf s) := by
  unfold State.withdrawHalf
  repeat' first
    | with_reducible assumption | with_reducible apply keeps_endWithdraw | with_reducible apply keeps_onMch
    | with_reducible apply keeps_foldl | with_reducible apply keeps2_foldl | (with_reducible intro _; beta_reduce)
    | with_reducible refine Keeps2.of (by assumption) ?_ | with_reducible apply Keeps2.snd
    | (extract_lets +onlyGivenNames x; refine @Keeps.cut r o _ x ?_ (fun hx => ?_); rotate_left; clear_value x; rotate_right; dsimp -zeta only [x])
    | (extract_lets +onlyGivenNames x; clear_value x) | split

end Sys2Proof.Machine
end

