-- ==== Sys2Proof/Laws/KeepStorage.lean ====
section
/-! SUPPORT. What each operation of Machine/Storage.lean may change. -/

set_option linter.unusedTactic false
set_option linter.unreachableTactic false

namespace Sys2Proof.Machine

variable {r : Part → Prop} {o s : State}

theorem keeps_onSb (id : ℕ) (f : Sb → Sb) (h : Keeps r o s) (c_ldg : r .ldg) (c_ftl : r .ftl) (c_flt : r .flt) (c_LDG_GAUGE_STAT_FALLBACKS : r (.reg Reg.LDG_GAUGE_STAT_FALLBACKS.addr)) :
    Keeps r o (State.onSb s id f) := by
  unfold State.onSb
  repeat' first
    | with_reducible assumption | with_reducible apply keeps_onFtl | with_reducible apply keeps_keepMeta

theorem keeps_onSbQuiet (id : ℕ) (f : Sb → Sb) (h : Keeps r o s) (c_ftl : r .ftl) :
    Keeps r o (State.onSbQuiet s id f) := by
  unfold State.onSbQuiet
  repeat' first
    | with_reducible assumption | with_reducible apply keeps_onFtl

theorem keeps_memberRetired (id : ℕ) (pos : ℕ) (reason : ℕ) (h : Keeps r o s) (c_flt : r .flt) :
    Keeps r o (State.memberRetired s id pos reason) := by
  unfold State.memberRetired
  repeat' first
    | with_reducible assumption | with_reducible apply keeps_raise

theorem keeps_retireWorn (id : ℕ) (slc : Bool) (h : Keeps r o s) (c_ldg : r .ldg) (c_ftl : r .ftl) (c_flt : r .flt) (c_LDG_GAUGE_STAT_FALLBACKS : r (.reg Reg.LDG_GAUGE_STAT_FALLBACKS.addr)) :
    Keeps r o (State.retireWorn s id slc) := by
  unfold State.retireWorn
  repeat' first
    | with_reducible assumption | with_reducible apply keeps_onSb | with_reducible apply keeps_memberRetired
    | with_reducible apply keeps_raise | with_reducible apply keeps_foldl | with_reducible apply keeps2_foldl
    | (with_reducible intro _; beta_reduce)

theorem keeps_openSb (stream : ℕ) (id : ℕ) (h : Keeps r o s) (c_ldg : r .ldg) (c_ftl : r .ftl) (c_flt : r .flt) (c_LDG_GAUGE_STAT_FALLBACKS : r (.reg Reg.LDG_GAUGE_STAT_FALLBACKS.addr)) :
    Keeps r o (State.openSb s stream id) := by
  unfold State.openSb
  repeat' first
    | with_reducible assumption | with_reducible apply keeps_onSb | with_reducible apply keeps_journalSb
    | with_reducible apply keeps_onFtl

theorem keeps_closeSb (id : ℕ) (h : Keeps r o s) (c_ldg : r .ldg) (c_ftl : r .ftl) (c_flt : r .flt) (c_LDG_GAUGE_STAT_FALLBACKS : r (.reg Reg.LDG_GAUGE_STAT_FALLBACKS.addr)) :
    Keeps r o (State.closeSb s id) := by
  unfold State.closeSb
  repeat' first
    | with_reducible assumption | with_reducible apply keeps_onSb | with_reducible apply keeps_journalSb
    | with_reducible apply keeps_onFtl

theorem keeps_openNew (stream : ℕ) (old : Option ℕ) (pick : State → Option ℕ) (y4 : ℕ) (h : Keeps r o s) (c_ldg : r .ldg) (c_ftl : r .ftl) (c_flt : r .flt) (c_LDG_GAUGE_STAT_FALLBACKS : r (.reg Reg.LDG_GAUGE_STAT_FALLBACKS.addr)) :
    KeepsO2 r o (State.openNew s stream old pick y4) := by
  induction y4 generalizing s stream old pick with
  | zero =>
    unfold State.openNew
    repeat' first
      | with_reducible exact KeepsO2.none | with_reducible apply KeepsO2.mk2 | with_reducible apply KeepsO2.mk
      | with_reducible assumption | with_reducible apply ih | with_reducible apply keeps_openSb
      | with_reducible apply keeps_closeSb | with_reducible apply keeps_retireWorn | with_reducible apply keeps_foldl
      | with_reducible apply keeps2_foldl | (with_reducible intro _; beta_reduce)
      | with_reducible refine Keeps2.of (by assumption) ?_ | with_reducible apply Keeps2.snd
      | (extract_lets +onlyGivenNames x; refine @Keeps.cut r o _ x ?_ (fun hx => ?_); rotate_left; clear_value x; rotate_right; dsimp -zeta only [x])
      | (extract_lets +onlyGivenNames x; clear_value x) | split | with_reducible apply Keeps2.mk
  | succ _ ih =>
    unfold State.openNew
    repeat' first
      | with_reducible exact KeepsO2.none | with_reducible apply KeepsO2.mk2 | with_reducible apply KeepsO2.mk
      | with_reducible assumption | with_reducible apply ih | with_reducible apply keeps_openSb
      | with_reducible apply keeps_closeSb | with_reducible apply keeps_retireWorn | with_reducible apply keeps_foldl
      | with_reducible apply keeps2_foldl | (with_reducible intro _; beta_reduce)
      | with_reducible refine Keeps2.of (by assumption) ?_ | with_reducible apply Keeps2.snd
      | (extract_lets +onlyGivenNames x; refine @Keeps.cut r o _ x ?_ (fun hx => ?_); rotate_left; clear_value x; rotate_right; dsimp -zeta only [x])
      | (extract_lets +onlyGivenNames x; clear_value x) | split | with_reducible apply Keeps2.mk

theorem keeps_addSummary (id : ℕ) (e' : SumEntry) (h : Keeps r o s) (c_ftl : r .ftl) :
    Keeps r o (State.addSummary s id e') := by
  unfold State.addSummary
  repeat' first
    | with_reducible assumption | with_reducible apply keeps_onSbQuiet

theorem keeps_takeRun (h : Keeps r o s) (c_ftl : r .ftl) :
    KeepsO2 r o (State.takeRun s) := by
  unfold State.takeRun
  repeat' first
    | with_reducible exact KeepsO2.none | with_reducible apply KeepsO2.mk2 | with_reducible apply KeepsO2.mk
    | with_reducible assumption | with_reducible apply keeps_onFtl | with_reducible apply keeps_foldl
    | with_reducible apply keeps2_foldl | (with_reducible intro _; beta_reduce)
    | with_reducible refine Keeps2.of (by assumption) ?_ | with_reducible apply Keeps2.snd
    | (extract_lets +onlyGivenNames x; refine @Keeps.cut r o _ x ?_ (fun hx => ?_); rotate_left; clear_value x; rotate_right; dsimp -zeta only [x])
    | (extract_lets +onlyGivenNames x; clear_value x) | split

theorem keeps_markPiece (p : ℕ) (h : Keeps r o s) (c_ftl : r .ftl) :
    Keeps r o (State.markPiece s p) := by
  unfold State.markPiece
  repeat' first
    | with_reducible assumption | with_reducible apply keeps_onFtl

theorem keeps_freeSkein (skein : ℕ) (h : Keeps r o s) (c_ldg : r .ldg) (c_ftl : r .ftl) (c_flt : r .flt) (c_LDG_GAUGE_STAT_FALLBACKS : r (.reg Reg.LDG_GAUGE_STAT_FALLBACKS.addr)) :
    Keeps r o (State.freeSkein s skein) := by
  unfold State.freeSkein
  repeat' first
    | with_reducible assumption | with_reducible apply keeps_journalMap | with_reducible apply keeps_onFtl
    | with_reducible apply keeps_foldl | with_reducible apply keeps2_foldl | (with_reducible intro _; beta_reduce)
    | with_reducible refine Keeps2.of (by assumption) ?_ | with_reducible apply Keeps2.snd
    | (extract_lets +onlyGivenNames x; refine @Keeps.cut r o _ x ?_ (fun hx => ?_); rotate_left; clear_value x; rotate_right; dsimp -zeta only [x])
    | (extract_lets +onlyGivenNames x; clear_value x) | split

theorem keeps_setStream (key : ℕ) (st : Stream) (h : Keeps r o s) (c_ldg : r .ldg) (c_ftl : r .ftl) (c_flt : r .flt) (c_LDG_GAUGE_STAT_FALLBACKS : r (.reg Reg.LDG_GAUGE_STAT_FALLBACKS.addr)) :
    Keeps r o (State.setStream s key st) := by
  unfold State.setStream
  repeat' first
    | with_reducible assumption | with_reducible apply keeps_freeSkein | with_reducible apply keeps_onFtl
    | with_reducible apply keeps_foldl | with_reducible apply keeps2_foldl | (with_reducible intro _; beta_reduce)
    | with_reducible refine Keeps2.of (by assumption) ?_ | with_reducible apply Keeps2.snd
    | (extract_lets +onlyGivenNames x; refine @Keeps.cut r o _ x ?_ (fun hx => ?_); rotate_left; clear_value x; rotate_right; dsimp -zeta only [x])
    | (extract_lets +onlyGivenNames x; clear_value x) | split

theorem keeps_mapSkein (stream : ℕ) (skein : ℕ) (h : Keeps r o s) (c_ldg : r .ldg) (c_ftl : r .ftl) (c_flt : r .flt) (c_LDG_GAUGE_STAT_FALLBACKS : r (.reg Reg.LDG_GAUGE_STAT_FALLBACKS.addr)) :
    KeepsO r o (State.mapSkein s stream skein) := by
  unfold State.mapSkein
  repeat' first
    | with_reducible exact KeepsO.none | with_reducible apply KeepsO.mk | with_reducible apply keepsO_map
    | with_reducible assumption | with_reducible apply keeps_onSbQuiet | with_reducible apply keeps_setStream
    | with_reducible apply keeps_onFtl | with_reducible apply keeps_journalSkein | with_reducible apply keeps_openNew
    | with_reducible apply keeps_foldl | with_reducible apply keeps2_foldl | (with_reducible intro _; beta_reduce)
    | with_reducible refine Keeps2.of (by assumption) ?_ | with_reducible apply Keeps2.snd
    | with_reducible refine KeepsO2.of (by assumption) ?_ | with_reducible refine KeepsO2.pair (by assumption) ?_
    | with_reducible apply keeps_getD | with_reducible apply keepsO_map
    | (extract_lets +onlyGivenNames x; have _f : _ → State := x; clear _f; dsimp -zeta only [x]; clear x)
    | (extract_lets +onlyGivenNames x; have _f : State → _ := x; clear _f; dsimp -zeta only [x]; clear x)
    | (extract_lets +onlyGivenNames x; have _f : _ → State → _ := x; clear _f; dsimp -zeta only [x]; clear x)
    | (extract_lets +onlyGivenNames x; refine @Keeps.cut r o _ x ?_ (fun hx => ?_); rotate_left; clear_value x; rotate_right; dsimp -zeta only [x])
    | (extract_lets +onlyGivenNames x; refine @KeepsO2.cut r o _ _ x ?_ (fun hx => ?_); rotate_left; clear_value x; rotate_right; dsimp -zeta only [x])
    | (extract_lets +onlyGivenNames x; clear_value x) | split

theorem keeps_addLive (skein : ℕ) (units : ℕ) (h : Keeps r o s) (c_ftl : r .ftl) :
    Keeps r o (State.addLive s skein units) := by
  unfold State.addLive
  repeat' first
    | with_reducible assumption | with_reducible apply keeps_onFtl | with_reducible apply keeps_markPiece

theorem keeps_newRun (stream : ℕ) (h : Keeps r o s) (c_ldg : r .ldg) (c_ftl : r .ftl) (c_flt : r .flt) (c_LDG_GAUGE_STAT_FALLBACKS : r (.reg Reg.LDG_GAUGE_STAT_FALLBACKS.addr)) :
    KeepsO r o (State.newRun s stream) := by
  unfold State.newRun
  repeat' first
    | with_reducible exact KeepsO.none | with_reducible apply KeepsO.mk | with_reducible apply keepsO_map
    | with_reducible assumption | with_reducible apply keeps_mapSkein | with_reducible apply keeps_takeRun
    | with_reducible apply keeps_foldl | with_reducible apply keeps2_foldl | (with_reducible intro _; beta_reduce)
    | with_reducible refine Keeps2.of (by assumption) ?_ | with_reducible apply Keeps2.snd
    | with_reducible refine KeepsO.of (by assumption) ?_ | with_reducible apply keeps_getD
    | with_reducible refine KeepsO2.of (by assumption) ?_ | with_reducible refine KeepsO2.pair (by assumption) ?_
    | with_reducible apply keeps_getD | with_reducible apply keepsO_map
    | (extract_lets +onlyGivenNames x; refine @Keeps.cut r o _ x ?_ (fun hx => ?_); rotate_left; clear_value x; rotate_right; dsimp -zeta only [x])
    | (extract_lets +onlyGivenNames x; refine @KeepsO.cut r o _ x ?_ (fun hx => ?_); rotate_left; clear_value x; rotate_right; dsimp -zeta only [x])
    | (extract_lets +onlyGivenNames x; refine @KeepsO2.cut r o _ _ x ?_ (fun hx => ?_); rotate_left; clear_value x; rotate_right; dsimp -zeta only [x])
    | (extract_lets +onlyGivenNames x; clear_value x) | split

theorem keeps_readyStream (stream : ℕ) (units : ℕ) (h : Keeps r o s) (c_ldg : r .ldg) (c_ftl : r .ftl) (c_flt : r .flt) (c_LDG_GAUGE_STAT_FALLBACKS : r (.reg Reg.LDG_GAUGE_STAT_FALLBACKS.addr)) :
    KeepsO r o (State.readyStream s stream units) := by
  unfold State.readyStream
  repeat' first
    | with_reducible exact KeepsO.none | with_reducible apply KeepsO.mk | with_reducible apply keepsO_map
    | with_reducible assumption | with_reducible apply keeps_mapSkein | with_reducible apply keeps_newRun
    | with_reducible apply keeps_foldl | with_reducible apply keeps2_foldl | (with_reducible intro _; beta_reduce)
    | with_reducible refine Keeps2.of (by assumption) ?_ | with_reducible apply Keeps2.snd
    | with_reducible refine KeepsO.of (by assumption) ?_ | with_reducible apply keeps_getD
    | (extract_lets +onlyGivenNames x; refine @Keeps.cut r o _ x ?_ (fun hx => ?_); rotate_left; clear_value x; rotate_right; dsimp -zeta only [x])
    | (extract_lets +onlyGivenNames x; refine @KeepsO.cut r o _ x ?_ (fun hx => ?_); rotate_left; clear_value x; rotate_right; dsimp -zeta only [x])
    | (extract_lets +onlyGivenNames x; clear_value x) | split

theorem keeps_allocFlash (stream : ℕ) (units : ℕ) (h : Keeps r o s) (c_ldg : r .ldg) (c_ftl : r .ftl) (c_flt : r .flt) (c_LDG_GAUGE_STAT_FALLBACKS : r (.reg Reg.LDG_GAUGE_STAT_FALLBACKS.addr)) :
    KeepsO2 r o (State.allocFlash s stream units) := by
  unfold State.allocFlash
  extract_lets key
  split
  · exact KeepsO2.none
  · rename_i u hu0
    have hu : Keeps r o u := KeepsO.of hu0 (by apply keeps_readyStream <;> assumption)
    split
    · exact KeepsO2.none
    · extract_lets fits loc u2 at_
      have h2 : Keeps r o u2 := by apply keeps_addLive <;> assumption
      clear_value u2 at_ loc
      split
      · exact KeepsO2.mk2 _ (by apply keeps_setStream <;> assumption)
      · split
        · split
          · exact KeepsO2.mk2 _ (by apply keeps_setStream <;> assumption)
          · intro t e
            cases hm : u2.mapSkein stream (_ + 1) with
            | none => rw [hm] at e; cases e
            | some v =>
              rw [hm] at e
              cases e
              exact KeepsO.of hm (by apply keeps_mapSkein <;> assumption)
        · split
          · exact KeepsO2.none
          · rename_i v hv
            have h3 : Keeps r o v := KeepsO.of hv (by apply keeps_mapSkein <;> assumption)
            exact KeepsO2.mk2 _ (keeps_onFtl _ (by apply keeps_addLive <;> assumption) c_ftl)

theorem keeps_subLive (skein : ℕ) (byte : ℕ) (units : ℕ) (h : Keeps r o s) (c_ldg : r .ldg) (c_ftl : r .ftl) (c_flt : r .flt) (c_LDG_GAUGE_STAT_FALLBACKS : r (.reg Reg.LDG_GAUGE_STAT_FALLBACKS.addr)) :
    Keeps r o (State.subLive s skein byte units) := by
  unfold State.subLive
  repeat' first
    | with_reducible assumption | with_reducible apply keeps_journalStitches | with_reducible apply keeps_freeSkein
    | with_reducible apply keeps_onFtl | with_reducible apply keeps_markPiece | with_reducible apply keeps_foldl
    | with_reducible apply keeps2_foldl | (with_reducible intro _; beta_reduce)
    | with_reducible refine Keeps2.of (by assumption) ?_ | with_reducible apply Keeps2.snd
    | (extract_lets +onlyGivenNames x; refine @Keeps.cut r o _ x ?_ (fun hx => ?_); rotate_left; clear_value x; rotate_right; dsimp -zeta only [x])
    | (extract_lets +onlyGivenNames x; clear_value x) | split

theorem keeps_releaseLoc (loc : Loc) (h : Keeps r o s) (c_ldg : r .ldg) (c_ftl : r .ftl) (c_flt : r .flt) (c_LDG_GAUGE_STAT_FALLBACKS : r (.reg Reg.LDG_GAUGE_STAT_FALLBACKS.addr)) :
    Keeps r o (State.releaseLoc s loc) := by
  unfold State.releaseLoc
  repeat' first
    | with_reducible assumption | with_reducible apply keeps_freeLines | with_reducible apply keeps_subLive
    | with_reducible apply keeps_foldl | with_reducible apply keeps2_foldl | (with_reducible intro _; beta_reduce)
    | with_reducible refine Keeps2.of (by assumption) ?_ | with_reducible apply Keeps2.snd
    | (extract_lets +onlyGivenNames x; refine @Keeps.cut r o _ x ?_ (fun hx => ?_); rotate_left; clear_value x; rotate_right; dsimp -zeta only [x])
    | (extract_lets +onlyGivenNames x; clear_value x) | split

theorem keeps_releaseSeg (g : Seg) (h : Keeps r o s) (c_ldg : r .ldg) (c_ftl : r .ftl) (c_flt : r .flt) (c_LDG_GAUGE_STAT_FALLBACKS : r (.reg Reg.LDG_GAUGE_STAT_FALLBACKS.addr)) :
    Keeps r o (State.releaseSeg s g) := by
  unfold State.releaseSeg
  repeat' first
    | with_reducible assumption | with_reducible apply keeps_releaseLoc

theorem keeps_releaseSegs (gs : List Seg) (h : Keeps r o s) (c_ldg : r .ldg) (c_ftl : r .ftl) (c_flt : r .flt) (c_LDG_GAUGE_STAT_FALLBACKS : r (.reg Reg.LDG_GAUGE_STAT_FALLBACKS.addr)) :
    Keeps r o (State.releaseSegs s gs) := by
  unfold State.releaseSegs
  repeat' first
    | with_reducible assumption | with_reducible apply keeps_releaseSeg | with_reducible apply keeps_foldl
    | with_reducible apply keeps2_foldl | (with_reducible intro _; beta_reduce)

theorem keeps_slcChoice (h : Keeps r o s) :
    Keeps2 r o (State.slcChoice s) := by
  unfold State.slcChoice
  repeat' first
    | with_reducible assumption | with_reducible apply keeps_drawNat | with_reducible apply keeps_foldl
    | with_reducible apply keeps2_foldl | (with_reducible intro _; beta_reduce)
    | with_reducible refine Keeps2.of (by assumption) ?_ | with_reducible apply Keeps2.snd
    | (extract_lets +onlyGivenNames x; refine @Keeps.cut r o _ x ?_ (fun hx => ?_); rotate_left; clear_value x; rotate_right; dsimp -zeta only [x])
    | (extract_lets +onlyGivenNames x; refine @Keeps2.cut r o _ _ x ?_ (fun hx => ?_); rotate_left; clear_value x; rotate_right; dsimp -zeta only [x])
    | (extract_lets +onlyGivenNames x; clear_value x) | split | with_reducible apply Keeps2.mk

theorem keeps_hostStream (parityP : Bool) (h : Keeps r o s) :
    Keeps2 r o (State.hostStream s parityP) := by
  unfold State.hostStream
  repeat' first
    | with_reducible assumption | with_reducible apply keeps_slcChoice | with_reducible apply keeps_foldl
    | with_reducible apply keeps2_foldl | (with_reducible intro _; beta_reduce)
    | with_reducible refine Keeps2.of (by assumption) ?_ | with_reducible apply Keeps2.snd
    | (extract_lets +onlyGivenNames x; refine @Keeps.cut r o _ x ?_ (fun hx => ?_); rotate_left; clear_value x; rotate_right; dsimp -zeta only [x])
    | (extract_lets +onlyGivenNames x; refine @Keeps2.cut r o _ _ x ?_ (fun hx => ?_); rotate_left; clear_value x; rotate_right; dsimp -zeta only [x])
    | (extract_lets +onlyGivenNames x; clear_value x) | split | with_reducible apply Keeps2.mk

theorem keeps_allocHost (parityP : Bool) (units : ℕ) (h : Keeps r o s) (c_ldg : r .ldg) (c_ftl : r .ftl) (c_flt : r .flt) (c_LDG_GAUGE_STAT_FALLBACKS : r (.reg Reg.LDG_GAUGE_STAT_FALLBACKS.addr)) :
    KeepsO2 r o (State.allocHost s parityP units) := by
  unfold State.allocHost
  repeat' first
    | with_reducible exact KeepsO2.none | with_reducible apply KeepsO2.mk2 | with_reducible apply KeepsO2.mk
    | with_reducible assumption | with_reducible apply keeps_hostStream | with_reducible apply keeps_allocFlash
    | with_reducible apply keeps_foldl | with_reducible apply keeps2_foldl | (with_reducible intro _; beta_reduce)
    | with_reducible refine Keeps2.of (by assumption) ?_ | with_reducible apply Keeps2.snd
    | with_reducible refine KeepsO2.of (by assumption) ?_ | with_reducible refine KeepsO2.pair (by assumption) ?_
    | with_reducible apply keeps_getD | with_reducible apply keepsO_map
    | (extract_lets +onlyGivenNames x; refine @Keeps.cut r o _ x ?_ (fun hx => ?_); rotate_left; clear_value x; rotate_right; dsimp -zeta only [x])
    | (extract_lets +onlyGivenNames x; refine @Keeps2.cut r o _ _ x ?_ (fun hx => ?_); rotate_left; clear_value x; rotate_right; dsimp -zeta only [x])
    | (extract_lets +onlyGivenNames x; refine @KeepsO2.cut r o _ _ x ?_ (fun hx => ?_); rotate_left; clear_value x; rotate_right; dsimp -zeta only [x])
    | (extract_lets +onlyGivenNames x; clear_value x) | split

theorem keeps_stageWord (w : ℕ × ℕ) (at_ : ℕ) (t' : Bytes) (o' : Bytes) (h : Keeps r o s) (c_ftl : r .ftl) :
    Keeps r o (State.stageWord s w at_ t' o') := by
  unfold State.stageWord
  repeat' first
    | with_reducible assumption | with_reducible apply keeps_onSbQuiet

theorem keeps_putBytes (loc : Loc) (t' : Bytes) (o' : Bytes) (h : Keeps r o s) (c_ftl : r .ftl) :
    Keeps r o (State.putBytes s loc t' o') := by
  unfold State.putBytes
  repeat' first
    | with_reducible assumption | with_reducible apply keeps_stageWord | with_reducible apply keeps_foldl
    | with_reducible apply keeps2_foldl | (with_reducible intro _; beta_reduce)
    | with_reducible refine Keeps2.of (by assumption) ?_ | with_reducible apply Keeps2.snd
    | (extract_lets +onlyGivenNames x; refine @Keeps.cut r o _ x ?_ (fun hx => ?_); rotate_left; clear_value x; rotate_right; dsimp -zeta only [x])
    | (extract_lets +onlyGivenNames x; clear_value x) | split

theorem keeps_putObject (loc : Loc) (kind : ℕ) (fold : W64) (t' : Bytes) (o' : Bytes) (h : Keeps r o s) (c_ftl : r .ftl) :
    Keeps r o (State.putObject s loc kind fold t' o') := by
  unfold State.putObject
  repeat' first
    | with_reducible assumption | with_reducible apply keeps_addSummary | with_reducible apply keeps_putBytes
    | with_reducible apply keeps_foldl | with_reducible apply keeps2_foldl | (with_reducible intro _; beta_reduce)
    | with_reducible refine Keeps2.of (by assumption) ?_ | with_reducible apply Keeps2.snd
    | (extract_lets +onlyGivenNames x; refine @Keeps.cut r o _ x ?_ (fun hx => ?_); rotate_left; clear_value x; rotate_right; dsimp -zeta only [x])
    | (extract_lets +onlyGivenNames x; clear_value x) | split

end Sys2Proof.Machine
end

