-- ==== Sys2Proof/Laws/KeepLife.lean ====
section
/-! SUPPORT. What each operation of Machine/Life.lean may change. -/

set_option linter.unusedTactic false
set_option linter.unreachableTactic false

namespace Sys2Proof.Machine

variable {r : Part → Prop} {o s : State}

theorem keeps_onCmd (n : ℕ) (f : Cmd → Cmd) (h : Keeps r o s) (c_sch : r .sch) :
    Keeps r o (State.onCmd s n f) := by
  unfold State.onCmd
  repeat' first
    | with_reducible assumption | with_reducible apply keeps_onSch

theorem keeps_withCmd (n : ℕ) (p : Cmd → Bool) (f : Cmd → State) (step : ∀ a, Keeps r o (f a)) (h : Keeps r o s) :
    Keeps r o (State.withCmd s n p f) := by
  unfold State.withCmd
  repeat' first
    | with_reducible assumption | with_reducible apply step | with_reducible apply keeps_foldl
    | with_reducible apply keeps2_foldl | (with_reducible intro _; beta_reduce)
    | with_reducible refine Keeps2.of (by assumption) ?_ | with_reducible apply Keeps2.snd
    | (extract_lets +onlyGivenNames x; refine @Keeps.cut r o _ x ?_ (fun hx => ?_); rotate_left; clear_value x; rotate_right; dsimp -zeta only [x])
    | (extract_lets +onlyGivenNames x; clear_value x) | split

theorem keeps_transitSeal (slot : Option ℕ) (head : Bytes) (data : Bytes) (h : Keeps r o s) (c_cip : r .cip) (c_ldg : r .ldg) (c_flt : r .flt) (c_CIP_LANE_STAT_NONCE_REFUSALS : r (.reg Reg.CIP_LANE_STAT_NONCE_REFUSALS.addr)) (c_FLT_SWATCH_CTL_ARM : r (.reg Reg.FLT_SWATCH_CTL_ARM.addr)) (c_LDG_UNMETERED_LINES : r (.reg Reg.LDG_UNMETERED_LINES.addr)) :
    Keeps2 r o (State.transitSeal s slot head data) := by
  unfold State.transitSeal
  repeat' first
    | with_reducible assumption | with_reducible apply keeps_nonceExhausted | with_reducible apply keeps_sealBytes
    | with_reducible apply keeps_foldl | with_reducible apply keeps2_foldl | (with_reducible intro _; beta_reduce)
    | with_reducible refine Keeps2.of (by assumption) ?_ | with_reducible apply Keeps2.snd
    | with_reducible refine KeepsO2.of (by assumption) ?_ | with_reducible refine KeepsO2.pair (by assumption) ?_
    | with_reducible apply keeps_getD | with_reducible apply keepsO_map
    | (extract_lets +onlyGivenNames x; refine @Keeps.cut r o _ x ?_ (fun hx => ?_); rotate_left; clear_value x; rotate_right; dsimp -zeta only [x])
    | (extract_lets +onlyGivenNames x; refine @KeepsO2.cut r o _ _ x ?_ (fun hx => ?_); rotate_left; clear_value x; rotate_right; dsimp -zeta only [x])
    | (extract_lets +onlyGivenNames x; clear_value x) | split | with_reducible apply Keeps2.mk

theorem keeps_openPiece (slot : ℕ) (header : Bytes) (aad : Bytes) (ct : Bytes) (h : Keeps r o s) (c_cip : r .cip) :
    Keeps2 r o (State.openPiece s slot header aad ct) := by
  unfold State.openPiece
  repeat' first
    | with_reducible assumption | with_reducible apply keeps_useKey | with_reducible apply keeps_foldl
    | with_reducible apply keeps2_foldl | (with_reducible intro _; beta_reduce)
    | with_reducible refine Keeps2.of (by assumption) ?_ | with_reducible apply Keeps2.snd
    | (extract_lets +onlyGivenNames x; refine @Keeps.cut r o _ x ?_ (fun hx => ?_); rotate_left; clear_value x; rotate_right; dsimp -zeta only [x])
    | (extract_lets +onlyGivenNames x; clear_value x) | split | with_reducible apply Keeps2.mk

theorem keeps_openPieces (peer : ℕ) (kind : ℕ) (m : PeerMsg) (h : Keeps r o s) (c_cip : r .cip) :
    Keeps2 r o (State.openPieces s peer kind m) := by
  unfold State.openPieces
  repeat' first
    | with_reducible assumption | with_reducible apply keeps_openPiece | with_reducible apply keeps_foldl
    | with_reducible apply keeps2_foldl | (with_reducible intro _; beta_reduce)
    | with_reducible refine Keeps2.of (by assumption) ?_ | with_reducible apply Keeps2.snd
    | (extract_lets +onlyGivenNames x; refine @Keeps.cut r o _ x ?_ (fun hx => ?_); rotate_left; clear_value x; rotate_right; dsimp -zeta only [x])
    | (extract_lets +onlyGivenNames x; refine @Keeps2.cut r o _ _ x ?_ (fun hx => ?_); rotate_left; clear_value x; rotate_right; dsimp -zeta only [x])
    | (extract_lets +onlyGivenNames x; clear_value x) | split | with_reducible apply Keeps2.mk

theorem keeps_transitRefused (peer : ℕ) (h : Keeps r o s) (c_flt : r .flt) (c_CIP_LANE_STAT_NONCE_REFUSALS : r (.reg Reg.CIP_LANE_STAT_NONCE_REFUSALS.addr)) :
    Keeps r o (State.transitRefused s peer) := by
  unfold State.transitRefused
  repeat' first
    | with_reducible assumption | with_reducible apply keeps_nonceExhausted | with_reducible apply keeps_foldl
    | with_reducible apply keeps2_foldl | (with_reducible intro _; beta_reduce)
    | with_reducible refine Keeps2.of (by assumption) ?_ | with_reducible apply Keeps2.snd
    | (extract_lets +onlyGivenNames x; refine @Keeps.cut r o _ x ?_ (fun hx => ?_); rotate_left; clear_value x; rotate_right; dsimp -zeta only [x])
    | (extract_lets +onlyGivenNames x; clear_value x) | split

theorem keeps_nextMsg (ctx : ℕ) (peer : ℕ) (m : PeerMsg) (h : Keeps r o s) (c_nfe : r .nfe) :
    Keeps2 r o (State.nextMsg s ctx peer m) := by
  unfold State.nextMsg
  repeat' first
    | with_reducible assumption | with_reducible apply keeps_onNfe | with_reducible apply keeps_foldl
    | with_reducible apply keeps2_foldl | (with_reducible intro _; beta_reduce)
    | with_reducible refine Keeps2.of (by assumption) ?_ | with_reducible apply Keeps2.snd
    | (extract_lets +onlyGivenNames x; refine @Keeps.cut r o _ x ?_ (fun hx => ?_); rotate_left; clear_value x; rotate_right; dsimp -zeta only [x])
    | (extract_lets +onlyGivenNames x; clear_value x) | split | with_reducible apply Keeps2.mk

theorem keeps_sendMsg (ctx : ℕ) (kind : ℕ) (m : PeerMsg) (h : Keeps r o s) (c_nfe : r .nfe) :
    Keeps r o (State.sendMsg s ctx kind m) := by
  unfold State.sendMsg
  repeat' first
    | with_reducible assumption | with_reducible apply keeps_send

theorem keeps_sendPeer (peer : ℕ) (kind : ℕ) (m : PeerMsg) (h : Keeps r o s) (c_nfe : r .nfe) (c_cip : r .cip) (c_ldg : r .ldg) (c_flt : r .flt) (c_CIP_LANE_STAT_NONCE_REFUSALS : r (.reg Reg.CIP_LANE_STAT_NONCE_REFUSALS.addr)) (c_FLT_SWATCH_CTL_ARM : r (.reg Reg.FLT_SWATCH_CTL_ARM.addr)) (c_LDG_UNMETERED_LINES : r (.reg Reg.LDG_UNMETERED_LINES.addr)) :
    Keeps r o (State.sendPeer s peer kind m) := by
  unfold State.sendPeer
  repeat' first
    | with_reducible assumption | with_reducible apply keeps_nextMsg | with_reducible apply keeps_sendMsg
    | with_reducible apply keeps_transitSeal | with_reducible apply keeps_foldl | with_reducible apply keeps2_foldl
    | (with_reducible intro _; beta_reduce) | with_reducible refine Keeps2.of (by assumption) ?_
    | with_reducible apply Keeps2.snd
    | (extract_lets +onlyGivenNames x; refine @Keeps.cut r o _ x ?_ (fun hx => ?_); rotate_left; clear_value x; rotate_right; dsimp -zeta only [x])
    | (extract_lets +onlyGivenNames x; refine @Keeps2.cut r o _ _ x ?_ (fun hx => ?_); rotate_left; clear_value x; rotate_right; dsimp -zeta only [x])
    | (extract_lets +onlyGivenNames x; clear_value x) | split

theorem keeps_takeHolds (sbs : List ℕ) (h : Keeps r o s) (c_ftl : r .ftl) :
    Keeps r o (State.takeHolds s sbs) := by
  unfold State.takeHolds
  repeat' first
    | with_reducible assumption | with_reducible apply keeps_onFtl

theorem keeps_giveHolds (sbs : List ℕ) (h : Keeps r o s) (c_ftl : r .ftl) :
    Keeps r o (State.giveHolds s sbs) := by
  unfold State.giveHolds
  repeat' first
    | with_reducible assumption | with_reducible apply keeps_onFtl

theorem keeps_freeDeadSkeins (h : Keeps r o s) (c_ldg : r .ldg) (c_ftl : r .ftl) (c_flt : r .flt) (c_LDG_GAUGE_STAT_FALLBACKS : r (.reg Reg.LDG_GAUGE_STAT_FALLBACKS.addr)) :
    Keeps r o (State.freeDeadSkeins s) := by
  unfold State.freeDeadSkeins
  repeat' first
    | with_reducible assumption | with_reducible apply keeps_freeSkein | with_reducible apply keeps_foldl
    | with_reducible apply keeps2_foldl | (with_reducible intro _; beta_reduce)

theorem keeps_dropHolds (n : ℕ) (h : Keeps r o s) (c_sch : r .sch) (c_ldg : r .ldg) (c_ftl : r .ftl) (c_flt : r .flt) (c_LDG_GAUGE_STAT_FALLBACKS : r (.reg Reg.LDG_GAUGE_STAT_FALLBACKS.addr)) :
    Keeps r o (State.dropHolds s n) := by
  unfold State.dropHolds
  repeat' first
    | with_reducible assumption | with_reducible apply keeps_freeDeadSkeins | with_reducible apply keeps_onCmd
    | with_reducible apply keeps_giveHolds | with_reducible apply keeps_foldl | with_reducible apply keeps2_foldl
    | (with_reducible intro _; beta_reduce) | with_reducible refine Keeps2.of (by assumption) ?_
    | with_reducible apply Keeps2.snd
    | (extract_lets +onlyGivenNames x; refine @Keeps.cut r o _ x ?_ (fun hx => ?_); rotate_left; clear_value x; rotate_right; dsimp -zeta only [x])
    | (extract_lets +onlyGivenNames x; clear_value x) | split

theorem keeps_releaseWork (c : Cmd) (h : Keeps r o s) (c_ldg : r .ldg) (c_ftl : r .ftl) (c_flt : r .flt) (c_LDG_GAUGE_STAT_FALLBACKS : r (.reg Reg.LDG_GAUGE_STAT_FALLBACKS.addr)) :
    Keeps r o (State.releaseWork s c) := by
  unfold State.releaseWork
  repeat' first
    | with_reducible assumption | with_reducible apply keeps_releaseLoc | with_reducible apply keeps_releaseSeg
    | with_reducible apply keeps_foldl | with_reducible apply keeps2_foldl | (with_reducible intro _; beta_reduce)
    | with_reducible refine Keeps2.of (by assumption) ?_ | with_reducible apply Keeps2.snd
    | (extract_lets +onlyGivenNames x; refine @Keeps.cut r o _ x ?_ (fun hx => ?_); rotate_left; clear_value x; rotate_right; dsimp -zeta only [x])
    | (extract_lets +onlyGivenNames x; clear_value x) | split

theorem keeps_freeCtx (ctx : ℕ) (h : Keeps r o s) (c_nfe : r .nfe) :
    Keeps r o (State.freeCtx s ctx) := by
  unfold State.freeCtx
  repeat' first
    | with_reducible assumption | with_reducible apply keeps_onNfe

theorem keeps_touchCtx (ctx : ℕ) (h : Keeps r o s) (c_nfe : r .nfe) :
    Keeps r o (State.touchCtx s ctx) := by
  unfold State.touchCtx
  repeat' first
    | with_reducible assumption | with_reducible apply keeps_onNfe

theorem keeps_settleError (ctx : ℕ) (h : Keeps r o s) (c_nfe : r .nfe) :
    Keeps r o (State.settleError s ctx) := by
  unfold State.settleError
  repeat' first
    | with_reducible assumption | with_reducible apply keeps_freeCtx | with_reducible apply keeps_send
    | with_reducible apply keeps_foldl | with_reducible apply keeps2_foldl | (with_reducible intro _; beta_reduce)
    | with_reducible refine Keeps2.of (by assumption) ?_ | with_reducible apply Keeps2.snd
    | (extract_lets +onlyGivenNames x; refine @Keeps.cut r o _ x ?_ (fun hx => ?_); rotate_left; clear_value x; rotate_right; dsimp -zeta only [x])
    | (extract_lets +onlyGivenNames x; clear_value x) | split

theorem keeps_addPeerCmd (c : Cmd) (h : Keeps r o s) (c_sch : r .sch) :
    Keeps2 r o (State.addPeerCmd s c) := by
  unfold State.addPeerCmd
  repeat' first
    | with_reducible assumption | with_reducible apply keeps_onSch | with_reducible apply keeps_foldl
    | with_reducible apply keeps2_foldl | (with_reducible intro _; beta_reduce)
    | with_reducible refine Keeps2.of (by assumption) ?_ | with_reducible apply Keeps2.snd
    | (extract_lets +onlyGivenNames x; refine @Keeps.cut r o _ x ?_ (fun hx => ?_); rotate_left; clear_value x; rotate_right; dsimp -zeta only [x])
    | (extract_lets +onlyGivenNames x; clear_value x) | split | with_reducible apply Keeps2.mk

theorem keeps_takeChain (m : PeerMsg) (h : Keeps r o s) (c_nfe : r .nfe) (c_sch : r .sch) (c_cip : r .cip) (c_ldg : r .ldg) (c_peer : r .peer) (c_flt : r .flt) (c_CIP_LANE_STAT_NONCE_REFUSALS : r (.reg Reg.CIP_LANE_STAT_NONCE_REFUSALS.addr)) (c_FLT_SWATCH_CTL_ARM : r (.reg Reg.FLT_SWATCH_CTL_ARM.addr)) (c_LDG_UNMETERED_LINES : r (.reg Reg.LDG_UNMETERED_LINES.addr)) :
    KeepsO r o (State.takeChain s m) := by
  unfold State.takeChain
  repeat' first
    | with_reducible exact KeepsO.none | with_reducible apply KeepsO.mk | with_reducible apply keepsO_map
    | with_reducible assumption | with_reducible apply keeps_onPeer | with_reducible apply keeps_sendPeer
    | with_reducible apply keeps_addPeerCmd | with_reducible apply keeps_onSch | with_reducible apply keeps_foldl
    | with_reducible apply keeps2_foldl | (with_reducible intro _; beta_reduce)
    | with_reducible refine Keeps2.of (by assumption) ?_ | with_reducible apply Keeps2.snd
    | (extract_lets +onlyGivenNames x; refine @Keeps.cut r o _ x ?_ (fun hx => ?_); rotate_left; clear_value x; rotate_right; dsimp -zeta only [x])
    | (extract_lets +onlyGivenNames x; refine @Keeps2.cut r o _ _ x ?_ (fun hx => ?_); rotate_left; clear_value x; rotate_right; dsimp -zeta only [x])
    | (extract_lets +onlyGivenNames x; clear_value x) | split

theorem keeps_serveIntake (h : Keeps r o s) (c_nfe : r .nfe) (c_sch : r .sch) (c_cip : r .cip) (c_ldg : r .ldg) (c_peer : r .peer) (c_flt : r .flt) (c_CIP_LANE_STAT_NONCE_REFUSALS : r (.reg Reg.CIP_LANE_STAT_NONCE_REFUSALS.addr)) (c_FLT_SWATCH_CTL_ARM : r (.reg Reg.FLT_SWATCH_CTL_ARM.addr)) (c_LDG_UNMETERED_LINES : r (.reg Reg.LDG_UNMETERED_LINES.addr)) :
    Keeps r o (State.serveIntake s) := by
  unfold State.serveIntake
  repeat' first
    | with_reducible assumption | with_reducible apply keeps_onPeer | with_reducible apply keeps_takeChain
    | with_reducible apply keeps_foldl | with_reducible apply keeps2_foldl | (with_reducible intro _; beta_reduce)
    | with_reducible refine Keeps2.of (by assumption) ?_ | with_reducible apply Keeps2.snd
    | with_reducible refine KeepsO.of (by assumption) ?_ | with_reducible apply keeps_getD
    | (extract_lets +onlyGivenNames x; refine @Keeps.cut r o _ x ?_ (fun hx => ?_); rotate_left; clear_value x; rotate_right; dsimp -zeta only [x])
    | (extract_lets +onlyGivenNames x; refine @KeepsO.cut r o _ x ?_ (fun hx => ?_); rotate_left; clear_value x; rotate_right; dsimp -zeta only [x])
    | (extract_lets +onlyGivenNames x; clear_value x) | split

theorem keeps_dropCmd (n : ℕ) (h : Keeps r o s) (c_nfe : r .nfe) (c_sch : r .sch) (c_cip : r .cip) (c_ldg : r .ldg) (c_peer : r .peer) (c_flt : r .flt) (c_CIP_LANE_STAT_NONCE_REFUSALS : r (.reg Reg.CIP_LANE_STAT_NONCE_REFUSALS.addr)) (c_FLT_SWATCH_CTL_ARM : r (.reg Reg.FLT_SWATCH_CTL_ARM.addr)) (c_LDG_UNMETERED_LINES : r (.reg Reg.LDG_UNMETERED_LINES.addr)) :
    Keeps r o (State.dropCmd s n) := by
  unfold State.dropCmd
  repeat' first
    | with_reducible assumption | with_reducible apply keeps_serveIntake | with_reducible apply keeps_onSch

theorem keeps_toSch (n : ℕ) (h : Keeps r o s) (c_sch : r .sch) :
    Keeps r o (State.toSch s n) := by
  unfold State.toSch
  repeat' first
    | with_reducible assumption | with_reducible apply keeps_sendCredit | with_reducible apply keeps_onCmd
    | with_reducible apply keeps_foldl | with_reducible apply keeps2_foldl | (with_reducible intro _; beta_reduce)
    | with_reducible refine Keeps2.of (by assumption) ?_ | with_reducible apply Keeps2.snd
    | (extract_lets +onlyGivenNames x; refine @Keeps.cut r o _ x ?_ (fun hx => ?_); rotate_left; clear_value x; rotate_right; dsimp -zeta only [x])
    | (extract_lets +onlyGivenNames x; clear_value x) | split

theorem keeps_serveStaged (h : Keeps r o s) (c_sch : r .sch) :
    Keeps r o (State.serveStaged s) := by
  unfold State.serveStaged
  repeat' first
    | with_reducible assumption | with_reducible apply keeps_toSch | with_reducible apply keeps_foldl
    | with_reducible apply keeps2_foldl | (with_reducible intro _; beta_reduce)
    | with_reducible refine Keeps2.of (by assumption) ?_ | with_reducible apply Keeps2.snd
    | (extract_lets +onlyGivenNames x; refine @Keeps.cut r o _ x ?_ (fun hx => ?_); rotate_left; clear_value x; rotate_right; dsimp -zeta only [x])
    | (extract_lets +onlyGivenNames x; clear_value x) | split

theorem keeps_leaveIntake (n : ℕ) (h : Keeps r o s) (c_sch : r .sch) :
    Keeps r o (State.leaveIntake s n) := by
  unfold State.leaveIntake
  repeat' first
    | with_reducible assumption | with_reducible apply keeps_returnCredit | with_reducible apply keeps_serveStaged
    | with_reducible apply keeps_foldl | with_reducible apply keeps2_foldl | (with_reducible intro _; beta_reduce)
    | with_reducible refine Keeps2.of (by assumption) ?_ | with_reducible apply Keeps2.snd
    | (extract_lets +onlyGivenNames x; refine @Keeps.cut r o _ x ?_ (fun hx => ?_); rotate_left; clear_value x; rotate_right; dsimp -zeta only [x])
    | (extract_lets +onlyGivenNames x; clear_value x) | split

theorem keeps_retireOrphan (n : ℕ) (h : Keeps r o s) (c_nfe : r .nfe) (c_sch : r .sch) (c_cip : r .cip) (c_ldg : r .ldg) (c_peer : r .peer) (c_flt : r .flt) (c_CIP_LANE_STAT_NONCE_REFUSALS : r (.reg Reg.CIP_LANE_STAT_NONCE_REFUSALS.addr)) (c_FLT_SWATCH_CTL_ARM : r (.reg Reg.FLT_SWATCH_CTL_ARM.addr)) (c_LDG_UNMETERED_LINES : r (.reg Reg.LDG_UNMETERED_LINES.addr)) :
    Keeps r o (State.retireOrphan s n) := by
  unfold State.retireOrphan
  repeat' first
    | with_reducible assumption | with_reducible apply keeps_dropCmd | with_reducible apply keeps_settleError
    | with_reducible apply keeps_onSch | with_reducible apply keeps_foldl | with_reducible apply keeps2_foldl
    | (with_reducible intro _; beta_reduce) | with_reducible refine Keeps2.of (by assumption) ?_
    | with_reducible apply Keeps2.snd
    | (extract_lets +onlyGivenNames x; refine @Keeps.cut r o _ x ?_ (fun hx => ?_); rotate_left; clear_value x; rotate_right; dsimp -zeta only [x])
    | (extract_lets +onlyGivenNames x; clear_value x) | split

theorem keeps_sendAck (m : PeerMsg) (st : Status) (copies : ℕ) (h : Keeps r o s) (c_nfe : r .nfe) (c_cip : r .cip) (c_ldg : r .ldg) (c_peer : r .peer) (c_flt : r .flt) (c_CIP_LANE_STAT_NONCE_REFUSALS : r (.reg Reg.CIP_LANE_STAT_NONCE_REFUSALS.addr)) (c_FLT_SWATCH_CTL_ARM : r (.reg Reg.FLT_SWATCH_CTL_ARM.addr)) (c_LDG_UNMETERED_LINES : r (.reg Reg.LDG_UNMETERED_LINES.addr)) :
    Keeps r o (State.sendAck s m st copies) := by
  unfold State.sendAck
  repeat' first
    | with_reducible assumption | with_reducible apply keeps_onPeer | with_reducible apply keeps_sendPeer

theorem keeps_answerPeer (n : ℕ) (h : Keeps r o s) (c_nfe : r .nfe) (c_sch : r .sch) (c_cip : r .cip) (c_ldg : r .ldg) (c_peer : r .peer) (c_flt : r .flt) (c_CIP_LANE_STAT_NONCE_REFUSALS : r (.reg Reg.CIP_LANE_STAT_NONCE_REFUSALS.addr)) (c_FLT_SWATCH_CTL_ARM : r (.reg Reg.FLT_SWATCH_CTL_ARM.addr)) (c_LDG_UNMETERED_LINES : r (.reg Reg.LDG_UNMETERED_LINES.addr)) :
    Keeps r o (State.answerPeer s n) := by
  unfold State.answerPeer
  repeat' first
    | with_reducible assumption | with_reducible apply keeps_dropCmd | with_reducible apply keeps_sendPeer
    | with_reducible apply keeps_sendAck | with_reducible apply keeps_foldl | with_reducible apply keeps2_foldl
    | (with_reducible intro _; beta_reduce) | with_reducible refine Keeps2.of (by assumption) ?_
    | with_reducible apply Keeps2.snd
    | (extract_lets +onlyGivenNames x; refine @Keeps.cut r o _ x ?_ (fun hx => ?_); rotate_left; clear_value x; rotate_right; dsimp -zeta only [x])
    | (extract_lets +onlyGivenNames x; clear_value x) | split

theorem keeps_endCmd (n : ℕ) (o' : Outcome) (h : Keeps r o s) (c_nfe : r .nfe) (c_sch : r .sch) (c_val : r .val) (c_cip : r .cip) (c_ldg : r .ldg) (c_ftl : r .ftl) (c_peer : r .peer) (c_flt : r .flt) (c_CIP_LANE_STAT_NONCE_REFUSALS : r (.reg Reg.CIP_LANE_STAT_NONCE_REFUSALS.addr)) (c_FLT_SWATCH_CTL_ARM : r (.reg Reg.FLT_SWATCH_CTL_ARM.addr)) (c_LDG_GAUGE_STAT_FALLBACKS : r (.reg Reg.LDG_GAUGE_STAT_FALLBACKS.addr)) (c_LDG_UNMETERED_LINES : r (.reg Reg.LDG_UNMETERED_LINES.addr)) (c_PWR_SHED_CNT_SHED_WRITES : r (.reg Reg.PWR_SHED_CNT_SHED_WRITES.addr)) :
    Keeps r o (State.endCmd s n o') := by
  unfold State.endCmd
  repeat' first
    | with_reducible assumption | exact c_CIP_LANE_STAT_NONCE_REFUSALS | exact c_FLT_SWATCH_CTL_ARM
    | exact c_LDG_GAUGE_STAT_FALLBACKS | exact c_LDG_UNMETERED_LINES | exact c_PWR_SHED_CNT_SHED_WRITES
    | with_reducible apply keeps_bump | with_reducible apply keeps_onVal | with_reducible apply keeps_leaveIntake
    | with_reducible apply keeps_releaseWork | with_reducible apply keeps_answerPeer
    | with_reducible apply keeps_dropTokens | with_reducible apply keeps_settleLimbo
    | with_reducible apply keeps_onCmd | with_reducible apply keeps_dropHolds | with_reducible apply keeps_dropRef
    | with_reducible apply keeps_retireOrphan | with_reducible apply keeps_foldl | with_reducible apply keeps2_foldl
    | (with_reducible intro _; beta_reduce) | with_reducible refine Keeps2.of (by assumption) ?_
    | with_reducible apply Keeps2.snd
    | (extract_lets +onlyGivenNames x; refine @Keeps.cut r o _ x ?_ (fun hx => ?_); rotate_left; clear_value x; rotate_right; dsimp -zeta only [x])
    | (extract_lets +onlyGivenNames x; clear_value x) | split

theorem keeps_failCmd (n : ℕ) (version : ℕ) (h : Keeps r o s) (c_nfe : r .nfe) (c_sch : r .sch) (c_val : r .val) (c_cip : r .cip) (c_ldg : r .ldg) (c_ftl : r .ftl) (c_peer : r .peer) (c_flt : r .flt) (c_CIP_LANE_STAT_NONCE_REFUSALS : r (.reg Reg.CIP_LANE_STAT_NONCE_REFUSALS.addr)) (c_FLT_SWATCH_CTL_ARM : r (.reg Reg.FLT_SWATCH_CTL_ARM.addr)) (c_LDG_GAUGE_STAT_FALLBACKS : r (.reg Reg.LDG_GAUGE_STAT_FALLBACKS.addr)) (c_LDG_UNMETERED_LINES : r (.reg Reg.LDG_UNMETERED_LINES.addr)) (c_PWR_SHED_CNT_SHED_WRITES : r (.reg Reg.PWR_SHED_CNT_SHED_WRITES.addr)) (c_VAL_E2E_STAT_E2E_MISMATCHES : r (.reg Reg.VAL_E2E_STAT_E2E_MISMATCHES.addr)) :
    Keeps r o (State.failCmd s n version) := by
  unfold State.failCmd
  repeat' first
    | with_reducible assumption | exact c_CIP_LANE_STAT_NONCE_REFUSALS | exact c_FLT_SWATCH_CTL_ARM
    | exact c_LDG_GAUGE_STAT_FALLBACKS | exact c_LDG_UNMETERED_LINES | exact c_PWR_SHED_CNT_SHED_WRITES
    | exact c_VAL_E2E_STAT_E2E_MISMATCHES | with_reducible apply keeps_bump | with_reducible apply keeps_endCmd
    | with_reducible apply keeps_foldl | with_reducible apply keeps2_foldl | (with_reducible intro _; beta_reduce)
    | with_reducible refine Keeps2.of (by assumption) ?_ | with_reducible apply Keeps2.snd
    | (extract_lets +onlyGivenNames x; refine @Keeps.cut r o _ x ?_ (fun hx => ?_); rotate_left; clear_value x; rotate_right; dsimp -zeta only [x])
    | (extract_lets +onlyGivenNames x; clear_value x) | split

theorem keeps_addCond (n : ℕ) (st : Status) (h : Keeps r o s) (c_sch : r .sch) :
    Keeps r o (State.addCond s n st) := by
  unfold State.addCond
  repeat' first
    | with_reducible assumption | with_reducible apply keeps_onCmd

theorem keeps_dropIdleRef (n : ℕ) (h : Keeps r o s) (c_sch : r .sch) (c_cip : r .cip) :
    Keeps r o (State.dropIdleRef s n) := by
  unfold State.dropIdleRef
  repeat' first
    | with_reducible assumption | with_reducible apply keeps_dropRef | with_reducible apply keeps_foldl
    | with_reducible apply keeps2_foldl | (with_reducible intro _; beta_reduce)
    | with_reducible refine Keeps2.of (by assumption) ?_ | with_reducible apply Keeps2.snd
    | (extract_lets +onlyGivenNames x; refine @Keeps.cut r o _ x ?_ (fun hx => ?_); rotate_left; clear_value x; rotate_right; dsimp -zeta only [x])
    | (extract_lets +onlyGivenNames x; clear_value x) | split

theorem keeps_writeFails (n : ℕ) (st : Status) (h : Keeps r o s) (c_nfe : r .nfe) (c_sch : r .sch) (c_val : r .val) (c_cip : r .cip) (c_ldg : r .ldg) (c_ftl : r .ftl) (c_peer : r .peer) (c_flt : r .flt) (c_CIP_LANE_STAT_NONCE_REFUSALS : r (.reg Reg.CIP_LANE_STAT_NONCE_REFUSALS.addr)) (c_FLT_SWATCH_CTL_ARM : r (.reg Reg.FLT_SWATCH_CTL_ARM.addr)) (c_LDG_GAUGE_STAT_FALLBACKS : r (.reg Reg.LDG_GAUGE_STAT_FALLBACKS.addr)) (c_LDG_UNMETERED_LINES : r (.reg Reg.LDG_UNMETERED_LINES.addr)) (c_PWR_SHED_CNT_SHED_WRITES : r (.reg Reg.PWR_SHED_CNT_SHED_WRITES.addr)) (c_VAL_E2E_STAT_E2E_MISMATCHES : r (.reg Reg.VAL_E2E_STAT_E2E_MISMATCHES.addr)) :
    Keeps r o (State.writeFails s n st) := by
  unfold State.writeFails
  repeat' first
    | with_reducible assumption | with_reducible apply keeps_addCond | with_reducible apply keeps_failCmd
    | with_reducible apply keeps_onCmd | with_reducible apply keeps_dropIdleRef | with_reducible apply keeps_foldl
    | with_reducible apply keeps2_foldl | (with_reducible intro _; beta_reduce)
    | with_reducible refine Keeps2.of (by assumption) ?_ | with_reducible apply Keeps2.snd
    | (extract_lets +onlyGivenNames x; refine @Keeps.cut r o _ x ?_ (fun hx => ?_); rotate_left; clear_value x; rotate_right; dsimp -zeta only [x])
    | (extract_lets +onlyGivenNames x; clear_value x) | split

theorem keeps_cmdOnError (n : ℕ) (h : Keeps r o s) (c_nfe : r .nfe) (c_sch : r .sch) (c_val : r .val) (c_cip : r .cip) (c_ldg : r .ldg) (c_ftl : r .ftl) (c_peer : r .peer) (c_flt : r .flt) (c_CIP_LANE_STAT_NONCE_REFUSALS : r (.reg Reg.CIP_LANE_STAT_NONCE_REFUSALS.addr)) (c_FLT_SWATCH_CTL_ARM : r (.reg Reg.FLT_SWATCH_CTL_ARM.addr)) (c_LDG_GAUGE_STAT_FALLBACKS : r (.reg Reg.LDG_GAUGE_STAT_FALLBACKS.addr)) (c_LDG_UNMETERED_LINES : r (.reg Reg.LDG_UNMETERED_LINES.addr)) (c_PWR_SHED_CNT_SHED_WRITES : r (.reg Reg.PWR_SHED_CNT_SHED_WRITES.addr)) :
    Keeps r o (State.cmdOnError s n) := by
  unfold State.cmdOnError
  repeat' first
    | with_reducible assumption | with_reducible apply keeps_dropCmd | with_reducible apply keeps_endCmd
    | with_reducible apply keeps_retireOrphan | with_reducible apply keeps_foldl | with_reducible apply keeps2_foldl
    | (with_reducible intro _; beta_reduce) | with_reducible refine Keeps2.of (by assumption) ?_
    | with_reducible apply Keeps2.snd
    | (extract_lets +onlyGivenNames x; refine @Keeps.cut r o _ x ?_ (fun hx => ?_); rotate_left; clear_value x; rotate_right; dsimp -zeta only [x])
    | (extract_lets +onlyGivenNames x; clear_value x) | split

theorem keeps_setLive (peer : ℕ) (l : PeerLive) (h : Keeps r o s) (c_peer : r .peer) :
    Keeps r o (State.setLive s peer l) := by
  unfold State.setLive
  repeat' first
    | with_reducible assumption | with_reducible apply keeps_onPeer

theorem keeps_peerDown (peer : ℕ) (h : Keeps r o s) (c_peer : r .peer) (c_flt : r .flt) :
    Keeps r o (State.peerDown s peer) := by
  unfold State.peerDown
  repeat' first
    | with_reducible assumption | with_reducible apply keeps_setLive | with_reducible apply keeps_raise
    | with_reducible apply keeps_foldl | with_reducible apply keeps2_foldl | (with_reducible intro _; beta_reduce)
    | with_reducible refine Keeps2.of (by assumption) ?_ | with_reducible apply Keeps2.snd
    | (extract_lets +onlyGivenNames x; refine @Keeps.cut r o _ x ?_ (fun hx => ?_); rotate_left; clear_value x; rotate_right; dsimp -zeta only [x])
    | (extract_lets +onlyGivenNames x; clear_value x) | split

theorem keeps_peerCheck (peer : ℕ) (h : Keeps r o s) (c_peer : r .peer) (c_flt : r .flt) :
    Keeps r o (State.peerCheck s peer) := by
  unfold State.peerCheck
  repeat' first
    | with_reducible assumption | with_reducible apply keeps_peerDown | with_reducible apply keeps_foldl
    | with_reducible apply keeps2_foldl | (with_reducible intro _; beta_reduce)
    | with_reducible refine Keeps2.of (by assumption) ?_ | with_reducible apply Keeps2.snd
    | (extract_lets +onlyGivenNames x; refine @Keeps.cut r o _ x ?_ (fun hx => ?_); rotate_left; clear_value x; rotate_right; dsimp -zeta only [x])
    | (extract_lets +onlyGivenNames x; clear_value x) | split

theorem keeps_qpError (ctx : ℕ) (cause : ℕ) (h : Keeps r o s) (c_nfe : r .nfe) (c_sch : r .sch) (c_mch : r .mch) (c_val : r .val) (c_cip : r .cip) (c_ldg : r .ldg) (c_ftl : r .ftl) (c_peer : r .peer) (c_flt : r .flt) (c_CIP_LANE_STAT_NONCE_REFUSALS : r (.reg Reg.CIP_LANE_STAT_NONCE_REFUSALS.addr)) (c_FLT_SWATCH_CTL_ARM : r (.reg Reg.FLT_SWATCH_CTL_ARM.addr)) (c_LDG_GAUGE_STAT_FALLBACKS : r (.reg Reg.LDG_GAUGE_STAT_FALLBACKS.addr)) (c_LDG_UNMETERED_LINES : r (.reg Reg.LDG_UNMETERED_LINES.addr)) (c_PWR_SHED_CNT_SHED_WRITES : r (.reg Reg.PWR_SHED_CNT_SHED_WRITES.addr)) :
    Keeps r o (State.qpError s ctx cause) := by
  unfold State.qpError
  repeat' first
    | with_reducible assumption | with_reducible apply keeps_settleError | with_reducible apply keeps_endHalves
    | with_reducible apply keeps_cmdOnError | with_reducible apply keeps_onMch | with_reducible apply keeps_onNfe
    | with_reducible apply keeps_peerCheck | with_reducible apply keeps_onSch | with_reducible apply keeps_send
    | with_reducible apply keeps_foldl | with_reducible apply keeps2_foldl | (with_reducible intro _; beta_reduce)
    | with_reducible refine Keeps2.of (by assumption) ?_ | with_reducible apply Keeps2.snd
    | (extract_lets +onlyGivenNames x; have _f : _ → State := x; clear _f; dsimp -zeta only [x]; clear x)
    | (extract_lets +onlyGivenNames x; have _f : State → _ := x; clear _f; dsimp -zeta only [x]; clear x)
    | (extract_lets +onlyGivenNames x; have _f : _ → State → _ := x; clear _f; dsimp -zeta only [x]; clear x)
    | (extract_lets +onlyGivenNames x; refine @Keeps.cut r o _ x ?_ (fun hx => ?_); rotate_left; clear_value x; rotate_right; dsimp -zeta only [x])
    | (extract_lets +onlyGivenNames x; clear_value x) | split

theorem keeps_freeConnecting (ctx : ℕ) (h : Keeps r o s) (c_nfe : r .nfe) :
    Keeps r o (State.freeConnecting s ctx) := by
  unfold State.freeConnecting
  repeat' first
    | with_reducible assumption | with_reducible apply keeps_freeCtx | with_reducible apply keeps_foldl
    | with_reducible apply keeps2_foldl | (with_reducible intro _; beta_reduce)
    | with_reducible refine Keeps2.of (by assumption) ?_ | with_reducible apply Keeps2.snd
    | (extract_lets +onlyGivenNames x; refine @Keeps.cut r o _ x ?_ (fun hx => ?_); rotate_left; clear_value x; rotate_right; dsimp -zeta only [x])
    | (extract_lets +onlyGivenNames x; clear_value x) | split

end Sys2Proof.Machine
end

