-- ==== Sys2Proof/Laws/KeepKeys.lean ====
section
/-! SUPPORT. What each operation of Machine/Keys.lean may change. -/

set_option linter.unusedTactic false
set_option linter.unreachableTactic false

namespace Sys2Proof.Machine

variable {r : Part → Prop} {o s : State}

theorem keeps_setTable (t' : Tbl (List (Option Slot))) (h : Keeps r o s) (c_idx : r .idx) (c_flt : r .flt) (c_FLT_SWATCH_CTL_ARM : r (.reg Reg.FLT_SWATCH_CTL_ARM.addr)) :
    Keeps r o (State.setTable s t') := by
  unfold State.setTable
  repeat' first
    | with_reducible assumption | with_reducible apply keeps_onIdx | with_reducible apply keeps_storageWritten

theorem keeps_tableInsert (r' : DirRec) (h : Keeps r o s) (c_idx : r .idx) (c_flt : r .flt) (c_FLT_SWATCH_CTL_ARM : r (.reg Reg.FLT_SWATCH_CTL_ARM.addr)) :
    KeepsO r o (State.tableInsert s r') := by
  unfold State.tableInsert
  repeat' first
    | with_reducible exact KeepsO.none | with_reducible apply KeepsO.mk | with_reducible apply keepsO_map
    | with_reducible assumption | with_reducible apply keeps_setTable | with_reducible apply keeps_foldl
    | with_reducible apply keeps2_foldl | (with_reducible intro _; beta_reduce)
    | with_reducible refine Keeps2.of (by assumption) ?_ | with_reducible apply Keeps2.snd
    | (extract_lets +onlyGivenNames x; refine @Keeps.cut r o _ x ?_ (fun hx => ?_); rotate_left; clear_value x; rotate_right; dsimp -zeta only [x])
    | (extract_lets +onlyGivenNames x; clear_value x) | split

theorem keeps_tableRemove (kh : W64) (key : Bytes) (h : Keeps r o s) (c_idx : r .idx) (c_flt : r .flt) (c_FLT_SWATCH_CTL_ARM : r (.reg Reg.FLT_SWATCH_CTL_ARM.addr)) :
    Keeps r o (State.tableRemove s kh key) := by
  unfold State.tableRemove
  repeat' first
    | with_reducible assumption | with_reducible apply keeps_setTable

theorem keeps_enterChange (c : MChange) (h : Keeps r o s) (c_idx : r .idx) :
    Keeps r o (State.enterChange s c) := by
  unfold State.enterChange
  repeat' first
    | with_reducible assumption | with_reducible apply keeps_onIdx

theorem keeps_queueMirror (c : MChange) (h : Keeps r o s) (c_idx : r .idx) :
    Keeps r o (State.queueMirror s c) := by
  unfold State.queueMirror
  repeat' first
    | with_reducible assumption | with_reducible apply keeps_enterChange | with_reducible apply keeps_onIdx
    | with_reducible apply keeps_foldl | with_reducible apply keeps2_foldl | (with_reducible intro _; beta_reduce)
    | with_reducible refine Keeps2.of (by assumption) ?_ | with_reducible apply Keeps2.snd
    | (extract_lets +onlyGivenNames x; refine @Keeps.cut r o _ x ?_ (fun hx => ?_); rotate_left; clear_value x; rotate_right; dsimp -zeta only [x])
    | (extract_lets +onlyGivenNames x; clear_value x) | split

theorem keeps_admitChange (h : Keeps r o s) (c_idx : r .idx) :
    Keeps r o (State.admitChange s) := by
  unfold State.admitChange
  repeat' first
    | with_reducible assumption | with_reducible apply keeps_enterChange | with_reducible apply keeps_onIdx
    | with_reducible apply keeps_foldl | with_reducible apply keeps2_foldl | (with_reducible intro _; beta_reduce)
    | with_reducible refine Keeps2.of (by assumption) ?_ | with_reducible apply Keeps2.snd
    | (extract_lets +onlyGivenNames x; refine @Keeps.cut r o _ x ?_ (fun hx => ?_); rotate_left; clear_value x; rotate_right; dsimp -zeta only [x])
    | (extract_lets +onlyGivenNames x; clear_value x) | split

theorem keeps_dropPins (kh : W64) (key : Bytes) (h : Keeps r o s) (c_idx : r .idx) :
    Keeps r o (State.dropPins s kh key) := by
  unfold State.dropPins
  repeat' first
    | with_reducible assumption | with_reducible apply keeps_onIdx

theorem keeps_setUsage (t' : ℕ) (u : Usage) (h : Keeps r o s) (c_sch : r .sch) :
    Keeps r o (State.setUsage s t' u) := by
  unfold State.setUsage
  repeat' first
    | with_reducible assumption | with_reducible apply keeps_onSch

theorem keeps_addUsage (t' : ℕ) (bytes : ℤ) (keys : ℤ) (pins : ℤ) (h : Keeps r o s) (c_sch : r .sch) :
    Keeps r o (State.addUsage s t' bytes keys pins) := by
  unfold State.addUsage
  repeat' first
    | with_reducible assumption | with_reducible apply keeps_setUsage

theorem keeps_finishRebuild (h : Keeps r o s) (c_idx : r .idx) (c_rings : r .rings) (c_dram : r .dram) (c_flt : r .flt) (c_FLT_SWATCH_CTL_ARM : r (.reg Reg.FLT_SWATCH_CTL_ARM.addr)) :
    Keeps r o (State.finishRebuild s) := by
  unfold State.finishRebuild
  repeat' first
    | with_reducible assumption | with_reducible apply keeps_onIdx | with_reducible apply keeps_finish
    | with_reducible apply keeps_foldl | with_reducible apply keeps2_foldl | (with_reducible intro _; beta_reduce)

theorem keeps_setMark (h : Keeps r o s) (c_idx : r .idx) (c_rings : r .rings) (c_dram : r .dram) (c_flt : r .flt) (c_FLT_SWATCH_CTL_ARM : r (.reg Reg.FLT_SWATCH_CTL_ARM.addr)) :
    Keeps r o (State.setMark s) := by
  unfold State.setMark
  repeat' first
    | with_reducible assumption | with_reducible apply keeps_onIdx | with_reducible apply keeps_finishRebuild
    | with_reducible apply keeps_foldl | with_reducible apply keeps2_foldl | (with_reducible intro _; beta_reduce)
    | with_reducible refine Keeps2.of (by assumption) ?_ | with_reducible apply Keeps2.snd
    | (extract_lets +onlyGivenNames x; refine @Keeps.cut r o _ x ?_ (fun hx => ?_); rotate_left; clear_value x; rotate_right; dsimp -zeta only [x])
    | (extract_lets +onlyGivenNames x; clear_value x) | split

theorem keeps_markAgain (h : Keeps r o s) (c_idx : r .idx) (c_rings : r .rings) (c_dram : r .dram) (c_flt : r .flt) (c_FLT_SWATCH_CTL_ARM : r (.reg Reg.FLT_SWATCH_CTL_ARM.addr)) :
    Keeps r o (State.markAgain s) := by
  unfold State.markAgain
  repeat' first
    | with_reducible assumption | with_reducible apply keeps_setMark | with_reducible apply keeps_foldl
    | with_reducible apply keeps2_foldl | (with_reducible intro _; beta_reduce)
    | with_reducible refine Keeps2.of (by assumption) ?_ | with_reducible apply Keeps2.snd
    | (extract_lets +onlyGivenNames x; refine @Keeps.cut r o _ x ?_ (fun hx => ?_); rotate_left; clear_value x; rotate_right; dsimp -zeta only [x])
    | (extract_lets +onlyGivenNames x; clear_value x) | split

theorem keeps_noPlace (kh : W64) (h : Keeps r o s) (c_idx : r .idx) (c_flt : r .flt) :
    Keeps r o (State.noPlace s kh) := by
  unfold State.noPlace
  repeat' first
    | with_reducible assumption | with_reducible apply keeps_onIdx | with_reducible apply keeps_raise

theorem keeps_insertSlot (r' : DirRec) (h : Keeps r o s) (c_idx : r .idx) (c_flt : r .flt) (c_FLT_SWATCH_CTL_ARM : r (.reg Reg.FLT_SWATCH_CTL_ARM.addr)) :
    Keeps r o (State.insertSlot s r') := by
  unfold State.insertSlot
  repeat' first
    | with_reducible assumption | with_reducible apply keeps_onIdx | with_reducible apply keeps_tableInsert
    | with_reducible apply keeps_noPlace | with_reducible apply keeps_foldl | with_reducible apply keeps2_foldl
    | (with_reducible intro _; beta_reduce) | with_reducible refine Keeps2.of (by assumption) ?_
    | with_reducible apply Keeps2.snd | with_reducible refine KeepsO.of (by assumption) ?_
    | with_reducible apply keeps_getD
    | (extract_lets +onlyGivenNames x; refine @Keeps.cut r o _ x ?_ (fun hx => ?_); rotate_left; clear_value x; rotate_right; dsimp -zeta only [x])
    | (extract_lets +onlyGivenNames x; refine @KeepsO.cut r o _ x ?_ (fun hx => ?_); rotate_left; clear_value x; rotate_right; dsimp -zeta only [x])
    | (extract_lets +onlyGivenNames x; clear_value x) | split

theorem keeps_moveRecord (old : Option DirRec) (r' : DirRec) (h : Keeps r o s) (c_idx : r .idx) (c_ldg : r .ldg) (c_ftl : r .ftl) (c_rings : r .rings) (c_dram : r .dram) (c_flt : r .flt) (c_FLT_SWATCH_CTL_ARM : r (.reg Reg.FLT_SWATCH_CTL_ARM.addr)) (c_LDG_GAUGE_STAT_FALLBACKS : r (.reg Reg.LDG_GAUGE_STAT_FALLBACKS.addr)) :
    Keeps r o (State.moveRecord s old r') := by
  unfold State.moveRecord
  repeat' first
    | with_reducible assumption | with_reducible apply keeps_releaseLoc | with_reducible apply keeps_onIdx
    | with_reducible apply keeps_insertSlot | with_reducible apply keeps_markAgain
    | with_reducible apply keeps_queueMirror | with_reducible apply keeps_foldl | with_reducible apply keeps2_foldl
    | (with_reducible intro _; beta_reduce) | with_reducible refine Keeps2.of (by assumption) ?_
    | with_reducible apply Keeps2.snd
    | (extract_lets +onlyGivenNames x; refine @Keeps.cut r o _ x ?_ (fun hx => ?_); rotate_left; clear_value x; rotate_right; dsimp -zeta only [x])
    | (extract_lets +onlyGivenNames x; clear_value x) | split

theorem keeps_writeRecord (r' : DirRec) (h : Keeps r o s) (c_idx : r .idx) (c_ldg : r .ldg) (c_ftl : r .ftl) (c_rings : r .rings) (c_dram : r .dram) (c_flt : r .flt) (c_FLT_SWATCH_CTL_ARM : r (.reg Reg.FLT_SWATCH_CTL_ARM.addr)) (c_LDG_GAUGE_STAT_FALLBACKS : r (.reg Reg.LDG_GAUGE_STAT_FALLBACKS.addr)) :
    Keeps r o (State.writeRecord s r') := by
  unfold State.writeRecord
  repeat' first
    | with_reducible assumption | with_reducible apply keeps_stageLines | with_reducible apply keeps_moveRecord
    | with_reducible apply keeps_putLines | with_reducible apply keeps_foldl | with_reducible apply keeps2_foldl
    | (with_reducible intro _; beta_reduce) | with_reducible refine Keeps2.of (by assumption) ?_
    | with_reducible apply Keeps2.snd

theorem keeps_removeRecord (r' : DirRec) (h : Keeps r o s) (c_idx : r .idx) (c_ldg : r .ldg) (c_ftl : r .ftl) (c_rings : r .rings) (c_dram : r .dram) (c_flt : r .flt) (c_FLT_SWATCH_CTL_ARM : r (.reg Reg.FLT_SWATCH_CTL_ARM.addr)) (c_LDG_GAUGE_STAT_FALLBACKS : r (.reg Reg.LDG_GAUGE_STAT_FALLBACKS.addr)) :
    Keeps r o (State.removeRecord s r') := by
  unfold State.removeRecord
  repeat' first
    | with_reducible assumption | with_reducible apply keeps_releaseLoc | with_reducible apply keeps_onIdx
    | with_reducible apply keeps_markAgain | with_reducible apply keeps_tableRemove

theorem keeps_commitLine (kind : ℕ) (r' : DirRec) (version : ℕ) (owner : ℕ) (h : Keeps r o s) (c_ldg : r .ldg) :
    Keeps r o (State.commitLine s kind r' version owner) := by
  unfold State.commitLine
  repeat' first
    | with_reducible assumption | with_reducible apply keeps_journal

theorem keeps_pinRefused (kh : W64) (tag : ℕ) (reason : ℕ) (h : Keeps r o s) (c_flt : r .flt) :
    Keeps r o (State.pinRefused s kh tag reason) := by
  unfold State.pinRefused
  repeat' first
    | with_reducible assumption | with_reducible apply keeps_raise

end Sys2Proof.Machine
end

