-- ==== Sys2Proof/Laws/KeepIndex.lean ====
section
/-! SUPPORT. What each operation of Machine/Index.lean may change. -/

set_option linter.unusedTactic false
set_option linter.unreachableTactic false

namespace Sys2Proof.Machine

variable {r : Part → Prop} {o s : State}

theorem keeps_indexRecord (r' : DirRec) (h : Keeps r o s) (c_idx : r .idx) (c_flt : r .flt) (c_FLT_SWATCH_CTL_ARM : r (.reg Reg.FLT_SWATCH_CTL_ARM.addr)) :
    Keeps r o (State.indexRecord s r') := by
  unfold State.indexRecord
  repeat' first
    | with_reducible assumption | with_reducible apply keeps_onIdx | with_reducible apply keeps_insertSlot
    | with_reducible apply keeps_foldl | with_reducible apply keeps2_foldl | (with_reducible intro _; beta_reduce)
    | with_reducible refine Keeps2.of (by assumption) ?_ | with_reducible apply Keeps2.snd
    | (extract_lets +onlyGivenNames x; refine @Keeps.cut r o _ x ?_ (fun hx => ?_); rotate_left; clear_value x; rotate_right; dsimp -zeta only [x])
    | (extract_lets +onlyGivenNames x; clear_value x) | split

theorem keeps_rebuildFrom (table : Bool) (mirror : Bool) (ds : List Dir) (h : Keeps r o s) (c_idx : r .idx) (c_rings : r .rings) (c_dram : r .dram) (c_flt : r .flt) (c_FLT_SWATCH_CTL_ARM : r (.reg Reg.FLT_SWATCH_CTL_ARM.addr)) :
    Keeps r o (State.rebuildFrom s table mirror ds) := by
  unfold State.rebuildFrom
  repeat' first
    | with_reducible assumption | with_reducible apply keeps_setMark | with_reducible apply keeps_onIdx
    | with_reducible apply keeps_indexRecord | with_reducible apply keeps_foldl | with_reducible apply keeps2_foldl
    | (with_reducible intro _; beta_reduce)

theorem keeps_startRebuild (ds : List Dir) (h : Keeps r o s) (c_idx : r .idx) (c_rings : r .rings) (c_dram : r .dram) (c_flt : r .flt) (c_FLT_SWATCH_CTL_ARM : r (.reg Reg.FLT_SWATCH_CTL_ARM.addr)) :
    Keeps r o (State.startRebuild s ds) := by
  unfold State.startRebuild
  repeat' first
    | with_reducible assumption | with_reducible apply keeps_rebuildFrom

theorem keeps_walkWord (sb : ℕ) (q : ℕ) (h : Keeps r o s) (c_idx : r .idx) (c_rings : r .rings) (c_dram : r .dram) (c_flt : r .flt) (c_FLT_SWATCH_CTL_ARM : r (.reg Reg.FLT_SWATCH_CTL_ARM.addr)) :
    Keeps r o (State.walkWord s sb q) := by
  unfold State.walkWord
  repeat' first
    | with_reducible assumption | with_reducible apply keeps_setMark | with_reducible apply keeps_onIdx
    | with_reducible apply keeps_indexRecord | with_reducible apply keeps_foldl | with_reducible apply keeps2_foldl
    | (with_reducible intro _; beta_reduce) | with_reducible refine Keeps2.of (by assumption) ?_
    | with_reducible apply Keeps2.snd
    | (extract_lets +onlyGivenNames x; refine @Keeps.cut r o _ x ?_ (fun hx => ?_); rotate_left; clear_value x; rotate_right; dsimp -zeta only [x])
    | (extract_lets +onlyGivenNames x; clear_value x) | split

theorem keeps_poisonBucket (b : ℕ) (h : Keeps r o s) (c_idx : r .idx) (c_rings : r .rings) (c_dram : r .dram) (c_flt : r .flt) (c_FLT_SWATCH_CTL_ARM : r (.reg Reg.FLT_SWATCH_CTL_ARM.addr)) :
    Keeps r o (State.poisonBucket s b) := by
  unfold State.poisonBucket
  repeat' first
    | with_reducible assumption | with_reducible apply keeps_onIdx | with_reducible apply keeps_raise
    | with_reducible apply keeps_startRebuild | with_reducible apply keeps_foldl | with_reducible apply keeps2_foldl
    | (with_reducible intro _; beta_reduce) | with_reducible refine Keeps2.of (by assumption) ?_
    | with_reducible apply Keeps2.snd
    | (extract_lets +onlyGivenNames x; refine @Keeps.cut r o _ x ?_ (fun hx => ?_); rotate_left; clear_value x; rotate_right; dsimp -zeta only [x])
    | (extract_lets +onlyGivenNames x; clear_value x) | split

theorem keeps_repairMirror (copy : ℕ) (b : ℕ) (h : Keeps r o s) (c_idx : r .idx) (c_flt : r .flt) :
    Keeps r o (State.repairMirror s copy b) := by
  unfold State.repairMirror
  repeat' first
    | with_reducible assumption | with_reducible apply keeps_onIdx | with_reducible apply keeps_raise

theorem keeps_bucketError (b : ℕ) (h : Keeps r o s) (c_idx : r .idx) (c_rings : r .rings) (c_dram : r .dram) (c_flt : r .flt) (c_FLT_SWATCH_CTL_ARM : r (.reg Reg.FLT_SWATCH_CTL_ARM.addr)) :
    Keeps r o (State.bucketError s b) := by
  unfold State.bucketError
  repeat' first
    | with_reducible assumption | with_reducible apply keeps_repairMirror | with_reducible apply keeps_poisonBucket
    | with_reducible apply keeps_foldl | with_reducible apply keeps2_foldl | (with_reducible intro _; beta_reduce)
    | with_reducible refine Keeps2.of (by assumption) ?_ | with_reducible apply Keeps2.snd
    | (extract_lets +onlyGivenNames x; refine @Keeps.cut r o _ x ?_ (fun hx => ?_); rotate_left; clear_value x; rotate_right; dsimp -zeta only [x])
    | (extract_lets +onlyGivenNames x; clear_value x) | split

theorem keeps_markPin (r' : DirRec) (pinned : Bool) (h : Keeps r o s) (c_sch : r .sch) (c_idx : r .idx) (c_ldg : r .ldg) (c_ftl : r .ftl) (c_rings : r .rings) (c_dram : r .dram) (c_flt : r .flt) (c_FLT_SWATCH_CTL_ARM : r (.reg Reg.FLT_SWATCH_CTL_ARM.addr)) (c_LDG_GAUGE_STAT_FALLBACKS : r (.reg Reg.LDG_GAUGE_STAT_FALLBACKS.addr)) :
    Keeps r o (State.markPin s r' pinned) := by
  unfold State.markPin
  repeat' first
    | with_reducible assumption | with_reducible apply keeps_drawMeta | with_reducible apply keeps_writeRecord
    | with_reducible apply keeps_commitLine | with_reducible apply keeps_addUsage

theorem keeps_pinDone (d : Option Dir) (outcome : ℕ) (h : Keeps r o s) (c_rings : r .rings) (c_dram : r .dram) (c_flt : r .flt) (c_FLT_SWATCH_CTL_ARM : r (.reg Reg.FLT_SWATCH_CTL_ARM.addr)) :
    Keeps r o (State.pinDone s d outcome) := by
  unfold State.pinDone
  repeat' first
    | with_reducible assumption | with_reducible apply keeps_finish | with_reducible apply keeps_foldl
    | with_reducible apply keeps2_foldl | (with_reducible intro _; beta_reduce)
    | with_reducible refine Keeps2.of (by assumption) ?_ | with_reducible apply Keeps2.snd
    | (extract_lets +onlyGivenNames x; refine @Keeps.cut r o _ x ?_ (fun hx => ?_); rotate_left; clear_value x; rotate_right; dsimp -zeta only [x])
    | (extract_lets +onlyGivenNames x; clear_value x) | split

theorem keeps_pinNow (c : MChange) (kh : W64) (key : Bytes) (tag : ℕ) (d : Option Dir) (gone : Bool) (h : Keeps r o s) (c_sch : r .sch) (c_idx : r .idx) (c_ldg : r .ldg) (c_ftl : r .ftl) (c_rings : r .rings) (c_dram : r .dram) (c_flt : r .flt) (c_FLT_SWATCH_CTL_ARM : r (.reg Reg.FLT_SWATCH_CTL_ARM.addr)) (c_LDG_GAUGE_STAT_FALLBACKS : r (.reg Reg.LDG_GAUGE_STAT_FALLBACKS.addr)) :
    Keeps r o (State.pinNow s c kh key tag d gone) := by
  unfold State.pinNow
  repeat' first
    | with_reducible assumption | with_reducible apply keeps_pinRefused | with_reducible apply keeps_onIdx
    | with_reducible apply keeps_pinDone | with_reducible apply keeps_markPin | with_reducible apply keeps_foldl
    | with_reducible apply keeps2_foldl | (with_reducible intro _; beta_reduce)
    | with_reducible refine Keeps2.of (by assumption) ?_ | with_reducible apply Keeps2.snd
    | (extract_lets +onlyGivenNames x; refine @Keeps.cut r o _ x ?_ (fun hx => ?_); rotate_left; clear_value x; rotate_right; dsimp -zeta only [x])
    | (extract_lets +onlyGivenNames x; clear_value x) | split

theorem keeps_unmirror (kh : W64) (key : Bytes) (h : Keeps r o s) (c_idx : r .idx) :
    Keeps r o (State.unmirror s kh key) := by
  unfold State.unmirror
  repeat' first
    | with_reducible assumption | with_reducible apply keeps_onIdx

theorem keeps_unpinNow (kh : W64) (key : Bytes) (d : Option Dir) (h : Keeps r o s) (c_sch : r .sch) (c_idx : r .idx) (c_ldg : r .ldg) (c_ftl : r .ftl) (c_rings : r .rings) (c_dram : r .dram) (c_flt : r .flt) (c_FLT_SWATCH_CTL_ARM : r (.reg Reg.FLT_SWATCH_CTL_ARM.addr)) (c_LDG_GAUGE_STAT_FALLBACKS : r (.reg Reg.LDG_GAUGE_STAT_FALLBACKS.addr)) :
    Keeps r o (State.unpinNow s kh key d) := by
  unfold State.unpinNow
  repeat' first
    | with_reducible assumption | with_reducible apply keeps_onIdx | with_reducible apply keeps_pinDone
    | with_reducible apply keeps_markPin | with_reducible apply keeps_foldl | with_reducible apply keeps2_foldl
    | (with_reducible intro _; beta_reduce) | with_reducible refine Keeps2.of (by assumption) ?_
    | with_reducible apply Keeps2.snd
    | (extract_lets +onlyGivenNames x; refine @Keeps.cut r o _ x ?_ (fun hx => ?_); rotate_left; clear_value x; rotate_right; dsimp -zeta only [x])
    | (extract_lets +onlyGivenNames x; clear_value x) | split

theorem keeps_execUnpin (d : Dir) (key : Bytes) (h : Keeps r o s) (c_idx : r .idx) (c_rings : r .rings) (c_dram : r .dram) (c_flt : r .flt) (c_FLT_SWATCH_CTL_ARM : r (.reg Reg.FLT_SWATCH_CTL_ARM.addr)) :
    KeepsN r o (execUnpin d key s) := by
  unfold execUnpin
  repeat' first
    | with_reducible apply KeepsN.mk | with_reducible apply KeepsN.fault | with_reducible assumption
    | with_reducible apply keeps_finish | with_reducible apply keeps_setUp | with_reducible apply keeps_queueMirror
    | with_reducible apply keeps_foldl | with_reducible apply keeps2_foldl | (with_reducible intro _; beta_reduce)
    | with_reducible refine Keeps2.of (by assumption) ?_ | with_reducible apply Keeps2.snd
    | (extract_lets +onlyGivenNames x; refine @Keeps.cut r o _ x ?_ (fun hx => ?_); rotate_left; clear_value x; rotate_right; dsimp -zeta only [x])
    | (extract_lets +onlyGivenNames x; clear_value x) | split

theorem keeps_execPin (d : Dir) (key : Bytes) (h : Keeps r o s) (c_idx : r .idx) (c_rings : r .rings) (c_dram : r .dram) (c_flt : r .flt) (c_FLT_SWATCH_CTL_ARM : r (.reg Reg.FLT_SWATCH_CTL_ARM.addr)) :
    KeepsN r o (execPin d key s) := by
  unfold execPin
  repeat' first
    | with_reducible apply KeepsN.mk | with_reducible apply KeepsN.fault | with_reducible assumption
    | with_reducible apply keeps_pinRefused | with_reducible apply keeps_finish | with_reducible apply keeps_setUp
    | with_reducible apply keeps_queueMirror | with_reducible apply keeps_foldl | with_reducible apply keeps2_foldl
    | (with_reducible intro _; beta_reduce) | with_reducible refine Keeps2.of (by assumption) ?_
    | with_reducible apply Keeps2.snd
    | (extract_lets +onlyGivenNames x; refine @Keeps.cut r o _ x ?_ (fun hx => ?_); rotate_left; clear_value x; rotate_right; dsimp -zeta only [x])
    | (extract_lets +onlyGivenNames x; clear_value x) | split

theorem keeps_execRebuild (d : Dir) (h : Keeps r o s) (c_idx : r .idx) (c_rings : r .rings) (c_dram : r .dram) (c_flt : r .flt) (c_FLT_SWATCH_CTL_ARM : r (.reg Reg.FLT_SWATCH_CTL_ARM.addr)) :
    KeepsN r o (execRebuild d s) := by
  unfold execRebuild
  repeat' first
    | with_reducible apply KeepsN.mk | with_reducible apply KeepsN.fault | with_reducible assumption
    | with_reducible apply keeps_setUp | with_reducible apply keeps_startRebuild | with_reducible apply keeps_foldl
    | with_reducible apply keeps2_foldl | (with_reducible intro _; beta_reduce)

theorem keeps_execRepairPoison (d : Dir) (h : Keeps r o s) (c_idx : r .idx) (c_rings : r .rings) (c_dram : r .dram) (c_flt : r .flt) (c_FLT_SWATCH_CTL_ARM : r (.reg Reg.FLT_SWATCH_CTL_ARM.addr)) :
    KeepsN r o (execRepairPoison d s) := by
  unfold execRepairPoison
  repeat' first
    | with_reducible apply KeepsN.mk | with_reducible apply KeepsN.fault | with_reducible assumption
    | with_reducible apply keeps_onIdx | with_reducible apply keeps_finish | with_reducible apply keeps_setUp
    | with_reducible apply keeps_foldl | with_reducible apply keeps2_foldl | (with_reducible intro _; beta_reduce)

theorem keeps_execMirrorScrub (d : Dir) (h : Keeps r o s) (c_idx : r .idx) (c_rings : r .rings) (c_dram : r .dram) (c_flt : r .flt) (c_FLT_SWATCH_CTL_ARM : r (.reg Reg.FLT_SWATCH_CTL_ARM.addr)) :
    KeepsN r o (execMirrorScrub d s) := by
  unfold execMirrorScrub
  repeat' first
    | with_reducible apply KeepsN.mk | with_reducible apply KeepsN.fault | with_reducible assumption
    | with_reducible apply keeps_onIdx | with_reducible apply keeps_guardStep | with_reducible apply keeps_finish
    | with_reducible apply keeps_setUp | with_reducible apply keeps_foldl | with_reducible apply keeps2_foldl
    | (with_reducible intro _; beta_reduce)

end Sys2Proof.Machine
end

