-- ==== Sys2Proof/Laws/KeepMatch.lean ====
section
/-! SUPPORT. What each operation of Machine/Match.lean may change. -/

set_option linter.unusedTactic false
set_option linter.unreachableTactic false

namespace Sys2Proof.Machine

variable {r : Part → Prop} {o s : State}

theorem keeps_dieWrite (p : ℕ) (r' : Rule) (h : Keeps r o s) (c_mch : r .mch) (c_flt : r .flt) (c_FLT_SWATCH_CTL_ARM : r (.reg Reg.FLT_SWATCH_CTL_ARM.addr)) :
    Keeps r o (State.dieWrite s p r') := by
  unfold State.dieWrite
  repeat' first
    | with_reducible assumption | with_reducible apply keeps_swatch | with_reducible apply keeps_onMch
    | with_reducible apply keeps_foldl | with_reducible apply keeps2_foldl | (with_reducible intro _; beta_reduce)
    | with_reducible refine Keeps2.of (by assumption) ?_ | with_reducible apply Keeps2.snd

theorem keeps_loaded (h : Keeps r o s) (c_MCH_STATUS_EPOCH : r (.reg Reg.MCH_STATUS_EPOCH.addr)) :
    Keeps r o (State.loaded s) := by
  unfold State.loaded
  repeat' first
    | with_reducible assumption | exact c_MCH_STATUS_EPOCH | with_reducible apply keeps_setFld

theorem keeps_putRule (p : ℕ) (r' : Rule) (h : Keeps r o s) (c_mch : r .mch) (c_flt : r .flt) (c_FLT_SWATCH_CTL_ARM : r (.reg Reg.FLT_SWATCH_CTL_ARM.addr)) :
    Keeps r o (State.putRule s p r') := by
  unfold State.putRule
  repeat' first
    | with_reducible assumption | with_reducible apply keeps_onMch | with_reducible apply keeps_dieWrite

theorem keeps_dropRule (p : ℕ) (h : Keeps r o s) (c_mch : r .mch) :
    Keeps r o (State.dropRule s p) := by
  unfold State.dropRule
  repeat' first
    | with_reducible assumption | with_reducible apply keeps_onMch

theorem keeps_repairRule (p : ℕ) (h : Keeps r o s) (c_mch : r .mch) (c_flt : r .flt) (c_FLT_SWATCH_CTL_ARM : r (.reg Reg.FLT_SWATCH_CTL_ARM.addr)) (c_MCH_ERR_STAT_SCRUB_FIXES : r (.reg Reg.MCH_ERR_STAT_SCRUB_FIXES.addr)) :
    Keeps r o (State.repairRule s p) := by
  unfold State.repairRule
  repeat' first
    | with_reducible assumption | exact c_FLT_SWATCH_CTL_ARM | exact c_MCH_ERR_STAT_SCRUB_FIXES
    | with_reducible apply keeps_bump | with_reducible apply keeps_raise | with_reducible apply keeps_dieWrite
    | with_reducible apply keeps_foldl | with_reducible apply keeps2_foldl | (with_reducible intro _; beta_reduce)
    | with_reducible refine Keeps2.of (by assumption) ?_ | with_reducible apply Keeps2.snd
    | (extract_lets +onlyGivenNames x; refine @Keeps.cut r o _ x ?_ (fun hx => ?_); rotate_left; clear_value x; rotate_right; dsimp -zeta only [x])
    | (extract_lets +onlyGivenNames x; clear_value x) | split

theorem keeps_search (word : List (BitVec 320)) (start : ℕ) (mask : ℕ) (y4 : ℕ) (h : Keeps r o s) (c_mch : r .mch) (c_flt : r .flt) (c_FLT_SWATCH_CTL_ARM : r (.reg Reg.FLT_SWATCH_CTL_ARM.addr)) (c_MCH_ERR_STAT_SCRUB_FIXES : r (.reg Reg.MCH_ERR_STAT_SCRUB_FIXES.addr)) :
    Keeps2 r o (State.search s word start mask y4) := by
  induction y4 generalizing s word start mask with
  | zero =>
    unfold State.search
    repeat' first
      | with_reducible assumption | with_reducible apply ih | with_reducible apply keeps_repairRule
      | with_reducible apply keeps_foldl | with_reducible apply keeps2_foldl | (with_reducible intro _; beta_reduce)
      | with_reducible refine Keeps2.of (by assumption) ?_ | with_reducible apply Keeps2.snd
      | (extract_lets +onlyGivenNames x; refine @Keeps.cut r o _ x ?_ (fun hx => ?_); rotate_left; clear_value x; rotate_right; dsimp -zeta only [x])
      | (extract_lets +onlyGivenNames x; clear_value x) | split | with_reducible apply Keeps2.mk
  | succ _ ih =>
    unfold State.search
    repeat' first
      | with_reducible assumption | with_reducible apply ih | with_reducible apply keeps_repairRule
      | with_reducible apply keeps_foldl | with_reducible apply keeps2_foldl | (with_reducible intro _; beta_reduce)
      | with_reducible refine Keeps2.of (by assumption) ?_ | with_reducible apply Keeps2.snd
      | (extract_lets +onlyGivenNames x; refine @Keeps.cut r o _ x ?_ (fun hx => ?_); rotate_left; clear_value x; rotate_right; dsimp -zeta only [x])
      | (extract_lets +onlyGivenNames x; clear_value x) | split | with_reducible apply Keeps2.mk

theorem keeps_grantSearch (express : Bool) (requester : ℕ) (h : Keeps r o s) (c_mch : r .mch) :
    Keeps r o (State.grantSearch s express requester) := by
  unfold State.grantSearch
  repeat' first
    | with_reducible assumption | with_reducible apply keeps_onMch | with_reducible apply keeps_foldl
    | with_reducible apply keeps2_foldl | (with_reducible intro _; beta_reduce)
    | with_reducible refine Keeps2.of (by assumption) ?_ | with_reducible apply Keeps2.snd
    | (extract_lets +onlyGivenNames x; refine @Keeps.cut r o _ x ?_ (fun hx => ?_); rotate_left; clear_value x; rotate_right; dsimp -zeta only [x])
    | (extract_lets +onlyGivenNames x; clear_value x) | split

theorem keeps_matchParity (parity : List ℕ) (h : Keeps r o s) (c_flt : r .flt) :
    Keeps r o (State.matchParity s parity) := by
  unfold State.matchParity
  repeat' first
    | with_reducible assumption | with_reducible apply keeps_raise | with_reducible apply keeps_foldl
    | with_reducible apply keeps2_foldl | (with_reducible intro _; beta_reduce)
    | with_reducible refine Keeps2.of (by assumption) ?_ | with_reducible apply Keeps2.snd
    | (extract_lets +onlyGivenNames x; refine @Keeps.cut r o _ x ?_ (fun hx => ?_); rotate_left; clear_value x; rotate_right; dsimp -zeta only [x])
    | (extract_lets +onlyGivenNames x; clear_value x) | split

theorem keeps_policyOf (tenant : ℕ) (key : Bytes) (h : Keeps r o s) (c_mch : r .mch) (c_flt : r .flt) (c_FLT_SWATCH_CTL_ARM : r (.reg Reg.FLT_SWATCH_CTL_ARM.addr)) (c_MCH_ERR_STAT_SCRUB_FIXES : r (.reg Reg.MCH_ERR_STAT_SCRUB_FIXES.addr)) :
    Keeps2 r o (State.policyOf s tenant key) := by
  unfold State.policyOf
  repeat' first
    | with_reducible assumption | with_reducible apply keeps_search | with_reducible apply keeps_foldl
    | with_reducible apply keeps2_foldl | (with_reducible intro _; beta_reduce)
    | with_reducible refine Keeps2.of (by assumption) ?_ | with_reducible apply Keeps2.snd
    | (extract_lets +onlyGivenNames x; refine @Keeps.cut r o _ x ?_ (fun hx => ?_); rotate_left; clear_value x; rotate_right; dsimp -zeta only [x])
    | (extract_lets +onlyGivenNames x; refine @Keeps2.cut r o _ _ x ?_ (fun hx => ?_); rotate_left; clear_value x; rotate_right; dsimp -zeta only [x])
    | (extract_lets +onlyGivenNames x; clear_value x) | split | with_reducible apply Keeps2.mk

theorem keeps_moveShift (h' : Shift) (moves : ℕ) (h : Keeps r o s) (c_mch : r .mch) (c_flt : r .flt) (c_FLT_SWATCH_CTL_ARM : r (.reg Reg.FLT_SWATCH_CTL_ARM.addr)) :
    Keeps r o (State.moveShift s h' moves) := by
  unfold State.moveShift
  repeat' first
    | with_reducible assumption | with_reducible apply keeps_onMch | with_reducible apply keeps_dieWrite
    | with_reducible apply keeps_foldl | with_reducible apply keeps2_foldl | (with_reducible intro _; beta_reduce)
    | with_reducible refine Keeps2.of (by assumption) ?_ | with_reducible apply Keeps2.snd
    | (extract_lets +onlyGivenNames x; refine @Keeps.cut r o _ x ?_ (fun hx => ?_); rotate_left; clear_value x; rotate_right; dsimp -zeta only [x])
    | (extract_lets +onlyGivenNames x; clear_value x) | split

theorem keeps_finishShift (h' : Shift) (h : Keeps r o s) (c_mch : r .mch) (c_flt : r .flt) (c_FLT_SWATCH_CTL_ARM : r (.reg Reg.FLT_SWATCH_CTL_ARM.addr)) :
    Keeps r o (State.finishShift s h') := by
  unfold State.finishShift
  repeat' first
    | with_reducible assumption | with_reducible apply keeps_onMch | with_reducible apply keeps_moveShift
    | with_reducible apply keeps_putRule

theorem keeps_shiftTick (h : Keeps r o s) (c_mch : r .mch) (c_flt : r .flt) (c_FLT_SWATCH_CTL_ARM : r (.reg Reg.FLT_SWATCH_CTL_ARM.addr)) :
    Keeps r o (State.shiftTick s) := by
  unfold State.shiftTick
  repeat' first
    | with_reducible assumption | with_reducible apply keeps_moveShift | with_reducible apply keeps_foldl
    | with_reducible apply keeps2_foldl | (with_reducible intro _; beta_reduce)
    | with_reducible refine Keeps2.of (by assumption) ?_ | with_reducible apply Keeps2.snd
    | (extract_lets +onlyGivenNames x; refine @Keeps.cut r o _ x ?_ (fun hx => ?_); rotate_left; clear_value x; rotate_right; dsimp -zeta only [x])
    | (extract_lets +onlyGivenNames x; clear_value x) | split

theorem keeps_reloadRules (h : Keeps r o s) (c_mch : r .mch) (c_flt : r .flt) (c_FLT_SWATCH_CTL_ARM : r (.reg Reg.FLT_SWATCH_CTL_ARM.addr)) (c_MCH_STATUS_EPOCH : r (.reg Reg.MCH_STATUS_EPOCH.addr)) :
    Keeps r o (State.reloadRules s) := by
  unfold State.reloadRules
  repeat' first
    | with_reducible assumption | with_reducible apply keeps_onMch | with_reducible apply keeps_loaded
    | with_reducible apply keeps_dieWrite | with_reducible apply keeps_finishShift | with_reducible apply keeps_foldl
    | with_reducible apply keeps2_foldl | (with_reducible intro _; beta_reduce)
    | with_reducible refine Keeps2.of (by assumption) ?_ | with_reducible apply Keeps2.snd
    | (extract_lets +onlyGivenNames x; refine @Keeps.cut r o _ x ?_ (fun hx => ?_); rotate_left; clear_value x; rotate_right; dsimp -zeta only [x])
    | (extract_lets +onlyGivenNames x; clear_value x) | split

end Sys2Proof.Machine
end

