-- ==== Sys2Proof/Laws/KeepPeerLink.lean ====
section
/-! SUPPORT. What each operation of Machine/PeerLink.lean may change. -/

set_option linter.unusedTactic false
set_option linter.unreachableTactic false

namespace Sys2Proof.Machine

variable {r : Part → Prop} {o s : State}

theorem keeps_nextQgen (ctx : ℕ) (h : Keeps r o s) (c_ldg : r .ldg) (c_flt : r .flt) (c_LDG_GAUGE_STAT_FALLBACKS : r (.reg Reg.LDG_GAUGE_STAT_FALLBACKS.addr)) :
    Keeps2 r o (State.nextQgen s ctx) := by
  unfold State.nextQgen
  repeat' first
    | with_reducible assumption | with_reducible apply keeps_onKept | with_reducible apply keeps_keepMeta
    | with_reducible apply keeps_foldl | with_reducible apply keeps2_foldl | (with_reducible intro _; beta_reduce)
    | with_reducible refine Keeps2.of (by assumption) ?_ | with_reducible apply Keeps2.snd
    | (extract_lets +onlyGivenNames x; refine @Keeps.cut r o _ x ?_ (fun hx => ?_); rotate_left; clear_value x; rotate_right; dsimp -zeta only [x])
    | (extract_lets +onlyGivenNames x; clear_value x) | split | with_reducible apply Keeps2.mk

theorem keeps_activate (ctx : ℕ) (h : Keeps r o s) (c_nfe : r .nfe) :
    Keeps r o (State.activate s ctx) := by
  unfold State.activate
  repeat' first
    | with_reducible assumption | with_reducible apply keeps_onNfe

theorem keeps_reject (l : Link) (cause : ℕ) (h : Keeps r o s) (c_nfe : r .nfe) :
    Keeps r o (State.reject s l cause) := by
  unfold State.reject
  repeat' first
    | with_reducible assumption | with_reducible apply keeps_send

theorem keeps_peerAuthFailed (peer : ℕ) (h : Keeps r o s) (c_flt : r .flt) :
    Keeps r o (State.peerAuthFailed s peer) := by
  unfold State.peerAuthFailed
  repeat' first
    | with_reducible assumption | with_reducible apply keeps_raise

theorem keeps_peerRequest (req : ReqMsg) (h : Keeps r o s) (c_nfe : r .nfe) (c_ldg : r .ldg) (c_peer : r .peer) (c_flt : r .flt) (c_LDG_GAUGE_STAT_FALLBACKS : r (.reg Reg.LDG_GAUGE_STAT_FALLBACKS.addr)) :
    Keeps r o (State.peerRequest s req) := by
  unfold State.peerRequest
  repeat' first
    | with_reducible assumption | with_reducible apply keeps_peerAuthFailed | with_reducible apply keeps_setLive
    | with_reducible apply keeps_reject | with_reducible apply keeps_nextQgen | with_reducible apply keeps_onNfe
    | with_reducible apply keeps_drawRandom | with_reducible apply keeps_send | with_reducible apply keeps_foldl
    | with_reducible apply keeps2_foldl | (with_reducible intro _; beta_reduce)
    | with_reducible refine Keeps2.of (by assumption) ?_ | with_reducible apply Keeps2.snd
    | (extract_lets +onlyGivenNames x; refine @Keeps.cut r o _ x ?_ (fun hx => ?_); rotate_left; clear_value x; rotate_right; dsimp -zeta only [x])
    | (extract_lets +onlyGivenNames x; refine @Keeps2.cut r o _ _ x ?_ (fun hx => ?_); rotate_left; clear_value x; rotate_right; dsimp -zeta only [x])
    | (extract_lets +onlyGivenNames x; clear_value x) | split

theorem keeps_linkPeer (peer : ℕ) (port : Port) (h : Keeps r o s) (c_nfe : r .nfe) (c_ldg : r .ldg) (c_peer : r .peer) (c_flt : r .flt) (c_LDG_GAUGE_STAT_FALLBACKS : r (.reg Reg.LDG_GAUGE_STAT_FALLBACKS.addr)) :
    Keeps r o (State.linkPeer s peer port) := by
  unfold State.linkPeer
  extract_lets ctx
  clear_value ctx
  cases ctx with
  | none => exact h
  | some c =>
    dsimp -zeta only
    generalize hx : s.drawRandom 16 = x
    obtain ⟨nonce, u⟩ := x
    have hu : Keeps r o u := Keeps2.of hx (keeps_drawRandom _ h)
    dsimp -zeta only
    generalize hy : u.nextQgen c = y
    obtain ⟨q, v⟩ := y
    have hv : Keeps r o v := Keeps2.of hy (by apply keeps_nextQgen <;> assumption)
    dsimp -zeta only
    extract_lets raw conn0 conn w z
    have hw : Keeps r o w := keeps_onNfe _ hv c_nfe
    have hz : Keeps r o z := by
      dsimp -zeta only [z]
      split
      · exact hw
      · exact keeps_setLive _ _ hw c_peer
    exact keeps_send _ hz c_nfe

theorem keeps_peerHeard (peer : ℕ) (h : Keeps r o s) (c_peer : r .peer) (c_flt : r .flt) :
    Keeps r o (State.peerHeard s peer) := by
  unfold State.peerHeard
  repeat' first
    | with_reducible assumption | with_reducible apply keeps_setLive | with_reducible apply keeps_raise
    | with_reducible apply keeps_foldl | with_reducible apply keeps2_foldl | (with_reducible intro _; beta_reduce)
    | with_reducible refine Keeps2.of (by assumption) ?_ | with_reducible apply Keeps2.snd
    | (extract_lets +onlyGivenNames x; refine @Keeps.cut r o _ x ?_ (fun hx => ?_); rotate_left; clear_value x; rotate_right; dsimp -zeta only [x])
    | (extract_lets +onlyGivenNames x; clear_value x) | split

end Sys2Proof.Machine
end

