-- ==== Sys2Proof/Laws/KeepQueuePairs.lean ====
section
/-! SUPPORT. What each operation of Machine/QueuePairs.lean may change. -/

set_option linter.unusedTactic false
set_option linter.unreachableTactic false

namespace Sys2Proof.Machine

variable {r : Part → Prop} {o s : State}

theorem keeps_onQp (ctx : ℕ) (f : Qp → Qp) (h : Keeps r o s) (c_nfe : r .nfe) :
    Keeps r o (State.onQp s ctx f) := by
  unfold State.onQp
  repeat' first
    | with_reducible assumption | with_reducible apply keeps_onNfe

theorem keeps_withQp (ctx : ℕ) (p : Qp → Bool) (f : Qp → State) (step : ∀ a, Keeps r o (f a)) (h : Keeps r o s) :
    Keeps r o (State.withQp s ctx p f) := by
  unfold State.withQp
  repeat' first
    | with_reducible assumption | with_reducible apply step | with_reducible apply keeps_foldl
    | with_reducible apply keeps2_foldl | (with_reducible intro _; beta_reduce)
    | with_reducible refine Keeps2.of (by assumption) ?_ | with_reducible apply Keeps2.snd
    | (extract_lets +onlyGivenNames x; refine @Keeps.cut r o _ x ?_ (fun hx => ?_); rotate_left; clear_value x; rotate_right; dsimp -zeta only [x])
    | (extract_lets +onlyGivenNames x; clear_value x) | split

theorem keeps_imageAnswered (req : ReqMsg) (h : Keeps r o s) (c_nfe : r .nfe) (c_sch : r .sch) :
    Keeps r o (State.imageAnswered s req) := by
  unfold State.imageAnswered
  repeat' first
    | with_reducible assumption | with_reducible apply keeps_onNfe | with_reducible apply keeps_onSch
    | with_reducible apply keeps_foldl | with_reducible apply keeps2_foldl | (with_reducible intro _; beta_reduce)
    | with_reducible refine Keeps2.of (by assumption) ?_ | with_reducible apply Keeps2.snd
    | (extract_lets +onlyGivenNames x; refine @Keeps.cut r o _ x ?_ (fun hx => ?_); rotate_left; clear_value x; rotate_right; dsimp -zeta only [x])
    | (extract_lets +onlyGivenNames x; clear_value x) | split

theorem keeps_admitReq (req : ReqMsg) (ctx : ℕ) (h : Keeps r o s) (c_nfe : r .nfe) (c_ldg : r .ldg) (c_flt : r .flt) (c_LDG_GAUGE_STAT_FALLBACKS : r (.reg Reg.LDG_GAUGE_STAT_FALLBACKS.addr)) :
    Keeps r o (State.admitReq s req ctx) := by
  unfold State.admitReq
  repeat' first
    | with_reducible assumption | with_reducible apply keeps_nextQgen | with_reducible apply keeps_drawNat
    | with_reducible apply keeps_onNfe | with_reducible apply keeps_drawRandom | with_reducible apply keeps_send
    | with_reducible apply keeps_foldl | with_reducible apply keeps2_foldl | (with_reducible intro _; beta_reduce)
    | with_reducible refine Keeps2.of (by assumption) ?_ | with_reducible apply Keeps2.snd

theorem keeps_clientRequest (req : ReqMsg) (h : Keeps r o s) (c_nfe : r .nfe) (c_sch : r .sch) (c_ldg : r .ldg) (c_flt : r .flt) (c_LDG_GAUGE_STAT_FALLBACKS : r (.reg Reg.LDG_GAUGE_STAT_FALLBACKS.addr)) :
    Keeps r o (State.clientRequest s req) := by
  unfold State.clientRequest
  repeat' first
    | with_reducible assumption | with_reducible apply keeps_admitReq | with_reducible apply keeps_reject
    | with_reducible apply keeps_imageAnswered | with_reducible apply keeps_foldl | with_reducible apply keeps2_foldl
    | (with_reducible intro _; beta_reduce) | with_reducible refine Keeps2.of (by assumption) ?_
    | with_reducible apply Keeps2.snd
    | (extract_lets +onlyGivenNames x; refine @Keeps.cut r o _ x ?_ (fun hx => ?_); rotate_left; clear_value x; rotate_right; dsimp -zeta only [x])
    | (extract_lets +onlyGivenNames x; clear_value x) | split

theorem keeps_execCmReq (req : ReqMsg) (h : Keeps r o s) (c_nfe : r .nfe) (c_sch : r .sch) (c_ldg : r .ldg) (c_peer : r .peer) (c_flt : r .flt) (c_LDG_GAUGE_STAT_FALLBACKS : r (.reg Reg.LDG_GAUGE_STAT_FALLBACKS.addr)) :
    KeepsN r o (execCmReq req s) := by
  unfold execCmReq
  repeat' first
    | with_reducible apply KeepsN.mk | with_reducible apply KeepsN.fault | with_reducible assumption
    | with_reducible apply keeps_guardStep | with_reducible apply keeps_clientRequest
    | with_reducible apply keeps_peerRequest | with_reducible apply keeps_foldl | with_reducible apply keeps2_foldl
    | (with_reducible intro _; beta_reduce) | with_reducible refine Keeps2.of (by assumption) ?_
    | with_reducible apply Keeps2.snd
    | (extract_lets +onlyGivenNames x; refine @Keeps.cut r o _ x ?_ (fun hx => ?_); rotate_left; clear_value x; rotate_right; dsimp -zeta only [x])
    | (extract_lets +onlyGivenNames x; clear_value x) | split

theorem keeps_proofFailed (ctx : ℕ) (h : Keeps r o s) (c_nfe : r .nfe) :
    Keeps r o (State.proofFailed s ctx) := by
  unfold State.proofFailed
  repeat' first
    | with_reducible assumption | with_reducible apply keeps_onQp | with_reducible apply keeps_send

theorem keeps_execCmRtu (ctx : ℕ) (proof : Bytes) (h : Keeps r o s) (c_nfe : r .nfe) :
    KeepsN r o (execCmRtu ctx proof s) := by
  unfold execCmRtu
  repeat' first
    | with_reducible apply KeepsN.mk | with_reducible apply KeepsN.fault | with_reducible assumption
    | with_reducible apply keeps_withQp | with_reducible apply keeps_proofFailed | with_reducible apply keeps_activate
    | with_reducible apply keeps_foldl | with_reducible apply keeps2_foldl | (with_reducible intro _; beta_reduce)
    | with_reducible refine Keeps2.of (by assumption) ?_ | with_reducible apply Keeps2.snd
    | (extract_lets +onlyGivenNames x; refine @Keeps.cut r o _ x ?_ (fun hx => ?_); rotate_left; clear_value x; rotate_right; dsimp -zeta only [x])
    | (extract_lets +onlyGivenNames x; clear_value x) | split

theorem keeps_closeCtx (ctx : ℕ) (h : Keeps r o s) (c_nfe : r .nfe) (c_sch : r .sch) (c_cip : r .cip) (c_ldg : r .ldg) (c_peer : r .peer) (c_flt : r .flt) (c_CIP_LANE_STAT_NONCE_REFUSALS : r (.reg Reg.CIP_LANE_STAT_NONCE_REFUSALS.addr)) (c_FLT_SWATCH_CTL_ARM : r (.reg Reg.FLT_SWATCH_CTL_ARM.addr)) (c_LDG_UNMETERED_LINES : r (.reg Reg.LDG_UNMETERED_LINES.addr)) :
    Keeps r o (State.closeCtx s ctx) := by
  unfold State.closeCtx
  repeat' first
    | with_reducible assumption | with_reducible apply keeps_serveIntake | with_reducible apply keeps_freeCtx
    | with_reducible apply keeps_onSch

theorem keeps_settleDrain (ctx : ℕ) (h : Keeps r o s) (c_nfe : r .nfe) (c_sch : r .sch) (c_cip : r .cip) (c_ldg : r .ldg) (c_peer : r .peer) (c_flt : r .flt) (c_CIP_LANE_STAT_NONCE_REFUSALS : r (.reg Reg.CIP_LANE_STAT_NONCE_REFUSALS.addr)) (c_FLT_SWATCH_CTL_ARM : r (.reg Reg.FLT_SWATCH_CTL_ARM.addr)) (c_LDG_UNMETERED_LINES : r (.reg Reg.LDG_UNMETERED_LINES.addr)) :
    Keeps r o (State.settleDrain s ctx) := by
  unfold State.settleDrain
  repeat' first
    | with_reducible assumption | with_reducible apply keeps_closeCtx | with_reducible apply keeps_peerCheck
    | with_reducible apply keeps_send | with_reducible apply keeps_foldl | with_reducible apply keeps2_foldl
    | (with_reducible intro _; beta_reduce) | with_reducible refine Keeps2.of (by assumption) ?_
    | with_reducible apply Keeps2.snd
    | (extract_lets +onlyGivenNames x; refine @Keeps.cut r o _ x ?_ (fun hx => ?_); rotate_left; clear_value x; rotate_right; dsimp -zeta only [x])
    | (extract_lets +onlyGivenNames x; clear_value x) | split

theorem keeps_execCmDreq (ctx : ℕ) (h : Keeps r o s) (c_nfe : r .nfe) (c_sch : r .sch) (c_cip : r .cip) (c_ldg : r .ldg) (c_peer : r .peer) (c_flt : r .flt) (c_CIP_LANE_STAT_NONCE_REFUSALS : r (.reg Reg.CIP_LANE_STAT_NONCE_REFUSALS.addr)) (c_FLT_SWATCH_CTL_ARM : r (.reg Reg.FLT_SWATCH_CTL_ARM.addr)) (c_LDG_UNMETERED_LINES : r (.reg Reg.LDG_UNMETERED_LINES.addr)) :
    KeepsN r o (execCmDreq ctx s) := by
  unfold execCmDreq
  repeat' first
    | with_reducible apply KeepsN.mk | with_reducible apply KeepsN.fault | with_reducible assumption
    | with_reducible apply keeps_settleError | with_reducible apply keeps_onQp
    | with_reducible apply keeps_settleDrain | with_reducible apply keeps_peerCheck | with_reducible apply keeps_foldl
    | with_reducible apply keeps2_foldl | (with_reducible intro _; beta_reduce)
    | with_reducible refine Keeps2.of (by assumption) ?_ | with_reducible apply Keeps2.snd
    | (extract_lets +onlyGivenNames x; refine @Keeps.cut r o _ x ?_ (fun hx => ?_); rotate_left; clear_value x; rotate_right; dsimp -zeta only [x])
    | (extract_lets +onlyGivenNames x; clear_value x) | split

theorem keeps_execCmDrep (ctx : ℕ) (h : Keeps r o s) (c_nfe : r .nfe) :
    KeepsN r o (execCmDrep ctx s) := by
  unfold execCmDrep
  repeat' first
    | with_reducible apply KeepsN.mk | with_reducible apply KeepsN.fault | with_reducible assumption
    | with_reducible apply keeps_withQp | with_reducible apply keeps_freeCtx | with_reducible apply keeps_foldl
    | with_reducible apply keeps2_foldl | (with_reducible intro _; beta_reduce)

theorem keeps_execConnectingTimeout (ctx : ℕ) (h : Keeps r o s) (c_nfe : r .nfe) :
    KeepsN r o (execConnectingTimeout ctx s) := by
  unfold execConnectingTimeout
  repeat' first
    | with_reducible apply KeepsN.mk | with_reducible apply KeepsN.fault | with_reducible assumption
    | with_reducible apply keeps_freeConnecting

theorem keeps_applyDoorbell (ctx : ℕ) (raw : Bytes) (h : Keeps r o s) (c_nfe : r .nfe) (c_sch : r .sch) (c_mch : r .mch) (c_val : r .val) (c_cip : r .cip) (c_ldg : r .ldg) (c_ftl : r .ftl) (c_peer : r .peer) (c_flt : r .flt) (c_CIP_LANE_STAT_NONCE_REFUSALS : r (.reg Reg.CIP_LANE_STAT_NONCE_REFUSALS.addr)) (c_FLT_SWATCH_CTL_ARM : r (.reg Reg.FLT_SWATCH_CTL_ARM.addr)) (c_LDG_GAUGE_STAT_FALLBACKS : r (.reg Reg.LDG_GAUGE_STAT_FALLBACKS.addr)) (c_LDG_UNMETERED_LINES : r (.reg Reg.LDG_UNMETERED_LINES.addr)) (c_PWR_SHED_CNT_SHED_WRITES : r (.reg Reg.PWR_SHED_CNT_SHED_WRITES.addr)) (c_QPM_ERR_STAT_QGEN_DROPS : r (.reg Reg.QPM_ERR_STAT_QGEN_DROPS.addr)) :
    Keeps r o (State.applyDoorbell s ctx raw) := by
  unfold State.applyDoorbell
  repeat' first
    | with_reducible assumption | exact c_CIP_LANE_STAT_NONCE_REFUSALS | exact c_FLT_SWATCH_CTL_ARM
    | exact c_LDG_GAUGE_STAT_FALLBACKS | exact c_LDG_UNMETERED_LINES | exact c_PWR_SHED_CNT_SHED_WRITES
    | exact c_QPM_ERR_STAT_QGEN_DROPS | with_reducible apply keeps_touchCtx | with_reducible apply keeps_bump
    | with_reducible apply keeps_withQp | with_reducible apply keeps_qpError | with_reducible apply keeps_onQp
    | with_reducible apply keeps_foldl | with_reducible apply keeps2_foldl | (with_reducible intro _; beta_reduce)
    | with_reducible refine Keeps2.of (by assumption) ?_ | with_reducible apply Keeps2.snd
    | (extract_lets +onlyGivenNames x; refine @Keeps.cut r o _ x ?_ (fun hx => ?_); rotate_left; clear_value x; rotate_right; dsimp -zeta only [x])
    | (extract_lets +onlyGivenNames x; clear_value x) | split

theorem keeps_execDoorbell (ctx : ℕ) (arrival : ℕ) (aligned : Bool) (raw : Bytes) (h : Keeps r o s) (c_nfe : r .nfe) (c_sch : r .sch) (c_mch : r .mch) (c_val : r .val) (c_cip : r .cip) (c_ldg : r .ldg) (c_ftl : r .ftl) (c_peer : r .peer) (c_flt : r .flt) (c_CIP_LANE_STAT_NONCE_REFUSALS : r (.reg Reg.CIP_LANE_STAT_NONCE_REFUSALS.addr)) (c_FLT_SWATCH_CTL_ARM : r (.reg Reg.FLT_SWATCH_CTL_ARM.addr)) (c_LDG_GAUGE_STAT_FALLBACKS : r (.reg Reg.LDG_GAUGE_STAT_FALLBACKS.addr)) (c_LDG_UNMETERED_LINES : r (.reg Reg.LDG_UNMETERED_LINES.addr)) (c_PWR_SHED_CNT_SHED_WRITES : r (.reg Reg.PWR_SHED_CNT_SHED_WRITES.addr)) (c_QPM_ERR_STAT_QGEN_DROPS : r (.reg Reg.QPM_ERR_STAT_QGEN_DROPS.addr)) :
    KeepsN r o (execDoorbell ctx arrival aligned raw s) := by
  unfold execDoorbell
  repeat' first
    | with_reducible apply KeepsN.mk | with_reducible apply KeepsN.fault | with_reducible assumption
    | with_reducible apply keeps_applyDoorbell | with_reducible apply keeps_qpError
    | with_reducible apply keeps_guardStep | with_reducible apply keeps_onNfe | with_reducible apply keeps_send
    | with_reducible apply keeps_foldl | with_reducible apply keeps2_foldl | (with_reducible intro _; beta_reduce)
    | with_reducible refine Keeps2.of (by assumption) ?_ | with_reducible apply Keeps2.snd
    | (extract_lets +onlyGivenNames x; refine @Keeps.cut r o _ x ?_ (fun hx => ?_); rotate_left; clear_value x; rotate_right; dsimp -zeta only [x])
    | (extract_lets +onlyGivenNames x; clear_value x) | split

theorem keeps_execUnsupportedRequest (ctx : ℕ) (h : Keeps r o s) (c_nfe : r .nfe) (c_sch : r .sch) (c_mch : r .mch) (c_val : r .val) (c_cip : r .cip) (c_ldg : r .ldg) (c_ftl : r .ftl) (c_peer : r .peer) (c_flt : r .flt) (c_CIP_LANE_STAT_NONCE_REFUSALS : r (.reg Reg.CIP_LANE_STAT_NONCE_REFUSALS.addr)) (c_FLT_SWATCH_CTL_ARM : r (.reg Reg.FLT_SWATCH_CTL_ARM.addr)) (c_LDG_GAUGE_STAT_FALLBACKS : r (.reg Reg.LDG_GAUGE_STAT_FALLBACKS.addr)) (c_LDG_UNMETERED_LINES : r (.reg Reg.LDG_UNMETERED_LINES.addr)) (c_PWR_SHED_CNT_SHED_WRITES : r (.reg Reg.PWR_SHED_CNT_SHED_WRITES.addr)) :
    KeepsN r o (execUnsupportedRequest ctx s) := by
  unfold execUnsupportedRequest
  repeat' first
    | with_reducible apply KeepsN.mk | with_reducible apply KeepsN.fault | with_reducible assumption
    | with_reducible apply keeps_withQp | with_reducible apply keeps_qpError | with_reducible apply keeps_send
    | with_reducible apply keeps_foldl | with_reducible apply keeps2_foldl | (with_reducible intro _; beta_reduce)

theorem keeps_execRemoteAccessNak (ctx : ℕ) (h : Keeps r o s) (c_nfe : r .nfe) (c_sch : r .sch) (c_mch : r .mch) (c_val : r .val) (c_cip : r .cip) (c_ldg : r .ldg) (c_ftl : r .ftl) (c_peer : r .peer) (c_flt : r .flt) (c_CIP_LANE_STAT_NONCE_REFUSALS : r (.reg Reg.CIP_LANE_STAT_NONCE_REFUSALS.addr)) (c_FLT_SWATCH_CTL_ARM : r (.reg Reg.FLT_SWATCH_CTL_ARM.addr)) (c_LDG_GAUGE_STAT_FALLBACKS : r (.reg Reg.LDG_GAUGE_STAT_FALLBACKS.addr)) (c_LDG_UNMETERED_LINES : r (.reg Reg.LDG_UNMETERED_LINES.addr)) (c_PWR_SHED_CNT_SHED_WRITES : r (.reg Reg.PWR_SHED_CNT_SHED_WRITES.addr)) :
    KeepsN r o (execRemoteAccessNak ctx s) := by
  unfold execRemoteAccessNak
  repeat' first
    | with_reducible apply KeepsN.mk | with_reducible apply KeepsN.fault | with_reducible assumption
    | with_reducible apply keeps_qpError

theorem keeps_execTransportRetryExhausted (ctx : ℕ) (h : Keeps r o s) (c_nfe : r .nfe) (c_sch : r .sch) (c_mch : r .mch) (c_val : r .val) (c_cip : r .cip) (c_ldg : r .ldg) (c_ftl : r .ftl) (c_peer : r .peer) (c_flt : r .flt) (c_CIP_LANE_STAT_NONCE_REFUSALS : r (.reg Reg.CIP_LANE_STAT_NONCE_REFUSALS.addr)) (c_FLT_SWATCH_CTL_ARM : r (.reg Reg.FLT_SWATCH_CTL_ARM.addr)) (c_LDG_GAUGE_STAT_FALLBACKS : r (.reg Reg.LDG_GAUGE_STAT_FALLBACKS.addr)) (c_LDG_UNMETERED_LINES : r (.reg Reg.LDG_UNMETERED_LINES.addr)) (c_PWR_SHED_CNT_SHED_WRITES : r (.reg Reg.PWR_SHED_CNT_SHED_WRITES.addr)) :
    KeepsN r o (execTransportRetryExhausted ctx s) := by
  unfold execTransportRetryExhausted
  repeat' first
    | with_reducible apply KeepsN.mk | with_reducible apply KeepsN.fault | with_reducible assumption
    | with_reducible apply keeps_qpError

theorem keeps_execOutcomeRecordExpiry (session : ℕ) (tag : ℕ) (h : Keeps r o s) (c_nfe : r .nfe) (c_sch : r .sch) (c_cip : r .cip) (c_ldg : r .ldg) (c_peer : r .peer) (c_flt : r .flt) (c_CIP_LANE_STAT_NONCE_REFUSALS : r (.reg Reg.CIP_LANE_STAT_NONCE_REFUSALS.addr)) (c_FLT_SWATCH_CTL_ARM : r (.reg Reg.FLT_SWATCH_CTL_ARM.addr)) (c_LDG_UNMETERED_LINES : r (.reg Reg.LDG_UNMETERED_LINES.addr)) :
    KeepsN r o (execOutcomeRecordExpiry session tag s) := by
  unfold execOutcomeRecordExpiry
  repeat' first
    | with_reducible apply KeepsN.mk | with_reducible apply KeepsN.fault | with_reducible assumption
    | with_reducible apply keeps_serveIntake | with_reducible apply keeps_onSch

theorem keeps_grantFetch (ctx : ℕ) (h : Keeps r o s) (c_nfe : r .nfe) :
    Keeps r o (State.grantFetch s ctx) := by
  unfold State.grantFetch
  repeat' first
    | with_reducible assumption | with_reducible apply keeps_touchCtx | with_reducible apply keeps_withQp
    | with_reducible apply keeps_onQp | with_reducible apply keeps_send | with_reducible apply keeps_foldl
    | with_reducible apply keeps2_foldl | (with_reducible intro _; beta_reduce)

theorem keeps_execDescriptorFetch (h : Keeps r o s) (c_nfe : r .nfe) (c_sch : r .sch) :
    KeepsN r o (execDescriptorFetch s) := by
  unfold execDescriptorFetch
  repeat' first
    | with_reducible apply KeepsN.mk | with_reducible apply KeepsN.fault | with_reducible assumption
    | with_reducible apply keeps_grantFetch | with_reducible apply keeps_onNfe | with_reducible apply keeps_onSch
    | with_reducible apply keeps_foldl | with_reducible apply keeps2_foldl | (with_reducible intro _; beta_reduce)
    | with_reducible refine Keeps2.of (by assumption) ?_ | with_reducible apply Keeps2.snd
    | (extract_lets +onlyGivenNames x; refine @Keeps.cut r o _ x ?_ (fun hx => ?_); rotate_left; clear_value x; rotate_right; dsimp -zeta only [x])
    | (extract_lets +onlyGivenNames x; clear_value x) | split

theorem keeps_resubmit (n : ℕ) (h : Keeps r o s) (c_nfe : r .nfe) (c_sch : r .sch) (c_val : r .val) (c_cip : r .cip) (c_ldg : r .ldg) (c_ftl : r .ftl) (c_peer : r .peer) (c_flt : r .flt) (c_CIP_LANE_STAT_NONCE_REFUSALS : r (.reg Reg.CIP_LANE_STAT_NONCE_REFUSALS.addr)) (c_FLT_SWATCH_CTL_ARM : r (.reg Reg.FLT_SWATCH_CTL_ARM.addr)) (c_LDG_GAUGE_STAT_FALLBACKS : r (.reg Reg.LDG_GAUGE_STAT_FALLBACKS.addr)) (c_LDG_UNMETERED_LINES : r (.reg Reg.LDG_UNMETERED_LINES.addr)) (c_PWR_SHED_CNT_SHED_WRITES : r (.reg Reg.PWR_SHED_CNT_SHED_WRITES.addr)) (c_VAL_E2E_STAT_E2E_MISMATCHES : r (.reg Reg.VAL_E2E_STAT_E2E_MISMATCHES.addr)) :
    Keeps r o (State.resubmit s n) := by
  induction n generalizing s  with
  | zero =>
    unfold State.resubmit
    repeat' first
      | with_reducible assumption | with_reducible apply ih | with_reducible apply keeps_addCond
      | with_reducible apply keeps_failCmd | with_reducible apply keeps_endCmd | with_reducible apply keeps_drawNat
      | with_reducible apply keeps_foldl | with_reducible apply keeps2_foldl | (with_reducible intro _; beta_reduce)
      | with_reducible refine Keeps2.of (by assumption) ?_ | with_reducible apply Keeps2.snd
      | (extract_lets +onlyGivenNames x; refine @Keeps.cut r o _ x ?_ (fun hx => ?_); rotate_left; clear_value x; rotate_right; dsimp -zeta only [x])
      | (extract_lets +onlyGivenNames x; refine @Keeps2.cut r o _ _ x ?_ (fun hx => ?_); rotate_left; clear_value x; rotate_right; dsimp -zeta only [x])
      | (extract_lets +onlyGivenNames x; clear_value x) | split | with_reducible apply Keeps2.mk
  | succ _ ih =>
    unfold State.resubmit
    repeat' first
      | with_reducible assumption | with_reducible apply ih | with_reducible apply keeps_addCond
      | with_reducible apply keeps_failCmd | with_reducible apply keeps_endCmd | with_reducible apply keeps_drawNat
      | with_reducible apply keeps_foldl | with_reducible apply keeps2_foldl | (with_reducible intro _; beta_reduce)
      | with_reducible refine Keeps2.of (by assumption) ?_ | with_reducible apply Keeps2.snd
      | (extract_lets +onlyGivenNames x; refine @Keeps.cut r o _ x ?_ (fun hx => ?_); rotate_left; clear_value x; rotate_right; dsimp -zeta only [x])
      | (extract_lets +onlyGivenNames x; refine @Keeps2.cut r o _ _ x ?_ (fun hx => ?_); rotate_left; clear_value x; rotate_right; dsimp -zeta only [x])
      | (extract_lets +onlyGivenNames x; clear_value x) | split | with_reducible apply Keeps2.mk

theorem keeps_endHeld (n : ℕ) (h : Keeps r o s) (c_nfe : r .nfe) (c_sch : r .sch) (c_val : r .val) (c_cip : r .cip) (c_ldg : r .ldg) (c_ftl : r .ftl) (c_peer : r .peer) (c_flt : r .flt) (c_CIP_LANE_STAT_NONCE_REFUSALS : r (.reg Reg.CIP_LANE_STAT_NONCE_REFUSALS.addr)) (c_FLT_SWATCH_CTL_ARM : r (.reg Reg.FLT_SWATCH_CTL_ARM.addr)) (c_LDG_GAUGE_STAT_FALLBACKS : r (.reg Reg.LDG_GAUGE_STAT_FALLBACKS.addr)) (c_LDG_UNMETERED_LINES : r (.reg Reg.LDG_UNMETERED_LINES.addr)) (c_PWR_SHED_CNT_SHED_WRITES : r (.reg Reg.PWR_SHED_CNT_SHED_WRITES.addr)) (c_VAL_E2E_STAT_E2E_MISMATCHES : r (.reg Reg.VAL_E2E_STAT_E2E_MISMATCHES.addr)) :
    Keeps r o (State.endHeld s n) := by
  unfold State.endHeld
  repeat' first
    | with_reducible assumption | with_reducible apply keeps_failCmd | with_reducible apply keeps_foldl
    | with_reducible apply keeps2_foldl | (with_reducible intro _; beta_reduce)
    | with_reducible refine Keeps2.of (by assumption) ?_ | with_reducible apply Keeps2.snd
    | (extract_lets +onlyGivenNames x; refine @Keeps.cut r o _ x ?_ (fun hx => ?_); rotate_left; clear_value x; rotate_right; dsimp -zeta only [x])
    | (extract_lets +onlyGivenNames x; clear_value x) | split

theorem keeps_keyKnown (n : ℕ) (h : Keeps r o s) (c_nfe : r .nfe) (c_sch : r .sch) (c_val : r .val) (c_cip : r .cip) (c_ldg : r .ldg) (c_ftl : r .ftl) (c_peer : r .peer) (c_flt : r .flt) (c_CIP_LANE_STAT_NONCE_REFUSALS : r (.reg Reg.CIP_LANE_STAT_NONCE_REFUSALS.addr)) (c_FLT_SWATCH_CTL_ARM : r (.reg Reg.FLT_SWATCH_CTL_ARM.addr)) (c_LDG_GAUGE_STAT_FALLBACKS : r (.reg Reg.LDG_GAUGE_STAT_FALLBACKS.addr)) (c_LDG_UNMETERED_LINES : r (.reg Reg.LDG_UNMETERED_LINES.addr)) (c_PWR_SHED_CNT_SHED_WRITES : r (.reg Reg.PWR_SHED_CNT_SHED_WRITES.addr)) (c_VAL_E2E_STAT_E2E_MISMATCHES : r (.reg Reg.VAL_E2E_STAT_E2E_MISMATCHES.addr)) :
    Keeps r o (State.keyKnown s n) := by
  unfold State.keyKnown
  repeat' first
    | with_reducible assumption | with_reducible apply keeps_endHeld | with_reducible apply keeps_addCond
    | with_reducible apply keeps_failCmd | with_reducible apply keeps_resubmit | with_reducible apply keeps_foldl
    | with_reducible apply keeps2_foldl | (with_reducible intro _; beta_reduce)
    | with_reducible refine Keeps2.of (by assumption) ?_ | with_reducible apply Keeps2.snd
    | (extract_lets +onlyGivenNames x; refine @Keeps.cut r o _ x ?_ (fun hx => ?_); rotate_left; clear_value x; rotate_right; dsimp -zeta only [x])
    | (extract_lets +onlyGivenNames x; clear_value x) | split

theorem keeps_assignVersion (h : Keeps r o s) (c_sch : r .sch) (c_ldg : r .ldg) (c_flt : r .flt) (c_LDG_GAUGE_STAT_FALLBACKS : r (.reg Reg.LDG_GAUGE_STAT_FALLBACKS.addr)) :
    Keeps2 r o (State.assignVersion s) := by
  unfold State.assignVersion
  repeat' first
    | with_reducible assumption | with_reducible apply keeps_onKept | with_reducible apply keeps_keepMeta
    | with_reducible apply keeps_onSch | with_reducible apply keeps_foldl | with_reducible apply keeps2_foldl
    | (with_reducible intro _; beta_reduce) | with_reducible refine Keeps2.of (by assumption) ?_
    | with_reducible apply Keeps2.snd
    | (extract_lets +onlyGivenNames x; refine @Keeps.cut r o _ x ?_ (fun hx => ?_); rotate_left; clear_value x; rotate_right; dsimp -zeta only [x])
    | (extract_lets +onlyGivenNames x; clear_value x) | split | with_reducible apply Keeps2.mk

theorem keeps_acceptDesc (ctx : ℕ) (q : Qp) (d : Desc) (h : Keeps r o s) (c_nfe : r .nfe) (c_sch : r .sch) (c_val : r .val) (c_cip : r .cip) (c_ldg : r .ldg) (c_ftl : r .ftl) (c_peer : r .peer) (c_flt : r .flt) (c_CIP_LANE_STAT_NONCE_REFUSALS : r (.reg Reg.CIP_LANE_STAT_NONCE_REFUSALS.addr)) (c_FLT_SWATCH_CTL_ARM : r (.reg Reg.FLT_SWATCH_CTL_ARM.addr)) (c_LDG_GAUGE_STAT_FALLBACKS : r (.reg Reg.LDG_GAUGE_STAT_FALLBACKS.addr)) (c_LDG_UNMETERED_LINES : r (.reg Reg.LDG_UNMETERED_LINES.addr)) (c_PWR_SHED_CNT_SHED_WRITES : r (.reg Reg.PWR_SHED_CNT_SHED_WRITES.addr)) (c_VAL_E2E_STAT_E2E_MISMATCHES : r (.reg Reg.VAL_E2E_STAT_E2E_MISMATCHES.addr)) :
    Keeps r o (State.acceptDesc s ctx q d) := by
  unfold State.acceptDesc
  extract_lets known op cls u
  split
  · exact h
  · have hu : Keeps r o u := keeps_onQp _ _ h c_nfe
    clear_value u
    generalize hx : (if op.isWrite = true then u.assignVersion else (0, u)) = x
    obtain ⟨ver, v⟩ := x
    have hv : Keeps r o v := by
      split at hx
      · exact Keeps2.of hx (by apply keeps_assignVersion <;> assumption)
      · cases hx; exact hu
    dsimp -zeta only
    extract_lets n credit c w z conds k
    have hw : Keeps r o w := keeps_onSch _ hv c_sch
    have hz : Keeps r o z := by
      dsimp -zeta only [z]
      split
      · apply keeps_toSch <;> assumption
      · exact hw
    clear_value conds
    split
    · apply keeps_failCmd <;> first | assumption | exact keeps_onCmd _ _ hz c_sch
    · have hk : Keeps r o k := by
        dsimp -zeta only [k]
        apply keeps_keyKnown <;> first | assumption | exact keeps_onCmd _ _ hz c_sch
      clear_value k
      split
      · split
        · exact keeps_sendAs _ _ _ hk c_nfe
        · exact hk
      · exact hk

theorem keeps_execDescriptorAccept (ctx : ℕ) (raw : Bytes) (h : Keeps r o s) (c_nfe : r .nfe) (c_sch : r .sch) (c_val : r .val) (c_cip : r .cip) (c_ldg : r .ldg) (c_ftl : r .ftl) (c_peer : r .peer) (c_flt : r .flt) (c_CIP_LANE_STAT_NONCE_REFUSALS : r (.reg Reg.CIP_LANE_STAT_NONCE_REFUSALS.addr)) (c_FLT_SWATCH_CTL_ARM : r (.reg Reg.FLT_SWATCH_CTL_ARM.addr)) (c_LDG_GAUGE_STAT_FALLBACKS : r (.reg Reg.LDG_GAUGE_STAT_FALLBACKS.addr)) (c_LDG_UNMETERED_LINES : r (.reg Reg.LDG_UNMETERED_LINES.addr)) (c_PWR_SHED_CNT_SHED_WRITES : r (.reg Reg.PWR_SHED_CNT_SHED_WRITES.addr)) (c_VAL_E2E_STAT_E2E_MISMATCHES : r (.reg Reg.VAL_E2E_STAT_E2E_MISMATCHES.addr)) :
    KeepsN r o (execDescriptorAccept ctx raw s) := by
  unfold execDescriptorAccept
  repeat' first
    | with_reducible apply KeepsN.mk | with_reducible apply KeepsN.fault | with_reducible assumption
    | with_reducible apply keeps_withQp | with_reducible apply keeps_acceptDesc | with_reducible apply keeps_onQp
    | with_reducible apply keeps_foldl | with_reducible apply keeps2_foldl | (with_reducible intro _; beta_reduce)
    | with_reducible refine Keeps2.of (by assumption) ?_ | with_reducible apply Keeps2.snd
    | (extract_lets +onlyGivenNames x; refine @Keeps.cut r o _ x ?_ (fun hx => ?_); rotate_left; clear_value x; rotate_right; dsimp -zeta only [x])
    | (extract_lets +onlyGivenNames x; clear_value x) | split

theorem keeps_execPhaseRefetch (ctx : ℕ) (h : Keeps r o s) (c_nfe : r .nfe) (c_sch : r .sch) (c_mch : r .mch) (c_val : r .val) (c_cip : r .cip) (c_ldg : r .ldg) (c_ftl : r .ftl) (c_peer : r .peer) (c_flt : r .flt) (c_CIP_LANE_STAT_NONCE_REFUSALS : r (.reg Reg.CIP_LANE_STAT_NONCE_REFUSALS.addr)) (c_FLT_SWATCH_CTL_ARM : r (.reg Reg.FLT_SWATCH_CTL_ARM.addr)) (c_LDG_GAUGE_STAT_FALLBACKS : r (.reg Reg.LDG_GAUGE_STAT_FALLBACKS.addr)) (c_LDG_UNMETERED_LINES : r (.reg Reg.LDG_UNMETERED_LINES.addr)) (c_PWR_SHED_CNT_SHED_WRITES : r (.reg Reg.PWR_SHED_CNT_SHED_WRITES.addr)) (c_QPM_ERR_STAT_QGEN_DROPS : r (.reg Reg.QPM_ERR_STAT_QGEN_DROPS.addr)) :
    KeepsN r o (execPhaseRefetch ctx s) := by
  unfold execPhaseRefetch
  repeat' first
    | with_reducible apply KeepsN.mk | with_reducible apply KeepsN.fault | with_reducible assumption
    | exact c_CIP_LANE_STAT_NONCE_REFUSALS | exact c_FLT_SWATCH_CTL_ARM | exact c_LDG_GAUGE_STAT_FALLBACKS
    | exact c_LDG_UNMETERED_LINES | exact c_PWR_SHED_CNT_SHED_WRITES | exact c_QPM_ERR_STAT_QGEN_DROPS
    | with_reducible apply keeps_bump | with_reducible apply keeps_withQp | with_reducible apply keeps_qpError
    | with_reducible apply keeps_onQp | with_reducible apply keeps_send | with_reducible apply keeps_foldl
    | with_reducible apply keeps2_foldl | (with_reducible intro _; beta_reduce)
    | with_reducible refine Keeps2.of (by assumption) ?_ | with_reducible apply Keeps2.snd
    | (extract_lets +onlyGivenNames x; refine @Keeps.cut r o _ x ?_ (fun hx => ?_); rotate_left; clear_value x; rotate_right; dsimp -zeta only [x])
    | (extract_lets +onlyGivenNames x; clear_value x) | split

theorem keeps_execKeyFetch (cmd : ℕ) (key : Bytes) (h : Keeps r o s) (c_nfe : r .nfe) (c_sch : r .sch) (c_val : r .val) (c_cip : r .cip) (c_ldg : r .ldg) (c_ftl : r .ftl) (c_peer : r .peer) (c_flt : r .flt) (c_CIP_LANE_STAT_NONCE_REFUSALS : r (.reg Reg.CIP_LANE_STAT_NONCE_REFUSALS.addr)) (c_FLT_SWATCH_CTL_ARM : r (.reg Reg.FLT_SWATCH_CTL_ARM.addr)) (c_LDG_GAUGE_STAT_FALLBACKS : r (.reg Reg.LDG_GAUGE_STAT_FALLBACKS.addr)) (c_LDG_UNMETERED_LINES : r (.reg Reg.LDG_UNMETERED_LINES.addr)) (c_PWR_SHED_CNT_SHED_WRITES : r (.reg Reg.PWR_SHED_CNT_SHED_WRITES.addr)) (c_VAL_E2E_STAT_E2E_MISMATCHES : r (.reg Reg.VAL_E2E_STAT_E2E_MISMATCHES.addr)) :
    KeepsN r o (execKeyFetch cmd key s) := by
  unfold execKeyFetch
  repeat' first
    | with_reducible apply KeepsN.mk | with_reducible apply KeepsN.fault | with_reducible assumption
    | with_reducible apply keeps_onCmd | with_reducible apply keeps_withCmd | with_reducible apply keeps_keyKnown
    | with_reducible apply keeps_foldl | with_reducible apply keeps2_foldl | (with_reducible intro _; beta_reduce)

theorem keeps_writeCompletion (cmd : ℕ) (h : Keeps r o s) (c_nfe : r .nfe) (c_sch : r .sch) (c_cip : r .cip) (c_ldg : r .ldg) (c_peer : r .peer) (c_flt : r .flt) (c_CIP_LANE_STAT_NONCE_REFUSALS : r (.reg Reg.CIP_LANE_STAT_NONCE_REFUSALS.addr)) (c_FLT_SWATCH_CTL_ARM : r (.reg Reg.FLT_SWATCH_CTL_ARM.addr)) (c_LDG_UNMETERED_LINES : r (.reg Reg.LDG_UNMETERED_LINES.addr)) :
    Keeps r o (State.writeCompletion s cmd) := by
  unfold State.writeCompletion
  repeat' first
    | with_reducible assumption | with_reducible apply keeps_touchCtx | with_reducible apply keeps_withQp
    | with_reducible apply keeps_onQp | with_reducible apply keeps_onCmd | with_reducible apply keeps_settleDrain
    | with_reducible apply keeps_withCmd | with_reducible apply keeps_sendAs | with_reducible apply keeps_onNfe
    | with_reducible apply keeps_foldl | with_reducible apply keeps2_foldl | (with_reducible intro _; beta_reduce)
    | with_reducible refine Keeps2.of (by assumption) ?_ | with_reducible apply Keeps2.snd
    | (extract_lets +onlyGivenNames x; refine @Keeps.cut r o _ x ?_ (fun hx => ?_); rotate_left; clear_value x; rotate_right; dsimp -zeta only [x])
    | (extract_lets +onlyGivenNames x; clear_value x) | split

theorem keeps_execCompletionWrite (cmd : ℕ) (h : Keeps r o s) (c_nfe : r .nfe) (c_sch : r .sch) (c_cip : r .cip) (c_ldg : r .ldg) (c_peer : r .peer) (c_flt : r .flt) (c_CIP_LANE_STAT_NONCE_REFUSALS : r (.reg Reg.CIP_LANE_STAT_NONCE_REFUSALS.addr)) (c_FLT_SWATCH_CTL_ARM : r (.reg Reg.FLT_SWATCH_CTL_ARM.addr)) (c_LDG_UNMETERED_LINES : r (.reg Reg.LDG_UNMETERED_LINES.addr)) :
    KeepsN r o (execCompletionWrite cmd s) := by
  unfold execCompletionWrite
  repeat' first
    | with_reducible apply KeepsN.mk | with_reducible apply KeepsN.fault | with_reducible assumption
    | with_reducible apply keeps_withCmd | with_reducible apply keeps_writeCompletion
    | with_reducible apply keeps_onSch | with_reducible apply keeps_foldl | with_reducible apply keeps2_foldl
    | (with_reducible intro _; beta_reduce)

theorem keeps_execCoalesceTimer (ctx : ℕ) (h : Keeps r o s) (c_nfe : r .nfe) :
    KeepsN r o (execCoalesceTimer ctx s) := by
  unfold execCoalesceTimer
  repeat' first
    | with_reducible apply KeepsN.mk | with_reducible apply KeepsN.fault | with_reducible assumption
    | with_reducible apply keeps_withQp | with_reducible apply keeps_onQp | with_reducible apply keeps_sendAs
    | with_reducible apply keeps_foldl | with_reducible apply keeps2_foldl | (with_reducible intro _; beta_reduce)

theorem keeps_execCePacketReceived (ctx : ℕ) (h : Keeps r o s) (c_nfe : r .nfe) :
    KeepsN r o (execCePacketReceived ctx s) := by
  unfold execCePacketReceived
  repeat' first
    | with_reducible apply KeepsN.mk | with_reducible apply KeepsN.fault | with_reducible assumption
    | with_reducible apply keeps_withQp | with_reducible apply keeps_onQp | with_reducible apply keeps_send
    | with_reducible apply keeps_foldl | with_reducible apply keeps2_foldl | (with_reducible intro _; beta_reduce)
    | with_reducible refine Keeps2.of (by assumption) ?_ | with_reducible apply Keeps2.snd
    | (extract_lets +onlyGivenNames x; refine @Keeps.cut r o _ x ?_ (fun hx => ?_); rotate_left; clear_value x; rotate_right; dsimp -zeta only [x])
    | (extract_lets +onlyGivenNames x; clear_value x) | split

theorem keeps_execCnpReceived (ctx : ℕ) (h : Keeps r o s) (c_nfe : r .nfe) :
    KeepsN r o (execCnpReceived ctx s) := by
  unfold execCnpReceived
  repeat' first
    | with_reducible apply KeepsN.mk | with_reducible apply KeepsN.fault | with_reducible assumption
    | with_reducible apply keeps_withQp | with_reducible apply keeps_onQp | with_reducible apply keeps_foldl
    | with_reducible apply keeps2_foldl | (with_reducible intro _; beta_reduce)

theorem keeps_execCcTimerExpiry (ctx : ℕ) (h : Keeps r o s) (c_nfe : r .nfe) :
    KeepsN r o (execCcTimerExpiry ctx s) := by
  unfold execCcTimerExpiry
  repeat' first
    | with_reducible apply KeepsN.mk | with_reducible apply KeepsN.fault | with_reducible assumption
    | with_reducible apply keeps_withQp | with_reducible apply keeps_onQp | with_reducible apply keeps_foldl
    | with_reducible apply keeps2_foldl | (with_reducible intro _; beta_reduce)

theorem keeps_linksLost (p : Link → Bool) (h : Keeps r o s) (c_nfe : r .nfe) (c_sch : r .sch) (c_mch : r .mch) (c_val : r .val) (c_cip : r .cip) (c_ldg : r .ldg) (c_ftl : r .ftl) (c_peer : r .peer) (c_flt : r .flt) (c_CIP_LANE_STAT_NONCE_REFUSALS : r (.reg Reg.CIP_LANE_STAT_NONCE_REFUSALS.addr)) (c_FLT_SWATCH_CTL_ARM : r (.reg Reg.FLT_SWATCH_CTL_ARM.addr)) (c_LDG_GAUGE_STAT_FALLBACKS : r (.reg Reg.LDG_GAUGE_STAT_FALLBACKS.addr)) (c_LDG_UNMETERED_LINES : r (.reg Reg.LDG_UNMETERED_LINES.addr)) (c_PWR_SHED_CNT_SHED_WRITES : r (.reg Reg.PWR_SHED_CNT_SHED_WRITES.addr)) :
    Keeps r o (State.linksLost s p) := by
  unfold State.linksLost
  repeat' first
    | with_reducible assumption | with_reducible apply keeps_freeConnecting | with_reducible apply keeps_qpError
    | with_reducible apply keeps_foldl | with_reducible apply keeps2_foldl | (with_reducible intro _; beta_reduce)

theorem keeps_execLinkDown (l : Link) (h : Keeps r o s) (c_nfe : r .nfe) :
    KeepsN r o (execLinkDown l s) := by
  unfold execLinkDown
  repeat' first
    | with_reducible apply KeepsN.mk | with_reducible apply KeepsN.fault | with_reducible assumption
    | with_reducible apply keeps_onNfe

theorem keeps_execLinkdownTimeout (l : Link) (h : Keeps r o s) (c_nfe : r .nfe) (c_sch : r .sch) (c_mch : r .mch) (c_val : r .val) (c_cip : r .cip) (c_ldg : r .ldg) (c_ftl : r .ftl) (c_peer : r .peer) (c_flt : r .flt) (c_CIP_LANE_STAT_NONCE_REFUSALS : r (.reg Reg.CIP_LANE_STAT_NONCE_REFUSALS.addr)) (c_FLT_SWATCH_CTL_ARM : r (.reg Reg.FLT_SWATCH_CTL_ARM.addr)) (c_LDG_GAUGE_STAT_FALLBACKS : r (.reg Reg.LDG_GAUGE_STAT_FALLBACKS.addr)) (c_LDG_UNMETERED_LINES : r (.reg Reg.LDG_UNMETERED_LINES.addr)) (c_PWR_SHED_CNT_SHED_WRITES : r (.reg Reg.PWR_SHED_CNT_SHED_WRITES.addr)) :
    KeepsN r o (execLinkdownTimeout l s) := by
  unfold execLinkdownTimeout
  repeat' first
    | with_reducible apply KeepsN.mk | with_reducible apply KeepsN.fault | with_reducible assumption
    | with_reducible apply keeps_guardStep | with_reducible apply keeps_linksLost | with_reducible apply keeps_onNfe
    | with_reducible apply keeps_foldl | with_reducible apply keeps2_foldl | (with_reducible intro _; beta_reduce)

theorem keeps_execPortRetrainEnd (p : Port) (h : Keeps r o s) (c_nfe : r .nfe) :
    KeepsN r o (execPortRetrainEnd p s) := by
  unfold execPortRetrainEnd
  repeat' first
    | with_reducible apply KeepsN.mk | with_reducible apply KeepsN.fault | with_reducible assumption
    | with_reducible apply keeps_onNfe

theorem keeps_setCage (p : Port) (c : Cage) (h : Keeps r o s) (c_nfe : r .nfe) :
    Keeps r o (State.setCage s p c) := by
  unfold State.setCage
  repeat' first
    | with_reducible assumption | with_reducible apply keeps_onNfe

theorem keeps_execLinkUp (l : Link) (h : Keeps r o s) (c_nfe : r .nfe) :
    KeepsN r o (execLinkUp l s) := by
  unfold execLinkUp
  repeat' first
    | with_reducible apply KeepsN.mk | with_reducible apply KeepsN.fault | with_reducible assumption
    | with_reducible apply keeps_guardStep | with_reducible apply keeps_onNfe | with_reducible apply keeps_foldl
    | with_reducible apply keeps2_foldl | (with_reducible intro _; beta_reduce)

theorem keeps_portFault (p : Port) (cause : ℕ) (h : Keeps r o s) (c_flt : r .flt) :
    Keeps r o (State.portFault s p cause) := by
  unfold State.portFault
  repeat' first
    | with_reducible assumption | with_reducible apply keeps_raise

theorem keeps_execOpticsInsert (p : Port) (watts : ℕ) (laneMatch : Bool) (cmis : Bool) (h : Keeps r o s) (c_nfe : r .nfe) (c_flt : r .flt) :
    KeepsN r o (execOpticsInsert p watts laneMatch cmis s) := by
  unfold execOpticsInsert
  repeat' first
    | with_reducible apply KeepsN.mk | with_reducible apply KeepsN.fault | with_reducible assumption
    | with_reducible apply keeps_setCage | with_reducible apply keeps_portFault | with_reducible apply keeps_foldl
    | with_reducible apply keeps2_foldl | (with_reducible intro _; beta_reduce)
    | with_reducible refine Keeps2.of (by assumption) ?_ | with_reducible apply Keeps2.snd
    | (extract_lets +onlyGivenNames x; refine @Keeps.cut r o _ x ?_ (fun hx => ?_); rotate_left; clear_value x; rotate_right; dsimp -zeta only [x])
    | (extract_lets +onlyGivenNames x; clear_value x) | split

theorem keeps_execOpticsRailTrip (p : Port) (h : Keeps r o s) (c_nfe : r .nfe) (c_flt : r .flt) :
    KeepsN r o (execOpticsRailTrip p s) := by
  unfold execOpticsRailTrip
  repeat' first
    | with_reducible apply KeepsN.mk | with_reducible apply KeepsN.fault | with_reducible assumption
    | with_reducible apply keeps_setCage | with_reducible apply keeps_portFault

end Sys2Proof.Machine
end

