-- ==== Sys2Proof/Laws/KeepPath.lean ====
section
/-! SUPPORT. What each operation of Machine/Path.lean may change. -/

set_option linter.unusedTactic false
set_option linter.unreachableTactic false

namespace Sys2Proof.Machine

variable {r : Part → Prop} {o s : State}

theorem keeps_schDirective (d : Dir) (f : State → State) (step : ∀ s, Keeps r o s → Keeps r o (f s)) (h : Keeps r o s) (c_sch : r .sch) :
    Keeps r o (State.schDirective s d f) := by
  unfold State.schDirective
  repeat' first
    | with_reducible assumption | with_reducible apply step | with_reducible apply keeps_guardStep
    | with_reducible apply keeps_setUp | with_reducible apply keeps_onSch | with_reducible apply keeps_foldl
    | with_reducible apply keeps2_foldl | (with_reducible intro _; beta_reduce)

theorem keeps_beginCmd (n : ℕ) (h : Keeps r o s) (c_nfe : r .nfe) (c_sch : r .sch) (c_val : r .val) (c_cip : r .cip) (c_ldg : r .ldg) (c_ftl : r .ftl) (c_peer : r .peer) (c_flt : r .flt) (c_CIP_LANE_STAT_NONCE_REFUSALS : r (.reg Reg.CIP_LANE_STAT_NONCE_REFUSALS.addr)) (c_FLT_SWATCH_CTL_ARM : r (.reg Reg.FLT_SWATCH_CTL_ARM.addr)) (c_LDG_GAUGE_STAT_FALLBACKS : r (.reg Reg.LDG_GAUGE_STAT_FALLBACKS.addr)) (c_LDG_UNMETERED_LINES : r (.reg Reg.LDG_UNMETERED_LINES.addr)) (c_PWR_SHED_CNT_SHED_WRITES : r (.reg Reg.PWR_SHED_CNT_SHED_WRITES.addr)) (c_VAL_E2E_STAT_E2E_MISMATCHES : r (.reg Reg.VAL_E2E_STAT_E2E_MISMATCHES.addr)) :
    Keeps r o (State.beginCmd s n) := by
  unfold State.beginCmd
  repeat' first
    | with_reducible assumption | with_reducible apply keeps_leaveIntake | with_reducible apply keeps_onCmd
    | with_reducible apply keeps_resubmit | with_reducible apply keeps_onSch | with_reducible apply keeps_foldl
    | with_reducible apply keeps2_foldl | (with_reducible intro _; beta_reduce)
    | with_reducible refine Keeps2.of (by assumption) ?_ | with_reducible apply Keeps2.snd
    | (extract_lets +onlyGivenNames x; refine @Keeps.cut r o _ x ?_ (fun hx => ?_); rotate_left; clear_value x; rotate_right; dsimp -zeta only [x])
    | (extract_lets +onlyGivenNames x; clear_value x) | split

theorem keeps_running (n : ℕ) (p : Cmd → Bool) (f : State → Cmd → State) (step : ∀ s a, Keeps r o s → Keeps r o (f s a)) (h : Keeps r o s) (c_nfe : r .nfe) (c_sch : r .sch) (c_val : r .val) (c_cip : r .cip) (c_ldg : r .ldg) (c_ftl : r .ftl) (c_peer : r .peer) (c_flt : r .flt) (c_CIP_LANE_STAT_NONCE_REFUSALS : r (.reg Reg.CIP_LANE_STAT_NONCE_REFUSALS.addr)) (c_FLT_SWATCH_CTL_ARM : r (.reg Reg.FLT_SWATCH_CTL_ARM.addr)) (c_LDG_GAUGE_STAT_FALLBACKS : r (.reg Reg.LDG_GAUGE_STAT_FALLBACKS.addr)) (c_LDG_UNMETERED_LINES : r (.reg Reg.LDG_UNMETERED_LINES.addr)) (c_PWR_SHED_CNT_SHED_WRITES : r (.reg Reg.PWR_SHED_CNT_SHED_WRITES.addr)) (c_VAL_E2E_STAT_E2E_MISMATCHES : r (.reg Reg.VAL_E2E_STAT_E2E_MISMATCHES.addr)) :
    Keeps r o (State.running s n p f) := by
  unfold State.running
  repeat' first
    | with_reducible assumption | with_reducible apply step | with_reducible apply keeps_beginCmd
    | with_reducible apply keeps_withCmd | with_reducible apply keeps_foldl | with_reducible apply keeps2_foldl
    | (with_reducible intro _; beta_reduce)

theorem keeps_searchDone (n : ℕ) (p : Policy) (h : Keeps r o s) (c_nfe : r .nfe) (c_sch : r .sch) (c_val : r .val) (c_cip : r .cip) (c_ldg : r .ldg) (c_ftl : r .ftl) (c_peer : r .peer) (c_flt : r .flt) (c_CIP_LANE_STAT_NONCE_REFUSALS : r (.reg Reg.CIP_LANE_STAT_NONCE_REFUSALS.addr)) (c_FLT_SWATCH_CTL_ARM : r (.reg Reg.FLT_SWATCH_CTL_ARM.addr)) (c_LDG_GAUGE_STAT_FALLBACKS : r (.reg Reg.LDG_GAUGE_STAT_FALLBACKS.addr)) (c_LDG_UNMETERED_LINES : r (.reg Reg.LDG_UNMETERED_LINES.addr)) (c_PWR_SHED_CNT_SHED_WRITES : r (.reg Reg.PWR_SHED_CNT_SHED_WRITES.addr)) (c_VAL_E2E_STAT_E2E_MISMATCHES : r (.reg Reg.VAL_E2E_STAT_E2E_MISMATCHES.addr)) :
    Keeps r o (State.searchDone s n p) := by
  unfold State.searchDone
  repeat' first
    | with_reducible assumption | with_reducible apply keeps_endHeld | with_reducible apply keeps_onCmd

theorem keeps_execPolicySearch (cmd : ℕ) (parity : List ℕ) (h : Keeps r o s) (c_nfe : r .nfe) (c_sch : r .sch) (c_mch : r .mch) (c_val : r .val) (c_cip : r .cip) (c_ldg : r .ldg) (c_ftl : r .ftl) (c_peer : r .peer) (c_flt : r .flt) (c_CIP_LANE_STAT_NONCE_REFUSALS : r (.reg Reg.CIP_LANE_STAT_NONCE_REFUSALS.addr)) (c_FLT_SWATCH_CTL_ARM : r (.reg Reg.FLT_SWATCH_CTL_ARM.addr)) (c_LDG_GAUGE_STAT_FALLBACKS : r (.reg Reg.LDG_GAUGE_STAT_FALLBACKS.addr)) (c_LDG_UNMETERED_LINES : r (.reg Reg.LDG_UNMETERED_LINES.addr)) (c_MCH_ERR_STAT_SCRUB_FIXES : r (.reg Reg.MCH_ERR_STAT_SCRUB_FIXES.addr)) (c_PWR_SHED_CNT_SHED_WRITES : r (.reg Reg.PWR_SHED_CNT_SHED_WRITES.addr)) (c_VAL_E2E_STAT_E2E_MISMATCHES : r (.reg Reg.VAL_E2E_STAT_E2E_MISMATCHES.addr)) :
    KeepsN r o (execPolicySearch cmd parity s) := by
  unfold execPolicySearch
  apply KeepsN.mk
  apply keeps_withCmd
  · intro v
    extract_lets w
    have hw : Keeps r o w := by
      dsimp -zeta only [w]
      split
      · apply keeps_beginCmd <;> assumption
      · exact h
    clear_value w
    apply keeps_withCmd
    · intro c
      extract_lets z
      have hz : Keeps r o z := by apply keeps_grantSearch <;> assumption
      clear_value z
      split
      · apply keeps_matchParity <;> assumption
      · generalize hx : z.policyOf c.tenant c.searchKey = x
        obtain ⟨p, k⟩ := x
        have hk : Keeps r o k := Keeps2.of hx (by apply keeps_policyOf <;> assumption)
        apply keeps_searchDone <;> assumption
    · exact hw
  · exact h

theorem keeps_countLookup (express : Bool) (second : Bool) (others : ℕ) (fclk : ℕ) (h : Keeps r o s) (c_IDX_EXPRESS_LAT_MAX_FCLK : r (.reg Reg.IDX_EXPRESS_LAT_MAX_FCLK.addr)) (c_IDX_LOOKUP_STAT_SPURIOUS_READS : r (.reg Reg.IDX_LOOKUP_STAT_SPURIOUS_READS.addr)) :
    Keeps r o (State.countLookup s express second others fclk) := by
  unfold State.countLookup
  repeat' first
    | with_reducible assumption | exact c_IDX_EXPRESS_LAT_MAX_FCLK | exact c_IDX_LOOKUP_STAT_SPURIOUS_READS
    | with_reducible apply keeps_bump | with_reducible apply keeps_setFld | with_reducible apply keeps_foldl
    | with_reducible apply keeps2_foldl | (with_reducible intro _; beta_reduce)
    | with_reducible refine Keeps2.of (by assumption) ?_ | with_reducible apply Keeps2.snd
    | (extract_lets +onlyGivenNames x; refine @Keeps.cut r o _ x ?_ (fun hx => ?_); rotate_left; clear_value x; rotate_right; dsimp -zeta only [x])
    | (extract_lets +onlyGivenNames x; clear_value x) | split

theorem keeps_readBucket (b : ℕ) (h : Keeps r o s) (c_idx : r .idx) (c_rings : r .rings) (c_dram : r .dram) (c_flt : r .flt) (c_FLT_SWATCH_CTL_ARM : r (.reg Reg.FLT_SWATCH_CTL_ARM.addr)) :
    Keeps r o (State.readBucket s b) := by
  unfold State.readBucket
  repeat' first
    | with_reducible assumption | with_reducible apply keeps_raise | with_reducible apply keeps_storageRead
    | with_reducible apply keeps_poisonBucket | with_reducible apply keeps_foldl | with_reducible apply keeps2_foldl
    | (with_reducible intro _; beta_reduce) | with_reducible refine Keeps2.of (by assumption) ?_
    | with_reducible apply Keeps2.snd
    | (extract_lets +onlyGivenNames x; refine @Keeps.cut r o _ x ?_ (fun hx => ?_); rotate_left; clear_value x; rotate_right; dsimp -zeta only [x])
    | (extract_lets +onlyGivenNames x; refine @Keeps2.cut r o _ _ x ?_ (fun hx => ?_); rotate_left; clear_value x; rotate_right; dsimp -zeta only [x])
    | (extract_lets +onlyGivenNames x; clear_value x) | split

theorem keeps_readRecords (rs : List DirRec) (h : Keeps r o s) (c_ldg : r .ldg) (c_flt : r .flt) (c_recorder : r .recorder) (c_REC_LOST_STAT_SRAM_OVERWRITTEN : r (.reg Reg.REC_LOST_STAT_SRAM_OVERWRITTEN.addr)) :
    Keeps r o (State.readRecords s rs) := by
  unfold State.readRecords
  repeat' first
    | with_reducible assumption | with_reducible apply keeps_readLines | with_reducible apply keeps_foldl
    | with_reducible apply keeps2_foldl | (with_reducible intro _; beta_reduce)
    | with_reducible refine Keeps2.of (by assumption) ?_ | with_reducible apply Keeps2.snd

theorem keeps_rewriteRecord (key : Bytes) (h : Keeps r o s) (c_idx : r .idx) (c_ldg : r .ldg) (c_ftl : r .ftl) (c_rings : r .rings) (c_dram : r .dram) (c_flt : r .flt) (c_FLT_SWATCH_CTL_ARM : r (.reg Reg.FLT_SWATCH_CTL_ARM.addr)) (c_LDG_GAUGE_STAT_FALLBACKS : r (.reg Reg.LDG_GAUGE_STAT_FALLBACKS.addr)) :
    Keeps r o (State.rewriteRecord s key) := by
  unfold State.rewriteRecord
  repeat' first
    | with_reducible assumption | with_reducible apply keeps_drawMeta | with_reducible apply keeps_writeRecord
    | with_reducible apply keeps_foldl | with_reducible apply keeps2_foldl | (with_reducible intro _; beta_reduce)
    | with_reducible refine Keeps2.of (by assumption) ?_ | with_reducible apply Keeps2.snd
    | (extract_lets +onlyGivenNames x; refine @Keeps.cut r o _ x ?_ (fun hx => ?_); rotate_left; clear_value x; rotate_right; dsimp -zeta only [x])
    | (extract_lets +onlyGivenNames x; clear_value x) | split

theorem keeps_execIndexLookup (cmd : ℕ) (refreshing0 : Bool) (errs : LookupErrors) (fclk : ℕ) (h : Keeps r o s) (c_nfe : r .nfe) (c_sch : r .sch) (c_idx : r .idx) (c_val : r .val) (c_cip : r .cip) (c_ldg : r .ldg) (c_ftl : r .ftl) (c_peer : r .peer) (c_rings : r .rings) (c_dram : r .dram) (c_flt : r .flt) (c_recorder : r .recorder) (c_CIP_LANE_STAT_NONCE_REFUSALS : r (.reg Reg.CIP_LANE_STAT_NONCE_REFUSALS.addr)) (c_FLT_SWATCH_CTL_ARM : r (.reg Reg.FLT_SWATCH_CTL_ARM.addr)) (c_IDX_EXPRESS_LAT_MAX_FCLK : r (.reg Reg.IDX_EXPRESS_LAT_MAX_FCLK.addr)) (c_IDX_LOOKUP_STAT_SPURIOUS_READS : r (.reg Reg.IDX_LOOKUP_STAT_SPURIOUS_READS.addr)) (c_LDG_GAUGE_STAT_FALLBACKS : r (.reg Reg.LDG_GAUGE_STAT_FALLBACKS.addr)) (c_LDG_UNMETERED_LINES : r (.reg Reg.LDG_UNMETERED_LINES.addr)) (c_PWR_SHED_CNT_SHED_WRITES : r (.reg Reg.PWR_SHED_CNT_SHED_WRITES.addr)) (c_REC_LOST_STAT_SRAM_OVERWRITTEN : r (.reg Reg.REC_LOST_STAT_SRAM_OVERWRITTEN.addr)) (c_VAL_E2E_STAT_E2E_MISMATCHES : r (.reg Reg.VAL_E2E_STAT_E2E_MISMATCHES.addr)) :
    KeepsN r o (execIndexLookup cmd refreshing0 errs fclk s) := by
  unfold execIndexLookup
  repeat' first
    | with_reducible apply KeepsN.mk | with_reducible apply KeepsN.fault | with_reducible assumption
    | with_reducible apply keeps_rewriteRecord | with_reducible apply keeps_takeHolds
    | with_reducible apply keeps_countLookup | with_reducible apply keeps_bucketError
    | with_reducible apply keeps_running | with_reducible apply keeps_onCmd | with_reducible apply keeps_readRecords
    | with_reducible apply keeps_readBucket | with_reducible apply keeps_foldl | with_reducible apply keeps2_foldl
    | (with_reducible intro _; beta_reduce) | with_reducible refine Keeps2.of (by assumption) ?_
    | with_reducible apply Keeps2.snd
    | (extract_lets +onlyGivenNames x; refine @Keeps.cut r o _ x ?_ (fun hx => ?_); rotate_left; clear_value x; rotate_right; dsimp -zeta only [x])
    | (extract_lets +onlyGivenNames x; clear_value x) | split

end Sys2Proof.Machine
end

