-- ==== Sys2Proof/Laws/KeepRecorder.lean ====
section
/-! SUPPORT. What each operation of Machine/Recorder.lean may change. -/

set_option linter.unusedTactic false
set_option linter.unreachableTactic false

namespace Sys2Proof.Machine

variable {r : Part → Prop} {o s : State}

theorem keeps_rowCeiling (h : Keeps r o s) (c_ldg : r .ldg) (c_flt : r .flt) (c_LDG_GAUGE_STAT_FALLBACKS : r (.reg Reg.LDG_GAUGE_STAT_FALLBACKS.addr)) :
    Keeps r o (State.rowCeiling s) := by
  unfold State.rowCeiling
  repeat' first
    | with_reducible assumption | with_reducible apply keeps_onKept | with_reducible apply keeps_keepMeta
    | with_reducible apply keeps_foldl | with_reducible apply keeps2_foldl | (with_reducible intro _; beta_reduce)
    | with_reducible refine Keeps2.of (by assumption) ?_ | with_reducible apply Keeps2.snd
    | (extract_lets +onlyGivenNames x; refine @Keeps.cut r o _ x ?_ (fun hx => ?_); rotate_left; clear_value x; rotate_right; dsimp -zeta only [x])
    | (extract_lets +onlyGivenNames x; clear_value x) | split

theorem keeps_takeRow (h : Keeps r o s) (c_ldg : r .ldg) (c_flt : r .flt) (c_recorder : r .recorder) (c_LDG_GAUGE_STAT_FALLBACKS : r (.reg Reg.LDG_GAUGE_STAT_FALLBACKS.addr)) :
    Keeps2 r o (State.takeRow s) := by
  unfold State.takeRow
  repeat' first
    | with_reducible assumption | with_reducible apply keeps_rowCeiling | with_reducible apply keeps_onRec
    | with_reducible apply keeps_foldl | with_reducible apply keeps2_foldl | (with_reducible intro _; beta_reduce)
    | with_reducible refine Keeps2.of (by assumption) ?_ | with_reducible apply Keeps2.snd
    | (extract_lets +onlyGivenNames x; refine @Keeps.cut r o _ x ?_ (fun hx => ?_); rotate_left; clear_value x; rotate_right; dsimp -zeta only [x])
    | (extract_lets +onlyGivenNames x; clear_value x) | split | with_reducible apply Keeps2.mk

theorem keeps_takeSeq (src : ℕ) (h : Keeps r o s) (c_recorder : r .recorder) :
    Keeps2 r o (State.takeSeq s src) := by
  unfold State.takeSeq
  repeat' first
    | with_reducible assumption | with_reducible apply keeps_onRec | with_reducible apply keeps_foldl
    | with_reducible apply keeps2_foldl | (with_reducible intro _; beta_reduce)
    | with_reducible refine Keeps2.of (by assumption) ?_ | with_reducible apply Keeps2.snd
    | (extract_lets +onlyGivenNames x; refine @Keeps.cut r o _ x ?_ (fun hx => ?_); rotate_left; clear_value x; rotate_right; dsimp -zeta only [x])
    | (extract_lets +onlyGivenNames x; clear_value x) | split | with_reducible apply Keeps2.mk

theorem keeps_enqueue (r' : Rec) (h : Keeps r o s) (c_ldg : r .ldg) (c_flt : r .flt) (c_recorder : r .recorder) (c_LDG_GAUGE_STAT_FALLBACKS : r (.reg Reg.LDG_GAUGE_STAT_FALLBACKS.addr)) :
    Keeps r o (State.enqueue s r') := by
  unfold State.enqueue
  repeat' first
    | with_reducible assumption | with_reducible apply keeps_takeRow | with_reducible apply keeps_onRec
    | with_reducible apply keeps_foldl | with_reducible apply keeps2_foldl | (with_reducible intro _; beta_reduce)
    | with_reducible refine Keeps2.of (by assumption) ?_ | with_reducible apply Keeps2.snd

theorem keeps_absorb (r' : Rec) (h : Keeps r o s) (c_recorder : r .recorder) (c_REC_COAL_STAT_SUMMARIES : r (.reg Reg.REC_COAL_STAT_SUMMARIES.addr)) :
    Keeps r o (State.absorb s r') := by
  unfold State.absorb
  repeat' first
    | with_reducible assumption | exact c_REC_COAL_STAT_SUMMARIES | with_reducible apply keeps_bump
    | with_reducible apply keeps_onRec

theorem keeps_recIntake (r' : Rec) (h : Keeps r o s) (c_ldg : r .ldg) (c_flt : r .flt) (c_recorder : r .recorder) (c_LDG_GAUGE_STAT_FALLBACKS : r (.reg Reg.LDG_GAUGE_STAT_FALLBACKS.addr)) (c_REC_COAL_STAT_SUMMARIES : r (.reg Reg.REC_COAL_STAT_SUMMARIES.addr)) :
    Keeps r o (State.recIntake s r') := by
  unfold State.recIntake
  generalize hx : s.takeSeq r'.src = x
  obtain ⟨q, u⟩ := x
  have hu : Keeps r o u := Keeps2.of hx (by apply keeps_takeSeq <;> assumption)
  dsimp -zeta only
  extract_lets rec held
  clear_value held
  split
  · split
    · apply keeps_enqueue <;> assumption
    · exact keeps_onRec _ hu c_recorder
  · split
    · apply keeps_enqueue <;> assumption
    · apply keeps_absorb <;> assumption

theorem keeps_fifoDrained (h : Keeps r o s) (c_ldg : r .ldg) (c_flt : r .flt) (c_recorder : r .recorder) (c_LDG_GAUGE_STAT_FALLBACKS : r (.reg Reg.LDG_GAUGE_STAT_FALLBACKS.addr)) (c_REC_COAL_STAT_SUMMARIES : r (.reg Reg.REC_COAL_STAT_SUMMARIES.addr)) :
    Keeps r o (State.fifoDrained s) := by
  unfold State.fifoDrained
  extract_lets u due
  have hu : Keeps r o u := by
    dsimp -zeta only [u]
    split
    · split
      · apply keeps_onRec <;> first | assumption | (apply keeps_enqueue <;> assumption)
      · exact h
    · exact h
  clear_value due
  split
  · apply keeps_foldl
    · intro v a hv
      apply keeps_bump <;> first | assumption | (apply keeps_enqueue <;> assumption)
    · exact keeps_onRec _ hu c_recorder
  · exact hu

theorem keeps_toFallback (f : Fallback) (r' : Rec) (h : Keeps r o s) (c_recorder : r .recorder) (c_REC_LOST_STAT_SRAM_OVERWRITTEN : r (.reg Reg.REC_LOST_STAT_SRAM_OVERWRITTEN.addr)) :
    Keeps r o (State.toFallback s f r') := by
  unfold State.toFallback
  repeat' first
    | with_reducible assumption | exact c_REC_LOST_STAT_SRAM_OVERWRITTEN | with_reducible apply keeps_bump
    | with_reducible apply keeps_onRec | with_reducible apply keeps_foldl | with_reducible apply keeps2_foldl
    | (with_reducible intro _; beta_reduce) | with_reducible refine Keeps2.of (by assumption) ?_
    | with_reducible apply Keeps2.snd
    | (extract_lets +onlyGivenNames x; refine @Keeps.cut r o _ x ?_ (fun hx => ?_); rotate_left; clear_value x; rotate_right; dsimp -zeta only [x])
    | (extract_lets +onlyGivenNames x; clear_value x) | split

theorem keeps_toLine (r' : Rec) (h : Keeps r o s) (c_ldg : r .ldg) (c_flt : r .flt) (c_recorder : r .recorder) (c_FLT_SWATCH_CTL_ARM : r (.reg Reg.FLT_SWATCH_CTL_ARM.addr)) (c_LDG_UNMETERED_LINES : r (.reg Reg.LDG_UNMETERED_LINES.addr)) (c_REC_LOST_STAT_SRAM_OVERWRITTEN : r (.reg Reg.REC_LOST_STAT_SRAM_OVERWRITTEN.addr)) :
    Keeps r o (State.toLine s r') := by
  unfold State.toLine
  repeat' first
    | with_reducible assumption | with_reducible apply keeps_onRec | with_reducible apply keeps_drawAlways
    | with_reducible apply keeps_recLineLost | with_reducible apply keeps_swatchWrite
    | with_reducible apply keeps_countGroup | with_reducible apply keeps_foldl | with_reducible apply keeps2_foldl
    | (with_reducible intro _; beta_reduce) | with_reducible refine Keeps2.of (by assumption) ?_
    | with_reducible apply Keeps2.snd
    | (extract_lets +onlyGivenNames x; refine @Keeps.cut r o _ x ?_ (fun hx => ?_); rotate_left; clear_value x; rotate_right; dsimp -zeta only [x])
    | (extract_lets +onlyGivenNames x; clear_value x) | split

theorem keeps_execRecordWrite (h : Keeps r o s) (c_ldg : r .ldg) (c_flt : r .flt) (c_recorder : r .recorder) (c_FLT_SWATCH_CTL_ARM : r (.reg Reg.FLT_SWATCH_CTL_ARM.addr)) (c_LDG_GAUGE_STAT_FALLBACKS : r (.reg Reg.LDG_GAUGE_STAT_FALLBACKS.addr)) (c_LDG_UNMETERED_LINES : r (.reg Reg.LDG_UNMETERED_LINES.addr)) (c_REC_COAL_STAT_SUMMARIES : r (.reg Reg.REC_COAL_STAT_SUMMARIES.addr)) (c_REC_LOST_STAT_SRAM_OVERWRITTEN : r (.reg Reg.REC_LOST_STAT_SRAM_OVERWRITTEN.addr)) :
    KeepsN r o (execRecordWrite s) := by
  unfold execRecordWrite
  repeat' first
    | with_reducible apply KeepsN.mk | with_reducible apply KeepsN.fault | with_reducible assumption
    | with_reducible apply keeps_onRec | with_reducible apply keeps_toLine | with_reducible apply keeps_fifoDrained
    | with_reducible apply keeps_toFallback | with_reducible apply keeps_foldl | with_reducible apply keeps2_foldl
    | (with_reducible intro _; beta_reduce) | with_reducible refine Keeps2.of (by assumption) ?_
    | with_reducible apply Keeps2.snd
    | (extract_lets +onlyGivenNames x; refine @Keeps.cut r o _ x ?_ (fun hx => ?_); rotate_left; clear_value x; rotate_right; dsimp -zeta only [x])
    | (extract_lets +onlyGivenNames x; clear_value x) | split

theorem keeps_recFallback (level : ℕ) (k : ℕ) (coincident : Bool) (lostLines : ℕ) (cause : ℕ) (h : Keeps r o s) (c_ldg : r .ldg) (c_flt : r .flt) (c_recorder : r .recorder) (c_LDG_GAUGE_STAT_FALLBACKS : r (.reg Reg.LDG_GAUGE_STAT_FALLBACKS.addr)) :
    Keeps r o (State.recFallback s level k coincident lostLines cause) := by
  unfold State.recFallback
  repeat' first
    | with_reducible assumption | with_reducible apply keeps_takeRow | with_reducible apply keeps_onRec
    | with_reducible apply keeps_takeSeq | with_reducible apply keeps_foldl | with_reducible apply keeps2_foldl
    | (with_reducible intro _; beta_reduce) | with_reducible refine Keeps2.of (by assumption) ?_
    | with_reducible apply Keeps2.snd
    | (extract_lets +onlyGivenNames x; refine @Keeps.cut r o _ x ?_ (fun hx => ?_); rotate_left; clear_value x; rotate_right; dsimp -zeta only [x])
    | (extract_lets +onlyGivenNames x; refine @Keeps2.cut r o _ _ x ?_ (fun hx => ?_); rotate_left; clear_value x; rotate_right; dsimp -zeta only [x])
    | (extract_lets +onlyGivenNames x; clear_value x) | split

theorem keeps_execRecCopyBack (h : Keeps r o s) (c_ldg : r .ldg) (c_flt : r .flt) (c_recorder : r .recorder) (c_FLT_SWATCH_CTL_ARM : r (.reg Reg.FLT_SWATCH_CTL_ARM.addr)) (c_LDG_UNMETERED_LINES : r (.reg Reg.LDG_UNMETERED_LINES.addr)) (c_REC_LOST_STAT_SRAM_OVERWRITTEN : r (.reg Reg.REC_LOST_STAT_SRAM_OVERWRITTEN.addr)) :
    KeepsN r o (execRecCopyBack s) := by
  unfold execRecCopyBack
  repeat' first
    | with_reducible apply KeepsN.mk | with_reducible apply KeepsN.fault | with_reducible assumption
    | with_reducible apply keeps_onRec | with_reducible apply keeps_toLine | with_reducible apply keeps_raise
    | with_reducible apply keeps_foldl | with_reducible apply keeps2_foldl | (with_reducible intro _; beta_reduce)
    | with_reducible refine Keeps2.of (by assumption) ?_ | with_reducible apply Keeps2.snd
    | (extract_lets +onlyGivenNames x; refine @Keeps.cut r o _ x ?_ (fun hx => ?_); rotate_left; clear_value x; rotate_right; dsimp -zeta only [x])
    | (extract_lets +onlyGivenNames x; clear_value x) | split

end Sys2Proof.Machine
end

