-- ==== Sys2Proof/Laws/KeepAdmin.lean ====
section
/-! SUPPORT. What each operation of Machine/Admin.lean may change. -/

set_option linter.unusedTactic false
set_option linter.unreachableTactic false

namespace Sys2Proof.Machine

variable {r : Part → Prop} {o s : State}

theorem keeps_ringAnswer (d : Dir) (a : AdminAns) (h : Keeps r o s) (c_rings : r .rings) (c_dram : r .dram) (c_flt : r .flt) (c_FLT_SWATCH_CTL_ARM : r (.reg Reg.FLT_SWATCH_CTL_ARM.addr)) :
    Keeps r o (State.ringAnswer s d a) := by
  unfold State.ringAnswer
  repeat' first
    | with_reducible assumption | with_reducible apply keeps_finish | with_reducible apply keeps_finishExt
    | with_reducible apply keeps_foldl | with_reducible apply keeps2_foldl | (with_reducible intro _; beta_reduce)
    | with_reducible refine Keeps2.of (by assumption) ?_ | with_reducible apply Keeps2.snd
    | (extract_lets +onlyGivenNames x; refine @Keeps.cut r o _ x ?_ (fun hx => ?_); rotate_left; clear_value x; rotate_right; dsimp -zeta only [x])
    | (extract_lets +onlyGivenNames x; clear_value x) | split

theorem keeps_answer (via : AdminVia) (a : AdminAns) (h : Keeps r o s) (c_nfe : r .nfe) (c_sch : r .sch) (c_val : r .val) (c_cip : r .cip) (c_ldg : r .ldg) (c_ftl : r .ftl) (c_peer : r .peer) (c_rings : r .rings) (c_dram : r .dram) (c_flt : r .flt) (c_CIP_LANE_STAT_NONCE_REFUSALS : r (.reg Reg.CIP_LANE_STAT_NONCE_REFUSALS.addr)) (c_FLT_SWATCH_CTL_ARM : r (.reg Reg.FLT_SWATCH_CTL_ARM.addr)) (c_LDG_GAUGE_STAT_FALLBACKS : r (.reg Reg.LDG_GAUGE_STAT_FALLBACKS.addr)) (c_LDG_UNMETERED_LINES : r (.reg Reg.LDG_UNMETERED_LINES.addr)) (c_PWR_SHED_CNT_SHED_WRITES : r (.reg Reg.PWR_SHED_CNT_SHED_WRITES.addr)) :
    Keeps r o (State.answer s via a) := by
  unfold State.answer
  repeat' first
    | with_reducible assumption | with_reducible apply keeps_endCmd | with_reducible apply keeps_sendAs
    | with_reducible apply keeps_send | with_reducible apply keeps_ringAnswer | with_reducible apply keeps_foldl
    | with_reducible apply keeps2_foldl | (with_reducible intro _; beta_reduce)
    | with_reducible refine Keeps2.of (by assumption) ?_ | with_reducible apply Keeps2.snd
    | (extract_lets +onlyGivenNames x; refine @Keeps.cut r o _ x ?_ (fun hx => ?_); rotate_left; clear_value x; rotate_right; dsimp -zeta only [x])
    | (extract_lets +onlyGivenNames x; clear_value x) | split

theorem keeps_admin (via : AdminVia) (op : Opcode) (f : State → State) (step : ∀ s, Keeps r o s → Keeps r o (f s)) (h : Keeps r o s) (c_nfe : r .nfe) (c_sch : r .sch) (c_val : r .val) (c_cip : r .cip) (c_ldg : r .ldg) (c_ftl : r .ftl) (c_peer : r .peer) (c_flt : r .flt) (c_CIP_LANE_STAT_NONCE_REFUSALS : r (.reg Reg.CIP_LANE_STAT_NONCE_REFUSALS.addr)) (c_FLT_SWATCH_CTL_ARM : r (.reg Reg.FLT_SWATCH_CTL_ARM.addr)) (c_LDG_GAUGE_STAT_FALLBACKS : r (.reg Reg.LDG_GAUGE_STAT_FALLBACKS.addr)) (c_LDG_UNMETERED_LINES : r (.reg Reg.LDG_UNMETERED_LINES.addr)) (c_PWR_SHED_CNT_SHED_WRITES : r (.reg Reg.PWR_SHED_CNT_SHED_WRITES.addr)) (c_VAL_E2E_STAT_E2E_MISMATCHES : r (.reg Reg.VAL_E2E_STAT_E2E_MISMATCHES.addr)) :
    Keeps r o (State.admin s via op f) := by
  unfold State.admin
  repeat' first
    | with_reducible assumption | with_reducible apply step | with_reducible apply keeps_running
    | with_reducible apply keeps_foldl | with_reducible apply keeps2_foldl | (with_reducible intro _; beta_reduce)
    | with_reducible refine Keeps2.of (by assumption) ?_ | with_reducible apply Keeps2.snd
    | (extract_lets +onlyGivenNames x; refine @Keeps.cut r o _ x ?_ (fun hx => ?_); rotate_left; clear_value x; rotate_right; dsimp -zeta only [x])
    | (extract_lets +onlyGivenNames x; clear_value x) | split

theorem keeps_execIdentify (via : AdminVia) (length : ℕ) (h : Keeps r o s) (c_nfe : r .nfe) (c_sch : r .sch) (c_val : r .val) (c_cip : r .cip) (c_ldg : r .ldg) (c_ftl : r .ftl) (c_peer : r .peer) (c_rings : r .rings) (c_dram : r .dram) (c_flt : r .flt) (c_CIP_LANE_STAT_NONCE_REFUSALS : r (.reg Reg.CIP_LANE_STAT_NONCE_REFUSALS.addr)) (c_FLT_SWATCH_CTL_ARM : r (.reg Reg.FLT_SWATCH_CTL_ARM.addr)) (c_LDG_GAUGE_STAT_FALLBACKS : r (.reg Reg.LDG_GAUGE_STAT_FALLBACKS.addr)) (c_LDG_UNMETERED_LINES : r (.reg Reg.LDG_UNMETERED_LINES.addr)) (c_PWR_SHED_CNT_SHED_WRITES : r (.reg Reg.PWR_SHED_CNT_SHED_WRITES.addr)) (c_VAL_E2E_STAT_E2E_MISMATCHES : r (.reg Reg.VAL_E2E_STAT_E2E_MISMATCHES.addr)) :
    KeepsN r o (execIdentify via length s) := by
  unfold execIdentify
  repeat' first
    | with_reducible apply KeepsN.mk | with_reducible apply KeepsN.fault | with_reducible assumption
    | with_reducible apply keeps_answer | with_reducible apply keeps_admin | with_reducible apply keeps_foldl
    | with_reducible apply keeps2_foldl | (with_reducible intro _; beta_reduce)

theorem keeps_spendLeaf (requester : ℕ) (h : Keeps r o s) (c_ldg : r .ldg) (c_flt : r .flt) (c_sec : r .sec) (c_LDG_UNMETERED_LINES : r (.reg Reg.LDG_UNMETERED_LINES.addr)) :
    Keeps r o (State.spendLeaf s requester) := by
  unfold State.spendLeaf
  repeat' first
    | with_reducible assumption | with_reducible apply keeps_onKept | with_reducible apply keeps_onSec
    | with_reducible apply keeps_raise | with_reducible apply keeps_keepSecure | with_reducible apply keeps_foldl
    | with_reducible apply keeps2_foldl | (with_reducible intro _; beta_reduce)
    | with_reducible refine Keeps2.of (by assumption) ?_ | with_reducible apply Keeps2.snd
    | (extract_lets +onlyGivenNames x; refine @Keeps.cut r o _ x ?_ (fun hx => ?_); rotate_left; clear_value x; rotate_right; dsimp -zeta only [x])
    | (extract_lets +onlyGivenNames x; clear_value x) | split

theorem keeps_attestFor (via : AdminVia) (nonce : Bytes) (length : ℕ) (h : Keeps r o s) (c_nfe : r .nfe) (c_sch : r .sch) (c_val : r .val) (c_cip : r .cip) (c_ldg : r .ldg) (c_ftl : r .ftl) (c_peer : r .peer) (c_rings : r .rings) (c_dram : r .dram) (c_flt : r .flt) (c_sec : r .sec) (c_CIP_LANE_STAT_NONCE_REFUSALS : r (.reg Reg.CIP_LANE_STAT_NONCE_REFUSALS.addr)) (c_FLT_SWATCH_CTL_ARM : r (.reg Reg.FLT_SWATCH_CTL_ARM.addr)) (c_LDG_GAUGE_STAT_FALLBACKS : r (.reg Reg.LDG_GAUGE_STAT_FALLBACKS.addr)) (c_LDG_UNMETERED_LINES : r (.reg Reg.LDG_UNMETERED_LINES.addr)) (c_PWR_SHED_CNT_SHED_WRITES : r (.reg Reg.PWR_SHED_CNT_SHED_WRITES.addr)) :
    Keeps r o (State.attestFor s via nonce length) := by
  unfold State.attestFor
  repeat' first
    | with_reducible assumption | with_reducible apply keeps_answer | with_reducible apply keeps_spendLeaf
    | with_reducible apply keeps_foldl | with_reducible apply keeps2_foldl | (with_reducible intro _; beta_reduce)
    | with_reducible refine Keeps2.of (by assumption) ?_ | with_reducible apply Keeps2.snd
    | (extract_lets +onlyGivenNames x; refine @Keeps.cut r o _ x ?_ (fun hx => ?_); rotate_left; clear_value x; rotate_right; dsimp -zeta only [x])
    | (extract_lets +onlyGivenNames x; clear_value x) | split

theorem keeps_execAttest (via : AdminVia) (nonce : Bytes) (length : ℕ) (h : Keeps r o s) (c_nfe : r .nfe) (c_sch : r .sch) (c_val : r .val) (c_cip : r .cip) (c_ldg : r .ldg) (c_ftl : r .ftl) (c_peer : r .peer) (c_rings : r .rings) (c_dram : r .dram) (c_flt : r .flt) (c_sec : r .sec) (c_CIP_LANE_STAT_NONCE_REFUSALS : r (.reg Reg.CIP_LANE_STAT_NONCE_REFUSALS.addr)) (c_FLT_SWATCH_CTL_ARM : r (.reg Reg.FLT_SWATCH_CTL_ARM.addr)) (c_LDG_GAUGE_STAT_FALLBACKS : r (.reg Reg.LDG_GAUGE_STAT_FALLBACKS.addr)) (c_LDG_UNMETERED_LINES : r (.reg Reg.LDG_UNMETERED_LINES.addr)) (c_PWR_SHED_CNT_SHED_WRITES : r (.reg Reg.PWR_SHED_CNT_SHED_WRITES.addr)) (c_VAL_E2E_STAT_E2E_MISMATCHES : r (.reg Reg.VAL_E2E_STAT_E2E_MISMATCHES.addr)) :
    KeepsN r o (execAttest via nonce length s) := by
  unfold execAttest
  repeat' first
    | with_reducible apply KeepsN.mk | with_reducible apply KeepsN.fault | with_reducible assumption
    | with_reducible apply keeps_attestFor | with_reducible apply keeps_admin | with_reducible apply keeps_foldl
    | with_reducible apply keeps2_foldl | (with_reducible intro _; beta_reduce)
    | with_reducible refine Keeps2.of (by assumption) ?_ | with_reducible apply Keeps2.snd
    | (extract_lets +onlyGivenNames x; refine @Keeps.cut r o _ x ?_ (fun hx => ?_); rotate_left; clear_value x; rotate_right; dsimp -zeta only [x])
    | (extract_lets +onlyGivenNames x; clear_value x) | split

theorem keeps_execAttestTokenRefill (h : Keeps r o s) (c_sec : r .sec) :
    KeepsN r o (execAttestTokenRefill s) := by
  unfold execAttestTokenRefill
  repeat' first
    | with_reducible apply KeepsN.mk | with_reducible apply KeepsN.fault | with_reducible assumption
    | with_reducible apply keeps_onSec

theorem keeps_retireSpoiled (first : ℕ) (count : ℕ) (h : Keeps r o s) (c_ldg : r .ldg) (c_flt : r .flt) (c_recorder : r .recorder) (c_REC_LOST_STAT_SRAM_OVERWRITTEN : r (.reg Reg.REC_LOST_STAT_SRAM_OVERWRITTEN.addr)) :
    Keeps r o (State.retireSpoiled s first count) := by
  unfold State.retireSpoiled
  repeat' first
    | with_reducible assumption | with_reducible apply keeps_copyRead | with_reducible apply keeps_foldl
    | with_reducible apply keeps2_foldl | (with_reducible intro _; beta_reduce)
    | with_reducible refine Keeps2.of (by assumption) ?_ | with_reducible apply Keeps2.snd
    | (extract_lets +onlyGivenNames x; refine @Keeps.cut r o _ x ?_ (fun hx => ?_); rotate_left; clear_value x; rotate_right; dsimp -zeta only [x])
    | (extract_lets +onlyGivenNames x; clear_value x) | split

theorem keeps_loseSpoiled (first : ℕ) (count : ℕ) (h : Keeps r o s) (c_flt : r .flt) (c_recorder : r .recorder) (c_REC_LOST_STAT_SRAM_OVERWRITTEN : r (.reg Reg.REC_LOST_STAT_SRAM_OVERWRITTEN.addr)) :
    Keeps r o (State.loseSpoiled s first count) := by
  unfold State.loseSpoiled
  repeat' first
    | with_reducible assumption | with_reducible apply keeps_raise | with_reducible apply keeps_onFlt
    | with_reducible apply keeps_recLineLost | with_reducible apply keeps_foldl | with_reducible apply keeps2_foldl
    | (with_reducible intro _; beta_reduce)

theorem keeps_execRecRead (via : AdminVia) (first : ℕ) (length : ℕ) (h : Keeps r o s) (c_nfe : r .nfe) (c_sch : r .sch) (c_val : r .val) (c_cip : r .cip) (c_ldg : r .ldg) (c_ftl : r .ftl) (c_peer : r .peer) (c_rings : r .rings) (c_dram : r .dram) (c_flt : r .flt) (c_recorder : r .recorder) (c_CIP_LANE_STAT_NONCE_REFUSALS : r (.reg Reg.CIP_LANE_STAT_NONCE_REFUSALS.addr)) (c_FLT_SWATCH_CTL_ARM : r (.reg Reg.FLT_SWATCH_CTL_ARM.addr)) (c_LDG_GAUGE_STAT_FALLBACKS : r (.reg Reg.LDG_GAUGE_STAT_FALLBACKS.addr)) (c_LDG_UNMETERED_LINES : r (.reg Reg.LDG_UNMETERED_LINES.addr)) (c_PWR_SHED_CNT_SHED_WRITES : r (.reg Reg.PWR_SHED_CNT_SHED_WRITES.addr)) (c_REC_LOST_STAT_SRAM_OVERWRITTEN : r (.reg Reg.REC_LOST_STAT_SRAM_OVERWRITTEN.addr)) (c_VAL_E2E_STAT_E2E_MISMATCHES : r (.reg Reg.VAL_E2E_STAT_E2E_MISMATCHES.addr)) :
    KeepsN r o (execRecRead via first length s) := by
  unfold execRecRead
  repeat' first
    | with_reducible apply KeepsN.mk | with_reducible apply KeepsN.fault | with_reducible assumption
    | with_reducible apply keeps_loseSpoiled | with_reducible apply keeps_answer
    | with_reducible apply keeps_retireSpoiled | with_reducible apply keeps_admin | with_reducible apply keeps_foldl
    | with_reducible apply keeps2_foldl | (with_reducible intro _; beta_reduce)

theorem keeps_useRef (requester : ℕ) (purpose : ℕ) (ref : ℕ) (h : Keeps r o s) (c_flt : r .flt) (c_sec : r .sec) :
    Keeps2 r o (State.useRef s requester purpose ref) := by
  unfold State.useRef
  repeat' first
    | with_reducible assumption | with_reducible apply keeps_onSec | with_reducible apply keeps_raise
    | with_reducible apply keeps_foldl | with_reducible apply keeps2_foldl | (with_reducible intro _; beta_reduce)
    | with_reducible refine Keeps2.of (by assumption) ?_ | with_reducible apply Keeps2.snd
    | (extract_lets +onlyGivenNames x; refine @Keeps.cut r o _ x ?_ (fun hx => ?_); rotate_left; clear_value x; rotate_right; dsimp -zeta only [x])
    | (extract_lets +onlyGivenNames x; clear_value x) | split | with_reducible apply Keeps2.mk

theorem keeps_clearMarker (old : ℕ) (next : ℕ) (requester : ℕ) (h : Keeps r o s) (c_ldg : r .ldg) (c_flt : r .flt) (c_recorder : r .recorder) (c_LDG_GAUGE_STAT_FALLBACKS : r (.reg Reg.LDG_GAUGE_STAT_FALLBACKS.addr)) :
    Keeps r o (State.clearMarker s old next requester) := by
  unfold State.clearMarker
  repeat' first
    | with_reducible assumption | with_reducible apply keeps_enqueue | with_reducible apply keeps_takeSeq
    | with_reducible apply keeps_foldl | with_reducible apply keeps2_foldl | (with_reducible intro _; beta_reduce)
    | with_reducible refine Keeps2.of (by assumption) ?_ | with_reducible apply Keeps2.snd

theorem keeps_execRecClear (d : Dir) (clearTo : ℕ) (requester : ℕ) (ref : ℕ) (h : Keeps r o s) (c_ldg : r .ldg) (c_rings : r .rings) (c_dram : r .dram) (c_flt : r .flt) (c_recorder : r .recorder) (c_sec : r .sec) (c_FLT_SWATCH_CTL_ARM : r (.reg Reg.FLT_SWATCH_CTL_ARM.addr)) (c_LDG_GAUGE_STAT_FALLBACKS : r (.reg Reg.LDG_GAUGE_STAT_FALLBACKS.addr)) :
    KeepsN r o (execRecClear d clearTo requester ref s) := by
  unfold execRecClear
  repeat' first
    | with_reducible apply KeepsN.mk | with_reducible apply KeepsN.fault | with_reducible assumption
    | with_reducible apply keeps_onKept | with_reducible apply keeps_guardStep | with_reducible apply keeps_finish
    | with_reducible apply keeps_raise | with_reducible apply keeps_keepMeta | with_reducible apply keeps_clearMarker
    | with_reducible apply keeps_useRef | with_reducible apply keeps_foldl | with_reducible apply keeps2_foldl
    | (with_reducible intro _; beta_reduce) | with_reducible refine Keeps2.of (by assumption) ?_
    | with_reducible apply Keeps2.snd
    | (extract_lets +onlyGivenNames x; refine @Keeps.cut r o _ x ?_ (fun hx => ?_); rotate_left; clear_value x; rotate_right; dsimp -zeta only [x])
    | (extract_lets +onlyGivenNames x; refine @Keeps2.cut r o _ _ x ?_ (fun hx => ?_); rotate_left; clear_value x; rotate_right; dsimp -zeta only [x])
    | (extract_lets +onlyGivenNames x; clear_value x) | split

end Sys2Proof.Machine
end

