-- ==== Sys2Proof/Laws/KeepSegments.lean ====
section
/-! SUPPORT. What each operation of Machine/Segments.lean may change. -/

set_option linter.unusedTactic false
set_option linter.unreachableTactic false

namespace Sys2Proof.Machine

variable {r : Part → Prop} {o s : State}

theorem keeps_pack (compress : Bool) (b : Bytes) (h : Keeps r o s) (c_VAL_COMP_STAT_RAW_BY_PROBE : r (.reg Reg.VAL_COMP_STAT_RAW_BY_PROBE.addr)) :
    Keeps3 r o (State.pack s compress b) := by
  unfold State.pack
  repeat' first
    | with_reducible assumption | exact c_VAL_COMP_STAT_RAW_BY_PROBE | with_reducible apply keeps_bump
    | with_reducible apply keeps_foldl | with_reducible apply keeps2_foldl | (with_reducible intro _; beta_reduce)
    | with_reducible refine Keeps2.of (by assumption) ?_ | with_reducible apply Keeps2.snd
    | (extract_lets +onlyGivenNames x; refine @Keeps.cut r o _ x ?_ (fun hx => ?_); rotate_left; clear_value x; rotate_right; dsimp -zeta only [x])
    | (extract_lets +onlyGivenNames x; clear_value x) | split | with_reducible apply Keeps3.mk

theorem keeps_valSwatch (g : Seg) (h : Keeps r o s) (c_flt : r .flt) (c_VAL_SWATCH_ARM : r (.reg Reg.VAL_SWATCH_ARM.addr)) :
    Keeps2 r o (State.valSwatch s g) := by
  unfold State.valSwatch
  repeat' first
    | with_reducible assumption | exact c_VAL_SWATCH_ARM | with_reducible apply keeps_setFld
    | with_reducible apply keeps_raise | with_reducible apply keeps_foldl | with_reducible apply keeps2_foldl
    | (with_reducible intro _; beta_reduce) | with_reducible refine Keeps2.of (by assumption) ?_
    | with_reducible apply Keeps2.snd
    | (extract_lets +onlyGivenNames x; refine @Keeps.cut r o _ x ?_ (fun hx => ?_); rotate_left; clear_value x; rotate_right; dsimp -zeta only [x])
    | (extract_lets +onlyGivenNames x; clear_value x) | split | with_reducible apply Keeps2.mk

theorem keeps_writeSegAt (g : Seg) (loc : Loc) (fold : W64) (h : Keeps r o s) (c_ftl : r .ftl) (c_flt : r .flt) (c_VAL_SWATCH_ARM : r (.reg Reg.VAL_SWATCH_ARM.addr)) :
    Keeps2 r o (State.writeSegAt s g loc fold) := by
  unfold State.writeSegAt
  repeat' first
    | with_reducible assumption | with_reducible apply keeps_valSwatch | with_reducible apply keeps_putObject
    | with_reducible apply keeps_foldl | with_reducible apply keeps2_foldl | (with_reducible intro _; beta_reduce)
    | with_reducible refine Keeps2.of (by assumption) ?_ | with_reducible apply Keeps2.snd
    | (extract_lets +onlyGivenNames x; refine @Keeps.cut r o _ x ?_ (fun hx => ?_); rotate_left; clear_value x; rotate_right; dsimp -zeta only [x])
    | (extract_lets +onlyGivenNames x; refine @Keeps2.cut r o _ _ x ?_ (fun hx => ?_); rotate_left; clear_value x; rotate_right; dsimp -zeta only [x])
    | (extract_lets +onlyGivenNames x; clear_value x) | split | with_reducible apply Keeps2.mk

theorem keeps_startJob (j : CipJob) (lane : ℕ) (h : Keeps r o s) (c_cip : r .cip) :
    Keeps r o (State.startJob s j lane) := by
  unfold State.startJob
  repeat' first
    | with_reducible assumption | with_reducible apply keeps_onCip

theorem keeps_fillLanes (y1 : ℕ) (h : Keeps r o s) (c_cip : r .cip) :
    Keeps r o (State.fillLanes s y1) := by
  induction y1 generalizing s  with
  | zero =>
    unfold State.fillLanes
    repeat' first
      | with_reducible assumption | with_reducible apply ih | with_reducible apply keeps_grantCip
      | with_reducible apply keeps_onCip | with_reducible apply keeps_startJob | with_reducible apply keeps_foldl
      | with_reducible apply keeps2_foldl | (with_reducible intro _; beta_reduce)
      | with_reducible refine Keeps2.of (by assumption) ?_ | with_reducible apply Keeps2.snd
      | (extract_lets +onlyGivenNames x; refine @Keeps.cut r o _ x ?_ (fun hx => ?_); rotate_left; clear_value x; rotate_right; dsimp -zeta only [x])
      | (extract_lets +onlyGivenNames x; clear_value x) | split | with_reducible apply Keeps2.mk
  | succ _ ih =>
    unfold State.fillLanes
    repeat' first
      | with_reducible assumption | with_reducible apply ih | with_reducible apply keeps_grantCip
      | with_reducible apply keeps_onCip | with_reducible apply keeps_startJob | with_reducible apply keeps_foldl
      | with_reducible apply keeps2_foldl | (with_reducible intro _; beta_reduce)
      | with_reducible refine Keeps2.of (by assumption) ?_ | with_reducible apply Keeps2.snd
      | (extract_lets +onlyGivenNames x; refine @Keeps.cut r o _ x ?_ (fun hx => ?_); rotate_left; clear_value x; rotate_right; dsimp -zeta only [x])
      | (extract_lets +onlyGivenNames x; clear_value x) | split | with_reducible apply Keeps2.mk

theorem keeps_spoilLine (loc : Loc) (good : Bool) (h : Keeps r o s) (c_flt : r .flt) :
    Keeps r o (State.spoilLine s loc good) := by
  unfold State.spoilLine
  repeat' first
    | with_reducible assumption | with_reducible apply keeps_spoilCopy | with_reducible apply keeps_foldl
    | with_reducible apply keeps2_foldl | (with_reducible intro _; beta_reduce)
    | with_reducible refine Keeps2.of (by assumption) ?_ | with_reducible apply Keeps2.snd
    | (extract_lets +onlyGivenNames x; refine @Keeps.cut r o _ x ?_ (fun hx => ?_); rotate_left; clear_value x; rotate_right; dsimp -zeta only [x])
    | (extract_lets +onlyGivenNames x; clear_value x) | split

theorem keeps_releaseMaps (v : Variant) (pages : List ℕ) (h : Keeps r o s) (c_ldg : r .ldg) (c_ftl : r .ftl) (c_flt : r .flt) (c_LDG_GAUGE_STAT_FALLBACKS : r (.reg Reg.LDG_GAUGE_STAT_FALLBACKS.addr)) :
    Keeps r o (State.releaseMaps s v pages) := by
  unfold State.releaseMaps
  repeat' first
    | with_reducible assumption | with_reducible apply keeps_releaseLoc | with_reducible apply keeps_foldl
    | with_reducible apply keeps2_foldl | (with_reducible intro _; beta_reduce)
    | with_reducible refine Keeps2.of (by assumption) ?_ | with_reducible apply Keeps2.snd
    | (extract_lets +onlyGivenNames x; refine @Keeps.cut r o _ x ?_ (fun hx => ?_); rotate_left; clear_value x; rotate_right; dsimp -zeta only [x])
    | (extract_lets +onlyGivenNames x; clear_value x) | split

theorem keeps_putMap (v : Variant) (kh : W64) (num : ℕ) (t' : Tbl Loc) (j : ℕ) (loc : Loc) (h : Keeps r o s) (c_ftl : r .ftl) :
    Keeps r o (State.putMap s v kh num t' j loc) := by
  unfold State.putMap
  repeat' first
    | with_reducible assumption | with_reducible apply keeps_putObject

theorem keeps_allocMaps (v : Variant) (kh : W64) (num : ℕ) (y4 : List ℕ) (y5 : Tbl Loc) (h : Keeps r o s) (c_ldg : r .ldg) (c_ftl : r .ftl) (c_flt : r .flt) (c_LDG_GAUGE_STAT_FALLBACKS : r (.reg Reg.LDG_GAUGE_STAT_FALLBACKS.addr)) :
    KeepsO2 r o (State.allocMaps s v kh num y4 y5) := by
  induction y4 generalizing s v kh num y5 with
  | nil =>
    unfold State.allocMaps
    repeat' first
      | with_reducible exact KeepsO2.none | with_reducible apply KeepsO2.mk2 | with_reducible apply KeepsO2.mk
      | with_reducible assumption | with_reducible apply ih | with_reducible apply keeps_putMap
      | with_reducible apply keeps_allocFlash | with_reducible apply keeps_foldl | with_reducible apply keeps2_foldl
      | (with_reducible intro _; beta_reduce) | with_reducible refine Keeps2.of (by assumption) ?_
      | with_reducible apply Keeps2.snd | with_reducible refine KeepsO2.of (by assumption) ?_
      | with_reducible refine KeepsO2.pair (by assumption) ?_ | with_reducible apply keeps_getD
      | with_reducible apply keepsO_map
      | (extract_lets +onlyGivenNames x; refine @Keeps.cut r o _ x ?_ (fun hx => ?_); rotate_left; clear_value x; rotate_right; dsimp -zeta only [x])
      | (extract_lets +onlyGivenNames x; refine @KeepsO2.cut r o _ _ x ?_ (fun hx => ?_); rotate_left; clear_value x; rotate_right; dsimp -zeta only [x])
      | (extract_lets +onlyGivenNames x; clear_value x) | split | with_reducible apply Keeps2.mk
  | cons _ _ ih =>
    unfold State.allocMaps
    repeat' first
      | with_reducible exact KeepsO2.none | with_reducible apply KeepsO2.mk2 | with_reducible apply KeepsO2.mk
      | with_reducible assumption | with_reducible apply ih | with_reducible apply keeps_putMap
      | with_reducible apply keeps_allocFlash | with_reducible apply keeps_foldl | with_reducible apply keeps2_foldl
      | (with_reducible intro _; beta_reduce) | with_reducible refine Keeps2.of (by assumption) ?_
      | with_reducible apply Keeps2.snd | with_reducible refine KeepsO2.of (by assumption) ?_
      | with_reducible refine KeepsO2.pair (by assumption) ?_ | with_reducible apply keeps_getD
      | with_reducible apply keepsO_map
      | (extract_lets +onlyGivenNames x; refine @Keeps.cut r o _ x ?_ (fun hx => ?_); rotate_left; clear_value x; rotate_right; dsimp -zeta only [x])
      | (extract_lets +onlyGivenNames x; refine @KeepsO2.cut r o _ _ x ?_ (fun hx => ?_); rotate_left; clear_value x; rotate_right; dsimp -zeta only [x])
      | (extract_lets +onlyGivenNames x; clear_value x) | split | with_reducible apply Keeps2.mk

theorem keeps_stageMaps (v : Variant) (kh : W64) (num : ℕ) (y4 : List ℕ) (y5 : Tbl Loc) (h : Keeps r o s) (c_ldg : r .ldg) (c_flt : r .flt) (c_FLT_SWATCH_CTL_ARM : r (.reg Reg.FLT_SWATCH_CTL_ARM.addr)) :
    Keeps2 r o (State.stageMaps s v kh num y4 y5) := by
  induction y4 generalizing s v kh num y5 with
  | nil =>
    unfold State.stageMaps
    repeat' first
      | with_reducible assumption | with_reducible apply ih | with_reducible apply keeps_stageLines
      | with_reducible apply keeps_putLines | with_reducible apply keeps_foldl | with_reducible apply keeps2_foldl
      | (with_reducible intro _; beta_reduce) | with_reducible refine Keeps2.of (by assumption) ?_
      | with_reducible apply Keeps2.snd
      | (extract_lets +onlyGivenNames x; refine @Keeps.cut r o _ x ?_ (fun hx => ?_); rotate_left; clear_value x; rotate_right; dsimp -zeta only [x])
      | (extract_lets +onlyGivenNames x; refine @Keeps2.cut r o _ _ x ?_ (fun hx => ?_); rotate_left; clear_value x; rotate_right; dsimp -zeta only [x])
      | (extract_lets +onlyGivenNames x; clear_value x) | split | with_reducible apply Keeps2.mk
  | cons _ _ ih =>
    unfold State.stageMaps
    repeat' first
      | with_reducible assumption | with_reducible apply ih | with_reducible apply keeps_stageLines
      | with_reducible apply keeps_putLines | with_reducible apply keeps_foldl | with_reducible apply keeps2_foldl
      | (with_reducible intro _; beta_reduce) | with_reducible refine Keeps2.of (by assumption) ?_
      | with_reducible apply Keeps2.snd
      | (extract_lets +onlyGivenNames x; refine @Keeps.cut r o _ x ?_ (fun hx => ?_); rotate_left; clear_value x; rotate_right; dsimp -zeta only [x])
      | (extract_lets +onlyGivenNames x; refine @Keeps2.cut r o _ _ x ?_ (fun hx => ?_); rotate_left; clear_value x; rotate_right; dsimp -zeta only [x])
      | (extract_lets +onlyGivenNames x; clear_value x) | split | with_reducible apply Keeps2.mk

end Sys2Proof.Machine
end

