-- ==== Sys2Proof/Laws/KeepCipDir.lean ====
section
/-! SUPPORT. What each operation of Machine/CipDir.lean may change. -/

set_option linter.unusedTactic false
set_option linter.unreachableTactic false

namespace Sys2Proof.Machine

variable {r : Part → Prop} {o s : State}

theorem keeps_tenantDirective (d : Dir) (code : ℕ) (n : ℕ) (wrapped : Bytes) (h : Keeps r o s) (c_cip : r .cip) (c_ldg : r .ldg) (c_rings : r .rings) (c_dram : r .dram) (c_flt : r .flt) (c_FLT_SWATCH_CTL_ARM : r (.reg Reg.FLT_SWATCH_CTL_ARM.addr)) (c_LDG_UNMETERED_LINES : r (.reg Reg.LDG_UNMETERED_LINES.addr)) :
    Keeps r o (State.tenantDirective s d code n wrapped) := by
  unfold State.tenantDirective
  repeat' first
    | with_reducible assumption | with_reducible apply keeps_cipRefused | with_reducible apply keeps_finish
    | with_reducible apply keeps_keyDirective | with_reducible apply keeps_foldl | with_reducible apply keeps2_foldl
    | (with_reducible intro _; beta_reduce) | with_reducible refine Keeps2.of (by assumption) ?_
    | with_reducible apply Keeps2.snd
    | (extract_lets +onlyGivenNames x; refine @Keeps.cut r o _ x ?_ (fun hx => ?_); rotate_left; clear_value x; rotate_right; dsimp -zeta only [x])
    | (extract_lets +onlyGivenNames x; clear_value x) | split

theorem keeps_execKeyGenerate (d : Dir) (slot : ℕ) (h : Keeps r o s) (c_cip : r .cip) (c_ldg : r .ldg) (c_rings : r .rings) (c_dram : r .dram) (c_flt : r .flt) (c_FLT_SWATCH_CTL_ARM : r (.reg Reg.FLT_SWATCH_CTL_ARM.addr)) (c_LDG_UNMETERED_LINES : r (.reg Reg.LDG_UNMETERED_LINES.addr)) :
    KeepsN r o (execKeyGenerate d slot s) := by
  unfold execKeyGenerate
  repeat' first
    | with_reducible apply KeepsN.mk | with_reducible apply KeepsN.fault | with_reducible assumption
    | with_reducible apply keeps_tenantDirective | with_reducible apply keeps_setUp | with_reducible apply keeps_foldl
    | with_reducible apply keeps2_foldl | (with_reducible intro _; beta_reduce)

theorem keeps_execKeyImport (d : Dir) (slot : ℕ) (wrapped : Bytes) (h : Keeps r o s) (c_cip : r .cip) (c_ldg : r .ldg) (c_rings : r .rings) (c_dram : r .dram) (c_flt : r .flt) (c_FLT_SWATCH_CTL_ARM : r (.reg Reg.FLT_SWATCH_CTL_ARM.addr)) (c_LDG_UNMETERED_LINES : r (.reg Reg.LDG_UNMETERED_LINES.addr)) :
    KeepsN r o (execKeyImport d slot wrapped s) := by
  unfold execKeyImport
  repeat' first
    | with_reducible apply KeepsN.mk | with_reducible apply KeepsN.fault | with_reducible assumption
    | with_reducible apply keeps_tenantDirective | with_reducible apply keeps_setUp | with_reducible apply keeps_foldl
    | with_reducible apply keeps2_foldl | (with_reducible intro _; beta_reduce)

theorem keeps_execKeyRoll (d : Dir) (slot : ℕ) (h : Keeps r o s) (c_cip : r .cip) (c_ldg : r .ldg) (c_rings : r .rings) (c_dram : r .dram) (c_flt : r .flt) (c_FLT_SWATCH_CTL_ARM : r (.reg Reg.FLT_SWATCH_CTL_ARM.addr)) (c_LDG_UNMETERED_LINES : r (.reg Reg.LDG_UNMETERED_LINES.addr)) :
    KeepsN r o (execKeyRoll d slot s) := by
  unfold execKeyRoll
  repeat' first
    | with_reducible apply KeepsN.mk | with_reducible apply KeepsN.fault | with_reducible assumption
    | with_reducible apply keeps_tenantDirective | with_reducible apply keeps_setUp | with_reducible apply keeps_foldl
    | with_reducible apply keeps2_foldl | (with_reducible intro _; beta_reduce)

theorem keeps_eraseSlot (d : Dir) (n : ℕ) (h : Keeps r o s) (c_cip : r .cip) (c_ldg : r .ldg) (c_rings : r .rings) (c_dram : r .dram) (c_flt : r .flt) (c_FLT_SWATCH_CTL_ARM : r (.reg Reg.FLT_SWATCH_CTL_ARM.addr)) (c_LDG_UNMETERED_LINES : r (.reg Reg.LDG_UNMETERED_LINES.addr)) :
    Keeps r o (State.eraseSlot s d n) := by
  unfold State.eraseSlot
  repeat' first
    | with_reducible assumption | with_reducible apply keeps_finishErase | with_reducible apply keeps_dropOldKeys
    | with_reducible apply keeps_onSlot | with_reducible apply keeps_foldl | with_reducible apply keeps2_foldl
    | (with_reducible intro _; beta_reduce) | with_reducible refine Keeps2.of (by assumption) ?_
    | with_reducible apply Keeps2.snd
    | (extract_lets +onlyGivenNames x; refine @Keeps.cut r o _ x ?_ (fun hx => ?_); rotate_left; clear_value x; rotate_right; dsimp -zeta only [x])
    | (extract_lets +onlyGivenNames x; clear_value x) | split

theorem keeps_execKeyErase (d : Dir) (slot : ℕ) (h : Keeps r o s) (c_cip : r .cip) (c_ldg : r .ldg) (c_rings : r .rings) (c_dram : r .dram) (c_flt : r .flt) (c_FLT_SWATCH_CTL_ARM : r (.reg Reg.FLT_SWATCH_CTL_ARM.addr)) (c_LDG_UNMETERED_LINES : r (.reg Reg.LDG_UNMETERED_LINES.addr)) :
    KeepsN r o (execKeyErase d slot s) := by
  unfold execKeyErase
  repeat' first
    | with_reducible apply KeepsN.mk | with_reducible apply KeepsN.fault | with_reducible assumption
    | with_reducible apply keeps_eraseSlot | with_reducible apply keeps_cipRefused | with_reducible apply keeps_finish
    | with_reducible apply keeps_setUp | with_reducible apply keeps_foldl | with_reducible apply keeps2_foldl
    | (with_reducible intro _; beta_reduce) | with_reducible refine Keeps2.of (by assumption) ?_
    | with_reducible apply Keeps2.snd
    | (extract_lets +onlyGivenNames x; refine @Keeps.cut r o _ x ?_ (fun hx => ?_); rotate_left; clear_value x; rotate_right; dsimp -zeta only [x])
    | (extract_lets +onlyGivenNames x; clear_value x) | split

theorem keeps_execKeyQuery (d : Dir) (slot : ℕ) (h : Keeps r o s) (c_cip : r .cip) (c_ldg : r .ldg) (c_rings : r .rings) (c_dram : r .dram) (c_flt : r .flt) (c_FLT_SWATCH_CTL_ARM : r (.reg Reg.FLT_SWATCH_CTL_ARM.addr)) (c_LDG_UNMETERED_LINES : r (.reg Reg.LDG_UNMETERED_LINES.addr)) :
    KeepsN r o (execKeyQuery d slot s) := by
  unfold execKeyQuery
  repeat' first
    | with_reducible apply KeepsN.mk | with_reducible apply KeepsN.fault | with_reducible assumption
    | with_reducible apply keeps_readSlot | with_reducible apply keeps_cipRefused | with_reducible apply keeps_finish
    | with_reducible apply keeps_setUp | with_reducible apply keeps_foldl | with_reducible apply keeps2_foldl
    | (with_reducible intro _; beta_reduce) | with_reducible refine Keeps2.of (by assumption) ?_
    | with_reducible apply Keeps2.snd
    | (extract_lets +onlyGivenNames x; refine @Keeps.cut r o _ x ?_ (fun hx => ?_); rotate_left; clear_value x; rotate_right; dsimp -zeta only [x])
    | (extract_lets +onlyGivenNames x; clear_value x) | split

theorem keeps_bufferMisses (kind : ℕ) (slot : Option ℕ) (y3 : Option ℕ) (y4 : List ℕ) (h : Keeps r o s) (c_cip : r .cip) (c_ldg : r .ldg) (c_flt : r .flt) (c_CIP_LANE_STAT_NONCE_REFUSALS : r (.reg Reg.CIP_LANE_STAT_NONCE_REFUSALS.addr)) (c_FLT_SWATCH_CTL_ARM : r (.reg Reg.FLT_SWATCH_CTL_ARM.addr)) (c_LDG_UNMETERED_LINES : r (.reg Reg.LDG_UNMETERED_LINES.addr)) :
    Keeps r o (State.bufferMisses s kind slot y3 y4) := by
  induction y4 generalizing s kind slot y3 with
  | nil =>
    unfold State.bufferMisses
    repeat' first
      | with_reducible assumption | with_reducible apply ih | with_reducible apply keeps_drawCounter
      | with_reducible apply keeps_laneMismatch | with_reducible apply keeps_foldl | with_reducible apply keeps2_foldl
      | (with_reducible intro _; beta_reduce) | with_reducible refine Keeps2.of (by assumption) ?_
      | with_reducible apply Keeps2.snd | with_reducible refine KeepsO2.of (by assumption) ?_
      | with_reducible refine KeepsO2.pair (by assumption) ?_ | with_reducible apply keeps_getD
      | with_reducible apply keepsO_map
      | (extract_lets +onlyGivenNames x; refine @Keeps.cut r o _ x ?_ (fun hx => ?_); rotate_left; clear_value x; rotate_right; dsimp -zeta only [x])
      | (extract_lets +onlyGivenNames x; refine @KeepsO2.cut r o _ _ x ?_ (fun hx => ?_); rotate_left; clear_value x; rotate_right; dsimp -zeta only [x])
      | (extract_lets +onlyGivenNames x; clear_value x) | split | with_reducible apply Keeps2.mk
  | cons _ _ ih =>
    unfold State.bufferMisses
    repeat' first
      | with_reducible assumption | with_reducible apply ih | with_reducible apply keeps_drawCounter
      | with_reducible apply keeps_laneMismatch | with_reducible apply keeps_foldl | with_reducible apply keeps2_foldl
      | (with_reducible intro _; beta_reduce) | with_reducible refine Keeps2.of (by assumption) ?_
      | with_reducible apply Keeps2.snd | with_reducible refine KeepsO2.of (by assumption) ?_
      | with_reducible refine KeepsO2.pair (by assumption) ?_ | with_reducible apply keeps_getD
      | with_reducible apply keepsO_map
      | (extract_lets +onlyGivenNames x; refine @Keeps.cut r o _ x ?_ (fun hx => ?_); rotate_left; clear_value x; rotate_right; dsimp -zeta only [x])
      | (extract_lets +onlyGivenNames x; refine @KeepsO2.cut r o _ _ x ?_ (fun hx => ?_); rotate_left; clear_value x; rotate_right; dsimp -zeta only [x])
      | (extract_lets +onlyGivenNames x; clear_value x) | split | with_reducible apply Keeps2.mk

theorem keeps_bufferRuns (kind : ℕ) (slot : Option ℕ) (lanes : List ℕ) (h : Keeps r o s) (c_cip : r .cip) (c_ldg : r .ldg) (c_flt : r .flt) (c_CIP_LANE_STAT_NONCE_REFUSALS : r (.reg Reg.CIP_LANE_STAT_NONCE_REFUSALS.addr)) (c_FLT_SWATCH_CTL_ARM : r (.reg Reg.FLT_SWATCH_CTL_ARM.addr)) (c_LDG_UNMETERED_LINES : r (.reg Reg.LDG_UNMETERED_LINES.addr)) :
    Keeps r o (State.bufferRuns s kind slot lanes) := by
  unfold State.bufferRuns
  repeat' first
    | with_reducible assumption | with_reducible apply keeps_bufferMisses | with_reducible apply keeps_grantCip
    | with_reducible apply keeps_onCip

theorem keeps_execBufSeal (d : Dir) (slot : ℕ) (aad : Bytes) (addr : ℕ) (len : ℕ) (job : BufferJob) (h : Keeps r o s) (c_cip : r .cip) (c_ldg : r .ldg) (c_rings : r .rings) (c_dram : r .dram) (c_flt : r .flt) (c_CIP_LANE_STAT_NONCE_REFUSALS : r (.reg Reg.CIP_LANE_STAT_NONCE_REFUSALS.addr)) (c_FLT_SWATCH_CTL_ARM : r (.reg Reg.FLT_SWATCH_CTL_ARM.addr)) (c_LDG_UNMETERED_LINES : r (.reg Reg.LDG_UNMETERED_LINES.addr)) :
    KeepsN r o (execBufSeal d slot aad addr len job s) := by
  unfold execBufSeal
  repeat' first
    | with_reducible apply KeepsN.mk | with_reducible apply KeepsN.fault | with_reducible assumption
    | with_reducible apply keeps_readSlot | with_reducible apply keeps_nonceExhausted
    | with_reducible apply keeps_dramPut | with_reducible apply keeps_bufferRuns
    | with_reducible apply keeps_cipRefused | with_reducible apply keeps_finish | with_reducible apply keeps_sealBytes
    | with_reducible apply keeps_setUp | with_reducible apply keeps_fillLanes | with_reducible apply keeps_finishExt
    | with_reducible apply keeps_foldl | with_reducible apply keeps2_foldl | (with_reducible intro _; beta_reduce)
    | with_reducible refine Keeps2.of (by assumption) ?_ | with_reducible apply Keeps2.snd
    | with_reducible refine KeepsO2.of (by assumption) ?_ | with_reducible refine KeepsO2.pair (by assumption) ?_
    | with_reducible apply keeps_getD | with_reducible apply keepsO_map
    | (extract_lets +onlyGivenNames x; refine @Keeps.cut r o _ x ?_ (fun hx => ?_); rotate_left; clear_value x; rotate_right; dsimp -zeta only [x])
    | (extract_lets +onlyGivenNames x; refine @KeepsO2.cut r o _ _ x ?_ (fun hx => ?_); rotate_left; clear_value x; rotate_right; dsimp -zeta only [x])
    | (extract_lets +onlyGivenNames x; clear_value x) | split

theorem keeps_execBufOpen (d : Dir) (sealWord : Bytes) (aad : Bytes) (tag : Bytes) (addr : ℕ) (len : ℕ) (job : BufferJob) (h : Keeps r o s) (c_cip : r .cip) (c_ldg : r .ldg) (c_rings : r .rings) (c_dram : r .dram) (c_flt : r .flt) (c_CIP_LANE_STAT_NONCE_REFUSALS : r (.reg Reg.CIP_LANE_STAT_NONCE_REFUSALS.addr)) (c_FLT_SWATCH_CTL_ARM : r (.reg Reg.FLT_SWATCH_CTL_ARM.addr)) (c_LDG_UNMETERED_LINES : r (.reg Reg.LDG_UNMETERED_LINES.addr)) :
    KeepsN r o (execBufOpen d sealWord aad tag addr len job s) := by
  unfold execBufOpen
  repeat' first
    | with_reducible apply KeepsN.mk | with_reducible apply KeepsN.fault | with_reducible assumption
    | with_reducible apply keeps_readSlot | with_reducible apply keeps_dramPut | with_reducible apply keeps_bufferRuns
    | with_reducible apply keeps_cipRefused | with_reducible apply keeps_finish | with_reducible apply keeps_setUp
    | with_reducible apply keeps_fillLanes | with_reducible apply keeps_openBytes | with_reducible apply keeps_foldl
    | with_reducible apply keeps2_foldl | (with_reducible intro _; beta_reduce)
    | with_reducible refine Keeps2.of (by assumption) ?_ | with_reducible apply Keeps2.snd
    | (extract_lets +onlyGivenNames x; refine @Keeps.cut r o _ x ?_ (fun hx => ?_); rotate_left; clear_value x; rotate_right; dsimp -zeta only [x])
    | (extract_lets +onlyGivenNames x; refine @Keeps2.cut r o _ _ x ?_ (fun hx => ?_); rotate_left; clear_value x; rotate_right; dsimp -zeta only [x])
    | (extract_lets +onlyGivenNames x; clear_value x) | split

theorem keeps_execRetiredGenRelease (slot : ℕ) (gen : ℕ) (h : Keeps r o s) (c_cip : r .cip) (c_ldg : r .ldg) (c_rings : r .rings) (c_dram : r .dram) (c_flt : r .flt) (c_FLT_SWATCH_CTL_ARM : r (.reg Reg.FLT_SWATCH_CTL_ARM.addr)) (c_LDG_UNMETERED_LINES : r (.reg Reg.LDG_UNMETERED_LINES.addr)) :
    KeepsN r o (execRetiredGenRelease slot gen s) := by
  unfold execRetiredGenRelease
  repeat' first
    | with_reducible apply KeepsN.mk | with_reducible apply KeepsN.fault | with_reducible assumption
    | with_reducible apply keeps_guardStep | with_reducible apply keeps_clearRetired
    | with_reducible apply keeps_foldl | with_reducible apply keeps2_foldl | (with_reducible intro _; beta_reduce)

theorem keeps_execEraseWaitExpiry (slot : ℕ) (h : Keeps r o s) (c_cip : r .cip) (c_ldg : r .ldg) (c_rings : r .rings) (c_dram : r .dram) (c_flt : r .flt) (c_FLT_SWATCH_CTL_ARM : r (.reg Reg.FLT_SWATCH_CTL_ARM.addr)) (c_LDG_UNMETERED_LINES : r (.reg Reg.LDG_UNMETERED_LINES.addr)) :
    KeepsN r o (execEraseWaitExpiry slot s) := by
  unfold execEraseWaitExpiry
  repeat' first
    | with_reducible apply KeepsN.mk | with_reducible apply KeepsN.fault | with_reducible assumption
    | with_reducible apply keeps_dropKeys | with_reducible apply keeps_guardStep
    | with_reducible apply keeps_runKeyWaits | with_reducible apply keeps_raise
    | with_reducible apply keeps_finishErase | with_reducible apply keeps_foldl | with_reducible apply keeps2_foldl
    | (with_reducible intro _; beta_reduce) | with_reducible refine Keeps2.of (by assumption) ?_
    | with_reducible apply Keeps2.snd
    | (extract_lets +onlyGivenNames x; refine @Keeps.cut r o _ x ?_ (fun hx => ?_); rotate_left; clear_value x; rotate_right; dsimp -zeta only [x])
    | (extract_lets +onlyGivenNames x; clear_value x) | split

theorem keeps_execSlotEccError (slot : ℕ) (hit : EccHit) (h : Keeps r o s) (c_cip : r .cip) (c_ldg : r .ldg) (c_rings : r .rings) (c_dram : r .dram) (c_flt : r .flt) (c_FLT_SWATCH_CTL_ARM : r (.reg Reg.FLT_SWATCH_CTL_ARM.addr)) (c_LDG_UNMETERED_LINES : r (.reg Reg.LDG_UNMETERED_LINES.addr)) :
    KeepsN r o (execSlotEccError slot hit s) := by
  unfold execSlotEccError
  repeat' first
    | with_reducible apply KeepsN.mk | with_reducible apply KeepsN.fault | with_reducible assumption
    | with_reducible apply keeps_guardStep | with_reducible apply keeps_raise | with_reducible apply keeps_recoverSlot
    | with_reducible apply keeps_clearRetired | with_reducible apply keeps_foldl | with_reducible apply keeps2_foldl
    | (with_reducible intro _; beta_reduce) | with_reducible refine Keeps2.of (by assumption) ?_
    | with_reducible apply Keeps2.snd
    | (extract_lets +onlyGivenNames x; refine @Keeps.cut r o _ x ?_ (fun hx => ?_); rotate_left; clear_value x; rotate_right; dsimp -zeta only [x])
    | (extract_lets +onlyGivenNames x; clear_value x) | split

theorem keeps_ctrTestWrite (value : W32) (h : Keeps r o s) (c_cip : r .cip) (c_ldg : r .ldg) (c_flt : r .flt) (c_CIP_CTR_TEST_ARM : r (.reg Reg.CIP_CTR_TEST_ARM.addr)) (c_FLT_SWATCH_CTL_ARM : r (.reg Reg.FLT_SWATCH_CTL_ARM.addr)) (c_LDG_UNMETERED_LINES : r (.reg Reg.LDG_UNMETERED_LINES.addr)) :
    Keeps r o (State.ctrTestWrite s value) := by
  unfold State.ctrTestWrite
  repeat' first
    | with_reducible assumption | exact c_CIP_CTR_TEST_ARM | exact c_FLT_SWATCH_CTL_ARM | exact c_LDG_UNMETERED_LINES
    | with_reducible apply keeps_setFld | with_reducible apply keeps_writeSlotRec
    | with_reducible apply keeps_swatchWrite | with_reducible apply keeps_onSlot | with_reducible apply keeps_foldl
    | with_reducible apply keeps2_foldl | (with_reducible intro _; beta_reduce)
    | with_reducible refine Keeps2.of (by assumption) ?_ | with_reducible apply Keeps2.snd
    | (extract_lets +onlyGivenNames x; refine @Keeps.cut r o _ x ?_ (fun hx => ?_); rotate_left; clear_value x; rotate_right; dsimp -zeta only [x])
    | (extract_lets +onlyGivenNames x; clear_value x) | split

theorem keeps_execCipCtrPreset (value : W32) (h : Keeps r o s) (c_cip : r .cip) (c_ldg : r .ldg) (c_flt : r .flt) (c_CIP_CTR_TEST_ARM : r (.reg Reg.CIP_CTR_TEST_ARM.addr)) (c_FLT_SWATCH_CTL_ARM : r (.reg Reg.FLT_SWATCH_CTL_ARM.addr)) (c_LDG_UNMETERED_LINES : r (.reg Reg.LDG_UNMETERED_LINES.addr)) :
    KeepsN r o (execCipCtrPreset value s) := by
  unfold execCipCtrPreset
  repeat' first
    | with_reducible apply KeepsN.mk | with_reducible apply KeepsN.fault | with_reducible assumption
    | with_reducible apply keeps_ctrTestWrite

theorem keeps_execCipAlarmSwWrite (code : ℕ) (h : Keeps r o s) (c_cip : r .cip) (c_ldg : r .ldg) (c_rings : r .rings) (c_dram : r .dram) (c_flt : r .flt) (c_FLT_SWATCH_CTL_ARM : r (.reg Reg.FLT_SWATCH_CTL_ARM.addr)) (c_LDG_UNMETERED_LINES : r (.reg Reg.LDG_UNMETERED_LINES.addr)) :
    KeepsN r o (execCipAlarmSwWrite code s) := by
  unfold execCipAlarmSwWrite
  repeat' first
    | with_reducible apply KeepsN.mk | with_reducible apply KeepsN.fault | with_reducible assumption
    | with_reducible apply keeps_cipAlarm | with_reducible apply keeps_guardStep | with_reducible apply keeps_foldl
    | with_reducible apply keeps2_foldl | (with_reducible intro _; beta_reduce)

theorem keeps_execTamperDetected (detector : ℕ) (h : Keeps r o s) (c_cip : r .cip) (c_ldg : r .ldg) (c_rings : r .rings) (c_dram : r .dram) (c_flt : r .flt) (c_FLT_SWATCH_CTL_ARM : r (.reg Reg.FLT_SWATCH_CTL_ARM.addr)) (c_LDG_UNMETERED_LINES : r (.reg Reg.LDG_UNMETERED_LINES.addr)) :
    KeepsN r o (execTamperDetected detector s) := by
  unfold execTamperDetected
  repeat' first
    | with_reducible apply KeepsN.mk | with_reducible apply KeepsN.fault | with_reducible assumption
    | with_reducible apply keeps_cipAlarm | with_reducible apply keeps_raise

theorem keeps_execGlitchDetected (h : Keeps r o s) (c_cip : r .cip) (c_ldg : r .ldg) (c_rings : r .rings) (c_dram : r .dram) (c_flt : r .flt) (c_FLT_SWATCH_CTL_ARM : r (.reg Reg.FLT_SWATCH_CTL_ARM.addr)) (c_LDG_UNMETERED_LINES : r (.reg Reg.LDG_UNMETERED_LINES.addr)) :
    KeepsN r o (execGlitchDetected s) := by
  unfold execGlitchDetected
  repeat' first
    | with_reducible apply KeepsN.mk | with_reducible apply KeepsN.fault | with_reducible assumption
    | with_reducible apply keeps_cipAlarm

end Sys2Proof.Machine
end

