-- ==== Sys2Proof/Laws/KeepWork.lean ====
section
/-! SUPPORT. What each operation of Machine/Work.lean may change. -/

set_option linter.unusedTactic false
set_option linter.unreachableTactic false

namespace Sys2Proof.Machine

variable {r : Part → Prop} {o s : State}

theorem keeps_endRead (n : ℕ) (st : Status) (h : Keeps r o s) (c_nfe : r .nfe) (c_sch : r .sch) (c_val : r .val) (c_cip : r .cip) (c_ldg : r .ldg) (c_ftl : r .ftl) (c_peer : r .peer) (c_flt : r .flt) (c_CIP_LANE_STAT_NONCE_REFUSALS : r (.reg Reg.CIP_LANE_STAT_NONCE_REFUSALS.addr)) (c_FLT_SWATCH_CTL_ARM : r (.reg Reg.FLT_SWATCH_CTL_ARM.addr)) (c_LDG_GAUGE_STAT_FALLBACKS : r (.reg Reg.LDG_GAUGE_STAT_FALLBACKS.addr)) (c_LDG_UNMETERED_LINES : r (.reg Reg.LDG_UNMETERED_LINES.addr)) (c_PWR_SHED_CNT_SHED_WRITES : r (.reg Reg.PWR_SHED_CNT_SHED_WRITES.addr)) :
    Keeps r o (State.endRead s n st) := by
  unfold State.endRead
  repeat' first
    | with_reducible assumption | with_reducible apply keeps_endCmd | with_reducible apply keeps_foldl
    | with_reducible apply keeps2_foldl | (with_reducible intro _; beta_reduce)
    | with_reducible refine Keeps2.of (by assumption) ?_ | with_reducible apply Keeps2.snd
    | (extract_lets +onlyGivenNames x; refine @Keeps.cut r o _ x ?_ (fun hx => ?_); rotate_left; clear_value x; rotate_right; dsimp -zeta only [x])
    | (extract_lets +onlyGivenNames x; clear_value x) | split

theorem keeps_deliver (n : ℕ) (bytes : Bytes) (h : Keeps r o s) (c_nfe : r .nfe) (c_sch : r .sch) (c_cip : r .cip) (c_ldg : r .ldg) (c_flt : r .flt) (c_CIP_LANE_STAT_NONCE_REFUSALS : r (.reg Reg.CIP_LANE_STAT_NONCE_REFUSALS.addr)) (c_FLT_SWATCH_CTL_ARM : r (.reg Reg.FLT_SWATCH_CTL_ARM.addr)) (c_LDG_UNMETERED_LINES : r (.reg Reg.LDG_UNMETERED_LINES.addr)) :
    Keeps r o (State.deliver s n bytes) := by
  unfold State.deliver
  repeat' first
    | with_reducible assumption | with_reducible apply keeps_sendPeer | with_reducible apply keeps_onCmd
    | with_reducible apply keeps_sendAs | with_reducible apply keeps_foldl | with_reducible apply keeps2_foldl
    | (with_reducible intro _; beta_reduce) | with_reducible refine Keeps2.of (by assumption) ?_
    | with_reducible apply Keeps2.snd
    | (extract_lets +onlyGivenNames x; refine @Keeps.cut r o _ x ?_ (fun hx => ?_); rotate_left; clear_value x; rotate_right; dsimp -zeta only [x])
    | (extract_lets +onlyGivenNames x; clear_value x) | split

theorem keeps_advanceRead (n : ℕ) (y2 : ℕ) (h : Keeps r o s) (c_nfe : r .nfe) (c_sch : r .sch) (c_val : r .val) (c_cip : r .cip) (c_ldg : r .ldg) (c_ftl : r .ftl) (c_peer : r .peer) (c_flt : r .flt) (c_CIP_LANE_STAT_NONCE_REFUSALS : r (.reg Reg.CIP_LANE_STAT_NONCE_REFUSALS.addr)) (c_FLT_SWATCH_CTL_ARM : r (.reg Reg.FLT_SWATCH_CTL_ARM.addr)) (c_LDG_GAUGE_STAT_FALLBACKS : r (.reg Reg.LDG_GAUGE_STAT_FALLBACKS.addr)) (c_LDG_UNMETERED_LINES : r (.reg Reg.LDG_UNMETERED_LINES.addr)) (c_PWR_SHED_CNT_SHED_WRITES : r (.reg Reg.PWR_SHED_CNT_SHED_WRITES.addr)) :
    Keeps r o (State.advanceRead s n y2) := by
  induction y2 generalizing s n with
  | zero =>
    unfold State.advanceRead
    repeat' first
      | with_reducible assumption | with_reducible apply ih | with_reducible apply keeps_endRead
      | with_reducible apply keeps_deliver | with_reducible apply keeps_foldl | with_reducible apply keeps2_foldl
      | (with_reducible intro _; beta_reduce) | with_reducible refine Keeps2.of (by assumption) ?_
      | with_reducible apply Keeps2.snd
      | (extract_lets +onlyGivenNames x; refine @Keeps.cut r o _ x ?_ (fun hx => ?_); rotate_left; clear_value x; rotate_right; dsimp -zeta only [x])
      | (extract_lets +onlyGivenNames x; clear_value x) | split | with_reducible apply Keeps2.mk
  | succ _ ih =>
    unfold State.advanceRead
    repeat' first
      | with_reducible assumption | with_reducible apply ih | with_reducible apply keeps_endRead
      | with_reducible apply keeps_deliver | with_reducible apply keeps_foldl | with_reducible apply keeps2_foldl
      | (with_reducible intro _; beta_reduce) | with_reducible refine Keeps2.of (by assumption) ?_
      | with_reducible apply Keeps2.snd
      | (extract_lets +onlyGivenNames x; refine @Keeps.cut r o _ x ?_ (fun hx => ?_); rotate_left; clear_value x; rotate_right; dsimp -zeta only [x])
      | (extract_lets +onlyGivenNames x; clear_value x) | split | with_reducible apply Keeps2.mk

theorem keeps_readGood (n : ℕ) (i : ℕ) (logical : Bytes) (h : Keeps r o s) (c_nfe : r .nfe) (c_sch : r .sch) (c_val : r .val) (c_cip : r .cip) (c_ldg : r .ldg) (c_ftl : r .ftl) (c_peer : r .peer) (c_flt : r .flt) (c_CIP_LANE_STAT_NONCE_REFUSALS : r (.reg Reg.CIP_LANE_STAT_NONCE_REFUSALS.addr)) (c_FLT_SWATCH_CTL_ARM : r (.reg Reg.FLT_SWATCH_CTL_ARM.addr)) (c_LDG_GAUGE_STAT_FALLBACKS : r (.reg Reg.LDG_GAUGE_STAT_FALLBACKS.addr)) (c_LDG_UNMETERED_LINES : r (.reg Reg.LDG_UNMETERED_LINES.addr)) (c_PWR_SHED_CNT_SHED_WRITES : r (.reg Reg.PWR_SHED_CNT_SHED_WRITES.addr)) :
    Keeps r o (State.readGood s n i logical) := by
  unfold State.readGood
  repeat' first
    | with_reducible assumption | with_reducible apply keeps_onCmd | with_reducible apply keeps_advanceRead
    | with_reducible apply keeps_dropRef | with_reducible apply keeps_deliver | with_reducible apply keeps_foldl
    | with_reducible apply keeps2_foldl | (with_reducible intro _; beta_reduce)
    | with_reducible refine Keeps2.of (by assumption) ?_ | with_reducible apply Keeps2.snd
    | (extract_lets +onlyGivenNames x; refine @Keeps.cut r o _ x ?_ (fun hx => ?_); rotate_left; clear_value x; rotate_right; dsimp -zeta only [x])
    | (extract_lets +onlyGivenNames x; clear_value x) | split

theorem keeps_setWork (n : ℕ) (i : ℕ) (w : SegWork) (h : Keeps r o s) (c_sch : r .sch) :
    Keeps r o (State.setWork s n i w) := by
  unfold State.setWork
  repeat' first
    | with_reducible assumption | with_reducible apply keeps_onCmd

theorem keeps_segReady (n : ℕ) (i : ℕ) (bytes : Bytes) (h : Keeps r o s) (c_sch : r .sch) (c_cip : r .cip) (c_VAL_COMP_STAT_RAW_BY_PROBE : r (.reg Reg.VAL_COMP_STAT_RAW_BY_PROBE.addr)) :
    Keeps r o (State.segReady s n i bytes) := by
  unfold State.segReady
  split
  · exact h
  · split
    · exact keeps_setWork _ _ _ h c_sch
    · rename_i c _ _
      generalize hx : s.pack c.act.compress bytes = x
      obtain ⟨p, q, u⟩ := x
      have hu : Keeps r o u := Keeps3.of hx (by apply keeps_pack <;> assumption)
      dsimp -zeta only
      extract_lets g
      split
      · apply keeps_fillLanes <;> first | assumption | (apply keeps_setWork <;> first | assumption | (apply keeps_issueRef <;> assumption))
      · exact keeps_setWork _ _ _ hu c_sch

theorem keeps_handOn (n : ℕ) (h : Keeps r o s) (c_sch : r .sch) (c_cip : r .cip) (c_VAL_COMP_STAT_RAW_BY_PROBE : r (.reg Reg.VAL_COMP_STAT_RAW_BY_PROBE.addr)) :
    Keeps r o (State.handOn s n) := by
  unfold State.handOn
  repeat' first
    | with_reducible assumption | with_reducible apply keeps_segReady | with_reducible apply keeps_foldl
    | with_reducible apply keeps2_foldl | (with_reducible intro _; beta_reduce)
    | with_reducible refine Keeps2.of (by assumption) ?_ | with_reducible apply Keeps2.snd
    | (extract_lets +onlyGivenNames x; refine @Keeps.cut r o _ x ?_ (fun hx => ?_); rotate_left; clear_value x; rotate_right; dsimp -zeta only [x])
    | (extract_lets +onlyGivenNames x; clear_value x) | split

theorem keeps_planPart (n : ℕ) (c : Cmd) (v : Variant) (i : ℕ) (b : Bytes) (h : Keeps r o s) (c_sch : r .sch) (c_cip : r .cip) (c_VAL_COMP_STAT_RAW_BY_PROBE : r (.reg Reg.VAL_COMP_STAT_RAW_BY_PROBE.addr)) :
    Keeps r o (State.planPart s n c v i b) := by
  unfold State.planPart
  repeat' first
    | with_reducible assumption | with_reducible apply keeps_segReady | with_reducible apply keeps_foldl
    | with_reducible apply keeps2_foldl | (with_reducible intro _; beta_reduce)
    | with_reducible refine Keeps2.of (by assumption) ?_ | with_reducible apply Keeps2.snd
    | (extract_lets +onlyGivenNames x; refine @Keeps.cut r o _ x ?_ (fun hx => ?_); rotate_left; clear_value x; rotate_right; dsimp -zeta only [x])
    | (extract_lets +onlyGivenNames x; clear_value x) | split

theorem keeps_planWrite (n : ℕ) (c : Cmd) (v : Variant) (h : Keeps r o s) (c_sch : r .sch) (c_cip : r .cip) (c_VAL_COMP_STAT_RAW_BY_PROBE : r (.reg Reg.VAL_COMP_STAT_RAW_BY_PROBE.addr)) :
    Keeps r o (State.planWrite s n c v) := by
  unfold State.planWrite
  repeat' first
    | with_reducible assumption | with_reducible apply keeps_planPart | with_reducible apply keeps_setWork
    | with_reducible apply keeps_foldl | with_reducible apply keeps2_foldl | (with_reducible intro _; beta_reduce)
    | with_reducible refine Keeps2.of (by assumption) ?_ | with_reducible apply Keeps2.snd
    | (extract_lets +onlyGivenNames x; refine @Keeps.cut r o _ x ?_ (fun hx => ?_); rotate_left; clear_value x; rotate_right; dsimp -zeta only [x])
    | (extract_lets +onlyGivenNames x; clear_value x) | split

theorem keeps_planPunch (n : ℕ) (c : Cmd) (v : Variant) (h : Keeps r o s) (c_sch : r .sch) :
    Keeps r o (State.planPunch s n c v) := by
  unfold State.planPunch
  repeat' first
    | with_reducible assumption | with_reducible apply keeps_setWork | with_reducible apply keeps_foldl
    | with_reducible apply keeps2_foldl | (with_reducible intro _; beta_reduce)
    | with_reducible refine Keeps2.of (by assumption) ?_ | with_reducible apply Keeps2.snd
    | (extract_lets +onlyGivenNames x; refine @Keeps.cut r o _ x ?_ (fun hx => ?_); rotate_left; clear_value x; rotate_right; dsimp -zeta only [x])
    | (extract_lets +onlyGivenNames x; clear_value x) | split

theorem keeps_planRange (n : ℕ) (h : Keeps r o s) (c_sch : r .sch) (c_cip : r .cip) (c_ldg : r .ldg) (c_ftl : r .ftl) (c_flt : r .flt) (c_LDG_GAUGE_STAT_FALLBACKS : r (.reg Reg.LDG_GAUGE_STAT_FALLBACKS.addr)) (c_VAL_COMP_STAT_RAW_BY_PROBE : r (.reg Reg.VAL_COMP_STAT_RAW_BY_PROBE.addr)) :
    Keeps r o (State.planRange s n) := by
  unfold State.planRange
  repeat' first
    | with_reducible assumption | with_reducible apply keeps_releaseWork | with_reducible apply keeps_planWrite
    | with_reducible apply keeps_onCmd | with_reducible apply keeps_dropIdleRef | with_reducible apply keeps_planPunch
    | with_reducible apply keeps_foldl | with_reducible apply keeps2_foldl | (with_reducible intro _; beta_reduce)
    | with_reducible refine Keeps2.of (by assumption) ?_ | with_reducible apply Keeps2.snd
    | (extract_lets +onlyGivenNames x; refine @Keeps.cut r o _ x ?_ (fun hx => ?_); rotate_left; clear_value x; rotate_right; dsimp -zeta only [x])
    | (extract_lets +onlyGivenNames x; clear_value x) | split

theorem keeps_placeLedger (n : ℕ) (gs : Tbl Seg) (h : Keeps r o s) (c_sch : r .sch) (c_ldg : r .ldg) (c_ftl : r .ftl) (c_flt : r .flt) (c_VAL_SWATCH_ARM : r (.reg Reg.VAL_SWATCH_ARM.addr)) :
    Keeps r o (State.placeLedger s n gs) := by
  unfold State.placeLedger
  repeat' first
    | with_reducible assumption | with_reducible apply keeps_allocStaging | with_reducible apply keeps_setWork
    | with_reducible apply keeps_writeSegAt | with_reducible apply keeps_foldl | with_reducible apply keeps2_foldl
    | (with_reducible intro _; beta_reduce) | with_reducible refine Keeps2.of (by assumption) ?_
    | with_reducible apply Keeps2.snd

theorem keeps_placeFlash (n : ℕ) (parityP : Bool) (y3 : Tbl Seg) (h : Keeps r o s) (c_nfe : r .nfe) (c_sch : r .sch) (c_val : r .val) (c_cip : r .cip) (c_ldg : r .ldg) (c_ftl : r .ftl) (c_peer : r .peer) (c_flt : r .flt) (c_CIP_LANE_STAT_NONCE_REFUSALS : r (.reg Reg.CIP_LANE_STAT_NONCE_REFUSALS.addr)) (c_FLT_SWATCH_CTL_ARM : r (.reg Reg.FLT_SWATCH_CTL_ARM.addr)) (c_LDG_GAUGE_STAT_FALLBACKS : r (.reg Reg.LDG_GAUGE_STAT_FALLBACKS.addr)) (c_LDG_UNMETERED_LINES : r (.reg Reg.LDG_UNMETERED_LINES.addr)) (c_PWR_SHED_CNT_SHED_WRITES : r (.reg Reg.PWR_SHED_CNT_SHED_WRITES.addr)) (c_VAL_E2E_STAT_E2E_MISMATCHES : r (.reg Reg.VAL_E2E_STAT_E2E_MISMATCHES.addr)) (c_VAL_SWATCH_ARM : r (.reg Reg.VAL_SWATCH_ARM.addr)) :
    Keeps r o (State.placeFlash s n parityP y3) := by
  induction y3 generalizing s n parityP with
  | nil =>
    unfold State.placeFlash
    repeat' first
      | with_reducible assumption | with_reducible apply ih | with_reducible apply keeps_writeFails
      | with_reducible apply keeps_setWork | with_reducible apply keeps_allocHost
      | with_reducible apply keeps_writeSegAt | with_reducible apply keeps_foldl | with_reducible apply keeps2_foldl
      | (with_reducible intro _; beta_reduce) | with_reducible refine Keeps2.of (by assumption) ?_
      | with_reducible apply Keeps2.snd | with_reducible refine KeepsO2.of (by assumption) ?_
      | with_reducible refine KeepsO2.pair (by assumption) ?_ | with_reducible apply keeps_getD
      | with_reducible apply keepsO_map
      | (extract_lets +onlyGivenNames x; refine @Keeps.cut r o _ x ?_ (fun hx => ?_); rotate_left; clear_value x; rotate_right; dsimp -zeta only [x])
      | (extract_lets +onlyGivenNames x; refine @Keeps2.cut r o _ _ x ?_ (fun hx => ?_); rotate_left; clear_value x; rotate_right; dsimp -zeta only [x])
      | (extract_lets +onlyGivenNames x; refine @KeepsO2.cut r o _ _ x ?_ (fun hx => ?_); rotate_left; clear_value x; rotate_right; dsimp -zeta only [x])
      | (extract_lets +onlyGivenNames x; clear_value x) | split | with_reducible apply Keeps2.mk
  | cons _ _ ih =>
    unfold State.placeFlash
    repeat' first
      | with_reducible assumption | with_reducible apply ih | with_reducible apply keeps_writeFails
      | with_reducible apply keeps_setWork | with_reducible apply keeps_allocHost
      | with_reducible apply keeps_writeSegAt | with_reducible apply keeps_foldl | with_reducible apply keeps2_foldl
      | (with_reducible intro _; beta_reduce) | with_reducible refine Keeps2.of (by assumption) ?_
      | with_reducible apply Keeps2.snd | with_reducible refine KeepsO2.of (by assumption) ?_
      | with_reducible refine KeepsO2.pair (by assumption) ?_ | with_reducible apply keeps_getD
      | with_reducible apply keepsO_map
      | (extract_lets +onlyGivenNames x; refine @Keeps.cut r o _ x ?_ (fun hx => ?_); rotate_left; clear_value x; rotate_right; dsimp -zeta only [x])
      | (extract_lets +onlyGivenNames x; refine @Keeps2.cut r o _ _ x ?_ (fun hx => ?_); rotate_left; clear_value x; rotate_right; dsimp -zeta only [x])
      | (extract_lets +onlyGivenNames x; refine @KeepsO2.cut r o _ _ x ?_ (fun hx => ?_); rotate_left; clear_value x; rotate_right; dsimp -zeta only [x])
      | (extract_lets +onlyGivenNames x; clear_value x) | split | with_reducible apply Keeps2.mk

theorem keeps_decidePath (n : ℕ) (h : Keeps r o s) (c_nfe : r .nfe) (c_sch : r .sch) (c_val : r .val) (c_cip : r .cip) (c_ldg : r .ldg) (c_ftl : r .ftl) (c_peer : r .peer) (c_flt : r .flt) (c_CIP_LANE_STAT_NONCE_REFUSALS : r (.reg Reg.CIP_LANE_STAT_NONCE_REFUSALS.addr)) (c_FLT_SWATCH_CTL_ARM : r (.reg Reg.FLT_SWATCH_CTL_ARM.addr)) (c_LDG_GAUGE_STAT_FALLBACKS : r (.reg Reg.LDG_GAUGE_STAT_FALLBACKS.addr)) (c_LDG_UNMETERED_LINES : r (.reg Reg.LDG_UNMETERED_LINES.addr)) (c_PWR_SHED_CNT_SHED_WRITES : r (.reg Reg.PWR_SHED_CNT_SHED_WRITES.addr)) (c_VAL_E2E_STAT_E2E_MISMATCHES : r (.reg Reg.VAL_E2E_STAT_E2E_MISMATCHES.addr)) (c_VAL_SWATCH_ARM : r (.reg Reg.VAL_SWATCH_ARM.addr)) :
    Keeps r o (State.decidePath s n) := by
  unfold State.decidePath
  repeat' first
    | with_reducible assumption | exact c_CIP_LANE_STAT_NONCE_REFUSALS | exact c_FLT_SWATCH_CTL_ARM
    | exact c_LDG_GAUGE_STAT_FALLBACKS | exact c_LDG_UNMETERED_LINES | exact c_PWR_SHED_CNT_SHED_WRITES
    | exact c_VAL_E2E_STAT_E2E_MISMATCHES | exact c_VAL_SWATCH_ARM | with_reducible apply keeps_bump
    | with_reducible apply keeps_onCmd | with_reducible apply keeps_placeLedger
    | with_reducible apply keeps_lowerGauge | with_reducible apply keeps_placeFlash | with_reducible apply keeps_foldl
    | with_reducible apply keeps2_foldl | (with_reducible intro _; beta_reduce)
    | with_reducible refine Keeps2.of (by assumption) ?_ | with_reducible apply Keeps2.snd
    | (extract_lets +onlyGivenNames x; refine @Keeps.cut r o _ x ?_ (fun hx => ?_); rotate_left; clear_value x; rotate_right; dsimp -zeta only [x])
    | (extract_lets +onlyGivenNames x; clear_value x) | split

theorem keeps_pathWhenReady (n : ℕ) (h : Keeps r o s) (c_nfe : r .nfe) (c_sch : r .sch) (c_val : r .val) (c_cip : r .cip) (c_ldg : r .ldg) (c_ftl : r .ftl) (c_peer : r .peer) (c_flt : r .flt) (c_CIP_LANE_STAT_NONCE_REFUSALS : r (.reg Reg.CIP_LANE_STAT_NONCE_REFUSALS.addr)) (c_FLT_SWATCH_CTL_ARM : r (.reg Reg.FLT_SWATCH_CTL_ARM.addr)) (c_LDG_GAUGE_STAT_FALLBACKS : r (.reg Reg.LDG_GAUGE_STAT_FALLBACKS.addr)) (c_LDG_UNMETERED_LINES : r (.reg Reg.LDG_UNMETERED_LINES.addr)) (c_PWR_SHED_CNT_SHED_WRITES : r (.reg Reg.PWR_SHED_CNT_SHED_WRITES.addr)) (c_VAL_E2E_STAT_E2E_MISMATCHES : r (.reg Reg.VAL_E2E_STAT_E2E_MISMATCHES.addr)) (c_VAL_SWATCH_ARM : r (.reg Reg.VAL_SWATCH_ARM.addr)) :
    Keeps r o (State.pathWhenReady s n) := by
  unfold State.pathWhenReady
  repeat' first
    | with_reducible assumption | with_reducible apply keeps_decidePath | with_reducible apply keeps_onCmd
    | with_reducible apply keeps_dropRef | with_reducible apply keeps_placeFlash | with_reducible apply keeps_foldl
    | with_reducible apply keeps2_foldl | (with_reducible intro _; beta_reduce)
    | with_reducible refine Keeps2.of (by assumption) ?_ | with_reducible apply Keeps2.snd
    | (extract_lets +onlyGivenNames x; refine @Keeps.cut r o _ x ?_ (fun hx => ?_); rotate_left; clear_value x; rotate_right; dsimp -zeta only [x])
    | (extract_lets +onlyGivenNames x; clear_value x) | split

theorem keeps_makeDurable (n : ℕ) (i : ℕ) (h : Keeps r o s) (c_sch : r .sch) :
    Keeps r o (State.makeDurable s n i) := by
  unfold State.makeDurable
  repeat' first
    | with_reducible assumption | with_reducible apply keeps_onCmd | with_reducible apply keeps_setWork
    | with_reducible apply keeps_foldl | with_reducible apply keeps2_foldl | (with_reducible intro _; beta_reduce)
    | with_reducible refine Keeps2.of (by assumption) ?_ | with_reducible apply Keeps2.snd
    | (extract_lets +onlyGivenNames x; refine @Keeps.cut r o _ x ?_ (fun hx => ?_); rotate_left; clear_value x; rotate_right; dsimp -zeta only [x])
    | (extract_lets +onlyGivenNames x; clear_value x) | split

theorem keeps_settleProgrammed (h : Keeps r o s) (c_sch : r .sch) :
    Keeps r o (State.settleProgrammed s) := by
  unfold State.settleProgrammed
  repeat' first
    | with_reducible assumption | with_reducible apply keeps_makeDurable | with_reducible apply keeps_foldl
    | with_reducible apply keeps2_foldl | (with_reducible intro _; beta_reduce)
    | with_reducible refine Keeps2.of (by assumption) ?_ | with_reducible apply Keeps2.snd
    | (extract_lets +onlyGivenNames x; refine @Keeps.cut r o _ x ?_ (fun hx => ?_); rotate_left; clear_value x; rotate_right; dsimp -zeta only [x])
    | (extract_lets +onlyGivenNames x; clear_value x) | split

theorem keeps_intakeDone (n : ℕ) (h : Keeps r o s) (c_nfe : r .nfe) (c_sch : r .sch) (c_val : r .val) (c_cip : r .cip) (c_ldg : r .ldg) (c_ftl : r .ftl) (c_peer : r .peer) (c_flt : r .flt) (c_CIP_LANE_STAT_NONCE_REFUSALS : r (.reg Reg.CIP_LANE_STAT_NONCE_REFUSALS.addr)) (c_FLT_SWATCH_CTL_ARM : r (.reg Reg.FLT_SWATCH_CTL_ARM.addr)) (c_LDG_GAUGE_STAT_FALLBACKS : r (.reg Reg.LDG_GAUGE_STAT_FALLBACKS.addr)) (c_LDG_UNMETERED_LINES : r (.reg Reg.LDG_UNMETERED_LINES.addr)) (c_PWR_SHED_CNT_SHED_WRITES : r (.reg Reg.PWR_SHED_CNT_SHED_WRITES.addr)) (c_VAL_COMP_STAT_RAW_BY_PROBE : r (.reg Reg.VAL_COMP_STAT_RAW_BY_PROBE.addr)) (c_VAL_E2E_STAT_E2E_MISMATCHES : r (.reg Reg.VAL_E2E_STAT_E2E_MISMATCHES.addr)) (c_VAL_SWATCH_ARM : r (.reg Reg.VAL_SWATCH_ARM.addr)) :
    Keeps r o (State.intakeDone s n) := by
  unfold State.intakeDone
  repeat' first
    | with_reducible assumption | with_reducible apply keeps_planRange | with_reducible apply keeps_pathWhenReady
    | with_reducible apply keeps_onCmd | with_reducible apply keeps_raise | with_reducible apply keeps_writeFails
    | with_reducible apply keeps_foldl | with_reducible apply keeps2_foldl | (with_reducible intro _; beta_reduce)
    | with_reducible refine Keeps2.of (by assumption) ?_ | with_reducible apply Keeps2.snd
    | (extract_lets +onlyGivenNames x; refine @Keeps.cut r o _ x ?_ (fun hx => ?_); rotate_left; clear_value x; rotate_right; dsimp -zeta only [x])
    | (extract_lets +onlyGivenNames x; clear_value x) | split

theorem keeps_takeData (n : ℕ) (data : Bytes) (h : Keeps r o s) (c_nfe : r .nfe) (c_sch : r .sch) (c_val : r .val) (c_cip : r .cip) (c_ldg : r .ldg) (c_ftl : r .ftl) (c_peer : r .peer) (c_flt : r .flt) (c_CIP_LANE_STAT_NONCE_REFUSALS : r (.reg Reg.CIP_LANE_STAT_NONCE_REFUSALS.addr)) (c_FLT_SWATCH_CTL_ARM : r (.reg Reg.FLT_SWATCH_CTL_ARM.addr)) (c_LDG_GAUGE_STAT_FALLBACKS : r (.reg Reg.LDG_GAUGE_STAT_FALLBACKS.addr)) (c_LDG_UNMETERED_LINES : r (.reg Reg.LDG_UNMETERED_LINES.addr)) (c_PWR_SHED_CNT_SHED_WRITES : r (.reg Reg.PWR_SHED_CNT_SHED_WRITES.addr)) (c_VAL_COMP_STAT_RAW_BY_PROBE : r (.reg Reg.VAL_COMP_STAT_RAW_BY_PROBE.addr)) (c_VAL_E2E_STAT_E2E_MISMATCHES : r (.reg Reg.VAL_E2E_STAT_E2E_MISMATCHES.addr)) (c_VAL_SWATCH_ARM : r (.reg Reg.VAL_SWATCH_ARM.addr)) :
    Keeps r o (State.takeData s n data) := by
  unfold State.takeData
  repeat' first
    | with_reducible assumption | with_reducible apply keeps_pathWhenReady | with_reducible apply keeps_onCmd
    | with_reducible apply keeps_intakeDone | with_reducible apply keeps_handOn | with_reducible apply keeps_foldl
    | with_reducible apply keeps2_foldl | (with_reducible intro _; beta_reduce)
    | with_reducible refine Keeps2.of (by assumption) ?_ | with_reducible apply Keeps2.snd
    | (extract_lets +onlyGivenNames x; refine @Keeps.cut r o _ x ?_ (fun hx => ?_); rotate_left; clear_value x; rotate_right; dsimp -zeta only [x])
    | (extract_lets +onlyGivenNames x; clear_value x) | split

theorem keeps_execValueDataArrival (cmd : ℕ) (data : Bytes) (h : Keeps r o s) (c_nfe : r .nfe) (c_sch : r .sch) (c_val : r .val) (c_cip : r .cip) (c_ldg : r .ldg) (c_ftl : r .ftl) (c_peer : r .peer) (c_flt : r .flt) (c_CIP_LANE_STAT_NONCE_REFUSALS : r (.reg Reg.CIP_LANE_STAT_NONCE_REFUSALS.addr)) (c_FLT_SWATCH_CTL_ARM : r (.reg Reg.FLT_SWATCH_CTL_ARM.addr)) (c_LDG_GAUGE_STAT_FALLBACKS : r (.reg Reg.LDG_GAUGE_STAT_FALLBACKS.addr)) (c_LDG_UNMETERED_LINES : r (.reg Reg.LDG_UNMETERED_LINES.addr)) (c_PWR_SHED_CNT_SHED_WRITES : r (.reg Reg.PWR_SHED_CNT_SHED_WRITES.addr)) (c_VAL_COMP_STAT_RAW_BY_PROBE : r (.reg Reg.VAL_COMP_STAT_RAW_BY_PROBE.addr)) (c_VAL_E2E_STAT_E2E_MISMATCHES : r (.reg Reg.VAL_E2E_STAT_E2E_MISMATCHES.addr)) (c_VAL_SWATCH_ARM : r (.reg Reg.VAL_SWATCH_ARM.addr)) :
    KeepsN r o (execValueDataArrival cmd data s) := by
  unfold execValueDataArrival
  repeat' first
    | with_reducible apply KeepsN.mk | with_reducible apply KeepsN.fault | with_reducible assumption
    | with_reducible apply keeps_withCmd | with_reducible apply keeps_takeData | with_reducible apply keeps_grantVal
    | with_reducible apply keeps_foldl | with_reducible apply keeps2_foldl | (with_reducible intro _; beta_reduce)

theorem keeps_mergeGood (n : ℕ) (i : ℕ) (part : Bytes) (logical : Bytes) (h : Keeps r o s) (c_nfe : r .nfe) (c_sch : r .sch) (c_val : r .val) (c_cip : r .cip) (c_ldg : r .ldg) (c_ftl : r .ftl) (c_peer : r .peer) (c_flt : r .flt) (c_CIP_LANE_STAT_NONCE_REFUSALS : r (.reg Reg.CIP_LANE_STAT_NONCE_REFUSALS.addr)) (c_FLT_SWATCH_CTL_ARM : r (.reg Reg.FLT_SWATCH_CTL_ARM.addr)) (c_LDG_GAUGE_STAT_FALLBACKS : r (.reg Reg.LDG_GAUGE_STAT_FALLBACKS.addr)) (c_LDG_UNMETERED_LINES : r (.reg Reg.LDG_UNMETERED_LINES.addr)) (c_PWR_SHED_CNT_SHED_WRITES : r (.reg Reg.PWR_SHED_CNT_SHED_WRITES.addr)) (c_VAL_COMP_STAT_RAW_BY_PROBE : r (.reg Reg.VAL_COMP_STAT_RAW_BY_PROBE.addr)) (c_VAL_E2E_STAT_E2E_MISMATCHES : r (.reg Reg.VAL_E2E_STAT_E2E_MISMATCHES.addr)) (c_VAL_SWATCH_ARM : r (.reg Reg.VAL_SWATCH_ARM.addr)) :
    Keeps r o (State.mergeGood s n i part logical) := by
  unfold State.mergeGood
  repeat' first
    | with_reducible assumption | with_reducible apply keeps_pathWhenReady | with_reducible apply keeps_onCmd
    | with_reducible apply keeps_segReady | with_reducible apply keeps_foldl | with_reducible apply keeps2_foldl
    | (with_reducible intro _; beta_reduce) | with_reducible refine Keeps2.of (by assumption) ?_
    | with_reducible apply Keeps2.snd
    | (extract_lets +onlyGivenNames x; refine @Keeps.cut r o _ x ?_ (fun hx => ?_); rotate_left; clear_value x; rotate_right; dsimp -zeta only [x])
    | (extract_lets +onlyGivenNames x; clear_value x) | split

theorem keeps_segGood (n : ℕ) (i : ℕ) (logical : Bytes) (h : Keeps r o s) (c_nfe : r .nfe) (c_sch : r .sch) (c_val : r .val) (c_cip : r .cip) (c_ldg : r .ldg) (c_ftl : r .ftl) (c_peer : r .peer) (c_flt : r .flt) (c_CIP_LANE_STAT_NONCE_REFUSALS : r (.reg Reg.CIP_LANE_STAT_NONCE_REFUSALS.addr)) (c_FLT_SWATCH_CTL_ARM : r (.reg Reg.FLT_SWATCH_CTL_ARM.addr)) (c_LDG_GAUGE_STAT_FALLBACKS : r (.reg Reg.LDG_GAUGE_STAT_FALLBACKS.addr)) (c_LDG_UNMETERED_LINES : r (.reg Reg.LDG_UNMETERED_LINES.addr)) (c_PWR_SHED_CNT_SHED_WRITES : r (.reg Reg.PWR_SHED_CNT_SHED_WRITES.addr)) (c_VAL_COMP_STAT_RAW_BY_PROBE : r (.reg Reg.VAL_COMP_STAT_RAW_BY_PROBE.addr)) (c_VAL_E2E_STAT_E2E_MISMATCHES : r (.reg Reg.VAL_E2E_STAT_E2E_MISMATCHES.addr)) (c_VAL_SWATCH_ARM : r (.reg Reg.VAL_SWATCH_ARM.addr)) :
    Keeps r o (State.segGood s n i logical) := by
  unfold State.segGood
  repeat' first
    | with_reducible assumption | with_reducible apply keeps_readGood | with_reducible apply keeps_mergeGood
    | with_reducible apply keeps_foldl | with_reducible apply keeps2_foldl | (with_reducible intro _; beta_reduce)
    | with_reducible refine Keeps2.of (by assumption) ?_ | with_reducible apply Keeps2.snd
    | (extract_lets +onlyGivenNames x; refine @Keeps.cut r o _ x ?_ (fun hx => ?_); rotate_left; clear_value x; rotate_right; dsimp -zeta only [x])
    | (extract_lets +onlyGivenNames x; clear_value x) | split

theorem keeps_segFails (n : ℕ) (st : Status) (h : Keeps r o s) (c_nfe : r .nfe) (c_sch : r .sch) (c_val : r .val) (c_cip : r .cip) (c_ldg : r .ldg) (c_ftl : r .ftl) (c_peer : r .peer) (c_flt : r .flt) (c_CIP_LANE_STAT_NONCE_REFUSALS : r (.reg Reg.CIP_LANE_STAT_NONCE_REFUSALS.addr)) (c_FLT_SWATCH_CTL_ARM : r (.reg Reg.FLT_SWATCH_CTL_ARM.addr)) (c_LDG_GAUGE_STAT_FALLBACKS : r (.reg Reg.LDG_GAUGE_STAT_FALLBACKS.addr)) (c_LDG_UNMETERED_LINES : r (.reg Reg.LDG_UNMETERED_LINES.addr)) (c_PWR_SHED_CNT_SHED_WRITES : r (.reg Reg.PWR_SHED_CNT_SHED_WRITES.addr)) (c_VAL_E2E_STAT_E2E_MISMATCHES : r (.reg Reg.VAL_E2E_STAT_E2E_MISMATCHES.addr)) :
    Keeps r o (State.segFails s n st) := by
  unfold State.segFails
  repeat' first
    | with_reducible assumption | with_reducible apply keeps_endRead | with_reducible apply keeps_writeFails
    | with_reducible apply keeps_foldl | with_reducible apply keeps2_foldl | (with_reducible intro _; beta_reduce)
    | with_reducible refine Keeps2.of (by assumption) ?_ | with_reducible apply Keeps2.snd
    | (extract_lets +onlyGivenNames x; refine @Keeps.cut r o _ x ?_ (fun hx => ?_); rotate_left; clear_value x; rotate_right; dsimp -zeta only [x])
    | (extract_lets +onlyGivenNames x; clear_value x) | split

end Sys2Proof.Machine
end

