-- ==== Sys2Proof/Laws/KeepCommit.lean ====
section
/-! SUPPORT. What each operation of Machine/Commit.lean may change. -/

set_option linter.unusedTactic false
set_option linter.unreachableTactic false

namespace Sys2Proof.Machine

variable {r : Part → Prop} {o s : State}

theorem keeps_withTokens (n : ℕ) (lines : ℕ) (f : State → State) (step : ∀ s, Keeps r o s → Keeps r o (f s)) (h : Keeps r o s) (c_ldg : r .ldg) (c_flt : r .flt) (c_LDG_GAUGE_STAT_FALLBACKS : r (.reg Reg.LDG_GAUGE_STAT_FALLBACKS.addr)) :
    Keeps r o (State.withTokens s n lines f) := by
  unfold State.withTokens
  repeat' first
    | with_reducible assumption | with_reducible apply step | with_reducible apply keeps_queueMeta
    | with_reducible apply keeps_lowerGauge | with_reducible apply keeps_foldl | with_reducible apply keeps2_foldl
    | (with_reducible intro _; beta_reduce) | with_reducible refine Keeps2.of (by assumption) ?_
    | with_reducible apply Keeps2.snd
    | (extract_lets +onlyGivenNames x; refine @Keeps.cut r o _ x ?_ (fun hx => ?_); rotate_left; clear_value x; rotate_right; dsimp -zeta only [x])
    | (extract_lets +onlyGivenNames x; clear_value x) | split

theorem keeps_waitStaging (n : ℕ) (h : Keeps r o s) (c_sch : r .sch) (c_ldg : r .ldg) (c_flt : r .flt) (c_LDG_GAUGE_STAT_FALLBACKS : r (.reg Reg.LDG_GAUGE_STAT_FALLBACKS.addr)) :
    Keeps r o (State.waitStaging s n) := by
  unfold State.waitStaging
  repeat' first
    | with_reducible assumption | exact c_LDG_GAUGE_STAT_FALLBACKS | with_reducible apply keeps_bump
    | with_reducible apply keeps_onCmd | with_reducible apply keeps_raise | with_reducible apply keeps_onLdg
    | with_reducible apply keeps_withCmd | with_reducible apply keeps_foldl | with_reducible apply keeps2_foldl
    | (with_reducible intro _; beta_reduce)

theorem keeps_recharge (old : Option DirRec) (new : Option DirRec) (h : Keeps r o s) (c_sch : r .sch) :
    Keeps r o (State.recharge s old new) := by
  unfold State.recharge
  repeat' first
    | with_reducible assumption | with_reducible apply keeps_addUsage | with_reducible apply keeps_foldl
    | with_reducible apply keeps2_foldl | (with_reducible intro _; beta_reduce)
    | with_reducible refine Keeps2.of (by assumption) ?_ | with_reducible apply Keeps2.snd
    | (extract_lets +onlyGivenNames x; refine @Keeps.cut r o _ x ?_ (fun hx => ?_); rotate_left; clear_value x; rotate_right; dsimp -zeta only [x])
    | (extract_lets +onlyGivenNames x; clear_value x) | split

theorem keeps_noteVersion (n : ℕ) (c : Cmd) (h : Keeps r o s) (c_nfe : r .nfe) (c_sch : r .sch) :
    Keeps r o (State.noteVersion s n c) := by
  unfold State.noteVersion
  repeat' first
    | with_reducible assumption | with_reducible apply keeps_onQp | with_reducible apply keeps_onSch
    | with_reducible apply keeps_foldl | with_reducible apply keeps2_foldl | (with_reducible intro _; beta_reduce)
    | with_reducible refine Keeps2.of (by assumption) ?_ | with_reducible apply Keeps2.snd
    | (extract_lets +onlyGivenNames x; refine @Keeps.cut r o _ x ?_ (fun hx => ?_); rotate_left; clear_value x; rotate_right; dsimp -zeta only [x])
    | (extract_lets +onlyGivenNames x; clear_value x) | split

theorem keeps_commitLines (kind : ℕ) (r' : DirRec) (version : ℕ) (old : Option DirRec) (h : Keeps r o s) (c_ldg : r .ldg) :
    Keeps r o (State.commitLines s kind r' version old) := by
  unfold State.commitLines
  repeat' first
    | with_reducible assumption | with_reducible apply keeps_commitLine | with_reducible apply keeps_foldl
    | with_reducible apply keeps2_foldl | (with_reducible intro _; beta_reduce)
    | with_reducible refine Keeps2.of (by assumption) ?_ | with_reducible apply Keeps2.snd
    | (extract_lets +onlyGivenNames x; refine @Keeps.cut r o _ x ?_ (fun hx => ?_); rotate_left; clear_value x; rotate_right; dsimp -zeta only [x])
    | (extract_lets +onlyGivenNames x; clear_value x) | split

theorem keeps_buryOrKeep (c : Cmd) (whole : Bool) (before : Option DirRec) (dead : List Seg) (h : Keeps r o s) (c_ldg : r .ldg) (c_ftl : r .ftl) (c_peer : r .peer) (c_flt : r .flt) (c_LDG_GAUGE_STAT_FALLBACKS : r (.reg Reg.LDG_GAUGE_STAT_FALLBACKS.addr)) :
    Keeps r o (State.buryOrKeep s c whole before dead) := by
  unfold State.buryOrKeep
  repeat' first
    | with_reducible assumption | with_reducible apply keeps_onPeer | with_reducible apply keeps_releaseSegs
    | with_reducible apply keeps_foldl | with_reducible apply keeps2_foldl | (with_reducible intro _; beta_reduce)
    | with_reducible refine Keeps2.of (by assumption) ?_ | with_reducible apply Keeps2.snd
    | (extract_lets +onlyGivenNames x; refine @Keeps.cut r o _ x ?_ (fun hx => ?_); rotate_left; clear_value x; rotate_right; dsimp -zeta only [x])
    | (extract_lets +onlyGivenNames x; clear_value x) | split

theorem keeps_committed (n : ℕ) (c : Cmd) (valid : ℕ) (h : Keeps r o s) (c_nfe : r .nfe) (c_sch : r .sch) (c_val : r .val) (c_cip : r .cip) (c_ldg : r .ldg) (c_ftl : r .ftl) (c_peer : r .peer) (c_flt : r .flt) (c_CIP_LANE_STAT_NONCE_REFUSALS : r (.reg Reg.CIP_LANE_STAT_NONCE_REFUSALS.addr)) (c_FLT_SWATCH_CTL_ARM : r (.reg Reg.FLT_SWATCH_CTL_ARM.addr)) (c_LDG_GAUGE_STAT_FALLBACKS : r (.reg Reg.LDG_GAUGE_STAT_FALLBACKS.addr)) (c_LDG_UNMETERED_LINES : r (.reg Reg.LDG_UNMETERED_LINES.addr)) (c_PEER_CHAIN_STAT_DEGRADED : r (.reg Reg.PEER_CHAIN_STAT_DEGRADED.addr)) (c_PWR_SHED_CNT_SHED_WRITES : r (.reg Reg.PWR_SHED_CNT_SHED_WRITES.addr)) :
    Keeps r o (State.committed s n c valid) := by
  unfold State.committed
  repeat' first
    | with_reducible assumption | exact c_CIP_LANE_STAT_NONCE_REFUSALS | exact c_FLT_SWATCH_CTL_ARM
    | exact c_LDG_GAUGE_STAT_FALLBACKS | exact c_LDG_UNMETERED_LINES | exact c_PEER_CHAIN_STAT_DEGRADED
    | exact c_PWR_SHED_CNT_SHED_WRITES | with_reducible apply keeps_bump | with_reducible apply keeps_endCmd
    | with_reducible apply keeps_onCmd | with_reducible apply keeps_raise | with_reducible apply keeps_noteVersion
    | with_reducible apply keeps_foldl | with_reducible apply keeps2_foldl | (with_reducible intro _; beta_reduce)
    | with_reducible refine Keeps2.of (by assumption) ?_ | with_reducible apply Keeps2.snd
    | (extract_lets +onlyGivenNames x; refine @Keeps.cut r o _ x ?_ (fun hx => ?_); rotate_left; clear_value x; rotate_right; dsimp -zeta only [x])
    | (extract_lets +onlyGivenNames x; clear_value x) | split

theorem keeps_pinByRule (c : Cmd) (r' : DirRec) (h : Keeps r o s) (c_idx : r .idx) (c_flt : r .flt) :
    Keeps r o (State.pinByRule s c r') := by
  unfold State.pinByRule
  repeat' first
    | with_reducible assumption | with_reducible apply keeps_pinRefused | with_reducible apply keeps_queueMirror
    | with_reducible apply keeps_foldl | with_reducible apply keeps2_foldl | (with_reducible intro _; beta_reduce)
    | with_reducible refine Keeps2.of (by assumption) ?_ | with_reducible apply Keeps2.snd
    | (extract_lets +onlyGivenNames x; refine @Keeps.cut r o _ x ?_ (fun hx => ?_); rotate_left; clear_value x; rotate_right; dsimp -zeta only [x])
    | (extract_lets +onlyGivenNames x; clear_value x) | split

theorem keeps_commitWrite (n : ℕ) (c : Cmd) (h : Keeps r o s) (c_nfe : r .nfe) (c_sch : r .sch) (c_idx : r .idx) (c_val : r .val) (c_cip : r .cip) (c_ldg : r .ldg) (c_ftl : r .ftl) (c_peer : r .peer) (c_rings : r .rings) (c_dram : r .dram) (c_flt : r .flt) (c_CIP_LANE_STAT_NONCE_REFUSALS : r (.reg Reg.CIP_LANE_STAT_NONCE_REFUSALS.addr)) (c_FLT_SWATCH_CTL_ARM : r (.reg Reg.FLT_SWATCH_CTL_ARM.addr)) (c_LDG_GAUGE_STAT_FALLBACKS : r (.reg Reg.LDG_GAUGE_STAT_FALLBACKS.addr)) (c_LDG_UNMETERED_LINES : r (.reg Reg.LDG_UNMETERED_LINES.addr)) (c_PEER_CHAIN_STAT_DEGRADED : r (.reg Reg.PEER_CHAIN_STAT_DEGRADED.addr)) (c_PWR_SHED_CNT_SHED_WRITES : r (.reg Reg.PWR_SHED_CNT_SHED_WRITES.addr)) :
    Keeps r o (State.commitWrite s n c) := by
  unfold State.commitWrite
  repeat' first
    | with_reducible assumption | with_reducible apply keeps_committed | with_reducible apply keeps_writeRecord
    | with_reducible apply keeps_releaseMaps | with_reducible apply keeps_recharge
    | with_reducible apply keeps_stageMaps | with_reducible apply keeps_pinByRule
    | with_reducible apply keeps_commitLines | with_reducible apply keeps_buryOrKeep
    | with_reducible apply keeps_foldl | with_reducible apply keeps2_foldl | (with_reducible intro _; beta_reduce)
    | with_reducible refine Keeps2.of (by assumption) ?_ | with_reducible apply Keeps2.snd
    | (extract_lets +onlyGivenNames x; refine @Keeps.cut r o _ x ?_ (fun hx => ?_); rotate_left; clear_value x; rotate_right; dsimp -zeta only [x])
    | (extract_lets +onlyGivenNames x; refine @Keeps2.cut r o _ _ x ?_ (fun hx => ?_); rotate_left; clear_value x; rotate_right; dsimp -zeta only [x])
    | (extract_lets +onlyGivenNames x; clear_value x) | split | with_reducible apply Keeps2.mk

theorem keeps_commitDelete (n : ℕ) (c : Cmd) (h : Keeps r o s) (c_nfe : r .nfe) (c_sch : r .sch) (c_idx : r .idx) (c_val : r .val) (c_cip : r .cip) (c_ldg : r .ldg) (c_ftl : r .ftl) (c_peer : r .peer) (c_rings : r .rings) (c_dram : r .dram) (c_flt : r .flt) (c_CIP_LANE_STAT_NONCE_REFUSALS : r (.reg Reg.CIP_LANE_STAT_NONCE_REFUSALS.addr)) (c_FLT_SWATCH_CTL_ARM : r (.reg Reg.FLT_SWATCH_CTL_ARM.addr)) (c_LDG_GAUGE_STAT_FALLBACKS : r (.reg Reg.LDG_GAUGE_STAT_FALLBACKS.addr)) (c_LDG_UNMETERED_LINES : r (.reg Reg.LDG_UNMETERED_LINES.addr)) (c_PEER_CHAIN_STAT_DEGRADED : r (.reg Reg.PEER_CHAIN_STAT_DEGRADED.addr)) (c_PWR_SHED_CNT_SHED_WRITES : r (.reg Reg.PWR_SHED_CNT_SHED_WRITES.addr)) (c_VAL_E2E_STAT_E2E_MISMATCHES : r (.reg Reg.VAL_E2E_STAT_E2E_MISMATCHES.addr)) :
    Keeps r o (State.commitDelete s n c) := by
  unfold State.commitDelete
  repeat' first
    | with_reducible assumption | with_reducible apply keeps_committed | with_reducible apply keeps_dropPins
    | with_reducible apply keeps_releaseMaps | with_reducible apply keeps_addCond
    | with_reducible apply keeps_commitLine | with_reducible apply keeps_removeRecord
    | with_reducible apply keeps_failCmd | with_reducible apply keeps_unmirror | with_reducible apply keeps_recharge
    | with_reducible apply keeps_buryOrKeep | with_reducible apply keeps_foldl | with_reducible apply keeps2_foldl
    | (with_reducible intro _; beta_reduce) | with_reducible refine Keeps2.of (by assumption) ?_
    | with_reducible apply Keeps2.snd
    | (extract_lets +onlyGivenNames x; refine @Keeps.cut r o _ x ?_ (fun hx => ?_); rotate_left; clear_value x; rotate_right; dsimp -zeta only [x])
    | (extract_lets +onlyGivenNames x; clear_value x) | split

theorem keeps_tryDelete (n : ℕ) (c : Cmd) (r' : DirRec) (h : Keeps r o s) (c_nfe : r .nfe) (c_sch : r .sch) (c_idx : r .idx) (c_val : r .val) (c_cip : r .cip) (c_ldg : r .ldg) (c_ftl : r .ftl) (c_peer : r .peer) (c_rings : r .rings) (c_dram : r .dram) (c_flt : r .flt) (c_CIP_LANE_STAT_NONCE_REFUSALS : r (.reg Reg.CIP_LANE_STAT_NONCE_REFUSALS.addr)) (c_FLT_SWATCH_CTL_ARM : r (.reg Reg.FLT_SWATCH_CTL_ARM.addr)) (c_LDG_GAUGE_STAT_FALLBACKS : r (.reg Reg.LDG_GAUGE_STAT_FALLBACKS.addr)) (c_LDG_UNMETERED_LINES : r (.reg Reg.LDG_UNMETERED_LINES.addr)) (c_PEER_CHAIN_STAT_DEGRADED : r (.reg Reg.PEER_CHAIN_STAT_DEGRADED.addr)) (c_PWR_SHED_CNT_SHED_WRITES : r (.reg Reg.PWR_SHED_CNT_SHED_WRITES.addr)) (c_VAL_E2E_STAT_E2E_MISMATCHES : r (.reg Reg.VAL_E2E_STAT_E2E_MISMATCHES.addr)) :
    Keeps r o (State.tryDelete s n c r') := by
  unfold State.tryDelete
  repeat' first
    | with_reducible assumption | with_reducible apply keeps_withTokens | with_reducible apply keeps_commitDelete
    | with_reducible apply keeps_queueMirror | with_reducible apply keeps_foldl | with_reducible apply keeps2_foldl
    | (with_reducible intro _; beta_reduce) | with_reducible refine Keeps2.of (by assumption) ?_
    | with_reducible apply Keeps2.snd
    | (extract_lets +onlyGivenNames x; refine @Keeps.cut r o _ x ?_ (fun hx => ?_); rotate_left; clear_value x; rotate_right; dsimp -zeta only [x])
    | (extract_lets +onlyGivenNames x; clear_value x) | split

theorem keeps_placeMaps (n : ℕ) (c : Cmd) (v : Variant) (pages : List ℕ) (h : Keeps r o s) (c_sch : r .sch) (c_ldg : r .ldg) (c_ftl : r .ftl) (c_flt : r .flt) (c_LDG_GAUGE_STAT_FALLBACKS : r (.reg Reg.LDG_GAUGE_STAT_FALLBACKS.addr)) :
    KeepsO r o (State.placeMaps s n c v pages) := by
  unfold State.placeMaps
  repeat' first
    | with_reducible exact KeepsO.none | with_reducible apply KeepsO.mk | with_reducible apply keepsO_map
    | with_reducible assumption | with_reducible apply keeps_onCmd | with_reducible apply keeps_allocMaps
    | with_reducible apply keeps_foldl | with_reducible apply keeps2_foldl | (with_reducible intro _; beta_reduce)
    | with_reducible refine Keeps2.of (by assumption) ?_ | with_reducible apply Keeps2.snd
    | with_reducible refine KeepsO2.of (by assumption) ?_ | with_reducible refine KeepsO2.pair (by assumption) ?_
    | with_reducible apply keeps_getD | with_reducible apply keepsO_map
    | (extract_lets +onlyGivenNames x; refine @Keeps.cut r o _ x ?_ (fun hx => ?_); rotate_left; clear_value x; rotate_right; dsimp -zeta only [x])
    | (extract_lets +onlyGivenNames x; refine @KeepsO2.cut r o _ _ x ?_ (fun hx => ?_); rotate_left; clear_value x; rotate_right; dsimp -zeta only [x])
    | (extract_lets +onlyGivenNames x; clear_value x) | split

theorem keeps_tryWrite (n : ℕ) (c : Cmd) (h : Keeps r o s) (c_nfe : r .nfe) (c_sch : r .sch) (c_idx : r .idx) (c_val : r .val) (c_cip : r .cip) (c_ldg : r .ldg) (c_ftl : r .ftl) (c_peer : r .peer) (c_rings : r .rings) (c_dram : r .dram) (c_flt : r .flt) (c_CIP_LANE_STAT_NONCE_REFUSALS : r (.reg Reg.CIP_LANE_STAT_NONCE_REFUSALS.addr)) (c_FLT_SWATCH_CTL_ARM : r (.reg Reg.FLT_SWATCH_CTL_ARM.addr)) (c_LDG_GAUGE_STAT_FALLBACKS : r (.reg Reg.LDG_GAUGE_STAT_FALLBACKS.addr)) (c_LDG_UNMETERED_LINES : r (.reg Reg.LDG_UNMETERED_LINES.addr)) (c_PEER_CHAIN_STAT_DEGRADED : r (.reg Reg.PEER_CHAIN_STAT_DEGRADED.addr)) (c_PWR_SHED_CNT_SHED_WRITES : r (.reg Reg.PWR_SHED_CNT_SHED_WRITES.addr)) (c_VAL_E2E_STAT_E2E_MISMATCHES : r (.reg Reg.VAL_E2E_STAT_E2E_MISMATCHES.addr)) :
    Keeps r o (State.tryWrite s n c) := by
  unfold State.tryWrite
  repeat' first
    | with_reducible assumption | with_reducible apply keeps_withTokens | with_reducible apply keeps_waitStaging
    | with_reducible apply keeps_commitWrite | with_reducible apply keeps_addCond | with_reducible apply keeps_failCmd
    | with_reducible apply keeps_withCmd | with_reducible apply keeps_placeMaps | with_reducible apply keeps_foldl
    | with_reducible apply keeps2_foldl | (with_reducible intro _; beta_reduce)
    | with_reducible refine Keeps2.of (by assumption) ?_ | with_reducible apply Keeps2.snd
    | with_reducible refine KeepsO.of (by assumption) ?_ | with_reducible apply keeps_getD
    | (extract_lets +onlyGivenNames x; refine @Keeps.cut r o _ x ?_ (fun hx => ?_); rotate_left; clear_value x; rotate_right; dsimp -zeta only [x])
    | (extract_lets +onlyGivenNames x; refine @KeepsO.cut r o _ x ?_ (fun hx => ?_); rotate_left; clear_value x; rotate_right; dsimp -zeta only [x])
    | (extract_lets +onlyGivenNames x; clear_value x) | split

theorem keeps_placementFailed (n : ℕ) (kh : W64) (h : Keeps r o s) (c_nfe : r .nfe) (c_sch : r .sch) (c_idx : r .idx) (c_val : r .val) (c_cip : r .cip) (c_ldg : r .ldg) (c_ftl : r .ftl) (c_peer : r .peer) (c_flt : r .flt) (c_CIP_LANE_STAT_NONCE_REFUSALS : r (.reg Reg.CIP_LANE_STAT_NONCE_REFUSALS.addr)) (c_FLT_SWATCH_CTL_ARM : r (.reg Reg.FLT_SWATCH_CTL_ARM.addr)) (c_LDG_GAUGE_STAT_FALLBACKS : r (.reg Reg.LDG_GAUGE_STAT_FALLBACKS.addr)) (c_LDG_UNMETERED_LINES : r (.reg Reg.LDG_UNMETERED_LINES.addr)) (c_PWR_SHED_CNT_SHED_WRITES : r (.reg Reg.PWR_SHED_CNT_SHED_WRITES.addr)) (c_VAL_E2E_STAT_E2E_MISMATCHES : r (.reg Reg.VAL_E2E_STAT_E2E_MISMATCHES.addr)) :
    Keeps r o (State.placementFailed s n kh) := by
  unfold State.placementFailed
  repeat' first
    | with_reducible assumption | with_reducible apply keeps_addCond | with_reducible apply keeps_failCmd
    | with_reducible apply keeps_noPlace

theorem keeps_tryCommit (n : ℕ) (h : Keeps r o s) (c_nfe : r .nfe) (c_sch : r .sch) (c_idx : r .idx) (c_val : r .val) (c_cip : r .cip) (c_ldg : r .ldg) (c_ftl : r .ftl) (c_peer : r .peer) (c_rings : r .rings) (c_dram : r .dram) (c_flt : r .flt) (c_CIP_LANE_STAT_NONCE_REFUSALS : r (.reg Reg.CIP_LANE_STAT_NONCE_REFUSALS.addr)) (c_FLT_SWATCH_CTL_ARM : r (.reg Reg.FLT_SWATCH_CTL_ARM.addr)) (c_LDG_GAUGE_STAT_FALLBACKS : r (.reg Reg.LDG_GAUGE_STAT_FALLBACKS.addr)) (c_LDG_UNMETERED_LINES : r (.reg Reg.LDG_UNMETERED_LINES.addr)) (c_PEER_CHAIN_STAT_DEGRADED : r (.reg Reg.PEER_CHAIN_STAT_DEGRADED.addr)) (c_PWR_SHED_CNT_SHED_WRITES : r (.reg Reg.PWR_SHED_CNT_SHED_WRITES.addr)) (c_VAL_E2E_STAT_E2E_MISMATCHES : r (.reg Reg.VAL_E2E_STAT_E2E_MISMATCHES.addr)) :
    Keeps r o (State.tryCommit s n) := by
  unfold State.tryCommit
  repeat' first
    | with_reducible assumption | with_reducible apply keeps_commitDelete | with_reducible apply keeps_tryWrite
    | with_reducible apply keeps_tryDelete | with_reducible apply keeps_withCmd
    | with_reducible apply keeps_placementFailed | with_reducible apply keeps_foldl
    | with_reducible apply keeps2_foldl | (with_reducible intro _; beta_reduce)
    | with_reducible refine Keeps2.of (by assumption) ?_ | with_reducible apply Keeps2.snd
    | (extract_lets +onlyGivenNames x; refine @Keeps.cut r o _ x ?_ (fun hx => ?_); rotate_left; clear_value x; rotate_right; dsimp -zeta only [x])
    | (extract_lets +onlyGivenNames x; clear_value x) | split

theorem keeps_chainCommit (n : ℕ) (copies : ℕ) (degraded : Bool) (h : Keeps r o s) (c_nfe : r .nfe) (c_sch : r .sch) (c_idx : r .idx) (c_val : r .val) (c_cip : r .cip) (c_ldg : r .ldg) (c_ftl : r .ftl) (c_peer : r .peer) (c_rings : r .rings) (c_dram : r .dram) (c_flt : r .flt) (c_CIP_LANE_STAT_NONCE_REFUSALS : r (.reg Reg.CIP_LANE_STAT_NONCE_REFUSALS.addr)) (c_FLT_SWATCH_CTL_ARM : r (.reg Reg.FLT_SWATCH_CTL_ARM.addr)) (c_LDG_GAUGE_STAT_FALLBACKS : r (.reg Reg.LDG_GAUGE_STAT_FALLBACKS.addr)) (c_LDG_UNMETERED_LINES : r (.reg Reg.LDG_UNMETERED_LINES.addr)) (c_PEER_CHAIN_STAT_DEGRADED : r (.reg Reg.PEER_CHAIN_STAT_DEGRADED.addr)) (c_PWR_SHED_CNT_SHED_WRITES : r (.reg Reg.PWR_SHED_CNT_SHED_WRITES.addr)) (c_VAL_E2E_STAT_E2E_MISMATCHES : r (.reg Reg.VAL_E2E_STAT_E2E_MISMATCHES.addr)) :
    Keeps r o (State.chainCommit s n copies degraded) := by
  unfold State.chainCommit
  repeat' first
    | with_reducible assumption | with_reducible apply keeps_onCmd | with_reducible apply keeps_tryCommit

theorem keeps_forward (n : ℕ) (c : Cmd) (peer : ℕ) (hop : ℕ) (path : List ℕ) (best : Bool) (depth : ℕ) (h : Keeps r o s) (c_nfe : r .nfe) (c_sch : r .sch) (c_val : r .val) (c_cip : r .cip) (c_ldg : r .ldg) (c_ftl : r .ftl) (c_peer : r .peer) (c_flt : r .flt) (c_CIP_LANE_STAT_NONCE_REFUSALS : r (.reg Reg.CIP_LANE_STAT_NONCE_REFUSALS.addr)) (c_FLT_SWATCH_CTL_ARM : r (.reg Reg.FLT_SWATCH_CTL_ARM.addr)) (c_LDG_GAUGE_STAT_FALLBACKS : r (.reg Reg.LDG_GAUGE_STAT_FALLBACKS.addr)) (c_LDG_UNMETERED_LINES : r (.reg Reg.LDG_UNMETERED_LINES.addr)) (c_PWR_SHED_CNT_SHED_WRITES : r (.reg Reg.PWR_SHED_CNT_SHED_WRITES.addr)) (c_VAL_E2E_STAT_E2E_MISMATCHES : r (.reg Reg.VAL_E2E_STAT_E2E_MISMATCHES.addr)) :
    Keeps r o (State.forward s n c peer hop path best depth) := by
  unfold State.forward
  repeat' first
    | with_reducible assumption | with_reducible apply keeps_addCond | with_reducible apply keeps_sendPeer
    | with_reducible apply keeps_failCmd | with_reducible apply keeps_onCmd
    | with_reducible apply keeps_transitRefused | with_reducible apply keeps_foldl | with_reducible apply keeps2_foldl
    | (with_reducible intro _; beta_reduce) | with_reducible refine Keeps2.of (by assumption) ?_
    | with_reducible apply Keeps2.snd
    | (extract_lets +onlyGivenNames x; refine @Keeps.cut r o _ x ?_ (fun hx => ?_); rotate_left; clear_value x; rotate_right; dsimp -zeta only [x])
    | (extract_lets +onlyGivenNames x; clear_value x) | split

theorem keeps_chainFailed (n : ℕ) (h : Keeps r o s) (c_nfe : r .nfe) (c_sch : r .sch) (c_val : r .val) (c_cip : r .cip) (c_ldg : r .ldg) (c_ftl : r .ftl) (c_peer : r .peer) (c_flt : r .flt) (c_CIP_LANE_STAT_NONCE_REFUSALS : r (.reg Reg.CIP_LANE_STAT_NONCE_REFUSALS.addr)) (c_FLT_SWATCH_CTL_ARM : r (.reg Reg.FLT_SWATCH_CTL_ARM.addr)) (c_LDG_GAUGE_STAT_FALLBACKS : r (.reg Reg.LDG_GAUGE_STAT_FALLBACKS.addr)) (c_LDG_UNMETERED_LINES : r (.reg Reg.LDG_UNMETERED_LINES.addr)) (c_PEER_CHAIN_STAT_DEGRADED : r (.reg Reg.PEER_CHAIN_STAT_DEGRADED.addr)) (c_PWR_SHED_CNT_SHED_WRITES : r (.reg Reg.PWR_SHED_CNT_SHED_WRITES.addr)) (c_VAL_E2E_STAT_E2E_MISMATCHES : r (.reg Reg.VAL_E2E_STAT_E2E_MISMATCHES.addr)) :
    Keeps r o (State.chainFailed s n) := by
  induction n generalizing s  with
  | zero =>
    unfold State.chainFailed
    repeat' first
      | with_reducible assumption | exact c_CIP_LANE_STAT_NONCE_REFUSALS | exact c_FLT_SWATCH_CTL_ARM
      | exact c_LDG_GAUGE_STAT_FALLBACKS | exact c_LDG_UNMETERED_LINES | exact c_PEER_CHAIN_STAT_DEGRADED
      | exact c_PWR_SHED_CNT_SHED_WRITES | exact c_VAL_E2E_STAT_E2E_MISMATCHES | with_reducible apply ih
      | with_reducible apply keeps_bump | with_reducible apply keeps_addCond | with_reducible apply keeps_sendPeer
      | with_reducible apply keeps_failCmd | with_reducible apply keeps_raise | with_reducible apply keeps_foldl
      | with_reducible apply keeps2_foldl | (with_reducible intro _; beta_reduce)
      | with_reducible refine Keeps2.of (by assumption) ?_ | with_reducible apply Keeps2.snd
      | (extract_lets +onlyGivenNames x; refine @Keeps.cut r o _ x ?_ (fun hx => ?_); rotate_left; clear_value x; rotate_right; dsimp -zeta only [x])
      | (extract_lets +onlyGivenNames x; clear_value x) | split | with_reducible apply Keeps2.mk
  | succ _ ih =>
    unfold State.chainFailed
    repeat' first
      | with_reducible assumption | exact c_CIP_LANE_STAT_NONCE_REFUSALS | exact c_FLT_SWATCH_CTL_ARM
      | exact c_LDG_GAUGE_STAT_FALLBACKS | exact c_LDG_UNMETERED_LINES | exact c_PEER_CHAIN_STAT_DEGRADED
      | exact c_PWR_SHED_CNT_SHED_WRITES | exact c_VAL_E2E_STAT_E2E_MISMATCHES | with_reducible apply ih
      | with_reducible apply keeps_bump | with_reducible apply keeps_addCond | with_reducible apply keeps_sendPeer
      | with_reducible apply keeps_failCmd | with_reducible apply keeps_raise | with_reducible apply keeps_foldl
      | with_reducible apply keeps2_foldl | (with_reducible intro _; beta_reduce)
      | with_reducible refine Keeps2.of (by assumption) ?_ | with_reducible apply Keeps2.snd
      | (extract_lets +onlyGivenNames x; refine @Keeps.cut r o _ x ?_ (fun hx => ?_); rotate_left; clear_value x; rotate_right; dsimp -zeta only [x])
      | (extract_lets +onlyGivenNames x; clear_value x) | split | with_reducible apply Keeps2.mk

theorem keeps_headChain (n : ℕ) (c : Cmd) (h : Keeps r o s) (c_nfe : r .nfe) (c_sch : r .sch) (c_idx : r .idx) (c_val : r .val) (c_cip : r .cip) (c_ldg : r .ldg) (c_ftl : r .ftl) (c_peer : r .peer) (c_rings : r .rings) (c_dram : r .dram) (c_flt : r .flt) (c_CIP_LANE_STAT_NONCE_REFUSALS : r (.reg Reg.CIP_LANE_STAT_NONCE_REFUSALS.addr)) (c_FLT_SWATCH_CTL_ARM : r (.reg Reg.FLT_SWATCH_CTL_ARM.addr)) (c_LDG_GAUGE_STAT_FALLBACKS : r (.reg Reg.LDG_GAUGE_STAT_FALLBACKS.addr)) (c_LDG_UNMETERED_LINES : r (.reg Reg.LDG_UNMETERED_LINES.addr)) (c_PEER_CHAIN_STAT_DEGRADED : r (.reg Reg.PEER_CHAIN_STAT_DEGRADED.addr)) (c_PWR_SHED_CNT_SHED_WRITES : r (.reg Reg.PWR_SHED_CNT_SHED_WRITES.addr)) (c_VAL_E2E_STAT_E2E_MISMATCHES : r (.reg Reg.VAL_E2E_STAT_E2E_MISMATCHES.addr)) :
    Keeps r o (State.headChain s n c) := by
  unfold State.headChain
  repeat' first
    | with_reducible assumption | with_reducible apply keeps_chainCommit | with_reducible apply keeps_chainFailed
    | with_reducible apply keeps_forward | with_reducible apply keeps_tryCommit | with_reducible apply keeps_foldl
    | with_reducible apply keeps2_foldl | (with_reducible intro _; beta_reduce)
    | with_reducible refine Keeps2.of (by assumption) ?_ | with_reducible apply Keeps2.snd
    | (extract_lets +onlyGivenNames x; refine @Keeps.cut r o _ x ?_ (fun hx => ?_); rotate_left; clear_value x; rotate_right; dsimp -zeta only [x])
    | (extract_lets +onlyGivenNames x; clear_value x) | split

theorem keeps_successorChain (n : ℕ) (c : Cmd) (m : PeerMsg) (h : Keeps r o s) (c_nfe : r .nfe) (c_sch : r .sch) (c_idx : r .idx) (c_val : r .val) (c_cip : r .cip) (c_ldg : r .ldg) (c_ftl : r .ftl) (c_peer : r .peer) (c_rings : r .rings) (c_dram : r .dram) (c_flt : r .flt) (c_CIP_LANE_STAT_NONCE_REFUSALS : r (.reg Reg.CIP_LANE_STAT_NONCE_REFUSALS.addr)) (c_FLT_SWATCH_CTL_ARM : r (.reg Reg.FLT_SWATCH_CTL_ARM.addr)) (c_LDG_GAUGE_STAT_FALLBACKS : r (.reg Reg.LDG_GAUGE_STAT_FALLBACKS.addr)) (c_LDG_UNMETERED_LINES : r (.reg Reg.LDG_UNMETERED_LINES.addr)) (c_PEER_CHAIN_STAT_DEGRADED : r (.reg Reg.PEER_CHAIN_STAT_DEGRADED.addr)) (c_PWR_SHED_CNT_SHED_WRITES : r (.reg Reg.PWR_SHED_CNT_SHED_WRITES.addr)) (c_VAL_E2E_STAT_E2E_MISMATCHES : r (.reg Reg.VAL_E2E_STAT_E2E_MISMATCHES.addr)) :
    Keeps r o (State.successorChain s n c m) := by
  unfold State.successorChain
  repeat' first
    | with_reducible assumption | with_reducible apply keeps_chainCommit | with_reducible apply keeps_endCmd
    | with_reducible apply keeps_forward | with_reducible apply keeps_foldl | with_reducible apply keeps2_foldl
    | (with_reducible intro _; beta_reduce) | with_reducible refine Keeps2.of (by assumption) ?_
    | with_reducible apply Keeps2.snd
    | (extract_lets +onlyGivenNames x; refine @Keeps.cut r o _ x ?_ (fun hx => ?_); rotate_left; clear_value x; rotate_right; dsimp -zeta only [x])
    | (extract_lets +onlyGivenNames x; clear_value x) | split

theorem keeps_restore (h' : RevokeHold) (h : Keeps r o s) (c_sch : r .sch) (c_idx : r .idx) (c_ldg : r .ldg) (c_ftl : r .ftl) (c_peer : r .peer) (c_rings : r .rings) (c_dram : r .dram) (c_flt : r .flt) (c_FLT_SWATCH_CTL_ARM : r (.reg Reg.FLT_SWATCH_CTL_ARM.addr)) (c_LDG_GAUGE_STAT_FALLBACKS : r (.reg Reg.LDG_GAUGE_STAT_FALLBACKS.addr)) :
    Keeps r o (State.restore s h') := by
  unfold State.restore
  extract_lets now u
  have hu : Keeps r o u := keeps_onPeer _ h c_peer
  clear_value now u
  split
  · split
    · exact hu
    · rename_i q _
      have h1 : Keeps r o (u.drawMeta (u.pairLines 1)) := by apply keeps_drawMeta <;> assumption
      extract_lets u2 u3
      have h2 : Keeps r o u2 := by
        dsimp -zeta only [u2]
        apply keeps_releaseSegs <;> first | assumption | exact h1
      clear_value u2
      have h3 : Keeps r o u3 := by
        dsimp -zeta only [u3]
        apply keeps_dropPins <;> first | assumption | skip
        split
        · apply keeps_queueMirror <;> assumption
        · exact h2
      clear_value u3
      apply keeps_raise
      · apply keeps_commitLine
        · apply keeps_removeRecord <;> first | assumption | (apply keeps_recharge <;> assumption)
        all_goals assumption
      · assumption
  · rename_i q _
    split
    · apply keeps_releaseSegs <;> first | assumption | skip
      apply keeps_raise <;> first | assumption | (apply keeps_noPlace <;> assumption)
    · extract_lets back u3 remap
      have h3 : Keeps r o u3 := by
        dsimp -zeta only [u3]
        split
        · exact hu
        · apply keeps_releaseSegs <;> assumption
      have hm : ∀ v e, Keeps r o v → Keeps2 r o (remap v e) := by
        intro v e hv
        dsimp only [remap]
        apply keeps_stageMaps <;> assumption
      clear_value remap back u3
      generalize hx : List.foldl _ (([] : Tbl Variant), u3) _ = x
      have hy : Keeps2 r o x := by
        rw [← hx]
        apply keeps2_foldl
        · intro y a hy
          dsimp only
          have := hm y.2 a hy
          exact this
        · exact h3
      obtain ⟨vs, u4⟩ := x
      have h4 : Keeps r o u4 := hy
      dsimp -zeta only
      extract_lets w u5
      have h5 : Keeps r o u5 := by dsimp -zeta only [u5]; apply keeps_drawMeta <;> assumption
      clear_value u5
      apply keeps_raise
      · apply keeps_commitLines
        · apply keeps_writeRecord <;> first | assumption | (apply keeps_recharge <;> assumption)
        all_goals assumption
      · assumption

theorem keeps_serveRestores (h : Keeps r o s) (c_sch : r .sch) (c_idx : r .idx) (c_ldg : r .ldg) (c_ftl : r .ftl) (c_peer : r .peer) (c_rings : r .rings) (c_dram : r .dram) (c_flt : r .flt) (c_FLT_SWATCH_CTL_ARM : r (.reg Reg.FLT_SWATCH_CTL_ARM.addr)) (c_LDG_GAUGE_STAT_FALLBACKS : r (.reg Reg.LDG_GAUGE_STAT_FALLBACKS.addr)) :
    Keeps r o (State.serveRestores s) := by
  unfold State.serveRestores
  repeat' first
    | with_reducible assumption | with_reducible apply keeps_restore | with_reducible apply keeps_onSch
    | with_reducible apply keeps_foldl | with_reducible apply keeps2_foldl | (with_reducible intro _; beta_reduce)
    | with_reducible refine Keeps2.of (by assumption) ?_ | with_reducible apply Keeps2.snd
    | (extract_lets +onlyGivenNames x; refine @Keeps.cut r o _ x ?_ (fun hx => ?_); rotate_left; clear_value x; rotate_right; dsimp -zeta only [x])
    | (extract_lets +onlyGivenNames x; clear_value x) | split

theorem keeps_decideFront (n : ℕ) (c : Cmd) (h : Keeps r o s) (c_nfe : r .nfe) (c_sch : r .sch) (c_idx : r .idx) (c_val : r .val) (c_cip : r .cip) (c_ldg : r .ldg) (c_ftl : r .ftl) (c_peer : r .peer) (c_rings : r .rings) (c_dram : r .dram) (c_flt : r .flt) (c_CIP_LANE_STAT_NONCE_REFUSALS : r (.reg Reg.CIP_LANE_STAT_NONCE_REFUSALS.addr)) (c_FLT_SWATCH_CTL_ARM : r (.reg Reg.FLT_SWATCH_CTL_ARM.addr)) (c_LDG_GAUGE_STAT_FALLBACKS : r (.reg Reg.LDG_GAUGE_STAT_FALLBACKS.addr)) (c_LDG_UNMETERED_LINES : r (.reg Reg.LDG_UNMETERED_LINES.addr)) (c_PEER_CHAIN_STAT_DEGRADED : r (.reg Reg.PEER_CHAIN_STAT_DEGRADED.addr)) (c_PWR_SHED_CNT_SHED_WRITES : r (.reg Reg.PWR_SHED_CNT_SHED_WRITES.addr)) (c_VAL_E2E_STAT_E2E_MISMATCHES : r (.reg Reg.VAL_E2E_STAT_E2E_MISMATCHES.addr)) :
    Keeps r o (State.decideFront s n c) := by
  unfold State.decideFront
  repeat' first
    | with_reducible assumption | with_reducible apply keeps_headChain | with_reducible apply keeps_successorChain
    | with_reducible apply keeps_failCmd | with_reducible apply keeps_onCmd
    | with_reducible apply keeps_placementFailed | with_reducible apply keeps_tryCommit
    | with_reducible apply keeps_foldl | with_reducible apply keeps2_foldl | (with_reducible intro _; beta_reduce)
    | with_reducible refine Keeps2.of (by assumption) ?_ | with_reducible apply Keeps2.snd
    | (extract_lets +onlyGivenNames x; refine @Keeps.cut r o _ x ?_ (fun hx => ?_); rotate_left; clear_value x; rotate_right; dsimp -zeta only [x])
    | (extract_lets +onlyGivenNames x; clear_value x) | split

theorem keeps_execCommitGate (cmd : ℕ) (h : Keeps r o s) (c_nfe : r .nfe) (c_sch : r .sch) (c_idx : r .idx) (c_val : r .val) (c_cip : r .cip) (c_ldg : r .ldg) (c_ftl : r .ftl) (c_peer : r .peer) (c_rings : r .rings) (c_dram : r .dram) (c_flt : r .flt) (c_CIP_LANE_STAT_NONCE_REFUSALS : r (.reg Reg.CIP_LANE_STAT_NONCE_REFUSALS.addr)) (c_FLT_SWATCH_CTL_ARM : r (.reg Reg.FLT_SWATCH_CTL_ARM.addr)) (c_LDG_GAUGE_STAT_FALLBACKS : r (.reg Reg.LDG_GAUGE_STAT_FALLBACKS.addr)) (c_LDG_UNMETERED_LINES : r (.reg Reg.LDG_UNMETERED_LINES.addr)) (c_PEER_CHAIN_STAT_DEGRADED : r (.reg Reg.PEER_CHAIN_STAT_DEGRADED.addr)) (c_PWR_SHED_CNT_SHED_WRITES : r (.reg Reg.PWR_SHED_CNT_SHED_WRITES.addr)) (c_VAL_E2E_STAT_E2E_MISMATCHES : r (.reg Reg.VAL_E2E_STAT_E2E_MISMATCHES.addr)) :
    KeepsN r o (execCommitGate cmd s) := by
  unfold execCommitGate
  repeat' first
    | with_reducible apply KeepsN.mk | with_reducible apply KeepsN.fault | with_reducible assumption
    | with_reducible apply keeps_decideFront | with_reducible apply keeps_serveRestores
    | with_reducible apply keeps_withCmd | with_reducible apply keeps_foldl | with_reducible apply keeps2_foldl
    | (with_reducible intro _; beta_reduce)

theorem keeps_applyChange (c : MChange) (h : Keeps r o s) (c_nfe : r .nfe) (c_sch : r .sch) (c_idx : r .idx) (c_val : r .val) (c_cip : r .cip) (c_ldg : r .ldg) (c_ftl : r .ftl) (c_peer : r .peer) (c_rings : r .rings) (c_dram : r .dram) (c_flt : r .flt) (c_CIP_LANE_STAT_NONCE_REFUSALS : r (.reg Reg.CIP_LANE_STAT_NONCE_REFUSALS.addr)) (c_FLT_SWATCH_CTL_ARM : r (.reg Reg.FLT_SWATCH_CTL_ARM.addr)) (c_LDG_GAUGE_STAT_FALLBACKS : r (.reg Reg.LDG_GAUGE_STAT_FALLBACKS.addr)) (c_LDG_UNMETERED_LINES : r (.reg Reg.LDG_UNMETERED_LINES.addr)) (c_PEER_CHAIN_STAT_DEGRADED : r (.reg Reg.PEER_CHAIN_STAT_DEGRADED.addr)) (c_PWR_SHED_CNT_SHED_WRITES : r (.reg Reg.PWR_SHED_CNT_SHED_WRITES.addr)) (c_VAL_E2E_STAT_E2E_MISMATCHES : r (.reg Reg.VAL_E2E_STAT_E2E_MISMATCHES.addr)) :
    Keeps r o (State.applyChange s c) := by
  unfold State.applyChange
  repeat' first
    | with_reducible assumption | with_reducible apply keeps_commitDelete | with_reducible apply keeps_releaseLoc
    | with_reducible apply keeps_onIdx | with_reducible apply keeps_unpinNow | with_reducible apply keeps_pinNow
    | with_reducible apply keeps_withCmd | with_reducible apply keeps_foldl | with_reducible apply keeps2_foldl
    | (with_reducible intro _; beta_reduce) | with_reducible refine Keeps2.of (by assumption) ?_
    | with_reducible apply Keeps2.snd
    | (extract_lets +onlyGivenNames x; refine @Keeps.cut r o _ x ?_ (fun hx => ?_); rotate_left; clear_value x; rotate_right; dsimp -zeta only [x])
    | (extract_lets +onlyGivenNames x; clear_value x) | split

theorem keeps_execMirrorChangeDone (h : Keeps r o s) (c_nfe : r .nfe) (c_sch : r .sch) (c_idx : r .idx) (c_val : r .val) (c_cip : r .cip) (c_ldg : r .ldg) (c_ftl : r .ftl) (c_peer : r .peer) (c_rings : r .rings) (c_dram : r .dram) (c_flt : r .flt) (c_CIP_LANE_STAT_NONCE_REFUSALS : r (.reg Reg.CIP_LANE_STAT_NONCE_REFUSALS.addr)) (c_FLT_SWATCH_CTL_ARM : r (.reg Reg.FLT_SWATCH_CTL_ARM.addr)) (c_LDG_GAUGE_STAT_FALLBACKS : r (.reg Reg.LDG_GAUGE_STAT_FALLBACKS.addr)) (c_LDG_UNMETERED_LINES : r (.reg Reg.LDG_UNMETERED_LINES.addr)) (c_PEER_CHAIN_STAT_DEGRADED : r (.reg Reg.PEER_CHAIN_STAT_DEGRADED.addr)) (c_PWR_SHED_CNT_SHED_WRITES : r (.reg Reg.PWR_SHED_CNT_SHED_WRITES.addr)) (c_VAL_E2E_STAT_E2E_MISMATCHES : r (.reg Reg.VAL_E2E_STAT_E2E_MISMATCHES.addr)) :
    KeepsN r o (execMirrorChangeDone s) := by
  unfold execMirrorChangeDone
  repeat' first
    | with_reducible apply KeepsN.mk | with_reducible apply KeepsN.fault | with_reducible assumption
    | with_reducible apply keeps_onIdx | with_reducible apply keeps_admitChange
    | with_reducible apply keeps_serveRestores | with_reducible apply keeps_applyChange
    | with_reducible apply keeps_foldl | with_reducible apply keeps2_foldl | (with_reducible intro _; beta_reduce)
    | with_reducible refine Keeps2.of (by assumption) ?_ | with_reducible apply Keeps2.snd
    | (extract_lets +onlyGivenNames x; refine @Keeps.cut r o _ x ?_ (fun hx => ?_); rotate_left; clear_value x; rotate_right; dsimp -zeta only [x])
    | (extract_lets +onlyGivenNames x; clear_value x) | split

end Sys2Proof.Machine
end

