-- ==== Sys2Proof/Laws/KeepMchDir.lean ====
section
/-! SUPPORT. What each operation of Machine/MchDir.lean may change. -/

set_option linter.unusedTactic false
set_option linter.unreachableTactic false

namespace Sys2Proof.Machine

variable {r : Part → Prop} {o s : State}

theorem keeps_ruleRefused (d : Dir) (code : ℕ) (pos : ℕ) (h : Keeps r o s) (c_rings : r .rings) (c_dram : r .dram) (c_flt : r .flt) (c_FLT_SWATCH_CTL_ARM : r (.reg Reg.FLT_SWATCH_CTL_ARM.addr)) :
    Keeps r o (State.ruleRefused s d code pos) := by
  unfold State.ruleRefused
  repeat' first
    | with_reducible assumption | with_reducible apply keeps_finish | with_reducible apply keeps_raise

theorem keeps_loadRule (d : Dir) (pos : ℕ) (r' : Option Rule) (h : Keeps r o s) (c_mch : r .mch) (c_rings : r .rings) (c_dram : r .dram) (c_flt : r .flt) (c_FLT_SWATCH_CTL_ARM : r (.reg Reg.FLT_SWATCH_CTL_ARM.addr)) (c_MCH_STATUS_EPOCH : r (.reg Reg.MCH_STATUS_EPOCH.addr)) :
    Keeps r o (State.loadRule s d pos r') := by
  unfold State.loadRule
  repeat' first
    | with_reducible assumption | with_reducible apply keeps_dropRule | with_reducible apply keeps_finish
    | with_reducible apply keeps_loaded | with_reducible apply keeps_putRule | with_reducible apply keeps_foldl
    | with_reducible apply keeps2_foldl | (with_reducible intro _; beta_reduce)
    | with_reducible refine Keeps2.of (by assumption) ?_ | with_reducible apply Keeps2.snd
    | (extract_lets +onlyGivenNames x; refine @Keeps.cut r o _ x ?_ (fun hx => ?_); rotate_left; clear_value x; rotate_right; dsimp -zeta only [x])
    | (extract_lets +onlyGivenNames x; clear_value x) | split

theorem keeps_loadOrWait (d : Dir) (pos : ℕ) (r' : Option Rule) (h : Keeps r o s) (c_mch : r .mch) (c_rings : r .rings) (c_dram : r .dram) (c_flt : r .flt) (c_FLT_SWATCH_CTL_ARM : r (.reg Reg.FLT_SWATCH_CTL_ARM.addr)) (c_MCH_STATUS_EPOCH : r (.reg Reg.MCH_STATUS_EPOCH.addr)) :
    Keeps r o (State.loadOrWait s d pos r') := by
  unfold State.loadOrWait
  repeat' first
    | with_reducible assumption | with_reducible apply keeps_onMch | with_reducible apply keeps_loadRule
    | with_reducible apply keeps_foldl | with_reducible apply keeps2_foldl | (with_reducible intro _; beta_reduce)
    | with_reducible refine Keeps2.of (by assumption) ?_ | with_reducible apply Keeps2.snd
    | (extract_lets +onlyGivenNames x; refine @Keeps.cut r o _ x ?_ (fun hx => ?_); rotate_left; clear_value x; rotate_right; dsimp -zeta only [x])
    | (extract_lets +onlyGivenNames x; clear_value x) | split

theorem keeps_execRuleWrite (d : Dir) (pos : ℕ) (recs : Bytes) (h : Keeps r o s) (c_mch : r .mch) (c_rings : r .rings) (c_dram : r .dram) (c_flt : r .flt) (c_FLT_SWATCH_CTL_ARM : r (.reg Reg.FLT_SWATCH_CTL_ARM.addr)) (c_MCH_STATUS_EPOCH : r (.reg Reg.MCH_STATUS_EPOCH.addr)) :
    KeepsN r o (execRuleWrite d pos recs s) := by
  unfold execRuleWrite
  repeat' first
    | with_reducible apply KeepsN.mk | with_reducible apply KeepsN.fault | with_reducible assumption
    | with_reducible apply keeps_loadOrWait | with_reducible apply keeps_setUp
    | with_reducible apply keeps_ruleRefused | with_reducible apply keeps_foldl | with_reducible apply keeps2_foldl
    | (with_reducible intro _; beta_reduce) | with_reducible refine Keeps2.of (by assumption) ?_
    | with_reducible apply Keeps2.snd
    | (extract_lets +onlyGivenNames x; refine @Keeps.cut r o _ x ?_ (fun hx => ?_); rotate_left; clear_value x; rotate_right; dsimp -zeta only [x])
    | (extract_lets +onlyGivenNames x; clear_value x) | split

theorem keeps_startShift (d : Dir) (p : ℕ) (q1 : ℕ) (r' : Rule) (h : Keeps r o s) (c_mch : r .mch) (c_rings : r .rings) (c_dram : r .dram) (c_flt : r .flt) (c_FLT_SWATCH_CTL_ARM : r (.reg Reg.FLT_SWATCH_CTL_ARM.addr)) :
    Keeps r o (State.startShift s d p q1 r') := by
  unfold State.startShift
  repeat' first
    | with_reducible assumption | with_reducible apply keeps_onMch | with_reducible apply keeps_ruleRefused
    | with_reducible apply keeps_foldl | with_reducible apply keeps2_foldl | (with_reducible intro _; beta_reduce)
    | with_reducible refine Keeps2.of (by assumption) ?_ | with_reducible apply Keeps2.snd
    | (extract_lets +onlyGivenNames x; refine @Keeps.cut r o _ x ?_ (fun hx => ?_); rotate_left; clear_value x; rotate_right; dsimp -zeta only [x])
    | (extract_lets +onlyGivenNames x; clear_value x) | split

theorem keeps_execRuleInsert (d : Dir) (pos : ℕ) (last : ℕ) (recs : Bytes) (h : Keeps r o s) (c_mch : r .mch) (c_rings : r .rings) (c_dram : r .dram) (c_flt : r .flt) (c_FLT_SWATCH_CTL_ARM : r (.reg Reg.FLT_SWATCH_CTL_ARM.addr)) :
    KeepsN r o (execRuleInsert d pos last recs s) := by
  unfold execRuleInsert
  repeat' first
    | with_reducible apply KeepsN.mk | with_reducible apply KeepsN.fault | with_reducible assumption
    | with_reducible apply keeps_startShift | with_reducible apply keeps_setUp | with_reducible apply keeps_onMch
    | with_reducible apply keeps_foldl | with_reducible apply keeps2_foldl | (with_reducible intro _; beta_reduce)
    | with_reducible refine Keeps2.of (by assumption) ?_ | with_reducible apply Keeps2.snd
    | (extract_lets +onlyGivenNames x; refine @Keeps.cut r o _ x ?_ (fun hx => ?_); rotate_left; clear_value x; rotate_right; dsimp -zeta only [x])
    | (extract_lets +onlyGivenNames x; clear_value x) | split

theorem keeps_runWaitLoads (y1 : List (Dir × ℕ × Option Rule)) (h : Keeps r o s) (c_mch : r .mch) (c_rings : r .rings) (c_dram : r .dram) (c_flt : r .flt) (c_FLT_SWATCH_CTL_ARM : r (.reg Reg.FLT_SWATCH_CTL_ARM.addr)) (c_MCH_STATUS_EPOCH : r (.reg Reg.MCH_STATUS_EPOCH.addr)) :
    Keeps r o (State.runWaitLoads s y1) := by
  induction y1 generalizing s  with
  | nil =>
    unfold State.runWaitLoads
    repeat' first
      | with_reducible assumption | with_reducible apply ih | with_reducible apply keeps_loadOrWait
      | with_reducible apply keeps_foldl | with_reducible apply keeps2_foldl | (with_reducible intro _; beta_reduce)
      | with_reducible refine Keeps2.of (by assumption) ?_ | with_reducible apply Keeps2.snd
      | (extract_lets +onlyGivenNames x; refine @Keeps.cut r o _ x ?_ (fun hx => ?_); rotate_left; clear_value x; rotate_right; dsimp -zeta only [x])
      | (extract_lets +onlyGivenNames x; clear_value x) | split | with_reducible apply Keeps2.mk
  | cons _ _ ih =>
    unfold State.runWaitLoads
    repeat' first
      | with_reducible assumption | with_reducible apply ih | with_reducible apply keeps_loadOrWait
      | with_reducible apply keeps_foldl | with_reducible apply keeps2_foldl | (with_reducible intro _; beta_reduce)
      | with_reducible refine Keeps2.of (by assumption) ?_ | with_reducible apply Keeps2.snd
      | (extract_lets +onlyGivenNames x; refine @Keeps.cut r o _ x ?_ (fun hx => ?_); rotate_left; clear_value x; rotate_right; dsimp -zeta only [x])
      | (extract_lets +onlyGivenNames x; clear_value x) | split | with_reducible apply Keeps2.mk

theorem keeps_nextShift (y1 : ℕ) (h : Keeps r o s) (c_mch : r .mch) (c_rings : r .rings) (c_dram : r .dram) (c_flt : r .flt) (c_FLT_SWATCH_CTL_ARM : r (.reg Reg.FLT_SWATCH_CTL_ARM.addr)) :
    Keeps r o (State.nextShift s y1) := by
  induction y1 generalizing s  with
  | zero =>
    unfold State.nextShift
    repeat' first
      | with_reducible assumption | with_reducible apply ih | with_reducible apply keeps_startShift
      | with_reducible apply keeps_onMch | with_reducible apply keeps_foldl | with_reducible apply keeps2_foldl
      | (with_reducible intro _; beta_reduce) | with_reducible refine Keeps2.of (by assumption) ?_
      | with_reducible apply Keeps2.snd
      | (extract_lets +onlyGivenNames x; refine @Keeps.cut r o _ x ?_ (fun hx => ?_); rotate_left; clear_value x; rotate_right; dsimp -zeta only [x])
      | (extract_lets +onlyGivenNames x; clear_value x) | split | with_reducible apply Keeps2.mk
  | succ _ ih =>
    unfold State.nextShift
    repeat' first
      | with_reducible assumption | with_reducible apply ih | with_reducible apply keeps_startShift
      | with_reducible apply keeps_onMch | with_reducible apply keeps_foldl | with_reducible apply keeps2_foldl
      | (with_reducible intro _; beta_reduce) | with_reducible refine Keeps2.of (by assumption) ?_
      | with_reducible apply Keeps2.snd
      | (extract_lets +onlyGivenNames x; refine @Keeps.cut r o _ x ?_ (fun hx => ?_); rotate_left; clear_value x; rotate_right; dsimp -zeta only [x])
      | (extract_lets +onlyGivenNames x; clear_value x) | split | with_reducible apply Keeps2.mk

theorem keeps_scrubEntry1 (p : ℕ) (h : Keeps r o s) (c_mch : r .mch) (c_flt : r .flt) (c_FLT_SWATCH_CTL_ARM : r (.reg Reg.FLT_SWATCH_CTL_ARM.addr)) (c_MCH_ERR_STAT_SCRUB_FIXES : r (.reg Reg.MCH_ERR_STAT_SCRUB_FIXES.addr)) :
    Keeps r o (State.scrubEntry1 s p) := by
  unfold State.scrubEntry1
  repeat' first
    | with_reducible assumption | exact c_FLT_SWATCH_CTL_ARM | exact c_MCH_ERR_STAT_SCRUB_FIXES
    | with_reducible apply keeps_bump | with_reducible apply keeps_raise | with_reducible apply keeps_dieWrite
    | with_reducible apply keeps_foldl | with_reducible apply keeps2_foldl | (with_reducible intro _; beta_reduce)
    | with_reducible refine Keeps2.of (by assumption) ?_ | with_reducible apply Keeps2.snd
    | (extract_lets +onlyGivenNames x; refine @Keeps.cut r o _ x ?_ (fun hx => ?_); rotate_left; clear_value x; rotate_right; dsimp -zeta only [x])
    | (extract_lets +onlyGivenNames x; clear_value x) | split

theorem keeps_scrubLate (h : Keeps r o s) (c_mch : r .mch) (c_flt : r .flt) (c_FLT_SWATCH_CTL_ARM : r (.reg Reg.FLT_SWATCH_CTL_ARM.addr)) (c_MCH_ERR_STAT_SCRUB_FIXES : r (.reg Reg.MCH_ERR_STAT_SCRUB_FIXES.addr)) :
    Keeps r o (State.scrubLate s) := by
  unfold State.scrubLate
  repeat' first
    | with_reducible assumption | with_reducible apply keeps_onMch | with_reducible apply keeps_scrubEntry1
    | with_reducible apply keeps_foldl | with_reducible apply keeps2_foldl | (with_reducible intro _; beta_reduce)

theorem keeps_afterShift (h : Keeps r o s) (c_mch : r .mch) (c_rings : r .rings) (c_dram : r .dram) (c_flt : r .flt) (c_FLT_SWATCH_CTL_ARM : r (.reg Reg.FLT_SWATCH_CTL_ARM.addr)) (c_MCH_ERR_STAT_SCRUB_FIXES : r (.reg Reg.MCH_ERR_STAT_SCRUB_FIXES.addr)) (c_MCH_STATUS_EPOCH : r (.reg Reg.MCH_STATUS_EPOCH.addr)) :
    Keeps r o (State.afterShift s) := by
  unfold State.afterShift
  repeat' first
    | with_reducible assumption | with_reducible apply keeps_runWaitLoads | with_reducible apply keeps_scrubLate
    | with_reducible apply keeps_nextShift | with_reducible apply keeps_onMch

theorem keeps_completeShift (h' : Shift) (h : Keeps r o s) (c_mch : r .mch) (c_rings : r .rings) (c_dram : r .dram) (c_flt : r .flt) (c_FLT_SWATCH_CTL_ARM : r (.reg Reg.FLT_SWATCH_CTL_ARM.addr)) (c_MCH_ERR_STAT_SCRUB_FIXES : r (.reg Reg.MCH_ERR_STAT_SCRUB_FIXES.addr)) (c_MCH_STATUS_EPOCH : r (.reg Reg.MCH_STATUS_EPOCH.addr)) :
    Keeps r o (State.completeShift s h') := by
  unfold State.completeShift
  repeat' first
    | with_reducible assumption | with_reducible apply keeps_finish | with_reducible apply keeps_afterShift
    | with_reducible apply keeps_loaded | with_reducible apply keeps_finishShift

theorem keeps_execShiftComplete (h : Keeps r o s) (c_mch : r .mch) (c_rings : r .rings) (c_dram : r .dram) (c_flt : r .flt) (c_FLT_SWATCH_CTL_ARM : r (.reg Reg.FLT_SWATCH_CTL_ARM.addr)) (c_MCH_ERR_STAT_SCRUB_FIXES : r (.reg Reg.MCH_ERR_STAT_SCRUB_FIXES.addr)) (c_MCH_STATUS_EPOCH : r (.reg Reg.MCH_STATUS_EPOCH.addr)) :
    KeepsN r o (execShiftComplete s) := by
  unfold execShiftComplete
  repeat' first
    | with_reducible apply KeepsN.mk | with_reducible apply KeepsN.fault | with_reducible assumption
    | with_reducible apply keeps_completeShift | with_reducible apply keeps_foldl | with_reducible apply keeps2_foldl
    | (with_reducible intro _; beta_reduce) | with_reducible refine Keeps2.of (by assumption) ?_
    | with_reducible apply Keeps2.snd
    | (extract_lets +onlyGivenNames x; refine @Keeps.cut r o _ x ?_ (fun hx => ?_); rotate_left; clear_value x; rotate_right; dsimp -zeta only [x])
    | (extract_lets +onlyGivenNames x; clear_value x) | split

theorem keeps_execRuleClear (d : Dir) (pos : ℕ) (h : Keeps r o s) (c_mch : r .mch) (c_rings : r .rings) (c_dram : r .dram) (c_flt : r .flt) (c_FLT_SWATCH_CTL_ARM : r (.reg Reg.FLT_SWATCH_CTL_ARM.addr)) (c_MCH_STATUS_EPOCH : r (.reg Reg.MCH_STATUS_EPOCH.addr)) :
    KeepsN r o (execRuleClear d pos s) := by
  unfold execRuleClear
  repeat' first
    | with_reducible apply KeepsN.mk | with_reducible apply KeepsN.fault | with_reducible assumption
    | with_reducible apply keeps_loadOrWait | with_reducible apply keeps_setUp
    | with_reducible apply keeps_ruleRefused | with_reducible apply keeps_foldl | with_reducible apply keeps2_foldl
    | (with_reducible intro _; beta_reduce) | with_reducible refine Keeps2.of (by assumption) ?_
    | with_reducible apply Keeps2.snd
    | (extract_lets +onlyGivenNames x; refine @Keeps.cut r o _ x ?_ (fun hx => ?_); rotate_left; clear_value x; rotate_right; dsimp -zeta only [x])
    | (extract_lets +onlyGivenNames x; clear_value x) | split

theorem keeps_execRuleSearch (d : Dir) (word : Bytes) (start : ℕ) (issue : SearchIssue) (h : Keeps r o s) (c_mch : r .mch) (c_rings : r .rings) (c_dram : r .dram) (c_flt : r .flt) (c_FLT_SWATCH_CTL_ARM : r (.reg Reg.FLT_SWATCH_CTL_ARM.addr)) (c_MCH_ERR_STAT_SCRUB_FIXES : r (.reg Reg.MCH_ERR_STAT_SCRUB_FIXES.addr)) :
    KeepsN r o (execRuleSearch d word start issue s) := by
  unfold execRuleSearch
  repeat' first
    | with_reducible apply KeepsN.mk | with_reducible apply KeepsN.fault | with_reducible assumption
    | with_reducible apply keeps_grantSearch | with_reducible apply keeps_guardStep
    | with_reducible apply keeps_finish | with_reducible apply keeps_matchParity | with_reducible apply keeps_setUp
    | with_reducible apply keeps_search | with_reducible apply keeps_foldl | with_reducible apply keeps2_foldl
    | (with_reducible intro _; beta_reduce) | with_reducible refine Keeps2.of (by assumption) ?_
    | with_reducible apply Keeps2.snd
    | (extract_lets +onlyGivenNames x; refine @Keeps.cut r o _ x ?_ (fun hx => ?_); rotate_left; clear_value x; rotate_right; dsimp -zeta only [x])
    | (extract_lets +onlyGivenNames x; refine @Keeps2.cut r o _ _ x ?_ (fun hx => ?_); rotate_left; clear_value x; rotate_right; dsimp -zeta only [x])
    | (extract_lets +onlyGivenNames x; clear_value x) | split

theorem keeps_execRuleRead (d : Dir) (pos : ℕ) (h : Keeps r o s) (c_rings : r .rings) (c_dram : r .dram) (c_flt : r .flt) (c_FLT_SWATCH_CTL_ARM : r (.reg Reg.FLT_SWATCH_CTL_ARM.addr)) :
    KeepsN r o (execRuleRead d pos s) := by
  unfold execRuleRead
  repeat' first
    | with_reducible apply KeepsN.mk | with_reducible apply KeepsN.fault | with_reducible assumption
    | with_reducible apply keeps_drawBytes | with_reducible apply keeps_drawNat | with_reducible apply keeps_setUp
    | with_reducible apply keeps_ruleRefused | with_reducible apply keeps_finishExt | with_reducible apply keeps_foldl
    | with_reducible apply keeps2_foldl | (with_reducible intro _; beta_reduce)
    | with_reducible refine Keeps2.of (by assumption) ?_ | with_reducible apply Keeps2.snd
    | (extract_lets +onlyGivenNames x; refine @Keeps.cut r o _ x ?_ (fun hx => ?_); rotate_left; clear_value x; rotate_right; dsimp -zeta only [x])
    | (extract_lets +onlyGivenNames x; refine @Keeps2.cut r o _ _ x ?_ (fun hx => ?_); rotate_left; clear_value x; rotate_right; dsimp -zeta only [x])
    | (extract_lets +onlyGivenNames x; clear_value x) | split

theorem keeps_execEpochSet (d : Dir) (epoch : ℕ) (h : Keeps r o s) (c_rings : r .rings) (c_dram : r .dram) (c_flt : r .flt) (c_FLT_SWATCH_CTL_ARM : r (.reg Reg.FLT_SWATCH_CTL_ARM.addr)) (c_MCH_STATUS_EPOCH : r (.reg Reg.MCH_STATUS_EPOCH.addr)) :
    KeepsN r o (execEpochSet d epoch s) := by
  unfold execEpochSet
  repeat' first
    | with_reducible apply KeepsN.mk | with_reducible apply KeepsN.fault | with_reducible assumption
    | exact c_FLT_SWATCH_CTL_ARM | exact c_MCH_STATUS_EPOCH | with_reducible apply keeps_setFld
    | with_reducible apply keeps_finish | with_reducible apply keeps_setUp | with_reducible apply keeps_loaded
    | with_reducible apply keeps_ruleRefused | with_reducible apply keeps_foldl | with_reducible apply keeps2_foldl
    | (with_reducible intro _; beta_reduce) | with_reducible refine Keeps2.of (by assumption) ?_
    | with_reducible apply Keeps2.snd
    | (extract_lets +onlyGivenNames x; refine @Keeps.cut r o _ x ?_ (fun hx => ?_); rotate_left; clear_value x; rotate_right; dsimp -zeta only [x])
    | (extract_lets +onlyGivenNames x; clear_value x) | split

theorem keeps_scrubEntries (dieMask : ℕ) (h : Keeps r o s) (c_mch : r .mch) (c_flt : r .flt) (c_FLT_SWATCH_CTL_ARM : r (.reg Reg.FLT_SWATCH_CTL_ARM.addr)) (c_MCH_ERR_STAT_SCRUB_FIXES : r (.reg Reg.MCH_ERR_STAT_SCRUB_FIXES.addr)) :
    Keeps r o (State.scrubEntries s dieMask) := by
  unfold State.scrubEntries
  repeat' first
    | with_reducible assumption | with_reducible apply keeps_onMch | with_reducible apply keeps_scrubEntry1
    | with_reducible apply keeps_foldl | with_reducible apply keeps2_foldl | (with_reducible intro _; beta_reduce)

theorem keeps_reloadHalf (h' : ℕ) (h : Keeps r o s) (c_mch : r .mch) (c_flt : r .flt) (c_MCH_ERR_STAT_SCRUB_FIXES : r (.reg Reg.MCH_ERR_STAT_SCRUB_FIXES.addr)) :
    Keeps r o (State.reloadHalf s h') := by
  unfold State.reloadHalf
  repeat' first
    | with_reducible assumption | exact c_MCH_ERR_STAT_SCRUB_FIXES | with_reducible apply keeps_bump
    | with_reducible apply keeps_raise | with_reducible apply keeps_onMch | with_reducible apply keeps_foldl
    | with_reducible apply keeps2_foldl | (with_reducible intro _; beta_reduce)
    | with_reducible refine Keeps2.of (by assumption) ?_ | with_reducible apply Keeps2.snd
    | (extract_lets +onlyGivenNames x; refine @Keeps.cut r o _ x ?_ (fun hx => ?_); rotate_left; clear_value x; rotate_right; dsimp -zeta only [x])
    | (extract_lets +onlyGivenNames x; clear_value x) | split

theorem keeps_scrubDies (dieMask : ℕ) (h : Keeps r o s) (c_mch : r .mch) (c_flt : r .flt) (c_FLT_SWATCH_CTL_ARM : r (.reg Reg.FLT_SWATCH_CTL_ARM.addr)) (c_MCH_ERR_STAT_SCRUB_FIXES : r (.reg Reg.MCH_ERR_STAT_SCRUB_FIXES.addr)) :
    Keeps r o (State.scrubDies s dieMask) := by
  unfold State.scrubDies
  repeat' first
    | with_reducible assumption | with_reducible apply keeps_scrubEntries | with_reducible apply keeps_reloadHalf
    | with_reducible apply keeps_grantSearch | with_reducible apply keeps_foldl | with_reducible apply keeps2_foldl
    | (with_reducible intro _; beta_reduce)

theorem keeps_execMatchScrub (dieMask : ℕ) (h : Keeps r o s) (c_mch : r .mch) (c_flt : r .flt) (c_FLT_SWATCH_CTL_ARM : r (.reg Reg.FLT_SWATCH_CTL_ARM.addr)) (c_MCH_ERR_STAT_SCRUB_FIXES : r (.reg Reg.MCH_ERR_STAT_SCRUB_FIXES.addr)) :
    KeepsN r o (execMatchScrub dieMask s) := by
  unfold execMatchScrub
  repeat' first
    | with_reducible apply KeepsN.mk | with_reducible apply KeepsN.fault | with_reducible assumption
    | with_reducible apply keeps_scrubDies | with_reducible apply keeps_guardStep | with_reducible apply keeps_foldl
    | with_reducible apply keeps2_foldl | (with_reducible intro _; beta_reduce)

theorem keeps_execScrubNow (d : Dir) (dieMask : ℕ) (h : Keeps r o s) (c_mch : r .mch) (c_rings : r .rings) (c_dram : r .dram) (c_flt : r .flt) (c_FLT_SWATCH_CTL_ARM : r (.reg Reg.FLT_SWATCH_CTL_ARM.addr)) (c_MCH_ERR_STAT_SCRUB_FIXES : r (.reg Reg.MCH_ERR_STAT_SCRUB_FIXES.addr)) :
    KeepsN r o (execScrubNow d dieMask s) := by
  unfold execScrubNow
  repeat' first
    | with_reducible apply KeepsN.mk | with_reducible apply KeepsN.fault | with_reducible assumption
    | with_reducible apply keeps_scrubDies | with_reducible apply keeps_guardStep | with_reducible apply keeps_finish
    | with_reducible apply keeps_setUp | with_reducible apply keeps_foldl | with_reducible apply keeps2_foldl
    | (with_reducible intro _; beta_reduce)

theorem keeps_execMatchStateReloaded (half : ℕ) (h : Keeps r o s) (c_mch : r .mch) (c_flt : r .flt) (c_MCH_ERR_STAT_SCRUB_FIXES : r (.reg Reg.MCH_ERR_STAT_SCRUB_FIXES.addr)) :
    KeepsN r o (execMatchStateReloaded half s) := by
  unfold execMatchStateReloaded
  repeat' first
    | with_reducible apply KeepsN.mk | with_reducible apply KeepsN.fault | with_reducible assumption
    | with_reducible apply keeps_reloadHalf

theorem keeps_execHalfWithdraw (h : Keeps r o s) (c_mch : r .mch) :
    KeepsN r o (execHalfWithdraw s) := by
  unfold execHalfWithdraw
  repeat' first
    | with_reducible apply KeepsN.mk | with_reducible apply KeepsN.fault | with_reducible assumption
    | with_reducible apply keeps_guardStep | with_reducible apply keeps_withdrawHalf
    | with_reducible apply keeps_foldl | with_reducible apply keeps2_foldl | (with_reducible intro _; beta_reduce)

theorem keeps_cascadeWrite (value : ℕ) (h : Keeps r o s) (c_flt : r .flt) (c_MCH_CFG_CASCADE : r (.reg Reg.MCH_CFG_CASCADE.addr)) :
    Keeps r o (State.cascadeWrite s value) := by
  unfold State.cascadeWrite
  repeat' first
    | with_reducible assumption | exact c_MCH_CFG_CASCADE | with_reducible apply keeps_setFld
    | with_reducible apply keeps_raise | with_reducible apply keeps_foldl | with_reducible apply keeps2_foldl
    | (with_reducible intro _; beta_reduce) | with_reducible refine Keeps2.of (by assumption) ?_
    | with_reducible apply Keeps2.snd
    | (extract_lets +onlyGivenNames x; refine @Keeps.cut r o _ x ?_ (fun hx => ?_); rotate_left; clear_value x; rotate_right; dsimp -zeta only [x])
    | (extract_lets +onlyGivenNames x; clear_value x) | split

theorem keeps_execCascadeWrite (value : ℕ) (h : Keeps r o s) (c_flt : r .flt) (c_MCH_CFG_CASCADE : r (.reg Reg.MCH_CFG_CASCADE.addr)) :
    KeepsN r o (execCascadeWrite value s) := by
  unfold execCascadeWrite
  repeat' first
    | with_reducible apply KeepsN.mk | with_reducible apply KeepsN.fault | with_reducible assumption
    | with_reducible apply keeps_cascadeWrite

end Sys2Proof.Machine
end

