-- ==== Sys2Proof/Laws/KeepReads.lean ====
section
/-! SUPPORT. What each operation of Machine/Reads.lean may change. -/

set_option linter.unusedTactic false
set_option linter.unreachableTactic false

namespace Sys2Proof.Machine

variable {r : Part → Prop} {o s : State}

theorem keeps_dropRepair (rid : ℕ) (h : Keeps r o s) (c_sch : r .sch) (c_val : r .val) :
    Keeps r o (State.dropRepair s rid) := by
  unfold State.dropRepair
  repeat' first
    | with_reducible assumption | with_reducible apply keeps_onVal | with_reducible apply keeps_onSch

theorem keeps_markLost (r' : Repair) (h : Keeps r o s) (c_idx : r .idx) :
    Keeps r o (State.markLost s r') := by
  unfold State.markLost
  repeat' first
    | with_reducible assumption | with_reducible apply keeps_onIdx

theorem keeps_repairLost (rid : ℕ) (h : Keeps r o s) (c_nfe : r .nfe) (c_sch : r .sch) (c_idx : r .idx) (c_val : r .val) (c_cip : r .cip) (c_ldg : r .ldg) (c_ftl : r .ftl) (c_peer : r .peer) (c_flt : r .flt) (c_CIP_AUTH_STAT_AUTH_FAILURES : r (.reg Reg.CIP_AUTH_STAT_AUTH_FAILURES.addr)) (c_CIP_LANE_STAT_NONCE_REFUSALS : r (.reg Reg.CIP_LANE_STAT_NONCE_REFUSALS.addr)) (c_FLT_SWATCH_CTL_ARM : r (.reg Reg.FLT_SWATCH_CTL_ARM.addr)) (c_LDG_GAUGE_STAT_FALLBACKS : r (.reg Reg.LDG_GAUGE_STAT_FALLBACKS.addr)) (c_LDG_UNMETERED_LINES : r (.reg Reg.LDG_UNMETERED_LINES.addr)) (c_PWR_SHED_CNT_SHED_WRITES : r (.reg Reg.PWR_SHED_CNT_SHED_WRITES.addr)) (c_VAL_E2E_STAT_E2E_MISMATCHES : r (.reg Reg.VAL_E2E_STAT_E2E_MISMATCHES.addr)) (c_VAL_READ_STAT_UNRECOVERABLE : r (.reg Reg.VAL_READ_STAT_UNRECOVERABLE.addr)) :
    Keeps r o (State.repairLost s rid) := by
  unfold State.repairLost
  repeat' first
    | with_reducible assumption | exact c_CIP_AUTH_STAT_AUTH_FAILURES | exact c_CIP_LANE_STAT_NONCE_REFUSALS
    | exact c_FLT_SWATCH_CTL_ARM | exact c_LDG_GAUGE_STAT_FALLBACKS | exact c_LDG_UNMETERED_LINES
    | exact c_PWR_SHED_CNT_SHED_WRITES | exact c_VAL_E2E_STAT_E2E_MISMATCHES | exact c_VAL_READ_STAT_UNRECOVERABLE
    | with_reducible apply keeps_bump | with_reducible apply keeps_raise | with_reducible apply keeps_segFails
    | with_reducible apply keeps_markLost | with_reducible apply keeps_dropRepair | with_reducible apply keeps_foldl
    | with_reducible apply keeps2_foldl | (with_reducible intro _; beta_reduce)
    | with_reducible refine Keeps2.of (by assumption) ?_ | with_reducible apply Keeps2.snd
    | (extract_lets +onlyGivenNames x; refine @Keeps.cut r o _ x ?_ (fun hx => ?_); rotate_left; clear_value x; rotate_right; dsimp -zeta only [x])
    | (extract_lets +onlyGivenNames x; clear_value x) | split

theorem keeps_peersFailed (rid : ℕ) (h : Keeps r o s) (c_nfe : r .nfe) (c_sch : r .sch) (c_idx : r .idx) (c_val : r .val) (c_cip : r .cip) (c_ldg : r .ldg) (c_ftl : r .ftl) (c_peer : r .peer) (c_flt : r .flt) (c_CIP_AUTH_STAT_AUTH_FAILURES : r (.reg Reg.CIP_AUTH_STAT_AUTH_FAILURES.addr)) (c_CIP_LANE_STAT_NONCE_REFUSALS : r (.reg Reg.CIP_LANE_STAT_NONCE_REFUSALS.addr)) (c_FLT_SWATCH_CTL_ARM : r (.reg Reg.FLT_SWATCH_CTL_ARM.addr)) (c_LDG_GAUGE_STAT_FALLBACKS : r (.reg Reg.LDG_GAUGE_STAT_FALLBACKS.addr)) (c_LDG_UNMETERED_LINES : r (.reg Reg.LDG_UNMETERED_LINES.addr)) (c_PEER_REPAIR_STAT_REPAIRS : r (.reg Reg.PEER_REPAIR_STAT_REPAIRS.addr)) (c_PWR_SHED_CNT_SHED_WRITES : r (.reg Reg.PWR_SHED_CNT_SHED_WRITES.addr)) (c_VAL_E2E_STAT_E2E_MISMATCHES : r (.reg Reg.VAL_E2E_STAT_E2E_MISMATCHES.addr)) (c_VAL_READ_STAT_UNRECOVERABLE : r (.reg Reg.VAL_READ_STAT_UNRECOVERABLE.addr)) :
    Keeps r o (State.peersFailed s rid) := by
  unfold State.peersFailed
  repeat' first
    | with_reducible assumption | exact c_CIP_AUTH_STAT_AUTH_FAILURES | exact c_CIP_LANE_STAT_NONCE_REFUSALS
    | exact c_FLT_SWATCH_CTL_ARM | exact c_LDG_GAUGE_STAT_FALLBACKS | exact c_LDG_UNMETERED_LINES
    | exact c_PEER_REPAIR_STAT_REPAIRS | exact c_PWR_SHED_CNT_SHED_WRITES | exact c_VAL_E2E_STAT_E2E_MISMATCHES
    | exact c_VAL_READ_STAT_UNRECOVERABLE | with_reducible apply keeps_bump | with_reducible apply keeps_repairLost
    | with_reducible apply keeps_raise | with_reducible apply keeps_foldl | with_reducible apply keeps2_foldl
    | (with_reducible intro _; beta_reduce) | with_reducible refine Keeps2.of (by assumption) ?_
    | with_reducible apply Keeps2.snd
    | (extract_lets +onlyGivenNames x; refine @Keeps.cut r o _ x ?_ (fun hx => ?_); rotate_left; clear_value x; rotate_right; dsimp -zeta only [x])
    | (extract_lets +onlyGivenNames x; clear_value x) | split

theorem keeps_askPeers (rid : ℕ) (h : Keeps r o s) (c_nfe : r .nfe) (c_sch : r .sch) (c_idx : r .idx) (c_val : r .val) (c_cip : r .cip) (c_ldg : r .ldg) (c_ftl : r .ftl) (c_peer : r .peer) (c_flt : r .flt) (c_CIP_AUTH_STAT_AUTH_FAILURES : r (.reg Reg.CIP_AUTH_STAT_AUTH_FAILURES.addr)) (c_CIP_LANE_STAT_NONCE_REFUSALS : r (.reg Reg.CIP_LANE_STAT_NONCE_REFUSALS.addr)) (c_FLT_SWATCH_CTL_ARM : r (.reg Reg.FLT_SWATCH_CTL_ARM.addr)) (c_LDG_GAUGE_STAT_FALLBACKS : r (.reg Reg.LDG_GAUGE_STAT_FALLBACKS.addr)) (c_LDG_UNMETERED_LINES : r (.reg Reg.LDG_UNMETERED_LINES.addr)) (c_PEER_REPAIR_STAT_REPAIRS : r (.reg Reg.PEER_REPAIR_STAT_REPAIRS.addr)) (c_PWR_SHED_CNT_SHED_WRITES : r (.reg Reg.PWR_SHED_CNT_SHED_WRITES.addr)) (c_VAL_E2E_STAT_E2E_MISMATCHES : r (.reg Reg.VAL_E2E_STAT_E2E_MISMATCHES.addr)) (c_VAL_READ_STAT_UNRECOVERABLE : r (.reg Reg.VAL_READ_STAT_UNRECOVERABLE.addr)) :
    Keeps r o (State.askPeers s rid) := by
  unfold State.askPeers
  repeat' first
    | with_reducible assumption | with_reducible apply keeps_onVal | with_reducible apply keeps_sendPeer
    | with_reducible apply keeps_peersFailed | with_reducible apply keeps_foldl | with_reducible apply keeps2_foldl
    | (with_reducible intro _; beta_reduce) | with_reducible refine Keeps2.of (by assumption) ?_
    | with_reducible apply Keeps2.snd
    | (extract_lets +onlyGivenNames x; refine @Keeps.cut r o _ x ?_ (fun hx => ?_); rotate_left; clear_value x; rotate_right; dsimp -zeta only [x])
    | (extract_lets +onlyGivenNames x; clear_value x) | split

theorem keeps_repairedBytes (c : Cmd) (r' : Repair) (g : Seg) (h : Keeps r o s) (c_cip : r .cip) :
    Keeps2 r o (State.repairedBytes s c r' g) := by
  unfold State.repairedBytes
  repeat' first
    | with_reducible assumption | with_reducible apply keeps_openBytes | with_reducible apply keeps_foldl
    | with_reducible apply keeps2_foldl | (with_reducible intro _; beta_reduce)
    | with_reducible refine Keeps2.of (by assumption) ?_ | with_reducible apply Keeps2.snd
    | (extract_lets +onlyGivenNames x; refine @Keeps.cut r o _ x ?_ (fun hx => ?_); rotate_left; clear_value x; rotate_right; dsimp -zeta only [x])
    | (extract_lets +onlyGivenNames x; refine @Keeps2.cut r o _ _ x ?_ (fun hx => ?_); rotate_left; clear_value x; rotate_right; dsimp -zeta only [x])
    | (extract_lets +onlyGivenNames x; clear_value x) | split | with_reducible apply Keeps2.mk

theorem keeps_addRepair (r' : Repair) (h : Keeps r o s) (c_val : r .val) :
    Keeps2 r o (State.addRepair s r') := by
  unfold State.addRepair
  repeat' first
    | with_reducible assumption | with_reducible apply keeps_onVal | with_reducible apply keeps_foldl
    | with_reducible apply keeps2_foldl | (with_reducible intro _; beta_reduce)
    | with_reducible refine Keeps2.of (by assumption) ?_ | with_reducible apply Keeps2.snd
    | (extract_lets +onlyGivenNames x; refine @Keeps.cut r o _ x ?_ (fun hx => ?_); rotate_left; clear_value x; rotate_right; dsimp -zeta only [x])
    | (extract_lets +onlyGivenNames x; clear_value x) | split | with_reducible apply Keeps2.mk

theorem keeps_seekCopy (rid : ℕ) (h : Keeps r o s) (c_nfe : r .nfe) (c_sch : r .sch) (c_idx : r .idx) (c_val : r .val) (c_cip : r .cip) (c_ldg : r .ldg) (c_ftl : r .ftl) (c_peer : r .peer) (c_flt : r .flt) (c_CIP_AUTH_STAT_AUTH_FAILURES : r (.reg Reg.CIP_AUTH_STAT_AUTH_FAILURES.addr)) (c_CIP_LANE_STAT_NONCE_REFUSALS : r (.reg Reg.CIP_LANE_STAT_NONCE_REFUSALS.addr)) (c_FLT_SWATCH_CTL_ARM : r (.reg Reg.FLT_SWATCH_CTL_ARM.addr)) (c_LDG_GAUGE_STAT_FALLBACKS : r (.reg Reg.LDG_GAUGE_STAT_FALLBACKS.addr)) (c_LDG_UNMETERED_LINES : r (.reg Reg.LDG_UNMETERED_LINES.addr)) (c_PEER_REPAIR_STAT_REPAIRS : r (.reg Reg.PEER_REPAIR_STAT_REPAIRS.addr)) (c_PWR_SHED_CNT_SHED_WRITES : r (.reg Reg.PWR_SHED_CNT_SHED_WRITES.addr)) (c_VAL_E2E_STAT_E2E_MISMATCHES : r (.reg Reg.VAL_E2E_STAT_E2E_MISMATCHES.addr)) (c_VAL_READ_STAT_UNRECOVERABLE : r (.reg Reg.VAL_READ_STAT_UNRECOVERABLE.addr)) :
    Keeps r o (State.seekCopy s rid) := by
  unfold State.seekCopy
  repeat' first
    | with_reducible assumption | with_reducible apply keeps_repairLost | with_reducible apply keeps_askPeers
    | with_reducible apply keeps_foldl | with_reducible apply keeps2_foldl | (with_reducible intro _; beta_reduce)
    | with_reducible refine Keeps2.of (by assumption) ?_ | with_reducible apply Keeps2.snd
    | (extract_lets +onlyGivenNames x; refine @Keeps.cut r o _ x ?_ (fun hx => ?_); rotate_left; clear_value x; rotate_right; dsimp -zeta only [x])
    | (extract_lets +onlyGivenNames x; clear_value x) | split

theorem keeps_startRepair (n : ℕ) (i : ℕ) (g : Seg) (v : Variant) (failed : ℕ) (h : Keeps r o s) (c_nfe : r .nfe) (c_sch : r .sch) (c_idx : r .idx) (c_val : r .val) (c_cip : r .cip) (c_ldg : r .ldg) (c_ftl : r .ftl) (c_peer : r .peer) (c_flt : r .flt) (c_CIP_AUTH_STAT_AUTH_FAILURES : r (.reg Reg.CIP_AUTH_STAT_AUTH_FAILURES.addr)) (c_CIP_LANE_STAT_NONCE_REFUSALS : r (.reg Reg.CIP_LANE_STAT_NONCE_REFUSALS.addr)) (c_FLT_SWATCH_CTL_ARM : r (.reg Reg.FLT_SWATCH_CTL_ARM.addr)) (c_LDG_GAUGE_STAT_FALLBACKS : r (.reg Reg.LDG_GAUGE_STAT_FALLBACKS.addr)) (c_LDG_UNMETERED_LINES : r (.reg Reg.LDG_UNMETERED_LINES.addr)) (c_PEER_REPAIR_STAT_REPAIRS : r (.reg Reg.PEER_REPAIR_STAT_REPAIRS.addr)) (c_PWR_SHED_CNT_SHED_WRITES : r (.reg Reg.PWR_SHED_CNT_SHED_WRITES.addr)) (c_VAL_COMP_STAT_RAW_BY_PROBE : r (.reg Reg.VAL_COMP_STAT_RAW_BY_PROBE.addr)) (c_VAL_E2E_STAT_E2E_MISMATCHES : r (.reg Reg.VAL_E2E_STAT_E2E_MISMATCHES.addr)) (c_VAL_READ_STAT_UNRECOVERABLE : r (.reg Reg.VAL_READ_STAT_UNRECOVERABLE.addr)) (c_VAL_SWATCH_ARM : r (.reg Reg.VAL_SWATCH_ARM.addr)) :
    Keeps r o (State.startRepair s n i g v failed) := by
  unfold State.startRepair
  repeat' first
    | with_reducible assumption | with_reducible apply keeps_onVal | with_reducible apply keeps_addRepair
    | with_reducible apply keeps_onCmd | with_reducible apply keeps_segFails | with_reducible apply keeps_segGood
    | with_reducible apply keeps_repairedBytes | with_reducible apply keeps_seekCopy
    | with_reducible apply keeps_foldl | with_reducible apply keeps2_foldl | (with_reducible intro _; beta_reduce)
    | with_reducible refine Keeps2.of (by assumption) ?_ | with_reducible apply Keeps2.snd
    | (extract_lets +onlyGivenNames x; refine @Keeps.cut r o _ x ?_ (fun hx => ?_); rotate_left; clear_value x; rotate_right; dsimp -zeta only [x])
    | (extract_lets +onlyGivenNames x; refine @Keeps2.cut r o _ _ x ?_ (fun hx => ?_); rotate_left; clear_value x; rotate_right; dsimp -zeta only [x])
    | (extract_lets +onlyGivenNames x; clear_value x) | split

theorem keeps_upkeepRepair (d : DirRec) (variant : ℕ) (v : Variant) (i : ℕ) (g : Seg) (failed : ℕ) (h : Keeps r o s) (c_nfe : r .nfe) (c_sch : r .sch) (c_idx : r .idx) (c_val : r .val) (c_cip : r .cip) (c_ldg : r .ldg) (c_ftl : r .ftl) (c_peer : r .peer) (c_flt : r .flt) (c_CIP_AUTH_STAT_AUTH_FAILURES : r (.reg Reg.CIP_AUTH_STAT_AUTH_FAILURES.addr)) (c_CIP_LANE_STAT_NONCE_REFUSALS : r (.reg Reg.CIP_LANE_STAT_NONCE_REFUSALS.addr)) (c_FLT_SWATCH_CTL_ARM : r (.reg Reg.FLT_SWATCH_CTL_ARM.addr)) (c_LDG_GAUGE_STAT_FALLBACKS : r (.reg Reg.LDG_GAUGE_STAT_FALLBACKS.addr)) (c_LDG_UNMETERED_LINES : r (.reg Reg.LDG_UNMETERED_LINES.addr)) (c_PEER_REPAIR_STAT_REPAIRS : r (.reg Reg.PEER_REPAIR_STAT_REPAIRS.addr)) (c_PWR_SHED_CNT_SHED_WRITES : r (.reg Reg.PWR_SHED_CNT_SHED_WRITES.addr)) (c_VAL_E2E_STAT_E2E_MISMATCHES : r (.reg Reg.VAL_E2E_STAT_E2E_MISMATCHES.addr)) (c_VAL_READ_STAT_UNRECOVERABLE : r (.reg Reg.VAL_READ_STAT_UNRECOVERABLE.addr)) :
    Keeps r o (State.upkeepRepair s d variant v i g failed) := by
  unfold State.upkeepRepair
  repeat' first
    | with_reducible assumption | with_reducible apply keeps_addRepair | with_reducible apply keeps_seekCopy
    | with_reducible apply keeps_foldl | with_reducible apply keeps2_foldl | (with_reducible intro _; beta_reduce)
    | with_reducible refine Keeps2.of (by assumption) ?_ | with_reducible apply Keeps2.snd
    | (extract_lets +onlyGivenNames x; refine @Keeps.cut r o _ x ?_ (fun hx => ?_); rotate_left; clear_value x; rotate_right; dsimp -zeta only [x])
    | (extract_lets +onlyGivenNames x; refine @Keeps2.cut r o _ _ x ?_ (fun hx => ?_); rotate_left; clear_value x; rotate_right; dsimp -zeta only [x])
    | (extract_lets +onlyGivenNames x; clear_value x) | split

theorem keeps_resumeDies (dies : List (ℕ × ℕ)) (h : Keeps r o s) (c_ftl : r .ftl) :
    Keeps r o (State.resumeDies s dies) := by
  unfold State.resumeDies
  repeat' first
    | with_reducible assumption | with_reducible apply keeps_onFtl

theorem keeps_grantFch (loc : Loc) (express : Bool) (requester : ℕ) (h : Keeps r o s) (c_ftl : r .ftl) :
    Keeps r o (State.grantFch s loc express requester) := by
  unfold State.grantFch
  repeat' first
    | with_reducible assumption | with_reducible apply keeps_onFtl | with_reducible apply keeps_foldl
    | with_reducible apply keeps2_foldl | (with_reducible intro _; beta_reduce)
    | with_reducible refine Keeps2.of (by assumption) ?_ | with_reducible apply Keeps2.snd
    | (extract_lets +onlyGivenNames x; refine @Keeps.cut r o _ x ?_ (fun hx => ?_); rotate_left; clear_value x; rotate_right; dsimp -zeta only [x])
    | (extract_lets +onlyGivenNames x; clear_value x) | split

theorem keeps_readSeg (cmd : ℕ) (c : Cmd) (i : ℕ) (g : Seg) (v : Variant) (ldpcOk : Bool) (h : Keeps r o s) (c_nfe : r .nfe) (c_sch : r .sch) (c_idx : r .idx) (c_val : r .val) (c_cip : r .cip) (c_ldg : r .ldg) (c_ftl : r .ftl) (c_peer : r .peer) (c_flt : r .flt) (c_recorder : r .recorder) (c_CIP_AUTH_STAT_AUTH_FAILURES : r (.reg Reg.CIP_AUTH_STAT_AUTH_FAILURES.addr)) (c_CIP_LANE_STAT_NONCE_REFUSALS : r (.reg Reg.CIP_LANE_STAT_NONCE_REFUSALS.addr)) (c_FLT_SWATCH_CTL_ARM : r (.reg Reg.FLT_SWATCH_CTL_ARM.addr)) (c_LDG_GAUGE_STAT_FALLBACKS : r (.reg Reg.LDG_GAUGE_STAT_FALLBACKS.addr)) (c_LDG_UNMETERED_LINES : r (.reg Reg.LDG_UNMETERED_LINES.addr)) (c_PEER_REPAIR_STAT_REPAIRS : r (.reg Reg.PEER_REPAIR_STAT_REPAIRS.addr)) (c_PWR_SHED_CNT_SHED_WRITES : r (.reg Reg.PWR_SHED_CNT_SHED_WRITES.addr)) (c_REC_LOST_STAT_SRAM_OVERWRITTEN : r (.reg Reg.REC_LOST_STAT_SRAM_OVERWRITTEN.addr)) (c_VAL_COMP_STAT_RAW_BY_PROBE : r (.reg Reg.VAL_COMP_STAT_RAW_BY_PROBE.addr)) (c_VAL_E2E_STAT_E2E_MISMATCHES : r (.reg Reg.VAL_E2E_STAT_E2E_MISMATCHES.addr)) (c_VAL_READ_STAT_UNRECOVERABLE : r (.reg Reg.VAL_READ_STAT_UNRECOVERABLE.addr)) (c_VAL_SWATCH_ARM : r (.reg Reg.VAL_SWATCH_ARM.addr)) :
    Keeps r o (State.readSeg s cmd c i g v ldpcOk) := by
  unfold State.readSeg
  repeat' first
    | with_reducible assumption | with_reducible apply keeps_issueRef | with_reducible apply keeps_startRepair
    | with_reducible apply keeps_spoilLine | with_reducible apply keeps_grantFch | with_reducible apply keeps_setWork
    | with_reducible apply keeps_segGood | with_reducible apply keeps_grantVal | with_reducible apply keeps_readLines
    | with_reducible apply keeps_fillLanes | with_reducible apply keeps_foldl | with_reducible apply keeps2_foldl
    | (with_reducible intro _; beta_reduce) | with_reducible refine Keeps2.of (by assumption) ?_
    | with_reducible apply Keeps2.snd
    | (extract_lets +onlyGivenNames x; refine @Keeps.cut r o _ x ?_ (fun hx => ?_); rotate_left; clear_value x; rotate_right; dsimp -zeta only [x])
    | (extract_lets +onlyGivenNames x; refine @Keeps2.cut r o _ _ x ?_ (fun hx => ?_); rotate_left; clear_value x; rotate_right; dsimp -zeta only [x])
    | (extract_lets +onlyGivenNames x; clear_value x) | split

theorem keeps_execSegmentRead (cmd : ℕ) (ldpcOk : Bool) (h : Keeps r o s) (c_nfe : r .nfe) (c_sch : r .sch) (c_idx : r .idx) (c_val : r .val) (c_cip : r .cip) (c_ldg : r .ldg) (c_ftl : r .ftl) (c_peer : r .peer) (c_flt : r .flt) (c_recorder : r .recorder) (c_CIP_AUTH_STAT_AUTH_FAILURES : r (.reg Reg.CIP_AUTH_STAT_AUTH_FAILURES.addr)) (c_CIP_LANE_STAT_NONCE_REFUSALS : r (.reg Reg.CIP_LANE_STAT_NONCE_REFUSALS.addr)) (c_FLT_SWATCH_CTL_ARM : r (.reg Reg.FLT_SWATCH_CTL_ARM.addr)) (c_LDG_GAUGE_STAT_FALLBACKS : r (.reg Reg.LDG_GAUGE_STAT_FALLBACKS.addr)) (c_LDG_UNMETERED_LINES : r (.reg Reg.LDG_UNMETERED_LINES.addr)) (c_PEER_REPAIR_STAT_REPAIRS : r (.reg Reg.PEER_REPAIR_STAT_REPAIRS.addr)) (c_PWR_SHED_CNT_SHED_WRITES : r (.reg Reg.PWR_SHED_CNT_SHED_WRITES.addr)) (c_REC_LOST_STAT_SRAM_OVERWRITTEN : r (.reg Reg.REC_LOST_STAT_SRAM_OVERWRITTEN.addr)) (c_VAL_COMP_STAT_RAW_BY_PROBE : r (.reg Reg.VAL_COMP_STAT_RAW_BY_PROBE.addr)) (c_VAL_E2E_STAT_E2E_MISMATCHES : r (.reg Reg.VAL_E2E_STAT_E2E_MISMATCHES.addr)) (c_VAL_READ_STAT_UNRECOVERABLE : r (.reg Reg.VAL_READ_STAT_UNRECOVERABLE.addr)) (c_VAL_SWATCH_ARM : r (.reg Reg.VAL_SWATCH_ARM.addr)) :
    KeepsN r o (execSegmentRead cmd ldpcOk s) := by
  unfold execSegmentRead
  repeat' first
    | with_reducible apply KeepsN.mk | with_reducible apply KeepsN.fault | with_reducible assumption
    | with_reducible apply keeps_planRange | with_reducible apply keeps_resumeDies
    | with_reducible apply keeps_pathWhenReady | with_reducible apply keeps_readSeg
    | with_reducible apply keeps_withCmd | with_reducible apply keeps_foldl | with_reducible apply keeps2_foldl
    | (with_reducible intro _; beta_reduce) | with_reducible refine Keeps2.of (by assumption) ?_
    | with_reducible apply Keeps2.snd
    | (extract_lets +onlyGivenNames x; refine @Keeps.cut r o _ x ?_ (fun hx => ?_); rotate_left; clear_value x; rotate_right; dsimp -zeta only [x])
    | (extract_lets +onlyGivenNames x; clear_value x) | split

theorem keeps_sealJob (n : ℕ) (i : ℕ) (g : Seg) (h : Keeps r o s) (c_nfe : r .nfe) (c_sch : r .sch) (c_val : r .val) (c_cip : r .cip) (c_ldg : r .ldg) (c_ftl : r .ftl) (c_peer : r .peer) (c_flt : r .flt) (c_CIP_LANE_STAT_NONCE_REFUSALS : r (.reg Reg.CIP_LANE_STAT_NONCE_REFUSALS.addr)) (c_FLT_SWATCH_CTL_ARM : r (.reg Reg.FLT_SWATCH_CTL_ARM.addr)) (c_LDG_GAUGE_STAT_FALLBACKS : r (.reg Reg.LDG_GAUGE_STAT_FALLBACKS.addr)) (c_LDG_UNMETERED_LINES : r (.reg Reg.LDG_UNMETERED_LINES.addr)) (c_PWR_SHED_CNT_SHED_WRITES : r (.reg Reg.PWR_SHED_CNT_SHED_WRITES.addr)) (c_VAL_E2E_STAT_E2E_MISMATCHES : r (.reg Reg.VAL_E2E_STAT_E2E_MISMATCHES.addr)) (c_VAL_SWATCH_ARM : r (.reg Reg.VAL_SWATCH_ARM.addr)) :
    Keeps r o (State.sealJob s n i g) := by
  unfold State.sealJob
  repeat' first
    | with_reducible assumption | with_reducible apply keeps_nonceExhausted | with_reducible apply keeps_pathWhenReady
    | with_reducible apply keeps_takeRef | with_reducible apply keeps_writeFails | with_reducible apply keeps_setWork
    | with_reducible apply keeps_sealBytes | with_reducible apply keeps_foldl | with_reducible apply keeps2_foldl
    | (with_reducible intro _; beta_reduce) | with_reducible refine Keeps2.of (by assumption) ?_
    | with_reducible apply Keeps2.snd | with_reducible refine KeepsO2.of (by assumption) ?_
    | with_reducible refine KeepsO2.pair (by assumption) ?_ | with_reducible apply keeps_getD
    | with_reducible apply keepsO_map
    | (extract_lets +onlyGivenNames x; refine @Keeps.cut r o _ x ?_ (fun hx => ?_); rotate_left; clear_value x; rotate_right; dsimp -zeta only [x])
    | (extract_lets +onlyGivenNames x; refine @KeepsO2.cut r o _ _ x ?_ (fun hx => ?_); rotate_left; clear_value x; rotate_right; dsimp -zeta only [x])
    | (extract_lets +onlyGivenNames x; clear_value x) | split

theorem keeps_openJob (n : ℕ) (i : ℕ) (g : Seg) (h : Keeps r o s) (c_nfe : r .nfe) (c_sch : r .sch) (c_idx : r .idx) (c_val : r .val) (c_cip : r .cip) (c_ldg : r .ldg) (c_ftl : r .ftl) (c_peer : r .peer) (c_flt : r .flt) (c_CIP_AUTH_STAT_AUTH_FAILURES : r (.reg Reg.CIP_AUTH_STAT_AUTH_FAILURES.addr)) (c_CIP_LANE_STAT_NONCE_REFUSALS : r (.reg Reg.CIP_LANE_STAT_NONCE_REFUSALS.addr)) (c_FLT_SWATCH_CTL_ARM : r (.reg Reg.FLT_SWATCH_CTL_ARM.addr)) (c_LDG_GAUGE_STAT_FALLBACKS : r (.reg Reg.LDG_GAUGE_STAT_FALLBACKS.addr)) (c_LDG_UNMETERED_LINES : r (.reg Reg.LDG_UNMETERED_LINES.addr)) (c_PEER_REPAIR_STAT_REPAIRS : r (.reg Reg.PEER_REPAIR_STAT_REPAIRS.addr)) (c_PWR_SHED_CNT_SHED_WRITES : r (.reg Reg.PWR_SHED_CNT_SHED_WRITES.addr)) (c_VAL_COMP_STAT_RAW_BY_PROBE : r (.reg Reg.VAL_COMP_STAT_RAW_BY_PROBE.addr)) (c_VAL_E2E_STAT_E2E_MISMATCHES : r (.reg Reg.VAL_E2E_STAT_E2E_MISMATCHES.addr)) (c_VAL_READ_STAT_UNRECOVERABLE : r (.reg Reg.VAL_READ_STAT_UNRECOVERABLE.addr)) (c_VAL_SWATCH_ARM : r (.reg Reg.VAL_SWATCH_ARM.addr)) :
    Keeps r o (State.openJob s n i g) := by
  unfold State.openJob
  repeat' first
    | with_reducible assumption | with_reducible apply keeps_startRepair | with_reducible apply keeps_takeRef
    | with_reducible apply keeps_onCmd | with_reducible apply keeps_segFails | with_reducible apply keeps_segGood
    | with_reducible apply keeps_openBytes | with_reducible apply keeps_foldl | with_reducible apply keeps2_foldl
    | (with_reducible intro _; beta_reduce) | with_reducible refine Keeps2.of (by assumption) ?_
    | with_reducible apply Keeps2.snd | with_reducible refine KeepsO2.of (by assumption) ?_
    | with_reducible refine KeepsO2.pair (by assumption) ?_ | with_reducible apply keeps_getD
    | with_reducible apply keepsO_map
    | (extract_lets +onlyGivenNames x; refine @Keeps.cut r o _ x ?_ (fun hx => ?_); rotate_left; clear_value x; rotate_right; dsimp -zeta only [x])
    | (extract_lets +onlyGivenNames x; refine @Keeps2.cut r o _ _ x ?_ (fun hx => ?_); rotate_left; clear_value x; rotate_right; dsimp -zeta only [x])
    | (extract_lets +onlyGivenNames x; refine @KeepsO2.cut r o _ _ x ?_ (fun hx => ?_); rotate_left; clear_value x; rotate_right; dsimp -zeta only [x])
    | (extract_lets +onlyGivenNames x; clear_value x) | split

theorem keeps_cmdJob (j : CipJob) (h : Keeps r o s) (c_nfe : r .nfe) (c_sch : r .sch) (c_idx : r .idx) (c_val : r .val) (c_cip : r .cip) (c_ldg : r .ldg) (c_ftl : r .ftl) (c_peer : r .peer) (c_flt : r .flt) (c_CIP_AUTH_STAT_AUTH_FAILURES : r (.reg Reg.CIP_AUTH_STAT_AUTH_FAILURES.addr)) (c_CIP_LANE_STAT_NONCE_REFUSALS : r (.reg Reg.CIP_LANE_STAT_NONCE_REFUSALS.addr)) (c_FLT_SWATCH_CTL_ARM : r (.reg Reg.FLT_SWATCH_CTL_ARM.addr)) (c_LDG_GAUGE_STAT_FALLBACKS : r (.reg Reg.LDG_GAUGE_STAT_FALLBACKS.addr)) (c_LDG_UNMETERED_LINES : r (.reg Reg.LDG_UNMETERED_LINES.addr)) (c_PEER_REPAIR_STAT_REPAIRS : r (.reg Reg.PEER_REPAIR_STAT_REPAIRS.addr)) (c_PWR_SHED_CNT_SHED_WRITES : r (.reg Reg.PWR_SHED_CNT_SHED_WRITES.addr)) (c_VAL_COMP_STAT_RAW_BY_PROBE : r (.reg Reg.VAL_COMP_STAT_RAW_BY_PROBE.addr)) (c_VAL_E2E_STAT_E2E_MISMATCHES : r (.reg Reg.VAL_E2E_STAT_E2E_MISMATCHES.addr)) (c_VAL_READ_STAT_UNRECOVERABLE : r (.reg Reg.VAL_READ_STAT_UNRECOVERABLE.addr)) (c_VAL_SWATCH_ARM : r (.reg Reg.VAL_SWATCH_ARM.addr)) :
    Keeps r o (State.cmdJob s j) := by
  unfold State.cmdJob
  repeat' first
    | with_reducible assumption | with_reducible apply keeps_openJob | with_reducible apply keeps_readSlot
    | with_reducible apply keeps_nonceExhausted | with_reducible apply keeps_grantVal
    | with_reducible apply keeps_sealJob | with_reducible apply keeps_foldl | with_reducible apply keeps2_foldl
    | (with_reducible intro _; beta_reduce) | with_reducible refine Keeps2.of (by assumption) ?_
    | with_reducible apply Keeps2.snd
    | (extract_lets +onlyGivenNames x; refine @Keeps.cut r o _ x ?_ (fun hx => ?_); rotate_left; clear_value x; rotate_right; dsimp -zeta only [x])
    | (extract_lets +onlyGivenNames x; clear_value x) | split

theorem keeps_verifyJob (loc : Loc) (h : Keeps r o s) (c_nfe : r .nfe) (c_sch : r .sch) (c_idx : r .idx) (c_val : r .val) (c_cip : r .cip) (c_ldg : r .ldg) (c_ftl : r .ftl) (c_peer : r .peer) (c_flt : r .flt) (c_CIP_AUTH_STAT_AUTH_FAILURES : r (.reg Reg.CIP_AUTH_STAT_AUTH_FAILURES.addr)) (c_CIP_LANE_STAT_NONCE_REFUSALS : r (.reg Reg.CIP_LANE_STAT_NONCE_REFUSALS.addr)) (c_FLT_SWATCH_CTL_ARM : r (.reg Reg.FLT_SWATCH_CTL_ARM.addr)) (c_LDG_GAUGE_STAT_FALLBACKS : r (.reg Reg.LDG_GAUGE_STAT_FALLBACKS.addr)) (c_LDG_UNMETERED_LINES : r (.reg Reg.LDG_UNMETERED_LINES.addr)) (c_PEER_REPAIR_STAT_REPAIRS : r (.reg Reg.PEER_REPAIR_STAT_REPAIRS.addr)) (c_PWR_SHED_CNT_SHED_WRITES : r (.reg Reg.PWR_SHED_CNT_SHED_WRITES.addr)) (c_VAL_E2E_STAT_E2E_MISMATCHES : r (.reg Reg.VAL_E2E_STAT_E2E_MISMATCHES.addr)) (c_VAL_READ_STAT_UNRECOVERABLE : r (.reg Reg.VAL_READ_STAT_UNRECOVERABLE.addr)) :
    Keeps r o (State.verifyJob s loc) := by
  unfold State.verifyJob
  repeat' first
    | with_reducible assumption | with_reducible apply keeps_readSlot | with_reducible apply keeps_grantVal
    | with_reducible apply keeps_upkeepRepair | with_reducible apply keeps_openBytes
    | with_reducible apply keeps_onCip | with_reducible apply keeps_foldl | with_reducible apply keeps2_foldl
    | (with_reducible intro _; beta_reduce) | with_reducible refine Keeps2.of (by assumption) ?_
    | with_reducible apply Keeps2.snd
    | (extract_lets +onlyGivenNames x; have _f : _ → State := x; clear _f; dsimp -zeta only [x]; clear x)
    | (extract_lets +onlyGivenNames x; have _f : State → _ := x; clear _f; dsimp -zeta only [x]; clear x)
    | (extract_lets +onlyGivenNames x; have _f : _ → State → _ := x; clear _f; dsimp -zeta only [x]; clear x)
    | (extract_lets +onlyGivenNames x; refine @Keeps.cut r o _ x ?_ (fun hx => ?_); rotate_left; clear_value x; rotate_right; dsimp -zeta only [x])
    | (extract_lets +onlyGivenNames x; refine @Keeps2.cut r o _ _ x ?_ (fun hx => ?_); rotate_left; clear_value x; rotate_right; dsimp -zeta only [x])
    | (extract_lets +onlyGivenNames x; clear_value x) | split

theorem keeps_spendCounter (j : CipJob) (h : Keeps r o s) (c_sch : r .sch) (c_cip : r .cip) (c_ldg : r .ldg) (c_flt : r .flt) (c_FLT_SWATCH_CTL_ARM : r (.reg Reg.FLT_SWATCH_CTL_ARM.addr)) (c_LDG_UNMETERED_LINES : r (.reg Reg.LDG_UNMETERED_LINES.addr)) :
    Keeps r o (State.spendCounter s j) := by
  unfold State.spendCounter
  repeat' first
    | with_reducible assumption | with_reducible apply keeps_drawCounter | with_reducible apply keeps_takeRef
    | with_reducible apply keeps_foldl | with_reducible apply keeps2_foldl | (with_reducible intro _; beta_reduce)
    | with_reducible refine Keeps2.of (by assumption) ?_ | with_reducible apply Keeps2.snd
    | with_reducible refine KeepsO2.of (by assumption) ?_ | with_reducible refine KeepsO2.pair (by assumption) ?_
    | with_reducible apply keeps_getD | with_reducible apply keepsO_map
    | (extract_lets +onlyGivenNames x; refine @Keeps.cut r o _ x ?_ (fun hx => ?_); rotate_left; clear_value x; rotate_right; dsimp -zeta only [x])
    | (extract_lets +onlyGivenNames x; refine @KeepsO2.cut r o _ _ x ?_ (fun hx => ?_); rotate_left; clear_value x; rotate_right; dsimp -zeta only [x])
    | (extract_lets +onlyGivenNames x; clear_value x) | split

theorem keeps_execCipherJobDone (cmd : Option ℕ) (lane : ℕ) (agree : Bool) (h : Keeps r o s) (c_nfe : r .nfe) (c_sch : r .sch) (c_idx : r .idx) (c_val : r .val) (c_cip : r .cip) (c_ldg : r .ldg) (c_ftl : r .ftl) (c_peer : r .peer) (c_flt : r .flt) (c_CIP_AUTH_STAT_AUTH_FAILURES : r (.reg Reg.CIP_AUTH_STAT_AUTH_FAILURES.addr)) (c_CIP_LANE_STAT_NONCE_REFUSALS : r (.reg Reg.CIP_LANE_STAT_NONCE_REFUSALS.addr)) (c_FLT_SWATCH_CTL_ARM : r (.reg Reg.FLT_SWATCH_CTL_ARM.addr)) (c_LDG_GAUGE_STAT_FALLBACKS : r (.reg Reg.LDG_GAUGE_STAT_FALLBACKS.addr)) (c_LDG_UNMETERED_LINES : r (.reg Reg.LDG_UNMETERED_LINES.addr)) (c_PEER_REPAIR_STAT_REPAIRS : r (.reg Reg.PEER_REPAIR_STAT_REPAIRS.addr)) (c_PWR_SHED_CNT_SHED_WRITES : r (.reg Reg.PWR_SHED_CNT_SHED_WRITES.addr)) (c_VAL_COMP_STAT_RAW_BY_PROBE : r (.reg Reg.VAL_COMP_STAT_RAW_BY_PROBE.addr)) (c_VAL_E2E_STAT_E2E_MISMATCHES : r (.reg Reg.VAL_E2E_STAT_E2E_MISMATCHES.addr)) (c_VAL_READ_STAT_UNRECOVERABLE : r (.reg Reg.VAL_READ_STAT_UNRECOVERABLE.addr)) (c_VAL_SWATCH_ARM : r (.reg Reg.VAL_SWATCH_ARM.addr)) :
    KeepsN r o (execCipherJobDone cmd lane agree s) := by
  unfold execCipherJobDone
  repeat' first
    | with_reducible apply KeepsN.mk | with_reducible apply KeepsN.fault | with_reducible assumption
    | with_reducible apply keeps_spendCounter | with_reducible apply keeps_cmdJob
    | with_reducible apply keeps_guardStep | with_reducible apply keeps_verifyJob
    | with_reducible apply keeps_dropIdleRef | with_reducible apply keeps_fillLanes | with_reducible apply keeps_onCip
    | with_reducible apply keeps_laneMismatch | with_reducible apply keeps_foldl | with_reducible apply keeps2_foldl
    | (with_reducible intro _; beta_reduce) | with_reducible refine Keeps2.of (by assumption) ?_
    | with_reducible apply Keeps2.snd
    | (extract_lets +onlyGivenNames x; refine @Keeps.cut r o _ x ?_ (fun hx => ?_); rotate_left; clear_value x; rotate_right; dsimp -zeta only [x])
    | (extract_lets +onlyGivenNames x; clear_value x) | split

theorem keeps_readCopy (r' : Repair) (g : Seg) (h : Keeps r o s) (c_cip : r .cip) :
    Keeps2 r o (State.readCopy s r' g) := by
  unfold State.readCopy
  repeat' first
    | with_reducible assumption | with_reducible apply keeps_openBytes | with_reducible apply keeps_foldl
    | with_reducible apply keeps2_foldl | (with_reducible intro _; beta_reduce)
    | with_reducible refine Keeps2.of (by assumption) ?_ | with_reducible apply Keeps2.snd
    | (extract_lets +onlyGivenNames x; refine @Keeps.cut r o _ x ?_ (fun hx => ?_); rotate_left; clear_value x; rotate_right; dsimp -zeta only [x])
    | (extract_lets +onlyGivenNames x; refine @Keeps2.cut r o _ _ x ?_ (fun hx => ?_); rotate_left; clear_value x; rotate_right; dsimp -zeta only [x])
    | (extract_lets +onlyGivenNames x; clear_value x) | split | with_reducible apply Keeps2.mk

theorem keeps_repairErased (rid : ℕ) (h : Keeps r o s) (c_nfe : r .nfe) (c_sch : r .sch) (c_val : r .val) (c_cip : r .cip) (c_ldg : r .ldg) (c_ftl : r .ftl) (c_peer : r .peer) (c_flt : r .flt) (c_CIP_LANE_STAT_NONCE_REFUSALS : r (.reg Reg.CIP_LANE_STAT_NONCE_REFUSALS.addr)) (c_FLT_SWATCH_CTL_ARM : r (.reg Reg.FLT_SWATCH_CTL_ARM.addr)) (c_LDG_GAUGE_STAT_FALLBACKS : r (.reg Reg.LDG_GAUGE_STAT_FALLBACKS.addr)) (c_LDG_UNMETERED_LINES : r (.reg Reg.LDG_UNMETERED_LINES.addr)) (c_PWR_SHED_CNT_SHED_WRITES : r (.reg Reg.PWR_SHED_CNT_SHED_WRITES.addr)) (c_VAL_E2E_STAT_E2E_MISMATCHES : r (.reg Reg.VAL_E2E_STAT_E2E_MISMATCHES.addr)) :
    Keeps r o (State.repairErased s rid) := by
  unfold State.repairErased
  repeat' first
    | with_reducible assumption | with_reducible apply keeps_segFails | with_reducible apply keeps_dropRepair
    | with_reducible apply keeps_foldl | with_reducible apply keeps2_foldl | (with_reducible intro _; beta_reduce)
    | with_reducible refine Keeps2.of (by assumption) ?_ | with_reducible apply Keeps2.snd
    | (extract_lets +onlyGivenNames x; refine @Keeps.cut r o _ x ?_ (fun hx => ?_); rotate_left; clear_value x; rotate_right; dsimp -zeta only [x])
    | (extract_lets +onlyGivenNames x; clear_value x) | split

theorem keeps_skipRewrite (rid : ℕ) (h : Keeps r o s) (c_sch : r .sch) (c_val : r .val) (c_flt : r .flt) (c_VAL_READ_STAT_UNRECOVERABLE : r (.reg Reg.VAL_READ_STAT_UNRECOVERABLE.addr)) :
    Keeps r o (State.skipRewrite s rid) := by
  unfold State.skipRewrite
  repeat' first
    | with_reducible assumption | exact c_VAL_READ_STAT_UNRECOVERABLE | with_reducible apply keeps_bump
    | with_reducible apply keeps_raise | with_reducible apply keeps_dropRepair | with_reducible apply keeps_foldl
    | with_reducible apply keeps2_foldl | (with_reducible intro _; beta_reduce)
    | with_reducible refine Keeps2.of (by assumption) ?_ | with_reducible apply Keeps2.snd
    | (extract_lets +onlyGivenNames x; refine @Keeps.cut r o _ x ?_ (fun hx => ?_); rotate_left; clear_value x; rotate_right; dsimp -zeta only [x])
    | (extract_lets +onlyGivenNames x; clear_value x) | split

theorem keeps_readersGo (r' : Repair) (logical : Bytes) (h : Keeps r o s) (c_nfe : r .nfe) (c_sch : r .sch) (c_val : r .val) (c_cip : r .cip) (c_ldg : r .ldg) (c_ftl : r .ftl) (c_peer : r .peer) (c_flt : r .flt) (c_CIP_LANE_STAT_NONCE_REFUSALS : r (.reg Reg.CIP_LANE_STAT_NONCE_REFUSALS.addr)) (c_FLT_SWATCH_CTL_ARM : r (.reg Reg.FLT_SWATCH_CTL_ARM.addr)) (c_LDG_GAUGE_STAT_FALLBACKS : r (.reg Reg.LDG_GAUGE_STAT_FALLBACKS.addr)) (c_LDG_UNMETERED_LINES : r (.reg Reg.LDG_UNMETERED_LINES.addr)) (c_PWR_SHED_CNT_SHED_WRITES : r (.reg Reg.PWR_SHED_CNT_SHED_WRITES.addr)) (c_VAL_COMP_STAT_RAW_BY_PROBE : r (.reg Reg.VAL_COMP_STAT_RAW_BY_PROBE.addr)) (c_VAL_E2E_STAT_E2E_MISMATCHES : r (.reg Reg.VAL_E2E_STAT_E2E_MISMATCHES.addr)) (c_VAL_SWATCH_ARM : r (.reg Reg.VAL_SWATCH_ARM.addr)) :
    Keeps r o (State.readersGo s r' logical) := by
  unfold State.readersGo
  repeat' first
    | with_reducible assumption | with_reducible apply keeps_segGood | with_reducible apply keeps_foldl
    | with_reducible apply keeps2_foldl | (with_reducible intro _; beta_reduce)

theorem keeps_queueRewrite (rid : ℕ) (g : Option Seg) (h : Keeps r o s) (c_sch : r .sch) (c_val : r .val) (c_ldg : r .ldg) (c_ftl : r .ftl) (c_flt : r .flt) (c_LDG_GAUGE_STAT_FALLBACKS : r (.reg Reg.LDG_GAUGE_STAT_FALLBACKS.addr)) (c_VAL_READ_STAT_UNRECOVERABLE : r (.reg Reg.VAL_READ_STAT_UNRECOVERABLE.addr)) (c_VAL_SWATCH_ARM : r (.reg Reg.VAL_SWATCH_ARM.addr)) :
    Keeps r o (State.queueRewrite s rid g) := by
  unfold State.queueRewrite
  repeat' first
    | with_reducible assumption | with_reducible apply keeps_onVal | with_reducible apply keeps_allocHost
    | with_reducible apply keeps_skipRewrite | with_reducible apply keeps_writeSegAt
    | with_reducible apply keeps_onSch | with_reducible apply keeps_foldl | with_reducible apply keeps2_foldl
    | (with_reducible intro _; beta_reduce) | with_reducible refine Keeps2.of (by assumption) ?_
    | with_reducible apply Keeps2.snd | with_reducible refine KeepsO2.of (by assumption) ?_
    | with_reducible refine KeepsO2.pair (by assumption) ?_ | with_reducible apply keeps_getD
    | with_reducible apply keepsO_map
    | (extract_lets +onlyGivenNames x; refine @Keeps.cut r o _ x ?_ (fun hx => ?_); rotate_left; clear_value x; rotate_right; dsimp -zeta only [x])
    | (extract_lets +onlyGivenNames x; refine @Keeps2.cut r o _ _ x ?_ (fun hx => ?_); rotate_left; clear_value x; rotate_right; dsimp -zeta only [x])
    | (extract_lets +onlyGivenNames x; refine @KeepsO2.cut r o _ _ x ?_ (fun hx => ?_); rotate_left; clear_value x; rotate_right; dsimp -zeta only [x])
    | (extract_lets +onlyGivenNames x; clear_value x) | split

theorem keeps_repairGood (rid : ℕ) (check : Bool) (source : ℕ) (logical : Bytes) (g : Option Seg) (h : Keeps r o s) (c_nfe : r .nfe) (c_sch : r .sch) (c_val : r .val) (c_cip : r .cip) (c_ldg : r .ldg) (c_ftl : r .ftl) (c_peer : r .peer) (c_flt : r .flt) (c_CIP_AUTH_STAT_AUTH_FAILURES : r (.reg Reg.CIP_AUTH_STAT_AUTH_FAILURES.addr)) (c_CIP_LANE_STAT_NONCE_REFUSALS : r (.reg Reg.CIP_LANE_STAT_NONCE_REFUSALS.addr)) (c_FLT_SWATCH_CTL_ARM : r (.reg Reg.FLT_SWATCH_CTL_ARM.addr)) (c_LDG_GAUGE_STAT_FALLBACKS : r (.reg Reg.LDG_GAUGE_STAT_FALLBACKS.addr)) (c_LDG_UNMETERED_LINES : r (.reg Reg.LDG_UNMETERED_LINES.addr)) (c_PWR_SHED_CNT_SHED_WRITES : r (.reg Reg.PWR_SHED_CNT_SHED_WRITES.addr)) (c_VAL_COMP_STAT_RAW_BY_PROBE : r (.reg Reg.VAL_COMP_STAT_RAW_BY_PROBE.addr)) (c_VAL_E2E_STAT_E2E_MISMATCHES : r (.reg Reg.VAL_E2E_STAT_E2E_MISMATCHES.addr)) (c_VAL_READ_STAT_UNRECOVERABLE : r (.reg Reg.VAL_READ_STAT_UNRECOVERABLE.addr)) (c_VAL_REPAIR_STAT_CHECK_REPAIRS : r (.reg Reg.VAL_REPAIR_STAT_CHECK_REPAIRS.addr)) (c_VAL_SWATCH_ARM : r (.reg Reg.VAL_SWATCH_ARM.addr)) :
    Keeps r o (State.repairGood s rid check source logical g) := by
  unfold State.repairGood
  repeat' first
    | with_reducible assumption | exact c_CIP_AUTH_STAT_AUTH_FAILURES | exact c_CIP_LANE_STAT_NONCE_REFUSALS
    | exact c_FLT_SWATCH_CTL_ARM | exact c_LDG_GAUGE_STAT_FALLBACKS | exact c_LDG_UNMETERED_LINES
    | exact c_PWR_SHED_CNT_SHED_WRITES | exact c_VAL_COMP_STAT_RAW_BY_PROBE | exact c_VAL_E2E_STAT_E2E_MISMATCHES
    | exact c_VAL_READ_STAT_UNRECOVERABLE | exact c_VAL_REPAIR_STAT_CHECK_REPAIRS | exact c_VAL_SWATCH_ARM
    | with_reducible apply keeps_bump | with_reducible apply keeps_queueRewrite | with_reducible apply keeps_raise
    | with_reducible apply keeps_readersGo | with_reducible apply keeps_foldl | with_reducible apply keeps2_foldl
    | (with_reducible intro _; beta_reduce) | with_reducible refine Keeps2.of (by assumption) ?_
    | with_reducible apply Keeps2.snd
    | (extract_lets +onlyGivenNames x; refine @Keeps.cut r o _ x ?_ (fun hx => ?_); rotate_left; clear_value x; rotate_right; dsimp -zeta only [x])
    | (extract_lets +onlyGivenNames x; clear_value x) | split

theorem keeps_execReadRepair (repair : ℕ) (copy : RepairCopy) (h : Keeps r o s) (c_nfe : r .nfe) (c_sch : r .sch) (c_idx : r .idx) (c_val : r .val) (c_cip : r .cip) (c_ldg : r .ldg) (c_ftl : r .ftl) (c_peer : r .peer) (c_flt : r .flt) (c_CIP_AUTH_STAT_AUTH_FAILURES : r (.reg Reg.CIP_AUTH_STAT_AUTH_FAILURES.addr)) (c_CIP_LANE_STAT_NONCE_REFUSALS : r (.reg Reg.CIP_LANE_STAT_NONCE_REFUSALS.addr)) (c_FLT_SWATCH_CTL_ARM : r (.reg Reg.FLT_SWATCH_CTL_ARM.addr)) (c_LDG_GAUGE_STAT_FALLBACKS : r (.reg Reg.LDG_GAUGE_STAT_FALLBACKS.addr)) (c_LDG_UNMETERED_LINES : r (.reg Reg.LDG_UNMETERED_LINES.addr)) (c_PEER_REPAIR_STAT_REPAIRS : r (.reg Reg.PEER_REPAIR_STAT_REPAIRS.addr)) (c_PWR_SHED_CNT_SHED_WRITES : r (.reg Reg.PWR_SHED_CNT_SHED_WRITES.addr)) (c_VAL_COMP_STAT_RAW_BY_PROBE : r (.reg Reg.VAL_COMP_STAT_RAW_BY_PROBE.addr)) (c_VAL_E2E_STAT_E2E_MISMATCHES : r (.reg Reg.VAL_E2E_STAT_E2E_MISMATCHES.addr)) (c_VAL_READ_STAT_UNRECOVERABLE : r (.reg Reg.VAL_READ_STAT_UNRECOVERABLE.addr)) (c_VAL_REPAIR_STAT_CHECK_REPAIRS : r (.reg Reg.VAL_REPAIR_STAT_CHECK_REPAIRS.addr)) (c_VAL_SWATCH_ARM : r (.reg Reg.VAL_SWATCH_ARM.addr)) :
    KeepsN r o (execReadRepair repair copy s) := by
  unfold execReadRepair
  repeat' first
    | with_reducible apply KeepsN.mk | with_reducible apply KeepsN.fault | with_reducible assumption
    | with_reducible apply keeps_repairLost | with_reducible apply keeps_repairGood
    | with_reducible apply keeps_repairErased | with_reducible apply keeps_askPeers
    | with_reducible apply keeps_grantVal | with_reducible apply keeps_readCopy | with_reducible apply keeps_foldl
    | with_reducible apply keeps2_foldl | (with_reducible intro _; beta_reduce)
    | with_reducible refine Keeps2.of (by assumption) ?_ | with_reducible apply Keeps2.snd
    | (extract_lets +onlyGivenNames x; have _f : _ → State := x; clear _f; dsimp -zeta only [x]; clear x)
    | (extract_lets +onlyGivenNames x; have _f : State → _ := x; clear _f; dsimp -zeta only [x]; clear x)
    | (extract_lets +onlyGivenNames x; have _f : _ → State → _ := x; clear _f; dsimp -zeta only [x]; clear x)
    | (extract_lets +onlyGivenNames x; refine @Keeps.cut r o _ x ?_ (fun hx => ?_); rotate_left; clear_value x; rotate_right; dsimp -zeta only [x])
    | (extract_lets +onlyGivenNames x; refine @Keeps2.cut r o _ _ x ?_ (fun hx => ?_); rotate_left; clear_value x; rotate_right; dsimp -zeta only [x])
    | (extract_lets +onlyGivenNames x; clear_value x) | split | with_reducible apply Keeps2.mk

theorem keeps_storeAnew (r' : Repair) (b : Bytes) (h : Keeps r o s) (c_cip : r .cip) (c_ldg : r .ldg) (c_flt : r .flt) (c_CIP_LANE_STAT_NONCE_REFUSALS : r (.reg Reg.CIP_LANE_STAT_NONCE_REFUSALS.addr)) (c_FLT_SWATCH_CTL_ARM : r (.reg Reg.FLT_SWATCH_CTL_ARM.addr)) (c_LDG_UNMETERED_LINES : r (.reg Reg.LDG_UNMETERED_LINES.addr)) (c_VAL_COMP_STAT_RAW_BY_PROBE : r (.reg Reg.VAL_COMP_STAT_RAW_BY_PROBE.addr)) :
    Keeps2 r o (State.storeAnew s r' b) := by
  unfold State.storeAnew
  repeat' first
    | with_reducible assumption | with_reducible apply keeps_nonceExhausted | with_reducible apply keeps_sealBytes
    | with_reducible apply keeps_pack | with_reducible apply keeps_foldl | with_reducible apply keeps2_foldl
    | (with_reducible intro _; beta_reduce) | with_reducible refine Keeps2.of (by assumption) ?_
    | with_reducible apply Keeps2.snd | with_reducible refine Keeps3.of (by assumption) ?_
    | with_reducible apply Keeps3.snd | with_reducible refine KeepsO2.of (by assumption) ?_
    | with_reducible refine KeepsO2.pair (by assumption) ?_ | with_reducible apply keeps_getD
    | with_reducible apply keepsO_map
    | (extract_lets +onlyGivenNames x; refine @Keeps.cut r o _ x ?_ (fun hx => ?_); rotate_left; clear_value x; rotate_right; dsimp -zeta only [x])
    | (extract_lets +onlyGivenNames x; refine @KeepsO2.cut r o _ _ x ?_ (fun hx => ?_); rotate_left; clear_value x; rotate_right; dsimp -zeta only [x])
    | (extract_lets +onlyGivenNames x; clear_value x) | split | with_reducible apply Keeps2.mk

theorem keeps_localBytes (r' : Repair) (h : Keeps r o s) (c_cip : r .cip) :
    Keeps2 r o (State.localBytes s r') := by
  unfold State.localBytes
  repeat' first
    | with_reducible assumption | with_reducible apply keeps_readCopy

theorem keeps_peerCopy (rid : ℕ) (peer : ℕ) (b : Bytes) (h : Keeps r o s) (c_nfe : r .nfe) (c_sch : r .sch) (c_val : r .val) (c_cip : r .cip) (c_ldg : r .ldg) (c_ftl : r .ftl) (c_peer : r .peer) (c_flt : r .flt) (c_CIP_AUTH_STAT_AUTH_FAILURES : r (.reg Reg.CIP_AUTH_STAT_AUTH_FAILURES.addr)) (c_CIP_LANE_STAT_NONCE_REFUSALS : r (.reg Reg.CIP_LANE_STAT_NONCE_REFUSALS.addr)) (c_FLT_SWATCH_CTL_ARM : r (.reg Reg.FLT_SWATCH_CTL_ARM.addr)) (c_LDG_GAUGE_STAT_FALLBACKS : r (.reg Reg.LDG_GAUGE_STAT_FALLBACKS.addr)) (c_LDG_UNMETERED_LINES : r (.reg Reg.LDG_UNMETERED_LINES.addr)) (c_PEER_REPAIR_STAT_REPAIRS : r (.reg Reg.PEER_REPAIR_STAT_REPAIRS.addr)) (c_PWR_SHED_CNT_SHED_WRITES : r (.reg Reg.PWR_SHED_CNT_SHED_WRITES.addr)) (c_VAL_COMP_STAT_RAW_BY_PROBE : r (.reg Reg.VAL_COMP_STAT_RAW_BY_PROBE.addr)) (c_VAL_E2E_STAT_E2E_MISMATCHES : r (.reg Reg.VAL_E2E_STAT_E2E_MISMATCHES.addr)) (c_VAL_READ_STAT_UNRECOVERABLE : r (.reg Reg.VAL_READ_STAT_UNRECOVERABLE.addr)) (c_VAL_REPAIR_STAT_CHECK_REPAIRS : r (.reg Reg.VAL_REPAIR_STAT_CHECK_REPAIRS.addr)) (c_VAL_SWATCH_ARM : r (.reg Reg.VAL_SWATCH_ARM.addr)) :
    Keeps r o (State.peerCopy s rid peer b) := by
  unfold State.peerCopy
  repeat' first
    | with_reducible assumption | exact c_CIP_AUTH_STAT_AUTH_FAILURES | exact c_CIP_LANE_STAT_NONCE_REFUSALS
    | exact c_FLT_SWATCH_CTL_ARM | exact c_LDG_GAUGE_STAT_FALLBACKS | exact c_LDG_UNMETERED_LINES
    | exact c_PEER_REPAIR_STAT_REPAIRS | exact c_PWR_SHED_CNT_SHED_WRITES | exact c_VAL_COMP_STAT_RAW_BY_PROBE
    | exact c_VAL_E2E_STAT_E2E_MISMATCHES | exact c_VAL_READ_STAT_UNRECOVERABLE
    | exact c_VAL_REPAIR_STAT_CHECK_REPAIRS | exact c_VAL_SWATCH_ARM | with_reducible apply keeps_storeAnew
    | with_reducible apply keeps_bump | with_reducible apply keeps_repairGood | with_reducible apply keeps_localBytes
    | with_reducible apply keeps_raise | with_reducible apply keeps_grantVal | with_reducible apply keeps_foldl
    | with_reducible apply keeps2_foldl | (with_reducible intro _; beta_reduce)
    | with_reducible refine Keeps2.of (by assumption) ?_ | with_reducible apply Keeps2.snd
    | (extract_lets +onlyGivenNames x; refine @Keeps.cut r o _ x ?_ (fun hx => ?_); rotate_left; clear_value x; rotate_right; dsimp -zeta only [x])
    | (extract_lets +onlyGivenNames x; refine @Keeps2.cut r o _ _ x ?_ (fun hx => ?_); rotate_left; clear_value x; rotate_right; dsimp -zeta only [x])
    | (extract_lets +onlyGivenNames x; clear_value x) | split | with_reducible apply Keeps2.mk

theorem keeps_moveSeg (d : DirRec) (variant : ℕ) (v : Variant) (i : ℕ) (old : Seg) (g : Seg) (h : Keeps r o s) (c_idx : r .idx) (c_ldg : r .ldg) (c_ftl : r .ftl) (c_rings : r .rings) (c_dram : r .dram) (c_flt : r .flt) (c_FLT_SWATCH_CTL_ARM : r (.reg Reg.FLT_SWATCH_CTL_ARM.addr)) (c_LDG_GAUGE_STAT_FALLBACKS : r (.reg Reg.LDG_GAUGE_STAT_FALLBACKS.addr)) :
    Keeps r o (State.moveSeg s d variant v i old g) := by
  unfold State.moveSeg
  repeat' first
    | with_reducible assumption | with_reducible apply keeps_drawMeta | with_reducible apply keeps_writeRecord
    | with_reducible apply keeps_releaseMaps | with_reducible apply keeps_releaseSeg
    | with_reducible apply keeps_commitLine | with_reducible apply keeps_stageMaps | with_reducible apply keeps_foldl
    | with_reducible apply keeps2_foldl | (with_reducible intro _; beta_reduce)
    | with_reducible refine Keeps2.of (by assumption) ?_ | with_reducible apply Keeps2.snd

theorem keeps_execRepairRewrite (repair : ℕ) (h : Keeps r o s) (c_sch : r .sch) (c_idx : r .idx) (c_val : r .val) (c_ldg : r .ldg) (c_ftl : r .ftl) (c_rings : r .rings) (c_dram : r .dram) (c_flt : r .flt) (c_FLT_SWATCH_CTL_ARM : r (.reg Reg.FLT_SWATCH_CTL_ARM.addr)) (c_LDG_GAUGE_STAT_FALLBACKS : r (.reg Reg.LDG_GAUGE_STAT_FALLBACKS.addr)) (c_VAL_READ_STAT_UNRECOVERABLE : r (.reg Reg.VAL_READ_STAT_UNRECOVERABLE.addr)) :
    KeepsN r o (execRepairRewrite repair s) := by
  unfold execRepairRewrite
  repeat' first
    | with_reducible apply KeepsN.mk | with_reducible apply KeepsN.fault | with_reducible assumption
    | with_reducible apply keeps_releaseSeg | with_reducible apply keeps_moveSeg
    | with_reducible apply keeps_skipRewrite | with_reducible apply keeps_dropRepair
    | with_reducible apply keeps_foldl | with_reducible apply keeps2_foldl | (with_reducible intro _; beta_reduce)
    | with_reducible refine Keeps2.of (by assumption) ?_ | with_reducible apply Keeps2.snd
    | (extract_lets +onlyGivenNames x; refine @Keeps.cut r o _ x ?_ (fun hx => ?_); rotate_left; clear_value x; rotate_right; dsimp -zeta only [x])
    | (extract_lets +onlyGivenNames x; clear_value x) | split

end Sys2Proof.Machine
end

