-- ==== Sys2Proof/Laws/KeepRings.lean ====
section
/-! SUPPORT. What each operation of Machine/Rings.lean may change. -/

set_option linter.unusedTactic false
set_option linter.unreachableTactic false

namespace Sys2Proof.Machine

variable {r : Part → Prop} {o s : State}

theorem keeps_putEntries (n : ℕ) (count : ℕ) (y3 : List Bytes) (h : Keeps r o s) (c_rings : r .rings) (c_dram : r .dram) (c_flt : r .flt) (c_FLT_SWATCH_CTL_ARM : r (.reg Reg.FLT_SWATCH_CTL_ARM.addr)) :
    Keeps r o (State.putEntries s n count y3) := by
  induction y3 generalizing s n count with
  | nil =>
    unfold State.putEntries
    repeat' first
      | with_reducible assumption | with_reducible apply ih | with_reducible apply keeps_dramPut
      | with_reducible apply keeps_foldl | with_reducible apply keeps2_foldl | (with_reducible intro _; beta_reduce)
      | with_reducible refine Keeps2.of (by assumption) ?_ | with_reducible apply Keeps2.snd
      | (extract_lets +onlyGivenNames x; refine @Keeps.cut r o _ x ?_ (fun hx => ?_); rotate_left; clear_value x; rotate_right; dsimp -zeta only [x])
      | (extract_lets +onlyGivenNames x; clear_value x) | split | with_reducible apply Keeps2.mk
  | cons _ _ ih =>
    unfold State.putEntries
    repeat' first
      | with_reducible assumption | with_reducible apply ih | with_reducible apply keeps_dramPut
      | with_reducible apply keeps_foldl | with_reducible apply keeps2_foldl | (with_reducible intro _; beta_reduce)
      | with_reducible refine Keeps2.of (by assumption) ?_ | with_reducible apply Keeps2.snd
      | (extract_lets +onlyGivenNames x; refine @Keeps.cut r o _ x ?_ (fun hx => ?_); rotate_left; clear_value x; rotate_right; dsimp -zeta only [x])
      | (extract_lets +onlyGivenNames x; clear_value x) | split | with_reducible apply Keeps2.mk

theorem keeps_fetchEntries (n : ℕ) (count : ℕ) (y3 : ℕ) (h : Keeps r o s) (c_rings : r .rings) (c_flt : r .flt) :
    Keeps r o (State.fetchEntries s n count y3) := by
  induction y3 generalizing s n count with
  | zero =>
    unfold State.fetchEntries
    repeat' first
      | with_reducible assumption | with_reducible apply ih | with_reducible apply keeps_dramGet
      | with_reducible apply keeps_onRing | with_reducible apply keeps_foldl | with_reducible apply keeps2_foldl
      | (with_reducible intro _; beta_reduce) | with_reducible refine Keeps2.of (by assumption) ?_
      | with_reducible apply Keeps2.snd
      | (extract_lets +onlyGivenNames x; refine @Keeps.cut r o _ x ?_ (fun hx => ?_); rotate_left; clear_value x; rotate_right; dsimp -zeta only [x])
      | (extract_lets +onlyGivenNames x; refine @Keeps2.cut r o _ _ x ?_ (fun hx => ?_); rotate_left; clear_value x; rotate_right; dsimp -zeta only [x])
      | (extract_lets +onlyGivenNames x; clear_value x) | split | with_reducible apply Keeps2.mk
  | succ _ ih =>
    unfold State.fetchEntries
    repeat' first
      | with_reducible assumption | with_reducible apply ih | with_reducible apply keeps_dramGet
      | with_reducible apply keeps_onRing | with_reducible apply keeps_foldl | with_reducible apply keeps2_foldl
      | (with_reducible intro _; beta_reduce) | with_reducible refine Keeps2.of (by assumption) ?_
      | with_reducible apply Keeps2.snd
      | (extract_lets +onlyGivenNames x; refine @Keeps.cut r o _ x ?_ (fun hx => ?_); rotate_left; clear_value x; rotate_right; dsimp -zeta only [x])
      | (extract_lets +onlyGivenNames x; refine @Keeps2.cut r o _ _ x ?_ (fun hx => ?_); rotate_left; clear_value x; rotate_right; dsimp -zeta only [x])
      | (extract_lets +onlyGivenNames x; clear_value x) | split | with_reducible apply Keeps2.mk

theorem keeps_ringError (n : ℕ) (tail : ℕ) (h : Keeps r o s) (c_rings : r .rings) (c_flt : r .flt) :
    Keeps r o (State.ringError s n tail) := by
  unfold State.ringError
  repeat' first
    | with_reducible assumption | with_reducible apply keeps_onRing | with_reducible apply keeps_raise
    | with_reducible apply keeps_dramClear | with_reducible apply keeps_dramWrite | (with_reducible apply keeps_onEng)
    | with_reducible apply keeps_foldl | with_reducible apply keeps2_foldl | (with_reducible intro _; beta_reduce)
    | with_reducible refine Keeps2.of (by assumption) ?_ | with_reducible apply Keeps2.snd
    | (extract_lets +onlyGivenNames x; refine @Keeps.cut r o _ x ?_ (fun hx => ?_); rotate_left; clear_value x; rotate_right; dsimp -zeta only [x])
    | (extract_lets +onlyGivenNames x; clear_value x) | split | with_reducible apply Keeps2.mk | rfl

theorem keeps_ringFill (n : ℕ) (tail : ℕ) (entries : List Bytes) (h : Keeps r o s) (c_rings : r .rings) (c_dram : r .dram) (c_flt : r .flt) (c_FLT_SWATCH_CTL_ARM : r (.reg Reg.FLT_SWATCH_CTL_ARM.addr)) :
    Keeps r o (State.ringFill s n tail entries) := by
  unfold State.ringFill
  repeat' first
    | with_reducible assumption | with_reducible apply keeps_pump | with_reducible apply keeps_putEntries
    | with_reducible apply keeps_onRing | with_reducible apply keeps_fetchEntries

theorem keeps_engDoorbell (ring : ℕ) (tail : ℕ) (entries : List Bytes) (h : Keeps r o s) (c_rings : r .rings) (c_dram : r .dram) (c_flt : r .flt) (c_FLT_SWATCH_CTL_ARM : r (.reg Reg.FLT_SWATCH_CTL_ARM.addr)) :
    KeepsN r o (engDoorbell ring tail entries s) := by
  unfold engDoorbell
  repeat' first
    | with_reducible apply KeepsN.mk | with_reducible apply KeepsN.fault | with_reducible assumption
    | with_reducible apply keeps_ringError | with_reducible apply keeps_ringFill | with_reducible apply keeps_onRing
    | with_reducible apply keeps_foldl | with_reducible apply keeps2_foldl | (with_reducible intro _; beta_reduce)
    | with_reducible refine Keeps2.of (by assumption) ?_ | with_reducible apply Keeps2.snd
    | (extract_lets +onlyGivenNames x; refine @Keeps.cut r o _ x ?_ (fun hx => ?_); rotate_left; clear_value x; rotate_right; dsimp -zeta only [x])
    | (extract_lets +onlyGivenNames x; clear_value x) | split

theorem keeps_execEngDoorbell (ring : ℕ) (tail : ℕ) (entries : List Bytes) (h : Keeps r o s) (c_rings : r .rings) (c_dram : r .dram) (c_flt : r .flt) (c_FLT_SWATCH_CTL_ARM : r (.reg Reg.FLT_SWATCH_CTL_ARM.addr)) :
    KeepsN r o (execEngDoorbell ring tail entries s) := by
  unfold execEngDoorbell
  repeat' first
    | with_reducible apply KeepsN.mk | with_reducible apply KeepsN.fault | with_reducible assumption
    | with_reducible apply keeps_engDoorbell

theorem keeps_cqHeadWrite (ring : ℕ) (headCount : ℕ) (h : Keeps r o s) (c_rings : r .rings) (c_dram : r .dram) (c_flt : r .flt) (c_FLT_SWATCH_CTL_ARM : r (.reg Reg.FLT_SWATCH_CTL_ARM.addr)) :
    Keeps r o (State.cqHeadWrite s ring headCount) := by
  unfold State.cqHeadWrite
  repeat' first
    | with_reducible assumption | with_reducible apply keeps_pump | with_reducible apply keeps_onRing
    | with_reducible apply keeps_drainCqes | with_reducible apply keeps_foldl | with_reducible apply keeps2_foldl
    | (with_reducible intro _; beta_reduce) | with_reducible refine Keeps2.of (by assumption) ?_
    | with_reducible apply Keeps2.snd
    | (extract_lets +onlyGivenNames x; refine @Keeps.cut r o _ x ?_ (fun hx => ?_); rotate_left; clear_value x; rotate_right; dsimp -zeta only [x])
    | (extract_lets +onlyGivenNames x; clear_value x) | split

theorem keeps_execEngCqHeadWrite (ring : ℕ) (headCount : ℕ) (h : Keeps r o s) (c_rings : r .rings) (c_dram : r .dram) (c_flt : r .flt) (c_FLT_SWATCH_CTL_ARM : r (.reg Reg.FLT_SWATCH_CTL_ARM.addr)) :
    KeepsN r o (execEngCqHeadWrite ring headCount s) := by
  unfold execEngCqHeadWrite
  repeat' first
    | with_reducible apply KeepsN.mk | with_reducible apply KeepsN.fault | with_reducible assumption
    | with_reducible apply keeps_cqHeadWrite

theorem keeps_ringEnable (ring : ℕ) (h : Keeps r o s) (c_rings : r .rings) (c_ENG_RING_CFG_EN : ∀ n, r (.reg (Reg.ENG_RING_CFG_EN n).addr)) :
    Keeps r o (State.ringEnable s ring) := by
  unfold State.ringEnable
  repeat' first
    | with_reducible assumption | exact c_ENG_RING_CFG_EN _ | with_reducible apply keeps_guardStep
    | with_reducible apply keeps_setFld | with_reducible apply keeps_onRing | with_reducible apply keeps_foldl
    | with_reducible apply keeps2_foldl | (with_reducible intro _; beta_reduce)

theorem keeps_execEngRingEnable (ring : ℕ) (h : Keeps r o s) (c_rings : r .rings) (c_ENG_RING_CFG_EN : ∀ n, r (.reg (Reg.ENG_RING_CFG_EN n).addr)) :
    KeepsN r o (execEngRingEnable ring s) := by
  unfold execEngRingEnable
  repeat' first
    | with_reducible apply KeepsN.mk | with_reducible apply KeepsN.fault | with_reducible assumption
    | with_reducible apply keeps_ringEnable

theorem keeps_attachImage (h : Keeps r o s) (c_rings : r .rings) (c_dram : r .dram) (c_flt : r .flt) (c_pins : r .pins) (c_ENG_HOLD_HOLD : r (.reg Reg.ENG_HOLD_HOLD.addr)) (c_FLT_SWATCH_CTL_ARM : r (.reg Reg.FLT_SWATCH_CTL_ARM.addr)) :
    Keeps r o (State.attachImage s) := by
  unfold State.attachImage
  repeat' first
    | with_reducible assumption | exact c_ENG_HOLD_HOLD | exact c_FLT_SWATCH_CTL_ARM | with_reducible apply keeps_pump
    | with_reducible apply keeps_setFld | with_reducible apply keeps_onPins

theorem keeps_execHeartbeat (h : Keeps r o s) (c_pins : r .pins) :
    KeepsN r o (execHeartbeat s) := by
  unfold execHeartbeat
  repeat' first
    | with_reducible apply KeepsN.mk | with_reducible apply KeepsN.fault | with_reducible assumption
    | with_reducible apply keeps_guardStep | with_reducible apply keeps_onPins | with_reducible apply keeps_foldl
    | with_reducible apply keeps2_foldl | (with_reducible intro _; beta_reduce)

theorem keeps_stopImage (h : Keeps r o s) (c_pins : r .pins) (c_ENG_HOLD_HOLD : r (.reg Reg.ENG_HOLD_HOLD.addr)) :
    Keeps r o (State.stopImage s) := by
  unfold State.stopImage
  repeat' first
    | with_reducible assumption | exact c_ENG_HOLD_HOLD | with_reducible apply keeps_setFld
    | with_reducible apply keeps_onPins

theorem keeps_execHeartbeatMissed (h : Keeps r o s) (c_flt : r .flt) (c_pins : r .pins) (c_ENG_HOLD_HOLD : r (.reg Reg.ENG_HOLD_HOLD.addr)) :
    KeepsN r o (execHeartbeatMissed s) := by
  unfold execHeartbeatMissed
  repeat' first
    | with_reducible apply KeepsN.mk | with_reducible apply KeepsN.fault | with_reducible assumption
    | with_reducible apply keeps_stopImage | with_reducible apply keeps_guardStep | with_reducible apply keeps_raise
    | with_reducible apply keeps_onPins | with_reducible apply keeps_foldl | with_reducible apply keeps2_foldl
    | (with_reducible intro _; beta_reduce) | with_reducible refine Keeps2.of (by assumption) ?_
    | with_reducible apply Keeps2.snd
    | (extract_lets +onlyGivenNames x; refine @Keeps.cut r o _ x ?_ (fun hx => ?_); rotate_left; clear_value x; rotate_right; dsimp -zeta only [x])
    | (extract_lets +onlyGivenNames x; clear_value x) | split

end Sys2Proof.Machine
end

