-- ==== Sys2Proof/Laws/KeepResets.lean ====
section
/-! SUPPORT. What each operation of Machine/Resets.lean may change. -/

set_option linter.unusedTactic false
set_option linter.unreachableTactic false

namespace Sys2Proof.Machine

variable {r : Part → Prop} {o s : State}

theorem keeps_abortRing (n : ℕ) (h : Keeps r o s) (c_rings : r .rings) (c_dram : r .dram) (c_flt : r .flt) (c_FLT_SWATCH_CTL_ARM : r (.reg Reg.FLT_SWATCH_CTL_ARM.addr)) :
    Keeps r o (State.abortRing s n) := by
  unfold State.abortRing
  repeat' first
    | with_reducible assumption | with_reducible apply keeps_ringDone | with_reducible apply keeps_foldl
    | with_reducible apply keeps2_foldl | (with_reducible intro _; beta_reduce)

theorem keeps_dropWaits (b : EngBlock) (h : Keeps r o s) (c_idx : r .idx) (c_mch : r .mch) (c_cip : r .cip) (c_ftl : r .ftl) :
    Keeps r o (State.dropWaits s b) := by
  unfold State.dropWaits
  repeat' first
    | with_reducible assumption | with_reducible apply keeps_onIdx | with_reducible apply keeps_onFtl
    | with_reducible apply keeps_onMch | with_reducible apply keeps_onCip | with_reducible apply keeps_foldl
    | with_reducible apply keeps2_foldl | (with_reducible intro _; beta_reduce)
    | with_reducible refine Keeps2.of (by assumption) ?_ | with_reducible apply Keeps2.snd
    | (extract_lets +onlyGivenNames x; have _f : _ → State := x; clear _f; dsimp -zeta only [x]; clear x)
    | (extract_lets +onlyGivenNames x; have _f : State → _ := x; clear _f; dsimp -zeta only [x]; clear x)
    | (extract_lets +onlyGivenNames x; have _f : _ → State → _ := x; clear _f; dsimp -zeta only [x]; clear x)
    | (extract_lets +onlyGivenNames x; refine @Keeps.cut r o _ x ?_ (fun hx => ?_); rotate_left; clear_value x; rotate_right; dsimp -zeta only [x])
    | (extract_lets +onlyGivenNames x; clear_value x) | split

theorem keeps_resetBlock (b : EngBlock) (h : Keeps r o s) (c_sch : r .sch) (c_idx : r .idx) (c_mch : r .mch) (c_cip : r .cip) (c_ftl : r .ftl) (c_rings : r .rings) (c_dram : r .dram) (c_flt : r .flt) (c_FLT_SWATCH_CTL_ARM : r (.reg Reg.FLT_SWATCH_CTL_ARM.addr)) :
    Keeps r o (State.resetBlock s b) := by
  unfold State.resetBlock
  repeat' first
    | with_reducible assumption | with_reducible apply keeps_pump | with_reducible apply keeps_abortRing
    | with_reducible apply keeps_dropWaits | with_reducible apply keeps_onSch | with_reducible apply keeps_foldl
    | with_reducible apply keeps2_foldl | (with_reducible intro _; beta_reduce)
    | with_reducible refine Keeps2.of (by assumption) ?_ | with_reducible apply Keeps2.snd
    | (extract_lets +onlyGivenNames x; refine @Keeps.cut r o _ x ?_ (fun hx => ?_); rotate_left; clear_value x; rotate_right; dsimp -zeta only [x])
    | (extract_lets +onlyGivenNames x; clear_value x) | split

theorem keeps_restoreCredits (b : EngBlock) (h : Keeps r o s) (c_sch : r .sch) :
    Keeps r o (State.restoreCredits s b) := by
  unfold State.restoreCredits
  repeat' first
    | with_reducible assumption | with_reducible apply keeps_onSch | with_reducible apply keeps_serveStaged

theorem keeps_replayValue (n : ℕ) (h : Keeps r o s) (c_nfe : r .nfe) (c_sch : r .sch) :
    Keeps r o (State.replayValue s n) := by
  unfold State.replayValue
  repeat' first
    | with_reducible assumption | with_reducible apply keeps_onCmd | with_reducible apply keeps_sendAs
    | with_reducible apply keeps_foldl | with_reducible apply keeps2_foldl | (with_reducible intro _; beta_reduce)
    | with_reducible refine Keeps2.of (by assumption) ?_ | with_reducible apply Keeps2.snd
    | (extract_lets +onlyGivenNames x; refine @Keeps.cut r o _ x ?_ (fun hx => ?_); rotate_left; clear_value x; rotate_right; dsimp -zeta only [x])
    | (extract_lets +onlyGivenNames x; clear_value x) | split

theorem keeps_replayWrites (n : ℕ) (gs : Tbl Seg) (h : Keeps r o s) (c_nfe : r .nfe) (c_sch : r .sch) (c_val : r .val) (c_cip : r .cip) (c_ldg : r .ldg) (c_ftl : r .ftl) (c_peer : r .peer) (c_flt : r .flt) (c_CIP_LANE_STAT_NONCE_REFUSALS : r (.reg Reg.CIP_LANE_STAT_NONCE_REFUSALS.addr)) (c_FLT_SWATCH_CTL_ARM : r (.reg Reg.FLT_SWATCH_CTL_ARM.addr)) (c_LDG_GAUGE_STAT_FALLBACKS : r (.reg Reg.LDG_GAUGE_STAT_FALLBACKS.addr)) (c_LDG_UNMETERED_LINES : r (.reg Reg.LDG_UNMETERED_LINES.addr)) (c_PWR_SHED_CNT_SHED_WRITES : r (.reg Reg.PWR_SHED_CNT_SHED_WRITES.addr)) (c_VAL_E2E_STAT_E2E_MISMATCHES : r (.reg Reg.VAL_E2E_STAT_E2E_MISMATCHES.addr)) (c_VAL_SWATCH_ARM : r (.reg Reg.VAL_SWATCH_ARM.addr)) :
    Keeps r o (State.replayWrites s n gs) := by
  unfold State.replayWrites
  repeat' first
    | with_reducible assumption | with_reducible apply keeps_placeLedger | with_reducible apply keeps_releaseSegs
    | with_reducible apply keeps_lowerGauge | with_reducible apply keeps_placeFlash | with_reducible apply keeps_foldl
    | with_reducible apply keeps2_foldl | (with_reducible intro _; beta_reduce)
    | with_reducible refine Keeps2.of (by assumption) ?_ | with_reducible apply Keeps2.snd
    | (extract_lets +onlyGivenNames x; refine @Keeps.cut r o _ x ?_ (fun hx => ?_); rotate_left; clear_value x; rotate_right; dsimp -zeta only [x])
    | (extract_lets +onlyGivenNames x; clear_value x) | split

theorem keeps_replayForward (n : ℕ) (h : Keeps r o s) (c_nfe : r .nfe) (c_sch : r .sch) (c_idx : r .idx) (c_val : r .val) (c_cip : r .cip) (c_ldg : r .ldg) (c_ftl : r .ftl) (c_peer : r .peer) (c_rings : r .rings) (c_dram : r .dram) (c_flt : r .flt) (c_CIP_LANE_STAT_NONCE_REFUSALS : r (.reg Reg.CIP_LANE_STAT_NONCE_REFUSALS.addr)) (c_FLT_SWATCH_CTL_ARM : r (.reg Reg.FLT_SWATCH_CTL_ARM.addr)) (c_LDG_GAUGE_STAT_FALLBACKS : r (.reg Reg.LDG_GAUGE_STAT_FALLBACKS.addr)) (c_LDG_UNMETERED_LINES : r (.reg Reg.LDG_UNMETERED_LINES.addr)) (c_PEER_CHAIN_STAT_DEGRADED : r (.reg Reg.PEER_CHAIN_STAT_DEGRADED.addr)) (c_PWR_SHED_CNT_SHED_WRITES : r (.reg Reg.PWR_SHED_CNT_SHED_WRITES.addr)) (c_VAL_E2E_STAT_E2E_MISMATCHES : r (.reg Reg.VAL_E2E_STAT_E2E_MISMATCHES.addr)) :
    Keeps r o (State.replayForward s n) := by
  unfold State.replayForward
  repeat' first
    | with_reducible assumption | with_reducible apply keeps_successorChain | with_reducible apply keeps_forward
    | with_reducible apply keeps_foldl | with_reducible apply keeps2_foldl | (with_reducible intro _; beta_reduce)
    | with_reducible refine Keeps2.of (by assumption) ?_ | with_reducible apply Keeps2.snd
    | (extract_lets +onlyGivenNames x; refine @Keeps.cut r o _ x ?_ (fun hx => ?_); rotate_left; clear_value x; rotate_right; dsimp -zeta only [x])
    | (extract_lets +onlyGivenNames x; clear_value x) | split

theorem keeps_replayCmd (b : EngBlock) (n : ℕ) (h : Keeps r o s) (c_nfe : r .nfe) (c_sch : r .sch) (c_idx : r .idx) (c_val : r .val) (c_cip : r .cip) (c_ldg : r .ldg) (c_ftl : r .ftl) (c_peer : r .peer) (c_rings : r .rings) (c_dram : r .dram) (c_flt : r .flt) (c_CIP_LANE_STAT_NONCE_REFUSALS : r (.reg Reg.CIP_LANE_STAT_NONCE_REFUSALS.addr)) (c_FLT_SWATCH_CTL_ARM : r (.reg Reg.FLT_SWATCH_CTL_ARM.addr)) (c_LDG_GAUGE_STAT_FALLBACKS : r (.reg Reg.LDG_GAUGE_STAT_FALLBACKS.addr)) (c_LDG_UNMETERED_LINES : r (.reg Reg.LDG_UNMETERED_LINES.addr)) (c_PEER_CHAIN_STAT_DEGRADED : r (.reg Reg.PEER_CHAIN_STAT_DEGRADED.addr)) (c_PWR_SHED_CNT_SHED_WRITES : r (.reg Reg.PWR_SHED_CNT_SHED_WRITES.addr)) (c_VAL_E2E_STAT_E2E_MISMATCHES : r (.reg Reg.VAL_E2E_STAT_E2E_MISMATCHES.addr)) (c_VAL_SWATCH_ARM : r (.reg Reg.VAL_SWATCH_ARM.addr)) :
    Keeps r o (State.replayCmd s b n) := by
  unfold State.replayCmd
  repeat' first
    | with_reducible assumption | with_reducible apply keeps_replayValue | with_reducible apply keeps_replayWrites
    | with_reducible apply keeps_onCmd | with_reducible apply keeps_replayForward | with_reducible apply keeps_foldl
    | with_reducible apply keeps2_foldl | (with_reducible intro _; beta_reduce)
    | with_reducible refine Keeps2.of (by assumption) ?_ | with_reducible apply Keeps2.snd
    | (extract_lets +onlyGivenNames x; refine @Keeps.cut r o _ x ?_ (fun hx => ?_); rotate_left; clear_value x; rotate_right; dsimp -zeta only [x])
    | (extract_lets +onlyGivenNames x; clear_value x) | split

theorem keeps_replay (b : EngBlock) (ns : List ℕ) (h : Keeps r o s) (c_nfe : r .nfe) (c_sch : r .sch) (c_idx : r .idx) (c_val : r .val) (c_cip : r .cip) (c_ldg : r .ldg) (c_ftl : r .ftl) (c_peer : r .peer) (c_rings : r .rings) (c_dram : r .dram) (c_flt : r .flt) (c_CIP_LANE_STAT_NONCE_REFUSALS : r (.reg Reg.CIP_LANE_STAT_NONCE_REFUSALS.addr)) (c_FLT_SWATCH_CTL_ARM : r (.reg Reg.FLT_SWATCH_CTL_ARM.addr)) (c_LDG_GAUGE_STAT_FALLBACKS : r (.reg Reg.LDG_GAUGE_STAT_FALLBACKS.addr)) (c_LDG_UNMETERED_LINES : r (.reg Reg.LDG_UNMETERED_LINES.addr)) (c_PEER_CHAIN_STAT_DEGRADED : r (.reg Reg.PEER_CHAIN_STAT_DEGRADED.addr)) (c_PWR_SHED_CNT_SHED_WRITES : r (.reg Reg.PWR_SHED_CNT_SHED_WRITES.addr)) (c_SCH_REPLAY_STAT_REPLAYS : r (.reg Reg.SCH_REPLAY_STAT_REPLAYS.addr)) (c_VAL_E2E_STAT_E2E_MISMATCHES : r (.reg Reg.VAL_E2E_STAT_E2E_MISMATCHES.addr)) (c_VAL_SWATCH_ARM : r (.reg Reg.VAL_SWATCH_ARM.addr)) :
    Keeps r o (State.replay s b ns) := by
  unfold State.replay
  repeat' first
    | with_reducible assumption | exact c_CIP_LANE_STAT_NONCE_REFUSALS | exact c_FLT_SWATCH_CTL_ARM
    | exact c_LDG_GAUGE_STAT_FALLBACKS | exact c_LDG_UNMETERED_LINES | exact c_PEER_CHAIN_STAT_DEGRADED
    | exact c_PWR_SHED_CNT_SHED_WRITES | exact c_SCH_REPLAY_STAT_REPLAYS | exact c_VAL_E2E_STAT_E2E_MISMATCHES
    | exact c_VAL_SWATCH_ARM | with_reducible apply keeps_bump | with_reducible apply keeps_replayCmd
    | with_reducible apply keeps_onSch | with_reducible apply keeps_foldl | with_reducible apply keeps2_foldl
    | (with_reducible intro _; beta_reduce)

theorem keeps_matchReload (h : Keeps r o s) (c_mch : r .mch) (c_rings : r .rings) (c_dram : r .dram) (c_flt : r .flt) (c_FLT_SWATCH_CTL_ARM : r (.reg Reg.FLT_SWATCH_CTL_ARM.addr)) (c_MCH_ERR_STAT_SCRUB_FIXES : r (.reg Reg.MCH_ERR_STAT_SCRUB_FIXES.addr)) (c_MCH_STATUS_EPOCH : r (.reg Reg.MCH_STATUS_EPOCH.addr)) :
    Keeps r o (State.matchReload s) := by
  unfold State.matchReload
  repeat' first
    | with_reducible assumption | with_reducible apply keeps_reloadRules | with_reducible apply keeps_finish
    | with_reducible apply keeps_reloadHalves | with_reducible apply keeps_afterShift
    | with_reducible apply keeps_foldl | with_reducible apply keeps2_foldl | (with_reducible intro _; beta_reduce)
    | with_reducible refine Keeps2.of (by assumption) ?_ | with_reducible apply Keeps2.snd
    | (extract_lets +onlyGivenNames x; refine @Keeps.cut r o _ x ?_ (fun hx => ?_); rotate_left; clear_value x; rotate_right; dsimp -zeta only [x])
    | (extract_lets +onlyGivenNames x; clear_value x) | split

theorem keeps_qpmRestart (h : Keeps r o s) (c_nfe : r .nfe) (c_sch : r .sch) (c_mch : r .mch) (c_val : r .val) (c_cip : r .cip) (c_ldg : r .ldg) (c_ftl : r .ftl) (c_peer : r .peer) (c_flt : r .flt) (c_CIP_LANE_STAT_NONCE_REFUSALS : r (.reg Reg.CIP_LANE_STAT_NONCE_REFUSALS.addr)) (c_FLT_SWATCH_CTL_ARM : r (.reg Reg.FLT_SWATCH_CTL_ARM.addr)) (c_LDG_GAUGE_STAT_FALLBACKS : r (.reg Reg.LDG_GAUGE_STAT_FALLBACKS.addr)) (c_LDG_UNMETERED_LINES : r (.reg Reg.LDG_UNMETERED_LINES.addr)) (c_PWR_SHED_CNT_SHED_WRITES : r (.reg Reg.PWR_SHED_CNT_SHED_WRITES.addr)) (c_QPM_ERR_STAT_QGEN_DROPS : r (.reg Reg.QPM_ERR_STAT_QGEN_DROPS.addr)) :
    Keeps r o (State.qpmRestart s) := by
  unfold State.qpmRestart
  repeat' first
    | with_reducible assumption | with_reducible apply keeps_applyDoorbell | with_reducible apply keeps_onNfe
    | with_reducible apply keeps_foldl | with_reducible apply keeps2_foldl | (with_reducible intro _; beta_reduce)

theorem keeps_engRestart (h : Keeps r o s) (c_rings : r .rings) (c_dram : r .dram) (c_flt : r .flt) (c_FLT_SWATCH_CTL_ARM : r (.reg Reg.FLT_SWATCH_CTL_ARM.addr)) :
    Keeps r o (State.engRestart s) := by
  unfold State.engRestart
  repeat' first
    | with_reducible assumption | with_reducible apply keeps_onRing | with_reducible apply keeps_fetchEntries
    | with_reducible apply keeps_drainCqes | with_reducible apply keeps_foldl | with_reducible apply keeps2_foldl
    | (with_reducible intro _; beta_reduce)

theorem keeps_restartBlock (b : EngBlock) (h : Keeps r o s) (c_nfe : r .nfe) (c_sch : r .sch) (c_idx : r .idx) (c_mch : r .mch) (c_val : r .val) (c_cip : r .cip) (c_ldg : r .ldg) (c_ftl : r .ftl) (c_peer : r .peer) (c_rings : r .rings) (c_dram : r .dram) (c_flt : r .flt) (c_CIP_AUTH_STAT_AUTH_FAILURES : r (.reg Reg.CIP_AUTH_STAT_AUTH_FAILURES.addr)) (c_CIP_LANE_STAT_NONCE_REFUSALS : r (.reg Reg.CIP_LANE_STAT_NONCE_REFUSALS.addr)) (c_FLT_SWATCH_CTL_ARM : r (.reg Reg.FLT_SWATCH_CTL_ARM.addr)) (c_LDG_GAUGE_STAT_FALLBACKS : r (.reg Reg.LDG_GAUGE_STAT_FALLBACKS.addr)) (c_LDG_UNMETERED_LINES : r (.reg Reg.LDG_UNMETERED_LINES.addr)) (c_MCH_ERR_STAT_SCRUB_FIXES : r (.reg Reg.MCH_ERR_STAT_SCRUB_FIXES.addr)) (c_MCH_STATUS_EPOCH : r (.reg Reg.MCH_STATUS_EPOCH.addr)) (c_PEER_REPAIR_STAT_REPAIRS : r (.reg Reg.PEER_REPAIR_STAT_REPAIRS.addr)) (c_PWR_SHED_CNT_SHED_WRITES : r (.reg Reg.PWR_SHED_CNT_SHED_WRITES.addr)) (c_QPM_ERR_STAT_QGEN_DROPS : r (.reg Reg.QPM_ERR_STAT_QGEN_DROPS.addr)) (c_VAL_E2E_STAT_E2E_MISMATCHES : r (.reg Reg.VAL_E2E_STAT_E2E_MISMATCHES.addr)) (c_VAL_READ_STAT_UNRECOVERABLE : r (.reg Reg.VAL_READ_STAT_UNRECOVERABLE.addr)) :
    Keeps r o (State.restartBlock s b) := by
  unfold State.restartBlock
  repeat' first
    | with_reducible assumption | with_reducible apply keeps_engRestart | with_reducible apply keeps_qpmRestart
    | with_reducible apply keeps_matchReload | with_reducible apply keeps_askPeers
    | with_reducible apply keeps_fillLanes | with_reducible apply keeps_onCip | with_reducible apply keeps_foldl
    | with_reducible apply keeps2_foldl | (with_reducible intro _; beta_reduce)
    | with_reducible refine Keeps2.of (by assumption) ?_ | with_reducible apply Keeps2.snd
    | (extract_lets +onlyGivenNames x; refine @Keeps.cut r o _ x ?_ (fun hx => ?_); rotate_left; clear_value x; rotate_right; dsimp -zeta only [x])
    | (extract_lets +onlyGivenNames x; clear_value x) | split

theorem keeps_dropLatches (b : EngBlock) (h : Keeps r o s) (c_latches : r .latches) :
    Keeps r o (State.dropLatches s b) := by
  exact h.next (fun p hp => by cases p <;> first | rfl | exact fun _ => rfl | exact absurd c_latches hp) rfl (Nat.le_refl _) id id

theorem keeps_resetPointers (b : EngBlock) (h : Keeps r o s) (c_nfe : r .nfe) (c_sch : r .sch) (c_mch : r .mch) (c_val : r .val) (c_cip : r .cip) (c_ftl : r .ftl) (c_rings : r .rings) :
    Keeps r o (State.resetPointers s b) := by
  unfold State.resetPointers
  repeat' first
    | with_reducible assumption | with_reducible apply keeps_onVal | with_reducible apply keeps_onFtl
    | with_reducible apply keeps_onMch | with_reducible apply keeps_onNfe | with_reducible apply keeps_onCip
    | with_reducible apply keeps_onSch | with_reducible apply keeps_dramClear | with_reducible apply keeps_dramWrite
    | (with_reducible apply keeps_onEng) | with_reducible apply keeps_foldl | with_reducible apply keeps2_foldl
    | (with_reducible intro _; beta_reduce) | with_reducible refine Keeps2.of (by assumption) ?_
    | with_reducible apply Keeps2.snd
    | (extract_lets +onlyGivenNames x; refine @Keeps.cut r o _ x ?_ (fun hx => ?_); rotate_left; clear_value x; rotate_right; dsimp -zeta only [x])
    | (extract_lets +onlyGivenNames x; clear_value x) | split | with_reducible apply Keeps2.mk | rfl

theorem keeps_leaveReset (b : EngBlock) (h : Keeps r o s) (c_latches : r .latches) (c_nfe : r .nfe) (c_sch : r .sch) (c_idx : r .idx) (c_mch : r .mch) (c_val : r .val) (c_cip : r .cip) (c_ldg : r .ldg) (c_ftl : r .ftl) (c_peer : r .peer) (c_rings : r .rings) (c_dram : r .dram) (c_flt : r .flt) (c_CIP_AUTH_STAT_AUTH_FAILURES : r (.reg Reg.CIP_AUTH_STAT_AUTH_FAILURES.addr)) (c_CIP_LANE_STAT_NONCE_REFUSALS : r (.reg Reg.CIP_LANE_STAT_NONCE_REFUSALS.addr)) (c_FLT_SWATCH_CTL_ARM : r (.reg Reg.FLT_SWATCH_CTL_ARM.addr)) (c_LDG_GAUGE_STAT_FALLBACKS : r (.reg Reg.LDG_GAUGE_STAT_FALLBACKS.addr)) (c_LDG_UNMETERED_LINES : r (.reg Reg.LDG_UNMETERED_LINES.addr)) (c_MCH_ERR_STAT_SCRUB_FIXES : r (.reg Reg.MCH_ERR_STAT_SCRUB_FIXES.addr)) (c_MCH_STATUS_EPOCH : r (.reg Reg.MCH_STATUS_EPOCH.addr)) (c_PEER_CHAIN_STAT_DEGRADED : r (.reg Reg.PEER_CHAIN_STAT_DEGRADED.addr)) (c_PEER_REPAIR_STAT_REPAIRS : r (.reg Reg.PEER_REPAIR_STAT_REPAIRS.addr)) (c_PWR_SHED_CNT_SHED_WRITES : r (.reg Reg.PWR_SHED_CNT_SHED_WRITES.addr)) (c_QPM_ERR_STAT_QGEN_DROPS : r (.reg Reg.QPM_ERR_STAT_QGEN_DROPS.addr)) (c_SCH_REPLAY_STAT_REPLAYS : r (.reg Reg.SCH_REPLAY_STAT_REPLAYS.addr)) (c_VAL_E2E_STAT_E2E_MISMATCHES : r (.reg Reg.VAL_E2E_STAT_E2E_MISMATCHES.addr)) (c_VAL_READ_STAT_UNRECOVERABLE : r (.reg Reg.VAL_READ_STAT_UNRECOVERABLE.addr)) (c_VAL_SWATCH_ARM : r (.reg Reg.VAL_SWATCH_ARM.addr)) :
    Keeps r o (State.leaveReset s b) := by
  unfold State.leaveReset
  repeat' first
    | with_reducible assumption | exact c_CIP_AUTH_STAT_AUTH_FAILURES | exact c_CIP_LANE_STAT_NONCE_REFUSALS
    | exact c_FLT_SWATCH_CTL_ARM | exact c_LDG_GAUGE_STAT_FALLBACKS | exact c_LDG_UNMETERED_LINES
    | exact c_MCH_ERR_STAT_SCRUB_FIXES | exact c_MCH_STATUS_EPOCH | exact c_PEER_CHAIN_STAT_DEGRADED
    | exact c_PEER_REPAIR_STAT_REPAIRS | exact c_PWR_SHED_CNT_SHED_WRITES | exact c_QPM_ERR_STAT_QGEN_DROPS
    | exact c_SCH_REPLAY_STAT_REPLAYS | exact c_VAL_E2E_STAT_E2E_MISMATCHES | exact c_VAL_READ_STAT_UNRECOVERABLE
    | exact c_VAL_SWATCH_ARM | with_reducible apply keeps_bump | with_reducible apply keeps_dropLatches
    | with_reducible apply keeps_pump | with_reducible apply keeps_replay | with_reducible apply keeps_restoreCredits
    | with_reducible apply keeps_serveIntake | with_reducible apply keeps_restartBlock
    | with_reducible apply keeps_resetPointers | with_reducible apply keeps_onMch | with_reducible apply keeps_onSch
    | with_reducible apply keeps_foldl | with_reducible apply keeps2_foldl | (with_reducible intro _; beta_reduce)

theorem keeps_execBlockResetExit (b : EngBlock) (h : Keeps r o s) (c_latches : r .latches) (c_nfe : r .nfe) (c_sch : r .sch) (c_idx : r .idx) (c_mch : r .mch) (c_val : r .val) (c_cip : r .cip) (c_ldg : r .ldg) (c_ftl : r .ftl) (c_peer : r .peer) (c_rings : r .rings) (c_dram : r .dram) (c_flt : r .flt) (c_CIP_AUTH_STAT_AUTH_FAILURES : r (.reg Reg.CIP_AUTH_STAT_AUTH_FAILURES.addr)) (c_CIP_LANE_STAT_NONCE_REFUSALS : r (.reg Reg.CIP_LANE_STAT_NONCE_REFUSALS.addr)) (c_FLT_SWATCH_CTL_ARM : r (.reg Reg.FLT_SWATCH_CTL_ARM.addr)) (c_LDG_GAUGE_STAT_FALLBACKS : r (.reg Reg.LDG_GAUGE_STAT_FALLBACKS.addr)) (c_LDG_UNMETERED_LINES : r (.reg Reg.LDG_UNMETERED_LINES.addr)) (c_MCH_ERR_STAT_SCRUB_FIXES : r (.reg Reg.MCH_ERR_STAT_SCRUB_FIXES.addr)) (c_MCH_STATUS_EPOCH : r (.reg Reg.MCH_STATUS_EPOCH.addr)) (c_PEER_CHAIN_STAT_DEGRADED : r (.reg Reg.PEER_CHAIN_STAT_DEGRADED.addr)) (c_PEER_REPAIR_STAT_REPAIRS : r (.reg Reg.PEER_REPAIR_STAT_REPAIRS.addr)) (c_PWR_SHED_CNT_SHED_WRITES : r (.reg Reg.PWR_SHED_CNT_SHED_WRITES.addr)) (c_QPM_ERR_STAT_QGEN_DROPS : r (.reg Reg.QPM_ERR_STAT_QGEN_DROPS.addr)) (c_SCH_REPLAY_STAT_REPLAYS : r (.reg Reg.SCH_REPLAY_STAT_REPLAYS.addr)) (c_VAL_E2E_STAT_E2E_MISMATCHES : r (.reg Reg.VAL_E2E_STAT_E2E_MISMATCHES.addr)) (c_VAL_READ_STAT_UNRECOVERABLE : r (.reg Reg.VAL_READ_STAT_UNRECOVERABLE.addr)) (c_VAL_SWATCH_ARM : r (.reg Reg.VAL_SWATCH_ARM.addr)) :
    KeepsN r o (execBlockResetExit b s) := by
  unfold execBlockResetExit
  repeat' first
    | with_reducible apply KeepsN.mk | with_reducible apply KeepsN.fault | with_reducible assumption
    | with_reducible apply keeps_guardStep | with_reducible apply keeps_leaveReset | with_reducible apply keeps_foldl
    | with_reducible apply keeps2_foldl | (with_reducible intro _; beta_reduce)

theorem keeps_retrainPort (p : Port) (h : Keeps r o s) (c_nfe : r .nfe) (c_sch : r .sch) (c_mch : r .mch) (c_val : r .val) (c_cip : r .cip) (c_ldg : r .ldg) (c_ftl : r .ftl) (c_peer : r .peer) (c_flt : r .flt) (c_CIP_LANE_STAT_NONCE_REFUSALS : r (.reg Reg.CIP_LANE_STAT_NONCE_REFUSALS.addr)) (c_FLT_SWATCH_CTL_ARM : r (.reg Reg.FLT_SWATCH_CTL_ARM.addr)) (c_LDG_GAUGE_STAT_FALLBACKS : r (.reg Reg.LDG_GAUGE_STAT_FALLBACKS.addr)) (c_LDG_UNMETERED_LINES : r (.reg Reg.LDG_UNMETERED_LINES.addr)) (c_PWR_SHED_CNT_SHED_WRITES : r (.reg Reg.PWR_SHED_CNT_SHED_WRITES.addr)) :
    Keeps r o (State.retrainPort s p) := by
  unfold State.retrainPort
  repeat' first
    | with_reducible assumption | with_reducible apply keeps_qpError | with_reducible apply keeps_onNfe
    | with_reducible apply keeps_foldl | with_reducible apply keeps2_foldl | (with_reducible intro _; beta_reduce)

theorem keeps_endChanges (h : Keeps r o s) (c_idx : r .idx) (c_ldg : r .ldg) (c_ftl : r .ftl) (c_flt : r .flt) (c_LDG_GAUGE_STAT_FALLBACKS : r (.reg Reg.LDG_GAUGE_STAT_FALLBACKS.addr)) :
    Keeps r o (State.endChanges s) := by
  unfold State.endChanges
  repeat' first
    | with_reducible assumption | with_reducible apply keeps_releaseLoc | with_reducible apply keeps_onIdx
    | with_reducible apply keeps_foldl | with_reducible apply keeps2_foldl | (with_reducible intro _; beta_reduce)
    | with_reducible refine Keeps2.of (by assumption) ?_ | with_reducible apply Keeps2.snd
    | (extract_lets +onlyGivenNames x; refine @Keeps.cut r o _ x ?_ (fun hx => ?_); rotate_left; clear_value x; rotate_right; dsimp -zeta only [x])
    | (extract_lets +onlyGivenNames x; clear_value x) | split

theorem keeps_dropUncommitted (h : Keeps r o s) (c_ldg : r .ldg) (c_ftl : r .ftl) (c_flt : r .flt) (c_LDG_GAUGE_STAT_FALLBACKS : r (.reg Reg.LDG_GAUGE_STAT_FALLBACKS.addr)) :
    Keeps r o (State.dropUncommitted s) := by
  unfold State.dropUncommitted
  repeat' first
    | with_reducible assumption | with_reducible apply keeps_releaseSeg | with_reducible apply keeps_releaseWork
    | with_reducible apply keeps_releaseSegs | with_reducible apply keeps_foldl | with_reducible apply keeps2_foldl
    | (with_reducible intro _; beta_reduce) | with_reducible refine Keeps2.of (by assumption) ?_
    | with_reducible apply Keeps2.snd
    | (extract_lets +onlyGivenNames x; refine @Keeps.cut r o _ x ?_ (fun hx => ?_); rotate_left; clear_value x; rotate_right; dsimp -zeta only [x])
    | (extract_lets +onlyGivenNames x; clear_value x) | split

theorem keeps_endSession (result : ℕ) (gone : Bool) (h : Keeps r o s) (c_session : r .session) :
    Keeps r o (State.endSession s result gone) := by
  unfold State.endSession
  repeat' first
    | with_reducible assumption | with_reducible apply keeps_onSession

theorem keeps_revertedEvent (h : Keeps r o s) (c_flt : r .flt) :
    Keeps r o (State.revertedEvent s) := by
  unfold State.revertedEvent
  repeat' first
    | with_reducible assumption | with_reducible apply keeps_raise | with_reducible apply keeps_drawNat
    | with_reducible apply keeps_foldl | with_reducible apply keeps2_foldl | (with_reducible intro _; beta_reduce)
    | with_reducible refine Keeps2.of (by assumption) ?_ | with_reducible apply Keeps2.snd

theorem keeps_sessionReset (h : Keeps r o s) (c_flt : r .flt) (c_session : r .session) :
    Keeps r o (State.sessionReset s) := by
  unfold State.sessionReset
  repeat' first
    | with_reducible assumption | with_reducible apply keeps_revertedEvent | with_reducible apply keeps_endSession
    | with_reducible apply keeps_foldl | with_reducible apply keeps2_foldl | (with_reducible intro _; beta_reduce)
    | with_reducible refine Keeps2.of (by assumption) ?_ | with_reducible apply Keeps2.snd
    | (extract_lets +onlyGivenNames x; refine @Keeps.cut r o _ x ?_ (fun hx => ?_); rotate_left; clear_value x; rotate_right; dsimp -zeta only [x])
    | (extract_lets +onlyGivenNames x; clear_value x) | split

theorem keeps_stopRebuilds (h : Keeps r o s) (c_ftl : r .ftl) :
    Keeps r o (State.stopRebuilds s) := by
  unfold State.stopRebuilds
  repeat' first
    | with_reducible assumption | with_reducible apply keeps_onFtl

theorem keeps_wipe (h : Keeps r o s) (c_latches : r .latches) (c_nfe : r .nfe) (c_sch : r .sch) (c_idx : r .idx) (c_mch : r .mch) (c_val : r .val) (c_cip : r .cip) (c_ldg : r .ldg) (c_ftl : r .ftl) (c_peer : r .peer) (c_rings : r .rings) (c_flt : r .flt) (c_recorder : r .recorder) (c_pwr : r .pwr) (c_session : r .session) (c_pins : r .pins) (c_LDG_GAUGE_STAT_FALLBACKS : r (.reg Reg.LDG_GAUGE_STAT_FALLBACKS.addr)) :
    Keeps r o (State.wipe s) := by
  unfold State.wipe
  have h1 : Keeps r o s.dropUncommitted := by apply keeps_dropUncommitted <;> assumption
  have h2 : Keeps r o s.dropUncommitted.endChanges := by apply keeps_endChanges <;> assumption
  have h3 : Keeps r o s.dropUncommitted.endChanges.sessionReset := by apply keeps_sessionReset <;> assumption
  have hu : Keeps r o s.dropUncommitted.endChanges.sessionReset.stopRebuilds := by
    apply keeps_stopRebuilds <;> assumption
  refine hu.next (fun p hp => ?_) rfl (Nat.le_refl _) id id
  cases p <;> first | rfl | exact fun _ => rfl | (exfalso; apply hp; assumption)

theorem keeps_mainOff (h : Keeps r o s) (c_rings : r .rings) (c_dram : r .dram) (c_rst : r .rst) (c_pwr : r .pwr) :
    Keeps r o (State.mainOff s) := by
  unfold State.mainOff
  repeat' first
    | with_reducible assumption | with_reducible apply keeps_onPwr | with_reducible apply keeps_onRst
    | with_reducible apply keeps_dramClear

theorem keeps_assertReset (h : Keeps r o s) (c_latches : r .latches) (c_nfe : r .nfe) (c_sch : r .sch) (c_idx : r .idx) (c_mch : r .mch) (c_val : r .val) (c_cip : r .cip) (c_ldg : r .ldg) (c_ftl : r .ftl) (c_peer : r .peer) (c_rings : r .rings) (c_dram : r .dram) (c_flt : r .flt) (c_recorder : r .recorder) (c_rst : r .rst) (c_pwr : r .pwr) (c_session : r .session) (c_pins : r .pins) (c_LDG_GAUGE_STAT_FALLBACKS : r (.reg Reg.LDG_GAUGE_STAT_FALLBACKS.addr)) :
    Keeps r o (State.assertReset s) := by
  unfold State.assertReset
  repeat' first
    | with_reducible assumption | with_reducible apply keeps_wipe | with_reducible apply keeps_onRst
    | with_reducible apply keeps_mainOff | with_reducible apply keeps_foldl | with_reducible apply keeps2_foldl
    | (with_reducible intro _; beta_reduce) | with_reducible refine Keeps2.of (by assumption) ?_
    | with_reducible apply Keeps2.snd
    | (extract_lets +onlyGivenNames x; refine @Keeps.cut r o _ x ?_ (fun hx => ?_); rotate_left; clear_value x; rotate_right; dsimp -zeta only [x])
    | (extract_lets +onlyGivenNames x; clear_value x) | split

theorem keeps_takeDigests (h : Keeps r o s) (c_ldg : r .ldg) (c_flt : r .flt) (c_LDG_GAUGE_STAT_FALLBACKS : r (.reg Reg.LDG_GAUGE_STAT_FALLBACKS.addr)) :
    Keeps r o (State.takeDigests s) := by
  unfold State.takeDigests
  repeat' first
    | with_reducible assumption | with_reducible apply keeps_onKept | with_reducible apply keeps_keepMeta

theorem keeps_clearResetRec (h : Keeps r o s) (c_ldg : r .ldg) (c_flt : r .flt) (c_LDG_GAUGE_STAT_FALLBACKS : r (.reg Reg.LDG_GAUGE_STAT_FALLBACKS.addr)) :
    Keeps r o (State.clearResetRec s) := by
  unfold State.clearResetRec
  repeat' first
    | with_reducible assumption | with_reducible apply keeps_onKept | with_reducible apply keeps_keepMeta

theorem keeps_drainCmd (n : ℕ) (h : Keeps r o s) (c_nfe : r .nfe) (c_sch : r .sch) (c_mch : r .mch) (c_val : r .val) (c_cip : r .cip) (c_ldg : r .ldg) (c_ftl : r .ftl) (c_peer : r .peer) (c_flt : r .flt) (c_CIP_LANE_STAT_NONCE_REFUSALS : r (.reg Reg.CIP_LANE_STAT_NONCE_REFUSALS.addr)) (c_FLT_SWATCH_CTL_ARM : r (.reg Reg.FLT_SWATCH_CTL_ARM.addr)) (c_LDG_GAUGE_STAT_FALLBACKS : r (.reg Reg.LDG_GAUGE_STAT_FALLBACKS.addr)) (c_LDG_UNMETERED_LINES : r (.reg Reg.LDG_UNMETERED_LINES.addr)) (c_PWR_SHED_CNT_SHED_WRITES : r (.reg Reg.PWR_SHED_CNT_SHED_WRITES.addr)) :
    Keeps r o (State.drainCmd s n) := by
  unfold State.drainCmd
  repeat' first
    | with_reducible assumption | with_reducible apply keeps_endCmd | with_reducible apply keeps_endBatch
    | with_reducible apply keeps_foldl | with_reducible apply keeps2_foldl | (with_reducible intro _; beta_reduce)
    | with_reducible refine Keeps2.of (by assumption) ?_ | with_reducible apply Keeps2.snd
    | (extract_lets +onlyGivenNames x; refine @Keeps.cut r o _ x ?_ (fun hx => ?_); rotate_left; clear_value x; rotate_right; dsimp -zeta only [x])
    | (extract_lets +onlyGivenNames x; clear_value x) | split

theorem keeps_beginDrain (h : Keeps r o s) (c_nfe : r .nfe) (c_sch : r .sch) (c_mch : r .mch) (c_val : r .val) (c_cip : r .cip) (c_ldg : r .ldg) (c_ftl : r .ftl) (c_peer : r .peer) (c_flt : r .flt) (c_rst : r .rst) (c_CIP_LANE_STAT_NONCE_REFUSALS : r (.reg Reg.CIP_LANE_STAT_NONCE_REFUSALS.addr)) (c_FLT_SWATCH_CTL_ARM : r (.reg Reg.FLT_SWATCH_CTL_ARM.addr)) (c_LDG_GAUGE_STAT_FALLBACKS : r (.reg Reg.LDG_GAUGE_STAT_FALLBACKS.addr)) (c_LDG_UNMETERED_LINES : r (.reg Reg.LDG_UNMETERED_LINES.addr)) (c_PWR_SHED_CNT_SHED_WRITES : r (.reg Reg.PWR_SHED_CNT_SHED_WRITES.addr)) :
    Keeps r o (State.beginDrain s) := by
  unfold State.beginDrain
  repeat' first
    | with_reducible assumption | with_reducible apply keeps_drainCmd | with_reducible apply keeps_onRst
    | with_reducible apply keeps_onNfe | with_reducible apply keeps_onSch | with_reducible apply keeps_foldl
    | with_reducible apply keeps2_foldl | (with_reducible intro _; beta_reduce)

theorem keeps_noteCause (cause : ℕ) (h : Keeps r o s) (c_rst : r .rst) :
    Keeps r o (State.noteCause s cause) := by
  unfold State.noteCause
  repeat' first
    | with_reducible assumption | with_reducible apply keeps_onRst

theorem keeps_chipResetWith (cause : ℕ) (nfeWorks : Bool) (h : Keeps r o s) (c_latches : r .latches) (c_nfe : r .nfe) (c_sch : r .sch) (c_idx : r .idx) (c_mch : r .mch) (c_val : r .val) (c_cip : r .cip) (c_ldg : r .ldg) (c_ftl : r .ftl) (c_peer : r .peer) (c_rings : r .rings) (c_dram : r .dram) (c_flt : r .flt) (c_recorder : r .recorder) (c_rst : r .rst) (c_pwr : r .pwr) (c_session : r .session) (c_pins : r .pins) (c_CIP_LANE_STAT_NONCE_REFUSALS : r (.reg Reg.CIP_LANE_STAT_NONCE_REFUSALS.addr)) (c_FLT_SWATCH_CTL_ARM : r (.reg Reg.FLT_SWATCH_CTL_ARM.addr)) (c_LDG_GAUGE_STAT_FALLBACKS : r (.reg Reg.LDG_GAUGE_STAT_FALLBACKS.addr)) (c_LDG_UNMETERED_LINES : r (.reg Reg.LDG_UNMETERED_LINES.addr)) (c_PWR_SHED_CNT_SHED_WRITES : r (.reg Reg.PWR_SHED_CNT_SHED_WRITES.addr)) :
    Keeps r o (State.chipResetWith s cause nfeWorks) := by
  unfold State.chipResetWith
  repeat' first
    | with_reducible assumption | with_reducible apply keeps_takeDigests | with_reducible apply keeps_beginDrain
    | with_reducible apply keeps_assertReset | with_reducible apply keeps_onRst | with_reducible apply keeps_noteCause
    | with_reducible apply keeps_foldl | with_reducible apply keeps2_foldl | (with_reducible intro _; beta_reduce)
    | with_reducible refine Keeps2.of (by assumption) ?_ | with_reducible apply Keeps2.snd
    | (extract_lets +onlyGivenNames x; refine @Keeps.cut r o _ x ?_ (fun hx => ?_); rotate_left; clear_value x; rotate_right; dsimp -zeta only [x])
    | (extract_lets +onlyGivenNames x; clear_value x) | split

theorem keeps_chipReset (cause : ℕ) (h : Keeps r o s) (c_latches : r .latches) (c_nfe : r .nfe) (c_sch : r .sch) (c_idx : r .idx) (c_mch : r .mch) (c_val : r .val) (c_cip : r .cip) (c_ldg : r .ldg) (c_ftl : r .ftl) (c_peer : r .peer) (c_rings : r .rings) (c_dram : r .dram) (c_flt : r .flt) (c_recorder : r .recorder) (c_rst : r .rst) (c_pwr : r .pwr) (c_session : r .session) (c_pins : r .pins) (c_CIP_LANE_STAT_NONCE_REFUSALS : r (.reg Reg.CIP_LANE_STAT_NONCE_REFUSALS.addr)) (c_FLT_SWATCH_CTL_ARM : r (.reg Reg.FLT_SWATCH_CTL_ARM.addr)) (c_LDG_GAUGE_STAT_FALLBACKS : r (.reg Reg.LDG_GAUGE_STAT_FALLBACKS.addr)) (c_LDG_UNMETERED_LINES : r (.reg Reg.LDG_UNMETERED_LINES.addr)) (c_PWR_SHED_CNT_SHED_WRITES : r (.reg Reg.PWR_SHED_CNT_SHED_WRITES.addr)) :
    Keeps r o (State.chipReset s cause) := by
  unfold State.chipReset
  repeat' first
    | with_reducible assumption | with_reducible apply keeps_chipResetWith

theorem keeps_endDrained (n : ℕ) (h : Keeps r o s) (c_nfe : r .nfe) (c_sch : r .sch) (c_mch : r .mch) (c_val : r .val) (c_cip : r .cip) (c_ldg : r .ldg) (c_ftl : r .ftl) (c_peer : r .peer) (c_flt : r .flt) (c_CIP_LANE_STAT_NONCE_REFUSALS : r (.reg Reg.CIP_LANE_STAT_NONCE_REFUSALS.addr)) (c_FLT_SWATCH_CTL_ARM : r (.reg Reg.FLT_SWATCH_CTL_ARM.addr)) (c_LDG_GAUGE_STAT_FALLBACKS : r (.reg Reg.LDG_GAUGE_STAT_FALLBACKS.addr)) (c_LDG_UNMETERED_LINES : r (.reg Reg.LDG_UNMETERED_LINES.addr)) (c_PWR_SHED_CNT_SHED_WRITES : r (.reg Reg.PWR_SHED_CNT_SHED_WRITES.addr)) :
    Keeps r o (State.endDrained s n) := by
  unfold State.endDrained
  repeat' first
    | with_reducible assumption | with_reducible apply keeps_endRead | with_reducible apply keeps_endCount
    | with_reducible apply keeps_endCmd | with_reducible apply keeps_foldl | with_reducible apply keeps2_foldl
    | (with_reducible intro _; beta_reduce) | with_reducible refine Keeps2.of (by assumption) ?_
    | with_reducible apply Keeps2.snd
    | (extract_lets +onlyGivenNames x; refine @Keeps.cut r o _ x ?_ (fun hx => ?_); rotate_left; clear_value x; rotate_right; dsimp -zeta only [x])
    | (extract_lets +onlyGivenNames x; clear_value x) | split

theorem keeps_sendDreqs (h : Keeps r o s) (c_nfe : r .nfe) :
    Keeps r o (State.sendDreqs s) := by
  unfold State.sendDreqs
  repeat' first
    | with_reducible assumption | with_reducible apply keeps_send | with_reducible apply keeps_foldl
    | with_reducible apply keeps2_foldl | (with_reducible intro _; beta_reduce)

theorem keeps_endDrain (h : Keeps r o s) (c_latches : r .latches) (c_nfe : r .nfe) (c_sch : r .sch) (c_idx : r .idx) (c_mch : r .mch) (c_val : r .val) (c_cip : r .cip) (c_ldg : r .ldg) (c_ftl : r .ftl) (c_peer : r .peer) (c_rings : r .rings) (c_dram : r .dram) (c_flt : r .flt) (c_recorder : r .recorder) (c_rst : r .rst) (c_pwr : r .pwr) (c_session : r .session) (c_pins : r .pins) (c_CIP_LANE_STAT_NONCE_REFUSALS : r (.reg Reg.CIP_LANE_STAT_NONCE_REFUSALS.addr)) (c_FLT_SWATCH_CTL_ARM : r (.reg Reg.FLT_SWATCH_CTL_ARM.addr)) (c_LDG_GAUGE_STAT_FALLBACKS : r (.reg Reg.LDG_GAUGE_STAT_FALLBACKS.addr)) (c_LDG_UNMETERED_LINES : r (.reg Reg.LDG_UNMETERED_LINES.addr)) (c_PWR_SHED_CNT_SHED_WRITES : r (.reg Reg.PWR_SHED_CNT_SHED_WRITES.addr)) :
    Keeps r o (State.endDrain s) := by
  unfold State.endDrain
  repeat' first
    | with_reducible assumption | with_reducible apply keeps_takeDigests | with_reducible apply keeps_endDrained
    | with_reducible apply keeps_assertReset | with_reducible apply keeps_sendDreqs
    | with_reducible apply keeps_writeCompletion | with_reducible apply keeps_foldl
    | with_reducible apply keeps2_foldl | (with_reducible intro _; beta_reduce)
    | with_reducible refine Keeps2.of (by assumption) ?_ | with_reducible apply Keeps2.snd
    | (extract_lets +onlyGivenNames x; refine @Keeps.cut r o _ x ?_ (fun hx => ?_); rotate_left; clear_value x; rotate_right; dsimp -zeta only [x])
    | (extract_lets +onlyGivenNames x; clear_value x) | split

theorem keeps_execResetDrainEnd (h : Keeps r o s) (c_latches : r .latches) (c_nfe : r .nfe) (c_sch : r .sch) (c_idx : r .idx) (c_mch : r .mch) (c_val : r .val) (c_cip : r .cip) (c_ldg : r .ldg) (c_ftl : r .ftl) (c_peer : r .peer) (c_rings : r .rings) (c_dram : r .dram) (c_flt : r .flt) (c_recorder : r .recorder) (c_rst : r .rst) (c_pwr : r .pwr) (c_session : r .session) (c_pins : r .pins) (c_CIP_LANE_STAT_NONCE_REFUSALS : r (.reg Reg.CIP_LANE_STAT_NONCE_REFUSALS.addr)) (c_FLT_SWATCH_CTL_ARM : r (.reg Reg.FLT_SWATCH_CTL_ARM.addr)) (c_LDG_GAUGE_STAT_FALLBACKS : r (.reg Reg.LDG_GAUGE_STAT_FALLBACKS.addr)) (c_LDG_UNMETERED_LINES : r (.reg Reg.LDG_UNMETERED_LINES.addr)) (c_PWR_SHED_CNT_SHED_WRITES : r (.reg Reg.PWR_SHED_CNT_SHED_WRITES.addr)) :
    KeepsN r o (execResetDrainEnd s) := by
  unfold execResetDrainEnd
  repeat' first
    | with_reducible apply KeepsN.mk | with_reducible apply KeepsN.fault | with_reducible assumption
    | with_reducible apply keeps_endDrain | with_reducible apply keeps_guardStep | with_reducible apply keeps_foldl
    | with_reducible apply keeps2_foldl | (with_reducible intro _; beta_reduce)

theorem keeps_execRstSoftWrite (core : CoreId) (code : ℕ) (h : Keeps r o s) (c_latches : r .latches) (c_nfe : r .nfe) (c_sch : r .sch) (c_idx : r .idx) (c_mch : r .mch) (c_val : r .val) (c_cip : r .cip) (c_ldg : r .ldg) (c_ftl : r .ftl) (c_peer : r .peer) (c_rings : r .rings) (c_dram : r .dram) (c_flt : r .flt) (c_recorder : r .recorder) (c_rst : r .rst) (c_pwr : r .pwr) (c_session : r .session) (c_pins : r .pins) (c_CIP_LANE_STAT_NONCE_REFUSALS : r (.reg Reg.CIP_LANE_STAT_NONCE_REFUSALS.addr)) (c_FLT_SWATCH_CTL_ARM : r (.reg Reg.FLT_SWATCH_CTL_ARM.addr)) (c_LDG_GAUGE_STAT_FALLBACKS : r (.reg Reg.LDG_GAUGE_STAT_FALLBACKS.addr)) (c_LDG_UNMETERED_LINES : r (.reg Reg.LDG_UNMETERED_LINES.addr)) (c_PWR_SHED_CNT_SHED_WRITES : r (.reg Reg.PWR_SHED_CNT_SHED_WRITES.addr)) :
    KeepsN r o (execRstSoftWrite core code s) := by
  unfold execRstSoftWrite
  repeat' first
    | with_reducible apply KeepsN.mk | with_reducible apply KeepsN.fault | with_reducible assumption
    | with_reducible apply keeps_guardStep | with_reducible apply keeps_chipReset | with_reducible apply keeps_foldl
    | with_reducible apply keeps2_foldl | (with_reducible intro _; beta_reduce)

theorem keeps_execHeadlessTimeout (h : Keeps r o s) (c_latches : r .latches) (c_nfe : r .nfe) (c_sch : r .sch) (c_idx : r .idx) (c_mch : r .mch) (c_val : r .val) (c_cip : r .cip) (c_ldg : r .ldg) (c_ftl : r .ftl) (c_peer : r .peer) (c_rings : r .rings) (c_dram : r .dram) (c_flt : r .flt) (c_recorder : r .recorder) (c_rst : r .rst) (c_pwr : r .pwr) (c_session : r .session) (c_pins : r .pins) (c_CIP_LANE_STAT_NONCE_REFUSALS : r (.reg Reg.CIP_LANE_STAT_NONCE_REFUSALS.addr)) (c_FLT_SWATCH_CTL_ARM : r (.reg Reg.FLT_SWATCH_CTL_ARM.addr)) (c_LDG_GAUGE_STAT_FALLBACKS : r (.reg Reg.LDG_GAUGE_STAT_FALLBACKS.addr)) (c_LDG_UNMETERED_LINES : r (.reg Reg.LDG_UNMETERED_LINES.addr)) (c_PWR_SHED_CNT_SHED_WRITES : r (.reg Reg.PWR_SHED_CNT_SHED_WRITES.addr)) :
    KeepsN r o (execHeadlessTimeout s) := by
  unfold execHeadlessTimeout
  repeat' first
    | with_reducible apply KeepsN.mk | with_reducible apply KeepsN.fault | with_reducible assumption
    | with_reducible apply keeps_guardStep | with_reducible apply keeps_raise | with_reducible apply keeps_chipReset
    | with_reducible apply keeps_foldl | with_reducible apply keeps2_foldl | (with_reducible intro _; beta_reduce)

theorem keeps_execStartTimeout (h : Keeps r o s) (c_latches : r .latches) (c_nfe : r .nfe) (c_sch : r .sch) (c_idx : r .idx) (c_mch : r .mch) (c_val : r .val) (c_cip : r .cip) (c_ldg : r .ldg) (c_ftl : r .ftl) (c_peer : r .peer) (c_rings : r .rings) (c_dram : r .dram) (c_flt : r .flt) (c_recorder : r .recorder) (c_rst : r .rst) (c_pwr : r .pwr) (c_session : r .session) (c_pins : r .pins) (c_CIP_LANE_STAT_NONCE_REFUSALS : r (.reg Reg.CIP_LANE_STAT_NONCE_REFUSALS.addr)) (c_FLT_SWATCH_CTL_ARM : r (.reg Reg.FLT_SWATCH_CTL_ARM.addr)) (c_LDG_GAUGE_STAT_FALLBACKS : r (.reg Reg.LDG_GAUGE_STAT_FALLBACKS.addr)) (c_LDG_UNMETERED_LINES : r (.reg Reg.LDG_UNMETERED_LINES.addr)) (c_PWR_SHED_CNT_SHED_WRITES : r (.reg Reg.PWR_SHED_CNT_SHED_WRITES.addr)) :
    KeepsN r o (execStartTimeout s) := by
  unfold execStartTimeout
  repeat' first
    | with_reducible apply KeepsN.mk | with_reducible apply KeepsN.fault | with_reducible assumption
    | with_reducible apply keeps_guardStep | with_reducible apply keeps_chipReset | with_reducible apply keeps_foldl
    | with_reducible apply keeps2_foldl | (with_reducible intro _; beta_reduce)

end Sys2Proof.Machine
end

