-- ==== Sys2Proof/Laws/KeepFaults.lean ====
section
/-! SUPPORT. What each operation of Machine/Faults.lean may change. -/

set_option linter.unusedTactic false
set_option linter.unreachableTactic false

namespace Sys2Proof.Machine

variable {r : Part → Prop} {o s : State}

theorem keeps_ignoreSource (src : ℕ) (h : Keeps r o s) (c_flt : r .flt) :
    Keeps r o (State.ignoreSource s src) := by
  unfold State.ignoreSource
  repeat' first
    | with_reducible assumption | with_reducible apply keeps_onFlt

theorem keeps_breakPair (src : ℕ) (h : Keeps r o s) (c_flt : r .flt) :
    Keeps r o (State.breakPair s src) := by
  unfold State.breakPair
  repeat' first
    | with_reducible assumption | with_reducible apply keeps_ignoreSource | with_reducible apply keeps_raise
    | with_reducible apply keeps_foldl | with_reducible apply keeps2_foldl | (with_reducible intro _; beta_reduce)
    | with_reducible refine Keeps2.of (by assumption) ?_ | with_reducible apply Keeps2.snd
    | (extract_lets +onlyGivenNames x; refine @Keeps.cut r o _ x ?_ (fun hx => ?_); rotate_left; clear_value x; rotate_right; dsimp -zeta only [x])
    | (extract_lets +onlyGivenNames x; clear_value x) | split

theorem keeps_execRailPairFault (src : ℕ) (h : Keeps r o s) (c_flt : r .flt) :
    KeepsN r o (execRailPairFault src s) := by
  unfold execRailPairFault
  repeat' first
    | with_reducible apply KeepsN.mk | with_reducible apply KeepsN.fault | with_reducible assumption
    | with_reducible apply keeps_breakPair

theorem keeps_execRailTest (failing : List ℕ) (h : Keeps r o s) (c_flt : r .flt) (c_FLT_SWATCH_CTL_ARM : r (.reg Reg.FLT_SWATCH_CTL_ARM.addr)) :
    KeepsN r o (execRailTest failing s) := by
  unfold execRailTest
  repeat' first
    | with_reducible apply KeepsN.mk | with_reducible apply KeepsN.fault | with_reducible assumption
    | with_reducible apply keeps_breakPair | with_reducible apply keeps_swatch | with_reducible apply keeps_foldl
    | with_reducible apply keeps2_foldl | (with_reducible intro _; beta_reduce)
    | with_reducible refine Keeps2.of (by assumption) ?_ | with_reducible apply Keeps2.snd
    | (extract_lets +onlyGivenNames x; refine @Keeps.cut r o _ x ?_ (fun hx => ?_); rotate_left; clear_value x; rotate_right; dsimp -zeta only [x])
    | (extract_lets +onlyGivenNames x; refine @Keeps2.cut r o _ _ x ?_ (fun hx => ?_); rotate_left; clear_value x; rotate_right; dsimp -zeta only [x])
    | (extract_lets +onlyGivenNames x; clear_value x) | split | with_reducible apply Keeps2.mk

theorem keeps_execCollectorMessage (collector : ℕ) (crcOk : Bool) (evs : List Ev) (h : Keeps r o s) (c_flt : r .flt) :
    KeepsN r o (execCollectorMessage collector crcOk evs s) := by
  unfold execCollectorMessage
  repeat' first
    | with_reducible apply KeepsN.mk | with_reducible apply KeepsN.fault | with_reducible assumption
    | with_reducible apply keeps_ignoreSource | with_reducible apply keeps_raise | with_reducible apply keeps_drawNat
    | with_reducible apply keeps_onFlt | with_reducible apply keeps_foldl | with_reducible apply keeps2_foldl
    | (with_reducible intro _; beta_reduce) | with_reducible refine Keeps2.of (by assumption) ?_
    | with_reducible apply Keeps2.snd
    | (extract_lets +onlyGivenNames x; refine @Keeps.cut r o _ x ?_ (fun hx => ?_); rotate_left; clear_value x; rotate_right; dsimp -zeta only [x])
    | (extract_lets +onlyGivenNames x; refine @Keeps2.cut r o _ _ x ?_ (fun hx => ?_); rotate_left; clear_value x; rotate_right; dsimp -zeta only [x])
    | (extract_lets +onlyGivenNames x; clear_value x) | split

theorem keeps_escalate (src : ℕ) (h : Keeps r o s) (c_flt : r .flt) :
    Keeps r o (State.escalate s src) := by
  unfold State.escalate
  repeat' first
    | with_reducible assumption | with_reducible apply keeps_onFlt | with_reducible apply keeps_foldl
    | with_reducible apply keeps2_foldl | (with_reducible intro _; beta_reduce)
    | with_reducible refine Keeps2.of (by assumption) ?_ | with_reducible apply Keeps2.snd
    | (extract_lets +onlyGivenNames x; refine @Keeps.cut r o _ x ?_ (fun hx => ?_); rotate_left; clear_value x; rotate_right; dsimp -zeta only [x])
    | (extract_lets +onlyGivenNames x; clear_value x) | split

theorem keeps_settleGroups (h : Keeps r o s) (c_flt : r .flt) :
    Keeps r o (State.settleGroups s) := by
  unfold State.settleGroups
  repeat' first
    | with_reducible assumption | with_reducible apply keeps_onFlt

theorem keeps_assertErrOut (src : ℕ) (h : Keeps r o s) (c_flt : r .flt) :
    Keeps r o (State.assertErrOut s src) := by
  unfold State.assertErrOut
  repeat' first
    | with_reducible assumption | with_reducible apply keeps_onFlt

theorem keeps_acceptCore (coincident : Bool) (src : ℕ) (h : Keeps r o s) (c_flt : r .flt) (c_FLT_ESC_STAT_ESCALATIONS : r (.reg Reg.FLT_ESC_STAT_ESCALATIONS.addr)) :
    Keeps2 r o (State.acceptCore s coincident src) := by
  unfold State.acceptCore
  repeat' first
    | with_reducible assumption | exact c_FLT_ESC_STAT_ESCALATIONS | with_reducible apply keeps_bump
    | with_reducible apply keeps_escalate | with_reducible apply keeps_assertErrOut | with_reducible apply keeps_onFlt
    | with_reducible apply keeps_foldl | with_reducible apply keeps2_foldl | (with_reducible intro _; beta_reduce)
    | with_reducible refine Keeps2.of (by assumption) ?_ | with_reducible apply Keeps2.snd
    | (extract_lets +onlyGivenNames x; refine @Keeps.cut r o _ x ?_ (fun hx => ?_); rotate_left; clear_value x; rotate_right; dsimp -zeta only [x])
    | (extract_lets +onlyGivenNames x; clear_value x) | split | with_reducible apply Keeps2.mk

theorem keeps_acceptAll (coincident : Bool) (y2 : List Ev) (h : Keeps r o s) (c_ldg : r .ldg) (c_flt : r .flt) (c_recorder : r .recorder) (c_FLT_ESC_STAT_ESCALATIONS : r (.reg Reg.FLT_ESC_STAT_ESCALATIONS.addr)) (c_FLT_SWATCH_CTL_ARM : r (.reg Reg.FLT_SWATCH_CTL_ARM.addr)) (c_LDG_GAUGE_STAT_FALLBACKS : r (.reg Reg.LDG_GAUGE_STAT_FALLBACKS.addr)) (c_REC_COAL_STAT_SUMMARIES : r (.reg Reg.REC_COAL_STAT_SUMMARIES.addr)) :
    Keeps2 r o (State.acceptAll s coincident y2) := by
  induction y2 generalizing s coincident with
  | nil =>
    unfold State.acceptAll
    repeat' first
      | with_reducible assumption | with_reducible apply ih | with_reducible apply keeps_breakPair
      | with_reducible apply keeps_swatch | with_reducible apply keeps_acceptCore
      | with_reducible apply keeps_recIntake | with_reducible apply keeps_foldl | with_reducible apply keeps2_foldl
      | (with_reducible intro _; beta_reduce) | with_reducible refine Keeps2.of (by assumption) ?_
      | with_reducible apply Keeps2.snd
      | (extract_lets +onlyGivenNames x; refine @Keeps.cut r o _ x ?_ (fun hx => ?_); rotate_left; clear_value x; rotate_right; dsimp -zeta only [x])
      | (extract_lets +onlyGivenNames x; refine @Keeps2.cut r o _ _ x ?_ (fun hx => ?_); rotate_left; clear_value x; rotate_right; dsimp -zeta only [x])
      | (extract_lets +onlyGivenNames x; clear_value x) | split | with_reducible apply Keeps2.mk
  | cons _ _ ih =>
    unfold State.acceptAll
    repeat' first
      | with_reducible assumption | with_reducible apply ih | with_reducible apply keeps_breakPair
      | with_reducible apply keeps_swatch | with_reducible apply keeps_acceptCore
      | with_reducible apply keeps_recIntake | with_reducible apply keeps_foldl | with_reducible apply keeps2_foldl
      | (with_reducible intro _; beta_reduce) | with_reducible refine Keeps2.of (by assumption) ?_
      | with_reducible apply Keeps2.snd
      | (extract_lets +onlyGivenNames x; refine @Keeps.cut r o _ x ?_ (fun hx => ?_); rotate_left; clear_value x; rotate_right; dsimp -zeta only [x])
      | (extract_lets +onlyGivenNames x; refine @Keeps2.cut r o _ _ x ?_ (fun hx => ?_); rotate_left; clear_value x; rotate_right; dsimp -zeta only [x])
      | (extract_lets +onlyGivenNames x; clear_value x) | split | with_reducible apply Keeps2.mk

theorem keeps_blockReaction (e' : Ev) (h : Keeps r o s) (c_nfe : r .nfe) (c_sch : r .sch) (c_idx : r .idx) (c_mch : r .mch) (c_val : r .val) (c_cip : r .cip) (c_ldg : r .ldg) (c_ftl : r .ftl) (c_peer : r .peer) (c_rings : r .rings) (c_dram : r .dram) (c_flt : r .flt) (c_CIP_LANE_STAT_NONCE_REFUSALS : r (.reg Reg.CIP_LANE_STAT_NONCE_REFUSALS.addr)) (c_FLT_SWATCH_CTL_ARM : r (.reg Reg.FLT_SWATCH_CTL_ARM.addr)) (c_LDG_GAUGE_STAT_FALLBACKS : r (.reg Reg.LDG_GAUGE_STAT_FALLBACKS.addr)) (c_LDG_UNMETERED_LINES : r (.reg Reg.LDG_UNMETERED_LINES.addr)) (c_PWR_SHED_CNT_SHED_WRITES : r (.reg Reg.PWR_SHED_CNT_SHED_WRITES.addr)) :
    Keeps r o (State.blockReaction s e') := by
  unfold State.blockReaction
  repeat' first
    | with_reducible assumption | with_reducible apply keeps_resetBlock | with_reducible apply keeps_onMch
    | with_reducible apply keeps_retrainPort | with_reducible apply keeps_foldl | with_reducible apply keeps2_foldl
    | (with_reducible intro _; beta_reduce) | with_reducible refine Keeps2.of (by assumption) ?_
    | with_reducible apply Keeps2.snd
    | (extract_lets +onlyGivenNames x; refine @Keeps.cut r o _ x ?_ (fun hx => ?_); rotate_left; clear_value x; rotate_right; dsimp -zeta only [x])
    | (extract_lets +onlyGivenNames x; clear_value x) | split

theorem keeps_react (a : Applied) (h : Keeps r o s) (c_nfe : r .nfe) (c_sch : r .sch) (c_idx : r .idx) (c_mch : r .mch) (c_val : r .val) (c_cip : r .cip) (c_ldg : r .ldg) (c_ftl : r .ftl) (c_peer : r .peer) (c_rings : r .rings) (c_dram : r .dram) (c_flt : r .flt) (c_CIP_LANE_STAT_NONCE_REFUSALS : r (.reg Reg.CIP_LANE_STAT_NONCE_REFUSALS.addr)) (c_FLT_IRQ_CNT_COUNT : r (.reg Reg.FLT_IRQ_CNT_COUNT.addr)) (c_FLT_SWATCH_CTL_ARM : r (.reg Reg.FLT_SWATCH_CTL_ARM.addr)) (c_LDG_GAUGE_STAT_FALLBACKS : r (.reg Reg.LDG_GAUGE_STAT_FALLBACKS.addr)) (c_LDG_UNMETERED_LINES : r (.reg Reg.LDG_UNMETERED_LINES.addr)) (c_PWR_SHED_CNT_SHED_WRITES : r (.reg Reg.PWR_SHED_CNT_SHED_WRITES.addr)) :
    Keeps r o (State.react s a) := by
  unfold State.react
  repeat' first
    | with_reducible assumption | exact c_CIP_LANE_STAT_NONCE_REFUSALS | exact c_FLT_IRQ_CNT_COUNT
    | exact c_FLT_SWATCH_CTL_ARM | exact c_LDG_GAUGE_STAT_FALLBACKS | exact c_LDG_UNMETERED_LINES
    | exact c_PWR_SHED_CNT_SHED_WRITES | with_reducible apply keeps_bump | with_reducible apply keeps_blockReaction
    | with_reducible apply keeps_send | with_reducible apply keeps_foldl | with_reducible apply keeps2_foldl
    | (with_reducible intro _; beta_reduce) | with_reducible refine Keeps2.of (by assumption) ?_
    | with_reducible apply Keeps2.snd
    | (extract_lets +onlyGivenNames x; refine @Keeps.cut r o _ x ?_ (fun hx => ?_); rotate_left; clear_value x; rotate_right; dsimp -zeta only [x])
    | (extract_lets +onlyGivenNames x; clear_value x) | split

theorem keeps_reactAll (l : List Applied) (h : Keeps r o s) (c_latches : r .latches) (c_nfe : r .nfe) (c_sch : r .sch) (c_idx : r .idx) (c_mch : r .mch) (c_val : r .val) (c_cip : r .cip) (c_ldg : r .ldg) (c_ftl : r .ftl) (c_peer : r .peer) (c_rings : r .rings) (c_dram : r .dram) (c_flt : r .flt) (c_recorder : r .recorder) (c_rst : r .rst) (c_pwr : r .pwr) (c_session : r .session) (c_pins : r .pins) (c_CIP_LANE_STAT_NONCE_REFUSALS : r (.reg Reg.CIP_LANE_STAT_NONCE_REFUSALS.addr)) (c_FLT_IRQ_CNT_COUNT : r (.reg Reg.FLT_IRQ_CNT_COUNT.addr)) (c_FLT_SWATCH_CTL_ARM : r (.reg Reg.FLT_SWATCH_CTL_ARM.addr)) (c_LDG_GAUGE_STAT_FALLBACKS : r (.reg Reg.LDG_GAUGE_STAT_FALLBACKS.addr)) (c_LDG_UNMETERED_LINES : r (.reg Reg.LDG_UNMETERED_LINES.addr)) (c_PWR_SHED_CNT_SHED_WRITES : r (.reg Reg.PWR_SHED_CNT_SHED_WRITES.addr)) :
    Keeps r o (State.reactAll s l) := by
  unfold State.reactAll
  repeat' first
    | with_reducible assumption | with_reducible apply keeps_chipResetWith | with_reducible apply keeps_react
    | with_reducible apply keeps_foldl | with_reducible apply keeps2_foldl | (with_reducible intro _; beta_reduce)
    | with_reducible refine Keeps2.of (by assumption) ?_ | with_reducible apply Keeps2.snd
    | (extract_lets +onlyGivenNames x; refine @Keeps.cut r o _ x ?_ (fun hx => ?_); rotate_left; clear_value x; rotate_right; dsimp -zeta only [x])
    | (extract_lets +onlyGivenNames x; clear_value x) | split

theorem keeps_enterFallback (lostLines : ℕ) (cause : ℕ) (h : Keeps r o s) (c_latches : r .latches) (c_nfe : r .nfe) (c_sch : r .sch) (c_idx : r .idx) (c_mch : r .mch) (c_val : r .val) (c_cip : r .cip) (c_ldg : r .ldg) (c_ftl : r .ftl) (c_peer : r .peer) (c_rings : r .rings) (c_dram : r .dram) (c_flt : r .flt) (c_recorder : r .recorder) (c_rst : r .rst) (c_pwr : r .pwr) (c_session : r .session) (c_pins : r .pins) (c_CIP_LANE_STAT_NONCE_REFUSALS : r (.reg Reg.CIP_LANE_STAT_NONCE_REFUSALS.addr)) (c_FLT_ESC_STAT_ESCALATIONS : r (.reg Reg.FLT_ESC_STAT_ESCALATIONS.addr)) (c_FLT_IRQ_CNT_COUNT : r (.reg Reg.FLT_IRQ_CNT_COUNT.addr)) (c_FLT_SWATCH_CTL_ARM : r (.reg Reg.FLT_SWATCH_CTL_ARM.addr)) (c_LDG_GAUGE_STAT_FALLBACKS : r (.reg Reg.LDG_GAUGE_STAT_FALLBACKS.addr)) (c_LDG_UNMETERED_LINES : r (.reg Reg.LDG_UNMETERED_LINES.addr)) (c_PWR_SHED_CNT_SHED_WRITES : r (.reg Reg.PWR_SHED_CNT_SHED_WRITES.addr)) :
    Keeps r o (State.enterFallback s lostLines cause) := by
  unfold State.enterFallback
  repeat' first
    | with_reducible assumption | with_reducible apply keeps_recFallback | with_reducible apply keeps_reactAll
    | with_reducible apply keeps_acceptCore | with_reducible apply keeps_assertErrOut
    | with_reducible apply keeps_foldl | with_reducible apply keeps2_foldl | (with_reducible intro _; beta_reduce)
    | with_reducible refine Keeps2.of (by assumption) ?_ | with_reducible apply Keeps2.snd
    | (extract_lets +onlyGivenNames x; refine @Keeps.cut r o _ x ?_ (fun hx => ?_); rotate_left; clear_value x; rotate_right; dsimp -zeta only [x])
    | (extract_lets +onlyGivenNames x; refine @Keeps2.cut r o _ _ x ?_ (fun hx => ?_); rotate_left; clear_value x; rotate_right; dsimp -zeta only [x])
    | (extract_lets +onlyGivenNames x; clear_value x) | split

theorem keeps_execFaultEvent (evs : List Ev) (h : Keeps r o s) (c_latches : r .latches) (c_nfe : r .nfe) (c_sch : r .sch) (c_idx : r .idx) (c_mch : r .mch) (c_val : r .val) (c_cip : r .cip) (c_ldg : r .ldg) (c_ftl : r .ftl) (c_peer : r .peer) (c_rings : r .rings) (c_dram : r .dram) (c_flt : r .flt) (c_recorder : r .recorder) (c_rst : r .rst) (c_pwr : r .pwr) (c_session : r .session) (c_pins : r .pins) (c_CIP_LANE_STAT_NONCE_REFUSALS : r (.reg Reg.CIP_LANE_STAT_NONCE_REFUSALS.addr)) (c_FLT_ESC_STAT_ESCALATIONS : r (.reg Reg.FLT_ESC_STAT_ESCALATIONS.addr)) (c_FLT_IRQ_CNT_COUNT : r (.reg Reg.FLT_IRQ_CNT_COUNT.addr)) (c_FLT_SWATCH_CTL_ARM : r (.reg Reg.FLT_SWATCH_CTL_ARM.addr)) (c_LDG_GAUGE_STAT_FALLBACKS : r (.reg Reg.LDG_GAUGE_STAT_FALLBACKS.addr)) (c_LDG_UNMETERED_LINES : r (.reg Reg.LDG_UNMETERED_LINES.addr)) (c_PWR_SHED_CNT_SHED_WRITES : r (.reg Reg.PWR_SHED_CNT_SHED_WRITES.addr)) (c_REC_COAL_STAT_SUMMARIES : r (.reg Reg.REC_COAL_STAT_SUMMARIES.addr)) :
    KeepsN r o (execFaultEvent evs s) := by
  unfold execFaultEvent
  repeat' first
    | with_reducible apply KeepsN.mk | with_reducible apply KeepsN.fault | with_reducible assumption
    | with_reducible apply keeps_reactAll | with_reducible apply keeps_onRec | with_reducible apply keeps_acceptAll
    | with_reducible apply keeps_onFlt | with_reducible apply keeps_enterFallback | with_reducible apply keeps_foldl
    | with_reducible apply keeps2_foldl | (with_reducible intro _; beta_reduce)
    | with_reducible refine Keeps2.of (by assumption) ?_ | with_reducible apply Keeps2.snd
    | (extract_lets +onlyGivenNames x; refine @Keeps.cut r o _ x ?_ (fun hx => ?_); rotate_left; clear_value x; rotate_right; dsimp -zeta only [x])
    | (extract_lets +onlyGivenNames x; refine @Keeps2.cut r o _ _ x ?_ (fun hx => ?_); rotate_left; clear_value x; rotate_right; dsimp -zeta only [x])
    | (extract_lets +onlyGivenNames x; clear_value x) | split

theorem keeps_clearSticky (src : ℕ) (h : Keeps r o s) (c_flt : r .flt) :
    Keeps r o (State.clearSticky s src) := by
  unfold State.clearSticky
  repeat' first
    | with_reducible assumption | with_reducible apply keeps_onFlt | with_reducible apply keeps_foldl
    | with_reducible apply keeps2_foldl | (with_reducible intro _; beta_reduce)
    | with_reducible refine Keeps2.of (by assumption) ?_ | with_reducible apply Keeps2.snd
    | (extract_lets +onlyGivenNames x; refine @Keeps.cut r o _ x ?_ (fun hx => ?_); rotate_left; clear_value x; rotate_right; dsimp -zeta only [x])
    | (extract_lets +onlyGivenNames x; clear_value x) | split

theorem keeps_stickyWrite (word : ℕ) (mask : W32) (h : Keeps r o s) (c_flt : r .flt) :
    Keeps r o (State.stickyWrite s word mask) := by
  unfold State.stickyWrite
  repeat' first
    | with_reducible assumption | with_reducible apply keeps_settleGroups | with_reducible apply keeps_clearSticky
    | with_reducible apply keeps_foldl | with_reducible apply keeps2_foldl | (with_reducible intro _; beta_reduce)

theorem keeps_execStickyClear (word : ℕ) (mask : W32) (h : Keeps r o s) (c_flt : r .flt) :
    KeepsN r o (execStickyClear word mask s) := by
  unfold execStickyClear
  repeat' first
    | with_reducible apply KeepsN.mk | with_reducible apply KeepsN.fault | with_reducible assumption
    | with_reducible apply keeps_stickyWrite

theorem keeps_clearFirst (h : Keeps r o s) (c_flt : r .flt) :
    Keeps r o (State.clearFirst s) := by
  unfold State.clearFirst
  repeat' first
    | with_reducible assumption | with_reducible apply keeps_onFlt

theorem keeps_execFltFirstClear (h : Keeps r o s) (c_flt : r .flt) :
    KeepsN r o (execFltFirstClear s) := by
  unfold execFltFirstClear
  repeat' first
    | with_reducible apply KeepsN.mk | with_reducible apply KeepsN.fault | with_reducible assumption
    | with_reducible apply keeps_clearFirst

theorem keeps_errOutWrite (code : ℕ) (h : Keeps r o s) (c_flt : r .flt) :
    Keeps r o (State.errOutWrite s code) := by
  unfold State.errOutWrite
  repeat' first
    | with_reducible assumption | with_reducible apply keeps_onFlt | with_reducible apply keeps_foldl
    | with_reducible apply keeps2_foldl | (with_reducible intro _; beta_reduce)
    | with_reducible refine Keeps2.of (by assumption) ?_ | with_reducible apply Keeps2.snd
    | (extract_lets +onlyGivenNames x; refine @Keeps.cut r o _ x ?_ (fun hx => ?_); rotate_left; clear_value x; rotate_right; dsimp -zeta only [x])
    | (extract_lets +onlyGivenNames x; clear_value x) | split

theorem keeps_execErrOutRelease (code : ℕ) (h : Keeps r o s) (c_flt : r .flt) :
    KeepsN r o (execErrOutRelease code s) := by
  unfold execErrOutRelease
  repeat' first
    | with_reducible apply KeepsN.mk | with_reducible apply KeepsN.fault | with_reducible assumption
    | with_reducible apply keeps_errOutWrite

theorem keeps_swatchCtlWrite (value : W32) (h : Keeps r o s) (c_FLT_SWATCH_CTL_ARM : r (.reg Reg.FLT_SWATCH_CTL_ARM.addr)) :
    Keeps r o (State.swatchCtlWrite s value) := by
  unfold State.swatchCtlWrite
  repeat' first
    | with_reducible assumption | exact c_FLT_SWATCH_CTL_ARM | with_reducible apply keeps_setFld

theorem keeps_execFltSwatchArm (value : W32) (h : Keeps r o s) (c_FLT_SWATCH_CTL_ARM : r (.reg Reg.FLT_SWATCH_CTL_ARM.addr)) :
    KeepsN r o (execFltSwatchArm value s) := by
  unfold execFltSwatchArm
  repeat' first
    | with_reducible apply KeepsN.mk | with_reducible apply KeepsN.fault | with_reducible assumption
    | with_reducible apply keeps_swatchCtlWrite

theorem keeps_valSwatchWrite (value : W32) (h : Keeps r o s) (c_VAL_SWATCH_ARM : r (.reg Reg.VAL_SWATCH_ARM.addr)) :
    Keeps r o (State.valSwatchWrite s value) := by
  unfold State.valSwatchWrite
  repeat' first
    | with_reducible assumption | exact c_VAL_SWATCH_ARM | with_reducible apply keeps_setFld

theorem keeps_execValSwatchArm (value : W32) (h : Keeps r o s) (c_VAL_SWATCH_ARM : r (.reg Reg.VAL_SWATCH_ARM.addr)) :
    KeepsN r o (execValSwatchArm value s) := by
  unfold execValSwatchArm
  repeat' first
    | with_reducible apply KeepsN.mk | with_reducible apply KeepsN.fault | with_reducible assumption
    | with_reducible apply keeps_valSwatchWrite

end Sys2Proof.Machine
end

