-- ==== Sys2Proof/Laws/KeepFlash.lean ====
section
/-! SUPPORT. What each operation of Machine/Flash.lean may change. -/

set_option linter.unusedTactic false
set_option linter.unreachableTactic false

namespace Sys2Proof.Machine

variable {r : Part → Prop} {o s : State}

theorem keeps_padStream (stream : ℕ) (id : ℕ) (q : ℕ) (y4 : ℕ) (h : Keeps r o s) (c_ldg : r .ldg) (c_ftl : r .ftl) (c_flt : r .flt) (c_LDG_GAUGE_STAT_FALLBACKS : r (.reg Reg.LDG_GAUGE_STAT_FALLBACKS.addr)) :
    Keeps r o (State.padStream s stream id q y4) := by
  induction y4 generalizing s stream id q with
  | zero =>
    unfold State.padStream
    repeat' first
      | with_reducible assumption | with_reducible apply ih | with_reducible apply keeps_mapSkein
      | with_reducible apply keeps_setStream | with_reducible apply keeps_newRun | with_reducible apply keeps_foldl
      | with_reducible apply keeps2_foldl | (with_reducible intro _; beta_reduce)
      | with_reducible refine Keeps2.of (by assumption) ?_ | with_reducible apply Keeps2.snd
      | with_reducible refine KeepsO.of (by assumption) ?_ | with_reducible apply keeps_getD
      | (extract_lets +onlyGivenNames x; refine @Keeps.cut r o _ x ?_ (fun hx => ?_); rotate_left; clear_value x; rotate_right; dsimp -zeta only [x])
      | (extract_lets +onlyGivenNames x; refine @KeepsO.cut r o _ x ?_ (fun hx => ?_); rotate_left; clear_value x; rotate_right; dsimp -zeta only [x])
      | (extract_lets +onlyGivenNames x; clear_value x) | split | with_reducible apply Keeps2.mk
  | succ _ ih =>
    unfold State.padStream
    repeat' first
      | with_reducible assumption | with_reducible apply ih | with_reducible apply keeps_mapSkein
      | with_reducible apply keeps_setStream | with_reducible apply keeps_newRun | with_reducible apply keeps_foldl
      | with_reducible apply keeps2_foldl | (with_reducible intro _; beta_reduce)
      | with_reducible refine Keeps2.of (by assumption) ?_ | with_reducible apply Keeps2.snd
      | with_reducible refine KeepsO.of (by assumption) ?_ | with_reducible apply keeps_getD
      | (extract_lets +onlyGivenNames x; refine @Keeps.cut r o _ x ?_ (fun hx => ?_); rotate_left; clear_value x; rotate_right; dsimp -zeta only [x])
      | (extract_lets +onlyGivenNames x; refine @KeepsO.cut r o _ x ?_ (fun hx => ?_); rotate_left; clear_value x; rotate_right; dsimp -zeta only [x])
      | (extract_lets +onlyGivenNames x; clear_value x) | split | with_reducible apply Keeps2.mk

theorem keeps_copyRoom (stream : ℕ) (words : ℕ) (h : Keeps r o s) (c_ldg : r .ldg) (c_ftl : r .ftl) (c_flt : r .flt) (c_LDG_GAUGE_STAT_FALLBACKS : r (.reg Reg.LDG_GAUGE_STAT_FALLBACKS.addr)) :
    KeepsO3 r o (State.copyRoom s stream words) := by
  unfold State.copyRoom
  extract_lets unit start take cur fits
  have ht : ∀ v i, Keeps r o v → Keeps3 r o (take v i) := fun v i hv => by
    dsimp only [Keeps3, take]
    apply keeps_onSbQuiet <;> assumption
  clear_value take fits
  split
  · intro t e
    cases hc : cur with
    | none => rw [hc] at e; cases e
    | some i => rw [hc] at e; cases e; exact ht s i h
  · intro t e
    cases hc : s.openNew stream cur State.pickFree s.openFuel with
    | none => rw [hc] at e; cases e
    | some x =>
      rw [hc] at e
      cases e
      have hx : Keeps r o x.2 := KeepsO2.of (a := x.1) hc (by apply keeps_openNew <;> assumption)
      exact ht _ _ (by apply keeps_setStream <;> assumption)

theorem keeps_fetchObjects (id : ℕ) (q : ℕ) (h : Keeps r o s) (c_nfe : r .nfe) (c_sch : r .sch) (c_idx : r .idx) (c_val : r .val) (c_cip : r .cip) (c_ldg : r .ldg) (c_ftl : r .ftl) (c_peer : r .peer) (c_flt : r .flt) (c_CIP_AUTH_STAT_AUTH_FAILURES : r (.reg Reg.CIP_AUTH_STAT_AUTH_FAILURES.addr)) (c_CIP_LANE_STAT_NONCE_REFUSALS : r (.reg Reg.CIP_LANE_STAT_NONCE_REFUSALS.addr)) (c_FLT_SWATCH_CTL_ARM : r (.reg Reg.FLT_SWATCH_CTL_ARM.addr)) (c_LDG_GAUGE_STAT_FALLBACKS : r (.reg Reg.LDG_GAUGE_STAT_FALLBACKS.addr)) (c_LDG_UNMETERED_LINES : r (.reg Reg.LDG_UNMETERED_LINES.addr)) (c_PEER_REPAIR_STAT_REPAIRS : r (.reg Reg.PEER_REPAIR_STAT_REPAIRS.addr)) (c_PWR_SHED_CNT_SHED_WRITES : r (.reg Reg.PWR_SHED_CNT_SHED_WRITES.addr)) (c_VAL_E2E_STAT_E2E_MISMATCHES : r (.reg Reg.VAL_E2E_STAT_E2E_MISMATCHES.addr)) (c_VAL_READ_STAT_UNRECOVERABLE : r (.reg Reg.VAL_READ_STAT_UNRECOVERABLE.addr)) :
    Keeps r o (State.fetchObjects s id q) := by
  unfold State.fetchObjects
  repeat' first
    | with_reducible assumption | with_reducible apply keeps_upkeepRepair | with_reducible apply keeps_foldl
    | with_reducible apply keeps2_foldl | (with_reducible intro _; beta_reduce)

theorem keeps_rebuildLost (id : ℕ) (q : ℕ) (h : Keeps r o s) (c_nfe : r .nfe) (c_sch : r .sch) (c_idx : r .idx) (c_val : r .val) (c_cip : r .cip) (c_ldg : r .ldg) (c_ftl : r .ftl) (c_peer : r .peer) (c_flt : r .flt) (c_CIP_AUTH_STAT_AUTH_FAILURES : r (.reg Reg.CIP_AUTH_STAT_AUTH_FAILURES.addr)) (c_CIP_LANE_STAT_NONCE_REFUSALS : r (.reg Reg.CIP_LANE_STAT_NONCE_REFUSALS.addr)) (c_FLT_SWATCH_CTL_ARM : r (.reg Reg.FLT_SWATCH_CTL_ARM.addr)) (c_LDG_GAUGE_STAT_FALLBACKS : r (.reg Reg.LDG_GAUGE_STAT_FALLBACKS.addr)) (c_LDG_UNMETERED_LINES : r (.reg Reg.LDG_UNMETERED_LINES.addr)) (c_PEER_REPAIR_STAT_REPAIRS : r (.reg Reg.PEER_REPAIR_STAT_REPAIRS.addr)) (c_PWR_SHED_CNT_SHED_WRITES : r (.reg Reg.PWR_SHED_CNT_SHED_WRITES.addr)) (c_VAL_E2E_STAT_E2E_MISMATCHES : r (.reg Reg.VAL_E2E_STAT_E2E_MISMATCHES.addr)) (c_VAL_READ_STAT_UNRECOVERABLE : r (.reg Reg.VAL_READ_STAT_UNRECOVERABLE.addr)) :
    Keeps r o (State.rebuildLost s id q) := by
  unfold State.rebuildLost
  repeat' first
    | with_reducible assumption | with_reducible apply keeps_onSbQuiet | with_reducible apply keeps_raise
    | with_reducible apply keeps_fetchObjects

theorem keeps_failRebuilds (loc : Loc) (h : Keeps r o s) (c_nfe : r .nfe) (c_sch : r .sch) (c_idx : r .idx) (c_val : r .val) (c_cip : r .cip) (c_ldg : r .ldg) (c_ftl : r .ftl) (c_peer : r .peer) (c_flt : r .flt) (c_CIP_AUTH_STAT_AUTH_FAILURES : r (.reg Reg.CIP_AUTH_STAT_AUTH_FAILURES.addr)) (c_CIP_LANE_STAT_NONCE_REFUSALS : r (.reg Reg.CIP_LANE_STAT_NONCE_REFUSALS.addr)) (c_FLT_SWATCH_CTL_ARM : r (.reg Reg.FLT_SWATCH_CTL_ARM.addr)) (c_LDG_GAUGE_STAT_FALLBACKS : r (.reg Reg.LDG_GAUGE_STAT_FALLBACKS.addr)) (c_LDG_UNMETERED_LINES : r (.reg Reg.LDG_UNMETERED_LINES.addr)) (c_PEER_REPAIR_STAT_REPAIRS : r (.reg Reg.PEER_REPAIR_STAT_REPAIRS.addr)) (c_PWR_SHED_CNT_SHED_WRITES : r (.reg Reg.PWR_SHED_CNT_SHED_WRITES.addr)) (c_VAL_E2E_STAT_E2E_MISMATCHES : r (.reg Reg.VAL_E2E_STAT_E2E_MISMATCHES.addr)) (c_VAL_READ_STAT_UNRECOVERABLE : r (.reg Reg.VAL_READ_STAT_UNRECOVERABLE.addr)) :
    Keeps r o (State.failRebuilds s loc) := by
  unfold State.failRebuilds
  repeat' first
    | with_reducible assumption | with_reducible apply keeps_rebuildLost | with_reducible apply keeps_foldl
    | with_reducible apply keeps2_foldl | (with_reducible intro _; beta_reduce)
    | with_reducible refine Keeps2.of (by assumption) ?_ | with_reducible apply Keeps2.snd
    | (extract_lets +onlyGivenNames x; refine @Keeps.cut r o _ x ?_ (fun hx => ?_); rotate_left; clear_value x; rotate_right; dsimp -zeta only [x])
    | (extract_lets +onlyGivenNames x; clear_value x) | split

theorem keeps_readOut1 (x : DirRec × ℕ × Variant × ℕ × Seg) (h : Keeps r o s) (c_nfe : r .nfe) (c_sch : r .sch) (c_idx : r .idx) (c_val : r .val) (c_cip : r .cip) (c_ldg : r .ldg) (c_ftl : r .ftl) (c_peer : r .peer) (c_flt : r .flt) (c_recorder : r .recorder) (c_CIP_AUTH_STAT_AUTH_FAILURES : r (.reg Reg.CIP_AUTH_STAT_AUTH_FAILURES.addr)) (c_CIP_LANE_STAT_NONCE_REFUSALS : r (.reg Reg.CIP_LANE_STAT_NONCE_REFUSALS.addr)) (c_FLT_SWATCH_CTL_ARM : r (.reg Reg.FLT_SWATCH_CTL_ARM.addr)) (c_LDG_GAUGE_STAT_FALLBACKS : r (.reg Reg.LDG_GAUGE_STAT_FALLBACKS.addr)) (c_LDG_UNMETERED_LINES : r (.reg Reg.LDG_UNMETERED_LINES.addr)) (c_PEER_REPAIR_STAT_REPAIRS : r (.reg Reg.PEER_REPAIR_STAT_REPAIRS.addr)) (c_PWR_SHED_CNT_SHED_WRITES : r (.reg Reg.PWR_SHED_CNT_SHED_WRITES.addr)) (c_REC_LOST_STAT_SRAM_OVERWRITTEN : r (.reg Reg.REC_LOST_STAT_SRAM_OVERWRITTEN.addr)) (c_VAL_E2E_STAT_E2E_MISMATCHES : r (.reg Reg.VAL_E2E_STAT_E2E_MISMATCHES.addr)) (c_VAL_READ_STAT_UNRECOVERABLE : r (.reg Reg.VAL_READ_STAT_UNRECOVERABLE.addr)) :
    Keeps2 r o (State.readOut1 s x) := by
  unfold State.readOut1
  repeat' first
    | with_reducible assumption | with_reducible apply keeps_grantFch | with_reducible apply keeps_failRebuilds
    | with_reducible apply keeps_grantVal | with_reducible apply keeps_readLines
    | with_reducible apply keeps_upkeepRepair | with_reducible apply keeps_fillLanes
    | with_reducible apply keeps_onCip | with_reducible apply keeps_foldl | with_reducible apply keeps2_foldl
    | (with_reducible intro _; beta_reduce) | with_reducible refine Keeps2.of (by assumption) ?_
    | with_reducible apply Keeps2.snd
    | (extract_lets +onlyGivenNames x; refine @Keeps.cut r o _ x ?_ (fun hx => ?_); rotate_left; clear_value x; rotate_right; dsimp -zeta only [x])
    | (extract_lets +onlyGivenNames x; refine @Keeps2.cut r o _ _ x ?_ (fun hx => ?_); rotate_left; clear_value x; rotate_right; dsimp -zeta only [x])
    | (extract_lets +onlyGivenNames x; clear_value x) | split | with_reducible apply Keeps2.mk

theorem keeps_dropCheck (loc : Loc) (h : Keeps r o s) (c_cip : r .cip) :
    Keeps r o (State.dropCheck s loc) := by
  unfold State.dropCheck
  repeat' first
    | with_reducible assumption | with_reducible apply keeps_onCip

theorem keeps_readOut (src : ℕ) (skein : ℕ) (h : Keeps r o s) (c_nfe : r .nfe) (c_sch : r .sch) (c_idx : r .idx) (c_val : r .val) (c_cip : r .cip) (c_ldg : r .ldg) (c_ftl : r .ftl) (c_peer : r .peer) (c_flt : r .flt) (c_recorder : r .recorder) (c_CIP_AUTH_STAT_AUTH_FAILURES : r (.reg Reg.CIP_AUTH_STAT_AUTH_FAILURES.addr)) (c_CIP_LANE_STAT_NONCE_REFUSALS : r (.reg Reg.CIP_LANE_STAT_NONCE_REFUSALS.addr)) (c_FLT_SWATCH_CTL_ARM : r (.reg Reg.FLT_SWATCH_CTL_ARM.addr)) (c_LDG_GAUGE_STAT_FALLBACKS : r (.reg Reg.LDG_GAUGE_STAT_FALLBACKS.addr)) (c_LDG_UNMETERED_LINES : r (.reg Reg.LDG_UNMETERED_LINES.addr)) (c_PEER_REPAIR_STAT_REPAIRS : r (.reg Reg.PEER_REPAIR_STAT_REPAIRS.addr)) (c_PWR_SHED_CNT_SHED_WRITES : r (.reg Reg.PWR_SHED_CNT_SHED_WRITES.addr)) (c_REC_LOST_STAT_SRAM_OVERWRITTEN : r (.reg Reg.REC_LOST_STAT_SRAM_OVERWRITTEN.addr)) (c_VAL_E2E_STAT_E2E_MISMATCHES : r (.reg Reg.VAL_E2E_STAT_E2E_MISMATCHES.addr)) (c_VAL_READ_STAT_UNRECOVERABLE : r (.reg Reg.VAL_READ_STAT_UNRECOVERABLE.addr)) :
    Keeps2 r o (State.readOut s src skein) := by
  unfold State.readOut
  repeat' first
    | with_reducible assumption | with_reducible apply keeps_readOut1 | with_reducible apply keeps_foldl
    | with_reducible apply keeps2_foldl | (with_reducible intro _; beta_reduce)
    | with_reducible refine Keeps2.of (by assumption) ?_ | with_reducible apply Keeps2.snd
    | (extract_lets +onlyGivenNames x; refine @Keeps.cut r o _ x ?_ (fun hx => ?_); rotate_left; clear_value x; rotate_right; dsimp -zeta only [x])
    | (extract_lets +onlyGivenNames x; refine @Keeps2.cut r o _ _ x ?_ (fun hx => ?_); rotate_left; clear_value x; rotate_right; dsimp -zeta only [x])
    | (extract_lets +onlyGivenNames x; clear_value x) | split | with_reducible apply Keeps2.mk

theorem keeps_copyWord (id : ℕ) (q : ℕ) (tgt : ℕ) (q' : ℕ) (h : Keeps r o s) (c_nfe : r .nfe) (c_sch : r .sch) (c_idx : r .idx) (c_val : r .val) (c_cip : r .cip) (c_ldg : r .ldg) (c_ftl : r .ftl) (c_peer : r .peer) (c_flt : r .flt) (c_CIP_AUTH_STAT_AUTH_FAILURES : r (.reg Reg.CIP_AUTH_STAT_AUTH_FAILURES.addr)) (c_CIP_LANE_STAT_NONCE_REFUSALS : r (.reg Reg.CIP_LANE_STAT_NONCE_REFUSALS.addr)) (c_FLT_SWATCH_CTL_ARM : r (.reg Reg.FLT_SWATCH_CTL_ARM.addr)) (c_LDG_GAUGE_STAT_FALLBACKS : r (.reg Reg.LDG_GAUGE_STAT_FALLBACKS.addr)) (c_LDG_UNMETERED_LINES : r (.reg Reg.LDG_UNMETERED_LINES.addr)) (c_PEER_REPAIR_STAT_REPAIRS : r (.reg Reg.PEER_REPAIR_STAT_REPAIRS.addr)) (c_PWR_SHED_CNT_SHED_WRITES : r (.reg Reg.PWR_SHED_CNT_SHED_WRITES.addr)) (c_VAL_E2E_STAT_E2E_MISMATCHES : r (.reg Reg.VAL_E2E_STAT_E2E_MISMATCHES.addr)) (c_VAL_READ_STAT_UNRECOVERABLE : r (.reg Reg.VAL_READ_STAT_UNRECOVERABLE.addr)) :
    Keeps r o (State.copyWord s id q tgt q') := by
  unfold State.copyWord
  repeat' first
    | with_reducible assumption | with_reducible apply keeps_onSbQuiet | with_reducible apply keeps_rebuildLost
    | with_reducible apply keeps_foldl | with_reducible apply keeps2_foldl | (with_reducible intro _; beta_reduce)
    | with_reducible refine Keeps2.of (by assumption) ?_ | with_reducible apply Keeps2.snd
    | (extract_lets +onlyGivenNames x; refine @Keeps.cut r o _ x ?_ (fun hx => ?_); rotate_left; clear_value x; rotate_right; dsimp -zeta only [x])
    | (extract_lets +onlyGivenNames x; clear_value x) | split

theorem keeps_copySummary (src : ℕ) (tgt : ℕ) (skein : ℕ) (marks : List SumEntry) (ns : List ℕ) (h : Keeps r o s) (c_ftl : r .ftl) :
    Keeps r o (State.copySummary s src tgt skein marks ns) := by
  unfold State.copySummary
  repeat' first
    | with_reducible assumption | with_reducible apply keeps_onSbQuiet

theorem keeps_beginCopy (src : ℕ) (skein : ℕ) (h : Keeps r o s) (c_nfe : r .nfe) (c_sch : r .sch) (c_idx : r .idx) (c_val : r .val) (c_cip : r .cip) (c_ldg : r .ldg) (c_ftl : r .ftl) (c_peer : r .peer) (c_flt : r .flt) (c_recorder : r .recorder) (c_CIP_AUTH_STAT_AUTH_FAILURES : r (.reg Reg.CIP_AUTH_STAT_AUTH_FAILURES.addr)) (c_CIP_LANE_STAT_NONCE_REFUSALS : r (.reg Reg.CIP_LANE_STAT_NONCE_REFUSALS.addr)) (c_FLT_SWATCH_CTL_ARM : r (.reg Reg.FLT_SWATCH_CTL_ARM.addr)) (c_LDG_GAUGE_STAT_FALLBACKS : r (.reg Reg.LDG_GAUGE_STAT_FALLBACKS.addr)) (c_LDG_UNMETERED_LINES : r (.reg Reg.LDG_UNMETERED_LINES.addr)) (c_PEER_REPAIR_STAT_REPAIRS : r (.reg Reg.PEER_REPAIR_STAT_REPAIRS.addr)) (c_PWR_SHED_CNT_SHED_WRITES : r (.reg Reg.PWR_SHED_CNT_SHED_WRITES.addr)) (c_REC_LOST_STAT_SRAM_OVERWRITTEN : r (.reg Reg.REC_LOST_STAT_SRAM_OVERWRITTEN.addr)) (c_VAL_E2E_STAT_E2E_MISMATCHES : r (.reg Reg.VAL_E2E_STAT_E2E_MISMATCHES.addr)) (c_VAL_READ_STAT_UNRECOVERABLE : r (.reg Reg.VAL_READ_STAT_UNRECOVERABLE.addr)) :
    Keeps r o (State.beginCopy s src skein) := by
  unfold State.beginCopy
  repeat' first
    | with_reducible assumption | with_reducible apply keeps_readOut | with_reducible apply keeps_copySummary
    | with_reducible apply keeps_copyWord | with_reducible apply keeps_freeSkein | with_reducible apply keeps_onFtl
    | with_reducible apply keeps_onCip | with_reducible apply keeps_copyRoom | with_reducible apply keeps_foldl
    | with_reducible apply keeps2_foldl | (with_reducible intro _; beta_reduce)
    | with_reducible refine Keeps2.of (by assumption) ?_ | with_reducible apply Keeps2.snd
    | with_reducible refine KeepsO3.of (by assumption) ?_
    | (extract_lets +onlyGivenNames x; refine @Keeps.cut r o _ x ?_ (fun hx => ?_); rotate_left; clear_value x; rotate_right; dsimp -zeta only [x])
    | (extract_lets +onlyGivenNames x; refine @Keeps2.cut r o _ _ x ?_ (fun hx => ?_); rotate_left; clear_value x; rotate_right; dsimp -zeta only [x])
    | (extract_lets +onlyGivenNames x; clear_value x) | split

theorem keeps_copyOut (src : ℕ) (h : Keeps r o s) (c_nfe : r .nfe) (c_sch : r .sch) (c_idx : r .idx) (c_val : r .val) (c_cip : r .cip) (c_ldg : r .ldg) (c_ftl : r .ftl) (c_peer : r .peer) (c_flt : r .flt) (c_recorder : r .recorder) (c_CIP_AUTH_STAT_AUTH_FAILURES : r (.reg Reg.CIP_AUTH_STAT_AUTH_FAILURES.addr)) (c_CIP_LANE_STAT_NONCE_REFUSALS : r (.reg Reg.CIP_LANE_STAT_NONCE_REFUSALS.addr)) (c_FLT_SWATCH_CTL_ARM : r (.reg Reg.FLT_SWATCH_CTL_ARM.addr)) (c_LDG_GAUGE_STAT_FALLBACKS : r (.reg Reg.LDG_GAUGE_STAT_FALLBACKS.addr)) (c_LDG_UNMETERED_LINES : r (.reg Reg.LDG_UNMETERED_LINES.addr)) (c_PEER_REPAIR_STAT_REPAIRS : r (.reg Reg.PEER_REPAIR_STAT_REPAIRS.addr)) (c_PWR_SHED_CNT_SHED_WRITES : r (.reg Reg.PWR_SHED_CNT_SHED_WRITES.addr)) (c_REC_LOST_STAT_SRAM_OVERWRITTEN : r (.reg Reg.REC_LOST_STAT_SRAM_OVERWRITTEN.addr)) (c_VAL_E2E_STAT_E2E_MISMATCHES : r (.reg Reg.VAL_E2E_STAT_E2E_MISMATCHES.addr)) (c_VAL_READ_STAT_UNRECOVERABLE : r (.reg Reg.VAL_READ_STAT_UNRECOVERABLE.addr)) :
    Keeps r o (State.copyOut s src) := by
  unfold State.copyOut
  repeat' first
    | with_reducible assumption | with_reducible apply keeps_freeSkein | with_reducible apply keeps_beginCopy
    | with_reducible apply keeps_foldl | with_reducible apply keeps2_foldl | (with_reducible intro _; beta_reduce)
    | with_reducible refine Keeps2.of (by assumption) ?_ | with_reducible apply Keeps2.snd
    | (extract_lets +onlyGivenNames x; refine @Keeps.cut r o _ x ?_ (fun hx => ?_); rotate_left; clear_value x; rotate_right; dsimp -zeta only [x])
    | (extract_lets +onlyGivenNames x; clear_value x) | split

theorem keeps_moveRow (m : ℕ × ℕ) (h : Keeps r o s) (c_nfe : r .nfe) (c_sch : r .sch) (c_idx : r .idx) (c_val : r .val) (c_cip : r .cip) (c_ldg : r .ldg) (c_ftl : r .ftl) (c_peer : r .peer) (c_flt : r .flt) (c_recorder : r .recorder) (c_CIP_AUTH_STAT_AUTH_FAILURES : r (.reg Reg.CIP_AUTH_STAT_AUTH_FAILURES.addr)) (c_CIP_LANE_STAT_NONCE_REFUSALS : r (.reg Reg.CIP_LANE_STAT_NONCE_REFUSALS.addr)) (c_FLT_SWATCH_CTL_ARM : r (.reg Reg.FLT_SWATCH_CTL_ARM.addr)) (c_LDG_GAUGE_STAT_FALLBACKS : r (.reg Reg.LDG_GAUGE_STAT_FALLBACKS.addr)) (c_LDG_UNMETERED_LINES : r (.reg Reg.LDG_UNMETERED_LINES.addr)) (c_PEER_REPAIR_STAT_REPAIRS : r (.reg Reg.PEER_REPAIR_STAT_REPAIRS.addr)) (c_PWR_SHED_CNT_SHED_WRITES : r (.reg Reg.PWR_SHED_CNT_SHED_WRITES.addr)) (c_REC_LOST_STAT_SRAM_OVERWRITTEN : r (.reg Reg.REC_LOST_STAT_SRAM_OVERWRITTEN.addr)) (c_VAL_E2E_STAT_E2E_MISMATCHES : r (.reg Reg.VAL_E2E_STAT_E2E_MISMATCHES.addr)) (c_VAL_READ_STAT_UNRECOVERABLE : r (.reg Reg.VAL_READ_STAT_UNRECOVERABLE.addr)) :
    Keeps r o (State.moveRow s m) := by
  unfold State.moveRow
  repeat' first
    | with_reducible assumption | with_reducible apply keeps_beginCopy | with_reducible apply keeps_foldl
    | with_reducible apply keeps2_foldl | (with_reducible intro _; beta_reduce)

theorem keeps_queueMove (id : ℕ) (row : ℕ) (h : Keeps r o s) (c_nfe : r .nfe) (c_sch : r .sch) (c_idx : r .idx) (c_val : r .val) (c_cip : r .cip) (c_ldg : r .ldg) (c_ftl : r .ftl) (c_peer : r .peer) (c_flt : r .flt) (c_recorder : r .recorder) (c_CIP_AUTH_STAT_AUTH_FAILURES : r (.reg Reg.CIP_AUTH_STAT_AUTH_FAILURES.addr)) (c_CIP_LANE_STAT_NONCE_REFUSALS : r (.reg Reg.CIP_LANE_STAT_NONCE_REFUSALS.addr)) (c_FLT_SWATCH_CTL_ARM : r (.reg Reg.FLT_SWATCH_CTL_ARM.addr)) (c_LDG_GAUGE_STAT_FALLBACKS : r (.reg Reg.LDG_GAUGE_STAT_FALLBACKS.addr)) (c_LDG_UNMETERED_LINES : r (.reg Reg.LDG_UNMETERED_LINES.addr)) (c_PEER_REPAIR_STAT_REPAIRS : r (.reg Reg.PEER_REPAIR_STAT_REPAIRS.addr)) (c_PWR_SHED_CNT_SHED_WRITES : r (.reg Reg.PWR_SHED_CNT_SHED_WRITES.addr)) (c_REC_LOST_STAT_SRAM_OVERWRITTEN : r (.reg Reg.REC_LOST_STAT_SRAM_OVERWRITTEN.addr)) (c_VAL_E2E_STAT_E2E_MISMATCHES : r (.reg Reg.VAL_E2E_STAT_E2E_MISMATCHES.addr)) (c_VAL_READ_STAT_UNRECOVERABLE : r (.reg Reg.VAL_READ_STAT_UNRECOVERABLE.addr)) :
    Keeps r o (State.queueMove s id row) := by
  unfold State.queueMove
  repeat' first
    | with_reducible assumption | with_reducible apply keeps_moveRow | with_reducible apply keeps_onFtl

theorem keeps_pumpCopies (h : Keeps r o s) (c_nfe : r .nfe) (c_sch : r .sch) (c_idx : r .idx) (c_val : r .val) (c_cip : r .cip) (c_ldg : r .ldg) (c_ftl : r .ftl) (c_peer : r .peer) (c_flt : r .flt) (c_recorder : r .recorder) (c_CIP_AUTH_STAT_AUTH_FAILURES : r (.reg Reg.CIP_AUTH_STAT_AUTH_FAILURES.addr)) (c_CIP_LANE_STAT_NONCE_REFUSALS : r (.reg Reg.CIP_LANE_STAT_NONCE_REFUSALS.addr)) (c_FLT_SWATCH_CTL_ARM : r (.reg Reg.FLT_SWATCH_CTL_ARM.addr)) (c_LDG_GAUGE_STAT_FALLBACKS : r (.reg Reg.LDG_GAUGE_STAT_FALLBACKS.addr)) (c_LDG_UNMETERED_LINES : r (.reg Reg.LDG_UNMETERED_LINES.addr)) (c_PEER_REPAIR_STAT_REPAIRS : r (.reg Reg.PEER_REPAIR_STAT_REPAIRS.addr)) (c_PWR_SHED_CNT_SHED_WRITES : r (.reg Reg.PWR_SHED_CNT_SHED_WRITES.addr)) (c_REC_LOST_STAT_SRAM_OVERWRITTEN : r (.reg Reg.REC_LOST_STAT_SRAM_OVERWRITTEN.addr)) (c_VAL_E2E_STAT_E2E_MISMATCHES : r (.reg Reg.VAL_E2E_STAT_E2E_MISMATCHES.addr)) (c_VAL_READ_STAT_UNRECOVERABLE : r (.reg Reg.VAL_READ_STAT_UNRECOVERABLE.addr)) :
    Keeps r o (State.pumpCopies s) := by
  unfold State.pumpCopies
  repeat' first
    | with_reducible assumption | with_reducible apply keeps_copyOut | with_reducible apply keeps_moveRow
    | with_reducible apply keeps_foldl | with_reducible apply keeps2_foldl | (with_reducible intro _; beta_reduce)

theorem keeps_reclaim (id : ℕ) (h : Keeps r o s) (c_nfe : r .nfe) (c_sch : r .sch) (c_idx : r .idx) (c_val : r .val) (c_cip : r .cip) (c_ldg : r .ldg) (c_ftl : r .ftl) (c_peer : r .peer) (c_flt : r .flt) (c_recorder : r .recorder) (c_CIP_AUTH_STAT_AUTH_FAILURES : r (.reg Reg.CIP_AUTH_STAT_AUTH_FAILURES.addr)) (c_CIP_LANE_STAT_NONCE_REFUSALS : r (.reg Reg.CIP_LANE_STAT_NONCE_REFUSALS.addr)) (c_FLT_SWATCH_CTL_ARM : r (.reg Reg.FLT_SWATCH_CTL_ARM.addr)) (c_LDG_GAUGE_STAT_FALLBACKS : r (.reg Reg.LDG_GAUGE_STAT_FALLBACKS.addr)) (c_LDG_UNMETERED_LINES : r (.reg Reg.LDG_UNMETERED_LINES.addr)) (c_PEER_REPAIR_STAT_REPAIRS : r (.reg Reg.PEER_REPAIR_STAT_REPAIRS.addr)) (c_PWR_SHED_CNT_SHED_WRITES : r (.reg Reg.PWR_SHED_CNT_SHED_WRITES.addr)) (c_REC_LOST_STAT_SRAM_OVERWRITTEN : r (.reg Reg.REC_LOST_STAT_SRAM_OVERWRITTEN.addr)) (c_VAL_E2E_STAT_E2E_MISMATCHES : r (.reg Reg.VAL_E2E_STAT_E2E_MISMATCHES.addr)) (c_VAL_READ_STAT_UNRECOVERABLE : r (.reg Reg.VAL_READ_STAT_UNRECOVERABLE.addr)) :
    Keeps r o (State.reclaim s id) := by
  unfold State.reclaim
  repeat' first
    | with_reducible assumption | with_reducible apply keeps_onSb | with_reducible apply keeps_journalSb
    | with_reducible apply keeps_copyOut

theorem keeps_countRefresh (id : ℕ) (pos : ℕ) (h : Keeps r o s) (c_ldg : r .ldg) (c_ftl : r .ftl) (c_flt : r .flt) (c_LDG_GAUGE_STAT_FALLBACKS : r (.reg Reg.LDG_GAUGE_STAT_FALLBACKS.addr)) :
    Keeps r o (State.countRefresh s id pos) := by
  unfold State.countRefresh
  repeat' first
    | with_reducible assumption | with_reducible apply keeps_onSbQuiet | with_reducible apply keeps_onSb
    | with_reducible apply keeps_raise | with_reducible apply keeps_onFtl | with_reducible apply keeps_foldl
    | with_reducible apply keeps2_foldl | (with_reducible intro _; beta_reduce)
    | with_reducible refine Keeps2.of (by assumption) ?_ | with_reducible apply Keeps2.snd
    | (extract_lets +onlyGivenNames x; refine @Keeps.cut r o _ x ?_ (fun hx => ?_); rotate_left; clear_value x; rotate_right; dsimp -zeta only [x])
    | (extract_lets +onlyGivenNames x; clear_value x) | split

theorem keeps_dropCopy (c : SkeinCopy) (h : Keeps r o s) (c_ldg : r .ldg) (c_ftl : r .ftl) (c_flt : r .flt) (c_LDG_GAUGE_STAT_FALLBACKS : r (.reg Reg.LDG_GAUGE_STAT_FALLBACKS.addr)) :
    Keeps r o (State.dropCopy s c) := by
  unfold State.dropCopy
  repeat' first
    | with_reducible assumption | with_reducible apply keeps_countRefresh | with_reducible apply keeps_onFtl
    | with_reducible apply keeps_foldl | with_reducible apply keeps2_foldl | (with_reducible intro _; beta_reduce)

theorem keeps_switchCopy (c : SkeinCopy) (h : Keeps r o s) (c_ldg : r .ldg) (c_ftl : r .ftl) (c_flt : r .flt) (c_LDG_GAUGE_STAT_FALLBACKS : r (.reg Reg.LDG_GAUGE_STAT_FALLBACKS.addr)) :
    Keeps r o (State.switchCopy s c) := by
  unfold State.switchCopy
  repeat' first
    | with_reducible assumption | with_reducible apply keeps_journalStitches | with_reducible apply keeps_freeSkein
    | with_reducible apply keeps_onFtl | with_reducible apply keeps_journalSkein | with_reducible apply keeps_foldl
    | with_reducible apply keeps2_foldl | (with_reducible intro _; beta_reduce)
    | with_reducible refine Keeps2.of (by assumption) ?_ | with_reducible apply Keeps2.snd
    | (extract_lets +onlyGivenNames x; refine @Keeps.cut r o _ x ?_ (fun hx => ?_); rotate_left; clear_value x; rotate_right; dsimp -zeta only [x])
    | (extract_lets +onlyGivenNames x; clear_value x) | split

theorem keeps_writePar (id : ℕ) (row : ℕ) (mask : BitVec 16) (h : Keeps r o s) (c_ldg : r .ldg) (c_ftl : r .ftl) (c_flt : r .flt) (c_LDG_GAUGE_STAT_FALLBACKS : r (.reg Reg.LDG_GAUGE_STAT_FALLBACKS.addr)) :
    Keeps r o (State.writePar s id row mask) := by
  unfold State.writePar
  extract_lets cur fits put
  have ht : ∀ v i, Keeps r o v → Keeps r o (put v i) := fun v i hv => by
    dsimp only [put]
    apply keeps_onFtl
    · apply keeps_onSbQuiet <;> assumption
    · assumption
  clear_value put
  obtain ⟨c, hc⟩ : ∃ c, c = cur := ⟨_, rfl⟩
  obtain ⟨f, hf⟩ : ∃ f, f = fits := ⟨_, rfl⟩
  rw [← hc, ← hf]
  split
  · exact ht _ _ h
  · split
    · exact h
    · split
      · exact h
      · rename_i hx
        have hw := KeepsO2.of hx (show KeepsO2 r o _ by apply keeps_openNew <;> assumption)
        apply ht
        rename_i i w
        have hz : Keeps r o (w.setStream 6 ⟨noSkein, 1048576, some i⟩) := by apply keeps_setStream <;> assumption
        split
        · exact keeps_raise _ _ hz c_flt
        · exact hz

theorem keeps_dropParSbs (h : Keeps r o s) (c_ldg : r .ldg) (c_ftl : r .ftl) (c_flt : r .flt) (c_LDG_GAUGE_STAT_FALLBACKS : r (.reg Reg.LDG_GAUGE_STAT_FALLBACKS.addr)) :
    Keeps r o (State.dropParSbs s) := by
  unfold State.dropParSbs
  repeat' first
    | with_reducible assumption | with_reducible apply keeps_onSb | with_reducible apply keeps_foldl
    | with_reducible apply keeps2_foldl | (with_reducible intro _; beta_reduce)

theorem keeps_dropReleased (h : Keeps r o s) (c_ldg : r .ldg) (c_ftl : r .ftl) (c_flt : r .flt) (c_LDG_GAUGE_STAT_FALLBACKS : r (.reg Reg.LDG_GAUGE_STAT_FALLBACKS.addr)) :
    Keeps r o (State.dropReleased s) := by
  unfold State.dropReleased
  repeat' first
    | with_reducible assumption | with_reducible apply keeps_dropParSbs | with_reducible apply keeps_onFtl

theorem keeps_releasePar (id : ℕ) (h : Keeps r o s) (c_ldg : r .ldg) (c_ftl : r .ftl) (c_flt : r .flt) (c_LDG_GAUGE_STAT_FALLBACKS : r (.reg Reg.LDG_GAUGE_STAT_FALLBACKS.addr)) :
    Keeps r o (State.releasePar s id) := by
  unfold State.releasePar
  repeat' first
    | with_reducible assumption | with_reducible apply keeps_onFtl | with_reducible apply keeps_dropReleased

theorem keeps_endVerify (v : Verify) (h : Keeps r o s) (c_ldg : r .ldg) (c_ftl : r .ftl) (c_rings : r .rings) (c_dram : r .dram) (c_flt : r .flt) (c_FLT_SWATCH_CTL_ARM : r (.reg Reg.FLT_SWATCH_CTL_ARM.addr)) (c_LDG_GAUGE_STAT_FALLBACKS : r (.reg Reg.LDG_GAUGE_STAT_FALLBACKS.addr)) :
    Keeps r o (State.endVerify s v) := by
  unfold State.endVerify
  repeat' first
    | with_reducible assumption | with_reducible apply keeps_onSb | with_reducible apply keeps_journalSb
    | with_reducible apply keeps_finish | with_reducible apply keeps_releasePar | with_reducible apply keeps_onFtl
    | with_reducible apply keeps_foldl | with_reducible apply keeps2_foldl | (with_reducible intro _; beta_reduce)
    | with_reducible refine Keeps2.of (by assumption) ?_ | with_reducible apply Keeps2.snd
    | (extract_lets +onlyGivenNames x; refine @Keeps.cut r o _ x ?_ (fun hx => ?_); rotate_left; clear_value x; rotate_right; dsimp -zeta only [x])
    | (extract_lets +onlyGivenNames x; clear_value x) | split

theorem keeps_settleMoves (h : Keeps r o s) (c_ldg : r .ldg) (c_ftl : r .ftl) (c_rings : r .rings) (c_dram : r .dram) (c_flt : r .flt) (c_FLT_SWATCH_CTL_ARM : r (.reg Reg.FLT_SWATCH_CTL_ARM.addr)) (c_LDG_GAUGE_STAT_FALLBACKS : r (.reg Reg.LDG_GAUGE_STAT_FALLBACKS.addr)) :
    Keeps r o (State.settleMoves s) := by
  unfold State.settleMoves
  repeat' first
    | with_reducible assumption | with_reducible apply keeps_endVerify | with_reducible apply keeps_onFtl
    | with_reducible apply keeps_foldl | with_reducible apply keeps2_foldl | (with_reducible intro _; beta_reduce)

theorem keeps_switchCopies (h : Keeps r o s) (c_ldg : r .ldg) (c_ftl : r .ftl) (c_rings : r .rings) (c_dram : r .dram) (c_flt : r .flt) (c_FLT_SWATCH_CTL_ARM : r (.reg Reg.FLT_SWATCH_CTL_ARM.addr)) (c_LDG_GAUGE_STAT_FALLBACKS : r (.reg Reg.LDG_GAUGE_STAT_FALLBACKS.addr)) :
    Keeps r o (State.switchCopies s) := by
  unfold State.switchCopies
  repeat' first
    | with_reducible assumption | with_reducible apply keeps_settleMoves | with_reducible apply keeps_switchCopy
    | with_reducible apply keeps_dropCopy | with_reducible apply keeps_foldl | with_reducible apply keeps2_foldl
    | (with_reducible intro _; beta_reduce) | with_reducible refine Keeps2.of (by assumption) ?_
    | with_reducible apply Keeps2.snd
    | (extract_lets +onlyGivenNames x; refine @Keeps.cut r o _ x ?_ (fun hx => ?_); rotate_left; clear_value x; rotate_right; dsimp -zeta only [x])
    | (extract_lets +onlyGivenNames x; clear_value x) | split

theorem keeps_swatchRow (id : ℕ) (row : ℕ) (ps : BitVec 16) (h : Keeps r o s) (c_flt : r .flt) (c_FLT_SWATCH_CTL_ARM : r (.reg Reg.FLT_SWATCH_CTL_ARM.addr)) :
    Keeps r o (State.swatchRow s id row ps) := by
  unfold State.swatchRow
  repeat' first
    | with_reducible assumption | with_reducible apply keeps_swatch | with_reducible apply keeps_onFlt
    | with_reducible apply keeps_foldl | with_reducible apply keeps2_foldl | (with_reducible intro _; beta_reduce)
    | with_reducible refine Keeps2.of (by assumption) ?_ | with_reducible apply Keeps2.snd
    | (extract_lets +onlyGivenNames x; refine @Keeps.cut r o _ x ?_ (fun hx => ?_); rotate_left; clear_value x; rotate_right; dsimp -zeta only [x])
    | (extract_lets +onlyGivenNames x; refine @Keeps2.cut r o _ _ x ?_ (fun hx => ?_); rotate_left; clear_value x; rotate_right; dsimp -zeta only [x])
    | (extract_lets +onlyGivenNames x; clear_value x) | split

theorem keeps_writePages (id : ℕ) (rows : List ℕ) (ps : BitVec 16) (mask : BitVec 16) (h : Keeps r o s) (c_ftl : r .ftl) :
    Keeps r o (State.writePages s id rows ps mask) := by
  unfold State.writePages
  repeat' first
    | with_reducible assumption | with_reducible apply keeps_onSbQuiet

theorem keeps_unstage (id : ℕ) (h : Keeps r o s) (c_ftl : r .ftl) :
    Keeps r o (State.unstage s id) := by
  unfold State.unstage
  repeat' first
    | with_reducible assumption | with_reducible apply keeps_onSbQuiet | with_reducible apply keeps_foldl
    | with_reducible apply keeps2_foldl | (with_reducible intro _; beta_reduce)
    | with_reducible refine Keeps2.of (by assumption) ?_ | with_reducible apply Keeps2.snd
    | (extract_lets +onlyGivenNames x; refine @Keeps.cut r o _ x ?_ (fun hx => ?_); rotate_left; clear_value x; rotate_right; dsimp -zeta only [x])
    | (extract_lets +onlyGivenNames x; clear_value x) | split

theorem keeps_rowsParity (id : ℕ) (rows : List ℕ) (mask : BitVec 16) (h : Keeps r o s) (c_ldg : r .ldg) (c_ftl : r .ftl) (c_flt : r .flt) (c_LDG_GAUGE_STAT_FALLBACKS : r (.reg Reg.LDG_GAUGE_STAT_FALLBACKS.addr)) :
    Keeps r o (State.rowsParity s id rows mask) := by
  unfold State.rowsParity
  repeat' first
    | with_reducible assumption | with_reducible apply keeps_onSbQuiet | with_reducible apply keeps_writePar
    | with_reducible apply keeps_foldl | with_reducible apply keeps2_foldl | (with_reducible intro _; beta_reduce)
    | with_reducible refine Keeps2.of (by assumption) ?_ | with_reducible apply Keeps2.snd
    | (extract_lets +onlyGivenNames x; refine @Keeps.cut r o _ x ?_ (fun hx => ?_); rotate_left; clear_value x; rotate_right; dsimp -zeta only [x])
    | (extract_lets +onlyGivenNames x; clear_value x) | split

theorem keeps_dieIdle (id : ℕ) (h : Keeps r o s) (c_ftl : r .ftl) :
    Keeps r o (State.dieIdle s id) := by
  unfold State.dieIdle
  repeat' first
    | with_reducible assumption | with_reducible apply keeps_onFtl

theorem keeps_writeSummary (id : ℕ) (h : Keeps r o s) (c_ldg : r .ldg) (c_ftl : r .ftl) (c_flt : r .flt) (c_LDG_GAUGE_STAT_FALLBACKS : r (.reg Reg.LDG_GAUGE_STAT_FALLBACKS.addr)) :
    Keeps r o (State.writeSummary s id) := by
  unfold State.writeSummary
  repeat' first
    | with_reducible assumption | with_reducible apply keeps_onSbQuiet | with_reducible apply keeps_allocFlash
    | with_reducible apply keeps_putBytes | with_reducible apply keeps_foldl | with_reducible apply keeps2_foldl
    | (with_reducible intro _; beta_reduce) | with_reducible refine Keeps2.of (by assumption) ?_
    | with_reducible apply Keeps2.snd | with_reducible refine KeepsO2.of (by assumption) ?_
    | with_reducible refine KeepsO2.pair (by assumption) ?_ | with_reducible apply keeps_getD
    | with_reducible apply keepsO_map
    | (extract_lets +onlyGivenNames x; refine @Keeps.cut r o _ x ?_ (fun hx => ?_); rotate_left; clear_value x; rotate_right; dsimp -zeta only [x])
    | (extract_lets +onlyGivenNames x; refine @KeepsO2.cut r o _ _ x ?_ (fun hx => ?_); rotate_left; clear_value x; rotate_right; dsimp -zeta only [x])
    | (extract_lets +onlyGivenNames x; clear_value x) | split

theorem keeps_writeSummaries (y1 : ℕ) (h : Keeps r o s) (c_ldg : r .ldg) (c_ftl : r .ftl) (c_flt : r .flt) (c_LDG_GAUGE_STAT_FALLBACKS : r (.reg Reg.LDG_GAUGE_STAT_FALLBACKS.addr)) :
    Keeps r o (State.writeSummaries s y1) := by
  induction y1 generalizing s  with
  | zero =>
    unfold State.writeSummaries
    repeat' first
      | with_reducible assumption | with_reducible apply ih | with_reducible apply keeps_writeSummary
      | with_reducible apply keeps_onFtl | with_reducible apply keeps_foldl | with_reducible apply keeps2_foldl
      | (with_reducible intro _; beta_reduce) | with_reducible refine Keeps2.of (by assumption) ?_
      | with_reducible apply Keeps2.snd
      | (extract_lets +onlyGivenNames x; refine @Keeps.cut r o _ x ?_ (fun hx => ?_); rotate_left; clear_value x; rotate_right; dsimp -zeta only [x])
      | (extract_lets +onlyGivenNames x; clear_value x) | split | with_reducible apply Keeps2.mk
  | succ _ ih =>
    unfold State.writeSummaries
    repeat' first
      | with_reducible assumption | with_reducible apply ih | with_reducible apply keeps_writeSummary
      | with_reducible apply keeps_onFtl | with_reducible apply keeps_foldl | with_reducible apply keeps2_foldl
      | (with_reducible intro _; beta_reduce) | with_reducible refine Keeps2.of (by assumption) ?_
      | with_reducible apply Keeps2.snd
      | (extract_lets +onlyGivenNames x; refine @Keeps.cut r o _ x ?_ (fun hx => ?_); rotate_left; clear_value x; rotate_right; dsimp -zeta only [x])
      | (extract_lets +onlyGivenNames x; clear_value x) | split | with_reducible apply Keeps2.mk

theorem keeps_padUpTo (id : ℕ) (q : ℕ) (h : Keeps r o s) (c_ldg : r .ldg) (c_ftl : r .ftl) (c_flt : r .flt) (c_LDG_GAUGE_STAT_FALLBACKS : r (.reg Reg.LDG_GAUGE_STAT_FALLBACKS.addr)) :
    Keeps r o (State.padUpTo s id q) := by
  unfold State.padUpTo
  repeat' first
    | with_reducible assumption | with_reducible apply keeps_onSbQuiet | with_reducible apply keeps_padStream
    | with_reducible apply keeps_foldl | with_reducible apply keeps2_foldl | (with_reducible intro _; beta_reduce)
    | with_reducible refine Keeps2.of (by assumption) ?_ | with_reducible apply Keeps2.snd
    | (extract_lets +onlyGivenNames x; refine @Keeps.cut r o _ x ?_ (fun hx => ?_); rotate_left; clear_value x; rotate_right; dsimp -zeta only [x])
    | (extract_lets +onlyGivenNames x; clear_value x) | split

theorem keeps_programNext (id : ℕ) (h : Keeps r o s) (c_sch : r .sch) (c_ldg : r .ldg) (c_ftl : r .ftl) (c_rings : r .rings) (c_dram : r .dram) (c_flt : r .flt) (c_FLT_SWATCH_CTL_ARM : r (.reg Reg.FLT_SWATCH_CTL_ARM.addr)) (c_LDG_GAUGE_STAT_FALLBACKS : r (.reg Reg.LDG_GAUGE_STAT_FALLBACKS.addr)) :
    Keeps r o (State.programNext s id) := by
  unfold State.programNext
  repeat' first
    | with_reducible assumption | with_reducible apply keeps_onSbQuiet | with_reducible apply keeps_switchCopies
    | with_reducible apply keeps_padUpTo | with_reducible apply keeps_settleProgrammed
    | with_reducible apply keeps_dieIdle | with_reducible apply keeps_writeSummaries
    | with_reducible apply keeps_rowsParity | with_reducible apply keeps_writePages
    | with_reducible apply keeps_swatchRow | with_reducible apply keeps_unstage | with_reducible apply keeps_foldl
    | with_reducible apply keeps2_foldl | (with_reducible intro _; beta_reduce)

theorem keeps_programSome (id : ℕ) (ps : BitVec 16) (h : Keeps r o s) (c_sch : r .sch) (c_ldg : r .ldg) (c_ftl : r .ftl) (c_rings : r .rings) (c_dram : r .dram) (c_flt : r .flt) (c_FLT_SWATCH_CTL_ARM : r (.reg Reg.FLT_SWATCH_CTL_ARM.addr)) (c_LDG_GAUGE_STAT_FALLBACKS : r (.reg Reg.LDG_GAUGE_STAT_FALLBACKS.addr)) :
    Keeps r o (State.programSome s id ps) := by
  unfold State.programSome
  repeat' first
    | with_reducible assumption | with_reducible apply keeps_onSbQuiet | with_reducible apply keeps_switchCopies
    | with_reducible apply keeps_padUpTo | with_reducible apply keeps_settleProgrammed
    | with_reducible apply keeps_programNext | with_reducible apply keeps_writePages
    | with_reducible apply keeps_swatchRow | with_reducible apply keeps_foldl | with_reducible apply keeps2_foldl
    | (with_reducible intro _; beta_reduce) | with_reducible refine Keeps2.of (by assumption) ?_
    | with_reducible apply Keeps2.snd
    | (extract_lets +onlyGivenNames x; refine @Keeps.cut r o _ x ?_ (fun hx => ?_); rotate_left; clear_value x; rotate_right; dsimp -zeta only [x])
    | (extract_lets +onlyGivenNames x; clear_value x) | split

theorem keeps_partialRow (id : ℕ) (h : Keeps r o s) (c_ldg : r .ldg) (c_ftl : r .ftl) (c_flt : r .flt) (c_LDG_GAUGE_STAT_FALLBACKS : r (.reg Reg.LDG_GAUGE_STAT_FALLBACKS.addr)) :
    Keeps r o (State.partialRow s id) := by
  unfold State.partialRow
  repeat' first
    | with_reducible assumption | with_reducible apply keeps_onSbQuiet | with_reducible apply keeps_rowsParity
    | with_reducible apply keeps_writePages | with_reducible apply keeps_foldl | with_reducible apply keeps2_foldl
    | (with_reducible intro _; beta_reduce) | with_reducible refine Keeps2.of (by assumption) ?_
    | with_reducible apply Keeps2.snd
    | (extract_lets +onlyGivenNames x; refine @Keeps.cut r o _ x ?_ (fun hx => ?_); rotate_left; clear_value x; rotate_right; dsimp -zeta only [x])
    | (extract_lets +onlyGivenNames x; clear_value x) | split

theorem keeps_programAll (id : ℕ) (y2 : ℕ) (h : Keeps r o s) (c_sch : r .sch) (c_ldg : r .ldg) (c_ftl : r .ftl) (c_rings : r .rings) (c_dram : r .dram) (c_flt : r .flt) (c_FLT_SWATCH_CTL_ARM : r (.reg Reg.FLT_SWATCH_CTL_ARM.addr)) (c_LDG_GAUGE_STAT_FALLBACKS : r (.reg Reg.LDG_GAUGE_STAT_FALLBACKS.addr)) :
    Keeps r o (State.programAll s id y2) := by
  induction y2 generalizing s id with
  | zero =>
    unfold State.programAll
    repeat' first
      | with_reducible assumption | with_reducible apply ih | with_reducible apply keeps_programNext
      | with_reducible apply keeps_foldl | with_reducible apply keeps2_foldl | (with_reducible intro _; beta_reduce)
      | with_reducible refine Keeps2.of (by assumption) ?_ | with_reducible apply Keeps2.snd
      | (extract_lets +onlyGivenNames x; refine @Keeps.cut r o _ x ?_ (fun hx => ?_); rotate_left; clear_value x; rotate_right; dsimp -zeta only [x])
      | (extract_lets +onlyGivenNames x; clear_value x) | split | with_reducible apply Keeps2.mk
  | succ _ ih =>
    unfold State.programAll
    repeat' first
      | with_reducible assumption | with_reducible apply ih | with_reducible apply keeps_programNext
      | with_reducible apply keeps_foldl | with_reducible apply keeps2_foldl | (with_reducible intro _; beta_reduce)
      | with_reducible refine Keeps2.of (by assumption) ?_ | with_reducible apply Keeps2.snd
      | (extract_lets +onlyGivenNames x; refine @Keeps.cut r o _ x ?_ (fun hx => ?_); rotate_left; clear_value x; rotate_right; dsimp -zeta only [x])
      | (extract_lets +onlyGivenNames x; clear_value x) | split | with_reducible apply Keeps2.mk

theorem keeps_partialPar (id : ℕ) (h : Keeps r o s) (c_sch : r .sch) (c_ldg : r .ldg) (c_ftl : r .ftl) (c_rings : r .rings) (c_dram : r .dram) (c_flt : r .flt) (c_FLT_SWATCH_CTL_ARM : r (.reg Reg.FLT_SWATCH_CTL_ARM.addr)) (c_LDG_GAUGE_STAT_FALLBACKS : r (.reg Reg.LDG_GAUGE_STAT_FALLBACKS.addr)) :
    Keeps r o (State.partialPar s id) := by
  unfold State.partialPar
  repeat' first
    | with_reducible assumption | with_reducible apply keeps_onSbQuiet | with_reducible apply keeps_programNext
    | with_reducible apply keeps_writePages | with_reducible apply keeps_partialRow | with_reducible apply keeps_foldl
    | with_reducible apply keeps2_foldl | (with_reducible intro _; beta_reduce)

theorem keeps_flushStream (stream : ℕ) (h : Keeps r o s) (c_sch : r .sch) (c_ldg : r .ldg) (c_ftl : r .ftl) (c_rings : r .rings) (c_dram : r .dram) (c_flt : r .flt) (c_FLT_SWATCH_CTL_ARM : r (.reg Reg.FLT_SWATCH_CTL_ARM.addr)) (c_LDG_GAUGE_STAT_FALLBACKS : r (.reg Reg.LDG_GAUGE_STAT_FALLBACKS.addr)) :
    Keeps r o (State.flushStream s stream) := by
  unfold State.flushStream
  repeat' first
    | with_reducible assumption | with_reducible apply keeps_programAll | with_reducible apply keeps_foldl
    | with_reducible apply keeps2_foldl | (with_reducible intro _; beta_reduce)

theorem keeps_enterBindOff (h : Keeps r o s) (c_nfe : r .nfe) (c_sch : r .sch) (c_val : r .val) (c_cip : r .cip) (c_ldg : r .ldg) (c_ftl : r .ftl) (c_peer : r .peer) (c_flt : r .flt) (c_CIP_LANE_STAT_NONCE_REFUSALS : r (.reg Reg.CIP_LANE_STAT_NONCE_REFUSALS.addr)) (c_FLT_SWATCH_CTL_ARM : r (.reg Reg.FLT_SWATCH_CTL_ARM.addr)) (c_LDG_GAUGE_STAT_FALLBACKS : r (.reg Reg.LDG_GAUGE_STAT_FALLBACKS.addr)) (c_LDG_UNMETERED_LINES : r (.reg Reg.LDG_UNMETERED_LINES.addr)) (c_PWR_SHED_CNT_SHED_WRITES : r (.reg Reg.PWR_SHED_CNT_SHED_WRITES.addr)) (c_VAL_E2E_STAT_E2E_MISMATCHES : r (.reg Reg.VAL_E2E_STAT_E2E_MISMATCHES.addr)) :
    Keeps r o (State.enterBindOff s) := by
  unfold State.enterBindOff
  repeat' first
    | with_reducible assumption | with_reducible apply keeps_onKept | with_reducible apply keeps_addCond
    | with_reducible apply keeps_failCmd | with_reducible apply keeps_raise | with_reducible apply keeps_keepMeta
    | with_reducible apply keeps_foldl | with_reducible apply keeps2_foldl | (with_reducible intro _; beta_reduce)
    | with_reducible refine Keeps2.of (by assumption) ?_ | with_reducible apply Keeps2.snd
    | (extract_lets +onlyGivenNames x; refine @Keeps.cut r o _ x ?_ (fun hx => ?_); rotate_left; clear_value x; rotate_right; dsimp -zeta only [x])
    | (extract_lets +onlyGivenNames x; clear_value x) | split

theorem keeps_sparesFell (h : Keeps r o s) (c_nfe : r .nfe) (c_sch : r .sch) (c_val : r .val) (c_cip : r .cip) (c_ldg : r .ldg) (c_ftl : r .ftl) (c_peer : r .peer) (c_flt : r .flt) (c_CIP_LANE_STAT_NONCE_REFUSALS : r (.reg Reg.CIP_LANE_STAT_NONCE_REFUSALS.addr)) (c_FLT_SWATCH_CTL_ARM : r (.reg Reg.FLT_SWATCH_CTL_ARM.addr)) (c_LDG_GAUGE_STAT_FALLBACKS : r (.reg Reg.LDG_GAUGE_STAT_FALLBACKS.addr)) (c_LDG_UNMETERED_LINES : r (.reg Reg.LDG_UNMETERED_LINES.addr)) (c_PWR_SHED_CNT_SHED_WRITES : r (.reg Reg.PWR_SHED_CNT_SHED_WRITES.addr)) (c_VAL_E2E_STAT_E2E_MISMATCHES : r (.reg Reg.VAL_E2E_STAT_E2E_MISMATCHES.addr)) :
    Keeps r o (State.sparesFell s) := by
  unfold State.sparesFell
  repeat' first
    | with_reducible assumption | with_reducible apply keeps_raise | with_reducible apply keeps_onFtl
    | with_reducible apply keeps_enterBindOff | with_reducible apply keeps_foldl | with_reducible apply keeps2_foldl
    | (with_reducible intro _; beta_reduce) | with_reducible refine Keeps2.of (by assumption) ?_
    | with_reducible apply Keeps2.snd
    | (extract_lets +onlyGivenNames x; refine @Keeps.cut r o _ x ?_ (fun hx => ?_); rotate_left; clear_value x; rotate_right; dsimp -zeta only [x])
    | (extract_lets +onlyGivenNames x; clear_value x) | split

theorem keeps_retireMember (id : ℕ) (pos : ℕ) (reason : ℕ) (h : Keeps r o s) (c_nfe : r .nfe) (c_sch : r .sch) (c_val : r .val) (c_cip : r .cip) (c_ldg : r .ldg) (c_ftl : r .ftl) (c_peer : r .peer) (c_flt : r .flt) (c_CIP_LANE_STAT_NONCE_REFUSALS : r (.reg Reg.CIP_LANE_STAT_NONCE_REFUSALS.addr)) (c_FLT_SWATCH_CTL_ARM : r (.reg Reg.FLT_SWATCH_CTL_ARM.addr)) (c_LDG_GAUGE_STAT_FALLBACKS : r (.reg Reg.LDG_GAUGE_STAT_FALLBACKS.addr)) (c_LDG_UNMETERED_LINES : r (.reg Reg.LDG_UNMETERED_LINES.addr)) (c_PWR_SHED_CNT_SHED_WRITES : r (.reg Reg.PWR_SHED_CNT_SHED_WRITES.addr)) (c_VAL_E2E_STAT_E2E_MISMATCHES : r (.reg Reg.VAL_E2E_STAT_E2E_MISMATCHES.addr)) :
    Keeps r o (State.retireMember s id pos reason) := by
  unfold State.retireMember
  repeat' first
    | with_reducible assumption | with_reducible apply keeps_onSb | with_reducible apply keeps_memberRetired
    | with_reducible apply keeps_sparesFell

theorem keeps_leaveStream (id : ℕ) (h : Keeps r o s) (c_ldg : r .ldg) (c_ftl : r .ftl) (c_flt : r .flt) (c_LDG_GAUGE_STAT_FALLBACKS : r (.reg Reg.LDG_GAUGE_STAT_FALLBACKS.addr)) :
    Keeps r o (State.leaveStream s id) := by
  unfold State.leaveStream
  repeat' first
    | with_reducible assumption | with_reducible apply keeps_freeSkein | with_reducible apply keeps_onFtl
    | with_reducible apply keeps_foldl | with_reducible apply keeps2_foldl | (with_reducible intro _; beta_reduce)

theorem keeps_requeueSummaries (id : ℕ) (h : Keeps r o s) (c_ldg : r .ldg) (c_ftl : r .ftl) (c_flt : r .flt) (c_LDG_GAUGE_STAT_FALLBACKS : r (.reg Reg.LDG_GAUGE_STAT_FALLBACKS.addr)) :
    Keeps r o (State.requeueSummaries s id) := by
  unfold State.requeueSummaries
  repeat' first
    | with_reducible assumption | with_reducible apply keeps_onSbQuiet | with_reducible apply keeps_releaseLoc
    | with_reducible apply keeps_onFtl | with_reducible apply keeps_foldl | with_reducible apply keeps2_foldl
    | (with_reducible intro _; beta_reduce)

theorem keeps_cutSb (id : ℕ) (h : Keeps r o s) (c_nfe : r .nfe) (c_sch : r .sch) (c_idx : r .idx) (c_val : r .val) (c_cip : r .cip) (c_ldg : r .ldg) (c_ftl : r .ftl) (c_peer : r .peer) (c_flt : r .flt) (c_recorder : r .recorder) (c_CIP_AUTH_STAT_AUTH_FAILURES : r (.reg Reg.CIP_AUTH_STAT_AUTH_FAILURES.addr)) (c_CIP_LANE_STAT_NONCE_REFUSALS : r (.reg Reg.CIP_LANE_STAT_NONCE_REFUSALS.addr)) (c_FLT_SWATCH_CTL_ARM : r (.reg Reg.FLT_SWATCH_CTL_ARM.addr)) (c_LDG_GAUGE_STAT_FALLBACKS : r (.reg Reg.LDG_GAUGE_STAT_FALLBACKS.addr)) (c_LDG_UNMETERED_LINES : r (.reg Reg.LDG_UNMETERED_LINES.addr)) (c_PEER_REPAIR_STAT_REPAIRS : r (.reg Reg.PEER_REPAIR_STAT_REPAIRS.addr)) (c_PWR_SHED_CNT_SHED_WRITES : r (.reg Reg.PWR_SHED_CNT_SHED_WRITES.addr)) (c_REC_LOST_STAT_SRAM_OVERWRITTEN : r (.reg Reg.REC_LOST_STAT_SRAM_OVERWRITTEN.addr)) (c_VAL_E2E_STAT_E2E_MISMATCHES : r (.reg Reg.VAL_E2E_STAT_E2E_MISMATCHES.addr)) (c_VAL_READ_STAT_UNRECOVERABLE : r (.reg Reg.VAL_READ_STAT_UNRECOVERABLE.addr)) (c_VAL_SWATCH_ARM : r (.reg Reg.VAL_SWATCH_ARM.addr)) :
    Keeps r o (State.cutSb s id) := by
  unfold State.cutSb
  repeat' first
    | with_reducible assumption | with_reducible apply keeps_onSbQuiet | with_reducible apply keeps_releaseLoc
    | with_reducible apply keeps_replayWrites | with_reducible apply keeps_closeSb | with_reducible apply keeps_onCmd
    | with_reducible apply keeps_onFtl | with_reducible apply keeps_writePar
    | with_reducible apply keeps_requeueSummaries | with_reducible apply keeps_queueMove
    | with_reducible apply keeps_pumpCopies | with_reducible apply keeps_leaveStream
    | with_reducible apply keeps_foldl | with_reducible apply keeps2_foldl | (with_reducible intro _; beta_reduce)
    | with_reducible refine Keeps2.of (by assumption) ?_ | with_reducible apply Keeps2.snd
    | (extract_lets +onlyGivenNames x; refine @Keeps.cut r o _ x ?_ (fun hx => ?_); rotate_left; clear_value x; rotate_right; dsimp -zeta only [x])
    | (extract_lets +onlyGivenNames x; clear_value x) | split

theorem keeps_beginRebuild (id : ℕ) (q : ℕ) (h : Keeps r o s) (c_nfe : r .nfe) (c_sch : r .sch) (c_idx : r .idx) (c_val : r .val) (c_cip : r .cip) (c_ldg : r .ldg) (c_ftl : r .ftl) (c_peer : r .peer) (c_flt : r .flt) (c_CIP_AUTH_STAT_AUTH_FAILURES : r (.reg Reg.CIP_AUTH_STAT_AUTH_FAILURES.addr)) (c_CIP_LANE_STAT_NONCE_REFUSALS : r (.reg Reg.CIP_LANE_STAT_NONCE_REFUSALS.addr)) (c_FLT_SWATCH_CTL_ARM : r (.reg Reg.FLT_SWATCH_CTL_ARM.addr)) (c_LDG_GAUGE_STAT_FALLBACKS : r (.reg Reg.LDG_GAUGE_STAT_FALLBACKS.addr)) (c_LDG_UNMETERED_LINES : r (.reg Reg.LDG_UNMETERED_LINES.addr)) (c_PEER_REPAIR_STAT_REPAIRS : r (.reg Reg.PEER_REPAIR_STAT_REPAIRS.addr)) (c_PWR_SHED_CNT_SHED_WRITES : r (.reg Reg.PWR_SHED_CNT_SHED_WRITES.addr)) (c_VAL_E2E_STAT_E2E_MISMATCHES : r (.reg Reg.VAL_E2E_STAT_E2E_MISMATCHES.addr)) (c_VAL_READ_STAT_UNRECOVERABLE : r (.reg Reg.VAL_READ_STAT_UNRECOVERABLE.addr)) :
    Keeps r o (State.beginRebuild s id q) := by
  unfold State.beginRebuild
  repeat' first
    | with_reducible assumption | with_reducible apply keeps_onSbQuiet | with_reducible apply keeps_fetchObjects
    | with_reducible apply keeps_onFtl | with_reducible apply keeps_foldl | with_reducible apply keeps2_foldl
    | (with_reducible intro _; beta_reduce) | with_reducible refine Keeps2.of (by assumption) ?_
    | with_reducible apply Keeps2.snd
    | (extract_lets +onlyGivenNames x; have _f : _ → State := x; clear _f; dsimp -zeta only [x]; clear x)
    | (extract_lets +onlyGivenNames x; have _f : State → _ := x; clear _f; dsimp -zeta only [x]; clear x)
    | (extract_lets +onlyGivenNames x; have _f : _ → State → _ := x; clear _f; dsimp -zeta only [x]; clear x)
    | (extract_lets +onlyGivenNames x; refine @Keeps.cut r o _ x ?_ (fun hx => ?_); rotate_left; clear_value x; rotate_right; dsimp -zeta only [x])
    | (extract_lets +onlyGivenNames x; clear_value x) | split

theorem keeps_decoded (id : ℕ) (q : ℕ) (d : Decode1) (h : Keeps r o s) (c_nfe : r .nfe) (c_sch : r .sch) (c_idx : r .idx) (c_val : r .val) (c_cip : r .cip) (c_ldg : r .ldg) (c_ftl : r .ftl) (c_peer : r .peer) (c_flt : r .flt) (c_CIP_AUTH_STAT_AUTH_FAILURES : r (.reg Reg.CIP_AUTH_STAT_AUTH_FAILURES.addr)) (c_CIP_LANE_STAT_NONCE_REFUSALS : r (.reg Reg.CIP_LANE_STAT_NONCE_REFUSALS.addr)) (c_FCH_CH_LDPC_SOFT_DECODES : ∀ n, r (.reg (Reg.FCH_CH_LDPC_SOFT_DECODES n).addr)) (c_FLT_SWATCH_CTL_ARM : r (.reg Reg.FLT_SWATCH_CTL_ARM.addr)) (c_LDG_GAUGE_STAT_FALLBACKS : r (.reg Reg.LDG_GAUGE_STAT_FALLBACKS.addr)) (c_LDG_UNMETERED_LINES : r (.reg Reg.LDG_UNMETERED_LINES.addr)) (c_PEER_REPAIR_STAT_REPAIRS : r (.reg Reg.PEER_REPAIR_STAT_REPAIRS.addr)) (c_PWR_SHED_CNT_SHED_WRITES : r (.reg Reg.PWR_SHED_CNT_SHED_WRITES.addr)) (c_VAL_E2E_STAT_E2E_MISMATCHES : r (.reg Reg.VAL_E2E_STAT_E2E_MISMATCHES.addr)) (c_VAL_READ_STAT_UNRECOVERABLE : r (.reg Reg.VAL_READ_STAT_UNRECOVERABLE.addr)) :
    Keeps r o (State.decoded s id q d) := by
  unfold State.decoded
  repeat' first
    | with_reducible assumption | exact c_CIP_AUTH_STAT_AUTH_FAILURES | exact c_CIP_LANE_STAT_NONCE_REFUSALS
    | exact c_FCH_CH_LDPC_SOFT_DECODES _ | exact c_FLT_SWATCH_CTL_ARM | exact c_LDG_GAUGE_STAT_FALLBACKS
    | exact c_LDG_UNMETERED_LINES | exact c_PEER_REPAIR_STAT_REPAIRS | exact c_PWR_SHED_CNT_SHED_WRITES
    | exact c_VAL_E2E_STAT_E2E_MISMATCHES | exact c_VAL_READ_STAT_UNRECOVERABLE | with_reducible apply keeps_bump
    | with_reducible apply keeps_countRefresh | with_reducible apply keeps_beginRebuild
    | with_reducible apply keeps_raise | with_reducible apply keeps_drawNat | with_reducible apply keeps_foldl
    | with_reducible apply keeps2_foldl | (with_reducible intro _; beta_reduce)
    | with_reducible refine Keeps2.of (by assumption) ?_ | with_reducible apply Keeps2.snd
    | (extract_lets +onlyGivenNames x; refine @Keeps.cut r o _ x ?_ (fun hx => ?_); rotate_left; clear_value x; rotate_right; dsimp -zeta only [x])
    | (extract_lets +onlyGivenNames x; refine @Keeps2.cut r o _ _ x ?_ (fun hx => ?_); rotate_left; clear_value x; rotate_right; dsimp -zeta only [x])
    | (extract_lets +onlyGivenNames x; clear_value x) | split

theorem keeps_openMostWorn (src : ℕ) (h : Keeps r o s) (c_ldg : r .ldg) (c_ftl : r .ftl) (c_flt : r .flt) (c_LDG_GAUGE_STAT_FALLBACKS : r (.reg Reg.LDG_GAUGE_STAT_FALLBACKS.addr)) :
    Keeps r o (State.openMostWorn s src) := by
  unfold State.openMostWorn
  repeat' first
    | with_reducible assumption | with_reducible apply keeps_setStream | with_reducible apply keeps_openNew
    | with_reducible apply keeps_foldl | with_reducible apply keeps2_foldl | (with_reducible intro _; beta_reduce)
    | with_reducible refine Keeps2.of (by assumption) ?_ | with_reducible apply Keeps2.snd
    | with_reducible refine KeepsO2.of (by assumption) ?_ | with_reducible refine KeepsO2.pair (by assumption) ?_
    | with_reducible apply keeps_getD | with_reducible apply keepsO_map
    | (extract_lets +onlyGivenNames x; refine @Keeps.cut r o _ x ?_ (fun hx => ?_); rotate_left; clear_value x; rotate_right; dsimp -zeta only [x])
    | (extract_lets +onlyGivenNames x; refine @KeepsO2.cut r o _ _ x ?_ (fun hx => ?_); rotate_left; clear_value x; rotate_right; dsimp -zeta only [x])
    | (extract_lets +onlyGivenNames x; clear_value x) | split

theorem keeps_verifySb (badRows : List (ℕ × ℕ)) (dir : Option (Dir × ℕ)) (id : ℕ) (h : Keeps r o s) (c_nfe : r .nfe) (c_sch : r .sch) (c_idx : r .idx) (c_val : r .val) (c_cip : r .cip) (c_ldg : r .ldg) (c_ftl : r .ftl) (c_peer : r .peer) (c_flt : r .flt) (c_recorder : r .recorder) (c_CIP_AUTH_STAT_AUTH_FAILURES : r (.reg Reg.CIP_AUTH_STAT_AUTH_FAILURES.addr)) (c_CIP_LANE_STAT_NONCE_REFUSALS : r (.reg Reg.CIP_LANE_STAT_NONCE_REFUSALS.addr)) (c_FLT_SWATCH_CTL_ARM : r (.reg Reg.FLT_SWATCH_CTL_ARM.addr)) (c_LDG_GAUGE_STAT_FALLBACKS : r (.reg Reg.LDG_GAUGE_STAT_FALLBACKS.addr)) (c_LDG_UNMETERED_LINES : r (.reg Reg.LDG_UNMETERED_LINES.addr)) (c_PEER_REPAIR_STAT_REPAIRS : r (.reg Reg.PEER_REPAIR_STAT_REPAIRS.addr)) (c_PWR_SHED_CNT_SHED_WRITES : r (.reg Reg.PWR_SHED_CNT_SHED_WRITES.addr)) (c_REC_LOST_STAT_SRAM_OVERWRITTEN : r (.reg Reg.REC_LOST_STAT_SRAM_OVERWRITTEN.addr)) (c_VAL_E2E_STAT_E2E_MISMATCHES : r (.reg Reg.VAL_E2E_STAT_E2E_MISMATCHES.addr)) (c_VAL_READ_STAT_UNRECOVERABLE : r (.reg Reg.VAL_READ_STAT_UNRECOVERABLE.addr)) :
    Keeps r o (State.verifySb s badRows dir id) := by
  unfold State.verifySb
  repeat' first
    | with_reducible assumption | with_reducible apply keeps_countRefresh | with_reducible apply keeps_raise
    | with_reducible apply keeps_onFtl | with_reducible apply keeps_drawNat | with_reducible apply keeps_queueMove
    | with_reducible apply keeps_foldl | with_reducible apply keeps2_foldl | (with_reducible intro _; beta_reduce)
    | with_reducible refine Keeps2.of (by assumption) ?_ | with_reducible apply Keeps2.snd

end Sys2Proof.Machine
end

