-- ==== Sys2Proof/Laws/KeepFlashSteps.lean ====
section
/-! SUPPORT. What each operation of Machine/FlashSteps.lean may change. -/

set_option linter.unusedTactic false
set_option linter.unreachableTactic false

namespace Sys2Proof.Machine

variable {r : Part → Prop} {o s : State}

theorem keeps_execDieReadDone (sb : ℕ) (q : ℕ) (outcome : Decode1) (h : Keeps r o s) (c_nfe : r .nfe) (c_sch : r .sch) (c_idx : r .idx) (c_val : r .val) (c_cip : r .cip) (c_ldg : r .ldg) (c_ftl : r .ftl) (c_peer : r .peer) (c_rings : r .rings) (c_dram : r .dram) (c_flt : r .flt) (c_CIP_AUTH_STAT_AUTH_FAILURES : r (.reg Reg.CIP_AUTH_STAT_AUTH_FAILURES.addr)) (c_CIP_LANE_STAT_NONCE_REFUSALS : r (.reg Reg.CIP_LANE_STAT_NONCE_REFUSALS.addr)) (c_FCH_CH_LDPC_SOFT_DECODES : ∀ n, r (.reg (Reg.FCH_CH_LDPC_SOFT_DECODES n).addr)) (c_FLT_SWATCH_CTL_ARM : r (.reg Reg.FLT_SWATCH_CTL_ARM.addr)) (c_LDG_GAUGE_STAT_FALLBACKS : r (.reg Reg.LDG_GAUGE_STAT_FALLBACKS.addr)) (c_LDG_UNMETERED_LINES : r (.reg Reg.LDG_UNMETERED_LINES.addr)) (c_PEER_REPAIR_STAT_REPAIRS : r (.reg Reg.PEER_REPAIR_STAT_REPAIRS.addr)) (c_PWR_SHED_CNT_SHED_WRITES : r (.reg Reg.PWR_SHED_CNT_SHED_WRITES.addr)) (c_VAL_E2E_STAT_E2E_MISMATCHES : r (.reg Reg.VAL_E2E_STAT_E2E_MISMATCHES.addr)) (c_VAL_READ_STAT_UNRECOVERABLE : r (.reg Reg.VAL_READ_STAT_UNRECOVERABLE.addr)) :
    KeepsN r o (execDieReadDone sb q outcome s) := by
  unfold execDieReadDone
  repeat' first
    | with_reducible apply KeepsN.mk | with_reducible apply KeepsN.fault | with_reducible assumption
    | with_reducible apply keeps_guardStep | with_reducible apply keeps_decoded | with_reducible apply keeps_walkWord
    | with_reducible apply keeps_foldl | with_reducible apply keeps2_foldl | (with_reducible intro _; beta_reduce)
    | with_reducible refine Keeps2.of (by assumption) ?_ | with_reducible apply Keeps2.snd
    | (extract_lets +onlyGivenNames x; refine @Keeps.cut r o _ x ?_ (fun hx => ?_); rotate_left; clear_value x; rotate_right; dsimp -zeta only [x])
    | (extract_lets +onlyGivenNames x; clear_value x) | split

theorem keeps_execDroppedStitchRebuilt (sb : ℕ) (q : ℕ) (secondFails : Bool) (h : Keeps r o s) (c_nfe : r .nfe) (c_sch : r .sch) (c_idx : r .idx) (c_val : r .val) (c_cip : r .cip) (c_ldg : r .ldg) (c_ftl : r .ftl) (c_peer : r .peer) (c_flt : r .flt) (c_recorder : r .recorder) (c_CIP_AUTH_STAT_AUTH_FAILURES : r (.reg Reg.CIP_AUTH_STAT_AUTH_FAILURES.addr)) (c_CIP_LANE_STAT_NONCE_REFUSALS : r (.reg Reg.CIP_LANE_STAT_NONCE_REFUSALS.addr)) (c_FLT_SWATCH_CTL_ARM : r (.reg Reg.FLT_SWATCH_CTL_ARM.addr)) (c_FTL_UPKEEP_STAT_REBUILDS : r (.reg Reg.FTL_UPKEEP_STAT_REBUILDS.addr)) (c_LDG_GAUGE_STAT_FALLBACKS : r (.reg Reg.LDG_GAUGE_STAT_FALLBACKS.addr)) (c_LDG_UNMETERED_LINES : r (.reg Reg.LDG_UNMETERED_LINES.addr)) (c_PEER_REPAIR_STAT_REPAIRS : r (.reg Reg.PEER_REPAIR_STAT_REPAIRS.addr)) (c_PWR_SHED_CNT_SHED_WRITES : r (.reg Reg.PWR_SHED_CNT_SHED_WRITES.addr)) (c_REC_LOST_STAT_SRAM_OVERWRITTEN : r (.reg Reg.REC_LOST_STAT_SRAM_OVERWRITTEN.addr)) (c_VAL_E2E_STAT_E2E_MISMATCHES : r (.reg Reg.VAL_E2E_STAT_E2E_MISMATCHES.addr)) (c_VAL_READ_STAT_UNRECOVERABLE : r (.reg Reg.VAL_READ_STAT_UNRECOVERABLE.addr)) :
    KeepsN r o (execDroppedStitchRebuilt sb q secondFails s) := by
  unfold execDroppedStitchRebuilt
  repeat' first
    | with_reducible apply KeepsN.mk | with_reducible apply KeepsN.fault | with_reducible assumption
    | exact c_CIP_AUTH_STAT_AUTH_FAILURES | exact c_CIP_LANE_STAT_NONCE_REFUSALS | exact c_FLT_SWATCH_CTL_ARM
    | exact c_FTL_UPKEEP_STAT_REBUILDS | exact c_LDG_GAUGE_STAT_FALLBACKS | exact c_LDG_UNMETERED_LINES
    | exact c_PEER_REPAIR_STAT_REPAIRS | exact c_PWR_SHED_CNT_SHED_WRITES | exact c_REC_LOST_STAT_SRAM_OVERWRITTEN
    | exact c_VAL_E2E_STAT_E2E_MISMATCHES | exact c_VAL_READ_STAT_UNRECOVERABLE | with_reducible apply keeps_onSbQuiet
    | with_reducible apply keeps_bump | with_reducible apply keeps_guardStep | with_reducible apply keeps_raise
    | with_reducible apply keeps_onFtl | with_reducible apply keeps_dropReleased
    | with_reducible apply keeps_queueMove | with_reducible apply keeps_rebuildLost | with_reducible apply keeps_foldl
    | with_reducible apply keeps2_foldl | (with_reducible intro _; beta_reduce)
    | with_reducible refine Keeps2.of (by assumption) ?_ | with_reducible apply Keeps2.snd
    | (extract_lets +onlyGivenNames x; have _f : _ → State := x; clear _f; dsimp -zeta only [x]; clear x)
    | (extract_lets +onlyGivenNames x; have _f : State → _ := x; clear _f; dsimp -zeta only [x]; clear x)
    | (extract_lets +onlyGivenNames x; have _f : _ → State → _ := x; clear _f; dsimp -zeta only [x]; clear x)
    | (extract_lets +onlyGivenNames x; refine @Keeps.cut r o _ x ?_ (fun hx => ?_); rotate_left; clear_value x; rotate_right; dsimp -zeta only [x])
    | (extract_lets +onlyGivenNames x; clear_value x) | split

theorem keeps_grantDies (requester : ℕ → ℕ) (dies : List (ℕ × ℕ)) (h : Keeps r o s) (c_ftl : r .ftl) :
    Keeps r o (State.grantDies s requester dies) := by
  unfold State.grantDies
  repeat' first
    | with_reducible assumption | with_reducible apply keeps_onFtl

theorem keeps_endOps (dies : List (ℕ × ℕ)) (h : Keeps r o s) (c_ftl : r .ftl) :
    Keeps r o (State.endOps s dies) := by
  unfold State.endOps
  repeat' first
    | with_reducible assumption | with_reducible apply keeps_onFtl

theorem keeps_execProgramDone (sb : ℕ) (pages : RowPages) (h : Keeps r o s) (c_sch : r .sch) (c_ldg : r .ldg) (c_ftl : r .ftl) (c_rings : r .rings) (c_dram : r .dram) (c_flt : r .flt) (c_FLT_SWATCH_CTL_ARM : r (.reg Reg.FLT_SWATCH_CTL_ARM.addr)) (c_LDG_GAUGE_STAT_FALLBACKS : r (.reg Reg.LDG_GAUGE_STAT_FALLBACKS.addr)) :
    KeepsN r o (execProgramDone sb pages s) := by
  unfold execProgramDone
  repeat' first
    | with_reducible apply KeepsN.mk | with_reducible apply KeepsN.fault | with_reducible assumption
    | with_reducible apply keeps_grantDies | with_reducible apply keeps_programSome
    | with_reducible apply keeps_guardStep | with_reducible apply keeps_endOps | with_reducible apply keeps_foldl
    | with_reducible apply keeps2_foldl | (with_reducible intro _; beta_reduce)

theorem keeps_execWordlinePad (sb : ℕ) (h : Keeps r o s) (c_sch : r .sch) (c_ldg : r .ldg) (c_ftl : r .ftl) (c_rings : r .rings) (c_dram : r .dram) (c_flt : r .flt) (c_FLT_SWATCH_CTL_ARM : r (.reg Reg.FLT_SWATCH_CTL_ARM.addr)) (c_LDG_GAUGE_STAT_FALLBACKS : r (.reg Reg.LDG_GAUGE_STAT_FALLBACKS.addr)) :
    KeepsN r o (execWordlinePad sb s) := by
  unfold execWordlinePad
  repeat' first
    | with_reducible apply KeepsN.mk | with_reducible apply KeepsN.fault | with_reducible assumption
    | with_reducible apply keeps_guardStep | with_reducible apply keeps_programNext | with_reducible apply keeps_foldl
    | with_reducible apply keeps2_foldl | (with_reducible intro _; beta_reduce)

theorem keeps_execProgramFail (sb : ℕ) (row : ℕ) (position : ℕ) (h : Keeps r o s) (c_nfe : r .nfe) (c_sch : r .sch) (c_idx : r .idx) (c_val : r .val) (c_cip : r .cip) (c_ldg : r .ldg) (c_ftl : r .ftl) (c_peer : r .peer) (c_flt : r .flt) (c_recorder : r .recorder) (c_CIP_AUTH_STAT_AUTH_FAILURES : r (.reg Reg.CIP_AUTH_STAT_AUTH_FAILURES.addr)) (c_CIP_LANE_STAT_NONCE_REFUSALS : r (.reg Reg.CIP_LANE_STAT_NONCE_REFUSALS.addr)) (c_FLT_SWATCH_CTL_ARM : r (.reg Reg.FLT_SWATCH_CTL_ARM.addr)) (c_FTL_UPKEEP_STAT_REBUILDS : r (.reg Reg.FTL_UPKEEP_STAT_REBUILDS.addr)) (c_LDG_GAUGE_STAT_FALLBACKS : r (.reg Reg.LDG_GAUGE_STAT_FALLBACKS.addr)) (c_LDG_UNMETERED_LINES : r (.reg Reg.LDG_UNMETERED_LINES.addr)) (c_PEER_REPAIR_STAT_REPAIRS : r (.reg Reg.PEER_REPAIR_STAT_REPAIRS.addr)) (c_PWR_SHED_CNT_SHED_WRITES : r (.reg Reg.PWR_SHED_CNT_SHED_WRITES.addr)) (c_REC_LOST_STAT_SRAM_OVERWRITTEN : r (.reg Reg.REC_LOST_STAT_SRAM_OVERWRITTEN.addr)) (c_VAL_E2E_STAT_E2E_MISMATCHES : r (.reg Reg.VAL_E2E_STAT_E2E_MISMATCHES.addr)) (c_VAL_READ_STAT_UNRECOVERABLE : r (.reg Reg.VAL_READ_STAT_UNRECOVERABLE.addr)) (c_VAL_SWATCH_ARM : r (.reg Reg.VAL_SWATCH_ARM.addr)) :
    KeepsN r o (execProgramFail sb row position s) := by
  unfold execProgramFail
  repeat' first
    | with_reducible apply KeepsN.mk | with_reducible apply KeepsN.fault | with_reducible assumption
    | exact c_CIP_AUTH_STAT_AUTH_FAILURES | exact c_CIP_LANE_STAT_NONCE_REFUSALS | exact c_FLT_SWATCH_CTL_ARM
    | exact c_FTL_UPKEEP_STAT_REBUILDS | exact c_LDG_GAUGE_STAT_FALLBACKS | exact c_LDG_UNMETERED_LINES
    | exact c_PEER_REPAIR_STAT_REPAIRS | exact c_PWR_SHED_CNT_SHED_WRITES | exact c_REC_LOST_STAT_SRAM_OVERWRITTEN
    | exact c_VAL_E2E_STAT_E2E_MISMATCHES | exact c_VAL_READ_STAT_UNRECOVERABLE | exact c_VAL_SWATCH_ARM
    | with_reducible apply keeps_bump | with_reducible apply keeps_guardStep | with_reducible apply keeps_dieIdle
    | with_reducible apply keeps_raise | with_reducible apply keeps_cutSb | with_reducible apply keeps_retireMember
    | with_reducible apply keeps_foldl | with_reducible apply keeps2_foldl | (with_reducible intro _; beta_reduce)
    | with_reducible refine Keeps2.of (by assumption) ?_ | with_reducible apply Keeps2.snd
    | (extract_lets +onlyGivenNames x; refine @Keeps.cut r o _ x ?_ (fun hx => ?_); rotate_left; clear_value x; rotate_right; dsimp -zeta only [x])
    | (extract_lets +onlyGivenNames x; clear_value x) | split

theorem keeps_execProgramSuspend (channel : ℕ) (die : ℕ) (h : Keeps r o s) (c_ftl : r .ftl) :
    KeepsN r o (execProgramSuspend channel die s) := by
  unfold execProgramSuspend
  repeat' first
    | with_reducible apply KeepsN.mk | with_reducible apply KeepsN.fault | with_reducible assumption
    | with_reducible apply keeps_guardStep | with_reducible apply keeps_onFtl | with_reducible apply keeps_foldl
    | with_reducible apply keeps2_foldl | (with_reducible intro _; beta_reduce)

theorem keeps_erased (sb : ℕ) (h : Keeps r o s) (c_nfe : r .nfe) (c_sch : r .sch) (c_idx : r .idx) (c_val : r .val) (c_cip : r .cip) (c_ldg : r .ldg) (c_ftl : r .ftl) (c_peer : r .peer) (c_rings : r .rings) (c_dram : r .dram) (c_flt : r .flt) (c_recorder : r .recorder) (c_CIP_AUTH_STAT_AUTH_FAILURES : r (.reg Reg.CIP_AUTH_STAT_AUTH_FAILURES.addr)) (c_CIP_LANE_STAT_NONCE_REFUSALS : r (.reg Reg.CIP_LANE_STAT_NONCE_REFUSALS.addr)) (c_FLT_SWATCH_CTL_ARM : r (.reg Reg.FLT_SWATCH_CTL_ARM.addr)) (c_LDG_GAUGE_STAT_FALLBACKS : r (.reg Reg.LDG_GAUGE_STAT_FALLBACKS.addr)) (c_LDG_UNMETERED_LINES : r (.reg Reg.LDG_UNMETERED_LINES.addr)) (c_PEER_REPAIR_STAT_REPAIRS : r (.reg Reg.PEER_REPAIR_STAT_REPAIRS.addr)) (c_PWR_SHED_CNT_SHED_WRITES : r (.reg Reg.PWR_SHED_CNT_SHED_WRITES.addr)) (c_REC_LOST_STAT_SRAM_OVERWRITTEN : r (.reg Reg.REC_LOST_STAT_SRAM_OVERWRITTEN.addr)) (c_VAL_E2E_STAT_E2E_MISMATCHES : r (.reg Reg.VAL_E2E_STAT_E2E_MISMATCHES.addr)) (c_VAL_READ_STAT_UNRECOVERABLE : r (.reg Reg.VAL_READ_STAT_UNRECOVERABLE.addr)) :
    Keeps r o (State.erased s sb) := by
  unfold State.erased
  repeat' first
    | with_reducible assumption | with_reducible apply keeps_releaseLoc | with_reducible apply keeps_upkeepErased
    | with_reducible apply keeps_onSb | with_reducible apply keeps_memberRetired
    | with_reducible apply keeps_settleMoves | with_reducible apply keeps_journalSb
    | with_reducible apply keeps_dieIdle | with_reducible apply keeps_raise | with_reducible apply keeps_releasePar
    | with_reducible apply keeps_onFtl | with_reducible apply keeps_onFlt | with_reducible apply keeps_pumpCopies
    | with_reducible apply keeps_sparesFell | with_reducible apply keeps_foldl | with_reducible apply keeps2_foldl
    | (with_reducible intro _; beta_reduce) | with_reducible refine Keeps2.of (by assumption) ?_
    | with_reducible apply Keeps2.snd
    | (extract_lets +onlyGivenNames x; refine @Keeps.cut r o _ x ?_ (fun hx => ?_); rotate_left; clear_value x; rotate_right; dsimp -zeta only [x])
    | (extract_lets +onlyGivenNames x; clear_value x) | split

theorem keeps_endErase (sb : ℕ) (h : Keeps r o s) (c_nfe : r .nfe) (c_sch : r .sch) (c_idx : r .idx) (c_val : r .val) (c_cip : r .cip) (c_ldg : r .ldg) (c_ftl : r .ftl) (c_peer : r .peer) (c_rings : r .rings) (c_dram : r .dram) (c_flt : r .flt) (c_recorder : r .recorder) (c_CIP_AUTH_STAT_AUTH_FAILURES : r (.reg Reg.CIP_AUTH_STAT_AUTH_FAILURES.addr)) (c_CIP_LANE_STAT_NONCE_REFUSALS : r (.reg Reg.CIP_LANE_STAT_NONCE_REFUSALS.addr)) (c_FLT_SWATCH_CTL_ARM : r (.reg Reg.FLT_SWATCH_CTL_ARM.addr)) (c_LDG_GAUGE_STAT_FALLBACKS : r (.reg Reg.LDG_GAUGE_STAT_FALLBACKS.addr)) (c_LDG_UNMETERED_LINES : r (.reg Reg.LDG_UNMETERED_LINES.addr)) (c_PEER_REPAIR_STAT_REPAIRS : r (.reg Reg.PEER_REPAIR_STAT_REPAIRS.addr)) (c_PWR_SHED_CNT_SHED_WRITES : r (.reg Reg.PWR_SHED_CNT_SHED_WRITES.addr)) (c_REC_LOST_STAT_SRAM_OVERWRITTEN : r (.reg Reg.REC_LOST_STAT_SRAM_OVERWRITTEN.addr)) (c_VAL_E2E_STAT_E2E_MISMATCHES : r (.reg Reg.VAL_E2E_STAT_E2E_MISMATCHES.addr)) (c_VAL_READ_STAT_UNRECOVERABLE : r (.reg Reg.VAL_READ_STAT_UNRECOVERABLE.addr)) :
    Keeps r o (State.endErase s sb) := by
  unfold State.endErase
  repeat' first
    | with_reducible assumption | with_reducible apply keeps_grantDies | with_reducible apply keeps_erased
    | with_reducible apply keeps_endOps

theorem keeps_execEraseDone (sb : ℕ) (h : Keeps r o s) (c_nfe : r .nfe) (c_sch : r .sch) (c_idx : r .idx) (c_val : r .val) (c_cip : r .cip) (c_ldg : r .ldg) (c_ftl : r .ftl) (c_peer : r .peer) (c_rings : r .rings) (c_dram : r .dram) (c_flt : r .flt) (c_recorder : r .recorder) (c_CIP_AUTH_STAT_AUTH_FAILURES : r (.reg Reg.CIP_AUTH_STAT_AUTH_FAILURES.addr)) (c_CIP_LANE_STAT_NONCE_REFUSALS : r (.reg Reg.CIP_LANE_STAT_NONCE_REFUSALS.addr)) (c_FLT_SWATCH_CTL_ARM : r (.reg Reg.FLT_SWATCH_CTL_ARM.addr)) (c_LDG_GAUGE_STAT_FALLBACKS : r (.reg Reg.LDG_GAUGE_STAT_FALLBACKS.addr)) (c_LDG_UNMETERED_LINES : r (.reg Reg.LDG_UNMETERED_LINES.addr)) (c_PEER_REPAIR_STAT_REPAIRS : r (.reg Reg.PEER_REPAIR_STAT_REPAIRS.addr)) (c_PWR_SHED_CNT_SHED_WRITES : r (.reg Reg.PWR_SHED_CNT_SHED_WRITES.addr)) (c_REC_LOST_STAT_SRAM_OVERWRITTEN : r (.reg Reg.REC_LOST_STAT_SRAM_OVERWRITTEN.addr)) (c_VAL_E2E_STAT_E2E_MISMATCHES : r (.reg Reg.VAL_E2E_STAT_E2E_MISMATCHES.addr)) (c_VAL_READ_STAT_UNRECOVERABLE : r (.reg Reg.VAL_READ_STAT_UNRECOVERABLE.addr)) :
    KeepsN r o (execEraseDone sb s) := by
  unfold execEraseDone
  repeat' first
    | with_reducible apply KeepsN.mk | with_reducible apply KeepsN.fault | with_reducible assumption
    | with_reducible apply keeps_endErase | with_reducible apply keeps_guardStep | with_reducible apply keeps_foldl
    | with_reducible apply keeps2_foldl | (with_reducible intro _; beta_reduce)

theorem keeps_execEraseFail (sb : ℕ) (position : ℕ) (h : Keeps r o s) (c_nfe : r .nfe) (c_sch : r .sch) (c_idx : r .idx) (c_val : r .val) (c_cip : r .cip) (c_ldg : r .ldg) (c_ftl : r .ftl) (c_peer : r .peer) (c_rings : r .rings) (c_dram : r .dram) (c_flt : r .flt) (c_recorder : r .recorder) (c_CIP_AUTH_STAT_AUTH_FAILURES : r (.reg Reg.CIP_AUTH_STAT_AUTH_FAILURES.addr)) (c_CIP_LANE_STAT_NONCE_REFUSALS : r (.reg Reg.CIP_LANE_STAT_NONCE_REFUSALS.addr)) (c_FLT_SWATCH_CTL_ARM : r (.reg Reg.FLT_SWATCH_CTL_ARM.addr)) (c_LDG_GAUGE_STAT_FALLBACKS : r (.reg Reg.LDG_GAUGE_STAT_FALLBACKS.addr)) (c_LDG_UNMETERED_LINES : r (.reg Reg.LDG_UNMETERED_LINES.addr)) (c_PEER_REPAIR_STAT_REPAIRS : r (.reg Reg.PEER_REPAIR_STAT_REPAIRS.addr)) (c_PWR_SHED_CNT_SHED_WRITES : r (.reg Reg.PWR_SHED_CNT_SHED_WRITES.addr)) (c_REC_LOST_STAT_SRAM_OVERWRITTEN : r (.reg Reg.REC_LOST_STAT_SRAM_OVERWRITTEN.addr)) (c_VAL_E2E_STAT_E2E_MISMATCHES : r (.reg Reg.VAL_E2E_STAT_E2E_MISMATCHES.addr)) (c_VAL_READ_STAT_UNRECOVERABLE : r (.reg Reg.VAL_READ_STAT_UNRECOVERABLE.addr)) :
    KeepsN r o (execEraseFail sb position s) := by
  unfold execEraseFail
  repeat' first
    | with_reducible apply KeepsN.mk | with_reducible apply KeepsN.fault | with_reducible assumption
    | with_reducible apply keeps_endErase | with_reducible apply keeps_guardStep | with_reducible apply keeps_raise
    | with_reducible apply keeps_retireMember | with_reducible apply keeps_foldl | with_reducible apply keeps2_foldl
    | (with_reducible intro _; beta_reduce)

theorem keeps_vacate (id : ℕ) (pos : ℕ) (h : Keeps r o s) (c_ldg : r .ldg) (c_ftl : r .ftl) (c_flt : r .flt) (c_LDG_GAUGE_STAT_FALLBACKS : r (.reg Reg.LDG_GAUGE_STAT_FALLBACKS.addr)) :
    Keeps r o (State.vacate s id pos) := by
  unfold State.vacate
  repeat' first
    | with_reducible assumption | with_reducible apply keeps_onSb | with_reducible apply keeps_memberRetired
    | with_reducible apply keeps_raise | with_reducible apply keeps_foldl | with_reducible apply keeps2_foldl
    | (with_reducible intro _; beta_reduce) | with_reducible refine Keeps2.of (by assumption) ?_
    | with_reducible apply Keeps2.snd
    | (extract_lets +onlyGivenNames x; refine @Keeps.cut r o _ x ?_ (fun hx => ?_); rotate_left; clear_value x; rotate_right; dsimp -zeta only [x])
    | (extract_lets +onlyGivenNames x; clear_value x) | split

theorem keeps_degradeGroup (group : ℕ) (pos : ℕ) (dieItem : ℕ) (h : Keeps r o s) (c_ldg : r .ldg) (c_ftl : r .ftl) (c_flt : r .flt) (c_LDG_GAUGE_STAT_FALLBACKS : r (.reg Reg.LDG_GAUGE_STAT_FALLBACKS.addr)) :
    Keeps r o (State.degradeGroup s group pos dieItem) := by
  unfold State.degradeGroup
  repeat' first
    | with_reducible assumption | with_reducible apply keeps_raise | with_reducible apply keeps_onFtl
    | with_reducible apply keeps_vacate | with_reducible apply keeps_foldl | with_reducible apply keeps2_foldl
    | (with_reducible intro _; beta_reduce)

theorem keeps_evacuateGroups (groups : List ℕ) (h : Keeps r o s) (c_nfe : r .nfe) (c_sch : r .sch) (c_idx : r .idx) (c_val : r .val) (c_cip : r .cip) (c_ldg : r .ldg) (c_ftl : r .ftl) (c_peer : r .peer) (c_flt : r .flt) (c_recorder : r .recorder) (c_CIP_AUTH_STAT_AUTH_FAILURES : r (.reg Reg.CIP_AUTH_STAT_AUTH_FAILURES.addr)) (c_CIP_LANE_STAT_NONCE_REFUSALS : r (.reg Reg.CIP_LANE_STAT_NONCE_REFUSALS.addr)) (c_FLT_SWATCH_CTL_ARM : r (.reg Reg.FLT_SWATCH_CTL_ARM.addr)) (c_LDG_GAUGE_STAT_FALLBACKS : r (.reg Reg.LDG_GAUGE_STAT_FALLBACKS.addr)) (c_LDG_UNMETERED_LINES : r (.reg Reg.LDG_UNMETERED_LINES.addr)) (c_PEER_REPAIR_STAT_REPAIRS : r (.reg Reg.PEER_REPAIR_STAT_REPAIRS.addr)) (c_PWR_SHED_CNT_SHED_WRITES : r (.reg Reg.PWR_SHED_CNT_SHED_WRITES.addr)) (c_REC_LOST_STAT_SRAM_OVERWRITTEN : r (.reg Reg.REC_LOST_STAT_SRAM_OVERWRITTEN.addr)) (c_VAL_E2E_STAT_E2E_MISMATCHES : r (.reg Reg.VAL_E2E_STAT_E2E_MISMATCHES.addr)) (c_VAL_READ_STAT_UNRECOVERABLE : r (.reg Reg.VAL_READ_STAT_UNRECOVERABLE.addr)) (c_VAL_SWATCH_ARM : r (.reg Reg.VAL_SWATCH_ARM.addr)) :
    Keeps r o (State.evacuateGroups s groups) := by
  unfold State.evacuateGroups
  repeat' first
    | with_reducible assumption | with_reducible apply keeps_onFtl | with_reducible apply keeps_cutSb
    | with_reducible apply keeps_pumpCopies | with_reducible apply keeps_sparesFell | with_reducible apply keeps_foldl
    | with_reducible apply keeps2_foldl | (with_reducible intro _; beta_reduce)

theorem keeps_execDieFailed (channel : ℕ) (die : ℕ) (h : Keeps r o s) (c_nfe : r .nfe) (c_sch : r .sch) (c_idx : r .idx) (c_val : r .val) (c_cip : r .cip) (c_ldg : r .ldg) (c_ftl : r .ftl) (c_peer : r .peer) (c_flt : r .flt) (c_recorder : r .recorder) (c_CIP_AUTH_STAT_AUTH_FAILURES : r (.reg Reg.CIP_AUTH_STAT_AUTH_FAILURES.addr)) (c_CIP_LANE_STAT_NONCE_REFUSALS : r (.reg Reg.CIP_LANE_STAT_NONCE_REFUSALS.addr)) (c_FCH_CH_STATUS_OFFLINE : ∀ n, r (.reg (Reg.FCH_CH_STATUS_OFFLINE n).addr)) (c_FLT_SWATCH_CTL_ARM : r (.reg Reg.FLT_SWATCH_CTL_ARM.addr)) (c_LDG_GAUGE_STAT_FALLBACKS : r (.reg Reg.LDG_GAUGE_STAT_FALLBACKS.addr)) (c_LDG_UNMETERED_LINES : r (.reg Reg.LDG_UNMETERED_LINES.addr)) (c_PEER_REPAIR_STAT_REPAIRS : r (.reg Reg.PEER_REPAIR_STAT_REPAIRS.addr)) (c_PWR_SHED_CNT_SHED_WRITES : r (.reg Reg.PWR_SHED_CNT_SHED_WRITES.addr)) (c_REC_LOST_STAT_SRAM_OVERWRITTEN : r (.reg Reg.REC_LOST_STAT_SRAM_OVERWRITTEN.addr)) (c_VAL_E2E_STAT_E2E_MISMATCHES : r (.reg Reg.VAL_E2E_STAT_E2E_MISMATCHES.addr)) (c_VAL_READ_STAT_UNRECOVERABLE : r (.reg Reg.VAL_READ_STAT_UNRECOVERABLE.addr)) (c_VAL_SWATCH_ARM : r (.reg Reg.VAL_SWATCH_ARM.addr)) :
    KeepsN r o (execDieFailed channel die s) := by
  unfold execDieFailed
  repeat' first
    | with_reducible apply KeepsN.mk | with_reducible apply KeepsN.fault | with_reducible assumption
    | exact c_CIP_AUTH_STAT_AUTH_FAILURES | exact c_CIP_LANE_STAT_NONCE_REFUSALS | exact c_FCH_CH_STATUS_OFFLINE _
    | exact c_FLT_SWATCH_CTL_ARM | exact c_LDG_GAUGE_STAT_FALLBACKS | exact c_LDG_UNMETERED_LINES
    | exact c_PEER_REPAIR_STAT_REPAIRS | exact c_PWR_SHED_CNT_SHED_WRITES | exact c_REC_LOST_STAT_SRAM_OVERWRITTEN
    | exact c_VAL_E2E_STAT_E2E_MISMATCHES | exact c_VAL_READ_STAT_UNRECOVERABLE | exact c_VAL_SWATCH_ARM
    | with_reducible apply keeps_guardStep | with_reducible apply keeps_setFld | with_reducible apply keeps_raise
    | with_reducible apply keeps_degradeGroup | with_reducible apply keeps_evacuateGroups
    | with_reducible apply keeps_foldl | with_reducible apply keeps2_foldl | (with_reducible intro _; beta_reduce)

theorem keeps_channelOffline (channel : ℕ) (h : Keeps r o s) (c_nfe : r .nfe) (c_sch : r .sch) (c_idx : r .idx) (c_val : r .val) (c_cip : r .cip) (c_ldg : r .ldg) (c_ftl : r .ftl) (c_peer : r .peer) (c_flt : r .flt) (c_recorder : r .recorder) (c_CIP_AUTH_STAT_AUTH_FAILURES : r (.reg Reg.CIP_AUTH_STAT_AUTH_FAILURES.addr)) (c_CIP_LANE_STAT_NONCE_REFUSALS : r (.reg Reg.CIP_LANE_STAT_NONCE_REFUSALS.addr)) (c_FCH_CH_STATUS_OFFLINE : ∀ n, r (.reg (Reg.FCH_CH_STATUS_OFFLINE n).addr)) (c_FLT_SWATCH_CTL_ARM : r (.reg Reg.FLT_SWATCH_CTL_ARM.addr)) (c_LDG_GAUGE_STAT_FALLBACKS : r (.reg Reg.LDG_GAUGE_STAT_FALLBACKS.addr)) (c_LDG_UNMETERED_LINES : r (.reg Reg.LDG_UNMETERED_LINES.addr)) (c_PEER_REPAIR_STAT_REPAIRS : r (.reg Reg.PEER_REPAIR_STAT_REPAIRS.addr)) (c_PWR_SHED_CNT_SHED_WRITES : r (.reg Reg.PWR_SHED_CNT_SHED_WRITES.addr)) (c_REC_LOST_STAT_SRAM_OVERWRITTEN : r (.reg Reg.REC_LOST_STAT_SRAM_OVERWRITTEN.addr)) (c_VAL_E2E_STAT_E2E_MISMATCHES : r (.reg Reg.VAL_E2E_STAT_E2E_MISMATCHES.addr)) (c_VAL_READ_STAT_UNRECOVERABLE : r (.reg Reg.VAL_READ_STAT_UNRECOVERABLE.addr)) (c_VAL_SWATCH_ARM : r (.reg Reg.VAL_SWATCH_ARM.addr)) :
    Keeps r o (State.channelOffline s channel) := by
  unfold State.channelOffline
  repeat' first
    | with_reducible assumption | exact c_CIP_AUTH_STAT_AUTH_FAILURES | exact c_CIP_LANE_STAT_NONCE_REFUSALS
    | exact c_FCH_CH_STATUS_OFFLINE _ | exact c_FLT_SWATCH_CTL_ARM | exact c_LDG_GAUGE_STAT_FALLBACKS
    | exact c_LDG_UNMETERED_LINES | exact c_PEER_REPAIR_STAT_REPAIRS | exact c_PWR_SHED_CNT_SHED_WRITES
    | exact c_REC_LOST_STAT_SRAM_OVERWRITTEN | exact c_VAL_E2E_STAT_E2E_MISMATCHES
    | exact c_VAL_READ_STAT_UNRECOVERABLE | exact c_VAL_SWATCH_ARM | with_reducible apply keeps_setFld
    | with_reducible apply keeps_degradeGroup | with_reducible apply keeps_evacuateGroups
    | with_reducible apply keeps_foldl | with_reducible apply keeps2_foldl | (with_reducible intro _; beta_reduce)

theorem keeps_channelFaulted (channel : ℕ) (cause : ℕ) (h : Keeps r o s) (c_nfe : r .nfe) (c_sch : r .sch) (c_idx : r .idx) (c_val : r .val) (c_cip : r .cip) (c_ldg : r .ldg) (c_ftl : r .ftl) (c_peer : r .peer) (c_flt : r .flt) (c_recorder : r .recorder) (c_CIP_AUTH_STAT_AUTH_FAILURES : r (.reg Reg.CIP_AUTH_STAT_AUTH_FAILURES.addr)) (c_CIP_LANE_STAT_NONCE_REFUSALS : r (.reg Reg.CIP_LANE_STAT_NONCE_REFUSALS.addr)) (c_FCH_CH_STATUS_OFFLINE : ∀ n, r (.reg (Reg.FCH_CH_STATUS_OFFLINE n).addr)) (c_FLT_SWATCH_CTL_ARM : r (.reg Reg.FLT_SWATCH_CTL_ARM.addr)) (c_LDG_GAUGE_STAT_FALLBACKS : r (.reg Reg.LDG_GAUGE_STAT_FALLBACKS.addr)) (c_LDG_UNMETERED_LINES : r (.reg Reg.LDG_UNMETERED_LINES.addr)) (c_PEER_REPAIR_STAT_REPAIRS : r (.reg Reg.PEER_REPAIR_STAT_REPAIRS.addr)) (c_PWR_SHED_CNT_SHED_WRITES : r (.reg Reg.PWR_SHED_CNT_SHED_WRITES.addr)) (c_REC_LOST_STAT_SRAM_OVERWRITTEN : r (.reg Reg.REC_LOST_STAT_SRAM_OVERWRITTEN.addr)) (c_VAL_E2E_STAT_E2E_MISMATCHES : r (.reg Reg.VAL_E2E_STAT_E2E_MISMATCHES.addr)) (c_VAL_READ_STAT_UNRECOVERABLE : r (.reg Reg.VAL_READ_STAT_UNRECOVERABLE.addr)) (c_VAL_SWATCH_ARM : r (.reg Reg.VAL_SWATCH_ARM.addr)) :
    Keeps r o (State.channelFaulted s channel cause) := by
  unfold State.channelFaulted
  repeat' first
    | with_reducible assumption | with_reducible apply keeps_raise | with_reducible apply keeps_channelOffline
    | with_reducible apply keeps_foldl | with_reducible apply keeps2_foldl | (with_reducible intro _; beta_reduce)
    | with_reducible refine Keeps2.of (by assumption) ?_ | with_reducible apply Keeps2.snd
    | (extract_lets +onlyGivenNames x; refine @Keeps.cut r o _ x ?_ (fun hx => ?_); rotate_left; clear_value x; rotate_right; dsimp -zeta only [x])
    | (extract_lets +onlyGivenNames x; clear_value x) | split

theorem keeps_execChannelFault (channel : ℕ) (cause : ℕ) (h : Keeps r o s) (c_nfe : r .nfe) (c_sch : r .sch) (c_idx : r .idx) (c_val : r .val) (c_cip : r .cip) (c_ldg : r .ldg) (c_ftl : r .ftl) (c_peer : r .peer) (c_flt : r .flt) (c_recorder : r .recorder) (c_CIP_AUTH_STAT_AUTH_FAILURES : r (.reg Reg.CIP_AUTH_STAT_AUTH_FAILURES.addr)) (c_CIP_LANE_STAT_NONCE_REFUSALS : r (.reg Reg.CIP_LANE_STAT_NONCE_REFUSALS.addr)) (c_FCH_CH_STATUS_OFFLINE : ∀ n, r (.reg (Reg.FCH_CH_STATUS_OFFLINE n).addr)) (c_FLT_SWATCH_CTL_ARM : r (.reg Reg.FLT_SWATCH_CTL_ARM.addr)) (c_LDG_GAUGE_STAT_FALLBACKS : r (.reg Reg.LDG_GAUGE_STAT_FALLBACKS.addr)) (c_LDG_UNMETERED_LINES : r (.reg Reg.LDG_UNMETERED_LINES.addr)) (c_PEER_REPAIR_STAT_REPAIRS : r (.reg Reg.PEER_REPAIR_STAT_REPAIRS.addr)) (c_PWR_SHED_CNT_SHED_WRITES : r (.reg Reg.PWR_SHED_CNT_SHED_WRITES.addr)) (c_REC_LOST_STAT_SRAM_OVERWRITTEN : r (.reg Reg.REC_LOST_STAT_SRAM_OVERWRITTEN.addr)) (c_VAL_E2E_STAT_E2E_MISMATCHES : r (.reg Reg.VAL_E2E_STAT_E2E_MISMATCHES.addr)) (c_VAL_READ_STAT_UNRECOVERABLE : r (.reg Reg.VAL_READ_STAT_UNRECOVERABLE.addr)) (c_VAL_SWATCH_ARM : r (.reg Reg.VAL_SWATCH_ARM.addr)) :
    KeepsN r o (execChannelFault channel cause s) := by
  unfold execChannelFault
  repeat' first
    | with_reducible apply KeepsN.mk | with_reducible apply KeepsN.fault | with_reducible assumption
    | with_reducible apply keeps_channelFaulted

theorem keeps_execHangDetected (what : Hang) (h : Keeps r o s) (c_nfe : r .nfe) (c_sch : r .sch) (c_idx : r .idx) (c_val : r .val) (c_cip : r .cip) (c_ldg : r .ldg) (c_ftl : r .ftl) (c_peer : r .peer) (c_flt : r .flt) (c_recorder : r .recorder) (c_CIP_AUTH_STAT_AUTH_FAILURES : r (.reg Reg.CIP_AUTH_STAT_AUTH_FAILURES.addr)) (c_CIP_LANE_STAT_NONCE_REFUSALS : r (.reg Reg.CIP_LANE_STAT_NONCE_REFUSALS.addr)) (c_FCH_CH_STATUS_OFFLINE : ∀ n, r (.reg (Reg.FCH_CH_STATUS_OFFLINE n).addr)) (c_FLT_SWATCH_CTL_ARM : r (.reg Reg.FLT_SWATCH_CTL_ARM.addr)) (c_LDG_GAUGE_STAT_FALLBACKS : r (.reg Reg.LDG_GAUGE_STAT_FALLBACKS.addr)) (c_LDG_UNMETERED_LINES : r (.reg Reg.LDG_UNMETERED_LINES.addr)) (c_PEER_REPAIR_STAT_REPAIRS : r (.reg Reg.PEER_REPAIR_STAT_REPAIRS.addr)) (c_PWR_SHED_CNT_SHED_WRITES : r (.reg Reg.PWR_SHED_CNT_SHED_WRITES.addr)) (c_REC_LOST_STAT_SRAM_OVERWRITTEN : r (.reg Reg.REC_LOST_STAT_SRAM_OVERWRITTEN.addr)) (c_VAL_E2E_STAT_E2E_MISMATCHES : r (.reg Reg.VAL_E2E_STAT_E2E_MISMATCHES.addr)) (c_VAL_READ_STAT_UNRECOVERABLE : r (.reg Reg.VAL_READ_STAT_UNRECOVERABLE.addr)) (c_VAL_SWATCH_ARM : r (.reg Reg.VAL_SWATCH_ARM.addr)) :
    KeepsN r o (execHangDetected what s) := by
  unfold execHangDetected
  repeat' first
    | with_reducible apply KeepsN.mk | with_reducible apply KeepsN.fault | with_reducible assumption
    | with_reducible apply keeps_guardStep | with_reducible apply keeps_channelFaulted
    | with_reducible apply keeps_raise | with_reducible apply keeps_drawNat | with_reducible apply keeps_foldl
    | with_reducible apply keeps2_foldl | (with_reducible intro _; beta_reduce)
    | with_reducible refine Keeps2.of (by assumption) ?_ | with_reducible apply Keeps2.snd
    | (extract_lets +onlyGivenNames x; refine @Keeps.cut r o _ x ?_ (fun hx => ?_); rotate_left; clear_value x; rotate_right; dsimp -zeta only [x])
    | (extract_lets +onlyGivenNames x; refine @Keeps2.cut r o _ _ x ?_ (fun hx => ?_); rotate_left; clear_value x; rotate_right; dsimp -zeta only [x])
    | (extract_lets +onlyGivenNames x; clear_value x) | split

end Sys2Proof.Machine
end

