-- ==== Sys2Proof/Laws/KeepLedgerSteps.lean ====
section
/-! SUPPORT. What each operation of Machine/LedgerSteps.lean may change. -/

set_option linter.unusedTactic false
set_option linter.unreachableTactic false

namespace Sys2Proof.Machine

variable {r : Part → Prop} {o s : State}

theorem keeps_writeCopy (line : ℕ) (fails : ℕ) (h : Keeps r o s) (c_ldg : r .ldg) (c_flt : r .flt) (c_recorder : r .recorder) (c_REC_LOST_STAT_SRAM_OVERWRITTEN : r (.reg Reg.REC_LOST_STAT_SRAM_OVERWRITTEN.addr)) :
    Keeps r o (State.writeCopy s line fails) := by
  unfold State.writeCopy
  repeat' first
    | with_reducible assumption | with_reducible apply keeps_retireLine | with_reducible apply keeps_countGroup
    | with_reducible apply keeps_foldl | with_reducible apply keeps2_foldl | (with_reducible intro _; beta_reduce)
    | with_reducible refine Keeps2.of (by assumption) ?_ | with_reducible apply Keeps2.snd
    | (extract_lets +onlyGivenNames x; refine @Keeps.cut r o _ x ?_ (fun hx => ?_); rotate_left; clear_value x; rotate_right; dsimp -zeta only [x])
    | (extract_lets +onlyGivenNames x; clear_value x) | split

theorem keeps_execLedgerLineWrite (line : ℕ) (data : Bytes) (failsA : ℕ) (failsB : ℕ) (ref : Option DurRef) (h : Keeps r o s) (c_sch : r .sch) (c_ldg : r .ldg) (c_flt : r .flt) (c_recorder : r .recorder) (c_FLT_SWATCH_CTL_ARM : r (.reg Reg.FLT_SWATCH_CTL_ARM.addr)) (c_REC_LOST_STAT_SRAM_OVERWRITTEN : r (.reg Reg.REC_LOST_STAT_SRAM_OVERWRITTEN.addr)) :
    KeepsN r o (execLedgerLineWrite line data failsA failsB ref s) := by
  unfold execLedgerLineWrite
  repeat' first
    | with_reducible apply KeepsN.mk | with_reducible apply KeepsN.fault | with_reducible assumption
    | with_reducible apply keeps_guardStep | with_reducible apply keeps_onLdg | with_reducible apply keeps_writeCopy
    | with_reducible apply keeps_makeDurable | with_reducible apply keeps_swatchWrite
    | with_reducible apply keeps_foldl | with_reducible apply keeps2_foldl | (with_reducible intro _; beta_reduce)
    | with_reducible refine Keeps2.of (by assumption) ?_ | with_reducible apply Keeps2.snd
    | (extract_lets +onlyGivenNames x; refine @Keeps.cut r o _ x ?_ (fun hx => ?_); rotate_left; clear_value x; rotate_right; dsimp -zeta only [x])
    | (extract_lets +onlyGivenNames x; clear_value x) | split

theorem keeps_execGapMove (group : ℕ) (h : Keeps r o s) (c_ldg : r .ldg) :
    KeepsN r o (execGapMove group s) := by
  unfold execGapMove
  repeat' first
    | with_reducible apply KeepsN.mk | with_reducible apply KeepsN.fault | with_reducible assumption
    | with_reducible apply keeps_guardStep | with_reducible apply keeps_onLgroup | with_reducible apply keeps_foldl
    | with_reducible apply keeps2_foldl | (with_reducible intro _; beta_reduce)

theorem keeps_execLedgerGroupFailed (group : ℕ) (h : Keeps r o s) (c_latches : r .latches) (c_nfe : r .nfe) (c_sch : r .sch) (c_idx : r .idx) (c_mch : r .mch) (c_val : r .val) (c_cip : r .cip) (c_ldg : r .ldg) (c_ftl : r .ftl) (c_peer : r .peer) (c_rings : r .rings) (c_dram : r .dram) (c_flt : r .flt) (c_recorder : r .recorder) (c_rst : r .rst) (c_pwr : r .pwr) (c_session : r .session) (c_pins : r .pins) (c_CIP_LANE_STAT_NONCE_REFUSALS : r (.reg Reg.CIP_LANE_STAT_NONCE_REFUSALS.addr)) (c_FLT_ESC_STAT_ESCALATIONS : r (.reg Reg.FLT_ESC_STAT_ESCALATIONS.addr)) (c_FLT_IRQ_CNT_COUNT : r (.reg Reg.FLT_IRQ_CNT_COUNT.addr)) (c_FLT_SWATCH_CTL_ARM : r (.reg Reg.FLT_SWATCH_CTL_ARM.addr)) (c_LDG_GAUGE_STAT_FALLBACKS : r (.reg Reg.LDG_GAUGE_STAT_FALLBACKS.addr)) (c_LDG_UNMETERED_LINES : r (.reg Reg.LDG_UNMETERED_LINES.addr)) (c_PWR_SHED_CNT_SHED_WRITES : r (.reg Reg.PWR_SHED_CNT_SHED_WRITES.addr)) (c_REC_LOST_STAT_SRAM_OVERWRITTEN : r (.reg Reg.REC_LOST_STAT_SRAM_OVERWRITTEN.addr)) :
    KeepsN r o (execLedgerGroupFailed group s) := by
  unfold execLedgerGroupFailed
  repeat' first
    | with_reducible apply KeepsN.mk | with_reducible apply KeepsN.fault | with_reducible assumption
    | with_reducible apply keeps_moveGroup | with_reducible apply keeps_guardStep
    | with_reducible apply keeps_groupGone | with_reducible apply keeps_enterFallback
    | with_reducible apply keeps_foldl | with_reducible apply keeps2_foldl | (with_reducible intro _; beta_reduce)

theorem keeps_moveRecorder (device : ℕ) (h : Keeps r o s) (c_ldg : r .ldg) (c_flt : r .flt) :
    Keeps r o (State.moveRecorder s device) := by
  unfold State.moveRecorder
  repeat' first
    | with_reducible assumption | with_reducible apply keeps_onLgroup | with_reducible apply keeps_raise
    | with_reducible apply keeps_takeSpares | with_reducible apply keeps_foldl | with_reducible apply keeps2_foldl
    | (with_reducible intro _; beta_reduce) | with_reducible refine Keeps2.of (by assumption) ?_
    | with_reducible apply Keeps2.snd
    | (extract_lets +onlyGivenNames x; refine @Keeps.cut r o _ x ?_ (fun hx => ?_); rotate_left; clear_value x; rotate_right; dsimp -zeta only [x])
    | (extract_lets +onlyGivenNames x; clear_value x) | split

theorem keeps_execLedgerDeviceFailed (device : ℕ) (h : Keeps r o s) (c_latches : r .latches) (c_nfe : r .nfe) (c_sch : r .sch) (c_idx : r .idx) (c_mch : r .mch) (c_val : r .val) (c_cip : r .cip) (c_ldg : r .ldg) (c_ftl : r .ftl) (c_peer : r .peer) (c_rings : r .rings) (c_dram : r .dram) (c_flt : r .flt) (c_recorder : r .recorder) (c_rst : r .rst) (c_pwr : r .pwr) (c_session : r .session) (c_pins : r .pins) (c_CIP_LANE_STAT_NONCE_REFUSALS : r (.reg Reg.CIP_LANE_STAT_NONCE_REFUSALS.addr)) (c_FLT_ESC_STAT_ESCALATIONS : r (.reg Reg.FLT_ESC_STAT_ESCALATIONS.addr)) (c_FLT_IRQ_CNT_COUNT : r (.reg Reg.FLT_IRQ_CNT_COUNT.addr)) (c_FLT_SWATCH_CTL_ARM : r (.reg Reg.FLT_SWATCH_CTL_ARM.addr)) (c_LDG_GAUGE_STAT_FALLBACKS : r (.reg Reg.LDG_GAUGE_STAT_FALLBACKS.addr)) (c_LDG_UNMETERED_LINES : r (.reg Reg.LDG_UNMETERED_LINES.addr)) (c_PWR_SHED_CNT_SHED_WRITES : r (.reg Reg.PWR_SHED_CNT_SHED_WRITES.addr)) (c_REC_LOST_STAT_SRAM_OVERWRITTEN : r (.reg Reg.REC_LOST_STAT_SRAM_OVERWRITTEN.addr)) :
    KeepsN r o (execLedgerDeviceFailed device s) := by
  unfold execLedgerDeviceFailed
  repeat' first
    | with_reducible apply KeepsN.mk | with_reducible apply KeepsN.fault | with_reducible assumption
    | with_reducible apply keeps_guardStep | with_reducible apply keeps_raise | with_reducible apply keeps_onLdg
    | with_reducible apply keeps_moveRecorder | with_reducible apply keeps_regionLost
    | with_reducible apply keeps_enterFallback | with_reducible apply keeps_foldl | with_reducible apply keeps2_foldl
    | (with_reducible intro _; beta_reduce)

theorem keeps_execGaugeRefill (h : Keeps r o s) (c_sch : r .sch) (c_ldg : r .ldg) (c_flt : r .flt) :
    KeepsN r o (execGaugeRefill s) := by
  unfold execGaugeRefill
  repeat' first
    | with_reducible apply KeepsN.mk | with_reducible apply KeepsN.fault | with_reducible assumption
    | with_reducible apply keeps_guardStep | with_reducible apply keeps_onLdg | with_reducible apply keeps_serveMeta
    | with_reducible apply keeps_foldl | with_reducible apply keeps2_foldl | (with_reducible intro _; beta_reduce)

theorem keeps_checkpointUsage (h : Keeps r o s) (c_ldg : r .ldg) (c_flt : r .flt) (c_LDG_GAUGE_STAT_FALLBACKS : r (.reg Reg.LDG_GAUGE_STAT_FALLBACKS.addr)) :
    Keeps r o (State.checkpointUsage s) := by
  unfold State.checkpointUsage
  repeat' first
    | with_reducible assumption | with_reducible apply keeps_onKept | with_reducible apply keeps_keepMeta

theorem keeps_execUsageCheckpoint (h : Keeps r o s) (c_ldg : r .ldg) (c_flt : r .flt) (c_LDG_GAUGE_STAT_FALLBACKS : r (.reg Reg.LDG_GAUGE_STAT_FALLBACKS.addr)) :
    KeepsN r o (execUsageCheckpoint s) := by
  unfold execUsageCheckpoint
  repeat' first
    | with_reducible apply KeepsN.mk | with_reducible apply KeepsN.fault | with_reducible assumption
    | with_reducible apply keeps_checkpointUsage | with_reducible apply keeps_guardStep
    | with_reducible apply keeps_foldl | with_reducible apply keeps2_foldl | (with_reducible intro _; beta_reduce)

theorem keeps_alignStream (stream : ℕ) (h : Keeps r o s) (c_ldg : r .ldg) (c_ftl : r .ftl) (c_flt : r .flt) (c_LDG_GAUGE_STAT_FALLBACKS : r (.reg Reg.LDG_GAUGE_STAT_FALLBACKS.addr)) :
    KeepsO r o (State.alignStream s stream) := by
  unfold State.alignStream
  repeat' first
    | with_reducible exact KeepsO.none | with_reducible apply KeepsO.mk | with_reducible apply keepsO_map
    | with_reducible assumption | with_reducible apply keeps_mapSkein | with_reducible apply keeps_setStream
    | with_reducible apply keeps_foldl | with_reducible apply keeps2_foldl | (with_reducible intro _; beta_reduce)
    | with_reducible refine Keeps2.of (by assumption) ?_ | with_reducible apply Keeps2.snd
    | with_reducible refine KeepsO.of (by assumption) ?_ | with_reducible apply keeps_getD
    | (extract_lets +onlyGivenNames x; refine @Keeps.cut r o _ x ?_ (fun hx => ?_); rotate_left; clear_value x; rotate_right; dsimp -zeta only [x])
    | (extract_lets +onlyGivenNames x; refine @KeepsO.cut r o _ x ?_ (fun hx => ?_); rotate_left; clear_value x; rotate_right; dsimp -zeta only [x])
    | (extract_lets +onlyGivenNames x; clear_value x) | split

theorem keeps_writePiece (p : ℕ) (h : Keeps r o s) (c_ldg : r .ldg) (c_ftl : r .ftl) (c_flt : r .flt) (c_LDG_GAUGE_STAT_FALLBACKS : r (.reg Reg.LDG_GAUGE_STAT_FALLBACKS.addr)) :
    KeepsO r o (State.writePiece s p) := by
  unfold State.writePiece
  apply keepsO_bind
  · apply keeps_alignStream <;> assumption
  · intro u hu
    apply keepsO2_mapS
    · apply keeps_allocFlash <;> assumption
    · rintro ⟨loc, v⟩ hv
      have hp : Keeps r o (v.putBytes loc (u.pieceBytes p) (u.pieceBytes p)) := keeps_putBytes _ _ _ hv c_ftl
      have hv' : Keeps r o v := hv
      dsimp -zeta only
      extract_lets b w x
      have hw : Keeps r o w := keeps_putBytes _ _ _ hv' c_ftl
      have hx : Keeps r o x := by
        dsimp -zeta only [x]
        split
        · apply keeps_releaseLoc <;> assumption
        · exact hw
      clear_value x w
      apply keeps_keepMeta <;> first | assumption | exact keeps_onKept _ hx c_ldg

theorem keeps_checkpointMaps (h : Keeps r o s) (c_sch : r .sch) (c_ldg : r .ldg) (c_ftl : r .ftl) (c_rings : r .rings) (c_dram : r .dram) (c_flt : r .flt) (c_FLT_SWATCH_CTL_ARM : r (.reg Reg.FLT_SWATCH_CTL_ARM.addr)) (c_LDG_GAUGE_STAT_FALLBACKS : r (.reg Reg.LDG_GAUGE_STAT_FALLBACKS.addr)) :
    Keeps r o (State.checkpointMaps s) := by
  unfold State.checkpointMaps
  extract_lets u floor below ps
  have hu : Keeps r o u := by dsimp -zeta only [u]; apply keeps_checkpointUsage <;> assumption
  clear_value u floor below ps
  generalize hx : List.foldl _ (some (u.onFtl _)) ps = x
  have hk : KeepsO r o x := by
    rw [← hx]
    apply keepsO_foldl
    · intro y p hy
      apply keepsO_bind _ _ hy
      intro v hv
      apply keeps_writePiece <;> assumption
    · exact KeepsO.mk (keeps_onFtl _ hu c_ftl)
  cases x with
  | none => exact hu
  | some v =>
    have hv : Keeps r o v := hk v rfl
    dsimp -zeta only
    extract_lets w
    have hw : Keeps r o w := by
      dsimp -zeta only [w]
      apply keeps_journalMap <;> first | assumption | (apply keeps_flushStream <;> assumption)
    clear_value w
    exact keeps_onKept _ hw c_ldg

theorem keeps_execMapCheckpoint (h : Keeps r o s) (c_sch : r .sch) (c_ldg : r .ldg) (c_ftl : r .ftl) (c_rings : r .rings) (c_dram : r .dram) (c_flt : r .flt) (c_FLT_SWATCH_CTL_ARM : r (.reg Reg.FLT_SWATCH_CTL_ARM.addr)) (c_LDG_GAUGE_STAT_FALLBACKS : r (.reg Reg.LDG_GAUGE_STAT_FALLBACKS.addr)) :
    KeepsN r o (execMapCheckpoint s) := by
  unfold execMapCheckpoint
  repeat' first
    | with_reducible apply KeepsN.mk | with_reducible apply KeepsN.fault | with_reducible assumption
    | with_reducible apply keeps_guardStep | with_reducible apply keeps_checkpointMaps
    | with_reducible apply keeps_foldl | with_reducible apply keeps2_foldl | (with_reducible intro _; beta_reduce)

end Sys2Proof.Machine
end

