-- ==== Sys2Proof/Laws/KeepOwnerDir.lean ====
section
/-! SUPPORT. What each operation of Machine/OwnerDir.lean may change. -/

set_option linter.unusedTactic false
set_option linter.unreachableTactic false

namespace Sys2Proof.Machine

variable {r : Part → Prop} {o s : State}

theorem keeps_ownerAnswer (via : OwnerVia) (ok : Bool) (result : Bytes) (h : Keeps r o s) (c_nfe : r .nfe) (c_rings : r .rings) (c_dram : r .dram) (c_flt : r .flt) (c_FLT_SWATCH_CTL_ARM : r (.reg Reg.FLT_SWATCH_CTL_ARM.addr)) :
    Keeps r o (State.ownerAnswer s via ok result) := by
  unfold State.ownerAnswer
  repeat' first
    | with_reducible assumption | with_reducible apply keeps_finish | with_reducible apply keeps_send
    | with_reducible apply keeps_foldl | with_reducible apply keeps2_foldl | (with_reducible intro _; beta_reduce)
    | with_reducible refine Keeps2.of (by assumption) ?_ | with_reducible apply Keeps2.snd
    | (extract_lets +onlyGivenNames x; refine @Keeps.cut r o _ x ?_ (fun hx => ?_); rotate_left; clear_value x; rotate_right; dsimp -zeta only [x])
    | (extract_lets +onlyGivenNames x; clear_value x) | split

theorem keeps_ownerTurn (via : OwnerVia) (f : State → State) (step : ∀ s, Keeps r o s → Keeps r o (f s)) (h : Keeps r o s) :
    Keeps r o (State.ownerTurn s via f) := by
  unfold State.ownerTurn
  repeat' first
    | with_reducible assumption | with_reducible apply step | with_reducible apply keeps_guardStep

theorem keeps_ownerRef (via : OwnerVia) (purpose : ℕ) (ref : ℕ) (h : Keeps r o s) (c_flt : r .flt) (c_sec : r .sec) :
    Keeps2 r o (State.ownerRef s via purpose ref) := by
  unfold State.ownerRef
  repeat' first
    | with_reducible assumption | with_reducible apply keeps_drawNat | with_reducible apply keeps_useRef
    | with_reducible apply keeps_foldl | with_reducible apply keeps2_foldl | (with_reducible intro _; beta_reduce)
    | with_reducible refine Keeps2.of (by assumption) ?_ | with_reducible apply Keeps2.snd
    | (extract_lets +onlyGivenNames x; refine @Keeps.cut r o _ x ?_ (fun hx => ?_); rotate_left; clear_value x; rotate_right; dsimp -zeta only [x])
    | (extract_lets +onlyGivenNames x; refine @Keeps2.cut r o _ _ x ?_ (fun hx => ?_); rotate_left; clear_value x; rotate_right; dsimp -zeta only [x])
    | (extract_lets +onlyGivenNames x; clear_value x) | split

theorem keeps_execOwnerChallenge (via : OwnerVia) (requester : ℕ) (h : Keeps r o s) (c_nfe : r .nfe) (c_rings : r .rings) (c_dram : r .dram) (c_flt : r .flt) (c_sec : r .sec) (c_FLT_SWATCH_CTL_ARM : r (.reg Reg.FLT_SWATCH_CTL_ARM.addr)) :
    KeepsN r o (execOwnerChallenge via requester s) := by
  unfold execOwnerChallenge
  repeat' first
    | with_reducible apply KeepsN.mk | with_reducible apply KeepsN.fault | with_reducible assumption
    | with_reducible apply keeps_onSec | with_reducible apply keeps_ownerTurn | with_reducible apply keeps_ownerAnswer
    | with_reducible apply keeps_drawRandom | with_reducible apply keeps_foldl | with_reducible apply keeps2_foldl
    | (with_reducible intro _; beta_reduce) | with_reducible refine Keeps2.of (by assumption) ?_
    | with_reducible apply Keeps2.snd

theorem keeps_newRef (purpose : ℕ) (h : Keeps r o s) (c_sec : r .sec) :
    Keeps2 r o (State.newRef s purpose) := by
  unfold State.newRef
  repeat' first
    | with_reducible assumption | with_reducible apply keeps_onSec | with_reducible apply keeps_drawNat
    | with_reducible apply keeps_foldl | with_reducible apply keeps2_foldl | (with_reducible intro _; beta_reduce)
    | with_reducible refine Keeps2.of (by assumption) ?_ | with_reducible apply Keeps2.snd
    | (extract_lets +onlyGivenNames x; refine @Keeps.cut r o _ x ?_ (fun hx => ?_); rotate_left; clear_value x; rotate_right; dsimp -zeta only [x])
    | (extract_lets +onlyGivenNames x; refine @Keeps2.cut r o _ _ x ?_ (fun hx => ?_); rotate_left; clear_value x; rotate_right; dsimp -zeta only [x])
    | (extract_lets +onlyGivenNames x; clear_value x) | split | with_reducible apply Keeps2.mk

theorem keeps_execOwnerAuth (via : OwnerVia) (requester : ℕ) (purpose : ℕ) (response : Bytes) (h : Keeps r o s) (c_nfe : r .nfe) (c_rings : r .rings) (c_dram : r .dram) (c_flt : r .flt) (c_sec : r .sec) (c_FLT_SWATCH_CTL_ARM : r (.reg Reg.FLT_SWATCH_CTL_ARM.addr)) :
    KeepsN r o (execOwnerAuth via requester purpose response s) := by
  unfold execOwnerAuth
  repeat' first
    | with_reducible apply KeepsN.mk | with_reducible apply KeepsN.fault | with_reducible assumption
    | with_reducible apply keeps_ownerTurn | with_reducible apply keeps_raise | with_reducible apply keeps_ownerAnswer
    | with_reducible apply keeps_newRef | with_reducible apply keeps_foldl | with_reducible apply keeps2_foldl
    | (with_reducible intro _; beta_reduce) | with_reducible refine Keeps2.of (by assumption) ?_
    | with_reducible apply Keeps2.snd
    | (extract_lets +onlyGivenNames x; refine @Keeps.cut r o _ x ?_ (fun hx => ?_); rotate_left; clear_value x; rotate_right; dsimp -zeta only [x])
    | (extract_lets +onlyGivenNames x; refine @Keeps2.cut r o _ _ x ?_ (fun hx => ?_); rotate_left; clear_value x; rotate_right; dsimp -zeta only [x])
    | (extract_lets +onlyGivenNames x; clear_value x) | split

theorem keeps_placeImportKey (h : Keeps r o s) (c_cip : r .cip) :
    Keeps r o (State.placeImportKey s) := by
  unfold State.placeImportKey
  repeat' first
    | with_reducible assumption | with_reducible apply keeps_onSlot | with_reducible apply keeps_foldl
    | with_reducible apply keeps2_foldl | (with_reducible intro _; beta_reduce)
    | with_reducible refine Keeps2.of (by assumption) ?_ | with_reducible apply Keeps2.snd
    | (extract_lets +onlyGivenNames x; refine @Keeps.cut r o _ x ?_ (fun hx => ?_); rotate_left; clear_value x; rotate_right; dsimp -zeta only [x])
    | (extract_lets +onlyGivenNames x; clear_value x) | split

theorem keeps_setOwner (key : Bytes) (h : Keeps r o s) (c_cip : r .cip) (c_ldg : r .ldg) (c_flt : r .flt) (c_LDG_UNMETERED_LINES : r (.reg Reg.LDG_UNMETERED_LINES.addr)) :
    Keeps r o (State.setOwner s key) := by
  unfold State.setOwner
  repeat' first
    | with_reducible assumption | with_reducible apply keeps_onKept | with_reducible apply keeps_placeImportKey
    | with_reducible apply keeps_recordSlot | with_reducible apply keeps_keepSecure
    | with_reducible apply keeps_onSlot

theorem keeps_execOwnerSet (via : OwnerVia) (key : Bytes) (ref : ℕ) (h : Keeps r o s) (c_nfe : r .nfe) (c_cip : r .cip) (c_ldg : r .ldg) (c_rings : r .rings) (c_dram : r .dram) (c_flt : r .flt) (c_sec : r .sec) (c_FLT_SWATCH_CTL_ARM : r (.reg Reg.FLT_SWATCH_CTL_ARM.addr)) (c_LDG_UNMETERED_LINES : r (.reg Reg.LDG_UNMETERED_LINES.addr)) :
    KeepsN r o (execOwnerSet via key ref s) := by
  unfold execOwnerSet
  repeat' first
    | with_reducible apply KeepsN.mk | with_reducible apply KeepsN.fault | with_reducible assumption
    | with_reducible apply keeps_ownerRef | with_reducible apply keeps_ownerTurn | with_reducible apply keeps_setOwner
    | with_reducible apply keeps_ownerAnswer | with_reducible apply keeps_foldl | with_reducible apply keeps2_foldl
    | (with_reducible intro _; beta_reduce) | with_reducible refine Keeps2.of (by assumption) ?_
    | with_reducible apply Keeps2.snd
    | (extract_lets +onlyGivenNames x; refine @Keeps.cut r o _ x ?_ (fun hx => ?_); rotate_left; clear_value x; rotate_right; dsimp -zeta only [x])
    | (extract_lets +onlyGivenNames x; refine @Keeps2.cut r o _ _ x ?_ (fun hx => ?_); rotate_left; clear_value x; rotate_right; dsimp -zeta only [x])
    | (extract_lets +onlyGivenNames x; clear_value x) | split

theorem keeps_execOwnerLock (via : OwnerVia) (set : Bool) (ref : ℕ) (h : Keeps r o s) (c_nfe : r .nfe) (c_rings : r .rings) (c_dram : r .dram) (c_flt : r .flt) (c_sec : r .sec) (c_FLT_SWATCH_CTL_ARM : r (.reg Reg.FLT_SWATCH_CTL_ARM.addr)) :
    KeepsN r o (execOwnerLock via set ref s) := by
  unfold execOwnerLock
  repeat' first
    | with_reducible apply KeepsN.mk | with_reducible apply KeepsN.fault | with_reducible assumption
    | with_reducible apply keeps_ownerRef | with_reducible apply keeps_onSec | with_reducible apply keeps_ownerTurn
    | with_reducible apply keeps_ownerAnswer | with_reducible apply keeps_foldl | with_reducible apply keeps2_foldl
    | (with_reducible intro _; beta_reduce) | with_reducible refine Keeps2.of (by assumption) ?_
    | with_reducible apply Keeps2.snd
    | (extract_lets +onlyGivenNames x; refine @Keeps.cut r o _ x ?_ (fun hx => ?_); rotate_left; clear_value x; rotate_right; dsimp -zeta only [x])
    | (extract_lets +onlyGivenNames x; refine @Keeps2.cut r o _ _ x ?_ (fun hx => ?_); rotate_left; clear_value x; rotate_right; dsimp -zeta only [x])
    | (extract_lets +onlyGivenNames x; clear_value x) | split

theorem keeps_execOwnerErase (via : OwnerVia) (ref : ℕ) (h : Keeps r o s) (c_nfe : r .nfe) (c_cip : r .cip) (c_ldg : r .ldg) (c_rings : r .rings) (c_dram : r .dram) (c_flt : r .flt) (c_sec : r .sec) (c_FLT_SWATCH_CTL_ARM : r (.reg Reg.FLT_SWATCH_CTL_ARM.addr)) (c_LDG_UNMETERED_LINES : r (.reg Reg.LDG_UNMETERED_LINES.addr)) :
    KeepsN r o (execOwnerErase via ref s) := by
  unfold execOwnerErase
  repeat' first
    | with_reducible apply KeepsN.mk | with_reducible apply KeepsN.fault | with_reducible assumption
    | with_reducible apply keeps_ownerRef | with_reducible apply keeps_cipAlarm | with_reducible apply keeps_ownerTurn
    | with_reducible apply keeps_ownerAnswer | with_reducible apply keeps_foldl | with_reducible apply keeps2_foldl
    | (with_reducible intro _; beta_reduce) | with_reducible refine Keeps2.of (by assumption) ?_
    | with_reducible apply Keeps2.snd
    | (extract_lets +onlyGivenNames x; refine @Keeps.cut r o _ x ?_ (fun hx => ?_); rotate_left; clear_value x; rotate_right; dsimp -zeta only [x])
    | (extract_lets +onlyGivenNames x; refine @Keeps2.cut r o _ _ x ?_ (fun hx => ?_); rotate_left; clear_value x; rotate_right; dsimp -zeta only [x])
    | (extract_lets +onlyGivenNames x; clear_value x) | split

end Sys2Proof.Machine
end

