-- ==== Sys2Proof/Laws/KeepPower.lean ====
section
/-! SUPPORT. What each operation of Machine/Power.lean may change. -/

set_option linter.unusedTactic false
set_option linter.unreachableTactic false

namespace Sys2Proof.Machine

variable {r : Part → Prop} {o s : State}

theorem keeps_aonLost (h : Keeps r o s) (c_flt : r .flt) (c_recorder : r .recorder) (c_rst : r .rst) (c_sec : r .sec) (c_pins : r .pins) :
    Keeps r o (State.aonLost s) := by
  unfold State.aonLost
  repeat' first
    | with_reducible assumption | with_reducible apply keeps_onSec | with_reducible apply keeps_onRec
    | with_reducible apply keeps_onRst | with_reducible apply keeps_onFlt | with_reducible apply keeps_onPins

theorem keeps_aonStart (h : Keeps r o s) (c_ldg : r .ldg) (c_flt : r .flt) (c_recorder : r .recorder) (c_sec : r .sec) (c_LDG_GAUGE_STAT_FALLBACKS : r (.reg Reg.LDG_GAUGE_STAT_FALLBACKS.addr)) (c_RST_START_CFG_FORCE_COLD : r (.reg Reg.RST_START_CFG_FORCE_COLD.addr)) :
    Keeps r o (State.aonStart s) := by
  unfold State.aonStart
  repeat' first
    | with_reducible assumption | exact c_LDG_GAUGE_STAT_FALLBACKS | exact c_RST_START_CFG_FORCE_COLD
    | with_reducible apply keeps_rowCeiling | with_reducible apply keeps_onSec | with_reducible apply keeps_onRec
    | with_reducible apply keeps_setFld

theorem keeps_railsChanged (f : Pwr → Pwr) (h : Keeps r o s) (c_ldg : r .ldg) (c_flt : r .flt) (c_recorder : r .recorder) (c_rst : r .rst) (c_pwr : r .pwr) (c_sec : r .sec) (c_pins : r .pins) (c_LDG_GAUGE_STAT_FALLBACKS : r (.reg Reg.LDG_GAUGE_STAT_FALLBACKS.addr)) (c_RST_START_CFG_FORCE_COLD : r (.reg Reg.RST_START_CFG_FORCE_COLD.addr)) :
    Keeps r o (State.railsChanged s f) := by
  unfold State.railsChanged
  repeat' first
    | with_reducible assumption | with_reducible apply keeps_onPwr | with_reducible apply keeps_aonLost
    | with_reducible apply keeps_aonStart | with_reducible apply keeps_foldl | with_reducible apply keeps2_foldl
    | (with_reducible intro _; beta_reduce) | with_reducible refine Keeps2.of (by assumption) ?_
    | with_reducible apply Keeps2.snd
    | (extract_lets +onlyGivenNames x; refine @Keeps.cut r o _ x ?_ (fun hx => ?_); rotate_left; clear_value x; rotate_right; dsimp -zeta only [x])
    | (extract_lets +onlyGivenNames x; clear_value x) | split

theorem keeps_execDomainSwitch (h : Keeps r o s) (c_rings : r .rings) (c_dram : r .dram) (c_flt : r .flt) (c_pwr : r .pwr) (c_FLT_SWATCH_CTL_ARM : r (.reg Reg.FLT_SWATCH_CTL_ARM.addr)) :
    KeepsN r o (execDomainSwitch s) := by
  unfold execDomainSwitch
  repeat' first
    | with_reducible apply KeepsN.mk | with_reducible apply KeepsN.fault | with_reducible assumption
    | with_reducible apply keeps_onPwr | with_reducible apply keeps_pump | with_reducible apply keeps_foldl
    | with_reducible apply keeps2_foldl | (with_reducible intro _; beta_reduce)
    | with_reducible refine Keeps2.of (by assumption) ?_ | with_reducible apply Keeps2.snd
    | (extract_lets +onlyGivenNames x; refine @Keeps.cut r o _ x ?_ (fun hx => ?_); rotate_left; clear_value x; rotate_right; dsimp -zeta only [x])
    | (extract_lets +onlyGivenNames x; clear_value x) | split

theorem keeps_execPhaseLost (domain : ℕ) (phase : ℕ) (h : Keeps r o s) (c_flt : r .flt) (c_PWR_PHASE_FAULT_PHASE : r (.reg Reg.PWR_PHASE_FAULT_PHASE.addr)) :
    KeepsN r o (execPhaseLost domain phase s) := by
  unfold execPhaseLost
  repeat' first
    | with_reducible apply KeepsN.mk | with_reducible apply KeepsN.fault | with_reducible assumption
    | exact c_PWR_PHASE_FAULT_PHASE | with_reducible apply keeps_setFld | with_reducible apply keeps_raise
    | with_reducible apply keeps_foldl | with_reducible apply keeps2_foldl | (with_reducible intro _; beta_reduce)
    | with_reducible refine Keeps2.of (by assumption) ?_ | with_reducible apply Keeps2.snd
    | (extract_lets +onlyGivenNames x; refine @Keeps.cut r o _ x ?_ (fun hx => ?_); rotate_left; clear_value x; rotate_right; dsimp -zeta only [x])
    | (extract_lets +onlyGivenNames x; clear_value x) | split

theorem keeps_enterPs (ps : ℕ) (h : Keeps r o s) (c_flt : r .flt) (c_pwr : r .pwr) :
    Keeps r o (State.enterPs s ps) := by
  unfold State.enterPs
  repeat' first
    | with_reducible assumption | with_reducible apply keeps_onPwr | with_reducible apply keeps_raise

theorem keeps_execPs1Entry (h : Keeps r o s) (c_flt : r .flt) (c_pwr : r .pwr) :
    KeepsN r o (execPs1Entry s) := by
  unfold execPs1Entry
  repeat' first
    | with_reducible apply KeepsN.mk | with_reducible apply KeepsN.fault | with_reducible assumption
    | with_reducible apply keeps_enterPs | with_reducible apply keeps_guardStep | with_reducible apply keeps_foldl
    | with_reducible apply keeps2_foldl | (with_reducible intro _; beta_reduce)

theorem keeps_enterStandby (h : Keeps r o s) (c_flt : r .flt) (c_pwr : r .pwr) :
    Keeps r o (State.enterStandby s) := by
  unfold State.enterStandby
  repeat' first
    | with_reducible assumption | with_reducible apply keeps_onPwr | with_reducible apply keeps_enterPs

theorem keeps_execPs2Entry (h : Keeps r o s) (c_flt : r .flt) (c_pwr : r .pwr) :
    KeepsN r o (execPs2Entry s) := by
  unfold execPs2Entry
  repeat' first
    | with_reducible apply KeepsN.mk | with_reducible apply KeepsN.fault | with_reducible assumption
    | with_reducible apply keeps_enterPs | with_reducible apply keeps_guardStep
    | with_reducible apply keeps_enterStandby | with_reducible apply keeps_foldl | with_reducible apply keeps2_foldl
    | (with_reducible intro _; beta_reduce) | with_reducible refine Keeps2.of (by assumption) ?_
    | with_reducible apply Keeps2.snd
    | (extract_lets +onlyGivenNames x; refine @Keeps.cut r o _ x ?_ (fun hx => ?_); rotate_left; clear_value x; rotate_right; dsimp -zeta only [x])
    | (extract_lets +onlyGivenNames x; clear_value x) | split

theorem keeps_execPs3Entry (h : Keeps r o s) (c_flt : r .flt) (c_pwr : r .pwr) :
    KeepsN r o (execPs3Entry s) := by
  unfold execPs3Entry
  repeat' first
    | with_reducible apply KeepsN.mk | with_reducible apply KeepsN.fault | with_reducible assumption
    | with_reducible apply keeps_guardStep | with_reducible apply keeps_enterStandby
    | with_reducible apply keeps_foldl | with_reducible apply keeps2_foldl | (with_reducible intro _; beta_reduce)

theorem keeps_requestPs3 (h : Keeps r o s) (c_flt : r .flt) (c_pwr : r .pwr) :
    Keeps r o (State.requestPs3 s) := by
  unfold State.requestPs3
  repeat' first
    | with_reducible assumption | with_reducible apply keeps_onPwr | with_reducible apply keeps_enterStandby
    | with_reducible apply keeps_foldl | with_reducible apply keeps2_foldl | (with_reducible intro _; beta_reduce)
    | with_reducible refine Keeps2.of (by assumption) ?_ | with_reducible apply Keeps2.snd
    | (extract_lets +onlyGivenNames x; refine @Keeps.cut r o _ x ?_ (fun hx => ?_); rotate_left; clear_value x; rotate_right; dsimp -zeta only [x])
    | (extract_lets +onlyGivenNames x; clear_value x) | split

theorem keeps_execPs3Request (h : Keeps r o s) (c_flt : r .flt) (c_pwr : r .pwr) :
    KeepsN r o (execPs3Request s) := by
  unfold execPs3Request
  repeat' first
    | with_reducible apply KeepsN.mk | with_reducible apply KeepsN.fault | with_reducible assumption
    | with_reducible apply keeps_guardStep | with_reducible apply keeps_requestPs3 | with_reducible apply keeps_foldl
    | with_reducible apply keeps2_foldl | (with_reducible intro _; beta_reduce)

theorem keeps_wake (source : ℕ) (h : Keeps r o s) (c_flt : r .flt) (c_pwr : r .pwr) (c_PWR_PS_STAT_STATE : r (.reg Reg.PWR_PS_STAT_STATE.addr)) :
    Keeps r o (State.wake s source) := by
  unfold State.wake
  repeat' first
    | with_reducible assumption | exact c_PWR_PS_STAT_STATE | with_reducible apply keeps_onPwr
    | with_reducible apply keeps_bump | with_reducible apply keeps_raise | with_reducible apply keeps_foldl
    | with_reducible apply keeps2_foldl | (with_reducible intro _; beta_reduce)
    | with_reducible refine Keeps2.of (by assumption) ?_ | with_reducible apply Keeps2.snd
    | (extract_lets +onlyGivenNames x; refine @Keeps.cut r o _ x ?_ (fun hx => ?_); rotate_left; clear_value x; rotate_right; dsimp -zeta only [x])
    | (extract_lets +onlyGivenNames x; clear_value x) | split

theorem keeps_execPs0Request (h : Keeps r o s) (c_flt : r .flt) (c_pwr : r .pwr) (c_PWR_PS_STAT_STATE : r (.reg Reg.PWR_PS_STAT_STATE.addr)) :
    KeepsN r o (execPs0Request s) := by
  unfold execPs0Request
  repeat' first
    | with_reducible apply KeepsN.mk | with_reducible apply KeepsN.fault | with_reducible assumption
    | with_reducible apply keeps_wake | with_reducible apply keeps_guardStep | with_reducible apply keeps_foldl
    | with_reducible apply keeps2_foldl | (with_reducible intro _; beta_reduce)

theorem keeps_execWakeEvent (source : ℕ) (h : Keeps r o s) (c_flt : r .flt) (c_pwr : r .pwr) (c_PWR_PS_STAT_STATE : r (.reg Reg.PWR_PS_STAT_STATE.addr)) :
    KeepsN r o (execWakeEvent source s) := by
  unfold execWakeEvent
  repeat' first
    | with_reducible apply KeepsN.mk | with_reducible apply KeepsN.fault | with_reducible assumption
    | with_reducible apply keeps_wake | with_reducible apply keeps_guardStep | with_reducible apply keeps_foldl
    | with_reducible apply keeps2_foldl | (with_reducible intro _; beta_reduce)

theorem keeps_inputSample (input : ℕ) (h : Keeps r o s) (c_pwr : r .pwr) (c_PWR_INPUT_MIN_P48V_MIN_10MV : r (.reg Reg.PWR_INPUT_MIN_P48V_MIN_10MV.addr)) :
    Keeps r o (State.inputSample s input) := by
  unfold State.inputSample
  repeat' first
    | with_reducible assumption | exact c_PWR_INPUT_MIN_P48V_MIN_10MV | with_reducible apply keeps_onPwr
    | with_reducible apply keeps_setFld

theorem keeps_shedScan (n : ℕ) (h : Keeps r o s) (c_nfe : r .nfe) (c_sch : r .sch) (c_mch : r .mch) (c_val : r .val) (c_cip : r .cip) (c_ldg : r .ldg) (c_ftl : r .ftl) (c_peer : r .peer) (c_flt : r .flt) (c_CIP_LANE_STAT_NONCE_REFUSALS : r (.reg Reg.CIP_LANE_STAT_NONCE_REFUSALS.addr)) (c_FLT_SWATCH_CTL_ARM : r (.reg Reg.FLT_SWATCH_CTL_ARM.addr)) (c_LDG_GAUGE_STAT_FALLBACKS : r (.reg Reg.LDG_GAUGE_STAT_FALLBACKS.addr)) (c_LDG_UNMETERED_LINES : r (.reg Reg.LDG_UNMETERED_LINES.addr)) (c_PWR_SHED_CNT_SHED_WRITES : r (.reg Reg.PWR_SHED_CNT_SHED_WRITES.addr)) (c_VAL_E2E_STAT_E2E_MISMATCHES : r (.reg Reg.VAL_E2E_STAT_E2E_MISMATCHES.addr)) :
    Keeps r o (State.shedScan s n) := by
  unfold State.shedScan
  repeat' first
    | with_reducible assumption | with_reducible apply keeps_addCond | with_reducible apply keeps_endCount
    | with_reducible apply keeps_failCmd | with_reducible apply keeps_withCmd | with_reducible apply keeps_endBatch
    | with_reducible apply keeps_foldl | with_reducible apply keeps2_foldl | (with_reducible intro _; beta_reduce)
    | with_reducible refine Keeps2.of (by assumption) ?_ | with_reducible apply Keeps2.snd
    | (extract_lets +onlyGivenNames x; refine @Keeps.cut r o _ x ?_ (fun hx => ?_); rotate_left; clear_value x; rotate_right; dsimp -zeta only [x])
    | (extract_lets +onlyGivenNames x; clear_value x) | split

theorem keeps_shedWrite (n : ℕ) (h : Keeps r o s) (c_nfe : r .nfe) (c_sch : r .sch) (c_val : r .val) (c_cip : r .cip) (c_ldg : r .ldg) (c_ftl : r .ftl) (c_peer : r .peer) (c_flt : r .flt) (c_CIP_LANE_STAT_NONCE_REFUSALS : r (.reg Reg.CIP_LANE_STAT_NONCE_REFUSALS.addr)) (c_FLT_SWATCH_CTL_ARM : r (.reg Reg.FLT_SWATCH_CTL_ARM.addr)) (c_LDG_GAUGE_STAT_FALLBACKS : r (.reg Reg.LDG_GAUGE_STAT_FALLBACKS.addr)) (c_LDG_UNMETERED_LINES : r (.reg Reg.LDG_UNMETERED_LINES.addr)) (c_PWR_SHED_CNT_SHED_WRITES : r (.reg Reg.PWR_SHED_CNT_SHED_WRITES.addr)) (c_VAL_E2E_STAT_E2E_MISMATCHES : r (.reg Reg.VAL_E2E_STAT_E2E_MISMATCHES.addr)) :
    Keeps r o (State.shedWrite s n) := by
  unfold State.shedWrite
  repeat' first
    | with_reducible assumption | with_reducible apply keeps_addCond | with_reducible apply keeps_failCmd
    | with_reducible apply keeps_withCmd | with_reducible apply keeps_foldl | with_reducible apply keeps2_foldl
    | (with_reducible intro _; beta_reduce)

theorem keeps_shedAny (n : ℕ) (h : Keeps r o s) (c_nfe : r .nfe) (c_sch : r .sch) (c_val : r .val) (c_cip : r .cip) (c_ldg : r .ldg) (c_ftl : r .ftl) (c_peer : r .peer) (c_flt : r .flt) (c_CIP_LANE_STAT_NONCE_REFUSALS : r (.reg Reg.CIP_LANE_STAT_NONCE_REFUSALS.addr)) (c_FLT_SWATCH_CTL_ARM : r (.reg Reg.FLT_SWATCH_CTL_ARM.addr)) (c_LDG_GAUGE_STAT_FALLBACKS : r (.reg Reg.LDG_GAUGE_STAT_FALLBACKS.addr)) (c_LDG_UNMETERED_LINES : r (.reg Reg.LDG_UNMETERED_LINES.addr)) (c_PWR_SHED_CNT_SHED_WRITES : r (.reg Reg.PWR_SHED_CNT_SHED_WRITES.addr)) (c_VAL_E2E_STAT_E2E_MISMATCHES : r (.reg Reg.VAL_E2E_STAT_E2E_MISMATCHES.addr)) :
    Keeps r o (State.shedAny s n) := by
  unfold State.shedAny
  repeat' first
    | with_reducible assumption | with_reducible apply keeps_endRead | with_reducible apply keeps_addCond
    | with_reducible apply keeps_failCmd | with_reducible apply keeps_endCmd | with_reducible apply keeps_withCmd
    | with_reducible apply keeps_foldl | with_reducible apply keeps2_foldl | (with_reducible intro _; beta_reduce)
    | with_reducible refine Keeps2.of (by assumption) ?_ | with_reducible apply Keeps2.snd
    | (extract_lets +onlyGivenNames x; refine @Keeps.cut r o _ x ?_ (fun hx => ?_); rotate_left; clear_value x; rotate_right; dsimp -zeta only [x])
    | (extract_lets +onlyGivenNames x; clear_value x) | split

theorem keeps_stageActions (stage : ℕ) (h : Keeps r o s) (c_nfe : r .nfe) (c_sch : r .sch) (c_idx : r .idx) (c_mch : r .mch) (c_val : r .val) (c_cip : r .cip) (c_ldg : r .ldg) (c_ftl : r .ftl) (c_peer : r .peer) (c_rings : r .rings) (c_dram : r .dram) (c_flt : r .flt) (c_CIP_LANE_STAT_NONCE_REFUSALS : r (.reg Reg.CIP_LANE_STAT_NONCE_REFUSALS.addr)) (c_FLT_SWATCH_CTL_ARM : r (.reg Reg.FLT_SWATCH_CTL_ARM.addr)) (c_LDG_GAUGE_STAT_FALLBACKS : r (.reg Reg.LDG_GAUGE_STAT_FALLBACKS.addr)) (c_LDG_UNMETERED_LINES : r (.reg Reg.LDG_UNMETERED_LINES.addr)) (c_PEER_CHAIN_STAT_DEGRADED : r (.reg Reg.PEER_CHAIN_STAT_DEGRADED.addr)) (c_PWR_SHED_CNT_SHED_WRITES : r (.reg Reg.PWR_SHED_CNT_SHED_WRITES.addr)) (c_VAL_E2E_STAT_E2E_MISMATCHES : r (.reg Reg.VAL_E2E_STAT_E2E_MISMATCHES.addr)) :
    Keeps r o (State.stageActions s stage) := by
  unfold State.stageActions
  repeat' first
    | with_reducible assumption | with_reducible apply keeps_onPeer | with_reducible apply keeps_serveRestores
    | with_reducible apply keeps_shedScan | with_reducible apply keeps_shedWrite
    | with_reducible apply keeps_ackTimedOut | with_reducible apply keeps_onMch | with_reducible apply keeps_capHalves
    | with_reducible apply keeps_shedAny | with_reducible apply keeps_foldl | with_reducible apply keeps2_foldl
    | (with_reducible intro _; beta_reduce) | with_reducible refine Keeps2.of (by assumption) ?_
    | with_reducible apply Keeps2.snd
    | (extract_lets +onlyGivenNames x; refine @Keeps.cut r o _ x ?_ (fun hx => ?_); rotate_left; clear_value x; rotate_right; dsimp -zeta only [x])
    | (extract_lets +onlyGivenNames x; clear_value x) | split

theorem keeps_enterShed (input : ℕ) (stage : ℕ) (h : Keeps r o s) (c_nfe : r .nfe) (c_sch : r .sch) (c_idx : r .idx) (c_mch : r .mch) (c_val : r .val) (c_cip : r .cip) (c_ldg : r .ldg) (c_ftl : r .ftl) (c_peer : r .peer) (c_rings : r .rings) (c_dram : r .dram) (c_flt : r .flt) (c_pwr : r .pwr) (c_CIP_LANE_STAT_NONCE_REFUSALS : r (.reg Reg.CIP_LANE_STAT_NONCE_REFUSALS.addr)) (c_FLT_SWATCH_CTL_ARM : r (.reg Reg.FLT_SWATCH_CTL_ARM.addr)) (c_LDG_GAUGE_STAT_FALLBACKS : r (.reg Reg.LDG_GAUGE_STAT_FALLBACKS.addr)) (c_LDG_UNMETERED_LINES : r (.reg Reg.LDG_UNMETERED_LINES.addr)) (c_PEER_CHAIN_STAT_DEGRADED : r (.reg Reg.PEER_CHAIN_STAT_DEGRADED.addr)) (c_PWR_SHED_CNT_SHED_WRITES : r (.reg Reg.PWR_SHED_CNT_SHED_WRITES.addr)) (c_PWR_SHED_STAT_TAKEOVER : r (.reg Reg.PWR_SHED_STAT_TAKEOVER.addr)) (c_VAL_E2E_STAT_E2E_MISMATCHES : r (.reg Reg.VAL_E2E_STAT_E2E_MISMATCHES.addr)) :
    Keeps r o (State.enterShed s input stage) := by
  unfold State.enterShed
  repeat' first
    | with_reducible assumption | exact c_CIP_LANE_STAT_NONCE_REFUSALS | exact c_FLT_SWATCH_CTL_ARM
    | exact c_LDG_GAUGE_STAT_FALLBACKS | exact c_LDG_UNMETERED_LINES | exact c_PEER_CHAIN_STAT_DEGRADED
    | exact c_PWR_SHED_CNT_SHED_WRITES | exact c_PWR_SHED_STAT_TAKEOVER | exact c_VAL_E2E_STAT_E2E_MISMATCHES
    | with_reducible apply keeps_onPwr | with_reducible apply keeps_stageActions | with_reducible apply keeps_setFld
    | with_reducible apply keeps_raise

theorem keeps_execShedStageEntered (stage : ℕ) (input : ℕ) (h : Keeps r o s) (c_nfe : r .nfe) (c_sch : r .sch) (c_idx : r .idx) (c_mch : r .mch) (c_val : r .val) (c_cip : r .cip) (c_ldg : r .ldg) (c_ftl : r .ftl) (c_peer : r .peer) (c_rings : r .rings) (c_dram : r .dram) (c_flt : r .flt) (c_pwr : r .pwr) (c_CIP_LANE_STAT_NONCE_REFUSALS : r (.reg Reg.CIP_LANE_STAT_NONCE_REFUSALS.addr)) (c_FLT_SWATCH_CTL_ARM : r (.reg Reg.FLT_SWATCH_CTL_ARM.addr)) (c_LDG_GAUGE_STAT_FALLBACKS : r (.reg Reg.LDG_GAUGE_STAT_FALLBACKS.addr)) (c_LDG_UNMETERED_LINES : r (.reg Reg.LDG_UNMETERED_LINES.addr)) (c_PEER_CHAIN_STAT_DEGRADED : r (.reg Reg.PEER_CHAIN_STAT_DEGRADED.addr)) (c_PWR_INPUT_MIN_P48V_MIN_10MV : r (.reg Reg.PWR_INPUT_MIN_P48V_MIN_10MV.addr)) (c_PWR_SHED_CNT_SHED_WRITES : r (.reg Reg.PWR_SHED_CNT_SHED_WRITES.addr)) (c_PWR_SHED_STAT_TAKEOVER : r (.reg Reg.PWR_SHED_STAT_TAKEOVER.addr)) (c_VAL_E2E_STAT_E2E_MISMATCHES : r (.reg Reg.VAL_E2E_STAT_E2E_MISMATCHES.addr)) :
    KeepsN r o (execShedStageEntered stage input s) := by
  unfold execShedStageEntered
  repeat' first
    | with_reducible apply KeepsN.mk | with_reducible apply KeepsN.fault | with_reducible assumption
    | with_reducible apply keeps_inputSample | with_reducible apply keeps_guardStep
    | with_reducible apply keeps_enterShed | with_reducible apply keeps_foldl | with_reducible apply keeps2_foldl
    | (with_reducible intro _; beta_reduce)

theorem keeps_stageResumes (stage : ℕ) (h : Keeps r o s) (c_mch : r .mch) (c_peer : r .peer) :
    Keeps r o (State.stageResumes s stage) := by
  unfold State.stageResumes
  repeat' first
    | with_reducible assumption | with_reducible apply keeps_serveHalves | with_reducible apply keeps_onPeer
    | with_reducible apply keeps_foldl | with_reducible apply keeps2_foldl | (with_reducible intro _; beta_reduce)
    | with_reducible refine Keeps2.of (by assumption) ?_ | with_reducible apply Keeps2.snd
    | (extract_lets +onlyGivenNames x; refine @Keeps.cut r o _ x ?_ (fun hx => ?_); rotate_left; clear_value x; rotate_right; dsimp -zeta only [x])
    | (extract_lets +onlyGivenNames x; clear_value x) | split

theorem keeps_execShedStageLeft (stage : ℕ) (ms : ℕ) (h : Keeps r o s) (c_mch : r .mch) (c_peer : r .peer) (c_flt : r .flt) (c_pwr : r .pwr) :
    KeepsN r o (execShedStageLeft stage ms s) := by
  unfold execShedStageLeft
  repeat' first
    | with_reducible apply KeepsN.mk | with_reducible apply KeepsN.fault | with_reducible assumption
    | with_reducible apply keeps_onPwr | with_reducible apply keeps_guardStep
    | with_reducible apply keeps_stageResumes | with_reducible apply keeps_raise | with_reducible apply keeps_foldl
    | with_reducible apply keeps2_foldl | (with_reducible intro _; beta_reduce)

theorem keeps_partialRows (h : Keeps r o s) (c_sch : r .sch) (c_ldg : r .ldg) (c_ftl : r .ftl) (c_rings : r .rings) (c_dram : r .dram) (c_flt : r .flt) (c_FLT_SWATCH_CTL_ARM : r (.reg Reg.FLT_SWATCH_CTL_ARM.addr)) (c_LDG_GAUGE_STAT_FALLBACKS : r (.reg Reg.LDG_GAUGE_STAT_FALLBACKS.addr)) :
    Keeps r o (State.partialRows s) := by
  unfold State.partialRows
  repeat' first
    | with_reducible assumption | with_reducible apply keeps_partialPar | with_reducible apply keeps_partialRow
    | with_reducible apply keeps_foldl | with_reducible apply keeps2_foldl | (with_reducible intro _; beta_reduce)

theorem keeps_orderlyDown (h : Keeps r o s) (c_latches : r .latches) (c_nfe : r .nfe) (c_sch : r .sch) (c_idx : r .idx) (c_mch : r .mch) (c_val : r .val) (c_cip : r .cip) (c_ldg : r .ldg) (c_ftl : r .ftl) (c_peer : r .peer) (c_rings : r .rings) (c_dram : r .dram) (c_flt : r .flt) (c_recorder : r .recorder) (c_rst : r .rst) (c_pwr : r .pwr) (c_session : r .session) (c_pins : r .pins) (c_CIP_LANE_STAT_NONCE_REFUSALS : r (.reg Reg.CIP_LANE_STAT_NONCE_REFUSALS.addr)) (c_FLT_SWATCH_CTL_ARM : r (.reg Reg.FLT_SWATCH_CTL_ARM.addr)) (c_LDG_GAUGE_STAT_FALLBACKS : r (.reg Reg.LDG_GAUGE_STAT_FALLBACKS.addr)) (c_LDG_UNMETERED_LINES : r (.reg Reg.LDG_UNMETERED_LINES.addr)) (c_PWR_SHED_CNT_SHED_WRITES : r (.reg Reg.PWR_SHED_CNT_SHED_WRITES.addr)) :
    Keeps r o (State.orderlyDown s) := by
  unfold State.orderlyDown
  repeat' first
    | with_reducible assumption | with_reducible apply keeps_onPwr | with_reducible apply keeps_partialRows
    | with_reducible apply keeps_onRst | with_reducible apply keeps_chipReset | with_reducible apply keeps_mainOff
    | with_reducible apply keeps_foldl | with_reducible apply keeps2_foldl | (with_reducible intro _; beta_reduce)
    | with_reducible refine Keeps2.of (by assumption) ?_ | with_reducible apply Keeps2.snd
    | (extract_lets +onlyGivenNames x; refine @Keeps.cut r o _ x ?_ (fun hx => ?_); rotate_left; clear_value x; rotate_right; dsimp -zeta only [x])
    | (extract_lets +onlyGivenNames x; clear_value x) | split

theorem keeps_execHoldupTakeover (input : ℕ) (bank : ℕ) (h : Keeps r o s) (c_latches : r .latches) (c_nfe : r .nfe) (c_sch : r .sch) (c_idx : r .idx) (c_mch : r .mch) (c_val : r .val) (c_cip : r .cip) (c_ldg : r .ldg) (c_ftl : r .ftl) (c_peer : r .peer) (c_rings : r .rings) (c_dram : r .dram) (c_flt : r .flt) (c_recorder : r .recorder) (c_rst : r .rst) (c_pwr : r .pwr) (c_sec : r .sec) (c_session : r .session) (c_pins : r .pins) (c_CIP_LANE_STAT_NONCE_REFUSALS : r (.reg Reg.CIP_LANE_STAT_NONCE_REFUSALS.addr)) (c_FLT_SWATCH_CTL_ARM : r (.reg Reg.FLT_SWATCH_CTL_ARM.addr)) (c_LDG_GAUGE_STAT_FALLBACKS : r (.reg Reg.LDG_GAUGE_STAT_FALLBACKS.addr)) (c_LDG_UNMETERED_LINES : r (.reg Reg.LDG_UNMETERED_LINES.addr)) (c_PWR_INPUT_MIN_P48V_MIN_10MV : r (.reg Reg.PWR_INPUT_MIN_P48V_MIN_10MV.addr)) (c_PWR_SHED_CNT_SHED_WRITES : r (.reg Reg.PWR_SHED_CNT_SHED_WRITES.addr)) (c_RST_START_CFG_FORCE_COLD : r (.reg Reg.RST_START_CFG_FORCE_COLD.addr)) :
    KeepsN r o (execHoldupTakeover input bank s) := by
  unfold execHoldupTakeover
  repeat' first
    | with_reducible apply KeepsN.mk | with_reducible apply KeepsN.fault | with_reducible assumption
    | with_reducible apply keeps_inputSample | with_reducible apply keeps_guardStep
    | with_reducible apply keeps_orderlyDown | with_reducible apply keeps_raise
    | with_reducible apply keeps_railsChanged | with_reducible apply keeps_foldl | with_reducible apply keeps2_foldl
    | (with_reducible intro _; beta_reduce) | with_reducible refine Keeps2.of (by assumption) ?_
    | with_reducible apply Keeps2.snd
    | (extract_lets +onlyGivenNames x; refine @Keeps.cut r o _ x ?_ (fun hx => ?_); rotate_left; clear_value x; rotate_right; dsimp -zeta only [x])
    | (extract_lets +onlyGivenNames x; clear_value x) | split

theorem keeps_execHoldupTest (energyDj : ℕ) (h : Keeps r o s) (c_flt : r .flt) (c_pwr : r .pwr) (c_PWR_HOLDUP_STAT_READY : r (.reg Reg.PWR_HOLDUP_STAT_READY.addr)) :
    KeepsN r o (execHoldupTest energyDj s) := by
  unfold execHoldupTest
  repeat' first
    | with_reducible apply KeepsN.mk | with_reducible apply KeepsN.fault | with_reducible assumption
    | exact c_PWR_HOLDUP_STAT_READY | with_reducible apply keeps_onPwr | with_reducible apply keeps_setFld
    | with_reducible apply keeps_raise | with_reducible apply keeps_foldl | with_reducible apply keeps2_foldl
    | (with_reducible intro _; beta_reduce) | with_reducible refine Keeps2.of (by assumption) ?_
    | with_reducible apply Keeps2.snd
    | (extract_lets +onlyGivenNames x; refine @Keeps.cut r o _ x ?_ (fun hx => ?_); rotate_left; clear_value x; rotate_right; dsimp -zeta only [x])
    | (extract_lets +onlyGivenNames x; clear_value x) | split

theorem keeps_releaseWrites (h : Keeps r o s) (c_sch : r .sch) :
    Keeps r o (State.releaseWrites s) := by
  unfold State.releaseWrites
  repeat' first
    | with_reducible assumption | with_reducible apply keeps_onSch

theorem keeps_execHoldupReady (h : Keeps r o s) (c_sch : r .sch) (c_pwr : r .pwr) :
    KeepsN r o (execHoldupReady s) := by
  unfold execHoldupReady
  repeat' first
    | with_reducible apply KeepsN.mk | with_reducible apply KeepsN.fault | with_reducible assumption
    | with_reducible apply keeps_onPwr | with_reducible apply keeps_releaseWrites | with_reducible apply keeps_drawNat
    | with_reducible apply keeps_foldl | with_reducible apply keeps2_foldl | (with_reducible intro _; beta_reduce)
    | with_reducible refine Keeps2.of (by assumption) ?_ | with_reducible apply Keeps2.snd

theorem keeps_execHoldupNotReady (h : Keeps r o s) (c_sch : r .sch) (c_flt : r .flt) :
    KeepsN r o (execHoldupNotReady s) := by
  unfold execHoldupNotReady
  repeat' first
    | with_reducible apply KeepsN.mk | with_reducible apply KeepsN.fault | with_reducible assumption
    | with_reducible apply keeps_releaseWrites | with_reducible apply keeps_guardStep
    | with_reducible apply keeps_raise | with_reducible apply keeps_foldl | with_reducible apply keeps2_foldl
    | (with_reducible intro _; beta_reduce)

end Sys2Proof.Machine
end

