-- ==== Sys2Proof/Laws/KeepPins.lean ====
section
/-! SUPPORT. What each operation of Machine/Pins.lean may change. -/

set_option linter.unusedTactic false
set_option linter.unreachableTactic false

namespace Sys2Proof.Machine

variable {r : Part → Prop} {o s : State}

theorem keeps_execP48vApplied (h : Keeps r o s) (c_ldg : r .ldg) (c_flt : r .flt) (c_recorder : r .recorder) (c_rst : r .rst) (c_pwr : r .pwr) (c_sec : r .sec) (c_pins : r .pins) (c_LDG_GAUGE_STAT_FALLBACKS : r (.reg Reg.LDG_GAUGE_STAT_FALLBACKS.addr)) (c_RST_START_CFG_FORCE_COLD : r (.reg Reg.RST_START_CFG_FORCE_COLD.addr)) :
    KeepsN r o (execP48vApplied s) := by
  unfold execP48vApplied
  repeat' first
    | with_reducible apply KeepsN.mk | with_reducible apply KeepsN.fault | with_reducible assumption
    | with_reducible apply keeps_guardStep | with_reducible apply keeps_drawNat | with_reducible apply keeps_onRst
    | with_reducible apply keeps_railsChanged | with_reducible apply keeps_foldl | with_reducible apply keeps2_foldl
    | (with_reducible intro _; beta_reduce) | with_reducible refine Keeps2.of (by assumption) ?_
    | with_reducible apply Keeps2.snd

theorem keeps_execP3v3AuxLost (h : Keeps r o s) (c_ldg : r .ldg) (c_flt : r .flt) (c_recorder : r .recorder) (c_rst : r .rst) (c_pwr : r .pwr) (c_sec : r .sec) (c_pins : r .pins) (c_LDG_GAUGE_STAT_FALLBACKS : r (.reg Reg.LDG_GAUGE_STAT_FALLBACKS.addr)) (c_RST_START_CFG_FORCE_COLD : r (.reg Reg.RST_START_CFG_FORCE_COLD.addr)) :
    KeepsN r o (execP3v3AuxLost s) := by
  unfold execP3v3AuxLost
  repeat' first
    | with_reducible apply KeepsN.mk | with_reducible apply KeepsN.fault | with_reducible assumption
    | with_reducible apply keeps_guardStep | with_reducible apply keeps_raise | with_reducible apply keeps_drawNat
    | with_reducible apply keeps_railsChanged | with_reducible apply keeps_foldl | with_reducible apply keeps2_foldl
    | (with_reducible intro _; beta_reduce) | with_reducible refine Keeps2.of (by assumption) ?_
    | with_reducible apply Keeps2.snd

theorem keeps_execP3v3AuxApplied (h : Keeps r o s) (c_ldg : r .ldg) (c_flt : r .flt) (c_recorder : r .recorder) (c_rst : r .rst) (c_pwr : r .pwr) (c_sec : r .sec) (c_pins : r .pins) (c_LDG_GAUGE_STAT_FALLBACKS : r (.reg Reg.LDG_GAUGE_STAT_FALLBACKS.addr)) (c_RST_START_CFG_FORCE_COLD : r (.reg Reg.RST_START_CFG_FORCE_COLD.addr)) :
    KeepsN r o (execP3v3AuxApplied s) := by
  unfold execP3v3AuxApplied
  repeat' first
    | with_reducible apply KeepsN.mk | with_reducible apply KeepsN.fault | with_reducible assumption
    | with_reducible apply keeps_guardStep | with_reducible apply keeps_drawNat
    | with_reducible apply keeps_railsChanged | with_reducible apply keeps_foldl | with_reducible apply keeps2_foldl
    | (with_reducible intro _; beta_reduce) | with_reducible refine Keeps2.of (by assumption) ?_
    | with_reducible apply Keeps2.snd

theorem keeps_execResetInAssert (h : Keeps r o s) (c_latches : r .latches) (c_nfe : r .nfe) (c_sch : r .sch) (c_idx : r .idx) (c_mch : r .mch) (c_val : r .val) (c_cip : r .cip) (c_ldg : r .ldg) (c_ftl : r .ftl) (c_peer : r .peer) (c_rings : r .rings) (c_dram : r .dram) (c_flt : r .flt) (c_recorder : r .recorder) (c_rst : r .rst) (c_pwr : r .pwr) (c_session : r .session) (c_pins : r .pins) (c_CIP_LANE_STAT_NONCE_REFUSALS : r (.reg Reg.CIP_LANE_STAT_NONCE_REFUSALS.addr)) (c_FLT_SWATCH_CTL_ARM : r (.reg Reg.FLT_SWATCH_CTL_ARM.addr)) (c_LDG_GAUGE_STAT_FALLBACKS : r (.reg Reg.LDG_GAUGE_STAT_FALLBACKS.addr)) (c_LDG_UNMETERED_LINES : r (.reg Reg.LDG_UNMETERED_LINES.addr)) (c_PWR_SHED_CNT_SHED_WRITES : r (.reg Reg.PWR_SHED_CNT_SHED_WRITES.addr)) :
    KeepsN r o (execResetInAssert s) := by
  unfold execResetInAssert
  repeat' first
    | with_reducible apply KeepsN.mk | with_reducible apply KeepsN.fault | with_reducible assumption
    | with_reducible apply keeps_onRst | with_reducible apply keeps_onPins | with_reducible apply keeps_chipReset

theorem keeps_execResetInRelease (h : Keeps r o s) (c_rst : r .rst) (c_pins : r .pins) :
    KeepsN r o (execResetInRelease s) := by
  unfold execResetInRelease
  repeat' first
    | with_reducible apply KeepsN.mk | with_reducible apply KeepsN.fault | with_reducible assumption
    | with_reducible apply keeps_onRst | with_reducible apply keeps_onPins

theorem keeps_powerOff (h : Keeps r o s) (c_latches : r .latches) (c_nfe : r .nfe) (c_sch : r .sch) (c_idx : r .idx) (c_mch : r .mch) (c_val : r .val) (c_cip : r .cip) (c_ldg : r .ldg) (c_ftl : r .ftl) (c_peer : r .peer) (c_rings : r .rings) (c_dram : r .dram) (c_flt : r .flt) (c_recorder : r .recorder) (c_rst : r .rst) (c_pwr : r .pwr) (c_session : r .session) (c_pins : r .pins) (c_CIP_LANE_STAT_NONCE_REFUSALS : r (.reg Reg.CIP_LANE_STAT_NONCE_REFUSALS.addr)) (c_FLT_SWATCH_CTL_ARM : r (.reg Reg.FLT_SWATCH_CTL_ARM.addr)) (c_LDG_GAUGE_STAT_FALLBACKS : r (.reg Reg.LDG_GAUGE_STAT_FALLBACKS.addr)) (c_LDG_UNMETERED_LINES : r (.reg Reg.LDG_UNMETERED_LINES.addr)) (c_PWR_SHED_CNT_SHED_WRITES : r (.reg Reg.PWR_SHED_CNT_SHED_WRITES.addr)) :
    Keeps r o (State.powerOff s) := by
  unfold State.powerOff
  repeat' first
    | with_reducible assumption | with_reducible apply keeps_chipReset | with_reducible apply keeps_mainOff
    | with_reducible apply keeps_foldl | with_reducible apply keeps2_foldl | (with_reducible intro _; beta_reduce)
    | with_reducible refine Keeps2.of (by assumption) ?_ | with_reducible apply Keeps2.snd
    | (extract_lets +onlyGivenNames x; refine @Keeps.cut r o _ x ?_ (fun hx => ?_); rotate_left; clear_value x; rotate_right; dsimp -zeta only [x])
    | (extract_lets +onlyGivenNames x; clear_value x) | split

theorem keeps_execPwrDisableAssert (h : Keeps r o s) (c_latches : r .latches) (c_nfe : r .nfe) (c_sch : r .sch) (c_idx : r .idx) (c_mch : r .mch) (c_val : r .val) (c_cip : r .cip) (c_ldg : r .ldg) (c_ftl : r .ftl) (c_peer : r .peer) (c_rings : r .rings) (c_dram : r .dram) (c_flt : r .flt) (c_recorder : r .recorder) (c_rst : r .rst) (c_pwr : r .pwr) (c_session : r .session) (c_pins : r .pins) (c_CIP_LANE_STAT_NONCE_REFUSALS : r (.reg Reg.CIP_LANE_STAT_NONCE_REFUSALS.addr)) (c_FLT_SWATCH_CTL_ARM : r (.reg Reg.FLT_SWATCH_CTL_ARM.addr)) (c_LDG_GAUGE_STAT_FALLBACKS : r (.reg Reg.LDG_GAUGE_STAT_FALLBACKS.addr)) (c_LDG_UNMETERED_LINES : r (.reg Reg.LDG_UNMETERED_LINES.addr)) (c_PWR_SHED_CNT_SHED_WRITES : r (.reg Reg.PWR_SHED_CNT_SHED_WRITES.addr)) :
    KeepsN r o (execPwrDisableAssert s) := by
  unfold execPwrDisableAssert
  repeat' first
    | with_reducible apply KeepsN.mk | with_reducible apply KeepsN.fault | with_reducible assumption
    | with_reducible apply keeps_guardStep | with_reducible apply keeps_powerOff | with_reducible apply keeps_onPins
    | with_reducible apply keeps_foldl | with_reducible apply keeps2_foldl | (with_reducible intro _; beta_reduce)

theorem keeps_execPwrDisableRelease (h : Keeps r o s) (c_pins : r .pins) :
    KeepsN r o (execPwrDisableRelease s) := by
  unfold execPwrDisableRelease
  repeat' first
    | with_reducible apply KeepsN.mk | with_reducible apply KeepsN.fault | with_reducible assumption
    | with_reducible apply keeps_onPins

theorem keeps_execPresentNFall (h : Keeps r o s) (c_pins : r .pins) :
    KeepsN r o (execPresentNFall s) := by
  unfold execPresentNFall
  repeat' first
    | with_reducible apply KeepsN.mk | with_reducible apply KeepsN.fault | with_reducible assumption
    | with_reducible apply keeps_onPins

theorem keeps_execPresentNRise (h : Keeps r o s) (c_latches : r .latches) (c_nfe : r .nfe) (c_sch : r .sch) (c_idx : r .idx) (c_mch : r .mch) (c_val : r .val) (c_cip : r .cip) (c_ldg : r .ldg) (c_ftl : r .ftl) (c_peer : r .peer) (c_rings : r .rings) (c_dram : r .dram) (c_flt : r .flt) (c_recorder : r .recorder) (c_rst : r .rst) (c_pwr : r .pwr) (c_session : r .session) (c_pins : r .pins) (c_CIP_LANE_STAT_NONCE_REFUSALS : r (.reg Reg.CIP_LANE_STAT_NONCE_REFUSALS.addr)) (c_FLT_SWATCH_CTL_ARM : r (.reg Reg.FLT_SWATCH_CTL_ARM.addr)) (c_LDG_GAUGE_STAT_FALLBACKS : r (.reg Reg.LDG_GAUGE_STAT_FALLBACKS.addr)) (c_LDG_UNMETERED_LINES : r (.reg Reg.LDG_UNMETERED_LINES.addr)) (c_PWR_SHED_CNT_SHED_WRITES : r (.reg Reg.PWR_SHED_CNT_SHED_WRITES.addr)) :
    KeepsN r o (execPresentNRise s) := by
  unfold execPresentNRise
  repeat' first
    | with_reducible apply KeepsN.mk | with_reducible apply KeepsN.fault | with_reducible assumption
    | with_reducible apply keeps_guardStep | with_reducible apply keeps_powerOff | with_reducible apply keeps_onPins
    | with_reducible apply keeps_foldl | with_reducible apply keeps2_foldl | (with_reducible intro _; beta_reduce)

theorem keeps_execTransportSenseRise (h : Keeps r o s) (c_pins : r .pins) :
    KeepsN r o (execTransportSenseRise s) := by
  unfold execTransportSenseRise
  repeat' first
    | with_reducible apply KeepsN.mk | with_reducible apply KeepsN.fault | with_reducible assumption
    | with_reducible apply keeps_onPins

theorem keeps_execTransportSenseClear (h : Keeps r o s) (c_pins : r .pins) :
    KeepsN r o (execTransportSenseClear s) := by
  unfold execTransportSenseClear
  repeat' first
    | with_reducible apply KeepsN.mk | with_reducible apply KeepsN.fault | with_reducible assumption
    | with_reducible apply keeps_onPins

theorem keeps_execSmbusOffsetWrite (raw : Bytes) (h : Keeps r o s) (c_nfe : r .nfe) (c_pins : r .pins) :
    KeepsN r o (execSmbusOffsetWrite raw s) := by
  unfold execSmbusOffsetWrite
  repeat' first
    | with_reducible apply KeepsN.mk | with_reducible apply KeepsN.fault | with_reducible assumption
    | with_reducible apply keeps_guardStep | with_reducible apply keeps_onPins | with_reducible apply keeps_send
    | with_reducible apply keeps_foldl | with_reducible apply keeps2_foldl | (with_reducible intro _; beta_reduce)
    | with_reducible refine Keeps2.of (by assumption) ?_ | with_reducible apply Keeps2.snd
    | (extract_lets +onlyGivenNames x; refine @Keeps.cut r o _ x ?_ (fun hx => ?_); rotate_left; clear_value x; rotate_right; dsimp -zeta only [x])
    | (extract_lets +onlyGivenNames x; clear_value x) | split

theorem keeps_execSmbusRead (n : ℕ) (h : Keeps r o s) (c_nfe : r .nfe) (c_pins : r .pins) :
    KeepsN r o (execSmbusRead n s) := by
  unfold execSmbusRead
  repeat' first
    | with_reducible apply KeepsN.mk | with_reducible apply KeepsN.fault | with_reducible assumption
    | with_reducible apply keeps_guardStep | with_reducible apply keeps_onPins | with_reducible apply keeps_send
    | with_reducible apply keeps_foldl | with_reducible apply keeps2_foldl | (with_reducible intro _; beta_reduce)

theorem keeps_samplePower (h : Keeps r o s) (c_pwr : r .pwr) :
    Keeps r o (State.samplePower s) := by
  unfold State.samplePower
  repeat' first
    | with_reducible assumption | with_reducible apply keeps_onPwr | with_reducible apply keeps_drawNat
    | with_reducible apply keeps_foldl | with_reducible apply keeps2_foldl | (with_reducible intro _; beta_reduce)
    | with_reducible refine Keeps2.of (by assumption) ?_ | with_reducible apply Keeps2.snd

theorem keeps_execIdentityRefresh (h : Keeps r o s) (c_pwr : r .pwr) (c_pins : r .pins) :
    KeepsN r o (execIdentityRefresh s) := by
  unfold execIdentityRefresh
  repeat' first
    | with_reducible apply KeepsN.mk | with_reducible apply KeepsN.fault | with_reducible assumption
    | with_reducible apply keeps_samplePower | with_reducible apply keeps_guardStep
    | with_reducible apply keeps_onPins | with_reducible apply keeps_foldl | with_reducible apply keeps2_foldl
    | (with_reducible intro _; beta_reduce)

theorem keeps_execWilladraConnection (tlsMinor : ℕ) (h : Keeps r o s) (c_nfe : r .nfe) (c_pins : r .pins) :
    KeepsN r o (execWilladraConnection tlsMinor s) := by
  unfold execWilladraConnection
  repeat' first
    | with_reducible apply KeepsN.mk | with_reducible apply KeepsN.fault | with_reducible assumption
    | with_reducible apply keeps_guardStep | with_reducible apply keeps_onPins | with_reducible apply keeps_send
    | with_reducible apply keeps_foldl | with_reducible apply keeps2_foldl | (with_reducible intro _; beta_reduce)
    | with_reducible refine Keeps2.of (by assumption) ?_ | with_reducible apply Keeps2.snd
    | (extract_lets +onlyGivenNames x; refine @Keeps.cut r o _ x ?_ (fun hx => ?_); rotate_left; clear_value x; rotate_right; dsimp -zeta only [x])
    | (extract_lets +onlyGivenNames x; clear_value x) | split

end Sys2Proof.Machine
end

