-- ==== Sys2Proof/Laws/KeepStart.lean ====
section
/-! SUPPORT. What each operation of Machine/Start.lean may change. -/

set_option linter.unusedTactic false
set_option linter.unreachableTactic false

namespace Sys2Proof.Machine

variable {r : Part → Prop} {o s : State}

theorem keeps_startRegs (cold : Bool) (h : Keeps r o s) (c_regs : ∀ a, r (.reg a)) :
    Keeps r o (State.startRegs s cold) := by
  unfold State.startRegs
  repeat' first
    | with_reducible assumption | exact c_regs _ | exact fun _ => c_regs _ | with_reducible apply keeps_setReg
    | with_reducible apply keeps_foldl | with_reducible apply keeps2_foldl | (with_reducible intro _; beta_reduce)
    | with_reducible refine Keeps2.of (by assumption) ?_ | with_reducible apply Keeps2.snd
    | (extract_lets +onlyGivenNames x; refine @Keeps.cut r o _ x ?_ (fun hx => ?_); rotate_left; clear_value x; rotate_right; dsimp -zeta only [x])
    | (extract_lets +onlyGivenNames x; clear_value x) | split

theorem keeps_bankInvalid (n : ℕ) (h : Keeps r o s) (c_flt : r .flt) (c_sec : r .sec) :
    Keeps r o (State.bankInvalid s n) := by
  unfold State.bankInvalid
  repeat' first
    | with_reducible assumption | with_reducible apply keeps_onSec | with_reducible apply keeps_raise
    | with_reducible apply keeps_drawNat | with_reducible apply keeps_foldl | with_reducible apply keeps2_foldl
    | (with_reducible intro _; beta_reduce) | with_reducible refine Keeps2.of (by assumption) ?_
    | with_reducible apply Keeps2.snd

theorem keeps_chooseBank (bankOk : List Bool) (h : Keeps r o s) (c_flt : r .flt) (c_sec : r .sec) :
    Keeps2 r o (State.chooseBank s bankOk) := by
  unfold State.chooseBank
  repeat' first
    | with_reducible assumption | with_reducible apply keeps_onSec | with_reducible apply keeps_bankInvalid
    | with_reducible apply keeps_foldl | with_reducible apply keeps2_foldl | (with_reducible intro _; beta_reduce)
    | with_reducible refine Keeps2.of (by assumption) ?_ | with_reducible apply Keeps2.snd
    | (extract_lets +onlyGivenNames x; refine @Keeps.cut r o _ x ?_ (fun hx => ?_); rotate_left; clear_value x; rotate_right; dsimp -zeta only [x])
    | (extract_lets +onlyGivenNames x; clear_value x) | split | with_reducible apply Keeps2.mk

theorem keeps_enterRecovery (h : Keeps r o s) (c_flt : r .flt) (c_rst : r .rst) (c_pwr : r .pwr) :
    Keeps r o (State.enterRecovery s) := by
  unfold State.enterRecovery
  repeat' first
    | with_reducible assumption | with_reducible apply keeps_onPwr | with_reducible apply keeps_raise
    | with_reducible apply keeps_onRst

theorem keeps_checkpointLost (o' : ℕ × ℕ) (h : Keeps r o s) (c_flt : r .flt) :
    Keeps r o (State.checkpointLost s o') := by
  unfold State.checkpointLost
  repeat' first
    | with_reducible assumption | with_reducible apply keeps_raise | with_reducible apply keeps_drawNat
    | with_reducible apply keeps_foldl | with_reducible apply keeps2_foldl | (with_reducible intro _; beta_reduce)
    | with_reducible refine Keeps2.of (by assumption) ?_ | with_reducible apply Keeps2.snd
    | (extract_lets +onlyGivenNames x; refine @Keeps.cut r o _ x ?_ (fun hx => ?_); rotate_left; clear_value x; rotate_right; dsimp -zeta only [x])
    | (extract_lets +onlyGivenNames x; refine @Keeps2.cut r o _ _ x ?_ (fun hx => ?_); rotate_left; clear_value x; rotate_right; dsimp -zeta only [x])
    | (extract_lets +onlyGivenNames x; clear_value x) | split

theorem keeps_resumeVersions (lost : Bool) (h : Keeps r o s) (c_sch : r .sch) (c_ldg : r .ldg) (c_flt : r .flt) (c_LDG_GAUGE_STAT_FALLBACKS : r (.reg Reg.LDG_GAUGE_STAT_FALLBACKS.addr)) :
    Keeps r o (State.resumeVersions s lost) := by
  unfold State.resumeVersions
  repeat' first
    | with_reducible assumption | with_reducible apply keeps_onKept | with_reducible apply keeps_keepMeta
    | with_reducible apply keeps_onSch

theorem keeps_redrawQgen (ctx : ℕ) (h : Keeps r o s) (c_ldg : r .ldg) (c_flt : r .flt) (c_LDG_GAUGE_STAT_FALLBACKS : r (.reg Reg.LDG_GAUGE_STAT_FALLBACKS.addr)) :
    Keeps r o (State.redrawQgen s ctx) := by
  unfold State.redrawQgen
  repeat' first
    | with_reducible assumption | with_reducible apply keeps_onKept | with_reducible apply keeps_keepMeta
    | with_reducible apply keeps_drawRandom | with_reducible apply keeps_foldl | with_reducible apply keeps2_foldl
    | (with_reducible intro _; beta_reduce) | with_reducible refine Keeps2.of (by assumption) ?_
    | with_reducible apply Keeps2.snd

theorem keeps_rebuildSbLine (id : ℕ) (h : Keeps r o s) (c_ldg : r .ldg) (c_ftl : r .ftl) (c_flt : r .flt) (c_LDG_GAUGE_STAT_FALLBACKS : r (.reg Reg.LDG_GAUGE_STAT_FALLBACKS.addr)) :
    Keeps r o (State.rebuildSbLine s id) := by
  unfold State.rebuildSbLine
  repeat' first
    | with_reducible assumption | with_reducible apply keeps_onSb | with_reducible apply keeps_foldl
    | with_reducible apply keeps2_foldl | (with_reducible intro _; beta_reduce)
    | with_reducible refine Keeps2.of (by assumption) ?_ | with_reducible apply Keeps2.snd
    | (extract_lets +onlyGivenNames x; refine @Keeps.cut r o _ x ?_ (fun hx => ?_); rotate_left; clear_value x; rotate_right; dsimp -zeta only [x])
    | (extract_lets +onlyGivenNames x; clear_value x) | split

theorem keeps_pairLost (o' : ℕ × ℕ) (h : Keeps r o s) (c_flt : r .flt) :
    Keeps r o (State.pairLost s o') := by
  unfold State.pairLost
  repeat' first
    | with_reducible assumption | with_reducible apply keeps_raise

theorem keeps_lostObject (o' : ℕ × ℕ) (h : Keeps r o s) (c_ldg : r .ldg) (c_ftl : r .ftl) (c_flt : r .flt) (c_LDG_GAUGE_STAT_FALLBACKS : r (.reg Reg.LDG_GAUGE_STAT_FALLBACKS.addr)) :
    Keeps r o (State.lostObject s o') := by
  unfold State.lostObject
  repeat' first
    | with_reducible assumption | with_reducible apply keeps_onKept | with_reducible apply keeps_redrawQgen
    | with_reducible apply keeps_pairLost | with_reducible apply keeps_rebuildSbLine
    | with_reducible apply keeps_checkpointLost | with_reducible apply keeps_foldl | with_reducible apply keeps2_foldl
    | (with_reducible intro _; beta_reduce) | with_reducible refine Keeps2.of (by assumption) ?_
    | with_reducible apply Keeps2.snd
    | (extract_lets +onlyGivenNames x; refine @Keeps.cut r o _ x ?_ (fun hx => ?_); rotate_left; clear_value x; rotate_right; dsimp -zeta only [x])
    | (extract_lets +onlyGivenNames x; clear_value x) | split

theorem keeps_resumeLeaf (h : Keeps r o s) (c_flt : r .flt) (c_sec : r .sec) :
    Keeps r o (State.resumeLeaf s) := by
  unfold State.resumeLeaf
  repeat' first
    | with_reducible assumption | with_reducible apply keeps_onSec | with_reducible apply keeps_raise
    | with_reducible apply keeps_foldl | with_reducible apply keeps2_foldl | (with_reducible intro _; beta_reduce)
    | with_reducible refine Keeps2.of (by assumption) ?_ | with_reducible apply Keeps2.snd
    | (extract_lets +onlyGivenNames x; refine @Keeps.cut r o _ x ?_ (fun hx => ?_); rotate_left; clear_value x; rotate_right; dsimp -zeta only [x])
    | (extract_lets +onlyGivenNames x; clear_value x) | split

theorem keeps_slotLost (n : ℕ) (h : Keeps r o s) (c_cip : r .cip) (c_ldg : r .ldg) (c_flt : r .flt) :
    Keeps r o (State.slotLost s n) := by
  unfold State.slotLost
  repeat' first
    | with_reducible assumption | with_reducible apply keeps_onKept | with_reducible apply keeps_raise
    | with_reducible apply keeps_onSlot

theorem keeps_restoreTenant (bad : List ℕ) (e' : ℕ × Bytes) (h : Keeps r o s) (c_cip : r .cip) (c_ldg : r .ldg) (c_flt : r .flt) (c_FLT_SWATCH_CTL_ARM : r (.reg Reg.FLT_SWATCH_CTL_ARM.addr)) (c_LDG_UNMETERED_LINES : r (.reg Reg.LDG_UNMETERED_LINES.addr)) :
    Keeps r o (State.restoreTenant s bad e') := by
  unfold State.restoreTenant
  repeat' first
    | with_reducible assumption | with_reducible apply keeps_slotLost | with_reducible apply keeps_restoreSlot
    | with_reducible apply keeps_onSlot | with_reducible apply keeps_foldl | with_reducible apply keeps2_foldl
    | (with_reducible intro _; beta_reduce) | with_reducible refine Keeps2.of (by assumption) ?_
    | with_reducible apply Keeps2.snd
    | (extract_lets +onlyGivenNames x; refine @Keeps.cut r o _ x ?_ (fun hx => ?_); rotate_left; clear_value x; rotate_right; dsimp -zeta only [x])
    | (extract_lets +onlyGivenNames x; clear_value x) | split

theorem keeps_loadSystemKeys (h : Keeps r o s) (c_cip : r .cip) :
    Keeps r o (State.loadSystemKeys s) := by
  unfold State.loadSystemKeys
  repeat' first
    | with_reducible assumption | with_reducible apply keeps_onSlot | with_reducible apply keeps_foldl
    | with_reducible apply keeps2_foldl | (with_reducible intro _; beta_reduce)

theorem keeps_restoreKeys (bad : List ℕ) (h : Keeps r o s) (c_cip : r .cip) (c_ldg : r .ldg) (c_flt : r .flt) (c_sec : r .sec) (c_FLT_SWATCH_CTL_ARM : r (.reg Reg.FLT_SWATCH_CTL_ARM.addr)) (c_LDG_UNMETERED_LINES : r (.reg Reg.LDG_UNMETERED_LINES.addr)) :
    Keeps r o (State.restoreKeys s bad) := by
  unfold State.restoreKeys
  repeat' first
    | with_reducible assumption | with_reducible apply keeps_restoreTenant | with_reducible apply keeps_placeImportKey
    | with_reducible apply keeps_loadSystemKeys | with_reducible apply keeps_onCip
    | with_reducible apply keeps_resumeLeaf | with_reducible apply keeps_onSlot | with_reducible apply keeps_foldl
    | with_reducible apply keeps2_foldl | (with_reducible intro _; beta_reduce)

theorem keeps_closeOpen (e' : ℕ × Sb) (h : Keeps r o s) (c_ldg : r .ldg) (c_ftl : r .ftl) (c_flt : r .flt) (c_LDG_GAUGE_STAT_FALLBACKS : r (.reg Reg.LDG_GAUGE_STAT_FALLBACKS.addr)) :
    Keeps r o (State.closeOpen s e') := by
  unfold State.closeOpen
  repeat' first
    | with_reducible assumption | with_reducible apply keeps_onSbQuiet | with_reducible apply keeps_closeSb
    | with_reducible apply keeps_foldl | with_reducible apply keeps2_foldl | (with_reducible intro _; beta_reduce)
    | with_reducible refine Keeps2.of (by assumption) ?_ | with_reducible apply Keeps2.snd
    | (extract_lets +onlyGivenNames x; refine @Keeps.cut r o _ x ?_ (fun hx => ?_); rotate_left; clear_value x; rotate_right; dsimp -zeta only [x])
    | (extract_lets +onlyGivenNames x; clear_value x) | split

theorem keeps_rebuildOpen (h : Keeps r o s) (c_ldg : r .ldg) (c_ftl : r .ftl) (c_flt : r .flt) (c_LDG_GAUGE_STAT_FALLBACKS : r (.reg Reg.LDG_GAUGE_STAT_FALLBACKS.addr)) :
    Keeps r o (State.rebuildOpen s) := by
  unfold State.rebuildOpen
  repeat' first
    | with_reducible assumption | with_reducible apply keeps_closeOpen | with_reducible apply keeps_onFtl
    | with_reducible apply keeps_foldl | with_reducible apply keeps2_foldl | (with_reducible intro _; beta_reduce)

theorem keeps_mapScan (h : Keeps r o s) (c_ftl : r .ftl) (c_flt : r .flt) :
    Keeps r o (State.mapScan s) := by
  unfold State.mapScan
  repeat' first
    | with_reducible assumption | with_reducible apply keeps_raise | with_reducible apply keeps_onFtl
    | with_reducible apply keeps_drawNat | with_reducible apply keeps_foldl | with_reducible apply keeps2_foldl
    | (with_reducible intro _; beta_reduce) | with_reducible refine Keeps2.of (by assumption) ?_
    | with_reducible apply Keeps2.snd

theorem keeps_restoreMaps (maps : Bool) (i : StartIn) (h : Keeps r o s) (c_nfe : r .nfe) (c_sch : r .sch) (c_idx : r .idx) (c_val : r .val) (c_cip : r .cip) (c_ldg : r .ldg) (c_ftl : r .ftl) (c_peer : r .peer) (c_flt : r .flt) (c_recorder : r .recorder) (c_CIP_AUTH_STAT_AUTH_FAILURES : r (.reg Reg.CIP_AUTH_STAT_AUTH_FAILURES.addr)) (c_CIP_LANE_STAT_NONCE_REFUSALS : r (.reg Reg.CIP_LANE_STAT_NONCE_REFUSALS.addr)) (c_FLT_SWATCH_CTL_ARM : r (.reg Reg.FLT_SWATCH_CTL_ARM.addr)) (c_LDG_GAUGE_STAT_FALLBACKS : r (.reg Reg.LDG_GAUGE_STAT_FALLBACKS.addr)) (c_LDG_UNMETERED_LINES : r (.reg Reg.LDG_UNMETERED_LINES.addr)) (c_PEER_REPAIR_STAT_REPAIRS : r (.reg Reg.PEER_REPAIR_STAT_REPAIRS.addr)) (c_PWR_SHED_CNT_SHED_WRITES : r (.reg Reg.PWR_SHED_CNT_SHED_WRITES.addr)) (c_REC_LOST_STAT_SRAM_OVERWRITTEN : r (.reg Reg.REC_LOST_STAT_SRAM_OVERWRITTEN.addr)) (c_VAL_E2E_STAT_E2E_MISMATCHES : r (.reg Reg.VAL_E2E_STAT_E2E_MISMATCHES.addr)) (c_VAL_READ_STAT_UNRECOVERABLE : r (.reg Reg.VAL_READ_STAT_UNRECOVERABLE.addr)) :
    Keeps r o (State.restoreMaps s maps i) := by
  unfold State.restoreMaps
  repeat' first
    | with_reducible assumption | with_reducible apply keeps_mapScan | with_reducible apply keeps_rebuildOpen
    | with_reducible apply keeps_onFtl | with_reducible apply keeps_onSch | with_reducible apply keeps_pumpCopies
    | with_reducible apply keeps_foldl | with_reducible apply keeps2_foldl | (with_reducible intro _; beta_reduce)
    | with_reducible refine Keeps2.of (by assumption) ?_ | with_reducible apply Keeps2.snd
    | (extract_lets +onlyGivenNames x; refine @Keeps.cut r o _ x ?_ (fun hx => ?_); rotate_left; clear_value x; rotate_right; dsimp -zeta only [x])
    | (extract_lets +onlyGivenNames x; clear_value x) | split

theorem keeps_restoreIndex (table : Bool) (m0 : Bool) (m1 : Bool) (h : Keeps r o s) (c_idx : r .idx) (c_rings : r .rings) (c_dram : r .dram) (c_flt : r .flt) (c_FLT_SWATCH_CTL_ARM : r (.reg Reg.FLT_SWATCH_CTL_ARM.addr)) :
    Keeps r o (State.restoreIndex s table m0 m1) := by
  unfold State.restoreIndex
  repeat' first
    | with_reducible assumption | with_reducible apply keeps_onIdx | with_reducible apply keeps_rebuildFrom
    | with_reducible apply keeps_foldl | with_reducible apply keeps2_foldl | (with_reducible intro _; beta_reduce)
    | with_reducible refine Keeps2.of (by assumption) ?_ | with_reducible apply Keeps2.snd
    | (extract_lets +onlyGivenNames x; refine @Keeps.cut r o _ x ?_ (fun hx => ?_); rotate_left; clear_value x; rotate_right; dsimp -zeta only [x])
    | (extract_lets +onlyGivenNames x; clear_value x) | split

theorem keeps_restoreRules (engine : Bool) (h : Keeps r o s) (c_mch : r .mch) (c_flt : r .flt) (c_FLT_SWATCH_CTL_ARM : r (.reg Reg.FLT_SWATCH_CTL_ARM.addr)) (c_MCH_STATUS_EPOCH : r (.reg Reg.MCH_STATUS_EPOCH.addr)) :
    Keeps r o (State.restoreRules s engine) := by
  unfold State.restoreRules
  repeat' first
    | with_reducible assumption | with_reducible apply keeps_reloadRules | with_reducible apply keeps_onMch
    | with_reducible apply keeps_foldl | with_reducible apply keeps2_foldl | (with_reducible intro _; beta_reduce)
    | with_reducible refine Keeps2.of (by assumption) ?_ | with_reducible apply Keeps2.snd
    | (extract_lets +onlyGivenNames x; refine @Keeps.cut r o _ x ?_ (fun hx => ?_); rotate_left; clear_value x; rotate_right; dsimp -zeta only [x])
    | (extract_lets +onlyGivenNames x; clear_value x) | split

theorem keeps_verifyRegions (i : StartIn) (h : Keeps r o s) (c_ldg : r .ldg) (c_flt : r .flt) (c_rst : r .rst) (c_LDG_GAUGE_STAT_FALLBACKS : r (.reg Reg.LDG_GAUGE_STAT_FALLBACKS.addr)) :
    Keeps r o (State.verifyRegions s i) := by
  unfold State.verifyRegions
  repeat' first
    | with_reducible assumption | with_reducible apply keeps_clearResetRec | with_reducible apply keeps_raise
    | with_reducible apply keeps_onRst | with_reducible apply keeps_foldl | with_reducible apply keeps2_foldl
    | (with_reducible intro _; beta_reduce)

theorem keeps_forgetDigests (h : Keeps r o s) (c_ldg : r .ldg) (c_flt : r .flt) (c_rst : r .rst) (c_LDG_GAUGE_STAT_FALLBACKS : r (.reg Reg.LDG_GAUGE_STAT_FALLBACKS.addr)) :
    Keeps r o (State.forgetDigests s) := by
  unfold State.forgetDigests
  repeat' first
    | with_reducible assumption | with_reducible apply keeps_clearResetRec | with_reducible apply keeps_onRst

theorem keeps_resetRecords (h : Keeps r o s) (c_flt : r .flt) :
    Keeps r o (State.resetRecords s) := by
  unfold State.resetRecords
  repeat' first
    | with_reducible assumption | with_reducible apply keeps_raise | with_reducible apply keeps_foldl
    | with_reducible apply keeps2_foldl | (with_reducible intro _; beta_reduce)
    | with_reducible refine Keeps2.of (by assumption) ?_ | with_reducible apply Keeps2.snd
    | (extract_lets +onlyGivenNames x; refine @Keeps.cut r o _ x ?_ (fun hx => ?_); rotate_left; clear_value x; rotate_right; dsimp -zeta only [x])
    | (extract_lets +onlyGivenNames x; clear_value x) | split

theorem keeps_powerUp (cold : Bool) (i : StartIn) (h : Keeps r o s) (c_nfe : r .nfe) (c_ldg : r .ldg) (c_rings : r .rings) (c_dram : r .dram) (c_flt : r .flt) (c_recorder : r .recorder) (c_pwr : r .pwr) (c_session : r .session) (c_regs : ∀ a, r (.reg a)) :
    Keeps r o (State.powerUp s cold i) := by
  unfold State.powerUp
  repeat' first
    | with_reducible assumption | exact c_regs _ | exact fun _ => c_regs _ | with_reducible apply keeps_onPwr
    | with_reducible apply keeps_startRegs | with_reducible apply keeps_settleGroups
    | with_reducible apply keeps_onRec | with_reducible apply keeps_onSession | with_reducible apply keeps_raise
    | with_reducible apply keeps_onLdg | with_reducible apply keeps_onFlt | with_reducible apply keeps_onNfe
    | with_reducible apply keeps_dramClear | with_reducible apply keeps_dramWrite | (with_reducible apply keeps_onEng)
    | with_reducible apply keeps_foldl | with_reducible apply keeps2_foldl | (with_reducible intro _; beta_reduce)
    | with_reducible refine Keeps2.of (by assumption) ?_ | with_reducible apply Keeps2.snd
    | (extract_lets +onlyGivenNames x; refine @Keeps.cut r o _ x ?_ (fun hx => ?_); rotate_left; clear_value x; rotate_right; dsimp -zeta only [x])
    | (extract_lets +onlyGivenNames x; clear_value x) | split

theorem keeps_bringUp (cold : Bool) (i : StartIn) (h : Keeps r o s) (c_nfe : r .nfe) (c_sch : r .sch) (c_idx : r .idx) (c_mch : r .mch) (c_val : r .val) (c_cip : r .cip) (c_ldg : r .ldg) (c_ftl : r .ftl) (c_peer : r .peer) (c_rings : r .rings) (c_dram : r .dram) (c_flt : r .flt) (c_recorder : r .recorder) (c_rst : r .rst) (c_sec : r .sec) (c_CIP_AUTH_STAT_AUTH_FAILURES : r (.reg Reg.CIP_AUTH_STAT_AUTH_FAILURES.addr)) (c_CIP_LANE_STAT_NONCE_REFUSALS : r (.reg Reg.CIP_LANE_STAT_NONCE_REFUSALS.addr)) (c_FLT_SWATCH_CTL_ARM : r (.reg Reg.FLT_SWATCH_CTL_ARM.addr)) (c_LDG_GAUGE_STAT_FALLBACKS : r (.reg Reg.LDG_GAUGE_STAT_FALLBACKS.addr)) (c_LDG_UNMETERED_LINES : r (.reg Reg.LDG_UNMETERED_LINES.addr)) (c_MCH_STATUS_EPOCH : r (.reg Reg.MCH_STATUS_EPOCH.addr)) (c_PEER_REPAIR_STAT_REPAIRS : r (.reg Reg.PEER_REPAIR_STAT_REPAIRS.addr)) (c_PWR_SHED_CNT_SHED_WRITES : r (.reg Reg.PWR_SHED_CNT_SHED_WRITES.addr)) (c_REC_LOST_STAT_SRAM_OVERWRITTEN : r (.reg Reg.REC_LOST_STAT_SRAM_OVERWRITTEN.addr)) (c_VAL_E2E_STAT_E2E_MISMATCHES : r (.reg Reg.VAL_E2E_STAT_E2E_MISMATCHES.addr)) (c_VAL_READ_STAT_UNRECOVERABLE : r (.reg Reg.VAL_READ_STAT_UNRECOVERABLE.addr)) :
    Keeps r o (State.bringUp s cold i) := by
  unfold State.bringUp
  repeat' first
    | with_reducible assumption | with_reducible apply keeps_restoreKeys | with_reducible apply keeps_verifyRegions
    | with_reducible apply keeps_lostObject | with_reducible apply keeps_restoreIndex
    | with_reducible apply keeps_forgetDigests | with_reducible apply keeps_resumeVersions
    | with_reducible apply keeps_restoreMaps | with_reducible apply keeps_onSch
    | with_reducible apply keeps_restoreRules | with_reducible apply keeps_foldl | with_reducible apply keeps2_foldl
    | (with_reducible intro _; beta_reduce) | with_reducible refine Keeps2.of (by assumption) ?_
    | with_reducible apply Keeps2.snd
    | (extract_lets +onlyGivenNames x; refine @Keeps.cut r o _ x ?_ (fun hx => ?_); rotate_left; clear_value x; rotate_right; dsimp -zeta only [x])
    | (extract_lets +onlyGivenNames x; clear_value x) | split

theorem keeps_chipStart (i : StartIn) (h : Keeps r o s) (c_nfe : r .nfe) (c_sch : r .sch) (c_idx : r .idx) (c_mch : r .mch) (c_val : r .val) (c_cip : r .cip) (c_ldg : r .ldg) (c_ftl : r .ftl) (c_peer : r .peer) (c_rings : r .rings) (c_dram : r .dram) (c_flt : r .flt) (c_recorder : r .recorder) (c_rst : r .rst) (c_pwr : r .pwr) (c_sec : r .sec) (c_session : r .session) (c_pins : r .pins) (c_regs : ∀ a, r (.reg a)) :
    Keeps r o (State.chipStart s i) := by
  unfold State.chipStart
  repeat' first
    | with_reducible assumption | exact c_regs _ | exact fun _ => c_regs _ | with_reducible apply keeps_enterRecovery
    | with_reducible apply keeps_resetRecords | with_reducible apply keeps_onRst
    | with_reducible apply keeps_chooseBank | with_reducible apply keeps_onPins | with_reducible apply keeps_bringUp
    | with_reducible apply keeps_powerUp | with_reducible apply keeps_foldl | with_reducible apply keeps2_foldl
    | (with_reducible intro _; beta_reduce) | with_reducible refine Keeps2.of (by assumption) ?_
    | with_reducible apply Keeps2.snd
    | (extract_lets +onlyGivenNames x; refine @Keeps.cut r o _ x ?_ (fun hx => ?_); rotate_left; clear_value x; rotate_right; dsimp -zeta only [x])
    | (extract_lets +onlyGivenNames x; refine @Keeps2.cut r o _ _ x ?_ (fun hx => ?_); rotate_left; clear_value x; rotate_right; dsimp -zeta only [x])
    | (extract_lets +onlyGivenNames x; clear_value x) | split

theorem keeps_execChipStart (i : StartIn) (h : Keeps r o s) (c_nfe : r .nfe) (c_sch : r .sch) (c_idx : r .idx) (c_mch : r .mch) (c_val : r .val) (c_cip : r .cip) (c_ldg : r .ldg) (c_ftl : r .ftl) (c_peer : r .peer) (c_rings : r .rings) (c_dram : r .dram) (c_flt : r .flt) (c_recorder : r .recorder) (c_rst : r .rst) (c_pwr : r .pwr) (c_sec : r .sec) (c_session : r .session) (c_pins : r .pins) (c_regs : ∀ a, r (.reg a)) :
    KeepsN r o (execChipStart i s) := by
  unfold execChipStart
  repeat' first
    | with_reducible apply KeepsN.mk | with_reducible apply KeepsN.fault | with_reducible assumption | exact c_regs _
    | exact fun _ => c_regs _ | with_reducible apply keeps_guardStep | with_reducible apply keeps_chipStart
    | with_reducible apply keeps_foldl | with_reducible apply keeps2_foldl | (with_reducible intro _; beta_reduce)

theorem keeps_completeStart (h : Keeps r o s) (c_sch : r .sch) (c_flt : r .flt) (c_rst : r .rst) :
    Keeps r o (State.completeStart s) := by
  unfold State.completeStart
  repeat' first
    | with_reducible assumption | with_reducible apply keeps_raise | with_reducible apply keeps_onRst
    | with_reducible apply keeps_onSch

theorem keeps_startDone (h : Keeps r o s) (c_sch : r .sch) (c_flt : r .flt) (c_rst : r .rst) :
    Keeps r o (State.startDone s) := by
  unfold State.startDone
  repeat' first
    | with_reducible assumption | with_reducible apply keeps_completeStart | with_reducible apply keeps_guardStep
    | with_reducible apply keeps_foldl | with_reducible apply keeps2_foldl | (with_reducible intro _; beta_reduce)

theorem keeps_execStartDone (h : Keeps r o s) (c_sch : r .sch) (c_flt : r .flt) (c_rst : r .rst) :
    KeepsN r o (execStartDone s) := by
  unfold execStartDone
  repeat' first
    | with_reducible apply KeepsN.mk | with_reducible apply KeepsN.fault | with_reducible assumption
    | with_reducible apply keeps_startDone

theorem keeps_recover (x : ImageSet) (h : Keeps r o s) (c_latches : r .latches) (c_nfe : r .nfe) (c_sch : r .sch) (c_idx : r .idx) (c_mch : r .mch) (c_val : r .val) (c_cip : r .cip) (c_ldg : r .ldg) (c_ftl : r .ftl) (c_peer : r .peer) (c_rings : r .rings) (c_dram : r .dram) (c_flt : r .flt) (c_recorder : r .recorder) (c_rst : r .rst) (c_pwr : r .pwr) (c_sec : r .sec) (c_session : r .session) (c_pins : r .pins) (c_CIP_LANE_STAT_NONCE_REFUSALS : r (.reg Reg.CIP_LANE_STAT_NONCE_REFUSALS.addr)) (c_FLT_SWATCH_CTL_ARM : r (.reg Reg.FLT_SWATCH_CTL_ARM.addr)) (c_LDG_GAUGE_STAT_FALLBACKS : r (.reg Reg.LDG_GAUGE_STAT_FALLBACKS.addr)) (c_LDG_UNMETERED_LINES : r (.reg Reg.LDG_UNMETERED_LINES.addr)) (c_PWR_SHED_CNT_SHED_WRITES : r (.reg Reg.PWR_SHED_CNT_SHED_WRITES.addr)) :
    Keeps r o (State.recover s x) := by
  unfold State.recover
  repeat' first
    | with_reducible assumption | with_reducible apply keeps_writeBank | with_reducible apply keeps_onSec
    | with_reducible apply keeps_onRst | with_reducible apply keeps_chipReset

theorem keeps_execRecoveryDownload (manifest : Bytes) (stream : Bytes) (h : Keeps r o s) (c_latches : r .latches) (c_nfe : r .nfe) (c_sch : r .sch) (c_idx : r .idx) (c_mch : r .mch) (c_val : r .val) (c_cip : r .cip) (c_ldg : r .ldg) (c_ftl : r .ftl) (c_peer : r .peer) (c_rings : r .rings) (c_dram : r .dram) (c_flt : r .flt) (c_recorder : r .recorder) (c_rst : r .rst) (c_pwr : r .pwr) (c_sec : r .sec) (c_session : r .session) (c_pins : r .pins) (c_CIP_LANE_STAT_NONCE_REFUSALS : r (.reg Reg.CIP_LANE_STAT_NONCE_REFUSALS.addr)) (c_FLT_SWATCH_CTL_ARM : r (.reg Reg.FLT_SWATCH_CTL_ARM.addr)) (c_LDG_GAUGE_STAT_FALLBACKS : r (.reg Reg.LDG_GAUGE_STAT_FALLBACKS.addr)) (c_LDG_UNMETERED_LINES : r (.reg Reg.LDG_UNMETERED_LINES.addr)) (c_PWR_SHED_CNT_SHED_WRITES : r (.reg Reg.PWR_SHED_CNT_SHED_WRITES.addr)) :
    KeepsN r o (execRecoveryDownload manifest stream s) := by
  unfold execRecoveryDownload
  repeat' first
    | with_reducible apply KeepsN.mk | with_reducible apply KeepsN.fault | with_reducible assumption
    | with_reducible apply keeps_guardStep | with_reducible apply keeps_raise | with_reducible apply keeps_send
    | with_reducible apply keeps_recover | with_reducible apply keeps_foldl | with_reducible apply keeps2_foldl
    | (with_reducible intro _; beta_reduce) | with_reducible refine Keeps2.of (by assumption) ?_
    | with_reducible apply Keeps2.snd
    | (extract_lets +onlyGivenNames x; refine @Keeps.cut r o _ x ?_ (fun hx => ?_); rotate_left; clear_value x; rotate_right; dsimp -zeta only [x])
    | (extract_lets +onlyGivenNames x; clear_value x) | split

end Sys2Proof.Machine
end

