-- ==== Sys2Proof/Laws/KeepRegisters.lean ====
section
/-! SUPPORT. What each operation of Machine/Registers.lean may change. -/

set_option linter.unusedTactic false
set_option linter.unreachableTactic false

namespace Sys2Proof.Machine

variable {r : Part → Prop} {o s : State}

theorem keeps_setLock (base : ℕ) (h : Keeps r o s) (c_regs : ∀ a, r (.reg a)) :
    Keeps r o (State.setLock s base) := by
  unfold State.setLock
  repeat' first
    | with_reducible assumption | exact c_regs _ | exact fun _ => c_regs _ | with_reducible apply keeps_setFld
    | with_reducible apply keeps_foldl | with_reducible apply keeps2_foldl | (with_reducible intro _; beta_reduce)
    | with_reducible refine Keeps2.of (by assumption) ?_ | with_reducible apply Keeps2.snd
    | (extract_lets +onlyGivenNames x; refine @Keeps.cut r o _ x ?_ (fun hx => ?_); rotate_left; clear_value x; rotate_right; dsimp -zeta only [x])
    | (extract_lets +onlyGivenNames x; clear_value x) | split

theorem keeps_lockAll (h : Keeps r o s) (c_regs : ∀ a, r (.reg a)) :
    Keeps r o (State.lockAll s) := by
  unfold State.lockAll
  repeat' first
    | with_reducible assumption | exact c_regs _ | exact fun _ => c_regs _ | with_reducible apply keeps_setLock
    | with_reducible apply keeps_foldl | with_reducible apply keeps2_foldl | (with_reducible intro _; beta_reduce)

theorem keeps_execBlockLockSet (block : ℕ) (h : Keeps r o s) (c_regs : ∀ a, r (.reg a)) :
    KeepsN r o (execBlockLockSet block s) := by
  unfold execBlockLockSet
  repeat' first
    | with_reducible apply KeepsN.mk | with_reducible apply KeepsN.fault | with_reducible assumption | exact c_regs _
    | exact fun _ => c_regs _ | with_reducible apply keeps_setLock

theorem keeps_execSysLockAllSet (h : Keeps r o s) (c_regs : ∀ a, r (.reg a)) :
    KeepsN r o (execSysLockAllSet s) := by
  unfold execSysLockAllSet
  repeat' first
    | with_reducible apply KeepsN.mk | with_reducible apply KeepsN.fault | with_reducible assumption | exact c_regs _
    | exact fun _ => c_regs _ | with_reducible apply keeps_lockAll

theorem keeps_accessFault (core : CoreId) (a : ℕ) (h : Keeps r o s) (c_flt : r .flt) :
    Keeps r o (State.accessFault s core a) := by
  unfold State.accessFault
  repeat' first
    | with_reducible assumption | with_reducible apply keeps_raise

theorem keeps_latchHigh (p : ℕ × ℕ) (h : Keeps r o s) (c_latches : r .latches) :
    Keeps r o (State.latchHigh s p) := by
  exact h.next (fun p hp => by cases p <;> first | rfl | exact fun _ => rfl | exact absurd c_latches hp) rfl (Nat.le_refl _) id id

theorem keeps_clearRc (a : ℕ) (fs : List FieldDesc) (h : Keeps r o s) (c_regs : ∀ a, r (.reg a)) :
    Keeps r o (State.clearRc s a fs) := by
  unfold State.clearRc
  repeat' first
    | with_reducible assumption | exact c_regs _ | exact fun _ => c_regs _ | with_reducible apply keeps_setFld
    | with_reducible apply keeps_foldl | with_reducible apply keeps2_foldl | (with_reducible intro _; beta_reduce)

theorem keeps_sample (a : ℕ) (h : Keeps r o s) (c_cip : r .cip) (c_ldg : r .ldg) (c_flt : r .flt) (c_pwr : r .pwr) (c_FLT_SWATCH_CTL_ARM : r (.reg Reg.FLT_SWATCH_CTL_ARM.addr)) (c_LDG_UNMETERED_LINES : r (.reg Reg.LDG_UNMETERED_LINES.addr)) :
    Keeps r o (State.sample s a) := by
  unfold State.sample
  split
  · apply keeps_samplePower <;> assumption
  · split
    · apply keeps_readSlot <;> assumption
    · split
      · exact h.next (fun p _ => by cases p <;> first | rfl | exact fun _ => rfl) rfl (Nat.le_add_right _ 2) id id
      · exact h

theorem keeps_readWord (d : RegDesc) (a : ℕ) (h : Keeps r o s) (c_latches : r .latches) (c_cip : r .cip) (c_ldg : r .ldg) (c_flt : r .flt) (c_pwr : r .pwr) (c_regs : ∀ a, r (.reg a)) :
    Keeps2 r o (State.readWord s d a) := by
  unfold State.readWord
  repeat' first
    | with_reducible assumption | exact c_regs _ | exact fun _ => c_regs _ | with_reducible apply keeps_sample
    | with_reducible apply keeps_latchHigh | with_reducible apply keeps_clearRc | with_reducible apply keeps_foldl
    | with_reducible apply keeps2_foldl | (with_reducible intro _; beta_reduce)
    | with_reducible refine Keeps2.of (by assumption) ?_ | with_reducible apply Keeps2.snd
    | (extract_lets +onlyGivenNames x; refine @Keeps.cut r o _ x ?_ (fun hx => ?_); rotate_left; clear_value x; rotate_right; dsimp -zeta only [x])
    | (extract_lets +onlyGivenNames x; clear_value x) | split | with_reducible apply Keeps2.mk

theorem keeps_readReg (core : CoreId) (a : ℕ) (h : Keeps r o s) (c_latches : r .latches) (c_nfe : r .nfe) (c_cip : r .cip) (c_ldg : r .ldg) (c_flt : r .flt) (c_pwr : r .pwr) (c_regs : ∀ a, r (.reg a)) :
    Keeps r o (State.readReg s core a) := by
  unfold State.readReg
  repeat' first
    | with_reducible assumption | exact c_regs _ | exact fun _ => c_regs _ | with_reducible apply keeps_accessFault
    | with_reducible apply keeps_readWord | with_reducible apply keeps_send | with_reducible apply keeps_foldl
    | with_reducible apply keeps2_foldl | (with_reducible intro _; beta_reduce)
    | with_reducible refine Keeps2.of (by assumption) ?_ | with_reducible apply Keeps2.snd
    | (extract_lets +onlyGivenNames x; refine @Keeps.cut r o _ x ?_ (fun hx => ?_); rotate_left; clear_value x; rotate_right; dsimp -zeta only [x])
    | (extract_lets +onlyGivenNames x; refine @Keeps2.cut r o _ _ x ?_ (fun hx => ?_); rotate_left; clear_value x; rotate_right; dsimp -zeta only [x])
    | (extract_lets +onlyGivenNames x; clear_value x) | split

theorem keeps_execRcFieldRead (core : CoreId) (addr : ℕ) (h : Keeps r o s) (c_latches : r .latches) (c_nfe : r .nfe) (c_cip : r .cip) (c_ldg : r .ldg) (c_flt : r .flt) (c_pwr : r .pwr) (c_regs : ∀ a, r (.reg a)) :
    KeepsN r o (execRcFieldRead core addr s) := by
  unfold execRcFieldRead
  repeat' first
    | with_reducible apply KeepsN.mk | with_reducible apply KeepsN.fault | with_reducible assumption | exact c_regs _
    | exact fun _ => c_regs _ | with_reducible apply keeps_readReg | with_reducible apply keeps_guardStep
    | with_reducible apply keeps_foldl | with_reducible apply keeps2_foldl | (with_reducible intro _; beta_reduce)

theorem keeps_execLoWordRead (core : CoreId) (addr : ℕ) (h : Keeps r o s) (c_latches : r .latches) (c_nfe : r .nfe) (c_cip : r .cip) (c_ldg : r .ldg) (c_flt : r .flt) (c_pwr : r .pwr) (c_regs : ∀ a, r (.reg a)) :
    KeepsN r o (execLoWordRead core addr s) := by
  unfold execLoWordRead
  repeat' first
    | with_reducible apply KeepsN.mk | with_reducible apply KeepsN.fault | with_reducible assumption | exact c_regs _
    | exact fun _ => c_regs _ | with_reducible apply keeps_readReg | with_reducible apply keeps_guardStep
    | with_reducible apply keeps_foldl | with_reducible apply keeps2_foldl | (with_reducible intro _; beta_reduce)

theorem keeps_storeWrite (d : RegDesc) (a : ℕ) (value : W32) (h : Keeps r o s) (c_regs : ∀ a, r (.reg a)) :
    Keeps r o (State.storeWrite s d a value) := by
  unfold State.storeWrite
  repeat' first
    | with_reducible assumption | exact c_regs _ | exact fun _ => c_regs _ | with_reducible apply keeps_setReg

theorem keeps_ringEnWrite (n : ℕ) (value : W32) (h : Keeps r o s) (c_rings : r .rings) (c_ENG_RING_CFG_EN : ∀ n, r (.reg (Reg.ENG_RING_CFG_EN n).addr)) :
    Keeps r o (State.ringEnWrite s n value) := by
  unfold State.ringEnWrite
  repeat' first
    | with_reducible assumption | exact c_ENG_RING_CFG_EN _ | with_reducible apply keeps_setFld
    | with_reducible apply keeps_ringEnable | with_reducible apply keeps_foldl | with_reducible apply keeps2_foldl
    | (with_reducible intro _; beta_reduce) | with_reducible refine Keeps2.of (by assumption) ?_
    | with_reducible apply Keeps2.snd
    | (extract_lets +onlyGivenNames x; refine @Keeps.cut r o _ x ?_ (fun hx => ?_); rotate_left; clear_value x; rotate_right; dsimp -zeta only [x])
    | (extract_lets +onlyGivenNames x; clear_value x) | split

theorem keeps_irqClear (value : W32) (h : Keeps r o s) (c_rings : r .rings) :
    Keeps r o (State.irqClear s value) := by
  unfold State.irqClear
  repeat' first
    | with_reducible assumption | with_reducible apply keeps_dramClear | with_reducible apply keeps_dramWrite
    | (with_reducible apply keeps_onEng) | with_reducible apply keeps_foldl | with_reducible apply keeps2_foldl
    | (with_reducible intro _; beta_reduce) | with_reducible refine Keeps2.of (by assumption) ?_
    | with_reducible apply Keeps2.snd
    | (extract_lets +onlyGivenNames x; refine @Keeps.cut r o _ x ?_ (fun hx => ?_); rotate_left; clear_value x; rotate_right; dsimp -zeta only [x])
    | (extract_lets +onlyGivenNames x; clear_value x) | split | with_reducible apply Keeps2.mk | rfl

theorem keeps_psWrite (code : ℕ) (h : Keeps r o s) (c_flt : r .flt) (c_pwr : r .pwr) (c_PWR_PS_STAT_STATE : r (.reg Reg.PWR_PS_STAT_STATE.addr)) :
    Keeps r o (State.psWrite s code) := by
  unfold State.psWrite
  repeat' first
    | with_reducible assumption | with_reducible apply keeps_wake | with_reducible apply keeps_requestPs3
    | with_reducible apply keeps_foldl | with_reducible apply keeps2_foldl | (with_reducible intro _; beta_reduce)
    | with_reducible refine Keeps2.of (by assumption) ?_ | with_reducible apply Keeps2.snd
    | (extract_lets +onlyGivenNames x; refine @Keeps.cut r o _ x ?_ (fun hx => ?_); rotate_left; clear_value x; rotate_right; dsimp -zeta only [x])
    | (extract_lets +onlyGivenNames x; clear_value x) | split

theorem keeps_trialWrite (code : ℕ) (h : Keeps r o s) (c_nfe : r .nfe) (c_sch : r .sch) (c_val : r .val) (c_cip : r .cip) (c_ldg : r .ldg) (c_ftl : r .ftl) (c_peer : r .peer) (c_rings : r .rings) (c_dram : r .dram) (c_flt : r .flt) (c_session : r .session) (c_CIP_LANE_STAT_NONCE_REFUSALS : r (.reg Reg.CIP_LANE_STAT_NONCE_REFUSALS.addr)) (c_FLT_SWATCH_CTL_ARM : r (.reg Reg.FLT_SWATCH_CTL_ARM.addr)) (c_LDG_GAUGE_STAT_FALLBACKS : r (.reg Reg.LDG_GAUGE_STAT_FALLBACKS.addr)) (c_LDG_UNMETERED_LINES : r (.reg Reg.LDG_UNMETERED_LINES.addr)) (c_PWR_SHED_CNT_SHED_WRITES : r (.reg Reg.PWR_SHED_CNT_SHED_WRITES.addr)) :
    Keeps r o (State.trialWrite s code) := by
  unfold State.trialWrite
  repeat' first
    | with_reducible assumption | with_reducible apply keeps_trialFail | with_reducible apply keeps_trialPass
    | with_reducible apply keeps_foldl | with_reducible apply keeps2_foldl | (with_reducible intro _; beta_reduce)
    | with_reducible refine Keeps2.of (by assumption) ?_ | with_reducible apply Keeps2.snd
    | (extract_lets +onlyGivenNames x; refine @Keeps.cut r o _ x ?_ (fun hx => ?_); rotate_left; clear_value x; rotate_right; dsimp -zeta only [x])
    | (extract_lets +onlyGivenNames x; clear_value x) | split

theorem keeps_capBudget (h : Keeps r o s) (c_sec : r .sec) :
    Keeps r o (State.capBudget s) := by
  unfold State.capBudget
  repeat' first
    | with_reducible assumption | with_reducible apply keeps_onSec

theorem keeps_writeActs (a : ℕ) (value : W32) (h : Keeps r o s) (c_latches : r .latches) (c_nfe : r .nfe) (c_sch : r .sch) (c_idx : r .idx) (c_mch : r .mch) (c_val : r .val) (c_cip : r .cip) (c_ldg : r .ldg) (c_ftl : r .ftl) (c_peer : r .peer) (c_rings : r .rings) (c_dram : r .dram) (c_flt : r .flt) (c_recorder : r .recorder) (c_rst : r .rst) (c_pwr : r .pwr) (c_sec : r .sec) (c_session : r .session) (c_pins : r .pins) (c_regs : ∀ a, r (.reg a)) :
    Keeps r o (State.writeActs s a value) := by
  unfold State.writeActs
  repeat' first
    | with_reducible assumption | exact c_regs _ | exact fun _ => c_regs _ | with_reducible apply keeps_stickyWrite
    | with_reducible apply keeps_pump | with_reducible apply keeps_settleGroups | with_reducible apply keeps_psWrite
    | with_reducible apply keeps_ringEnWrite | with_reducible apply keeps_cipAlarm
    | with_reducible apply keeps_swatchCtlWrite | with_reducible apply keeps_clearFirst
    | with_reducible apply keeps_errOutWrite | with_reducible apply keeps_ctrTestWrite
    | with_reducible apply keeps_attachWrite | with_reducible apply keeps_trialWrite
    | with_reducible apply keeps_cascadeWrite | with_reducible apply keeps_lockAll
    | with_reducible apply keeps_startDone | with_reducible apply keeps_cqHeadWrite
    | with_reducible apply keeps_valSwatchWrite | with_reducible apply keeps_chipReset
    | with_reducible apply keeps_setLock | with_reducible apply keeps_capBudget | with_reducible apply keeps_irqClear
    | with_reducible apply keeps_foldl | with_reducible apply keeps2_foldl | (with_reducible intro _; beta_reduce)
    | with_reducible refine Keeps2.of (by assumption) ?_ | with_reducible apply Keeps2.snd
    | (extract_lets +onlyGivenNames x; refine @Keeps.cut r o _ x ?_ (fun hx => ?_); rotate_left; clear_value x; rotate_right; dsimp -zeta only [x])
    | (extract_lets +onlyGivenNames x; clear_value x) | split

theorem keeps_writeReg (d : RegDesc) (a : ℕ) (value : W32) (h : Keeps r o s) (c_latches : r .latches) (c_nfe : r .nfe) (c_sch : r .sch) (c_idx : r .idx) (c_mch : r .mch) (c_val : r .val) (c_cip : r .cip) (c_ldg : r .ldg) (c_ftl : r .ftl) (c_peer : r .peer) (c_rings : r .rings) (c_dram : r .dram) (c_flt : r .flt) (c_recorder : r .recorder) (c_rst : r .rst) (c_pwr : r .pwr) (c_sec : r .sec) (c_session : r .session) (c_pins : r .pins) (c_regs : ∀ a, r (.reg a)) :
    Keeps r o (State.writeReg s d a value) := by
  unfold State.writeReg
  repeat' first
    | with_reducible assumption | exact c_regs _ | exact fun _ => c_regs _ | with_reducible apply keeps_writeActs
    | with_reducible apply keeps_storeWrite

theorem keeps_execRegisterWrite (core : CoreId) (addr : ℕ) (width : ℕ) (value : W32) (h : Keeps r o s) (c_latches : r .latches) (c_nfe : r .nfe) (c_sch : r .sch) (c_idx : r .idx) (c_mch : r .mch) (c_val : r .val) (c_cip : r .cip) (c_ldg : r .ldg) (c_ftl : r .ftl) (c_peer : r .peer) (c_rings : r .rings) (c_dram : r .dram) (c_flt : r .flt) (c_recorder : r .recorder) (c_rst : r .rst) (c_pwr : r .pwr) (c_sec : r .sec) (c_session : r .session) (c_pins : r .pins) (c_regs : ∀ a, r (.reg a)) :
    KeepsN r o (execRegisterWrite core addr width value s) := by
  unfold execRegisterWrite
  repeat' first
    | with_reducible apply KeepsN.mk | with_reducible apply KeepsN.fault | with_reducible assumption | exact c_regs _
    | exact fun _ => c_regs _ | with_reducible apply keeps_accessFault | with_reducible apply keeps_engDoorbell
    | with_reducible apply keeps_writeReg | with_reducible apply keeps_foldl | with_reducible apply keeps2_foldl
    | (with_reducible intro _; beta_reduce) | with_reducible refine Keeps2.of (by assumption) ?_
    | with_reducible apply Keeps2.snd
    | (extract_lets +onlyGivenNames x; refine @Keeps.cut r o _ x ?_ (fun hx => ?_); rotate_left; clear_value x; rotate_right; dsimp -zeta only [x])
    | (extract_lets +onlyGivenNames x; clear_value x) | split

end Sys2Proof.Machine
end

