-- ==== Sys2Proof/Laws/KeepThermal.lean ====
section
/-! SUPPORT. What each operation of Machine/Thermal.lean may change. -/

set_option linter.unusedTactic false
set_option linter.unreachableTactic false

namespace Sys2Proof.Machine

variable {r : Part → Prop} {o s : State}

theorem keeps_enterThermal (stage : ℕ) (temp : ℤ) (h : Keeps r o s) (c_mch : r .mch) (c_flt : r .flt) (c_pwr : r .pwr) (c_THM_STAGE_SENSOR_B_FAULT : r (.reg Reg.THM_STAGE_SENSOR_B_FAULT.addr)) :
    Keeps r o (State.enterThermal s stage temp) := by
  unfold State.enterThermal
  repeat' first
    | with_reducible assumption | exact c_THM_STAGE_SENSOR_B_FAULT | with_reducible apply keeps_onPwr
    | with_reducible apply keeps_setFld | with_reducible apply keeps_raise | with_reducible apply keeps_capHalves

theorem keeps_execThermalStageEntered (stage : ℕ) (temp : ℤ) (h : Keeps r o s) (c_mch : r .mch) (c_flt : r .flt) (c_pwr : r .pwr) (c_THM_STAGE_SENSOR_B_FAULT : r (.reg Reg.THM_STAGE_SENSOR_B_FAULT.addr)) :
    KeepsN r o (execThermalStageEntered stage temp s) := by
  unfold execThermalStageEntered
  repeat' first
    | with_reducible apply KeepsN.mk | with_reducible apply KeepsN.fault | with_reducible assumption
    | with_reducible apply keeps_onPwr | with_reducible apply keeps_guardStep
    | with_reducible apply keeps_enterThermal | with_reducible apply keeps_foldl | with_reducible apply keeps2_foldl
    | (with_reducible intro _; beta_reduce)

theorem keeps_execThermalStageLeft (stage : ℕ) (seconds : ℕ) (h : Keeps r o s) (c_mch : r .mch) (c_flt : r .flt) (c_pwr : r .pwr) (c_THM_TIME_THROTTLE_S : r (.reg Reg.THM_TIME_THROTTLE_S.addr)) :
    KeepsN r o (execThermalStageLeft stage seconds s) := by
  unfold execThermalStageLeft
  repeat' first
    | with_reducible apply KeepsN.mk | with_reducible apply KeepsN.fault | with_reducible assumption
    | exact c_THM_TIME_THROTTLE_S | with_reducible apply keeps_onPwr | with_reducible apply keeps_serveHalves
    | with_reducible apply keeps_bump | with_reducible apply keeps_guardStep | with_reducible apply keeps_raise
    | with_reducible apply keeps_foldl | with_reducible apply keeps2_foldl | (with_reducible intro _; beta_reduce)
    | with_reducible refine Keeps2.of (by assumption) ?_ | with_reducible apply Keeps2.snd
    | (extract_lets +onlyGivenNames x; refine @Keeps.cut r o _ x ?_ (fun hx => ?_); rotate_left; clear_value x; rotate_right; dsimp -zeta only [x])
    | (extract_lets +onlyGivenNames x; clear_value x) | split

theorem keeps_execThmSensorFault (sensorA : ℤ) (sensorB : ℤ) (junction : ℤ) (h : Keeps r o s) (c_mch : r .mch) (c_flt : r .flt) (c_pwr : r .pwr) (c_THM_STAGE_SENSOR_B_FAULT : r (.reg Reg.THM_STAGE_SENSOR_B_FAULT.addr)) :
    KeepsN r o (execThmSensorFault sensorA sensorB junction s) := by
  unfold execThmSensorFault
  repeat' first
    | with_reducible apply KeepsN.mk | with_reducible apply KeepsN.fault | with_reducible assumption
    | with_reducible apply keeps_onPwr | with_reducible apply keeps_enterThermal | with_reducible apply keeps_raise
    | with_reducible apply keeps_foldl | with_reducible apply keeps2_foldl | (with_reducible intro _; beta_reduce)
    | with_reducible refine Keeps2.of (by assumption) ?_ | with_reducible apply Keeps2.snd
    | (extract_lets +onlyGivenNames x; refine @Keeps.cut r o _ x ?_ (fun hx => ?_); rotate_left; clear_value x; rotate_right; dsimp -zeta only [x])
    | (extract_lets +onlyGivenNames x; clear_value x) | split

theorem keeps_execThermalCritical (coldPlate : ℤ) (junction : ℤ) (h : Keeps r o s) (c_flt : r .flt) (c_rst : r .rst) (c_pwr : r .pwr) :
    KeepsN r o (execThermalCritical coldPlate junction s) := by
  unfold execThermalCritical
  repeat' first
    | with_reducible apply KeepsN.mk | with_reducible apply KeepsN.fault | with_reducible assumption
    | with_reducible apply keeps_onPwr | with_reducible apply keeps_guardStep | with_reducible apply keeps_raise
    | with_reducible apply keeps_onRst | with_reducible apply keeps_foldl | with_reducible apply keeps2_foldl
    | (with_reducible intro _; beta_reduce)

theorem keeps_execThermalResetRelease (h : Keeps r o s) (c_rst : r .rst) :
    KeepsN r o (execThermalResetRelease s) := by
  unfold execThermalResetRelease
  repeat' first
    | with_reducible apply KeepsN.mk | with_reducible apply KeepsN.fault | with_reducible assumption
    | with_reducible apply keeps_onRst

theorem keeps_execOvertemp (temp : ℤ) (h : Keeps r o s) (c_cip : r .cip) (c_ldg : r .ldg) (c_rings : r .rings) (c_dram : r .dram) (c_flt : r .flt) (c_pwr : r .pwr) (c_FLT_SWATCH_CTL_ARM : r (.reg Reg.FLT_SWATCH_CTL_ARM.addr)) (c_LDG_UNMETERED_LINES : r (.reg Reg.LDG_UNMETERED_LINES.addr)) :
    KeepsN r o (execOvertemp temp s) := by
  unfold execOvertemp
  repeat' first
    | with_reducible apply KeepsN.mk | with_reducible apply KeepsN.fault | with_reducible assumption
    | with_reducible apply keeps_onPwr | with_reducible apply keeps_cipAlarm | with_reducible apply keeps_guardStep
    | with_reducible apply keeps_foldl | with_reducible apply keeps2_foldl | (with_reducible intro _; beta_reduce)

theorem keeps_execClockFault (edges : ℕ) (h : Keeps r o s) (c_cip : r .cip) (c_ldg : r .ldg) (c_rings : r .rings) (c_dram : r .dram) (c_flt : r .flt) (c_FLT_SWATCH_CTL_ARM : r (.reg Reg.FLT_SWATCH_CTL_ARM.addr)) (c_LDG_UNMETERED_LINES : r (.reg Reg.LDG_UNMETERED_LINES.addr)) :
    KeepsN r o (execClockFault edges s) := by
  unfold execClockFault
  repeat' first
    | with_reducible apply KeepsN.mk | with_reducible apply KeepsN.fault | with_reducible assumption
    | with_reducible apply keeps_cipAlarm | with_reducible apply keeps_guardStep | with_reducible apply keeps_raise
    | with_reducible apply keeps_foldl | with_reducible apply keeps2_foldl | (with_reducible intro _; beta_reduce)

end Sys2Proof.Machine
end

