-- ==== Sys2Proof/Laws/Frames.lean ====
section
/-! SUPPORT. What each command may change, put together from the laws of the operations that it is made of. -/

set_option linter.unusedTactic false
set_option linter.unreachableTactic false

namespace Sys2Proof.Machine

set_option Elab.async false

theorem frame_get (cmd) (s : State) : KeepsN (MayTouch (.get cmd)) s (exec (.get cmd) s) := by
  apply keeps_execGet
  all_goals first | exact Keeps.refl _ _ | (simp [MayTouch, touched]; done) | simp [MayTouch, touchedReg]

theorem frame_put (cmd) (s : State) : KeepsN (MayTouch (.put cmd)) s (exec (.put cmd) s) := by
  apply keeps_execPut
  all_goals first | exact Keeps.refl _ _ | (simp [MayTouch, touched]; done) | simp [MayTouch, touchedReg]

theorem frame_delete (cmd) (s : State) : KeepsN (MayTouch (.delete cmd)) s (exec (.delete cmd) s) := by
  apply keeps_execDelete
  all_goals first | exact Keeps.refl _ _ | (simp [MayTouch, touched]; done) | simp [MayTouch, touchedReg]

theorem frame_writeRange (cmd) (s : State) : KeepsN (MayTouch (.writeRange cmd)) s (exec (.writeRange cmd) s) := by
  apply keeps_execWriteRange
  all_goals first | exact Keeps.refl _ _ | (simp [MayTouch, touched]; done) | simp [MayTouch, touchedReg]

theorem frame_punch (cmd) (s : State) : KeepsN (MayTouch (.punch cmd)) s (exec (.punch cmd) s) := by
  apply keeps_execPunch
  all_goals first | exact Keeps.refl _ _ | (simp [MayTouch, touched]; done) | simp [MayTouch, touchedReg]

theorem frame_head (cmd) (s : State) : KeepsN (MayTouch (.head cmd)) s (exec (.head cmd) s) := by
  apply keeps_execHead
  all_goals first | exact Keeps.refl _ _ | (simp [MayTouch, touched]; done) | simp [MayTouch, touchedReg]

theorem frame_scan (cmd) (budget) (s : State) : KeepsN (MayTouch (.scan cmd budget)) s (exec (.scan cmd budget) s) := by
  apply keeps_execScan
  all_goals first | exact Keeps.refl _ _ | (simp [MayTouch, touched]; done) | simp [MayTouch, touchedReg]

theorem frame_scanNext (cmd) (budget) (s : State) : KeepsN (MayTouch (.scanNext cmd budget)) s (exec (.scanNext cmd budget) s) := by
  apply keeps_execScanNext
  all_goals first | exact Keeps.refl _ _ | (simp [MayTouch, touched]; done) | simp [MayTouch, touchedReg]

theorem frame_count (cmd) (budget) (s : State) : KeepsN (MayTouch (.count cmd budget)) s (exec (.count cmd budget) s) := by
  apply keeps_execCount
  all_goals first | exact Keeps.refl _ _ | (simp [MayTouch, touched]; done) | simp [MayTouch, touchedReg]

theorem frame_flush (cmd) (s : State) : KeepsN (MayTouch (.flush cmd)) s (exec (.flush cmd) s) := by
  apply keeps_execFlush
  all_goals first | exact Keeps.refl _ _ | (simp [MayTouch, touched]; done) | simp [MayTouch, touchedReg]

theorem frame_nop (cmd) (s : State) : KeepsN (MayTouch (.nop cmd)) s (exec (.nop cmd) s) := by
  apply keeps_execNop
  all_goals first | exact Keeps.refl _ _ | (simp [MayTouch, touched]; done) | simp [MayTouch, touchedReg]

theorem frame_sessionOpen (via) (manifest) (s : State) : KeepsN (MayTouch (.sessionOpen via manifest)) s (exec (.sessionOpen via manifest) s) := by
  apply keeps_execSessionOpen
  all_goals first | exact Keeps.refl _ _ | (simp [MayTouch, touched]; done) | simp [MayTouch, touchedReg]

theorem frame_sessionBlock (via) (offset) (block) (s : State) : KeepsN (MayTouch (.sessionBlock via offset block)) s (exec (.sessionBlock via offset block) s) := by
  apply keeps_execSessionBlock
  all_goals first | exact Keeps.refl _ _ | (simp [MayTouch, touched]; done) | simp [MayTouch, touchedReg]

theorem frame_sessionActivate (via) (s : State) : KeepsN (MayTouch (.sessionActivate via)) s (exec (.sessionActivate via) s) := by
  apply keeps_execSessionActivate
  all_goals first | exact Keeps.refl _ _ | (simp [MayTouch, touched]; done) | simp [MayTouch, touchedReg]

theorem frame_sessionCommit (via) (s : State) : KeepsN (MayTouch (.sessionCommit via)) s (exec (.sessionCommit via) s) := by
  apply keeps_execSessionCommit
  all_goals first | exact Keeps.refl _ _ | (simp [MayTouch, touched]; done) | simp [MayTouch, touchedReg]

theorem frame_sessionClose (via) (s : State) : KeepsN (MayTouch (.sessionClose via)) s (exec (.sessionClose via) s) := by
  apply keeps_execSessionClose
  all_goals first | exact Keeps.refl _ _ | (simp [MayTouch, touched]; done) | simp [MayTouch, touchedReg]

theorem frame_attest (via) (nonce) (length) (s : State) : KeepsN (MayTouch (.attest via nonce length)) s (exec (.attest via nonce length) s) := by
  apply keeps_execAttest
  all_goals first | exact Keeps.refl _ _ | (simp [MayTouch, touched]; done) | simp [MayTouch, touchedReg]

theorem frame_identify (via) (length) (s : State) : KeepsN (MayTouch (.identify via length)) s (exec (.identify via length) s) := by
  apply keeps_execIdentify
  all_goals first | exact Keeps.refl _ _ | (simp [MayTouch, touched]; done) | simp [MayTouch, touchedReg]

theorem frame_recRead (via) (first) (length) (s : State) : KeepsN (MayTouch (.recRead via first length)) s (exec (.recRead via first length) s) := by
  apply keeps_execRecRead
  all_goals first | exact Keeps.refl _ _ | (simp [MayTouch, touched]; done) | simp [MayTouch, touchedReg]

theorem frame_recClear (d) (clearTo) (requester) (ref) (s : State) : KeepsN (MayTouch (.recClear d clearTo requester ref)) s (exec (.recClear d clearTo requester ref) s) := by
  apply keeps_execRecClear
  all_goals first | exact Keeps.refl _ _ | (simp [MayTouch, touched]; done) | simp [MayTouch, touchedReg]

theorem frame_doorbell (ctx) (arrival) (aligned) (raw) (s : State) : KeepsN (MayTouch (.doorbell ctx arrival aligned raw)) s (exec (.doorbell ctx arrival aligned raw) s) := by
  apply keeps_execDoorbell
  all_goals first | exact Keeps.refl _ _ | (simp [MayTouch, touched]; done) | simp [MayTouch, touchedReg]

theorem frame_unsupportedRequest (ctx) (s : State) : KeepsN (MayTouch (.unsupportedRequest ctx)) s (exec (.unsupportedRequest ctx) s) := by
  apply keeps_execUnsupportedRequest
  all_goals first | exact Keeps.refl _ _ | (simp [MayTouch, touched]; done) | simp [MayTouch, touchedReg]

theorem frame_cmReq (req) (s : State) : KeepsN (MayTouch (.cmReq req)) s (exec (.cmReq req) s) := by
  apply keeps_execCmReq
  all_goals first | exact Keeps.refl _ _ | (simp [MayTouch, touched]; done) | simp [MayTouch, touchedReg]

theorem frame_cmRtu (ctx) (proof) (s : State) : KeepsN (MayTouch (.cmRtu ctx proof)) s (exec (.cmRtu ctx proof) s) := by
  apply keeps_execCmRtu
  all_goals first | exact Keeps.refl _ _ | (simp [MayTouch, touched]; done)

theorem frame_cmDreq (ctx) (s : State) : KeepsN (MayTouch (.cmDreq ctx)) s (exec (.cmDreq ctx) s) := by
  apply keeps_execCmDreq
  all_goals first | exact Keeps.refl _ _ | (simp [MayTouch, touched]; done) | simp [MayTouch, touchedReg]

theorem frame_connectingTimeout (ctx) (s : State) : KeepsN (MayTouch (.connectingTimeout ctx)) s (exec (.connectingTimeout ctx) s) := by
  apply keeps_execConnectingTimeout
  all_goals first | exact Keeps.refl _ _ | (simp [MayTouch, touched]; done)

theorem frame_descriptorFetch (s : State) : KeepsN (MayTouch (.descriptorFetch)) s (exec (.descriptorFetch) s) := by
  apply keeps_execDescriptorFetch
  all_goals first | exact Keeps.refl _ _ | (simp [MayTouch, touched]; done)

theorem frame_descriptorAccept (ctx) (raw) (s : State) : KeepsN (MayTouch (.descriptorAccept ctx raw)) s (exec (.descriptorAccept ctx raw) s) := by
  apply keeps_execDescriptorAccept
  all_goals first | exact Keeps.refl _ _ | (simp [MayTouch, touched]; done) | simp [MayTouch, touchedReg]

theorem frame_phaseRefetch (ctx) (s : State) : KeepsN (MayTouch (.phaseRefetch ctx)) s (exec (.phaseRefetch ctx) s) := by
  apply keeps_execPhaseRefetch
  all_goals first | exact Keeps.refl _ _ | (simp [MayTouch, touched]; done) | simp [MayTouch, touchedReg]

theorem frame_remoteAccessNak (ctx) (s : State) : KeepsN (MayTouch (.remoteAccessNak ctx)) s (exec (.remoteAccessNak ctx) s) := by
  apply keeps_execRemoteAccessNak
  all_goals first | exact Keeps.refl _ _ | (simp [MayTouch, touched]; done) | simp [MayTouch, touchedReg]

theorem frame_transportRetryExhausted (ctx) (s : State) : KeepsN (MayTouch (.transportRetryExhausted ctx)) s (exec (.transportRetryExhausted ctx) s) := by
  apply keeps_execTransportRetryExhausted
  all_goals first | exact Keeps.refl _ _ | (simp [MayTouch, touched]; done) | simp [MayTouch, touchedReg]

theorem frame_outcomeRecordExpiry (session) (tag) (s : State) : KeepsN (MayTouch (.outcomeRecordExpiry session tag)) s (exec (.outcomeRecordExpiry session tag) s) := by
  apply keeps_execOutcomeRecordExpiry
  all_goals first | exact Keeps.refl _ _ | (simp [MayTouch, touched]; done) | simp [MayTouch, touchedReg]

theorem frame_completionAcked (cmd) (s : State) : KeepsN (MayTouch (.completionAcked cmd)) s (exec (.completionAcked cmd) s) := by
  apply keeps_execCompletionAcked
  all_goals first | exact Keeps.refl _ _ | (simp [MayTouch, touched]; done) | simp [MayTouch, touchedReg]

theorem frame_coalesceTimer (ctx) (s : State) : KeepsN (MayTouch (.coalesceTimer ctx)) s (exec (.coalesceTimer ctx) s) := by
  apply keeps_execCoalesceTimer
  all_goals first | exact Keeps.refl _ _ | (simp [MayTouch, touched]; done)

theorem frame_cePacketReceived (ctx) (s : State) : KeepsN (MayTouch (.cePacketReceived ctx)) s (exec (.cePacketReceived ctx) s) := by
  apply keeps_execCePacketReceived
  all_goals first | exact Keeps.refl _ _ | (simp [MayTouch, touched]; done)

theorem frame_cnpReceived (ctx) (s : State) : KeepsN (MayTouch (.cnpReceived ctx)) s (exec (.cnpReceived ctx) s) := by
  apply keeps_execCnpReceived
  all_goals first | exact Keeps.refl _ _ | (simp [MayTouch, touched]; done)

theorem frame_ccTimerExpiry (ctx) (s : State) : KeepsN (MayTouch (.ccTimerExpiry ctx)) s (exec (.ccTimerExpiry ctx) s) := by
  apply keeps_execCcTimerExpiry
  all_goals first | exact Keeps.refl _ _ | (simp [MayTouch, touched]; done)

theorem frame_linkDown (l) (s : State) : KeepsN (MayTouch (.linkDown l)) s (exec (.linkDown l) s) := by
  apply keeps_execLinkDown
  all_goals first | exact Keeps.refl _ _ | (simp [MayTouch, touched]; done)

theorem frame_linkdownTimeout (l) (s : State) : KeepsN (MayTouch (.linkdownTimeout l)) s (exec (.linkdownTimeout l) s) := by
  apply keeps_execLinkdownTimeout
  all_goals first | exact Keeps.refl _ _ | (simp [MayTouch, touched]; done) | simp [MayTouch, touchedReg]

theorem frame_linkUp (l) (s : State) : KeepsN (MayTouch (.linkUp l)) s (exec (.linkUp l) s) := by
  apply keeps_execLinkUp
  all_goals first | exact Keeps.refl _ _ | (simp [MayTouch, touched]; done)

theorem frame_portRetrainEnd (p) (s : State) : KeepsN (MayTouch (.portRetrainEnd p)) s (exec (.portRetrainEnd p) s) := by
  apply keeps_execPortRetrainEnd
  all_goals first | exact Keeps.refl _ _ | (simp [MayTouch, touched]; done)

theorem frame_opticsInsert (p) (watts) (laneMatch) (cmis) (s : State) : KeepsN (MayTouch (.opticsInsert p watts laneMatch cmis)) s (exec (.opticsInsert p watts laneMatch cmis) s) := by
  apply keeps_execOpticsInsert
  all_goals first | exact Keeps.refl _ _ | (simp [MayTouch, touched]; done)

theorem frame_opticsRailTrip (p) (s : State) : KeepsN (MayTouch (.opticsRailTrip p)) s (exec (.opticsRailTrip p) s) := by
  apply keeps_execOpticsRailTrip
  all_goals first | exact Keeps.refl _ _ | (simp [MayTouch, touched]; done)

theorem frame_policySearch (cmd) (parity) (s : State) : KeepsN (MayTouch (.policySearch cmd parity)) s (exec (.policySearch cmd parity) s) := by
  apply keeps_execPolicySearch
  all_goals first | exact Keeps.refl _ _ | (simp [MayTouch, touched]; done) | simp [MayTouch, touchedReg]

theorem frame_indexLookup (cmd) (refreshing0) (errs) (fclk) (s : State) : KeepsN (MayTouch (.indexLookup cmd refreshing0 errs fclk)) s (exec (.indexLookup cmd refreshing0 errs fclk) s) := by
  apply keeps_execIndexLookup
  all_goals first | exact Keeps.refl _ _ | (simp [MayTouch, touched]; done) | simp [MayTouch, touchedReg]

theorem frame_valueDataArrival (cmd) (data) (s : State) : KeepsN (MayTouch (.valueDataArrival cmd data)) s (exec (.valueDataArrival cmd data) s) := by
  apply keeps_execValueDataArrival
  all_goals first | exact Keeps.refl _ _ | (simp [MayTouch, touched]; done) | simp [MayTouch, touchedReg]

theorem frame_cipherJobDone (cmd) (lane) (agree) (s : State) : KeepsN (MayTouch (.cipherJobDone cmd lane agree)) s (exec (.cipherJobDone cmd lane agree) s) := by
  apply keeps_execCipherJobDone
  all_goals first | exact Keeps.refl _ _ | (simp [MayTouch, touched]; done) | simp [MayTouch, touchedReg]

theorem frame_commitGate (cmd) (s : State) : KeepsN (MayTouch (.commitGate cmd)) s (exec (.commitGate cmd) s) := by
  apply keeps_execCommitGate
  all_goals first | exact Keeps.refl _ _ | (simp [MayTouch, touched]; done) | simp [MayTouch, touchedReg]

theorem frame_mirrorChangeDone (s : State) : KeepsN (MayTouch (.mirrorChangeDone)) s (exec (.mirrorChangeDone) s) := by
  apply keeps_execMirrorChangeDone
  all_goals first | exact Keeps.refl _ _ | (simp [MayTouch, touched]; done) | simp [MayTouch, touchedReg]

theorem frame_segmentRead (cmd) (ldpcOk) (s : State) : KeepsN (MayTouch (.segmentRead cmd ldpcOk)) s (exec (.segmentRead cmd ldpcOk) s) := by
  apply keeps_execSegmentRead
  all_goals first | exact Keeps.refl _ _ | (simp [MayTouch, touched]; done) | simp [MayTouch, touchedReg]

theorem frame_readRepair (repair) (copy) (s : State) : KeepsN (MayTouch (.readRepair repair copy)) s (exec (.readRepair repair copy) s) := by
  apply keeps_execReadRepair
  all_goals first | exact Keeps.refl _ _ | (simp [MayTouch, touched]; done) | simp [MayTouch, touchedReg]

theorem frame_repairRewrite (repair) (s : State) : KeepsN (MayTouch (.repairRewrite repair)) s (exec (.repairRewrite repair) s) := by
  apply keeps_execRepairRewrite
  all_goals first | exact Keeps.refl _ _ | (simp [MayTouch, touched]; done) | simp [MayTouch, touchedReg]

theorem frame_completionWrite (cmd) (s : State) : KeepsN (MayTouch (.completionWrite cmd)) s (exec (.completionWrite cmd) s) := by
  apply keeps_execCompletionWrite
  all_goals first | exact Keeps.refl _ _ | (simp [MayTouch, touched]; done) | simp [MayTouch, touchedReg]

theorem frame_scanBatchTimeout (cmd) (s : State) : KeepsN (MayTouch (.scanBatchTimeout cmd)) s (exec (.scanBatchTimeout cmd) s) := by
  apply keeps_execScanBatchTimeout
  all_goals first | exact Keeps.refl _ _ | (simp [MayTouch, touched]; done) | simp [MayTouch, touchedReg]

theorem frame_scanContextExpiry (index) (s : State) : KeepsN (MayTouch (.scanContextExpiry index)) s (exec (.scanContextExpiry index) s) := by
  apply keeps_execScanContextExpiry
  all_goals first | exact Keeps.refl _ _ | (simp [MayTouch, touched]; done)

theorem frame_halfWithdraw (s : State) : KeepsN (MayTouch (.halfWithdraw)) s (exec (.halfWithdraw) s) := by
  apply keeps_execHalfWithdraw
  all_goals first | exact Keeps.refl _ _ | (simp [MayTouch, touched]; done)

theorem frame_matchStateReloaded (half) (s : State) : KeepsN (MayTouch (.matchStateReloaded half)) s (exec (.matchStateReloaded half) s) := by
  apply keeps_execMatchStateReloaded
  all_goals first | exact Keeps.refl _ _ | (simp [MayTouch, touched]; done) | simp [MayTouch, touchedReg]

theorem frame_matchScrub (dieMask) (s : State) : KeepsN (MayTouch (.matchScrub dieMask)) s (exec (.matchScrub dieMask) s) := by
  apply keeps_execMatchScrub
  all_goals first | exact Keeps.refl _ _ | (simp [MayTouch, touched]; done) | simp [MayTouch, touchedReg]

theorem frame_blockResetExit (b) (s : State) : KeepsN (MayTouch (.blockResetExit b)) s (exec (.blockResetExit b) s) := by
  apply keeps_execBlockResetExit
  all_goals first | exact Keeps.refl _ _ | (simp [MayTouch, touched]; done) | simp [MayTouch, touchedReg]

theorem frame_engDoorbell (ring) (tail) (entries) (s : State) : KeepsN (MayTouch (.engDoorbell ring tail entries)) s (exec (.engDoorbell ring tail entries) s) := by
  apply keeps_execEngDoorbell
  all_goals first | exact Keeps.refl _ _ | (simp [MayTouch, touched]; done) | simp [MayTouch, touchedReg]

theorem frame_engCqHeadWrite (ring) (headCount) (s : State) : KeepsN (MayTouch (.engCqHeadWrite ring headCount)) s (exec (.engCqHeadWrite ring headCount) s) := by
  apply keeps_execEngCqHeadWrite
  all_goals first | exact Keeps.refl _ _ | (simp [MayTouch, touched]; done) | simp [MayTouch, touchedReg]

theorem frame_engRingEnable (ring) (s : State) : KeepsN (MayTouch (.engRingEnable ring)) s (exec (.engRingEnable ring) s) := by
  apply keeps_execEngRingEnable
  all_goals first | exact Keeps.refl _ _ | (simp [MayTouch, touched]; done) | exact fun n => Or.inr ⟨n, rfl⟩ | exact fun n => ⟨n, rfl⟩ | simp [MayTouch, touchedReg]

theorem frame_engAttachWrite (code) (s : State) : KeepsN (MayTouch (.engAttachWrite code)) s (exec (.engAttachWrite code) s) := by
  apply keeps_execEngAttachWrite
  all_goals first | exact Keeps.refl _ _ | (simp [MayTouch, touched]; done) | simp [MayTouch, touchedReg]

theorem frame_unpin (d) (key) (s : State) : KeepsN (MayTouch (.unpin d key)) s (exec (.unpin d key) s) := by
  apply keeps_execUnpin
  all_goals first | exact Keeps.refl _ _ | (simp [MayTouch, touched]; done) | simp [MayTouch, touchedReg]

theorem frame_pin (d) (key) (s : State) : KeepsN (MayTouch (.pin d key)) s (exec (.pin d key) s) := by
  apply keeps_execPin
  all_goals first | exact Keeps.refl _ _ | (simp [MayTouch, touched]; done) | simp [MayTouch, touchedReg]

theorem frame_rebuild (d) (s : State) : KeepsN (MayTouch (.rebuild d)) s (exec (.rebuild d) s) := by
  apply keeps_execRebuild
  all_goals first | exact Keeps.refl _ _ | (simp [MayTouch, touched]; done) | simp [MayTouch, touchedReg]

theorem frame_repairPoison (d) (s : State) : KeepsN (MayTouch (.repairPoison d)) s (exec (.repairPoison d) s) := by
  apply keeps_execRepairPoison
  all_goals first | exact Keeps.refl _ _ | (simp [MayTouch, touched]; done) | simp [MayTouch, touchedReg]

theorem frame_mirrorScrub (d) (s : State) : KeepsN (MayTouch (.mirrorScrub d)) s (exec (.mirrorScrub d) s) := by
  apply keeps_execMirrorScrub
  all_goals first | exact Keeps.refl _ _ | (simp [MayTouch, touched]; done) | simp [MayTouch, touchedReg]

theorem frame_ruleWrite (d) (pos) (recs) (s : State) : KeepsN (MayTouch (.ruleWrite d pos recs)) s (exec (.ruleWrite d pos recs) s) := by
  apply keeps_execRuleWrite
  all_goals first | exact Keeps.refl _ _ | (simp [MayTouch, touched]; done) | simp [MayTouch, touchedReg]

theorem frame_ruleInsert (d) (pos) (last) (recs) (s : State) : KeepsN (MayTouch (.ruleInsert d pos last recs)) s (exec (.ruleInsert d pos last recs) s) := by
  apply keeps_execRuleInsert
  all_goals first | exact Keeps.refl _ _ | (simp [MayTouch, touched]; done) | simp [MayTouch, touchedReg]

theorem frame_shiftComplete (s : State) : KeepsN (MayTouch (.shiftComplete)) s (exec (.shiftComplete) s) := by
  apply keeps_execShiftComplete
  all_goals first | exact Keeps.refl _ _ | (simp [MayTouch, touched]; done) | simp [MayTouch, touchedReg]

theorem frame_ruleClear (d) (pos) (s : State) : KeepsN (MayTouch (.ruleClear d pos)) s (exec (.ruleClear d pos) s) := by
  apply keeps_execRuleClear
  all_goals first | exact Keeps.refl _ _ | (simp [MayTouch, touched]; done) | simp [MayTouch, touchedReg]

theorem frame_ruleSearch (d) (word) (start) (issue) (s : State) : KeepsN (MayTouch (.ruleSearch d word start issue)) s (exec (.ruleSearch d word start issue) s) := by
  apply keeps_execRuleSearch
  all_goals first | exact Keeps.refl _ _ | (simp [MayTouch, touched]; done) | simp [MayTouch, touchedReg]

theorem frame_ruleRead (d) (pos) (s : State) : KeepsN (MayTouch (.ruleRead d pos)) s (exec (.ruleRead d pos) s) := by
  apply keeps_execRuleRead
  all_goals first | exact Keeps.refl _ _ | (simp [MayTouch, touched]; done) | simp [MayTouch, touchedReg]

theorem frame_epochSet (d) (epoch) (s : State) : KeepsN (MayTouch (.epochSet d epoch)) s (exec (.epochSet d epoch) s) := by
  apply keeps_execEpochSet
  all_goals first | exact Keeps.refl _ _ | (simp [MayTouch, touched]; done) | simp [MayTouch, touchedReg]

theorem frame_scrubNow (d) (dieMask) (s : State) : KeepsN (MayTouch (.scrubNow d dieMask)) s (exec (.scrubNow d dieMask) s) := by
  apply keeps_execScrubNow
  all_goals first | exact Keeps.refl _ _ | (simp [MayTouch, touched]; done) | simp [MayTouch, touchedReg]

theorem frame_checkCompute (d) (addr) (len) (algo) (fold) (data) (s : State) : KeepsN (MayTouch (.checkCompute d addr len algo fold data)) s (exec (.checkCompute d addr len algo fold data) s) := by
  apply keeps_execCheckCompute
  all_goals first | exact Keeps.refl _ _ | (simp [MayTouch, touched]; done) | simp [MayTouch, touchedReg]

theorem frame_keyGenerate (d) (slot) (s : State) : KeepsN (MayTouch (.keyGenerate d slot)) s (exec (.keyGenerate d slot) s) := by
  apply keeps_execKeyGenerate
  all_goals first | exact Keeps.refl _ _ | (simp [MayTouch, touched]; done) | simp [MayTouch, touchedReg]

theorem frame_keyImport (d) (slot) (wrapped) (s : State) : KeepsN (MayTouch (.keyImport d slot wrapped)) s (exec (.keyImport d slot wrapped) s) := by
  apply keeps_execKeyImport
  all_goals first | exact Keeps.refl _ _ | (simp [MayTouch, touched]; done) | simp [MayTouch, touchedReg]

theorem frame_keyRoll (d) (slot) (s : State) : KeepsN (MayTouch (.keyRoll d slot)) s (exec (.keyRoll d slot) s) := by
  apply keeps_execKeyRoll
  all_goals first | exact Keeps.refl _ _ | (simp [MayTouch, touched]; done) | simp [MayTouch, touchedReg]

theorem frame_keyErase (d) (slot) (s : State) : KeepsN (MayTouch (.keyErase d slot)) s (exec (.keyErase d slot) s) := by
  apply keeps_execKeyErase
  all_goals first | exact Keeps.refl _ _ | (simp [MayTouch, touched]; done) | simp [MayTouch, touchedReg]

theorem frame_keyQuery (d) (slot) (s : State) : KeepsN (MayTouch (.keyQuery d slot)) s (exec (.keyQuery d slot) s) := by
  apply keeps_execKeyQuery
  all_goals first | exact Keeps.refl _ _ | (simp [MayTouch, touched]; done) | simp [MayTouch, touchedReg]

theorem frame_bufSeal (d) (slot) (aad) (addr) (len) (job) (s : State) : KeepsN (MayTouch (.bufSeal d slot aad addr len job)) s (exec (.bufSeal d slot aad addr len job) s) := by
  apply keeps_execBufSeal
  all_goals first | exact Keeps.refl _ _ | (simp [MayTouch, touched]; done) | simp [MayTouch, touchedReg]

theorem frame_bufOpen (d) (sealWord) (aad) (tag) (addr) (len) (job) (s : State) : KeepsN (MayTouch (.bufOpen d sealWord aad tag addr len job)) s (exec (.bufOpen d sealWord aad tag addr len job) s) := by
  apply keeps_execBufOpen
  all_goals first | exact Keeps.refl _ _ | (simp [MayTouch, touched]; done) | simp [MayTouch, touchedReg]

theorem frame_retiredGenRelease (slot) (gen) (s : State) : KeepsN (MayTouch (.retiredGenRelease slot gen)) s (exec (.retiredGenRelease slot gen) s) := by
  apply keeps_execRetiredGenRelease
  all_goals first | exact Keeps.refl _ _ | (simp [MayTouch, touched]; done) | simp [MayTouch, touchedReg]

theorem frame_eraseWaitExpiry (slot) (s : State) : KeepsN (MayTouch (.eraseWaitExpiry slot)) s (exec (.eraseWaitExpiry slot) s) := by
  apply keeps_execEraseWaitExpiry
  all_goals first | exact Keeps.refl _ _ | (simp [MayTouch, touched]; done) | simp [MayTouch, touchedReg]

theorem frame_slotEccError (slot) (hit) (s : State) : KeepsN (MayTouch (.slotEccError slot hit)) s (exec (.slotEccError slot hit) s) := by
  apply keeps_execSlotEccError
  all_goals first | exact Keeps.refl _ _ | (simp [MayTouch, touched]; done) | simp [MayTouch, touchedReg]

theorem frame_reclaimBest (d) (pool) (n) (s : State) : KeepsN (MayTouch (.reclaimBest d pool n)) s (exec (.reclaimBest d pool n) s) := by
  apply keeps_execReclaimBest
  all_goals first | exact Keeps.refl _ _ | (simp [MayTouch, touched]; done) | simp [MayTouch, touchedReg]

theorem frame_reclaimSb (d) (sb) (s : State) : KeepsN (MayTouch (.reclaimSb d sb)) s (exec (.reclaimSb d sb) s) := by
  apply keeps_execReclaimSb
  all_goals first | exact Keeps.refl _ _ | (simp [MayTouch, touched]; done) | simp [MayTouch, touchedReg]

theorem frame_verifyRelease (d) (n) (badRows) (s : State) : KeepsN (MayTouch (.verifyRelease d n badRows)) s (exec (.verifyRelease d n badRows) s) := by
  apply keeps_execVerifyRelease
  all_goals first | exact Keeps.refl _ _ | (simp [MayTouch, touched]; done) | simp [MayTouch, touchedReg]

theorem frame_refreshDue (d) (n) (s : State) : KeepsN (MayTouch (.refreshDue d n)) s (exec (.refreshDue d n) s) := by
  apply keeps_execRefreshDue
  all_goals first | exact Keeps.refl _ _ | (simp [MayTouch, touched]; done) | simp [MayTouch, touchedReg]

theorem frame_patrol (d) (n) (found) (s : State) : KeepsN (MayTouch (.patrol d n found)) s (exec (.patrol d n found) s) := by
  apply keeps_execPatrol
  all_goals first | exact Keeps.refl _ _ | (simp [MayTouch, touched]; done) | exact fun n => Or.inr ⟨n, rfl⟩ | exact fun n => ⟨n, rfl⟩ | simp [MayTouch, touchedReg]

theorem frame_wearMove (d) (s : State) : KeepsN (MayTouch (.wearMove d)) s (exec (.wearMove d) s) := by
  apply keeps_execWearMove
  all_goals first | exact Keeps.refl _ _ | (simp [MayTouch, touched]; done) | simp [MayTouch, touchedReg]

theorem frame_peerWrite (d) (entry) (s : State) : KeepsN (MayTouch (.peerWrite d entry)) s (exec (.peerWrite d entry) s) := by
  apply keeps_execPeerWrite
  all_goals first | exact Keeps.refl _ _ | (simp [MayTouch, touched]; done) | simp [MayTouch, touchedReg]

theorem frame_placeWrite (d) (first) (entries) (s : State) : KeepsN (MayTouch (.placeWrite d first entries)) s (exec (.placeWrite d first entries) s) := by
  apply keeps_execPlaceWrite
  all_goals first | exact Keeps.refl _ _ | (simp [MayTouch, touched]; done) | simp [MayTouch, touchedReg]

theorem frame_templateWrite (d) (number) (record) (s : State) : KeepsN (MayTouch (.templateWrite d number record)) s (exec (.templateWrite d number record) s) := by
  apply keeps_execTemplateWrite
  all_goals first | exact Keeps.refl _ _ | (simp [MayTouch, touched]; done) | simp [MayTouch, touchedReg]

theorem frame_domainLoad (d) (domain) (wrapped) (s : State) : KeepsN (MayTouch (.domainLoad d domain wrapped)) s (exec (.domainLoad d domain wrapped) s) := by
  apply keeps_execDomainLoad
  all_goals first | exact Keeps.refl _ _ | (simp [MayTouch, touched]; done) | simp [MayTouch, touchedReg]

theorem frame_resyncRange (d) (firstKh) (lastKh) (s : State) : KeepsN (MayTouch (.resyncRange d firstKh lastKh)) s (exec (.resyncRange d firstKh lastKh) s) := by
  apply keeps_execResyncRange
  all_goals first | exact Keeps.refl _ _ | (simp [MayTouch, touched]; done) | simp [MayTouch, touchedReg]

theorem frame_tenantWrite (d) (record) (s : State) : KeepsN (MayTouch (.tenantWrite d record)) s (exec (.tenantWrite d record) s) := by
  apply keeps_execTenantWrite
  all_goals first | exact Keeps.refl _ _ | (simp [MayTouch, touched]; done) | simp [MayTouch, touchedReg]

theorem frame_tenantRead (d) (tenant) (s : State) : KeepsN (MayTouch (.tenantRead d tenant)) s (exec (.tenantRead d tenant) s) := by
  apply keeps_execTenantRead
  all_goals first | exact Keeps.refl _ _ | (simp [MayTouch, touched]; done) | simp [MayTouch, touchedReg]

theorem frame_secretLoad (d) (tenant) (wrapped) (s : State) : KeepsN (MayTouch (.secretLoad d tenant wrapped)) s (exec (.secretLoad d tenant wrapped) s) := by
  apply keeps_execSecretLoad
  all_goals first | exact Keeps.refl _ _ | (simp [MayTouch, touched]; done) | simp [MayTouch, touchedReg]

theorem frame_secretClear (d) (tenant) (s : State) : KeepsN (MayTouch (.secretClear d tenant)) s (exec (.secretClear d tenant) s) := by
  apply keeps_execSecretClear
  all_goals first | exact Keeps.refl _ _ | (simp [MayTouch, touched]; done) | simp [MayTouch, touchedReg]

theorem frame_ownerChallenge (via) (requester) (s : State) : KeepsN (MayTouch (.ownerChallenge via requester)) s (exec (.ownerChallenge via requester) s) := by
  apply keeps_execOwnerChallenge
  all_goals first | exact Keeps.refl _ _ | (simp [MayTouch, touched]; done) | simp [MayTouch, touchedReg]

theorem frame_ownerAuth (via) (requester) (purpose) (response) (s : State) : KeepsN (MayTouch (.ownerAuth via requester purpose response)) s (exec (.ownerAuth via requester purpose response) s) := by
  apply keeps_execOwnerAuth
  all_goals first | exact Keeps.refl _ _ | (simp [MayTouch, touched]; done) | simp [MayTouch, touchedReg]

theorem frame_ownerSet (via) (key) (ref) (s : State) : KeepsN (MayTouch (.ownerSet via key ref)) s (exec (.ownerSet via key ref) s) := by
  apply keeps_execOwnerSet
  all_goals first | exact Keeps.refl _ _ | (simp [MayTouch, touched]; done) | simp [MayTouch, touchedReg]

theorem frame_ownerLock (via) (set) (ref) (s : State) : KeepsN (MayTouch (.ownerLock via set ref)) s (exec (.ownerLock via set ref) s) := by
  apply keeps_execOwnerLock
  all_goals first | exact Keeps.refl _ _ | (simp [MayTouch, touched]; done) | simp [MayTouch, touchedReg]

theorem frame_ownerErase (via) (ref) (s : State) : KeepsN (MayTouch (.ownerErase via ref)) s (exec (.ownerErase via ref) s) := by
  apply keeps_execOwnerErase
  all_goals first | exact Keeps.refl _ _ | (simp [MayTouch, touched]; done) | simp [MayTouch, touchedReg]

theorem frame_chainWrite (m) (s : State) : KeepsN (MayTouch (.chainWrite m)) s (exec (.chainWrite m) s) := by
  apply keeps_execChainWrite
  all_goals first | exact Keeps.refl _ _ | (simp [MayTouch, touched]; done) | simp [MayTouch, touchedReg]

theorem frame_chainAck (m) (s : State) : KeepsN (MayTouch (.chainAck m)) s (exec (.chainAck m) s) := by
  apply keeps_execChainAck
  all_goals first | exact Keeps.refl _ _ | (simp [MayTouch, touched]; done) | simp [MayTouch, touchedReg]

theorem frame_chainRevoke (m) (s : State) : KeepsN (MayTouch (.chainRevoke m)) s (exec (.chainRevoke m) s) := by
  apply keeps_execChainRevoke
  all_goals first | exact Keeps.refl _ _ | (simp [MayTouch, touched]; done) | simp [MayTouch, touchedReg]

theorem frame_repairReq (m) (s : State) : KeepsN (MayTouch (.repairReq m)) s (exec (.repairReq m) s) := by
  apply keeps_execRepairReq
  all_goals first | exact Keeps.refl _ _ | (simp [MayTouch, touched]; done) | simp [MayTouch, touchedReg]

theorem frame_repairResp (m) (s : State) : KeepsN (MayTouch (.repairResp m)) s (exec (.repairResp m) s) := by
  apply keeps_execRepairResp
  all_goals first | exact Keeps.refl _ _ | (simp [MayTouch, touched]; done) | simp [MayTouch, touchedReg]

theorem frame_keepalive (m) (s : State) : KeepsN (MayTouch (.keepalive m)) s (exec (.keepalive m) s) := by
  apply keeps_execKeepalive
  all_goals first | exact Keeps.refl _ _ | (simp [MayTouch, touched]; done)

theorem frame_keepaliveSend (ctx) (s : State) : KeepsN (MayTouch (.keepaliveSend ctx)) s (exec (.keepaliveSend ctx) s) := by
  apply keeps_execKeepaliveSend
  all_goals first | exact Keeps.refl _ _ | (simp [MayTouch, touched]; done)

theorem frame_peerDead (peer) (s : State) : KeepsN (MayTouch (.peerDead peer)) s (exec (.peerDead peer) s) := by
  apply keeps_execPeerDead
  all_goals first | exact Keeps.refl _ _ | (simp [MayTouch, touched]; done)

theorem frame_peerLinkRequest (peer) (port) (s : State) : KeepsN (MayTouch (.peerLinkRequest peer port)) s (exec (.peerLinkRequest peer port) s) := by
  apply keeps_execPeerLinkRequest
  all_goals first | exact Keeps.refl _ _ | (simp [MayTouch, touched]; done) | simp [MayTouch, touchedReg]

theorem frame_peerCmReq (req) (s : State) : KeepsN (MayTouch (.peerCmReq req)) s (exec (.peerCmReq req) s) := by
  apply keeps_execPeerCmReq
  all_goals first | exact Keeps.refl _ _ | (simp [MayTouch, touched]; done) | simp [MayTouch, touchedReg]

theorem frame_peerCmRep (ctx) (rep) (s : State) : KeepsN (MayTouch (.peerCmRep ctx rep)) s (exec (.peerCmRep ctx rep) s) := by
  apply keeps_execPeerCmRep
  all_goals first | exact Keeps.refl _ _ | (simp [MayTouch, touched]; done)

theorem frame_peerCmRtu (ctx) (proof) (s : State) : KeepsN (MayTouch (.peerCmRtu ctx proof)) s (exec (.peerCmRtu ctx proof) s) := by
  apply keeps_execPeerCmRtu
  all_goals first | exact Keeps.refl _ _ | (simp [MayTouch, touched]; done)

theorem frame_successorAckTimeout (cmd) (s : State) : KeepsN (MayTouch (.successorAckTimeout cmd)) s (exec (.successorAckTimeout cmd) s) := by
  apply keeps_execSuccessorAckTimeout
  all_goals first | exact Keeps.refl _ _ | (simp [MayTouch, touched]; done) | simp [MayTouch, touchedReg]

theorem frame_headChainTimeout (cmd) (s : State) : KeepsN (MayTouch (.headChainTimeout cmd)) s (exec (.headChainTimeout cmd) s) := by
  apply keeps_execHeadChainTimeout
  all_goals first | exact Keeps.refl _ _ | (simp [MayTouch, touched]; done) | simp [MayTouch, touchedReg]

theorem frame_repairTimeout (repair) (s : State) : KeepsN (MayTouch (.repairTimeout repair)) s (exec (.repairTimeout repair) s) := by
  apply keeps_execRepairTimeout
  all_goals first | exact Keeps.refl _ _ | (simp [MayTouch, touched]; done) | simp [MayTouch, touchedReg]

theorem frame_dedupeExpiry (keyHash) (version) (s : State) : KeepsN (MayTouch (.dedupeExpiry keyHash version)) s (exec (.dedupeExpiry keyHash version) s) := by
  apply keeps_execDedupeExpiry
  all_goals first | exact Keeps.refl _ _ | (simp [MayTouch, touched]; done) | simp [MayTouch, touchedReg]

theorem frame_revokeHoldExpiry (keyHash) (version) (s : State) : KeepsN (MayTouch (.revokeHoldExpiry keyHash version)) s (exec (.revokeHoldExpiry keyHash version) s) := by
  apply keeps_execRevokeHoldExpiry
  all_goals first | exact Keeps.refl _ _ | (simp [MayTouch, touched]; done) | simp [MayTouch, touchedReg]

theorem frame_ledgerLineWrite (line) (data) (failsA) (failsB) (ref) (s : State) : KeepsN (MayTouch (.ledgerLineWrite line data failsA failsB ref)) s (exec (.ledgerLineWrite line data failsA failsB ref) s) := by
  apply keeps_execLedgerLineWrite
  all_goals first | exact Keeps.refl _ _ | (simp [MayTouch, touched]; done) | simp [MayTouch, touchedReg]

theorem frame_gapMove (group) (s : State) : KeepsN (MayTouch (.gapMove group)) s (exec (.gapMove group) s) := by
  apply keeps_execGapMove
  all_goals first | exact Keeps.refl _ _ | (simp [MayTouch, touched]; done)

theorem frame_ledgerGroupFailed (group) (s : State) : KeepsN (MayTouch (.ledgerGroupFailed group)) s (exec (.ledgerGroupFailed group) s) := by
  apply keeps_execLedgerGroupFailed
  all_goals first | exact Keeps.refl _ _ | (simp [MayTouch, touched]; done) | simp [MayTouch, touchedReg]

theorem frame_ledgerDeviceFailed (device) (s : State) : KeepsN (MayTouch (.ledgerDeviceFailed device)) s (exec (.ledgerDeviceFailed device) s) := by
  apply keeps_execLedgerDeviceFailed
  all_goals first | exact Keeps.refl _ _ | (simp [MayTouch, touched]; done) | simp [MayTouch, touchedReg]

theorem frame_gaugeRefill (s : State) : KeepsN (MayTouch (.gaugeRefill)) s (exec (.gaugeRefill) s) := by
  apply keeps_execGaugeRefill
  all_goals first | exact Keeps.refl _ _ | (simp [MayTouch, touched]; done)

theorem frame_ledgerPack (range) (s : State) : KeepsN (MayTouch (.ledgerPack range)) s (exec (.ledgerPack range) s) := by
  apply keeps_execLedgerPack
  all_goals first | exact Keeps.refl _ _ | (simp [MayTouch, touched]; done) | simp [MayTouch, touchedReg]

theorem frame_usageCheckpoint (s : State) : KeepsN (MayTouch (.usageCheckpoint)) s (exec (.usageCheckpoint) s) := by
  apply keeps_execUsageCheckpoint
  all_goals first | exact Keeps.refl _ _ | (simp [MayTouch, touched]; done) | simp [MayTouch, touchedReg]

theorem frame_mapCheckpoint (s : State) : KeepsN (MayTouch (.mapCheckpoint)) s (exec (.mapCheckpoint) s) := by
  apply keeps_execMapCheckpoint
  all_goals first | exact Keeps.refl _ _ | (simp [MayTouch, touched]; done) | simp [MayTouch, touchedReg]

theorem frame_dieReadDone (sb) (q) (outcome) (s : State) : KeepsN (MayTouch (.dieReadDone sb q outcome)) s (exec (.dieReadDone sb q outcome) s) := by
  apply keeps_execDieReadDone
  all_goals first | exact Keeps.refl _ _ | (simp [MayTouch, touched]; done) | exact fun n => Or.inr ⟨n, rfl⟩ | exact fun n => ⟨n, rfl⟩ | simp [MayTouch, touchedReg]

theorem frame_droppedStitchRebuilt (sb) (q) (secondFails) (s : State) : KeepsN (MayTouch (.droppedStitchRebuilt sb q secondFails)) s (exec (.droppedStitchRebuilt sb q secondFails) s) := by
  apply keeps_execDroppedStitchRebuilt
  all_goals first | exact Keeps.refl _ _ | (simp [MayTouch, touched]; done) | simp [MayTouch, touchedReg]

theorem frame_programDone (sb) (pages) (s : State) : KeepsN (MayTouch (.programDone sb pages)) s (exec (.programDone sb pages) s) := by
  apply keeps_execProgramDone
  all_goals first | exact Keeps.refl _ _ | (simp [MayTouch, touched]; done) | simp [MayTouch, touchedReg]

theorem frame_programFail (sb) (row) (position) (s : State) : KeepsN (MayTouch (.programFail sb row position)) s (exec (.programFail sb row position) s) := by
  apply keeps_execProgramFail
  all_goals first | exact Keeps.refl _ _ | (simp [MayTouch, touched]; done) | simp [MayTouch, touchedReg]

theorem frame_eraseDone (sb) (s : State) : KeepsN (MayTouch (.eraseDone sb)) s (exec (.eraseDone sb) s) := by
  apply keeps_execEraseDone
  all_goals first | exact Keeps.refl _ _ | (simp [MayTouch, touched]; done) | simp [MayTouch, touchedReg]

theorem frame_eraseFail (sb) (position) (s : State) : KeepsN (MayTouch (.eraseFail sb position)) s (exec (.eraseFail sb position) s) := by
  apply keeps_execEraseFail
  all_goals first | exact Keeps.refl _ _ | (simp [MayTouch, touched]; done) | simp [MayTouch, touchedReg]

theorem frame_dieFailed (channel) (die) (s : State) : KeepsN (MayTouch (.dieFailed channel die)) s (exec (.dieFailed channel die) s) := by
  apply keeps_execDieFailed
  all_goals first | exact Keeps.refl _ _ | (simp [MayTouch, touched]; done) | exact fun n => Or.inr ⟨n, rfl⟩ | exact fun n => ⟨n, rfl⟩ | simp [MayTouch, touchedReg]

theorem frame_channelFault (channel) (cause) (s : State) : KeepsN (MayTouch (.channelFault channel cause)) s (exec (.channelFault channel cause) s) := by
  apply keeps_execChannelFault
  all_goals first | exact Keeps.refl _ _ | (simp [MayTouch, touched]; done) | exact fun n => Or.inr ⟨n, rfl⟩ | exact fun n => ⟨n, rfl⟩ | simp [MayTouch, touchedReg]

theorem frame_wordlinePad (sb) (s : State) : KeepsN (MayTouch (.wordlinePad sb)) s (exec (.wordlinePad sb) s) := by
  apply keeps_execWordlinePad
  all_goals first | exact Keeps.refl _ _ | (simp [MayTouch, touched]; done) | simp [MayTouch, touchedReg]

theorem frame_programSuspend (channel) (die) (s : State) : KeepsN (MayTouch (.programSuspend channel die)) s (exec (.programSuspend channel die) s) := by
  apply keeps_execProgramSuspend
  all_goals first | exact Keeps.refl _ _ | (simp [MayTouch, touched]; done)

theorem frame_slcFold (s : State) : KeepsN (MayTouch (.slcFold)) s (exec (.slcFold) s) := by
  apply keeps_execSlcFold
  all_goals first | exact Keeps.refl _ _ | (simp [MayTouch, touched]; done) | simp [MayTouch, touchedReg]

theorem frame_autoReclaim (s : State) : KeepsN (MayTouch (.autoReclaim)) s (exec (.autoReclaim) s) := by
  apply keeps_execAutoReclaim
  all_goals first | exact Keeps.refl _ _ | (simp [MayTouch, touched]; done) | simp [MayTouch, touchedReg]

theorem frame_urgentVerify (badRows) (s : State) : KeepsN (MayTouch (.urgentVerify badRows)) s (exec (.urgentVerify badRows) s) := by
  apply keeps_execUrgentVerify
  all_goals first | exact Keeps.refl _ _ | (simp [MayTouch, touched]; done) | simp [MayTouch, touchedReg]

theorem frame_refreshAuto (sb) (s : State) : KeepsN (MayTouch (.refreshAuto sb)) s (exec (.refreshAuto sb) s) := by
  apply keeps_execRefreshAuto
  all_goals first | exact Keeps.refl _ _ | (simp [MayTouch, touched]; done) | simp [MayTouch, touchedReg]

theorem frame_skeinDemote (s : State) : KeepsN (MayTouch (.skeinDemote)) s (exec (.skeinDemote) s) := by
  apply keeps_execSkeinDemote
  all_goals first | exact Keeps.refl _ _ | (simp [MayTouch, touched]; done) | simp [MayTouch, touchedReg]

theorem frame_faultEvent (evs) (s : State) : KeepsN (MayTouch (.faultEvent evs)) s (exec (.faultEvent evs) s) := by
  apply keeps_execFaultEvent
  all_goals first | exact Keeps.refl _ _ | (simp [MayTouch, touched]; done) | simp [MayTouch, touchedReg]

theorem frame_hangDetected (what) (s : State) : KeepsN (MayTouch (.hangDetected what)) s (exec (.hangDetected what) s) := by
  apply keeps_execHangDetected
  all_goals first | exact Keeps.refl _ _ | (simp [MayTouch, touched]; done) | exact fun n => Or.inr ⟨n, rfl⟩ | exact fun n => ⟨n, rfl⟩ | simp [MayTouch, touchedReg]

theorem frame_railTest (failing) (s : State) : KeepsN (MayTouch (.railTest failing)) s (exec (.railTest failing) s) := by
  apply keeps_execRailTest
  all_goals first | exact Keeps.refl _ _ | (simp [MayTouch, touched]; done) | simp [MayTouch, touchedReg]

theorem frame_collectorMessage (collector) (crcOk) (evs) (s : State) : KeepsN (MayTouch (.collectorMessage collector crcOk evs)) s (exec (.collectorMessage collector crcOk evs) s) := by
  apply keeps_execCollectorMessage
  all_goals first | exact Keeps.refl _ _ | (simp [MayTouch, touched]; done)

theorem frame_stickyClear (word) (mask) (s : State) : KeepsN (MayTouch (.stickyClear word mask)) s (exec (.stickyClear word mask) s) := by
  apply keeps_execStickyClear
  all_goals first | exact Keeps.refl _ _ | (simp [MayTouch, touched]; done)

theorem frame_fltFirstClear (s : State) : KeepsN (MayTouch (.fltFirstClear)) s (exec (.fltFirstClear) s) := by
  apply keeps_execFltFirstClear
  all_goals first | exact Keeps.refl _ _ | (simp [MayTouch, touched]; done)

theorem frame_errOutRelease (code) (s : State) : KeepsN (MayTouch (.errOutRelease code)) s (exec (.errOutRelease code) s) := by
  apply keeps_execErrOutRelease
  all_goals first | exact Keeps.refl _ _ | (simp [MayTouch, touched]; done)

theorem frame_fltSwatchArm (value) (s : State) : KeepsN (MayTouch (.fltSwatchArm value)) s (exec (.fltSwatchArm value) s) := by
  apply keeps_execFltSwatchArm
  all_goals first | exact Keeps.refl _ _ | simp [MayTouch, touchedReg]

theorem frame_valSwatchArm (value) (s : State) : KeepsN (MayTouch (.valSwatchArm value)) s (exec (.valSwatchArm value) s) := by
  apply keeps_execValSwatchArm
  all_goals first | exact Keeps.refl _ _ | simp [MayTouch, touchedReg]

theorem frame_cipCtrPreset (value) (s : State) : KeepsN (MayTouch (.cipCtrPreset value)) s (exec (.cipCtrPreset value) s) := by
  apply keeps_execCipCtrPreset
  all_goals first | exact Keeps.refl _ _ | (simp [MayTouch, touched]; done) | simp [MayTouch, touchedReg]

theorem frame_cipAlarmSwWrite (code) (s : State) : KeepsN (MayTouch (.cipAlarmSwWrite code)) s (exec (.cipAlarmSwWrite code) s) := by
  apply keeps_execCipAlarmSwWrite
  all_goals first | exact Keeps.refl _ _ | (simp [MayTouch, touched]; done) | simp [MayTouch, touchedReg]

theorem frame_tamperDetected (detector) (s : State) : KeepsN (MayTouch (.tamperDetected detector)) s (exec (.tamperDetected detector) s) := by
  apply keeps_execTamperDetected
  all_goals first | exact Keeps.refl _ _ | (simp [MayTouch, touched]; done) | simp [MayTouch, touchedReg]

theorem frame_glitchDetected (s : State) : KeepsN (MayTouch (.glitchDetected)) s (exec (.glitchDetected) s) := by
  apply keeps_execGlitchDetected
  all_goals first | exact Keeps.refl _ _ | (simp [MayTouch, touched]; done) | simp [MayTouch, touchedReg]

theorem frame_recordWrite (s : State) : KeepsN (MayTouch (.recordWrite)) s (exec (.recordWrite) s) := by
  apply keeps_execRecordWrite
  all_goals first | exact Keeps.refl _ _ | (simp [MayTouch, touched]; done) | simp [MayTouch, touchedReg]

theorem frame_recCopyBack (s : State) : KeepsN (MayTouch (.recCopyBack)) s (exec (.recCopyBack) s) := by
  apply keeps_execRecCopyBack
  all_goals first | exact Keeps.refl _ _ | (simp [MayTouch, touched]; done) | simp [MayTouch, touchedReg]

theorem frame_heartbeat (s : State) : KeepsN (MayTouch (.heartbeat)) s (exec (.heartbeat) s) := by
  apply keeps_execHeartbeat
  all_goals first | exact Keeps.refl _ _ | (simp [MayTouch, touched]; done)

theorem frame_heartbeatMissed (s : State) : KeepsN (MayTouch (.heartbeatMissed)) s (exec (.heartbeatMissed) s) := by
  apply keeps_execHeartbeatMissed
  all_goals first | exact Keeps.refl _ _ | (simp [MayTouch, touched]; done) | simp [MayTouch, touchedReg]

theorem frame_headlessTimeout (s : State) : KeepsN (MayTouch (.headlessTimeout)) s (exec (.headlessTimeout) s) := by
  apply keeps_execHeadlessTimeout
  all_goals first | exact Keeps.refl _ _ | (simp [MayTouch, touched]; done) | simp [MayTouch, touchedReg]

theorem frame_activationDrainEnd (s : State) : KeepsN (MayTouch (.activationDrainEnd)) s (exec (.activationDrainEnd) s) := by
  apply keeps_execActivationDrainEnd
  all_goals first | exact Keeps.refl _ _ | (simp [MayTouch, touched]; done) | simp [MayTouch, touchedReg]

theorem frame_resetDrainEnd (s : State) : KeepsN (MayTouch (.resetDrainEnd)) s (exec (.resetDrainEnd) s) := by
  apply keeps_execResetDrainEnd
  all_goals first | exact Keeps.refl _ _ | (simp [MayTouch, touched]; done) | simp [MayTouch, touchedReg]

theorem frame_chipStart (given) (s : State) : KeepsN (MayTouch (.chipStart given)) s (exec (.chipStart given) s) := by
  apply keeps_execChipStart
  all_goals first | exact Keeps.refl _ _ | (simp [MayTouch, touched]; done) | exact fun _ => trivial

theorem frame_startDone (s : State) : KeepsN (MayTouch (.startDone)) s (exec (.startDone) s) := by
  apply keeps_execStartDone
  all_goals first | exact Keeps.refl _ _ | (simp [MayTouch, touched]; done)

theorem frame_startTimeout (s : State) : KeepsN (MayTouch (.startTimeout)) s (exec (.startTimeout) s) := by
  apply keeps_execStartTimeout
  all_goals first | exact Keeps.refl _ _ | (simp [MayTouch, touched]; done) | simp [MayTouch, touchedReg]

theorem frame_rstSoftWrite (core) (code) (s : State) : KeepsN (MayTouch (.rstSoftWrite core code)) s (exec (.rstSoftWrite core code) s) := by
  apply keeps_execRstSoftWrite
  all_goals first | exact Keeps.refl _ _ | (simp [MayTouch, touched]; done) | simp [MayTouch, touchedReg]

theorem frame_recoveryDownload (manifest) (stream) (s : State) : KeepsN (MayTouch (.recoveryDownload manifest stream)) s (exec (.recoveryDownload manifest stream) s) := by
  apply keeps_execRecoveryDownload
  all_goals first | exact Keeps.refl _ _ | (simp [MayTouch, touched]; done) | simp [MayTouch, touchedReg]

theorem frame_domainSwitch (s : State) : KeepsN (MayTouch (.domainSwitch)) s (exec (.domainSwitch) s) := by
  apply keeps_execDomainSwitch
  all_goals first | exact Keeps.refl _ _ | (simp [MayTouch, touched]; done) | simp [MayTouch, touchedReg]

theorem frame_phaseLost (domain) (phase) (s : State) : KeepsN (MayTouch (.phaseLost domain phase)) s (exec (.phaseLost domain phase) s) := by
  apply keeps_execPhaseLost
  all_goals first | exact Keeps.refl _ _ | (simp [MayTouch, touched]; done) | simp [MayTouch, touchedReg]

theorem frame_ps1Entry (s : State) : KeepsN (MayTouch (.ps1Entry)) s (exec (.ps1Entry) s) := by
  apply keeps_execPs1Entry
  all_goals first | exact Keeps.refl _ _ | (simp [MayTouch, touched]; done)

theorem frame_ps2Entry (s : State) : KeepsN (MayTouch (.ps2Entry)) s (exec (.ps2Entry) s) := by
  apply keeps_execPs2Entry
  all_goals first | exact Keeps.refl _ _ | (simp [MayTouch, touched]; done)

theorem frame_ps3Entry (s : State) : KeepsN (MayTouch (.ps3Entry)) s (exec (.ps3Entry) s) := by
  apply keeps_execPs3Entry
  all_goals first | exact Keeps.refl _ _ | (simp [MayTouch, touched]; done)

theorem frame_ps3Request (s : State) : KeepsN (MayTouch (.ps3Request)) s (exec (.ps3Request) s) := by
  apply keeps_execPs3Request
  all_goals first | exact Keeps.refl _ _ | (simp [MayTouch, touched]; done)

theorem frame_ps0Request (s : State) : KeepsN (MayTouch (.ps0Request)) s (exec (.ps0Request) s) := by
  apply keeps_execPs0Request
  all_goals first | exact Keeps.refl _ _ | (simp [MayTouch, touched]; done) | simp [MayTouch, touchedReg]

theorem frame_wakeEvent (source) (s : State) : KeepsN (MayTouch (.wakeEvent source)) s (exec (.wakeEvent source) s) := by
  apply keeps_execWakeEvent
  all_goals first | exact Keeps.refl _ _ | (simp [MayTouch, touched]; done) | simp [MayTouch, touchedReg]

theorem frame_shedStageEntered (stage) (input) (s : State) : KeepsN (MayTouch (.shedStageEntered stage input)) s (exec (.shedStageEntered stage input) s) := by
  apply keeps_execShedStageEntered
  all_goals first | exact Keeps.refl _ _ | (simp [MayTouch, touched]; done) | simp [MayTouch, touchedReg]

theorem frame_shedStageLeft (stage) (ms) (s : State) : KeepsN (MayTouch (.shedStageLeft stage ms)) s (exec (.shedStageLeft stage ms) s) := by
  apply keeps_execShedStageLeft
  all_goals first | exact Keeps.refl _ _ | (simp [MayTouch, touched]; done)

theorem frame_holdupTakeover (input) (bank) (s : State) : KeepsN (MayTouch (.holdupTakeover input bank)) s (exec (.holdupTakeover input bank) s) := by
  apply keeps_execHoldupTakeover
  all_goals first | exact Keeps.refl _ _ | (simp [MayTouch, touched]; done) | simp [MayTouch, touchedReg]

theorem frame_holdupTest (energyDj) (s : State) : KeepsN (MayTouch (.holdupTest energyDj)) s (exec (.holdupTest energyDj) s) := by
  apply keeps_execHoldupTest
  all_goals first | exact Keeps.refl _ _ | (simp [MayTouch, touched]; done) | simp [MayTouch, touchedReg]

theorem frame_holdupNotReady (s : State) : KeepsN (MayTouch (.holdupNotReady)) s (exec (.holdupNotReady) s) := by
  apply keeps_execHoldupNotReady
  all_goals first | exact Keeps.refl _ _ | (simp [MayTouch, touched]; done)

theorem frame_thermalStageEntered (stage) (temp) (s : State) : KeepsN (MayTouch (.thermalStageEntered stage temp)) s (exec (.thermalStageEntered stage temp) s) := by
  apply keeps_execThermalStageEntered
  all_goals first | exact Keeps.refl _ _ | (simp [MayTouch, touched]; done) | simp [MayTouch, touchedReg]

theorem frame_thermalStageLeft (stage) (seconds) (s : State) : KeepsN (MayTouch (.thermalStageLeft stage seconds)) s (exec (.thermalStageLeft stage seconds) s) := by
  apply keeps_execThermalStageLeft
  all_goals first | exact Keeps.refl _ _ | (simp [MayTouch, touched]; done) | simp [MayTouch, touchedReg]

theorem frame_thmSensorFault (sensorA) (sensorB) (junction) (s : State) : KeepsN (MayTouch (.thmSensorFault sensorA sensorB junction)) s (exec (.thmSensorFault sensorA sensorB junction) s) := by
  apply keeps_execThmSensorFault
  all_goals first | exact Keeps.refl _ _ | (simp [MayTouch, touched]; done) | simp [MayTouch, touchedReg]

theorem frame_thermalCritical (coldPlate) (junction) (s : State) : KeepsN (MayTouch (.thermalCritical coldPlate junction)) s (exec (.thermalCritical coldPlate junction) s) := by
  apply keeps_execThermalCritical
  all_goals first | exact Keeps.refl _ _ | (simp [MayTouch, touched]; done)

theorem frame_thermalResetRelease (s : State) : KeepsN (MayTouch (.thermalResetRelease)) s (exec (.thermalResetRelease) s) := by
  apply keeps_execThermalResetRelease
  all_goals first | exact Keeps.refl _ _ | (simp [MayTouch, touched]; done)

theorem frame_clockFault (edges) (s : State) : KeepsN (MayTouch (.clockFault edges)) s (exec (.clockFault edges) s) := by
  apply keeps_execClockFault
  all_goals first | exact Keeps.refl _ _ | (simp [MayTouch, touched]; done) | simp [MayTouch, touchedReg]

theorem frame_p48vApplied (s : State) : KeepsN (MayTouch (.p48vApplied)) s (exec (.p48vApplied) s) := by
  apply keeps_execP48vApplied
  all_goals first | exact Keeps.refl _ _ | (simp [MayTouch, touched]; done) | simp [MayTouch, touchedReg]

theorem frame_p3v3AuxLost (s : State) : KeepsN (MayTouch (.p3v3AuxLost)) s (exec (.p3v3AuxLost) s) := by
  apply keeps_execP3v3AuxLost
  all_goals first | exact Keeps.refl _ _ | (simp [MayTouch, touched]; done) | simp [MayTouch, touchedReg]

theorem frame_resetInAssert (s : State) : KeepsN (MayTouch (.resetInAssert)) s (exec (.resetInAssert) s) := by
  apply keeps_execResetInAssert
  all_goals first | exact Keeps.refl _ _ | (simp [MayTouch, touched]; done) | simp [MayTouch, touchedReg]

theorem frame_resetInRelease (s : State) : KeepsN (MayTouch (.resetInRelease)) s (exec (.resetInRelease) s) := by
  apply keeps_execResetInRelease
  all_goals first | exact Keeps.refl _ _ | (simp [MayTouch, touched]; done)

theorem frame_pwrDisableAssert (s : State) : KeepsN (MayTouch (.pwrDisableAssert)) s (exec (.pwrDisableAssert) s) := by
  apply keeps_execPwrDisableAssert
  all_goals first | exact Keeps.refl _ _ | (simp [MayTouch, touched]; done) | simp [MayTouch, touchedReg]

theorem frame_pwrDisableRelease (s : State) : KeepsN (MayTouch (.pwrDisableRelease)) s (exec (.pwrDisableRelease) s) := by
  apply keeps_execPwrDisableRelease
  all_goals first | exact Keeps.refl _ _ | (simp [MayTouch, touched]; done)

theorem frame_presentNFall (s : State) : KeepsN (MayTouch (.presentNFall)) s (exec (.presentNFall) s) := by
  apply keeps_execPresentNFall
  all_goals first | exact Keeps.refl _ _ | (simp [MayTouch, touched]; done)

theorem frame_presentNRise (s : State) : KeepsN (MayTouch (.presentNRise)) s (exec (.presentNRise) s) := by
  apply keeps_execPresentNRise
  all_goals first | exact Keeps.refl _ _ | (simp [MayTouch, touched]; done) | simp [MayTouch, touchedReg]

theorem frame_transportSenseRise (s : State) : KeepsN (MayTouch (.transportSenseRise)) s (exec (.transportSenseRise) s) := by
  apply keeps_execTransportSenseRise
  all_goals first | exact Keeps.refl _ _ | (simp [MayTouch, touched]; done)

theorem frame_transportSenseClear (s : State) : KeepsN (MayTouch (.transportSenseClear)) s (exec (.transportSenseClear) s) := by
  apply keeps_execTransportSenseClear
  all_goals first | exact Keeps.refl _ _ | (simp [MayTouch, touched]; done)

theorem frame_smbusOffsetWrite (raw) (s : State) : KeepsN (MayTouch (.smbusOffsetWrite raw)) s (exec (.smbusOffsetWrite raw) s) := by
  apply keeps_execSmbusOffsetWrite
  all_goals first | exact Keeps.refl _ _ | (simp [MayTouch, touched]; done)

theorem frame_smbusRead (n) (s : State) : KeepsN (MayTouch (.smbusRead n)) s (exec (.smbusRead n) s) := by
  apply keeps_execSmbusRead
  all_goals first | exact Keeps.refl _ _ | (simp [MayTouch, touched]; done)

theorem frame_identityRefresh (s : State) : KeepsN (MayTouch (.identityRefresh)) s (exec (.identityRefresh) s) := by
  apply keeps_execIdentityRefresh
  all_goals first | exact Keeps.refl _ _ | (simp [MayTouch, touched]; done)

theorem frame_secTrialPass (s : State) : KeepsN (MayTouch (.secTrialPass)) s (exec (.secTrialPass) s) := by
  apply keeps_execSecTrialPass
  all_goals first | exact Keeps.refl _ _ | (simp [MayTouch, touched]; done) | simp [MayTouch, touchedReg]

theorem frame_secTrialFail (s : State) : KeepsN (MayTouch (.secTrialFail)) s (exec (.secTrialFail) s) := by
  apply keeps_execSecTrialFail
  all_goals first | exact Keeps.refl _ _ | (simp [MayTouch, touched]; done)

theorem frame_trialTimeout (s : State) : KeepsN (MayTouch (.trialTimeout)) s (exec (.trialTimeout) s) := by
  apply keeps_execTrialTimeout
  all_goals first | exact Keeps.refl _ _ | (simp [MayTouch, touched]; done)

theorem frame_commitTimeout (s : State) : KeepsN (MayTouch (.commitTimeout)) s (exec (.commitTimeout) s) := by
  apply keeps_execCommitTimeout
  all_goals first | exact Keeps.refl _ _ | (simp [MayTouch, touched]; done)

theorem frame_sessionIdleTimeout (s : State) : KeepsN (MayTouch (.sessionIdleTimeout)) s (exec (.sessionIdleTimeout) s) := by
  apply keeps_execSessionIdleTimeout
  all_goals first | exact Keeps.refl _ _ | (simp [MayTouch, touched]; done)

theorem frame_attestTokenRefill (s : State) : KeepsN (MayTouch (.attestTokenRefill)) s (exec (.attestTokenRefill) s) := by
  apply keeps_execAttestTokenRefill
  all_goals first | exact Keeps.refl _ _ | (simp [MayTouch, touched]; done)

theorem frame_blockLockSet (block) (s : State) : KeepsN (MayTouch (.blockLockSet block)) s (exec (.blockLockSet block) s) := by
  apply keeps_execBlockLockSet
  all_goals first | exact Keeps.refl _ _ | exact fun _ => trivial

theorem frame_sysLockAllSet (s : State) : KeepsN (MayTouch (.sysLockAllSet)) s (exec (.sysLockAllSet) s) := by
  apply keeps_execSysLockAllSet
  all_goals first | exact Keeps.refl _ _ | exact fun _ => trivial

theorem frame_cascadeWrite (value) (s : State) : KeepsN (MayTouch (.cascadeWrite value)) s (exec (.cascadeWrite value) s) := by
  apply keeps_execCascadeWrite
  all_goals first | exact Keeps.refl _ _ | (simp [MayTouch, touched]; done) | simp [MayTouch, touchedReg]

theorem frame_rcFieldRead (core) (addr) (s : State) : KeepsN (MayTouch (.rcFieldRead core addr)) s (exec (.rcFieldRead core addr) s) := by
  apply keeps_execRcFieldRead
  all_goals first | exact Keeps.refl _ _ | (simp [MayTouch, touched]; done) | exact fun _ => trivial

theorem frame_loWordRead (core) (addr) (s : State) : KeepsN (MayTouch (.loWordRead core addr)) s (exec (.loWordRead core addr) s) := by
  apply keeps_execLoWordRead
  all_goals first | exact Keeps.refl _ _ | (simp [MayTouch, touched]; done) | exact fun _ => trivial

theorem frame_registerWrite (core) (addr) (width) (value) (s : State) : KeepsN (MayTouch (.registerWrite core addr width value)) s (exec (.registerWrite core addr width value) s) := by
  apply keeps_execRegisterWrite
  all_goals first | exact Keeps.refl _ _ | (simp [MayTouch, touched]; done) | exact fun _ => trivial

theorem frame_holdupReady (s : State) : KeepsN (MayTouch (.holdupReady)) s (exec (.holdupReady) s) := by
  apply keeps_execHoldupReady
  all_goals first | exact Keeps.refl _ _ | (simp [MayTouch, touched]; done)

theorem frame_overtemp (temp) (s : State) : KeepsN (MayTouch (.overtemp temp)) s (exec (.overtemp temp) s) := by
  apply keeps_execOvertemp
  all_goals first | exact Keeps.refl _ _ | (simp [MayTouch, touched]; done) | simp [MayTouch, touchedReg]

theorem frame_keyFetch (cmd) (key) (s : State) : KeepsN (MayTouch (.keyFetch cmd key)) s (exec (.keyFetch cmd key) s) := by
  apply keeps_execKeyFetch
  all_goals first | exact Keeps.refl _ _ | (simp [MayTouch, touched]; done) | simp [MayTouch, touchedReg]

theorem frame_cmDrep (ctx) (s : State) : KeepsN (MayTouch (.cmDrep ctx)) s (exec (.cmDrep ctx) s) := by
  apply keeps_execCmDrep
  all_goals first | exact Keeps.refl _ _ | (simp [MayTouch, touched]; done)

theorem frame_p3v3AuxApplied (s : State) : KeepsN (MayTouch (.p3v3AuxApplied)) s (exec (.p3v3AuxApplied) s) := by
  apply keeps_execP3v3AuxApplied
  all_goals first | exact Keeps.refl _ _ | (simp [MayTouch, touched]; done) | simp [MayTouch, touchedReg]

theorem frame_willadraConnection (tlsMinor) (s : State) : KeepsN (MayTouch (.willadraConnection tlsMinor)) s (exec (.willadraConnection tlsMinor) s) := by
  apply keeps_execWilladraConnection
  all_goals first | exact Keeps.refl _ _ | (simp [MayTouch, touched]; done)

theorem frame_railPairFault (src) (s : State) : KeepsN (MayTouch (.railPairFault src)) s (exec (.railPairFault src) s) := by
  apply keeps_execRailPairFault
  all_goals first | exact Keeps.refl _ _ | (simp [MayTouch, touched]; done)

end Sys2Proof.Machine
end

