-- ==== Sys2Proof/WellFormed.lean ====
section
/-! DEFINITION. The checks on a command's operands: numbers within the ranges that the spec gives the thing
they name, and byte strings of the length that their format has. The meanings are total and do not need
them; a command outside them cannot arise. -/

namespace Sys2Proof

/-- The operands of a command lie in the ranges of the formats that carry them: contexts 0 to 20,479 (R132),
rings 0 to 15 (R453), channels 0 to 63 and dies 0 to 23, tenants 0 to 0x3FF (R63), slots 0 to 0x43F (R298),
match positions of 19 bits (R233), lanes 0 to 15, peers of 12 bits, Ledger groups and logical lines (R331),
superblocks of 19 bits, and the fixed lengths of messages and records (R94, R96, R105, R464, R608). -/
def Instr.wf : Instr → Bool
  | .get _ => true
  | .put _ => true
  | .delete _ => true
  | .writeRange _ => true
  | .punch _ => true
  | .head _ => true
  | .scan _ _ => true
  | .scanNext _ _ => true
  | .count _ _ => true
  | .flush _ => true
  | .nop _ => true
  | .sessionOpen _ _ => true
  | .sessionBlock _ _ _ => true
  | .sessionActivate _ => true
  | .sessionCommit _ => true
  | .sessionClose _ => true
  | .attest _ nonce _ => decide (nonce.length = 16)
  | .identify _ _ => true
  | .recRead _ _ _ => true
  | .recClear _ _ _ _ => true
  | .doorbell ctx _ _ _ => decide (ctx < 20480)
  | .unsupportedRequest ctx => decide (ctx < 20480)
  | .cmReq req => decide (req.raw.length = 92)
  | .cmRtu ctx proof => decide (ctx < 20480) && decide (proof.length = 32)
  | .cmDreq ctx => decide (ctx < 20480)
  | .connectingTimeout ctx => decide (ctx < 20480)
  | .descriptorFetch => true
  | .descriptorAccept ctx raw => decide (ctx < 20480) && decide (raw.length = 128)
  | .phaseRefetch ctx => decide (ctx < 20480)
  | .remoteAccessNak ctx => decide (ctx < 20480)
  | .transportRetryExhausted ctx => decide (ctx < 20480)
  | .outcomeRecordExpiry _ _ => true
  | .completionAcked _ => true
  | .coalesceTimer ctx => decide (ctx < 20480)
  | .cePacketReceived ctx => decide (ctx < 20480)
  | .cnpReceived ctx => decide (ctx < 20480)
  | .ccTimerExpiry ctx => decide (ctx < 20480)
  | .linkDown _ => true
  | .linkdownTimeout _ => true
  | .linkUp _ => true
  | .portRetrainEnd _ => true
  | .opticsInsert _ _ _ _ => true
  | .opticsRailTrip _ => true
  | .policySearch _ parity => parity.all fun n => decide (1 ≤ n) && decide (n ≤ 3)
  | .indexLookup _ _ _ _ => true
  | .valueDataArrival _ _ => true
  | .cipherJobDone _ lane _ => decide (lane < 16)
  | .commitGate _ => true
  | .mirrorChangeDone => true
  | .segmentRead _ _ => true
  | .readRepair _ _ => true
  | .repairRewrite _ => true
  | .completionWrite _ => true
  | .scanBatchTimeout _ => true
  | .scanContextExpiry _ => true
  | .halfWithdraw => true
  | .matchStateReloaded half => decide (half < 256)
  | .matchScrub _ => true
  | .blockResetExit _ => true
  | .engDoorbell ring _ _ => decide (ring < 16)
  | .engCqHeadWrite ring _ => decide (ring < 16)
  | .engRingEnable ring => decide (ring < 16)
  | .engAttachWrite _ => true
  | .unpin _ key => decide (1 ≤ key.length ∧ key.length ≤ 1024)
  | .pin _ key => decide (1 ≤ key.length ∧ key.length ≤ 1024)
  | .rebuild _ => true
  | .repairPoison _ => true
  | .mirrorScrub _ => true
  | .ruleWrite _ pos _ => decide (pos < 524288)
  | .ruleInsert _ pos last _ => decide (pos < 524288) && decide (last < 524288)
  | .shiftComplete => true
  | .ruleClear _ pos => decide (pos < 524288)
  | .ruleSearch _ _ _ issue => issue.parity.all fun n => decide (1 ≤ n) && decide (n ≤ 3)
  | .ruleRead _ pos => decide (pos < 524288)
  | .epochSet _ _ => true
  | .scrubNow _ _ => true
  | .checkCompute _ _ _ _ _ _ => true
  | .keyGenerate _ slot => decide (slot < 1088)
  | .keyImport _ slot wrapped => decide (slot < 1088) && decide (wrapped.length = 40)
  | .keyRoll _ slot => decide (slot < 1088)
  | .keyErase _ slot => decide (slot < 1088)
  | .keyQuery _ slot => decide (slot < 1088)
  | .bufSeal _ slot _ _ _ job => decide (slot < 1088) && job.bad.all fun n => decide (n < 16)
  | .bufOpen _ sealWord _ tag _ _ job =>
    decide (sealWord.length = 16) && decide (tag.length = 16) && job.bad.all fun n => decide (n < 16)
  | .retiredGenRelease slot _ => decide (slot < 1088)
  | .eraseWaitExpiry slot => decide (slot < 1088)
  | .slotEccError slot _ => decide (slot < 1088)
  | .reclaimBest _ _ _ => true
  | .reclaimSb _ sb => decide (sb < 524288)
  | .verifyRelease _ _ _ => true
  | .refreshDue _ _ => true
  | .patrol _ _ _ => true
  | .wearMove _ => true
  | .peerWrite _ entry => decide (entry.length = 64)
  | .placeWrite _ _ _ => true
  | .templateWrite _ number record => decide (number < 256) && decide (record.length = 8)
  | .domainLoad _ domain wrapped => decide (domain < 48) && decide (wrapped.length = 40)
  | .resyncRange _ _ _ => true
  | .tenantWrite _ record => decide (record.length = 64)
  | .tenantRead _ tenant => decide (tenant < 1024)
  | .secretLoad _ tenant wrapped => decide (tenant < 1024) && decide (wrapped.length = 40)
  | .secretClear _ tenant => decide (tenant < 1024)
  | .ownerChallenge _ _ => true
  | .ownerAuth _ _ _ response => decide (response.length = 32)
  | .ownerSet _ key _ => decide (key.length = 32)
  | .ownerLock _ _ _ => true
  | .ownerErase _ _ => true
  | .chainWrite _ => true
  | .chainAck _ => true
  | .chainRevoke _ => true
  | .repairReq _ => true
  | .repairResp _ => true
  | .keepalive _ => true
  | .keepaliveSend ctx => decide (ctx < 20480)
  | .peerDead peer => decide (peer < 4096)
  | .peerLinkRequest peer _ => decide (peer < 4096)
  | .peerCmReq req => decide (req.raw.length = 92)
  | .peerCmRep ctx _ => decide (ctx < 20480)
  | .peerCmRtu ctx proof => decide (ctx < 20480) && decide (proof.length = 32)
  | .successorAckTimeout _ => true
  | .headChainTimeout _ => true
  | .repairTimeout _ => true
  | .dedupeExpiry _ _ => true
  | .revokeHoldExpiry _ _ => true
  | .ledgerLineWrite line _ _ _ _ => decide (line < 67108864)
  | .gapMove group => decide (group < 256)
  | .ledgerGroupFailed group => decide (group < 256)
  | .ledgerDeviceFailed device => decide (device < 2)
  | .gaugeRefill => true
  | .ledgerPack _ => true
  | .usageCheckpoint => true
  | .mapCheckpoint => true
  | .dieReadDone sb _ _ => decide (sb < 524288)
  | .droppedStitchRebuilt sb _ _ => decide (sb < 524288)
  | .programDone sb _ => decide (sb < 524288)
  | .programFail sb _ _ => decide (sb < 524288)
  | .eraseDone sb => decide (sb < 524288)
  | .eraseFail sb _ => decide (sb < 524288)
  | .dieFailed channel die => decide (channel < 64) && decide (die < 24)
  | .channelFault channel _ => decide (channel < 64)
  | .wordlinePad sb => decide (sb < 524288)
  | .programSuspend channel die => decide (channel < 64) && decide (die < 24)
  | .slcFold => true
  | .autoReclaim => true
  | .urgentVerify _ => true
  | .refreshAuto sb => decide (sb < 524288)
  | .skeinDemote => true
  | .faultEvent _ => true
  | .hangDetected _ => true
  | .railTest _ => true
  | .collectorMessage collector _ _ => decide (collector < 30)
  | .stickyClear word _ => decide (word < 36)
  | .fltFirstClear => true
  | .errOutRelease _ => true
  | .fltSwatchArm _ => true
  | .valSwatchArm _ => true
  | .cipCtrPreset _ => true
  | .cipAlarmSwWrite _ => true
  | .tamperDetected _ => true
  | .glitchDetected => true
  | .recordWrite => true
  | .recCopyBack => true
  | .heartbeat => true
  | .heartbeatMissed => true
  | .headlessTimeout => true
  | .activationDrainEnd => true
  | .resetDrainEnd => true
  | .chipStart _ => true
  | .startDone => true
  | .startTimeout => true
  | .rstSoftWrite _ _ => true
  | .recoveryDownload _ _ => true
  | .domainSwitch => true
  | .phaseLost domain _ => decide (domain < 30)
  | .ps1Entry => true
  | .ps2Entry => true
  | .ps3Entry => true
  | .ps3Request => true
  | .ps0Request => true
  | .wakeEvent _ => true
  | .shedStageEntered stage _ => decide (stage < 5)
  | .shedStageLeft stage _ => decide (stage < 5)
  | .holdupTakeover _ _ => true
  | .holdupTest _ => true
  | .holdupNotReady => true
  | .thermalStageEntered stage _ => decide (stage < 5)
  | .thermalStageLeft stage _ => decide (stage < 5)
  | .thmSensorFault _ _ _ => true
  | .thermalCritical _ _ => true
  | .thermalResetRelease => true
  | .clockFault _ => true
  | .p48vApplied => true
  | .p3v3AuxLost => true
  | .resetInAssert => true
  | .resetInRelease => true
  | .pwrDisableAssert => true
  | .pwrDisableRelease => true
  | .presentNFall => true
  | .presentNRise => true
  | .transportSenseRise => true
  | .transportSenseClear => true
  | .smbusOffsetWrite _ => true
  | .smbusRead _ => true
  | .identityRefresh => true
  | .secTrialPass => true
  | .secTrialFail => true
  | .trialTimeout => true
  | .commitTimeout => true
  | .sessionIdleTimeout => true
  | .attestTokenRefill => true
  | .blockLockSet block => decide (block < 26)
  | .sysLockAllSet => true
  | .cascadeWrite _ => true
  | .rcFieldRead _ addr => decide (addr < 4294967296)
  | .loWordRead _ addr => decide (addr < 4294967296)
  | .registerWrite _ addr width _ => decide (addr < 4294967296) && decide (width < 5)
  | .holdupReady => true
  | .overtemp _ => true
  | .keyFetch _ key => decide (1 ≤ key.length ∧ key.length ≤ 1024)
  | .cmDrep ctx => decide (ctx < 20480)
  | .p3v3AuxApplied => true
  | .willadraConnection _ => true
  | .railPairFault _ => true

end Sys2Proof
end

