-- ==== Sys2Proof/Tests/Slice0.lean ====
section
/-! SUPPORT. The model's own tests: a well-formedness smoke test with an ill-formed term for each check, small steps with
results taken from the spec, and for every statement with hypotheses a concrete state and operands that meet them. -/

namespace Sys2Proof.Tests

open Sys2Proof Sys2Proof.Machine

set_option maxRecDepth 20000
set_option Elab.async false

/-! ## States that the tests share -/

/-- A connection with a ring of 64 entries. -/
def conn0 : QpConn where
  link := .a0
  tenant := 5
  admin := false
  expressQp := false
  notify := 2
  ringLog2 := 6
  maxOut := 16
  session := 7
  clientNonce := []
  driveNonce := []
  clientQpn := 9
  coalesceCount := 4
  coalesceUs := 10
  peer := none
  requester := false
  reqUid := []
  pathMtu := 4096
  ackTimeout := 14
  retryCnt := 7
  rnrRetry := 7
  sqAddr := 0
  sqRkey := 0
  cqAddr := 0
  cqRkey := 0
  udpPort := 0

/-- An ACTIVE queue pair with three published entries. -/
def qp0 : Qp where
  st := .active
  qgen := 3
  conn := conn0
  head := 0
  tail := 3
  cqCount := 0
  unnotified := 1
  fetching := 0
  phaseTries := 0
  phaseWait := false
  cause := 0
  topVersion := 0
  cc := ⟨1000, 1000, 1, 0, 0⟩
  lastCnp := none
  dreq := false
  msgSeq := 0
  lastEntry := []
  lastClass := .normal
  ccPeriod := 300

/-- A descriptor of opcode 1 (GET) of the key "k" with tag 17. -/
def desc0 : Desc where
  opcode := 1
  phase := true
  keyPtr := false
  resubmit := false
  ordered := false
  cls := 0
  ifVersion := false
  e2eCrc := false
  estimate := false
  tag := 17
  variant := 0
  keyLen := 1
  clientCrc := 0
  condVersion := 0
  offset := 0
  length := 0
  bufAddr := 0
  bufRkey := 0
  param0 := 0
  param1 := 0
  keyArea := padTo 56 [0x6B]

/-- The key that the tests use. -/
def key0 : Bytes := [0x6B]

/-- A rule action with every right. -/
def act0 : Action := ⟨5, 15, 3, false, true, false, false, false, 0, 0⟩

/-- A command of the queue pair 2. -/
def cmd0 (op : Opcode) (stage : Stage) : Cmd where
  ctx := some 2
  chain := none
  desc := desc0
  op := op
  tenant := 5
  session := 7
  count := 0
  version := 100
  cls := .normal
  stage := stage
  key := some key0
  policy := .rule act0
  lookup := .absent
  conds := []
  expressPath := false
  pos := 0
  crc := crc32cInit
  work := []
  ledgerPath := none
  slotRef := none
  committed := false
  copies := 0
  path := []
  outcome := none
  cursor := 0
  batch := []
  counted := 0
  scanCtx := none
  repair := none
  waited := false
  tokens := 0
  orphan := false
  holds := []
  maps := none
  buffer := []
  replayed := false
  parked := false

/-- The drive after a completed start, with its links up and one queue pair. -/
def up : State :=
  { State.reset with
    nfe := { State.reset.nfe with
      linkUp := 0xF, qps := [(2, qp0)] }
    sch := { State.reset.sch with
      holdWrites := false }
    idx := { State.reset.idx with
      tableReady := true, mirrorReady := true }
    cip := { State.reset.cip with
      kekReady := true, restoreDone := true }
    ldg := { State.reset.ldg with
      ready := true, level := 1000
      kept := { Kept.fresh with
        versionCeiling := 2 ^ 25 } }
    ftl := { State.reset.ftl with
      mapReady := true }
    recorder := { State.reset.recorder with
      ready := true }
    rst := { State.reset.rst with
      run := .running } }

/-- The same with no queue pair, and the keys still to be restored. -/
def bare : State := { up with nfe := { up.nfe with qps := [] }, cip := { up.cip with restoreDone := false } }

/-- The drive with one command in its retention entry. -/
def withCmd0 (c : Cmd) : State := { up with sch := { up.sch with cmds := [(0, c)], nextCmd := 1 } }

/-- The drive with a register field at a value. -/
def upFld (f : Field) (v : Nat) : State := up.setFld f v

/-- The private data of a REQ (R94). -/
def req0 (flags tenant : Nat) : ReqMsg where
  link := .a0
  raw := padTo 92 (leBytes 2 0x4E50 ++ [1] ++ leBytes 1 flags ++ leBytes 2 tenant ++ [6, 0] ++ leBytes 8 7 ++ zeros 40
    ++ leBytes 2 16 ++ leBytes 2 4 ++ leBytes 2 10 ++ zeros 16)
  pathMtu := 4096
  clientQpn := 9

/-- A drive that knows tenant 5 and its secret. -/
def upTenant : State :=
  { up with sch := { up.sch with tenants := [(5, ⟨1, 0, 0, 0, 0⟩)], secrets := [(5, zeros 32)] } }

/-- The drive with a change to its one queue pair. -/
def withQp0 (q : Qp) : State := { up with nfe := { up.nfe with qps := [(2, q)] } }

/-! ## Witnesses: the step, the rings, the System Image -/

theorem witness_IdleStep :
    State.reset.pending = [] ∧
      ({ up with pwr := { up.pwr with p48Present := false, auxPresent := false } } : State).pending = [] := by
  decide

theorem witness_StepsKeepCanonical :
    Canonical up ∧ (∃ t, step up = .next t) ∧ ∃ t, exec .heartbeat up = .next t :=
  ⟨by unfold Canonical; decide +kernel, ⟨_, rfl⟩, ⟨_, rfl⟩⟩

theorem witness_CommandsLeaveTheRest : (∃ t, exec .heartbeat up = .next t) ∧ ¬ MayTouch .heartbeat .ftl :=
  ⟨⟨_, rfl⟩, by simp [MayTouch, touched]⟩

/-- Ring 1 with one directive outstanding. -/
def ringUp : State :=
  { up.setFld (Reg.ENG_RING_CFG_EN 1) 1 with
    eng := { up.eng with rings := [(1, { Ring.fresh with issued := [⟨3, 4, 0, false, []⟩] })] } }

/-- The same while ENG is in reset. -/
def ringReset : State := { ringUp with sch := { ringUp.sch with inReset := [.eng] } }

/-- The same with 64 completions that nothing has released. -/
def ringFull : State :=
  { ringUp with eng := { up.eng with rings := [(1, { Ring.fresh with cqTail := 64 })] } }

theorem witness_DirectiveAnswered :
    Canonical ringUp ∧ (ringUp.ring 1).waiting = [] ∧ (ringUp.ring 1).cqUsed < 2 ^ ringUp.ringLog2 1 ∧
      ringUp.sch.inReset.contains .eng = false ∧
      Canonical ringReset ∧ (ringReset.ring 1).waiting = [] ∧ ringReset.sch.inReset.contains .eng = true ∧
      Canonical ringFull ∧ (ringFull.ring 1).waiting = [] ∧ 2 ^ ringFull.ringLog2 1 ≤ (ringFull.ring 1).cqUsed := by
  unfold Canonical; decide +kernel

theorem witness_RingRegistersAct :
    (Canonical up ∧ up.fld (Reg.ENG_RING_CFG_EN 9) = 0 ∧ (up.ring 9).issued = []) ∧
      (ringUp.fld (Reg.ENG_RING_CFG_EN 1) = 1 ∧ ringUp.ringInDram 1 = true ∧
        (ringUp.ring 1).tailOutOfRange (ringUp.ringLog2 1) 64 = false ∧
        (ringUp.ring 1).tailOutOfRange (ringUp.ringLog2 1) 65 = true) := by
  unfold Canonical; decide +kernel

theorem witness_ImageSupervised :
    Canonical up ∧ up.pins.imageDown = false ∧ up.pwr.ps ≠ 3 ∧ up.rst.run = .running ∧
      up.session.reverting = false ∧ (4 : Nat) ≤ 4 ∧ ({ up.pins with missed := 4 }).missed = 4 ∧
      (0x1234 : Nat) ≠ 0xA77A := by
  unfold Canonical; decide +kernel

/-! ## Witnesses: client queue pairs -/

theorem witness_ConnectionSetUp_request :
    upTenant.netUp = true ∧ upTenant.linkExists (req0 8 5).link = true ∧ (reqPeer (req0 8 5).raw && !reqAdmin (req0 8 5).raw) = false ∧
      upTenant.reqCheck (req0 8 5) = .inr 3 ∧
      (reqPeer (req0 8 6).raw && !reqAdmin (req0 8 6).raw) = false ∧ upTenant.reqCheck (req0 8 6) = .inl 3 := by
  decide +kernel

/-- The context 2 in CONNECTING, and in ERROR. -/
def connecting0 : State :=
  { upTenant with nfe := { up.nfe with qps := [(2, { qp0 with st := .connecting })] } }
def inError0 : State := withQp0 { qp0 with st := .error, cause := 0x12 }

theorem witness_ConnectionSetUp_context :
    (connecting0.qp? 2 = some { qp0 with st := .connecting } ∧ qp0.cause = 0 ∧ qp0.conn.peer = none ∧
      connecting0.connSecret qp0.conn = some (zeros 32)) ∧
      (Tbl.wf connecting0.nfe.qps = true ∧ Tbl.wf inError0.nfe.qps = true ∧
        inError0.qp? 2 = some { qp0 with st := .error, cause := 0x12 }) := by
  decide +kernel

theorem length_padTo (n : Nat) (b : Bytes) : (padTo n b).length = n := by
  simp only [padTo, List.length_append, List.length_take, List.length_replicate]; omega

/-- The two cases of the PROOF: the right one is its own premise, and no PROOF is shorter than 32 bytes. -/
theorem witness_ConnectionSetUp_proof :
    (∃ proof : Bytes, clientProof (zeros 32) 2 conn0 = proof.take 32) ∧
      clientProof (zeros 32) 2 conn0 ≠ ([] : Bytes).take 32 := by
  have l : (clientProof (zeros 32) 2 conn0).length = 32 := length_padTo _ _
  exact ⟨⟨_, (List.take_of_length_le (by omega)).symm⟩, fun h => by simp [h] at l⟩

/-- A doorbell of a tail and a generation. -/
def bell (tail qgen : Nat) : Bytes := leBytes 4 tail ++ leBytes 2 qgen ++ zeros 2

/-- The drive with QPM in reset. -/
def qpmReset : State := { up with sch := { up.sch with inReset := [.qpm] } }

theorem witness_DoorbellsAct :
    (up.netUp = true ∧ up.qp? 2 = some qp0 ∧ qp0.st = .active ∧ up.blockInReset .qpm = false ∧ Canonical up ∧
      (∀ tail ∈ [3, 64, 65], (bell tail 3).length = 8 ∧ fieldAt (bell tail 3) 4 2 = qp0.qgen) ∧
      (fieldAt (bell 64 3) 0 4 + 2 ^ 32 - qp0.tail) % 2 ^ 32 ≤ 2 ^ qp0.conn.ringLog2 ∧
      (fieldAt (bell 64 3) 0 4 + 2 ^ 32 - qp0.head) % 2 ^ 32 ≤ 2 ^ qp0.conn.ringLog2 ∧
      2 ^ qp0.conn.ringLog2 < (fieldAt (bell 65 3) 0 4 + 2 ^ 32 - qp0.head) % 2 ^ 32 ∧
      fieldAt (bell 3 4) 4 2 ≠ qp0.qgen ∧ ClientIdle up 2 qp0) ∧
      (qpmReset.netUp = true ∧ qpmReset.qp? 2 = some qp0 ∧ qpmReset.blockInReset .qpm = true) := by
  unfold Canonical ClientIdle; decide +kernel

theorem witness_QueuePairsEnd :
    (up.qp? 2 = some qp0 ∧ qp0.st = .active ∧ ClientIdle up 2 qp0 ∧ Tbl.wf up.nfe.qps = true) ∧
      (up.nfe.qps = [(2, qp0)] ∧ qp0.conn.peer = none ∧ qp0.dreq = false ∧ qp0.conn.link = .a0 ∧ up.sch.cmds = [] ∧
        ({ up.nfe with linkWait := 1 }).linkWait.getLsbD (linkIndex .a0) = true) := by
  unfold ClientIdle; decide +kernel

/-- A descriptor's bytes: opcode, control and tag, with the key "k" in its key area. -/
def raw0 (opcode ctrl tag keyLen : Nat) : Bytes :=
  padTo 128 (leBytes 1 opcode ++ leBytes 1 ctrl ++ [0, 0] ++ leBytes 4 tag ++ [0, 0] ++ leBytes 2 keyLen ++ zeros 60
    ++ key0)

/-- The queue pair with three entries fetched. -/
def fetched0 : Qp := { qp0 with fetching := 3 }

/-- The drive for a tenant that is enabled, with fetched entries. -/
def upFetched : State :=
  { upTenant with nfe := { up.nfe with qps := [(2, fetched0)] } }

theorem witness_FetchAndAccept_fetch :
    up.nextFetch = some (2, false) ∧ up.txGrant = some (.normal, 2) ∧ up.qp? 2 = some qp0 ∧ Tbl.wf up.nfe.qps = true ∧
      up.mayFetch 2 qp0 = true ∧ up.sch.cmds = [] := by decide +kernel

theorem witness_FetchAndAccept_accept :
    upFetched.qp? 2 = some fetched0 ∧ fetched0.st = .active ∧ 0 < fetched0.fetching ∧
      upFetched.fetchStopped fetched0 = false ∧ upFetched.blockInReset .sch = false ∧
      (∀ r ∈ [raw0 2 1 17 1, raw0 1 1 17 1, raw0 1 1 17 0], r.length = 128 ∧
        (parseDesc r).phase = phaseOf conn0.ringLog2 fetched0.head ∧ (parseDesc r).keyPtr = false ∧
        (Opcode.ofCode (parseDesc r).opcode = some .put ∧ upFetched.intakeConds conn0 .put = [] ∧
            patternInvalid .put (parseDesc r).inlineKey = false ∧
            upFetched.retentionFree (upFetched.intakeClass conn0 (parseDesc r) .put) = true ∧ Opcode.put.isWrite = true ∨
          Opcode.ofCode (parseDesc r).opcode = some .get ∧ upFetched.intakeConds conn0 .get = [] ∧
            patternInvalid .get (parseDesc r).inlineKey = false ∧
            upFetched.retentionFree (upFetched.intakeClass conn0 (parseDesc r) .get) = true ∧
            Opcode.get.isWrite = false)) ∧
      upFetched.sch.outcomes = [] ∧ descInvalid conn0 (parseDesc (raw0 2 1 17 1)) = false ∧
      descInvalid conn0 (parseDesc (raw0 1 1 17 0)) = true ∧ upFetched.sch.nextVersion < upFetched.ldg.kept.versionCeiling ∧
      (parseDesc (raw0 1 0 17 1)).phase ≠ phaseOf conn0.ringLog2 fetched0.head := by
  decide +kernel

/-- The queue pair waiting for a re-fetch of its head after some tries. -/
def phaseQp (tries : Nat) : Qp := { qp0 with phaseWait := true, phaseTries := tries }

theorem witness_FetchAndAccept_phase :
    (∀ tries ∈ [0, 100], (withQp0 (phaseQp tries)).qp? 2 = some (phaseQp tries) ∧
      (withQp0 (phaseQp tries)).fetchStopped (phaseQp tries) = false) ∧
      Canonical (withQp0 (phaseQp 0)) ∧ (phaseQp 0).phaseTries < (withQp0 (phaseQp 0)).fld Reg.QPM_FETCH_CFG_PHASE_RETRIES ∧
      (withQp0 (phaseQp 100)).fld Reg.QPM_FETCH_CFG_PHASE_RETRIES ≤ (phaseQp 100).phaseTries := by
  unfold Canonical; decide +kernel

/-- A command whose key has not arrived, one with its outcome, one whose entry is written. -/
def noKey : Cmd := { cmd0 .get .accepted with key := none }
def decided0 : Cmd := { cmd0 .get .done with outcome := some (Outcome.of .notFound) }
def written0 : Cmd := { decided0 with stage := .written }

/-- The drive with a decided command and no descriptor to be fetched. -/
def decidedUp : State := { withCmd0 decided0 with nfe := { up.nfe with qps := [(2, { qp0 with head := 3 })] } }

theorem witness_CompletionsReachTheClient :
    ((withCmd0 noKey).cmd? 0 = some noKey ∧ noKey.key = none ∧ noKey.op.usesKeyArea = true ∧ noKey.decided = false ∧ noKey.conds = [] ∧
      patternInvalid noKey.op (padTo noKey.desc.keyLen key0) = false ∧ (withCmd0 noKey).sch.outcomes = []) ∧
      (decidedUp.cmd? 0 = some decided0 ∧ decided0.stage = .done ∧ decided0.orphan = false ∧
        decided0.ctx = some 2 ∧ decided0.outcome = some (Outcome.of .notFound) ∧
        decidedUp.qp? 2 = some { qp0 with head := 3 } ∧ ({ qp0 with head := 3 } : Qp).live = true ∧
        decidedUp.txGrant = some (decided0.runClass, 0)) ∧
      (Tbl.wf (withCmd0 written0).sch.cmds = true ∧ (withCmd0 written0).cmd? 0 = some written0 ∧
        written0.stage = .written ∧ (withCmd0 written0).peer.intake = []) ∧
      (up.qp? 2 = some qp0 ∧ qp0.conn.notify = 2 ∧ 0 < qp0.unnotified) := by
  decide +kernel

/-- An outcome record whose hold runs. -/
def record0 : OutcomeRec := ⟨7, 5, 17, 2, 0, .ok, 100, 0, true⟩

theorem witness_CompletionsReachTheClient_record :
    ({ up with sch := { up.sch with outcomes := [record0] } } : State).sch.outcomes = [record0] ∧
      record0.holding = true := by decide +kernel

/-- The queue pair that has sent a CNP 1 us ago. -/
def cnpQp : Qp := { qp0 with lastCnp := some 0 }

theorem witness_CnpAtMostOnePerGap :
    (up.qp? 2 = some qp0 ∧ qp0.lastCnp = none ∧
      (upFld Reg.NFE_DSCP_MAP_ECN_EN 1).fld Reg.NFE_DSCP_MAP_ECN_EN = 1 ∧ (upFld Reg.NFE_DSCP_MAP_ECN_EN 1).qp? 2 = some qp0) ∧
      ((withQp0 cnpQp).qp? 2 = some cnpQp ∧ (withQp0 cnpQp).fld Reg.NFE_DSCP_MAP_ECN_EN = 1 ∧
        cnpQp.lastCnp = some 0 ∧
        (withQp0 cnpQp).flt.time < 0 + 1000 * (withQp0 cnpQp).fld Reg.NFE_CC_CFG_CNP_GAP_US) := by
  decide +kernel

/-- The drive once the recovery timer of its queue pair is due. -/
def later : State := { up with flt := { up.flt with time := 10 ^ 9 } }

theorem witness_RateLimiter :
    (up.qp? 2 = some qp0 ∧ qp0.live = true ∧ up.flt.time < qp0.cc.timer + 1000 * qp0.ccPeriod) ∧
      (later.qp? 2 = some qp0 ∧ qp0.cc.timer + 1000 * qp0.ccPeriod ≤ later.flt.time) := by
  decide +kernel

theorem witness_LinksAndCages :
    (up.linkExists .a0 = true ∧ up.retrains .a = false ∧ up.cageReady .a = true) ∧
      ({ up with nfe := { up.nfe with retrainA := true } } : State).retrains (linkPort .a1) = true ∧
      (20 : Nat) ≤ 20 ∧ (20 : Nat) < 21 := by decide +kernel

/-! ## Witnesses: searches, lookups, reads and writes -/

/-- A rule that matches every key. -/
def anyRule : Rule := ruleOfRecords 1 (zeros 96)

/-- A rule whose segment 0 wants bit 0 of the word set, which no short key has. -/
def noRule0 : Rule := ruleOfRecords 1 ([1] ++ zeros 39 ++ [1] ++ zeros 55)

/-- A rule that a load wrote holds its action's check, whatever its code. -/
theorem loaded_action_holds (segs : Nat) (recs : Bytes) : (ruleOfRecords segs recs).actionHolds = true := by
  simp [Rule.actionHolds, ruleOfRecords]

/-- The drive with rules on the dies and in the shadow, and bank 0 of die 0 in the policy mask. -/
def withRules (t : Tbl Rule) (s : State) : State :=
  { s.setFld (Reg.MCH_POLICY_MASK_BANKS 0) 1 with mch := { s.mch with rules := t, shadow := t } }

/-- A started GET that waits for its policy. -/
def searching : Cmd := { cmd0 .get .started with policy := .waiting, lookup := .waiting }

/-- A SCAN whose prefix search comes before its start. -/
def prefixing : Cmd := { cmd0 .scan .accepted with policy := .waiting }

theorem witness_PolicySearchFindsLowestRule :
    (∀ t ∈ [[(5, anyRule), (9, anyRule)], [(5, noRule0)]],
      (withRules t (withCmd0 searching)).cmd? 0 = some searching ∧ searching.stage = .started ∧
        (withRules t (withCmd0 searching)).searchNext 0 searching = true ∧ searching.conds = [] ∧ Tbl.wf t = true ∧
        ∀ e ∈ (withRules t (withCmd0 searching)).checkedRules (withRules t (withCmd0 searching)).policyMask,
          e.2.checksHold = true ∧ e.2.actionHolds = true) ∧
      (∀ e ∈ (withRules [(5, noRule0)] (withCmd0 searching)).enabledRules
        (withRules [(5, noRule0)] (withCmd0 searching)).policyMask, e.2.matchesWord ((withCmd0 searching).searchWord 5 searching.searchKey) = false) ∧
      (5, anyRule) ∈ (withRules [(5, anyRule), (9, anyRule)] (withCmd0 searching)).enabledRules
        (withRules [(5, anyRule), (9, anyRule)] (withCmd0 searching)).policyMask ∧
      anyRule.matchesWord ((withCmd0 searching).searchWord 5 searching.searchKey) = true ∧
      ((parityDies [2]).length < 2 ∧ parityDies [1, 3] = 1 :: 3 :: []) ∧
      ((withCmd0 prefixing).cmd? 0 = some prefixing ∧ (withCmd0 prefixing).searchNext 0 prefixing = true ∧
        prefixing.conds = [] ∧ prefixing.op.namesKey = false) := by
  refine ⟨fun t ht => ?_, by decide +kernel, ?_, by decide +kernel⟩
  · refine ⟨?_, rfl, ?_, rfl, ?_, fun e he => ?_⟩
    · rfl
    · revert t; decide +kernel
    · revert t; decide +kernel
    · have he : e ∈ t := (List.mem_filter.mp he).1
      simp only [List.mem_cons, List.not_mem_nil, or_false] at ht
      rcases ht with rfl | rfl <;> simp only [List.mem_cons, List.not_mem_nil, or_false] at he
      · rcases he with rfl | rfl <;> exact ⟨by decide +kernel, loaded_action_holds _ _⟩
      · subst he; exact ⟨by decide +kernel, loaded_action_holds _ _⟩
  · exact List.mem_filter.mpr ⟨List.mem_filter.mpr ⟨List.mem_cons_self, by decide +kernel⟩, by decide +kernel⟩

/-- A stored segment of `n` equal bytes, closed for segment `i` of the key "k". -/
def seg0 (b : Byte) (n i : Nat) (loc : Loc) : Seg :=
  { (Seg.raw (List.replicate n b) n false true).close (locator (keyHash key0) 0 i) with loc := loc }

/-- A variant of one stored segment on Ledger line 0, a hole of 100 bytes, an empty one. -/
def var1 : Variant := ⟨2, 50, false, false, true, 0, [(0, seg0 0x41 2 0 (.ledger 0))], []⟩
def varHole : Variant := ⟨100, 51, false, false, true, 0, [], []⟩

/-- A record of the key "k" with one variant, pinned or not. -/
def rec0 (v : Variant) (pinned : Bool) : DirRec := ⟨keyHash key0, key0, 5, pinned, .ledger 4, [(0, v)]⟩

/-- A drive that holds a record in its directory and its table. -/
def holding (r : DirRec) (s : State) : State :=
  { s with idx := { s.idx with
      dir := [r], table := [(bucket1 r.kh, [some (slotOf r), none, none, none, none, none, none, none])]
      mirror0 := [(mbucket1 r.kh, [some ⟨r.kh, r.key, r.loc⟩, none, none, none, none, none, none, none])]
      mirror1 := [(mbucket1 r.kh, [some ⟨r.kh, r.key, r.loc⟩, none, none, none, none, none, none, none])] } }

/-- A started lookup, and one of class EXPRESS. -/
def looking : Cmd := { cmd0 .get .started with lookup := .waiting }
def lookingExpress : Cmd := { looking with cls := .express }

theorem witness_IndexLookupResolves_mirror :
    let s := holding (rec0 var1 true) (withCmd0 lookingExpress)
    s.cmd? 0 = some lookingExpress ∧ lookingExpress.stage = .started ∧ lookingExpress.op.namesKey = true ∧
      lookingExpress.lookup = .waiting ∧ s.blockInReset .idx = false ∧ s.flt.swatched = [] ∧ Canonical s ∧
      lookingExpress.cls = .express ∧ s.usesMirror lookingExpress.cls = true ∧
      s.lookupKey lookingExpress.cls false lookingExpress.kh (lookingExpress.key.getD []) = (some (rec0 var1 true), true, false, []) ∧
      s.recordWaits (rec0 var1 true) = false ∧ s.recordLost (rec0 var1 true) = false ∧
      dirFind s.idx.dir (rec0 var1 true).key = some (rec0 var1 true) := by
  unfold Canonical; decide +kernel

/-- A record that lies in flash. -/
def recFlash : DirRec := { rec0 var1 true with loc := .flash 1 0 1 }

/-- A superblock with a lost codeword, and the skein whose bytes lie there. -/
def lostFlash (s : State) : State :=
  { s with ftl := { s.ftl with
      sbs := [(0, { Sb.fresh with
        st := .closed, lost := List.range 64 })]
      skeins := [(1, { fine := false, classP := true, liveUnits := 64, sb := 0, slot := 0, stitches := [], isMeta := true, table := 0, past := [] })] } }

theorem witness_IndexLookupResolves_table :
    (let s := withCmd0 looking
     s.cmd? 0 = some looking ∧ s.expressWaits (fun e => e.op.namesKey && e.lookup = .waiting) = false ∧
      s.lookupKey looking.cls false looking.kh (looking.key.getD []) = (none, false, false, [])) ∧
      (let h := holding (rec0 var1 false) (withCmd0 looking)
       h.lookupKey looking.cls false looking.kh (looking.key.getD []) = (some (rec0 var1 false), false, false, []) ∧
        h.recordWaits (rec0 var1 false) = false ∧ h.recordLost (rec0 var1 false) = false ∧ (2 : Nat) ≤ 2 ∧
        dirFind h.idx.dir (rec0 var1 false).key = some (rec0 var1 false)) ∧
      (let l := lostFlash (holding recFlash (withCmd0 looking))
       l.lookupKey looking.cls false looking.kh (looking.key.getD []) = (some recFlash, false, false, []) ∧
        l.recordWaits recFlash = false ∧ l.recordLost recFlash = true) := by
  exact ⟨by decide +kernel, by decide +kernel, by decide +kernel⟩

/-- A GET that has found a variant, with an offset and a length asked for. -/
def getOf (v : Variant) (offset length : Nat) : Cmd :=
  { cmd0 .get .started with
    lookup := .found (rec0 v false)
    desc := { desc0 with
      offset := offset, length := length } }

theorem witness_ReadsAnswer_get :
    (∀ c ∈ [getOf var1 5 10, getOf var1 0 2, getOf varHole 0 100], CmdReady c 2 ∧ c.op = .get ∧ c.pos = 0 ∧
      c.crc = crc32cInit ∧ c.desc.ifVersion = false) ∧
      (getOf var1 5 10).readTotal = 0 ∧ tget (rec0 var1 false).variants 0 = some var1 ∧
      (0 < (getOf var1 0 2).readTotal ∧ (tget var1.segs 0).isSome = true) ∧
      (0 < (getOf varHole 0 100).readTotal ∧ varHole.segs = [] ∧
        (getOf varHole 0 100).desc.offset / 65536
          = ((getOf varHole 0 100).desc.offset + (getOf varHole 0 100).readTotal - 1) / 65536) := by
  unfold CmdReady; decide +kernel

/-- A GET of an absent key, one under a version that the key does not hold, a HEAD without a right, one with it. -/
def getAbsent : Cmd := cmd0 .get .started
def getOther : Cmd := { getOf var1 0 2 with desc := { desc0 with ifVersion := true, condVersion := 49 } }
def headDenied : Cmd := { cmd0 .head .started with policy := .noRule, lookup := .found (rec0 var1 false) }
def getDenied : Cmd := { headDenied with op := .get }
def headOf : Cmd :=
  { cmd0 .head .started with lookup := .found (rec0 var1 false), desc := { desc0 with length := 64 } }

theorem witness_ReadsAnswer_rest :
    (CmdReady getAbsent 2 ∧ getAbsent.observed = none) ∧
      (CmdReady getOther 2 ∧ getOther.observed = some var1 ∧ getOther.desc.ifVersion = true ∧
        getOther.desc.condVersion ≠ var1.version) ∧
      (∀ c ∈ [headDenied, getDenied], c.resolved = true ∧ c.conds = [] ∧ c.denied = true ∧ c.orphan = false ∧
        c.lookup = .found (rec0 var1 false)) ∧
      (CmdReady headOf 2 ∧ 0 < headOf.desc.length) ∧ CmdReady { headOf with desc := desc0 } 2 ∧
      CmdReady { headOf with lookup := .absent } 2 := by
  unfold CmdReady; decide +kernel

/-- A write of a length. -/
def writeOf (op : Opcode) (length : Nat) : Cmd :=
  { cmd0 op .started with desc := { desc0 with length := length } }

theorem witness_WritesStart :
    (∀ c ∈ [writeOf .put 1, writeOf .put (2 ^ 36), writeOf .put 0, writeOf .put (2 ^ 36 + 1), writeOf .writeRange 10,
        writeOf .writeRange (2 ^ 36 + 1), writeOf .punch 10, writeOf .delete 0],
      (withCmd0 c).cmd? 0 = some c ∧ CmdReady c 2 ∧ (withCmd0 c).sealConds c = [] ∧ c.work = [] ∧ c.ledgerPath = none ∧
        c.slotRef = none ∧ c.cursor = 0 ∧ c.pos = 0 ∧ c.desc.e2eCrc = false ∧ (withCmd0 c).variantNow c = none ∧
        (withCmd0 c).lowerWrites c.kh c.version = false ∧ (withCmd0 c).lowerKeyless c.version = false) ∧
      (∀ l ∈ [1, 2], let s := holding (rec0 var1 false) (withCmd0 (writeOf .punch l))
        s.variantNow (writeOf .punch l) = some var1 ∧ var1.segs = [(0, seg0 0x41 2 0 (.ledger 0))] ∧
          max (writeOf .punch l).desc.offset (65536 * 0) - 65536 * 0 = 0 ∧
          min (min ((writeOf .punch l).desc.offset + (writeOf .punch l).desc.length) var1.length)
            (65536 * 0 + segLen var1.length 0) - 65536 * 0 = l) ∧ segLen var1.length 0 = 2 ∧
      (holding (rec0 varHole false) (withCmd0 (writeOf .punch 1))).variantNow (writeOf .punch 1) = some varHole ∧
      varHole.segs = [] ∧
      (∀ op ∈ [Opcode.put, .delete, .punch, .writeRange], let c := { writeOf op 1 with policy := .noRule }
        c.ctx = some 2 ∧ c.chain = none ∧ c.orphan = false ∧ c.resolved = true ∧ c.denied = true ∧ c.conds = [] ∧
          c.lookup ≠ .unreadable ∧ (withCmd0 c).sealConds c = []) := by
  unfold CmdReady; decide +kernel

/-- A FLUSH behind a GET that has not completed. -/
def flushBehind : State := { up with sch := { up.sch with cmds := [(0, cmd0 .get .started), (1, cmd0 .flush .started)] } }

theorem witness_FlushAndNopComplete :
    (∀ c ∈ [cmd0 .flush .started, cmd0 .nop .started], (withCmd0 c).cmd? 0 = some c ∧ c.orphan = false ∧
      c.desc.resubmit = false ∧ (withCmd0 c).runnable 0 c = true ∧ (withCmd0 c).earlierDone c.ctx 0 = true) ∧
      (flushBehind.cmd? 1 = some (cmd0 .flush .started) ∧ flushBehind.runnable 1 (cmd0 .flush .started) = true ∧
        flushBehind.earlierDone (some 2) 1 = false) := by
  decide +kernel

/-- A SCAN and a COUNT of the pattern "k", and a SCAN_NEXT of a handle, accepted or at work. -/
def scanOf (op : Opcode) (stage : Stage) (length param1 : Nat) : Cmd :=
  { cmd0 op stage with desc := { desc0 with length := length, param1 := param1 } }

/-- The pattern "k". -/
def pat0 : Regex := (parsePattern key0).getD .eps

/-- A live context of the tenant, the same held by command 0, and the drive with the latter as context 3, with half 9, for
a command at work. -/
def ctx0 : ScanCtx := ⟨5, 0, true, pat0, none, 0, false⟩
def walking0 (c : Cmd) (isCount : Bool) : State :=
  { withCmd0 c with mch := { up.mch with
      contexts := [(3, { ctx0 with busy := some 0, isCount := isCount })], halves := [(9, 3)] } }

/-- A command at work on context 3, with a length and parameter. -/
def walker (op : Opcode) (length param1 : Nat) (batch : List DirRec) : Cmd :=
  { scanOf op .working length param1 with scanCtx := some 3, batch := batch }

/-- The drive with the context 127 of the tenant, and a SCAN_NEXT. -/
def scanNextState (param1 : Nat) : State :=
  { withCmd0 (scanOf .scanNext .started 2000 param1) with mch := { up.mch with contexts := [(127, ctx0)] } }

theorem witness_ScansWalk_start :
    (∀ op ∈ [Opcode.scan, .count], ∀ old ∈ [[], [(0, { ctx0 with live := false, gen := 65535 })]],
      let c := scanOf op .accepted 2000 0
      let s : State := { withCmd0 c with mch := { up.mch with contexts := old } }
      s.cmd? 0 = some c ∧ s.mayStart 0 c = true ∧ c.desc.resubmit = false ∧ parsePattern (c.key.getD []) = some pat0 ∧
        pat0.compiles = true ∧ s.slotFor 0 = some 0 ∧ s.freeHalves ≠ []) ∧
      (∀ h ∈ [127, 126, 127 + 65536], let c := scanOf .scanNext .started 2000 h
        (scanNextState h).cmd? 0 = some c ∧ c.conds = [] ∧ c.orphan = false ∧ (scanNextState h).runnable 0 c = true ∧
          c.desc.resubmit = false ∧ (scanNextState h).mchDown = false ∧ (scanNextState h).freeHalves ≠ [] ∧
          (scanNextState h).earlierScan 0 c = false) ∧
      (scanNextState 127).handleCheck (scanOf .scanNext .started 2000 127) = .inr (127, ctx0) ∧
      (scanNextState 126).handleCheck (scanOf .scanNext .started 2000 126) = .inl .timeout ∧
      ctx0.busy = none ∧ ctx0.isCount = false ∧ tget (scanNextState 127).mch.contexts 127 = some ctx0 := by
  decide +kernel

theorem witness_ScansWalk_walk :
    (∀ c ∈ [walker .scan 2000 0 [], walker .scanNext 2000 0 [], walker .scan 2000 (2 ^ 32) [rec0 var1 false],
        walker .scan 0 0 []], let s := walking0 c false
      s.cmd? 0 = some c ∧ c.orphan = false ∧ c.stage = .working ∧ c.scanCtx = some 3 ∧ s.mchDown = false ∧
        s.slotOfScan c = some { ctx0 with busy := some 0 } ∧ s.nextGroup c.cursor = [] ∧ c.cursor < 2 ^ 64 ∧
        (let h := holding (rec0 var1 false) s
         h.nextGroup c.cursor = [rec0 var1 false] ∧ h.lostForGood (rec0 var1 false).loc = false ∧
          (h.accepted c.tenant pat0 [rec0 var1 false]).1 = [])) ∧
      (rec0 var1 false).kh.toNat + 1 < 2 ^ 64 ∧
      batchLen [] ≤ min (walker .scan 2000 0 []).desc.length (2 ^ 24) ∧ (walker .scan 2000 0 []).desc.param1 / 2 ^ 32 = 0 ∧
      batchLen [rec0 var1 false] ≤ min 2000 (2 ^ 24) ∧
      (walker .scan 2000 (2 ^ 32) [rec0 var1 false]).desc.param1 / 2 ^ 32 = 1 ∧
      min (walker .scan 0 0 []).desc.length (2 ^ 24) < batchLen [] ∧
      (let c := walker .count 0 0 []
       let s := holding (rec0 var1 false) (walking0 c true)
       s.cmd? 0 = some c ∧ c.op = .count ∧ c.desc.estimate = false ∧ (walking0 c true).nextGroup c.cursor = [] ∧
        s.slotOfScan c = some { ctx0 with busy := some 0, isCount := true } ∧
        s.nextGroup c.cursor = [rec0 var1 false] ∧ s.lostForGood (rec0 var1 false).loc = false) := by
  decide +kernel

/-- A PUT of four bytes at work, the client's check value wrong. -/
def putWorking : Cmd :=
  { cmd0 .put .working with desc := { desc0 with length := 4, e2eCrc := true } }

theorem witness_ValueBytesArrive :
    (withCmd0 putWorking).cmd? 0 = some putWorking ∧ putWorking.stage = .working ∧ putWorking.op.readsBuffer = true ∧
      (withCmd0 putWorking).blockInReset .val = false ∧ putWorking.pos + [1, 2, 3].length < putWorking.desc.length ∧
      putWorking.pos < putWorking.desc.length ∧ putWorking.orphan = false ∧ putWorking.ctx.isSome = true ∧
      (withCmd0 putWorking).stagedBytes + [1, 2, 3, 4].length ≤ 2 ^ 34 ∧ putWorking.ledgerPath = none ∧
      (let w := feedSegs 2 0 [1, 2, 3] putWorking.work
       w = [(0, .filling [1, 2, 3])] ∧ putWorking.partWhole 0 [1, 2, 3] = false) ∧ putWorking.conds = [] ∧
      putWorking.pos + [1, 2, 3, 4].length = putWorking.desc.length ∧
      putWorking.desc.e2eCrc = true ∧
      putWorking.desc.clientCrc ≠ crc32cOut (crc32cRun putWorking.crc ([1, 2, 3, 4] : Bytes)) := by
  decide +kernel

/-- Segments: sound, sealed, with a wrong CRC. -/
def segGood0 : Seg := seg0 0x41 2 0 (.ledger 0)
def segSealed : Seg :=
  { { Seg.raw [1, 2] 2 false true with sealWord := some ⟨0, 1, 5, 9⟩ }.close (locator (keyHash key0) 0 0) with
    loc := .ledger 0 }
def segBad : Seg := { segGood0 with segCrc := 0, hdrCrc := 0 }

/-- A variant of one segment, and a GET at work on it. -/
def varOf (g : Seg) : Variant := { var1 with segs := [(0, g)] }
def reading (g : Seg) : Cmd := { getOf (varOf g) 0 2 with stage := .working }

theorem witness_SegmentsAreRead :
    (∀ g ∈ [segGood0, segSealed, segBad], (withCmd0 (reading g)).cmd? 0 = some (reading g) ∧ (reading g).repair = none ∧
      (withCmd0 (reading g)).blockInReset .val = false ∧ (reading g).observed = some (varOf g) ∧
      ((reading g).desc.offset + (reading g).pos) / 65536 = 0 ∧ tget (varOf g).segs 0 = some g ∧ (reading g).work = [] ∧
      (reading g).slotRef = none ∧ (withCmd0 (reading g)).mayRead 0 (decide ((reading g).runClass = .express)) g.loc = true ∧
      (withCmd0 (reading g)).cip.restoreDone = true ∧
      (((withCmd0 (reading g)).spoilLine g.loc true).readLines (ledgerLines g.loc (segUnits g.payload.length))).1 = true) ∧
      ((withCmd0 (reading segSealed)).checkRead segSealed (locator (reading segSealed).kh 0 0) true = .clean ∧
        segSealed.sealWord.isSome = true) ∧
      ((withCmd0 (reading segGood0)).checkRead segGood0 (locator (reading segGood0).kh 0 0) true = .clean ∧
        segGood0.sealWord = none ∧ segGood0.decode segGood0.payload = some [0x41, 0x41]) ∧
      ((withCmd0 (reading segBad)).checkRead segBad (locator (reading segBad).kh 0 0) true = .badCheck ∧
        (withCmd0 (reading segBad)).sealGone (reading segBad) segBad = false ∧
        (withCmd0 (reading segBad)).val.repairs = [] ∧ segBad.loc = .ledger 0) := by
  decide +kernel

/-- A repair of a segment at a location. -/
def repairOf (g : Seg) (loc : Loc) (fixed : Option Seg) : Repair :=
  ⟨keyHash key0, key0, 0, 50, 0, { g with loc := loc }, 0, 0, up.locWords loc, false, if fixed.isSome then [] else [0], false,
    fixed⟩

/-- A drive with one repair, its reader, and what waits at the gate. -/
def repairing (r : Repair) (gate : List GateItem) : State :=
  { withCmd0 { reading segBad with repair := some 0 } with
    val := { up.val with repairs := [(0, r)], nextRepair := 1 }
    sch := { (withCmd0 { reading segBad with repair := some 0 }).sch with gate := gate } }

/-- The rewrite of the repair 0 at the gate. -/
def item0 : GateItem := ⟨keyHash key0, [], some 0, none, none⟩

/-- The drive with a segment in copy B of Ledger line 0. -/
def withCopyB (g : Seg) (s : State) : State :=
  { s with ldg := { s.ldg with lines := [(0, (padTo 64 segBad.bytes, padTo 64 g.bytes))] } }

/-- A sealed segment whose key no slot holds. -/
def segErased : Seg := { segSealed with tag := zeros 16 }

theorem witness_RepairsEnd_read :
    (let r := repairOf segBad (.flash 1 0 1) none
     let s := repairing r []
     Tbl.wf s.val.repairs = true ∧ s.repair? 0 = some r ∧ r.asked = false ∧ r.fixed = none ∧ r.old.loc = .flash 1 0 1 ∧
      r.failed ≠ 2 ∧ r.readers = [0]) ∧
      (∃ c, (repairing (repairOf segBad (.flash 1 0 1) none) []).cmd? 0 = some c ∧ c.op = .get ∧ c.stage = .working ∧
        c.ctx.isSome = true ∧ c.orphan = false) ∧
      (let r := repairOf segBad (.ledger 0) none
       let s := withCopyB segGood0 (repairing r [])
       s.repair? 0 = some r ∧ r.failed = 0 ∧ (s.readCopy r (parseSeg (s.secondCopy r) r.old)).1 = .plain [0x41, 0x41] ∧
        (parseSeg (s.secondCopy r) r.old).middle = r.old.middle ∧
        (parseSeg (s.secondCopy r) r.old).payload = r.old.payload) ∧
      (let r := repairOf (seg0 0x42 3 0 (.ledger 0)) (.ledger 0) none
       let s := withCopyB segGood0 (repairing r [])
       s.repair? 0 = some r ∧ (s.readCopy r (parseSeg (s.secondCopy r) r.old)).1 = .plain [0x41, 0x41] ∧
        (parseSeg (s.secondCopy r) r.old).payload ≠ r.old.payload) ∧
      (let r := repairOf segErased (.ledger 0) none
       let s := withCopyB segErased (repairing r [])
       s.repair? 0 = some r ∧ (s.readCopy r (parseSeg (s.secondCopy r) r.old)).1 = .keyErased) :=
  ⟨by decide +kernel, ⟨_, rfl, by decide +kernel⟩, by decide +kernel, by decide +kernel, by decide +kernel⟩

theorem witness_RepairsEnd_rewrite :
    let r := repairOf segBad (.flash 1 0 1) (some segGood0)
    let s := repairing r [item0]
    let v := varOf { segBad with loc := .flash 1 0 1 }
    let h := holding (rec0 v false) s
    (Tbl.wf s.val.repairs = true ∧ s.repair? 0 = some r ∧ r.fixed = some segGood0 ∧
      s.sch.gate.find? (fun x => x.repair = some 0) = some item0 ∧ s.itemFront item0 = true ∧
      s.programmed segGood0.loc = true ∧ dirFind s.idx.dir r.key = none) ∧
      (h.repair? 0 = some r ∧ h.programmed segGood0.loc = true ∧ dirFind h.idx.dir r.key = some (rec0 v false) ∧
        tget (rec0 v false).variants r.variant = some v ∧ v.version = r.version ∧
        (tget v.segs r.seg).map (·.loc) = some r.old.loc ∧ h.locWords r.old.loc = r.words ∧
        h.moveFits (rec0 v false) v r.seg = true) := by
  decide +kernel

/-- A LOADED slot at a counter. -/
def slot0 (counter : Nat) : KeySlot := ⟨.loaded, zeros 32, 1, 0, counter, 0, 0, [], false, [], []⟩

/-- The drive with the slot of tenant 5 at a counter. -/
def withSlot (counter : Nat) (s : State) : State := { s with cip := { s.cip with slots := [(5, slot0 counter)] } }

/-- A PUT whose segment 0 waits for its seal, and a GET whose segment 0 waits for its open. -/
def sealing0 : Cmd :=
  { cmd0 .put .working with work := [(0, .sealing (Seg.raw [1] 1 false true))], slotRef := some (5, 0) }
def opening0 : Cmd := { reading segSealed with work := [(0, .opening segSealed)] }

/-- The drive with a job of command 0 on lane 15. -/
def onLane (kind : Nat) (s : State) : State := { s with cip := { s.cip with running := [(15, ⟨kind, 0, 0, .ledger 0⟩)] } }

theorem witness_CipherJobsEnd :
    (∀ ctr ∈ [counterEnd - 1, counterEnd], let s := onLane 0 (withSlot ctr (withCmd0 sealing0))
      s.cmd? 0 = some sealing0 ∧ sealing0.stage = .working ∧ s.blockInReset .cip = false ∧ s.flt.swatched = [] ∧
        Tbl.wf s.cip.running = true ∧ (∀ x ∈ s.cip.running, x.1 = 15) ∧
        tget s.cip.running 15 = some ⟨0, 0, 0, .ledger 0⟩ ∧
        tget sealing0.work 0 = some (.sealing (Seg.raw [1] 1 false true)) ∧
        sealing0.slotRef = some (sealing0.act.owner, (s.slot sealing0.act.owner).gen) ∧
        (s.slot sealing0.act.owner).st = .loaded ∧ (s.slot sealing0.act.owner).counter = ctr ∧ sealing0.conds = [] ∧
        sealing0.ctx.isSome = true) ∧
      counterEnd - 1 < counterEnd ∧
      (let s := onLane 1 (withCmd0 opening0)
       s.cmd? 0 = some opening0 ∧ opening0.stage = .working ∧ Canonical s ∧ s.flt.swatched = [] ∧
        tget s.cip.running 15 = some ⟨1, 0, 0, .ledger 0⟩ ∧ s.blockInReset .cip = false) := by
  unfold Canonical; decide +kernel

/-- A gated PUT of length 0, the same with a condition, and one that a lower write to the key is before. -/
def gatedPut : Cmd := { writeOf .put 0 with stage := .gated }
def gatedCond : Cmd := { gatedPut with conds := [.versionConflict] }
def gatedBehind : State :=
  { up with sch := { up.sch with cmds := [(0, gatedPut), (1, { gatedPut with version := 99 })] } }

theorem witness_CommitGateDecides :
    (∀ c ∈ [gatedPut, gatedCond], let s := withCmd0 c
      s.cmd? 0 = some c ∧ c.stage = .gated ∧ s.blockInReset .sch = false ∧ s.blockInReset .idx = false ∧
        s.ldg.ready = true ∧ s.sch.gate = [] ∧ s.atFront c = true ∧ c.copies = 0) ∧
      (gatedBehind.cmd? 0 = some gatedPut ∧ gatedBehind.atFront gatedPut = false) ∧
      gatedCond.conds ++ (withCmd0 gatedCond).gateConds gatedCond ≠ [] ∧
      (let s : State := { withCmd0 gatedPut with sch := { (withCmd0 gatedPut).sch with tenants := [(5, ⟨1, 0, 0, 0, 0⟩)] } }
       let c := gatedPut
       s.cmd? 0 = some c ∧ s.gateConds c = [] ∧ s.quotaWaits c = false ∧ s.unplaceable c = false ∧ c.act.template = 0 ∧
        c.act.expressPin = false ∧ c.maps = none ∧ c.newPages (s.variantNow c) (c.newVariant (s.variantNow c)) = [] ∧
        s.stagingFits (s.recordAfter c).lines = true ∧ s.tokensWaited 0 = false ∧ c.chain = none ∧ s.metaAdmitted
          (s.pairLines ((s.recordAfter c).lines + commitLineCount (s.recordNow c) c.act.owner) - c.tokens) = true) ∧
      (withCmd0 gatedCond).quotaWaits gatedCond = false := by
  decide +kernel

/-- The drive with moves of a pinned key pending, and waiting for a full table. -/
def move0 : MChange := .move (keyHash key0) key0 (.ledger 9) (.ledger 4) 2
def moving (pending waiting : Nat) : State :=
  holding (rec0 var1 true) { up with idx := { up.idx with
    pending := List.replicate pending move0, waiting := List.replicate waiting move0 } }

theorem witness_MirrorChangesTakeEffect :
    ((moving 63 0).idx.pending.length < 64 ∧ (moving 63 0).idx.waiting = [] ∧ 64 ≤ (moving 64 0).idx.pending.length) ∧
      ((moving 2 0).idx.pending = move0 :: [move0] ∧ (moving 2 0).sch.gate = [] ∧ (moving 2 0).idx.waiting = [] ∧
        (moving 2 0).changeFits move0 = true) ∧
      ((moving 64 2).idx.pending = move0 :: List.replicate 63 move0 ∧ (moving 64 2).idx.waiting = move0 :: [move0] ∧
        (List.replicate 63 move0).length < 64) ∧ up.idx.pending = [] := by
  decide +kernel

/-! ## Witnesses: match dies, keys, index, directives -/

/-- A directive of tag 3. -/
def d0 : Dir := ⟨3, 0⟩

/-- The shadow record of a rule that matches every key and lets its writes go unreplicated. -/
def recs0 : Bytes := zeros 80 ++ [0, 0, 0, 8] ++ zeros 12

/-- The drive with MCH locked, and with one entry. -/
def mchLocked : State := up.setFld ⟨0x8FFFC, 0, 0⟩ 1
def oneRule : State := withRules [(5, anyRule)] up

theorem witness_CascadeWriteOnlyWhenEmpty :
    (Canonical up ∧ up.locked 0x80000 = false ∧ up.mch.rules = []) ∧
      (Canonical oneRule ∧ oneRule.locked 0x80000 = false ∧ oneRule.mch.rules ≠ []) ∧
      (Canonical mchLocked ∧ mchLocked.locked 0x80000 = true) := by
  unfold Canonical; decide +kernel

/-- A shift that has made room from 5 to 6 and has the entry at 5 still to move. -/
def shift0 : Shift := ⟨5, 7, anyRule, 6, 0, d0⟩
def shifting : State := { oneRule with mch := { oneRule.mch with shift := some shift0 } }

theorem witness_RulesAreLoaded :
    (Canonical oneRule ∧ oneRule.heldBack 1 d0 = false ∧ oneRule.fld Reg.FLT_SWATCH_CTL_ARM = 0 ∧ Tbl.wf oneRule.mch.rules = true ∧
      Tbl.wf oneRule.mch.shadow = true) ∧
      (∀ pos ∈ [0, 5, oneRule.rulePositions - 1], pos < 2 ^ 19 ∧ pos < oneRule.rulePositions ∧
        oneRule.actionRefused (ruleOfRecords oneRule.ruleSegs recs0).action = false ∧ oneRule.inShift pos = false) ∧
      (let s := oneRule.setFld Reg.MCH_CFG_CASCADE 1
       Canonical s ∧ s.rulePositions ≤ 2 ^ 19 - 1 ∧ (2 : Nat) ^ 19 - 1 < 2 ^ 19) ∧
      ((5 : Nat) + 1 < 2 ^ 19 ∧ oneRule.mch.shift = none ∧ oneRule.mch.waitShift = [] ∧ (5 : Nat) ≤ 5 + 1 ∧
        5 + 1 < oneRule.rulePositions ∧ levelOf 5 = levelOf (5 + 1) ∧ tget oneRule.mch.rules (5 + 1) = none) ∧
      (Canonical shifting ∧ shifting.mch.shift.isSome = true) ∧ (15 : Nat) ≤ 15 ∧ (15 : Nat) < 16 := by
  unfold Canonical; decide +kernel

theorem witness_ShiftsAndReadsOfRules :
    (shifting.mch.shift = some shift0 ∧ shifting.fld Reg.FLT_SWATCH_CTL_ARM = 0 ∧ Tbl.wf shifting.mch.rules = true ∧
      Tbl.wf shifting.mch.shadow = true ∧ Canonical shifting ∧ shift0.p ≤ shift0.cursor ∧ shift0.cursor ≤ shift0.q ∧
      shifting.mch.waitLoad = [] ∧ shifting.mch.waitShift = [] ∧ shifting.mch.scrubDue = [] ∧ tget shifting.mch.shadow 5 = tget shifting.mch.rules 5) ∧
      (let segs := (List.range oneRule.ruleSegs).map (fun i => BitVec.ofNat 320 (fieldAt (zeros 40) (40 * i) 40))
       (∀ e ∈ oneRule.checkedRules 1, e.2.checksHold = true ∧ e.2.actionHolds = true) ∧
        (5, anyRule) ∈ oneRule.enabledRules 1 ∧ (0 : Nat) ≤ 5 ∧ anyRule.matchesWord segs = true ∧
        (∀ f ∈ oneRule.enabledRules 1, 0 ≤ f.1 → f.2.matchesWord segs = true → 5 ≤ f.1) ∧
        ∀ e ∈ oneRule.enabledRules 1, 6 ≤ e.1 → e.2.matchesWord segs = false) ∧
      ((5 : Nat) < oneRule.rulePositions ∧ tget oneRule.mch.rules 5 = some anyRule ∧ oneRule.heldBack 1 d0 = false) ∧
      (oneRule.searchTurn false 2 = true ∧ Tbl.wf oneRule.mch.rules = true ∧ (parityDies [0, 1]).length < 2 ∧ parityDies [2, 3] = 2 :: 3 :: []) := by
  refine ⟨⟨rfl, by decide +kernel, by decide +kernel, by decide +kernel, by unfold Canonical; decide +kernel,
    by decide +kernel, by decide +kernel, by decide +kernel, by decide +kernel, by decide +kernel, rfl⟩, ⟨fun e he => ?_, ?_, by decide +kernel, by decide +kernel, by decide +kernel,
    by decide +kernel⟩, ⟨by decide +kernel, rfl, by decide +kernel⟩, by decide +kernel⟩
  · have he : e ∈ [(5, anyRule)] := (List.mem_filter.mp he).1
    simp only [List.mem_cons, List.not_mem_nil, or_false] at he
    subst he; exact ⟨by decide +kernel, loaded_action_holds _ _⟩
  · exact List.mem_filter.mpr ⟨List.mem_filter.mpr ⟨List.mem_cons_self, by decide +kernel⟩, by decide +kernel⟩

/-- One entry that differs from its shadow record, with a shedding stage in force or none. -/
def ruleWrong (stage : Nat) : State :=
  { up with
    mch := { up.mch with rules := [(5, noRule0)], shadow := [(5, anyRule)] }
    pwr := { up.pwr with shed := stage } }

/-- Half 7 granted to slot 3, and all halves granted to slot 3 with slot 4 waiting. -/
def oneHalf : State := { up with mch := { up.mch with halves := [(7, 3)], images := [(3, [zeros 16])] } }
def allHalves : State :=
  { up with mch := { up.mch with
      halves := (List.range 256).map (fun i => (i, 3))
      waitHalves := [4] } }

/-- The one entry with a load of its position waiting. -/
def loading : State := { oneRule with mch := { oneRule.mch with waitLoad := [(d0, 5, some anyRule)] } }

theorem witness_MatchUpkeep :
    (∀ g ∈ [0, 1], let s := ruleWrong g
      Canonical s ∧ s.mch.rules = [(5, noRule0)] ∧ tget s.mch.shadow 5 = some anyRule ∧ noRule0 ≠ anyRule ∧
        (s.diesOf 5).any (fun die => bitOf 1 die) = true ∧ s.writePending 5 = false ∧ s.badHalves = [] ∧
        s.fld Reg.FLT_SWATCH_CTL_ARM = 0 ∧ s.pwr.shed = g ∧ s.searchTurn false 3 = true ∧ s.heldBack 1 d0 = false) ∧
      (Canonical oneHalf ∧ tget oneHalf.mch.halves 7 = some 3) ∧
      (allHalves.mch.waitHalves ≠ [] ∧ allHalves.freeHalves = [] ∧
        allHalves.mostHalves = some 3 ∧
        (allHalves.halvesOf 3).getLast? = some 255 ∧ roundRobin allHalves.mch.rrHalf allHalves.halfTakers = some 4) ∧
      loading.mch.rules = [(5, anyRule)] ∧ ((loading.diesOf 5).any (fun die => bitOf 1 die) = true ∧
        loading.writePending 5 = true ∧ loading.badHalves = [] ∧ loading.mch.scrubDue = [] ∧ loading.heldBack 1 d0 = false ∧
        loading.searchTurn false 3 = true) := by
  have e : noRule0 ≠ anyRule := fun h => absurd (congrArg (fun r => r.segs) h) (by decide +kernel)
  unfold Canonical
  refine ⟨fun g hg => ⟨?_, rfl, rfl, e, ?_, ?_, rfl, ?_, rfl, ?_, ?_⟩, by decide +kernel, by decide +kernel, rfl, by decide +kernel⟩ <;>
    revert g <;> decide +kernel

/-- The key-encryption key, the wrapped and the unwrapped key of RFC 3394, section 4.6. -/
def kek0 : Bytes := (List.range 32).map (fun i => BitVec.ofNat 8 i)
def wrapped40 : Bytes :=
  [0x28, 0xC9, 0xF4, 0x04, 0xC4, 0xB8, 0x10, 0xF4, 0xCB, 0xCC, 0xB3, 0x5C, 0xFB, 0x87, 0xF8, 0x26, 0x3F, 0x57, 0x86, 0xE2,
    0xD8, 0x0E, 0xD3, 0x26, 0xCB, 0xC7, 0xF0, 0xE7, 0x1A, 0x99, 0xF4, 0x3B, 0xFB, 0x98, 0x8B, 0x9B, 0x7A, 0x02, 0xDD, 0x21]
def plain32 : Bytes := (List.range 16).map (fun i => BitVec.ofNat 8 (17 * i)) ++ (List.range 16).map (fun i => BitVec.ofNat 8 i)

/-- RFC 3394, 4.6: 256 bits of key data under a 256-bit key. -/
theorem test_kwUnwrap_rfc3394 : kwUnwrap kek0 wrapped40 = some plain32 := by
  unfold kwUnwrap; decide +kernel

/-- IMPORT_KEY LOADED, and the tenant slot 5 beside it. -/
def importSlot : KeySlot := ⟨.loaded, kek0, 1, 0, 0, 0, 0, [], false, [], []⟩
def keyed : State := { up with cip := { up.cip with slots := [(5, slot0 9), (0x401, importSlot)] } }

theorem witness_KeyDirectives :
    (∀ n ∈ [0, 5, 0x3FF], n < 0x400 ∧ keyed.heldBack 3 d0 = false ∧ keyed.cip.alarm = false ∧ (keyed.slot n).retired = [] ∧ (keyed.slot n).waiting = [] ∧
      (keyed.slot n).refs = 0 ∧ (keyed.slot n).untrusted = false ∧ (keyed.slot n).serial ≠ 0xFFFF) ∧
      ((keyed.slot 0x401).st = .loaded ∧ (keyed.slot 0x401).root = kek0) ∧
      ((keyed.slot 5).st = .loaded ∧ (keyed.slot 5).epoch ≠ 2 ^ 32 - 1) ∧ keyed.flt.swatched = [] := by
  decide +kernel

theorem witness_KeyDirectives_import : kwUnwrap (keyed.slot 0x401).root wrapped40 = some plain32 :=
  (congrArg (kwUnwrap · wrapped40) (by decide +kernel : (keyed.slot 0x401).root = kek0)).trans test_kwUnwrap_rfc3394

theorem witness_BuffersAreSealedAndOpened :
    (0 ∈ keyed.freeLanes ∧ ∀ e ∈ [(0, 0), (0, 65536), (dramBytes - 3, 3)], Canonical keyed ∧ keyed.flt.swatched = [] ∧ (5 : Nat) < 0x400 ∧
      keyed.heldBack 3 d0 = false ∧ keyed.freeLanes ≠ [] ∧ keyed.cip.alarm = false ∧ keyed.cip.restoreDone = true ∧ e.1 + e.2 ≤ dramBytes ∧ e.2 ≤ 65536 ∧ (zeros 256).length ≤ 256 ∧
      (keyed.slot 5).st = .loaded ∧ (keyed.slot 5).counter + 1 < counterEnd) ∧
      (let w := parseSealWord (padTo 16 (SealWord.bytes ⟨0, 1, 5, 8⟩))
       w.slot < 0x400 ∧ (keyed.slot w.slot).st = .loaded ∧ (keyed.slot w.slot).serial = w.serial) := by
  unfold Canonical; decide +kernel

theorem padTo_length_self (n : Nat) (b : Bytes) (h : b.length = n) : padTo n b = b := by
  subst h; simp [padTo]

/-- Some tag opens a buffer, and some tag does not. -/
theorem witness_BuffersAreSealedAndOpened_tag (key iv aad ct : Bytes) :
    (∃ tag p, gcmOpen key iv aad ct (padTo 16 tag) = some p) ∧ ∃ tag, gcmOpen key iv aad ct (padTo 16 tag) = none := by
  have h1 : ∀ t : Bytes, gcmOpen key iv aad ct (padTo 16 t)
      = if gcmTag (roundKeys (padTo 32 key)) iv aad ct = padTo 16 t then
          some (gcmCtr (roundKeys (padTo 32 key)) iv (ct.length / 16 + 1) 2 ct) else none := by
    intro t; unfold gcmOpen; rfl
  constructor
  · refine ⟨gcmTag (roundKeys (padTo 32 key)) iv aad ct, _, (h1 _).trans (if_pos ?_)⟩
    exact (padTo_length_self 16 _ (by unfold gcmTag; exact length_padTo _ _)).symm
  · by_cases h : gcmTag (roundKeys (padTo 32 key)) iv aad ct = padTo 16 (zeros 16)
    · refine ⟨[1], (h1 _).trans (if_neg ?_)⟩
      rw [h]; decide
    · exact ⟨zeros 16, (h1 _).trans (if_neg h)⟩

/-- A slot with a retired generation, one that is ERASING, one that its waiting directives have left alone. -/
def retiredSlot : KeySlot := ⟨.loaded, zeros 32, 1, 1, 0, 2, 0, [⟨1, zeros 32, 1, 0, 7, 0⟩], false, [], []⟩
def erasingSlot : KeySlot := { retiredSlot with st := .erasing, eraseDirs := [d0] }
def slotAt (k : KeySlot) : State := { up with cip := { up.cip with slots := [(5, k)] } }

/-- The alarm sources all enabled. -/
def alarmOn : State := upFld Reg.CIP_ALARM_EN_ENABLE 31

theorem witness_KeySlotsEnd :
    (((slotAt retiredSlot).slot 5).retired = [⟨1, zeros 32, 1, 0, 7, 0⟩] ∧ ((slotAt retiredSlot).slot 5).st = .loaded ∧
      ((slotAt retiredSlot).slot 5).waiting = []) ∧
      (((slotAt erasingSlot).slot 5).st = .erasing ∧ ((slotAt erasingSlot).slot 5).eraseDirs = [d0] ∧
        ((slotAt erasingSlot).slot 5).waiting = []) ∧
      ((0x43F : Nat) ≤ 0x43F ∧ isSecSlot 0x43F = false ∧ isSecSlot 0x400 = true ∧ isSecSlot 5 = false ∧ (up.slot 0x43F).st ≠ .erasing ∧
        up.fld Reg.FLT_SWATCH_CTL_ARM = 0) ∧
      (let s := keyed.setFld Reg.CIP_SLOT_SEL_SLOT 5
       let v : W32 := (Reg.CIP_CTR_TEST_ARM.put (Reg.CIP_CTR_TEST_APPLY.put (0 : W32) 1) 1)
       Canonical s ∧ s.locked 0xF0000 = false ∧ Reg.CIP_CTR_TEST_ARM.of v = 1 ∧ Reg.CIP_CTR_TEST_APPLY.of v = 1 ∧
        s.fld Reg.CIP_SLOT_SEL_SLOT = 5 ∧ (s.slot 5).st = .loaded) ∧
      (∀ bits ∈ [16, 2, 1], alarmOn.fld Reg.CIP_ALARM_EN_ENABLE &&& bits = bits) ∧ alarmOn.cip.waitRestore = [] ∧
      (∀ e ∈ alarmOn.cip.slots, e.2.waiting = [] ∧ e.2.eraseDirs = []) := by
  unfold Canonical; decide +kernel

/-! ## Witnesses: index, peer, tenant, admin and owner directives, update sessions -/

/-- Records in flash: pinned, not pinned; one on the Ledger. -/
def recPinned : DirRec := { rec0 var1 true with loc := .flash 1 0 1 }
def recPlain : DirRec := { rec0 var1 false with loc := .flash 1 0 1 }

/-- The drive with the tenant allowed one pin, with a shedding stage in force. -/
def pinOk : State := holding recPlain { up with sch := { up.sch with tenants := [(5, ⟨1, 0, 1, 0, 0⟩)] } }
def shedding : State := { up with pwr := { up.pwr with shed := 1 } }

/-- A table of one whole bucket has whole buckets only. -/
theorem bget_one {α : Type} (i : Nat) (l : List (Option α)) (b : Nat) (h : l.length = 8) : (bget [(i, l)] b).length = 8 := by
  show ((if i = b then some l else none).getD (List.replicate 8 none)).length = 8
  split
  · exact h
  · rfl

theorem witness_IndexDirectives :
    dirFind up.idx.dir key0 = none ∧ (∀ s ∈ [up, pinOk, holding recPlain up, holding recPinned up, shedding], s.heldBack 0 d0 = false) ∧
      (dirFind pinOk.idx.dir key0 = some recPlain ∧ recPlain.pinned = false ∧ pinOk.pinRefusal recPlain recPlain.owner = none ∧
        pinOk.idx.pending.length < 64 ∧ pinOk.idx.waiting = []) ∧
      (holding recPlain up).pinRefusal recPlain recPlain.owner = some 1 ∧
      (let h := holding recPinned up
       dirFind h.idx.dir key0 = some recPinned ∧ recPinned.pinned = true ∧ h.idx.pending.length < 64 ∧ h.idx.waiting = []) ∧
      (up.idx.rebuildDir = [] ∧ up.idx.dir = [] ∧ pinOk.idx.rebuildDir = [] ∧ pinOk.idx.dir ≠ [] ∧
        ∀ r ∈ pinOk.idx.dir, pageHeld r = true) ∧
      (Tbl.wf pinOk.idx.mirror0 = true ∧ Tbl.wf pinOk.idx.mirror1 = true ∧ pinOk.idx.pending = [] ∧ pinOk.pwr.shed = 0 ∧ shedding.pwr.shed ≠ 0 ∧
        Tbl.wf shedding.idx.mirror0 = true ∧ Tbl.wf shedding.idx.mirror1 = true) ∧
      (∀ b, (bget pinOk.idx.mirror0 b).length = 8 ∧ (bget pinOk.idx.mirror1 b).length = 8) ∧
      ∀ b, (bget shedding.idx.mirror0 b).length = 8 ∧ (bget shedding.idx.mirror1 b).length = 8 :=
  ⟨by decide +kernel, by decide +kernel, by decide +kernel, by decide +kernel, by decide +kernel, by decide +kernel,
    by decide +kernel, fun _ => ⟨bget_one _ _ _ rfl, bget_one _ _ _ rfl⟩, fun _ => ⟨rfl, rfl⟩⟩

/-- A peer entry of ID 7, ENABLED, of a domain; a drive that has it, with its queue pair. -/
def entryOf (pstate domain : Nat) : Bytes := leBytes 2 7 ++ leBytes 1 pstate ++ leBytes 1 domain ++ zeros 60
def peerQp (p : Nat) : Qp := { qp0 with conn := { conn0 with peer := some p } }
def peered : State :=
  { up with
    nfe := { up.nfe with qps := [(9, peerQp 7)] }
    peer := { up.peer with entries := [(7, parsePeer (entryOf 1 0))], live := [(7, .up)] } }

theorem witness_PeerDirectives_entries :
    (∀ b ∈ [entryOf 1 0, entryOf 2 47], peered.heldBack 6 d0 = false ∧ up.heldBack 6 d0 = false ∧ Tbl.wf peered.nfe.qps = true ∧ fieldAt (padTo 64 b) 0 2 % 4096 = 7 ∧
      (parsePeer (padTo 64 b)).pstate ≤ 2 ∧ (parsePeer (padTo 64 b)).domain ≤ 47) ∧
      tget up.peer.entries 7 = none ∧
      (tget peered.peer.entries 7 = some (parsePeer (entryOf 1 0)) ∧
        relinks (parsePeer (entryOf 1 0)) (parsePeer (padTo 64 (entryOf 2 47))) = true ∧ relinks (parsePeer (entryOf 1 0)) (parsePeer (padTo 64 (entryOf 1 0))) = false ∧ Tbl.wf peered.peer.live = true ∧
        9 ∈ peered.peerCtxs 7) ∧
      2 < (parsePeer (padTo 64 (entryOf 3 0))).pstate ∧ 47 < (parsePeer (padTo 64 (entryOf 1 48))).domain ∧
      (([] : List W64).length < 1 ∧ 4096 < (List.replicate 4097 (0 : W64)).length ∧
        (List.replicate 4096 (0 : W64)).length ≤ 4096 ∧ Tbl.wf up.peer.places = true ∧ 1 ≤ [(0 : W64), 2 ^ 63].length ∧ 65534 + [(0 : W64), 2 ^ 63].length ≤ 65536 ∧
        65536 < 65535 + [(0 : W64), 2 ^ 63].length) ∧
      (∀ depth ∈ [1, 3, 4, 0], fieldAt (padTo 8 [BitVec.ofNat 8 depth, 1, 0xE8, 3, 1]) 0 1 = depth) ∧
      (let r : Bytes := padTo 8 [3, 1, 0xE8, 3, 1]
       fieldAt r 1 1 = 1 ∧ fieldAt r 2 2 = 1000 ∧ bitOf (fieldAt r 4 1) 0 = true) := by
  decide +kernel

/-- The same slots under an alarm. -/
def alarmed : State := { keyed with cip := { keyed.cip with alarm := true } }

theorem witness_PeerDirectives_domain :
    ((47 : Nat) ≤ 47 ∧ (47 : Nat) < 48 ∧ kwUnwrap (keyed.slot 0x401).root [] = none ∧ alarmed.cip.alarm = true ∧ alarmed.heldBack 6 d0 = false ∧ keyed.heldBack 6 d0 = false ∧ bare.heldBack 6 d0 = false ∧ keyed.cip.alarm = false ∧ bare.cip.alarm = false ∧ bare.cip.restoreDone = false ∧
      keyed.cip.restoreDone = true ∧ (keyed.slot (0x410 + 47)).retired = [] ∧ (keyed.slot (0x410 + 47)).waiting = [] ∧
      (keyed.slot (0x410 + 47)).serial ≠ 0xFFFF ∧ (keyed.slot 0x401).st = .loaded) ∧
      kwUnwrap (keyed.slot 0x401).root wrapped40 = some plain32 :=
  ⟨by decide +kernel, witness_KeyDirectives_import⟩

/-- A chained variant of no bytes, its record, and a drive whose peer 7 is the next of its path. -/
def varChained : Variant := ⟨0, 50, false, false, true, 1, [], []⟩
def recChained : DirRec := { rec0 varChained false with loc := .flash 1 0 1 }
def chained (suspended : Bool) : State :=
  holding recChained { peered with peer := { peered.peer with
    templates := [(1, ⟨1, false, 100, false⟩)]
    places := [(placeSlot recChained.kh, ⟨[7]⟩)]
    suspended := suspended } }

theorem witness_PeerDirectives_resync :
    (1 : W64) > 0 ∧ (chained true).heldBack 6 d0 = false ∧ (chained false).heldBack 6 d0 = false ∧ (chained true).peer.suspended = true ∧
      (let s := chained false
       recChained.kh ≤ recChained.kh ∧ s.peer.suspended = false ∧ s.idx.dir = [recChained] ∧
        recChained.variants = [(0, varChained)] ∧ varChained.template ≠ 0 ∧
        (s.idx.dir.filter fun x => decide (recChained.kh ≤ x.kh) && decide (x.kh ≤ recChained.kh)) = [recChained] ∧
        tget s.peer.templates varChained.template = some ⟨1, false, 100, false⟩ ∧ s.headPath recChained.kh 1 = [7] ∧
        (s.variantBytes recChained 0 varChained).1 = some []) ∧
      ((holding recPlain up).peer.suspended = false ∧ ∀ r ∈ (holding recPlain up).idx.dir, ∀ e ∈ r.variants, e.2.template = 0) := by
  decide +kernel

/-- ENG in HOLD, and an EXPRESS command that waits for its issue. -/
def waiting7 : State := upFld Reg.ENG_HOLD_HOLD 1
def outOfTurn : State := withCmd0 { cmd0 .get .accepted with cls := .express }

/-- A tenant record of tenant 5 in a state. -/
def tenantRec (st : Nat) : Bytes := leBytes 2 5 ++ leBytes 1 st ++ zeros 61

theorem witness_TenantDirectivesAndChecks :
    (∀ st ∈ [1, 2], (parseTenant (padTo 64 (tenantRec st))).st = st) ∧
      (∀ s ∈ [keyed, bare], s.heldBack 7 d0 = false ∧ s.heldBack 2 d0 = false ∧ s.engTurn = true ∧ waiting7.heldBack 7 d0 = true ∧ outOfTurn.engTurn = false ∧
        s.valTurn (decide (SvcClass.ofCode (s.fld (Reg.ENG_RING_CFG_CLASS 2)) = .express)) 3 = true) ∧
      ((parseTenant (padTo 64 (tenantRec 0))).st = 0 ∧ keyed.nfe.qps = [(2, qp0)] ∧ bare.nfe.qps = [] ∧
        2 < (parseTenant (padTo 64 (tenantRec 3))).st) ∧
      (Tbl.wf keyed.sch.secrets = true ∧ padTo 40 wrapped40 = wrapped40 ∧ (keyed.slot 0x401).root = kek0 ∧
        (keyed.slot 0x401).st = .loaded) ∧
      (let e : State := { keyed with cip := { keyed.cip with slots := [(0x401, { importSlot with st := .empty })] } }
       (e.slot 0x401).root = kek0 ∧ (e.slot 0x401).st = .empty) ∧
      16777216 ≤ dramBytes := by
  decide +kernel

/-- An admin command of the queue pair 2, started. -/
def adminCmd (op : Opcode) : Cmd := cmd0 op .started

/-- The drive's attestation state: leaves left or none, tokens, the last ATTEST at time 0. -/
def attesting (exhausted : Bool) (budget : Nat) (last : Tbl Nat) : State :=
  { withCmd0 (adminCmd .attest) with
    sec := { up.sec with
      exhausted := exhausted, budget := budget, lastAttest := last } }

theorem adminReady0 (s : State) (op : Opcode) (h : s.netUp = true) (h2 : s.cmd? 0 = some (adminCmd op)) :
    AdminReady s (.qp 0) op ∧ AdminReady s .mgmt op :=
  ⟨⟨h, rfl, fun n e => by cases e; exact ⟨_, h2, rfl, rfl⟩⟩, ⟨h, rfl, fun n e => by cases e⟩⟩

theorem witness_AdminReadsAnswer :
    ((withCmd0 (adminCmd .identify)).cmd? 0 = some (adminCmd .identify) ∧ (adminCmd .identify).ctx = some 2 ∧
      (adminCmd .identify).orphan = false ∧ (adminCmd .identify).stage = .started) ∧
      AdminReady (withCmd0 (adminCmd .identify)) (.qp 0) .identify ∧
      (∀ s ∈ [attesting true 1 [], attesting false 1 [(2, 0)], attesting false 1 [], attesting false 0 []], s.netUp = true ∧
        s.cmd? 0 = some (adminCmd .attest) ∧ s.ldg.ready = true ∧ s.adminLength .mgmt 3143 < 3144 ∧
        3144 ≤ s.adminLength .mgmt 3144 ∧ s.adminLength (.qp 0) 3144 < 3144) ∧
      ((attesting true 1 []).sec.exhausted = true ∧ (attesting false 1 []).sec.exhausted = false ∧
        (attesting false 1 []).intervalWait ((attesting false 1 []).adminSource .mgmt) = 0 ∧ 0 < (attesting false 1 []).sec.budget ∧
        (attesting false 1 [(2, 0)]).intervalWait ((attesting false 1 [(2, 0)]).adminSource .mgmt) ≠ 0 ∧
        (attesting false 0 []).sec.budget = 0) ∧
      (AdminReady (withCmd0 (adminCmd .recRead)) (.qp 0) .recRead ∧ (withCmd0 (adminCmd .recRead)).flt.swatched = []) ∧
      ((attesting false 0 []).sec.budget < (attesting false 0 []).budgetDepth ∧
        (attesting false 64 []).budgetDepth ≤ (attesting false 64 []).sec.budget) :=
  ⟨by decide +kernel, (adminReady0 _ _ (by decide +kernel) (by decide +kernel)).1, by decide +kernel, by decide +kernel,
    ⟨(adminReady0 _ _ (by decide +kernel) (by decide +kernel)).1, by decide +kernel⟩, by decide +kernel⟩

/-- The drive with an owner key, a challenge of requester 1 and a reference of each purpose. -/
def owned : State :=
  { up with
    ldg := { up.ldg with
      kept := { up.ldg.kept with ownerKey := some (zeros 32) } }
    sec := { up.sec with challenges := [(1, (zeros 16, 0))], refs := [(11, (1, 0)), (12, (2, 0)), (13, (3, 0)), (14, (4, 0))] }
    recorder := { up.recorder with rowNext := 10 } }

/-- Two entries issued on rings 4, 5, 8 and 9, neither of them started. -/
def behind : State :=
  { up with eng := { up.eng with
    rings := [4, 5, 8, 9].map fun n => (n, { Ring.fresh with issued := [⟨3, 4, 0, false, []⟩, ⟨4, 4, 0, false, []⟩] }) } }

theorem witness_OwnerDirectives :
    (owned.early 8 d0 = false ∧ owned.early 9 d0 = false ∧ up.early 9 d0 = false ∧
      behind.early 8 ⟨4, 0⟩ = true ∧ behind.early 9 ⟨4, 0⟩ = true) ∧
    (owned.ldg.kept.ownerKey = some (zeros 32) ∧ owned.challengeOf 1 = some (zeros 16) ∧ up.ldg.kept.ownerKey = none) ∧
      (owned.refValid 12 2 = true ∧ owned.refValid 11 2 = false ∧ owned.refValid 13 3 = true ∧ owned.refValid 11 3 = false ∧ owned.refValid 14 4 = true ∧ owned.refValid 13 4 = false) ∧
      (owned.refValid 11 1 = true ∧ owned.refValid 13 1 = false ∧ owned.ldg.kept.clearFloor ≤ 10 ∧
        10 ≤ owned.recorder.rowNext) := by
  decide +kernel

/-- Some response is the right one, and none shorter than 32 bytes. -/
theorem witness_OwnerDirectives_response :
    (∃ r : Bytes, ownerResponse (zeros 32) (zeros 16) 1 = r) ∧ ownerResponse (zeros 32) (zeros 16) 1 ≠ ([] : Bytes) :=
  ⟨⟨_, rfl⟩, fun h => by
    have l : (ownerResponse (zeros 32) (zeros 16) 1).length = 32 := length_padTo _ _
    simp [h] at l⟩

/-- A manifest of four empty images, their digest given. -/
def man0 (x : Bytes) : Bytes :=
  zeros 80 ++ (x ++ (zeros 16 ++ (x ++ (zeros 16 ++ (x ++ (zeros 16 ++ x))))))

/-- A manifest's header of four empty images, with the signature's bytes zero. -/
def manHead : Bytes :=
  padTo 3204 (leBytes 4 0x4D4B5856 ++ leBytes 2 1 ++ zeros 2 ++ leBytes 4 9 ++ leBytes 4 3 ++ leBytes 4 1 ++ zeros 4 ++
    zeros 232 ++ leBytes 4 1)

/-- A session for the management port, in a state, with a manifest of one byte to be sent. -/
def sess0 (st : SessState) : Session :=
  { up.session with
    st := st, holder := 2, manifest := zeros 68 ++ leBytes 4 1 ++ zeros 200 }
def inSession (st : SessState) : State :=
  { up with session := sess0 st, pwr := { up.pwr with holdupReady := true } }

/-- The open session with its byte received, and what is left once its source's session has ended by itself. -/
def received0 : State := { inSession .openS with session := { sess0 .openS with blocks := [(0, [7])] } }
def ended0 : State := { up with session := { up.session with ended := [2] } }

theorem witness_SessionCommands :
    (∀ s ∈ [up, inSession .idle, inSession .openS, inSession .awaitingCommit], s.netUp = true ∧
      s.session.ended.contains (s.adminSource .mgmt) = false) ∧
      ((inSession .openS).session.st ≠ .idle ∧ (inSession .idle).session.st = .idle ∧ (inSession .idle).refusal = none ∧
        up.session.st = .idle ∧ up.refusal = some 2) ∧
      ((inSession .openS).session.holder = (inSession .openS).adminSource .mgmt ∧ (inSession .openS).refusal = none ∧
        blockValid (manStream (inSession .openS).session.manifest) 0 [7] = true ∧
        blockAgrees (inSession .openS).session.blocks 0 [7] = true ∧
        (inSession .openS).adminBytes .mgmt [7] = [7] ∧ (inSession .openS).adminDesc .mgmt = none ∧
        received0.session.holder = received0.adminSource .mgmt ∧ received0.refusal = none ∧ received0.netUp = true ∧
        blockAgrees received0.session.blocks 0 [8] = false ∧
        blockValid (manStream (inSession .openS).session.manifest) 0 [7, 7] = false ∧
        blockValid (manStream (inSession .openS).session.manifest) 1 [] = false) ∧
      ((inSession .awaitingCommit).session.st = .awaitingCommit ∧
        (inSession .awaitingCommit).session.holder = (inSession .awaitingCommit).adminSource .mgmt) ∧
      ((inSession .openS).adminSource (.ring 1 d0) ≠ (inSession .openS).session.holder ∧
        (inSession .openS).session.ended.contains ((inSession .openS).adminSource (.ring 1 d0)) = false) ∧
      (ended0.netUp = true ∧ ended0.session.st = .idle ∧ ended0.session.ended.contains (ended0.adminSource .mgmt) = true) ∧
      (let s := withCmd0 (adminCmd .sessionOpen)
       s.cmd? 0 = some (adminCmd .sessionOpen) ∧ s.adminDesc (.qp 0) = some desc0 ∧ s.adminBytes (.qp 0) [7] = []) := by
  decide +kernel

theorem witness_SessionCommands_ready : AdminReady (inSession .openS) .mgmt .sessionBlock :=
  ⟨by decide +kernel, rfl, fun _ e => by cases e⟩

/-- A manifest whose signature verifies passes the checks after it. -/
theorem witness_SessionCommands_manifest (h : manSigned manHead = true) : (inSession .idle).manifestRefusal manHead = none := by
  have w : manWellFormed manHead = true := by decide +kernel
  unfold State.manifestRefusal
  rw [h, w]
  decide +kernel

/-- A manifest of four empty images with the digest of no bytes, received whole, matches. -/
theorem witness_SessionCommands_activate :
    let m := man0 (padTo 32 (shake256 []))
    let s : State := { inSession .openS with session := { sess0 .openS with manifest := m } }
    s.session.target < 2 ∧ manStream s.session.manifest ≤ receivedUpTo s.session.blocks ∧
      (s.buildSet s.session.manifest (receivedStream s.session.blocks)).matchesManifest = true := by
  have key : ∀ x : Bytes, x.length = 32 → let m := man0 x
      manStream m = 0 ∧ (∀ i < 4, imgSent m i = 0 ∧ imgLength m i = 0 ∧ imgBase m i = 0 ∧ imgDigest m i = x) := by
    intro x hx
    match x, hx with
    | [a0, a1, a2, a3, a4, a5, a6, a7, a8, a9, b0, b1, b2, b3, b4, b5, b6, b7, b8, b9, c0, c1, c2, c3, c4, c5, c6, c7, c8, c9,
        e0, e1], _ =>
      refine ⟨rfl, fun i hi => ?_⟩
      match i, hi with
      | 0, _ => exact ⟨rfl, rfl, rfl, rfl⟩
      | 1, _ => exact ⟨rfl, rfl, rfl, rfl⟩
      | 2, _ => exact ⟨rfl, rfl, rfl, rfl⟩
      | 3, _ => exact ⟨rfl, rfl, rfl, rfl⟩
  intro m s
  obtain ⟨k0, k⟩ := key (padTo 32 (shake256 [])) (length_padTo _ _)
  refine ⟨by show (sess0 .openS).target < 2; decide +kernel, (Nat.le_of_eq k0).trans (Nat.zero_le _), ?_⟩
  show ((List.range 4).all fun i => _) = true
  rw [List.all_eq_true]
  intro i hi
  have hi' : i < 4 := by simpa using hi
  obtain ⟨a, b, c, d⟩ := k i hi'
  have fin : ((List.range 4).map (s.finalImage m (receivedStream s.session.blocks))).getD i [] = [] := by
    have : s.finalImage m (receivedStream s.session.blocks) i = [] := by
      show (if imgBase m i = 0 then _ else _) = _
      rw [if_pos c]
      show slice _ _ (imgSent m i) = []
      rw [a]; rfl
    rw [List.getD_eq_getElem?_getD, List.getElem?_map, List.getElem?_range hi']
    exact this
  let set := s.buildSet m (receivedStream s.session.blocks)
  show (decide ((set.images.getD i []).length = imgLength m i)
    && decide (padTo 32 (shake256 (set.images.getD i [])) = imgDigest m i)) = true
  rw [show set.images.getD i [] = [] from fin, b, d]
  simp

/-- An activation that drains, of the set in the bank that does not run; a trial, and the same reverting. -/
def draining0 (reverting : Bool) : State :=
  { inSession .activating with
    session := { sess0 .activating with reverting := reverting, target := 1 }
    sec := { up.sec with
      bank1 := some { ImageSet.shipped with setId := 9 } }
    sch := { up.sch with drain := .activation } }

theorem witness_ActivationsEnd :
    (∀ r ∈ [false, true], let s := draining0 r
      s.sch.drain = .activation ∧ s.session.abandon = false ∧ Canonical s ∧ s.session.reverting = r ∧
        changedBlocks s.sec.running ((s.sec.bank s.session.target).getD ImageSet.shipped) = [] ∧
        changedBlocks s.sec.running ((s.sec.bank s.sec.goodBank).getD ImageSet.shipped) = []) ∧
      ((inSession .trial).session.st = .trial ∧ (inSession .trial).pins.imageDown = false) ∧
      (inSession .awaitingCommit).session.st = .awaitingCommit ∧ (inSession .openS).session.st = .openS := by
  unfold Canonical; decide +kernel

/-! ## Witnesses: peers, chains, repairs, flash directives -/

/-- A drive with SELF_ID 1 that knows peer 7, ENABLED, in a domain whose key is LOADED. -/
def peerReady : State :=
  { up.setFld Reg.PEER_CFG_SELF_ID 1 with
    peer := { up.peer with entries := [(7, parsePeer (entryOf 1 0))] }
    cip := { up.cip with slots := [(0x410, importSlot)] } }

/-- The private data of a peer's REQ, with its DRIVE_UID. -/
def peerReq0 (uid : Byte) : ReqMsg :=
  { req0 0x80 7 with raw := (req0 0x80 7).raw.take 62 ++ List.replicate 16 uid ++ zeros 14 }

/-- The drive while a peer queue pair is CONNECTING, as requester or not. -/
def linkingQp (requester : Bool) : Qp :=
  { peerQp 7 with
    st := .connecting, conn := { conn0 with peer := some 7, requester := requester } }
def linking0 (requester : Bool) : State :=
  { peerReady with nfe := { up.nfe with qps := [(16384, linkingQp requester)] } }

/-- The drive with an ACTIVE queue pair of peer 7, which is UP or DOWN. -/
def peerUp : State :=
  { peerReady with
    nfe := { up.nfe with qps := [(16384, peerQp 7)] }
    peer := { peerReady.peer with live := [(7, .up)] } }
def peerQuiet : State := { peerUp with peer := peerReady.peer }

/-- The same peer once it fell silent. -/
def peerDown : State := { peerUp with peer := { peerReady.peer with live := [(7, .down)] } }

/-- A message on the queue pair of peer 7. -/
def msg0 : PeerMsg :=
  { blankMsg with
    ctx := 16384, hop := 1, depth := 1, wop := 3, version := 70, keyHash := keyHash key0, keyLen := 1, key := key0, srcPeer := 7 }

/-- A message of a kind with its MSG_CRC. -/
def crced (kind : Nat) (m : PeerMsg) : PeerMsg := { m with crc := msgCrc kind m }

theorem witness_PeersLink_requests :
    (peerReady.peerEnabled 7 = some (parsePeer (entryOf 1 0)) ∧ peerReady.netUp = true ∧ peerReady.selfId < 7 ∧
      (peerReady.peerOnPort 7 .a = false ∧ peerDown.peerOnPort 7 .a = true ∧ peerDown.peerLive 7 = .down ∧ peerDown.peersLinked.contains 7 = true) ∧
      peerReady.peersLinked.length < 2048 ∧ peerReady.linkingCtx 7 .a = none ∧
      peerReady.freeContextIn 16384 4096 = some 16384) ∧
      (∀ x ∈ [0, 1], let q := peerReq0 (BitVec.ofNat 8 x)
        reqPeer q.raw = true ∧ reqMalformed q = false ∧ reqPathShort q = false ∧ reqTenant q.raw % 4096 = 7 ∧
          peerReady.domainRoot (parsePeer (entryOf 1 0)).domain = some kek0) ∧
      reqUid (peerReq0 0).raw = (parsePeer (entryOf 1 0)).uid ∧ reqUid (peerReq0 1).raw ≠ (parsePeer (entryOf 1 0)).uid := by
  decide +kernel

theorem witness_PeersLink_answers :
    (∀ r ∈ [true, false], Tbl.wf (linking0 r).nfe.qps = true ∧ (linking0 r).qp? 16384 = some (linkingQp r) ∧
      (linkingQp r).st = .connecting ∧ (linkingQp r).cause = 0 ∧ (linkingQp r).conn.requester = r ∧
      (linkingQp r).conn.peer = some 7 ∧ (linking0 r).peerEnabled 7 = some (parsePeer (entryOf 1 0)) ∧
      (linking0 r).domainRoot (parsePeer (entryOf 1 0)).domain = some kek0) ∧
      (parsePeer (entryOf 1 0)).uid = zeros 16 ∧ (zeros 15 : Bytes) ≠ zeros 16 := by
  decide +kernel

/-- Some PROOF is the right one, and none shorter than 32 bytes. -/
theorem witness_PeersLink_proofs (input : Bytes) :
    (∃ p : Bytes, p = peerReplyProof kek0 input) ∧ ([] : Bytes) ≠ peerReplyProof kek0 input ∧
      (∃ p : Bytes, p.take 32 = peerProof kek0 input) ∧ ([] : Bytes).take 32 ≠ peerProof kek0 input := by
  have l : (peerReplyProof kek0 input).length = 32 := length_padTo _ _
  have l' : (peerProof kek0 input).length = 32 := length_padTo _ _
  exact ⟨⟨_, rfl⟩, fun h => by simp [← h] at l, ⟨_, List.take_of_length_le (by omega)⟩, fun h => by simp [← h] at l'⟩

theorem witness_PeersLink_messages :
    (peerUp.activePeer msg0.ctx = some 7 ∧ HeardFrom peerUp 6 (crced 6 msg0) 7 ∧ Tbl.wf peerUp.peer.live = true ∧
      peerUp.qp? 16384 = some (peerQp 7)) ∧
      (peerQuiet.activePeer msg0.ctx = some 7 ∧ peerQuiet.peerEnabled 7 = some (parsePeer (entryOf 1 0)) ∧
        peerQuiet.peerLive 7 ≠ .up ∧ (crced 6 msg0).crc = msgCrc 6 (crced 6 msg0) ∧ msg0.sealed = false) ∧
      msg0.crc ≠ msgCrc 6 msg0 := by
  unfold HeardFrom; decide +kernel

/-- The peer's drive while SCH is in reset. -/
def schDown : State := { peerUp with sch := { up.sch with inReset := [.sch] } }

/-- The drive with no retention entry left but those for EXPRESS. -/
def retentionFull : State := { peerUp with sch := { up.sch with outcomes := List.replicate 983040 record0 } }

theorem witness_ChainWritesArrive :
    (HeardFrom peerUp 1 (crced 1 msg0) 7 ∧ msgRefused (crced 1 msg0) = false ∧
      HeardFrom peerUp 1 (crced 1 { msg0 with keyLen := 0 }) 7 ∧ msgRefused (crced 1 { msg0 with keyLen := 0 }) = true ∧
      peerUp.retentionFree (msgClass msg0) = true ∧ peerUp.peer.intake = [] ∧ peerUp.blockInReset .sch = false ∧
      (schDown.blockInReset .sch = true ∧ HeardFrom schDown 1 (crced 1 msg0) 7) ∧
      (peerUp.peer.dedupe.find? (fun e => e.kh = msg0.keyHash && decide (e.version = msg0.version))) = none ∧
      peerUp.peer.dedupe.length < 65536) ∧
      (let m := crced 1 { msg0 with sealed := true }
       let m1 := crced 1 { msg0 with sealed := true, data := [1] }
       peerUp.activePeer m.ctx = some 7 ∧ peerUp.activePeer m1.ctx = some 7 ∧ m.crc = msgCrc 1 m ∧ m1.crc = msgCrc 1 m1 ∧
        msgRefused m = false ∧ msgRefused m1 = false ∧ (peerUp.openPieces 7 1 m).1 = some [] ∧
        (peerUp.openPieces 7 1 m1).1 = none ∧ msg0.crc ≠ msgCrc 1 msg0) ∧
      (∀ a ∈ [none, some (0, 2)], let e : Dedupe := ⟨msg0.keyHash, 70, a⟩
        let s : State := { peerUp with peer := { peerUp.peer with dedupe := [e] } }
        HeardFrom s 1 (crced 1 msg0) 7 ∧ s.blockInReset .sch = false ∧ s.peerCtx 7 = some 16384 ∧
          (s.peer.dedupe.find? (fun e => e.kh = msg0.keyHash && decide (e.version = msg0.version))) = some e) := by
  unfold HeardFrom; decide +kernel

theorem retention_full (s : State) (hc : s.sch.cmds = []) (ho : s.sch.outcomes.length = 983040) :
    s.retentionFree .normal = false := by
  simp [State.retentionFree, State.retained, hc, ho]

theorem witness_ChainWritesArrive_full :
    HeardFrom retentionFull 1 (crced 1 msg0) 7 ∧ retentionFull.retentionFree (msgClass msg0) = false :=
  ⟨by unfold HeardFrom; decide +kernel, retention_full _ rfl List.length_replicate⟩

/-- The reset record's bytes lie as R477 gives them, and its LINE_CRC decides whether it counts. -/
theorem test_resetRec_bytes :
    let b := (ResetRec.mk 5 true 4 0x1F 9 [1, 2, 3, 4, 6]).bytes
    b.take 16 = [5, 0, 0, 0, 1, 4, 0x1F, 0, 9, 0, 0, 0, 0, 0, 0, 0] ∧ slice b 48 12 = [6, 0, 0, 0, 0, 0, 0, 0, 0, 0, 0, 0] ∧
      b.length = 64 ∧ parseResetRec b = ⟨5, true, 4, 0x1F, 9, [1, 2, 3, 4, 6]⟩ ∧
      (parseResetRec (b.set 6 0x0F)).clean = false := by
  decide +kernel

/-- A forwarded DELETE at the head or at a successor, with the message it was forwarded by. -/
def fwd (head best : Bool) : Cmd :=
  { cmd0 .delete .forwarded with
    ctx := if head then some 2 else none
    chain := some { msg0 with policyBest := best }
    version := 70, path := [7] }
def ack0 (status copies : Nat) : PeerMsg := crced 2 { msg0 with status := status, copies := copies }
def forwarding (head best : Bool) : State :=
  let s := { peerUp with
    sch := { up.sch with cmds := [(0, fwd head best)], nextCmd := 1 }
    ldg := { up.ldg with level := 1000 }
    peer := { peerUp.peer with dedupe := [⟨msg0.keyHash, 70, none⟩] } }
  if head then holding (rec0 varHole false) s else s

theorem witness_ChainsDecide_acks :
    (∀ a ∈ [ack0 0 1, ack0 0 0, ack0 0x0F 0], HeardFrom (forwarding true true) 2 a 7 ∧ HeardFrom (forwarding true false) 2 a 7) ∧
      (∀ a ∈ [ack0 0 1, ack0 0 0, ack0 0x0F 0], (forwarding true true).ackedWrite 7 a = some (0, fwd true true) ∧
        (forwarding true false).ackedWrite 7 a = some (0, fwd true false)) := by
  unfold HeardFrom; decide +kernel

theorem witness_ChainsDecide_head :
    ∀ best ∈ [true, false], let s := forwarding true best
      s.sch.gate = [] ∧ s.cmd? 0 = some (fwd true best) ∧ (fwd true best).stage = .forwarded ∧
        (fwd true best).ctx = some 2 ∧ (fwd true best).chain = some { msg0 with policyBest := best } ∧ (rec0 varHole false).pinned = false ∧
        (fwd true best).op = .delete ∧ (fwd true best).conds = [] ∧
        (fwd true best).orphan = false ∧ s.recordNow (fwd true best) = some (rec0 varHole false) ∧
        s.deletePending 0 = false ∧ s.tokensWaited 0 = false ∧ s.metaAdmitted (s.pairLines 1 - (fwd true best).tokens) = true ∧ msg0.depth = 1 := by
  decide +kernel

theorem witness_ChainsDecide_successor :
    (∀ best ∈ [true, false], HeardFrom (forwarding false best) 2 (ack0 0 1) 7 ∧ (forwarding false best).sch.gate = [] ∧ (forwarding false best).peer.intake = [] ∧
      (forwarding false best).ackedWrite 7 (ack0 0 1) = some (0, fwd false best)) ∧
      (HeardFrom peerUp 2 (ack0 0 1) 7 ∧ peerUp.ackedWrite 7 (ack0 0 1) = none) ∧
      (∀ best ∈ [true, false], Tbl.wf (forwarding false best).sch.cmds = true ∧ (fwd false best).ctx = none ∧
        (forwarding false best).recordNow (fwd false best) = none) := by
  unfold HeardFrom; decide +kernel

/-- What a successor holds for a revoke of the version 50 of the key "k", which the write created. -/
def hold0 : RevokeHold := ⟨keyHash key0, key0, 50, 0, false, 7, none, []⟩
def revoking (s : State) : State := { s with peer := { s.peer with revoke := [hold0] } }
def revoke0 : PeerMsg := crced 3 { msg0 with version := 50 }
def repairReq0 (version : Nat) : PeerMsg := crced 4 { msg0 with version := version }
def waiting0 : State := revoking { peerUp with sch := { up.sch with cmds := [(0, gatedPut)] } }

theorem witness_RevokesAndRepairs_revoke :
    (HeardFrom waiting0 3 revoke0 7 ∧ waiting0.sch.gate = [] ∧ waiting0.peer.revoke = [hold0] ∧
      hold0.kh = revoke0.keyHash ∧ hold0.version = revoke0.version ∧ waiting0.gateWaiters revoke0.keyHash ≠ [] ∧
      Tbl.wf waiting0.sch.cmds = true) ∧
      (let s := revoking (holding (rec0 var1 false) peerUp)
       HeardFrom s 3 revoke0 7 ∧ s.sch.gate = [] ∧ s.gateWaiters revoke0.keyHash = [] ∧ s.idx.dir = [rec0 var1 false] ∧
        (rec0 var1 false).key = hold0.key ∧ (rec0 var1 false).variants = [(hold0.variant, var1)] ∧
        var1.version = hold0.version) ∧
      (waiting0.peer.revoke.find? (fun h => h.kh = hold0.kh && decide (h.version = 50)) = some hold0 ∧ hold0.dead = []) := by
  unfold HeardFrom; decide +kernel

/-- A repair that PEER was asked for, and the answers to it. -/
def asked0 : Repair := { repairOf segGood0 (.flash 1 0 1) none with asked := true, readers := [] }
def failed0 (failed : Nat) : Repair := { asked0 with old := { segSealed with loc := .flash 1 0 1 }, failed := failed }
def resp0 (data : Bytes) : PeerMsg := crced 5 { msg0 with version := 50, data := data, variant := 0, segIndex := 0 }
def askedState (r : Repair) : State := { peerUp with val := { up.val with repairs := [(0, r)], nextRepair := 1 } }

theorem witness_RevokesAndRepairs_repair :
    (let s := holding (rec0 var1 false) peerUp
     let revoke0 := repairReq0 50
     HeardFrom s 4 revoke0 7 ∧ s.pwr.shed.getLsbD 3 = false ∧
      dirFind s.idx.dir (padTo revoke0.keyLen revoke0.key) = some (rec0 var1 false) ∧
      tget (rec0 var1 false).variants revoke0.variant = some var1 ∧ var1.version = revoke0.version ∧
      revoke0.segIndex < segCount var1.length ∧ tget var1.segs revoke0.segIndex = some segGood0) ∧
      (peerUp.peerCtx 7 = some 16384 ∧ dirFind peerUp.idx.dir (padTo revoke0.keyLen revoke0.key) = none ∧
        ({ peerUp.pwr with shed := 8 }).shed.getLsbD 3 = true) := by
  unfold HeardFrom; decide +kernel

theorem witness_RevokesAndRepairs_answer :
    (HeardFrom (askedState asked0) 5 (resp0 [0x41, 0x41]) 7 ∧ (askedState asked0).askedRepair (resp0 [0x41, 0x41]) = some (0, asked0) ∧
        (askedState asked0).repair? 0 = some asked0 ∧ asked0.readers = [] ∧ (resp0 [0x41, 0x41]).status = 0 ∧
        [(0x41 : Byte), 0x41].length = asked0.old.logicalLen ∧ asked0.failed = 0 ∧
        ((askedState asked0).localBytes asked0).1 = .plain [0x41, 0x41] ∧ ([] : Bytes).length ≠ asked0.old.logicalLen) ∧
      (((askedState asked0).localBytes asked0).1 ≠ .plain [0x42, 0x41] ∧
        [(0x42 : Byte), 0x41].length = asked0.old.logicalLen ∧ (resp0 []).status = 0) ∧
      (∀ r ∈ [asked0, failed0 2], Tbl.wf (askedState r).val.repairs = true ∧ (askedState r).repair? 0 = some r ∧
        r.asked = true ∧ r.fixed = none ∧ r.readers = []) ∧
      (asked0.failed ≠ 2 ∧ (failed0 2).failed = 2 ∧ (failed0 2).old.sealWord = some ⟨0, 1, 5, 9⟩) ∧
      (let s := holding (rec0 varHole false) peerUp
       let m := repairReq0 51
       let revoke0 := repairReq0 50
       HeardFrom s 4 m 7 ∧ s.pwr.shed.getLsbD 3 = false ∧ s.peerCtx 7 = some 16384 ∧
        dirFind s.idx.dir (padTo m.keyLen m.key) = some (rec0 varHole false) ∧
        tget (rec0 varHole false).variants m.variant = some varHole ∧ varHole.version = m.version ∧
        varHole.version ≠ revoke0.version ∧ HeardFrom s 4 revoke0 7 ∧ s.peer.intake = [] ∧ m.segIndex < segCount varHole.length ∧
        tget varHole.segs m.segIndex = none ∧ s.sealsTransit 7 = false) := by
  unfold HeardFrom; decide +kernel

/-- A drive with superblocks of some states, and the same with a ring of the SCAVENGE class while shedding. -/
def flash0 (st : SbState) (due : Bool) : State :=
  { up with ftl := { up.ftl with
      sbs := [(3, { Sb.fresh with
        st := st, wear := 1000000, refreshDue := due, rows := 64, dueSeq := 1 })] } }
def paused (ring : Nat) : State := { up.setFld (Reg.ENG_RING_CFG_CLASS ring) 3 with pwr := { up.pwr with shed := 1 } }

theorem witness_FlashDirectives :
    (behind.dirWaits 4 ⟨4, 0⟩ = true ∧ behind.dirWaits 5 ⟨4, 0⟩ = true) ∧
    (up.upkeepPaused 4 = false ∧ up.upkeepPaused 5 = false ∧ up.dirWaits 4 d0 = false ∧ up.dirWaits 5 d0 = false ∧ up.bestCandidate 0 = none ∧ up.oldestDue = none ∧
      up.mayReclaim 3 = false ∧ sbExists 3 = true ∧ sbExists 2544 = false) ∧
      (let s := flash0 .closed true
       s.upkeepPaused 4 = false ∧ s.dirWaits 4 d0 = false ∧ s.bestCandidate 0 = some 3 ∧ s.mayReclaim 3 = true ∧ s.oldestDue = some 3 ∧ s.spreadHigh = true ∧
        s.leastWorn = some 3) ∧
      ((flash0 .unverified false).oldestUnverified 64 [] = 3 :: [] ∧ (flash0 .unverified false).failingRows 3 [] = [] ∧
        (flash0 .unverified false).failingRows 3 [(3, 5)] = 5 :: [] ∧ (flash0 .unverified false).upkeepPaused 5 = false ∧
        (flash0 .unverified false).dirWaits 5 d0 = false ∧
        (flash0 .unverified false).ftl.verifies = [] ∧ (flash0 .unverified false).ftl.moves = []) ∧
      ((flash0 .closed false).leastRead 1024 [] = [3]) ∧
      ((paused 4).upkeepPaused 4 = true ∧ (paused 5).upkeepPaused 5 = true) := by
  decide +kernel

/-! ## Witnesses: flash upkeep, dies, the Ledger, faults, records -/

/-- A table of `n` equal entries from the number `i` on. -/
def manyOf {α : Type} (a : α) : Nat → Nat → Tbl α
  | 0, _ => []
  | n + 1, i => (i, a) :: manyOf a n (i + 1)

theorem mem_manyOf {α : Type} (a : α) (n i : Nat) (e : Nat × α) (h : e ∈ manyOf a n i) :
    i ≤ e.1 ∧ e.1 < i + n ∧ e.2 = a := by
  induction n generalizing i with
  | zero => simp [manyOf] at h
  | succ n ih =>
    rcases List.mem_cons.mp h with rfl | h
    · exact ⟨Nat.le_refl _, by simp, rfl⟩
    · obtain ⟨h1, h2, h3⟩ := ih _ h
      exact ⟨by omega, by omega, h3⟩

theorem length_manyOf {α : Type} (a : α) (n i : Nat) : (manyOf a n i).length = n := by
  induction n generalizing i with
  | zero => rfl
  | succ n ih => simp [manyOf, ih]

theorem wf_manyOf {α : Type} (a : α) (n i : Nat) : Tbl.wf (manyOf a n i) = true := by
  induction n generalizing i with
  | zero => rfl
  | succ n ih => exact (Tbl.wf_cons _ _ _).mpr ⟨fun e he => (mem_manyOf a n _ e he).1, ih _⟩

theorem tget_manyOf {α : Type} (a : α) (n i k : Nat) (h : i ≤ k) (h2 : k < i + n) : tget (manyOf a n i) k = some a := by
  induction n generalizing i with
  | zero => omega
  | succ n ih =>
    show (if i = k then some a else tget (manyOf a n (i + 1)) k) = some a
    by_cases e : i = k
    · rw [if_pos e]
    · rw [if_neg e]; exact ih _ (by omega) (by omega)

theorem filter_manyOf {α : Type} (a : α) (n i : Nat) (p : Nat × α → Bool) (h : ∀ k, i ≤ k → k < i + n → p (k, a) = true) :
    (manyOf a n i).filter p = manyOf a n i :=
  List.filter_eq_self.mpr fun e he => by
    obtain ⟨h1, h2, h3⟩ := mem_manyOf a n i e he
    have := h _ h1 h2
    rwa [← h3] at this

/-- The best of a list that is not empty is one of its members. -/
theorem bestOf_mem (f : Nat → Rat) (l : List Nat) (h : l ≠ []) : ∃ k, bestOf f l = some k ∧ k ∈ l := by
  match l, h with
  | i :: rest, _ =>
    refine ⟨_, rfl, ?_⟩
    suffices ∀ (l : List Nat) (m : Nat × Rat) (S : Nat → Prop), S m.1 → (∀ x ∈ l, S x) →
        S ((l.foldl (fun m j => if m.2 < f j then (j, f j) else m) m).1) from
      this rest (i, f i) (· ∈ i :: rest) (List.mem_cons_self ..) fun x hx => List.mem_cons_of_mem _ hx
    intro l
    induction l with
    | nil => intro m S hm _; exact hm
    | cons j l ih =>
      intro m S hm hS
      refine ih _ S ?_ fun x hx => hS x (List.mem_cons_of_mem _ hx)
      show S (if m.2 < f j then (j, f j) else m).1
      split
      · exact hS j (List.mem_cons_self ..)
      · exact hm

/-- Nearly all superblocks closed, under a drive that is up. -/
def crowded : State := { up with ftl := { up.ftl with sbs := manyOf { Sb.fresh with st := .closed } 243100 0 } }

theorem crowded_sbs (s : State) (h : s.ftl.sbs = manyOf { Sb.fresh with st := .closed } 243100 0) (he : s.ftl.evacuate = []) :
    s.freeSbs = 1124 ∧ ∃ id, s.bestCandidate 0 = some id := by
  constructor
  · unfold State.freeSbs State.sbCount
    rw [h, filter_manyOf _ _ _ _ (by intro k _ _; rfl), length_manyOf]
    rfl
  · obtain ⟨k, hk, _⟩ := bestOf_mem s.score (s.candidates 0) (by
      unfold State.candidates
      rw [h, filter_manyOf]
      · exact List.cons_ne_nil _ _
      · intro k h1 h2
        have g : s.sb k = { Sb.fresh with st := .closed } := by
          unfold State.sb; rw [h, tget_manyOf _ _ _ _ h1 h2]; rfl
        simp [State.mayReclaim, g, he, Sb.fresh])
    exact ⟨k, hk⟩

theorem witness_FlashKeepsItselfUp_reclaim :
    (up.ftl.mapReady = true ∧ up.fldIn Reg.FTL_UPKEEP_CFG_FREE_FLOOR 256 4096 1200 = 1200) ∧
      (crowded.freeSbs = 1124 ∧ ∃ id, crowded.bestCandidate 0 = some id) ∧ 1200 ≤ up.freeSbs :=
  ⟨by decide +kernel, crowded_sbs _ rfl rfl, by decide +kernel⟩

/-- An SLC superblock full of data, and superblocks that wait for verification. -/
def slcFull : State :=
  { up with ftl := { up.ftl with
      sbs := [(3, { Sb.fresh with
        st := .closed, slc := true, nextQ := 10 ^ 9 })] } }
def unverified0 : State :=
  { upFld Reg.FTL_UPKEEP_CFG_VERIFY_URGENT 64 with
    ftl := { up.ftl with sbs := (List.range 64).map (fun i => (i, { Sb.fresh with st := .unverified, seq := i })) } }

theorem witness_FlashKeepsItselfUp_fold :
    (slcFull.fldIn Reg.FTL_SLC_CFG_FOLD_START_PCT 10 95 50 * slcFull.slcTargetBytes < 100 * slcFull.slcData ∧
      bestOf (fun i => -((slcFull.sb i).seq : Rat)) ((slcFull.ftl.sbs.filter fun e => e.2.slc
          && decide (e.2.stream = 0) && slcFull.mayReclaim e.1).map (·.1)) = some 3) ∧
      (slcFull.ftl.mapReady = true ∧ slcFull.pwr.shed = 0 ∧ slcFull.pwr.stage = 0 ∧ shedding.pwr.shed ≠ 0) ∧
      100 * up.slcData ≤ up.fldIn Reg.FTL_SLC_CFG_FOLD_START_PCT 10 95 50 * up.slcTargetBytes ∧
      (unverified0.fldIn Reg.FTL_UPKEEP_CFG_VERIFY_URGENT 64 960 768 ≤ unverified0.unverified ∧
        unverified0.oldestUnverified (unverified0.unverified + 1 - unverified0.fldIn Reg.FTL_UPKEEP_CFG_VERIFY_URGENT 64 960 768) []
          = [0] ∧ unverified0.failingRows 0 [] = [] ∧ unverified0.ftl.verifies = [] ∧ unverified0.ftl.moves = [] ∧
        up.unverified < up.fldIn Reg.FTL_UPKEEP_CFG_VERIFY_URGENT 64 960 768) := by
  decide +kernel

/-- A fine skein without a stitch. -/
def fine0 : Skein := ⟨true, true, 0, 3, 0, [], false, 0, []⟩
def manyFine : State :=
  { upFld Reg.FTL_MAP_CFG_DEMOTE_PCT 50 with ftl := { up.ftl with skeins := manyOf fine0 3814697 1 } }

theorem manyFine_skeins (s : State) (h : s.ftl.skeins = manyOf fine0 3814697 1) (he : s.ftl.streams = [])
    (hp : s.fldIn Reg.FTL_MAP_CFG_DEMOTE_PCT 50 100 90 = 50) :
    s.fldIn Reg.FTL_MAP_CFG_DEMOTE_PCT 50 100 90 * maxFine ≤ 100 * s.fineSkeins ∧
      (∃ k, s.leastLive = some k ∧ tget s.ftl.skeins k = some fine0) ∧ Tbl.wf s.ftl.skeins = true := by
  refine ⟨?_, ?_, h ▸ wf_manyOf _ _ _⟩
  · unfold State.fineSkeins
    rw [hp, h, filter_manyOf _ _ _ _ (by intro k _ _; rfl), length_manyOf]
    decide
  · unfold State.leastLive
    have f : (s.ftl.skeins.filter fun e => !(s.ftl.streams.any fun t => decide (t.2.skein = e.1))) = manyOf fine0 3814697 1 := by
      rw [h, he]; exact filter_manyOf _ _ _ _ (by intro k _ _; rfl)
    rw [f]
    obtain ⟨k, hk, hm⟩ := bestOf_mem (fun k => -((((tget s.ftl.skeins k).map (·.liveUnits)).getD 0 : Nat) : Rat))
      ((manyOf fine0 3814697 1).map (·.1)) (List.cons_ne_nil _ _)
    obtain ⟨e, he', rfl⟩ := List.mem_map.mp hm
    obtain ⟨h1, h2, _⟩ := mem_manyOf _ _ _ _ he'
    exact ⟨_, hk, by rw [h]; exact tget_manyOf _ _ _ _ h1 h2⟩

theorem witness_FlashKeepsItselfUp_demote :
    (manyFine.ftl.mapReady = true ∧ manyFine.idx.dir = [] ∧ (∀ e ∈ manyFine.ftl.sbs, e.2.programs = false) ∧
      fine0.liveUnits = 0 ∧ (∀ b ∈ fine0.places, (tget manyFine.ftl.holds b).getD 0 = 0) ∧ manyFine.ftl.streams = []) ∧
      manyFine.fldIn Reg.FTL_MAP_CFG_DEMOTE_PCT 50 100 90 * maxFine ≤ 100 * manyFine.fineSkeins ∧
      ((∃ k, manyFine.leastLive = some k ∧ tget manyFine.ftl.skeins k = some fine0) ∧ Tbl.wf manyFine.ftl.skeins = true) :=
  ⟨by decide +kernel, manyFine_skeins manyFine rfl rfl (by decide +kernel)⟩

/-- A record without variants on the Ledger. -/
def recLedger : DirRec := { rec0 var1 false with variants := [] }
def packing : State :=
  { up with
    idx := { up.idx with dir := [recLedger] }
    flt := { up.flt with time := 60000000000 }
    ftl := { up.ftl with streams := [(3, ⟨1, 0, none⟩)] } }
def packGated : State := { packing with sch := { up.sch with cmds := [(0, gatedPut)] } }

theorem witness_FlashKeepsItselfUp_pack :
    (packing.ftl.mapReady = true ∧ packing.packPaused = false ∧ packing.idx.dir = [recLedger] ∧
      packing.packDue = true ∧ packing.moveWaits recLedger.key none = false ∧
      packing.gateWaiters recLedger.kh = [] ∧ pageHeld recLedger = false ∧ Tbl.wf recLedger.variants = true ∧
      tget packing.ftl.streams 3 = some ⟨1, 0, none⟩ ∧ 0 + 64 * (1 + recLedger.lines) < 1048576) ∧
      (packGated.ftl.mapReady = true ∧ packGated.packPaused = false ∧ packGated.packDue = true ∧
        packGated.idx.dir = [recLedger] ∧ packGated.moveWaits recLedger.key none = false ∧
        packGated.gateWaiters recLedger.kh ≠ []) ∧
      shedding.packPaused = true ∧
      ((flash0 .closed true).mayReclaim 3 = true ∧ ((flash0 .closed true).sb 3).refreshDue = true ∧
        (flash0 .closed false).mayReclaim 3 = true ∧ ((flash0 .closed false).sb 3).refreshDue = false) ∧
      (((flash0 .unverified true).sb 3).st = .unverified ∧ (flash0 .unverified true).ftl.evacuate.contains 3 = false ∧
        ((flash0 .unverified true).sb 3).refreshDue = true) := by
  decide +kernel

/-- A superblock that is being written, with rows to program; one that waits to be erased. -/
def opened0 (filled : Nat) : State :=
  { up with ftl := { up.ftl with
      sbs := [(3, { Sb.fresh with
        st := .opened, stream := 1, rows := 4, nextQ := filled, media := [(5, zeros 4608)]
        parity := [(0, 0xFFFF, [])] })] } }
def emptied0 (wear : Nat) (work : List Upkeep) : State :=
  { up with ftl := { up.ftl with
      sbs := [(3, { Sb.fresh with
        st := .reclaiming, wear := wear })]
      upkeep := work } }
/-- A GET whose segment lies at die 0 of channel 4, where an operation may be in progress. -/
def dieGet : Cmd := reading { segGood0 with loc := .flash 1 0 1 }
def suspending (ops : Tbl DieOp) : State :=
  { withCmd0 dieGet with
    ftl := { up.ftl with
      skeins := [(1, ⟨false, true, 1, 3, 0, [], false, 0, []⟩)]
      sbs := [(3, { Sb.fresh with
        st := .closed, stream := 1, rows := 4, nextQ := 4096 })]
      dieOps := ops } }
def rebuilding0 : State := { opened0 2000 with ftl := { (opened0 2000).ftl with rebuilds := [(3, 5)] } }
def unparitied : State := { emptied0 0 [] with ftl := { (emptied0 0 []).ftl with rebuilds := [(3, 5)] } }

/-- Whether FCH may finish a program of the superblock 3 at a die. -/
def finishes (s : State) (d : Nat × Nat) : Bool := s.mayFinish (s.programTag 3 d.2) d

theorem witness_DiesReport :
    ((opened0 5000).mayProgram 3 4 = true ∧
      ([0xFFFF#16, 0x0001#16].all fun ps => ((opened0 5000).programDies 3 ps).all (finishes (opened0 5000))) = true ∧
      finishes (opened0 5000) (3 / 4096, 15) = true ∧
      (let b := (opened0 5000).sb 3
       b.done ||| (0xFFFF#16 &&& ~~~b.skipped &&& ~~~b.done) = ~~~b.skipped ∧
        b.done ||| (0x0001#16 &&& ~~~b.skipped &&& ~~~b.done) ≠ ~~~b.skipped) ∧
      (let b := (opened0 1000).sb 3
       b.slc = false ∧ b.st = .opened ∧ b.rows < 3072 ∧ b.rows * b.rowWords < (opened0 1000).filled 3 ∧
        (opened0 1000).filled 3 < (b.rows + 4) * b.rowWords)) ∧
      (let at_ := (4 * 0 + 4 % 4, 4 / 4)
       (∀ n ∈ [0, 32], let s := suspending [(dieKey at_, ⟨false, n, false⟩)]
        s.blockInReset (.fch 4) = false ∧ (tget s.ftl.dieOps (dieKey at_)).getD ⟨s.erasing at_, 0, false⟩ = ⟨false, n, false⟩ ∧
          (tget s.ftl.dieOps (dieKey at_)).isSome = true ∧ s.readAt (fun _ => true) at_ = true ∧
          decide (n < min 32 (s.fld (Reg.FCH_CH_CFG_MAX_SUSPENDS 4))) = decide (n < 32)) ∧
        up.blockInReset (.fch 4) = false ∧ up.readAt (fun _ => true) at_ = false) ∧
      (let s := opened0 2000
       5 < (s.sb 3).words ∧ s.blockInReset (.fch (s.chanOfWord 3 5)) = false ∧ tget (s.sb 3).saved 5 = none ∧
        s.wordVacant 3 5 = false ∧ s.flt.swatched = [] ∧ s.idx.rebuilding = false ∧
        s.hasParity 3 5 = true ∧ tget (s.sb 3).staged 5 = none ∧ (s.sb 3).holds 5 = true ∧ s.ftl.rebuilds.length < 64 ∧ s.ftl.rebuilds.contains (3, 5) = false) ∧
      (rebuilding0.ftl.rebuilds.contains (3, 5) = true ∧ (rebuilding0.sb 3).st ≠ .free ∧ rebuilding0.stripeBroken 3 5 = false ∧
        unparitied.ftl.rebuilds.contains (3, 5) = true ∧ unparitied.stripeBroken 3 5 = true ∧ rebuilding0.idx.dir = [] ∧
        ∀ e ∈ rebuilding0.ftl.sbs, e.2.stream = 6 → e.2.st ≠ .closed) := by
  decide +kernel

theorem witness_DiesReport_erase :
    (∀ e ∈ [(0, []), (89960, []), (0, [(⟨4, d0, 2, 0, 0, 1, 3⟩ : Upkeep)])], (emptied0 e.1 e.2).eraseEnds 3 = true ∧
      (∀ x ∈ (emptied0 e.1 e.2).emptying, x = 3) ∧ (emptied0 e.1 e.2).ftl.upkeep = e.2 ∧
      (positions (((emptied0 e.1 e.2).sb 3).vacant ||| ((emptied0 e.1 e.2).sb 3).retiring)).length ≤ 2 ∧
      (emptied0 e.1 e.2).ftl.moves = [] ∧ (emptied0 e.1 e.2).ftl.verifies = [] ∧
      (∀ x ∈ (emptied0 e.1 e.2).ftl.sbs, x.2.stream = 6 → x.2.st ≠ .closed) ∧ (emptied0 e.1 e.2).eraseSlc 3 = false ∧ ((emptied0 e.1 e.2).sb 3).wear = e.1) ∧
      (0 + 40 < 40 * up.retirePe ∧ 40 * up.retirePe ≤ 89960 + 40) ∧
      (bitOf (up.fld (Reg.FCH_CH_STATUS_DIE_FAILED 63)) 23 = false ∧
        bitOf ((upFld (Reg.FCH_CH_STATUS_DIE_FAILED 63) (2 ^ 23)).fld (Reg.FCH_CH_STATUS_DIE_FAILED 63)) 23 = true) ∧
      (up.flt.sticky.getLsbD (640 + 6 * 63 + 5) = false ∧ up.chOffline 63 = false ∧
        ({ up.flt with sticky := 1 <<< (640 + 6 * 63 + 5) }).sticky.getLsbD (640 + 6 * 63 + 5) = true) ∧
      (let s : State := { up with sch := { up.sch with credits := [(poolKey 2 0 1, (0, 3))] } }
       (s.pool 2 0 1).1 = 0 ∧ 0 < (s.pool 2 0 1).2) := by
  decide +kernel

/-- A PUT whose segment 0 goes to the Ledger line 72, whose second copy is line 200. -/
def lineSeg : Seg := seg0 0x41 2 0 (.ledger 72)
def lining : Cmd := { cmd0 .put .working with work := [(0, .writing lineSeg)] }

/-- A group that is due to move its gap, at a line. -/
def turning (gap : Nat) : State :=
  { up with ldg := { up.ldg with
      groups := [(7, { (up.lgroup 7) with
        gap := gap, sinceMove := 128 })] } }

/-- A commit that waits for two tokens, one of which the gauge holds. -/
def metaWaiting : State :=
  { withCmd0 gatedPut with
    ldg := { up.ldg with level := 1, metaQueue := [(2, some 0)] } }

/-- The journal with a map record, with room in META or with no skein left. -/
def journaled (next : Nat) : State :=
  { up with
    ldg := { up.ldg with
      kept := { up.ldg.kept with journal := [⟨1, 0x10, 0, 0, none, 3, 0, 0, []⟩], nextJseq := 2 } }
    ftl := { up.ftl with nextSkein := next } }

theorem witness_LedgerKeepsItsLines_checkpoint :
    ∀ e ∈ [(1, true), (2 ^ 40, false)], let s := journaled e.1
      let changed := (((s.ldg.kept.journal.filter fun j => decide (j.jseq < s.ldg.kept.nextJseq)).filterMap
        fun j => s.pieceOf j.kind j.target) ++ s.ftl.dirty).eraseDups
      s.ftl.mapReady = true ∧ s.blockInReset .ftl = false ∧ 1 ≤ s.ldg.kept.nextJseq ∧
        (changed.foldl (fun (m : Option State) p => m.bind fun s => s.writePiece p)
        (some (s.checkpointUsage.onFtl fun t => { t with dirty := [] }))).isSome = e.2 := by
  decide +kernel

theorem witness_LedgerKeepsItsLines :
    (∀ line ∈ [0, 200, 2 ^ 20], up.ldg.ready = true ∧ line < ledgerLinesTotal ∧ up.pwr.takeover = false ∧
      up.blockInReset .ldg = false ∧ up.ldg.dev0Failed = false ∧ up.ldg.dev1Failed = false ∧
      singleCopy (copyAOf line) = false ∧ (up.lgroup (copyAOf line % 256)).failed = false ∧
      (up.lgroup (copyAOf line % 256)).sparesUsed < groupSpares ∧ up.lineStuck (copyAOf line) = false ∧
      up.lineStuck (copyAOf line + 128) = false) ∧
      (up.fld Reg.FLT_SWATCH_CTL_ARM = 0 ∧ Tbl.wf up.ldg.lines = true) ∧
      (let s := withCmd0 lining
       (s.durLine ⟨0, 0⟩ (copyAOf 200)).isSome = true ∧ s.cmd? 0 = some lining ∧
        tget lining.work 0 = some (.writing lineSeg) ∧ s.lineSent ⟨0, 0⟩ = true ∧ s.lineStuck (copyAOf 200) = false) ∧
      State.reset.ldg.ready = false ∧
      (∀ gap ∈ [0, 250880], ((turning gap).lgroup 7).failed = false ∧
        (turning gap).gapInterval ≤ ((turning gap).lgroup 7).sinceMove ∧ ((turning gap).lgroup 7).gap = gap ∧ (turning gap).ledgerOpen = true) ∧ State.reset.ledgerOpen = false ∧
      (up.lgroup 7).sinceMove < up.gapInterval ∧
      (up.ldg.level < 2 ^ 32 ∧ up.ldg.metaQueue = [] ∧ metaWaiting.ldg.ready = true ∧ metaWaiting.ldg.level < 2 ^ 32 ∧
        metaWaiting.ldg.metaQueue = [(2, some 0)] ∧ 2 ≤ metaWaiting.ldg.level + 1 ∧ metaWaiting.cmd? 0 = some gatedPut ∧
        Tbl.wf up.recorder.lines = true ∧ (∀ e ∈ up.recorder.lines, e.2.row % recRing = e.1) ∧ up.deviceWorks 0 = true ∧ up.deviceWorks 1 = true) ∧
      (up.blockInReset .sch = false ∧ up.ldg.kept.usageCkpt.2 = up.sch.usage ∧
        up.ldg.kept.usageCkpt.2 ≠ [(5, (⟨1, 1, 0⟩ : Usage))]) ∧
      (up.ftl.mapReady = true ∧ up.blockInReset .ftl = false ∧ 1 ≤ up.ldg.kept.nextJseq) := by
  decide +kernel

theorem witness_FaultsAreCollected :
    (∀ e ∈ [(⟨0, []⟩ : Ev), ⟨131, []⟩, ⟨2, []⟩, ⟨12, []⟩], up.watched e.src = true) ∧
      (up.fld Reg.FLT_SWATCH_CTL_ARM = 0 ∧ up.flt.first = none ∧ up.rst.run = .running) ∧
      ([up.escLevel 0, up.escLevel 131, up.escLevel 2, up.escLevel 12, (upFld (Reg.FLT_SRC_REACT_LEVEL 12) 2).escLevel 12]
        = [1, 3, 4, 0, 2] ∧ eventClass 0 ≠ 0 ∧ blockOfEvent ⟨131, []⟩ = some .qpm) ∧
      (let s : State := { up with recorder := { up.recorder with regionDue := some 0 } }
       s.watched 517 = true ∧ s.recorder.regionDue.isSome = true ∧ s.escLevel 517 ≤ 2 ∧ up.recorder.regionDue = none) ∧
      (up.watched 1151 = false ∧ (⟨131, []⟩ : Ev) ∉ up.flt.raised) ∧
      ((tget up.flt.crcFails 3).getD 0 < 2 ∧ (2 : Nat) ≤ (tget [(3, 2)] 3).getD 0) ∧ (0xE7C0 : Nat) ≠ 0xE7C1 := by
  decide +kernel

/-- A record, and the recorder with it at the head of its FIFO, in fallback or not. -/
def recd0 : Rec := ⟨65537, 0, 12, 0, 0, false, false, 0, 0, 0, []⟩
def recording (ready : Bool) (f : Option Fallback) : State :=
  { up with recorder := { up.recorder with
      ready := ready, fifo := [recd0], fallback := f } }
/-- The same with the group of its line failed. -/
def stuckRec : State :=
  let s := recording true none
  { s with ldg := { s.ldg with groups := [(1, { s.lgroup 1 with stuckFrom := 0 })] } }
def fallback0 (reports : Nat) : Fallback := ⟨recd0, [], reports, 0⟩

theorem witness_RecordsAreWritten :
    (∀ e ∈ [(true, none), (false, none), (true, some (fallback0 2)), (true, some (fallback0 1))],
      let s := recording e.1 e.2
      s.recorder.fifo = recd0 :: [] ∧ s.recorder.waitFatal = [] ∧ s.recorder.coalescing = false ∧
        s.recorder.fallback = e.2 ∧ s.recorder.ready = e.1 ∧ s.ledgerOpen = true ∧ s.lineStuck (recLine recd0.row) = false) ∧
      (stuckRec.recorder.fifo = recd0 :: [] ∧ stuckRec.recorder.waitFatal = [] ∧ stuckRec.recorder.coalescing = false ∧
        stuckRec.recorder.fallback = none ∧ stuckRec.recorder.ready = true ∧ stuckRec.ledgerOpen = true ∧
        stuckRec.lineStuck (recLine recd0.row) = true ∧ Tbl.wf stuckRec.recorder.lines = true) ∧
      State.reset.ledgerOpen = false ∧ (recording true (some (fallback0 1))).lineStuck (recLine (fallback0 1).entry0.row) = false ∧
      (fallback0 1).ring.length < 511 ∧ up.recorder.fifo = [] ∧ 1 < (fallback0 2).reports ∧ (fallback0 1).reports ≤ 1 ∧
      ((fallback0 1).ring = [] ∧
        (recd0 :: [({ recd0 with row := 65538 } : Rec)]).Pairwise (fun a b => a.row % recRing ≠ b.row % recRing)) := by
  decide +kernel

/-! ## Witnesses: resets, starts, power, temperature, pins, registers -/

/-- A drive in a state of its start or reset, of a cause. -/
def running0 (run : RunState) (cause : Nat) : State :=
  { up with rst := { up.rst with
      run := run, cause := cause } }

/-- What a start finds: all regions and the banks as given. -/
def start0 (banks : List Bool) : StartIn := ⟨7, 200, [true, true, true, true, true], banks, [], []⟩

/-- The drive headless; locked whole; with a bad image bank. -/
def headless : State := { up with pins := { up.pins with imageDown := true } }
def lockedAll : State := (running0 .starting 0).setFld Reg.SYS_LOCK_ALL_ALL 1

theorem witness_ResetsAndStarts :
    (EngBlock.qpm ∈ qpmReset.sch.inReset ∧ EngBlock.qpm ∉ up.sch.inReset) ∧
      (headless.rst.run = .running ∧ headless.pins.imageDown = true ∧ up.pins.imageDown = false ∧
        CoreId.app 0 ≠ .service ∧ (0x5EC1 : Nat) ≠ 0x5EC0) ∧
      ((running0 .starting 0).fld Reg.SYS_LOCK_ALL_ALL ≠ 1 ∧ lockedAll.rst.run = .starting ∧
        lockedAll.fld Reg.SYS_LOCK_ALL_ALL = 1) ∧
      ((running0 .prelude 6).rst.run = .prelude ∧ causeDigests 6 = true ∧ up.rst.run ≠ .prelude) ∧
      (State.reset.mayStartChip = true ∧ State.reset.rst.failedStarts ≠ 3 ∧
        State.reset.bankOrder.find? (fun n => State.reset.bankStarts (start0 [true, false]).bankOk n) = some 0 ∧
        State.reset.bankOrder.find? (fun n => State.reset.bankStarts (start0 [false, false]).bankOk n) = none ∧
        objectLost (start0 [true, false]) 0 = false ∧ State.reset.ldg.level = 0 ∧ up.mayStartChip = false) ∧
      ((running0 .recovery 0).rst.run = .recovery ∧ (running0 .recovery 0).recoveryRefusal [] [] = some 2) := by
  decide +kernel

/-- In ROM recovery, a full set whose manifest is signed and whose images match is taken. -/
theorem witness_ResetsAndStarts_recovery (s : State) (m : Bytes) (h : [2, 3, 4].find? s.refuseHolds = none)
    (w : manWellFormed m = true) (g : manSigned m = true) (b : ∀ i < 4, imgBase m i = 0 ∧ imgSent m i = imgLength m i)
    (l : ([] : Bytes).length = manStream m) (r : s.sec.revoked.getLsbD (manSigner m) = false) (e : s.sec.minEpoch ≤ manEpoch m)
    (t : manTest m = false) (c : (manCompat m).contains (s.sec.setIdOf s.sec.runningBank) = true)
    (d : (s.buildSet m []).matchesManifest = true) : s.recoveryRefusal m [] = none := by
  have f : ((List.range 4).all fun i => decide (imgBase m i = 0) && decide (imgSent m i = imgLength m i)) = true := by
    rw [List.all_eq_true]
    intro i hi
    obtain ⟨x, y⟩ := b i (by simpa using hi)
    simp [x, y]
  unfold State.recoveryRefusal
  simp only [f, h, w, g, r, t, c, d, ← l]
  simp [Nat.not_lt.mpr e]

/-- A drive in a power state, with what it waits for. -/
def inPs (ps : Nat) (standby : Bool) : State :=
  { upFld Reg.PWR_PS_CFG_PS3_IDLE_S 5 with
    nfe := { up.nfe with qps := [] }
    pwr := { up.pwr with
      ps := ps, standby := standby } }
def dueOne : State :=
  { up with pwr := { up.pwr with
      domains := up.pwr.domains.set 15 .off, due := [(15, .on)] } }

def acceptedGet : Cmd := cmd0 .get .accepted

theorem witness_PowerStatesChange :
    ((inPs 0 false).pwr.ps = 0 ∧ (inPs 0 false).fld Reg.PWR_PS_CFG_PS1_IDLE_MS ≠ 0 ∧ (inPs 0 false).quiet1 = true ∧
      (inPs 0 false).engined = true) ∧
      (∀ st ∈ [true, false], (inPs 1 st).pwr.ps = 1 ∧ (inPs 1 st).fld Reg.PWR_PS_CFG_PS2_IDLE_100MS ≠ 0 ∧
        (inPs 1 st).quiet2 = true ∧ (inPs 1 st).pwr.standby = st ∧ (inPs 1 st).quiet3 = true) ∧
      (∀ st ∈ [true, false], (inPs 2 st).pwr.ps = 2 ∧ (inPs 2 st).quiet3 = true ∧ (inPs 2 st).pwr.standby = st ∧
        (inPs 2 st).fld Reg.PWR_PS_CFG_PS3_IDLE_S ≠ 0 ∧ (inPs 2 st).peersLinked = []) ∧
      (dueOne.pwr.domains.length = 30 ∧ dueOne.nextDue = some 15 ∧ Tbl.wf dueOne.pwr.due = true ∧
        up.pwr.domains.length = 30 ∧ up.nextDue = none) ∧
      (∀ s ∈ [inPs 1 false, inPs 2 true, withCmd0 acceptedGet], s.engined = true) ∧
      ((withCmd0 acceptedGet).quiet3 = false ∧ (inPs 1 false).pwr.ps < 2 ∧ phaseBit 1 = none) ∧
      (phaseBit 0 = some 0 ∧ phaseBit 25 = some 8 ∧ phaseBit 27 = some 10) := by
  decide +kernel

/-- The drive with shedding stages in force, with a command accepted, with writes held. -/
def shed0 (stages : BitVec 4) (s : State) : State := { s with pwr := { s.pwr with shed := stages } }
def acceptedPut : Cmd := cmd0 .put .accepted
def holdingWrites : State := { up with sch := { up.sch with holdWrites := true } }

theorem witness_SheddingAndHoldup :
    (up.engined = true ∧ up.pwr.shed = 0 ∧ ∀ k ∈ [1, 4], shedThreshold k - 1 < shedThreshold k) ∧
      (let s := shed0 3 (withCmd0 acceptedPut)
       s.engined = true ∧ s.pwr.shed = 3 ∧ s.cmd? 0 = some acceptedPut ∧ acceptedPut.ctx.isSome = true ∧
        acceptedPut.conds = [] ∧ acceptedPut.orphan = false) ∧
      ((shed0 3 up).shedding 2 = true ∧ (∀ j, 2 < j → j ≤ 4 → (shed0 3 up).shedding j = false) ∧
        (shed0 3 up).shedding 1 = true) ∧
      (up.pwr.p48Present = true ∧ up.pwr.auxPresent = true ∧ up.rst.run = .running ∧ (3499 : Nat) < 3500 ∧ (29 : Nat) < 30) ∧
      (holdingWrites.engined = true ∧ holdingWrites.sch.holdWrites = true ∧ holdingWrites.pwr.holdupReady = false ∧
        up.sch.holdWrites = false) := by
  refine ⟨by decide +kernel, by decide +kernel, ⟨by decide +kernel, fun j h1 h2 => ?_, by decide +kernel⟩, by decide +kernel,
    by decide +kernel⟩
  have : j = 3 ∨ j = 4 := by omega
  rcases this with rfl | rfl <;> decide +kernel

/-- A drive at a thermal stage, held or not. -/
def atStage (stage : Nat) (held : Bool) : State :=
  { up with pwr := { up.pwr with
      stage := stage, stageHeld := held } }

theorem witness_TemperatureAndClock :
    ((atStage 0 false).pwr.stage < 4 ∧ enterTemp 4 - (atStage 0 false).earlyTemp ≤ 960 ∧
      959 < enterTemp 4 - (atStage 0 false).earlyTemp) ∧
      ((atStage 3 true).pwr.stage = 3 ∧ (atStage 3 true).pwr.stageHeld = true ∧
        ¬((atStage 4 true).pwr.stageHeld = true ∧ (4 : Nat) = 3) ∧ ¬((atStage 1 false).pwr.stageHeld = true ∧ (1 : Nat) = 3)) ∧
      (up.pwr.sensorA = false ∧ up.pwr.sensorB = false ∧ sensorInRange (-440) = true ∧ sensorInRange 1200 = true ∧
        sensorInRange 1201 = false ∧ sensorInRange (-441) = false ∧ ((1200 : Int) - 1120).natAbs ≤ 80 ∧ up.pwr.stage < 3) ∧
      ((up.fld Reg.CIP_ALARM_EN_ENABLE).testBit 3 = true ∧
        ((upFld Reg.CIP_ALARM_EN_ENABLE 7).fld Reg.CIP_ALARM_EN_ENABLE).testBit 3 = false ∧
        (up.fld Reg.CIP_ALARM_EN_ENABLE).testBit 2 = true ∧
        ((upFld Reg.CIP_ALARM_EN_ENABLE 3).fld Reg.CIP_ALARM_EN_ENABLE).testBit 2 = false) := by
  decide +kernel

/-- The drive with its rails as given. -/
def rails (p48 aux : Bool) (cause : Nat) : State :=
  { running0 .off cause with pwr := { up.pwr with
      p48Present := p48, auxPresent := aux } }

theorem witness_PinsRailsAndPorts :
    (∀ c ∈ [0, 7], (rails false true c).pwr.p48Present = false ∧ (rails false true c).pwr.auxPresent = true ∧
      (rails false true c).rst.cause = c) ∧
      ((rails false false 0).pwr.auxPresent = false ∧ (rails true false 0).pwr.p48Present = true) ∧
      (up.rst.run = .running ∧ up.pins.pwrDisable = false ∧ up.pins.presentLow = true ∧ up.aonPowered = true ∧
        up.domainOn 29 = true) := by
  decide +kernel

theorem witness_RegistersAct_locks :
    (0x10000 * 4 ∈ blockBases ∧ 0x10000 * 9 ∉ blockBases) := by decide +kernel

/-- A register with fields that a read clears, one of a latch pair, and no register. -/
theorem witness_RegistersAct_reads :
    (up.coreRuns .service = true ∧ up.coreRuns (.app 0) = true) ∧
      ((0x50014 % 4 = 0 ∧ (regAt 0x50014).isSome = true ∧ (∀ p ∈ latchPairs, 0x50014 ≠ p.1 ∧ 0x50014 ≠ p.2)) ∧
        ((regAt 0x50014).any fun x => x.1.fields.any fun f => decide (f.access = .rc)) = true) ∧
      ((0x60000, 0x60004) ∈ latchPairs ∧ (regAt 0x60000).isSome = true ∧ (regAt 0x60004).isSome = true) ∧
      (goodAccess 0x50014 2 = false ∧ goodAccess 0x90000 4 = false ∧ (0x50015 % 4 ≠ 0 ∧ regAt 0x90000 = none)) := by
  decide +kernel

theorem witness_RegistersAct_sample : up.sample 0x50014 = up ∧ up.sample 0x60000 = up ∧ up.sample 0x60004 = up :=
  ⟨rfl, rfl, rfl⟩

/-- Registers with fields of each access where a write does nothing more. -/
theorem witness_RegistersAct_writes :
    (∀ e ∈ [(0x40000, Access.rw), (0x40000, .rwl), (0x20018, .w1c), (0x50010, .ro), (0x50014, .rc)],
      e.1 % 4 = 0 ∧ doorbellRing e.1 = none ∧
        (match regAt e.1 with
          | some x => x.1.fields.any fun f => decide (f.access = e.2) && up.stores e.1 f
          | none => false) = true) ∧
      (up.locked (0x40000 / 0x10000 * 0x10000) = false ∧
        (up.setFld (Reg.BLOCK_LOCK 0x40000) 1).locked (0x40000 / 0x10000 * 0x10000) = true) := by
  decide +kernel

theorem witness_RegistersAct_quiet (s : State) (v : W32) :
    s.writeActs 0x40000 v = s ∧ s.writeActs 0x20018 v = s ∧ s.writeActs 0x50010 v = s ∧ s.writeActs 0x50014 v = s :=
  ⟨rfl, rfl, rfl, rfl⟩

theorem witness_WhoMayWriteRegisters :
    (up.coreRuns .service = true ∧ up.coreRuns (.app 15) = true) ∧
      (∀ a ∈ [0x1FFFC, 0x3FFFC, 0x150018, 0x17FFFC, 0x140000, 0x30004, 0x170020, 0x40000], goodAccess a 4 = true) := by
  decide +kernel

/-! ## Well-formedness: for each check a term that it refuses -/

def ill1 : List Instr :=
  [.attest .mgmt (zeros 17) 0, .doorbell 20480 0 true [], .unsupportedRequest 20480,
    .cmReq { req0 8 5 with raw := zeros 91 }, .cmRtu 20480 (zeros 32), .cmRtu 0 (zeros 33), .cmDreq 20480,
    .connectingTimeout 20480, .descriptorAccept 20480 (zeros 128), .descriptorAccept 0 (zeros 129),
    .phaseRefetch 20480, .remoteAccessNak 20480, .transportRetryExhausted 20480, .coalesceTimer 20480,
    .cePacketReceived 20480, .cnpReceived 20480, .ccTimerExpiry 20480, .cipherJobDone none 16 true,
    .policySearch 0 [4], .ruleSearch d0 [] 0 ⟨0, [0]⟩,
    .matchStateReloaded 256, .engDoorbell 16 0 [], .engCqHeadWrite 16 0, .engRingEnable 16, .unpin d0 [],
    .unpin d0 (zeros 1025), .pin d0 [], .pin d0 (zeros 1025), .ruleWrite d0 524288 [], .ruleInsert d0 524288 0 [],
    .ruleInsert d0 0 524288 [], .ruleClear d0 524288, .ruleRead d0 524288, .keyGenerate d0 1088,
    .keyImport d0 1088 (zeros 40), .keyImport d0 0 (zeros 41), .keyRoll d0 1088, .keyErase d0 1088,
    .keyQuery d0 1088, .bufSeal d0 1088 [] 0 0 ⟨[], []⟩, .bufSeal d0 0 [] 0 0 ⟨[], [16]⟩, .bufOpen d0 (zeros 17) [] (zeros 16) 0 0 ⟨[], []⟩,
    .bufOpen d0 (zeros 16) [] (zeros 17) 0 0 ⟨[], []⟩, .bufOpen d0 (zeros 16) [] (zeros 16) 0 0 ⟨[], [16]⟩, .retiredGenRelease 1088 0, .eraseWaitExpiry 1088,
    .slotEccError 1088 .corrected, .reclaimSb d0 524288, .peerWrite d0 (zeros 65), .templateWrite d0 256 (zeros 8),
    .templateWrite d0 0 (zeros 9)]

def ill2 : List Instr :=
  [.domainLoad d0 48 (zeros 40), .domainLoad d0 0 (zeros 41), .tenantWrite d0 (zeros 65), .tenantRead d0 1024,
    .secretLoad d0 1024 (zeros 40), .secretLoad d0 0 (zeros 41), .secretClear d0 1024,
    .ownerAuth .mgmt 0 0 (zeros 33), .ownerSet .mgmt (zeros 33) 0, .keepaliveSend 20480, .peerDead 4096,
    .peerLinkRequest 4096 .a, .peerCmReq { req0 8 5 with raw := zeros 91 }, .peerCmRep 20480 ⟨0, [], [], []⟩,
    .peerCmRtu 20480 (zeros 32), .peerCmRtu 0 (zeros 33), .ledgerLineWrite 67108864 [] 0 0 none, .gapMove 256,
    .ledgerGroupFailed 256, .ledgerDeviceFailed 2, .dieReadDone 524288 0 .soft,
    .droppedStitchRebuilt 524288 0 true, .programDone 524288 ⟨0, 0⟩, .programFail 524288 0 0, .eraseDone 524288,
    .eraseFail 524288 0, .dieFailed 64 0, .dieFailed 0 24, .channelFault 64 0, .wordlinePad 524288,
    .programSuspend 64 0, .programSuspend 0 24, .refreshAuto 524288, .collectorMessage 30 true [],
    .stickyClear 36 0, .phaseLost 30 0, .shedStageEntered 5 0, .shedStageLeft 5 0, .thermalStageEntered 5 0,
    .thermalStageLeft 5 0, .blockLockSet 26, .rcFieldRead .service 4294967296, .loWordRead .service 4294967296,
    .registerWrite .service 4294967296 0 0, .registerWrite .service 0 5 0, .keyFetch 0 [],
    .keyFetch 0 (zeros 1025), .cmDrep 20480]

theorem test_wf_refuses_1 : ∀ i ∈ ill1, i.wf = false := by decide +kernel

theorem test_wf_refuses_2 : ∀ i ∈ ill2, i.wf = false := by decide +kernel

theorem test_wf_accepts :
    ∀ i ∈ [Instr.get 0, .descriptorAccept 20479 (zeros 128), .keyRoll d0 1087, .attest .mgmt (zeros 16) 4000, .pin d0 key0,
      .cmReq (req0 8 5), .dieFailed 63 23, .stickyClear 35 0], i.wf = true := by decide +kernel

/-- No row of the table gives bits: no word spells a command, and a word placed changes nothing. -/
theorem test_decodeTableWord (nbits w : Nat) (s : State) :
    decodeTableWord nbits w = none ∧ s.withFetchWord nbits w = s := ⟨rfl, rfl⟩

/-! ## Values that the spec gives -/

/-- The nine bytes of R279's check column. -/
def digits : Bytes := [0x31, 0x32, 0x33, 0x34, 0x35, 0x36, 0x37, 0x38, 0x39]

/-- R279: the check column of the table. -/
theorem test_check_values :
    crc32c digits = 0xE3069283 ∧ crc64 0 digits = 0x6C40DF5F0B497347 ∧ crc16 0 digits = 0xD0DB ∧
      checkValue 0 0 digits = 0xE3069283 ∧ checkValue 1 0 digits = 0x6C40DF5F0B497347 ∧ checkValue 2 0 digits = 0xD0DB := by
  decide +kernel

/-- The worked example of 06_index_and_express_path.md: KH 0x0000_2A5B_1E83_A95F. -/
theorem test_index_example :
    let kh : W64 := 0x00002A5B1E83A95F
    fpOf kh = 2 ∧ bucket1 kh = 0x1E83A95F ∧ bucket2 kh = 0x0425C44C ∧ otherBucket (bucket2 kh) (fpOf kh) = bucket1 kh ∧
      mbucket1 kh = 0xA96C ∧ mbucket2 kh = 0x03A95F := by
  decide +kernel

/-- The worked example of 11_flash_layout_and_mapping.md: codeword 524,284 of superblock 152,757 lies at position 15, on
CH61, die 9, and the next row begins at position 0, on CH01. -/
theorem test_flash_example :
    let b : Sb := { Sb.fresh with
      layoutR := true }
    b.rowWords = 256 ∧ b.posOf 524284 = 15 ∧ chanOf 152757 15 = 61 ∧ dieNoOf 152757 = 9 ∧ b.posOf 524288 = 0 ∧
      chanOf 152757 0 = 1 ∧ locWord (.flash 0xA351E8 0xFC100 0x401) = 0x10040A351E8FC100 := by
  decide +kernel

/-- The example of R24 in 01_architecture.md: SCH (0), VAL and PEER (3) request with the pointer at 2, then at 0. -/
theorem test_round_robin_example : roundRobin 2 [0, 1, 3] = some 3 ∧ roundRobin 0 [0, 1] = some 0 := by decide

/-- R64: the bytes of a tenant record give back the tenant. -/
theorem test_tenant_record : tenantIdOf (tenantBytes 0x2A ⟨1, 0, 16000000, 0, 0⟩ ⟨7, 8, 9⟩) = 0x2A ∧
    parseTenant (tenantBytes 0x2A ⟨1, 0, 16000000, 0, 0⟩ ⟨7, 8, 9⟩) = ⟨1, 0, 16000000, 0, 0⟩ := by decide +kernel

/-- FIPS-197, C.3: the cipher behind R300's AES-256. -/
theorem test_aes256_block :
    aesEncrypt (roundKeys kek0) ((List.range 16).map (fun i => BitVec.ofNat 8 (17 * i)))
      = [0x8E, 0xA2, 0xB7, 0xCA, 0x51, 0x67, 0x45, 0xBF, 0xEA, 0xFC, 0x49, 0x90, 0x4B, 0x49, 0x60, 0x89] := by
  decide +kernel

/-! ## First steps after reset -/

/-- A start with a good bank from the state after reset leaves the drive starting, with its versions one above the stored
ceiling of 2^24 + 1 (R172, R479). -/
theorem test_first_start :
    (match exec (.chipStart (start0 [true, false])) State.reset with
      | .next t => decide (t.rst.run = .starting) && decide (t.sch.nextVersion = 2 ^ 24 + 1)
      | _ => false) = true := by
  decide +kernel

/-- A GET of an absent key ends with NOT_FOUND (R140, R143). -/
theorem test_get_absent :
    (match exec (.get 0) (withCmd0 getAbsent) with
      | .next t => decide (((t.cmd? 0).bind (·.outcome)).map (·.status) = some .notFound)
      | _ => false) = true := by
  decide +kernel

/-- A doorbell of a ring that is not enabled takes the tail and issues nothing (R11, R456). -/
theorem test_doorbell_closed_ring :
    (match exec (.engDoorbell 1 1 [zeros 128]) State.reset with
      | .next t => decide ((t.ring 1).sqTail = 1 ∧ (t.ring 1).queue = [])
      | _ => false) = true := by
  decide +kernel

end Sys2Proof.Tests
end

section
/-! PROOFS. The family 00_scope.md: the state after reset (O3), and the register accesses (O59). -/

namespace Sys2Proof.Machine

/-! ## The state after reset -/

/-- Both sparse stores start empty, which is canonical. -/
theorem canonical_reset : Canonical State.reset := ⟨rfl, rfl⟩

/-- No register word is listed after reset, so that each reads as its Cold column (R14, R449). -/
theorem reg_reset (a : Nat) : State.reset.reg a = coldAt a := by
  have hlist : State.reset.regs = [] := rfl
  simp [State.reg, hlist]

/-- Settles O3: the two stores and the register words by their own lemmas; each other clause is a field that the state
after reset spells out. -/
theorem resetIsCanonical : Obligations.ResetIsCanonical :=
  ⟨canonical_reset, rfl, reg_reset, rfl, rfl, rfl, rfl, rfl, rfl, rfl, rfl, rfl, rfl⟩

/-! ## A read that clears, over a register table that is not canonical

O59 speaks of every state, where the laws of stored registers (`State.reg_setReg_self`) need the register table in its
canonical form. A word set to its Cold value is removed from the table; where the table lists it twice, the second entry
comes to light. -/

/-- The register QPM_ERR_STAT: two counters that a read clears (R603). -/
def qpmErrStat : RegDesc := ⟨0x50014, 0, 1, [⟨31, 16, .rc, .zero, .zero⟩, ⟨15, 0, .rc, .zero, .zero⟩]⟩

theorem regAt_qpmErrStat : regAt 0x50014 = some (qpmErrStat, 0) := by decide +kernel

/-- The drive running, with QPM_ERR_STAT listed twice in its register table, each time with one PHASE_REFETCH counted. -/
def errStatTwice : State :=
  { State.reset with
    rst := { State.reset.rst with run := .running }
    regs := [(0x50014, 1), (0x50014, 1)] }

theorem not_canonical_errStatTwice : ¬ Canonical errStatTwice := fun ⟨_, hwf⟩ => Bool.false_ne_true hwf

/-- The read goes through, and samples nothing. -/
theorem exec_rcFieldRead_errStatTwice :
    exec (.rcFieldRead .service 0x50014) errStatTwice = .next (errStatTwice.readReg .service 0x50014) := rfl

/-- After the read the second entry answers: the counter still reads 1. -/
theorem fld_readReg_errStatTwice :
    (errStatTwice.readReg .service 0x50014).fld Reg.QPM_ERR_STAT_PHASE_REFETCHES = 1 := by decide +kernel

/-- Refutes O59: `errStatTwice` lists QPM_ERR_STAT twice, and RC_FIELD_READ of it leaves the RC field PHASE_REFETCHES at 1
where the clause on reads asks for 0. The statement does not ask that the register table be canonical. -/
theorem not_registersAct : ¬ Obligations.RegistersAct := by
  unfold Obligations.RegistersAct
  rintro ⟨-, -, hreads, -, -⟩
  obtain ⟨hclears, -, -⟩ := hreads errStatTwice errStatTwice (.rcFieldRead .service 0x50014) .service 0x50014 0 qpmErrStat
    (.inl rfl) rfl rfl regAt_qpmErrStat rfl
  obtain ⟨t, hexec, -, hrc, -, -⟩ := hclears (by decide)
  have ht : errStatTwice.readReg .service 0x50014 = t := by
    rw [exec_rcFieldRead_errStatTwice] at hexec
    exact Host.Outcome.next.inj hexec
  have hcleared : t.fld Reg.QPM_ERR_STAT_PHASE_REFETCHES = 0 := hrc ⟨15, 0, .rc, .zero, .zero⟩ (by simp [qpmErrStat]) rfl
  have hstays : t.fld Reg.QPM_ERR_STAT_PHASE_REFETCHES = 1 := ht ▸ fld_readReg_errStatTwice
  omega

end Sys2Proof.Machine
end

section
/-! PROOFS. The family 01_architecture.md: the supervision of the System Image (O9), shifts and reads of the match engine
(O32), and the block reset of MATCH_CASCADE (O54). -/

namespace Sys2Proof.Machine

/-! ## Frames and directives -/

/-- What a chain of operations admits is its frame. -/
theorem Keeps.onlyChanges {ps : List Part} {o s : State} (h : Keeps (· ∈ ps) o s) : OnlyChanges ps o s := h.same

/-- A set-up directive that is held back changes nothing. -/
theorem State.setUp_of_heldBack {s : State} {ring : Nat} {d : Dir} (h : s.heldBack ring d = true) (f : State → State) :
    s.setUp ring d f = s := by
  simp [State.setUp, h]

/-- A set-up directive that is not held back acts. -/
theorem State.setUp_of_not_heldBack {s : State} {ring : Nat} {d : Dir} (h : s.heldBack ring d = false)
    (f : State → State) : s.setUp ring d f = f s := by
  simp [State.setUp, h]

/-! ## The System Image (R38, R39, R41, R465) -/

/-- While HOLD is 1, a directive that ENG had not issued before is held back. -/
theorem State.heldBack_of_hold {s : State} {ring : Nat} {d : Dir} (hold : s.fld Reg.ENG_HOLD_HOLD = 1)
    (new : (s.ring ring).issued.any (fun i => decide (i.etag = d.etag)) = false) : s.heldBack ring d = true := by
  simp [State.heldBack, State.hasIssued, hold, new]

/-- A missed heartbeat counted and raised, before the service cores act on it. -/
def State.countMissed (s : State) : State :=
  (s.onPins fun p => { p with missed := s.pins.missed + 1 }).raise 4 (item4 (s.pins.missed + 1))

theorem exec_heartbeat {s : State} (running : s.pins.imageDown = false) :
    exec .heartbeat s = .next (s.onPins fun p => { p with missed := 0 }) := by
  show execHeartbeat s = _
  simp [execHeartbeat, running]

theorem exec_heartbeatMissed {s : State} (running : s.pins.imageDown = false) (awake : s.pwr.ps ≠ 3)
    (up : s.rst.run = .running) :
    exec .heartbeatMissed s = .next (if 4 ≤ s.pins.missed then s.countMissed.stopImage else s.countMissed) := by
  show execHeartbeatMissed s = _
  simp [execHeartbeatMissed, running, awake, up, State.countMissed]

/-- HOLD reads the bit that was set. -/
theorem State.fld_hold_setFld (s : State) (v : Nat) (hw : Tbl.wf s.regs = true) :
    (s.setFld Reg.ENG_HOLD_HOLD v).fld Reg.ENG_HOLD_HOLD = v % 2 :=
  State.fld_setFld_self s Reg.ENG_HOLD_HOLD v hw (by decide)

/-- The state as ENG_ATTACH leaves it, before the set-up rings go on. -/
def State.attached (s : State) : State :=
  (s.setFld Reg.ENG_HOLD_HOLD 0).onPins fun p => { p with imageDown := false, missed := 0 }

theorem exec_engAttachWrite_attach {s : State} (stays : s.session.reverting = false) :
    exec (.engAttachWrite 0xA77A) s = .next s.attached.pump := by
  have session : s.attached.pump.session = s.session :=
    (keeps_pump (r := (· ≠ .session)) (Keeps.refl _ s.attached) (by simp) (by simp) (by simp) (by simp)).same .session
      (by simp)
  show execEngAttachWrite 0xA77A s = _
  simp only [execEngAttachWrite, State.attachWrite, decide_true, guardStep_true]
  rw [if_neg]
  · rfl
  · show ¬ (s.attached.pump.session.reverting && _) = true
    simp [session, stays]

theorem exec_engAttachWrite_other {code : Nat} (h : code ≠ 0xA77A) (s : State) :
    exec (.engAttachWrite code) s = .next s := by
  show execEngAttachWrite code s = _
  simp [execEngAttachWrite, State.attachWrite, h]

theorem attached_onlyChanges (s : State) : OnlyChanges [.reg Reg.ENG_HOLD_HOLD.addr, .pins] s s.attached :=
  (keeps_onPins _ (keeps_setFld _ _ (Keeps.refl _ s) (by simp)) (by simp)).onlyChanges

/-- Settles O9: each command by its own equation; a held-back directive by `State.heldBack_of_hold`. -/
theorem imageSupervised : Obligations.ImageSupervised := by
  refine ⟨fun s running => ⟨_, exec_heartbeat running, rfl, ?_⟩,
    fun s ⟨_, regs⟩ running awake up => ⟨_, exec_heartbeatMissed running awake up, ?_⟩,
    fun s ⟨_, regs⟩ stays => ⟨s.attached, exec_engAttachWrite_attach stays, s.fld_hold_setFld 0 regs, rfl,
      attached_onlyChanges s⟩,
    fun s code h => exec_engAttachWrite_other h s, fun s d c hold which => ?_⟩
  · exact (keeps_onPins _ (Keeps.refl _ s) (by simp)).onlyChanges
  · by_cases fifth : 4 ≤ s.pins.missed
    · rw [if_pos fifth]
      exact ⟨rfl, rfl, by simp [fifth, State.stopImage], fun _ => s.countMissed.fld_hold_setFld 1 regs, by omega⟩
    · rw [if_neg fifth]
      exact ⟨rfl, rfl, by simp [fifth, State.countMissed, running], by omega, fun _ => rfl⟩
  · have held {ring : Nat} (new : (s.ring ring).issued.any (fun i => decide (i.etag = d.etag)) = false)
        (f : State → State) : Host.Outcome.next (s.setUp ring d f) = (.next s : Host.Outcome State Fault Refusal) :=
      congrArg _ (State.setUp_of_heldBack (State.heldBack_of_hold hold new) f)
    obtain ⟨key, new, rfl | rfl⟩ | ⟨pos, recs, new, rfl⟩ | ⟨a, n, g, f, b, new, rfl⟩ | ⟨n, new, rfl | rfl⟩ |
      ⟨b, new, rfl⟩ | ⟨b, new, rfl⟩ := which <;> exact held new _

/-! ## Tables: filters by number, joins, entries moved one place up -/

theorem tget_append {α : Type} (t u : Tbl α) (n : Nat) : tget (t ++ u) n = (tget t n).or (tget u n) := by
  induction t with
  | nil => rfl
  | cons e t ih =>
    simp only [List.cons_append, tget]
    split
    · rfl
    · exact ih

/-- A filter that looks at the number alone. -/
theorem tget_filter {α : Type} (p : Nat → Bool) (t : Tbl α) (n : Nat) :
    tget (t.filter fun e => p e.1) n = if p n then tget t n else none := by
  induction t with
  | nil => simp
  | cons e t ih =>
    by_cases hn : e.1 = n
    · subst hn
      cases hp : p e.1
      · simp [hp, ih]
      · simp [hp, tget]
    · cases hp : p e.1 <;> simp [hp, tget, hn, ih]

/-- Entries moved one place up. -/
theorem tget_map_succ {α : Type} (t : Tbl α) (n : Nat) : tget (t.map fun e => (e.1 + 1, e.2)) (n + 1) = tget t n := by
  induction t with
  | nil => rfl
  | cons e t ih => simp [tget, ih]

theorem tget_map_succ_zero {α : Type} (t : Tbl α) : tget (t.map fun e => (e.1 + 1, e.2)) 0 = none := by
  induction t with
  | nil => rfl
  | cons e t ih => simp [tget, ih]

/-- Entries of a list set from its end on: the first of a number stands. -/
theorem tget_foldr_tset {α : Type} (l t : Tbl α) (n : Nat) :
    tget (l.foldr (fun e t => tset t e.1 e.2) t) n = (tget l n).or (tget t n) := by
  induction l with
  | nil => rfl
  | cons e l ih =>
    by_cases h : e.1 = n
    · simp [tget, h]
    · simp [tget, h, Ne.symm h, ih]

/-- The numbers of a well-formed table rise. -/
theorem Tbl.pairwise_of_wf {α : Type} (t : Tbl α) (h : Tbl.wf t = true) : t.Pairwise (fun e f => e.1 < f.1) := by
  induction t with
  | nil => exact .nil
  | cons e t ih =>
    obtain ⟨below, rest⟩ := (Tbl.wf_cons e.1 e.2 t).mp h
    exact .cons below (ih rest)

/-! ## Writes to the dies (R244) -/

/-- With no swatch armed, no write is named. -/
theorem State.swatch_unarmed {s : State} (h : s.fld Reg.FLT_SWATCH_CTL_ARM = 0) (target addr : Nat) :
    s.swatch target addr = (none, s) := by
  simp [State.swatch, h]

/-- With no swatch armed, an entry lies on its die as it was written. -/
theorem State.dieWrite_unarmed {s : State} (h : s.fld Reg.FLT_SWATCH_CTL_ARM = 0) (p : Nat) (r : Rule) :
    s.dieWrite p r = s.onMch fun m => { m with rules := tset m.rules p r } := by
  simp only [State.dieWrite, State.swatch_unarmed h]

/-- So it is for entries written in a row. -/
theorem State.foldl_dieWrite_unarmed (l : Tbl Rule) {s : State} (h : s.fld Reg.FLT_SWATCH_CTL_ARM = 0) :
    l.foldl (fun s e => s.dieWrite e.1 e.2) s
      = s.onMch fun m => { m with rules := l.foldl (fun t e => tset t e.1 e.2) s.mch.rules } := by
  induction l generalizing s with
  | nil => rfl
  | cons e l ih =>
    rw [List.foldl_cons, State.dieWrite_unarmed h, ih]
    · rfl
    · exact h

/-! ## Shifts (R246, R247) -/

/-- Outside the places that the moved entries take, none of them stands. -/
theorem tget_moved_outside {t : Tbl Rule} {lo hi x : Nat} (h : x ≤ lo ∨ hi < x) :
    tget ((t.filter fun e => decide (lo ≤ e.1) && decide (e.1 < hi)).map fun e => (e.1 + 1, e.2)) x = none := by
  cases x with
  | zero => exact tget_map_succ_zero _
  | succ x => rw [tget_map_succ, tget_filter (fun k => decide (lo ≤ k) && decide (k < hi)), if_neg (by simp; omega)]

/-- Below the moved entries a table stays. -/
theorem tget_shiftTable_below {t : Tbl Rule} {lo hi x : Nat} (h : x < lo) (range : lo ≤ hi) :
    tget (shiftTable t lo hi) x = tget t x := by
  rw [shiftTable, tget_append, tget_append, tget_moved_outside (.inl h.le),
    tget_filter (fun k => decide (k ≤ lo) && decide (k < hi)), tget_filter (fun k => decide (hi < k)),
    if_pos (by simp; omega), if_neg (by simp; omega)]
  simp

/-- Above the moved entries a table stays. -/
theorem tget_shiftTable_above {t : Tbl Rule} {lo hi x : Nat} (h : hi < x) :
    tget (shiftTable t lo hi) x = tget t x := by
  rw [shiftTable, tget_append, tget_append, tget_moved_outside (.inr h),
    tget_filter (fun k => decide (k ≤ lo) && decide (k < hi)), tget_filter (fun k => decide (hi < k)),
    if_neg (by simp; omega), if_pos (by simp; omega)]
  simp

/-- A moved entry stands one place higher. -/
theorem tget_shiftTable_moved {t : Tbl Rule} {lo hi x : Nat} (above : lo ≤ x) (below : x < hi) :
    tget (shiftTable t lo hi) (x + 1) = tget t x := by
  rw [shiftTable, tget_append, tget_append, tget_map_succ, tget_filter (fun k => decide (k ≤ lo) && decide (k < hi)),
    tget_filter (fun k => decide (lo ≤ k) && decide (k < hi)), tget_filter (fun k => decide (hi < k)),
    if_neg (by simp; omega), if_pos (by simp; omega), if_neg (by simp; omega)]
  simp

/-- The entries on the dies once the moves of a shift are made: what was moved is written again from the shadow. -/
def State.movedRules (s : State) (p cursor : Nat) : Tbl Rule :=
  if p < cursor then
    ((shiftTable s.mch.shadow p cursor).filter fun e => decide (p < e.1) && decide (e.1 ≤ cursor)).foldr
      (fun e t => tset t e.1 e.2) (shiftTable s.mch.rules p cursor)
  else shiftTable s.mch.rules p cursor

/-- All the moves that a shift has left. -/
theorem State.moveShift_all {s : State} {h : Shift} (unarmed : s.fld Reg.FLT_SWATCH_CTL_ARM = 0)
    (range : h.p ≤ h.cursor) :
    s.moveShift h (h.cursor - h.p) = s.onMch fun m => { m with
      shadow := shiftTable m.shadow h.p h.cursor, rules := s.movedRules h.p h.cursor, shift := some { h with cursor := h.p } } := by
  have lo : max h.p (h.cursor - (h.cursor - h.p)) = h.p := by omega
  simp only [State.moveShift, lo, State.movedRules]
  split
  · rw [State.foldl_dieWrite_unarmed, List.foldl_reverse]
    · rfl
    · exact unarmed
  · rfl

/-- A finished shift: the moves, then the new entry at p. -/
theorem State.finishShift_unarmed {s : State} {h : Shift} (unarmed : s.fld Reg.FLT_SWATCH_CTL_ARM = 0)
    (range : h.p ≤ h.cursor) :
    s.finishShift h = s.onMch fun m => { m with
      shadow := tset (shiftTable m.shadow h.p h.cursor) h.p h.rule
      rules := tset (s.movedRules h.p h.cursor) h.p h.rule
      shift := none } := by
  rw [State.finishShift, State.moveShift_all unarmed range, State.putRule, State.dieWrite_unarmed]
  · rfl
  · exact unarmed

/-- Where the dies hold what the shadow holds, each entry that a shift moves stands one place higher. -/
theorem State.tget_movedRules_moved {s : State} {p cursor x : Nat} (above : p ≤ x) (below : x < cursor)
    (same : tget s.mch.shadow x = tget s.mch.rules x) :
    tget (s.movedRules p cursor) (x + 1) = tget s.mch.rules x := by
  rw [State.movedRules, if_pos (by omega), tget_foldr_tset,
    tget_filter (fun k => decide (p < k) && decide (k ≤ cursor)), if_pos (by simp; omega),
    tget_shiftTable_moved above below, tget_shiftTable_moved above below, same, Option.or_self]

/-- The other entries stay. -/
theorem State.tget_movedRules_outside {s : State} {p cursor x : Nat} (range : p ≤ cursor) (h : x < p ∨ cursor < x) :
    tget (s.movedRules p cursor) x = tget s.mch.rules x := by
  have stays : tget (shiftTable s.mch.rules p cursor) x = tget s.mch.rules x :=
    h.elim (tget_shiftTable_below · range) tget_shiftTable_above
  rw [State.movedRules]
  split
  · rw [tget_foldr_tset, tget_filter (fun k => decide (p < k) && decide (k ≤ cursor)), if_neg (by simp; omega), stays]
    rfl
  · exact stays

/-- With nothing waiting behind a shift, nothing goes on after it. -/
theorem State.afterShift_idle {s : State} (loads : s.mch.waitLoad = []) (shifts : s.mch.waitShift = [])
    (reads : s.mch.scrubDue = []) : s.afterShift = s := by
  have loads' : (s.onMch fun m => { m with waitLoad := [] }) = s := by
    simp only [State.onMch, ← loads]
  have reads' : (s.onMch fun m => { m with scrubDue := m.scrubDue.filter s.writePending }) = s := by
    simp only [State.onMch, reads, List.filter_nil]
    simp only [← reads]
  simp only [State.afterShift, loads, State.runWaitLoads, loads', shifts, List.length_nil, State.nextShift, State.scrubLate,
    reads', reads, List.filter_nil, List.foldl_nil]

/-- A directive that completes leaves the match engine alone. -/
@[simp] theorem State.finish_mch (s : State) (ring : Nat) (d : Dir) (es : Nat) (b : Bytes) :
    (s.finish ring d es b).mch = s.mch :=
  (keeps_finish (r := (· ≠ .mch)) ring d es b (Keeps.refl _ s) (by simp) (by simp) (by simp) (by simp)).same .mch (by simp)

theorem exec_shiftComplete {s : State} {h : Shift} (runs : s.mch.shift = some h) :
    exec .shiftComplete s = .next (s.completeShift h) := by
  show execShiftComplete s = _
  simp [execShiftComplete, runs]

/-- LOAD_GEN rises modulo 128. -/
theorem State.loadGen_loaded {s : State} (canon : Tbl.wf s.regs = true) :
    s.loaded.fld Reg.MCH_STATUS_LOAD_GEN = (s.fld Reg.MCH_STATUS_LOAD_GEN + 1) % 128 := by
  rw [State.loaded, State.fld_setFld_self _ _ _ canon (by decide)]
  exact Nat.mod_mod _ _

/-! ## Searches (R239, R247, R249, R251) -/

/-- The entries that one issue of a search finds. -/
def hitsOf (rules : Tbl Rule) (word : List (BitVec 320)) (start : Nat) : Tbl Rule :=
  rules.filter fun e => decide (start ≤ e.1) && e.2.matchesWord word

theorem mem_hitsOf {rules : Tbl Rule} {word : List (BitVec 320)} {start : Nat} {e : Nat × Rule} :
    e ∈ hitsOf rules word start ↔ e ∈ rules ∧ start ≤ e.1 ∧ e.2.matchesWord word = true := by
  simp [hitsOf]

theorem searchOnce_eq (rules : Tbl Rule) (word : List (BitVec 320)) (start : Nat) :
    searchOnce rules word start
      = ⟨(hitsOf rules word start).head?, decide (1 < (hitsOf rules word start).length)⟩ := rfl

/-- With no entry at or after START that matches, a search finds nothing. -/
theorem searchOnce_none {rules : Tbl Rule} {word : List (BitVec 320)} {start : Nat}
    (h : ∀ e ∈ rules, start ≤ e.1 → e.2.matchesWord word = false) : searchOnce rules word start = ⟨none, false⟩ := by
  have empty : hitsOf rules word start = [] := List.eq_nil_iff_forall_not_mem.mpr fun e he => by
    obtain ⟨mem, after, hit⟩ := mem_hitsOf.mp he
    simp [h e mem after] at hit
  simp [searchOnce_eq, empty]

/-- The lowest entry at or after START that matches stands at the head of what a search finds. -/
theorem hitsOf_eq_cons {rules : Tbl Rule} (rise : rules.Pairwise fun e f => e.1 < f.1)
    {word : List (BitVec 320)} {start : Nat} {e : Nat × Rule} (hit : e ∈ hitsOf rules word start)
    (least : ∀ f ∈ hitsOf rules word start, e.1 ≤ f.1) :
    ∃ rest, hitsOf rules word start = e :: rest ∧ ∀ f ∈ rest, e.1 < f.1 := by
  have rise : (hitsOf rules word start).Pairwise (fun e f => e.1 < f.1) := rise.filter _
  generalize hitsOf rules word start = hits at *
  match hits, rise with
  | a :: rest, .cons below _ =>
    rcases List.mem_cons.mp hit with rfl | later
    · exact ⟨rest, rfl, below⟩
    · exact absurd (below e later) (Nat.not_lt.mpr (least a (List.mem_cons_self ..)))

/-- A search finds the lowest entry at or after START that matches, and says whether there is another. -/
theorem searchOnce_least {rules : Tbl Rule} (rise : rules.Pairwise fun e f => e.1 < f.1)
    {word : List (BitVec 320)} {start : Nat} {e : Nat × Rule} (hit : e ∈ hitsOf rules word start)
    (least : ∀ f ∈ hitsOf rules word start, e.1 ≤ f.1) :
    (searchOnce rules word start).hit = some e ∧
      ((searchOnce rules word start).multi = true ↔ ∃ f ∈ hitsOf rules word start, f.1 ≠ e.1) := by
  obtain ⟨rest, eq, above⟩ := hitsOf_eq_cons rise hit least
  rw [searchOnce_eq, eq]
  refine ⟨rfl, ?_⟩
  cases rest with
  | nil => simp
  | cons f rest => simpa using .inl (above f (List.mem_cons_self ..)).ne'

/-- A search whose checks all hold is issued once and rewrites nothing. -/
theorem State.search_of_checks {s : State} {mask : Nat}
    (checks : ∀ e ∈ s.checkedRules mask, e.2.checksHold = true ∧ e.2.actionHolds = true) (word : List (BitVec 320))
    (start fuel : Nat) : s.search word start mask (fuel + 1) = (searchOnce (s.enabledRules mask) word start, s) := by
  have entries : ((s.checkedRules mask).filter fun e => !e.2.checksHold) = [] := List.filter_eq_nil_iff.mpr fun e he => by
    simp [checks e he]
  have winner : ∀ e, (searchOnce (s.enabledRules mask) word start).hit = some e → e.2.actionHolds = true := fun e he =>
    (checks e (List.mem_of_mem_filter (List.mem_of_mem_filter (List.mem_of_mem_head? he)))).2
  simp only [State.search, entries, List.map_nil]
  cases hit : (searchOnce (s.enabledRules mask) word start).hit with
  | none => rfl
  | some e => simp [winner e hit]

/-- A RULE_SEARCH answers with the entry that the search finds, or with no hit (R239, R609). -/
theorem exec_ruleSearch {s : State} {d : Dir} {word : Bytes} {start mask : Nat} {parity : List Nat}
    {segs : List (BitVec 320)} (small : start < 2 ^ 19) (free : s.heldBack 1 d = false)
    (turn : s.searchTurn false 2 = true)
    (checks : ∀ e ∈ s.checkedRules mask, e.2.checksHold = true ∧ e.2.actionHolds = true)
    (cut : segs = (List.range s.ruleSegs).map (fun i => BitVec.ofNat 320 (fieldAt word (40 * i) 40)))
    (good : (parityDies parity).length < 2) :
    ((searchOnce (s.enabledRules mask) segs start).hit = none →
      exec (.ruleSearch d word start ⟨mask, parity⟩) s = .next ((s.grantSearch false 2).finish 1 d esDone
        (zeros 2 ++ leBytes 1 (s.fld Reg.MCH_STATUS_LOAD_GEN)))) ∧
    (∀ p r, (searchOnce (s.enabledRules mask) segs start).hit = some (p, r) →
      exec (.ruleSearch d word start ⟨mask, parity⟩) s = .next ((s.grantSearch false 2).finish 1 d esDone
        (leBytes 1 1 ++ leBytes 1 (if (searchOnce (s.enabledRules mask) segs start).multi then 1 else 0) ++
          leBytes 1 (s.fld Reg.MCH_STATUS_LOAD_GEN) ++ zeros 1 ++ leBytes 4 p ++ padTo 16 r.action))) := by
  have found : (s.grantSearch false 2).search segs start mask (s.grantSearch false 2).searchFuel
      = (searchOnce (s.enabledRules mask) segs start, s.grantSearch false 2) :=
    State.search_of_checks (s := s.grantSearch false 2) checks segs start _
  have gen : (s.grantSearch false 2).fld Reg.MCH_STATUS_LOAD_GEN = s.fld Reg.MCH_STATUS_LOAD_GEN := rfl
  refine ⟨fun hit => ?_, fun p r hit => ?_⟩ <;> show execRuleSearch d word start ⟨mask, parity⟩ s = _ <;>
    simp only [execRuleSearch, State.setUp_of_not_heldBack free, turn, guardStep_true, Nat.not_le.mpr good, if_false,
      Nat.mod_eq_of_lt small, ← cut, found, hit, gen]

/-- Two parity failures in a row end a RULE_SEARCH with the event of the second die (R255, R265). -/
theorem exec_ruleSearch_parity {s : State} {d : Dir} {parity : List Nat} {d1 d2 : Nat} {more : List Nat}
    (free : s.heldBack 1 d = false) (turn : s.searchTurn false 2 = true) (twice : parityDies parity = d1 :: d2 :: more)
    (word : Bytes) (start mask : Nat) :
    exec (.ruleSearch d word start ⟨mask, parity⟩) s = .next ((s.grantSearch false 2).raise 323 (item1 d2)) := by
  show execRuleSearch d word start ⟨mask, parity⟩ s = _
  simp [execRuleSearch, State.setUp_of_not_heldBack free, turn, twice, State.matchParity]

/-- RULE_READ of a valid entry (R242, R609). -/
theorem exec_ruleRead {s : State} {d : Dir} {pos : Nat} {r : Rule} (free : s.heldBack 1 d = false) (small : pos < 2 ^ 19)
    (inside : pos < s.rulePositions) (valid : tget s.mch.rules pos = some r) :
    exec (.ruleRead d pos) s = .next (s.finishExt 1 d (recordsOfRule r)
      (leBytes 1 (if r.checksHold && r.actionHolds then 0 else 1))) := by
  show execRuleRead d pos s = _
  simp only [execRuleRead, State.setUp_of_not_heldBack free, Nat.mod_eq_of_lt small, Nat.not_le.mpr inside, if_false, valid]

/-! ## O32 -/

/-- The clause on shifts: SHIFT_COMPLETE moves the block up, puts the new entry at p and answers DONE. -/
theorem shift_completes {s : State} {h : Shift} (runs : s.mch.shift = some h)
    (unarmed : s.fld Reg.FLT_SWATCH_CTL_ARM = 0) (canon : Canonical s) (range : h.p ≤ h.cursor)
    (same : ∀ x, h.p ≤ x → x < h.cursor → tget s.mch.shadow x = tget s.mch.rules x)
    (loads : s.mch.waitLoad = []) (shifts : s.mch.waitShift = []) (reads : s.mch.scrubDue = []) :
    ∃ u : State, exec .shiftComplete s = .next (u.finish 1 h.dir esDone []) ∧ u.mch.shift = none ∧
      tget u.mch.rules h.p = some h.rule ∧
      (∀ x, h.p ≤ x → x < h.cursor → tget u.mch.rules (x + 1) = tget s.mch.rules x) ∧
      (∀ x, x < h.p ∨ h.cursor < x → tget u.mch.rules x = tget s.mch.rules x) ∧
      u.fld Reg.MCH_STATUS_LOAD_GEN = (s.fld Reg.MCH_STATUS_LOAD_GEN + 1) % 128 := by
  have finished := State.finishShift_unarmed unarmed range
  obtain ⟨-, regs⟩ := canon
  refine ⟨(s.finishShift h).loaded, ?_, ?_⟩
  · have mch : ((s.finishShift h).loaded.finish 1 h.dir esDone []).mch = (s.finishShift h).mch := State.finish_mch ..
    rw [exec_shiftComplete runs, State.completeShift, State.afterShift_idle]
    · rw [mch, finished]; exact loads
    · rw [mch, finished]; exact shifts
    · rw [mch, finished]; exact reads
  · rw [finished]
    refine ⟨rfl, tget_tset_self .., fun x above below => ?_, fun x outside => ?_, State.loadGen_loaded regs⟩
    · exact (tget_tset_of_ne _ _ _ _ (by omega)).trans (State.tget_movedRules_moved above below (same x above below))
    · exact (tget_tset_of_ne _ _ _ _ (by omega)).trans (State.tget_movedRules_outside range outside)

/-- Settles O32: a shift by `shift_completes`; a search whose checks hold is issued once and finds the lowest entry
(`searchOnce_least`) or none (`searchOnce_none`); RULE_READ by its equation. -/
theorem shiftsAndReadsOfRules : Obligations.ShiftsAndReadsOfRules := by
  refine ⟨fun s h runs unarmed _ _ canon range _ same loads shifts reads =>
      shift_completes runs unarmed canon range same loads shifts reads,
    fun s d word start mask parity segs small free turn wf checks cut => ⟨fun good => ?_, fun d1 d2 more twice => ?_⟩,
    fun s d pos r free small inside valid => exec_ruleRead free small inside valid⟩
  · obtain ⟨noHit, someHit⟩ := exec_ruleSearch small free turn checks cut good
    refine ⟨s.grantSearch false 2, rfl, (keeps_onMch _ (Keeps.refl _ s) (by simp)).onlyChanges, fun none => ?_,
      fun e mem after hit least => ?_⟩
    · exact noHit (by rw [searchOnce_none none])
    · have rise : (s.enabledRules mask).Pairwise (fun e f => e.1 < f.1) :=
        ((Tbl.pairwise_of_wf _ wf).filter _).filter _
      obtain ⟨first, others⟩ := searchOnce_least rise (mem_hitsOf.mpr ⟨mem, after, hit⟩) fun f found => by
        obtain ⟨memf, afterf, hitf⟩ := mem_hitsOf.mp found
        exact least f memf afterf hitf
      refine ⟨_, someHit e.1 e.2 first, others.trans ?_⟩
      simp only [mem_hitsOf]
      exact ⟨fun ⟨f, ⟨m, a, b⟩, ne⟩ => ⟨f, m, ne, a, b⟩, fun ⟨f, m, ne, a, b⟩ => ⟨f, ⟨m, a, b⟩, ne⟩⟩
  · exact ⟨_, exec_ruleSearch_parity free turn twice word start mask, rfl,
      (keeps_raise _ _ (keeps_onMch _ (Keeps.refl _ s) (by simp)) (by simp)).onlyChanges⟩

/-! ## O54: the reset of MATCH_CASCADE (R255) -/

/-- BLOCK_RESET_EXIT of a block in reset. -/
theorem exec_blockResetExit {s : State} {b : EngBlock} (h : b ∈ s.sch.inReset) :
    exec (.blockResetExit b) s = .next (s.leaveReset b) := by
  show execBlockResetExit b s = _
  simp [execBlockResetExit, h]

/-- The drive running, with MATCH_CASCADE (source 323) raised: MATCH_IN of die 1 failed its parity twice in a row. -/
def parityFailed : State :=
  { State.reset with rst := { State.reset.rst with run := .running } }.raise 323 [1]

/-- The state once the fault collector has accepted that event (`exec_faultEvent_parityFailed`). -/
def cascadeReset : State :=
  match exec (.faultEvent [⟨323, [1]⟩]) parityFailed with
  | .next t => t
  | _ => parityFailed

/-- FAULT_EVENT goes on from every state. -/
theorem exec_faultEvent_next (evs : List Ev) (s : State) : ∃ t, exec (.faultEvent evs) s = .next t := by
  show ∃ t, execFaultEvent evs s = .next t
  unfold execFaultEvent
  exact ⟨_, rfl⟩

theorem exec_faultEvent_parityFailed : exec (.faultEvent [⟨323, [1]⟩]) parityFailed = .next cascadeReset := by
  obtain ⟨t, run⟩ := exec_faultEvent_next [⟨323, [1]⟩] parityFailed
  unfold cascadeReset
  rw [run]

/-- MCH and the four dies are in reset, as one engine block reset. -/
theorem inReset_cascadeReset : cascadeReset.sch.inReset = matchBlocks := by decide +kernel

/-- When MCH leaves that reset, the four dies leave it too. -/
theorem inReset_leaveReset_cascadeReset : (cascadeReset.leaveReset .mch).sch.inReset = [] := by decide +kernel

/-- Refutes O54: its first clause says that BLOCK_RESET_EXIT takes the named block out of reset and no other. After
MATCH_CASCADE, MCH and the four dies are in one reset (R255), and the exit of MCH takes the die MD0 out as well. -/
theorem not_resetsAndStarts : ¬ Obligations.ResetsAndStarts := by
  unfold Obligations.ResetsAndStarts
  rintro ⟨exits, -⟩
  have held (b : EngBlock) (h : b ∈ matchBlocks) : b ∈ cascadeReset.sch.inReset := inReset_cascadeReset ▸ h
  obtain ⟨onExit, -⟩ := exits cascadeReset .mch
  obtain ⟨t, run, leaves, -⟩ := onExit (held .mch (by decide))
  have next : cascadeReset.leaveReset .mch = t := by
    rw [exec_blockResetExit (held .mch (by decide))] at run
    exact Host.Outcome.next.inj run
  have stays : EngBlock.md 0 ∈ t.sch.inReset := (leaves (.md 0)).mpr ⟨held (.md 0) (by decide), by decide⟩
  rw [← next, inReset_leaveReset_cascadeReset] at stays
  exact List.not_mem_nil stays

end Sys2Proof.Machine
end

section
/-! PROOFS. The family 03_client_queues.md: connections (O10), doorbells (O11), the ends of queue pairs (O12), fetch and
acceptance (O13), completions (O14), congestion (O15, O16), links and cages (O17). -/

namespace Sys2Proof.Machine

/-! ## An entry of a table that is changed -/

theorem tget_tmod_self {α : Type} {t : Tbl α} {n : Nat} {a : α} (f : α → α) (h : tget t n = some a) :
    tget (tmod t n f) n = some (f a) := by
  simp [tmod, h]

@[simp] theorem tget_tmod_of_ne {α : Type} (t : Tbl α) {n m : Nat} (f : α → α) (h : m ≠ n) :
    tget (tmod t n f) m = tget t m := by
  unfold tmod
  split
  · simp [h]
  · rfl

/-- Changing an entry keeps the order. -/
theorem Tbl.wf_tmod {α : Type} (t : Tbl α) (n : Nat) (f : α → α) (h : Tbl.wf t = true) : Tbl.wf (tmod t n f) = true := by
  unfold tmod
  split
  · exact Tbl.wf_tset _ _ _ h
  · exact h

/-! ## Contexts after an operation -/

section
variable {s : State} {ctx x : Nat} {q : Qp}

theorem State.qp?_onQp_self (f : Qp → Qp) (h : s.qp? ctx = some q) : (s.onQp ctx f).qp? ctx = some (f q) :=
  tget_tmod_self f h

@[simp] theorem State.qp?_onQp_of_ne (f : Qp → Qp) (h : x ≠ ctx) : (s.onQp ctx f).qp? x = s.qp? x :=
  tget_tmod_of_ne s.nfe.qps f h

@[simp] theorem State.qp?_send (t : Tx) : (s.send t).qp? x = s.qp? x := rfl
@[simp] theorem State.qp?_onSch (f : Sch → Sch) : (s.onSch f).qp? x = s.qp? x := rfl

/-- A context that is freed is not listed. -/
theorem State.qp?_freeCtx_self (wf : Tbl.wf s.nfe.qps = true) : (s.freeCtx ctx).qp? ctx = none :=
  tget_tdel_self s.nfe.qps ctx wf

@[simp] theorem State.qp?_freeCtx_of_ne (h : x ≠ ctx) : (s.freeCtx ctx).qp? x = s.qp? x :=
  tget_tdel_of_ne s.nfe.qps ctx x h

theorem State.withQp_pos {p : Qp → Bool} (f : Qp → State) (h : s.qp? ctx = some q) (hp : p q = true) :
    s.withQp ctx p f = f q := by
  simp [State.withQp, h, hp]

theorem State.withQp_neg {p : Qp → Bool} (f : Qp → State) (h : s.qp? ctx = some q) (hp : p q = false) :
    s.withQp ctx p f = s := by
  simp [State.withQp, h, hp]

end

/-! ## Frames -/

theorem onNfe_onlyChanges (s : State) (f : Nfe → Nfe) : OnlyChanges [.nfe] s (s.onNfe f) :=
  (keeps_onNfe f (Keeps.refl _ s) (by simp)).onlyChanges

/-! ## Congestion (R134, R135) -/

theorem exec_cePacketReceived_due {s : State} {ctx : Nat} {q : Qp} (h : s.qp? ctx = some q)
    (ecn : s.fld Reg.NFE_DSCP_MAP_ECN_EN = 1)
    (due : ∀ u, q.lastCnp = some u → u + 1000 * s.fld Reg.NFE_CC_CFG_CNP_GAP_US ≤ s.flt.time) :
    exec (.cePacketReceived ctx) s
      = .next ((s.onQp ctx fun q => { q with lastCnp := some s.flt.time }).send (.cnp ctx)) := by
  show execCePacketReceived ctx s = _
  rw [execCePacketReceived, State.withQp_pos _ h (by simp [ecn])]
  cases last : q.lastCnp with
  | none => rfl
  | some u => simp [due u last]

theorem exec_cePacketReceived_within_gap {s : State} {ctx : Nat} {q : Qp} {u : Nat} (h : s.qp? ctx = some q)
    (last : q.lastCnp = some u) (within : s.flt.time < u + 1000 * s.fld Reg.NFE_CC_CFG_CNP_GAP_US) :
    exec (.cePacketReceived ctx) s = .next s := by
  show execCePacketReceived ctx s = _
  by_cases ecn : s.fld Reg.NFE_DSCP_MAP_ECN_EN = 1
  · rw [execCePacketReceived, State.withQp_pos _ h (by simp [ecn])]
    simp [last, Nat.not_le.mpr within]
  · rw [execCePacketReceived, State.withQp_neg _ h (by simp [ecn])]

/-- Settles O15: the CNP goes out where it is due, and within the gap the step finds nothing to do. -/
theorem cnpAtMostOnePerGap : Obligations.CnpAtMostOnePerGap := by
  refine fun s ctx q h ecn => ⟨fun due => ⟨_, exec_cePacketReceived_due h ecn due, State.qp?_onQp_self _ h, ?_, ?_, ?_⟩,
    fun u last within => exec_cePacketReceived_within_gap h last within⟩
  · intro x hx
    simp [hx]
  · exact ⟨[_], rfl, rfl⟩
  · exact (keeps_send _ (keeps_onQp _ _ (Keeps.refl _ s) (by simp)) (by simp)).onlyChanges

theorem exec_cnpReceived {s : State} {ctx : Nat} {q : Qp} (h : s.qp? ctx = some q) (live : q.live = true) :
    exec (.cnpReceived ctx) s = .next (s.onQp ctx fun q => { q with
      cc := q.cc.cut s.ccGain s.flt.time, ccPeriod := s.fld Reg.NFE_CC_CFG_TIMER_US }) := by
  show execCnpReceived ctx s = _
  rw [execCnpReceived, State.withQp_pos _ h live]

theorem exec_ccTimerExpiry_due {s : State} {ctx : Nat} {q : Qp} (h : s.qp? ctx = some q) (live : q.live = true)
    (due : q.cc.timer + 1000 * q.ccPeriod ≤ s.flt.time) :
    exec (.ccTimerExpiry ctx) s = .next (s.onQp ctx fun q => { q with
      cc := q.cc.recover s.ccGain (s.fld Reg.NFE_CC_CFG_AI_STEP) (s.lineRate q.conn.link) s.flt.time
      ccPeriod := s.fld Reg.NFE_CC_CFG_TIMER_US }) := by
  show execCcTimerExpiry ctx s = _
  rw [execCcTimerExpiry, State.withQp_pos _ h (by simp [live, State.ccTimerDue, due])]

theorem exec_ccTimerExpiry_early {s : State} {ctx : Nat} {q : Qp} (h : s.qp? ctx = some q)
    (early : s.flt.time < q.cc.timer + 1000 * q.ccPeriod) : exec (.ccTimerExpiry ctx) s = .next s := by
  show execCcTimerExpiry ctx s = _
  rw [execCcTimerExpiry, State.withQp_neg _ h (by simp [State.ccTimerDue, early])]

/-- The target that an expiry moves to: raised after five. -/
theorem CcState.rt_recover (c : CcState) (g : Rat) (aiStep line now : Nat) :
    (c.recover g aiStep line now).rt
      = if 5 < c.i + 1 then min (c.rt + ((aiStep * 10 : Nat) : Rat)) (line : Rat) else c.rt := rfl

/-- Below the line rate an expiry moves the rate half way to its new target. -/
theorem CcState.two_mul_rc_recover {c : CcState} {g : Rat} {aiStep line now : Nat}
    (below : (c.recover g aiStep line now).rt + c.rc ≤ 2 * (line : Rat)) :
    2 * (c.recover g aiStep line now).rc = c.rc + (c.recover g aiStep line now).rt := by
  have half : (c.recover g aiStep line now).rc = min ((c.rc + (c.recover g aiStep line now).rt) / 2) (line : Rat) := rfl
  rw [half, min_eq_left (by linarith)]
  ring

/-- Settles O16: a CNP is `CcState.cut`, a due expiry `CcState.recover`, one that is not due is discarded. -/
theorem rateLimiter : Obligations.RateLimiter := by
  refine fun s ctx q h live => ⟨⟨_, _, exec_cnpReceived h live, State.qp?_onQp_self _ h, rfl, rfl, rfl, rfl, rfl, ?_, ?_⟩,
    fun due => ⟨_, _, exec_ccTimerExpiry_due h live due, State.qp?_onQp_self _ h, rfl, rfl, rfl, ?_, ?_, ?_, ?_, ?_, ?_⟩,
    fun early => exec_ccTimerExpiry_early h early⟩
  · exact fun x hx => State.qp?_onQp_of_ne _ hx
  · exact onNfe_onlyChanges s _
  · exact min_le_right _ _
  · exact fun few => by rw [CcState.rt_recover, if_neg (by omega)]
  · exact fun many => by rw [CcState.rt_recover, if_pos many]
  · exact CcState.two_mul_rc_recover
  · exact fun x hx => State.qp?_onQp_of_ne _ hx
  · exact onNfe_onlyChanges s _

/-! ## Links and cages (R89, R530, R586, R602) -/

/-- The bit of a link stands at its number alone. -/
theorem getLsbD_linkBit (l m : Link) : (linkBit l).getLsbD (linkIndex m) = decide (m = l) := by
  cases l <;> cases m <;> rfl

theorem linkIndex_lt (l : Link) : linkIndex l < 4 := by
  cases l <;> decide

theorem getLsbD_or_linkBit (b : BitVec 4) (l m : Link) :
    (b ||| linkBit l).getLsbD (linkIndex m) = (decide (m = l) || b.getLsbD (linkIndex m)) := by
  rw [BitVec.getLsbD_or, getLsbD_linkBit, Bool.or_comm]

theorem getLsbD_clear_linkBit (b : BitVec 4) (l m : Link) :
    (b &&& ~~~linkBit l).getLsbD (linkIndex m) = (decide (m ≠ l) && b.getLsbD (linkIndex m)) := by
  rw [BitVec.getLsbD_and, BitVec.getLsbD_not, getLsbD_linkBit, decide_eq_true (linkIndex_lt m), decide_not,
    Bool.true_and, Bool.and_comm]

theorem State.cage_setCage_self (s : State) (p : Port) (c : Cage) : (s.setCage p c).cage p = c := by
  cases p <;> rfl

theorem State.cage_setCage_of_ne (s : State) {p p' : Port} (c : Cage) (h : p' ≠ p) :
    (s.setCage p c).cage p' = s.cage p' :=
  match p, p', h with
  | .a, .b, _ | .b, .a, _ => rfl
  | .a, .a, h | .b, .b, h => absurd rfl h

/-- The state after the end of a port's retrain. -/
def State.retrained (s : State) (p : Port) : State :=
  s.onNfe fun n => match p with
    | .a => { n with retrainA := false }
    | .b => { n with retrainB := false }

theorem exec_portRetrainEnd (s : State) (p : Port) : exec (.portRetrainEnd p) s = .next (s.retrained p) := rfl

theorem State.retrains_retrained_self (s : State) (p : Port) : (s.retrained p).retrains p = false := by
  cases p <;> rfl

theorem State.retrains_retrained_of_ne (s : State) {p p' : Port} (h : p' ≠ p) :
    (s.retrained p).retrains p' = s.retrains p' :=
  match p, p', h with
  | .a, .b, _ | .b, .a, _ => rfl
  | .a, .a, h | .b, .b, h => absurd rfl h

theorem State.linkUp_retrained (s : State) (p : Port) : (s.retrained p).nfe.linkUp = s.nfe.linkUp := by
  cases p <;> rfl

theorem setCage_onlyChanges (s : State) (p : Port) (c : Cage) : OnlyChanges [.nfe] s (s.setCage p c) :=
  onNfe_onlyChanges s _

/-- A fault of a cage: the port's event is raised over the new state of the cage. -/
theorem setCage_portFault_onlyChanges (s : State) (p : Port) (c : Cage) (cause : Nat) :
    OnlyChanges [.nfe, .flt] s ((s.setCage p c).portFault p cause) :=
  (keeps_raise _ _ (keeps_onNfe _ (Keeps.refl _ s) (by simp)) (by simp)).onlyChanges

theorem exec_linkUp_ready {s : State} {l : Link} (there : s.linkExists l = true)
    (stays : s.retrains (linkPort l) = false) (ready : s.cageReady (linkPort l) = true) :
    exec (.linkUp l) s = .next (s.onNfe fun n => { n with
      linkUp := n.linkUp ||| linkBit l, linkWait := n.linkWait &&& ~~~linkBit l }) := by
  show execLinkUp l s = _
  simp [execLinkUp, there, stays, ready]

theorem exec_linkUp_retraining {s : State} {l : Link} (h : s.retrains (linkPort l) = true) :
    exec (.linkUp l) s = .next s := by
  show execLinkUp l s = _
  simp [execLinkUp, h]

theorem exec_opticsInsert_enabled (s : State) (p : Port) {watts : Nat} (h : watts ≤ 20) :
    exec (.opticsInsert p watts true true) s = .next (s.setCage p ⟨true, true, true⟩) := by
  show execOpticsInsert p watts true true s = _
  simp [execOpticsInsert, h]

/-- A pluggable that fails a check stays in low-power mode; the first failed check names the cause (R586, R602). -/
theorem exec_opticsInsert_refused (s : State) (p : Port) {watts : Nat} {laneMatch cmis : Bool}
    (h : 20 < watts ∨ cmis = false ∨ laneMatch = false) :
    exec (.opticsInsert p watts laneMatch cmis) s
      = .next ((s.setCage p ⟨true, false, true⟩).portFault p
          (if 20 < watts then 1 else if cmis = false then 4 else 3)) := by
  show execOpticsInsert p watts laneMatch cmis s = _
  by_cases heavy : 20 < watts
  · simp [execOpticsInsert, heavy, Nat.not_le.mpr heavy]
  · cases cmis
    · simp [execOpticsInsert, heavy, Nat.not_lt.mp heavy]
    · obtain rfl : laneMatch = false := by simpa [heavy] using h
      simp [execOpticsInsert, heavy, Nat.not_lt.mp heavy]

/-- Settles O17: the bits of a link by `getLsbD_or_linkBit` and `getLsbD_clear_linkBit`, a cage by `State.setCage`. -/
theorem linksAndCages : Obligations.LinksAndCages := by
  refine ⟨fun s l => ⟨_, rfl, ?_, ?_, rfl, onNfe_onlyChanges s _⟩,
    fun s l there stays ready => ⟨_, exec_linkUp_ready there stays ready, ?_, ?_, rfl, onNfe_onlyChanges s _⟩,
    fun s l h => exec_linkUp_retraining h,
    fun s p => ⟨_, exec_portRetrainEnd s p, s.retrains_retrained_self p,
      fun p' hp => s.retrains_retrained_of_ne hp, s.linkUp_retrained p, onNfe_onlyChanges s _⟩,
    fun s p watts h => ⟨_, exec_opticsInsert_enabled s p h, s.cage_setCage_self p _, ?_, setCage_onlyChanges s p _⟩,
    fun s p watts laneMatch cmis h => ⟨_, exec_opticsInsert_refused s p h, s.cage_setCage_self p _, ?_, rfl,
      setCage_portFault_onlyChanges s p _ _⟩,
    fun s p => ⟨_, rfl, ?_, ?_, ?_, rfl, setCage_portFault_onlyChanges s p _ _⟩⟩
  · exact getLsbD_clear_linkBit _ l
  · exact getLsbD_or_linkBit _ l
  · exact getLsbD_or_linkBit _ l
  · exact getLsbD_clear_linkBit _ l
  · exact fun p' hp => s.cage_setCage_of_ne _ hp
  · exact fun p' hp => s.cage_setCage_of_ne _ hp
  · exact congrArg Cage.railOn (s.cage_setCage_self p _)
  · exact congrArg Cage.enabled (s.cage_setCage_self p _)
  · exact fun p' hp => s.cage_setCage_of_ne _ hp

/-! ## What is sent -/

theorem sends_send (s : State) (x : Tx) : Sends s (s.send x) [x] := ⟨[_], rfl, rfl⟩

/-- A message sent before others. -/
theorem sends_cons {s t : State} {x : Tx} {xs : List Tx} (h : Sends (s.send x) t xs) : Sends s t (x :: xs) := by
  obtain ⟨ms, rfl, sent⟩ := h
  exact ⟨s.marked x (s.dscpAlone x) :: ms, rfl, by simp [sent]⟩

/-! ## An idle client queue pair enters ERROR (R125, R126) -/

section
variable {s : State} {ctx cause : Nat} {q : Qp}

/-- No command of an idle queue pair is to be ended. -/
theorem filter_cmds_of_clientIdle (idle : ClientIdle s ctx q) :
    (s.sch.cmds.filter fun e => decide (e.2.ctx = some ctx)) = [] := by
  obtain ⟨-, -, unused⟩ := idle
  simpa [List.filter_eq_nil_iff] using unused

/-- The context, and the DREQ with the cause and the head. -/
theorem State.nfe_qpError_of_idle (h : s.qp? ctx = some q) (active : q.st = .active) (idle : ClientIdle s ctx q) :
    (s.qpError ctx cause).nfe = ((s.onNfe fun n => { n with qps := tset n.qps ctx (q.failed cause) }).send
      (.cmDreq ctx cause q.head)).nfe := by
  have found : tget s.nfe.qps ctx = some q := h
  have mine := filter_cmds_of_clientIdle idle
  obtain ⟨client, quiet, -⟩ := idle
  simp only [State.qpError, Qp.failed, found, active, client, quiet, State.send_sch, State.onNfe_sch, mine, true_or, if_true,
    List.map_nil, List.foldl_nil, Bool.false_eq_true, if_false]
  refine Keeps.same (r := (· ≠ .nfe)) ?_ .nfe (by simp)
  exact keeps_foldl _ _ (fun s a k => keeps_endHalves a k (by simp))
    (keeps_onMch _ (keeps_onSch _ (Keeps.refl _ _) (by simp)) (by simp))

/-- It reads ERROR with the cause, the DREQ goes out, and no other context changes. -/
theorem State.qpError_of_idle (h : s.qp? ctx = some q) (active : q.st = .active) (idle : ClientIdle s ctx q) :
    (s.qpError ctx cause).qp? ctx = some (q.failed cause) ∧
      Sends s (s.qpError ctx cause) [.cmDreq ctx cause q.head] ∧ ∀ x, x ≠ ctx → (s.qpError ctx cause).qp? x = s.qp? x := by
  have nfe := State.nfe_qpError_of_idle (cause := cause) h active idle
  refine ⟨?_, ⟨[_], rfl, congrArg Nfe.tx nfe⟩, fun x hx => ?_⟩
  · rw [State.qp?, nfe]
    exact tget_tset_self _ _ _
  · rw [State.qp?, nfe]
    exact tget_tset_of_ne _ _ _ _ hx

/-- The same where a message went out before. -/
theorem State.qpError_send_of_idle (x : Tx) (h : s.qp? ctx = some q) (active : q.st = .active)
    (idle : ClientIdle s ctx q) :
    ((s.send x).qpError ctx cause).qp? ctx = some (q.failed cause) ∧
      Sends s ((s.send x).qpError ctx cause) [x, .cmDreq ctx cause q.head] ∧
      ∀ y, y ≠ ctx → ((s.send x).qpError ctx cause).qp? y = s.qp? y := by
  obtain ⟨self, sent, others⟩ := State.qpError_of_idle (s := s.send x) (cause := cause) h active idle
  exact ⟨self, sends_cons sent, others⟩

end

/-! ## Doorbells (R111 to R115, R191) -/

section
variable {s : State} {ctx : Nat} {raw : Bytes} {q : Qp}

/-- A doorbell of the context's own page, aligned and of 8 bytes, reaches QPM. -/
theorem exec_doorbell_wellFormed (up : s.netUp = true) (len : raw.length = 8) (awake : s.blockInReset .qpm = false) :
    exec (.doorbell ctx ctx true raw) s = .next (s.applyDoorbell ctx raw) := by
  show execDoorbell ctx ctx true raw s = _
  simp [execDoorbell, up, len, awake]

theorem exec_doorbell_held (up : s.netUp = true) (len : raw.length = 8) (held : s.blockInReset .qpm = true) :
    exec (.doorbell ctx ctx true raw) s
      = .next (s.onNfe fun n => { n with heldDoorbells := n.heldDoorbells ++ [(ctx, raw)] }) := by
  show execDoorbell ctx ctx true raw s = _
  simp [execDoorbell, up, len, held]

theorem exec_doorbell_malformed {page : Nat} {aligned : Bool} (up : s.netUp = true)
    (h : raw.length ≠ 8 ∨ aligned = false ∨ ctx ≠ page) :
    exec (.doorbell page ctx aligned raw) s = .next ((s.send (.nakAccess ctx)).qpError ctx 0x12) := by
  show execDoorbell page ctx aligned raw s = _
  simp only [execDoorbell, up, guardStep_true, if_pos h]

/-- Another generation counts in QGEN_DROPS (R113). -/
theorem State.applyDoorbell_oldQgen (h : s.qp? ctx = some q) (active : q.st = .active) (old : fieldAt raw 4 2 ≠ q.qgen) :
    s.applyDoorbell ctx raw = s.bump Reg.QPM_ERR_STAT_QGEN_DROPS := by
  rw [State.applyDoorbell, State.withQp_pos _ h (by simp [active])]
  exact if_pos old

/-- A tail beyond the ring (R115). -/
theorem State.applyDoorbell_outOfRange (h : s.qp? ctx = some q) (active : q.st = .active)
    (gen : fieldAt raw 4 2 = q.qgen)
    (beyond : 2 ^ q.conn.ringLog2 < (fieldAt raw 0 4 + 2 ^ 32 - q.tail) % 2 ^ 32
      ∨ 2 ^ q.conn.ringLog2 < (fieldAt raw 0 4 + 2 ^ 32 - q.head) % 2 ^ 32) :
    s.applyDoorbell ctx raw = s.qpError ctx 0x13 := by
  rw [State.applyDoorbell, State.withQp_pos _ h (by simp [active])]
  exact (if_neg (not_not.mpr gen)).trans (if_pos beyond)

/-- A tail within the ring is published (R112). -/
theorem State.applyDoorbell_inRange (h : s.qp? ctx = some q) (active : q.st = .active)
    (gen : fieldAt raw 4 2 = q.qgen)
    (tail : (fieldAt raw 0 4 + 2 ^ 32 - q.tail) % 2 ^ 32 ≤ 2 ^ q.conn.ringLog2)
    (head : (fieldAt raw 0 4 + 2 ^ 32 - q.head) % 2 ^ 32 ≤ 2 ^ q.conn.ringLog2) :
    s.applyDoorbell ctx raw = (s.onQp ctx fun q => { q with tail := fieldAt raw 0 4 }).touchCtx ctx := by
  rw [State.applyDoorbell, State.withQp_pos _ h (by simp [active])]
  exact (if_neg (not_not.mpr gen)).trans (if_neg (by omega))

end

/-- A counter saturates at all ones. -/
theorem State.fld_bump_self (s : State) {f : Field} (k : Nat) (wf : Tbl.wf s.regs = true) (h : f.hi < 32) :
    (s.bump f k).fld f = min (s.fld f + k) (2 ^ (f.hi + 1 - f.lo) - 1) := by
  have ones := Nat.two_pow_pos (f.hi + 1 - f.lo)
  exact (State.fld_setFld_self s f _ wf h).trans (Nat.mod_eq_of_lt (by omega))

/-- Settles O11: a doorbell that reaches QPM by the three cases of `State.applyDoorbell`; the end of an idle queue pair by
`State.qpError_of_idle`. -/
theorem doorbellsAct : Obligations.DoorbellsAct := by
  refine fun s ctx raw q up h active => ⟨fun len awake gen tail head => ?_, fun len awake ⟨_, regs⟩ old => ?_,
    fun len awake gen beyond => ?_, fun page aligned bad => ?_, fun len held => ?_⟩
  · refine ⟨_, exec_doorbell_wellFormed up len awake, ?_⟩
    rw [State.applyDoorbell_inRange h active gen tail head]
    exact ⟨State.qp?_onQp_self _ h, fun x hx => State.qp?_onQp_of_ne _ hx, rfl,
      (keeps_touchCtx _ (keeps_onQp _ _ (Keeps.refl _ s) (by simp)) (by simp)).onlyChanges⟩
  · refine ⟨_, exec_doorbell_wellFormed up len awake, ?_⟩
    rw [State.applyDoorbell_oldQgen h active old]
    exact ⟨s.fld_bump_self 1 regs (by decide), (keeps_bump _ _ (Keeps.refl _ s) (by simp)).onlyChanges⟩
  · refine ⟨_, exec_doorbell_wellFormed up len awake, ?_⟩
    rw [State.applyDoorbell_outOfRange h active gen beyond.symm]
    exact ⟨rfl, fun idle => State.qpError_of_idle h active idle⟩
  · exact ⟨_, exec_doorbell_malformed up bad, rfl, fun idle => State.qpError_send_of_idle _ h active idle⟩
  · exact ⟨_, exec_doorbell_held up len held, rfl, rfl, onNfe_onlyChanges s _⟩

/-! ## The ends of queue pairs (R92, R93, R99, R109, R125, R131) -/

theorem State.serveIntake_of_nil {s : State} (empty : s.peer.intake = []) : s.serveIntake = s := by
  simp [State.serveIntake, empty]

/-- The state in which a DREQ leaves an idle client queue pair: the DREP is out and the context FREE; chain writes that wait
have still to be taken in. -/
def State.disconnected (s : State) (ctx : Nat) : State :=
  (((s.onQp ctx fun q => { q with st := .draining, fetching := 0, phaseWait := false, dreq := true }).send
    (.cmDrep ctx)).onSch fun h => { h with
      cmds := h.cmds.filter fun e => !(e.2.ctx = some ctx && e.2.completed) }).freeCtx ctx

section
variable {s : State} {ctx : Nat} {q : Qp}

theorem State.outstanding_of_clientIdle (idle : ClientIdle s ctx q) : s.outstanding ctx = 0 := by
  obtain ⟨-, -, unused⟩ := idle
  rw [State.outstanding, List.length_eq_zero_iff, List.filter_eq_nil_iff]
  intro e he
  simp [unused e he]

/-- With no command outstanding a client DREQ is answered at once (R99). -/
theorem exec_cmDreq_of_idle (h : s.qp? ctx = some q) (active : q.st = .active) (idle : ClientIdle s ctx q) :
    exec (.cmDreq ctx) s = .next (s.disconnected ctx).serveIntake := by
  have settled := State.outstanding_of_clientIdle idle
  obtain ⟨client, -, -⟩ := idle
  show execCmDreq ctx s = _
  simp only [execCmDreq, h, active, client, State.settleDrain, State.qp?_onQp_self _ h]
  exact congrArg _ (if_pos ⟨trivial, settled⟩)

theorem exec_unsupportedRequest (h : s.qp? ctx = some q) :
    exec (.unsupportedRequest ctx) s = .next ((s.send (.nakInvalid ctx)).qpError ctx 0x15) := by
  show execUnsupportedRequest ctx s = _
  rw [execUnsupportedRequest, State.withQp_pos _ h rfl]

theorem State.qp?_disconnected_self (wf : Tbl.wf s.nfe.qps = true) : (s.disconnected ctx).qp? ctx = none :=
  State.qp?_freeCtx_self (Tbl.wf_tmod s.nfe.qps ctx _ wf)

theorem State.qp?_disconnected_of_ne {x : Nat} (hx : x ≠ ctx) : (s.disconnected ctx).qp? x = s.qp? x := by
  simp [State.disconnected, hx]

end

/-- The only context, ACTIVE on a link that has stayed down, ends with cause LINK_DOWN. -/
theorem State.linksLost_of_idle {s : State} {l : Link} {ctx : Nat} {q : Qp} (only : s.nfe.qps = [(ctx, q)])
    (on : q.conn.link = l) (active : q.st = .active) (idle : ClientIdle s ctx q) :
    s.linksLost (· = l) = s.qpError ctx 0x10 := by
  have found : s.qp? ctx = some q := by simp [State.qp?, only, tget]
  have ctxs : s.ctxsOn (fun x => decide (x = l)) = [ctx] := by simp [State.ctxsOn, only, on]
  obtain ⟨self, -, -⟩ := State.qpError_of_idle (cause := 0x10) found active idle
  have failed : tget (s.qpError ctx 0x10).nfe.qps ctx = some (q.failed 0x10) := self
  rw [State.linksLost, ctxs, List.foldl_cons, List.foldl_nil, State.freeConnecting, failed]
  rfl

/-- Settles O12: a queue pair that fails by `State.qpError_of_idle`, one that is disconnected by `exec_cmDreq_of_idle`. -/
theorem queuePairsEnd : Obligations.QueuePairsEnd := by
  refine ⟨fun s ctx q h active idle => ⟨?_, ?_, ?_, fun wf => ?_⟩,
    fun s l ctx q only on active client quiet noCmds waits => ?_⟩
  · exact ⟨_, rfl, State.qpError_of_idle h active idle⟩
  · exact ⟨_, rfl, State.qpError_of_idle h active idle⟩
  · exact ⟨_, exec_unsupportedRequest h, State.qpError_send_of_idle _ h active idle⟩
  · exact ⟨_, exec_cmDreq_of_idle h active idle, State.qp?_disconnected_self wf, ⟨[_], rfl, rfl⟩,
      fun x hx => State.qp?_disconnected_of_ne hx, fun empty => State.serveIntake_of_nil empty⟩
  · have idle : ClientIdle s ctx q := ⟨client, quiet, by simp [noCmds]⟩
    have nfe := State.nfe_qpError_of_idle (cause := 0x10) (by simp [State.qp?, only, tget]) active idle
    refine ⟨(s.qpError ctx 0x10).onNfe fun n => { n with linkWait := n.linkWait &&& ~~~linkBit l }, ?_, ?_, ?_, ?_⟩
    · show execLinkdownTimeout l s = _
      simp [execLinkdownTimeout, waits, State.linksLost_of_idle only on active idle]
    · exact (congrArg Nfe.qps nfe).trans (by simp [only, tset])
    · exact (getLsbD_clear_linkBit _ l l).trans (by simp)
    · exact ⟨[_], rfl, congrArg Nfe.tx nfe⟩

/-! ## What the Ledger keeps, beside its draws (R336, R344) -/

/-- A value that every step of a run leaves alone. -/
theorem foldl_same {α β : Type} (value : State → β) (f : State → α → State) (step : ∀ s a, value (f s a) = value s)
    (l : List α) (s : State) : value (l.foldl f s) = value s := by
  induction l generalizing s with
  | nil => rfl
  | cons a l ih => exact (ih (f s a)).trans (step s a)

theorem State.kept_lowerGauge (s : State) (n : Nat) : (s.lowerGauge n).ldg.kept = s.ldg.kept :=
  (apply_ite (fun t : State => t.ldg.kept) _ _ _).trans (ite_self _)

theorem State.kept_drawMeta (s : State) (n : Nat) : (s.drawMeta n).ldg.kept = s.ldg.kept := by
  unfold State.drawMeta
  split
  · exact s.kept_lowerGauge n
  · simp [State.queueMeta]

theorem State.kept_countGroup_if (s : State) (works : Bool) (g n : Nat) :
    (if works then s.countGroup g n else s).ldg.kept = s.ldg.kept := by
  cases works <;> rfl

theorem State.kept_countPairs (s : State) (k n : Nat) : (s.countPairs k n).ldg.kept = s.ldg.kept :=
  foldl_same (·.ldg.kept) _
    (fun s _ => (State.kept_countGroup_if _ _ _ _).trans (State.kept_countGroup_if s _ _ _)) _ s

/-- The lines of a kept object are counted and drawn for; what is kept does not change. -/
@[simp] theorem State.kept_keepMeta (s : State) (object n lines : Nat) :
    (s.keepMeta object n lines).ldg.kept = s.ldg.kept :=
  (State.kept_countPairs _ _ _).trans (s.kept_drawMeta _)

@[simp] theorem State.nfe_keepMeta (s : State) (object n lines : Nat) : (s.keepMeta object n lines).nfe = s.nfe :=
  (keeps_keepMeta (r := (· ≠ .nfe)) object n lines (Keeps.refl _ s) (by simp) (by simp) (by simp)).same .nfe (by simp)

@[simp] theorem State.nfe_nextQgen (s : State) (ctx : Nat) : (s.nextQgen ctx).2.nfe = s.nfe :=
  State.nfe_keepMeta _ _ _ _

/-- The QGEN that a context takes is kept (R100). -/
theorem State.qgens_nextQgen (s : State) (ctx : Nat) :
    tget (s.nextQgen ctx).2.ldg.kept.qgens ctx = some (s.nextQgen ctx).1 := by
  simp [State.nextQgen]

/-! ## Connections (R95 to R102) -/

/-- The hold of kept outcome records changes no answer to a REQ. -/
theorem State.reqCheck_imageAnswered (s : State) (req : ReqMsg) : (s.imageAnswered req).reqCheck req = s.reqCheck req := by
  unfold State.imageAnswered
  split <;> rfl

theorem State.ldg_imageAnswered (s : State) (req : ReqMsg) : (s.imageAnswered req).ldg = s.ldg :=
  (keeps_imageAnswered (r := (· ≠ .ldg)) req (Keeps.refl _ s) (by simp) (by simp)).same .ldg (by simp)

theorem State.qps_imageAnswered (s : State) (req : ReqMsg) : (s.imageAnswered req).nfe.qps = s.nfe.qps := by
  unfold State.imageAnswered
  split <;> rfl

theorem State.tx_imageAnswered (s : State) (req : ReqMsg) : (s.imageAnswered req).nfe.tx = s.nfe.tx := by
  unfold State.imageAnswered
  split <;> rfl

/-- The state in which an admitted REQ takes its context: the nonce is drawn, the QGEN kept, the address and the key of the
doorbell drawn. -/
def State.generated (s : State) (ctx : Nat) : State := ((s.drawRandom 16).2.nextQgen ctx).2.drawNat.2.drawNat.2

/-- The queue pair of an admitted REQ (R99, R100). -/
def State.admitted (s : State) (req : ReqMsg) (ctx : Nat) : Qp :=
  Qp.connecting ((s.drawRandom 16).2.nextQgen ctx).1 ((s.generated ctx).connOf req none (s.drawRandom 16).1 ctx)

/-- The REP of an admitted REQ (R95). -/
def State.repTo (s : State) (req : ReqMsg) (ctx : Nat) : Bytes :=
  repBytes (s.admitted req ctx).qgen (s.admitted req ctx).conn.maxOut
    (((s.drawRandom 16).2.nextQgen ctx).2.drawNat.1 % 2 ^ 61 * 8) ((s.drawRandom 16).2.nextQgen ctx).2.drawNat.2.drawNat.1
    req.link (s.drawRandom 16).1 driveUid

theorem State.admitReq_eq (s : State) (req : ReqMsg) (ctx : Nat) :
    s.admitReq req ctx = ((s.generated ctx).onNfe fun n => { n with qps := tset n.qps ctx (s.admitted req ctx) }).send
      (.cmRep ctx (s.repTo req ctx)) := rfl

theorem State.nfe_generated (s : State) (ctx : Nat) : (s.generated ctx).nfe = s.nfe :=
  State.nfe_nextQgen (s.drawRandom 16).2 ctx

theorem State.qps_admitReq (s : State) (req : ReqMsg) (ctx : Nat) :
    (s.admitReq req ctx).nfe.qps = tset s.nfe.qps ctx (s.admitted req ctx) := by
  rw [State.admitReq_eq, State.send_nfe, State.onNfe_nfe, s.nfe_generated]

theorem sends_admitReq (s : State) (req : ReqMsg) (ctx : Nat) :
    Sends s (s.admitReq req ctx) [.cmRep ctx (s.repTo req ctx)] := by
  rw [State.admitReq_eq]
  obtain ⟨ms, only, sent⟩ := sends_send
    ((s.generated ctx).onNfe fun n => { n with qps := tset n.qps ctx (s.admitted req ctx) }) (.cmRep ctx (s.repTo req ctx))
  exact ⟨ms, only, by rw [sent, State.onNfe_nfe, s.nfe_generated]⟩

/-- The QGEN of an admitted REQ is the next one of its context, which is kept (R100). -/
theorem State.qgen_admitted (s : State) (req : ReqMsg) (ctx : Nat) :
    (s.admitted req ctx).qgen = ((tget s.ldg.kept.qgens ctx).getD 0 + 1) % 65536 := rfl

theorem State.qgens_admitReq (s : State) (req : ReqMsg) (ctx : Nat) :
    tget (s.admitReq req ctx).ldg.kept.qgens ctx = some (s.admitted req ctx).qgen := by
  rw [State.admitReq_eq]
  exact State.qgens_nextQgen (s.drawRandom 16).2 ctx

theorem exec_cmReq_client {s : State} {req : ReqMsg} (up : s.netUp = true) (there : s.linkExists req.link = true)
    (client : (reqPeer req.raw && !reqAdmin req.raw) = false) : exec (.cmReq req) s = .next (s.clientRequest req) := by
  show execCmReq req s = _
  simp [execCmReq, up, there, client]

theorem State.clientRequest_admitted {s : State} {req : ReqMsg} {ctx : Nat} (passes : s.reqCheck req = .inr ctx) :
    s.clientRequest req = (s.imageAnswered req).admitReq req ctx := by
  unfold State.clientRequest
  dsimp only
  rw [State.reqCheck_imageAnswered, passes]

theorem State.clientRequest_refused {s : State} {req : ReqMsg} {cause : Nat} (fails : s.reqCheck req = .inl cause) :
    s.clientRequest req = (s.imageAnswered req).reject req.link cause := by
  unfold State.clientRequest
  dsimp only
  rw [State.reqCheck_imageAnswered, fails]

section
variable {s : State} {ctx : Nat} {q : Qp} {proof k : Bytes}

/-- An RTU by its PROOF (R96). -/
theorem exec_cmRtu (h : s.qp? ctx = some q) (connecting : q.st = .connecting) (fresh : q.cause = 0)
    (client : q.conn.peer = none) (secret : s.connSecret q.conn = some k) :
    exec (.cmRtu ctx proof) s
      = .next (if clientProof k ctx q.conn = proof.take 32 then s.activate ctx else s.proofFailed ctx) := by
  show execCmRtu ctx proof s = _
  rw [execCmRtu, State.withQp_pos _ h (by simp [connecting, fresh, client])]
  simp only [secret]

theorem State.qp?_activate_self (h : s.qp? ctx = some q) :
    (s.activate ctx).qp? ctx = some { q with
      st := .active, head := 0, tail := 0, cqCount := 0, cc := s.ccStart q.conn.link
      ccPeriod := s.fld Reg.NFE_CC_CFG_TIMER_US } :=
  tget_tmod_self _ h

theorem State.qp?_activate_of_ne {x : Nat} (hx : x ≠ ctx) : (s.activate ctx).qp? x = s.qp? x :=
  tget_tmod_of_ne s.nfe.qps _ hx

theorem State.qp?_proofFailed_of_ne {x : Nat} (hx : x ≠ ctx) : (s.proofFailed ctx).qp? x = s.qp? x :=
  State.qp?_onQp_of_ne _ hx

theorem exec_connectingTimeout (h : s.qp? ctx = some q) (connecting : q.st = .connecting) :
    exec (.connectingTimeout ctx) s = .next (s.freeCtx ctx) := by
  have found : tget s.nfe.qps ctx = some q := h
  show execConnectingTimeout ctx s = _
  simp [execConnectingTimeout, State.freeConnecting, found, connecting]

theorem exec_cmDrep_of_error (h : s.qp? ctx = some q) (error : q.st = .error) :
    exec (.cmDrep ctx) s = .next (s.freeCtx ctx) := by
  show execCmDrep ctx s = _
  rw [execCmDrep, State.withQp_pos _ h (by simp [error])]

end

/-- Settles O10: a REQ by the checks of R98 (`State.reqCheck`), an RTU by its PROOF, the ends by `State.freeCtx`. -/
theorem connectionSetUp : Obligations.ConnectionSetUp := by
  refine ⟨fun s req ctx up there client passes => ?_, fun s req cause up there client fails => ?_,
    fun s ctx q proof k h connecting fresh client secret => ?_, fun s ctx q c wf h which => ?_⟩
  · have qps := (s.imageAnswered req).qps_admitReq req ctx
    rw [State.qps_imageAnswered] at qps
    refine ⟨_, (s.imageAnswered req).admitted req ctx, (s.imageAnswered req).repTo req ctx,
      exec_cmReq_client up there client, ?_⟩
    rw [State.clientRequest_admitted passes]
    refine ⟨?_, rfl, ?_, State.qgens_admitReq _ req ctx, rfl, rfl, ?_, fun x hx => ?_⟩
    · rw [State.qp?, qps, tget_tset_self]
    · rw [State.qgen_admitted, State.ldg_imageAnswered]
    · obtain ⟨ms, only, sent⟩ := sends_admitReq (s.imageAnswered req) req ctx
      exact ⟨ms, only, by rw [sent, State.tx_imageAnswered]⟩
    · rw [State.qp?, qps, tget_tset_of_ne _ _ _ _ hx, State.qp?]
  · refine ⟨_, exec_cmReq_client up there client, ?_⟩
    rw [State.clientRequest_refused fails]
    exact ⟨s.qps_imageAnswered req, [_], rfl, congrArg (· ++ [_]) (s.tx_imageAnswered req)⟩
  · refine ⟨_, exec_cmRtu h connecting fresh client secret, ?_⟩
    by_cases right : clientProof k ctx q.conn = proof.take 32
    · rw [if_pos right]
      exact ⟨fun x hx => State.qp?_activate_of_ne hx, fun _ => ⟨State.qp?_activate_self h, rfl⟩,
        fun wrong => absurd right wrong⟩
    · rw [if_neg right]
      exact ⟨fun x hx => State.qp?_proofFailed_of_ne hx, fun equal => absurd equal right,
        fun _ => ⟨State.qp?_onQp_self _ h, [_], rfl, rfl⟩⟩
  · have freed : exec c s = .next (s.freeCtx ctx) := by
      obtain ⟨rfl, connecting⟩ | ⟨rfl, error⟩ := which
      · exact exec_connectingTimeout h connecting
      · exact exec_cmDrep_of_error h error
    exact ⟨_, freed, State.qp?_freeCtx_self wf, rfl, fun x hx => State.qp?_freeCtx_of_ne hx⟩

/-! ## Commands after an operation -/

section
variable {s : State} {n m : Nat} {c : Cmd}

theorem State.cmd?_onCmd_self (f : Cmd → Cmd) (h : s.cmd? n = some c) : (s.onCmd n f).cmd? n = some (f c) :=
  tget_tmod_self f h

@[simp] theorem State.cmd?_onCmd_of_ne (f : Cmd → Cmd) (h : m ≠ n) : (s.onCmd n f).cmd? m = s.cmd? m :=
  tget_tmod_of_ne s.sch.cmds f h

theorem State.withCmd_pos {p : Cmd → Bool} (f : Cmd → State) (h : s.cmd? n = some c) (hp : p c = true) :
    s.withCmd n p f = f c := by
  simp [State.withCmd, h, hp]

/-! ## What intake finds once the key is known (R128, R139, R142) -/

/-- A command whose tag no record has is no resubmission to be completed. -/
theorem State.resubmit_of_no_record (h : s.cmd? n = some c) (new : ∀ r ∈ s.sch.outcomes, r.tag ≠ c.desc.tag) :
    s.resubmit n = s := by
  have unknown : s.recordOf c = none := List.find?_eq_none.mpr fun r hr => by simp [new r hr]
  simp [State.resubmit, h, unknown]

theorem State.endHeld_of_no_conds (h : s.cmd? n = some c) (clean : c.conds = []) : s.endHeld n = s := by
  simp [State.endHeld, h, clean]

/-- Nothing is found in a command with no condition, whose pattern parses and whose tag no record has. -/
theorem State.keyKnown_of_clean (h : s.cmd? n = some c) (clean : c.conds = [])
    (parses : ∀ k, c.key = some k → patternInvalid c.op k = false) (new : ∀ r ∈ s.sch.outcomes, r.tag ≠ c.desc.tag) :
    s.keyKnown n = s := by
  have key : (match c.key with
      | some k => if patternInvalid c.op k then (s.addCond n .invalidDescriptor).failCmd n 0 else s
      | none => s) = s := by
    cases k : c.key with
    | none => rfl
    | some k' => exact if_neg (by simp [parses k' k])
  simp only [State.keyKnown, h]
  refine Eq.trans (congrArg (fun t : State => (t.resubmit n).endHeld n) key) ?_
  rw [State.resubmit_of_no_record h new, State.endHeld_of_no_conds h clean]

end

/-! ## Completions (R109, R120 to R127, R189) -/

section
variable {s : State} {n ctx : Nat} {c : Cmd} {q : Qp} {o : Outcome}

theorem exec_keyFetch {key : Bytes} (h : s.cmd? n = some c) (waits : c.key = none) (needed : c.op.usesKeyArea = true)
    (undecided : c.decided = false) :
    exec (.keyFetch n key) s
      = .next ((s.onCmd n fun c => { c with key := some (padTo c.desc.keyLen key) }).keyKnown n) := by
  show execKeyFetch n key s = _
  rw [execKeyFetch, State.withCmd_pos _ h (by simp [waits, needed, undecided])]

/-- A decided command's entry goes out, before a DRAINING queue pair is settled. -/
def State.sendEntry (s : State) (n ctx : Nat) (c : Cmd) (q : Qp) (o : Outcome) : State :=
  ((((s.onQp ctx fun p => { p with
    cqCount := (p.cqCount + 1) % 2 ^ 32, unnotified := if q.notifies then 0 else p.unnotified + 1
    lastEntry := c.entry p o, lastClass := c.runClass }).touchCtx ctx).onNfe fun n => { n with
      lastCompletion := some s.flt.time }).sendAs ctx c.runClass
        (q.entryWrite ctx q.cqCount (c.entry q o) q.notifies)).onCmd n fun c => { c with stage := .written }

theorem State.writeCompletion_of_done (h : s.cmd? n = some c) (done : c.stage = .done) (mine : c.orphan = false)
    (from_ : c.ctx = some ctx) (decided : c.outcome = some o) (hq : s.qp? ctx = some q) (live : q.live = true) :
    s.writeCompletion n = (s.sendEntry n ctx c q o).settleDrain ctx := by
  rw [State.writeCompletion, State.withCmd_pos _ h (by simp [done, mine])]
  simp only [from_, decided]
  rw [State.withQp_pos _ hq live]
  rfl

/-- The entry of the class that the transmit port grants to SCH goes out (R23 to R25). -/
def State.entryWritten (s : State) (n ctx : Nat) (c : Cmd) (q : Qp) (o : Outcome) : State :=
  (s.onSch fun h => { h with rrDone := classPointer h.rrDone c.runClass }).sendEntry n ctx c q o

theorem exec_completionWrite (h : s.cmd? n = some c) (done : c.stage = .done) (mine : c.orphan = false)
    (from_ : c.ctx = some ctx) (decided : c.outcome = some o) (hq : s.qp? ctx = some q) (live : q.live = true)
    (granted : s.txGrant = some (c.runClass, 0)) :
    exec (.completionWrite n) s = .next ((s.entryWritten n ctx c q o).settleDrain ctx) := by
  have ready : s.entryReady c = true := by simp [State.entryReady, done, mine, from_, hq, live]
  show execCompletionWrite n s = _
  rw [execCompletionWrite, State.withCmd_pos _ h (by simp [ready, granted])]
  exact congrArg _ (State.writeCompletion_of_done (s := s.onSch _) h done mine from_ decided hq live)

/-- A queue pair that does not drain has nothing to settle. -/
theorem State.settleDrain_of_active (h : s.qp? ctx = some q) (active : q.st = .active) : s.settleDrain ctx = s := by
  simp [State.settleDrain, h, active]

theorem exec_completionAcked (h : s.cmd? n = some c) (written : c.stage = .written) :
    exec (.completionAcked n) s = .next (s.onSch fun h => { h with cmds := tdel h.cmds n }).serveIntake := by
  show execCompletionAcked n s = _
  rw [execCompletionAcked, State.withCmd_pos _ h (by simp [written])]
  rfl

theorem exec_coalesceTimer (h : s.qp? ctx = some q) (active : q.st = .active) (coalesces : q.conn.notify = 2)
    (unnotified : 0 < q.unnotified) :
    exec (.coalesceTimer ctx) s = .next ((s.onQp ctx fun q => { q with unnotified := 0 }).sendAs ctx q.lastClass
      (q.entryWrite ctx ((q.cqCount + 2 ^ 32 - 1) % 2 ^ 32) q.lastEntry true)) := by
  show execCoalesceTimer ctx s = _
  rw [execCoalesceTimer, State.withQp_pos _ h (by simp [Qp.live, active, coalesces, unnotified])]

/-- The record whose hold has passed is the first one that the event names. -/
theorem exec_outcomeRecordExpiry {r : OutcomeRec} {rest : List OutcomeRec} (h : s.sch.outcomes = r :: rest)
    (holding : r.holding = true) :
    exec (.outcomeRecordExpiry r.session.toNat r.tag) s
      = .next (s.onSch fun h => { h with outcomes := rest }).serveIntake := by
  show execOutcomeRecordExpiry r.session.toNat r.tag s = _
  simp [execOutcomeRecordExpiry, State.onSch, h, holding]

end

/-- Settles O14: the key by `State.keyKnown_of_clean`, the entry by `State.entryWritten`, the rest by the equation of its
command. -/
theorem completionsReachTheClient : Obligations.CompletionsReachTheClient := by
  refine ⟨fun s n c key h waits needed undecided clean parses new => ?_,
    fun s n ctx c q o h done mine from_ decided hq live granted => ?_, fun s n c wf h written => ?_,
    fun s ctx q h active coalesces unnotified => ?_, fun s r rest h holding => ?_⟩
  · refine ⟨_, exec_keyFetch h waits needed undecided, ?_⟩
    have held := State.cmd?_onCmd_self (fun c => { c with key := some (padTo c.desc.keyLen key) }) h
    rw [State.keyKnown_of_clean held clean (fun k hk => Option.some.inj hk ▸ parses) new]
    exact ⟨held, fun m hm => State.cmd?_onCmd_of_ne _ hm, (keeps_onCmd _ _ (Keeps.refl _ s) (by simp)).onlyChanges⟩
  · have context : (s.entryWritten n ctx c q o).qp? ctx = some { q with
        cqCount := (q.cqCount + 1) % 2 ^ 32, unnotified := if q.notifies then 0 else q.unnotified + 1
        lastEntry := c.entry q o, lastClass := c.runClass } := tget_tmod_self _ hq
    refine ⟨_, exec_completionWrite h done mine from_ decided hq live granted,
      fun active => State.settleDrain_of_active context active, tget_tmod_self _ h, context, ⟨[_], rfl, rfl⟩,
      fun m hm => tget_tmod_of_ne s.sch.cmds _ hm, ?_⟩
    exact (keeps_onCmd _ _ (keeps_sendAs _ _ _ (keeps_onNfe _ (keeps_touchCtx _ (keeps_onQp _ _ (keeps_onSch _
      (Keeps.refl _ s) (by simp)) (by simp)) (by simp)) (by simp)) (by simp)) (by simp)).onlyChanges
  · exact ⟨_, exec_completionAcked h written, tget_tdel_self _ _ wf, fun m hm => tget_tdel_of_ne s.sch.cmds n m hm,
      fun empty => State.serveIntake_of_nil empty, (keeps_onSch _ (Keeps.refl _ s) (by simp)).onlyChanges⟩
  · exact ⟨_, exec_coalesceTimer h active coalesces unnotified, State.qp?_onQp_self _ h, ⟨[_], rfl, rfl⟩,
      fun x hx => State.qp?_onQp_of_ne _ hx,
      (keeps_sendAs _ _ _ (keeps_onQp _ _ (Keeps.refl _ s) (by simp)) (by simp)).onlyChanges⟩
  · exact ⟨_, exec_outcomeRecordExpiry h holding, rfl, fun empty => State.serveIntake_of_nil empty,
      (keeps_onSch _ (Keeps.refl _ s) (by simp)).onlyChanges⟩

/-! ## Fetches (R23 to R25, R116, R117) -/

theorem roundRobin_single (ptr n : Nat) : roundRobin ptr [n] = some n := by
  by_cases h : ptr ≤ n <;> simp [roundRobin, h]

/-- The entries of a well-formed table are what it reads. -/
theorem tget_of_mem {α : Type} {t : Tbl α} (wf : Tbl.wf t = true) {e : Nat × α} (he : e ∈ t) : tget t e.1 = some e.2 := by
  induction t with
  | nil => cases he
  | cons d t ih =>
    obtain ⟨above, rest⟩ := (Tbl.wf_cons d.1 d.2 t).mp wf
    rcases List.mem_cons.mp he with rfl | he
    · simp [tget]
    · simp [tget, Nat.ne_of_lt (above e he), ih rest he]

/-- A test that one number alone passes leaves its entry. -/
theorem filter_eq_single {α : Type} {t : Tbl α} {n : Nat} {a : α} {p : Nat × α → Bool} (wf : Tbl.wf t = true)
    (h : tget t n = some a) (passes : p (n, a) = true) (only : ∀ e ∈ t, p e = true → e.1 = n) :
    t.filter p = [(n, a)] := by
  induction t with
  | nil => cases h
  | cons e t ih =>
    obtain ⟨k, v⟩ := e
    obtain ⟨above, rest⟩ := (Tbl.wf_cons k v t).mp wf
    by_cases hk : k = n
    · obtain rfl : v = a := by simpa [tget, hk] using h
      have others : t.filter p = [] := List.filter_eq_nil_iff.mpr fun e he hp => by
        have less := above e he
        have equal := only e (List.mem_cons_of_mem _ he) hp
        omega
      rw [hk, List.filter_cons_of_pos passes, others]
    · have fails : ¬ p (k, v) = true := fun hp => hk (only _ (List.mem_cons_self ..) hp)
      rw [List.filter_cons_of_neg fails, ih rest (by simpa [tget, hk] using h)
        fun e he => only e (List.mem_cons_of_mem _ he)]

section
variable {s : State} {ctx : Nat} {q : Qp} {k : SvcClass}

theorem State.grantFetch_eq (h : s.qp? ctx = some q) :
    s.grantFetch ctx = ((s.onQp ctx fun p => { p with fetching := s.fetchCount ctx q }).touchCtx ctx).send
      (q.fetchFrom ctx (s.fetchCount ctx q)) := by
  rw [State.grantFetch, State.withQp_pos _ h rfl]

theorem sends_grantFetch (h : s.qp? ctx = some q) :
    Sends s (s.grantFetch ctx) [q.fetchFrom ctx (s.fetchCount ctx q)] := by
  rw [State.grantFetch_eq h]
  exact ⟨[_], rfl, rfl⟩

/-- The pointers of the fetch arbiter and of the transmit port after a grant (R24, R117). -/
def State.fetchGranted (s : State) (ctx : Nat) (express : Bool) (k : SvcClass) : State :=
  ((s.grantFetch ctx).onNfe fun n => if express then { n with rrExpress := ctx + 1 } else { n with rrOther := ctx + 1 }).onSch
    fun h => { h with rrDone := classPointer h.rrDone k }

theorem exec_descriptorFetch {express : Bool} (chosen : s.nextFetch = some (ctx, express)) (grant : s.txGrant = some (k, 2)) :
    exec .descriptorFetch s = .next (s.fetchGranted ctx express k) := by
  show execDescriptorFetch s = _
  simp only [execDescriptorFetch, chosen, grant]
  rfl

theorem State.qps_fetchGranted (s : State) (ctx : Nat) (express : Bool) (k : SvcClass) :
    (s.fetchGranted ctx express k).nfe.qps = (s.grantFetch ctx).nfe.qps := by
  cases express <;> rfl

theorem State.tx_fetchGranted (s : State) (ctx : Nat) (express : Bool) (k : SvcClass) :
    (s.fetchGranted ctx express k).nfe.tx = (s.grantFetch ctx).nfe.tx := by
  cases express <;> rfl

/-- The tail bounds a fetch. -/
theorem State.fetchCount_le_published (s : State) (ctx : Nat) (q : Qp) :
    s.fetchCount ctx q ≤ (q.tail + 2 ^ 32 - q.head) % 2 ^ 32 :=
  (min_le_right _ _).trans (min_le_left _ _)

/-- So does the credit. -/
theorem State.fetchCount_le_credit (s : State) (ctx : Nat) (q : Qp) :
    s.fetchCount ctx q ≤ q.conn.maxOut - s.outstanding ctx :=
  (min_le_left _ _).trans (min_le_right _ _)

/-- The only queue pair that may fetch is next. -/
theorem State.nextFetch_of_single (wf : Tbl.wf s.nfe.qps = true) (h : s.qp? ctx = some q) (may : s.mayFetch ctx q = true)
    (only : ∀ x p, s.qp? x = some p → s.mayFetch x p = true → x = ctx) :
    s.nextFetch = some (ctx, q.conn.expressQp) := by
  have ready : (s.nfe.qps.filter fun e => s.mayFetch e.1 e.2) = [(ctx, q)] :=
    filter_eq_single wf h may fun e he => only e.1 e.2 (tget_of_mem wf he)
  cases express : q.conn.expressQp
  · simp [State.nextFetch, ready, express, roundRobin_single]
    rfl
  · simp [State.nextFetch, ready, express, roundRobin_single]

/-- With no entry to go out, the transmit port grants the fetch that is next. -/
theorem State.txGrant_of_fetch {express : Bool} (chosen : s.nextFetch = some (ctx, express))
    (quiet : ∀ e ∈ s.sch.cmds, s.entryReady e.2 = false) :
    s.txGrant = some (if express then .express else .normal, 2) := by
  have entries : (s.sch.cmds.filter fun e => s.entryReady e.2) = [] :=
    List.filter_eq_nil_iff.mpr fun e he => by simp [quiet e he]
  have ready : s.txReady = [(if express then .express else .normal, 2)] := by
    cases express <;> simp [State.txReady, entries, chosen]
  cases express <;> simp [State.txGrant, ready, classGrant, roundRobin_single, SvcClass.code, SvcClass.ofCode]

end

/-! ## Phases (R118) -/

section
variable {s : State} {ctx : Nat} {q : Qp} {raw : Bytes}

theorem padTo_of_length {n : Nat} {b : Bytes} (h : b.length = n) : padTo n b = b := by
  simp [padTo, ← h]

/-- A fetched descriptor by its phase. -/
theorem exec_descriptorAccept (h : s.qp? ctx = some q) (active : q.st = .active) (fetched : 0 < q.fetching)
    (goes : s.fetchStopped q = false) (len : raw.length = 128) :
    exec (.descriptorAccept ctx raw) s
      = .next (if (parseDesc raw).phase = phaseOf q.conn.ringLog2 q.head then s.acceptDesc ctx q (parseDesc raw)
          else s.onQp ctx fun q => { q with fetching := 0, phaseWait := true }) := by
  show execDescriptorAccept ctx raw s = _
  rw [execDescriptorAccept, State.withQp_pos _ h (by simp [active, fetched, goes]), padTo_of_length len]

/-- The re-fetch of the head by the tries that have failed. -/
theorem exec_phaseRefetch (h : s.qp? ctx = some q) (active : q.st = .active) (waits : q.phaseWait = true)
    (goes : s.fetchStopped q = false) :
    exec (.phaseRefetch ctx) s
      = .next (if s.fld Reg.QPM_FETCH_CFG_PHASE_RETRIES ≤ q.phaseTries then s.qpError ctx 0x14
          else ((s.onQp ctx fun q => { q with phaseWait := false, fetching := 1, phaseTries := q.phaseTries + 1 }).bump
            Reg.QPM_ERR_STAT_PHASE_REFETCHES).send (q.fetchFrom ctx 1)) := by
  show execPhaseRefetch ctx s = _
  rw [execPhaseRefetch, State.withQp_pos _ h (by simp [active, waits, goes])]

end
/-! ## What a command keeps of its acceptance -/

/-- What the acceptance of a descriptor fixes in its command. -/
structure Origin where
  ctx : Option Nat
  op : Opcode
  count : Nat
  desc : Desc
  version : Nat
  orphan : Bool
  counted : Nat

def Cmd.origin (c : Cmd) : Origin := ⟨c.ctx, c.op, c.count, c.desc, c.version, c.orphan, c.counted⟩

/-- An operation that leaves command n with the origin that it has, no number of a command or a version taken, and NFE as it
is. -/
structure Carries (n : Nat) (s t : State) : Prop where
  origin : (t.cmd? n).map Cmd.origin = (s.cmd? n).map Cmd.origin
  nfe : t.nfe = s.nfe
  nextVersion : t.sch.nextVersion = s.sch.nextVersion
  nextCmd : t.sch.nextCmd = s.sch.nextCmd

section
variable {s t u : State} {n : Nat}

theorem Carries.refl (n : Nat) (s : State) : Carries n s s := ⟨rfl, rfl, rfl, rfl⟩

theorem Carries.trans (h : Carries n s t) (k : Carries n t u) : Carries n s u :=
  ⟨k.origin.trans h.origin, k.nfe.trans h.nfe, k.nextVersion.trans h.nextVersion, k.nextCmd.trans h.nextCmd⟩

/-- An operation on other parts. -/
theorem Carries.of_same (sch : t.sch = s.sch) (nfe : t.nfe = s.nfe) : Carries n s t :=
  ⟨by rw [State.cmd?, sch, State.cmd?], nfe, by rw [sch], by rw [sch]⟩

/-- An operation that is known to keep SCH and NFE. -/
theorem Carries.of_keeps (h : Keeps (fun p => p ≠ .sch ∧ p ≠ .nfe) s t) : Carries n s t :=
  .of_same (h.same .sch (by simp)) (h.same .nfe (by simp))

/-- The command as it is found afterwards. -/
theorem Carries.find (h : Carries n s t) {c : Cmd} (found : s.cmd? n = some c) :
    ∃ d, t.cmd? n = some d ∧ d.origin = c.origin := by
  have origin := h.origin
  rw [found, Option.map_some] at origin
  exact Option.map_eq_some_iff.mp origin

/-- A change of any command that keeps its origin. -/
theorem carries_onCmd (m : Nat) (f : Cmd → Cmd) (keeps : ∀ c, (f c).origin = c.origin) : Carries n s (s.onCmd m f) := by
  refine ⟨?_, rfl, rfl, rfl⟩
  by_cases h : n = m
  · subst h
    cases found : s.cmd? n with
    | none => rw [State.cmd?, State.onCmd, State.onSch_sch, tmod, show tget s.sch.cmds n = none from found]
              exact congrArg _ found
    | some c => rw [State.cmd?_onCmd_self f found, Option.map_some, Option.map_some, keeps]
  · rw [State.cmd?_onCmd_of_ne f h]

/-- A run of such operations. -/
theorem carries_foldl {α : Type} (f : State → α → State) (step : ∀ s a, Carries n s (f s a)) (l : List α) (s : State) :
    Carries n s (l.foldl f s) := by
  induction l generalizing s with
  | nil => exact .refl n s
  | cons a l ih => exact (step s a).trans (ih (f s a))

theorem carries_sendCredit (queue channel cls : Nat) : Carries n s (s.sendCredit queue channel cls) := ⟨rfl, rfl, rfl, rfl⟩

theorem carries_returnCredit (queue channel cls : Nat) : Carries n s (s.returnCredit queue channel cls) :=
  ⟨rfl, rfl, rfl, rfl⟩

theorem carries_toSch (m : Nat) : Carries n s (s.toSch m) := by
  unfold State.toSch
  split
  · exact .refl n s
  · split
    · exact carries_onCmd _ _ fun _ => rfl
    · exact (carries_sendCredit _ _ _).trans (carries_onCmd _ _ fun _ => rfl)

theorem carries_serveStaged (s : State) : Carries n s s.serveStaged :=
  carries_foldl _ (fun s e => by
    split
    · exact carries_toSch _
    · exact .refl n s) _ s

theorem carries_leaveIntake (m : Nat) : Carries n s (s.leaveIntake m) := by
  unfold State.leaveIntake
  split
  · exact .refl n s
  · split
    · exact (carries_returnCredit _ _ _).trans (carries_serveStaged _)
    · exact .refl n s

theorem carries_bump (f : Field) (k : Nat) : Carries n s (s.bump f k) := ⟨rfl, rfl, rfl, rfl⟩

theorem carries_releaseWork (c : Cmd) : Carries n s (s.releaseWork c) :=
  .of_keeps (keeps_releaseWork c (Keeps.refl _ s) (by simp) (by simp) (by simp) (by simp))

theorem carries_dropRef (m : Nat) : Carries n s (s.dropRef m) := by
  unfold State.dropRef
  split
  · exact .refl n s
  · rename_i slot gen _
    have modified : Carries n s (s.modRefs slot gen (· - 1)) := .of_keeps (keeps_modRefs _ _ _ (Keeps.refl _ s) (by simp))
    exact modified.trans (carries_onCmd m (fun c => { c with slotRef := none }) fun _ => rfl)

theorem carries_dropHolds (m : Nat) : Carries n s (s.dropHolds m) := by
  unfold State.dropHolds
  split
  · exact .refl n s
  · split
    · exact .refl n s
    · rename_i c _ _
      have given : Carries n s (s.giveHolds c.holds) := ⟨rfl, rfl, rfl, rfl⟩
      refine (given.trans (carries_onCmd m (fun c => { c with holds := [] }) fun _ => rfl)).trans (.of_keeps ?_)
      exact keeps_freeDeadSkeins (Keeps.refl _ _) (by simp) (by simp) (by simp) (by simp)

theorem carries_dropTokens (m : Nat) : Carries n s (s.dropTokens m) := ⟨rfl, rfl, rfl, rfl⟩

theorem carries_settleLimbo (s : State) : Carries n s s.settleLimbo := ⟨rfl, rfl, rfl, rfl⟩

/-! ## A client's command ends -/

/-- A command of a client whose queue pair is in service. -/
def State.ofClient (s : State) (n : Nat) : Prop := ∃ c, s.cmd? n = some c ∧ c.ctx.isSome = true ∧ c.orphan = false

theorem Carries.ofClient (h : Carries n s t) (client : s.ofClient n) : t.ofClient n := by
  obtain ⟨c, found, ctx, mine⟩ := client
  obtain ⟨d, found', origin⟩ := h.find found
  exact ⟨d, found', (congrArg (·.ctx.isSome) origin).trans ctx, (congrArg Origin.orphan origin).trans mine⟩

theorem State.retireOrphan_of_client (client : s.ofClient n) : s.retireOrphan n = s := by
  obtain ⟨c, found, -, mine⟩ := client
  simp [State.retireOrphan, found, mine]

theorem State.answerPeer_of_client (client : s.ofClient n) : s.answerPeer n = s := by
  obtain ⟨c, found, ctx, -⟩ := client
  obtain ⟨x, hx⟩ := Option.isSome_iff_exists.mp ctx
  simp [State.answerPeer, found, hx]

@[simp] theorem State.cmd?_dropTokens (m : Nat) : (s.dropTokens m).cmd? n = s.cmd? n := rfl
@[simp] theorem State.cmd?_settleLimbo : s.settleLimbo.cmd? n = s.cmd? n := rfl

/-- A SHED command is counted (R500). -/
def State.countShed (s : State) (c : Cmd) (o : Outcome) : State :=
  if o.status = .shed ∧ c.ctx.isSome = true then
    if c.op.isWrite then s.bump Reg.PWR_SHED_CNT_SHED_WRITES else s.bump Reg.PWR_SHED_CNT_SHED_READS
  else s

/-- What a write stored and does not commit is given up (R283). -/
def State.releaseUncommitted (s : State) (c : Cmd) : State :=
  if c.op.isWrite && !c.committed then s.releaseWork c else s

/-- What an ended command gives up before its outcome stands. -/
def State.unwound (s : State) (n : Nat) (c : Cmd) (o : Outcome) : State :=
  (((((s.leaveIntake n).countShed c o).releaseUncommitted c).dropRef n).dropHolds n).onVal fun v => { v with
    waitRepair := v.waitRepair.filter (· ≠ n),
    repairs := v.repairs.map fun e => (e.1, { e.2 with readers := e.2.readers.filter (· ≠ n) }) }

/-- A command with its outcome. -/
def Cmd.ended (c : Cmd) (o : Outcome) : Cmd := { c with stage := .done, outcome := some (c.filled o), work := [], maps := none }

theorem State.endCmd_eq {c : Cmd} {o : Outcome} (found : s.cmd? n = some c) (undecided : c.decided = false) :
    s.endCmd n o
      = (((((s.unwound n c o).onCmd n (Cmd.ended · o)).dropTokens n).settleLimbo.retireOrphan n).answerPeer n) := by
  rw [State.endCmd, found]
  exact if_neg (by simp [undecided])

theorem State.endCmd_of_decided {c : Cmd} {o : Outcome} (found : s.cmd? n = some c) (decided : c.decided = true) :
    s.endCmd n o = s := by
  simp [State.endCmd, found, decided]

theorem carries_countShed (c : Cmd) (o : Outcome) : Carries n s (s.countShed c o) := by
  unfold State.countShed
  split
  · split <;> exact carries_bump _ _
  · exact .refl n s

theorem carries_releaseUncommitted (c : Cmd) : Carries n s (s.releaseUncommitted c) := by
  unfold State.releaseUncommitted
  split
  · exact carries_releaseWork c
  · exact .refl n s

theorem carries_unwound (c : Cmd) (o : Outcome) : Carries n s (s.unwound n c o) :=
  ((((carries_leaveIntake n).trans (carries_countShed c o)).trans (carries_releaseUncommitted c)).trans
    ((carries_dropRef n).trans (carries_dropHolds n))).trans ⟨rfl, rfl, rfl, rfl⟩

/-- The opcode, the descriptor and the writes before it fill an outcome (R140). -/
theorem Cmd.filled_congr {c d : Cmd} (h : d.origin = c.origin) (o : Outcome) : d.filled o = c.filled o := by
  have op : d.op = c.op := congrArg Origin.op h
  have desc : d.desc = c.desc := congrArg Origin.desc h
  have counted : d.counted = c.counted := congrArg Origin.counted h
  simp only [Cmd.filled, op, desc, counted]

/-- A client's command that ends keeps its origin and takes its outcome. -/
theorem State.endCmd_of_client {c : Cmd} (o : Outcome) (found : s.cmd? n = some c) (client : s.ofClient n)
    (undecided : c.decided = false) :
    Carries n s (s.endCmd n o) ∧ ∃ d, (s.endCmd n o).cmd? n = some d ∧ d.outcome = some (d.filled o) := by
  have unwound : Carries n s (s.unwound n c o) := carries_unwound c o
  obtain ⟨d, found', -⟩ := unwound.find found
  have ended : Carries n s ((((s.unwound n c o).onCmd n (Cmd.ended · o)).dropTokens n).settleLimbo) :=
    ((unwound.trans (carries_onCmd n (Cmd.ended · o) fun _ => rfl)).trans (carries_dropTokens n)).trans
      (carries_settleLimbo _)
  rw [State.endCmd_eq found undecided, State.retireOrphan_of_client (ended.ofClient client),
    State.answerPeer_of_client (ended.ofClient client)]
  refine ⟨ended, d.ended o, ?_, congrArg some (Cmd.filled_congr (c := d.ended o) rfl o)⟩
  rw [State.cmd?_settleLimbo, State.cmd?_dropTokens]
  exact State.cmd?_onCmd_self (Cmd.ended · o) found'

theorem carries_endCmd (o : Outcome) (client : s.ofClient n) : Carries n s (s.endCmd n o) := by
  obtain ⟨c, found, -⟩ := id client
  cases decided : c.decided
  · exact (State.endCmd_of_client o found client decided).1
  · rw [State.endCmd_of_decided found decided]
    exact .refl n s

end

section
variable {s : State} {n : Nat}

theorem State.ofClient_of_found {c : Cmd} (found : s.cmd? n = some c) (ctx : c.ctx.isSome = true) (mine : c.orphan = false) :
    s.ofClient n := ⟨c, found, ctx, mine⟩

/-- A mismatch of the client's check value is counted before the command ends (R145). -/
def State.countMismatch (s : State) (st : Status) : State :=
  if st = .e2eCrcMismatch then s.bump Reg.VAL_E2E_STAT_E2E_MISMATCHES else s

theorem carries_countMismatch (st : Status) : Carries n s (s.countMismatch st) := by
  unfold State.countMismatch
  split
  · exact carries_bump _ _
  · exact .refl n s

/-- The outcome of a command that ends with a condition (R144). -/
def failure (st : Status) (version : Nat) : Outcome :=
  { Outcome.of st with version := if st = .versionConflict then version else 0 }

theorem State.failCmd_eq {c : Cmd} {version : Nat} (found : s.cmd? n = some c) :
    s.failCmd n version = (s.countMismatch (reported c.conds)).endCmd n (failure (reported c.conds) version) := by
  rw [State.failCmd, found]
  rfl

theorem carries_failCmd (version : Nat) (client : s.ofClient n) : Carries n s (s.failCmd n version) := by
  obtain ⟨c, found, -⟩ := id client
  rw [State.failCmd_eq found]
  exact (carries_countMismatch _).trans (carries_endCmd _ ((carries_countMismatch _).ofClient client))

theorem carries_addCond (st : Status) : Carries n s (s.addCond n st) := carries_onCmd n _ fun _ => rfl

/-- A condition found that ends the command at once. -/
theorem carries_addCond_failCmd (st : Status) (client : s.ofClient n) :
    Carries n s ((s.addCond n st).failCmd n 0) :=
  (carries_addCond st).trans (carries_failCmd 0 ((carries_addCond st).ofClient client))

theorem carries_resubmit (client : s.ofClient n) : Carries n s (s.resubmit n) := by
  unfold State.resubmit
  split
  · exact .refl n s
  · split
    · exact .refl n s
    · split
      · exact .refl n s
      · split
        · exact carries_addCond_failCmd _ client
        · split
          · exact .refl n s
          · split
            · exact carries_addCond_failCmd _ client
            · have drawn : Carries n s s.drawNat.2 := ⟨rfl, rfl, rfl, rfl⟩
              exact drawn.trans (carries_endCmd _ (drawn.ofClient client))

theorem carries_endHeld (client : s.ofClient n) : Carries n s (s.endHeld n) := by
  unfold State.endHeld
  split
  · exact .refl n s
  · split
    · exact .refl n s
    · exact carries_failCmd 0 client

/-- What intake finds ends a command or not; its origin stays. -/
theorem carries_keyKnown (client : s.ofClient n) : Carries n s (s.keyKnown n) := by
  have rest {t : State} (h : Carries n s t) : Carries n s ((t.resubmit n).endHeld n) :=
    have resubmitted := h.trans (carries_resubmit (h.ofClient client))
    resubmitted.trans (carries_endHeld (resubmitted.ofClient client))
  unfold State.keyKnown
  split
  · exact .refl n s
  · refine rest ?_
    split
    · split
      · exact carries_addCond_failCmd _ client
      · exact .refl n s
    · exact .refl n s

end

/-! ## Acceptance (R118, R119, R170 to R172, R189) -/

/-- The head rises (R118). -/
def State.headTaken (s : State) (ctx : Nat) : State :=
  s.onQp ctx fun q => { q with head := (q.head + 1) % 2 ^ 32, fetching := q.fetching - 1, phaseTries := 0 }

/-- The version of a command, and the state after (R171). -/
def State.versionTaken (s : State) (op : Opcode) : Nat × State := if op.isWrite then s.assignVersion else (0, s)

/-- The retention entry of a command (R189). -/
def State.entryTaken (s : State) (n : Nat) (c : Cmd) : State :=
  s.onSch fun h => { h with cmds := tset h.cmds n c, nextCmd := n + 1, rrIntake := 1 }

/-- A descriptor goes to SCH when its class has a credit, else it is staged (R119). -/
def State.toSchIf (s : State) (credit : Bool) (n : Nat) : State := if credit then s.toSch n else s

/-- The state once a descriptor's head, version, retention entry and credit are taken. -/
def State.descTaken (s : State) (ctx : Nat) (q : Qp) (d : Desc) (op : Opcode) : State :=
  let v := (s.headTaken ctx).versionTaken op
  let cls := s.intakeClass q.conn d op
  (v.2.entryTaken v.2.sch.nextCmd (Cmd.accepted ctx q d op cls v.1 .staged)).toSchIf
    (decide (0 < (v.2.pool 0 0 cls.code).1)) v.2.sch.nextCmd

/-- A command with the conditions found at intake. -/
def Cmd.withConds (c : Cmd) (conds : List Status) (s : State) : Cmd :=
  let c := { c with conds := conds }
  { c with conds := conds ++ s.handleConds c }

/-- The key of a command is read where its descriptor points to it (R109). -/
def State.keyAsked (s : State) (n ctx : Nat) (d : Desc) (op : Opcode) : State :=
  match s.cmd? n with
  | some c => if c.key.isNone && op.usesKeyArea && !c.decided then
      s.sendAs ctx c.cls (.keyRead ctx d.keyAddr d.keyRkey d.keyLen) else s
  | none => s

/-- What intake finds in a descriptor taken (R44, R65, R108, R110, R139, R142). -/
def State.descChecked (s : State) (n ctx : Nat) (q : Qp) (d : Desc) (op : Opcode) : State :=
  if descInvalid q.conn d then
    (s.onCmd n fun c => { c with conds := .invalidDescriptor :: s.intakeConds q.conn op }).failCmd n 0
  else ((s.onCmd n fun c => c.withConds (s.intakeConds q.conn op) s).keyKnown n).keyAsked n ctx d op

section
variable {s : State} {ctx n : Nat} {q : Qp} {d : Desc} {op : Opcode}

theorem State.acceptDesc_eq (known : (Opcode.ofCode d.opcode).getD .nop = op) (awake : s.blockInReset .sch = false)
    (room : s.retentionFree (s.intakeClass q.conn d op) = true)
    (below : op.isWrite = true → s.sch.nextVersion < s.ldg.kept.versionCeiling) :
    s.acceptDesc ctx q d
      = (s.descTaken ctx q d op).descChecked ((s.headTaken ctx).versionTaken op).2.sch.nextCmd ctx q d op := by
  subst known
  have goes : (s.blockInReset .sch || !s.retentionFree (s.intakeClass q.conn d ((Opcode.ofCode d.opcode).getD .nop))
      || (((Opcode.ofCode d.opcode).getD .nop).isWrite && decide (s.ldg.kept.versionCeiling ≤ s.sch.nextVersion))) = false := by
    rw [awake, room]
    cases write : ((Opcode.ofCode d.opcode).getD .nop).isWrite
    · rfl
    · simp [below write]
  rw [State.acceptDesc]
  exact if_neg (by simp [goes])
end

/-! What taking a descriptor leaves. -/

@[simp] theorem State.sch_keepMeta (s : State) (object n lines : Nat) : (s.keepMeta object n lines).sch = s.sch :=
  (keeps_keepMeta (r := (· ≠ .sch)) object n lines (Keeps.refl _ s) (by simp) (by simp) (by simp)).same .sch (by simp)

@[simp] theorem State.pwr_keepMeta (s : State) (object n lines : Nat) : (s.keepMeta object n lines).pwr = s.pwr :=
  (keeps_keepMeta (r := (· ≠ .pwr)) object n lines (Keeps.refl _ s) (by simp) (by simp) (by simp)).same .pwr (by simp)

section
variable {s t : State} {ctx n : Nat} {q : Qp} {d : Desc} {op : Opcode} {c : Cmd}

/-- The conditions found at intake rest on the tenants, on shedding, and on bind-off. -/
theorem State.intakeConds_congr (tenants : t.sch.tenants = s.sch.tenants) (pwr : t.pwr = s.pwr)
    (bindOff : t.ldg.kept.bindOff = s.ldg.kept.bindOff) (conn : QpConn) (op : Opcode) :
    t.intakeConds conn op = s.intakeConds conn op := by
  unfold State.intakeConds State.tenant
  rw [tenants, pwr, bindOff]

/-- A version is taken, and the stored ceiling raised where it comes near (R172). -/
structure VersionTaken (s : State) (op : Opcode) (v : Nat × State) : Prop where
  version : v.1 = if op.isWrite then s.sch.nextVersion else 0
  sch : v.2.sch = { s.sch with nextVersion := if op.isWrite then s.sch.nextVersion + 1 else s.sch.nextVersion }
  nfe : v.2.nfe = s.nfe
  pwr : v.2.pwr = s.pwr
  bindOff : v.2.ldg.kept.bindOff = s.ldg.kept.bindOff

theorem versionTaken_spec (s : State) (op : Opcode) : VersionTaken s op (s.versionTaken op) := by
  unfold State.versionTaken
  split
  · next write =>
    unfold State.assignVersion
    dsimp only
    split <;> exact ⟨by simp [write], by simp [write], by simp, by simp, by simp⟩
  · next read => exact ⟨by simp [read], by simp [read], rfl, rfl, rfl⟩

/-- A descriptor at SCH: its command is accepted, parked or not. -/
theorem State.cmd?_toSch (found : s.cmd? n = some c) :
    ∃ parked, (s.toSch n).cmd? n = some { c with stage := .accepted, parked := parked } := by
  simp only [State.toSch, found]
  split
  · exact ⟨true, State.cmd?_onCmd_self (fun c => { c with stage := .accepted, parked := true }) found⟩
  · exact ⟨c.parked, State.cmd?_onCmd_self (s := s.sendCredit 0 0 c.cls.code) (fun c => { c with stage := .accepted }) found⟩

theorem State.sch_toSch_same (s : State) (n : Nat) :
    (s.toSch n).sch.tenants = s.sch.tenants ∧ (s.toSch n).sch.outcomes = s.sch.outcomes := by
  unfold State.toSch
  split
  · exact ⟨rfl, rfl⟩
  · split <;> exact ⟨rfl, rfl⟩

/-- What stands once a descriptor has been taken. -/
structure DescTaken (s : State) (ctx : Nat) (q : Qp) (d : Desc) (op : Opcode) (t : State) : Prop where
  cmd : ∃ stage parked, (stage = .staged ∨ stage = .accepted) ∧ t.cmd? s.sch.nextCmd = some
    { Cmd.accepted ctx q d op (s.intakeClass q.conn d op) (if op.isWrite then s.sch.nextVersion else 0) .staged with
      stage := stage, parked := parked }
  nfe : t.nfe = (s.headTaken ctx).nfe
  nextVersion : t.sch.nextVersion = if op.isWrite then s.sch.nextVersion + 1 else s.sch.nextVersion
  nextCmd : t.sch.nextCmd = s.sch.nextCmd + 1
  outcomes : t.sch.outcomes = s.sch.outcomes
  conds : t.intakeConds q.conn op = s.intakeConds q.conn op

/-- A staged entry that goes to SCH or not. -/
theorem DescTaken.toSch (h : DescTaken s ctx q d op t) : DescTaken s ctx q d op (t.toSch s.sch.nextCmd) := by
  have carries : Carries s.sch.nextCmd t (t.toSch s.sch.nextCmd) := carries_toSch _
  have keeps : Keeps (· = .sch) t (t.toSch s.sch.nextCmd) := keeps_toSch _ (Keeps.refl _ t) rfl
  obtain ⟨tenants, outcomes⟩ := t.sch_toSch_same s.sch.nextCmd
  obtain ⟨stage, parked, -, found⟩ := h.cmd
  obtain ⟨parked', found'⟩ := State.cmd?_toSch found
  refine ⟨⟨.accepted, parked', .inr rfl, found'⟩, carries.nfe.trans h.nfe, carries.nextVersion.trans h.nextVersion,
    carries.nextCmd.trans h.nextCmd, outcomes.trans h.outcomes, Eq.trans ?_ h.conds⟩
  exact State.intakeConds_congr tenants (keeps.same .pwr (by simp)) (by rw [keeps.same .ldg (by simp)]) _ _

theorem descTaken_spec (s : State) (ctx : Nat) (q : Qp) (d : Desc) (op : Opcode) :
    DescTaken s ctx q d op (s.descTaken ctx q d op) := by
  have v := versionTaken_spec (s.headTaken ctx) op
  have number : ((s.headTaken ctx).versionTaken op).2.sch.nextCmd = s.sch.nextCmd := by rw [v.sch]; rfl
  have entry : DescTaken s ctx q d op (((s.headTaken ctx).versionTaken op).2.entryTaken s.sch.nextCmd
      (Cmd.accepted ctx q d op (s.intakeClass q.conn d op) ((s.headTaken ctx).versionTaken op).1 .staged)) := by
    refine ⟨⟨.staged, false, .inl rfl, ?_⟩, v.nfe, ?_, rfl, ?_, ?_⟩
    · rw [v.version]
      exact tget_tset_self _ _ _
    · exact congrArg Sch.nextVersion v.sch
    · exact (congrArg Sch.outcomes v.sch :)
    · exact State.intakeConds_congr (congrArg Sch.tenants v.sch :) v.pwr v.bindOff _ _
  simp only [State.descTaken, number, State.toSchIf]
  split
  · exact entry.toSch
  · exact entry

/-! What intake finds. -/

theorem State.sch_keyAsked : (s.keyAsked n ctx d op).sch = s.sch := by
  unfold State.keyAsked
  split
  · split <;> rfl
  · rfl

theorem State.qps_keyAsked : (s.keyAsked n ctx d op).nfe.qps = s.nfe.qps := by
  unfold State.keyAsked
  split
  · split <;> rfl
  · rfl

theorem State.cmd?_keyAsked : (s.keyAsked n ctx d op).cmd? n = s.cmd? n := by
  rw [State.cmd?, State.sch_keyAsked, State.cmd?]

/-- The check of a descriptor leaves the command its origin, and the contexts, the versions and the numbers as they are. -/
theorem State.descChecked_keeps (client : s.ofClient n) :
    ((s.descChecked n ctx q d op).cmd? n).map Cmd.origin = (s.cmd? n).map Cmd.origin ∧
      (s.descChecked n ctx q d op).nfe.qps = s.nfe.qps ∧
      (s.descChecked n ctx q d op).sch.nextVersion = s.sch.nextVersion ∧
      (s.descChecked n ctx q d op).sch.nextCmd = s.sch.nextCmd := by
  unfold State.descChecked
  split
  · have marked : Carries n s (s.onCmd n fun c => { c with conds := .invalidDescriptor :: s.intakeConds q.conn op }) :=
      carries_onCmd n _ fun _ => rfl
    have failed := marked.trans (carries_failCmd 0 (marked.ofClient client))
    exact ⟨failed.origin, congrArg Nfe.qps failed.nfe, failed.nextVersion, failed.nextCmd⟩
  · have marked : Carries n s (s.onCmd n fun c => c.withConds (s.intakeConds q.conn op) s) :=
      carries_onCmd n _ fun _ => rfl
    have checked := marked.trans (carries_keyKnown (marked.ofClient client))
    rw [State.cmd?_keyAsked, State.qps_keyAsked, State.sch_keyAsked]
    exact ⟨checked.origin, congrArg Nfe.qps checked.nfe, checked.nextVersion, checked.nextCmd⟩

theorem foldl_higher_of_le {a : Status} {conds : List Status} (h : ∀ st ∈ conds, a.rank ≤ st.rank) :
    conds.foldl Status.higher a = a := by
  induction conds with
  | nil => rfl
  | cons st conds ih =>
    obtain ⟨first, rest⟩ := List.forall_mem_cons.mp h
    rw [List.foldl_cons, Status.higher, if_pos first, ih rest]

/-- Nothing that intake finds stands above an invalid descriptor (R142). -/
theorem State.rank_intakeConds {st : Status} (h : st ∈ s.intakeConds q.conn op) : Status.rank .invalidDescriptor ≤ st.rank := by
  simp only [State.intakeConds, List.mem_append] at h
  rcases h with (h | h) | h <;> (split at h <;> simp at h; subst h; decide)

/-- An invalid descriptor ends its command. -/
theorem State.descChecked_of_invalid (found : s.cmd? n = some c) (client : s.ofClient n) (undecided : c.decided = false)
    (invalid : descInvalid q.conn d = true) :
    ∃ e, (s.descChecked n ctx q d op).cmd? n = some e ∧ e.outcome = some (e.filled (Outcome.of .invalidDescriptor)) := by
  have marked : Carries n s (s.onCmd n fun c => { c with conds := .invalidDescriptor :: s.intakeConds q.conn op }) :=
    carries_onCmd n _ fun _ => rfl
  have found' := State.cmd?_onCmd_self (fun c => { c with conds := .invalidDescriptor :: s.intakeConds q.conn op }) found
  have highest : reported (.invalidDescriptor :: s.intakeConds q.conn op) = .invalidDescriptor :=
    foldl_higher_of_le fun st => State.rank_intakeConds
  rw [State.descChecked, if_pos invalid, State.failCmd_eq found', highest]
  exact (State.endCmd_of_client (failure .invalidDescriptor 0) found' (marked.ofClient client) undecided).2

/-- In a valid descriptor with no condition, whose pattern parses and whose tag no record has, nothing is found. -/
theorem State.descChecked_of_clean (found : s.cmd? n = some c) (valid : descInvalid q.conn d = false)
    (clean : s.intakeConds q.conn op = []) (parses : ∀ k, c.key = some k → patternInvalid c.op k = false)
    (new : ∀ r ∈ s.sch.outcomes, r.tag ≠ c.desc.tag) :
    (s.descChecked n ctx q d op).cmd? n = some { c with conds := [] } := by
  have found' : (s.onCmd n fun c => c.withConds (s.intakeConds q.conn op) s).cmd? n = some { c with conds := [] } := by
    rw [State.cmd?_onCmd_self _ found, clean]
    simp [Cmd.withConds, State.handleConds]
  rw [State.descChecked, if_neg (by simp [valid]), State.cmd?_keyAsked, State.keyKnown_of_clean found' rfl parses new]
  exact found'

end

section
variable {s : State} {ctx : Nat} {q : Qp} {raw : Bytes} {op : Opcode}

/-- A descriptor of the expected phase is accepted, whatever it holds: the context, the command and the counters after it. -/
theorem State.acceptDesc_spec (h : s.qp? ctx = some q) {d : Desc} (known : (Opcode.ofCode d.opcode).getD .nop = op)
    (awake : s.blockInReset .sch = false) (room : s.retentionFree (s.intakeClass q.conn d op) = true)
    (below : op.isWrite = true → s.sch.nextVersion < s.ldg.kept.versionCeiling) :
    ∃ c, (s.acceptDesc ctx q d).qp? ctx = some { q with
          head := (q.head + 1) % 2 ^ 32, fetching := q.fetching - 1, phaseTries := 0 } ∧
        (s.acceptDesc ctx q d).cmd? s.sch.nextCmd = some c ∧ c.ctx = some ctx ∧ c.op = op ∧ c.count = q.head ∧
        c.desc = d ∧
        (descInvalid q.conn d = true → c.outcome = some (c.filled (Outcome.of .invalidDescriptor))) ∧
        (descInvalid q.conn d = false → s.intakeConds q.conn op = [] → (∀ r ∈ s.sch.outcomes, r.tag ≠ d.tag) →
          (d.keyPtr = false → patternInvalid op d.inlineKey = false) → c.conds = [] ∧ c.decided = false) ∧
        c.version = (if op.isWrite then s.sch.nextVersion else 0) ∧
        (s.acceptDesc ctx q d).sch.nextVersion = (if op.isWrite then s.sch.nextVersion + 1 else s.sch.nextVersion) ∧
        (s.acceptDesc ctx q d).sch.nextCmd = s.sch.nextCmd + 1 := by
  have number : ((s.headTaken ctx).versionTaken op).2.sch.nextCmd = s.sch.nextCmd := by
    rw [(versionTaken_spec (s.headTaken ctx) op).sch]
    rfl
  rw [State.acceptDesc_eq known awake room below, number]
  obtain ⟨⟨stage, parked, early, found⟩, nfe, nextVersion, nextCmd, outcomes, conds⟩ := descTaken_spec s ctx q d op
  have client := State.ofClient_of_found found rfl rfl
  obtain ⟨origin, qps, keepsVersion, keepsCmd⟩ := State.descChecked_keeps (ctx := ctx) (q := q) (d := d) (op := op) client
  rw [found, Option.map_some] at origin
  obtain ⟨c, found', origin⟩ := Option.map_eq_some_iff.mp origin
  refine ⟨c, ?_, found', congrArg Origin.ctx origin, congrArg Origin.op origin, congrArg Origin.count origin,
    congrArg Origin.desc origin, fun invalid => ?_, fun valid clean new parses => ?_, congrArg Origin.version origin,
    keepsVersion.trans nextVersion, keepsCmd.trans nextCmd⟩
  · rw [State.qp?, qps, nfe]
    exact State.qp?_onQp_self _ h
  · have undecided : stage ≠ .done ∧ stage ≠ .written := by rcases early with rfl | rfl <;> decide
    obtain ⟨e, found'', outcome⟩ := State.descChecked_of_invalid (ctx := ctx) (q := q) (d := d) (op := op) found client
      (by simp [Cmd.decided, undecided]) invalid
    rw [found'] at found''
    exact Option.some.inj found'' ▸ outcome
  · have checked := State.descChecked_of_clean (ctx := ctx) (q := q) (d := d) (op := op) found valid (conds.trans clean)
      (fun k key => ?_) (by rw [outcomes]; exact new)
    · rw [found'] at checked
      obtain rfl := Option.some.inj checked
      rcases early with rfl | rfl <;> exact ⟨rfl, rfl⟩
    · simp only [Cmd.accepted, Option.ite_none_right_eq_some, Bool.and_eq_true, Bool.not_eq_eq_eq_not, Bool.not_true,
        Option.some.injEq] at key
      obtain ⟨⟨-, inline⟩, rfl⟩ := key
      exact parses inline

end

/-- Settles O13: fetches by `State.fetchGranted` and `State.nextFetch_of_single`, acceptance by `State.acceptDesc_spec`, the
phase by `exec_descriptorAccept` and `exec_phaseRefetch`. -/
theorem fetchAndAccept : Obligations.FetchAndAccept := by
  refine ⟨fun s ctx q express k chosen grant h => ?_, fun s ctx q wf h may only quiet => ?_,
    fun s ctx q raw h active fetched goes awake len phase room below => ?_,
    fun s ctx q raw h active fetched goes len phase => ?_,
    fun s ctx q h active waits goes => ⟨fun few ⟨_, regs⟩ => ?_, fun many => ?_⟩⟩
  · have granted := State.grantFetch_eq h
    refine ⟨_, exec_descriptorFetch chosen grant, ?_, s.fetchCount_le_published ctx q, s.fetchCount_le_credit ctx q,
      fun x hx => ?_, ?_, ?_⟩
    · rw [State.qp?, State.qps_fetchGranted, granted]
      exact State.qp?_onQp_self _ h
    · rw [State.qp?, State.qps_fetchGranted, granted]
      exact State.qp?_onQp_of_ne _ hx
    · obtain ⟨ms, read, sent⟩ := sends_grantFetch h
      exact ⟨ms, read, (s.tx_fetchGranted ctx express k).trans sent⟩
    · rw [State.fetchGranted, granted]
      exact (keeps_onSch _ (keeps_onNfe _ (keeps_send _ (keeps_touchCtx _ (keeps_onQp _ _ (Keeps.refl _ s) (by simp))
        (by simp)) (by simp)) (by simp)) (by simp)).onlyChanges
  · have chosen := State.nextFetch_of_single wf h may only
    exact ⟨chosen, _, State.txGrant_of_fetch chosen quiet⟩
  · obtain ⟨c, spec⟩ := State.acceptDesc_spec h rfl awake room below
    refine ⟨s.acceptDesc ctx q (parseDesc raw), c, ?_, spec⟩
    rw [exec_descriptorAccept h active fetched goes len, if_pos phase]
  · refine ⟨_, exec_descriptorAccept h active fetched goes len, ?_⟩
    rw [if_neg phase]
    exact ⟨State.qp?_onQp_self _ h, fun x hx => State.qp?_onQp_of_ne _ hx, rfl, onNfe_onlyChanges s _⟩
  · refine ⟨_, exec_phaseRefetch h active waits goes, ?_⟩
    rw [if_neg (Nat.not_le.mpr few)]
    exact ⟨State.qp?_onQp_self _ h, ⟨[_], rfl, rfl⟩, State.fld_bump_self (s.onQp ctx _) 1 regs (by decide),
      (keeps_send _ (keeps_bump _ _ (keeps_onQp _ _ (Keeps.refl _ s) (by simp)) (by simp)) (by simp)).onlyChanges⟩
  · rw [exec_phaseRefetch h active waits goes, if_pos many]

end Sys2Proof.Machine
end

section
/-! PROOFS. The family 04_command_set.md: reads (O20), writes (O21), FLUSH and NOP (O22), scans (O23), and value bytes
(O24). -/

namespace Sys2Proof.Machine

/-! ## What a command is after an operation -/

section
variable {s t : State} {n : Nat} {c : Cmd}

/-- A command is read in SCH alone. -/
theorem State.cmd?_of_sch (h : t.sch = s.sch) (n : Nat) : t.cmd? n = s.cmd? n := by
  rw [State.cmd?, h, State.cmd?]

/-- An operation that is known to keep SCH leaves every command. -/
theorem Keeps.cmd? (h : Keeps (· ≠ .sch) s t) (n : Nat) : t.cmd? n = s.cmd? n :=
  State.cmd?_of_sch (h.same .sch (by simp)) n

@[simp] theorem State.cmd?_onVal (f : Val → Val) : (s.onVal f).cmd? n = s.cmd? n := rfl

/-- A command that drops its reference has none. -/
theorem State.cmd?_dropRef (found : s.cmd? n = some c) : (s.dropRef n).cmd? n = some { c with slotRef := none } := by
  have entry : tget s.sch.cmds n = some c := found
  unfold State.dropRef
  rw [entry, Option.bind_some]
  split
  · next none => rw [found, ← none]
  · next slot gen _ =>
    have kept := (keeps_modRefs (r := (· ≠ .sch)) slot gen (· - 1) (Keeps.refl _ s) (by simp)).cmd? n
    exact State.cmd?_onCmd_self (fun c => { c with slotRef := none }) (kept.trans found)

/-- A command that gives up its holds has none. -/
theorem State.cmd?_dropHolds (found : s.cmd? n = some c) : (s.dropHolds n).cmd? n = some { c with holds := [] } := by
  simp only [State.dropHolds, found]
  split
  · next empty => rw [found, ← List.isEmpty_iff.mp empty]
  · rw [(keeps_freeDeadSkeins (r := (· ≠ .sch)) (Keeps.refl _ _) (by simp) (by simp) (by simp) (by simp)).cmd? n]
    exact State.cmd?_onCmd_self (s := s.giveHolds c.holds) (fun c => { c with holds := [] }) found

/-- Only an accepted command stands in SCH's intake queue. -/
theorem State.leaveIntake_of_running (found : s.cmd? n = some c) (running : c.stage ≠ .accepted) :
    s.leaveIntake n = s := by
  simp [State.leaveIntake, found, running]

end

/-! ## Commands end (R140, R142) -/

section
variable {s : State} {n : Nat} {c : Cmd} {o : Outcome}

theorem State.cmd?_countShed (c : Cmd) (o : Outcome) : (s.countShed c o).cmd? n = s.cmd? n := by
  unfold State.countShed
  split
  · split <;> rfl
  · rfl

theorem State.cmd?_releaseUncommitted (c : Cmd) : (s.releaseUncommitted c).cmd? n = s.cmd? n := by
  unfold State.releaseUncommitted
  split
  · exact (keeps_releaseWork (r := (· ≠ .sch)) c (Keeps.refl _ s) (by simp) (by simp) (by simp) (by simp)).cmd? n
  · rfl

/-- A client's command under way, as the operations that end it find it: neither decided nor in the intake queue. -/
structure Cmd.UnderWay (c : Cmd) : Prop where
  ctx : c.ctx.isSome = true
  mine : c.orphan = false
  running : c.stage ≠ .accepted
  undecided : c.decided = false

/-- What tells whether a command is under way. -/
def Cmd.life (c : Cmd) : Option Nat × Bool × Stage := (c.ctx, c.orphan, c.stage)

/-- A command that differs in other fields alone is under way too. -/
theorem Cmd.UnderWay.congr {d : Cmd} (way : c.UnderWay) (h : d.life = c.life) : d.UnderWay := by
  simp only [Cmd.life, Prod.mk.injEq] at h
  obtain ⟨ctx, mine, stage⟩ := h
  exact ⟨by rw [ctx]; exact way.ctx, by rw [mine]; exact way.mine, by rw [stage]; exact way.running,
    by rw [Cmd.decided, stage]; exact way.undecided⟩

theorem Cmd.UnderWay.of_started (ctx : c.ctx.isSome = true) (mine : c.orphan = false) (started : c.stage = .started) :
    c.UnderWay := ⟨ctx, mine, by simp [started], by simp [Cmd.decided, started]⟩

theorem Cmd.UnderWay.of_working (ctx : c.ctx.isSome = true) (mine : c.orphan = false) (working : c.stage = .working) :
    c.UnderWay := ⟨ctx, mine, by simp [working], by simp [Cmd.decided, working]⟩

/-- An ended command has its outcome, and keeps neither work nor reference nor holds. -/
def Cmd.over (c : Cmd) (o : Outcome) : Cmd := { c.ended o with slotRef := none, holds := [] }

theorem State.cmd?_unwound (found : s.cmd? n = some c) (running : c.stage ≠ .accepted) (o : Outcome) :
    (s.unwound n c o).cmd? n = some { c with slotRef := none, holds := [] } := by
  rw [State.unwound, State.cmd?_onVal, State.leaveIntake_of_running found running]
  refine State.cmd?_dropHolds (c := { c with slotRef := none }) (State.cmd?_dropRef ?_)
  rw [State.cmd?_releaseUncommitted, State.cmd?_countShed, found]

/-- What ending a client's command leaves of it. -/
theorem State.cmd?_endCmd (found : s.cmd? n = some c) (way : c.UnderWay) (o : Outcome) :
    (s.endCmd n o).cmd? n = some (c.over o) := by
  obtain ⟨ctx, mine, running, undecided⟩ := way
  have ended : ((((s.unwound n c o).onCmd n (Cmd.ended · o)).dropTokens n).settleLimbo).cmd? n = some (c.over o) := by
    rw [State.cmd?_settleLimbo, State.cmd?_dropTokens]
    exact State.cmd?_onCmd_self (Cmd.ended · o) (State.cmd?_unwound found running o)
  have client := State.ofClient_of_found ended ctx mine
  rw [State.endCmd_eq found undecided, State.retireOrphan_of_client client, State.answerPeer_of_client client, ended]

/-- A client's command that ends waits with its outcome. -/
theorem State.ended_endCmd (found : s.cmd? n = some c) (way : c.UnderWay) (o : Outcome) :
    Ended (s.endCmd n o) n (c.filled o) :=
  ⟨c.over o, State.cmd?_endCmd found way o, rfl, rfl⟩

/-- An ending sends nothing. -/
theorem State.nfe_endCmd (found : s.cmd? n = some c) (way : c.UnderWay) (o : Outcome) : (s.endCmd n o).nfe = s.nfe :=
  (carries_endCmd o (State.ofClient_of_found found way.ctx way.mine)).nfe

theorem State.cmd?_countMismatch (st : Status) : (s.countMismatch st).cmd? n = s.cmd? n := by
  unfold State.countMismatch
  split <;> rfl

/-- What is left of a command that ends with the highest of its conditions. -/
theorem State.cmd?_failCmd (found : s.cmd? n = some c) (way : c.UnderWay) (version : Nat) :
    (s.failCmd n version).cmd? n = some (c.over (failure (reported c.conds) version)) := by
  rw [State.failCmd_eq found]
  exact State.cmd?_endCmd ((State.cmd?_countMismatch _).trans found) way _

/-- Conditions found that end a client's command. -/
theorem State.ended_found {conds : List Status} {st : Status} (found : s.cmd? n = some c) (way : c.UnderWay)
    (clean : c.conds = []) (highest : reported conds = st) (version : Nat) :
    Ended ((s.onCmd n fun c => { c with conds := c.conds ++ conds }).failCmd n version) n
      (c.filled (failure st version)) := by
  have marked := State.cmd?_onCmd_self (fun c => { c with conds := c.conds ++ conds }) found
  refine ⟨_, State.cmd?_failCmd marked (way.congr rfl) version, rfl, ?_⟩
  rw [clean, List.nil_append, highest]
  rfl

/-- No opcode but a write with a value, FLUSH and SCAN_NEXT fills fields of its own (R140). -/
theorem Cmd.filled_of_plain (reads : c.op.readsBuffer = false) (flush : c.op ≠ .flush) (next : c.op ≠ .scanNext)
    (o : Outcome) : c.filled o = o := by
  simp [Cmd.filled, reads, flush, next]

theorem Cmd.filled_get (op : c.op = .get) (o : Outcome) : c.filled o = o := by
  apply Cmd.filled_of_plain <;> simp [op, Opcode.readsBuffer]

theorem Cmd.filled_head (op : c.op = .head) (o : Outcome) : c.filled o = o := by
  apply Cmd.filled_of_plain <;> simp [op, Opcode.readsBuffer]

end

/-! ## Value jobs go to VAL (R17, R22 to R24, R268) -/

section
variable {s : State} {n : Nat} {c : Cmd}

/-- The state in which a granted value job begins. -/
def State.jobSent (s : State) (n : Nat) (c : Cmd) : State :=
  ((s.grantVal c.runClass 0).onSch fun h => { h with rrJobs := classPointer h.rrJobs c.runClass }).onCmd n
    fun c => { c with stage := .working }

theorem State.sendJob_waits (h : s.jobTurn c = false) (f : State → State) : s.sendJob n c f = s := by
  simp [State.sendJob, guardStep, h]

theorem State.sendJob_goes (h : s.jobTurn c = true) (f : State → State) : s.sendJob n c f = f (s.jobSent n c) := by
  simp [State.sendJob, guardStep, h, State.jobSent]

theorem State.cmd?_grantVal (k : SvcClass) (requester : Nat) : (s.grantVal k requester).cmd? n = s.cmd? n := by
  unfold State.grantVal
  split <;> rfl

theorem State.cmd?_jobSent (found : s.cmd? n = some c) : (s.jobSent n c).cmd? n = some { c with stage := .working } :=
  State.cmd?_onCmd_self (s := (s.grantVal c.runClass 0).onSch _) (fun c => { c with stage := .working })
    ((State.cmd?_grantVal _ _).trans found)

theorem jobSent_onlyChanges (s : State) (n : Nat) (c : Cmd) : OnlyChanges [.sch, .val] s (s.jobSent n c) :=
  (keeps_onCmd _ _ (keeps_onSch _ (keeps_grantVal _ _ (Keeps.refl _ s) (by simp)) (by simp)) (by simp)).onlyChanges

/-- Of VAL only its pointer moves. -/
theorem State.val_jobSent (s : State) (n : Nat) (c : Cmd) : { (s.jobSent n c).val with rr := s.val.rr } = s.val := by
  unfold State.jobSent State.grantVal
  split <;> rfl

theorem State.nfe_jobSent (s : State) (n : Nat) (c : Cmd) : (s.jobSent n c).nfe = s.nfe :=
  jobSent_onlyChanges s n c .nfe (by simp)

end

/-! ## A read goes on (R60, R149, R150) -/

section
variable {s : State} {n fuel : Nat} {c : Cmd}

theorem State.endRead_eq (found : s.cmd? n = some c) (st : Status) :
    s.endRead n st = s.endCmd n ⟨st, if c.desc.e2eCrc then (crc32cOut c.crc).toNat else 0,
      (c.observed.map (·.version)).getD 0, c.pos, false, false⟩ := by
  simp only [State.endRead, found]

theorem State.advanceRead_all (found : s.cmd? n = some c) (all : c.readTotal ≤ c.pos) :
    s.advanceRead n (fuel + 1) = s.endRead n .ok := by
  simp only [State.advanceRead, found, if_pos all]

theorem State.advanceRead_stored {v : Variant} (found : s.cmd? n = some c) (more : c.pos < c.readTotal)
    (observed : c.observed = some v) (stored : (tget v.segs ((c.desc.offset + c.pos) / 65536)).isSome = true) :
    s.advanceRead n (fuel + 1) = s := by
  obtain ⟨g, hg⟩ := Option.isSome_iff_exists.mp stored
  simp only [State.advanceRead, found, if_neg (Nat.not_le.mpr more), observed, Option.bind_some, hg]

theorem State.advanceRead_hole {v : Variant} (found : s.cmd? n = some c) (more : c.pos < c.readTotal)
    (observed : c.observed = some v) (hole : tget v.segs ((c.desc.offset + c.pos) / 65536) = none) :
    s.advanceRead n (fuel + 1)
      = (s.deliver n (zeros (min (65536 * ((c.desc.offset + c.pos) / 65536 + 1) - (c.desc.offset + c.pos))
          (c.readTotal - c.pos)))).advanceRead n fuel := by
  simp only [State.advanceRead, found, if_neg (Nat.not_le.mpr more), observed, Option.bind_some, hole]

theorem sends_sendAs (s : State) (ctx : Nat) (k : SvcClass) (x : Tx) : Sends s (s.sendAs ctx k x) [x] := ⟨[_], rfl, rfl⟩

/-- A read that has delivered bytes. -/
def Cmd.delivered (c : Cmd) (b : Bytes) : Cmd := { c with pos := c.pos + b.length, crc := crc32cRun c.crc b }

/-- Bytes that a client's read delivers go into its buffer. -/
theorem State.deliver_client {ctx : Nat} (found : s.cmd? n = some c) (from_ : c.ctx = some ctx) (b : Bytes) :
    (s.deliver n b).cmd? n = some (c.delivered b) ∧
      Sends s (s.deliver n b) [.data ctx n (c.desc.bufAddr + c.pos) c.desc.bufRkey b] := by
  simp only [State.deliver, found, from_]
  exact ⟨State.cmd?_onCmd_self (s := s.sendAs ctx c.runClass _) (Cmd.delivered · b) found, sends_sendAs s ctx _ _⟩

/-- What is sent shows in NFE alone. -/
theorem sends_congr {s s' t t' : State} {xs : List Tx} (h : Sends s t xs) (before : s.nfe = s'.nfe)
    (after : t'.nfe = t.nfe) : Sends s' t' xs := by
  obtain ⟨ms, only, sent⟩ := h
  exact ⟨ms, only, by rw [after, sent, before]⟩

theorem sends_nil {s t : State} (h : t.nfe = s.nfe) : Sends s t [] := ⟨[], rfl, by rw [h, List.append_nil]⟩

end

/-! ## GET (R138, R140, R144, R145, R149, R150) -/

section
variable {s : State} {n ctx : Nat} {c : Cmd} {r : DirRec} {v : Variant}

theorem Cmd.startConds_of_free (right : c.denied = false) (readable : c.lookup ≠ .unreadable) : c.startConds = [] := by
  simp [Cmd.startConds, right, readable]

theorem Cmd.startConds_of_denied (denied : c.denied = true) (readable : c.lookup ≠ .unreadable) :
    c.startConds = [.accessDenied] := by
  simp [Cmd.startConds, denied, readable]

/-- What a GET finds against it in the variant that its lookup observed. -/
def Cmd.versionConds (c : Cmd) : List Status :=
  match c.observed with
  | none => [.notFound]
  | some v => if c.desc.ifVersion ∧ c.desc.condVersion ≠ v.version then [.versionConflict] else []

/-- A GET whose record can be read goes on, or ends with what it finds. -/
theorem exec_get (found : s.cmd? n = some c) (op : c.op = .get) (resolved : c.resolved = true)
    (readable : c.lookup ≠ .unreadable) :
    exec (.get n) s = .next (if (c.startConds ++ c.versionConds).isEmpty then
        s.sendJob n c fun s => s.advanceRead n c.readFuel
      else (s.onCmd n fun d => { d with conds := d.conds ++ (c.startConds ++ c.versionConds) }).failCmd n
        ((c.observed.map (·.version)).getD 0)) := by
  show execGet n s = _
  rw [execGet, State.withCmd_pos _ found (by simp [op, resolved])]
  unfold Cmd.versionConds
  cases known : c.lookup with
  | unreadable => exact absurd known readable
  | waiting | absent | found => cases observed : c.observed <;> rfl

/-- What the version asks for stands. -/
theorem Cmd.versionConds_of_held (observed : c.observed = some v)
    (holds : c.desc.ifVersion = false ∨ c.desc.condVersion = v.version) : c.versionConds = [] := by
  rcases holds with free | same <;> simp [Cmd.versionConds, *]

theorem exec_get_ready (found : s.cmd? n = some c) (ready : CmdReady c ctx) (op : c.op = .get)
    (observed : c.observed = some v) (holds : c.desc.ifVersion = false ∨ c.desc.condVersion = v.version) :
    exec (.get n) s = .next (s.sendJob n c fun s => s.advanceRead n c.readFuel) := by
  obtain ⟨-, -, -, resolved, right, readable, -⟩ := ready
  rw [exec_get found op resolved readable, Cmd.startConds_of_free right readable,
    Cmd.versionConds_of_held observed holds]
  rfl

/-- Its job goes to VAL when the port grants it. -/
theorem exec_get_granted (found : s.cmd? n = some c) (ready : CmdReady c ctx) (op : c.op = .get)
    (observed : c.observed = some v) (holds : c.desc.ifVersion = false ∨ c.desc.condVersion = v.version)
    (granted : s.jobTurn c = true) : exec (.get n) s = .next ((s.jobSent n c).advanceRead n c.readFuel) := by
  rw [exec_get_ready found ready op observed holds, State.sendJob_goes granted]

theorem Cmd.started_of_resolved (resolved : c.resolved = true) : c.stage = .started := by
  simp only [Cmd.resolved, Bool.and_eq_true, decide_eq_true_eq] at resolved
  exact resolved.1.1

/-- A command that is ready is under way. -/
theorem underWay_of_ready (ready : CmdReady c ctx) : c.UnderWay := by
  obtain ⟨from_, -, mine, resolved, -⟩ := ready
  exact .of_started (by simp [from_]) mine (Cmd.started_of_resolved resolved)

/-- It stays so when its job begins. -/
theorem workingUnderWay_of_ready (ready : CmdReady c ctx) : ({ c with stage := .working } : Cmd).UnderWay :=
  .of_working (underWay_of_ready ready).ctx (underWay_of_ready ready).mine rfl

/-- A GET that finds a condition ends with the highest one. -/
theorem exec_get_fails {st : Status} (found : s.cmd? n = some c) (op : c.op = .get) (resolved : c.resolved = true)
    (readable : c.lookup ≠ .unreadable) (way : c.UnderWay) (clean : c.conds = [])
    (fails : c.startConds ++ c.versionConds ≠ []) (highest : reported (c.startConds ++ c.versionConds) = st) :
    ∃ t, exec (.get n) s = .next t ∧ Ended t n (failure st ((c.observed.map (·.version)).getD 0)) := by
  refine ⟨_, exec_get found op resolved readable, ?_⟩
  rw [if_neg (by simpa using fails)]
  have ended := State.ended_found found way clean highest ((c.observed.map (·.version)).getD 0)
  rwa [Cmd.filled_get op] at ended

/-- A ready GET that finds a condition in the variant ends with it. -/
theorem exec_get_versionConds {st : Status} (found : s.cmd? n = some c) (ready : CmdReady c ctx) (op : c.op = .get)
    (fails : c.versionConds = [st]) (real : reported [st] = st) :
    ∃ t, exec (.get n) s = .next t ∧ Ended t n (failure st ((c.observed.map (·.version)).getD 0)) := by
  have way := underWay_of_ready ready
  obtain ⟨-, -, -, resolved, right, readable, clean⟩ := ready
  have conds : c.startConds ++ c.versionConds = [st] := by rw [Cmd.startConds_of_free right readable, fails]; rfl
  exact exec_get_fails found op resolved readable way clean (by simp [conds]) (by rw [conds, real])

/-- Whatever the variant, a denied right stands highest. -/
theorem Cmd.reported_denied_versionConds (c : Cmd) : reported ([.accessDenied] ++ c.versionConds) = .accessDenied := by
  unfold Cmd.versionConds
  split
  · rfl
  · split <;> rfl

end

/-! ## HEAD (R154) -/

section
variable {s : State} {n ctx : Nat} {c : Cmd} {r : DirRec}

/-- The bytes of the result block that a HEAD asks for go out, if any. -/
def State.headSent (s : State) (n ctx : Nat) (c : Cmd) (r : DirRec) : State :=
  if ((headBytes r).take c.desc.length).isEmpty then s
  else s.sendAs ctx c.runClass (.data ctx n c.desc.bufAddr c.desc.bufRkey ((headBytes r).take c.desc.length))

theorem exec_head_found (found : s.cmd? n = some c) (ready : CmdReady c ctx) (op : c.op = .head)
    (known : c.lookup = .found r) :
    exec (.head n) s = .next ((s.headSent n ctx c r).endCmd n
      ⟨.ok, r.variants.length, r.version, ((headBytes r).take c.desc.length).length, false, false⟩) := by
  obtain ⟨from_, -, -, resolved, right, readable, -⟩ := ready
  show execHead n s = _
  rw [execHead, State.withCmd_pos _ found (by simp [op, resolved]), Cmd.startConds_of_free right readable]
  simp only [known, from_]
  rfl

/-- A HEAD that finds a condition ends with it. -/
theorem exec_head_fails {st : Status} (found : s.cmd? n = some c) (op : c.op = .head) (resolved : c.resolved = true)
    (way : c.UnderWay) (clean : c.conds = [])
    (fails : c.startConds ++ (if c.lookup = .absent then [Status.notFound] else []) = [st])
    (real : reported [st] = st) : ∃ t, exec (.head n) s = .next t ∧ Ended t n (failure st 0) := by
  refine ⟨(s.onCmd n fun c => { c with conds := c.conds ++ [st] }).failCmd n 0, ?_, ?_⟩
  · show execHead n s = _
    rw [execHead, State.withCmd_pos _ found (by simp [op, resolved]), fails]
    rfl
  · have ended := State.ended_found found way clean real 0
    rwa [Cmd.filled_head op] at ended

theorem State.cmd?_headSent : (s.headSent n ctx c r).cmd? n = s.cmd? n := by
  unfold State.headSent
  split <;> rfl

/-- A HEAD ends with what it delivers, and sends nothing more. -/
theorem State.headSent_ends (found : s.cmd? n = some c) (way : c.UnderWay) (op : c.op = .head) (o : Outcome) :
    Ended ((s.headSent n ctx c r).endCmd n o) n o ∧
      ((s.headSent n ctx c r).endCmd n o).nfe = (s.headSent n ctx c r).nfe := by
  have sent : (s.headSent n ctx c r).cmd? n = some c := State.cmd?_headSent.trans found
  have ended := State.ended_endCmd sent way o
  rw [Cmd.filled_head op] at ended
  exact ⟨ended, State.nfe_endCmd sent way o⟩

/-- The result block is not empty. -/
theorem headBytes_ne_nil (r : DirRec) : headBytes r ≠ [] := by
  simp [headBytes, leBytes]

theorem State.headSent_of_pos (h : 0 < c.desc.length) : s.headSent n ctx c r
    = s.sendAs ctx c.runClass (.data ctx n c.desc.bufAddr c.desc.bufRkey ((headBytes r).take c.desc.length)) :=
  if_neg (by simp [headBytes_ne_nil, Nat.pos_iff_ne_zero.mp h])

theorem State.headSent_of_zero (h : c.desc.length = 0) : s.headSent n ctx c r = s := if_pos (by simp [h])

end

/-! ## O20 -/

section
variable {s : State} {n ctx : Nat} {c : Cmd} {v : Variant}

/-- A GET that has delivered everything ends with what it observed and the bytes delivered, and sends nothing more. -/
theorem State.advanceRead_ends (found : s.cmd? n = some c) (way : c.UnderWay) (op : c.op = .get)
    (observed : c.observed = some v) (all : c.readTotal ≤ c.pos) (fuel : Nat) :
    Ended (s.advanceRead n (fuel + 1)) n
        ⟨.ok, if c.desc.e2eCrc then (crc32cOut c.crc).toNat else 0, v.version, c.pos, false, false⟩ ∧
      (s.advanceRead n (fuel + 1)).nfe = s.nfe := by
  rw [State.advanceRead_all found all, State.endRead_eq found, observed]
  refine ⟨?_, State.nfe_endCmd found way _⟩
  have ended := State.ended_endCmd found way
    ⟨.ok, if c.desc.e2eCrc then (crc32cOut c.crc).toNat else 0, v.version, c.pos, false, false⟩
  rwa [Cmd.filled_get op] at ended

/-- A GET at its start in a hole that covers its range delivers zeros, and ends. -/
theorem State.advanceRead_covered (found : s.cmd? n = some c) (way : c.UnderWay) (op : c.op = .get)
    (from_ : c.ctx = some ctx) (observed : c.observed = some v) (start : c.pos = 0) (pos : 0 < c.readTotal)
    (hole : v.segs = [])
    (within : c.desc.offset / 65536 = (c.desc.offset + c.readTotal - 1) / 65536) (fuel : Nat) :
    Sends s (s.advanceRead n (fuel + 2)) [.data ctx n c.desc.bufAddr c.desc.bufRkey (zeros c.readTotal)] ∧
      Ended (s.advanceRead n (fuel + 2)) n
        ⟨.ok, if c.desc.e2eCrc then (crc32cOut (crc32cRun c.crc (zeros c.readTotal))).toNat else 0, v.version,
          c.readTotal, false, false⟩ := by
  have unstored : tget v.segs ((c.desc.offset + c.pos) / 65536) = none := by rw [hole]; rfl
  have length : (zeros c.readTotal).length = c.readTotal := List.length_replicate
  obtain ⟨delivered, sends⟩ := State.deliver_client found from_ (zeros c.readTotal)
  obtain ⟨ended, quiet⟩ := State.advanceRead_ends (v := v) delivered (way.congr rfl) op
    observed (by rw [Cmd.delivered, length]; exact Nat.le_add_left _ _) fuel
  have whole : min (65536 * ((c.desc.offset + c.pos) / 65536 + 1) - (c.desc.offset + c.pos)) (c.readTotal - c.pos)
      = c.readTotal := by omega
  rw [State.advanceRead_hole found (start ▸ pos) observed unstored, whole]
  rw [start, Nat.add_zero] at sends
  refine ⟨sends_congr sends rfl quiet, ?_⟩
  simpa [Cmd.delivered, start, length] using ended

end

/-- Settles O20: a GET by what its job finds at its position (`State.advanceRead_ends`, `State.advanceRead_stored`,
`State.advanceRead_covered`) or by its conditions (`exec_get_fails`), a HEAD by its equations. -/
theorem readsAnswer : Obligations.ReadsAnswer := by
  refine ⟨fun s n ctx c r v found ready op known held holds start fresh => ?_,
    fun s n ctx c found ready op => ⟨fun absent => ?_, fun v observed asks other => ?_⟩,
    fun s n ctx c r x found from_ mine which resolved clean denied known => ?_,
    fun s n ctx c found ready op => ⟨fun absent => ?_, fun r known asks => ?_, fun r known asks => ?_⟩⟩
  · have observed : c.observed = some v := by rw [Cmd.observed, known]; exact held
    have sent := State.cmd?_jobSent found
    have working := workingUnderWay_of_ready ready
    have run := exec_get_granted found ready op observed holds
    refine ⟨fun waits => ?_, fun granted all => ⟨_, run granted, ?_⟩, fun granted more stored => ⟨_, run granted, ?_⟩,
      fun granted more hole within => ⟨_, run granted, ?_⟩⟩
    · rw [exec_get_ready found ready op observed holds, State.sendJob_waits waits]
    · have ended : Ended ((s.jobSent n c).advanceRead n c.readFuel) n
          ⟨.ok, if c.desc.e2eCrc then (crc32cOut c.crc).toNat else 0, v.version, c.pos, false, false⟩ :=
        (State.advanceRead_ends (v := v) sent working op observed (all.trans_le (Nat.zero_le _)) _).1
      rwa [start, fresh] at ended
    · have stays : (s.jobSent n c).advanceRead n c.readFuel = s.jobSent n c :=
        State.advanceRead_stored (v := v) sent (start ▸ more : c.pos < c.readTotal) observed
          (by rw [start, Nat.add_zero]; exact stored)
      rw [stays]
      exact ⟨sent, s.val_jobSent n c, jobSent_onlyChanges s n c⟩
    · obtain ⟨from_, -⟩ := ready
      obtain ⟨sends, ended⟩ := State.advanceRead_covered (v := v) sent working op from_ observed start more hole within
        ((c.readTotal - c.pos) / 65536 + 1)
      rw [← fresh]
      exact ⟨sends_congr sends (s.nfe_jobSent n c) rfl, ended⟩
  · exact exec_get_versionConds found ready op (by rw [Cmd.versionConds, absent]) rfl
  · have ended := exec_get_versionConds found ready op (st := .versionConflict)
      (by simp [Cmd.versionConds, observed, asks, other]) rfl
    rwa [observed] at ended
  · have way : c.UnderWay := .of_started (by simp [from_]) mine (Cmd.started_of_resolved resolved)
    have readable : c.lookup ≠ .unreadable := by simp [known]
    have start := Cmd.startConds_of_denied denied readable
    obtain ⟨op, rfl⟩ | ⟨op, rfl⟩ := which
    · exact exec_head_fails found op resolved way clean (by simp [start, known]) rfl
    · exact exec_get_fails found op resolved readable way clean (by simp [start])
        (by rw [start]; exact c.reported_denied_versionConds)
  · have way := underWay_of_ready ready
    obtain ⟨-, -, -, resolved, right, readable, clean⟩ := ready
    exact exec_head_fails found op resolved way clean
      (by simp [Cmd.startConds_of_free right readable, absent]) rfl
  · obtain ⟨ended, quiet⟩ := State.headSent_ends (ctx := ctx) (r := r) found (underWay_of_ready ready) op _
    refine ⟨_, exec_head_found found ready op known, sends_congr ?_ rfl quiet, ended⟩
    rw [State.headSent_of_pos asks]
    exact sends_sendAs s ctx _ _
  · obtain ⟨ended, quiet⟩ := State.headSent_ends (ctx := ctx) (r := r) found (underWay_of_ready ready) op
      ⟨.ok, r.variants.length, r.version, ((headBytes r).take c.desc.length).length, false, false⟩
    refine ⟨_, exec_head_found found ready op known, sends_nil (quiet.trans (by rw [State.headSent_of_zero asks])), ?_⟩
    simpa [asks] using ended

/-! ## Commands and states to refute with -/

/-- A client's command on the queue pair 2, of length 1, whose key is the empty one, absent, and whose rule grants every
right. -/
def sampleCmd (op : Opcode) (stage : Stage) : Cmd :=
  { Cmd.accepted 2 (.connecting 0 (State.reset.connOf ⟨.a0, [], 0, 0⟩ none [] 0)) { parseDesc [] with length := 1 } op
      .normal 1 stage with
    key := some [], policy := .rule ⟨0, 15, 0, false, true, false, false, false, 0, 0⟩, lookup := .absent }

/-- The drive running with some commands. -/
def runningWith (cmds : Tbl Cmd) : State :=
  { State.reset with
    rst := { State.reset.rst with run := .running }
    sch := { State.reset.sch with cmds := cmds } }

/-- Where a step leaves a command. -/
def stageAfter (i : Instr) (s : State) (n : Nat) : Option Stage :=
  match exec i s with
  | .next t => (t.cmd? n).map Cmd.stage
  | _ => none

theorem stageAfter_of_next {i : Instr} {s t : State} {n : Nat} {c : Cmd} (run : exec i s = .next t)
    (found : t.cmd? n = some c) : stageAfter i s n = some c.stage := by
  rw [stageAfter, run]
  exact congrArg (Option.map Cmd.stage) found

/-! ## O21: a PUNCH that holds map pages -/

/-- A PUNCH of a variant that the directory does not hold, with a map page that a commit has placed in flash. -/
def punchWithMaps : Cmd := { sampleCmd .punch .started with maps := some [(0, .flash 0 0 1)] }

/-- The drive with that PUNCH; the skein of its map page has two live units. -/
def mapsHeld : State :=
  { runningWith [(0, punchWithMaps)] with
    ftl := { State.reset.ftl with skeins := [(0, ⟨false, true, 2, 0, 0, [], false, 0, []⟩)] } }

/-- The live units of skein 0 after a step. -/
def liveAfter (i : Instr) (s : State) : Option Nat :=
  match exec i s with
  | .next t => (tget t.ftl.skeins 0).map Skein.liveUnits
  | _ => none

/-- The PUNCH gives up its map page on its way to the gate. -/
theorem liveAfter_punch_mapsHeld : liveAfter (.punch 0) mapsHeld = some 1 := by decide +kernel

/-- Refutes O21: in `mapsHeld` a PUNCH of a variant that the directory does not hold gives up the map page that it holds
before it goes to its gate (`State.planRange`), which changes FTL. The statement asks that nothing but SCH and VAL
change, and does not ask that the command hold no map page, as one that has just started holds none. -/
theorem not_writesStart : ¬ Obligations.WritesStart := by
  unfold Obligations.WritesStart
  rintro ⟨starts, -⟩
  have ready : CmdReady punchWithMaps 2 := by unfold CmdReady; decide +kernel
  obtain ⟨-, -, -, -, -, -, punch, -⟩ := starts mapsHeld 0 2 punchWithMaps (by decide +kernel) ready (by decide +kernel)
    rfl rfl rfl rfl rfl
  obtain ⟨absent, -⟩ := punch rfl (by decide +kernel) (by decide +kernel) (by decide +kernel)
  obtain ⟨t, run, -, only⟩ := absent (by decide +kernel)
  have ftl : t.ftl = mapsHeld.ftl := only .ftl (by simp)
  have lowered := liveAfter_punch_mapsHeld
  rw [liveAfter, run] at lowered
  have kept : (tget mapsHeld.ftl.skeins 0).map Skein.liveUnits = some 1 := ftl ▸ lowered
  exact absurd kept (by decide)

/-! ## O22 and O23: a retention table that lists a number twice

Neither statement asks that the table of the commands be well-formed. Where it lists a number twice, the entries of its
descriptors that wait for a credit include one that hides behind another, and when a command starts and its credit comes
back, `State.serveStaged` accepts the one in front, whatever its stage. -/

/-- The drive with a command 1, and with a number 0 that is listed twice: behind the command stands one that waits for a
credit. -/
def listedTwice (front last : Cmd) : State :=
  runningWith [(0, front), (0, { sampleCmd .nop .staged with ctx := some 3 }), (1, last)]

/-- A FLUSH behind a NOP that has completed. -/
def behindWritten : State := listedTwice (sampleCmd .nop .written) (sampleCmd .flush .accepted)

/-- As the FLUSH starts, the NOP is accepted anew, and the FLUSH waits for it. -/
theorem stageAfter_flush_behindWritten : stageAfter (.flush 1) behindWritten 1 = some .started := by decide +kernel

/-- Refutes O22: in `behindWritten` every command of the queue pair before the FLUSH has completed, and yet the FLUSH
starts and does not end. -/
theorem not_flushAndNopComplete : ¬ Obligations.FlushAndNopComplete := by
  unfold Obligations.FlushAndNopComplete
  intro h
  obtain ⟨flush, -, -⟩ := h behindWritten 1 2 (sampleCmd .flush .accepted) (by decide +kernel) rfl rfl rfl
    (by decide +kernel)
  obtain ⟨t, run, c, found, done, -⟩ := flush rfl (by decide +kernel)
  have stays := stageAfter_flush_behindWritten
  rw [stageAfter_of_next run found, done] at stays
  exact absurd stays (by decide)

/-- A live, idle scan context of the tenant. -/
def idleContext : ScanCtx := ⟨0, 0, true, .eps, none, 0, false⟩

/-- A SCAN_NEXT on that context behind another that has been decided. -/
def behindDone : State :=
  { listedTwice (sampleCmd .scanNext .done) (sampleCmd .scanNext .accepted) with
    mch := { State.reset.mch with contexts := [(0, idleContext)] } }

/-- As the SCAN_NEXT starts, the other is accepted anew, and the SCAN_NEXT waits for it. -/
theorem stageAfter_scanNext_behindDone : stageAfter (.scanNext 1 ⟨0, []⟩) behindDone 1 = some .started := by
  decide +kernel

/-- Refutes O23: in `behindDone` no undecided SCAN_NEXT before this one names the context, which is idle, and yet the
SCAN_NEXT starts and does not go to work. -/
theorem not_scansWalk : ¬ Obligations.ScansWalk := by
  unfold Obligations.ScansWalk
  rintro ⟨-, next, -⟩
  obtain ⟨-, walks⟩ := next behindDone 1 2 0 (sampleCmd .scanNext .accepted) idleContext (by decide +kernel) rfl rfl
    rfl rfl (by decide +kernel) rfl (by decide +kernel)
  obtain ⟨t, run, found, -⟩ := walks (by decide +kernel) rfl (by decide +kernel) (by decide +kernel)
  have stays := stageAfter_scanNext_behindDone
  rw [stageAfter_of_next run found] at stays
  exact absurd stays (by decide)

/-! ## The value work of a command (R267 to R277, R318) -/

/-- All of a command but its segments, its reference to a slot and its path. -/
def Cmd.besideWork (c : Cmd) : Cmd := { c with work := [], slotRef := none, ledgerPath := none }

/-- An operation that changes of command n only its value work. -/
def WorksOn (n : Nat) (s t : State) : Prop := (t.cmd? n).map Cmd.besideWork = (s.cmd? n).map Cmd.besideWork

section
variable {s t u : State} {n : Nat} {c d : Cmd}

theorem WorksOn.of_cmd (h : t.cmd? n = s.cmd? n) : WorksOn n s t := congrArg _ h

theorem WorksOn.trans (h : WorksOn n s t) (k : WorksOn n t u) : WorksOn n s u := Eq.trans k h

theorem WorksOn.of_keeps (h : Keeps (· ≠ .sch) s t) : WorksOn n s t := .of_cmd (h.cmd? n)

/-- The command as it is found afterwards. -/
theorem WorksOn.find (h : WorksOn n s t) (found : s.cmd? n = some c) :
    ∃ d, t.cmd? n = some d ∧ d.besideWork = c.besideWork := by
  rw [WorksOn, found, Option.map_some] at h
  exact Option.map_eq_some_iff.mp h

theorem worksOn_onCmd (m : Nat) (f : Cmd → Cmd) (keeps : ∀ c, (f c).besideWork = c.besideWork) :
    WorksOn n s (s.onCmd m f) := by
  by_cases same : n = m
  · subst same
    cases found : s.cmd? n with
    | none =>
      have entry : tget s.sch.cmds n = none := found
      exact .of_cmd (by rw [State.cmd?, State.onCmd, State.onSch_sch, tmod, entry, State.cmd?])
    | some c => rw [WorksOn, State.cmd?_onCmd_self f found, found, Option.map_some, Option.map_some, keeps]
  · exact .of_cmd (State.cmd?_onCmd_of_ne f same)

theorem worksOn_foldl {α : Type} (f : State → α → State) (step : ∀ s a, WorksOn n s (f s a)) (l : List α) (s : State) :
    WorksOn n s (l.foldl f s) := by
  induction l generalizing s with
  | nil => exact .of_cmd rfl
  | cons a l ih => exact (step s a).trans (ih (f s a))

theorem worksOn_setWork (m i : Nat) (w : SegWork) : WorksOn n s (s.setWork m i w) := worksOn_onCmd m _ fun _ => rfl

theorem worksOn_issueRef (m slot : Nat) : WorksOn n s (s.issueRef m slot) := by
  unfold State.issueRef
  split
  · exact .of_cmd rfl
  · refine WorksOn.trans (.of_keeps ?_) (worksOn_onCmd m _ fun _ => rfl)
    split
    · exact keeps_modRefs _ _ _ (Keeps.refl _ s) (by simp)
    · exact Keeps.refl _ s

theorem worksOn_dropRef (m : Nat) : WorksOn n s (s.dropRef m) := by
  unfold State.dropRef
  split
  · exact .of_cmd rfl
  · exact WorksOn.trans (.of_keeps (keeps_modRefs _ _ _ (Keeps.refl _ s) (by simp))) (worksOn_onCmd m _ fun _ => rfl)

/-- A segment that is handed on is a hole, is to be sealed, or is closed (R271, R272, R281). -/
theorem worksOn_segReady (m i : Nat) (b : Bytes) : WorksOn n s (s.segReady m i b) := by
  unfold State.segReady
  split
  · exact .of_cmd rfl
  · next c _ =>
    split
    · exact worksOn_setWork _ _ _
    · have packed : WorksOn n s (s.pack c.act.compress b).2.2 :=
        .of_keeps (keeps_pack _ _ (Keeps.refl _ s) (by simp)).snd
      dsimp only
      split
      · exact packed.trans ((worksOn_issueRef _ _).trans ((worksOn_setWork _ _ _).trans
          (.of_keeps (keeps_fillLanes _ (Keeps.refl _ _) (by simp)))))
      · exact packed.trans (worksOn_setWork _ _ _)

theorem worksOn_handOn (m : Nat) : WorksOn n s (s.handOn m) := by
  unfold State.handOn
  split
  · exact .of_cmd rfl
  · refine worksOn_foldl _ (fun s e => ?_) _ s
    split
    · split
      · exact worksOn_segReady _ _ _
      · exact .of_cmd rfl
    · exact .of_cmd rfl

/-- A segment is written where it was given room. -/
theorem worksOn_writeSegAt (g : Seg) (loc : Loc) (fold : W64) : WorksOn n s (s.writeSegAt g loc fold).2 :=
  .of_keeps (keeps_writeSegAt g loc fold (Keeps.refl _ s) (by simp) (by simp) (by simp)).snd

theorem worksOn_placeLedger (m : Nat) (gs : Tbl Seg) : WorksOn n s (s.placeLedger m gs) := by
  refine worksOn_foldl _ (fun s e => ?_) gs s
  have given : WorksOn n s (s.allocStaging (segUnits e.2.payload.length)).2 :=
    .of_keeps (keeps_allocStaging _ (Keeps.refl _ s) (by simp)).snd
  generalize s.allocStaging (segUnits e.2.payload.length) = room at given
  have written := given.trans (worksOn_writeSegAt e.2 (.ledger room.1) (room.2.segFold m e.1))
  exact written.trans (worksOn_setWork _ _ _)

/-- What a command has fetched, beside its work. -/
def Cmd.fetched (c : Cmd) : Nat × W32 × Bytes := (c.pos, c.crc, c.buffer)

theorem Cmd.fetched_congr (h : d.besideWork = c.besideWork) : d.fetched = c.fetched :=
  (congrArg Cmd.fetched h :)

/-- Nor does the value work tell whether it is under way. -/
theorem Cmd.life_congr (h : d.besideWork = c.besideWork) : d.life = c.life :=
  (congrArg Cmd.life h :)

end

/-! ## A write that fails, and what it has fetched (R142, R176) -/

/-- Command n has fetched some bytes. -/
def State.HasFetched (s : State) (n : Nat) (f : Nat × W32 × Bytes) : Prop := ∃ d, s.cmd? n = some d ∧ d.fetched = f

section
variable {s : State} {n : Nat} {c : Cmd}

/-- A change of the command that leaves what it has fetched. -/
theorem State.HasFetched.onCmd {f : Nat × W32 × Bytes} (h : s.HasFetched n f) (g : Cmd → Cmd)
    (keeps : ∀ c, (g c).fetched = c.fetched) : (s.onCmd n g).HasFetched n f := by
  obtain ⟨d, found, same⟩ := h
  exact ⟨g d, State.cmd?_onCmd_self g found, (keeps d).trans same⟩

theorem worksOn_dropIdleRef (m : Nat) : WorksOn n s (s.dropIdleRef m) := by
  unfold State.dropIdleRef
  split
  · exact .of_cmd rfl
  · split
    · exact worksOn_dropRef m
    · exact .of_cmd rfl

theorem State.flt_dropIdleRef (s : State) (n : Nat) : (s.dropIdleRef n).flt = s.flt :=
  (keeps_dropIdleRef (r := (· ≠ .flt)) n (Keeps.refl _ s) (by simp) (by simp)).same .flt (by simp)

/-- A condition that the gate decides: a client's write waits there (R176). -/
theorem State.writeFails_gated {st : Status} (found : s.cmd? n = some c) (client : c.ctx.isSome = true)
    (waits : endsAtOnce (c.conds ++ [st]) = false) :
    s.writeFails n st = ((s.addCond n st).onCmd n fun c => { c with stage := .gated }).dropIdleRef n := by
  have marked : (s.addCond n st).cmd? n = some { c with conds := c.conds ++ [st] } := State.cmd?_onCmd_self _ found
  obtain ⟨ctx, from_⟩ := Option.isSome_iff_exists.mp client
  simp only [State.writeFails, marked, waits, from_]
  rfl

/-- Whether it ends at once or at its gate, a write that fails keeps what it has fetched. -/
theorem State.hasFetched_writeFails (found : s.cmd? n = some c) (way : c.UnderWay) (st : Status) :
    (s.writeFails n st).HasFetched n c.fetched := by
  have marked : (s.addCond n st).cmd? n = some { c with conds := c.conds ++ [st] } := State.cmd?_onCmd_self _ found
  simp only [State.writeFails, marked]
  split
  · exact ⟨_, State.cmd?_failCmd marked (way.congr rfl) 0, rfl⟩
  · obtain ⟨d, found', same⟩ := WorksOn.find (worksOn_dropIdleRef n)
      (State.cmd?_onCmd_self (fun c => { c with stage := .gated }) marked)
    exact ⟨d, found', (Cmd.fetched_congr same :)⟩

/-! ## The path of a write (R184, R185, R380) -/

theorem State.hasFetched_placeFlash (found : s.cmd? n = some c) (way : c.UnderWay) (parityP : Bool) (gs : Tbl Seg) :
    (s.placeFlash n parityP gs).HasFetched n c.fetched := by
  induction gs generalizing s c with
  | nil => exact ⟨c, found, rfl⟩
  | cons e gs ih =>
    obtain ⟨i, g⟩ := e
    unfold State.placeFlash
    split
    · exact State.hasFetched_writeFails found way .noSpace
    · next loc u room =>
      have given : WorksOn n s u := .of_keeps
        (KeepsO2.of room (keeps_allocHost _ _ (Keeps.refl _ s) (by simp) (by simp) (by simp) (by simp)))
      obtain ⟨d, found', same⟩ := (given.trans ((worksOn_writeSegAt g loc (u.segFold n i)).trans
        (worksOn_setWork n i (.writing (u.writeSegAt g loc (u.segFold n i)).1)))).find found
      rw [← Cmd.fetched_congr same]
      exact ih found' (way.congr (Cmd.life_congr same))

/-- On its way to storage a write keeps what it has fetched. -/
theorem State.hasFetched_decidePath (found : s.cmd? n = some c) (way : c.UnderWay) :
    (s.decidePath n).HasFetched n c.fetched := by
  have kept : s.HasFetched n c.fetched := ⟨c, found, rfl⟩
  simp only [State.decidePath, found]
  split
  · exact kept.onCmd _ fun _ => rfl
  · split
    · have lowered : WorksOn n s (s.lowerGauge (s.pairLines (unitsOf c.built))) :=
        .of_keeps (keeps_lowerGauge _ (Keeps.refl _ s) (by simp) (by simp))
      obtain ⟨d, found', same⟩ := (lowered.trans ((worksOn_onCmd n (fun c => { c with ledgerPath := some true })
        fun _ => rfl).trans (worksOn_placeLedger n c.built))).find found
      exact ⟨d, found', (Cmd.fetched_congr same :)⟩
    · refine State.hasFetched_placeFlash (c := { c with ledgerPath := some false }) ?_
        (way.congr rfl) _ _
      refine State.cmd?_onCmd_self (fun c => { c with ledgerPath := some false }) ?_
      split
      · exact found
      · exact found

theorem State.hasFetched_pathWhenReady (found : s.cmd? n = some c) (way : c.UnderWay) :
    (s.pathWhenReady n).HasFetched n c.fetched := by
  simp only [State.pathWhenReady, found]
  split
  · exact ⟨c, found, rfl⟩
  · have dropped : WorksOn n s (if (c.valueIn && c.segsReady) = true then s.dropRef n else s) := by
      split
      · exact worksOn_dropRef n
      · exact .of_cmd rfl
    obtain ⟨d, found', same⟩ := dropped.find found
    rw [← Cmd.fetched_congr same]
    have way' := way.congr (Cmd.life_congr same)
    generalize (if (c.valueIn && c.segsReady) = true then s.dropRef n else s) = u at found' ⊢
    split
    · refine State.HasFetched.onCmd ?_ _ fun c => ?_
      · exact State.hasFetched_placeFlash (c := { d with ledgerPath := some false })
          (State.cmd?_onCmd_self _ found') (way'.congr rfl) _ _
      · split <;> rfl
    · split
      · exact State.hasFetched_decidePath found' way'
      · exact ⟨d, found', rfl⟩

/-- While a value is still to come, with no closed segment and no path, a write goes nowhere. -/
theorem State.pathWhenReady_waits (found : s.cmd? n = some c) (more : c.valueIn = false) (unbuilt : c.built = [])
    (path : c.ledgerPath = none) : s.pathWhenReady n = s := by
  have short : s.tooLong c = false := by
    simp [State.tooLong, unbuilt, unitsOf, classCapacity, metaReserve]
  simp [State.pathWhenReady, found, more, path, short]

end

/-! ## Value bytes (R147, R267, R283, R284) -/

/-- Where the bytes of a write begin in the value. -/
def Cmd.base (c : Cmd) : Nat := if c.op = .put then 0 else c.desc.offset

/-- A write that has taken bytes. -/
def Cmd.took (base : Nat) (data : Bytes) (c : Cmd) : Cmd := { c with
  work := feedSegs (data.length / 65536 + 2) (base + c.pos) data c.work
  pos := c.pos + data.length, buffer := c.buffer ++ data, crc := crc32cRun c.crc data }

section
variable {s : State} {n : Nat} {c : Cmd} {data : Bytes}

theorem State.takeData_eq (found : s.cmd? n = some c) (fits : data.length ≤ c.desc.length - c.pos) :
    s.takeData n data = if c.desc.length ≤ c.pos + data.length
      then ((s.onCmd n (Cmd.took c.base data)).handOn n).intakeDone n
      else ((s.onCmd n (Cmd.took c.base data)).handOn n).pathWhenReady n := by
  simp only [State.takeData, found, List.take_of_length_le fits]
  rfl

theorem exec_valueDataArrival (found : s.cmd? n = some c) (working : c.stage = .working) (op : c.op.readsBuffer = true)
    (awake : s.blockInReset .val = false) (more : c.pos < c.desc.length) (room : s.stagedBytes + data.length ≤ 2 ^ 34) :
    exec (.valueDataArrival n data) s = .next ((s.grantVal c.runClass 0).takeData n data) := by
  have fits : s.stagedBytes + data.length ≤ stagingBytes := room
  show execValueDataArrival n data s = _
  rw [execValueDataArrival, State.withCmd_pos _ found (by simp [working, op, awake, more, fits])]

/-- Where no segment is whole, none is handed on. -/
theorem State.handOn_of_parts (found : s.cmd? n = some c)
    (parts : ∀ i b, (i, SegWork.filling b) ∈ c.work → c.partWhole i b = false) : s.handOn n = s := by
  simp only [State.handOn, found]
  refine List.foldlRecOn (motive := (· = s)) c.work _ rfl fun t same e mem => ?_
  obtain ⟨i, w⟩ := e
  subst same
  cases w with
  | filling b => simp [parts i b mem]
  | _ => rfl

/-- What the client's check value does not confirm is an event, and ends the write or sends it to its gate (R147,
R283). -/
theorem State.intakeDone_mismatch (found : s.cmd? n = some c) (asked : c.desc.e2eCrc = true)
    (differs : c.desc.clientCrc ≠ crc32cOut c.crc) :
    s.intakeDone n = (s.raise 388 (item2 c.tenant ++ item4 c.desc.tag)).writeFails n .e2eCrcMismatch := by
  simp [State.intakeDone, found, asked, differs]

/-- A write that has taken bytes, its whole segments handed on. -/
theorem State.find_handedOn (found : s.cmd? n = some c) :
    ∃ d, ((s.onCmd n (Cmd.took c.base data)).handOn n).cmd? n = some d ∧
      d.besideWork = (c.took c.base data).besideWork :=
  WorksOn.find (worksOn_handOn n) (State.cmd?_onCmd_self (Cmd.took c.base data) found)

/-- Before the last byte the value is not in, and a range is not planned. -/
theorem Cmd.valueIn_took (more : c.pos + data.length < c.desc.length) (unplanned : c.cursor = 0) :
    (c.took c.base data).valueIn = false := by
  unfold Cmd.valueIn
  split <;> simp [Cmd.took, more, unplanned]

theorem Cmd.built_of_open (h : ∀ i g, (i, SegWork.built g) ∉ c.work) : c.built = [] := by
  rw [Cmd.built, List.filterMap_eq_nil_iff]
  rintro ⟨i, w⟩ mem
  cases w with
  | built g => exact absurd mem (h i g)
  | _ => rfl

/-- After a mismatch of its check value a client's write waits at its gate, and source 388 is raised. -/
theorem State.intakeDone_gated (found : s.cmd? n = some c) (client : c.ctx.isSome = true) (clean : c.conds = [])
    (asked : c.desc.e2eCrc = true) (differs : c.desc.clientCrc ≠ crc32cOut c.crc) :
    ∃ e, (s.intakeDone n).cmd? n = some e ∧ e.stage = .gated ∧ e.conds = [.e2eCrcMismatch] ∧
      (⟨388, leBytes 2 c.tenant ++ leBytes 4 c.desc.tag⟩ : Ev) ∈ (s.intakeDone n).flt.raised := by
  have raised : (s.raise 388 (item2 c.tenant ++ item4 c.desc.tag)).cmd? n = some c := found
  rw [State.intakeDone_mismatch found asked differs, State.writeFails_gated raised client (by rw [clean]; rfl)]
  have marked := State.cmd?_onCmd_self (fun c => { c with conds := c.conds ++ [.e2eCrcMismatch] }) raised
  obtain ⟨e, found', same⟩ := WorksOn.find (worksOn_dropIdleRef n)
    (State.cmd?_onCmd_self (fun c => { c with stage := .gated }) marked)
  refine ⟨e, found', (congrArg Cmd.stage same :), ?_, ?_⟩
  · exact (congrArg Cmd.conds same :).trans (by rw [clean]; rfl)
  · rw [State.flt_dropIdleRef]
    exact List.mem_append_right _ (List.mem_singleton_self _)

end

/-- Settles O24: the bytes are taken by `State.takeData_eq`; whatever becomes of the segments and the path leaves what
was fetched (`State.hasFetched_pathWhenReady`); the last byte's mismatch by `State.intakeDone_gated`. -/
theorem valueBytesArrive : Obligations.ValueBytesArrive := by
  intro s n c data found working op awake more room mine client
  have run := exec_valueDataArrival found working op awake more room
  have granted : (s.grantVal c.runClass 0).cmd? n = some c := (State.cmd?_grantVal _ _).trans found
  have way : c.UnderWay := .of_working client mine working
  have way' : (c.took c.base data).UnderWay := way.congr rfl
  refine ⟨fun before => ?_, fun last asked clean differs => ?_⟩
  · rw [State.takeData_eq granted (by omega), if_neg (by omega)] at run
    refine ⟨?_, fun w hw parts unbuilt path unplanned => ⟨_, run, ?_⟩⟩
    · obtain ⟨d, handed, same⟩ := State.find_handedOn (data := data) granted
      obtain ⟨e, found', fetched⟩ := State.hasFetched_pathWhenReady handed (way'.congr (Cmd.life_congr same))
      rw [Cmd.fetched_congr same] at fetched
      simp only [Cmd.fetched, Cmd.took, Prod.mk.injEq] at fetched
      obtain ⟨pos, crc, buffer⟩ := fetched
      exact ⟨_, e, run, found', pos, crc, buffer⟩
    · have taken := State.cmd?_onCmd_self (Cmd.took c.base data) granted
      subst hw
      rw [State.handOn_of_parts taken parts,
        State.pathWhenReady_waits taken (Cmd.valueIn_took before unplanned) (Cmd.built_of_open unbuilt) path]
      exact ⟨taken, fun m hm => (State.cmd?_onCmd_of_ne _ hm).trans (State.cmd?_grantVal _ _),
        (keeps_onCmd _ _ (keeps_grantVal _ _ (Keeps.refl _ s) (by simp)) (by simp)).onlyChanges⟩
  · rw [State.takeData_eq granted (by omega), if_pos (by omega)] at run
    obtain ⟨d, handed, same⟩ := State.find_handedOn (data := data) granted
    have desc : d.desc = c.desc := (congrArg Cmd.desc same :)
    have tenant : d.tenant = c.tenant := (congrArg Cmd.tenant same :)
    have crc : d.crc = crc32cRun c.crc data := (congrArg Cmd.crc same :)
    obtain ⟨e, found', gated, conds, raised⟩ := State.intakeDone_gated handed (way'.congr (Cmd.life_congr same)).ctx
      ((congrArg Cmd.conds same :).trans clean) (by rw [desc]; exact asked) (by rw [desc, crc]; exact differs)
    rw [desc, tenant] at raised
    exact ⟨_, e, run, found', gated, conds, raised⟩

end Sys2Proof.Machine
end

section
/-! PROOFS. The family 05_ordering_and_completion.md: the commit gate (O28). -/

namespace Sys2Proof.Machine

/-! ## What waits at a gate, after an operation -/

section
variable {s t : State} {n : Nat} {c : Cmd}

/-- An operation that is known to keep SCH leaves what waits at the gates. -/
theorem Keeps.gate (h : Keeps (· ≠ .sch) s t) : t.sch.gate = s.sch.gate := congrArg Sch.gate (h.same .sch (by simp))

@[simp] theorem State.gate_onCmd (f : Cmd → Cmd) : (s.onCmd n f).sch.gate = s.sch.gate := rfl

theorem State.gate_dropRef : (s.dropRef n).sch.gate = s.sch.gate := by
  unfold State.dropRef
  split
  · rfl
  · exact (keeps_modRefs (r := (· ≠ .sch)) _ _ _ (Keeps.refl _ s) (by simp)).gate

theorem State.gate_dropHolds : (s.dropHolds n).sch.gate = s.sch.gate := by
  unfold State.dropHolds
  split
  · rfl
  · split
    · rfl
    · exact (keeps_freeDeadSkeins (r := (· ≠ .sch)) (Keeps.refl _ _) (by simp) (by simp) (by simp) (by simp)).gate

theorem State.gate_countShed (o : Outcome) : (s.countShed c o).sch.gate = s.sch.gate := by
  unfold State.countShed
  split
  · split <;> rfl
  · rfl

theorem State.gate_releaseUncommitted : (s.releaseUncommitted c).sch.gate = s.sch.gate := by
  unfold State.releaseUncommitted
  split
  · exact (keeps_releaseWork (r := (· ≠ .sch)) c (Keeps.refl _ s) (by simp) (by simp) (by simp) (by simp)).gate
  · rfl

theorem State.gate_unwound (found : s.cmd? n = some c) (running : c.stage ≠ .accepted) (o : Outcome) :
    (s.unwound n c o).sch.gate = s.sch.gate := by
  rw [State.unwound, State.onVal_sch, State.gate_dropHolds, State.gate_dropRef, State.gate_releaseUncommitted,
    State.gate_countShed, State.leaveIntake_of_running found running]

/-- A client's command that ends lets nothing join or leave a gate. -/
theorem State.gate_endCmd (found : s.cmd? n = some c) (way : c.UnderWay) (o : Outcome) :
    (s.endCmd n o).sch.gate = s.sch.gate := by
  have ended : ((((s.unwound n c o).onCmd n (Cmd.ended · o)).dropTokens n).settleLimbo).cmd? n
      = some ({ c with slotRef := none, holds := [] }.ended o) := by
    rw [State.cmd?_settleLimbo, State.cmd?_dropTokens]
    exact State.cmd?_onCmd_self (Cmd.ended · o) (State.cmd?_unwound found way.running o)
  have client := State.ofClient_of_found ended way.ctx way.mine
  rw [State.endCmd_eq found way.undecided, State.retireOrphan_of_client client, State.answerPeer_of_client client]
  exact State.gate_unwound found way.running o

theorem State.gate_failCmd (found : s.cmd? n = some c) (way : c.UnderWay) (version : Nat) :
    (s.failCmd n version).sch.gate = s.sch.gate := by
  rw [State.failCmd_eq found, State.gate_endCmd ((State.cmd?_countMismatch _).trans found) way]
  unfold State.countMismatch
  split <;> rfl

/-- With nothing at the gates no restore is due. -/
theorem State.serveRestores_of_empty (empty : s.sch.gate = []) : s.serveRestores = s := by
  simp [State.serveRestores, empty]

/-- Ending a command leaves the index. -/
theorem State.idx_endCmd (o : Outcome) : (s.endCmd n o).idx = s.idx :=
  (keeps_endCmd (r := (· ≠ .idx)) n o (Keeps.refl _ s) (by simp) (by simp) (by simp) (by simp) (by simp) (by simp)
    (by simp) (by simp) (by simp) (by simp) (by simp) (by simp) (by simp)).same .idx (by simp)

theorem State.idx_failCmd (version : Nat) : (s.failCmd n version).idx = s.idx :=
  (keeps_failCmd (r := (· ≠ .idx)) n version (Keeps.refl _ s) (by simp) (by simp) (by simp) (by simp) (by simp)
    (by simp) (by simp) (by simp) (by simp) (by simp) (by simp) (by simp) (by simp) (by simp)).same .idx (by simp)

end

/-! ## The gate (R142, R175, R176) -/

section
variable {s : State} {n : Nat} {c : Cmd}

theorem Cmd.UnderWay.of_gated (ctx : c.ctx.isSome = true) (mine : c.orphan = false) (gated : c.stage = .gated) :
    c.UnderWay := ⟨ctx, mine, by simp [gated], by simp [Cmd.decided, gated]⟩

theorem exec_commitGate_behind (found : s.cmd? n = some c) (behind : s.atFront c = false) (empty : s.sch.gate = []) :
    exec (.commitGate n) s = .next s := by
  show execCommitGate n s = _
  simp [execCommitGate, State.withCmd, found, behind, State.serveRestores_of_empty empty]

theorem exec_commitGate_front (found : s.cmd? n = some c) (gated : c.stage = .gated) (sch : s.blockInReset .sch = false)
    (idx : s.blockInReset .idx = false) (ready : s.ldg.ready = true) (front : s.atFront c = true) :
    exec (.commitGate n) s = .next (s.decideFront n c).serveRestores := by
  show execCommitGate n s = _
  rw [execCommitGate, State.withCmd_pos _ found (by simp [gated, sch, idx, ready, front])]

/-- The conditions that the gate finds stand after the write's own. -/
def State.gateFound (s : State) (n : Nat) (c : Cmd) : State :=
  s.onCmd n fun d => { d with conds := c.conds ++ s.gateConds c }

/-- Conditions end the front write, unless its quota may still change and none stands above NO_SPACE. -/
theorem State.decideFront_fails (unchained : c.copies = 0) (fails : c.conds ++ s.gateConds c ≠ [])
    (sure : c.op = .delete ∨ s.quotaWaits c = false ∨
      ∃ st ∈ c.conds ++ s.gateConds c, st.rank < Status.noSpace.rank) :
    s.decideFront n c = (s.gateFound n c).failCmd n (s.heldVersion c) := by
  rw [State.decideFront, if_neg (by omega)]
  by_cases high : ∃ st ∈ c.conds ++ s.gateConds c, st.rank < Status.noSpace.rank
  · exact if_pos (by simpa only [List.any_eq_true, decide_eq_true_eq] using high)
  · have free : ¬(c.op ≠ .delete ∧ s.quotaWaits c = true) := by
      rcases sure with delete | settled | above
      · simp [delete]
      · simp [settled]
      · exact absurd above high
    dsimp only
    rw [if_neg (by simpa only [List.any_eq_true, decide_eq_true_eq] using high), if_neg free,
      if_pos (by simpa using fails)]
    rfl

/-- A front write that nothing refuses, under a rule without a chain, is committed. -/
theorem State.decideFront_clean (unchained : c.copies = 0) (client : c.ctx.isSome = true)
    (clean : c.conds ++ s.gateConds c = []) (quota : s.quotaWaits c = false) (place : s.unplaceable c = false)
    (alone : c.act.template = 0) : s.decideFront n c = s.tryCommit n := by
  obtain ⟨ctx, from_⟩ := Option.isSome_iff_exists.mp client
  simp [State.decideFront, unchained, clean, quota, place, from_, State.headChain, alone]

end

/-! ## A record is written (R204, R208, R215) -/

/-- The record just put into the directory is found. -/
theorem dirFind_dirPut (d : List DirRec) (r : DirRec) : dirFind (dirPut d r) r.key = some r := by
  induction d with
  | nil => simp [dirPut, dirFind]
  | cons q d ih =>
    unfold dirPut
    split
    · simp [dirFind]
    · next other =>
      split
      · simp [dirFind]
      · rw [dirFind, List.find?_cons_of_neg (by simpa using other)]
        exact ih

section
variable {s t : State}

/-- An operation that is known to keep the index leaves the directory. -/
theorem Keeps.dir (h : Keeps (· ≠ .idx) s t) : t.idx.dir = s.idx.dir := congrArg Idx.dir (h.same .idx (by simp))

theorem State.dir_setTable (x : Tbl (List (Option Slot))) : (s.setTable x).idx.dir = s.idx.dir :=
  (keeps_storageWritten (r := (· ≠ .idx)) 0 _ (Keeps.refl _ _) (by simp) (by simp)).dir

/-- The slot of a record leaves the directory, whether it finds a place or not. -/
theorem State.dir_insertSlot (r : DirRec) : (s.insertSlot r).idx.dir = s.idx.dir := by
  unfold State.insertSlot
  split
  · next t placed =>
    unfold State.tableInsert at placed
    dsimp only at placed
    split at placed
    · rw [← Option.some_inj.mp placed, State.dir_setTable]
    · obtain ⟨x, -, rfl⟩ := Option.map_eq_some_iff.mp placed
      exact State.dir_setTable x
  · rfl

theorem State.dir_queueMirror (x : MChange) : (s.queueMirror x).idx.dir = s.idx.dir := by
  unfold State.queueMirror
  split <;> rfl

theorem State.dir_finishRebuild : s.finishRebuild.idx.dir = s.idx.dir := by
  unfold State.finishRebuild
  exact (keeps_foldl (r := (· ≠ .idx)) _ _ (fun t d kept =>
    keeps_finish 0 d esDone [] kept (by simp) (by simp) (by simp) (by simp)) (Keeps.refl _ _)).dir

/-- A rebuild's mark moves, or the rebuild ends; the directory stays (R225). -/
theorem State.dir_markAgain : s.markAgain.idx.dir = s.idx.dir := by
  unfold State.markAgain State.setMark
  split
  · split
    · rfl
    · exact State.dir_finishRebuild
  · rfl

theorem State.dir_releaseLoc (loc : Loc) : (s.releaseLoc loc).idx.dir = s.idx.dir :=
  (keeps_releaseLoc (r := (· ≠ .idx)) loc (Keeps.refl _ s) (by simp) (by simp) (by simp) (by simp)).dir

theorem State.dir_moveRecord (old : Option DirRec) (r : DirRec) :
    (s.moveRecord old r).idx.dir = dirPut s.idx.dir r := by
  unfold State.moveRecord
  rw [State.dir_markAgain]
  split
  · split
    · rw [State.dir_queueMirror, State.dir_insertSlot, State.onIdx_idx]
    · rw [State.dir_releaseLoc, State.dir_insertSlot, State.onIdx_idx]
  · rw [State.dir_insertSlot, State.onIdx_idx]

/-- A record that is written is found under its key, at its new place. -/
theorem State.dirFind_writeRecord (r : DirRec) :
    ∃ loc, dirFind (s.writeRecord r).idx.dir r.key = some { r with loc := loc } := by
  unfold State.writeRecord
  rw [State.dir_moveRecord]
  exact ⟨_, dirFind_dirPut _ { r with loc := .ledger (s.stageLines r.lines).1 }⟩

end

/-! ## The record that a write leaves (R48, R54, R66) -/

section
variable {s : State} {c : Cmd}

@[simp] theorem Cmd.owner_newRecord (old : Option DirRec) (v : Variant) : (c.newRecord old v).owner = c.act.owner := by
  cases old <;> rfl

@[simp] theorem Cmd.variant_newRecord (old : Option DirRec) (v : Variant) :
    tget (c.newRecord old v).variants c.desc.variant = some v := by
  cases old <;> simp [Cmd.newRecord, tget]

/-- The record stands under the command's key. -/
theorem Cmd.key_newRecord (s : State) (c : Cmd) (v : Variant) : (c.newRecord (s.recordNow c) v).key = c.key.getD [] := by
  unfold Cmd.newRecord
  split
  · next r held => simpa using List.find?_some held
  · rfl

end

/-! ## A commit (R174, R183, R213, R344, R348) -/

/-- An operation on other parts than SCH and the index. -/
abbrev Beside (s t : State) : Prop := Keeps (fun p => p ≠ .sch ∧ p ≠ .idx) s t

/-- The map pages that a write leaves where they are. -/
def State.mapsKept (s : State) (c : Cmd) : Tbl Loc :=
  (c.newVariant (s.variantNow c)).keptMaps (s.variantNow c)
    (c.newPages (s.variantNow c) (c.newVariant (s.variantNow c))) (c.op = .put)

/-- The map pages of a write that commits: those that it has placed on flash, or those that it now stages (R374). -/
def State.mapsReady (s : State) (c : Cmd) : Tbl Loc × State :=
  match c.maps with
  | some t => (t.foldl (fun m e => tset m e.1 e.2) (s.mapsKept c), s)
  | none => s.stageMaps (c.newVariant (s.variantNow c)) c.kh c.desc.variant
      (c.newPages (s.variantNow c) (c.newVariant (s.variantNow c))) (s.mapsKept c)

/-- The record that a write leaves, with its map pages. -/
def State.recordReady (s : State) (c : Cmd) : DirRec :=
  c.newRecord (s.recordNow c) { c.newVariant (s.variantNow c) with maps := (s.mapsReady c).1 }

/-- The old map pages that a write does not keep are released, and its dead segments. -/
def State.oldReleased (s : State) (c : Cmd) : State :=
  State.buryOrKeep (match s.variantNow c with
    | some o => (s.mapsReady c).2.releaseMaps o ((o.maps.map (·.1)).filter fun j => (tget (s.mapsKept c) j).isNone)
    | none => (s.mapsReady c).2) c false (s.recordNow c)
    (deadSegs (((s.variantNow c).map (·.segs)).getD []) (c.newVariant (s.variantNow c)).segs)

/-- The charge moves, and the record and its commit lines are written. -/
def State.recorded (s : State) (c : Cmd) (old : Option DirRec) (r : DirRec) : State :=
  ((s.recharge old (some r)).writeRecord r).commitLines 1 r c.version old

/-- The write has taken effect, and a later FLUSH will count it (R140). -/
def State.effective (s : State) (n : Nat) (c : Cmd) : State :=
  (s.onCmd n fun d => { d with committed := true }).noteVersion n c

section
variable {s t : State} {n : Nat} {c d : Cmd} {r : DirRec} {old : Option DirRec}

theorem Beside.sch (h : Beside s t) : t.sch = s.sch := h.same .sch (by simp)

theorem Beside.idx (h : Beside s t) : t.idx = s.idx := h.same .idx (by simp)

/-- An entry of a table whose every entry is changed in place. -/
theorem tget_map_of_fst {α : Type} {x : Tbl α} {g : Nat × α → Nat × α} {a : α} (fst : ∀ e, (g e).1 = e.1)
    (found : tget x n = some a) : tget (x.map g) n = some (g (n, a)).2 := by
  induction x with
  | nil => simp at found
  | cons e x ih =>
    obtain ⟨k, v⟩ := e
    rw [List.map_cons, ← Prod.mk.eta (p := g (k, v)), fst]
    unfold tget at found ⊢
    split at found
    · next same => rw [if_pos same, ← Option.some_inj.mp found, same]
    · next other => rw [if_neg other, ih found]

/-- Only a FLUSH counts the writes before it. -/
theorem State.cmd?_noteVersion (found : s.cmd? n = some d) (op : d.op ≠ .flush) (m : Nat) (c : Cmd) :
    (s.noteVersion m c).cmd? n = some d := by
  unfold State.noteVersion
  split
  · exact found
  · refine (tget_map_of_fst (fun e => ?_) found).trans ?_
    · dsimp only
      split <;> rfl
    · simp [op]

theorem State.gate_noteVersion : (s.noteVersion n c).sch.gate = s.sch.gate := by
  unfold State.noteVersion
  split <;> rfl

theorem State.idx_noteVersion : (s.noteVersion n c).idx = s.idx :=
  (keeps_noteVersion (r := (· ≠ .idx)) n c (Keeps.refl _ s) (by simp) (by simp)).same .idx (by simp)

/-- Of SCH a charge that moves changes only the usage. -/
theorem State.recharge_sch (new : Option DirRec) :
    ∃ usage, (s.recharge old new).sch = { s.sch with usage := usage } := by
  unfold State.recharge
  cases old <;> cases new <;> exact ⟨_, rfl⟩

theorem State.recorded_sch : ∃ usage, (s.recorded c old r).sch = { s.sch with usage := usage } := by
  obtain ⟨usage, charged⟩ := State.recharge_sch (s := s) (old := old) (some r)
  have lines : (s.recorded c old r).sch = (s.recharge old (some r)).sch :=
    (keeps_commitLines (r := (· ≠ .sch)) 1 r c.version old (keeps_writeRecord r (Keeps.refl _ _) (by simp) (by simp)
      (by simp) (by simp) (by simp) (by simp) (by simp) (by simp)) (by simp)).same .sch (by simp)
  exact ⟨usage, lines.trans charged⟩

theorem State.cmd?_recorded : (s.recorded c old r).cmd? n = s.cmd? n := by
  obtain ⟨usage, same⟩ := State.recorded_sch (s := s) (c := c) (old := old) (r := r)
  rw [State.cmd?, same, State.cmd?]

theorem State.gate_recorded : (s.recorded c old r).sch.gate = s.sch.gate := by
  obtain ⟨usage, same⟩ := State.recorded_sch (s := s) (c := c) (old := old) (r := r)
  rw [same]

/-- The record of a commit is found under its key. -/
theorem State.dirFind_recorded :
    ∃ loc, dirFind (s.recorded c old r).idx.dir r.key = some { r with loc := loc } := by
  have lines : (s.recorded c old r).idx.dir = ((s.recharge old (some r)).writeRecord r).idx.dir :=
    (keeps_commitLines (r := (· ≠ .idx)) 1 r c.version old (Keeps.refl _ _) (by simp)).dir
  rw [lines]
  exact State.dirFind_writeRecord r

theorem beside_mapsReady (s : State) (c : Cmd) : Beside s (s.mapsReady c).2 := by
  unfold State.mapsReady
  split
  · exact Keeps.refl _ s
  · exact (keeps_stageMaps _ _ _ _ _ (Keeps.refl _ s) (by simp) (by simp) (by simp)).snd

/-- Releasing the old places of a client's write changes neither SCH nor the index. -/
theorem beside_oldReleased (client : c.ctx.isSome = true) : Beside s (s.oldReleased c) := by
  obtain ⟨ctx, from_⟩ := Option.isSome_iff_exists.mp client
  simp only [State.oldReleased, State.buryOrKeep, from_]
  refine keeps_releaseSegs _ ?_ (by simp) (by simp) (by simp) (by simp)
  split
  · exact keeps_releaseMaps _ _ (beside_mapsReady s c) (by simp) (by simp) (by simp) (by simp)
  · exact beside_mapsReady s c

theorem State.pinByRule_of_unpinned (unpinned : c.act.expressPin = false) : s.pinByRule c r = s := by
  simp [State.pinByRule, unpinned]

/-- A commit in its parts: the old places are released, the record is written, the pin is asked for, and the write
ends. -/
theorem State.commitWrite_eq (s : State) (n : Nat) (c : Cmd) :
    s.commitWrite n c = (((s.oldReleased c).recorded c (s.recordNow c) (s.recordReady c)).pinByRule c
      (s.recordReady c)).committed n c (c.validBytes (s.variantNow c)) := rfl

/-- A committed write of a client whose chain left no condition ends OK. -/
theorem State.committed_eq (clean : c.conds = []) (valid : Nat) :
    s.committed n c valid = (s.effective n c).endCmd n ⟨.ok, max 1 c.copies, c.version, valid, false, false⟩ := by
  simp [State.committed, Cmd.commitStatus, clean, State.effective]

theorem State.cmd?_effective (found : s.cmd? n = some d) (op : d.op ≠ .flush) :
    (s.effective n c).cmd? n = some { d with committed := true } :=
  State.cmd?_noteVersion (State.cmd?_onCmd_self (fun d => { d with committed := true }) found) op n c

/-- A PUT that has committed, with no copies counted, ends with its version and its LENGTH; the directory and the gates
stay. -/
theorem State.committed_put (found : s.cmd? n = some c) (way : c.UnderWay) (op : c.op = .put) (clean : c.conds = [])
    (alone : c.copies = 0) (valid : Nat) :
    Ended (s.committed n c valid) n ⟨.ok, 1, c.version, c.desc.length, false, false⟩ ∧
      (s.committed n c valid).idx = s.idx ∧ (s.committed n c valid).sch.gate = s.sch.gate := by
  have effective := State.cmd?_effective (c := c) found (by simp [op])
  have way' : ({ c with committed := true } : Cmd).UnderWay := way.congr rfl
  rw [State.committed_eq clean, alone]
  refine ⟨?_, ?_, ?_⟩
  · have ended := State.ended_endCmd effective way' ⟨.ok, 1, c.version, valid, false, false⟩
    simpa [Cmd.filled, op, Opcode.readsBuffer] using ended
  · rw [State.idx_endCmd, State.effective, State.idx_noteVersion]
    rfl
  · rw [State.gate_endCmd effective way', State.effective, State.gate_noteVersion, State.gate_onCmd]

/-- A PUT of a client commits: the directory holds its key with the variant, and it ends. -/
theorem State.commitWrite_put (found : s.cmd? n = some c) (way : c.UnderWay) (op : c.op = .put) (clean : c.conds = [])
    (alone : c.copies = 0) (unpinned : c.act.expressPin = false) :
    ∃ r v, dirFind (s.commitWrite n c).idx.dir (c.key.getD []) = some r ∧ tget r.variants c.desc.variant = some v ∧
      v.version = c.version ∧ v.length = c.desc.length ∧ v.segs = c.newSegs ((s.variantNow c).map (·.segs) |>.getD []) ∧
      r.owner = c.act.owner ∧ (s.commitWrite n c).sch.gate = s.sch.gate ∧
      Ended (s.commitWrite n c) n ⟨.ok, 1, c.version, c.desc.length, false, false⟩ := by
  have beside : Beside s (s.oldReleased c) := beside_oldReleased way.ctx
  have there : ((s.oldReleased c).recorded c (s.recordNow c) (s.recordReady c)).cmd? n = some c := by
    rw [State.cmd?_recorded, State.cmd?_of_sch beside.sch, found]
  obtain ⟨ended, idx, gate⟩ := State.committed_put there way op clean alone (c.validBytes (s.variantNow c))
  obtain ⟨loc, held⟩ := State.dirFind_recorded (s := s.oldReleased c) (c := c) (old := s.recordNow c)
    (r := s.recordReady c)
  have key : (s.recordReady c).key = c.key.getD [] := Cmd.key_newRecord s c _
  rw [State.commitWrite_eq, State.pinByRule_of_unpinned unpinned]
  refine ⟨{ s.recordReady c with loc := loc }, _, ?_, Cmd.variant_newRecord _ _, rfl, ?_, rfl,
    Cmd.owner_newRecord _ _, ?_, ended⟩
  · rw [idx, ← key, held]
  · simp [Cmd.newVariant, Cmd.newLength, op]
  · rw [gate, State.gate_recorded, beside.sch]

/-- The lines of a commit are drawn, from the tokens that it holds or from the gauge (R344). -/
theorem State.withTokens_draws (found : s.cmd? n = some c) (lines : Nat) (unqueued : s.tokensWaited n = false)
    (admitted : s.metaAdmitted (lines - c.tokens) = true) (f : State → State) :
    ∃ u, Beside s u ∧ s.withTokens n lines f = f u := by
  unfold State.withTokens
  rw [found, Option.map_some, Option.getD_some]
  by_cases covered : lines - c.tokens = 0
  · exact ⟨s, Keeps.refl _ s, if_pos covered⟩
  · refine ⟨s.lowerGauge (lines - c.tokens), keeps_lowerGauge _ (Keeps.refl _ s) (by simp) (by simp), ?_⟩
    simp [covered, unqueued, admitted]

/-- A write with no map pages, for whose lines there is room and which the gauge covers, commits. -/
theorem State.tryWrite_commits (found : s.cmd? n = some c) (unmapped : c.maps = none)
    (pages : c.newPages (s.variantNow c) (c.newVariant (s.variantNow c)) = [])
    (room : s.stagingFits (s.recordAfter c).lines = true) (unqueued : s.tokensWaited n = false)
    (admitted : s.metaAdmitted
      (s.pairLines ((s.recordAfter c).lines + commitLineCount (s.recordNow c) c.act.owner) - c.tokens) = true) :
    ∃ u, Beside s u ∧ s.tryWrite n c = u.commitWrite n c := by
  obtain ⟨u, beside, drawn⟩ := State.withTokens_draws found _ unqueued admitted fun u => u.commitWrite n c
  refine ⟨u, beside, drawn ▸ ?_⟩
  have units : (s.recordAfter c).lines + (c.newVariant (s.variantNow c)).mapLines [] = (s.recordAfter c).lines := rfl
  simp [State.tryWrite, State.placeMaps, pages, State.withCmd, found, unmapped, units, room]

theorem State.tryCommit_put (found : s.cmd? n = some c) (gated : c.stage = .gated) (op : c.op = .put)
    (place : s.unplaceable c = false) : s.tryCommit n = s.tryWrite n c := by
  simp [State.tryCommit, State.withCmd, found, gated, op, place]

end

/-- Settles O28: what is behind waits by `exec_commitGate_behind`; conditions end the front write by
`State.decideFront_fails`; a PUT that nothing refuses commits by `State.tryWrite_commits` and `State.commitWrite_put`. -/
theorem commitGateDecides : Obligations.CommitGateDecides := by
  intro s n ctx c found from_ mine gated sch idx ready empty
  have way : c.UnderWay := .of_gated (by simp [from_]) mine gated
  have run := exec_commitGate_front found gated sch idx ready
  refine ⟨fun behind => exec_commitGate_behind found behind empty,
    fun front unchained fails sure => ?_,
    fun front unchained op clean free quota place alone unpinned _ unmapped pages room unqueued admitted => ?_⟩
  · have marked : (s.gateFound n c).cmd? n = some { c with conds := c.conds ++ s.gateConds c } :=
      State.cmd?_onCmd_self _ found
    have way' : ({ c with conds := c.conds ++ s.gateConds c } : Cmd).UnderWay := way.congr rfl
    have gate : ((s.gateFound n c).failCmd n (s.heldVersion c)).sch.gate = [] := by
      rw [State.gate_failCmd marked way', State.gateFound, State.gate_onCmd, empty]
    have exec := run front
    rw [State.decideFront_fails unchained fails sure, State.serveRestores_of_empty gate] at exec
    refine ⟨_, _, exec, rfl, ?_, _, State.cmd?_failCmd marked way' _, rfl, rfl⟩
    rw [State.idx_failCmd]
    rfl
  · have exec := run front
    have nothing : c.conds ++ s.gateConds c = [] := by rw [clean, free]; rfl
    obtain ⟨u, beside, commit⟩ := State.tryWrite_commits found unmapped pages room unqueued admitted
    have there : u.cmd? n = some c := (State.cmd?_of_sch beside.sch n).trans found
    have same : u.variantNow c = s.variantNow c := by rw [State.variantNow, beside.idx, State.variantNow]
    obtain ⟨r, v, held, variant, version, length, segs, owner, gate, ended⟩ :=
      State.commitWrite_put there way op clean unchained unpinned
    rw [State.decideFront_clean unchained way.ctx nothing quota place alone, State.tryCommit_put found gated op place,
      commit, State.serveRestores_of_empty (by rw [gate, beside.sch, empty])] at exec
    rw [same] at segs
    exact ⟨_, r, v, exec, held, variant, version, length, segs, owner, ended⟩

end Sys2Proof.Machine
end

section
/-! PROOFS. The family 06_index_and_express_path.md: lookups (O19), mirror changes (O29), and the directives of the index
ring (O37). -/

namespace Sys2Proof.Machine

/-! ## Lookups (R207, R216, R219, R226) -/

section
variable {s t : State} {n fclk : Nat} {refreshing0 : Bool} {c : Cmd} {r : Option DirRec} {x : DirRec}
  {express second : Bool} {others : List Bytes} {kh : W64} {key : Bytes}

/-- An operation that is known to keep a register leaves its fields. -/
theorem Keeps.fld {f : Field} (h : Keeps (· ≠ .reg f.addr) s t) : t.fld f = s.fld f :=
  congrArg f.of (h.same (.reg f.addr) (by simp))

/-- A started command that meets a condition goes on as it is. -/
theorem State.running_started (found : s.cmd? n = some c) (started : c.stage = .started) {p : Cmd → Bool}
    (meets : p c = true) (f : State → Cmd → State) : s.running n p f = f s c := by
  have begun : s.beginCmd n = s := by simp [State.beginCmd, found, started]
  rw [State.running, State.withCmd_pos _ found (by simp [State.runnable, started, meets])]
  simp only [begun]
  rw [State.withCmd_pos _ found (by simp [Cmd.decided, started])]

/-- Where no check bits are inverted, a read of a table bucket meets none. -/
theorem State.readBucket_unmarked (unmarked : s.flt.swatched = []) (b : Nat) : s.readBucket b = s := by
  have same (p : Nat × Nat × Nat → Bool) : { s.flt with swatched := s.flt.swatched.filter p } = s.flt := by
    rw [unmarked, List.filter_nil, ← unmarked]
  simp only [State.readBucket, State.storageRead, unmarked, List.filter_nil, List.map_nil, List.foldl_nil]
  exact congrArg (fun f => { s with flt := f }) (same _)

/-- A lookup is EXPRESS's own where the mirror supplies the record (R219). -/
theorem State.lookupKey_express {k : SvcClass} (looked : s.lookupKey k refreshing0 kh key = (r, express, second, others)) :
    express = true ↔ s.usesMirror k = true ∧ (s.mirrorLookup refreshing0 kh key).1.isSome = true := by
  unfold State.lookupKey at looked
  split at looked
  · next uses =>
    split at looked <;> next supplied => obtain ⟨-, rfl, -, -⟩ := looked; simp [uses, supplied]
  · next plain => obtain ⟨-, rfl, -, -⟩ := looked; simp [plain]

/-- The mirror supplies no record that is absent. -/
theorem State.lookupKey_absent {k : SvcClass}
    (looked : s.lookupKey k refreshing0 kh key = (none, express, second, others)) : express = false := by
  unfold State.lookupKey at looked
  split at looked
  · split at looked
    · cases looked
    · simp only [Prod.mk.injEq] at looked
      obtain ⟨-, plain, -⟩ := looked
      exact plain.symm
  · simp only [Prod.mk.injEq] at looked
    obtain ⟨-, plain, -⟩ := looked
    exact plain.symm

/-! ### What a lookup counts -/

theorem State.fld_le (s : State) (f : Field) : s.fld f ≤ 2 ^ (f.hi + 1 - f.lo) - 1 :=
  Nat.le_sub_one_of_lt (Nat.mod_lt _ (Nat.two_pow_pos _))

/-- The counts of the probes and of the records read in vain. -/
def State.countReads (s : State) (second : Bool) (others : Nat) : State :=
  let s := if second then s.bump Reg.IDX_LOOKUP_STAT_SECOND_PROBES else s
  if others = 0 then s else s.bump Reg.IDX_LOOKUP_STAT_SPURIOUS_READS others

theorem State.countLookup_eq (s : State) (express second : Bool) (others fclk : Nat) :
    s.countLookup express second others fclk
      = if express && decide ((s.countReads second others).fld Reg.IDX_EXPRESS_LAT_MAX_FCLK < fclk) then
          (s.countReads second others).setFld Reg.IDX_EXPRESS_LAT_MAX_FCLK (min fclk 65535)
        else s.countReads second others := rfl

/-- The probes are counted in a register beside the largest FCLK count. -/
theorem keeps_countReads (s : State) (second : Bool) (others : Nat) :
    Keeps (· = .reg Reg.IDX_LOOKUP_STAT_SPURIOUS_READS.addr) s (s.countReads second others) := by
  have probes : Keeps (· = .reg Reg.IDX_LOOKUP_STAT_SPURIOUS_READS.addr) s
      (if second then s.bump Reg.IDX_LOOKUP_STAT_SECOND_PROBES else s) := by
    split
    · exact keeps_bump _ _ (Keeps.refl _ s) rfl
    · exact Keeps.refl _ s
  unfold State.countReads
  dsimp only
  split
  · exact probes
  · exact keeps_bump _ _ probes rfl

/-- A lookup that the mirror answers keeps the largest FCLK count. -/
theorem State.fld_countLookup (wf : Tbl.wf s.regs = true) (second : Bool) (others fclk : Nat) :
    (s.countLookup true second others fclk).fld Reg.IDX_EXPRESS_LAT_MAX_FCLK
      = max (s.fld Reg.IDX_EXPRESS_LAT_MAX_FCLK) (min fclk 65535) := by
  have reads := keeps_countReads s second others
  have same : (s.countReads second others).fld Reg.IDX_EXPRESS_LAT_MAX_FCLK = s.fld Reg.IDX_EXPRESS_LAT_MAX_FCLK :=
    congrArg Reg.IDX_EXPRESS_LAT_MAX_FCLK.of (reads.same (.reg Reg.IDX_EXPRESS_LAT_MAX_FCLK.addr) (by decide))
  have bound : s.fld Reg.IDX_EXPRESS_LAT_MAX_FCLK ≤ 65535 := s.fld_le Reg.IDX_EXPRESS_LAT_MAX_FCLK
  rw [State.countLookup_eq, same, Bool.true_and]
  by_cases larger : s.fld Reg.IDX_EXPRESS_LAT_MAX_FCLK < fclk
  · have set : ((s.countReads second others).setFld Reg.IDX_EXPRESS_LAT_MAX_FCLK (min fclk 65535)).fld
        Reg.IDX_EXPRESS_LAT_MAX_FCLK = min fclk 65535 % 2 ^ 16 :=
      State.fld_setFld_self _ Reg.IDX_EXPRESS_LAT_MAX_FCLK _ (reads.wf wf) (by decide)
    rw [if_pos (decide_eq_true larger), set]
    omega
  · rw [if_neg (by simpa using larger), same]
    omega

/-- The records that a lookup reads: the others before the match, then the match. -/
def State.toRead (s : State) (r : Option DirRec) (others : List Bytes) : List DirRec :=
  others.filterMap (dirFind s.idx.dir) ++ r.toList

/-- The state in which the records of a lookup have been counted and read. -/
def State.lookupRead (s : State) (r : Option DirRec) (express second : Bool) (others : List Bytes) (fclk : Nat) : State :=
  (s.countLookup express second others.length fclk).readRecords (s.toRead r others)

/-- Reading touches neither SCH nor the index. -/
theorem beside_lookupRead (s : State) (r : Option DirRec) (express second : Bool) (others : List Bytes) (fclk : Nat) :
    Beside s (s.lookupRead r express second others fclk) :=
  keeps_readRecords _ (keeps_countLookup _ _ _ _ (Keeps.refl _ s) (by simp) (by simp)) (by simp) (by simp) (by simp)
    (by simp)

/-- The lines that the reads meet do not touch the largest FCLK count. -/
theorem State.fld_lookupRead (wf : Tbl.wf s.regs = true) (r : Option DirRec) (second : Bool) (others : List Bytes)
    (fclk : Nat) : (s.lookupRead r true second others fclk).fld Reg.IDX_EXPRESS_LAT_MAX_FCLK
      = max (s.fld Reg.IDX_EXPRESS_LAT_MAX_FCLK) (min fclk 65535) := by
  have kept := (keeps_readRecords (r := (· ≠ .reg Reg.IDX_EXPRESS_LAT_MAX_FCLK.addr)) (s.toRead r others)
    (Keeps.refl _ (s.countLookup true second others.length fclk)) (by simp) (by simp) (by simp) (by decide)).fld
  exact kept.trans (State.fld_countLookup wf second others.length fclk)

/-- A lookup that reads no record and probes once counts nothing. -/
theorem State.lookupRead_nothing (s : State) (fclk : Nat) : s.lookupRead none false false [] fclk = s := rfl

/-! ### The rewrite of a record (R216) -/

/-- The record whose REC_CRC fails, of those that a lookup reads. -/
def badRecord (fails k : Nat) (rs : List DirRec) : Option DirRec := if fails = 0 then none else rs[k]?

/-- That record is rewritten. -/
def State.rewriteBad (s : State) : Option DirRec → State
  | none => s
  | some q => s.rewriteRecord q.key

/-- The rewritten record is found with its variants, whether the staging class has lines for it or not. -/
theorem State.dirFind_rewriteBad (held : dirFind s.idx.dir x.key = some x) :
    ∃ x', dirFind (s.rewriteBad (some x)).idx.dir x.key = some x' ∧ x'.variants = x.variants := by
  simp only [State.rewriteBad, State.rewriteRecord, held]
  split
  · obtain ⟨loc, found⟩ := State.dirFind_writeRecord (s := s.drawMeta (s.pairLines x.lines)) x
    exact ⟨_, found, rfl⟩
  · exact ⟨x, held, rfl⟩

/-- A rewrite leaves every command. -/
theorem State.cmd?_rewriteBad (bad : Option DirRec) (n : Nat) : (s.rewriteBad bad).cmd? n = s.cmd? n := by
  cases bad with
  | none => rfl
  | some q =>
    exact (keeps_rewriteRecord (r := (· ≠ .sch)) q.key (Keeps.refl _ s) (by simp) (by simp) (by simp) (by simp)
      (by simp) (by simp) (by simp) (by simp)).cmd? n

/-! ### How a lookup ends -/

/-- The command that waits for its lookup, has started, and has its turn at IDX. -/
structure LookupDue (s : State) (n : Nat) (c : Cmd) : Prop where
  found : s.cmd? n = some c
  started : c.stage = .started
  keyed : c.op.namesKey = true
  waiting : c.lookup = .waiting
  awake : s.blockInReset .idx = false
  unmarked : s.flt.swatched = []
  turn : c.cls = .express ∨ s.expressWaits (fun e => e.op.namesKey && e.lookup = .waiting) = false

/-- The superblocks that a command holds once its lookup has found a record (R179). -/
def State.lookupHolds (s : State) (c : Cmd) (x : DirRec) : List Nat :=
  if c.op = .get ∨ c.op = .writeRange ∨ c.op = .punch then s.variantSbs x c.desc.variant else []

/-- A lookup whose records can be read resolves: to absent, or to the record as it now is. -/
def State.lookupAnswered (s : State) (n : Nat) (c : Cmd) (bad : Option DirRec) (express : Bool) : Option DirRec → State
  | none => s.onCmd n fun c => { c with lookup := .absent }
  | some x => (s.takeHolds (s.lookupHolds c (s.foundRecord bad x))).onCmd n fun d => { d with
      lookup := .found (s.foundRecord bad x), expressPath := express
      holds := s.lookupHolds c (s.foundRecord bad x) }

theorem State.cmd?_lookupAnswered_found (found : s.cmd? n = some c) (bad : Option DirRec) (express : Bool)
    (x : DirRec) : (s.lookupAnswered n c bad express (some x)).cmd? n = some { c with
      lookup := .found (s.foundRecord bad x), expressPath := express
      holds := s.lookupHolds c (s.foundRecord bad x) } :=
  State.cmd?_onCmd_self (s := s.takeHolds _) _ found

/-- The holds and the answer touch no register. -/
theorem State.fld_lookupAnswered (bad : Option DirRec) (express : Bool) (r : Option DirRec) (f : Field) :
    (s.lookupAnswered n c bad express r).fld f = s.fld f := by
  cases r <;> rfl

/-- A record whose check values hold is answered as it was read. -/
theorem State.foundRecord_clean (x : DirRec) : s.foundRecord none x = x := by
  simp [State.foundRecord]

/-- A record that was rewritten is answered as the directory then holds it. -/
theorem State.foundRecord_rewritten {x x' : DirRec} (held : dirFind s.idx.dir x.key = some x') :
    s.foundRecord (some x) x = x' := by
  simp [State.foundRecord, held]

/-- A lookup whose records do not wait ends: unreadable where bytes are lost or both sources fail, else with its
answer. -/
theorem exec_indexLookup (due : LookupDue s n c)
    (looked : s.lookupKey c.cls refreshing0 c.kh (c.key.getD []) = (r, express, second, others))
    (ready : ∀ q ∈ s.toRead r others, s.recordWaits q = false) {fails k : Nat} {bad : Option DirRec}
    (which : badRecord fails k (s.toRead r others) = bad) (fclk : Nat) :
    exec (.indexLookup n refreshing0 ⟨[], fails, k⟩ fclk) s = .next (
      if (s.toRead r others).any s.recordLost || (bad.isSome && decide (2 ≤ fails)) then
        (s.lookupRead r express second others fclk).onCmd n fun c => { c with lookup := .unreadable }
      else ((s.lookupRead r express second others fclk).rewriteBad bad).lookupAnswered n c bad express r) := by
  obtain ⟨found, started, keyed, waiting, awake, unmarked, turn⟩ := due
  have none : (s.toRead r others).any s.recordWaits = false := List.any_eq_false.mpr fun q mem => by simp [ready q mem]
  have meets : (c.op.namesKey && c.lookup = .waiting && !s.blockInReset .idx
      && (decide (c.cls = .express) || !s.expressWaits fun e => e.op.namesKey && e.lookup = .waiting)) = true := by
    simpa [keyed, waiting, awake] using turn
  show execIndexLookup n refreshing0 ⟨[], fails, k⟩ fclk s = _
  rw [execIndexLookup, State.running_started found started meets]
  simp only [List.foldl_nil, State.readBucket_unmarked unmarked, ite_self, looked]
  rw [if_neg (by simpa [State.toRead] using none)]
  unfold badRecord State.toRead at which
  simp only [which]
  cases bad <;> cases r <;> rfl

/-- Where every record can be read, a lookup is answered. -/
theorem exec_indexLookup_answered (due : LookupDue s n c)
    (looked : s.lookupKey c.cls refreshing0 c.kh (c.key.getD []) = (r, express, second, others))
    (ready : ∀ q ∈ s.toRead r others, s.recordWaits q = false)
    (readable : ∀ q ∈ s.toRead r others, s.recordLost q = false) {fails k : Nat} (once : fails < 2)
    {bad : Option DirRec} (which : badRecord fails k (s.toRead r others) = bad) (fclk : Nat) :
    exec (.indexLookup n refreshing0 ⟨[], fails, k⟩ fclk) s
      = .next (((s.lookupRead r express second others fclk).rewriteBad bad).lookupAnswered n c bad express r) := by
  have none : (s.toRead r others).any s.recordLost = false :=
    List.any_eq_false.mpr fun q mem => by simp [readable q mem]
  rw [exec_indexLookup due looked ready which, if_neg (by simp [none, once])]

/-- Where bytes are lost for good, or both sources of a record fail, a lookup is unreadable. -/
theorem exec_indexLookup_lost (due : LookupDue s n c)
    (looked : s.lookupKey c.cls refreshing0 c.kh (c.key.getD []) = (r, express, second, others))
    (ready : ∀ q ∈ s.toRead r others, s.recordWaits q = false) {fails k : Nat}
    (lost : (∃ q ∈ s.toRead r others, s.recordLost q = true) ∨ (2 ≤ fails ∧ k < (s.toRead r others).length))
    (fclk : Nat) : exec (.indexLookup n refreshing0 ⟨[], fails, k⟩ fclk) s
      = .next ((s.lookupRead r express second others fclk).onCmd n fun c => { c with lookup := .unreadable }) := by
  rw [exec_indexLookup due looked ready rfl, if_pos]
  rcases lost with gone | ⟨twice, among⟩
  · simp [List.any_eq_true.mpr gone]
  · have hit : (badRecord fails k (s.toRead r others)).isSome = true := by
      rw [badRecord, if_neg (by omega), List.getElem?_eq_getElem among, Option.isSome_some]
    simp [hit, twice]

end

/-- Settles O19: the lookup ends by `exec_indexLookup_answered` or `exec_indexLookup_lost`; what it counts by
`State.fld_lookupRead`, the rewritten record by `State.dirFind_rewriteBad`. -/
theorem indexLookupResolves : Obligations.IndexLookupResolves := by
  intro s n fclk refreshing0 c r express second others found started keyed waiting awake unmarked ⟨_, regs⟩ turn looked
  have due : LookupDue s n c := ⟨found, started, keyed, waiting, awake, unmarked, turn⟩
  have beside := beside_lookupRead s r express second others fclk
  have there : (s.lookupRead r express second others fclk).cmd? n = some c :=
    (State.cmd?_of_sch beside.sch n).trans found
  refine ⟨State.lookupKey_express looked, ?_⟩
  rintro read rfl ready
  refine ⟨fun readable => ⟨fun absent => ?_, fun x here => ⟨?_, fun k place held => ?_⟩⟩, fun fails k lost =>
    ⟨_, exec_indexLookup_lost due looked ready lost fclk, State.cmd?_onCmd_self _ there⟩⟩
  · subst absent
    refine ⟨_, exec_indexLookup_answered due looked ready readable (by omega) rfl fclk,
      State.cmd?_onCmd_self _ there, fun once alone => ?_⟩
    subst once alone
    rw [State.lookupKey_absent looked, State.lookupRead_nothing]
    exact (keeps_onCmd _ _ (Keeps.refl _ s) (by simp)).onlyChanges
  · subst here
    have answer := State.cmd?_lookupAnswered_found there none express x
    rw [State.foundRecord_clean] at answer
    refine ⟨_, _, exec_indexLookup_answered due looked ready readable (by omega) rfl fclk, answer, fun supplied => ?_⟩
    subst supplied
    exact (State.fld_lookupAnswered _ _ _ _).trans (State.fld_lookupRead regs _ second others fclk)
  · subst here
    have bad : badRecord 1 k (s.toRead (some x) others) = some x := place
    have dir := congrArg Idx.dir beside.idx
    obtain ⟨x', rewritten, same⟩ := State.dirFind_rewriteBad (dir ▸ held)
    have answer := State.cmd?_lookupAnswered_found ((State.cmd?_rewriteBad (some x) n).trans there) (some x) express x
    rw [State.foundRecord_rewritten rewritten] at answer
    exact ⟨_, _, x', exec_indexLookup_answered due looked ready readable (by omega) bad fclk, rewritten, same, answer⟩

/-! ## Mirror changes (R215, R217, R220, R221) -/

section
variable {s t : State} {c : MChange} {rest : List MChange}

theorem onIdx_onlyChanges (s : State) (f : Idx → Idx) : OnlyChanges [.idx] s (s.onIdx f) :=
  (keeps_onIdx f (Keeps.refl _ s) (by simp)).onlyChanges

/-- An operation that is known to keep the index. -/
theorem Keeps.idx (h : Keeps (· ≠ .idx) s t) : t.idx = s.idx := h.same .idx (by simp)

theorem State.idx_enterChange (s : State) (c : MChange) : (s.enterChange c).idx
    = { s.idx with pending := s.idx.pending ++ [c], mirror0 := c.write s.idx.mirror0 } := rfl

theorem State.queueMirror_enters (room : s.idx.pending.length < 64) (first : s.idx.waiting = []) :
    s.queueMirror c = s.enterChange c := by
  simp [State.queueMirror, room, first]

theorem State.queueMirror_waits (full : 64 ≤ s.idx.pending.length ∨ s.idx.waiting ≠ []) :
    s.queueMirror c = s.onIdx fun i => { i with waiting := i.waiting ++ [c] } := by
  refine if_neg fun ⟨room, first⟩ => ?_
  rcases full with many | behind
  · omega
  · exact behind (List.isEmpty_iff.mp first)

theorem queueMirror_onlyChanges (s : State) (c : MChange) : OnlyChanges [.idx] s (s.queueMirror c) :=
  (keeps_queueMirror c (Keeps.refl _ s) (by simp)).onlyChanges

theorem State.admitChange_of_nil (none : s.idx.waiting = []) : s.admitChange = s := by
  simp [State.admitChange, none]

theorem State.admitChange_enters {more : List MChange} (first : s.idx.waiting = c :: more)
    (room : s.idx.pending.length < 64) :
    s.admitChange = (s.onIdx fun i => { i with waiting := more }).enterChange c := by
  simp [State.admitChange, first, room]

/-- A change that enters the table is written in copy 0 alone. -/
theorem State.idx_admitChange (s : State) : s.admitChange.idx.mirror1 = s.idx.mirror1 ∧
    s.admitChange.idx.dir = s.idx.dir ∧ s.admitChange.idx.table = s.idx.table := by
  unfold State.admitChange
  split
  · split <;> exact ⟨rfl, rfl, rfl⟩
  · exact ⟨rfl, rfl, rfl⟩

/-- The oldest pending change has left the table. -/
def State.takeChange (s : State) (rest : List MChange) : State := s.onIdx fun i => { i with pending := rest }

theorem exec_mirrorChangeDone (oldest : s.idx.pending = c :: rest) (fits : s.changeFits c = true) :
    exec .mirrorChangeDone s = .next (((s.takeChange rest).applyChange c).admitChange).serveRestores := by
  show execMirrorChangeDone s = _
  simp [execMirrorChangeDone, oldest, fits, State.takeChange]

theorem exec_mirrorChangeDone_waits (oldest : s.idx.pending = c :: rest) (full : s.changeFits c = false) :
    exec .mirrorChangeDone s = .next s := by
  show execMirrorChangeDone s = _
  simp [execMirrorChangeDone, oldest, full]

theorem exec_mirrorChangeDone_idle (none : s.idx.pending = []) : exec .mirrorChangeDone s = .next s := by
  show execMirrorChangeDone s = _
  simp [execMirrorChangeDone, none]

/-- A move has taken effect: copy 1 gives the new location, and the old one is released. -/
def State.moveDone (s : State) (rest : List MChange) (kh : W64) (key : Bytes) (loc old : Loc) : State :=
  ((s.takeChange rest).onIdx fun i => { i with mirror1 := mirrorMove i.mirror1 kh key loc }).releaseLoc old

variable {kh : W64} {key : Bytes} {loc old : Loc}

/-- The release of the old location leaves the index. -/
theorem State.idx_moveDone : (s.moveDone rest kh key loc old).idx
    = { s.idx with pending := rest, mirror1 := mirrorMove s.idx.mirror1 kh key loc } :=
  (keeps_releaseLoc (r := (· ≠ .idx)) old (Keeps.refl _ _) (by simp) (by simp) (by simp) (by simp)).idx

theorem keeps_moveDone (s : State) (rest : List MChange) (kh : W64) (key : Bytes) (loc old : Loc) :
    Keeps (· ∈ [.idx, .ldg, .ftl, .flt, .reg Reg.LDG_GAUGE_STAT_FALLBACKS.addr]) s (s.moveDone rest kh key loc old) :=
  keeps_releaseLoc old (keeps_onIdx _ (keeps_onIdx _ (Keeps.refl _ s) (by simp)) (by simp)) (by simp) (by simp) (by simp)
    (by simp)

/-- With nothing at the gates, a move that is done ends with the entry of the first change that waits. -/
theorem exec_mirrorChangeDone_move {lines : Nat} (oldest : s.idx.pending = .move kh key loc old lines :: rest)
    (empty : s.sch.gate = []) :
    exec .mirrorChangeDone s = .next (s.moveDone rest kh key loc old).admitChange := by
  have gate : (s.moveDone rest kh key loc old).admitChange.sch.gate = s.sch.gate :=
    congrArg Sch.gate ((keeps_admitChange (keeps_moveDone s rest kh key loc old) (by simp)).same .sch (by simp))
  rw [exec_mirrorChangeDone oldest rfl]
  exact congrArg _ (State.serveRestores_of_empty (gate.trans empty))

end

/-- Settles O29: the queue by `State.queueMirror_enters` and `State.queueMirror_waits`; a move by what
`State.idx_moveDone` and `State.admitChange` leave of the index. -/
theorem mirrorChangesTakeEffect : Obligations.MirrorChangesTakeEffect := by
  refine ⟨fun s c => ⟨fun room first => ?_, fun full => ?_, queueMirror_onlyChanges s c⟩,
    fun s c rest oldest => ⟨fun fits => ⟨s.takeChange rest, exec_mirrorChangeDone oldest fits, rfl,
      onIdx_onlyChanges s _⟩, exec_mirrorChangeDone_waits oldest⟩,
    fun s kh key loc old lines rest oldest empty => ?_, fun s none => exec_mirrorChangeDone_idle none⟩
  · rw [State.queueMirror_enters room first, State.idx_enterChange]
  · rw [State.queueMirror_waits full, State.onIdx_idx]
  · have moved := State.idx_moveDone (s := s) (rest := rest) (kh := kh) (key := key) (loc := loc) (old := old)
    obtain ⟨mirror1, dir, table⟩ := (s.moveDone rest kh key loc old).idx_admitChange
    refine ⟨_, exec_mirrorChangeDone_move oldest empty, by rw [mirror1, moved], by rw [dir, moved],
      by rw [table, moved], (keeps_admitChange (keeps_moveDone s rest kh key loc old) (by simp)).onlyChanges,
      fun none => ?_, fun w more first room => ?_⟩
    · rw [State.admitChange_of_nil (by rw [moved]; exact none), moved]
      exact ⟨rfl, rfl⟩
    · rw [State.admitChange_enters (by rw [moved]; exact first) (by rw [moved]; exact room), State.idx_enterChange,
        State.onIdx_idx, moved]
      exact ⟨rfl, rfl, rfl⟩

/-! ## PIN and UNPIN (R85, R86, R228) -/

section
variable {s : State} {d : Dir} {key : Bytes} {r : DirRec}

theorem exec_unpin_absent (goes : s.heldBack 0 d = false) (absent : dirFind s.idx.dir key = none) :
    exec (.unpin d key) s = .next (s.finish 0 d esDone [1]) := by
  show execUnpin d key s = _
  simp only [execUnpin, State.setUp_of_not_heldBack goes, absent]
  rfl

theorem exec_unpin_unpinned (goes : s.heldBack 0 d = false) (held : dirFind s.idx.dir key = some r)
    (unpinned : r.pinned = false) : exec (.unpin d key) s = .next (s.finish 0 d esDone [2]) := by
  show execUnpin d key s = _
  simp only [execUnpin, State.setUp_of_not_heldBack goes, held, unpinned]
  rfl

theorem exec_unpin_pinned (goes : s.heldBack 0 d = false) (held : dirFind s.idx.dir key = some r)
    (pinned : r.pinned = true) : exec (.unpin d key) s = .next (s.queueMirror (.unpin r.kh key (some d))) := by
  show execUnpin d key s = _
  simp only [execUnpin, State.setUp_of_not_heldBack goes, held, pinned, if_true]

theorem exec_pin_absent (goes : s.heldBack 0 d = false) (absent : dirFind s.idx.dir key = none) :
    exec (.pin d key) s = .next (s.finish 0 d esDone [1]) := by
  show execPin d key s = _
  simp only [execPin, State.setUp_of_not_heldBack goes, absent]
  rfl

theorem exec_pin_pinned (goes : s.heldBack 0 d = false) (held : dirFind s.idx.dir key = some r)
    (pinned : r.pinned = true) : exec (.pin d key) s = .next (s.finish 0 d esDone [2]) := by
  show execPin d key s = _
  simp only [execPin, State.setUp_of_not_heldBack goes, held, pinned, if_true]
  rfl

theorem exec_pin_refused {reason : Nat} (goes : s.heldBack 0 d = false) (held : dirFind s.idx.dir key = some r)
    (unpinned : r.pinned = false) (bars : s.pinRefusal r r.owner = some reason) :
    exec (.pin d key) s = .next ((s.pinRefused r.kh 0 reason).finish 0 d esDone [3]) := by
  show execPin d key s = _
  simp only [execPin, State.setUp_of_not_heldBack goes, held, unpinned, bars]
  rfl

theorem exec_pin_admitted (goes : s.heldBack 0 d = false) (held : dirFind s.idx.dir key = some r)
    (unpinned : r.pinned = false) (admits : s.pinRefusal r r.owner = none) :
    exec (.pin d key) s = .next (s.queueMirror (.pin r.kh key 0 (some d) false)) := by
  show execPin d key s = _
  simp only [execPin, State.setUp_of_not_heldBack goes, held, unpinned, admits]
  rfl

end

/-! ## REBUILD (R224, R225) -/

section
variable {s : State} {d : Dir}

/-- The state in which a full rebuild that a directive asks for begins its walk. -/
def State.cleared (s : State) (d : Dir) : State := s.onIdx fun i => { i with
  table := [], mirror0 := i.pending.foldl (fun t c => c.write t) [], mirror1 := [], poison := [], unplaced := []
  rebuilding := true, mark := 0, walked := [], tableReady := false, mirrorReady := false
  rebuildDir := i.rebuildDir ++ [d] }

/-- The state in which a rebuild has ended, but for the directives that wait for it. -/
def State.rebuilt (s : State) : State := s.onIdx fun i => { i with
  rebuilding := false, mark := 0, walked := [], tableReady := true, mirrorReady := true, rebuildDir := [] }

/-- With no record on the Ledger nothing is inserted before the walk. -/
theorem exec_rebuild (goes : s.heldBack 0 d = false) (pages : ∀ r ∈ s.idx.dir, pageHeld r = true) :
    exec (.rebuild d) s = .next (s.cleared d).setMark := by
  have none : s.idx.dir.filter (fun r => !pageHeld r) = [] := by simpa using pages
  show execRebuild d s = _
  simp [execRebuild, State.setUp_of_not_heldBack goes, State.startRebuild, State.rebuildFrom, none, State.cleared]

/-- When the walk begins, every record of the directory pages is still to be walked. -/
theorem State.unwalked_cleared (pages : ∀ r ∈ s.idx.dir, pageHeld r = true) : (s.cleared d).unwalked = s.idx.dir :=
  List.filter_eq_self.mpr fun r mem => by simp [State.cleared, pages r mem]

theorem State.setMark_empty (none : s.unwalked = []) : s.setMark = s.finishRebuild := by
  simp [State.setMark, none]

/-- A rebuild of an empty directory ends at once. -/
theorem exec_rebuild_empty (goes : s.heldBack 0 d = false) (empty : s.idx.dir = []) (alone : s.idx.rebuildDir = []) :
    exec (.rebuild d) s = .next ((s.cleared d).rebuilt.finish 0 d esDone []) := by
  have pages : ∀ r ∈ s.idx.dir, pageHeld r = true := by simp [empty]
  have waits : (s.cleared d).idx.rebuildDir = [d] := congrArg (· ++ [d]) alone
  rw [exec_rebuild goes pages, State.setMark_empty ((State.unwalked_cleared pages).trans empty), State.finishRebuild,
    waits]
  rfl

/-- With records in the pages the mark is set to the first of them. -/
theorem exec_rebuild_pages {r : DirRec} {rest : List DirRec} (goes : s.heldBack 0 d = false)
    (first : s.idx.dir = r :: rest) (pages : ∀ r ∈ s.idx.dir, pageHeld r = true) :
    exec (.rebuild d) s = .next ((s.cleared d).onIdx fun i => { i with
      mark := r.kh.toNat, walked := if r.kh.toNat = i.mark then i.walked else [] }) := by
  rw [exec_rebuild goes pages, State.setMark, State.unwalked_cleared pages, first]

end

/-! ## REPAIR_POISON (R227) -/

/-- Every poisoned bucket has been rebuilt from the directory. -/
def State.poisonRepaired (s : State) : State := s.onIdx fun i => { i with
  poison := []
  table := s.idx.poison.foldl (fun t b => bset t b ((bget t b).map fun o => o.bind fun x =>
    (dirFind i.dir x.key).map slotOf)) i.table }

theorem exec_repairPoison {s : State} {d : Dir} (goes : s.heldBack 0 d = false) :
    exec (.repairPoison d) s = .next (s.poisonRepaired.finish 0 d esDone (leBytes 4 s.idx.poison.length)) := by
  show execRepairPoison d s = _
  rw [execRepairPoison, State.setUp_of_not_heldBack goes]
  rfl

/-! ## Buckets -/

section
variable {α : Type} {t : Tbl (List (Option α))} {b x : Nat}

/-- A bucket reads as it was set; a bucket set to no entries is one of eight free places. -/
theorem bget_bset_self (wf : Tbl.wf t = true) (l : List (Option α)) :
    bget (bset t b l) b = if l.all Option.isNone then List.replicate 8 none else l := by
  unfold bget bset
  split
  · rw [tget_tdel_self t b wf, Option.getD_none]
  · rw [tget_tset_self, Option.getD_some]

theorem bget_bset_of_ne (t : Tbl (List (Option α))) (l : List (Option α)) (h : x ≠ b) :
    bget (bset t b l) x = bget t x := by
  unfold bget bset
  split <;> simp [h]

theorem Tbl.wf_bset (l : List (Option α)) (wf : Tbl.wf t = true) : Tbl.wf (bset t b l) = true := by
  unfold bset
  split
  · exact Tbl.wf_tdel _ _ wf
  · exact Tbl.wf_tset _ _ _ wf

/-- A number that a table does not list has no entry. -/
theorem tget_eq_none_of_notMem {β : Type} {t : Tbl β} (h : b ∉ t.map (·.1)) : tget t b = none := by
  induction t with
  | nil => rfl
  | cons e t ih =>
    obtain ⟨k, v⟩ := e
    rw [List.map_cons, List.mem_cons, not_or] at h
    obtain ⟨other, rest⟩ := h
    rw [tget, if_neg (Ne.symm other), ih rest]

/-- A bucket that a table does not list is empty. -/
theorem bget_of_notMem (h : b ∉ t.map (·.1)) : bget t b = List.replicate 8 none := by
  rw [bget, tget_eq_none_of_notMem h, Option.getD_none]

end

/-! ## MIRROR_SCRUB (R220, R228, R229, R500) -/

/-- A bucket with its places as the scrub leaves them in each copy. -/
abbrev Scrubbed := Nat × List (Option MEntry × Option MEntry × Bool)

/-- A bucket is rewritten in both copies. -/
def State.rewriteBucket (s : State) (e : Scrubbed) : State := s.onIdx fun i => { i with
  mirror0 := bset i.mirror0 e.1 (e.2.map (·.1)), mirror1 := bset i.mirror1 e.1 (e.2.map (·.2.1)) }

/-- The buckets that either copy lists. -/
def Idx.mirrorListed (i : Idx) : List Nat := (i.mirror0.map (·.1) ++ i.mirror1.map (·.1)).eraseDups

/-- The buckets that the scrub rewrites: those in which it finds a difference. -/
def State.scrubList (s : State) : List Scrubbed :=
  (s.idx.mirrorListed.map fun b => (b, s.scrubBucket b)).filter fun e => e.2.any (·.2.2)

/-- How many entries differ. -/
def State.scrubCount (s : State) : Nat :=
  (s.scrubList.map fun e => (e.2.filter (·.2.2)).length).foldl (· + ·) 0

section
variable {s : State} {d : Dir} {b : Nat}

theorem exec_mirrorScrub (goes : s.heldBack 0 d = false) (calm : s.pwr.shed = 0) : exec (.mirrorScrub d) s
    = .next ((s.scrubList.foldl State.rewriteBucket s).finish 0 d esDone (leBytes 4 s.scrubCount)) := by
  show execMirrorScrub d s = _
  rw [execMirrorScrub, State.setUp_of_not_heldBack goes, decide_eq_true calm, guardStep_true]
  rfl

theorem exec_mirrorScrub_shedding (goes : s.heldBack 0 d = false) (sheds : s.pwr.shed ≠ 0) :
    exec (.mirrorScrub d) s = .next s := by
  show execMirrorScrub d s = _
  rw [execMirrorScrub, State.setUp_of_not_heldBack goes, decide_eq_false sheds, guardStep_false]

/-- One place of a bucket, with no pending change: the copies agree afterwards. -/
def State.scrubPlace (s : State) (x y : Option MEntry) : Option MEntry × Option MEntry × Bool :=
  (s.scrubEntry x y, s.scrubEntry x y, decide (x ≠ y))

/-- With no change pending no place is passed over. -/
theorem State.scrubBucket_settled (settled : s.idx.pending = []) (b : Nat) :
    s.scrubBucket b = List.zipWith s.scrubPlace (bget s.idx.mirror0 b) (bget s.idx.mirror1 b) := by
  have expected : s.idx.expected0 = s.idx.mirror1 := by rw [Idx.expected0, settled, List.foldl_nil]
  rw [State.scrubBucket, expected, List.zip, List.zipWith_self, List.zipWith_map_right]
  simp only [ne_eq, not_true_eq_false, if_false]
  rfl

theorem State.scrubPlaces_agree (l m : List (Option MEntry)) :
    (List.zipWith s.scrubPlace l m).map (·.1) = (List.zipWith s.scrubPlace l m).map (·.2.1) := by
  simp only [List.map_zipWith, State.scrubPlace]

/-- Two buckets of one length in which the scrub finds no difference are equal. -/
theorem eq_of_scrubPlaces {l m : List (Option MEntry)} (len : l.length = m.length)
    (clean : (List.zipWith s.scrubPlace l m).any (·.2.2) = false) : l = m := by
  induction l generalizing m with
  | nil => exact (List.length_eq_zero_iff.mp len.symm).symm
  | cons x l ih =>
    obtain ⟨y, m, rfl⟩ := List.exists_cons_of_length_eq_add_one len.symm
    rw [List.zipWith_cons_cons, List.any_cons, Bool.or_eq_false_iff] at clean
    obtain ⟨same, rest⟩ := clean
    rw [not_ne_iff.mp (of_decide_eq_false same), ih (Nat.succ.inj len) rest]

/-- Where the copies differ, with no change pending, the scrub rewrites. -/
theorem State.scrubList_covers (settled : s.idx.pending = [])
    (len : (bget s.idx.mirror0 b).length = 8 ∧ (bget s.idx.mirror1 b).length = 8) :
    b ∈ s.scrubList.map (·.1) ∨ bget s.idx.mirror0 b = bget s.idx.mirror1 b := by
  by_cases listed : b ∈ s.idx.mirrorListed
  · cases differs : (s.scrubBucket b).any (·.2.2) with
    | true => exact .inl (List.mem_map.mpr ⟨(b, s.scrubBucket b),
        List.mem_filter.mpr ⟨List.mem_map_of_mem listed, differs⟩, rfl⟩)
    | false =>
      rw [State.scrubBucket_settled settled] at differs
      exact .inr (eq_of_scrubPlaces (len.1.trans len.2.symm) differs)
  · rw [Idx.mirrorListed, List.mem_eraseDups, List.mem_append, not_or] at listed
    obtain ⟨not0, not1⟩ := listed
    exact .inr ((bget_of_notMem not0).trans (bget_of_notMem not1).symm)

/-- What the scrub writes is the same in both copies. -/
theorem State.scrubList_agree (settled : s.idx.pending = []) :
    ∀ e ∈ s.scrubList, e.2.map (·.1) = e.2.map (·.2.1) := by
  intro e mem
  obtain ⟨b, -, rfl⟩ := List.mem_map.mp (List.mem_of_mem_filter mem)
  rw [State.scrubBucket_settled settled]
  exact State.scrubPlaces_agree _ _

/-- Rewrites that put the same into both copies leave them equal in every bucket that they name, and in every one in
which they were. -/
theorem State.bget_rewritten (es : List Scrubbed) (agree : ∀ e ∈ es, e.2.map (·.1) = e.2.map (·.2.1))
    (wf0 : Tbl.wf s.idx.mirror0 = true) (wf1 : Tbl.wf s.idx.mirror1 = true)
    (h : b ∈ es.map (·.1) ∨ bget s.idx.mirror0 b = bget s.idx.mirror1 b) :
    bget (es.foldl State.rewriteBucket s).idx.mirror0 b = bget (es.foldl State.rewriteBucket s).idx.mirror1 b := by
  induction es generalizing s with
  | nil => exact h.resolve_left List.not_mem_nil
  | cons e es ih =>
    refine ih (fun x mem => agree x (List.mem_cons_of_mem _ mem)) (Tbl.wf_bset _ wf0) (Tbl.wf_bset _ wf1) ?_
    by_cases here : b = e.1
    · subst here
      refine .inr ((bget_bset_self wf0 _).trans ?_)
      rw [agree e List.mem_cons_self]
      exact (bget_bset_self wf1 _).symm
    · refine h.imp (fun mem => (List.mem_cons.mp mem).resolve_left here) fun same => ?_
      exact (bget_bset_of_ne _ _ here).trans (same.trans (bget_bset_of_ne _ _ here).symm)

theorem State.dir_rewritten (es : List Scrubbed) : (es.foldl State.rewriteBucket s).idx.dir = s.idx.dir :=
  List.foldlRecOn (motive := fun t : State => t.idx.dir = s.idx.dir) es _ rfl fun _ same _ _ => same

theorem rewritten_onlyChanges (s : State) (es : List Scrubbed) :
    OnlyChanges [.idx] s (es.foldl State.rewriteBucket s) :=
  (keeps_foldl _ es (fun _ _ kept => keeps_onIdx _ kept (by simp)) (Keeps.refl _ s)).onlyChanges

end

/-- Settles O37: each directive by its own equations; the scrub's end by `State.scrubList_covers` and
`State.bget_rewritten`. -/
theorem indexDirectives : Obligations.IndexDirectives := by
  refine ⟨fun s d key goes => ⟨fun absent => ⟨exec_unpin_absent goes absent, exec_pin_absent goes absent⟩,
      fun r held unpinned => ⟨exec_unpin_unpinned goes held unpinned, fun reason bars => ?_, fun admits room first => ?_⟩,
      fun r held pinned => ⟨exec_pin_pinned goes held pinned, fun room first => ?_⟩⟩,
    fun s d goes alone => ⟨fun empty => ?_, fun filled pages => ?_⟩,
    fun s d goes => ⟨s.poisonRepaired, exec_repairPoison goes, rfl, rfl, rfl, onIdx_onlyChanges s _⟩,
    fun s d goes wf0 wf1 len => ⟨fun calm settled => ?_, exec_mirrorScrub_shedding goes⟩⟩
  · exact ⟨_, _, exec_pin_refused goes held unpinned bars, rfl, rfl,
      (keeps_raise _ _ (Keeps.refl _ s) (by simp)).onlyChanges⟩
  · exact ⟨_, exec_pin_admitted goes held unpinned admits,
      (congrArg State.idx (State.queueMirror_enters room first)).trans (State.idx_enterChange s _),
      queueMirror_onlyChanges s _⟩
  · exact ⟨_, exec_unpin_pinned goes held pinned,
      (congrArg State.idx (State.queueMirror_enters room first)).trans (State.idx_enterChange s _),
      queueMirror_onlyChanges s _⟩
  · exact ⟨_, exec_rebuild_empty goes empty alone, rfl, rfl, rfl, rfl, rfl, rfl, rfl,
      (keeps_onIdx _ (keeps_onIdx _ (Keeps.refl _ s) (by simp)) (by simp)).onlyChanges⟩
  · obtain ⟨r, rest, first⟩ := List.exists_cons_of_ne_nil filled
    exact ⟨_, exec_rebuild_pages goes first pages, rfl, rfl, rfl, congrArg (· ++ [d]) alone, rfl,
      (keeps_onIdx _ (keeps_onIdx _ (Keeps.refl _ s) (by simp)) (by simp)).onlyChanges⟩
  · exact ⟨_, s.scrubCount, exec_mirrorScrub goes calm,
      fun b => State.bget_rewritten _ (State.scrubList_agree settled) wf0 wf1 (State.scrubList_covers settled (len b)),
      State.dir_rewritten _, rewritten_onlyChanges s _⟩

end Sys2Proof.Machine
end

section
/-! PROOFS. The family 07_match_engine.md: policy searches (O18), the cascade mode (O30), loads of rules (O31), and the
upkeep of the match dies (O33). -/

namespace Sys2Proof.Machine

/-! ## Policy searches (R70, R239, R241, R251, R255) -/

section
variable {s : State} {n : Nat} {c : Cmd}

/-- A command that MCH searches for next waits in SCH's intake, or has started. -/
theorem State.undecided_of_searchNext (next : s.searchNext n c = true)
    (begun : c.op.namesKey = true → c.stage = .started) : c.decided = false := by
  cases keyed : c.op.namesKey with
  | true => simp [Cmd.decided, begun keyed]
  | false =>
    simp only [State.searchNext, State.startable, keyed, Bool.false_eq_true, if_false, Bool.and_eq_true,
      decide_eq_true_eq] at next
    obtain ⟨⟨-, ⟨⟨⟨⟨⟨accepted, -⟩, -⟩, -⟩, -⟩, -⟩⟩, -⟩ := next
    simp [Cmd.decided, accepted]

/-- A search that MCH takes for a command acts on it at once: a keyed command has started before. -/
theorem exec_policySearch (found : s.cmd? n = some c) (next : s.searchNext n c = true)
    (begun : c.op.namesKey = true → c.stage = .started) (parity : List Nat) :
    exec (.policySearch n parity) s = .next
      (if 2 ≤ (parityDies parity).length then (s.grantSearch (decide (c.cls = .express)) 0).matchParity parity
      else ((s.grantSearch (decide (c.cls = .express)) 0).policyOf c.tenant c.searchKey).2.searchDone n
        ((s.grantSearch (decide (c.cls = .express)) 0).policyOf c.tenant c.searchKey).1) := by
  have starts : (if c.op.namesKey then s.beginCmd n else s) = s := by
    split
    · next keyed => simp [State.beginCmd, found, begun keyed]
    · rfl
  show execPolicySearch n parity s = _
  simp only [execPolicySearch]
  rw [State.withCmd_pos _ found next, starts,
    State.withCmd_pos _ found (by simp [State.undecided_of_searchNext next begun])]

/-- What one issue of a search gives a command. -/
def Found.policy (f : Found) : Policy :=
  match f.hit with
  | some (_, r) => .rule (parseAction r.action)
  | none => .noRule

/-- A policy search whose checks all hold is issued once and rewrites nothing. -/
theorem State.policyOf_of_checks
    (checks : ∀ e ∈ s.checkedRules s.policyMask, e.2.checksHold = true ∧ e.2.actionHolds = true) (tenant : Nat)
    (key : Bytes) :
    s.policyOf tenant key = ((searchOnce (s.enabledRules s.policyMask) (s.searchWord tenant key) 0).policy, s) := by
  simp only [State.policyOf, State.searchFuel, State.search_of_checks checks]
  rfl

/-- What a change makes of a command is all that it does. -/
theorem State.onCmd_congr {f g : Cmd → Cmd} (found : s.cmd? n = some c) (h : f c = g c) :
    s.onCmd n f = s.onCmd n g := by
  have held : tget s.sch.cmds n = some c := found
  simp only [State.onCmd, State.onSch, tmod, held, h]

/-- Without a condition of the intake, a search only leaves its result with the command. -/
theorem State.searchDone_of_clean (found : s.cmd? n = some c) (clean : c.conds = []) (p : Policy) :
    s.searchDone n p = s.onCmd n fun c => { c with policy := p } := by
  rw [State.searchDone, State.onCmd_congr (g := fun c => { c with policy := p }) found (by simp [clean]), State.endHeld,
    State.cmd?_onCmd_self _ found]
  simp [clean]

/-- A grant of a search moves the pointer of MCH, which EXPRESS searches leave (R23, R24). -/
theorem State.mch_grantSearch (s : State) (express : Bool) (requester : Nat) :
    (s.grantSearch express requester).mch
      = { s.mch with rrSearch := if express then s.mch.rrSearch else (requester + 1) % 4 } := by
  cases express <;> rfl

theorem State.cmd?_grantSearch (s : State) (express : Bool) (requester m : Nat) :
    (s.grantSearch express requester).cmd? m = s.cmd? m := by
  cases express <;> rfl

theorem State.flt_grantSearch (s : State) (express : Bool) (requester : Nat) :
    (s.grantSearch express requester).flt = s.flt := by
  cases express <;> rfl

/-- A policy search whose checks all hold: the command has what one issue finds. -/
theorem exec_policySearch_of_checks (found : s.cmd? n = some c) (next : s.searchNext n c = true) (clean : c.conds = [])
    (begun : c.op.namesKey = true → c.stage = .started) {parity : List Nat} (good : (parityDies parity).length < 2)
    (checks : ∀ e ∈ s.checkedRules s.policyMask, e.2.checksHold = true ∧ e.2.actionHolds = true) :
    exec (.policySearch n parity) s = .next ((s.grantSearch (decide (c.cls = .express)) 0).onCmd n fun d => { d with
      policy := (searchOnce (s.enabledRules s.policyMask) (s.searchWord c.tenant c.searchKey) 0).policy }) := by
  rw [exec_policySearch found next begun, if_neg (Nat.not_le.mpr good)]
  have grant : (s.grantSearch (decide (c.cls = .express)) 0).policyOf c.tenant c.searchKey
      = ((searchOnce (s.enabledRules s.policyMask) (s.searchWord c.tenant c.searchKey) 0).policy,
        s.grantSearch (decide (c.cls = .express)) 0) := by
    cases decide (c.cls = .express)
    · exact State.policyOf_of_checks (s := s.grantSearch false 0) checks _ _
    · exact State.policyOf_of_checks checks _ _
  rw [grant, State.searchDone_of_clean ((s.cmd?_grantSearch ..).trans found) clean]

/-- Two parity failures in a row end a policy search with the event of the second die (R255, R265). -/
theorem exec_policySearch_parity (found : s.cmd? n = some c) (next : s.searchNext n c = true)
    (begun : c.op.namesKey = true → c.stage = .started) {parity : List Nat} {d1 d2 : Nat} {more : List Nat}
    (twice : parityDies parity = d1 :: d2 :: more) :
    exec (.policySearch n parity) s
      = .next ((s.grantSearch (decide (c.cls = .express)) 0).raise 323 (item1 d2)) := by
  rw [exec_policySearch found next begun, if_pos (by simp [twice]), State.matchParity, twice]

/-- With no rule that matches, a search gives none. -/
theorem policy_searchOnce_none {rules : Tbl Rule} {word : List (BitVec 320)}
    (h : ∀ e ∈ rules, e.2.matchesWord word = false) : (searchOnce rules word 0).policy = .noRule := by
  rw [searchOnce_none fun e mem _ => h e mem]
  rfl

/-- The lowest rule that matches gives its action. -/
theorem policy_searchOnce_least {rules : Tbl Rule} (rise : rules.Pairwise fun e f => e.1 < f.1)
    {word : List (BitVec 320)} {e : Nat × Rule} (mem : e ∈ rules) (hit : e.2.matchesWord word = true)
    (least : ∀ f ∈ rules, f.2.matchesWord word = true → e.1 ≤ f.1) :
    (searchOnce rules word 0).policy = .rule (parseAction e.2.action) := by
  obtain ⟨first, -⟩ := searchOnce_least rise (mem_hitsOf.mpr ⟨mem, Nat.zero_le _, hit⟩) fun f found => by
    obtain ⟨memf, -, hitf⟩ := mem_hitsOf.mp found
    exact least f memf hitf
  rw [Found.policy, first]

end

/-- Settles O18: the search is issued once (`exec_policySearch_of_checks`), and its lowest hit is the lowest rule that
matches. -/
theorem policySearchFindsLowestRule : Obligations.PolicySearchFindsLowestRule := by
  refine fun s n c found next clean begun => ⟨fun parity good wf checks => ?_, fun parity d1 d2 more twice => ?_⟩
  · have rise : (s.enabledRules s.policyMask).Pairwise (fun e f => e.1 < f.1) :=
      ((Tbl.pairwise_of_wf _ wf).filter _).filter _
    refine ⟨_, _, exec_policySearch_of_checks found next clean begun good checks,
      State.cmd?_onCmd_self _ ((s.cmd?_grantSearch ..).trans found),
      fun m other => (State.cmd?_onCmd_of_ne _ other).trans (s.cmd?_grantSearch ..), ?_, ?_, ?_,
      policy_searchOnce_none, fun e mem hit least => policy_searchOnce_least rise mem hit least⟩
    · exact (keeps_onCmd _ _ (keeps_grantSearch _ _ (Keeps.refl _ s) (by simp)) (by simp)).onlyChanges
    · exact congrArg (fun m : Mch => { m with rrSearch := s.mch.rrSearch }) (s.mch_grantSearch _ 0)
    · exact (congrArg Mch.rrSearch (s.mch_grantSearch _ 0)).trans (by simp)
  · refine ⟨_, exec_policySearch_parity found next begun twice, (s.cmd?_grantSearch ..).trans found, ?_,
      (keeps_raise _ _ (keeps_grantSearch _ _ (Keeps.refl _ s) (by simp)) (by simp)).onlyChanges⟩
    rw [State.raise_flt, s.flt_grantSearch]
    rfl

/-! ## The cascade mode (R232, R450) -/

section
variable {s : State}

theorem exec_cascadeWrite (s : State) (value : Nat) : exec (.cascadeWrite value) s = .next (s.cascadeWrite value) := rfl

theorem State.cascadeWrite_of_locked (locked : s.locked 0x80000 = true) (value : Nat) : s.cascadeWrite value = s :=
  if_pos locked

theorem State.cascadeWrite_of_empty (unlocked : s.locked 0x80000 = false) (empty : s.mch.rules = []) (value : Nat) :
    s.cascadeWrite value = s.setFld Reg.MCH_CFG_CASCADE (value % 4) := by
  simp [State.cascadeWrite, unlocked, empty]

theorem State.cascadeWrite_of_valid (unlocked : s.locked 0x80000 = false) (valid : s.mch.rules ≠ []) (value : Nat) :
    s.cascadeWrite value = s.raise 324 (item1 (value % 4) ++ leBytes 3 s.validEntries) := by
  simp [State.cascadeWrite, unlocked, valid]

/-- Where no entry is valid, VALID_ENTRIES is 0. -/
theorem State.validEntries_of_empty (empty : s.mch.rules = []) : s.validEntries = 0 := by
  simp [State.validEntries, empty]

end

/-- Settles O30: one case for each branch of `State.cascadeWrite`. -/
theorem cascadeWriteOnlyWhenEmpty : Obligations.CascadeWriteOnlyWhenEmpty := by
  refine fun s value ⟨_, regs⟩ => ⟨fun unlocked empty => ⟨State.validEntries_of_empty empty, ?_⟩,
    fun unlocked valid => ?_, fun locked => ?_⟩
  · rw [exec_cascadeWrite, State.cascadeWrite_of_empty unlocked empty]
    refine ⟨_, rfl, ?_, (keeps_setFld _ _ (Keeps.refl _ s) (by simp)).onlyChanges⟩
    exact (State.fld_setFld_self s _ _ regs (by decide)).trans (Nat.mod_mod _ _)
  · rw [exec_cascadeWrite, State.cascadeWrite_of_valid unlocked valid]
    exact ⟨_, _, rfl, rfl, rfl, (keeps_raise _ _ (Keeps.refl _ s) (by simp)).onlyChanges⟩
  · rw [exec_cascadeWrite, State.cascadeWrite_of_locked locked]

/-! ## Loads of rules (R242 to R248, R610) -/

section
variable {s : State} {d : Dir} {pos : Nat}

/-- A load outside the running shift is carried out at once (R248). -/
theorem State.loadOrWait_outside (outside : s.inShift pos = false) (r : Option Rule) :
    s.loadOrWait d pos r = s.loadRule d pos r :=
  if_neg (by simp [outside])

/-- With no swatch armed, a rule is written to the shadow and to its die as it is. -/
theorem State.putRule_unarmed (unarmed : s.fld Reg.FLT_SWATCH_CTL_ARM = 0) (p : Nat) (r : Rule) :
    s.putRule p r = s.onMch fun m => { m with shadow := tset m.shadow p r, rules := tset m.rules p r } :=
  State.dieWrite_unarmed (s := s.onMch fun m => { m with shadow := tset m.shadow p r }) unarmed p r

/-- A refused directive records MATCH_RULE_REFUSED and answers REFUSED (R243, R265). -/
theorem recorded_of_ruleRefused {c : Instr} {code p : Nat} (refuses : exec c s = .next (s.ruleRefused d code p)) :
    ∃ (u : State) (e : Ev), exec c s = .next (u.finish 1 d esRefused []) ∧ u.flt.raised = s.flt.raised ++ [e] ∧
      e.src = 325 ∧ OnlyChanges [.flt] s u :=
  ⟨_, _, refuses, rfl, rfl, (keeps_raise _ _ (Keeps.refl _ s) (by simp)).onlyChanges⟩

variable (free : s.heldBack 1 d = false)
include free

theorem exec_epochSet_loads {epoch : Nat} (known : epoch ≤ 15) :
    exec (.epochSet d epoch) s = .next (((s.setFld Reg.MCH_STATUS_EPOCH epoch).loaded).finish 1 d esDone []) := by
  show execEpochSet d epoch s = _
  rw [execEpochSet, State.setUp_of_not_heldBack free, if_neg (Nat.not_lt.mpr known)]

theorem exec_epochSet_refused {epoch : Nat} (unknown : 15 < epoch) :
    exec (.epochSet d epoch) s = .next (s.ruleRefused d 6 0) := by
  show execEpochSet d epoch s = _
  rw [execEpochSet, State.setUp_of_not_heldBack free, if_pos unknown]

variable (small : pos < 2 ^ 19)
include small

/-- RULE_WRITE of an allowed action, outside the running shift (R244). -/
theorem exec_ruleWrite_loads {recs : Bytes} (inside : pos < s.rulePositions)
    (allowed : s.actionRefused (ruleOfRecords s.ruleSegs recs).action = false) (outside : s.inShift pos = false) :
    exec (.ruleWrite d pos recs) s
      = .next ((s.putRule pos (ruleOfRecords s.ruleSegs recs)).loaded.finish 1 d esDone []) := by
  show execRuleWrite d pos recs s = _
  simp only [execRuleWrite, State.setUp_of_not_heldBack free, Nat.mod_eq_of_lt small]
  rw [if_neg (by simp [allowed, inside]), State.loadOrWait_outside outside]
  rfl

/-- RULE_WRITE beyond the positions of the mode (R243). -/
theorem exec_ruleWrite_refused (beyond : s.rulePositions ≤ pos) (recs : Bytes) :
    exec (.ruleWrite d pos recs) s = .next (s.ruleRefused d 1 pos) := by
  show execRuleWrite d pos recs s = _
  simp only [execRuleWrite, State.setUp_of_not_heldBack free, Nat.mod_eq_of_lt small, beyond, true_or, if_true]

/-- RULE_CLEAR outside the running shift (R242). -/
theorem exec_ruleClear_loads (inside : pos < s.rulePositions) (outside : s.inShift pos = false) :
    exec (.ruleClear d pos) s = .next ((s.dropRule pos).loaded.finish 1 d esDone []) := by
  show execRuleClear d pos s = _
  simp only [execRuleClear, State.setUp_of_not_heldBack free, Nat.mod_eq_of_lt small]
  rw [if_neg (Nat.not_le.mpr inside), State.loadOrWait_outside outside]
  rfl

/-- RULE_CLEAR beyond the positions of the mode (R243). -/
theorem exec_ruleClear_refused (beyond : s.rulePositions ≤ pos) :
    exec (.ruleClear d pos) s = .next (s.ruleRefused d 3 pos) := by
  show execRuleClear d pos s = _
  simp only [execRuleClear, State.setUp_of_not_heldBack free, Nat.mod_eq_of_lt small, beyond, if_true]

variable {last : Nat} (top : last + 1 < 2 ^ 19)
include top

/-- An allowed RULE_INSERT with nothing to wait for starts its shift (R246). -/
theorem exec_ruleInsert_starts {recs : Bytes} (idle : s.mch.shift = none) (first : s.mch.waitShift = [])
    (may : s.mayInsert pos (last + 1) = true)
    (allowed : s.actionRefused (ruleOfRecords s.ruleSegs recs).action = false) :
    exec (.ruleInsert d pos last recs) s = .next (s.onMch fun m => { m with
      shift := some ⟨pos, last + 1, ruleOfRecords s.ruleSegs recs, last + 1, s.flt.time, d⟩ }) := by
  show execRuleInsert d pos last recs s = _
  simp only [execRuleInsert, State.setUp_of_not_heldBack free, Nat.mod_eq_of_lt small, Nat.mod_eq_of_lt top]
  simp [idle, first, State.startShift, may, allowed]

/-- While a shift runs, a RULE_INSERT waits (R248). -/
theorem exec_ruleInsert_waits (runs : s.mch.shift.isSome = true) (recs : Bytes) :
    exec (.ruleInsert d pos last recs) s = .next (s.onMch fun m => { m with
      waitShift := m.waitShift ++ [(d, pos, last + 1, ruleOfRecords s.ruleSegs recs)] }) := by
  show execRuleInsert d pos last recs s = _
  simp only [execRuleInsert, State.setUp_of_not_heldBack free, Nat.mod_eq_of_lt small, Nat.mod_eq_of_lt top, runs,
    Bool.true_or, if_true]

end

theorem onMch_onlyChanges (s : State) (f : Mch → Mch) : OnlyChanges [.mch] s (s.onMch f) :=
  (keeps_onMch _ (Keeps.refl _ s) (by simp)).onlyChanges

/-- The clause on EPOCH_SET: the field holds the epoch, and LOAD_GEN rises beside it. -/
theorem epochSet_loads {s : State} {d : Dir} {epoch : Nat} (regs : Tbl.wf s.regs = true)
    (free : s.heldBack 1 d = false) (known : epoch ≤ 15) :
    ∃ u : State, exec (.epochSet d epoch) s = .next (u.finish 1 d esDone []) ∧ u.fld Reg.MCH_STATUS_EPOCH = epoch ∧
      u.fld Reg.MCH_STATUS_LOAD_GEN = (s.fld Reg.MCH_STATUS_LOAD_GEN + 1) % 128 ∧ u.mch = s.mch := by
  have set := s.regs_wf_setFld Reg.MCH_STATUS_EPOCH epoch regs
  have gen : (s.setFld Reg.MCH_STATUS_EPOCH epoch).fld Reg.MCH_STATUS_LOAD_GEN = s.fld Reg.MCH_STATUS_LOAD_GEN :=
    State.fld_setFld_disjoint s _ _ _ regs rfl (by decide)
  refine ⟨_, exec_epochSet_loads free known, ?_, ?_, rfl⟩
  · calc (s.setFld Reg.MCH_STATUS_EPOCH epoch).loaded.fld Reg.MCH_STATUS_EPOCH
      _ = (s.setFld Reg.MCH_STATUS_EPOCH epoch).fld Reg.MCH_STATUS_EPOCH :=
        State.fld_setFld_disjoint _ Reg.MCH_STATUS_EPOCH Reg.MCH_STATUS_LOAD_GEN _ set rfl (by decide)
      _ = epoch % 2 ^ 4 := State.fld_setFld_self s Reg.MCH_STATUS_EPOCH epoch regs (by decide)
      _ = epoch := Nat.mod_eq_of_lt (Nat.lt_succ_of_le known)
  · rw [State.loadGen_loaded set, gen]

/-- Settles O31: each directive by its equation, a load by `State.putRule_unarmed`. -/
theorem rulesAreLoaded : Obligations.RulesAreLoaded := by
  refine fun s d pos ⟨_, regs⟩ free unarmed rules shadow small => ⟨fun recs inside allowed outside => ?_,
    fun inside outside => ?_,
    fun beyond => ⟨recorded_of_ruleRefused (exec_ruleClear_refused free small beyond),
      fun recs => recorded_of_ruleRefused (exec_ruleWrite_refused free small beyond recs)⟩,
    fun last recs top idle first order inside level vacant allowed => ?_, fun last recs top runs => ?_,
    fun epoch known => epochSet_loads regs free known,
    fun epoch unknown => recorded_of_ruleRefused (exec_epochSet_refused free unknown)⟩
  · refine ⟨_, exec_ruleWrite_loads free small inside allowed outside, ?_⟩
    rw [State.putRule_unarmed unarmed]
    exact ⟨tget_tset_self .., tget_tset_self .., fun x other => tget_tset_of_ne _ _ _ _ other,
      State.loadGen_loaded regs⟩
  · exact ⟨_, exec_ruleClear_loads free small inside outside, tget_tdel_self _ _ rules, tget_tdel_self _ _ shadow,
      fun x other => tget_tdel_of_ne _ _ _ other, State.loadGen_loaded regs⟩
  · have may : s.mayInsert pos (last + 1) = true := by simp [State.mayInsert, order, inside, level, vacant]
    exact ⟨_, exec_ruleInsert_starts free small top idle first may allowed, rfl, rfl, onMch_onlyChanges s _⟩
  · exact ⟨_, exec_ruleInsert_waits free small top runs recs, rfl, rfl, onMch_onlyChanges s _⟩

/-! ## Scrubs (R241, R253) -/

section
variable {s : State} {pos mask : Nat} {r r0 : Rule}

/-- The entry at a position, rewritten from its shadow record by a scrub in its turn: source 321 is raised, and
SCRUB_FIXES counts it. -/
def State.scrubbed (s : State) (pos : Nat) (r0 : Rule) : State :=
  ((s.onMch fun m => { m with rules := tset m.rules pos r0, scrubDue := m.scrubDue.eraseDups, rrSearch := 0 }).raise 321
    (item4 pos)).bump Reg.MCH_ERR_STAT_SCRUB_FIXES

/-- With no swatch armed, the scrubber rewrites an entry that differs from its shadow record. -/
theorem State.scrubEntry1_differs (unarmed : s.fld Reg.FLT_SWATCH_CTL_ARM = 0) (die : tget s.mch.rules pos = some r)
    (shadow : tget s.mch.shadow pos = some r0) (differs : r ≠ r0) :
    s.scrubEntry1 pos = ((s.onMch fun m => { m with rules := tset m.rules pos r0 }).raise 321 (item4 pos)).bump
      Reg.MCH_ERR_STAT_SCRUB_FIXES := by
  simp only [State.scrubEntry1, die, shadow, if_neg differs, State.dieWrite_unarmed unarmed]

/-- Where no half differs from its image, a scrub reads entries alone. -/
theorem State.scrubDies_of_entries (good : (s.scrubEntries mask).badHalves = []) :
    s.scrubDies mask = (s.scrubEntries mask).grantSearch false 3 := by
  have same : ((s.scrubEntries mask).grantSearch false 3).badHalves = [] := good
  simp only [State.scrubDies, same, List.filter_nil, List.foldl_nil]

variable (only : s.mch.rules = [(pos, r)]) (named : (s.diesOf pos).any (fun die => bitOf mask die) = true)
include only named

/-- A scrub of the die of the one entry reads it now, with no write pending. -/
theorem State.scrubEntries_one (settled : s.writePending pos = false) :
    s.scrubEntries mask
      = State.scrubEntry1 (s.onMch fun m => { m with scrubDue := m.scrubDue.eraseDups }) pos := by
  simp [State.scrubEntries, only, named, settled]

/-- A write that is pending puts the reading off. -/
theorem State.scrubEntries_one_pending (pending : s.writePending pos = true) :
    s.scrubEntries mask = s.onMch fun m => { m with scrubDue := (m.scrubDue ++ [pos]).eraseDups } := by
  simp [State.scrubEntries, only, named, pending]

/-- A scrub of the die whose one entry differs from its shadow record rewrites it. -/
theorem State.scrubDies_differs (settled : s.writePending pos = false) (good : s.badHalves = [])
    (unarmed : s.fld Reg.FLT_SWATCH_CTL_ARM = 0) (shadow : tget s.mch.shadow pos = some r0) (differs : r ≠ r0) :
    s.scrubDies mask = s.scrubbed pos r0 := by
  have die : tget s.mch.rules pos = some r := by simp [only, tget]
  have entries : s.scrubEntries mask = _ := (State.scrubEntries_one only named settled).trans
    (State.scrubEntry1_differs (s := s.onMch fun m => { m with scrubDue := m.scrubDue.eraseDups }) unarmed die shadow
      differs)
  rw [State.scrubDies_of_entries (by rw [entries]; exact good), entries]
  rfl

/-- A scrub of the die whose one entry has a write pending leaves it for later. -/
theorem State.scrubDies_pending (pending : s.writePending pos = true) (good : s.badHalves = [])
    (none_due : s.mch.scrubDue = []) :
    s.scrubDies mask = s.onMch fun m => { m with rrSearch := 0, scrubDue := [pos] } := by
  have entries := State.scrubEntries_one_pending only named pending
  rw [State.scrubDies_of_entries (by rw [entries]; exact good), entries]
  simp [State.grantSearch, State.onMch, none_due, List.eraseDups_cons]

end

/-- What a scrub that rewrites the one entry leaves. -/
theorem State.scrubbed_effects {s : State} {pos : Nat} {r r0 : Rule} (regs : Tbl.wf s.regs = true)
    (only : s.mch.rules = [(pos, r)]) :
    (s.scrubbed pos r0).mch
        = { s.mch with rules := [(pos, r0)], rrSearch := 0, scrubDue := s.mch.scrubDue.eraseDups } ∧
      (s.scrubbed pos r0).flt.raised = s.flt.raised ++ [⟨321, leBytes 4 pos⟩] ∧
      (s.scrubbed pos r0).fld Reg.MCH_ERR_STAT_SCRUB_FIXES = min (s.fld Reg.MCH_ERR_STAT_SCRUB_FIXES + 1)
        (2 ^ (Reg.MCH_ERR_STAT_SCRUB_FIXES.hi + 1 - Reg.MCH_ERR_STAT_SCRUB_FIXES.lo) - 1) := by
  have rules : tset s.mch.rules pos r0 = [(pos, r0)] := by simp [only, tset]
  exact ⟨congrArg (fun t => { s.mch with rules := t, rrSearch := 0, scrubDue := s.mch.scrubDue.eraseDups }) rules, rfl,
    State.fld_bump_self _ 1 regs (by decide)⟩

theorem exec_matchScrub_turn {s : State} (unshed : s.pwr.shed = 0) (turn : s.searchTurn false 3 = true) (mask : Nat) :
    exec (.matchScrub mask) s = .next (s.scrubDies mask) := by
  show execMatchScrub mask s = _
  simp [execMatchScrub, unshed, turn]

/-- While a shedding stage is in force, scheduled scrubs pause (R500). -/
theorem exec_matchScrub_shed {s : State} (shed : s.pwr.shed ≠ 0) (mask : Nat) :
    exec (.matchScrub mask) s = .next s := by
  show execMatchScrub mask s = _
  simp only [execMatchScrub, decide_eq_false shed, Bool.false_and, guardStep_false]

theorem exec_scrubNow_turn {s : State} {d : Dir} (free : s.heldBack 1 d = false) (turn : s.searchTurn false 3 = true)
    (mask : Nat) : exec (.scrubNow d mask) s = .next ((s.scrubDies mask).finish 1 d esDone []) := by
  show execScrubNow d mask s = _
  simp [execScrubNow, State.setUp_of_not_heldBack free, turn]

/-! ## Automaton halves (R259, R261, R262) -/

theorem exec_matchStateReloaded {s : State} {h slot : Nat} (granted : tget s.mch.halves h = some slot) :
    exec (.matchStateReloaded h) s
      = .next (((s.onMch fun m => { m with lanes := tset m.lanes h ((tget m.images slot).getD []) }).raise 322
          (item2 h ++ item2 slot)).bump Reg.MCH_ERR_STAT_CHECK_FIXES) := by
  show Host.Outcome.next (s.reloadHalf h) = _
  simp only [State.reloadHalf, granted]

/-- What a table reads is one of its entries. -/
theorem mem_of_tget {α : Type} {t : Tbl α} {n : Nat} {a : α} (h : tget t n = some a) : (n, a) ∈ t := by
  induction t with
  | nil => cases h
  | cons e t ih =>
    rw [tget] at h
    split at h
    · next same => exact List.mem_cons.mpr (.inl (by rw [← same, ← Option.some.inj h]))
    · exact List.mem_cons_of_mem _ (ih h)

/-- An image slot that a half runs for holds that half. -/
theorem State.mem_halvesOf {s : State} {h slot : Nat} (granted : tget s.mch.halves h = some slot) :
    h ∈ s.halvesOf slot := by
  simpa [State.halvesOf] using mem_of_tget granted

/-- The end of a withdrawal touches the waiting searches alone: they stay, or those that hold a half wait no more. -/
theorem State.endWithdraw_cases (s : State) :
    ∃ waits, s.endWithdraw = (s.onMch fun m => { m with waitHalves := waits }) ∧
      (waits = s.mch.waitHalves ∨ ∀ w, s.halvesOf w ≠ [] → w ∉ waits) := by
  unfold State.endWithdraw
  split
  · exact ⟨s.mch.waitHalves, rfl, .inl rfl⟩
  · exact ⟨_, rfl, .inr fun w holds mem => holds (by simpa using (List.mem_filter.mp mem).2)⟩

/-- A withdrawal gives a half of the search that holds the most to the waiting one whose turn it is. -/
theorem exec_halfWithdraw {s : State} {slot h w : Nat} (waits : s.mch.waitHalves ≠ []) (used : s.freeHalves = [])
    (most : s.mostHalves = some slot) (half : (s.halvesOf slot).getLast? = some h)
    (turn : roundRobin s.mch.rrHalf s.halfTakers = some w) :
    exec .halfWithdraw s = .next (s.onMch fun m => { m.giveHalf w h with rrHalf := w + 1 }).endWithdraw := by
  have due : (!s.mch.waitHalves.isEmpty && s.freeHalves.isEmpty) = true := by
    rw [used, List.isEmpty_eq_false_iff.mpr waits]
    rfl
  show execHalfWithdraw s = _
  simp only [execHalfWithdraw, due, guardStep_true, State.withdrawHalf, most, half, turn]

/-- The clause on HALF_WITHDRAW. -/
theorem halfWithdraw_gives {s : State} {slot h w : Nat} (waits : s.mch.waitHalves ≠ []) (used : s.freeHalves = [])
    (most : s.mostHalves = some slot) (half : (s.halvesOf slot).getLast? = some h)
    (turn : roundRobin s.mch.rrHalf s.halfTakers = some w) :
    ∃ t, exec .halfWithdraw s = .next t ∧ tget t.mch.halves h = some w ∧
      tget t.mch.lanes h = some ((tget s.mch.images w).getD []) ∧
      (t.mch.waitHalves = s.mch.waitHalves ∨ w ∉ t.mch.waitHalves) ∧
      (∀ x, x ≠ h → tget t.mch.halves x = tget s.mch.halves x) ∧ t.mch.rrHalf = w + 1 ∧ OnlyChanges [.mch] s t := by
  have given : tget (tset s.mch.halves h w) h = some w := tget_tset_self ..
  obtain ⟨left, ends, choice⟩ := State.endWithdraw_cases (s.onMch fun m => { m.giveHalf w h with rrHalf := w + 1 })
  refine ⟨_, exec_halfWithdraw waits used most half turn, ?_⟩
  rw [ends]
  exact ⟨given, tget_tset_self .., choice.imp_right fun gone => gone w (List.ne_nil_of_mem (State.mem_halvesOf given)),
    fun x other => tget_tset_of_ne _ _ _ _ other, rfl,
    (keeps_onMch _ (keeps_onMch _ (Keeps.refl _ s) (by simp)) (by simp)).onlyChanges⟩

/-- Settles O33: the two scrubs by `State.scrubDies_differs` and `State.scrubDies_pending`, the reload by its equation,
the withdrawal by `halfWithdraw_gives`. -/
theorem matchUpkeep : Obligations.MatchUpkeep := by
  refine ⟨fun s d pos mask r r0 ⟨_, regs⟩ only shadow differs named settled good unarmed => ?_,
    fun s d pos mask r only named pending good due free turn => ?_, fun s h slot ⟨_, regs⟩ granted => ?_,
    fun s slot h w waits used most half turn => halfWithdraw_gives waits used most half turn⟩
  · have scrubs := State.scrubDies_differs only named settled good unarmed shadow differs
    refine ⟨fun unshed turn => ?_, fun shed => exec_matchScrub_shed shed mask, fun free turn => ?_⟩
    · exact ⟨_, exec_matchScrub_turn unshed turn mask, scrubs ▸ State.scrubbed_effects regs only⟩
    · exact ⟨_, exec_scrubNow_turn free turn mask, scrubs ▸ State.scrubbed_effects regs only⟩
  · rw [exec_scrubNow_turn free turn, State.scrubDies_pending only named pending good due]
  · exact ⟨_, exec_matchStateReloaded granted, tget_tset_self .., fun x other => tget_tset_of_ne _ _ _ _ other, rfl,
      rfl, State.fld_bump_self _ 1 regs (by decide)⟩

end Sys2Proof.Machine
end

section
/-! PROOFS. The family 08_value_path_and_check_values.md: reads of stored segments (O25), and repairs (O26). -/

namespace Sys2Proof.Machine

/-! ## Reads of lines leave VAL aside (R329, R332, R340, R349)

A line that is read may retire lines and fail groups, and none of it reads or changes VAL: each operation on the way
gives the same over a state in which VAL is another. `(rfl)` makes an equation that `simp` rewrites with, so that the test of an `if`
changes together with its decision. -/

section
variable (f : Val → Val) (s : State)

/-- A run of operations of which none minds VAL. -/
theorem State.foldl_onVal {α : Type} (op : State → α → State) (step : ∀ s a, op (s.onVal f) a = (op s a).onVal f)
    (l : List α) (s : State) : l.foldl op (s.onVal f) = (l.foldl op s).onVal f := by
  induction l generalizing s with
  | nil => rfl
  | cons a l ih => rw [List.foldl_cons, step, ih, List.foldl_cons]

@[simp] theorem State.lgroup_onVal (g : Nat) : (s.onVal f).lgroup g = s.lgroup g := rfl
@[simp] theorem State.deviceWorks_onVal (dev : Nat) : (s.onVal f).deviceWorks dev = s.deviceWorks dev := (rfl)
@[simp] theorem State.sparesLeft_onVal (dev : Nat) : (s.onVal f).sparesLeft dev = s.sparesLeft dev := (rfl)
@[simp] theorem State.spareLineLow_onVal (dev : Nat) : (s.onVal f).spareLineLow dev = s.spareLineLow dev := (rfl)
@[simp] theorem State.roomiest_onVal (dev : Nat) : (s.onVal f).roomiest dev = s.roomiest dev := rfl
@[simp] theorem State.copyGood_onVal (line : Nat) (copyB : Bool) : (s.onVal f).copyGood line copyB = s.copyGood line copyB :=
  (rfl)
@[simp] theorem State.onLgroup_onVal (g : Nat) (h : LGroup → LGroup) : (s.onVal f).onLgroup g h = (s.onLgroup g h).onVal f :=
  rfl
@[simp] theorem State.raise_onVal (src : Nat) (b : Bytes) : (s.onVal f).raise src b = (s.raise src b).onVal f := rfl
@[simp] theorem State.onRec_onVal (h : Recorder → Recorder) : (s.onVal f).onRec h = (s.onRec h).onVal f := rfl
@[simp] theorem State.recLineLost_onVal (row : Nat) : (s.onVal f).recLineLost row = (s.recLineLost row).onVal f := rfl
@[simp] theorem State.spoilCopy_onVal (line : Nat) (copyB : Bool) :
    (s.onVal f).spoilCopy line copyB = (s.spoilCopy line copyB).onVal f := rfl
@[simp] theorem State.swatchRead_onVal (t a : Nat) :
    (s.onVal f).swatchRead t a = ((s.swatchRead t a).1, (s.swatchRead t a).2.onVal f) := rfl
@[simp] theorem State.drawNat_onVal : (s.onVal f).drawNat = (s.drawNat.1, s.drawNat.2.onVal f) := rfl

@[simp] theorem State.noteSpares_onVal (dev : Nat) (was : Bool) :
    (s.onVal f).noteSpares dev was = (s.noteSpares dev was).onVal f := by
  simp only [State.noteSpares, State.spareLineLow_onVal, State.sparesLeft_onVal, State.raise_onVal]
  split_ifs <;> rfl

@[simp] theorem State.takeSpare_onVal (g : Nat) : (s.onVal f).takeSpare g = (s.takeSpare g).onVal f := by
  simp [State.takeSpare]

@[simp] theorem State.takeSpares_onVal (dev n : Nat) : (s.onVal f).takeSpares dev n = (s.takeSpares dev n).onVal f := by
  simp only [State.takeSpares, State.lgroup_onVal, State.spareLineLow_onVal]
  rw [State.foldl_onVal f _ (fun _ _ => State.onLgroup_onVal f _ _ _), State.noteSpares_onVal]
  rfl

@[simp] theorem State.loseGroup_onVal (g : Nat) : (s.onVal f).loseGroup g = (s.loseGroup g).onVal f := by
  simp only [State.loseGroup, State.deviceWorks_onVal, State.onVal_ldg]
  split_ifs
  · rfl
  · exact State.foldl_onVal f _ (fun s l => State.spoilCopy_onVal f s l (decide (128 ≤ g))) _ s

@[simp] theorem State.regionLost_onVal (p : Nat → Bool) (first count : Nat) :
    (s.onVal f).regionLost p first count = (s.regionLost p first count).onVal f := by
  simp only [State.regionLost, State.raise_onVal, State.onVal_recorder]
  exact State.foldl_onVal f State.recLineLost (State.recLineLost_onVal f) _ _

@[simp] theorem State.groupGone_onVal (g : Nat) : (s.onVal f).groupGone g = (s.groupGone g).onVal f := by
  simp [State.groupGone]

@[simp] theorem State.moveGroup_onVal (g : Nat) : (s.onVal f).moveGroup g = (s.moveGroup g).onVal f := by
  simp only [State.moveGroup, State.sparesLeft_onVal, State.onLgroup_onVal, State.raise_onVal]
  split_ifs <;> rw [State.takeSpares_onVal]

@[simp] theorem State.failGroup_onVal (g : Nat) : (s.onVal f).failGroup g = (s.failGroup g).onVal f := by
  simp [State.failGroup]

@[simp] theorem State.retireLine_onVal (line : Nat) : (s.onVal f).retireLine line = (s.retireLine line).onVal f := by
  simp only [State.retireLine, State.lgroup_onVal, State.roomiest_onVal, State.onLgroup_onVal, State.raise_onVal,
    State.drawNat_onVal, State.takeSpare_onVal, State.failGroup_onVal]
  split
  · split <;> rfl
  · split <;> rfl

@[simp] theorem State.copyRead_onVal (line : Nat) (copyB : Bool) :
    (s.onVal f).copyRead line copyB = (s.copyRead line copyB).onVal f := by
  simp only [State.copyRead, State.swatchRead_onVal, State.retireLine_onVal]
  split <;> rfl

@[simp] theorem State.readLine_onVal (line : Nat) :
    (s.onVal f).readLine line = ((s.readLine line).1, (s.readLine line).2.onVal f) := by
  simp only [State.readLine, State.copyGood_onVal, State.copyRead_onVal, State.deviceWorks_onVal, State.swatchRead_onVal,
    State.retireLine_onVal, State.raise_onVal]
  split
  · rfl
  · split
    · split <;> rfl
    · rfl

/-- What a read of lines finds does not rest on VAL. -/
theorem State.readLines_onVal (lines : List Nat) :
    (s.onVal f).readLines lines = ((s.readLines lines).1, (s.readLines lines).2.onVal f) := by
  induction lines generalizing s with
  | nil => rfl
  | cons l rest ih => simp only [State.readLines, State.readLine_onVal, ih]

end

/-- Two states whose flash maps differ in the pointers of the channels alone hold the same codewords at a location, cover
them alike, and let a read check find the same. -/
theorem State.checks_of_ftl {s t : State} {p : Tbl Nat} (h : t.ftl = { s.ftl with rrFch := p }) :
    (∀ loc, t.locWords loc = s.locWords loc) ∧ (∀ loc, t.locParity loc = s.locParity loc) ∧
      ∀ g fold ok, t.checkRead g fold ok = s.checkRead g fold ok := by
  obtain ⟨⟩ := s
  obtain ⟨⟩ := t
  subst h
  exact ⟨fun _ => rfl, fun _ => rfl, fun _ _ _ => rfl⟩

/-! ## Reads of stored segments (R285, R286, R291) -/

section
variable {s t : State} {n i ctx : Nat} {c : Cmd} {g : Seg} {v : Variant} {ok : Bool}

/-- The state in which a segment's read has taken its turn in VAL and at the channels (R268, R382). -/
def State.readTurnTaken (s : State) (c : Cmd) (g : Seg) : State :=
  (s.grantVal c.runClass 1).grantFch g.loc (decide (c.runClass = .express)) 0

/-- Whether the lines of the segment could be read, and the state after their read. -/
def State.linesTaken (s : State) (c : Cmd) (g : Seg) (ok : Bool) : Bool × State :=
  ((s.readTurnTaken c g).spoilLine g.loc ok).readLines (ledgerLines g.loc (segUnits g.payload.length))

/-- A segment on the Ledger lies behind no channel. -/
theorem State.grantFch_ledger (s : State) (line : Nat) (express : Bool) (requester : Nat) :
    s.grantFch (.ledger line) express requester = s := by
  cases express <;> rfl

theorem State.spoilLine_onVal (f : Val → Val) (s : State) (loc : Loc) (good : Bool) :
    (s.onVal f).spoilLine loc good = (s.spoilLine loc good).onVal f := by
  cases loc with
  | ledger line => cases good <;> rfl
  | flash skein byte units => rfl

/-- The turn leaves what the lines give. -/
theorem State.linesTaken_good
    (good : ((s.spoilLine g.loc ok).readLines (ledgerLines g.loc (segUnits g.payload.length))).1 = true) :
    (s.linesTaken c g ok).1 = true := by
  unfold State.linesTaken State.readTurnTaken
  cases at_ : g.loc with
  | flash skein byte units => rfl
  | ledger line =>
    rw [at_] at good
    rw [State.grantFch_ledger]
    unfold State.grantVal
    split
    · exact good
    · rw [State.spoilLine_onVal, State.readLines_onVal]
      exact good

/-- What taking a turn and reading lines leaves: the commands, the slots, what is sent, the repairs, and of the flash map
all but the pointers of the channels. -/
structure ReadBegun (s t : State) : Prop where
  sch : t.sch = s.sch
  cip : t.cip = s.cip
  nfe : t.nfe = s.nfe
  repairs : t.val.repairs = s.val.repairs
  nextRepair : t.val.nextRepair = s.val.nextRepair
  ftl : ∃ p, t.ftl = { s.ftl with rrFch := p }

theorem ReadBegun.locWords (h : ReadBegun s t) (loc : Loc) : t.locWords loc = s.locWords loc :=
  have ⟨_, ftl⟩ := h.ftl
  (State.checks_of_ftl ftl).1 loc

theorem ReadBegun.locParity (h : ReadBegun s t) (loc : Loc) : t.locParity loc = s.locParity loc :=
  have ⟨_, ftl⟩ := h.ftl
  (State.checks_of_ftl ftl).2.1 loc

theorem ReadBegun.checkRead (h : ReadBegun s t) (g : Seg) (fold : W64) (ok : Bool) :
    t.checkRead g fold ok = s.checkRead g fold ok :=
  have ⟨_, ftl⟩ := h.ftl
  (State.checks_of_ftl ftl).2.2 g fold ok

theorem State.readTurnTaken_begun (s : State) (c : Cmd) (g : Seg) : ReadBegun s (s.readTurnTaken c g) := by
  unfold State.readTurnTaken State.grantFch State.grantVal
  split <;> split <;> exact ⟨rfl, rfl, rfl, rfl, rfl, ⟨_, rfl⟩⟩

theorem State.linesTaken_begun (s : State) (c : Cmd) (g : Seg) (ok : Bool) : ReadBegun s (s.linesTaken c g ok).2 := by
  have turn := s.readTurnTaken_begun c g
  have kept : Keeps (· ∉ [Part.sch, .cip, .nfe, .val, .ftl]) (s.readTurnTaken c g) (s.linesTaken c g ok).2 :=
    keeps_readLines _ (keeps_spoilLine g.loc ok (Keeps.refl _ _) (by simp)) (by simp) (by simp) (by simp) (by simp)
  have val : (s.linesTaken c g ok).2.val = (s.readTurnTaken c g).val := kept.same .val (by simp)
  have ftl : (s.linesTaken c g ok).2.ftl = (s.readTurnTaken c g).ftl := kept.same .ftl (by simp)
  exact ⟨(kept.same .sch (by simp)).trans turn.sch, (kept.same .cip (by simp)).trans turn.cip,
    (kept.same .nfe (by simp)).trans turn.nfe, val ▸ turn.repairs, val ▸ turn.nextRepair, ftl ▸ turn.ftl⟩

theorem ReadBegun.cmd? (h : ReadBegun s t) (n : Nat) : t.cmd? n = s.cmd? n := State.cmd?_of_sch h.sch n

/-- Whether a key is gone shows in CIP alone. -/
theorem State.sealGone_of_cip (h : t.cip = s.cip) (c : Cmd) (g : Seg) : t.sealGone c g = s.sealGone c g := by
  obtain ⟨⟩ := s
  obtain ⟨⟩ := t
  subst h
  rfl

/-- A GET's read of the segment at its position, once each of its dies serves it (R382, R383). -/
theorem exec_segmentRead_get (found : s.cmd? n = some c) (working : c.stage = .working) (whole : c.repair = none)
    (op : c.op = .get) (awake : s.blockInReset .val = false) (observed : c.observed = some v)
    (at_ : i = (c.desc.offset + c.pos) / 65536) (stored : tget v.segs i = some g) (idle : c.work = [])
    (may : s.mayRead 0 (decide (c.runClass = .express)) g.loc = true) :
    exec (.segmentRead n ok) s = .next ((s.readSeg n c i g v ok).resumeDies (s.readDies g.loc)) := by
  have planned : s.planRange n = s := by simp [State.planRange, found, op]
  have next : s.nextRead c = some (i, g, v) := by simp [State.nextRead, op, observed, ← at_, stored]
  show execSegmentRead n ok s = _
  rw [execSegmentRead, State.withCmd_pos _ found (by simp [working, whole, awake])]
  simp only [planned]
  rw [State.withCmd_pos _ found (by simp [working])]
  simp only [next]
  simp [idle, may]

/-- A clean sealed segment waits for its open (R285, R318). -/
theorem State.readSeg_sealed {w : SealWord} (lines : (s.linesTaken c g ok).1 = true)
    (clean : s.checkRead g (locator c.kh c.desc.variant i) ok = .clean) (sealed : g.sealWord = some w) (idle : c.work = []) :
    s.readSeg n c i g v ok
      = ((((s.linesTaken c g ok).2.issueRef n w.slot).setWork n i (.opening g)).fillLanes 16) := by
  rw [← (s.linesTaken_begun c g ok).checkRead] at clean
  unfold State.linesTaken State.readTurnTaken at *
  simp [State.readSeg, lines, clean, sealed, idle]

/-- A clean segment that is not sealed goes on with its logical bytes (R285 step 5). -/
theorem State.readSeg_plain {b : Bytes} (lines : (s.linesTaken c g ok).1 = true)
    (clean : s.checkRead g (locator c.kh c.desc.variant i) ok = .clean) (plain : g.sealWord = none)
    (decodes : g.decode g.payload = some b) :
    s.readSeg n c i g v ok = (s.linesTaken c g ok).2.segGood n i b := by
  rw [← (s.linesTaken_begun c g ok).checkRead] at clean
  unfold State.linesTaken State.readTurnTaken at *
  simp [State.readSeg, lines, clean, plain, decodes]

/-- A CRC that fails begins a repair (R285 steps 2 and 3, R286). -/
theorem State.readSeg_bad (lines : (s.linesTaken c g ok).1 = true)
    (bad : s.checkRead g (locator c.kh c.desc.variant i) ok = .badCheck) :
    s.readSeg n c i g v ok = (s.linesTaken c g ok).2.startRepair n i g v 0 := by
  rw [← (s.linesTaken_begun c g ok).checkRead] at bad
  unfold State.linesTaken State.readTurnTaken at *
  simp [State.readSeg, lines, bad]

/-- Once slots are restored, a command without a reference takes one to the slot's present generation (R318). -/
theorem State.cmd?_issueRef (found : s.cmd? n = some c) (unreferenced : c.slotRef = none)
    (restored : s.cip.restoreDone = true) (slot : Nat) :
    (s.issueRef n slot).cmd? n = some { c with slotRef := some (slot, (s.slot slot).gen) } := by
  have entry : tget s.sch.cmds n = some c := found
  have kept : (if (s.slot slot).st = .loaded then s.modRefs slot (s.slot slot).gen (· + 1) else s).cmd? n = some c := by
    split
    · exact ((keeps_modRefs (r := (· ≠ .sch)) slot _ _ (Keeps.refl _ s) (by simp)).cmd? n).trans found
    · exact found
  simp only [State.issueRef, entry, Option.bind_some, unreferenced, restored]
  exact State.cmd?_onCmd_self (fun c => { c with slotRef := some (slot, (s.slot slot).gen) }) kept

/-- A lane that is filled and a die that resumes leave the work that waits for them. -/
theorem State.cmd?_setWork_fillLanes (found : s.cmd? n = some c) (i : Nat) (x : SegWork) (dies : List (Nat × Nat)) :
    (((s.setWork n i x).fillLanes 16).resumeDies dies).cmd? n = some { c with work := tset c.work i x } := by
  have filled := keeps_fillLanes (r := (· ≠ .sch)) 16 (Keeps.refl _ (s.setWork n i x)) (by simp)
  have kept := keeps_resumeDies dies filled (by simp)
  exact (kept.cmd? n).trans (State.cmd?_onCmd_self (fun c => { c with work := tset c.work i x }) found)

/-- To wait for a lane sends nothing. -/
theorem State.nfe_issueRef_fillLanes (s : State) (n slot i : Nat) (x : SegWork) (dies : List (Nat × Nat)) :
    ((((s.issueRef n slot).setWork n i x).fillLanes 16).resumeDies dies).nfe = s.nfe :=
  (keeps_resumeDies (r := (· ≠ .nfe)) dies (keeps_fillLanes 16 (keeps_setWork n i x (keeps_issueRef n slot
    (Keeps.refl _ s) (by simp) (by simp)) (by simp)) (by simp)) (by simp)).same .nfe (by simp)

/-- A command without a reference has none to drop. -/
theorem State.dropRef_of_unreferenced (found : s.cmd? n = some c) (unreferenced : c.slotRef = none) : s.dropRef n = s := by
  have entry : tget s.sch.cmds n = some c := found
  simp [State.dropRef, entry, unreferenced]

/-- A reader whose segment has passed. -/
def Cmd.passed (i : Nat) (c : Cmd) : Cmd := { c with work := tdel c.work i, repair := none }

/-- The segment at a GET's position has passed: its part of the range is delivered, and the read goes on (R150). -/
theorem State.segGood_get (found : s.cmd? n = some c) (from_ : c.ctx = some ctx) (op : c.op = .get)
    (unreferenced : c.slotRef = none) (b : Bytes) :
    s.segGood n i b = ((s.deliver n (c.readPart i b)).onCmd n (Cmd.passed i)).advanceRead n c.readFuel := by
  have passed := State.cmd?_onCmd_self (Cmd.passed i) (State.deliver_client found from_ (c.readPart i b)).1
  have dropped := State.dropRef_of_unreferenced passed unreferenced
  simp only [State.segGood, State.readGood, found, if_pos op]
  split
  · rfl
  · exact congrArg (State.advanceRead · n c.readFuel) dropped

/-- The entry of a repair that a command's read begins (R291). -/
def State.repairFor (s : State) (n i : Nat) (c : Cmd) (g : Seg) (v : Variant) (failed : Nat) : Repair :=
  ⟨c.kh, c.key.getD [], c.desc.variant, v.version, i, g, failed, v.template, s.locWords g.loc, false, [n], false, none⟩

/-- The state in which a command waits on a new repair. -/
def State.repairEntered (s : State) (n : Nat) (r : Repair) : State :=
  ((s.addRepair r).2.onVal fun x => { x with waitRepair := x.waitRepair.filter (· ≠ n) }).onCmd n fun c =>
    { c with repair := some s.val.nextRepair }

theorem State.repair?_repairEntered (s : State) (n : Nat) (r : Repair) :
    (s.repairEntered n r).repair? s.val.nextRepair = some r :=
  tget_tset_self s.val.repairs s.val.nextRepair r

theorem State.cmd?_repairEntered (found : s.cmd? n = some c) (r : Repair) :
    (s.repairEntered n r).cmd? n = some { c with repair := some s.val.nextRepair } :=
  State.cmd?_onCmd_self (s := (s.addRepair r).2.onVal _) (fun c => { c with repair := some s.val.nextRepair }) found

/-- A segment that failed a check and that no repair holds enters the table, where it has room (R286, R291). -/
theorem State.startRepair_enters {failed : Nat} (found : s.cmd? n = some c) (keyed : s.sealGone c g = false)
    (alone : ∀ x ∈ s.val.repairs, x.2.old.loc ≠ g.loc) (room : s.val.repairs.length < 64) :
    s.startRepair n i g v failed
      = (s.repairEntered n (s.repairFor n i c g v failed)).seekCopy s.val.nextRepair := by
  have none : s.val.repairs.find? (fun e => decide (e.2.old.loc = g.loc)) = none :=
    List.find?_eq_none.mpr fun x hx => by simp [alone x hx]
  simp only [State.startRepair, found, keyed, none, if_neg (Nat.not_le.mpr room)]
  rfl

/-- A repair seeks no further while its location has a second copy of its own (R286, R287). -/
theorem State.seekCopy_local {rid : Nat} {r : Repair} (entry : s.repair? rid = some r) (decoded : r.failed ≠ 3)
    (covered : ∀ k b u, r.old.loc = .flash k b u → s.locParity r.old.loc = true) : s.seekCopy rid = s := by
  simp only [State.seekCopy, entry]
  split
  · rfl
  · next k b u at_ => simp [decoded, covered k b u at_]

end

/-- Settles O25. The read's lines and its turn leave what the checks look at: the commands, the slots, and of the flash
map all but the pointers of the channels. -/
theorem segmentsAreRead : Obligations.SegmentsAreRead := by
  intro s n i ctx c g v ok found from_ working whole op awake observed at_ stored idle unreferenced may good
  have run := exec_segmentRead_get (ok := ok) found working whole op awake observed at_ stored idle may
  have lines := State.linesTaken_good (c := c) good
  have begun := s.linesTaken_begun c g ok
  have found' := (begun.cmd? n).trans found
  refine ⟨fun w clean sealed restored => ?_, fun b clean plain decodes => ?_, fun bad keyed alone room covered => ?_⟩
  · rw [State.readSeg_sealed lines clean sealed idle] at run
    have referenced := State.cmd?_issueRef found' unreferenced (begun.cip ▸ restored) w.slot
    have waits := State.cmd?_setWork_fillLanes referenced i (.opening g) (s.readDies g.loc)
    rw [idle, State.slot, begun.cip] at waits
    exact ⟨_, run, waits, sends_nil ((State.nfe_issueRef_fillLanes _ n w.slot i _ _).trans begun.nfe)⟩
  · rw [State.readSeg_plain lines clean plain decodes, State.segGood_get found' from_ op unreferenced] at run
    obtain ⟨delivered, sent⟩ := State.deliver_client found' from_ (c.readPart i b)
    exact ⟨_, _, _, run, State.cmd?_onCmd_self (Cmd.passed i) delivered, rfl, rfl, rfl, sends_congr sent begun.nfe rfl⟩
  · have words := begun.locWords g.loc
    have enters := State.startRepair_enters (i := i) (v := v) (failed := 0) found'
      ((State.sealGone_of_cip begun.cip c g).trans keyed) (begun.repairs ▸ alone) (begun.repairs ▸ room)
    have entry := (s.linesTaken c g ok).2.repair?_repairEntered n ((s.linesTaken c g ok).2.repairFor n i c g v 0)
    rw [State.readSeg_bad lines bad, enters, State.seekCopy_local entry (by simp [State.repairFor]) fun k b u at_ =>
      (begun.locParity g.loc).trans (covered k b u at_)] at run
    have waits := State.cmd?_repairEntered found' ((s.linesTaken c g ok).2.repairFor n i c g v 0)
    rw [begun.nextRepair] at entry waits
    exact ⟨_, run, entry.trans (congrArg some (by rw [State.repairFor, words])), waits, congrArg (· + 1) begun.nextRepair⟩

/-! ## What has been raised stays raised

An operation may raise more events, after those that stand: the new list begins with the old one. -/

section
variable {s t : State} {n : Nat} {c : Cmd}

theorem raised_of_flt (h : t.flt = s.flt) : s.flt.raised <+: t.flt.raised := by rw [h]

theorem raised_foldl {α : Type} (f : State → α → State) (step : ∀ s a, s.flt.raised <+: (f s a).flt.raised)
    (l : List α) (s : State) : s.flt.raised <+: (l.foldl f s).flt.raised := by
  induction l generalizing s with
  | nil => exact raised_of_flt rfl
  | cons a l ih => exact (step s a).trans (ih (f s a))

theorem raised_lowerGauge (k : Nat) : s.flt.raised <+: (s.lowerGauge k).flt.raised := by
  simp only [State.lowerGauge]
  split
  · exact ⟨_, rfl⟩
  · exact raised_of_flt rfl

theorem raised_journalMap (kind target : Nat) (b : Bytes) : s.flt.raised <+: (s.journalMap kind target b).flt.raised := by
  have written : (s.journal ⟨0, kind, 0, 0, none, target, 0, 0, b⟩).flt = s.flt :=
    (keeps_journal (r := (· ≠ .flt)) _ (Keeps.refl _ s) (by simp)).same .flt (by simp)
  unfold State.journalMap State.drawMeta
  split
  · exact (raised_of_flt written).trans (raised_lowerGauge _)
  · exact raised_of_flt written

theorem raised_freeSkein (k : Nat) : s.flt.raised <+: (s.freeSkein k).flt.raised := by
  unfold State.freeSkein
  split
  · exact raised_of_flt rfl
  · dsimp only
    split
    · exact raised_journalMap (s := s.onFtl _) _ _ _
    · exact raised_of_flt rfl

theorem raised_dropHolds (n : Nat) : s.flt.raised <+: (s.dropHolds n).flt.raised := by
  unfold State.dropHolds
  split
  · exact raised_of_flt rfl
  · split
    · exact raised_of_flt rfl
    · exact raised_foldl State.freeSkein (fun s k => raised_freeSkein k) _ ((s.giveHolds _).onCmd n _)

/-- A client's command that ends, once what it held is given up. -/
theorem State.endCmd_client (found : s.cmd? n = some c) (way : c.UnderWay) (o : Outcome) :
    s.endCmd n o = (((s.unwound n c o).onCmd n (Cmd.ended · o)).dropTokens n).settleLimbo := by
  have ended : ((((s.unwound n c o).onCmd n (Cmd.ended · o)).dropTokens n).settleLimbo).cmd? n = some (c.over o) := by
    rw [State.cmd?_settleLimbo, State.cmd?_dropTokens]
    exact State.cmd?_onCmd_self (Cmd.ended · o) (State.cmd?_unwound found way.running o)
  have client := State.ofClient_of_found ended way.ctx way.mine
  rw [State.endCmd_eq found way.undecided, State.retireOrphan_of_client client, State.answerPeer_of_client client]

/-- A count of SHED commands stands in the registers alone. -/
theorem keeps_countShed (s : State) (c : Cmd) (o : Outcome) : Keeps (fun p => ∃ a, p = .reg a) s (s.countShed c o) := by
  unfold State.countShed
  split
  · split <;> exact keeps_bump _ _ (Keeps.refl _ s) ⟨_, rfl⟩
  · exact Keeps.refl _ s

/-- A read's end keeps what is raised. -/
theorem raised_endCmd (found : s.cmd? n = some c) (way : c.UnderWay) (reads : c.op.isWrite = false) (o : Outcome) :
    s.flt.raised <+: (s.endCmd n o).flt.raised := by
  have before : ((((s.leaveIntake n).countShed c o).releaseUncommitted c).dropRef n).flt = s.flt := by
    rw [State.leaveIntake_of_running found way.running, State.releaseUncommitted, reads]
    exact ((keeps_dropRef (r := (· ≠ .flt)) n (Keeps.refl _ _) (by simp) (by simp)).same .flt (by simp)).trans
      ((keeps_countShed s c o).same .flt (by simp))
  rw [State.endCmd_client found way]
  exact (raised_of_flt before).trans (raised_dropHolds n)

end

/-! ## Repairs in the table (R291) -/

section
variable {s t : State} {n rid : Nat} {c : Cmd} {r : Repair} {st : Status}

/-- A number without an entry has none when every entry is changed in place. -/
theorem tget_map_none {α β : Type} {x : Tbl α} {g : Nat × α → Nat × β} {n : Nat} (fst : ∀ e, (g e).1 = e.1)
    (gone : tget x n = none) : tget (x.map g) n = none := by
  induction x with
  | nil => rfl
  | cons e x ih =>
    obtain ⟨k, v⟩ := e
    rw [List.map_cons, ← Prod.mk.eta (p := g (k, v)), fst]
    unfold tget at gone ⊢
    split at gone
    · next same => cases gone
    · next other => rw [if_neg other, ih gone]

theorem State.val_releaseUncommitted (c : Cmd) : (s.releaseUncommitted c).val = s.val := by
  unfold State.releaseUncommitted
  split
  · exact (keeps_releaseWork (r := (· ≠ .val)) c (Keeps.refl _ s) (by simp) (by simp) (by simp) (by simp)).same .val
      (by simp)
  · rfl

/-- A command that ends brings no repair back. -/
theorem State.repair?_endCmd_none (found : s.cmd? n = some c) (way : c.UnderWay) (o : Outcome)
    (gone : s.repair? rid = none) : (s.endCmd n o).repair? rid = none := by
  have before : (((((s.leaveIntake n).countShed c o).releaseUncommitted c).dropRef n).dropHolds n).val = s.val := by
    rw [State.leaveIntake_of_running found way.running]
    exact ((keeps_dropHolds (r := (· ≠ .val)) n (keeps_dropRef n (Keeps.refl _ _) (by simp) (by simp)) (by simp) (by simp)
      (by simp) (by simp) (by simp)).same .val (by simp)).trans
        ((State.val_releaseUncommitted c).trans ((keeps_countShed s c o).same .val (by simp)))
  rw [State.endCmd_client found way]
  exact tget_map_none (fun _ => rfl) ((congrArg (fun v => tget (Val.repairs v) rid) before).trans gone)

@[simp] theorem State.cmd?_dropRepair (s : State) (rid n : Nat) : (s.dropRepair rid).cmd? n = s.cmd? n := rfl

theorem State.repair?_dropRepair (wf : Tbl.wf s.val.repairs = true) : (s.dropRepair rid).repair? rid = none :=
  tget_tdel_self s.val.repairs rid wf

/-- What a GET ends with that fails on a segment (R140, R150). -/
def Cmd.readFailure (c : Cmd) (st : Status) : Outcome :=
  ⟨st, if c.desc.e2eCrc then (crc32cOut c.crc).toNat else 0, (c.observed.map (·.version)).getD 0, c.pos, false, false⟩

theorem State.segFails_get (found : s.cmd? n = some c) (op : c.op = .get) (st : Status) :
    s.segFails n st = s.endCmd n (c.readFailure st) := by
  simp only [State.segFails, found, if_pos op]
  exact State.endRead_eq found st

/-- A GET whose segment fails ends, what is raised stays raised, and no repair returns to the table. -/
theorem State.segFails_ends (found : s.cmd? n = some c) (op : c.op = .get) (way : c.UnderWay)
    (gone : s.repair? rid = none) (st : Status) :
    (s.segFails n st).repair? rid = none ∧ s.flt.raised <+: (s.segFails n st).flt.raised ∧
      Ended (s.segFails n st) n (c.readFailure st) := by
  rw [State.segFails_get found op]
  refine ⟨?_, raised_endCmd found way (by rw [op]; rfl) _, ?_⟩
  · exact State.repair?_endCmd_none found way _ gone
  · have ended := State.ended_endCmd (s := s) found way (c.readFailure st)
    rwa [Cmd.filled_get op] at ended

end

/-! ## The second copy is read (R285, R287, R311) -/

section
variable {s t : State} {n rid : Nat} {c : Cmd} {r : Repair} {g : Seg} {b raw : Bytes}

/-- What the local second copy of a segment gives its readers, and the state after its read. -/
def State.secondRead (s : State) (r : Repair) : Opened × State :=
  (s.grantVal .normal 3).readCopy r (parseSeg ((s.grantVal .normal 3).secondCopy r) r.old)

/-- An open does not rest on VAL. -/
theorem State.openBytes_onVal (f : Val → Val) (s : State) (gen : Nat) (w : SealWord) (aad ct tag : Bytes) :
    (s.onVal f).openBytes gen w aad ct tag
      = ((s.openBytes gen w aad ct tag).1, (s.openBytes gen w aad ct tag).2.onVal f) := by
  have same : (s.onVal f).generation w.slot gen = s.generation w.slot gen := (rfl)
  simp only [State.openBytes, same]
  split
  · rfl
  · split_ifs
    · rfl
    · split <;> rfl

/-- The generation under which a copy is opened for the first reader of a repair (R318). -/
def State.readerGen (s : State) (r : Repair) (slot : Nat) : Nat :=
  (((r.readers.head?).bind s.cmd?).map fun c => s.openGen c slot).getD (s.slot slot).gen

/-- An opened copy goes on to its decoding (R285 step 5). -/
def Seg.openedCopy (g : Seg) (x : Opened × State) : Opened × State :=
  match x with
  | (.plain p, s) => (g.decoded p, s)
  | (e, s) => (e, s)

theorem State.readCopy_eq (s : State) (r : Repair) (g : Seg) :
    s.readCopy r g = if g.hdrHolds && g.crcHolds (locator r.kh r.variant r.seg) then
      g.sealWord.elim (g.decoded g.payload, s) fun w => g.openedCopy
        (s.openBytes (s.readerGen r w.slot) w (g.aad r.kh r.variant w.slot r.seg) g.payload g.tag)
    else (.tagFailed, s) := by
  unfold State.readCopy
  cases g.sealWord <;> rfl

/-- Whether a copy passes does not rest on VAL. -/
theorem State.readCopy_onVal (f : Val → Val) (s : State) (r : Repair) (g : Seg) :
    ((s.onVal f).readCopy r g).1 = (s.readCopy r g).1 := by
  have gen (slot : Nat) : (s.onVal f).readerGen r slot = s.readerGen r slot := rfl
  rw [State.readCopy_eq, State.readCopy_eq]
  split
  · cases g.sealWord with
    | none => rfl
    | some w =>
      simp only [Option.elim_some, gen, State.openBytes_onVal]
      rcases s.openBytes (s.readerGen r w.slot) w _ _ _ with ⟨⟨b⟩ | _ | _, t⟩ <;> rfl
  · rfl

/-- The turn that the repair takes in VAL leaves what the copy gives. -/
theorem State.secondRead_of_readCopy (s : State) {o : Opened}
    (copy : (s.readCopy r (parseSeg (s.secondCopy r) r.old)).1 = o) : s.secondRead r = (o, (s.secondRead r).2) :=
  Prod.ext ((State.readCopy_onVal (fun v => { v with rr := (3 + 1) % 4 }) s r _).trans copy) rfl

theorem keeps_secondRead (s : State) (r : Repair) :
    Keeps (fun p => p = .val ∨ p = .cip) s (s.secondRead r).2 :=
  keeps_readCopy r _ (keeps_grantVal _ _ (Keeps.refl _ s) (by simp)) (by simp)

theorem State.repairs_secondRead (s : State) (r : Repair) : (s.secondRead r).2.val.repairs = s.val.repairs := by
  have kept : (s.secondRead r).2.val = (s.grantVal .normal 3).val :=
    (keeps_readCopy (r := (· ≠ .val)) r _ (Keeps.refl _ _) (by simp)).same .val (by simp)
  rw [kept]
  rfl

theorem State.repair?_secondRead (s : State) (rid : Nat) (r : Repair) :
    (s.secondRead r).2.repair? rid = s.repair? rid :=
  congrArg (tget · rid) (s.repairs_secondRead r)

theorem State.cmd?_secondRead (s : State) (n : Nat) (r : Repair) : (s.secondRead r).2.cmd? n = s.cmd? n :=
  State.cmd?_of_sch ((keeps_secondRead s r).same .sch (by simp)) n

/-- A flash segment without a second copy is lost (R287, R290). -/
theorem exec_readRepair_noCopy {k b u : Nat} (entry : s.repair? rid = some r) (asked : r.asked = false)
    (open_ : r.fixed = none) (flash : r.old.loc = .flash k b u) :
    exec (.readRepair rid .noCopy) s = .next ((s.grantVal .normal 3).repairLost rid) := by
  show execReadRepair rid .noCopy s = _
  simp [execReadRepair, entry, asked, open_, flash]

/-- A copy whose key is gone ends the repair (R311). -/
theorem exec_readRepair_erased (entry : s.repair? rid = some r) (asked : r.asked = false) (open_ : r.fixed = none)
    (erased : s.secondRead r = (.keyErased, t)) :
    exec (.readRepair rid (.stored raw true)) s = .next (t.repairErased rid) := by
  show execReadRepair rid (.stored raw true) s = _
  unfold State.secondRead at erased
  simp [execReadRepair, entry, asked, open_, erased]

/-- Whether of the segment read the check values alone were wrong, as its good copy shows (R288). -/
def Repair.checkOnly (r : Repair) (g : Seg) : Bool :=
  decide (r.failed ≠ 2) && decide (g.middle = r.old.middle) && decide (g.payload = r.old.payload)

theorem Repair.checkOnly_of_same (untagged : r.failed ≠ 2) (middle : g.middle = r.old.middle)
    (payload : g.payload = r.old.payload) : r.checkOnly g = true := by
  simp [Repair.checkOnly, untagged, middle, payload]

theorem Repair.checkOnly_of_payload (payload : g.payload ≠ r.old.payload) : r.checkOnly g = false := by
  simp [Repair.checkOnly, payload]

/-- A copy that passes is classified (R288). -/
theorem exec_readRepair_passes (entry : s.repair? rid = some r) (asked : r.asked = false) (open_ : r.fixed = none)
    (passes : s.secondRead r = (.plain b, t)) (copy : parseSeg (s.secondCopy r) r.old = g) :
    exec (.readRepair rid (.stored raw true)) s = .next (t.repairGood rid (r.checkOnly g) 0xFFFF b
      (some (r.closed (if r.checkOnly g then r.old else g)))) := by
  subst copy
  show execReadRepair rid (.stored raw true) s = _
  unfold State.secondRead at passes
  simp only [execReadRepair, entry, asked, open_, passes, if_true]
  rfl

end

/-! ## Repairs end (R288, R290, R311) -/

section
variable {s t : State} {n rid : Nat} {c : Cmd} {r : Repair} {b : Bytes}

/-- The state in which the loss of a segment is noted, before its readers hear of it. -/
def State.lossNoted (s : State) (rid : Nat) (r : Repair) : State :=
  let s := (s.raise 386 (item8 (locWord r.old.loc) ++ item8 (locator r.kh r.variant r.seg).toNat ++ item8 r.kh.toNat)).bump
    Reg.VAL_READ_STAT_UNRECOVERABLE
  (if r.upkeep then s.markLost r else s).dropRepair rid

theorem State.repairLost_untagged (entry : s.repair? rid = some r) (untagged : r.failed ≠ 2) :
    s.repairLost rid = r.readers.foldl (fun s n => s.segFails n .uncorrectable) (s.lossNoted rid r) := by
  simp only [State.repairLost, entry, untagged, if_false]
  rfl

theorem State.repairErased_eq (entry : s.repair? rid = some r) :
    s.repairErased rid = r.readers.foldl (fun s n => s.segFails n .keyErased) (s.dropRepair rid) := by
  simp only [State.repairErased, entry]

/-- The loss is noted in VAL, the index, the gates and the events alone. -/
theorem State.lossNoted_spec (s : State) (rid n : Nat) (r : Repair) (wf : Tbl.wf s.val.repairs = true) :
    (s.lossNoted rid r).repair? rid = none ∧ (s.lossNoted rid r).cmd? n = s.cmd? n ∧
      (⟨386, leBytes 8 (locWord r.old.loc) ++ leBytes 8 (locator r.kh r.variant r.seg).toNat ++ leBytes 8 r.kh.toNat⟩ : Ev)
        ∈ (s.lossNoted rid r).flt.raised := by
  unfold State.lossNoted
  split <;> exact ⟨tget_tdel_self s.val.repairs rid wf, rfl, List.mem_append_right _ (List.mem_singleton_self _)⟩

/-- Where a repair with one reader, a client's GET, ends. -/
theorem State.readers_end (found : s.cmd? n = some c) (op : c.op = .get) (way : c.UnderWay) (gone : s.repair? rid = none)
    (only : r.readers = [n]) (st : Status) :
    (r.readers.foldl (fun s n => s.segFails n st) s).repair? rid = none ∧
      s.flt.raised <+: (r.readers.foldl (fun s n => s.segFails n st) s).flt.raised ∧
      Ended (r.readers.foldl (fun s n => s.segFails n st) s) n (c.readFailure st) := by
  rw [only]
  exact State.segFails_ends found op way gone st

/-- The event of a classified repair (R288): CHECK_ONLY, or DATA with the check that failed first. -/
def Repair.classEvent (r : Repair) (check : Bool) : Ev :=
  let place := item8 (locWord r.old.loc) ++ item8 (locator r.kh r.variant r.seg).toNat ++ item2 0xFFFF
  if check then ⟨384, place⟩ else ⟨385, place ++ item1 r.failed⟩

/-- A repair that a failed CRC or decoding began is classified, its rewrite is queued, and its readers go on. -/
theorem State.repairGood_classifies {check : Bool} (entry : s.repair? rid = some r)
    (failed : r.failed = 0 ∨ r.failed = 1) (g : Option Seg) :
    ∃ u : State, s.repairGood rid check 0xFFFF b g = (u.queueRewrite rid g).readersGo r b ∧
      u.val = s.val ∧ u.flt.raised = s.flt.raised ++ [r.classEvent check] := by
  have untagged : r.failed ≠ 2 := by omega
  have decoded : r.failed ≠ 3 := by omega
  simp only [State.repairGood, entry, if_neg untagged, if_neg decoded]
  cases check <;> exact ⟨_, rfl, rfl, rfl⟩

/-- Check values computed again stay. -/
theorem Repair.closed_closed (r : Repair) (g : Seg) : r.closed (r.closed g) = r.closed g := rfl

end

/-! ## Rewrites at the front (R289, R348) -/

section
variable {s t : State} {rid : Nat} {r : Repair} {g : Seg} {item : GateItem} {d : DirRec} {v : Variant}

/-- A rewrite at the front whose key is gone is dropped. -/
theorem exec_repairRewrite_gone (entry : s.repair? rid = some r) (fixed : r.fixed = some g)
    (waits : s.sch.gate.find? (fun x => x.repair = some rid) = some item) (front : s.itemFront item = true)
    (written : s.programmed g.loc = true) (absent : dirFind s.idx.dir r.key = none) :
    exec (.repairRewrite rid) s = .next ((s.releaseSeg g).skipRewrite rid) := by
  show execRepairRewrite rid s = _
  simp [execRepairRewrite, entry, fixed, waits, front, written, absent]

/-- A rewrite at the front takes effect where the segment of its version lies as it was read, and the class has lines. -/
theorem exec_repairRewrite_moves (entry : s.repair? rid = some r) (fixed : r.fixed = some g)
    (waits : s.sch.gate.find? (fun x => x.repair = some rid) = some item) (front : s.itemFront item = true)
    (written : s.programmed g.loc = true) (held : dirFind s.idx.dir r.key = some d)
    (variant : tget d.variants r.variant = some v) (version : v.version = r.version)
    (same : (tget v.segs r.seg).map (·.loc) = some r.old.loc) (words : s.locWords r.old.loc = r.words)
    (room : s.moveFits d v r.seg = true) :
    exec (.repairRewrite rid) s = .next ((s.moveSeg d r.variant v r.seg r.old g).dropRepair rid) := by
  show execRepairRewrite rid s = _
  simp only [execRepairRewrite, entry, fixed, waits, front, written, held, Option.bind_some, variant, Option.map_some,
    version, same, words, room, Bool.and_self, and_self, if_true]

theorem State.skipRewrite_eq (entry : s.repair? rid = some r) :
    s.skipRewrite rid
      = ((s.raise 387 (item8 (locWord r.old.loc))).bump Reg.VAL_READ_STAT_REWRITES_SKIPPED).dropRepair rid := by
  simp only [State.skipRewrite, entry]

/-- The record of a key with a segment of a variant at a new place. -/
def DirRec.withSeg (d : DirRec) (num i : Nat) (v : Variant) (g : Seg) (maps : Tbl Loc) : DirRec :=
  { d with variants := tset d.variants num { v with segs := tset v.segs i g, maps := maps } }

/-- A segment's move ends with the record of its key, and with its commit line. -/
theorem State.moveSeg_eq (s : State) (d : DirRec) (num i : Nat) (v : Variant) (old g : Seg) :
    ∃ u r maps, r = d.withSeg num i v g maps ∧
      s.moveSeg d num v i old g = (State.writeRecord u r).commitLine 1 r r.version r.owner :=
  ⟨_, _, _, rfl, rfl⟩

/-- A segment that has moved stands in the record of its key. -/
theorem State.dirFind_moveSeg (s : State) (d : DirRec) (num i : Nat) (v : Variant) (old g : Seg) :
    ∃ loc maps, dirFind (s.moveSeg d num v i old g).idx.dir d.key
      = some { d.withSeg num i v g maps with loc := loc } := by
  obtain ⟨u, r, maps, rfl, moves⟩ := s.moveSeg_eq d num i v old g
  obtain ⟨loc, written⟩ := u.dirFind_writeRecord (d.withSeg num i v g maps)
  rw [moves, (keeps_commitLine (r := (· ≠ .idx)) 1 _ _ _ (Keeps.refl _ _) (by simp)).dir]
  exact ⟨loc, maps, written⟩

theorem State.val_moveSeg (s : State) (d : DirRec) (num i : Nat) (v : Variant) (old g : Seg) :
    (s.moveSeg d num v i old g).val = s.val :=
  (keeps_moveSeg (r := (· ≠ .val)) d num v i old g (Keeps.refl _ s) (by simp) (by simp) (by simp) (by simp) (by simp)
    (by simp) (by simp) (by simp)).same .val (by simp)

end

/-- Settles O26. A GET that ends with its segment leaves the events that stand and brings no repair back; the second copy is
read without regard to VAL, so that the turn taken before changes nothing; and a segment moves by the record written last. -/
theorem repairsEnd : Obligations.RepairsEnd := by
  refine ⟨fun s rid n k b u r c wf entry asked open_ flash untagged only found op working client mine => ?_,
    fun s rid r raw b entry asked open_ failed passes => ?_,
    fun s rid r g item wf entry fixed waits front written absent => ?_,
    fun s rid r g item d v wf entry fixed waits front written held variant version same words room => ?_,
    fun s rid n r c raw wf entry asked open_ only erased found op working client mine => ?_⟩
  · have way := Cmd.UnderWay.of_working client mine working
    obtain ⟨gone, kept, raised⟩ := (s.grantVal .normal 3).lossNoted_spec rid n r wf
    obtain ⟨still, more, ended⟩ := State.readers_end (kept.trans found) op way gone only .uncorrectable
    refine ⟨_, exec_readRepair_noCopy entry asked open_ flash, ?_⟩
    rw [State.repairLost_untagged (s := s.grantVal .normal 3) entry untagged]
    exact ⟨still, more.subset raised, ended⟩
  · have read := s.secondRead_of_readCopy passes
    have run := exec_readRepair_passes (raw := raw) entry asked open_ read rfl
    generalize parseSeg (s.secondCopy r) r.old = g at run ⊢
    obtain ⟨u, good, val, raised⟩ := State.repairGood_classifies (b := b) (check := r.checkOnly g)
      ((s.repair?_secondRead rid r).trans entry) failed (some (r.closed (if r.checkOnly g then r.old else g)))
    have untagged : r.failed ≠ 2 := by omega
    rw [good] at run
    rw [(keeps_secondRead s r).same .flt (by simp)] at raised
    refine ⟨u, _, run, (congrArg Val.repairs val).trans (s.repairs_secondRead r), (r.closed_closed _).symm,
      fun ⟨middle, payload⟩ => ?_, fun payload => ?_⟩
    · rw [Repair.checkOnly_of_same untagged middle payload] at raised ⊢
      exact ⟨rfl, raised⟩
    · rw [Repair.checkOnly_of_payload payload] at raised ⊢
      exact ⟨rfl, raised⟩
  · have kept := keeps_releaseSeg (r := (· ∉ [Part.val, .idx])) g (Keeps.refl _ s) (by simp) (by simp) (by simp) (by simp)
    have val : (s.releaseSeg g).val = s.val := kept.same .val (by simp)
    have entry' : (s.releaseSeg g).repair? rid = some r := by rw [State.repair?, val]; exact entry
    refine ⟨_, exec_repairRewrite_gone entry fixed waits front written absent, ?_⟩
    rw [State.skipRewrite_eq entry']
    exact ⟨State.repair?_dropRepair (val ▸ wf), congrArg Idx.dir (kept.same .idx (by simp)),
      List.mem_append_right _ (List.mem_singleton_self _)⟩
  · obtain ⟨loc, maps, moved⟩ := s.dirFind_moveSeg d r.variant r.seg v r.old g
    have key : d.key = r.key := by simpa using List.find?_some held
    have run := exec_repairRewrite_moves entry fixed waits front written held variant version same words room
    exact ⟨_, _, { v with segs := tset v.segs r.seg g, maps := maps }, run,
      State.repair?_dropRepair ((s.val_moveSeg ..) ▸ wf), key ▸ moved, tget_tset_self .., tget_tset_self .., rfl,
      fun i other => tget_tset_of_ne _ _ _ _ other⟩
  · have read := s.secondRead_of_readCopy erased
    have gone : ((s.secondRead r).2.dropRepair rid).repair? rid = none :=
      State.repair?_dropRepair ((s.repairs_secondRead r).symm ▸ wf)
    have found' : ((s.secondRead r).2.dropRepair rid).cmd? n = some c := by
      rw [State.cmd?_dropRepair, State.cmd?_secondRead, found]
    obtain ⟨still, -, ended⟩ := State.readers_end found' op (.of_working client mine working) gone only .keyErased
    refine ⟨_, exec_readRepair_erased entry asked open_ read, ?_⟩
    rw [State.repairErased_eq ((s.repair?_secondRead rid r).trans entry)]
    exact ⟨still, ended⟩

end Sys2Proof.Machine
end

section
/-! PROOFS. The family 09_cipher_and_key_slots.md: key directives (O34), buffers (O35), the ends of cipher jobs (O27), and
what becomes of key slots (O36). -/

namespace Sys2Proof.Machine

/-! ## Frames, and bytes of a fixed length -/

/-- A frame that admits less is a frame that admits more. -/
theorem Keeps.mono {r q : Part → Prop} {s t : State} (h : Keeps r s t) (le : ∀ p, r p → q p) : Keeps q s t :=
  ⟨fun p hp => h.same p fun hr => hp (le p hr), h.pending, h.free, h.mem, h.wf⟩

theorem length_padTo (n : Nat) (b : Bytes) : (padTo n b).length = n := by
  simp [padTo]
  omega

/-! ## Key slots and their records after an operation (R299, R305) -/

section
variable {s t : State} {n m : Nat}

/-- A slot is read in CIP alone. -/
theorem State.slot_of_cip (h : t.cip = s.cip) (n : Nat) : t.slot n = s.slot n := by
  rw [State.slot, h, State.slot]

@[simp] theorem State.slot_onSlot_self (f : KeySlot → KeySlot) : (s.onSlot n f).slot n = f (s.slot n) := by
  simp [State.onSlot, State.slot]

@[simp] theorem State.slot_onSlot_of_ne (f : KeySlot → KeySlot) (other : m ≠ n) : (s.onSlot n f).slot m = s.slot m := by
  simp [State.onSlot, State.slot, other]

/-- A change of a slot is known by what it makes of that slot. -/
theorem State.onSlot_congr {f g : KeySlot → KeySlot} (h : f (s.slot n) = g (s.slot n)) : s.onSlot n f = s.onSlot n g := by
  simp only [State.onSlot, h]

@[simp] theorem State.onSlot_ldg (f : KeySlot → KeySlot) : (s.onSlot n f).ldg = s.ldg := rfl

@[simp] theorem State.cip_swatchWrite (target addr : Nat) : (s.swatchWrite target addr).cip = s.cip :=
  (keeps_swatchWrite (r := (· ≠ .cip)) target addr (Keeps.refl _ s) (by simp) (by simp)).same .cip (by simp)

@[simp] theorem State.ldg_swatchWrite (target addr : Nat) : (s.swatchWrite target addr).ldg = s.ldg :=
  (keeps_swatchWrite (r := (· ≠ .ldg)) target addr (Keeps.refl _ s) (by simp) (by simp)).same .ldg (by simp)

@[simp] theorem State.cip_writeSlotRec (r : SlotRec) : (s.writeSlotRec n r).cip = s.cip :=
  (keeps_writeSlotRec (r := (· ≠ .cip)) n r (Keeps.refl _ s) (by simp) (by simp) (by simp)).same .cip (by simp)

/-- A directive that completes leaves CIP alone. -/
@[simp] theorem State.cip_finish (ring : Nat) (d : Dir) (es : Nat) (b : Bytes) : (s.finish ring d es b).cip = s.cip :=
  (keeps_finish (r := (· ≠ .cip)) ring d es b (Keeps.refl _ s) (by simp) (by simp) (by simp) (by simp)).same .cip (by simp)

@[simp] theorem State.slot_swatchWrite (target addr : Nat) : (s.swatchWrite target addr).slot n = s.slot n :=
  State.slot_of_cip (by simp) n

@[simp] theorem State.slot_writeSlotRec (r : SlotRec) : (s.writeSlotRec m r).slot n = s.slot n := State.slot_of_cip (by simp) n

@[simp] theorem State.slot_raise (src : Nat) (b : Bytes) : (s.raise src b).slot n = s.slot n := rfl

@[simp] theorem State.slot_drawRandom (k : Nat) : (s.drawRandom k).2.slot n = s.slot n := rfl

/-- Keys that leave the cache change no slot. -/
@[simp] theorem State.slot_dropKeys (slot serial epoch : Nat) : (s.dropKeys slot serial epoch).slot n = s.slot n := rfl

@[simp] theorem State.ldg_dropOldKeys : (s.dropOldKeys m).ldg = s.ldg :=
  (keeps_dropOldKeys (r := (· ≠ .ldg)) m (Keeps.refl _ s) (by simp)).same .ldg (by simp)

@[simp] theorem State.slot_dropOldKeys : (s.dropOldKeys m).slot n = s.slot n := by
  unfold State.dropOldKeys
  dsimp only
  split
  · exact State.slot_dropKeys _ _ _
  · rfl

/-- A draw of the security class changes nothing that is kept (R344). -/
theorem State.kept_drawAlways (lines : Nat) : (s.drawAlways lines).ldg.kept = s.ldg.kept := by
  simp only [State.drawAlways]
  split
  · exact s.kept_lowerGauge _
  · rw [State.bump_ldg, s.kept_lowerGauge]

@[simp] theorem State.kept_keepSecure (object : Nat) : (s.keepSecure object n).ldg.kept = s.ldg.kept := by
  rw [State.keepSecure, State.kept_countPairs, State.kept_drawAlways]

/-- The record that a slot's record line holds after it is written. -/
@[simp] theorem State.slotRecs_writeSlotRec (r : SlotRec) :
    (s.writeSlotRec n r).ldg.kept.slotRecs = tset s.ldg.kept.slotRecs n r.bytes := by
  simp [State.writeSlotRec]

/-- A record is read in the Ledger alone. -/
theorem State.slotRec_of_ldg (h : t.ldg = s.ldg) (n : Nat) : t.slotRec n = s.slotRec n := by
  rw [State.slotRec, h, State.slotRec]

/-- Where no check bits are inverted, a read of a slot meets none. -/
theorem State.readSlot_unmarked (unmarked : s.flt.swatched = []) (n : Nat) : s.readSlot n = s := by
  have same (p : Nat × Nat × Nat → Bool) : { s.flt with swatched := s.flt.swatched.filter p } = s.flt := by
    rw [unmarked, List.filter_nil, ← unmarked]
  simp only [State.readSlot, State.storageRead, unmarked, List.filter_nil, List.map_nil, List.foldl_nil]
  exact congrArg (fun f => { s with flt := f }) (same _)

end

/-! ## Changes of a slot, and its erase (R304, R316, R317, R320) -/

/-- A slot that a key directive has changed, with its record. -/
def State.slotChanged (s : State) (n : Nat) (f : KeySlot → KeySlot) : State := ((s.onSlot n f).swatchWrite 4 n).recordSlot n

/-- A slot under a new root. -/
def KeySlot.placed (root : Bytes) (k : KeySlot) : KeySlot :=
  { k with st := .loaded, root := root, serial := k.serial + 1, epoch := 0, counter := 0, gen := (k.gen + 1) % 65536 }

/-- A slot at its next epoch. -/
def KeySlot.rolled (k : KeySlot) : KeySlot := { k with epoch := k.epoch + 1, counter := 0, gen := (k.gen + 1) % 65536 }

/-- What an erase leaves of a slot. -/
def KeySlot.emptied (k : KeySlot) : KeySlot := { k with st := .empty, root := zeros 32, retired := [], eraseDirs := [] }

/-- What an erase leaves of a slot's record: the serial of the slot, and no root. -/
def State.erasedRec (s : State) (n : Nat) : SlotRec :=
  { s.slotRec n with loaded := false, wrapped := zeros 40, serial := (s.slot n).serial }

/-- A slot whose erase has ended, before its directives complete. -/
def State.slotErased (s : State) (n : Nat) : State :=
  ((s.writeSlotRec n (s.erasedRec n)).onSlot n KeySlot.emptied).swatchWrite 4 n

/-- The record of a slot as it stands, with a new ceiling (R317). -/
def State.slotRecordOf (s : State) (k : KeySlot) : Bytes :=
  SlotRec.bytes ⟨decide (k.st = .loaded), kwWrap (s.slot 0x400).root (padTo 32 k.root), k.epoch, k.serial,
    ceilingOf k.counter⟩

/-- The ceiling of a generation that has sealed nothing. -/
theorem ceilingOf_zero : ceilingOf 0 = 2 ^ 20 := by decide

section
variable {s u : State} {d : Dir} {n m code : Nat} {wrapped root : Bytes}

theorem State.slot_slotChanged_self (f : KeySlot → KeySlot) : (s.slotChanged n f).slot n = f (s.slot n) := by
  simp [State.slotChanged, State.recordSlot]

theorem State.slot_slotChanged_of_ne (f : KeySlot → KeySlot) (other : m ≠ n) : (s.slotChanged n f).slot m = s.slot m := by
  simp [State.slotChanged, State.recordSlot, other]

/-- The record of a changed tenant slot is wrapped under the key that DEVICE_KEK holds throughout. -/
theorem State.slotRecs_slotChanged (tenant : n < 0x400) (f : KeySlot → KeySlot) :
    tget (s.slotChanged n f).ldg.kept.slotRecs n = some (s.slotRecordOf (f (s.slot n))) := by
  have kek : 0x400 ≠ n := by omega
  simp [State.slotChanged, State.recordSlot, State.slotRecordOf, kek]

theorem State.slot_slotErased_self : (s.slotErased n).slot n = (s.slot n).emptied := by simp [State.slotErased]

theorem State.slot_slotErased_of_ne (other : m ≠ n) : (s.slotErased n).slot m = s.slot m := by simp [State.slotErased, other]

theorem State.slotRecs_slotErased : tget (s.slotErased n).ldg.kept.slotRecs n = some (s.erasedRec n).bytes := by
  simp [State.slotErased]

/-- An erase ends with the completion of its one directive (R320). -/
theorem State.finishErase_one (waits : (s.slot n).eraseDirs = [d]) :
    s.finishErase n = (s.slotErased n).finish 3 d esDone [] := by
  simp only [State.finishErase, waits, List.foldl_cons, List.foldl_nil]
  rfl

/-- Nothing of a generation without references is retired (R319). -/
theorem KeySlot.retire_of_idle {k : KeySlot} (idle : k.refs = 0) : k.retire = k := by
  rw [KeySlot.retire, if_neg (by simp [idle]), ← idle]

/-- A new root in a slot with a trusted serial and no reference. -/
theorem State.placeRoot_trusted (idle : (s.slot n).refs = 0) (trusted : (s.slot n).untrusted = false) (root : Bytes) :
    s.placeRoot n root = (s.dropOldKeys n).slotChanged n (KeySlot.placed root) := by
  simp only [State.placeRoot, State.slot_dropOldKeys, trusted, Bool.false_eq_true, if_false]
  refine congrArg (fun u => (State.swatchWrite u 4 n).recordSlot n) (State.onSlot_congr ?_)
  simp [trusted, KeySlot.retire_of_idle idle, KeySlot.placed]

theorem State.rollSlot_idle (idle : (s.slot n).refs = 0) :
    s.rollSlot n = (s.dropOldKeys n).slotChanged n KeySlot.rolled := by
  refine congrArg (fun u => (State.swatchWrite u 4 n).recordSlot n) (State.onSlot_congr ?_)
  simp [KeySlot.retire_of_idle idle, KeySlot.rolled]

theorem State.keyChange_generate (calm : s.cip.alarm = false) (room : (s.slot n).serial ≠ 0xFFFF) :
    s.keyChange 1 n wrapped = (true, (s.drawRandom 32).2.placeRoot n (s.drawRandom 32).1) := by
  simp [State.keyChange, calm, room]

theorem State.keyChange_import (calm : s.cip.alarm = false) (room : (s.slot n).serial ≠ 0xFFFF)
    (key : (s.slot 0x401).st = .loaded) (unwraps : kwUnwrap (s.slot 0x401).root wrapped = some root) :
    s.keyChange 2 n wrapped = (true, s.placeRoot n (padTo 32 root)) := by
  simp [State.keyChange, calm, room, key, unwraps]

theorem State.keyChange_roll (calm : s.cip.alarm = false) (loaded : (s.slot n).st = .loaded)
    (room : (s.slot n).epoch ≠ 2 ^ 32 - 1) : s.keyChange 3 n wrapped = (true, s.rollSlot n) := by
  simpa [State.keyChange, calm, loaded] using room

/-- A directive on a tenant slot with no retired generation and none before it is carried out at once (R319). -/
theorem State.tenantDirective_done (tenant : n < 0x400) (whole : (s.slot n).retired = []) (first : (s.slot n).waiting = [])
    (took : s.keyChange code n wrapped = (true, u)) : s.tenantDirective d code n wrapped = u.finish 3 d esDone [] := by
  simp [State.tenantDirective, isTenantSlot, tenant, State.keyDirective, whole, first, took]

theorem exec_keyGenerate_free (free : s.heldBack 3 d = false) :
    exec (.keyGenerate d n) s = .next (s.tenantDirective d 1 n []) := by
  show Host.Outcome.next (s.setUp 3 d fun s => s.tenantDirective d 1 n []) = _
  rw [State.setUp_of_not_heldBack free]

theorem exec_keyImport_free (free : s.heldBack 3 d = false) :
    exec (.keyImport d n wrapped) s = .next (s.tenantDirective d 2 n wrapped) := by
  show Host.Outcome.next (s.setUp 3 d fun s => s.tenantDirective d 2 n wrapped) = _
  rw [State.setUp_of_not_heldBack free]

theorem exec_keyRoll_free (free : s.heldBack 3 d = false) :
    exec (.keyRoll d n) s = .next (s.tenantDirective d 3 n []) := by
  show Host.Outcome.next (s.setUp 3 d fun s => s.tenantDirective d 3 n []) = _
  rw [State.setUp_of_not_heldBack free]

/-- What a key directive that changes a tenant slot leaves: the slot, its record, and the other slots. -/
theorem State.slotChanged_spec (tenant : n < 0x400) {o : State} (slots : ∀ m, u.slot m = o.slot m) (f : KeySlot → KeySlot) :
    (u.slotChanged n f).slot n = f (o.slot n) ∧
      tget (u.slotChanged n f).ldg.kept.slotRecs n = some (o.slotRecordOf (f (o.slot n))) ∧
      ∀ m, m ≠ n → (u.slotChanged n f).slot m = o.slot m := by
  refine ⟨by rw [State.slot_slotChanged_self, slots], ?_,
    fun m other => by rw [State.slot_slotChanged_of_ne f other, slots]⟩
  rw [State.slotRecs_slotChanged tenant, State.slotRecordOf, State.slotRecordOf, slots, slots]

theorem exec_keyErase (free : s.heldBack 3 d = false) (calm : s.cip.alarm = false) (tenant : n < 0x400)
    (loaded : (s.slot n).st = .loaded) (idle : (s.slot n).refs = 0) (whole : (s.slot n).retired = []) :
    ∃ v : State, exec (.keyErase d n) s = .next ((v.slotErased n).finish 3 d esDone []) ∧
      (v.slot n).serial = (s.slot n).serial ∧ v.ldg = s.ldg ∧ ∀ m, m ≠ n → v.slot m = s.slot m := by
  have goes : isTenantSlot n = true := by simpa [isTenantSlot] using tenant
  refine ⟨(s.dropOldKeys n).onSlot n fun k => { k.retire with
      st := .erasing, gen := (k.gen + 1) % 65536, root := zeros 32, eraseDirs := [d] },
    ?_, ?_, by simp, fun m other => by simp [other]⟩
  · show Host.Outcome.next (s.setUp 3 d _) = _
    rw [State.setUp_of_not_heldBack free, goes, calm, ← State.finishErase_one (by simp)]
    simp [State.eraseSlot, loaded, KeySlot.retire_of_idle idle, whole]
  · simp [KeySlot.retire_of_idle idle]

end

/-- Settles O34: a change of a slot by `State.slotChanged_spec`, an erase by `exec_keyErase`. -/
theorem keyDirectives : Obligations.KeyDirectives := by
  refine ⟨fun s d n tenant free calm whole first idle trusted => ⟨fun room => ⟨?_, fun wrapped root key unwraps => ?_⟩,
    fun loaded room => ?_, fun loaded => ?_⟩, fun s d n free inside unmarked => ?_,
    fun s d n wrapped c code free outside which => ?_⟩
  · obtain ⟨slot, record, others⟩ := State.slotChanged_spec (u := (s.drawRandom 32).2.dropOldKeys n) (o := s) tenant
      (fun m => State.slot_dropOldKeys.trans (State.slot_drawRandom 32)) (KeySlot.placed (s.drawRandom 32).1)
    refine ⟨_, (s.drawRandom 32).1, ?_, slot, ?_, others⟩
    · rw [exec_keyGenerate_free free, State.tenantDirective_done tenant whole first (State.keyChange_generate calm room),
        State.placeRoot_trusted (s := (s.drawRandom 32).2) idle trusted]
    · exact record.trans (by simp [State.slotRecordOf, KeySlot.placed, ceilingOf_zero])
  · obtain ⟨slot, record, others⟩ := State.slotChanged_spec (u := s.dropOldKeys n) (o := s) tenant
      (fun m => State.slot_dropOldKeys) (KeySlot.placed (padTo 32 root))
    refine ⟨_, ?_, slot, ?_, others⟩
    · rw [exec_keyImport_free free, State.tenantDirective_done tenant whole first
        (State.keyChange_import calm room key unwraps), State.placeRoot_trusted idle trusted]
    · exact record.trans (by
        simp [State.slotRecordOf, KeySlot.placed, ceilingOf_zero, padTo_of_length (length_padTo 32 root)])
  · obtain ⟨slot, record, others⟩ := State.slotChanged_spec (u := s.dropOldKeys n) (o := s) tenant
      (fun m => State.slot_dropOldKeys) KeySlot.rolled
    refine ⟨_, ?_, slot, ?_, others⟩
    · rw [exec_keyRoll_free free, State.tenantDirective_done tenant whole first (State.keyChange_roll calm loaded room),
        State.rollSlot_idle idle]
    · exact record.trans (by simp [State.slotRecordOf, KeySlot.rolled, ceilingOf_zero, loaded])
  · obtain ⟨v, run, serial, ldg, others⟩ := exec_keyErase free calm tenant loaded idle whole
    refine ⟨v.slotErased n, run, ?_, ?_, ?_, ?_, fun m other => ?_⟩
    · rw [State.slot_slotErased_self]; rfl
    · rw [State.slot_slotErased_self]; rfl
    · rw [State.slot_slotErased_self]; exact serial
    · rw [State.slotRecs_slotErased, State.erasedRec, State.slotRec_of_ldg ldg, serial]
    · rw [State.slot_slotErased_of_ne other, others m other]
  · refine congrArg Host.Outcome.next ((State.setUp_of_not_heldBack free _).trans ?_)
    simp only [if_pos inside, State.readSlot_unmarked unmarked]
  · have other : isTenantSlot n = false := by simpa [isTenantSlot] using outside
    have refused (w : Bytes) : s.tenantDirective d code n w = (s.cipRefused code n).finish 3 d esRefused [] := by
      rw [State.tenantDirective, other]
      rfl
    refine ⟨s.cipRefused code n, ?_, rfl, (keeps_cipRefused code n (Keeps.refl _ s) (by simp)).onlyChanges⟩
    obtain ⟨rfl, rfl⟩ | ⟨rfl, rfl⟩ | ⟨rfl, rfl⟩ | ⟨rfl, rfl⟩ := which
    · rw [exec_keyGenerate_free free, refused]
    · rw [exec_keyImport_free free, refused]
    · rw [exec_keyRoll_free free, refused]
    · refine congrArg Host.Outcome.next ((State.setUp_of_not_heldBack free _).trans ?_)
      rw [other]
      rfl

/-! ## Events of writes to slots, records and DRAM group B (R352, R540) -/

/-- The events that an operation raises are all of one source. -/
def RaisesOnly (src : Nat) (s t : State) : Prop := ∃ more, t.flt.raised = s.flt.raised ++ more ∧ ∀ e ∈ more, e.src = src

section
variable {s t u : State} {n src : Nat}

theorem RaisesOnly.of_flt (h : t.flt = s.flt) : RaisesOnly src s t := ⟨[], by simp [h], by simp⟩

theorem RaisesOnly.trans (h : RaisesOnly src s t) (k : RaisesOnly src t u) : RaisesOnly src s u := by
  obtain ⟨a, ha, onlyA⟩ := h
  obtain ⟨b, hb, onlyB⟩ := k
  exact ⟨a ++ b, by rw [hb, ha, List.append_assoc], fun e he => (List.mem_append.mp he).elim (onlyA e) (onlyB e)⟩

theorem RaisesOnly.foldl {α : Type} (f : State → α → State) (step : ∀ s a, RaisesOnly src s (f s a)) (l : List α)
    (s : State) : RaisesOnly src s (l.foldl f s) := by
  induction l generalizing s with
  | nil => exact .of_flt rfl
  | cons a l ih => exact (step s a).trans (ih (f s a))

theorem RaisesOnly.isPrefix (h : RaisesOnly src s t) : s.flt.raised <+: t.flt.raised := by
  obtain ⟨more, raised, -⟩ := h
  exact ⟨more, raised.symm⟩

theorem raisesOnly_lowerGauge (k : Nat) : RaisesOnly 520 s (s.lowerGauge k) := by
  simp only [State.lowerGauge]
  split
  · exact ⟨[_], rfl, by simp⟩
  · exact .of_flt rfl

/-- The draw for a record line may bring the gauge to its reserve, and raises nothing else. -/
theorem raisesOnly_writeSlotRec (r : SlotRec) : RaisesOnly 520 s (s.writeSlotRec n r) := by
  have counted (u : State) (k j : Nat) : (u.countPairs k j).flt = u.flt :=
    (keeps_countPairs (r := (· ≠ .flt)) k j (Keeps.refl _ u) (by simp)).same .flt (by simp)
  have drawn (u : State) (k : Nat) : RaisesOnly 520 u (u.drawAlways k) := by
    simp only [State.drawAlways]
    split
    · exact raisesOnly_lowerGauge _
    · exact (raisesOnly_lowerGauge _).trans (.of_flt (State.bump_flt _ _ _))
  exact (drawn (s.onKept _) _).trans (.of_flt (counted _ _ _))

/-- What an armed swatch does to a write touches registers, and its event comes after what stands (R540). -/
theorem State.swatch_spec (target addr : Nat) :
    (s.swatch target addr).2.eng = s.eng ∧ s.flt.raised <+: (s.swatch target addr).2.flt.raised := by
  unfold State.swatch
  dsimp only
  generalize (if target = 5 then _ else _) = named
  split
  · split
    · exact ⟨rfl, _, rfl⟩
    · exact ⟨rfl, _, rfl⟩
  · exact ⟨rfl, List.prefix_rfl⟩

theorem raised_swatchWrite (target addr : Nat) : s.flt.raised <+: (s.swatchWrite target addr).flt.raised :=
  (s.swatch_spec target addr).2

@[simp] theorem State.eng_swatchWrite (target addr : Nat) : (s.swatchWrite target addr).eng = s.eng :=
  (s.swatch_spec target addr).1

theorem State.storageWritten_spec (target : Nat) (p : Nat → Bool) :
    (s.storageWritten target p).eng = s.eng ∧ s.flt.raised <+: (s.storageWritten target p).flt.raised := by
  have marked : s.flt.raised <+: (s.onFlt fun f => { f with
      swatched := f.swatched.filter fun e => !(e.1 = target && p e.2.1) }).flt.raised := List.prefix_rfl
  unfold State.storageWritten
  dsimp only
  split
  · exact ⟨State.eng_swatchWrite _ _, marked.trans (raised_swatchWrite _ _)⟩
  · exact ⟨rfl, List.prefix_rfl⟩

theorem raised_dramPut (a : Nat) (b : Bytes) : s.flt.raised <+: (s.dramPut a b).flt.raised :=
  (State.storageWritten_spec (s := s.onEng _) _ _).2

@[simp] theorem State.dram_dramPut (a : Nat) (b : Bytes) : (s.dramPut a b).eng.dram = memWriteN s.eng.dram a b :=
  congrArg Eng.dram (State.storageWritten_spec (s := s.onEng _) _ _).1

@[simp] theorem State.slot_dramPut (a : Nat) (b : Bytes) : (s.dramPut a b).slot n = s.slot n :=
  State.slot_of_cip ((keeps_dramPut (r := (· ≠ .cip)) a b (Keeps.refl _ s) (by simp) (by simp) (by simp)
    (by simp)).same .cip (by simp)) n

end

/-! ## Counter values and seals (R300 to R304) -/

/-- The word of the next seal of a slot. -/
def KeySlot.nextSeal (k : KeySlot) (n : Nat) : SealWord := ⟨k.epoch, k.serial, n, k.counter⟩

/-- What the next seal of a slot makes of some bytes: the ciphertext and the tag. -/
def KeySlot.sealed (k : KeySlot) (n : Nat) (aad data : Bytes) : Bytes × Bytes :=
  gcmSeal (derivedKey k.root n k.epoch) (sealIv k.epoch k.counter) aad data

/-- What an open answers for what the tag lets through (R311, R312). -/
def Opened.ofPlain (len : Nat) : Option Bytes → Opened
  | some p => .plain (padTo len p)
  | none => .tagFailed

/-- A slot whose next counter value is spent. -/
def KeySlot.spent (k : KeySlot) : KeySlot := { k with counter := k.counter + 1 }

section
variable {s : State} {n : Nat}

/-- The current generation of a LOADED slot (R318). -/
theorem State.generation_current (loaded : (s.slot n).st = .loaded) : s.generation n (s.slot n).gen
    = some ⟨(s.slot n).gen, (s.slot n).root, (s.slot n).serial, (s.slot n).epoch, (s.slot n).counter, (s.slot n).refs⟩ := by
  simp [State.generation, loaded]

/-- A draw from the current generation takes its counter value and spends it, whether or not it renews the ceiling. -/
theorem State.drawCounter_current (loaded : (s.slot n).st = .loaded) (below : (s.slot n).counter < counterEnd) :
    ∃ u, s.drawCounter n (s.slot n).gen = some ((s.slot n).counter, u) ∧ u.cip = (s.onSlot n KeySlot.spent).cip ∧
      s.flt.raised <+: u.flt.raised := by
  have current : s.isCurrent n (s.slot n).gen = true := by simp [State.isCurrent, loaded]
  have written : s.flt.raised <+: ((s.onSlot n KeySlot.spent).swatchWrite 4 n).flt.raised :=
    raised_swatchWrite (s := s.onSlot n KeySlot.spent) 4 n
  have spent : ((s.onSlot n KeySlot.spent).swatchWrite 4 n).cip = (s.onSlot n KeySlot.spent).cip :=
    State.cip_swatchWrite 4 n
  simp only [State.drawCounter, State.generation_current loaded, if_neg (Nat.not_le.mpr below), current, if_true]
  split
  · exact ⟨_, rfl, (State.cip_writeSlotRec _).trans spent, written.trans (raisesOnly_writeSlotRec _).isPrefix⟩
  · exact ⟨_, rfl, spent, written⟩

/-- At the end of the counter none is drawn (R303). -/
theorem State.drawCounter_exhausted (loaded : (s.slot n).st = .loaded) (ended : counterEnd ≤ (s.slot n).counter) :
    s.drawCounter n (s.slot n).gen = none := by
  simp only [State.drawCounter, State.generation_current loaded, if_pos ended]

/-- A seal under the current generation (R301). -/
theorem State.sealBytes_current (loaded : (s.slot n).st = .loaded) (below : (s.slot n).counter < counterEnd)
    (aad data : Bytes) :
    ∃ u, s.sealBytes n (s.slot n).gen aad data = some (((s.slot n).nextSeal n,
        padTo data.length ((s.slot n).sealed n aad data).1, padTo 16 ((s.slot n).sealed n aad data).2), u) ∧
      u.slot n = (s.slot n).spent ∧ u.cip.running = s.cip.running ∧ s.flt.raised <+: u.flt.raised := by
  obtain ⟨u, drew, spent, raised⟩ := State.drawCounter_current loaded below
  refine ⟨u.useKey n (s.slot n).serial (s.slot n).epoch, ?_,
    (State.slot_of_cip spent n).trans (State.slot_onSlot_self _), (congrArg Cip.running spent :), raised⟩
  simp only [State.sealBytes, State.generation_current loaded, drew]
  rfl

theorem State.sealBytes_exhausted (loaded : (s.slot n).st = .loaded) (ended : counterEnd ≤ (s.slot n).counter)
    (aad data : Bytes) : s.sealBytes n (s.slot n).gen aad data = none := by
  simp only [State.sealBytes, State.generation_current loaded, State.drawCounter_exhausted loaded ended]

/-- An open under the current generation by a word of its serial (R311, R312). -/
theorem State.openBytes_current {w : SealWord} (loaded : (s.slot w.slot).st = .loaded)
    (serial : (s.slot w.slot).serial = w.serial) (aad ct tag : Bytes) :
    s.openBytes (s.slot w.slot).gen w aad ct tag
      = (Opened.ofPlain ct.length
          (gcmOpen (derivedKey (s.slot w.slot).root w.slot w.epoch) (sealIv w.epoch w.counter) aad ct tag),
        s.useKey w.slot w.serial w.epoch) := by
  simp only [State.openBytes, State.generation_current loaded, serial, ne_eq, not_true, if_false]
  cases gcmOpen (derivedKey (s.slot w.slot).root w.slot w.epoch) (sealIv w.epoch w.counter) aad ct tag with
  | some p => rfl
  | none => rfl

end

/-! ## Lanes (R296, R297) -/

/-- A lane is granted to a buffer directive (R297). -/
def State.bufferGranted (s : State) : State := (s.onCip fun c => { c with bufLane := none }).grantCip false 3

section
variable {s : State} {n lane kind : Nat}

@[simp] theorem State.slot_bufferGranted : s.bufferGranted.slot n = s.slot n := rfl

theorem State.mem_freeLanes_bufferGranted (free : lane ∈ s.freeLanes) : lane ∈ s.bufferGranted.freeLanes := by
  simp only [State.freeLanes, List.mem_filter, Bool.and_eq_true, decide_eq_true_eq] at free ⊢
  obtain ⟨inRange, online, -⟩ := free
  exact ⟨inRange, online, by simp [State.bufferGranted, State.grantCip]⟩

theorem State.cip_laneMismatch : (s.laneMismatch lane kind).cip.slots = s.cip.slots ∧
    (s.laneMismatch lane kind).cip.running = s.cip.running := by
  simp only [State.laneMismatch]
  split
  · exact ⟨rfl, rfl⟩
  · exact ⟨rfl, rfl⟩

@[simp] theorem State.slot_laneMismatch : (s.laneMismatch lane kind).slot n = s.slot n := by
  rw [State.slot, State.cip_laneMismatch.1, State.slot]

/-- The mismatch is reported with its lane and kind before anything else (R296). -/
theorem State.raised_laneMismatch : ∃ more, (s.laneMismatch lane kind).flt.raised
    = s.flt.raised ++ (⟨416, leBytes 1 lane ++ leBytes 1 kind⟩ : Ev) :: more := by
  simp only [State.laneMismatch]
  split
  · exact ⟨[⟨417, leBytes 1 lane⟩], List.append_assoc _ _ _⟩
  · exact ⟨[], rfl⟩

/-- An open that runs again spends nothing: no slot changes. -/
theorem State.slot_bufferMisses_open (last : Option Nat) (lanes : List Nat) :
    (s.bufferMisses kind none last lanes).slot n = s.slot n := by
  induction lanes generalizing s last with
  | nil => rfl
  | cons l lanes ih =>
    unfold State.bufferMisses
    split
    · exact (ih (some l)).trans State.slot_laneMismatch
    · exact ih last

/-- A seal whose cores disagree on its first lane has spent a counter value before it runs again (R296, R302). -/
theorem State.bufferRuns_missed (loaded : (s.slot n).st = .loaded) (below : (s.slot n).counter < counterEnd)
    (free : lane ∈ s.freeLanes) :
    (s.bufferRuns 0 (some n) [lane]).slot n = (s.slot n).spent ∧
      (⟨416, leBytes 1 lane ++ leBytes 1 0⟩ : Ev) ∈ (s.bufferRuns 0 (some n) [lane]).flt.raised := by
  have again := State.mem_freeLanes_bufferGranted free
  obtain ⟨more, missed⟩ := State.raised_laneMismatch (s := s.bufferGranted) (lane := lane) (kind := 0)
  have same : (s.bufferGranted.laneMismatch lane 0).slot n = s.slot n := State.slot_laneMismatch
  obtain ⟨u, drew, spent, raised⟩ := State.drawCounter_current (s := s.bufferGranted.laneMismatch lane 0) (n := n)
    (by rw [same]; exact loaded) (by rw [same]; exact below)
  have run : s.bufferRuns 0 (some n) [lane] = u := by
    show s.bufferGranted.bufferMisses 0 (some n) none [lane] = u
    rw [same] at drew
    simp [State.bufferMisses, again, drew]
  rw [run, State.slot_of_cip spent, State.slot_onSlot_self, same]
  exact ⟨rfl, raised.subset (by rw [missed]; simp)⟩

end

/-! ## BUF_SEAL and BUF_OPEN (R306, R308, R316, R317) -/

/-- A buffer directive on a tenant slot may run now, and its buffer and AAD are within their limits. -/
structure State.BufferGoes (s : State) (d : Dir) (n addr len : Nat) (aad : Bytes) : Prop where
  free : s.heldBack 3 d = false
  unmarked : s.flt.swatched = []
  tenant : n < 0x400
  calm : s.cip.alarm = false
  restored : s.cip.restoreDone = true
  lane : s.freeLanes ≠ []
  inside : addr + len ≤ dramBytes
  short : len ≤ 65536
  shortAad : aad.length ≤ 256

/-- What BUF_OPEN leaves in its buffer: the plaintext, or zeros. -/
def Opened.output (len : Nat) : Opened → Bytes
  | .plain p => p
  | _ => zeros len

/-- How BUF_OPEN completes. -/
def Opened.estatus : Opened → Nat
  | .plain _ => esDone
  | _ => esAuthFailed

section
variable {s u : State} {d : Dir} {n addr len : Nat} {aad data c tag p word : Bytes} {bad : List Nat} {w : SealWord}

theorem exec_bufSeal_sealed (goes : s.BufferGoes d n addr len aad) (loaded : (s.slot n).st = .loaded)
    (seals : (s.bufferRuns 0 (some n) bad).sealBytes n ((s.bufferRuns 0 (some n) bad).slot n).gen aad (padTo len data)
      = some ((w, c, tag), u)) :
    exec (.bufSeal d n aad addr len ⟨data, bad⟩) s
      = .next (((u.dramPut addr c).finishExt 3 d (w.bytes ++ tag) []).fillLanes 16) := by
  obtain ⟨free, unmarked, tenant, calm, restored, lane, inside, short, shortAad⟩ := goes
  refine congrArg Host.Outcome.next ((State.setUp_of_not_heldBack free _).trans ?_)
  simp [State.readSlot_unmarked unmarked, isTenantSlot, tenant, calm, restored, State.bufReady, lane,
    Nat.not_lt.mpr inside, Nat.not_lt.mpr short, Nat.not_lt.mpr shortAad, loaded, seals]

theorem exec_bufOpen_opened {o : Opened} (goes : s.BufferGoes d (parseSealWord (padTo 16 word)).slot addr len aad)
    (named : w = parseSealWord (padTo 16 word))
    (opens : (s.bufferRuns 1 none bad).openBytes ((s.bufferRuns 1 none bad).slot w.slot).gen w aad (padTo len data)
      (padTo 16 tag) = (o, u)) :
    exec (.bufOpen d word aad tag addr len ⟨data, bad⟩) s
      = .next (((u.dramPut addr (o.output len)).finish 3 d o.estatus []).fillLanes 16) := by
  obtain ⟨free, unmarked, tenant, calm, restored, lane, inside, short, shortAad⟩ := goes
  subst named
  refine congrArg Host.Outcome.next ((State.setUp_of_not_heldBack free _).trans ?_)
  cases o <;> simp [State.readSlot_unmarked unmarked, isTenantSlot, tenant, calm, restored, State.bufReady, lane,
    Nat.not_lt.mpr inside, Nat.not_lt.mpr short, Nat.not_lt.mpr shortAad, opens, Opened.output, Opened.estatus]

/-- A job that leaves DRAM group B alone puts its output in the place of its buffer, and no other byte changes. -/
theorem State.buffer_dramPut (canon : Memory.wf s.eng.dram = true) (kept : Keeps (· ≠ .dram) s u) (size : p.length = len) :
    memReadN (u.dramPut addr p).eng.dram addr len = p ∧
      ∀ a, a < addr ∨ addr + len ≤ a → memRead (u.dramPut addr p).eng.dram a = memRead s.eng.dram a := by
  subst size
  rw [State.dram_dramPut]
  refine ⟨memReadN_memWriteN p _ addr (kept.mem canon), fun a outside => ?_⟩
  rw [memRead_memWriteN_outside p _ addr a outside]
  exact kept.same .dram (by simp) a

/-- The run of a job on its lanes leaves DRAM group B alone. -/
theorem keeps_dram_bufferRuns (kind : Nat) (slot : Option Nat) (bad : List Nat) :
    Keeps (· ≠ .dram) s (s.bufferRuns kind slot bad) :=
  keeps_bufferRuns kind slot bad (Keeps.refl _ s) (by simp) (by simp) (by simp) (by simp) (by simp) (by simp)

theorem keeps_dram_opened (w : SealWord) (bad : List Nat) :
    Keeps (· ≠ .dram) s ((s.bufferRuns 1 none bad).useKey w.slot w.serial w.epoch) :=
  keeps_useKey _ _ _ (keeps_dram_bufferRuns 1 none bad) (by simp)

/-- A word of a LOADED slot's serial opens under its root, on whichever lanes the job ran before. -/
theorem State.openBytes_bufferRuns (loaded : (s.slot w.slot).st = .loaded) (serial : (s.slot w.slot).serial = w.serial) :
    (s.bufferRuns 1 none bad).openBytes ((s.bufferRuns 1 none bad).slot w.slot).gen w aad (padTo len data) (padTo 16 tag)
      = (Opened.ofPlain len (gcmOpen (derivedKey (s.slot w.slot).root w.slot w.epoch) (sealIv w.epoch w.counter) aad
          (padTo len data) (padTo 16 tag)), (s.bufferRuns 1 none bad).useKey w.slot w.serial w.epoch) := by
  have same : (s.bufferRuns 1 none bad).slot w.slot = s.slot w.slot :=
    State.slot_bufferMisses_open (s := s.bufferGranted) none bad
  rw [State.openBytes_current (by rw [same]; exact loaded) (by rw [same]; exact serial), same, length_padTo]

end

/-- Settles O35: a seal by `State.sealBytes_current`, over what `State.bufferRuns_missed` leaves where a lane's cores
disagreed; an open by `State.openBytes_bufferRuns`; the bytes of DRAM by `State.buffer_dramPut`. -/
theorem buffersAreSealedAndOpened : Obligations.BuffersAreSealedAndOpened := by
  refine ⟨fun s d n addr len aad data canon unmarked tenant free calm restored lane inside short shortAad loaded below =>
    ⟨?_, fun l among room => ?_⟩,
    fun s d addr len bad word aad tag data w canon unmarked named tenant free calm restored lane inside short shortAad
      loaded serial => ⟨fun p holds => ?_, fun fails => ?_⟩⟩
  · have goes : s.BufferGoes d n addr len aad := ⟨free, unmarked, tenant, calm, restored, lane, inside, short, shortAad⟩
    obtain ⟨u, seals, spent, -, -⟩ := State.sealBytes_current (s := s.bufferGranted) loaded below aad (padTo len data)
    have kept : Keeps (· ≠ .dram) s u := KeepsO2.of seals (keeps_sealBytes _ _ _ _ (keeps_dram_bufferRuns 0 (some n) [])
      (by simp) (by simp) (by simp) (by simp) (by simp))
    rw [length_padTo] at seals
    obtain ⟨place, others⟩ := State.buffer_dramPut (addr := addr) canon.1 kept (length_padTo len _)
    exact ⟨_, _, exec_bufSeal_sealed goes loaded seals, length_padTo 16 _,
      by rw [State.slot_dramPut, spent]; rfl, place, others⟩
  · have goes : s.BufferGoes d n addr len aad := ⟨free, unmarked, tenant, calm, restored, lane, inside, short, shortAad⟩
    obtain ⟨missed, told⟩ := State.bufferRuns_missed loaded below among
    obtain ⟨u, seals, spent, -, raised⟩ := State.sealBytes_current (s := s.bufferRuns 0 (some n) [l]) (n := n)
      (by rw [missed]; exact loaded) (by rw [missed]; exact room) aad (padTo len data)
    have run := exec_bufSeal_sealed goes loaded seals
    rw [missed] at run spent
    exact ⟨_, _, run, by rw [State.slot_dramPut, spent]; rfl, (raised.trans (raised_dramPut _ _)).subset told⟩
  · have goes : s.BufferGoes d (parseSealWord (padTo 16 word)).slot addr len aad :=
      ⟨free, unmarked, named ▸ tenant, calm, restored, lane, inside, short, shortAad⟩
    have opens := State.openBytes_bufferRuns (bad := bad) (aad := aad) (len := len) (data := data) (tag := tag) loaded serial
    rw [holds] at opens
    have run := exec_bufOpen_opened goes named opens
    dsimp only [Opened.ofPlain, Opened.output, Opened.estatus] at run
    exact ⟨_, run, State.buffer_dramPut canon.1 (keeps_dram_opened w bad) (length_padTo len p)⟩
  · have goes : s.BufferGoes d (parseSealWord (padTo 16 word)).slot addr len aad :=
      ⟨free, unmarked, named ▸ tenant, calm, restored, lane, inside, short, shortAad⟩
    have opens := State.openBytes_bufferRuns (bad := bad) (aad := aad) (len := len) (data := data) (tag := tag) loaded serial
    rw [fails] at opens
    have run := exec_bufOpen_opened goes named opens
    dsimp only [Opened.ofPlain, Opened.output, Opened.estatus] at run
    exact ⟨_, run, State.buffer_dramPut canon.1 (keeps_dram_opened w bad) (List.length_replicate (n := len) (a := 0))⟩

/-! ## Retired generations and erases (R319, R320) -/

section
variable {s : State} {d : Dir} {n m gen : Nat} {g : RetiredGen}

/-- Where no key directive waits, none is carried out. -/
theorem State.runKeyWaits_idle (idle : (s.slot n).waiting = []) : s.runKeyWaits n (s.slot n).waiting.length = s := by
  rw [idle]; rfl

/-- Keys whose generation has cleared are in the cache no more. -/
theorem State.notMem_cache_dropKeys {slot serial epoch e : Nat} (h : e ≤ epoch) :
    (slot, serial, e) ∉ (s.dropKeys slot serial epoch).cip.cache := by
  simp [State.dropKeys, h]

/-- The one retired generation of a LOADED slot clears. -/
theorem exec_retiredGenRelease_only (only : (s.slot n).retired = [g]) (named : g.gen = gen) (unused : g.refs = 0)
    (loaded : (s.slot n).st = .loaded) (idle : (s.slot n).waiting = []) :
    exec (.retiredGenRelease n gen) s
      = .next ((s.dropKeys n g.serial g.epoch).onSlot n fun k => { k with retired := [] }) := by
  have cleared : (s.dropKeys n g.serial g.epoch).onSlot n
        (fun k => { k with retired := k.retired.filter fun r => r.gen ≠ gen })
      = (s.dropKeys n g.serial g.epoch).onSlot n fun k => { k with retired := [] } := by
    apply State.onSlot_congr
    simp [only, named]
  have found : (s.slot n).retired.find? (fun r => r.gen = gen) = some g := by simp [only, named]
  have stays : ¬(((s.dropKeys n g.serial g.epoch).onSlot n fun k => { k with retired := [] }).slot n).st = .erasing := by
    simp [loaded]
  refine congrArg Host.Outcome.next ?_
  rw [guardStep, if_pos (by simp [only, named, unused])]
  simp only [State.clearRetired, found, cleared, stays, false_and, if_false]
  exact State.runKeyWaits_idle ((congrArg KeySlot.waiting (State.slot_onSlot_self _)).trans idle)

/-- A slot that is ERASING when its wait expires, its cached keys gone and its failed jobs counted. -/
def State.eraseForced (s : State) (n : Nat) : State :=
  let u := (s.slot n).retired.foldl (fun (s : State) (r : RetiredGen) => s.dropKeys n r.serial r.epoch) s
  if s.heldJobs n = 0 then u else u.raise 423 (item2 n ++ item4 (s.heldJobs n))

theorem State.slot_eraseForced : (s.eraseForced n).slot m = s.slot m := by
  have dropped := foldl_same (·.slot m) (fun (s : State) (r : RetiredGen) => s.dropKeys n r.serial r.epoch)
    (fun _ _ => rfl) (s.slot n).retired s
  unfold State.eraseForced
  dsimp only
  split
  · exact dropped
  · exact dropped

theorem State.ldg_eraseForced : (s.eraseForced n).ldg = s.ldg := by
  have dropped := foldl_same (·.ldg) (fun (s : State) (r : RetiredGen) => s.dropKeys n r.serial r.epoch)
    (fun _ _ => rfl) (s.slot n).retired s
  unfold State.eraseForced
  dsimp only
  split
  · exact dropped
  · exact dropped

theorem exec_eraseWaitExpiry_one (erasing : (s.slot n).st = .erasing) (waits : (s.slot n).eraseDirs = [d])
    (idle : (s.slot n).waiting = []) :
    exec (.eraseWaitExpiry n) s = .next (((s.eraseForced n).slotErased n).finish 3 d esDone []) := by
  have ended : (s.eraseForced n).finishErase n = ((s.eraseForced n).slotErased n).finish 3 d esDone [] :=
    State.finishErase_one (by rw [State.slot_eraseForced]; exact waits)
  refine congrArg Host.Outcome.next ?_
  rw [guardStep, if_pos (decide_eq_true erasing)]
  show ((s.eraseForced n).finishErase n).runKeyWaits n (((s.eraseForced n).finishErase n).slot n).waiting.length = _
  rw [State.runKeyWaits_idle, ended]
  rw [ended, State.slot_of_cip (State.cip_finish _ _ _ _), State.slot_slotErased_self, State.slot_eraseForced]
  exact idle

end

/-! ## Slots with errors in their check bits (R323) -/

/-- A slot as its record restores it; one that is ERASING stays so. -/
def KeySlot.restored (r : SlotRec) (root : Option Bytes) (k : KeySlot) : KeySlot := { k with
  st := if k.st = .erasing then .erasing else if r.loaded && root.isSome then .loaded else .empty
  root := if k.st = .erasing then zeros 32 else padTo 32 (root.getD [])
  epoch := r.epoch, serial := r.serial, counter := r.ceiling }

section
variable {s : State} {n : Nat}

theorem exec_slotEccError_corrected (inside : n ≤ 0x43F) :
    exec (.slotEccError n .corrected) s = .next (s.raise 420 (item2 n)) := by
  refine congrArg Host.Outcome.next ?_
  rw [guardStep, if_pos (decide_eq_true inside)]

theorem exec_slotEccError_uncorrectable (inside : n ≤ 0x43F) :
    exec (.slotEccError n .uncorrectable) s = .next (s.recoverSlot n) := by
  refine congrArg Host.Outcome.next ?_
  rw [guardStep, if_pos (decide_eq_true inside)]

theorem State.recoverSlot_sec (sec : isSecSlot n = true) : s.recoverSlot n = s.raise 421 (item2 n) := by
  rw [State.recoverSlot, if_pos sec]

theorem State.recoverSlot_recorded (recorded : isSecSlot n = false) :
    s.recoverSlot n = (s.restoreSlot n).raise 421 (item2 n) := by
  rw [State.recoverSlot, recorded, if_neg Bool.false_ne_true]

theorem State.slot_restoreSlot :
    (s.restoreSlot n).slot n = (s.slot n).restored (s.slotRec n) (s.recRoot (s.slotRec n)) := by
  simp [State.restoreSlot, KeySlot.restored]

end

/-! ## Numbers in a slot record (R305) -/

@[simp] theorem length_leBytes (n v : Nat) : (leBytes n v).length = n := by
  induction n generalizing v with
  | zero => rfl
  | succ n ih => simp [leBytes, ih]

/-- A number reads back from its bytes, reduced to their width. -/
theorem leNat_leBytes (n v : Nat) : leNat (leBytes n v) = v % 256 ^ n := by
  induction n generalizing v with
  | zero => simp [leBytes, leNat, Nat.mod_one]
  | succ n ih =>
    rw [leBytes, leNat, ih, BitVec.toNat_ofNat, pow_succ' 256 n]
    exact Nat.mod_mul.symm

/-- The bytes between a head of a known length and the rest. -/
theorem slice_between {a b c : Bytes} {off len : Nat} (ha : a.length = off) (hb : b.length = len) :
    slice (a ++ b ++ c) off len = b := by
  subst ha hb
  simp [slice]

/-- CTR_CEILING as a record gives it. -/
theorem SlotRec.ceiling_bytes (r : SlotRec) : (parseSlotRec r.bytes).ceiling = r.ceiling % 2 ^ 64 := by
  have head : (padTo 40 r.wrapped ++ leBytes 4 r.epoch ++ leBytes 2 r.serial ++ leBytes 1 (if r.loaded then 1 else 0)
      ++ zeros 1).length = 48 := by
    simp [length_padTo, zeros]
  have ceiling : slice r.bytes 48 8 = leBytes 8 r.ceiling := by
    rw [SlotRec.bytes, SlotRec.head, List.append_assoc _ (leBytes 4 _) (zeros 4)]
    exact slice_between head (length_leBytes 8 _)
  show leNat (slice r.bytes 48 8) = _
  rw [ceiling, leNat_leBytes, show 256 ^ 8 = 2 ^ 64 from by decide]

/-! ## The counter preset (CIP_CTR_TEST) -/

/-- A write of CIP_CTR_TEST while CIP is unlocked, before APPLY acts. -/
def State.ctrTestSet (s : State) (value : W32) : State :=
  (s.setFld Reg.CIP_CTR_TEST_STEPS_LEFT (Reg.CIP_CTR_TEST_STEPS_LEFT.of value)).setFld Reg.CIP_CTR_TEST_ARM
    (Reg.CIP_CTR_TEST_ARM.of value)

/-- A slot whose counter stands some steps below its end, and its record's ceiling at the end. -/
def State.ctrPreset (s : State) (n steps : Nat) : State :=
  let u := (s.onSlot n fun k => { k with counter := counterEnd - steps }).swatchWrite 4 n
  u.writeSlotRec n { u.slotRec n with ceiling := counterEnd }

section
variable {s : State} {value : W32} {n : Nat}

/-- A field of a word put back reads as it was. -/
theorem Field.of_mod (f : Field) (w : W32) : f.of w % 2 ^ (f.hi + 1 - f.lo) = f.of w := Nat.mod_mod _ _

theorem State.fld_arm_ctrTestSet (canon : Tbl.wf s.regs = true) :
    (s.ctrTestSet value).fld Reg.CIP_CTR_TEST_ARM = Reg.CIP_CTR_TEST_ARM.of value :=
  (State.fld_setFld_self _ _ _ (s.regs_wf_setFld _ _ canon) (by decide)).trans (Field.of_mod _ _)

theorem State.fld_stepsLeft_ctrTestSet (canon : Tbl.wf s.regs = true) :
    (s.ctrTestSet value).fld Reg.CIP_CTR_TEST_STEPS_LEFT = Reg.CIP_CTR_TEST_STEPS_LEFT.of value := by
  refine (State.fld_setFld_disjoint _ Reg.CIP_CTR_TEST_STEPS_LEFT Reg.CIP_CTR_TEST_ARM _ (s.regs_wf_setFld _ _ canon) rfl
    (by decide)).trans ?_
  exact (State.fld_setFld_self _ _ _ canon (by decide)).trans (Field.of_mod _ _)

/-- A register beside CIP_CTR_TEST stays. -/
theorem State.fld_ctrTestSet_of_ne {f : Field} (other : f.addr ≠ Reg.CIP_CTR_TEST_ARM.addr) :
    (s.ctrTestSet value).fld f = s.fld f := by
  rw [State.ctrTestSet, State.fld_setFld_of_ne _ _ _ _ other]
  exact State.fld_setFld_of_ne _ _ _ _ other

theorem exec_cipCtrPreset_applies (canon : Tbl.wf s.regs = true) (unlocked : s.locked 0xF0000 = false)
    (arm : Reg.CIP_CTR_TEST_ARM.of value = 1) (apply : Reg.CIP_CTR_TEST_APPLY.of value = 1)
    (selected : s.fld Reg.CIP_SLOT_SEL_SLOT = n) (tenant : n < 0x400) (loaded : (s.slot n).st = .loaded) :
    exec (.cipCtrPreset value) s
      = .next ((s.ctrTestSet value).ctrPreset n (Reg.CIP_CTR_TEST_STEPS_LEFT.of value)) := by
  have open_ : (s.setFld Reg.CIP_CTR_TEST_STEPS_LEFT (Reg.CIP_CTR_TEST_STEPS_LEFT.of value)).locked 0xF0000 = false := by
    rw [State.locked, State.fld_setFld_of_ne _ _ _ _ (by decide)]
    exact unlocked
  have chosen : min ((s.ctrTestSet value).fld Reg.CIP_SLOT_SEL_SLOT) 0x43F = n := by
    rw [State.fld_ctrTestSet_of_ne (by decide), selected]
    omega
  have armed : (s.ctrTestSet value).fld Reg.CIP_CTR_TEST_ARM = 1 := (State.fld_arm_ctrTestSet canon).trans arm
  have goes : isTenantSlot n = true := by simpa [isTenantSlot] using tenant
  refine congrArg Host.Outcome.next ?_
  simp only [State.ctrTestWrite, open_, Bool.false_eq_true, if_false]
  rw [← State.ctrTestSet, chosen, armed, State.fld_stepsLeft_ctrTestSet canon]
  exact if_pos ⟨rfl, apply, goes, loaded⟩

/-- What a preset leaves: the counter, the ceiling of its record, the steps that CIP_CTR_TEST holds, and the other slots. -/
theorem State.ctrPreset_spec {steps : Nat} :
    (s.ctrPreset n steps).slot n = { s.slot n with counter := counterEnd - steps } ∧
      ((s.ctrPreset n steps).slotRec n).ceiling = counterEnd ∧
      (s.ctrPreset n steps).fld Reg.CIP_CTR_TEST_STEPS_LEFT = s.fld Reg.CIP_CTR_TEST_STEPS_LEFT ∧
      ∀ m, m ≠ n → (s.ctrPreset n steps).slot m = s.slot m := by
  have kept : Keeps (· ≠ .reg Reg.CIP_CTR_TEST_STEPS_LEFT.addr) s (s.ctrPreset n steps) :=
    keeps_writeSlotRec _ _ (keeps_swatchWrite _ _ (keeps_onSlot _ _ (Keeps.refl _ s) (by simp)) (by simp) (by decide))
      (by simp) (by simp) (by decide)
  refine ⟨by simp [State.ctrPreset], ?_, kept.fld, fun m other => by simp [State.ctrPreset, other]⟩
  simp [State.ctrPreset, State.slotRec, SlotRec.ceiling_bytes, counterEnd]

end

/-! ## Alarms (R324 to R327) -/

/-- Everything that an alarm zeroizes at once. -/
def State.zeroized (s : State) (on : Nat) : State := s.onCip fun c => { c with
  slots := c.slots.map fun e => (e.1, e.2.zeroize), cache := [], checks := [], alarm := true,
  alarmSources := c.alarmSources ||| BitVec.ofNat 5 on, waitRestore := [], laneKeys := [], drbg := false }

/-- An alarm that has overwritten some slot records and is reported. -/
def State.alarmed (s : State) (on : Nat) (erases : List Nat) : State :=
  (erases.foldl State.alarmRecord (s.zeroized on)).raise 425 (item1 on)

section
variable {s o : State} {n on : Nat} {erases : List Nat}

theorem State.slot_zeroized : (s.zeroized on).slot n = (s.slot n).zeroize := by
  unfold State.slot
  cases held : tget s.cip.slots n with
  | none =>
    have same := tget_map_none (g := fun e : Nat × KeySlot => (e.1, e.2.zeroize)) (fun _ => rfl) held
    exact congrArg (Option.getD · KeySlot.fresh) same
  | some k =>
    have same := tget_map_of_fst (g := fun e : Nat × KeySlot => (e.1, e.2.zeroize)) (fun _ => rfl) held
    exact congrArg (Option.getD · KeySlot.fresh) same

theorem State.cip_alarmed : (s.alarmed on erases).cip = (s.zeroized on).cip :=
  foldl_same (·.cip) State.alarmRecord (fun _ _ => State.cip_writeSlotRec _) erases (s.zeroized on)

/-- The alarm is reported after what the record lines' draws raise. -/
theorem State.raised_alarmed : ∃ more, (s.alarmed on erases).flt.raised
    = s.flt.raised ++ more ++ [⟨425, leBytes 1 on⟩] ∧ ∀ e ∈ more, e.src = 520 := by
  obtain ⟨more, raised, only⟩ := RaisesOnly.foldl State.alarmRecord (fun _ _ => raisesOnly_writeSlotRec _) erases
    (s.zeroized on)
  exact ⟨more, congrArg (· ++ [(⟨425, leBytes 1 on⟩ : Ev)]) raised, only⟩

theorem keeps_alarmed {r : Part → Prop} (h : Keeps r o s) (cip : r .cip) (ldg : r .ldg) (flt : r .flt)
    (unmetered : r (.reg Reg.LDG_UNMETERED_LINES.addr)) : Keeps r o (s.alarmed on erases) :=
  keeps_raise _ _ (keeps_foldl _ _ (fun _ n k => keeps_alarmRecord n k ldg flt unmetered) (keeps_onCip _ h cip)) flt

/-- Slots for which no directive waits leave an alarm none to complete. -/
theorem State.alarmDirectives_idle {slots : List (Nat × KeySlot)}
    (idle : ∀ e ∈ slots, e.2.waiting = [] ∧ e.2.eraseDirs = []) : s.alarmDirectives slots = s := by
  induction slots with
  | nil => rfl
  | cons e slots ih =>
    obtain ⟨waiting, erases⟩ := idle e List.mem_cons_self
    rw [State.alarmDirectives, waiting, erases]
    exact ih fun x hx => idle x (List.mem_cons_of_mem e hx)

theorem State.cipAlarm_idle (enabled : s.fld Reg.CIP_ALARM_EN_ENABLE &&& on = on) (real : on ≠ 0)
    (restored : s.cip.waitRestore = []) (idle : ∀ e ∈ s.cip.slots, e.2.waiting = [] ∧ e.2.eraseDirs = []) :
    ∃ erases, s.cipAlarm on = s.alarmed on erases := by
  rw [Nat.and_comm] at enabled
  simp only [State.cipAlarm, enabled, if_neg real, restored, List.foldl_nil]
  exact ⟨_, State.alarmDirectives_idle idle⟩

end

/-- Each alarm source comes to CIP's alarm, a tamper after SEC's event of its detector (R324). -/
theorem exec_alarmSource {s : State} {c : Instr} {bits : Nat} {pre : List Ev}
    (which : c = .cipAlarmSwWrite 0x5A5A ∧ bits = 16 ∧ pre = [] ∨ c = .glitchDetected ∧ bits = 2 ∧ pre = [] ∨
      ∃ x, c = .tamperDetected x ∧ bits = 1 ∧ pre = [⟨1098, leBytes 1 x⟩]) :
    ∃ u : State, exec c s = .next (u.cipAlarm bits) ∧ u.fld Reg.CIP_ALARM_EN_ENABLE = s.fld Reg.CIP_ALARM_EN_ENABLE ∧
      u.cip = s.cip ∧ u.flt.raised = s.flt.raised ++ pre ∧ Keeps (· = .flt) s u := by
  obtain ⟨rfl, rfl, rfl⟩ | ⟨rfl, rfl, rfl⟩ | ⟨x, rfl, rfl, rfl⟩ := which
  · exact ⟨s, rfl, rfl, rfl, (List.append_nil _).symm, Keeps.refl _ s⟩
  · exact ⟨s, rfl, rfl, rfl, (List.append_nil _).symm, Keeps.refl _ s⟩
  · exact ⟨s.raise 1098 (item1 x), rfl, rfl, rfl, rfl, keeps_raise _ _ (Keeps.refl _ s) rfl⟩

/-- Settles O36: a release, an expiry, an error and a preset each by the equation of its step; an alarm by what
`State.cipAlarm_idle` makes of it, whichever source raises it. -/
theorem keySlotsEnd : Obligations.KeySlotsEnd := by
  refine ⟨fun s n gen g only named unused loaded idle => ?_, fun s n d erasing waits idle => ?_,
    fun s n inside => ⟨?_, fun sec => ?_, fun recorded erasing => ?_, fun recorded stays _ => ?_⟩,
    fun s value n canon unlocked arm apply selected tenant loaded => ?_,
    fun s c bits pre which enabled restored idle => ?_⟩
  · refine ⟨_, exec_retiredGenRelease_only only named unused loaded idle, by simp,
      fun e covered => State.notMem_cache_dropKeys covered, fun m other => by simp [other],
      (keeps_onSlot n _ (keeps_dropKeys n _ _ (Keeps.refl _ s) (by simp)) (by simp)).onlyChanges⟩
  · refine ⟨_, _, exec_eraseWaitExpiry_one erasing waits idle, rfl, ?_, ?_, ?_, ?_, ?_⟩
    · rw [State.slot_slotErased_self]; rfl
    · rw [State.slot_slotErased_self]; rfl
    · rw [State.slot_slotErased_self]; rfl
    · rw [State.slotRecs_slotErased, State.erasedRec, State.slotRec_of_ldg State.ldg_eraseForced, State.slot_eraseForced]
    · rw [State.slot_slotErased_self, State.slot_eraseForced]; rfl
  · exact ⟨_, exec_slotEccError_corrected inside, rfl, (keeps_raise _ _ (Keeps.refl _ s) (by simp)).onlyChanges⟩
  · refine ⟨_, exec_slotEccError_uncorrectable inside, ?_⟩
    rw [State.recoverSlot_sec sec]
    exact ⟨rfl, (keeps_raise _ _ (Keeps.refl _ s) (by simp)).onlyChanges⟩
  · refine ⟨_, exec_slotEccError_uncorrectable inside, ?_⟩
    rw [State.recoverSlot_recorded recorded, State.slot_raise, State.slot_restoreSlot]
    exact ⟨if_pos erasing, if_pos erasing, List.mem_append_right _ (List.mem_singleton_self _)⟩
  · refine ⟨_, exec_slotEccError_uncorrectable inside, ?_⟩
    rw [State.recoverSlot_recorded recorded, State.slot_raise, State.slot_restoreSlot]
    refine ⟨rfl, if_neg stays, rfl, ?_, List.mem_append_right _ (List.mem_singleton_self _)⟩
    rw [KeySlot.restored, if_neg stays]
    rw [← Bool.and_eq_true]
    cases (s.slotRec n).loaded && (s.recRoot (s.slotRec n)).isSome <;> simp
  · obtain ⟨slot, ceiling, steps, others⟩ := State.ctrPreset_spec (s := s.ctrTestSet value) (n := n)
      (steps := Reg.CIP_CTR_TEST_STEPS_LEFT.of value)
    refine ⟨_, exec_cipCtrPreset_applies canon.2 unlocked arm apply selected tenant loaded, congrArg KeySlot.counter slot,
      ceiling, steps.trans (State.fld_stepsLeft_ctrTestSet canon.2), others⟩
  · obtain ⟨u, run, fld, cip, raised, kept⟩ := exec_alarmSource which
    have real : bits ≠ 0 := by rcases which with ⟨-, rfl, -⟩ | ⟨-, rfl, -⟩ | ⟨-, -, rfl, -⟩ <;> decide
    obtain ⟨erases, alarm⟩ := State.cipAlarm_idle (s := u) (by rw [fld]; exact enabled) real (by rw [cip]; exact restored)
      (by rw [cip]; exact idle)
    obtain ⟨more, told, only⟩ := State.raised_alarmed (s := u) (on := bits) (erases := erases)
    have zeroized (n : Nat) : ((u.alarmed bits erases).slot n) = (s.slot n).zeroize := by
      rw [State.slot_of_cip State.cip_alarmed, State.slot_zeroized, State.slot_of_cip cip]
    refine ⟨u.alarmed bits erases, by rw [run, alarm], ?_, ?_, ?_, fun n => ?_,
      ⟨more, by rw [told, raised], only⟩, ?_, ?_,
      (keeps_alarmed (kept.mono (by simp)) (by simp) (by simp) (by simp) (by simp)).onlyChanges⟩
    · rw [State.cip_alarmed]; rfl
    · rw [State.cip_alarmed]; rfl
    · rw [State.cip_alarmed, ← cip]; rfl
    · rw [zeroized]; exact ⟨rfl, rfl, rfl, rfl, rfl⟩
    · rw [State.cip_alarmed]; rfl
    · rw [State.cip_alarmed]; rfl

/-! ## Lanes that are filled (R24, R296, R297) -/

section
variable {s : State} {j k : CipJob} {lane l : Nat} {express : Bool}

/-- A job that is granted a lane runs on none, and its lane is free and not one that it must avoid. -/
theorem State.nextJob_spec (next : s.nextJob = some (j, express, l)) :
    s.laneFor j = some l ∧ ∀ r ∈ s.cip.running, r.2 ≠ j := by
  have ready (x : CipJob × Bool × Nat)
      (among : x ∈ s.waitingJobs.filterMap fun j => (s.laneFor j.1).map fun l => (j.1, j.2, l)) :
      s.laneFor x.1 = some x.2.2 ∧ ∀ r ∈ s.cip.running, r.2 ≠ x.1 := by
    obtain ⟨w, waits, given⟩ := List.mem_filterMap.mp among
    obtain ⟨l, lane, rfl⟩ := Option.map_eq_some_iff.mp given
    refine ⟨lane, fun r runs same => ?_⟩
    have idle := (List.mem_filter.mp waits).2
    simp only [Bool.not_eq_true', List.any_eq_false, decide_eq_true_eq] at idle
    exact idle r runs same
  unfold State.nextJob at next
  dsimp only at next
  split at next
  · next x first => exact ready _ (Option.some_inj.mp next ▸ List.mem_of_find?_eq_some first)
  · obtain ⟨kind, -, first⟩ := Option.bind_eq_some_iff.mp next
    exact ready _ (List.mem_of_find?_eq_some first)

theorem State.nextGrant_job (next : s.nextGrant = some (.inl (j, express, l))) : s.nextJob = some (j, express, l) := by
  unfold State.nextGrant at next
  split at next
  · split at next
    · cases head : s.freeLanes.head? <;> simp [head] at next
    · cases next
  · next x found =>
    split at next
    · rw [found, Sum.inl.inj (Option.some_inj.mp next)]
    · split at next
      · cases head : s.freeLanes.head? <;> simp [head] at next
      · rw [found, Sum.inl.inj (Option.some_inj.mp next)]

/-- What a grant of a lane to a buffer directive and the start of a waiting job keep, the filling of the lanes keeps. -/
theorem State.fillLanes_keeps {P : State → Prop}
    (granted : ∀ (s : State) (l : Nat), P s → P ((s.onCip fun c => { c with bufLane := some l }).grantCip false 3))
    (started : ∀ (s : State) (j : CipJob) (express : Bool) (l : Nat), s.nextJob = some (j, express, l) → P s →
      P ((s.startJob j l).grantCip express j.kind)) (fuel : Nat) (h : P s) : P (s.fillLanes fuel) := by
  induction fuel generalizing s with
  | zero => exact h
  | succ fuel ih =>
    unfold State.fillLanes
    split
    · exact h
    · split
      · exact h
      · next j express l next => exact ih (started s j express l (State.nextGrant_job next) h)
      · next l _ => exact ih (granted s l h)

theorem State.cip_grantCip (express : Bool) (requester : Nat) :
    (s.grantCip express requester).cip.slots = s.cip.slots ∧
      (s.grantCip express requester).cip.running = s.cip.running ∧
      (s.grantCip express requester).cip.rerun = s.cip.rerun := by
  unfold State.grantCip
  split
  · exact ⟨rfl, rfl, rfl⟩
  · exact ⟨rfl, rfl, rfl⟩

theorem State.slots_fillLanes (fuel : Nat) : (s.fillLanes fuel).cip.slots = s.cip.slots :=
  State.fillLanes_keeps (P := fun t => t.cip.slots = s.cip.slots)
    (fun _ _ h => (State.cip_grantCip _ _).1.trans h) (fun _ _ _ _ _ h => (State.cip_grantCip _ _).1.trans h) fuel rfl

/-- A job does not run on a lane: it waits to run again on another, or it runs on another (R296). -/
def State.RunsElsewhere (s : State) (j : CipJob) (lane : Nat) : Prop :=
  tget s.cip.running lane ≠ some j ∧
    ((j, lane) ∈ s.cip.rerun ∨ ∃ l, l ≠ lane ∧ tget s.cip.running l = some j)

/-- A waiting job that starts keeps a job off the lane that its cores disagreed on. -/
theorem State.RunsElsewhere.startJob (h : s.RunsElsewhere j lane) (next : s.nextJob = some (k, express, l)) :
    (s.startJob k l).RunsElsewhere j lane := by
  obtain ⟨off, waits⟩ := h
  obtain ⟨laneFor, idle⟩ := State.nextJob_spec next
  have free : tget s.cip.running l = none := by
    have among := List.mem_of_find?_eq_some laneFor
    simp only [State.freeLanes, List.mem_filter, Bool.and_eq_true, Option.isNone_iff_eq_none] at among
    exact among.2.1.2
  have running : (s.startJob k l).cip.running = tset s.cip.running l k := rfl
  have rerun : (s.startJob k l).cip.rerun = s.cip.rerun.filter fun r => decide (r.1 ≠ k) := rfl
  rw [State.RunsElsewhere, running, rerun]
  by_cases same : k = j
  · subst same
    have avoids : (k, lane) ∈ s.cip.rerun := waits.resolve_right fun ⟨x, _, runs⟩ => idle _ (mem_of_tget runs) rfl
    have other : l ≠ lane := by
      rintro rfl
      simpa [avoids] using List.find?_some laneFor
    exact ⟨by rwa [tget_tset_of_ne _ _ _ _ other.symm], .inr ⟨l, other, tget_tset_self _ _ _⟩⟩
  · refine ⟨?_, waits.imp (fun avoids => ?_) fun ⟨x, other, runs⟩ => ⟨x, other, ?_⟩⟩
    · by_cases here : lane = l
      · rw [here, tget_tset_self]
        exact fun e => same (Option.some_inj.mp e)
      · rwa [tget_tset_of_ne _ _ _ _ here]
    · simpa [avoids] using Ne.symm same
    · have busy : x ≠ l := by
        rintro rfl
        rw [free] at runs
        cases runs
      rwa [tget_tset_of_ne _ _ _ _ busy]

/-- A job whose cores disagreed on a lane does not run there again when the lanes are filled (R296). -/
theorem State.RunsElsewhere.fillLanes (h : s.RunsElsewhere j lane) (fuel : Nat) :
    tget (s.fillLanes fuel).cip.running lane ≠ some j := by
  have granted (t : State) (express : Bool) (requester : Nat) (h : t.RunsElsewhere j lane) :
      (t.grantCip express requester).RunsElsewhere j lane := by
    obtain ⟨-, running, rerun⟩ := State.cip_grantCip (s := t) express requester
    rwa [State.RunsElsewhere, running, rerun]
  exact (State.fillLanes_keeps (P := fun t => t.RunsElsewhere j lane) (fun _ _ h => granted _ _ _ h)
    (fun _ _ _ _ next h => granted _ _ _ (h.startJob next)) fuel h).1

theorem State.flt_fillLanes (fuel : Nat) : (s.fillLanes fuel).flt = s.flt :=
  (keeps_fillLanes (r := (· ≠ .flt)) fuel (Keeps.refl _ s) (by simp)).same .flt (by simp)

theorem State.cmd?_fillLanes (fuel n : Nat) : (s.fillLanes fuel).cmd? n = s.cmd? n :=
  (keeps_fillLanes (r := (· ≠ .sch)) fuel (Keeps.refl _ s) (by simp)).cmd? n

end

/-! ## The end of a job on its lane (R295, R296) -/

/-- A lane whose job has ended. -/
def State.laneFreed (s : State) (lane : Nat) : State := s.onCip fun c => { c with running := tdel c.running lane }

/-- A job that is to run again on another lane. -/
def State.runAgain (s : State) (j : CipJob) (lane : Nat) : State := s.onCip fun c => { c with rerun := c.rerun ++ [(j, lane)] }

section
variable {s u : State} {n lane i slot kind : Nat} {loc : Loc} {c : Cmd} {g : Seg} {j : CipJob}

theorem exec_cipherJobDone_agrees (awake : s.blockInReset .cip = false)
    (runs : tget s.cip.running lane = some ⟨kind, n, i, loc⟩) (owned : kind ≠ 2) :
    exec (.cipherJobDone (some n) lane true) s
      = .next ((((s.laneFreed lane).cmdJob ⟨kind, n, i, loc⟩).dropIdleRef n).fillLanes 16) := by
  refine congrArg Host.Outcome.next ?_
  simp only [awake, runs, CipJob.owner, if_neg owned, guardStep, decide_true, if_true]
  rfl

theorem exec_cipherJobDone_disagrees (awake : s.blockInReset .cip = false)
    (runs : tget s.cip.running lane = some ⟨kind, n, i, loc⟩) (owned : kind ≠ 2) :
    exec (.cipherJobDone (some n) lane false) s
      = .next (((((s.laneFreed lane).laneMismatch lane kind).spendCounter ⟨kind, n, i, loc⟩).runAgain ⟨kind, n, i, loc⟩
          lane).fillLanes 16) := by
  refine congrArg Host.Outcome.next ?_
  simp only [awake, runs, CipJob.owner, if_neg owned, guardStep, decide_true, if_true]
  rfl

theorem State.running_laneFreed (wf : Tbl.wf s.cip.running = true) : tget (s.laneFreed lane).cip.running lane = none :=
  tget_tdel_self _ _ wf

/-- What runs beside a lane is not of that lane. -/
theorem State.mem_running_laneFreed (wf : Tbl.wf s.cip.running = true) {x : Nat × CipJob}
    (runs : x ∈ (s.laneFreed lane).cip.running) : x ∈ s.cip.running ∧ x.1 ≠ lane := by
  refine ⟨mem_tdel _ _ _ runs, ?_⟩
  rintro rfl
  have gone := State.running_laneFreed (lane := x.1) wf
  exact Option.some_ne_none _ ((tget_of_mem (Tbl.wf_tdel _ _ wf) runs).symm.trans gone)

@[simp] theorem State.cip_grantVal (k : SvcClass) (requester : Nat) : (s.grantVal k requester).cip = s.cip :=
  (keeps_grantVal (r := (· ≠ .cip)) k requester (Keeps.refl _ s) (by simp)).same .cip (by simp)

@[simp] theorem State.flt_grantVal (k : SvcClass) (requester : Nat) : (s.grantVal k requester).flt = s.flt :=
  (keeps_grantVal (r := (· ≠ .flt)) k requester (Keeps.refl _ s) (by simp)).same .flt (by simp)

/-- A command's job runs under the generation that the command refers to (R318). -/
theorem State.takeRef_current (found : s.cmd? n = some c) (ref : c.slotRef = some (slot, (s.slot slot).gen))
    (loaded : (s.slot slot).st = .loaded) : s.takeRef n slot = some ((s.slot slot).gen, s) := by
  have entry : tget s.sch.cmds n = some c := found
  simp [State.takeRef, State.issueRef, entry, ref, State.generation_current loaded]

/-- The lane of a seal that its command waits for has finished: VAL's turn, then the seal. -/
theorem State.cmdJob_seal (found : s.cmd? n = some c) (waits : tget c.work i = some (.sealing g))
    (unmarked : s.flt.swatched = []) : s.cmdJob ⟨0, n, i, loc⟩ = (s.grantVal c.runClass 2).sealJob n i g := by
  simp [State.cmdJob, found, waits, State.readSlot_unmarked unmarked]

/-- A segment closed under its seal (R281, R307, R309). -/
def Cmd.closeSealed (c : Cmd) (i : Nat) (g : Seg) (w : SealWord) (ct tag : Bytes) : Seg :=
  { g with payload := ct, tag := tag, sealWord := some w }.close (locator c.kh c.desc.variant i)

/-- A seal that finishes draws the slot's counter value and closes its segment, and the write goes on (R301, R302, R309). -/
theorem State.sealJob_current (found : s.cmd? n = some c)
    (ref : c.slotRef = some (c.act.owner, (s.slot c.act.owner).gen)) (loaded : (s.slot c.act.owner).st = .loaded)
    (below : (s.slot c.act.owner).counter < counterEnd) :
    ∃ (u : State) (ct tag : Bytes), s.sealJob n i g = u.pathWhenReady n ∧
      u.slot c.act.owner = (s.slot c.act.owner).spent ∧ u.cip.running = s.cip.running ∧ u.cmd? n = some { c with
        work := tset c.work i (.built (c.closeSealed i g ((s.slot c.act.owner).nextSeal c.act.owner) ct tag)) } := by
  obtain ⟨u, seals, spent, running, -⟩ := State.sealBytes_current loaded below
    (segAad c.desc.variant c.act.owner i c.kh g.logicalLen g.compressed) g.payload
  generalize (s.slot c.act.owner).sealed _ _ _ = out at seals
  have kept := (KeepsO2.of seals (keeps_sealBytes (r := (· ≠ .sch)) _ _ _ _ (Keeps.refl _ _) (by simp) (by simp)
    (by simp) (by simp) (by simp))).cmd? n
  refine ⟨u.setWork n i (.built (c.closeSealed i g ((s.slot c.act.owner).nextSeal c.act.owner) (padTo g.payload.length out.1)
    (padTo 16 out.2))), _, _, ?_, spent, running, State.cmd?_onCmd_self _ (kept.trans found)⟩
  simp only [State.sealJob, found, State.takeRef_current found ref loaded, seals]
  rfl

/-- A command whose value work is over keeps its reference or drops it; where no other job of it runs, it drops it (R318). -/
theorem State.cmd?_dropIdleRef_over (found : s.cmd? n = some c) (ended : c.stage ≠ .working) :
    ∃ ref, (s.dropIdleRef n).cmd? n = some { c with slotRef := ref } ∧ (ref = c.slotRef ∨ ref = none) ∧
      ((∀ x ∈ s.cip.running, x.2.kind = 2 ∨ x.2.cmd ≠ n) → ref = none) := by
  simp only [State.dropIdleRef, found]
  split
  · exact ⟨none, State.cmd?_dropRef found, .inr rfl, fun _ => rfl⟩
  · next busy =>
    refine ⟨c.slotRef, found, .inl rfl, fun alone => absurd ⟨ended, ?_⟩ busy⟩
    simp only [List.any_eq_false, Bool.and_eq_true, decide_eq_true_eq, not_and_or, not_not]
    exact alone

/-- A seal at the end of its counter is refused: its event is raised, and the write waits at its gate with its condition, its
reference gone where no other job of it runs (R176, R303, R318). -/
theorem State.sealJob_exhausted (found : s.cmd? n = some c)
    (ref : c.slotRef = some (c.act.owner, (s.slot c.act.owner).gen)) (loaded : (s.slot c.act.owner).st = .loaded)
    (ended : counterEnd ≤ (s.slot c.act.owner).counter) (clean : c.conds = []) (client : c.ctx.isSome = true) :
    ∃ ref', ((s.sealJob n i g).dropIdleRef n).cmd? n
        = some { c with stage := .gated, conds := [.nonceExhausted], slotRef := ref' } ∧
      ((∀ x ∈ s.cip.running, x.2.kind = 2 ∨ x.2.cmd ≠ n) → ref' = none) ∧
      ((s.sealJob n i g).dropIdleRef n).flt.raised
        = s.flt.raised ++ [⟨419, leBytes 2 c.act.owner ++ leBytes 4 (s.slot c.act.owner).epoch⟩] := by
  have refused : s.sealJob n i g
      = (s.nonceExhausted c.act.owner (s.slot c.act.owner).epoch).writeFails n .nonceExhausted := by
    simp only [State.sealJob, found, State.takeRef_current found ref loaded, State.sealBytes_exhausted loaded ended,
      State.generation_current loaded]
    rfl
  have waits : endsAtOnce (c.conds ++ [.nonceExhausted]) = false := by rw [clean]; decide
  rw [refused, State.writeFails_gated (s := s.nonceExhausted _ _) found client waits]
  have marked : ((s.nonceExhausted c.act.owner (s.slot c.act.owner).epoch).addCond n .nonceExhausted).cmd? n
      = some { c with conds := [.nonceExhausted] } := by
    rw [State.addCond, State.cmd?_onCmd_self (s := s.nonceExhausted _ _) _ found, clean]
    rfl
  obtain ⟨first, found₁, -, gone⟩ := State.cmd?_dropIdleRef_over
    (State.cmd?_onCmd_self (fun c => { c with stage := .gated }) marked) (by simp)
  obtain ⟨last, found₂, kept, -⟩ := State.cmd?_dropIdleRef_over found₁ (by simp)
  refine ⟨last, found₂, fun alone => kept.elim (fun same => same.trans (gone alone)) id, ?_⟩
  rw [State.flt_dropIdleRef, State.flt_dropIdleRef]
  rfl

/-- A seal whose cores disagreed has spent its counter value (R302). -/
theorem State.spendCounter_seal (found : s.cmd? n = some c)
    (ref : c.slotRef = some (c.act.owner, (s.slot c.act.owner).gen)) (loaded : (s.slot c.act.owner).st = .loaded)
    (drew : s.drawCounter c.act.owner (s.slot c.act.owner).gen = some (i, u)) :
    s.spendCounter ⟨0, n, slot, loc⟩ = u := by
  simp [State.spendCounter, found, State.takeRef_current found ref loaded, drew]

/-- An open spends none. -/
theorem State.spendCounter_open (found : s.cmd? n = some c) : s.spendCounter ⟨1, n, i, loc⟩ = s := by
  simp [State.spendCounter, found]

/-- The mismatch is counted (R296). -/
theorem State.fld_laneMismatch (canon : Tbl.wf s.regs = true) :
    (s.laneMismatch lane kind).fld Reg.CIP_LANE_STAT_LANE_MISMATCHES = min (s.fld Reg.CIP_LANE_STAT_LANE_MISMATCHES + 1)
      (2 ^ (Reg.CIP_LANE_STAT_LANE_MISMATCHES.hi + 1 - Reg.CIP_LANE_STAT_LANE_MISMATCHES.lo) - 1) := by
  have counted := State.fld_bump_self (s.raise 416 (item1 lane ++ item1 kind)) (f := Reg.CIP_LANE_STAT_LANE_MISMATCHES) 1
    canon (by decide)
  simp only [State.laneMismatch]
  split
  · exact counted
  · exact counted

/-- A job that is taken off its lane to run again is off it. -/
theorem State.runsElsewhere_runAgain (free : tget s.cip.running lane = none) : (s.runAgain j lane).RunsElsewhere j lane :=
  ⟨fun runs => Option.some_ne_none _ (runs.symm.trans free), .inl (List.mem_append_right _ (List.mem_singleton_self _))⟩

end

/-- Settles O27: a seal that both cores agree on by `State.sealJob_current` or `State.sealJob_exhausted`; where they disagree,
what `State.laneMismatch` and `State.spendCounter` leave, and the job off its lane by `State.RunsElsewhere.fillLanes`. -/
theorem cipherJobsEnd : Obligations.CipherJobsEnd := by
  intro s n lane i c g loc found working awake unmarked wf
  have found' : ((s.laneFreed lane).grantVal c.runClass 2).cmd? n = some c := (State.cmd?_grantVal _ _).trans found
  have slot (m : Nat) : ((s.laneFreed lane).grantVal c.runClass 2).slot m = s.slot m :=
    State.slot_of_cip (s := s.laneFreed lane) (State.cip_grantVal _ _) m
  refine ⟨fun runs waits ref loaded below => ?_, fun runs waits ref loaded ended clean client => ?_,
    fun runs ref loaded below => ?_, fun canon runs => ?_⟩
  · have run := exec_cipherJobDone_agrees awake runs (by decide)
    rw [State.cmdJob_seal (s := s.laneFreed lane) (loc := loc) found waits unmarked] at run
    rw [← slot] at ref loaded below
    obtain ⟨u, ct, tag, done, spent, running, closed⟩ := State.sealJob_current (i := i) (g := g) found' ref loaded below
    rw [done] at run
    rw [slot] at spent closed
    refine ⟨u, (s.slot c.act.owner).nextSeal c.act.owner, ct, tag, run, ?_, congrArg KeySlot.counter spent, rfl,
      by rw [closed]; rfl⟩
    rw [running, State.cip_grantVal]
    exact State.running_laneFreed wf
  · have run := exec_cipherJobDone_agrees awake runs (by decide)
    rw [State.cmdJob_seal (s := s.laneFreed lane) (loc := loc) found waits unmarked] at run
    rw [← slot] at ref loaded ended
    obtain ⟨last, found₁, gone, told⟩ := State.sealJob_exhausted (i := i) (g := g) found' ref loaded ended clean client
    refine ⟨_, last, run, (State.cmd?_fillLanes _ _).trans found₁, fun alone => gone fun x beside => ?_, ?_⟩
    · rw [State.cip_grantVal] at beside
      obtain ⟨among, other⟩ := State.mem_running_laneFreed wf beside
      exact alone x among other
    · rw [State.flt_fillLanes, told, State.flt_grantVal, slot]
      rfl
  · have run := exec_cipherJobDone_disagrees awake runs (by decide)
    obtain ⟨slots, running⟩ := State.cip_laneMismatch (s := s.laneFreed lane) (lane := lane) (kind := 0)
    have same (m : Nat) : ((s.laneFreed lane).laneMismatch lane 0).slot m = s.slot m := State.slot_laneMismatch
    have missed := keeps_laneMismatch (r := (· ≠ .sch)) lane 0 (Keeps.refl _ (s.laneFreed lane)) (by simp) (by simp)
      (by simp)
    have found₁ : ((s.laneFreed lane).laneMismatch lane 0).cmd? n = some c := (missed.cmd? n).trans found
    rw [← same] at ref loaded below
    obtain ⟨u, drew, spent, -⟩ := State.drawCounter_current loaded below
    have found₂ : u.cmd? n = some c := ((KeepsO2.of drew (keeps_drawCounter _ _ missed (by simp) (by simp) (by simp) (by simp)
      (by simp))).cmd? n).trans found
    rw [State.spendCounter_seal found₁ ref loaded drew] at run
    have free : tget u.cip.running lane = none := by
      rw [spent]
      exact (congrArg (tget · lane) running).trans (State.running_laneFreed wf)
    refine ⟨_, run, (State.cmd?_fillLanes _ _).trans found₂, ?_, (State.runsElsewhere_runAgain free).fillLanes 16⟩
    have counted : (u.slot c.act.owner).counter = (s.slot c.act.owner).counter + 1 := by
      rw [State.slot_of_cip spent, State.slot_onSlot_self, same]
      rfl
    rw [← counted, State.slot, State.slots_fillLanes]
    rfl
  · have run := exec_cipherJobDone_disagrees awake runs (by decide)
    have missed := keeps_laneMismatch (r := (· ≠ .sch)) lane 1 (Keeps.refl _ (s.laneFreed lane)) (by simp) (by simp)
      (by simp)
    have found₁ : ((s.laneFreed lane).laneMismatch lane 1).cmd? n = some c := (missed.cmd? n).trans found
    obtain ⟨slots, running⟩ := State.cip_laneMismatch (s := s.laneFreed lane) (lane := lane) (kind := 1)
    obtain ⟨more, told⟩ := State.raised_laneMismatch (s := s.laneFreed lane) (lane := lane) (kind := 1)
    have free : tget ((s.laneFreed lane).laneMismatch lane 1).cip.running lane = none :=
      (congrArg (tget · lane) running).trans (State.running_laneFreed wf)
    rw [State.spendCounter_open found₁] at run
    refine ⟨_, run, (State.cmd?_fillLanes _ _).trans found₁, (State.slots_fillLanes _).trans slots,
      (State.runsElsewhere_runAgain free).fillLanes 16, ⟨more, ?_⟩, ?_⟩
    · rw [State.flt_fillLanes]
      exact told
    · refine Eq.trans ?_ (State.fld_laneMismatch (s := s.laneFreed lane) (lane := lane) (kind := 1) canon.2)
      exact (keeps_fillLanes 16 (Keeps.refl _ _) (by simp)).fld

end Sys2Proof.Machine
end

section
/-! PROOFS. The family 10_ledger.md: the upkeep that FTL does on its own (O49), and the lines of the Ledger (O51). -/

namespace Sys2Proof.Machine

/-! ## An upkeep over a superblock table that is not in order (O49)

O49 speaks of every state, where a superblock has one entry in the table. A table that lists a superblock twice answers
by the first entry, and the choice of a FREE superblock (R410) finds the second. -/

/-- Superblock 0 closed and due for refresh; listed once more as FREE; and a fine skein whose one stitch lies in it. -/
def sbListedTwice : State :=
  { State.reset with
    ftl := { State.reset.ftl with
      sbs := [(0, { Sb.fresh with
        st := .closed, refreshDue := true }), (0, Sb.fresh)]
      skeins := [(1, ⟨true, true, 1, 0, 0, [(0, (1, 0, 0))], false, 0, []⟩)] } }

/-- Its refresh is due. -/
theorem mayReclaim_sbListedTwice : sbListedTwice.mayReclaim 0 = true ∧ (sbListedTwice.sb 0).refreshDue = true :=
  ⟨rfl, rfl⟩

theorem exec_refreshAuto_sbListedTwice :
    exec (.refreshAuto 0) sbListedTwice = .next (sbListedTwice.reclaim 0) := rfl

/-- The reclaim takes the superblock that it empties as the FREE one of its copies, and opens it again. -/
theorem st_reclaim_sbListedTwice : ((sbListedTwice.reclaim 0).sb 0).st = .opened := by decide +kernel

/-- Refutes O49: REFRESH_AUTO of `sbListedTwice` opens the superblock 0 that it was to put into RECLAIMING. The
statement does not ask that the superblock table be in order. -/
theorem not_flashKeepsItselfUp : ¬ Obligations.FlashKeepsItselfUp := by
  unfold Obligations.FlashKeepsItselfUp
  rintro ⟨-, refreshes, -⟩
  obtain ⟨may, due⟩ := mayReclaim_sbListedTwice
  obtain ⟨reclaims, -⟩ := refreshes sbListedTwice 0 (.inl may)
  obtain ⟨t, run, reclaiming, -⟩ := reclaims due
  rw [exec_refreshAuto_sbListedTwice] at run
  cases run
  rw [st_reclaim_sbListedTwice] at reclaiming
  cases reclaiming

/-! ## Groups after an operation (R331, R337, R339, R340) -/

section
variable {s t : State} {g h : Nat}

@[simp] theorem State.lgroup_onLgroup_self (f : LGroup → LGroup) : (s.onLgroup g f).lgroup g = f (s.lgroup g) := by
  simp [State.onLgroup, State.lgroup]

theorem State.lgroup_onLgroup_of_ne (f : LGroup → LGroup) (other : h ≠ g) : (s.onLgroup g f).lgroup h = s.lgroup h := by
  simp [State.onLgroup, State.lgroup, other]

/-- Groups and devices are read in LDG alone. -/
theorem State.lgroup_of_ldg (same : t.ldg = s.ldg) (g : Nat) : t.lgroup g = s.lgroup g := by
  rw [State.lgroup, same, State.lgroup]

theorem State.deviceWorks_of_ldg (same : t.ldg = s.ldg) (dev : Nat) : t.deviceWorks dev = s.deviceWorks dev := by
  rw [State.deviceWorks, same, State.deviceWorks]

@[simp] theorem State.lgroup_raise (src : Nat) (b : Bytes) : (s.raise src b).lgroup g = s.lgroup g := rfl
@[simp] theorem State.deviceWorks_raise (src : Nat) (b : Bytes) (dev : Nat) :
    (s.raise src b).deviceWorks dev = s.deviceWorks dev := rfl
@[simp] theorem State.deviceWorks_onLgroup (f : LGroup → LGroup) (dev : Nat) :
    (s.onLgroup g f).deviceWorks dev = s.deviceWorks dev := rfl
@[simp] theorem State.lgroup_swatchWrite (target addr : Nat) : (s.swatchWrite target addr).lgroup g = s.lgroup g :=
  State.lgroup_of_ldg (State.ldg_swatchWrite target addr) g
@[simp] theorem State.deviceWorks_swatchWrite (target addr dev : Nat) :
    (s.swatchWrite target addr).deviceWorks dev = s.deviceWorks dev :=
  State.deviceWorks_of_ldg (State.ldg_swatchWrite target addr) dev

theorem State.ldg_noteSpares (dev : Nat) (was : Bool) : (s.noteSpares dev was).ldg = s.ldg :=
  (keeps_noteSpares (r := (· ≠ .ldg)) dev was (Keeps.refl _ s) (by simp)).same .ldg (by simp)

/-- Two groups lie half a ring of groups apart: those of the copies of a pair (R332). -/
theorem copyB_group_ne (a : Nat) : (a + 128) % 256 ≠ a % 256 := by omega

end

/-! ## LEDGER_LINE_WRITE (R330, R332, R340) -/

section
variable {s t : State} {line a fails failsA failsB : Nat} {data : Bytes} {raw : Bytes × Bytes} {ref : Option DurRef}

/-- A line without a storage of its own, or of a Ledger that takes no writes, is not written. -/
theorem exec_ledgerLineWrite_closed
    (closed : s.ldg.ready = false ∨ s.pwr.takeover = true ∨ s.blockInReset .ldg = true ∨ ledgerLinesTotal ≤ line ∨
      s.lineOpen (copyAOf line) = false) : exec (.ledgerLineWrite line data failsA failsB ref) s = .next s := by
  show execLedgerLineWrite line data failsA failsB ref s = _
  obtain h | h | h | h | h := closed <;> simp [execLedgerLineWrite, State.ledgerOpen, guardStep, h, Nat.not_lt.mpr]

/-- Both copies of the pair of a line can be written. -/
structure PairOpen (s : State) (line : Nat) : Prop where
  opened : s.ledgerOpen = true
  named : line < ledgerLinesTotal
  paired : singleCopy (copyAOf line) = false
  copyA : s.copyOpen (copyAOf line) 0 = true
  copyB : s.copyOpen (copyAOf line + 128) 1 = true

/-- The bytes of a line are stored. -/
def State.storeLine (s : State) (a : Nat) (raw : Bytes × Bytes) : State :=
  s.onLdg fun l => { l with lines := if allZero raw.1 && allZero raw.2 then tdel l.lines a else tset l.lines a raw }

/-- One copy of a line takes its write, under the key of its mark. -/
def State.putCopy (s : State) (line key fails : Nat) : State := (s.swatchWrite 2 key).writeCopy line fails

/-- Both copies of a line are written with some bytes. -/
def State.putPair (s : State) (a : Nat) (raw : Bytes × Bytes) (failsA failsB : Nat) : State :=
  ((s.storeLine a raw).putCopy a a failsA).putCopy (a + 128) (a + 2 ^ 63) failsB

/-- A write that succeeds in time counts in its group (R337). -/
theorem State.putCopy_of_lt (key : Nat) (few : fails < 3) :
    s.putCopy line key fails = (s.swatchWrite 2 key).countGroup (line % 256) 1 := by
  simp [State.putCopy, State.writeCopy, Nat.not_le.mpr few]

/-- The retirement of a line for which its group has a spare one (R340). -/
theorem State.retireLine_spare (works : (s.lgroup (line % 256)).failed = false)
    (spare : (s.lgroup (line % 256)).sparesUsed < groupSpares) :
    ∃ m b, s.retireLine line = ((s.takeSpare (line % 256)).onLgroup (line % 256) fun x =>
      { x with remap := tset x.remap m (252416 + (s.lgroup (line % 256)).sparesUsed) }).raise 513 b := by
  simp only [State.retireLine, works, spare, Bool.false_eq_true, if_false, if_true]
  exact ⟨_, _, rfl⟩

theorem State.ldg_takeSpare (s : State) (g : Nat) :
    (s.takeSpare g).ldg = (s.onLgroup g fun x => { x with sparesUsed := x.sparesUsed + 1 }).ldg :=
  State.ldg_noteSpares _ _

/-- It takes that spare line, and records its event; the other groups, and the devices, stay. -/
theorem State.retireLine_spec (works : (s.lgroup (line % 256)).failed = false)
    (spare : (s.lgroup (line % 256)).sparesUsed < groupSpares) :
    ((s.retireLine line).lgroup (line % 256)).sparesUsed = (s.lgroup (line % 256)).sparesUsed + 1 ∧
      (∀ g, g ≠ line % 256 → (s.retireLine line).lgroup g = s.lgroup g) ∧
      (∀ dev, (s.retireLine line).deviceWorks dev = s.deviceWorks dev) ∧
      ∃ e ∈ (s.retireLine line).flt.raised, e.src = 513 := by
  obtain ⟨m, b, retired⟩ := State.retireLine_spare works spare
  rw [retired]
  refine ⟨?_, fun g other => ?_, fun dev => ?_, ⟨513, b⟩, by simp, rfl⟩
  · rw [State.lgroup_raise, State.lgroup_onLgroup_self, State.lgroup_of_ldg (s.ldg_takeSpare _),
      State.lgroup_onLgroup_self]
  · rw [State.lgroup_raise, State.lgroup_onLgroup_of_ne _ other, State.lgroup_of_ldg (s.ldg_takeSpare _),
      State.lgroup_onLgroup_of_ne _ other]
  · rw [State.deviceWorks_raise, State.deviceWorks_onLgroup, State.deviceWorks_of_ldg (s.ldg_takeSpare _),
      State.deviceWorks_onLgroup]

/-- A third failed write-verify: the write counts, and the line is retired (R340). -/
theorem State.putCopy_of_le (key : Nat) (failed : 3 ≤ fails) :
    s.putCopy line key fails = ((s.swatchWrite 2 key).countGroup (line % 256) 1).retireLine line := if_pos failed

theorem State.lgroup_counted (key : Nat) : ((s.swatchWrite 2 key).countGroup (line % 256) 1).lgroup (line % 256)
    = { s.lgroup (line % 256) with
      writes := (s.lgroup (line % 256)).writes + 1, sinceMove := (s.lgroup (line % 256)).sinceMove + 1 } := by
  rw [State.countGroup, State.lgroup_onLgroup_self, State.lgroup_swatchWrite]

theorem State.lgroup_counted_of_ne (key : Nat) (other : g ≠ line % 256) :
    ((s.swatchWrite 2 key).countGroup (line % 256) 1).lgroup g = s.lgroup g := by
  rw [State.countGroup, State.lgroup_onLgroup_of_ne _ other, State.lgroup_swatchWrite]

theorem State.deviceWorks_counted (key dev : Nat) :
    ((s.swatchWrite 2 key).countGroup (line % 256) 1).deviceWorks dev = s.deviceWorks dev :=
  State.deviceWorks_swatchWrite 2 key dev

/-- A copy that is retired for a spare line. -/
theorem State.putCopy_retired (key : Nat) (failed : 3 ≤ fails) (works : (s.lgroup (line % 256)).failed = false)
    (spare : (s.lgroup (line % 256)).sparesUsed < groupSpares) :
    ((s.putCopy line key fails).lgroup (line % 256)).sparesUsed = (s.lgroup (line % 256)).sparesUsed + 1 ∧
      (∀ g, g ≠ line % 256 → (s.putCopy line key fails).lgroup g = s.lgroup g) ∧
      (∀ dev, (s.putCopy line key fails).deviceWorks dev = s.deviceWorks dev) ∧
      ∃ e ∈ (s.putCopy line key fails).flt.raised, e.src = 513 := by
  have same := s.lgroup_counted (line := line) key
  rw [State.putCopy_of_le key failed]
  obtain ⟨used, others, devices, event⟩ := State.retireLine_spec (s := (s.swatchWrite 2 key).countGroup (line % 256) 1)
    (line := line) (by rw [same]; exact works) (by rw [same]; exact spare)
  exact ⟨by rw [used, same], fun g other => (others g other).trans (State.lgroup_counted_of_ne key other),
    fun dev => (devices dev).trans (State.deviceWorks_counted key dev), event⟩

@[simp] theorem State.lgroup_storeLine (a : Nat) (raw : Bytes × Bytes) : (s.storeLine a raw).lgroup g = s.lgroup g := rfl

/-- Whether a copy can be written rests on its group and its device. -/
theorem State.copyOpen_of_group (group : t.lgroup (line % 256) = s.lgroup (line % 256)) {dev : Nat}
    (device : t.deviceWorks dev = s.deviceWorks dev) : t.copyOpen line dev = s.copyOpen line dev := by
  rw [State.copyOpen, State.copyOpen, State.lineStuck, State.lineStuck, group, device]

/-- The write of copy A leaves copy B as it was. -/
theorem PairOpen.copyB_after (h : PairOpen s line) (raw : Bytes × Bytes)
    (others : ∀ g, g ≠ copyAOf line % 256 →
      ((s.storeLine (copyAOf line) raw).putCopy (copyAOf line) (copyAOf line) failsA).lgroup g = s.lgroup g)
    (devices : ∀ dev, ((s.storeLine (copyAOf line) raw).putCopy (copyAOf line) (copyAOf line) failsA).deviceWorks dev
      = s.deviceWorks dev) :
    ((s.storeLine (copyAOf line) raw).putCopy (copyAOf line) (copyAOf line) failsA).copyOpen (copyAOf line + 128) 1
      = true :=
  (State.copyOpen_of_group (others _ (copyB_group_ne _)) (devices 1)).trans h.copyB

theorem PairOpen.lineOpen (h : PairOpen s line) : s.lineOpen (copyAOf line) = true := by
  simp [State.lineOpen, h.paired, h.copyA]

/-- The segment that a line completes, if any, is durable with it. -/
def State.completeSeg (s : State) : Option DurRef → Option (Bytes × Bytes) → State
  | some r, some _ => s.makeDurable r.cmd r.seg
  | _, _ => s

/-- The write of a pair whose copies can be written: the bytes are those of the segment that the line completes, if any. -/
theorem exec_ledgerLineWrite_pair (h : PairOpen s line) (sent : (ref.map s.lineSent).getD true = true)
    (bytes : (ref.bind fun r => s.durLine r (copyAOf line)).getD (padTo 64 data, padTo 64 data) = raw)
    (copyB : ((s.storeLine (copyAOf line) raw).putCopy (copyAOf line) (copyAOf line) failsA).copyOpen
      (copyAOf line + 128) 1 = true) :
    exec (.ledgerLineWrite line data failsA failsB ref) s
      = .next ((s.putPair (copyAOf line) raw failsA failsB).completeSeg ref
        (ref.bind fun r => s.durLine r (copyAOf line))) := by
  have may : (s.ledgerOpen && decide (line < ledgerLinesTotal) && s.lineOpen (copyAOf line)
      && (ref.map s.lineSent).getD true) = true := by simp [h.opened, h.named, h.lineOpen, sent]
  have takesA : (singleCopy (copyAOf line) || (s.storeLine (copyAOf line) raw).copyOpen (copyAOf line) 0) = true := by
    rw [Bool.or_eq_true]
    exact .inr h.copyA
  have takesB : (!singleCopy (copyAOf line) && ((s.storeLine (copyAOf line) raw).putCopy (copyAOf line) (copyAOf line)
      failsA).copyOpen (copyAOf line + 128) 1) = true := by rw [h.paired, copyB]; rfl
  show execLedgerLineWrite line data failsA failsB ref s = _
  unfold execLedgerLineWrite guardStep
  simp only [may, if_true, bytes]
  congr 1
  unfold State.storeLine at takesA
  unfold State.storeLine State.putCopy at takesB
  rw [if_pos takesA, if_pos takesB]
  rfl

/-- Writes of a pair that succeed in time. -/
theorem State.putPair_of_lt (a : Nat) (raw : Bytes × Bytes) (fewA : failsA < 3) (fewB : failsB < 3) :
    s.putPair a raw failsA failsB = ((((s.storeLine a raw).swatchWrite 2 a).countGroup (a % 256) 1).swatchWrite 2
      (a + 2 ^ 63)).countGroup ((a + 128) % 256) 1 := by
  rw [State.putPair, State.putCopy_of_lt a fewA, State.putCopy_of_lt _ fewB]

/-- They store the bytes in both copies. -/
theorem State.lines_putPair (a : Nat) (raw : Bytes × Bytes) (fewA : failsA < 3) (fewB : failsB < 3) :
    (s.putPair a raw failsA failsB).ldg.lines = (s.storeLine a raw).ldg.lines := by
  rw [State.putPair_of_lt a raw fewA fewB]
  simp [State.countGroup, State.onLgroup]

/-- They count in both groups (R337). -/
theorem State.lgroup_putPair (a : Nat) (raw : Bytes × Bytes) (fewA : failsA < 3) (fewB : failsB < 3) (g : Nat) :
    (s.putPair a raw failsA failsB).lgroup g = if g = a % 256 ∨ g = (a + 128) % 256 then
      { s.lgroup g with
        writes := (s.lgroup g).writes + 1, sinceMove := (s.lgroup g).sinceMove + 1 } else s.lgroup g := by
  have apart := copyB_group_ne a
  rw [State.putPair_of_lt a raw fewA fewB]
  by_cases copyB : g = (a + 128) % 256
  · subst copyB
    rw [State.lgroup_counted, State.lgroup_counted_of_ne _ apart, State.lgroup_storeLine, if_pos (.inr rfl)]
  · rw [State.lgroup_counted_of_ne _ copyB]
    by_cases copyA : g = a % 256
    · subst copyA
      rw [State.lgroup_counted, State.lgroup_storeLine, if_pos (.inl rfl)]
    · rw [State.lgroup_counted_of_ne _ copyA, State.lgroup_storeLine, if_neg (by simp [copyA, copyB])]

/-- With no swatch armed, a write leaves its place without a mark. -/
theorem State.swatchWrite_unarmed (unarmed : s.fld Reg.FLT_SWATCH_CTL_ARM = 0) (target addr : Nat) :
    s.swatchWrite target addr = s.onFlt fun f => { f with
      swatched := f.swatched.filter (fun e => !(e.1 = target && decide (e.2.1 = addr))) ++ [] } := by
  rw [State.swatchWrite, State.swatch_unarmed unarmed]

theorem State.putPair_onlyChanges (unarmed : s.fld Reg.FLT_SWATCH_CTL_ARM = 0) (a : Nat) (raw : Bytes × Bytes)
    (fewA : failsA < 3) (fewB : failsB < 3) : OnlyChanges [.ldg, .flt] s (s.putPair a raw failsA failsB) := by
  rw [State.putPair_of_lt a raw fewA fewB,
    State.swatchWrite_unarmed (s := ((s.storeLine a raw).swatchWrite 2 a).countGroup (a % 256) 1),
    State.swatchWrite_unarmed (s := s.storeLine a raw) unarmed]
  · exact (keeps_countGroup _ _ (keeps_onFlt _ (keeps_countGroup _ _ (keeps_onFlt _ (keeps_onLdg _ (Keeps.refl _ s)
      (by simp)) (by simp)) (by simp)) (by simp)) (by simp)).onlyChanges
  · rw [State.swatchWrite_unarmed (s := s.storeLine a raw) unarmed]
    exact unarmed

/-- The stored bytes of a line: one of zeros is not listed. -/
theorem State.tget_storeLine (wf : Tbl.wf s.ldg.lines = true) (a : Nat) (raw : Bytes × Bytes) :
    tget (s.storeLine a raw).ldg.lines a = (if allZero raw.1 && allZero raw.2 then none else some raw) ∧
      ∀ x, x ≠ a → tget (s.storeLine a raw).ldg.lines x = tget s.ldg.lines x := by
  simp only [State.storeLine, State.onLdg_ldg]
  split
  · exact ⟨tget_tdel_self _ _ wf, fun x other => tget_tdel_of_ne _ _ _ other⟩
  · exact ⟨tget_tset_self _ _ _, fun x other => tget_tset_of_ne _ _ _ _ other⟩

/-- A segment that is being written is durable with its line (R183). -/
theorem State.makeDurable_writing {n i : Nat} {c : Cmd} {w : Seg} (found : s.cmd? n = some c)
    (writing : tget c.work i = some (.writing w)) :
    (s.makeDurable n i).ldg = s.ldg ∧
      ∃ c', (s.makeDurable n i).cmd? n = some c' ∧ tget c'.work i = some (.durable w) := by
  have set : (s.setWork n i (.durable w)).cmd? n = some { c with work := tset c.work i (.durable w) } :=
    State.cmd?_onCmd_self _ found
  simp only [State.makeDurable, found, writing]
  refine ⟨rfl, _, State.cmd?_onCmd_self _ set, ?_⟩
  split <;> exact tget_tset_self _ _ _


/-- Both copies of a line are open where both devices work and neither copy is stuck. -/
theorem pairOpen_of_works (ready : s.ldg.ready = true) (named : line < ledgerLinesTotal) (running : s.pwr.takeover = false)
    (awake : s.blockInReset .ldg = false) (dev0 : s.ldg.dev0Failed = false) (dev1 : s.ldg.dev1Failed = false)
    (paired : singleCopy (copyAOf line) = false) (freeA : s.lineStuck (copyAOf line) = false)
    (freeB : s.lineStuck (copyAOf line + 128) = false) : PairOpen s line where
  opened := by simp [State.ledgerOpen, ready, running, awake]
  named := named
  paired := paired
  copyA := by simp [State.copyOpen, State.deviceWorks, dev0, freeA]
  copyB := by simp [State.copyOpen, State.deviceWorks, dev1, freeB]

/-- Copy B is open after the write of a copy A that counts or is retired. -/
theorem PairOpen.copyB_of_lt (h : PairOpen s line) (raw : Bytes × Bytes) (few : failsA < 3) :
    ((s.storeLine (copyAOf line) raw).putCopy (copyAOf line) (copyAOf line) failsA).copyOpen (copyAOf line + 128) 1
      = true := by
  refine h.copyB_after raw (fun g other => ?_) fun dev => ?_ <;> rw [State.putCopy_of_lt _ few]
  · exact State.lgroup_counted_of_ne _ other
  · exact State.deviceWorks_counted _ dev

theorem PairOpen.write_plain (h : PairOpen s line) (unarmed : s.fld Reg.FLT_SWATCH_CTL_ARM = 0)
    (wf : Tbl.wf s.ldg.lines = true) (fewA : failsA < 3) (fewB : failsB < 3) :
    ∃ t, exec (.ledgerLineWrite line data failsA failsB none) s = .next t ∧
      tget t.ldg.lines (copyAOf line) = (if allZero (padTo 64 data) then none else some (padTo 64 data, padTo 64 data)) ∧
      (∀ x, x ≠ copyAOf line → tget t.ldg.lines x = tget s.ldg.lines x) ∧
      (∀ g, t.lgroup g = if g = copyAOf line % 256 ∨ g = (copyAOf line + 128) % 256 then
        { s.lgroup g with
          writes := (s.lgroup g).writes + 1, sinceMove := (s.lgroup g).sinceMove + 1 } else s.lgroup g) ∧
      OnlyChanges [.ldg, .flt] s t := by
  obtain ⟨stored, others⟩ := State.tget_storeLine wf (copyAOf line) (padTo 64 data, padTo 64 data)
  have lines := State.lines_putPair (s := s) (copyAOf line) (padTo 64 data, padTo 64 data) fewA fewB
  rw [← lines] at stored others
  rw [Bool.and_self] at stored
  exact ⟨s.putPair _ _ failsA failsB, exec_ledgerLineWrite_pair h rfl rfl (h.copyB_of_lt _ fewA), stored, others,
    State.lgroup_putPair _ _ fewA fewB, State.putPair_onlyChanges unarmed _ _ fewA fewB⟩

/-- What happened is kept by a write that counts. -/
theorem State.raised_putCopy_of_lt {key : Nat} (few : fails < 3) {e : Ev} (h : e ∈ s.flt.raised) :
    e ∈ (s.putCopy line key fails).flt.raised := by
  rw [State.putCopy_of_lt key few]
  exact (raised_swatchWrite 2 key).subset h

theorem PairOpen.write_retires (h : PairOpen s line) (failedA : 3 ≤ failsA) (fewB : failsB < 3)
    (works : (s.lgroup (copyAOf line % 256)).failed = false)
    (spare : (s.lgroup (copyAOf line % 256)).sparesUsed < groupSpares) :
    ∃ (t : State) (e : Ev), exec (.ledgerLineWrite line data failsA failsB none) s = .next t ∧ e ∈ t.flt.raised ∧
      e.src = 513 ∧
      (t.lgroup (copyAOf line % 256)).sparesUsed = (s.lgroup (copyAOf line % 256)).sparesUsed + 1 := by
  obtain ⟨used, others, devices, e, happened, code⟩ := State.putCopy_retired
    (s := s.storeLine (copyAOf line) (padTo 64 data, padTo 64 data)) (copyAOf line) failedA works spare
  refine ⟨s.putPair (copyAOf line) (padTo 64 data, padTo 64 data) failsA failsB, e,
    exec_ledgerLineWrite_pair h rfl rfl (h.copyB_after _ others devices),
    State.raised_putCopy_of_lt fewB happened, code, ?_⟩
  have apart := (copyB_group_ne (copyAOf line)).symm
  rw [State.putPair, State.putCopy_of_lt _ fewB, State.lgroup_counted_of_ne _ apart, used, State.lgroup_storeLine]

theorem PairOpen.write_durable {r : DurRef} {c : Cmd} {w : Seg} (h : PairOpen s line) (wf : Tbl.wf s.ldg.lines = true)
    (found : s.durLine r (copyAOf line) = some raw) (cmd : s.cmd? r.cmd = some c)
    (writing : tget c.work r.seg = some (.writing w)) (sent : s.lineSent r = true)
    (unarmed : s.fld Reg.FLT_SWATCH_CTL_ARM = 0) (fewA : failsA < 3)
    (fewB : failsB < 3) :
    ∃ t c', exec (.ledgerLineWrite line data failsA failsB (some r)) s = .next t ∧
      tget t.ldg.lines (copyAOf line) = (if allZero raw.1 && allZero raw.2 then none else some raw) ∧
      t.cmd? r.cmd = some c' ∧ tget c'.work r.seg = some (.durable w) := by
  have kept : (s.putPair (copyAOf line) raw failsA failsB).cmd? r.cmd = some c := by
    have sch : (s.putPair (copyAOf line) raw failsA failsB).sch = s.sch :=
      State.putPair_onlyChanges unarmed _ _ fewA fewB .sch (by simp)
    rw [State.cmd?, sch]
    exact cmd
  obtain ⟨ldg, c', cmd', durable⟩ := State.makeDurable_writing kept writing
  have step := exec_ledgerLineWrite_pair (data := data) (failsB := failsB) (ref := some r) h sent
    (by rw [Option.bind_some, found]; rfl) (h.copyB_of_lt raw fewA)
  rw [Option.bind_some, found] at step
  refine ⟨_, c', step, ?_, cmd', durable⟩
  rw [State.completeSeg, ldg, State.lines_putPair _ raw fewA fewB]
  exact (State.tget_storeLine wf _ raw).1

end

/-! ## GAP_MOVE (R330, R337, R339) -/

section
variable {s : State} {group : Nat}

/-- Recording a state line moves no gap. -/
theorem LGroup.record_frame (x : LGroup) :
    x.record.gap = x.gap ∧ x.record.start = x.start ∧ x.record.marker = x.marker := by
  unfold LGroup.record
  split <;> exact ⟨rfl, rfl, rfl⟩

/-- One step of start-gap: the gap moves down one line with its marker, and wraps with START. -/
theorem LGroup.step_spec (x : LGroup) : x.step.marker = x.step.gap ∧
    (x.gap = 0 → x.step.gap = 250880 ∧ x.step.start = (x.start + 1) % 250880) ∧
    (x.gap ≠ 0 → x.step.gap = x.gap - 1 ∧ x.step.start = x.start) := by
  unfold LGroup.step
  dsimp only
  rw [(LGroup.record_frame _).1, (LGroup.record_frame _).2.1, (LGroup.record_frame _).2.2]
  by_cases low : x.gap = 0
  · simp [low]
  · simp [low]

theorem exec_gapMove (opened : s.ledgerOpen = true) (named : group < 256) (works : (s.lgroup group).failed = false)
    (due : s.gapInterval ≤ (s.lgroup group).sinceMove) : exec (.gapMove group) s
      = .next (s.onLgroup group fun x => { x.step with sinceMove := x.sinceMove - s.gapInterval }) := by
  show execGapMove group s = _
  simp [execGapMove, guardStep, opened, named, works, due]

theorem exec_gapMove_not_due (early : s.ledgerOpen = false ∨ (s.lgroup group).failed = true ∨
    (s.lgroup group).sinceMove < s.gapInterval) : exec (.gapMove group) s = .next s := by
  show execGapMove group s = _
  obtain h | h | h := early <;> simp [execGapMove, guardStep, h]

theorem exec_gapMove_spec (opened : s.ledgerOpen = true) (named : group < 256)
    (works : (s.lgroup group).failed = false) (due : s.gapInterval ≤ (s.lgroup group).sinceMove) :
    ∃ t, exec (.gapMove group) s = .next t ∧
      (t.lgroup group).sinceMove = (s.lgroup group).sinceMove - s.gapInterval ∧
      (t.lgroup group).marker = (t.lgroup group).gap ∧
      ((s.lgroup group).gap = 0 → (t.lgroup group).gap = 250880 ∧
        (t.lgroup group).start = ((s.lgroup group).start + 1) % 250880) ∧
      ((s.lgroup group).gap ≠ 0 → (t.lgroup group).gap = (s.lgroup group).gap - 1 ∧
        (t.lgroup group).start = (s.lgroup group).start) ∧
      (∀ g, g ≠ group → t.lgroup g = s.lgroup g) ∧ OnlyChanges [.ldg] s t := by
  obtain ⟨marker, wraps, moves⟩ := (s.lgroup group).step_spec
  refine ⟨_, exec_gapMove opened named works due, ?_⟩
  rw [State.lgroup_onLgroup_self]
  exact ⟨rfl, marker, wraps, moves, fun g other => State.lgroup_onLgroup_of_ne _ other,
    (keeps_onLgroup _ _ (Keeps.refl _ s) (by simp)).onlyChanges⟩

end

/-! ## GAUGE_REFILL (R342, R345) -/

section
variable {s : State}

theorem exec_gaugeRefill (ready : s.ldg.ready = true) (below : s.ldg.level < 2 ^ 32) : exec .gaugeRefill s
    = .next ((s.onLdg fun l => { l with level := l.level + 1 }).serveMeta s.ldg.metaQueue.length) := by
  have room : decide (s.ldg.level < gaugeMax) = true := decide_eq_true below
  show execGaugeRefill s = _
  simp only [execGaugeRefill, guardStep, ready, room, Bool.and_self, if_true]

theorem exec_gaugeRefill_full (full : s.ldg.ready = false ∨ 2 ^ 32 ≤ s.ldg.level) : exec .gaugeRefill s = .next s := by
  show execGaugeRefill s = _
  have closed : ¬ (s.ldg.ready && decide (s.ldg.level < gaugeMax)) = true := by
    rw [Bool.and_eq_true, decide_eq_true_iff]
    rintro ⟨ready, room⟩
    obtain h | h := full
    · exact absurd ready (by simp [h])
    · exact Nat.not_lt.mpr h room
  simp only [execGaugeRefill, guardStep, if_neg closed]

theorem exec_gaugeRefill_idle (ready : s.ldg.ready = true) (below : s.ldg.level < 2 ^ 32) (idle : s.ldg.metaQueue = []) :
    ∃ t, exec .gaugeRefill s = .next t ∧ t.ldg = { s.ldg with level := s.ldg.level + 1 } ∧ OnlyChanges [.ldg] s t := by
  refine ⟨_, exec_gaugeRefill ready below, ?_⟩
  rw [idle, List.length_nil, State.serveMeta]
  exact ⟨rfl, (keeps_onLdg _ (Keeps.refl _ s) (by simp)).onlyChanges⟩

/-- Lowering the gauge touches nothing else of LDG. -/
theorem State.ldg_lowerGauge (s : State) (n : Nat) : (s.lowerGauge n).ldg = { s.ldg with level := s.ldg.level - n } :=
  (apply_ite (fun t : State => t.ldg) _ _ _).trans (ite_self _)

theorem State.sch_lowerGauge (s : State) (n : Nat) : (s.lowerGauge n).sch = s.sch :=
  (keeps_lowerGauge (r := (· ≠ .sch)) n (Keeps.refl _ s) (by simp) (by simp)).same .sch (by simp)

theorem State.ldg_giveTokens (n cmd : Nat) : (s.giveTokens n (some cmd)).ldg = s.ldg := rfl

theorem State.cmd?_giveTokens {n cmd : Nat} {c : Cmd} (found : s.cmd? cmd = some c) :
    (s.giveTokens n (some cmd)).cmd? cmd = some { c with tokens := c.tokens + n } := tget_tmod_self _ found

/-- The tokens that the one waiting command gets. -/
theorem State.serveMeta_one {n cmd : Nat} {c : Cmd} (waits : s.ldg.metaQueue = [(n, some cmd)]) (covers : n ≤ s.ldg.level)
    (found : s.cmd? cmd = some c) :
    (s.serveMeta 1).ldg.metaQueue = [] ∧ (s.serveMeta 1).ldg.level = s.ldg.level - n ∧
      (s.serveMeta 1).cmd? cmd = some { c with tokens := c.tokens + n } := by
  have served : s.serveMeta 1
      = ((s.onLdg fun l => { l with metaQueue := [] }).lowerGauge n).giveTokens n (some cmd) := by
    simp only [State.serveMeta, waits, covers, if_true]
  have found' : ((s.onLdg fun l => { l with metaQueue := [] }).lowerGauge n).cmd? cmd = some c := by
    rw [State.cmd?, State.sch_lowerGauge]
    exact found
  rw [served, State.ldg_giveTokens, State.ldg_lowerGauge]
  exact ⟨rfl, rfl, State.cmd?_giveTokens found'⟩

theorem exec_gaugeRefill_serves {n cmd : Nat} {c : Cmd} (ready : s.ldg.ready = true) (below : s.ldg.level < 2 ^ 32)
    (waits : s.ldg.metaQueue = [(n, some cmd)]) (covers : n ≤ s.ldg.level + 1) (found : s.cmd? cmd = some c) :
    ∃ t, exec .gaugeRefill s = .next t ∧ t.ldg.metaQueue = [] ∧ t.ldg.level = s.ldg.level + 1 - n ∧
      t.cmd? cmd = some { c with tokens := c.tokens + n } := by
  refine ⟨_, exec_gaugeRefill ready below, ?_⟩
  rw [waits, List.length_singleton]
  exact State.serveMeta_one waits covers found

end

/-! ## USAGE_CHECKPOINT (R606) -/

section
variable {s : State}

/-- What LDG keeps after the usage checkpoint is written. -/
theorem State.kept_checkpointUsage (s : State) : s.checkpointUsage.ldg.kept
    = { s.ldg.kept with usageCkpt := (s.ldg.kept.nextJseq - 1, s.sch.usage) } := by
  rw [State.checkpointUsage, State.kept_keepMeta]
  rfl

theorem State.sch_checkpointUsage (s : State) : s.checkpointUsage.sch = s.sch :=
  (keeps_checkpointUsage (r := (· ≠ .sch)) (Keeps.refl _ s) (by simp) (by simp) (by simp)).same .sch (by simp)

theorem exec_usageCheckpoint_changed (ready : s.ldg.ready = true) (awake : s.blockInReset .sch = false)
    (changed : s.ldg.kept.usageCkpt.2 ≠ s.sch.usage) : exec .usageCheckpoint s = .next s.checkpointUsage := by
  show execUsageCheckpoint s = _
  simp [execUsageCheckpoint, guardStep, ready, awake, changed]

theorem exec_usageCheckpoint_unchanged (same : s.ldg.kept.usageCkpt.2 = s.sch.usage) :
    exec .usageCheckpoint s = .next s := by
  show execUsageCheckpoint s = _
  simp [execUsageCheckpoint, guardStep, same]

theorem exec_usageCheckpoint_spec (ready : s.ldg.ready = true) (awake : s.blockInReset .sch = false)
    (changed : s.ldg.kept.usageCkpt.2 ≠ s.sch.usage) :
    ∃ t, exec .usageCheckpoint s = .next t ∧ t.ldg.kept.usageCkpt = (s.ldg.kept.nextJseq - 1, s.sch.usage) ∧
      t.ldg.kept.journal = s.ldg.kept.journal ∧ t.sch = s.sch :=
  ⟨_, exec_usageCheckpoint_changed ready awake changed, congrArg (·.usageCkpt) s.kept_checkpointUsage,
    congrArg (·.journal) s.kept_checkpointUsage, s.sch_checkpointUsage⟩

end

/-! ## What operations never undo -/

/-- What holds of `o` and no operation below a directive takes back: the events raised, the groups and devices that have
failed, the recorder lines lost, REC's fallback, and the checkpoints that LDG keeps. -/
structure Persists (o s : State) : Prop where
  raised : o.flt.raised <+: s.flt.raised
  failed : ∀ g, (o.lgroup g).failed = true → (s.lgroup g).failed = true
  device : ∀ d, o.deviceWorks d = false → s.deviceWorks d = false
  unrecorded : ∀ row, tget o.recorder.lines row = none → tget s.recorder.lines row = none
  fallback : o.recorder.fallback.isSome = true → s.recorder.fallback.isSome = true
  usage : s.ldg.kept.usageCkpt = o.ldg.kept.usageCkpt
  pieces : ∀ p, (tget o.ldg.kept.pieces p).isSome = true → (tget s.ldg.kept.pieces p).isSome = true

/-- The parts that hold none of it. -/
abbrev Elsewhere (p : Part) : Prop := p ∉ [Part.ldg, .flt, .recorder]

section
variable {o s t : State} {α : Type}

theorem Persists.refl (s : State) : Persists s s :=
  ⟨List.prefix_rfl, fun _ => id, fun _ => id, fun _ => id, id, rfl, fun _ => id⟩

theorem Persists.trans (h : Persists o s) (k : Persists s t) : Persists o t where
  raised := h.raised.trans k.raised
  failed g := k.failed g ∘ h.failed g
  device d := k.device d ∘ h.device d
  unrecorded row := k.unrecorded row ∘ h.unrecorded row
  fallback := k.fallback ∘ h.fallback
  usage := k.usage.trans h.usage
  pieces p := k.pieces p ∘ h.pieces p

/-- An operation that touches none of these parts. -/
theorem Persists.of_same (h : Persists o s) (ldg : t.ldg = s.ldg) (flt : t.flt = s.flt)
    (recorder : t.recorder = s.recorder) : Persists o t := by
  refine h.trans ⟨raised_of_flt flt, ?_, ?_, ?_, ?_, ?_, ?_⟩ <;>
    simp only [State.lgroup_of_ldg ldg, State.deviceWorks_of_ldg ldg, recorder, ldg, imp_self, implies_true]

theorem Persists.elsewhere (h : Persists o s) (k : Keeps Elsewhere s t) : Persists o t :=
  h.of_same (k.same .ldg (by simp)) (k.same .flt (by simp)) (k.same .recorder (by simp))

/-- A change of LDG that keeps its groups, its devices and the checkpoints. -/
theorem persists_onLdg (f : Ldg → Ldg) (h : Persists o s) (groups : (f s.ldg).groups = s.ldg.groups)
    (dev0 : (f s.ldg).dev0Failed = s.ldg.dev0Failed) (dev1 : (f s.ldg).dev1Failed = s.ldg.dev1Failed)
    (usage : (f s.ldg).kept.usageCkpt = s.ldg.kept.usageCkpt) (pieces : (f s.ldg).kept.pieces = s.ldg.kept.pieces) :
    Persists o (s.onLdg f) := by
  refine h.trans ⟨List.prefix_rfl, ?_, ?_, fun _ => id, id, usage, ?_⟩
  · simp [State.lgroup, groups]
  · simp [State.deviceWorks, dev0, dev1]
  · simp [pieces]

/-- A change of a group that does not mend it. -/
theorem persists_onLgroup (g : Nat) (f : LGroup → LGroup)
    (failed : (s.lgroup g).failed = true → (f (s.lgroup g)).failed = true) (h : Persists o s) :
    Persists o (s.onLgroup g f) := by
  refine h.trans ⟨List.prefix_rfl, fun x was => ?_, fun _ => id, fun _ => id, id, rfl, fun _ => id⟩
  by_cases same : x = g
  · subst same
    rw [State.lgroup_onLgroup_self]
    exact failed was
  · rwa [State.lgroup_onLgroup_of_ne _ same]

/-- A change of FLT that clears no event. -/
theorem persists_onFlt (f : Flt → Flt) (h : Persists o s) (raised : s.flt.raised <+: (f s.flt).raised) :
    Persists o (s.onFlt f) :=
  h.trans ⟨raised, fun _ => id, fun _ => id, fun _ => id, id, rfl, fun _ => id⟩

theorem persists_raise (src : Nat) (b : Bytes) (h : Persists o s) : Persists o (s.raise src b) :=
  persists_onFlt _ h (List.prefix_append _ _)

/-- A change of REC that records no line and does not leave fallback. -/
theorem persists_onRec (f : Recorder → Recorder) (h : Persists o s)
    (lines : ∀ row, tget s.recorder.lines row = none → tget (f s.recorder).lines row = none)
    (fallback : s.recorder.fallback.isSome = true → (f s.recorder).fallback.isSome = true) : Persists o (s.onRec f) :=
  h.trans ⟨List.prefix_rfl, fun _ => id, fun _ => id, lines, fallback, rfl, fun _ => id⟩

theorem persists_foldl (f : State → α → State) (step : ∀ s a, Persists o s → Persists o (f s a)) (l : List α)
    (h : Persists o s) : Persists o (l.foldl f s) := by
  induction l generalizing s with
  | nil => exact h
  | cons a l ih => exact ih (step s a h)

theorem persists_ite {p : Prop} [Decidable p] (then_ : Persists o s) (else_ : Persists o t) :
    Persists o (if p then s else t) := by
  split
  · exact then_
  · exact else_

/-- An operation that is done or left out. -/
theorem persists_if {p : Prop} [Decidable p] (h : Persists o s) (step : Persists o s → Persists o t) :
    Persists o (if p then t else s) := persists_ite (step h) h

theorem persists_unless {p : Prop} [Decidable p] (h : Persists o s) (step : Persists o s → Persists o t) :
    Persists o (if p then s else t) := persists_ite h (step h)

theorem persists_onNfe (f : Nfe → Nfe) (h : Persists o s) : Persists o (s.onNfe f) := h.of_same rfl rfl rfl
theorem persists_onSch (f : Sch → Sch) (h : Persists o s) : Persists o (s.onSch f) := h.of_same rfl rfl rfl
theorem persists_onIdx (f : Idx → Idx) (h : Persists o s) : Persists o (s.onIdx f) := h.of_same rfl rfl rfl
theorem persists_onVal (f : Val → Val) (h : Persists o s) : Persists o (s.onVal f) := h.of_same rfl rfl rfl
theorem persists_onCip (f : Cip → Cip) (h : Persists o s) : Persists o (s.onCip f) := h.of_same rfl rfl rfl
theorem persists_onFtl (f : Ftl → Ftl) (h : Persists o s) : Persists o (s.onFtl f) := h.of_same rfl rfl rfl
theorem persists_onPeer (f : PeerSt → PeerSt) (h : Persists o s) : Persists o (s.onPeer f) := h.of_same rfl rfl rfl
theorem persists_onRst (f : Rst → Rst) (h : Persists o s) : Persists o (s.onRst f) := h.of_same rfl rfl rfl
theorem persists_markPiece (p : Nat) (h : Persists o s) : Persists o (s.markPiece p) := h.of_same rfl rfl rfl
theorem persists_send (t : Tx) (h : Persists o s) : Persists o (s.send t) := h.of_same rfl rfl rfl
theorem persists_setFld (f : Field) (v : Nat) (h : Persists o s) : Persists o (s.setFld f v) := h.of_same rfl rfl rfl
theorem persists_bump (f : Field) (n : Nat) (h : Persists o s) : Persists o (s.bump f n) := h.of_same rfl rfl rfl

/-! ### The gauge, the groups and the journal -/

theorem persists_lowerGauge (n : Nat) (h : Persists o s) : Persists o (s.lowerGauge n) :=
  persists_if (persists_onLdg _ h rfl rfl rfl rfl rfl) (persists_raise _ _)

theorem persists_queueMeta (n : Nat) (cmd : Option Nat) (h : Persists o s) : Persists o (s.queueMeta n cmd) :=
  persists_bump _ _ (persists_onLdg _ h rfl rfl rfl rfl rfl)

theorem persists_drawMeta (n : Nat) (h : Persists o s) : Persists o (s.drawMeta n) :=
  persists_ite (persists_lowerGauge n h) (persists_queueMeta n none h)

theorem persists_drawAlways (n : Nat) (h : Persists o s) : Persists o (s.drawAlways n) :=
  persists_unless (persists_lowerGauge _ h) (persists_bump _ _)

theorem persists_countGroup (g n : Nat) (h : Persists o s) : Persists o (s.countGroup g n) :=
  persists_onLgroup g _ id h

theorem persists_countPairs (k n : Nat) (h : Persists o s) : Persists o (s.countPairs k n) :=
  persists_foldl _ (fun _ _ h => persists_if (persists_if h (persists_countGroup _ _)) (persists_countGroup _ _)) _ h

theorem persists_keepMeta (object n lines : Nat) (h : Persists o s) : Persists o (s.keepMeta object n lines) :=
  persists_countPairs _ _ (persists_drawMeta _ h)

theorem persists_keepSecure (object n : Nat) (h : Persists o s) : Persists o (s.keepSecure object n) :=
  persists_countPairs _ _ (persists_drawAlways _ h)

theorem persists_journal (j : JLine) (h : Persists o s) : Persists o (s.journal j) :=
  persists_countPairs _ _ (persists_onLdg _ (persists_onLdg _ h rfl rfl rfl rfl rfl) rfl rfl rfl rfl rfl)

theorem persists_journalMap (kind target : Nat) (b : Bytes) (h : Persists o s) : Persists o (s.journalMap kind target b) :=
  persists_drawMeta _ (persists_journal _ h)

theorem persists_journalStitches (skein : Nat) (stitches : List Nat) (h : Persists o s) :
    Persists o (s.journalStitches skein stitches) :=
  persists_foldl _ (fun _ _ => persists_journalMap _ _ _) _ h

/-! ### Skeins and lines given up -/

theorem persists_freeLines (line : Nat) (h : Persists o s) : Persists o (s.freeLines line) := by
  unfold State.freeLines
  refine persists_onLdg _ h ?_ ?_ ?_ ?_ ?_ <;> split <;> rfl

theorem persists_freeSkein (k : Nat) (h : Persists o s) : Persists o (s.freeSkein k) := by
  unfold State.freeSkein
  split
  · exact h
  · exact persists_ite (persists_journalMap _ _ _ (h.of_same rfl rfl rfl)) h

theorem persists_subLive (skein byte units : Nat) (h : Persists o s) : Persists o (s.subLive skein byte units) := by
  unfold State.subLive
  split
  · exact h
  · exact persists_freeSkein _ (persists_unless
      (persists_markPiece _ (persists_if (persists_onFtl _ h) (persists_markPiece _))) (persists_journalStitches _ _))

theorem persists_releaseLoc (loc : Loc) (h : Persists o s) : Persists o (s.releaseLoc loc) := by
  cases loc with
  | ledger line => exact persists_freeLines line h
  | flash skein byte units => exact persists_if (persists_subLive _ _ _ h) (persists_subLive _ _ _)

theorem persists_releaseSeg (g : Seg) (h : Persists o s) : Persists o (s.releaseSeg g) := persists_releaseLoc g.loc h

theorem persists_releaseSegs (gs : List Seg) (h : Persists o s) : Persists o (s.releaseSegs gs) :=
  persists_foldl _ (fun _ => persists_releaseSeg) _ h

theorem persists_releaseWork (c : Cmd) (h : Persists o s) : Persists o (s.releaseWork c) := by
  have segs : Persists o (c.work.foldl (fun s e => match e.2 with
      | .writing g | .durable g => s.releaseSeg g
      | _ => s) s) := by
    refine persists_foldl _ (fun s e h => ?_) _ h
    split
    · exact persists_releaseSeg _ h
    · exact persists_releaseSeg _ h
    · exact h
  unfold State.releaseWork
  dsimp only
  split
  · exact segs
  · refine persists_foldl _ (fun s e h => ?_) _ segs
    split
    · exact h
    · exact persists_releaseLoc _ h

theorem persists_freeDeadSkeins (h : Persists o s) : Persists o s.freeDeadSkeins :=
  persists_foldl _ (fun _ => persists_freeSkein) _ h

theorem persists_dropHolds (n : Nat) (h : Persists o s) : Persists o (s.dropHolds n) := by
  unfold State.dropHolds
  split
  · exact h
  · exact persists_unless h fun h => persists_freeDeadSkeins (persists_onSch _ (persists_onFtl _ h))

theorem persists_dropTokens (n : Nat) (h : Persists o s) : Persists o (s.dropTokens n) :=
  persists_onLdg _ h rfl rfl rfl rfl rfl

theorem persists_settleLimbo (h : Persists o s) : Persists o s.settleLimbo := by
  unfold State.settleLimbo
  exact persists_onLdg _ h rfl rfl rfl rfl rfl

/-! ### Sealing and messages to peers -/

theorem persists_swatch (target addr : Nat) (h : Persists o s) : Persists o (s.swatch target addr).2 := by
  unfold State.swatch
  dsimp only
  generalize (if target = 5 then _ else _) = named
  split
  · exact persists_raise _ _ (persists_if (persists_setFld _ _ h) (persists_setFld _ _))
  · exact h

theorem persists_swatchWrite (target addr : Nat) (h : Persists o s) : Persists o (s.swatchWrite target addr) := by
  unfold State.swatchWrite
  exact persists_onFlt _ (persists_swatch target addr h) List.prefix_rfl

theorem persists_writeSlotRec (n : Nat) (r : SlotRec) (h : Persists o s) : Persists o (s.writeSlotRec n r) :=
  persists_keepSecure _ _ (persists_onLdg _ h rfl rfl rfl rfl rfl)

theorem persists_drawCounter {slot gen : Nat} {x : Nat × State} (drawn : s.drawCounter slot gen = some x)
    (h : Persists o s) : Persists o x.2 := by
  have written : Persists o ((s.onSlot slot fun k => { k with counter := k.counter + 1 }).swatchWrite 4 slot) :=
    persists_swatchWrite _ _ (persists_onCip _ h)
  unfold State.drawCounter at drawn
  split at drawn
  · cases drawn
  · dsimp only at drawn
    split at drawn
    · cases drawn
    · split at drawn
      · split at drawn
        · cases drawn
          exact persists_writeSlotRec _ _ written
        · cases drawn
          exact written
      · cases drawn
        exact h.of_same rfl rfl rfl

theorem persists_sealBytes {slot gen : Nat} {aad data : Bytes} {x : (SealWord × Bytes × Bytes) × State}
    (sealed : s.sealBytes slot gen aad data = some x) (h : Persists o s) : Persists o x.2 := by
  unfold State.sealBytes at sealed
  split at sealed
  · cases sealed
  · split at sealed
    · cases sealed
    next drawn =>
      cases sealed
      exact (persists_drawCounter drawn h).of_same rfl rfl rfl

theorem persists_nonceExhausted (slot epoch : Nat) (h : Persists o s) : Persists o (s.nonceExhausted slot epoch) :=
  persists_bump _ _ (persists_raise _ _ h)

theorem persists_transitSeal (slot : Option Nat) (head data : Bytes) (h : Persists o s) :
    Persists o (s.transitSeal slot head data).2 := by
  cases slot with
  | none => exact h
  | some slot =>
    refine List.foldlRecOn (motive := fun x : Option (List Bytes × Bytes) × State => Persists o x.2) _ _ h
      fun x h i _ => ?_
    split
    · exact h
    · split
      next sealed => exact persists_sealBytes sealed h
      · exact persists_if h (persists_nonceExhausted _ _)

theorem persists_sendPeer (peer kind : Nat) (m : PeerMsg) (h : Persists o s) : Persists o (s.sendPeer peer kind m) := by
  unfold State.sendPeer
  split
  · exact h
  next ctx _ =>
    have sealed := persists_transitSeal ((s.nextMsg ctx peer m).2.transitSlot peer) (msgHead kind (s.nextMsg ctx peer m).1)
      (s.nextMsg ctx peer m).1.data (h.of_same (t := (s.nextMsg ctx peer m).2) rfl rfl rfl)
    dsimp only
    split
    next found =>
      rw [found] at sealed
      exact persists_send _ sealed
    next found =>
      rw [found] at sealed
      exact sealed

theorem persists_takeChain {m : PeerMsg} (taken : s.takeChain m = some t) (h : Persists o s) : Persists o t := by
  unfold State.takeChain at taken
  split at taken
  · cases taken
  · split at taken
    · split at taken
      · cases taken
        exact persists_sendPeer _ _ _ h
      · cases taken
        exact h
    · split at taken
      · cases taken
      · split at taken
        · cases taken
          exact h.of_same rfl rfl rfl
        · cases taken

theorem persists_serveIntake (h : Persists o s) : Persists o s.serveIntake := by
  refine persists_foldl _ (fun s m h => ?_) _ h
  split
  next taken => exact persists_onPeer _ (persists_takeChain taken h)
  · exact h

/-! ### The end of a command -/

theorem persists_dropCmd (n : Nat) (h : Persists o s) : Persists o (s.dropCmd n) := persists_serveIntake (persists_onSch _ h)

theorem persists_settleError (ctx : Nat) (h : Persists o s) : Persists o (s.settleError ctx) :=
  h.elsewhere (keeps_settleError ctx (Keeps.refl _ s) (by decide))

theorem persists_retireOrphan (n : Nat) (h : Persists o s) : Persists o (s.retireOrphan n) := by
  unfold State.retireOrphan
  split
  · exact h
  next c _ =>
    refine persists_if h fun h => ?_
    have recorded : Persists o (match c.outcome with
        | some o => if c.op.isWrite then s.onSch fun h => { h with outcomes := h.outcomes ++ [c.record o true] } else s
        | none => s) := by
      split
      · exact persists_if h (persists_onSch _)
      · exact h
    dsimp only
    split
    · exact persists_settleError _ (persists_dropCmd _ recorded)
    · exact persists_dropCmd _ recorded

theorem persists_sendAck (m : PeerMsg) (st : Status) (copies : Nat) (h : Persists o s) :
    Persists o (s.sendAck m st copies) := persists_sendPeer _ _ _ (persists_onPeer _ h)

theorem persists_answerPeer (n : Nat) (h : Persists o s) : Persists o (s.answerPeer n) := by
  unfold State.answerPeer
  split
  · exact h
  · split
    · exact persists_dropCmd _ (persists_ite (persists_sendAck _ _ _ h) (persists_unless h (persists_sendPeer _ _ _)))
    · exact h

theorem persists_dropRef (n : Nat) (h : Persists o s) : Persists o (s.dropRef n) :=
  h.elsewhere (keeps_dropRef n (Keeps.refl _ s) (by decide) (by decide))

theorem persists_endCmd (n : Nat) (out : Outcome) (h : Persists o s) : Persists o (s.endCmd n out) := by
  have left := h.elsewhere (keeps_leaveIntake n (Keeps.refl _ s) (by decide))
  unfold State.endCmd
  split
  · exact h
  · refine persists_unless h fun _ => persists_answerPeer n (persists_retireOrphan n (persists_settleLimbo
      (persists_dropTokens n (persists_onSch _ (persists_onVal _ (persists_dropHolds n ?_))))))
    exact persists_dropRef n (persists_if
      (persists_if left fun h => persists_ite (persists_bump _ _ h) (persists_bump _ _ h)) (persists_releaseWork _))

theorem persists_endBatch (n : Nat) (st : Status) (more : Bool) (h : Persists o s) : Persists o (s.endBatch n st more) := by
  unfold State.endBatch
  split
  · exact h
  · split
    · refine persists_endCmd n _ (h.elsewhere (keeps_releaseSlot _ _ (keeps_sendAs _ _ _ (Keeps.refl _ s) (by decide))
        (by decide)))
    · exact h

/-! ### A chip reset -/

theorem persists_drainCmd (n : Nat) (h : Persists o s) : Persists o (s.drainCmd n) := by
  unfold State.drainCmd
  split
  · exact h
  · refine persists_unless h fun h => ?_
    split
    · exact persists_ite (persists_endBatch _ _ _ h) (persists_endCmd _ _ h)
    · exact persists_ite (persists_endBatch _ _ _ h) (persists_endCmd _ _ h)
    · exact persists_if h (persists_endCmd _ _)

theorem persists_beginDrain (h : Persists o s) : Persists o s.beginDrain :=
  persists_foldl _ (fun _ => persists_drainCmd) _ (persists_onRst _ (persists_onSch _ (persists_onNfe _ h)))

theorem persists_takeDigests (h : Persists o s) : Persists o s.takeDigests :=
  persists_keepMeta _ _ _ (persists_onLdg _ h rfl rfl rfl rfl rfl)

theorem persists_dropUncommitted (h : Persists o s) : Persists o s.dropUncommitted := by
  refine persists_foldl _ (fun s u h => persists_releaseSegs _ h) _ (persists_foldl _ (fun s e h => ?_) _
    (persists_foldl _ (fun s e h => persists_if h (persists_releaseWork _)) _ h))
  split
  · exact persists_releaseSeg _ h
  · exact h

theorem persists_endChanges (h : Persists o s) : Persists o s.endChanges := by
  unfold State.endChanges
  refine persists_onIdx _ (persists_foldl _ (fun s c h => ?_) _ h)
  split
  · exact persists_releaseLoc _ (persists_onIdx _ h)
  · exact h

theorem persists_sessionReset (h : Persists o s) : Persists o s.sessionReset := by
  unfold State.sessionReset
  split
  · exact h
  · exact h.of_same rfl rfl rfl
  · exact Persists.of_same (s := s.revertedEvent) (persists_raise _ _ (h.of_same rfl rfl rfl)) rfl rfl rfl

theorem persists_wipe (h : Persists o s) : Persists o s.wipe := by
  have ended := persists_sessionReset (persists_endChanges (persists_dropUncommitted h))
  have stopped : Persists o s.dropUncommitted.endChanges.sessionReset.stopRebuilds := ended.of_same rfl rfl rfl
  exact stopped.trans ⟨List.prefix_rfl, fun _ => id, fun _ => id, fun _ => id, id, rfl, fun _ => id⟩

theorem persists_mainOff (h : Persists o s) : Persists o s.mainOff := h.of_same rfl rfl rfl

theorem persists_assertReset (h : Persists o s) : Persists o s.assertReset :=
  persists_if (persists_onRst _ (persists_wipe h)) persists_mainOff

theorem persists_noteCause (cause : Nat) (h : Persists o s) : Persists o (s.noteCause cause) := h.of_same rfl rfl rfl

theorem persists_chipResetWith (cause : Nat) (works : Bool) (h : Persists o s) :
    Persists o (s.chipResetWith cause works) := by
  have noted := persists_noteCause cause h
  have reset := persists_ite (p := causeDrains cause && works && !(s.noteCause cause).sch.inReset.contains .sch)
    (persists_beginDrain noted) (persists_assertReset (persists_if (p := causeDigests cause) noted persists_takeDigests))
  unfold State.chipResetWith
  split
  · exact h
  · exact h
  · exact persists_ite (persists_assertReset h) (persists_if h fun h => persists_assertReset (persists_onRst _ h))
  · exact persists_assertReset noted
  · exact reset
  · exact reset

/-! ### REC's fallback (R556) -/

theorem persists_rowCeiling (h : Persists o s) : Persists o s.rowCeiling :=
  persists_if h fun h => persists_keepMeta _ _ _ (persists_onLdg _ h rfl rfl rfl rfl rfl)

theorem persists_takeRow (h : Persists o s) : Persists o s.takeRow.2 :=
  persists_rowCeiling (persists_onRec _ (persists_rowCeiling h) (fun _ => id) id)

theorem persists_recFallback (level k : Nat) (coincident : Bool) (lost cause : Nat) (h : Persists o s) :
    Persists o (s.recFallback level k coincident lost cause) := by
  unfold State.recFallback
  split
  · exact persists_onRec _ h (fun _ => id) fun _ => rfl
  · exact persists_onRec _ (persists_takeRow (persists_onRec _ h (fun _ => id) id)) (fun _ => id) fun _ => rfl

end

/-! ### Faults, and the way REC falls back -/

section
variable {o s t : State} {src : Nat}

theorem persists_escalate (src : Nat) (h : Persists o s) : Persists o (s.escalate src) :=
  persists_unless h fun h => persists_onFlt _ h List.prefix_rfl

theorem persists_assertErrOut (src : Nat) (h : Persists o s) : Persists o (s.assertErrOut src) :=
  persists_onFlt _ h List.prefix_rfl

theorem persists_acceptCore (coincident : Bool) (src : Nat) (h : Persists o s) :
    Persists o (s.acceptCore coincident src).2 :=
  persists_if (persists_if (persists_if (persists_escalate _ (persists_onFlt _ h List.prefix_rfl)) (persists_bump _ _))
    fun h => persists_onFlt _ h List.prefix_rfl) (persists_assertErrOut _)

/-- The source of a fallback belongs to no block: its reaction resets none (R530). -/
theorem State.blockReaction_fallback (s : State) (payload : Bytes) : s.blockReaction ⟨544, payload⟩ = s := by
  simp [State.blockReaction, blockOfEvent, blockOfSource]

theorem persists_react_fallback (payload : Bytes) (level : Nat) (h : Persists o s) :
    Persists o (s.react ⟨⟨544, payload⟩, level⟩) := by
  unfold State.react
  simp only [State.blockReaction_fallback, ite_self]
  exact persists_if (persists_if h (persists_bump _ _)) (persists_send _)

theorem persists_reactAll_fallback (payload : Bytes) (level : Nat) (h : Persists o s) :
    Persists o (s.reactAll [⟨⟨544, payload⟩, level⟩]) := by
  have reacted {u : State} (l : List Applied) (sub : ∀ a ∈ l, a = ⟨⟨544, payload⟩, level⟩) (h : Persists o u) :
      Persists o (l.foldl State.react u) := by
    refine List.foldlRecOn _ _ h fun u h a mem => ?_
    rw [sub a mem]
    exact persists_react_fallback _ _ h
  unfold State.reactAll
  dsimp only
  split
  · refine persists_unless (persists_chipResetWith _ _ h) (reacted _ fun a mem => ?_)
    exact List.mem_singleton.mp (List.mem_of_mem_filter mem)
  · exact reacted _ (fun a mem => List.mem_singleton.mp mem) h

theorem persists_enterFallback (lost cause : Nat) (h : Persists o s) : Persists o (s.enterFallback lost cause) :=
  persists_ite (persists_recFallback _ _ _ _ _ h)
    (persists_reactAll_fallback _ _ (persists_assertErrOut _ (persists_recFallback _ _ _ _ _ (persists_acceptCore _ _ h))))

theorem State.fallback_recFallback (level k : Nat) (coincident : Bool) (lost cause : Nat) :
    (s.recFallback level k coincident lost cause).recorder.fallback.isSome = true := by
  unfold State.recFallback
  split <;> rfl

/-- REC is in fallback once a loss has made it enter it. -/
theorem State.fallback_enterFallback (lost cause : Nat) : (s.enterFallback lost cause).recorder.fallback.isSome = true := by
  unfold State.enterFallback
  split
  · exact State.fallback_recFallback _ _ _ _ _
  · exact (persists_reactAll_fallback _ _ (persists_assertErrOut 544 (Persists.refl _))).fallback
      (State.fallback_recFallback _ _ _ _ _)

/-! ### Lines lost and spare lines taken (R340, R349, R350) -/

theorem tget_tdel_none {α : Type} {l : Tbl α} {n m : Nat} (h : tget l m = none) : tget (tdel l n) m = none := by
  induction l with
  | nil => rfl
  | cons e l ih =>
    obtain ⟨k, v⟩ := e
    simp only [tget, tdel] at h ⊢
    by_cases key : k = m
    · simp [key] at h
    · rw [if_neg key] at h
      split
      · exact h
      · rw [tget, if_neg key]
        exact ih h

theorem persists_recLineLost (row : Nat) (h : Persists o s) : Persists o (s.recLineLost row) :=
  persists_raise _ _ (persists_bump _ _ (persists_onRec _ h (fun _ => tget_tdel_none) id))

theorem persists_regionLost (p : Nat → Bool) (first count : Nat) (h : Persists o s) :
    Persists o (s.regionLost p first count) :=
  persists_foldl _ (fun _ => persists_recLineLost) _ (persists_raise _ _ h)

theorem persists_loseGroup (g : Nat) (h : Persists o s) : Persists o (s.loseGroup g) :=
  persists_unless h (persists_foldl _ (fun _ _ h => persists_onFlt _ h List.prefix_rfl) _)

theorem persists_noteSpares (dev : Nat) (was : Bool) (h : Persists o s) : Persists o (s.noteSpares dev was) :=
  persists_if h (persists_raise _ _)

theorem persists_takeSpares (dev n : Nat) (h : Persists o s) : Persists o (s.takeSpares dev n) :=
  persists_noteSpares _ _ (persists_foldl _ (fun _ _ => persists_onLgroup _ _ id) _ h)

theorem persists_moveGroup (g : Nat) (h : Persists o s) : Persists o (s.moveGroup g) :=
  persists_takeSpares _ _ (persists_if h fun h => persists_raise _ _ (persists_onLgroup _ _ id h))

theorem persists_moveRecorder (dev : Nat) (h : Persists o s) : Persists o (s.moveRecorder dev) :=
  persists_if (persists_if h fun h => persists_raise _ _ (persists_foldl _ (fun _ _ => persists_onLgroup _ _ id) _ h))
    (persists_takeSpares _ _)

theorem lines_recLineLost (row : Nat) : (s.recLineLost row).recorder.lines = tdel s.recorder.lines (row % recRing) := rfl

theorem lines_foldl_recLineLost {row : Nat} (l : List Nat) (wf : Tbl.wf s.recorder.lines = true)
    (lost : ∃ x ∈ l, x % recRing = row) : tget (l.foldl State.recLineLost s).recorder.lines row = none := by
  induction l generalizing s with
  | nil => simp at lost
  | cons a l ih =>
    obtain ⟨x, mem, at_⟩ := lost
    obtain rfl | later := List.mem_cons.mp mem
    · refine (persists_foldl State.recLineLost (fun _ => persists_recLineLost) l (Persists.refl _)).unrecorded row ?_
      rw [lines_recLineLost, at_]
      exact tget_tdel_self _ _ wf
    · exact ih (Tbl.wf_tdel _ _ wf) ⟨x, later, at_⟩

/-- The recorder lines of a region that is lost are no longer listed (R350). -/
theorem lines_regionLost (p : Nat → Bool) (first count : Nat) (wf : Tbl.wf s.recorder.lines = true)
    (ring : ∀ e ∈ s.recorder.lines, e.2.row % recRing = e.1) {row : Nat} (hit : p (0x3C00000 + row) = true) :
    tget (s.regionLost p first count).recorder.lines row = none := by
  cases found : tget s.recorder.lines row with
  | none => exact (persists_regionLost p first count (Persists.refl s)).unrecorded row found
  | some r =>
    have listed := mem_of_tget found
    refine lines_foldl_recLineLost _ wf ⟨r.row, List.mem_map.mpr ⟨(row, r), ?_, rfl⟩, ring _ listed⟩
    exact List.mem_filter.mpr ⟨listed, hit⟩

end

/-! ## LEDGER_GROUP_FAILED and LEDGER_DEVICE_FAILED (R349, R350, R351, R556) -/

section
variable {s : State} {group device : Nat}

theorem exec_ledgerGroupFailed (named : group < 256) (works : (s.lgroup group).failed = false)
    (device : s.deviceWorks (group / 128) = true) :
    exec (.ledgerGroupFailed group) s = .next (((s.groupGone group).enterFallback 4096 0).moveGroup group) := by
  show execLedgerGroupFailed group s = _
  simp [execLedgerGroupFailed, guardStep, named, works, device]

/-- The loss of a group is recorded before its lines are gone. -/
theorem persists_groupGone (s : State) (group : Nat) :
    Persists ((s.onLgroup group fun x => { x with failed := true }).raise 515 (item1 group)) (s.groupGone group) :=
  persists_regionLost _ _ _ (persists_loseGroup _ (Persists.refl _))

theorem State.recorder_loseGroup (s : State) (g : Nat) : (s.loseGroup g).recorder = s.recorder :=
  (keeps_loseGroup (r := (· ≠ .recorder)) g (Keeps.refl _ s) (by simp)).same .recorder (by simp)

theorem lines_groupGone (wf : Tbl.wf s.recorder.lines = true)
    (ring : ∀ e ∈ s.recorder.lines, e.2.row % recRing = e.1) {row : Nat} (hit : (0x3C00000 + row) % 256 = group) :
    tget (s.groupGone group).recorder.lines row = none := by
  have same := State.recorder_loseGroup
    ((s.onLgroup group fun x => { x with failed := true }).raise 515 (item1 group)) group
  refine lines_regionLost _ _ _ ?_ ?_ (decide_eq_true hit) <;> rw [same]
  · exact wf
  · exact ring

theorem exec_ledgerGroupFailed_spec (named : group < 256) (works : (s.lgroup group).failed = false)
    (device : s.deviceWorks (group / 128) = true) (wf : Tbl.wf s.recorder.lines = true)
    (ring : ∀ e ∈ s.recorder.lines, e.2.row % recRing = e.1) :
    ∃ (t : State) (evs : List Ev), exec (.ledgerGroupFailed group) s = .next t ∧ (t.lgroup group).failed = true ∧
      (∀ row, (0x3C00000 + row) % 256 = group → tget t.recorder.lines row = none) ∧
      t.recorder.fallback.isSome = true ∧ t.flt.raised = s.flt.raised ++ ⟨515, item1 group⟩ :: evs := by
  have moved := persists_moveGroup group (Persists.refl ((s.groupGone group).enterFallback 4096 0))
  have entered := (persists_enterFallback 4096 0 (Persists.refl (s.groupGone group))).trans moved
  have lost := (persists_groupGone s group).trans entered
  obtain ⟨evs, raised⟩ := lost.raised
  refine ⟨_, evs, exec_ledgerGroupFailed named works device, lost.failed group ?_,
    fun row hit => entered.unrecorded row (lines_groupGone wf ring hit), moved.fallback (State.fallback_enterFallback _ _),
    by rw [← raised]; simp [State.onLgroup]⟩
  rw [State.lgroup_raise, State.lgroup_onLgroup_self]

/-- A device is marked as failed. -/
def State.deviceGone (s : State) (device : Nat) : State :=
  (s.onLdg fun l => if device = 0 then { l with dev0Failed := true } else { l with dev1Failed := true }).raise 516
    (item1 device)

theorem State.deviceWorks_deviceGone (s : State) (device : Nat) : (s.deviceGone device).deviceWorks device = false := by
  rw [State.deviceGone, State.deviceWorks_raise, State.deviceWorks, State.onLdg_ldg]
  split <;> rfl

/-- The recorder lines of a failed device are lost, and REC falls back. -/
theorem exec_ledgerDeviceFailed (named : device < 2) (works : s.deviceWorks device = true) :
    ∃ alone first count, exec (.ledgerDeviceFailed device) s = .next ((((s.deviceGone device).regionLost
      (fun l => alone || decide (l % 256 / 128 = device)) first count).enterFallback count 1).moveRecorder device) := by
  let alone := !(s.deviceGone device).deviceWorks (1 - device)
  refine ⟨alone, 0x3C00000 + if alone then 0 else 128 * device, if alone then 1048576 else 524288, ?_⟩
  show execLedgerDeviceFailed device s = _
  unfold execLedgerDeviceFailed guardStep
  rw [if_pos (by simp [named, works])]
  rfl

theorem exec_ledgerDeviceFailed_spec (named : device < 2) (works : s.deviceWorks device = true)
    (wf : Tbl.wf s.recorder.lines = true) (ring : ∀ e ∈ s.recorder.lines, e.2.row % recRing = e.1) :
    ∃ (t : State) (evs : List Ev), exec (.ledgerDeviceFailed device) s = .next t ∧ t.deviceWorks device = false ∧
      (∀ row, (0x3C00000 + row) % 256 / 128 = device → tget t.recorder.lines row = none) ∧
      t.recorder.fallback.isSome = true ∧ t.flt.raised = s.flt.raised ++ ⟨516, item1 device⟩ :: evs := by
  obtain ⟨alone, first, count, step⟩ := exec_ledgerDeviceFailed named works
  have moved := persists_moveRecorder device (Persists.refl (((s.deviceGone device).regionLost
    (fun l => alone || decide (l % 256 / 128 = device)) first count).enterFallback count 1))
  have entered := (persists_enterFallback count 1 (Persists.refl ((s.deviceGone device).regionLost
    (fun l => alone || decide (l % 256 / 128 = device)) first count))).trans moved
  have lost := (persists_regionLost _ first count (Persists.refl (s.deviceGone device))).trans entered
  obtain ⟨evs, raised⟩ := lost.raised
  refine ⟨_, evs, step, lost.device device (s.deviceWorks_deviceGone device), fun row hit => entered.unrecorded row ?_,
    moved.fallback (State.fallback_enterFallback _ _), by rw [← raised]; simp [State.deviceGone]⟩
  exact lines_regionLost _ first count (s := s.deviceGone device) wf ring (by simp [hit])

end

section
variable {o s t : State}

theorem persists_onSbQuiet (id : Nat) (f : Sb → Sb) (h : Persists o s) : Persists o (s.onSbQuiet id f) :=
  h.of_same rfl rfl rfl
theorem persists_onRing (n : Nat) (f : Ring → Ring) (h : Persists o s) : Persists o (s.onRing n f) := h.of_same rfl rfl rfl
theorem persists_onEng (f : Eng → Eng) (h : Persists o s) : Persists o (s.onEng f) := h.of_same rfl rfl rfl

/-! ### The rings -/

theorem persists_storageWritten (target : Nat) (p : Nat → Bool) (h : Persists o s) :
    Persists o (s.storageWritten target p) :=
  persists_if (persists_onFlt _ h List.prefix_rfl) (persists_swatchWrite _ _)

theorem persists_dramPut (a : Nat) (b : Bytes) (h : Persists o s) : Persists o (s.dramPut a b) :=
  persists_storageWritten _ _ (persists_onEng _ h)

theorem persists_writeCqe (n : Nat) (c : Nat × Nat × Bool × Bytes) (h : Persists o s) : Persists o (s.writeCqe n c) :=
  persists_if (persists_onRing _ _ (persists_dramPut _ _ h)) (persists_onEng _)

theorem persists_drainCqes (n fuel : Nat) (h : Persists o s) : Persists o (s.drainCqes n fuel) := by
  induction fuel generalizing s with
  | zero => exact h
  | succ fuel ih =>
    unfold State.drainCqes
    split
    · exact h
    · exact persists_if h fun h => ih (persists_writeCqe _ _ (persists_onRing _ _ h))

theorem persists_issueHead (n : Nat) (h : Persists o s) : Persists o (s.issueHead n) := by
  unfold State.issueHead
  split
  · exact h
  · dsimp only
    split
    · exact persists_writeCqe _ _ (persists_onRing _ _ h)
    · exact persists_onRing _ _ (persists_onRing _ _ h)

theorem persists_pumpRings (fuel : Nat) (h : Persists o s) : Persists o (s.pumpRings fuel) := by
  induction fuel generalizing s with
  | zero => exact h
  | succ fuel ih =>
    unfold State.pumpRings
    split
    · exact h
    · exact ih (persists_onEng _ (persists_issueHead _ h))

theorem persists_finish (ring : Nat) (d : Dir) (estatus : Nat) (b : Bytes) (h : Persists o s) :
    Persists o (s.finish ring d estatus b) :=
  persists_pumpRings _ (persists_drainCqes _ _ (persists_onRing _ _ h))

/-! ### Superblocks and streams -/

theorem persists_addLive (k units : Nat) (h : Persists o s) : Persists o (s.addLive k units) := h.of_same rfl rfl rfl

theorem persists_putBytes (loc : Loc) (b x : Bytes) (h : Persists o s) : Persists o (s.putBytes loc b x) :=
  h.elsewhere (keeps_putBytes _ _ _ (Keeps.refl _ s) (by decide))

theorem persists_onSb (id : Nat) (f : Sb → Sb) (h : Persists o s) : Persists o (s.onSb id f) :=
  persists_keepMeta _ _ _ (persists_onFtl _ h)

theorem persists_journalSb (id : Nat) (h : Persists o s) : Persists o (s.journalSb id) := persists_journalMap _ _ _ h

theorem persists_journalSkein (k : Nat) (h : Persists o s) : Persists o (s.journalSkein k) := persists_journalMap _ _ _ h

theorem persists_setStream (key : Nat) (st : Stream) (h : Persists o s) : Persists o (s.setStream key st) := by
  unfold State.setStream
  dsimp only
  split
  · exact persists_unless (persists_onFtl _ h) (persists_freeSkein _)
  · exact persists_onFtl _ h

theorem persists_retireWorn (id : Nat) (slc : Bool) (h : Persists o s) : Persists o (s.retireWorn id slc) :=
  persists_raise _ _ (persists_foldl _ (fun _ _ => persists_raise _ _) _ (persists_onSb _ _ h))

theorem persists_closeSb (id : Nat) (h : Persists o s) : Persists o (s.closeSb id) :=
  persists_journalSb _ (persists_onFtl _ (persists_onSb _ _ h))

theorem persists_openSb (stream id : Nat) (h : Persists o s) : Persists o (s.openSb stream id) :=
  persists_journalSb _ (persists_onFtl _ (persists_onSb _ _ h))

theorem persists_openNew {stream : Nat} {old : Option Nat} {pick : State → Option Nat} {fuel : Nat} {x : Nat × State}
    (opened : s.openNew stream old pick fuel = some x) (h : Persists o s) : Persists o x.2 := by
  induction fuel generalizing s with
  | zero => cases opened
  | succ fuel ih =>
    unfold State.openNew at opened
    split at opened
    · cases opened
    · split at opened
      · cases opened
      · split at opened
        · exact ih opened (persists_retireWorn _ _ h)
        · cases opened
          refine persists_openSb _ _ ?_
          cases old with
          | none => exact h
          | some b => exact persists_if h (persists_closeSb _)

/-- A skein takes the next slot of a superblock, and the stream points to it. -/
def State.placeSkein (s : State) (stream skein id : Nat) : State :=
  let slot := ((s.sb id).nextQ + 255) / 256
  let s := s.onSbQuiet id fun b => { b with
    nextQ := (slot + 1) * 256, summary := b.summary ++ [⟨1, 0, 0, skein, slot, 0⟩] }
  let s := s.onFtl fun t => { t with
    skeins := tset t.skeins skein ⟨false, streamClassP stream, 0, id, slot, [], stream = 3, 0, []⟩ }
  (s.journalSkein skein).setStream (streamKey stream) ⟨skein, 0, some id⟩

/-- A skein is mapped into the superblock of its stream, or into one that is opened for it. -/
theorem State.mapSkein_cases {stream skein : Nat} (mapped : s.mapSkein stream skein = some t) :
    (∃ id, s.placeSkein stream skein id = t) ∨
      ∃ old x, s.openNew stream old State.pickFree s.openFuel = some x ∧ x.2.placeSkein stream skein x.1 = t := by
  unfold State.mapSkein at mapped
  dsimp only at mapped
  generalize cur_eq : (tget s.ftl.streams (streamKey stream)).bind (·.sb) = cur at mapped
  have opens (m : (s.openNew stream cur State.pickFree s.openFuel).map (fun x => x.2.placeSkein stream skein x.1) = some t) :
      ∃ old x, s.openNew stream old State.pickFree s.openFuel = some x ∧ x.2.placeSkein stream skein x.1 = t :=
    ⟨cur, Option.map_eq_some_iff.mp m⟩
  cases cur with
  | none =>
    dsimp only at mapped
    split at mapped
    · cases mapped
    · split at mapped
      · cases mapped
      · exact .inr (opens mapped)
  | some id =>
    dsimp only at mapped
    split at mapped
    · exact .inl ⟨id, Option.some.inj mapped⟩
    · split at mapped
      · cases mapped
      · exact .inr (opens mapped)

theorem persists_placeSkein (stream skein id : Nat) (h : Persists o s) : Persists o (s.placeSkein stream skein id) :=
  persists_setStream _ _ (persists_journalSkein _ (persists_onFtl _ (persists_onSbQuiet _ _ h)))

theorem persists_mapSkein {stream skein : Nat} (mapped : s.mapSkein stream skein = some t) (h : Persists o s) :
    Persists o t := by
  obtain ⟨id, rfl⟩ | ⟨old, x, opened, rfl⟩ := State.mapSkein_cases mapped
  · exact persists_placeSkein _ _ _ h
  · exact persists_placeSkein _ _ _ (persists_openNew opened h)

theorem persists_newRun {stream : Nat} (run : s.newRun stream = some t) (h : Persists o s) : Persists o t := by
  unfold State.newRun at run
  split at run
  · cases run
  next k u taken =>
    have kept : Keeps Elsewhere s u := (keeps_takeRun (Keeps.refl _ s) (by decide)) _ taken
    exact persists_mapSkein run (h.elsewhere kept)

theorem persists_readyStream {stream units : Nat} (ready : s.readyStream stream units = some t) (h : Persists o s) :
    Persists o t := by
  unfold State.readyStream at ready
  split at ready
  · exact persists_newRun ready h
  · dsimp only at ready
    split at ready
    · split at ready
      · cases ready
        exact h
      · exact persists_newRun ready h
    · split at ready
      · exact persists_mapSkein ready h
      · exact persists_newRun ready h

theorem persists_alignStream {stream : Nat} (aligned : s.alignStream stream = some t) (h : Persists o s) :
    Persists o t := by
  unfold State.alignStream at aligned
  split at aligned
  · cases aligned
    exact h
  · dsimp only at aligned
    split at aligned
    · cases aligned
      exact persists_setStream _ _ h
    · exact persists_mapSkein aligned h

theorem persists_allocFlash {stream units : Nat} {x : Loc × State} (found : s.allocFlash stream units = some x)
    (h : Persists o s) : Persists o x.2 := by
  unfold State.allocFlash at found
  dsimp only at found
  split at found
  · cases found
  next u ready =>
    have begun := persists_readyStream ready h
    split at found
    · cases found
    · split at found
      · cases found
        exact persists_setStream _ _ (persists_addLive _ _ begun)
      · split at found
        · split at found
          · cases found
            exact persists_setStream _ _ (persists_addLive _ _ begun)
          · obtain ⟨v, mapped, rfl⟩ := Option.map_eq_some_iff.mp found
            exact persists_mapSkein mapped (persists_addLive _ _ begun)
        · split at found
          · cases found
          next mapped =>
            cases found
            exact (persists_mapSkein mapped (persists_addLive _ _ begun)).of_same rfl rfl rfl

/-! ### A row of a superblock is programmed -/

theorem persists_padStream (stream id q fuel : Nat) (h : Persists o s) : Persists o (s.padStream stream id q fuel) := by
  induction fuel generalizing s with
  | zero => exact h
  | succ fuel ih =>
    unfold State.padStream
    split
    · exact h
    · split
      · exact h
      · refine persists_unless h fun h => persists_ite (persists_setStream _ _ h) ?_
        split
        next next =>
          split at next
          · exact ih (persists_newRun next h)
          · exact ih (persists_mapSkein next h)
        · exact h

theorem persists_padUpTo (id q : Nat) (h : Persists o s) : Persists o (s.padUpTo id q) := by
  unfold State.padUpTo
  split
  · exact persists_padStream _ _ _ _ h
  · exact persists_onSbQuiet _ _ h

theorem persists_writePar (id row : Nat) (mask : BitVec 16) (h : Persists o s) : Persists o (s.writePar id row mask) := by
  unfold State.writePar
  dsimp only
  split
  · exact persists_onFtl _ (persists_onSbQuiet _ _ h)
  · refine persists_unless h fun h => ?_
    split
    · exact h
    next opened =>
      exact persists_onFtl _ (persists_onSbQuiet _ _ (persists_if (persists_setStream _ _ (persists_openNew opened h))
        (persists_raise _ _)))

theorem persists_rowsParity (id : Nat) (rows : List Nat) (mask : BitVec 16) (h : Persists o s) :
    Persists o (s.rowsParity id rows mask) :=
  persists_ite (persists_foldl _ (fun _ _ => persists_writePar _ _ _) _ h) (persists_onSbQuiet _ _ h)

theorem persists_switchCopy (c : SkeinCopy) (h : Persists o s) : Persists o (s.switchCopy c) := by
  unfold State.switchCopy
  dsimp only
  split
  · exact persists_onFtl _ h
  · split
    · exact persists_journalSkein _ (persists_onFtl _ (persists_onFtl _ h))
    · exact persists_freeSkein _ (persists_unless (persists_journalStitches _ _ (persists_onFtl _ (persists_onFtl _ h)))
        (persists_journalSkein _))

theorem persists_countRefresh (id pos : Nat) (h : Persists o s) : Persists o (s.countRefresh id pos) :=
  persists_if (persists_onSbQuiet _ _ h) fun h => persists_raise _ _ (persists_onFtl _ (persists_onSb _ _ h))

theorem persists_dropCopy (c : SkeinCopy) (h : Persists o s) : Persists o (s.dropCopy c) :=
  persists_foldl _ (fun _ _ => persists_countRefresh _ _) _ (persists_onFtl _ h)

theorem persists_releasePar (id : Nat) (h : Persists o s) : Persists o (s.releasePar id) :=
  persists_foldl _ (fun _ _ => persists_onSb _ _) _ (persists_onFtl _ (persists_onFtl _ h))

theorem persists_endVerify (v : Verify) (h : Persists o s) : Persists o (s.endVerify v) := by
  have verified {u : State} {p : Prop} [Decidable p] (f : Sb → Sb) (h : Persists o u) :
      Persists o (if p then ((u.onSb v.sb f).journalSb v.sb).releasePar v.sb else u) :=
    persists_if h fun h => persists_releasePar _ (persists_journalSb _ (persists_onSb _ _ h))
  unfold State.endVerify
  dsimp only
  split
  · exact persists_unless (verified _ (persists_onFtl _ h)) (persists_finish _ _ _ _)
  · exact verified _ (persists_onFtl _ h)

theorem persists_settleMoves (h : Persists o s) : Persists o s.settleMoves :=
  persists_foldl _ (fun _ => persists_endVerify) _ (persists_onFtl _ h)

theorem persists_switchCopies (h : Persists o s) : Persists o s.switchCopies :=
  persists_settleMoves (persists_foldl _ (fun _ _ h => persists_ite (persists_switchCopy _ h) (persists_dropCopy _ h)) _ h)

theorem persists_writeSummary (id : Nat) (h : Persists o s) : Persists o (s.writeSummary id) := by
  refine persists_foldl _ (fun s p h => ?_) _ h
  split
  next found => exact persists_onSbQuiet _ _ (persists_putBytes _ _ _ (persists_allocFlash found h))
  · exact h

theorem persists_writeSummaries (fuel : Nat) (h : Persists o s) : Persists o (s.writeSummaries fuel) := by
  induction fuel generalizing s with
  | zero => exact h
  | succ fuel ih =>
    unfold State.writeSummaries
    split
    · exact h
    · exact ih (persists_writeSummary _ (persists_onFtl _ h))

theorem persists_swatchRow (id row : Nat) (ps : BitVec 16) (h : Persists o s) : Persists o (s.swatchRow id row ps) := by
  refine persists_foldl _ (fun s e h => ?_) _ h
  have hit := persists_swatch 5 (chanOf id e.1) h
  dsimp only
  split
  · exact persists_onFlt _ hit List.prefix_rfl
  · exact hit

theorem persists_writePages (id : Nat) (rows : List Nat) (ps mask : BitVec 16) (h : Persists o s) :
    Persists o (s.writePages id rows ps mask) := h.elsewhere (keeps_writePages _ _ _ _ (Keeps.refl _ s) (by decide))

/-- What a row leaves behind that is programmed: its staged words, its die's work, and the segments that are durable. -/
theorem persists_rowDone (id : Nat) (h : Persists o s) : Persists o ((s.unstage id).dieIdle id).settleProgrammed :=
  h.elsewhere (keeps_settleProgrammed (keeps_dieIdle _ (keeps_unstage _ (Keeps.refl _ s) (by decide)) (by decide))
    (by decide))

theorem persists_programNext (id : Nat) (h : Persists o s) : Persists o (s.programNext id) :=
  persists_writeSummaries _ (persists_switchCopies (persists_rowDone _ (persists_onSbQuiet _ _ (persists_rowsParity _ _ _
    (persists_writePages _ _ _ _ (persists_foldl _ (fun _ _ => persists_swatchRow _ _ _) _ (persists_padUpTo _ _ h)))))))

theorem persists_programAll (id fuel : Nat) (h : Persists o s) : Persists o (s.programAll id fuel) := by
  induction fuel generalizing s with
  | zero => exact h
  | succ fuel ih => exact persists_if h fun h => ih (persists_programNext _ h)

theorem persists_flushStream (stream : Nat) (h : Persists o s) : Persists o (s.flushStream stream) :=
  persists_foldl _ (fun _ _ => persists_programAll _ _) _ h

/-! ### Map pieces (R385, R482) -/

/-- The directory of the pieces takes the place of a piece. -/
def State.keepPiece (s : State) (p : Nat) (e : Loc × W32) : State :=
  (s.onKept fun k => { k with pieces := tset k.pieces p e }).keepMeta 4 p 1

theorem State.pieces_keepPiece (p : Nat) (e : Loc × W32) :
    (s.keepPiece p e).ldg.kept.pieces = tset s.ldg.kept.pieces p e := by
  rw [State.keepPiece, State.kept_keepMeta]
  rfl

theorem persists_keepPiece (p : Nat) (e : Loc × W32) (h : Persists o s) : Persists o (s.keepPiece p e) := by
  refine persists_keepMeta _ _ _ (h.trans ⟨List.prefix_rfl, fun _ => id, fun _ => id, fun _ => id, id, rfl,
    fun x was => ?_⟩)
  show (tget (tset s.ldg.kept.pieces p e) x).isSome = true
  by_cases same : x = p
  · rw [same, tget_tset_self]
    rfl
  · rwa [tget_tset_of_ne _ _ _ _ same]

/-- A piece that is written is kept, and the others stay. -/
theorem persists_writePiece {p : Nat} (written : s.writePiece p = some t) :
    Persists s t ∧ (tget t.ldg.kept.pieces p).isSome = true := by
  have kept {u : State} (e : Loc × W32) (h : Persists s u) :
      Persists s (u.keepPiece p e) ∧ (tget (u.keepPiece p e).ldg.kept.pieces p).isSome = true := by
    refine ⟨persists_keepPiece p e h, ?_⟩
    rw [State.pieces_keepPiece, tget_tset_self]
    rfl
  obtain ⟨u, aligned, placed⟩ := Option.bind_eq_some_iff.mp written
  obtain ⟨⟨loc, v⟩, found, rfl⟩ := Option.map_eq_some_iff.mp placed
  have staged : Persists s (v.putBytes loc (v.pieceBytes p) (v.pieceBytes p)) :=
    persists_putBytes _ _ _ (persists_allocFlash found (persists_alignStream aligned (Persists.refl s)))
  dsimp only
  split
  · exact kept (loc, crc32c (v.pieceBytes p)) (persists_releaseLoc _ staged)
  · exact kept (loc, crc32c (v.pieceBytes p)) staged

/-- Pieces are written one after the other while META has room. -/
def State.writePieces (s : State) (ps : List Nat) : Option State :=
  ps.foldl (fun (m : Option State) p => m.bind fun s => s.writePiece p) (some s)

theorem foldl_bind_none {β : Type} (f : β → State → Option State) (l : List β) :
    l.foldl (fun m p => m.bind (f p)) (none : Option State) = none := by
  induction l with
  | nil => rfl
  | cons p l ih => exact ih

theorem persists_writePieces {ps : List Nat} (written : s.writePieces ps = some t) :
    Persists s t ∧ ∀ p ∈ ps, (tget t.ldg.kept.pieces p).isSome = true := by
  induction ps generalizing s with
  | nil =>
    cases written
    exact ⟨Persists.refl _, by simp⟩
  | cons p ps ih =>
    have step : s.writePieces (p :: ps)
        = ps.foldl (fun (m : Option State) p => m.bind fun s => s.writePiece p) (s.writePiece p) := rfl
    cases first : s.writePiece p with
    | none =>
      rw [step, first, foldl_bind_none fun p s => s.writePiece p] at written
      cases written
    | some u =>
      rw [step, first] at written
      obtain ⟨before, kept⟩ := persists_writePiece first
      obtain ⟨later, others⟩ := ih written
      exact ⟨before.trans later, List.forall_mem_cons.mpr ⟨later.pieces p kept, others⟩⟩

/-! ## MAP_CHECKPOINT (R385, R482, R606) -/

/-- The pieces that a line below a floor changed, or that changed without one. -/
def State.changedPieces (s : State) (floor : Nat) : List Nat :=
  (((s.ldg.kept.journal.filter fun j => decide (j.jseq < floor)).filterMap fun j => s.pieceOf j.kind j.target)
    ++ s.ftl.dirty).eraseDups

/-- The checkpoint is closed: the new floor is journalled, and no line below it is left. -/
def State.closeCkpt (s : State) (floor : Nat) : State :=
  ((s.flushStream 3).journalMap 0x15 floor (leBytes 8 floor)).onKept fun k => { k with
    journal := k.journal.filter fun j => decide (floor ≤ j.jseq), mapFloor := floor }

theorem persists_closeCkpt (floor : Nat) (h : Persists o s) : Persists o (s.closeCkpt floor) := by
  unfold State.closeCkpt
  exact persists_onLdg _ (persists_journalMap _ _ _ (persists_flushStream 3 h)) rfl rfl rfl rfl rfl

theorem State.mapFloor_closeCkpt (floor : Nat) : (s.closeCkpt floor).ldg.kept.mapFloor = floor := rfl

theorem State.journal_closeCkpt (floor : Nat) : ∀ j ∈ (s.closeCkpt floor).ldg.kept.journal, floor ≤ j.jseq := by
  intro j mem
  exact of_decide_eq_true (List.mem_filter.mp mem).2

theorem State.ftl_checkpointUsage (s : State) : s.checkpointUsage.ftl = s.ftl :=
  (keeps_checkpointUsage (r := (· ≠ .ftl)) (Keeps.refl _ s) (by simp) (by simp) (by simp)).same .ftl (by simp)

/-- Nothing of the maps is dirty any more. -/
def State.cleanMaps (s : State) : State := s.onFtl fun t => { t with dirty := [] }

theorem State.pieceOf_of_ftl (same : t.ftl = s.ftl) (kind target : Nat) : t.pieceOf kind target = s.pieceOf kind target := by
  rw [State.pieceOf, same, State.pieceOf]

theorem State.changedPieces_checkpointUsage (s : State) (floor : Nat) :
    s.checkpointUsage.changedPieces floor = s.changedPieces floor := by
  simp only [State.changedPieces, State.kept_checkpointUsage, State.ftl_checkpointUsage,
    State.pieceOf_of_ftl s.ftl_checkpointUsage]

/-- A checkpoint of the maps, whose floor is the next JSEQ. -/
theorem State.checkpointMaps_eq (begun : 1 ≤ s.ldg.kept.nextJseq) : s.checkpointMaps
    = ((s.checkpointUsage.cleanMaps.writePieces (s.changedPieces s.ldg.kept.nextJseq)).map
      (State.closeCkpt · s.ldg.kept.nextJseq)).getD s.checkpointUsage := by
  have floor : s.checkpointUsage.ldg.kept.usageCkpt.1 + 1 = s.ldg.kept.nextJseq := by
    rw [State.kept_checkpointUsage]
    exact Nat.sub_add_cancel begun
  have unfolded : s.checkpointMaps = ((s.checkpointUsage.cleanMaps.writePieces (s.checkpointUsage.changedPieces
      (s.checkpointUsage.ldg.kept.usageCkpt.1 + 1))).map
      (State.closeCkpt · (s.checkpointUsage.ldg.kept.usageCkpt.1 + 1))).getD s.checkpointUsage := by
    unfold State.checkpointMaps
    dsimp only
    split
    next full =>
      have none_ : s.checkpointUsage.cleanMaps.writePieces (s.checkpointUsage.changedPieces
        (s.checkpointUsage.ldg.kept.usageCkpt.1 + 1)) = none := full
      rw [none_, Option.map_none, Option.getD_none]
    next u written =>
      have some_ : s.checkpointUsage.cleanMaps.writePieces (s.checkpointUsage.changedPieces
        (s.checkpointUsage.ldg.kept.usageCkpt.1 + 1)) = some u := written
      rw [some_, Option.map_some, Option.getD_some, State.closeCkpt]
  rw [unfolded, floor, State.changedPieces_checkpointUsage]

theorem exec_mapCheckpoint (ready : s.ftl.mapReady = true) (awake : s.blockInReset .ftl = false) :
    exec .mapCheckpoint s = .next s.checkpointMaps := by
  show execMapCheckpoint s = _
  simp [execMapCheckpoint, guardStep, ready, awake]

theorem exec_mapCheckpoint_written (ready : s.ftl.mapReady = true) (awake : s.blockInReset .ftl = false)
    (begun : 1 ≤ s.ldg.kept.nextJseq)
    (room : (s.checkpointUsage.cleanMaps.writePieces (s.changedPieces s.ldg.kept.nextJseq)).isSome = true) :
    ∃ t, exec .mapCheckpoint s = .next t ∧ t.ldg.kept.usageCkpt = (s.ldg.kept.nextJseq - 1, s.sch.usage) ∧
      t.ldg.kept.mapFloor = s.ldg.kept.nextJseq ∧
      (∀ p ∈ s.changedPieces s.ldg.kept.nextJseq, (tget t.ldg.kept.pieces p).isSome = true) ∧
      ∀ j ∈ t.ldg.kept.journal, s.ldg.kept.nextJseq ≤ j.jseq := by
  obtain ⟨u, written⟩ := Option.isSome_iff_exists.mp room
  obtain ⟨before, kept⟩ := persists_writePieces written
  have closed := persists_closeCkpt s.ldg.kept.nextJseq (Persists.refl u)
  refine ⟨u.closeCkpt s.ldg.kept.nextJseq, ?_, ?_, State.mapFloor_closeCkpt _, fun p mem => closed.pieces p (kept p mem),
    State.journal_closeCkpt _⟩
  · rw [exec_mapCheckpoint ready awake, State.checkpointMaps_eq begun, written, Option.map_some, Option.getD_some]
  · rw [(before.trans closed).usage, State.cleanMaps, State.onFtl_ldg, State.kept_checkpointUsage]

theorem exec_mapCheckpoint_full (ready : s.ftl.mapReady = true) (awake : s.blockInReset .ftl = false)
    (begun : 1 ≤ s.ldg.kept.nextJseq)
    (full : s.checkpointUsage.cleanMaps.writePieces (s.changedPieces s.ldg.kept.nextJseq) = none) :
    exec .mapCheckpoint s = .next s.checkpointUsage := by
  rw [exec_mapCheckpoint ready awake, State.checkpointMaps_eq begun, full, Option.map_none, Option.getD_none]

end

/-! ## The obligation -/

/-- Settles O51: a clause for each instruction, from its lemma above. -/
theorem ledgerKeepsItsLines : Obligations.LedgerKeepsItsLines := by
  refine ⟨?_, fun s line failsA failsB data ref => exec_ledgerLineWrite_closed, fun s group =>
    ⟨exec_gapMove_spec, exec_gapMove_not_due⟩, fun s => ⟨exec_gaugeRefill_idle, fun n cmd c => exec_gaugeRefill_serves,
    exec_gaugeRefill_full⟩, fun s group => exec_ledgerGroupFailed_spec, fun s device => exec_ledgerDeviceFailed_spec,
    fun s ready awake => ⟨exec_usageCheckpoint_spec ready awake, exec_usageCheckpoint_unchanged⟩,
    fun s ready awake begun =>
      ⟨exec_mapCheckpoint_written ready awake begun, exec_mapCheckpoint_full ready awake begun⟩⟩
  intro s line failsA failsB data ready named running awake dev0 dev1 paired unarmed wf a freeA freeB
  have pair := pairOpen_of_works ready named running awake dev0 dev1 paired freeA freeB
  exact ⟨pair.write_plain unarmed wf, pair.write_retires, fun ref raw c w found cmd writing sent =>
    pair.write_durable wf found cmd writing sent unarmed⟩

end Sys2Proof.Machine
end

section
/-! PROOFS. The family 11_flash_layout_and_mapping.md: what the dies and channels report (O50). -/

namespace Sys2Proof.Machine

/-! ## An erase over a superblock table that is not in order (O50)

O50 speaks of every state, where a superblock has one entry in the table. The end of an erase sets the first entry of a
superblock that is listed twice, and the second keeps it among those being emptied (R402, R406). -/

/-- Superblock 0, RECLAIMING and empty, listed twice; the drive runs. -/
def reclaimingTwice : State :=
  { State.reset with
    rst := { State.reset.rst with run := .running }
    ftl := { State.reset.ftl with
      sbs := [(0, { Sb.fresh with st := .reclaiming }), (0, { Sb.fresh with st := .reclaiming })] } }

theorem not_wf_reclaimingTwice : ¬ Tbl.wf reclaimingTwice.ftl.sbs = true := Bool.false_ne_true

/-- It is the only superblock being emptied. -/
theorem emptying_reclaimingTwice : ∀ x ∈ reclaimingTwice.emptying, x = 0 := by decide

/-- Its erase may end at each of its 16 dies. -/
theorem eraseEnds_reclaimingTwice : reclaimingTwice.eraseEnds 0 = true := by decide +kernel

/-- The erase neither wears it out nor leaves more than two vacancies (R411). -/
theorem wear_reclaimingTwice :
    (reclaimingTwice.sb 0).wear + eraseWear (reclaimingTwice.eraseSlc 0) < 40 * reclaimingTwice.retirePe ∧
      (positions ((reclaimingTwice.sb 0).vacant ||| (reclaimingTwice.sb 0).retiring)).length ≤ 2 := by
  decide +kernel

/-- An erase that may end at each of its dies ends. -/
theorem exec_eraseDone_of_ends {s : State} {sb : Nat} (ends : s.eraseEnds sb = true) :
    exec (.eraseDone sb) s = .next (s.endErase sb) := by
  show execEraseDone sb s = _
  rw [execEraseDone, guardStep, if_pos ends]

/-- The second entry still stands RECLAIMING after the erase. -/
theorem emptying_endErase_reclaimingTwice : (reclaimingTwice.endErase 0).emptying = [0] := by decide +kernel

/-- Refutes O50: the erase of superblock 0 in `reclaimingTwice` ends, and yet the superblock is still among those being
emptied, where the clause on ERASE_DONE asks for none. The statement does not ask that the superblock table be in order. -/
theorem not_diesReport : ¬ Obligations.DiesReport := by
  unfold Obligations.DiesReport
  rintro ⟨-, -, -, -, -, erases, -⟩
  obtain ⟨free, -⟩ := erases reclaimingTwice 0 eraseEnds_reclaimingTwice emptying_reclaimingTwice rfl rfl (by decide)
  obtain ⟨lasts, whole⟩ := wear_reclaimingTwice
  obtain ⟨t, run, -, emptied⟩ := free rfl lasts whole
  rw [exec_eraseDone_of_ends eraseEnds_reclaimingTwice] at run
  cases run
  rw [emptying_endErase_reclaimingTwice] at emptied
  cases emptied

end Sys2Proof.Machine
end

section
/-! PROOFS. Every command: its frame, the canonical form (O1, O4, O5) and its outcome (O6). -/

namespace Sys2Proof.Machine

/-! ## Every command -/

/-- What a command may change, whatever the command is: its own frame. -/
theorem keepsN_exec (c : Instr) (s : State) : KeepsN (MayTouch c) s (exec c s) := by
  match c with
  | .get cmd => exact frame_get cmd s
  | .put cmd => exact frame_put cmd s
  | .delete cmd => exact frame_delete cmd s
  | .writeRange cmd => exact frame_writeRange cmd s
  | .punch cmd => exact frame_punch cmd s
  | .head cmd => exact frame_head cmd s
  | .scan cmd budget => exact frame_scan cmd budget s
  | .scanNext cmd budget => exact frame_scanNext cmd budget s
  | .count cmd budget => exact frame_count cmd budget s
  | .flush cmd => exact frame_flush cmd s
  | .nop cmd => exact frame_nop cmd s
  | .sessionOpen via manifest => exact frame_sessionOpen via manifest s
  | .sessionBlock via offset block => exact frame_sessionBlock via offset block s
  | .sessionActivate via => exact frame_sessionActivate via s
  | .sessionCommit via => exact frame_sessionCommit via s
  | .sessionClose via => exact frame_sessionClose via s
  | .attest via nonce length => exact frame_attest via nonce length s
  | .identify via length => exact frame_identify via length s
  | .recRead via first length => exact frame_recRead via first length s
  | .recClear d clearTo requester ref => exact frame_recClear d clearTo requester ref s
  | .doorbell ctx arrival aligned raw => exact frame_doorbell ctx arrival aligned raw s
  | .unsupportedRequest ctx => exact frame_unsupportedRequest ctx s
  | .cmReq req => exact frame_cmReq req s
  | .cmRtu ctx proof => exact frame_cmRtu ctx proof s
  | .cmDreq ctx => exact frame_cmDreq ctx s
  | .connectingTimeout ctx => exact frame_connectingTimeout ctx s
  | .descriptorFetch => exact frame_descriptorFetch s
  | .descriptorAccept ctx raw => exact frame_descriptorAccept ctx raw s
  | .phaseRefetch ctx => exact frame_phaseRefetch ctx s
  | .remoteAccessNak ctx => exact frame_remoteAccessNak ctx s
  | .transportRetryExhausted ctx => exact frame_transportRetryExhausted ctx s
  | .outcomeRecordExpiry session tag => exact frame_outcomeRecordExpiry session tag s
  | .completionAcked cmd => exact frame_completionAcked cmd s
  | .coalesceTimer ctx => exact frame_coalesceTimer ctx s
  | .cePacketReceived ctx => exact frame_cePacketReceived ctx s
  | .cnpReceived ctx => exact frame_cnpReceived ctx s
  | .ccTimerExpiry ctx => exact frame_ccTimerExpiry ctx s
  | .linkDown l => exact frame_linkDown l s
  | .linkdownTimeout l => exact frame_linkdownTimeout l s
  | .linkUp l => exact frame_linkUp l s
  | .portRetrainEnd p => exact frame_portRetrainEnd p s
  | .opticsInsert p watts laneMatch cmis => exact frame_opticsInsert p watts laneMatch cmis s
  | .opticsRailTrip p => exact frame_opticsRailTrip p s
  | .policySearch cmd parity => exact frame_policySearch cmd parity s
  | .indexLookup cmd refreshing0 errs fclk => exact frame_indexLookup cmd refreshing0 errs fclk s
  | .valueDataArrival cmd data => exact frame_valueDataArrival cmd data s
  | .cipherJobDone cmd lane agree => exact frame_cipherJobDone cmd lane agree s
  | .commitGate cmd => exact frame_commitGate cmd s
  | .mirrorChangeDone => exact frame_mirrorChangeDone s
  | .segmentRead cmd ldpcOk => exact frame_segmentRead cmd ldpcOk s
  | .readRepair repair copy => exact frame_readRepair repair copy s
  | .repairRewrite repair => exact frame_repairRewrite repair s
  | .completionWrite cmd => exact frame_completionWrite cmd s
  | .scanBatchTimeout cmd => exact frame_scanBatchTimeout cmd s
  | .scanContextExpiry index => exact frame_scanContextExpiry index s
  | .halfWithdraw => exact frame_halfWithdraw s
  | .matchStateReloaded half => exact frame_matchStateReloaded half s
  | .matchScrub dieMask => exact frame_matchScrub dieMask s
  | .blockResetExit b => exact frame_blockResetExit b s
  | .engDoorbell ring tail entries => exact frame_engDoorbell ring tail entries s
  | .engCqHeadWrite ring headCount => exact frame_engCqHeadWrite ring headCount s
  | .engRingEnable ring => exact frame_engRingEnable ring s
  | .engAttachWrite code => exact frame_engAttachWrite code s
  | .unpin d key => exact frame_unpin d key s
  | .pin d key => exact frame_pin d key s
  | .rebuild d => exact frame_rebuild d s
  | .repairPoison d => exact frame_repairPoison d s
  | .mirrorScrub d => exact frame_mirrorScrub d s
  | .ruleWrite d pos recs => exact frame_ruleWrite d pos recs s
  | .ruleInsert d pos last recs => exact frame_ruleInsert d pos last recs s
  | .shiftComplete => exact frame_shiftComplete s
  | .ruleClear d pos => exact frame_ruleClear d pos s
  | .ruleSearch d word start issue => exact frame_ruleSearch d word start issue s
  | .ruleRead d pos => exact frame_ruleRead d pos s
  | .epochSet d epoch => exact frame_epochSet d epoch s
  | .scrubNow d dieMask => exact frame_scrubNow d dieMask s
  | .checkCompute d addr len algo fold data => exact frame_checkCompute d addr len algo fold data s
  | .keyGenerate d slot => exact frame_keyGenerate d slot s
  | .keyImport d slot wrapped => exact frame_keyImport d slot wrapped s
  | .keyRoll d slot => exact frame_keyRoll d slot s
  | .keyErase d slot => exact frame_keyErase d slot s
  | .keyQuery d slot => exact frame_keyQuery d slot s
  | .bufSeal d slot aad addr len job => exact frame_bufSeal d slot aad addr len job s
  | .bufOpen d sealWord aad tag addr len job => exact frame_bufOpen d sealWord aad tag addr len job s
  | .retiredGenRelease slot gen => exact frame_retiredGenRelease slot gen s
  | .eraseWaitExpiry slot => exact frame_eraseWaitExpiry slot s
  | .slotEccError slot hit => exact frame_slotEccError slot hit s
  | .reclaimBest d pool n => exact frame_reclaimBest d pool n s
  | .reclaimSb d sb => exact frame_reclaimSb d sb s
  | .verifyRelease d n badRows => exact frame_verifyRelease d n badRows s
  | .refreshDue d n => exact frame_refreshDue d n s
  | .patrol d n found => exact frame_patrol d n found s
  | .wearMove d => exact frame_wearMove d s
  | .peerWrite d entry => exact frame_peerWrite d entry s
  | .placeWrite d first entries => exact frame_placeWrite d first entries s
  | .templateWrite d number record => exact frame_templateWrite d number record s
  | .domainLoad d domain wrapped => exact frame_domainLoad d domain wrapped s
  | .resyncRange d firstKh lastKh => exact frame_resyncRange d firstKh lastKh s
  | .tenantWrite d record => exact frame_tenantWrite d record s
  | .tenantRead d tenant => exact frame_tenantRead d tenant s
  | .secretLoad d tenant wrapped => exact frame_secretLoad d tenant wrapped s
  | .secretClear d tenant => exact frame_secretClear d tenant s
  | .ownerChallenge via requester => exact frame_ownerChallenge via requester s
  | .ownerAuth via requester purpose response => exact frame_ownerAuth via requester purpose response s
  | .ownerSet via key ref => exact frame_ownerSet via key ref s
  | .ownerLock via set ref => exact frame_ownerLock via set ref s
  | .ownerErase via ref => exact frame_ownerErase via ref s
  | .chainWrite m => exact frame_chainWrite m s
  | .chainAck m => exact frame_chainAck m s
  | .chainRevoke m => exact frame_chainRevoke m s
  | .repairReq m => exact frame_repairReq m s
  | .repairResp m => exact frame_repairResp m s
  | .keepalive m => exact frame_keepalive m s
  | .keepaliveSend ctx => exact frame_keepaliveSend ctx s
  | .peerDead peer => exact frame_peerDead peer s
  | .peerLinkRequest peer port => exact frame_peerLinkRequest peer port s
  | .peerCmReq req => exact frame_peerCmReq req s
  | .peerCmRep ctx rep => exact frame_peerCmRep ctx rep s
  | .peerCmRtu ctx proof => exact frame_peerCmRtu ctx proof s
  | .successorAckTimeout cmd => exact frame_successorAckTimeout cmd s
  | .headChainTimeout cmd => exact frame_headChainTimeout cmd s
  | .repairTimeout repair => exact frame_repairTimeout repair s
  | .dedupeExpiry keyHash version => exact frame_dedupeExpiry keyHash version s
  | .revokeHoldExpiry keyHash version => exact frame_revokeHoldExpiry keyHash version s
  | .ledgerLineWrite line data failsA failsB ref => exact frame_ledgerLineWrite line data failsA failsB ref s
  | .gapMove group => exact frame_gapMove group s
  | .ledgerGroupFailed group => exact frame_ledgerGroupFailed group s
  | .ledgerDeviceFailed device => exact frame_ledgerDeviceFailed device s
  | .gaugeRefill => exact frame_gaugeRefill s
  | .ledgerPack range => exact frame_ledgerPack range s
  | .usageCheckpoint => exact frame_usageCheckpoint s
  | .mapCheckpoint => exact frame_mapCheckpoint s
  | .dieReadDone sb q outcome => exact frame_dieReadDone sb q outcome s
  | .droppedStitchRebuilt sb q secondFails => exact frame_droppedStitchRebuilt sb q secondFails s
  | .programDone sb pages => exact frame_programDone sb pages s
  | .programFail sb row position => exact frame_programFail sb row position s
  | .eraseDone sb => exact frame_eraseDone sb s
  | .eraseFail sb position => exact frame_eraseFail sb position s
  | .dieFailed channel die => exact frame_dieFailed channel die s
  | .channelFault channel cause => exact frame_channelFault channel cause s
  | .wordlinePad sb => exact frame_wordlinePad sb s
  | .programSuspend channel die => exact frame_programSuspend channel die s
  | .slcFold => exact frame_slcFold s
  | .autoReclaim => exact frame_autoReclaim s
  | .urgentVerify badRows => exact frame_urgentVerify badRows s
  | .refreshAuto sb => exact frame_refreshAuto sb s
  | .skeinDemote => exact frame_skeinDemote s
  | .faultEvent evs => exact frame_faultEvent evs s
  | .hangDetected what => exact frame_hangDetected what s
  | .railTest failing => exact frame_railTest failing s
  | .collectorMessage collector crcOk evs => exact frame_collectorMessage collector crcOk evs s
  | .stickyClear word mask => exact frame_stickyClear word mask s
  | .fltFirstClear => exact frame_fltFirstClear s
  | .errOutRelease code => exact frame_errOutRelease code s
  | .fltSwatchArm value => exact frame_fltSwatchArm value s
  | .valSwatchArm value => exact frame_valSwatchArm value s
  | .cipCtrPreset value => exact frame_cipCtrPreset value s
  | .cipAlarmSwWrite code => exact frame_cipAlarmSwWrite code s
  | .tamperDetected detector => exact frame_tamperDetected detector s
  | .glitchDetected => exact frame_glitchDetected s
  | .recordWrite => exact frame_recordWrite s
  | .recCopyBack => exact frame_recCopyBack s
  | .heartbeat => exact frame_heartbeat s
  | .heartbeatMissed => exact frame_heartbeatMissed s
  | .headlessTimeout => exact frame_headlessTimeout s
  | .activationDrainEnd => exact frame_activationDrainEnd s
  | .resetDrainEnd => exact frame_resetDrainEnd s
  | .chipStart given => exact frame_chipStart given s
  | .startDone => exact frame_startDone s
  | .startTimeout => exact frame_startTimeout s
  | .rstSoftWrite core code => exact frame_rstSoftWrite core code s
  | .recoveryDownload manifest stream => exact frame_recoveryDownload manifest stream s
  | .domainSwitch => exact frame_domainSwitch s
  | .phaseLost domain phase => exact frame_phaseLost domain phase s
  | .ps1Entry => exact frame_ps1Entry s
  | .ps2Entry => exact frame_ps2Entry s
  | .ps3Entry => exact frame_ps3Entry s
  | .ps3Request => exact frame_ps3Request s
  | .ps0Request => exact frame_ps0Request s
  | .wakeEvent source => exact frame_wakeEvent source s
  | .shedStageEntered stage input => exact frame_shedStageEntered stage input s
  | .shedStageLeft stage ms => exact frame_shedStageLeft stage ms s
  | .holdupTakeover input bank => exact frame_holdupTakeover input bank s
  | .holdupTest energyDj => exact frame_holdupTest energyDj s
  | .holdupNotReady => exact frame_holdupNotReady s
  | .thermalStageEntered stage temp => exact frame_thermalStageEntered stage temp s
  | .thermalStageLeft stage seconds => exact frame_thermalStageLeft stage seconds s
  | .thmSensorFault sensorA sensorB junction => exact frame_thmSensorFault sensorA sensorB junction s
  | .thermalCritical coldPlate junction => exact frame_thermalCritical coldPlate junction s
  | .thermalResetRelease => exact frame_thermalResetRelease s
  | .clockFault edges => exact frame_clockFault edges s
  | .p48vApplied => exact frame_p48vApplied s
  | .p3v3AuxLost => exact frame_p3v3AuxLost s
  | .resetInAssert => exact frame_resetInAssert s
  | .resetInRelease => exact frame_resetInRelease s
  | .pwrDisableAssert => exact frame_pwrDisableAssert s
  | .pwrDisableRelease => exact frame_pwrDisableRelease s
  | .presentNFall => exact frame_presentNFall s
  | .presentNRise => exact frame_presentNRise s
  | .transportSenseRise => exact frame_transportSenseRise s
  | .transportSenseClear => exact frame_transportSenseClear s
  | .smbusOffsetWrite raw => exact frame_smbusOffsetWrite raw s
  | .smbusRead n => exact frame_smbusRead n s
  | .identityRefresh => exact frame_identityRefresh s
  | .secTrialPass => exact frame_secTrialPass s
  | .secTrialFail => exact frame_secTrialFail s
  | .trialTimeout => exact frame_trialTimeout s
  | .commitTimeout => exact frame_commitTimeout s
  | .sessionIdleTimeout => exact frame_sessionIdleTimeout s
  | .attestTokenRefill => exact frame_attestTokenRefill s
  | .blockLockSet block => exact frame_blockLockSet block s
  | .sysLockAllSet => exact frame_sysLockAllSet s
  | .cascadeWrite value => exact frame_cascadeWrite value s
  | .rcFieldRead core addr => exact frame_rcFieldRead core addr s
  | .loWordRead core addr => exact frame_loWordRead core addr s
  | .registerWrite core addr width value => exact frame_registerWrite core addr width value s
  | .holdupReady => exact frame_holdupReady s
  | .overtemp temp => exact frame_overtemp temp s
  | .keyFetch cmd key => exact frame_keyFetch cmd key s
  | .cmDrep ctx => exact frame_cmDrep ctx s
  | .p3v3AuxApplied => exact frame_p3v3AuxApplied s
  | .willadraConnection tlsMinor => exact frame_willadraConnection tlsMinor s
  | .railPairFault src => exact frame_railPairFault src s

/-- An outcome that is a next state, or the fault of a ring that is set up outside DRAM group B. -/
def AnswersOrOutsideDram (o : Host.Outcome State Fault Refusal) : Prop := (∃ t, o = .next t) ∨ o = .fault .outsideDram

/-- A doorbell of an engine ring takes the tail, sets ERR, faults outside DRAM group B, or fills the ring. -/
theorem engDoorbell_answers (ring tail : Nat) (entries : List Bytes) (s : State) :
    AnswersOrOutsideDram (engDoorbell ring tail entries s) := by
  unfold engDoorbell
  dsimp only
  split_ifs
  · exact .inl ⟨_, rfl⟩
  · exact .inl ⟨_, rfl⟩
  · exact .inr rfl
  · exact .inl ⟨_, rfl⟩

/-- A write of a register can fault only as a doorbell. -/
theorem execRegisterWrite_answers (core : CoreId) (a w : Nat) (v : W32) (s : State) :
    AnswersOrOutsideDram (execRegisterWrite core a w v s) := by
  unfold execRegisterWrite
  split
  · exact .inl ⟨_, rfl⟩
  · split
    · exact .inl ⟨_, rfl⟩
    · split
      · exact .inl ⟨_, rfl⟩
      · split
        · exact engDoorbell_answers ..
        · exact .inl ⟨_, rfl⟩

/-- The commands that may ring a doorbell of an engine ring (R456). -/
def RingsDoorbell (c : Instr) : Prop :=
  (∃ ring tail entries, c = .engDoorbell ring tail entries) ∨ ∃ core a w v, c = .registerWrite core a w v

/-- Every other command answers a next state. -/
theorem exec_answers (c : Instr) (s : State) (h : ¬ RingsDoorbell c) : ∃ t, exec c s = .next t := by
  match c with
  | .get _ => exact ⟨_, rfl⟩
  | .put _ => exact ⟨_, rfl⟩
  | .delete _ => exact ⟨_, rfl⟩
  | .writeRange _ => exact ⟨_, rfl⟩
  | .punch _ => exact ⟨_, rfl⟩
  | .head _ => exact ⟨_, rfl⟩
  | .scan _ _ => exact ⟨_, rfl⟩
  | .scanNext _ _ => exact ⟨_, rfl⟩
  | .count _ _ => exact ⟨_, rfl⟩
  | .flush _ => exact ⟨_, rfl⟩
  | .nop _ => exact ⟨_, rfl⟩
  | .sessionOpen _ _ => exact ⟨_, rfl⟩
  | .sessionBlock _ _ _ => exact ⟨_, rfl⟩
  | .sessionActivate _ => exact ⟨_, rfl⟩
  | .sessionCommit _ => exact ⟨_, rfl⟩
  | .sessionClose _ => exact ⟨_, rfl⟩
  | .attest _ _ _ => exact ⟨_, rfl⟩
  | .identify _ _ => exact ⟨_, rfl⟩
  | .recRead _ _ _ => exact ⟨_, rfl⟩
  | .recClear _ _ _ _ => exact ⟨_, rfl⟩
  | .doorbell _ _ _ _ => exact ⟨_, rfl⟩
  | .unsupportedRequest _ => exact ⟨_, rfl⟩
  | .cmReq _ => exact ⟨_, rfl⟩
  | .cmRtu _ _ => exact ⟨_, rfl⟩
  | .cmDreq _ => exact ⟨_, rfl⟩
  | .connectingTimeout _ => exact ⟨_, rfl⟩
  | .descriptorFetch => exact ⟨_, rfl⟩
  | .descriptorAccept _ _ => exact ⟨_, rfl⟩
  | .phaseRefetch _ => exact ⟨_, rfl⟩
  | .remoteAccessNak _ => exact ⟨_, rfl⟩
  | .transportRetryExhausted _ => exact ⟨_, rfl⟩
  | .outcomeRecordExpiry _ _ => exact ⟨_, rfl⟩
  | .completionAcked _ => exact ⟨_, rfl⟩
  | .coalesceTimer _ => exact ⟨_, rfl⟩
  | .cePacketReceived _ => exact ⟨_, rfl⟩
  | .cnpReceived _ => exact ⟨_, rfl⟩
  | .ccTimerExpiry _ => exact ⟨_, rfl⟩
  | .linkDown _ => exact ⟨_, rfl⟩
  | .linkdownTimeout _ => exact ⟨_, rfl⟩
  | .linkUp _ => exact ⟨_, rfl⟩
  | .portRetrainEnd _ => exact ⟨_, rfl⟩
  | .opticsInsert _ _ _ _ => exact ⟨_, rfl⟩
  | .opticsRailTrip _ => exact ⟨_, rfl⟩
  | .policySearch _ _ => exact ⟨_, rfl⟩
  | .indexLookup _ _ _ _ => exact ⟨_, rfl⟩
  | .valueDataArrival _ _ => exact ⟨_, rfl⟩
  | .cipherJobDone _ _ _ => exact ⟨_, rfl⟩
  | .commitGate _ => exact ⟨_, rfl⟩
  | .mirrorChangeDone => exact ⟨_, rfl⟩
  | .segmentRead _ _ => exact ⟨_, rfl⟩
  | .readRepair _ _ => exact ⟨_, rfl⟩
  | .repairRewrite _ => exact ⟨_, rfl⟩
  | .completionWrite _ => exact ⟨_, rfl⟩
  | .scanBatchTimeout _ => exact ⟨_, rfl⟩
  | .scanContextExpiry _ => exact ⟨_, rfl⟩
  | .halfWithdraw => exact ⟨_, rfl⟩
  | .matchStateReloaded _ => exact ⟨_, rfl⟩
  | .matchScrub _ => exact ⟨_, rfl⟩
  | .blockResetExit _ => exact ⟨_, rfl⟩
  | .engDoorbell ring tail entries => exact absurd (.inl ⟨ring, tail, entries, rfl⟩) h
  | .engCqHeadWrite _ _ => exact ⟨_, rfl⟩
  | .engRingEnable _ => exact ⟨_, rfl⟩
  | .engAttachWrite _ => exact ⟨_, rfl⟩
  | .unpin _ _ => exact ⟨_, rfl⟩
  | .pin _ _ => exact ⟨_, rfl⟩
  | .rebuild _ => exact ⟨_, rfl⟩
  | .repairPoison _ => exact ⟨_, rfl⟩
  | .mirrorScrub _ => exact ⟨_, rfl⟩
  | .ruleWrite _ _ _ => exact ⟨_, rfl⟩
  | .ruleInsert _ _ _ _ => exact ⟨_, rfl⟩
  | .shiftComplete => exact ⟨_, rfl⟩
  | .ruleClear _ _ => exact ⟨_, rfl⟩
  | .ruleSearch _ _ _ _ => exact ⟨_, rfl⟩
  | .ruleRead _ _ => exact ⟨_, rfl⟩
  | .epochSet _ _ => exact ⟨_, rfl⟩
  | .scrubNow _ _ => exact ⟨_, rfl⟩
  | .checkCompute _ _ _ _ _ _ => exact ⟨_, rfl⟩
  | .keyGenerate _ _ => exact ⟨_, rfl⟩
  | .keyImport _ _ _ => exact ⟨_, rfl⟩
  | .keyRoll _ _ => exact ⟨_, rfl⟩
  | .keyErase _ _ => exact ⟨_, rfl⟩
  | .keyQuery _ _ => exact ⟨_, rfl⟩
  | .bufSeal _ _ _ _ _ _ => exact ⟨_, rfl⟩
  | .bufOpen _ _ _ _ _ _ _ => exact ⟨_, rfl⟩
  | .retiredGenRelease _ _ => exact ⟨_, rfl⟩
  | .eraseWaitExpiry _ => exact ⟨_, rfl⟩
  | .slotEccError _ _ => exact ⟨_, rfl⟩
  | .reclaimBest _ _ _ => exact ⟨_, rfl⟩
  | .reclaimSb _ _ => exact ⟨_, rfl⟩
  | .verifyRelease _ _ _ => exact ⟨_, rfl⟩
  | .refreshDue _ _ => exact ⟨_, rfl⟩
  | .patrol _ _ _ => exact ⟨_, rfl⟩
  | .wearMove _ => exact ⟨_, rfl⟩
  | .peerWrite _ _ => exact ⟨_, rfl⟩
  | .placeWrite _ _ _ => exact ⟨_, rfl⟩
  | .templateWrite _ _ _ => exact ⟨_, rfl⟩
  | .domainLoad _ _ _ => exact ⟨_, rfl⟩
  | .resyncRange _ _ _ => exact ⟨_, rfl⟩
  | .tenantWrite _ _ => exact ⟨_, rfl⟩
  | .tenantRead _ _ => exact ⟨_, rfl⟩
  | .secretLoad _ _ _ => exact ⟨_, rfl⟩
  | .secretClear _ _ => exact ⟨_, rfl⟩
  | .ownerChallenge _ _ => exact ⟨_, rfl⟩
  | .ownerAuth _ _ _ _ => exact ⟨_, rfl⟩
  | .ownerSet _ _ _ => exact ⟨_, rfl⟩
  | .ownerLock _ _ _ => exact ⟨_, rfl⟩
  | .ownerErase _ _ => exact ⟨_, rfl⟩
  | .chainWrite _ => exact ⟨_, rfl⟩
  | .chainAck _ => exact ⟨_, rfl⟩
  | .chainRevoke _ => exact ⟨_, rfl⟩
  | .repairReq _ => exact ⟨_, rfl⟩
  | .repairResp _ => exact ⟨_, rfl⟩
  | .keepalive _ => exact ⟨_, rfl⟩
  | .keepaliveSend _ => exact ⟨_, rfl⟩
  | .peerDead _ => exact ⟨_, rfl⟩
  | .peerLinkRequest _ _ => exact ⟨_, rfl⟩
  | .peerCmReq _ => exact ⟨_, rfl⟩
  | .peerCmRep _ _ => exact ⟨_, rfl⟩
  | .peerCmRtu _ _ => exact ⟨_, rfl⟩
  | .successorAckTimeout _ => exact ⟨_, rfl⟩
  | .headChainTimeout _ => exact ⟨_, rfl⟩
  | .repairTimeout _ => exact ⟨_, rfl⟩
  | .dedupeExpiry _ _ => exact ⟨_, rfl⟩
  | .revokeHoldExpiry _ _ => exact ⟨_, rfl⟩
  | .ledgerLineWrite _ _ _ _ _ => exact ⟨_, rfl⟩
  | .gapMove _ => exact ⟨_, rfl⟩
  | .ledgerGroupFailed _ => exact ⟨_, rfl⟩
  | .ledgerDeviceFailed _ => exact ⟨_, rfl⟩
  | .gaugeRefill => exact ⟨_, rfl⟩
  | .ledgerPack _ => exact ⟨_, rfl⟩
  | .usageCheckpoint => exact ⟨_, rfl⟩
  | .mapCheckpoint => exact ⟨_, rfl⟩
  | .dieReadDone _ _ _ => exact ⟨_, rfl⟩
  | .droppedStitchRebuilt _ _ _ => exact ⟨_, rfl⟩
  | .programDone _ _ => exact ⟨_, rfl⟩
  | .programFail _ _ _ => exact ⟨_, rfl⟩
  | .eraseDone _ => exact ⟨_, rfl⟩
  | .eraseFail _ _ => exact ⟨_, rfl⟩
  | .dieFailed _ _ => exact ⟨_, rfl⟩
  | .channelFault _ _ => exact ⟨_, rfl⟩
  | .wordlinePad _ => exact ⟨_, rfl⟩
  | .programSuspend _ _ => exact ⟨_, rfl⟩
  | .slcFold => exact ⟨_, rfl⟩
  | .autoReclaim => exact ⟨_, rfl⟩
  | .urgentVerify _ => exact ⟨_, rfl⟩
  | .refreshAuto _ => exact ⟨_, rfl⟩
  | .skeinDemote => exact ⟨_, rfl⟩
  | .faultEvent _ => exact ⟨_, rfl⟩
  | .hangDetected _ => exact ⟨_, rfl⟩
  | .railTest _ => exact ⟨_, rfl⟩
  | .collectorMessage _ _ _ => exact ⟨_, rfl⟩
  | .stickyClear _ _ => exact ⟨_, rfl⟩
  | .fltFirstClear => exact ⟨_, rfl⟩
  | .errOutRelease _ => exact ⟨_, rfl⟩
  | .fltSwatchArm _ => exact ⟨_, rfl⟩
  | .valSwatchArm _ => exact ⟨_, rfl⟩
  | .cipCtrPreset _ => exact ⟨_, rfl⟩
  | .cipAlarmSwWrite _ => exact ⟨_, rfl⟩
  | .tamperDetected _ => exact ⟨_, rfl⟩
  | .glitchDetected => exact ⟨_, rfl⟩
  | .recordWrite => exact ⟨_, rfl⟩
  | .recCopyBack => exact ⟨_, rfl⟩
  | .heartbeat => exact ⟨_, rfl⟩
  | .heartbeatMissed => exact ⟨_, rfl⟩
  | .headlessTimeout => exact ⟨_, rfl⟩
  | .activationDrainEnd => exact ⟨_, rfl⟩
  | .resetDrainEnd => exact ⟨_, rfl⟩
  | .chipStart _ => exact ⟨_, rfl⟩
  | .startDone => exact ⟨_, rfl⟩
  | .startTimeout => exact ⟨_, rfl⟩
  | .rstSoftWrite _ _ => exact ⟨_, rfl⟩
  | .recoveryDownload _ _ => exact ⟨_, rfl⟩
  | .domainSwitch => exact ⟨_, rfl⟩
  | .phaseLost _ _ => exact ⟨_, rfl⟩
  | .ps1Entry => exact ⟨_, rfl⟩
  | .ps2Entry => exact ⟨_, rfl⟩
  | .ps3Entry => exact ⟨_, rfl⟩
  | .ps3Request => exact ⟨_, rfl⟩
  | .ps0Request => exact ⟨_, rfl⟩
  | .wakeEvent _ => exact ⟨_, rfl⟩
  | .shedStageEntered _ _ => exact ⟨_, rfl⟩
  | .shedStageLeft _ _ => exact ⟨_, rfl⟩
  | .holdupTakeover _ _ => exact ⟨_, rfl⟩
  | .holdupTest _ => exact ⟨_, rfl⟩
  | .holdupNotReady => exact ⟨_, rfl⟩
  | .thermalStageEntered _ _ => exact ⟨_, rfl⟩
  | .thermalStageLeft _ _ => exact ⟨_, rfl⟩
  | .thmSensorFault _ _ _ => exact ⟨_, rfl⟩
  | .thermalCritical _ _ => exact ⟨_, rfl⟩
  | .thermalResetRelease => exact ⟨_, rfl⟩
  | .clockFault _ => exact ⟨_, rfl⟩
  | .p48vApplied => exact ⟨_, rfl⟩
  | .p3v3AuxLost => exact ⟨_, rfl⟩
  | .resetInAssert => exact ⟨_, rfl⟩
  | .resetInRelease => exact ⟨_, rfl⟩
  | .pwrDisableAssert => exact ⟨_, rfl⟩
  | .pwrDisableRelease => exact ⟨_, rfl⟩
  | .presentNFall => exact ⟨_, rfl⟩
  | .presentNRise => exact ⟨_, rfl⟩
  | .transportSenseRise => exact ⟨_, rfl⟩
  | .transportSenseClear => exact ⟨_, rfl⟩
  | .smbusOffsetWrite _ => exact ⟨_, rfl⟩
  | .smbusRead _ => exact ⟨_, rfl⟩
  | .identityRefresh => exact ⟨_, rfl⟩
  | .secTrialPass => exact ⟨_, rfl⟩
  | .secTrialFail => exact ⟨_, rfl⟩
  | .trialTimeout => exact ⟨_, rfl⟩
  | .commitTimeout => exact ⟨_, rfl⟩
  | .sessionIdleTimeout => exact ⟨_, rfl⟩
  | .attestTokenRefill => exact ⟨_, rfl⟩
  | .blockLockSet _ => exact ⟨_, rfl⟩
  | .sysLockAllSet => exact ⟨_, rfl⟩
  | .cascadeWrite _ => exact ⟨_, rfl⟩
  | .rcFieldRead _ _ => exact ⟨_, rfl⟩
  | .loWordRead _ _ => exact ⟨_, rfl⟩
  | .registerWrite core a w v => exact absurd (.inr ⟨core, a, w, v, rfl⟩) h
  | .holdupReady => exact ⟨_, rfl⟩
  | .overtemp _ => exact ⟨_, rfl⟩
  | .keyFetch _ _ => exact ⟨_, rfl⟩
  | .cmDrep _ => exact ⟨_, rfl⟩
  | .p3v3AuxApplied => exact ⟨_, rfl⟩
  | .willadraConnection _ => exact ⟨_, rfl⟩
  | .railPairFault _ => exact ⟨_, rfl⟩

/-- Settles O1: the queue's front is what a step carries out. -/
theorem stepRunsFront : Obligations.StepRunsFront := fun _ _ _ => rfl

/-- An idle cycle keeps both stores canonical, the queue, and the supply of free values. -/
theorem keeps_step_idle (s : State) : Keeps (fun _ => True) s (idleTick s) := by
  apply keeps_idleTick (Keeps.refl _ s) <;> trivial

/-- Settles O4: the frame of the front command (`keepsN_exec`), or of an idle cycle, carries the canonical form of both
stores and the counter of free values. -/
theorem stepsKeepCanonical : Obligations.StepsKeepCanonical := by
  intro s t ⟨hmem, hregs⟩ hstep
  match hp : s.pending with
  | [] =>
    have ht : t = idleTick s := by
      simpa [step, hp] using hstep.symm
    obtain ⟨-, hpending, hfree, kmem, kregs⟩ := keeps_step_idle s
    subst ht
    exact ⟨⟨kmem hmem, kregs hregs⟩, by simpa [hp] using hpending, hfree⟩
  | c :: rest =>
    have hexec : exec c { s with pending := rest } = .next t := by
      simpa only [step, hp] using hstep
    obtain ⟨-, hpending, hfree, kmem, kregs⟩ := keepsN_exec c _ t hexec
    exact ⟨⟨kmem hmem, kregs hregs⟩, by simpa [hp] using hpending, hfree⟩

/-- Settles O5: by the frame of the command. -/
theorem commandsLeaveTheRest : Obligations.CommandsLeaveTheRest := by
  intro c s t hexec
  obtain ⟨hsame, hpending, -, -, -⟩ := keepsN_exec c s t hexec
  exact ⟨hsame, hpending⟩

/-- Settles O6: only the two commands that ring a doorbell can fault, and only where the ring lies outside DRAM group B. -/
theorem everyCommandHasAnEffect : Obligations.EveryCommandHasAnEffect := by
  intro c s
  by_cases h : RingsDoorbell c
  · have answers : AnswersOrOutsideDram (exec c s) := by
      obtain ⟨ring, tail, entries, rfl⟩ | ⟨core, a, w, v, rfl⟩ := h
      · exact engDoorbell_answers ring tail entries s
      · exact execRegisterWrite_answers core a w v s
    exact answers.imp_right fun hfault => ⟨hfault, h⟩
  · exact .inl (exec_answers c s h)

end Sys2Proof.Machine
end

section
/-! PROOFS. Three statements that ask a field for the value that hardware stores in it, of every state: the fault collector
(O52), shedding and hold-up (O56), the rails (O58).

A word that takes its reset value is removed from the register table (`State.setReg`). The laws of stored registers
therefore ask that the table be canonical, and these statements do not: where the table lists a register twice, the removal
of the first entry brings the second one to light. -/

namespace Sys2Proof.Machine

/-- The state after reset, with one register listed twice in its table. -/
def withRegTwice (a : Nat) (first second : W32) : State := { State.reset with regs := [(a, first), (a, second)] }

/-- The register table of such a state is not canonical. -/
theorem not_wf_withRegTwice (a : Nat) (first second : W32) : ¬ Tbl.wf (withRegTwice a first second).regs = true := by
  simp [withRegTwice, Tbl.wf]

/-! ## FLT_SWATCH_ARM (R540) -/

/-- FLT_SWATCH_CTL listed twice: armed, and under it with target 3. -/
def swatchTwice : State := withRegTwice 0x150030 0x80000000 0x03000000

theorem exec_fltSwatchArm (value : W32) (s : State) : exec (.fltSwatchArm value) s = .next (s.swatchCtlWrite value) := rfl

/-- A write of 0 leaves TARGET at 3. -/
theorem target_swatchCtlWrite_swatchTwice : (swatchTwice.swatchCtlWrite 0).fld Reg.FLT_SWATCH_CTL_TARGET = 3 := by
  decide +kernel

/-- Refutes O52: in `swatchTwice` FLT_SWATCH_ARM with the value 0 leaves TARGET at 3, where the clause on swatches asks for
the TARGET of the value, which is 0. -/
theorem not_faultsAreCollected : ¬ Obligations.FaultsAreCollected := by
  unfold Obligations.FaultsAreCollected
  rintro ⟨-, -, -, -, -, swatches⟩
  obtain ⟨⟨t, hexec, target, -⟩, -⟩ := swatches swatchTwice 0
  rw [exec_fltSwatchArm] at hexec
  have ht : swatchTwice.swatchCtlWrite 0 = t := Host.Outcome.next.inj hexec
  rw [← ht, target_swatchCtlWrite_swatchTwice] at target
  exact absurd target (by decide)

/-! ## HOLDUP_TEST (R504) -/

/-- PWR_HOLDUP_STAT listed twice, each time with TEST_FAILED set. -/
def testFailedTwice : State := withRegTwice 0x20040 0x40000000 0x40000000

/-- The state that a HOLDUP_TEST leaves. -/
def afterHoldupTest (dj : Nat) (s : State) : State :=
  match exec (.holdupTest dj) s with
  | .next t => t
  | _ => s

theorem exec_holdupTest (dj : Nat) (s : State) : exec (.holdupTest dj) s = .next (afterHoldupTest dj s) := rfl

/-- A test that passes leaves TEST_FAILED set. -/
theorem testFailed_afterHoldupTest_testFailedTwice :
    (afterHoldupTest 30 testFailedTwice).fld Reg.PWR_HOLDUP_STAT_TEST_FAILED = 1 := by decide +kernel

/-- Refutes O56: in `testFailedTwice` a HOLDUP_TEST that measures 3.0 J leaves TEST_FAILED at 1, where the clause on a test
that passes asks for 0. -/
theorem not_sheddingAndHoldup : ¬ Obligations.SheddingAndHoldup := by
  unfold Obligations.SheddingAndHoldup
  rintro ⟨-, -, -, -, -, tests, -⟩
  obtain ⟨passes, -⟩ := tests testFailedTwice 30
  obtain ⟨t, hexec, field, -⟩ := passes (Nat.le_refl 30)
  rw [exec_holdupTest] at hexec
  have ht : afterHoldupTest 30 testFailedTwice = t := Host.Outcome.next.inj hexec
  rw [← ht, testFailed_afterHoldupTest_testFailedTwice] at field
  exact absurd field (by decide)

/-! ## P48V_APPLIED (R485, R599) -/

/-- No rail is present, and RST_START_CFG is listed twice, each time with LIMIT_S at 7. -/
def limitTwice : State :=
  let s := withRegTwice 0x3000C 7 7
  { s with pwr := { s.pwr with p48Present := false, auxPresent := false } }

/-- The state once the first rail has come. -/
def afterP48vApplied (s : State) : State :=
  match exec .p48vApplied s with
  | .next t => t
  | _ => s

theorem exec_p48vApplied_next (s : State) : exec .p48vApplied s = .next (afterP48vApplied s) := rfl

/-- PD00 starts, and LIMIT_S stays at 7; its reset value is 120. -/
theorem limit_afterP48vApplied_limitTwice : (afterP48vApplied limitTwice).fld Reg.RST_START_CFG_LIMIT_S = 7 := by
  decide +kernel

/-- Refutes O58: in `limitTwice` the first rail starts PD00 and leaves LIMIT_S at 7, where the clause on the first rail asks
for 120. -/
theorem not_pinsRailsAndPorts : ¬ Obligations.PinsRailsAndPorts := by
  unfold Obligations.PinsRailsAndPorts
  rintro ⟨rails, -⟩
  obtain ⟨-, first⟩ := rails limitTwice rfl
  obtain ⟨t, hexec, -, -, -, limit⟩ := first rfl
  rw [exec_p48vApplied_next] at hexec
  have ht : afterP48vApplied limitTwice = t := Host.Outcome.next.inj hexec
  rw [← ht, limit_afterP48vApplied_limitTwice] at limit
  exact absurd limit (by decide)

end Sys2Proof.Machine
end

section
/-! PROOFS. The directives of the peer ring (O38).

Whether RESYNC_RANGE sends a variant hangs on one thing that its last clause does not ask for: a variant that cannot be
sealed for transit is not sent (`State.transitBar`, R303, R424). -/

namespace Sys2Proof.Machine

open Sys2Proof.Tests (chained recChained varChained entryOf d0)

/-- The key's peer 7 takes sealed transit only, and the slot of its domain holds no key. -/
def peerUnkeyed : State :=
  let s := chained false
  { s with peer := { s.peer with entries := [(7, { parsePeer (entryOf 1 0) with sealTransit := true })] } }

/-- A chained variant of four bytes with none of them stored, which reads as zeros. -/
def varHole : Variant := { varChained with length := 4 }

theorem headPath_peerUnkeyed : peerUnkeyed.headPath recChained.kh 1 = [7] := by decide +kernel

theorem template_peerUnkeyed : tget peerUnkeyed.peer.templates varHole.template = some ⟨1, false, 100, false⟩ := by
  decide +kernel

theorem variantBytes_varHole (s : State) : s.variantBytes recChained 0 varHole = (some (zeros 4), s) := rfl

theorem resyncVariant_peerUnkeyed : (peerUnkeyed.resyncVariant recChained 0 varHole).1 = false := by decide +kernel

/-- Refutes O38: in `peerUnkeyed` the variant can be read and its path is [7], but it cannot be sealed for peer 7, so
that it is not sent, where the last clause has it sent. -/
theorem not_peerDirectives : ¬ Obligations.PeerDirectives := by
  unfold Obligations.PeerDirectives
  rintro ⟨-, -, -, -, -, resync⟩
  obtain ⟨-, -, -, -, sent⟩ := resync peerUnkeyed d0 0 0 (by decide +kernel)
  have h := sent recChained 0 varHole _ _ _ _ _ template_peerUnkeyed headPath_peerUnkeyed (variantBytes_varHole _)
  have hfst := congrArg Prod.fst h
  rw [resyncVariant_peerUnkeyed] at hfst
  exact absurd hfst (by decide)

end Sys2Proof.Machine
end

section
/-! PROOFS. Who may write a register (O60): what an access by a core comes to once the core runs and the access is good. -/

namespace Sys2Proof.Machine

theorem exec_rcFieldRead (core : CoreId) (a : Nat) (s : State) :
    exec (.rcFieldRead core a) s = .next (guardStep (s.coreRuns core) s fun s => s.readReg core a) := rfl

theorem exec_loWordRead (core : CoreId) (a : Nat) (s : State) :
    exec (.loWordRead core a) s = .next (guardStep (s.coreRuns core) s fun s => s.readReg core a) := rfl

/-- A read of a register that exists does not depend on the core. -/
theorem State.readReg_of_goodAccess {a : Nat} (good : goodAccess a 4 = true) (s : State) (core core' : CoreId) :
    s.readReg core a = s.readReg core' a := by
  obtain ⟨aligned, found⟩ : a % 4 = 0 ∧ (regAt a).isSome = true := by simpa [goodAccess] using good
  obtain ⟨d, hd⟩ := Option.isSome_iff_exists.mp found
  simp only [State.readReg, if_pos aligned, hd]

/-- A good write by a core that runs, to a register that only the service cores write. -/
theorem exec_registerWrite_dropped {s : State} {core : CoreId} {a : Nat} {value : W32} (runs : s.coreRuns core = true)
    (good : goodAccess a 4 = true) (only : (decide (core ≠ .service) && serviceOnly a) = true) :
    exec (.registerWrite core a 4 value) s = .next s := by
  show execRegisterWrite core a 4 value s = _
  unfold execRegisterWrite
  rw [if_neg (by simp [runs]), if_neg (by simp [good]), if_pos only]

/-- Good writes by two cores that run, to a register that both of them write, are the same. -/
theorem exec_registerWrite_congr {s : State} {core core' : CoreId} {a : Nat} (value : W32) (runs : s.coreRuns core = true)
    (runs' : s.coreRuns core' = true) (good : goodAccess a 4 = true)
    (may : ¬(decide (core ≠ .service) && serviceOnly a) = true) (may' : ¬(decide (core' ≠ .service) && serviceOnly a) = true) :
    exec (.registerWrite core a 4 value) s = exec (.registerWrite core' a 4 value) s := by
  show execRegisterWrite core a 4 value s = execRegisterWrite core' a 4 value s
  simp only [execRegisterWrite, runs, runs', good, if_neg may, if_neg may', Bool.true_eq_false, if_false]

/-- The registers of R447. -/
theorem serviceOnly_eq_true_iff (a : Nat) : serviceOnly a = true ↔
    (a / 0x10000 = 0x01 ∨ a / 0x10000 = 0x03 ∨ a / 0x10000 = 0x15 ∨ a / 0x10000 = 0x17 ∨ a = 0x140000) ∧
      a ≠ 0x30004 ∧ a ≠ 0x170020 := by
  simp only [serviceOnly, List.contains_eq_mem, Bool.or_eq_true, Bool.and_eq_true, decide_eq_true_eq, List.mem_cons,
    List.not_mem_nil, or_false]
  omega

/-- Settles O60: the application cores are refused exactly the registers of `serviceOnly`, and a read that meets a
register does not look at the core. -/
theorem whoMayWriteRegisters : Obligations.WhoMayWriteRegisters := by
  unfold Obligations.WhoMayWriteRegisters
  intro s n a value service app good
  refine ⟨fun block start trial => ?_, fun other => ?_, ?_, ?_⟩
  · exact exec_registerWrite_dropped app good (by simp [(serviceOnly_eq_true_iff a).2 ⟨block, start, trial⟩])
  · have may : serviceOnly a = false := by
      rw [← Bool.not_eq_true, serviceOnly_eq_true_iff]
      omega
    exact exec_registerWrite_congr value app service good (by simp [may]) (by simp)
  · rw [exec_rcFieldRead, exec_rcFieldRead, app, service]
    exact congrArg _ (State.readReg_of_goodAccess good s _ _)
  · rw [exec_loWordRead, exec_loWordRead, app, service]
    exact congrArg _ (State.readReg_of_goodAccess good s _ _)

end Sys2Proof.Machine
end

section
/-! PROOFS. Temperature and the reference clock (O57), with two laws that later parts use: a field that does not take its
reset value, and what a raised alarm keeps. -/

namespace Sys2Proof.Machine

variable {o s t : State}

/-! ## Fields that do not take their reset value -/

/-- A register set to something else than its reset value reads as set, of any register table. -/
theorem State.reg_setReg_of_ne_cold {a : Nat} {w : W32} (hot : w ≠ coldAt a) : (s.setReg a w).reg a = w := by
  simp [State.setReg, State.reg, if_neg hot, tget_tset_self]

/-- So does a field. -/
theorem State.fld_setFld_of_ne_cold {f : Field} {v : Nat} (inWord : f.hi < 32)
    (hot : v % 2 ^ (f.hi + 1 - f.lo) ≠ f.of (coldAt f.addr)) : (s.setFld f v).fld f = v % 2 ^ (f.hi + 1 - f.lo) := by
  have put : f.of (f.put (s.reg f.addr) v) = v % 2 ^ (f.hi + 1 - f.lo) := Field.of_put_self f _ _ inWord
  unfold State.setFld State.fld
  rw [State.reg_setReg_of_ne_cold, put]
  rintro cold
  exact hot (by rw [← put, cold])

/-! ## Alarms (R324, R325) -/

theorem persists_cipRefused (code slot : Nat) (h : Persists o s) : Persists o (s.cipRefused code slot) :=
  persists_raise _ _ h

theorem persists_alarmDirectives (slots : List (Nat × KeySlot)) (h : Persists o s) :
    Persists o (s.alarmDirectives slots) := by
  induction slots generalizing s with
  | nil => exact h
  | cons e slots ih =>
    exact ih (persists_foldl _ (fun _ _ => persists_finish _ _ _ _)
      _ (persists_foldl _ (fun _ _ k => persists_finish _ _ _ _ (persists_cipRefused _ _ k)) _ h))

/-- What an alarm from enabled sources raises and leaves: 425 among its events, ALARM, and all outside CIP, LDG, the rings
with their memory, and FLT. -/
theorem State.cipAlarm_spec {sources : Nat} (real : sources &&& s.fld Reg.CIP_ALARM_EN_ENABLE ≠ 0) :
    (∃ evs, (s.cipAlarm sources).flt.raised = s.flt.raised ++ evs ∧
      ⟨425, item1 (sources &&& s.fld Reg.CIP_ALARM_EN_ENABLE)⟩ ∈ evs) ∧ (s.cipAlarm sources).cip.alarm = true ∧
      (s.cipAlarm sources).pwr = s.pwr := by
  obtain ⟨erases, shape⟩ : ∃ erases, s.cipAlarm sources
      = s.cip.waitRestore.foldl (fun s w => (s.cipRefused 2 (0x410 + w.2.1)).finish 6 w.1 esRefused [])
        ((s.alarmed (sources &&& s.fld Reg.CIP_ALARM_EN_ENABLE) erases).alarmDirectives s.cip.slots) := by
    simp only [State.cipAlarm, if_neg real]
    exact ⟨_, rfl⟩
  generalize sources &&& s.fld Reg.CIP_ALARM_EN_ENABLE = on at *
  have directives : Keeps (· ≠ .cip) (s.alarmed on erases) (s.cipAlarm sources) := by
    rw [shape]
    exact keeps_foldl _ _ (fun _ _ k => keeps_finish _ _ _ _ (keeps_cipRefused _ _ k (by simp)) (by simp) (by simp)
      (by simp) (by decide)) (keeps_alarmDirectives _ (Keeps.refl _ _) (by simp) (by simp) (by simp) (by decide))
  have raised : Persists (s.alarmed on erases) (s.cipAlarm sources) := by
    rw [shape]
    exact persists_foldl _ (fun _ _ k => persists_finish _ _ _ _ (persists_cipRefused _ _ k)) _
      (persists_alarmDirectives _ (Persists.refl _))
  refine ⟨?_, ?_, ?_⟩
  · obtain ⟨more, first, -⟩ := State.raised_alarmed (s := s) (on := on) (erases := erases)
    obtain ⟨rest, later⟩ := raised.raised
    refine ⟨more ++ [⟨425, leBytes 1 on⟩] ++ rest, ?_, by simp [item1]⟩
    rw [← later, first, List.append_assoc s.flt.raised, List.append_assoc]
  · have same : (s.cipAlarm sources).cip = (s.alarmed on erases).cip := directives.same .cip (by simp)
    rw [same, State.cip_alarmed]
    rfl
  · exact (keeps_cipAlarm sources (Keeps.refl (· ≠ .pwr) s) (by simp) (by simp) (by simp) (by simp) (by simp) (by decide)
      (by decide)).same .pwr (by simp)

/-- Bit `k` of a number, as a mask, meets it in that bit. -/
theorem two_pow_and_eq (k n : Nat) : 2 ^ k &&& n = if n.testBit k then 2 ^ k else 0 := by
  rw [Nat.and_comm, Nat.and_two_pow]
  cases n.testBit k <;> simp

/-- One source that is enabled. -/
theorem State.cipAlarm_enabled {source k : Nat} (one : source = 2 ^ k)
    (enabled : (s.fld Reg.CIP_ALARM_EN_ENABLE).testBit k = true) :
    (∃ evs, (s.cipAlarm source).flt.raised = s.flt.raised ++ evs ∧ ⟨425, item1 source⟩ ∈ evs) ∧
      (s.cipAlarm source).cip.alarm = true ∧ (s.cipAlarm source).pwr = s.pwr := by
  have on : source &&& s.fld Reg.CIP_ALARM_EN_ENABLE = source := by rw [one, two_pow_and_eq, enabled, if_pos rfl]
  have spec := State.cipAlarm_spec (s := s) (sources := source) (by rw [on, one]; exact (Nat.two_pow_pos k).ne')
  rwa [on] at spec

/-- One that is not enabled raises no alarm. -/
theorem State.cipAlarm_disabled {source k : Nat} (one : source = 2 ^ k)
    (disabled : (s.fld Reg.CIP_ALARM_EN_ENABLE).testBit k = false) : s.cipAlarm source = s := by
  have off : source &&& s.fld Reg.CIP_ALARM_EN_ENABLE = 0 := by
    rw [one, two_pow_and_eq, disabled, if_neg Bool.false_ne_true]
  simp [State.cipAlarm, off]

/-! ## Thermal stages (R509) -/

/-- A stage takes effect: the halves are capped after the event. -/
theorem State.enterThermal_spec {stage : Nat} {temp : Int} (low : 1 ≤ stage) (high : stage ≤ 4) :
    (s.enterThermal stage temp).pwr = { s.pwr with stage := stage } ∧
      (s.enterThermal stage temp).fld Reg.THM_STAGE_PEAK = max (s.fld Reg.THM_STAGE_PEAK) stage ∧
      (s.enterThermal stage temp).flt.raised = s.flt.raised ++ [⟨1120, item1 stage ++ tempItem temp⟩] ∧
      ∀ r, r .pwr → r .flt → r .mch → r (.reg Reg.THM_STAGE_PEAK.addr) → Keeps r o s →
        Keeps r o (s.enterThermal stage temp) := by
  refine ⟨rfl, ?_, rfl, fun r pwr flt mch peak h => ?_⟩
  · have narrow : s.fld Reg.THM_STAGE_PEAK < 8 := Nat.mod_lt _ (by decide)
    have fits : max (s.fld Reg.THM_STAGE_PEAK) stage % 8 = max (s.fld Reg.THM_STAGE_PEAK) stage :=
      Nat.mod_eq_of_lt (by omega)
    have cold : Reg.THM_STAGE_PEAK.of (coldAt Reg.THM_STAGE_PEAK.addr) = 0 := by decide +kernel
    refine Eq.trans (State.fld_setFld_of_ne_cold (by decide) (?_ : max (s.fld Reg.THM_STAGE_PEAK) stage % 8 ≠ _)) fits
    rw [cold]
    omega
  · exact keeps_capHalves (keeps_raise _ _ (keeps_setFld _ _ (keeps_onPwr _ h pwr) peak) flt) mch

theorem exec_thermalStageEntered_enters {stage : Nat} {temp : Int} (fits : stage ≤ 4) (rises : s.pwr.stage < stage)
    (warm : enterTemp stage - s.earlyTemp ≤ temp) :
    exec (.thermalStageEntered stage temp) s
      = .next ((s.onPwr fun p => { p with coldPlate := temp }).enterThermal stage temp) := by
  show execThermalStageEntered stage temp s = _
  simp [execThermalStageEntered, fits, rises, warm]

theorem exec_thermalStageEntered_stays {stage : Nat} {temp : Int}
    (stays : stage ≤ s.pwr.stage ∨ temp < enterTemp stage - s.earlyTemp) :
    exec (.thermalStageEntered stage temp) s = .next s := by
  have off : (decide (stage ≤ 4) && decide (s.pwr.stage < stage) && decide (enterTemp stage - s.earlyTemp ≤ temp)) = false := by
    simp only [Bool.and_eq_false_iff, decide_eq_false_iff_not]
    omega
  show execThermalStageEntered stage temp s = _
  rw [execThermalStageEntered, off, guardStep_false]

/-- A stage has been left and reported; the searches that it held back have not gone on yet. -/
def State.leftThermal (s : State) (stage seconds : Nat) : State :=
  let s := s.onPwr fun p => { p with stage := stage - 1 }
  (if stage = 1 then s.bump Reg.THM_TIME_THROTTLE_S seconds else s).raise 1121 (item1 stage ++ item4 seconds)

theorem State.leftThermal_spec (stage seconds : Nat) :
    (s.leftThermal stage seconds).pwr = { s.pwr with stage := stage - 1 } ∧
      (s.leftThermal stage seconds).flt.raised = s.flt.raised ++ [⟨1121, item1 stage ++ item4 seconds⟩] ∧
      (s.leftThermal stage seconds).cip = s.cip ∧ (s.leftThermal stage seconds).sch = s.sch := by
  unfold State.leftThermal
  split <;> exact ⟨rfl, rfl, rfl, rfl⟩

theorem exec_thermalStageLeft_leaves {stage seconds : Nat} (real : 1 ≤ stage) (inForce : s.pwr.stage = stage)
    (free : ¬(s.pwr.stageHeld = true ∧ stage = 3)) :
    exec (.thermalStageLeft stage seconds) s
      = .next ((s.leftThermal stage seconds).serveHalves (s.leftThermal stage seconds).mch.waitHalves.length) := by
  have on : (decide (1 ≤ stage) && decide (s.pwr.stage = stage) && !(s.pwr.stageHeld && decide (stage = 3))) = true := by
    simpa [real, inForce, imp_iff_not_or] using free
  show execThermalStageLeft stage seconds s = _
  rw [execThermalStageLeft, on, guardStep_true]
  rfl

theorem exec_thermalStageLeft_held {seconds : Nat} (held : s.pwr.stageHeld = true) :
    exec (.thermalStageLeft 3 seconds) s = .next s := by
  show execThermalStageLeft 3 seconds s = _
  simp [execThermalStageLeft, held]

/-- Searches that go on touch the match engine alone. -/
theorem State.serveHalves_spec (n : Nat) :
    (s.serveHalves n).pwr = s.pwr ∧ (s.serveHalves n).flt = s.flt ∧ (s.serveHalves n).cip = s.cip ∧
      (s.serveHalves n).sch = s.sch := by
  have kept : Keeps (· = .mch) s (s.serveHalves n) := keeps_serveHalves n (Keeps.refl _ s) rfl
  exact ⟨kept.same .pwr (by simp), kept.same .flt (by simp), kept.same .cip (by simp), kept.same .sch (by simp)⟩

/-! ## Sensors (R508) -/

theorem rejected_none {a b junction : Int} (ha : sensorInRange a = true) (hb : sensorInRange b = true)
    (near : (a - b).natAbs ≤ 80) : rejected a b junction = (false, false) := by
  simp [rejected, ha, hb, Nat.not_lt.2 near]

theorem rejected_outOfRange {a b junction : Int} (ha : sensorInRange a = false) :
    rejected a b junction = (true, !sensorInRange b) := by
  simp [rejected, ha]

/-! ## Events that raise an alarm (R31, R324) -/

theorem exec_overtemp_hot {temp : Int} (hot : 1200 < temp) :
    exec (.overtemp temp) s = .next ((s.onPwr fun p => { p with dieMax := temp }).cipAlarm 8) := by
  show execOvertemp temp s = _
  simp [execOvertemp, hot]

theorem exec_clockFault_off {edges : Nat} (off : edges < 2900 ∨ 3200 < edges) :
    exec (.clockFault edges) s = .next ((s.raise 3 (item4 edges)).cipAlarm 4) := by
  have on : (decide (edges < 2900) || decide (3200 < edges)) = true := by simpa using off
  show execClockFault edges s = _
  rw [execClockFault, on, guardStep_true]

/-- Settles O57: each event by the equation of its step; an alarm by `State.cipAlarm_spec`. -/
theorem temperatureAndClock : Obligations.TemperatureAndClock := by
  unfold Obligations.TemperatureAndClock
  refine ⟨fun s stage temp fits => ⟨fun rises warm => ?_, exec_thermalStageEntered_stays⟩,
    fun s stage seconds real inForce => ⟨fun free => ?_, fun held three => ?_⟩,
    fun s a b junction sensorA sensorB => ⟨fun ha hb near => ?_, fun ha hb => ?_, fun ha hb low => ?_⟩,
    fun s plate junction => ⟨fun critical => ?_, fun cool calm => ?_, ?_⟩,
    fun s temp => ⟨fun hot enabled => ?_, fun hot disabled => ?_, fun mild => ?_⟩,
    fun s edges => ⟨fun off disabled => ?_, fun off enabled => ?_, fun low high => ?_⟩⟩
  · obtain ⟨pwr, peak, raised, kept⟩ := State.enterThermal_spec (o := s) (s := s.onPwr fun p => { p with coldPlate := temp })
      (stage := stage) (temp := temp) (by omega) fits
    exact ⟨_, exec_thermalStageEntered_enters fits rises warm, pwr, peak, raised,
      (kept (· ∈ [.pwr, .flt, .mch, .reg Reg.THM_STAGE_PEAK.addr]) (by simp) (by simp) (by simp) (by simp)
        (keeps_onPwr _ (Keeps.refl _ s) (by simp))).onlyChanges⟩
  · obtain ⟨pwr, raised, cip, sch⟩ := s.leftThermal_spec stage seconds
    obtain ⟨pwr', flt', cip', sch'⟩ := State.serveHalves_spec (s := s.leftThermal stage seconds)
      (s.leftThermal stage seconds).mch.waitHalves.length
    exact ⟨_, exec_thermalStageLeft_leaves real inForce free, pwr'.trans pwr, (congrArg Flt.raised flt').trans raised,
      cip'.trans cip, sch'.trans sch⟩
  · subst three
    exact exec_thermalStageLeft_held held
  · refine ⟨_, rfl, ?_, ?_⟩
    · simp [rejected_none ha hb near, coldPlateOf, sensorA, sensorB]
    · simp only [rejected_none ha hb near, Bool.false_and, Bool.false_eq_true, if_false]
      exact (keeps_onPwr _ (Keeps.refl _ s) (by simp)).onlyChanges
  · refine ⟨_, rfl, ?_, ?_, ?_⟩
    · simp [rejected_outOfRange ha, hb, coldPlateOf, sensorA, sensorB]
    · simp [rejected_outOfRange ha, hb, coldPlateOf, sensorA, sensorB]
    · simp only [rejected_outOfRange ha, hb, sensorA, Bool.not_true, Bool.not_false, Bool.true_and, Bool.false_and,
        Bool.and_false, Bool.false_eq_true, if_false, if_true]
      exact (keeps_raise _ _ (keeps_onPwr _ (Keeps.refl _ s) (by simp)) (by simp)).onlyChanges
  · refine ⟨_, rfl, ?_, ?_, ?_, ?_⟩ <;>
      simp [rejected_outOfRange ha, hb, coldPlateOf, sensorA, sensorB, low, State.enterThermal, State.capHalves]
  · have on : (decide (1024 ≤ plate) || decide (1120 ≤ junction)) = true := by simpa using critical
    refine ⟨_, congrArg Host.Outcome.next (congrArg (guardStep · s _) on), rfl, rfl, ?_⟩
    exact (keeps_raise _ _ (keeps_onRst _ (keeps_onPwr _ (Keeps.refl _ s) (by simp)) (by simp)) (by simp)).onlyChanges
  · have off : (decide (1024 ≤ plate) || decide (1120 ≤ junction)) = false := by simp; omega
    exact congrArg Host.Outcome.next (congrArg (guardStep · s _) off)
  · exact ⟨_, rfl, rfl, (keeps_onRst _ (Keeps.refl _ s) (by simp)).onlyChanges⟩
  · obtain ⟨⟨evs, raised, alarm⟩, set, pwr⟩ := State.cipAlarm_enabled (s := s.onPwr fun p => { p with dieMax := temp })
      (source := 8) (k := 3) rfl enabled
    exact ⟨_, exec_overtemp_hot hot, pwr, set, raised ▸ List.mem_append_right _ alarm⟩
  · refine ⟨_, exec_overtemp_hot hot, ?_⟩
    rw [State.cipAlarm_disabled (s := s.onPwr fun p => { p with dieMax := temp }) (source := 8) (k := 3) rfl disabled]
    exact ⟨rfl, (keeps_onPwr _ (Keeps.refl _ s) (by simp)).onlyChanges⟩
  · exact congrArg Host.Outcome.next (congrArg (guardStep · s _) (decide_eq_false (by omega)))
  · refine ⟨_, exec_clockFault_off off, ?_⟩
    rw [State.cipAlarm_disabled (s := s.raise 3 (item4 edges)) (source := 4) (k := 2) rfl disabled]
    exact ⟨rfl, (keeps_raise _ _ (Keeps.refl _ s) (by simp)).onlyChanges⟩
  · obtain ⟨⟨evs, raised, alarm⟩, set, -⟩ := State.cipAlarm_enabled (s := s.raise 3 (item4 edges)) (source := 4) (k := 2)
      rfl enabled
    exact ⟨_, evs, exec_clockFault_off off, raised, alarm, set⟩
  · have calm : (decide (edges < 2900) || decide (3200 < edges)) = false := by simp; omega
    exact congrArg Host.Outcome.next (congrArg (guardStep · s _) calm)

end Sys2Proof.Machine
end

section
/-! PROOFS. The power states (O55): what an entry, a wake, a switch of one domain and a lost phase do. -/

namespace Sys2Proof.Machine

variable {o s : State}

/-! ## Entries (R491, R495) -/

theorem State.ps_enterPs (ps : Nat) : (s.enterPs ps).pwr.ps = ps := rfl

theorem State.raised_enterPs (ps : Nat) : (s.enterPs ps).flt.raised
    = s.flt.raised ++ [⟨70, item1 s.pwr.ps ++ item1 ps ++ item1 s.pwr.wakeSrc⟩] := rfl

theorem State.domains_enterPs (ps n : Nat) (real : n < 30) :
    (s.enterPs ps).pwr.domains[n]? = some (domainMode ps s.lpPort n) := by
  show ((List.range 30).map (domainMode ps s.lpPort))[n]? = _
  rw [List.getElem?_map, List.getElem?_range real]
  rfl

theorem State.changes_enterPs (ps : Nat) : OnlyChanges [.pwr, .flt] s (s.enterPs ps) :=
  (keeps_enterPs ps (Keeps.refl (· ∈ [.pwr, .flt]) s) (by simp) (by simp)).onlyChanges

theorem State.domains_enterStandby (n : Nat) (real : n < 30) :
    s.enterStandby.pwr.domains[n]? = some (domainMode 3 s.lpPort n) := State.domains_enterPs 3 n real

theorem State.raised_enterStandby : s.enterStandby.flt.raised
    = s.flt.raised ++ [⟨70, item1 s.pwr.ps ++ item1 3 ++ item1 s.pwr.wakeSrc⟩] := rfl

theorem State.changes_enterStandby (h : Keeps (· ∈ [.pwr, .flt]) o s) : OnlyChanges [.pwr, .flt] o s.enterStandby :=
  (keeps_enterStandby h (by simp) (by simp)).onlyChanges

/-- Quiet enough to leave PS1 is quiet enough to leave PS0, with no domain due. -/
theorem State.due_of_quiet2 (quiet : s.quiet2 = true) : s.pwr.due = [] := by
  simp only [State.quiet2, State.quiet1, Bool.and_eq_true, List.isEmpty_iff] at quiet
  tauto

/-- An entry into PS2 leaves the drive as quiet as it was. -/
theorem State.quiet3_enterPs (quiet : s.quiet2 = true) (ps : Nat) : (s.enterPs ps).quiet3 = s.quiet3 := by
  have due := State.due_of_quiet2 quiet
  simp only [State.quiet3, State.quiet2, State.quiet1, due]
  rfl

theorem exec_ps1Entry_enters (ps : s.pwr.ps = 0) (timer : s.fld Reg.PWR_PS_CFG_PS1_IDLE_MS ≠ 0) (quiet : s.quiet1 = true) :
    exec .ps1Entry s = .next (s.enterPs 1) := by
  show execPs1Entry s = _
  simp [execPs1Entry, ps, timer, quiet]

theorem exec_ps1Entry_stays (bar : s.pwr.ps ≠ 0 ∨ s.fld Reg.PWR_PS_CFG_PS1_IDLE_MS = 0 ∨ s.quiet1 = false) :
    exec .ps1Entry s = .next s := by
  show execPs1Entry s = _
  obtain ps | timer | busy := bar
  · simp [execPs1Entry, ps]
  · simp [execPs1Entry, timer]
  · simp [execPs1Entry, busy]

theorem exec_ps2Entry_enters (ps : s.pwr.ps = 1) (timer : s.fld Reg.PWR_PS_CFG_PS2_IDLE_100MS ≠ 0) (quiet : s.quiet2 = true) :
    exec .ps2Entry s = .next (if s.pwr.standby && s.quiet3 then (s.enterPs 2).enterStandby else s.enterPs 2) := by
  show execPs2Entry s = _
  simp only [execPs2Entry, ps, decide_true, timer, ne_eq, not_false_eq_true, quiet, Bool.and_self, guardStep_true,
    State.quiet3_enterPs quiet]
  rfl

theorem exec_ps2Entry_stays (bar : s.pwr.ps ≠ 1 ∨ s.fld Reg.PWR_PS_CFG_PS2_IDLE_100MS = 0 ∨ s.quiet2 = false) :
    exec .ps2Entry s = .next s := by
  show execPs2Entry s = _
  obtain ps | timer | busy := bar
  · simp [execPs2Entry, ps]
  · simp [execPs2Entry, timer]
  · simp [execPs2Entry, busy]

theorem exec_ps3Entry_enters (ps : s.pwr.ps = 2) (quiet : s.quiet3 = true)
    (due : s.pwr.standby = true ∨ (s.fld Reg.PWR_PS_CFG_PS3_IDLE_S ≠ 0 ∧ s.peersLinked = [])) :
    exec .ps3Entry s = .next s.enterStandby := by
  show execPs3Entry s = _
  obtain asked | ⟨timer, alone⟩ := due
  · simp [execPs3Entry, ps, quiet, asked]
  · simp [execPs3Entry, ps, quiet, timer, alone]

theorem exec_ps3Entry_stays (bar : s.pwr.ps ≠ 2 ∨ s.quiet3 = false) : exec .ps3Entry s = .next s := by
  show execPs3Entry s = _
  obtain ps | busy := bar
  · simp [execPs3Entry, ps]
  · simp [execPs3Entry, busy]

/-! ## Standby requests and wakes (R494, R495, R497) -/

theorem exec_ps3Request_enters (up : s.engined = true) (ps : s.pwr.ps = 2) (quiet : s.quiet3 = true) :
    exec .ps3Request s = .next s.enterStandby := by
  show execPs3Request s = _
  simp [execPs3Request, up, State.requestPs3, ps, quiet]

theorem exec_ps3Request_waits (up : s.engined = true) (early : s.pwr.ps < 2 ∨ s.pwr.ps = 2 ∧ s.quiet3 = false) :
    exec .ps3Request s = .next (s.onPwr fun p => { p with standby := true }) := by
  have above : (decide (s.pwr.ps = 2) && s.quiet3) = false := by
    obtain low | ⟨-, busy⟩ := early
    · simp [Nat.ne_of_lt low]
    · simp [busy]
  show execPs3Request s = _
  rw [execPs3Request, up, guardStep_true, State.requestPs3, above, if_neg Bool.false_ne_true, if_neg (by omega)]

theorem exec_wake {c : Instr} {source : Nat} (up : s.engined = true)
    (which : c = .wakeEvent source ∧ 1 ≤ source ∧ source ≤ 6 ∨ c = .ps0Request ∧ source = 5) :
    exec c s = .next (s.wake source) := by
  obtain ⟨rfl, low, high⟩ | ⟨rfl, rfl⟩ := which
  · show execWakeEvent source s = _
    simp [execWakeEvent, up, low, high]
  · show execPs0Request s = _
    simp [execPs0Request, up]

theorem State.wake_awake (source : Nat) (ps : s.pwr.ps = 0) :
    s.wake source = s.onPwr fun p => { p with standby := false } := by
  simp [State.wake, ps]

/-- A drive that wakes is in PS0, and has not yet counted nor reported it. -/
def State.woken (s : State) (source : Nat) : State :=
  s.onPwr fun p => { p with
    standby := false, ps := 0, wakeSrc := source
    due := ((List.range 30).filter fun n => !s.domainOn n).map fun n => (n, DomMode.on) }

theorem State.wake_asleep (source : Nat) (ps : s.pwr.ps ≠ 0) : s.wake source
    = ((s.woken source).bump Reg.PWR_PS_STAT_WAKES).raise 70 (item1 s.pwr.ps ++ item1 0 ++ item1 source) := by
  simp only [State.wake]
  exact if_neg ps

theorem State.due_woken (source n : Nat) (real : n < 30) :
    (n, DomMode.on) ∈ (s.woken source).pwr.due ↔ s.domainOn n = false := by
  show (n, DomMode.on) ∈ ((List.range 30).filter fun n => !s.domainOn n).map (fun n => (n, DomMode.on)) ↔ _
  simp [real]

/-- The count of wakes rises until it is full, of any register table. -/
theorem State.wakes_bump : (s.bump Reg.PWR_PS_STAT_WAKES).fld Reg.PWR_PS_STAT_WAKES
    = min (s.fld Reg.PWR_PS_STAT_WAKES + 1) 0xFFFF := by
  have cold : Reg.PWR_PS_STAT_WAKES.of (coldAt Reg.PWR_PS_STAT_WAKES.addr) = 0 := by decide +kernel
  have fits : min (s.fld Reg.PWR_PS_STAT_WAKES + 1) 65535 % 65536 = min (s.fld Reg.PWR_PS_STAT_WAKES + 1) 65535 :=
    Nat.mod_eq_of_lt (by omega)
  refine (State.fld_setFld_of_ne_cold (by decide) (?_ : min (s.fld Reg.PWR_PS_STAT_WAKES + 1) 65535 % 65536 ≠ _)).trans fits
  rw [cold]
  omega

/-! ## Domains (R491 to R493) -/

theorem exec_domainSwitch_on {n : Nat} (next : s.nextDue = some n) : exec .domainSwitch s
    = .next (s.onPwr fun p => { p with domains := p.domains.set n .on, due := tdel p.due n }).pump := by
  show execDomainSwitch s = _
  simp only [execDomainSwitch, next]

theorem exec_domainSwitch_none (next : s.nextDue = none) : exec .domainSwitch s = .next s := by
  show execDomainSwitch s = _
  simp only [execDomainSwitch, next]

theorem State.pwr_pump : s.pump.pwr = s.pwr :=
  (keeps_pump (Keeps.refl (· ≠ .pwr) s) (by simp) (by simp) (by simp) (by decide)).same .pwr (by simp)

/-- With one domain set to On, that one is, and the others are as they were. -/
theorem State.domainOn_set {t : State} {n : Nat} (set : t.pwr.domains = s.pwr.domains.set n .on)
    (real : n < s.pwr.domains.length) (k : Nat) : t.domainOn k = if k = n then true else s.domainOn k := by
  unfold State.domainOn
  rw [set, List.getD_eq_getElem?_getD, List.getD_eq_getElem?_getD, List.getElem?_set]
  split
  case isTrue same => simp [← same]
  case isFalse other => rw [if_neg (Ne.symm other)]

theorem phaseBit_le {domain b : Nat} (two : phaseBit domain = some b) : b ≤ 10 := by
  unfold phaseBit at two
  split_ifs at two <;> simp only [Option.some.injEq] at two <;> omega

/-- A phase's bit is set, the others stay, of any register table. -/
theorem State.phase_setFld {b : Nat} (real : b ≤ 10) :
    (s.setFld Reg.PWR_PHASE_FAULT_PHASE (s.fld Reg.PWR_PHASE_FAULT_PHASE ||| 2 ^ b)).fld Reg.PWR_PHASE_FAULT_PHASE
      = s.fld Reg.PWR_PHASE_FAULT_PHASE ||| 2 ^ b := by
  have cold : Reg.PWR_PHASE_FAULT_PHASE.of (coldAt Reg.PWR_PHASE_FAULT_PHASE.addr) = 0 := by decide +kernel
  have narrow : s.fld Reg.PWR_PHASE_FAULT_PHASE < 2 ^ 11 := Nat.mod_lt _ (by decide)
  have fits : (s.fld Reg.PWR_PHASE_FAULT_PHASE ||| 2 ^ b) % 2 ^ 11 = s.fld Reg.PWR_PHASE_FAULT_PHASE ||| 2 ^ b :=
    Nat.mod_eq_of_lt (Nat.or_lt_two_pow narrow (Nat.pow_lt_pow_right (by decide) (by omega)))
  have hot : s.fld Reg.PWR_PHASE_FAULT_PHASE ||| 2 ^ b ≠ 0 := fun none =>
    (Nat.two_pow_pos b).ne' (Nat.or_eq_zero_iff.1 none).2
  refine (State.fld_setFld_of_ne_cold (by decide) (?_ : (s.fld Reg.PWR_PHASE_FAULT_PHASE ||| 2 ^ b) % 2 ^ 11 ≠ _)).trans fits
  rwa [cold, fits]

theorem exec_phaseLost_two {domain phase b : Nat} (two : phaseBit domain = some b) : exec (.phaseLost domain phase) s
    = .next ((s.setFld Reg.PWR_PHASE_FAULT_PHASE (s.fld Reg.PWR_PHASE_FAULT_PHASE ||| 2 ^ b)).raise 69
      (item1 domain ++ item1 phase)) := by
  show execPhaseLost domain phase s = _
  simp only [execPhaseLost, two]

theorem exec_phaseLost_one {domain phase : Nat} (one : phaseBit domain = none) :
    exec (.phaseLost domain phase) s = .next s := by
  show execPhaseLost domain phase s = _
  simp only [execPhaseLost, one]

/-- Settles O55: every event by the equation of its step. -/
theorem powerStatesChange : Obligations.PowerStatesChange := by
  unfold Obligations.PowerStatesChange
  refine ⟨fun s => ⟨fun ps timer quiet => ?_, exec_ps1Entry_stays, fun ps timer quiet => ⟨fun off => ?_, fun asked quiet3 => ?_⟩,
      exec_ps2Entry_stays, fun ps quiet due => ?_, exec_ps3Entry_stays⟩,
    fun s up => ⟨fun ps quiet => ?_, fun early => ?_, fun c source which => ⟨fun asleep => ?_, fun awake => ?_⟩⟩,
    fun s all => ⟨fun n next real canon => ?_, exec_domainSwitch_none⟩, fun s domain phase b two => ?_,
    fun s domain phase => exec_phaseLost_one⟩
  · refine ⟨_, exec_ps1Entry_enters ps timer quiet, State.ps_enterPs 1, State.domains_enterPs 1, ?_, State.changes_enterPs 1⟩
    rw [State.raised_enterPs, ps]
  · have stays : (s.pwr.standby && s.quiet3) = false := by rwa [Bool.and_eq_false_iff]
    refine ⟨_, by rw [exec_ps2Entry_enters ps timer quiet, stays, if_neg Bool.false_ne_true], State.ps_enterPs 2, rfl,
      State.domains_enterPs 2, ?_, State.changes_enterPs 2⟩
    rw [State.raised_enterPs, ps]
  · have goes : (s.pwr.standby && s.quiet3) = true := by rw [asked, quiet3, Bool.and_self]
    refine ⟨_, by rw [exec_ps2Entry_enters ps timer quiet, goes, if_pos rfl], rfl, rfl,
      State.domains_enterStandby (s := s.enterPs 2), ?_,
      State.changes_enterStandby (keeps_enterPs 2 (Keeps.refl _ s) (by simp) (by simp))⟩
    rw [State.raised_enterStandby, State.raised_enterPs, ps, List.append_assoc]
    rfl
  · refine ⟨_, exec_ps3Entry_enters ps quiet due, rfl, rfl, State.domains_enterStandby, ?_,
      State.changes_enterStandby (Keeps.refl _ s)⟩
    rw [State.raised_enterStandby, ps]
  · refine ⟨_, exec_ps3Request_enters up ps quiet, rfl, rfl, State.domains_enterStandby, ?_,
      State.changes_enterStandby (Keeps.refl _ s)⟩
    rw [State.raised_enterStandby, ps]
  · exact ⟨_, exec_ps3Request_waits up early, rfl, (keeps_onPwr _ (Keeps.refl _ s) (by simp)).onlyChanges⟩
  · refine ⟨_, exec_wake up which, ?_⟩
    rw [State.wake_asleep source asleep]
    exact ⟨rfl, rfl, rfl, rfl, State.due_woken source, State.wakes_bump, rfl⟩
  · refine ⟨_, exec_wake up which, ?_⟩
    rw [State.wake_awake source awake]
    exact ⟨rfl, (keeps_onPwr _ (Keeps.refl _ s) (by simp)).onlyChanges⟩
  · refine ⟨_, exec_domainSwitch_on next, ?_⟩
    have on := State.domainOn_set (s := s)
      (congrArg Pwr.domains (State.pwr_pump (s := s.onPwr fun p => { p with domains := p.domains.set n .on, due := tdel p.due n })))
      (by omega)
    refine ⟨by rw [on, if_pos rfl], ?_, fun k other => by rw [on, if_neg other]⟩
    rw [State.pwr_pump]
    exact tget_tdel_self _ n canon
  · refine ⟨_, exec_phaseLost_two two, ?_, fun k other => ?_, rfl,
      (keeps_raise _ _ (keeps_setFld _ _ (Keeps.refl _ s) (by simp)) (by simp)).onlyChanges⟩
    · show (State.fld (State.setFld s _ _) _).testBit b = true
      rw [State.phase_setFld (phaseBit_le two), Nat.testBit_or, Nat.testBit_two_pow_self, Bool.or_true]
    · show (State.fld (State.setFld s _ _) _).testBit k = _
      rw [State.phase_setFld (phaseBit_le two), Nat.testBit_or, Nat.testBit_two_pow_of_ne (Ne.symm other), Bool.or_false]

end Sys2Proof.Machine
end

section
/-! PROOFS. The engine rings: the registers of a ring (O8) and the completion of a directive (O7). -/

namespace Sys2Proof.Machine

variable {o s : State} {n m : Nat}

/-! ## One ring (R453) -/

@[simp] theorem State.ring_onRing_self (f : Ring → Ring) : (s.onRing n f).ring n = f (s.ring n) := by
  simp [State.ring, tget_tset_self]

theorem State.ring_onRing_of_ne (f : Ring → Ring) (other : m ≠ n) : (s.onRing n f).ring m = s.ring m := by
  simp [State.ring, tget_tset_of_ne, other]

theorem State.ring_of_rings {s t : State} (rings : t.eng.rings = s.eng.rings) (n : Nat) : t.ring n = s.ring n := by
  rw [State.ring, State.ring, rings]

/-- Bytes put into DRAM group B leave the rings. -/
@[simp] theorem State.ring_dramPut (a : Nat) (b : Bytes) : (s.dramPut a b).ring n = s.ring n :=
  State.ring_of_rings (congrArg Eng.rings (State.storageWritten_spec (s := s.onEng _) _ _).1) n

/-! ## The registers of a ring (R453 to R456, R461) -/

theorem State.ringEnable_idle (real : n < 10) (off : s.fld (Reg.ENG_RING_CFG_EN n) = 0) (idle : (s.ring n).issued = []) :
    s.ringEnable n = (s.setFld (Reg.ENG_RING_CFG_EN n) 1).onRing n fun _ => Ring.fresh := by
  simp [State.ringEnable, real, off, idle]

theorem engDoorbell_taken {tail : Nat} {entries : List Bytes} (fits : tail < 65536)
    (shut : s.fld (Reg.ENG_RING_CFG_EN n) ≠ 1 ∨ (s.ring n).err = true) :
    engDoorbell n tail entries s = .next (s.onRing n fun r => { r with sqTail := tail }) := by
  simp only [engDoorbell, Nat.mod_eq_of_lt fits, if_pos (Or.inr shut)]

section
variable {tail : Nat} {entries : List Bytes} (real : n < 10) (open_ : s.fld (Reg.ENG_RING_CFG_EN n) = 1)
  (runs : (s.ring n).err = false) (fits : tail < 65536)
include real open_ runs fits

theorem engDoorbell_outOfRange (far : (s.ring n).tailOutOfRange (s.ringLog2 n) tail = true) :
    engDoorbell n tail entries s = .next ((s.ringError n tail).onRing n fun r => { r with sqTail := tail }) := by
  simp only [engDoorbell, Nat.mod_eq_of_lt fits, far, if_true]
  exact if_neg (by simp [Nat.not_le.2 real, open_, runs])

theorem engDoorbell_fills (near : (s.ring n).tailOutOfRange (s.ringLog2 n) tail = false)
    (inside : s.ringInDram n = true) : engDoorbell n tail entries s = .next (s.ringFill n tail entries) := by
  simp only [engDoorbell, Nat.mod_eq_of_lt fits, near, inside, Bool.false_eq_true, Bool.true_eq_false, if_false]
  exact if_neg (by simp [Nat.not_le.2 real, open_, runs])

end

/-- A doorbell out of range: ERR and the tail, and nothing else of the ring. -/
theorem State.ring_ringError (tail : Nat) : ((s.ringError n tail).onRing n fun r => { r with sqTail := tail }).ring n
    = { s.ring n with err := true, sqTail := tail } := by
  have same : (s.ringError n tail).ring n = { s.ring n with err := true } :=
    (State.ring_of_rings rfl n).trans (State.ring_onRing_self fun r => { r with err := true })
  rw [State.ring_onRing_self, same]

theorem State.cqHeadWrite_real (real : n < 10) (head : Nat) : s.cqHeadWrite n head
    = ((s.onRing n fun r => { r with cqHead := head % 65536 }).drainCqes n (s.ring n).waiting.length).pump := by
  rw [State.cqHeadWrite]
  exact (if_pos real).trans (by rw [State.ring_onRing_self])

/-- Settles O8: each register by its equation. -/
theorem ringRegistersAct : Obligations.RingRegistersAct := by
  unfold Obligations.RingRegistersAct
  refine ⟨fun s n real canon off idle => ?_, fun s n tail entries real open_ runs inside fits near => ?_,
    fun s n tail entries real open_ runs fits far => ?_, fun s n tail entries fits shut => ?_, fun s n head real => ?_⟩
  · refine ⟨_, congrArg Host.Outcome.next (State.ringEnable_idle real off idle), ?_, State.ring_onRing_self _,
      fun m other => (State.ring_onRing_of_ne _ other).trans rfl, rfl⟩
    exact State.fld_setFld_self s (Reg.ENG_RING_CFG_EN n) 1 canon.2 (by simp [Reg.ENG_RING_CFG_EN])
  · exact engDoorbell_fills real open_ runs fits near inside
  · have ring := State.ring_ringError (s := s) (n := n) tail
    refine ⟨_, engDoorbell_outOfRange real open_ runs fits far, by rw [ring], rfl, rfl, rfl, by rw [ring], by rw [ring], ?_⟩
    exact (keeps_onRing _ _ (keeps_raise _ _ (keeps_onEng _ (keeps_onRing _ _ (Keeps.refl _ s) (by simp)) (by simp) rfl)
      (by simp)) (by simp)).onlyChanges
  · exact ⟨_, engDoorbell_taken fits shut, State.ring_onRing_self _, rfl,
      (keeps_onRing _ _ (Keeps.refl _ s) (by simp)).onlyChanges⟩
  · refine ⟨s.onRing n fun r => { r with cqHead := head % 65536 }, ?_, ?_, ?_,
      (keeps_onRing _ _ (Keeps.refl _ s) (by simp)).onlyChanges⟩
    · exact congrArg Host.Outcome.next (State.cqHeadWrite_real real head)
    · rw [State.ring_onRing_self]
    · rw [State.ring_onRing_self]

/-! ## Completion (R460, R461) -/

theorem length_cqeBytes (log2 count etag estatus : Nat) (ext : Bool) (head : Nat) (result : Bytes) :
    (cqeBytes log2 count etag estatus ext head result).length = 32 := by
  simp [cqeBytes, length_padTo]

/-- The address of the next completion entry of a ring. -/
def State.cqSlot (s : State) (n : Nat) : Nat :=
  s.fld (Reg.ENG_CQ_BASE_BASE_4K n) * 4096 + 32 * ((s.ring n).cqTail % 2 ^ s.ringLog2 n)

/-- A completion entry stands at its slot, CQ_TAIL rises, and nothing else of the ring or of DRAM group B changes. -/
theorem State.writeCqe_spec (etag estatus : Nat) (ext : Bool) (result : Bytes) :
    (s.writeCqe n (etag, estatus, ext, result)).eng.dram = memWriteN s.eng.dram (s.cqSlot n)
      (cqeBytes (s.ringLog2 n) (s.ring n).cqTail etag estatus ext (s.ring n).sqHead result) ∧
    (s.writeCqe n (etag, estatus, ext, result)).ring n = { s.ring n with cqTail := ((s.ring n).cqTail + 1) % 65536 } := by
  let u := (s.dramPut (s.cqSlot n) (cqeBytes (s.ringLog2 n) (s.ring n).cqTail etag estatus ext (s.ring n).sqHead
    result)).onRing n fun r => { r with cqTail := (r.cqTail + 1) % 65536 }
  have kept : (s.writeCqe n (etag, estatus, ext, result)).eng.dram = u.eng.dram ∧
      (s.writeCqe n (etag, estatus, ext, result)).eng.rings = u.eng.rings := by
    unfold State.writeCqe
    dsimp only
    split <;> exact ⟨rfl, rfl⟩
  obtain ⟨dram, rings⟩ := kept
  refine ⟨dram.trans (State.dram_dramPut _ _), (State.ring_of_rings rings n).trans ?_⟩
  rw [State.ring_onRing_self, State.ring_dramPut]

/-- The directive is no longer outstanding, and its completion entry waits. -/
def State.ringEnds (s : State) (n : Nat) (d : Dir) (estatus : Nat) (result : Bytes) : State :=
  s.onRing n fun r => { r with
    issued := r.issued.eraseP (fun i => i.etag = d.etag)
    waiting := r.waiting ++ [(d.etag, estatus, false, if estatus = 0 then result else [])] }

/-- One completion that waits: with ENG at work and a released slot it is written, else it goes on waiting. -/
theorem State.drainCqes_one {c : Nat × Nat × Bool × Bytes} (waits : (s.ring n).waiting = [c]) : s.drainCqes n 1
    = if s.sch.inReset.contains .eng = false ∧ (s.ring n).cqUsed < 2 ^ s.ringLog2 n then
        (s.onRing n fun r => { r with waiting := r.waiting.drop 1 }).writeCqe n c
      else s := by
  simp only [State.drainCqes, waits]
  refine if_congr ?_ rfl rfl
  simp

section
variable {d : Dir} {estatus : Nat} {result : Bytes}

theorem State.ring_ringEnds : (s.ringEnds n d estatus result).ring n = { s.ring n with
    issued := (s.ring n).issued.eraseP (fun i => i.etag = d.etag)
    waiting := (s.ring n).waiting ++ [(d.etag, estatus, false, if estatus = 0 then result else [])] } :=
  State.ring_onRing_self _

variable (none : (s.ring n).waiting = [])
include none

theorem State.ringDone_eq : s.ringDone n d estatus result
    = if s.sch.inReset.contains .eng = false ∧ (s.ring n).cqUsed < 2 ^ s.ringLog2 n then
        ((s.ringEnds n d estatus result).onRing n fun r => { r with waiting := r.waiting.drop 1 }).writeCqe n
          (d.etag, estatus, false, if estatus = 0 then result else [])
      else s.ringEnds n d estatus result := by
  have waits : ((s.ringEnds n d estatus result).ring n).waiting
      = [(d.etag, estatus, false, if estatus = 0 then result else [])] := by
    rw [State.ring_ringEnds]
    simp only [none, List.nil_append]
  have one : ((s.ringEnds n d estatus result).ring n).waiting.length = 1 := by rw [waits]; rfl
  have used : ((s.ringEnds n d estatus result).ring n).cqUsed = (s.ring n).cqUsed := by
    rw [State.ring_ringEnds]
    rfl
  have drained : s.ringDone n d estatus result = (s.ringEnds n d estatus result).drainCqes n 1 := by rw [← one]; rfl
  rw [drained, State.drainCqes_one waits, used]
  rfl

/-- The directive is outstanding no more. -/
theorem State.issued_ringDone :
    ((s.ringDone n d estatus result).ring n).issued = (s.ring n).issued.eraseP (fun i => i.etag = d.etag) := by
  rw [State.ringDone_eq none]
  split
  · rw [(State.writeCqe_spec _ _ _ _).2, State.ring_onRing_self, State.ring_ringEnds]
  · rw [State.ring_ringEnds]

end

/-- Settles O7: the one completion that waits is written or goes on waiting (`State.ringDone_eq`), and an entry written
stands at its slot (`State.writeCqe_spec`). -/
theorem directiveAnswered : Obligations.DirectiveAnswered := by
  unfold Obligations.DirectiveAnswered
  intro s n d estatus result canon none
  dsimp only
  refine ⟨State.issued_ringDone none, fun room awake => ?_, fun busy => ?_⟩
  · rw [State.ringDone_eq none, if_pos ⟨awake, room⟩]
    obtain ⟨dram, ring⟩ := State.writeCqe_spec (s := (s.ringEnds n d estatus result).onRing n fun r => { r with
      waiting := r.waiting.drop 1 }) (n := n) d.etag estatus false (if estatus = 0 then result else [])
    rw [State.ring_onRing_self, State.ring_ringEnds] at ring
    rw [State.cqSlot, State.ring_onRing_self, State.ring_ringEnds] at dram
    rw [dram, ring]
    refine ⟨?_, rfl, ?_, fun x outside => ?_⟩
    · exact (congrArg (memReadN _ _) (length_cqeBytes _ _ _ _ _ _ _).symm).trans (memReadN_memWriteN _ _ _ canon.1)
    · simp only [none, List.nil_append, List.drop_one, List.tail_cons]
    · refine memRead_memWriteN_outside _ _ _ _ ?_
      rw [length_cqeBytes]
      exact outside
  · have off : ¬(s.sch.inReset.contains .eng = false ∧ (s.ring n).cqUsed < 2 ^ s.ringLog2 n) := by
      rintro ⟨awake, room⟩
      obtain full | reset := busy
      · exact absurd room (Nat.not_lt.2 full)
      · rw [awake] at reset
        exact Bool.false_ne_true reset
    rw [State.ringDone_eq none, if_neg off, State.ring_ringEnds]
    exact ⟨by simp only [none, List.nil_append], rfl, fun _ => rfl⟩

end Sys2Proof.Machine
end

section
/-! PROOFS. A step on an empty queue (O2): with neither a shift nor upkeep of flash to go on with, time passes and nothing
else. -/

namespace Sys2Proof.Machine

variable {s : State}

/-! ## Flash that is idle (R388, R397, R406, R413) -/

theorem State.writeSummaries_none (none : s.ftl.sumQueue = []) (fuel : Nat) : s.writeSummaries fuel = s := by
  cases fuel <;> simp [State.writeSummaries, none]

theorem State.settleMoves_none (moves : s.ftl.moves = []) (verifies : s.ftl.verifies = []) : s.settleMoves = s := by
  have same : (s.onFtl fun t => { t with moves := t.moves.filter fun m => !(s.skeinsInRow m.1 m.2).isEmpty }) = s := by
    simp only [State.onFtl, moves, List.filter_nil]
    simp only [← moves]
  unfold State.settleMoves
  dsimp only
  rw [same, verifies]
  rfl

theorem State.switchCopies_none (copies : s.ftl.copies = []) (moves : s.ftl.moves = []) (verifies : s.ftl.verifies = []) :
    s.switchCopies = s := by
  rw [State.switchCopies, copies]
  exact State.settleMoves_none moves verifies

theorem State.pumpCopies_none (none : s.emptying = []) (moves : s.ftl.moves = []) : s.pumpCopies = s := by
  simp [State.pumpCopies, none, moves]

theorem State.serveMoves_none (none : ∀ g ∈ s.sch.gate, g.move = none) : s.serveMoves = s := by
  have empty : (s.sch.gate.filter fun g => g.move.isSome && s.itemFront g) = [] := by
    rw [List.filter_eq_nil_iff]
    intro g held
    simp [none g held]
  rw [State.serveMoves, empty]
  rfl

theorem State.dropReleased_none (par : ∀ e ∈ s.ftl.par, e.2.released = false)
    (open_ : ∀ e ∈ s.ftl.sbs, e.2.stream = 6 → e.2.st ≠ .closed) : s.dropReleased = s := by
  have kept : (s.ftl.par.filter fun e => !e.2.released || s.ftl.rebuilds.any fun r =>
      decide (parKey r.1 (s.rowOf r.1 r.2) = e.1)) = s.ftl.par :=
    List.filter_eq_self.2 fun e held => by simp [par e held]
  have same : (s.onFtl fun t => { t with
      par := t.par.filter fun e => !e.2.released || t.rebuilds.any fun r => decide (parKey r.1 (s.rowOf r.1 r.2) = e.1) })
        = s := by
    simp only [State.onFtl, kept]
  have none : (s.ftl.sbs.filter fun e => decide (e.2.stream = 6) && decide (e.2.st = .closed)
      && decide (some e.1 ≠ (tget s.ftl.streams 6).bind (·.sb)) && !(s.ftl.par.any fun p => decide (p.2.sb = e.1))) = [] := by
    rw [List.filter_eq_nil_iff]
    intro e held
    have := open_ e held
    simp only [Bool.and_eq_true, decide_eq_true_eq, not_and]
    tauto
  rw [State.dropReleased, same, State.dropParSbs]
  exact congrArg (List.foldl _ s) none

theorem State.sparesFell_none (some_ : 0 < s.spareMembers)
    (told : s.ftl.spareLow = true ∨ 64 * s.fld Reg.FTL_WEAR_CFG_SPARE_WARN ≤ s.spareMembers) : s.sparesFell = s := by
  have quiet : ¬(s.spareMembers < 64 * s.fld Reg.FTL_WEAR_CFG_SPARE_WARN ∧ s.ftl.spareLow = false) := by
    rintro ⟨few, untold⟩
    obtain low | many := told
    · exact Bool.false_ne_true (untold.symm.trans low)
    · omega
  rw [State.sparesFell, if_neg quiet]
  exact if_neg (by omega)

theorem State.checkpointTick_none (low : s.journalHigh = false) : s.checkpointTick = s := by
  simp [State.checkpointTick, low]

/-- FTL has nothing to go on with: it is not at work, or flash is idle. -/
theorem State.upkeepTick_idle (idle : s.ftl.mapReady = false ∨ s.blockInReset .ftl = true ∨ FlashIdle s) :
    s.upkeepTick = s := by
  unfold State.upkeepTick
  split
  case isFalse => rfl
  case isTrue works =>
    obtain ⟨ready, awake⟩ : s.ftl.mapReady = true ∧ s.blockInReset .ftl = false := by simpa using works
    obtain unready | reset | ⟨summaries, copies, moves, verifies, emptying, gate, par, open_, spares, told, journal⟩ := idle
    · exact absurd (ready.symm.trans unready) (by decide)
    · exact absurd (awake.symm.trans reset) (by decide)
    · rw [State.writeSummaries_none summaries, State.switchCopies_none copies moves verifies,
        State.pumpCopies_none emptying moves, State.serveMoves_none gate, State.dropReleased_none par open_,
        State.sparesFell_none spares told, State.checkpointTick_none journal]

theorem State.shiftTick_none (none : s.mch.shift = none) : s.shiftTick = s := by
  simp [State.shiftTick, none]

/-! ## One idle cycle (R387, R525) -/

/-- FLT_TIME after one more cycle. -/
def State.nextTime (s : State) : Nat := s.flt.time + (if s.domainOn 1 then 10 else 30518)

/-- The clocks of one cycle: FLT_TIME, and the power-on seconds at a whole second while P48V is present. -/
def State.clocked (s : State) : State :=
  (if s.pwr.p48Present && decide (s.flt.time / 1000000000 ≠ s.nextTime / 1000000000) then
    s.onFtl fun f => { f with seconds := f.seconds + 1 } else s).onFlt fun f => { f with time := s.nextTime }

theorem idleTick_off (p48 : s.pwr.p48Present = false) (aux : s.pwr.auxPresent = false) : idleTick s = s := by
  simp [idleTick, p48, aux]

theorem idleTick_on (rail : (s.pwr.p48Present || s.pwr.auxPresent) = true) : idleTick s = s.clocked.shiftTick.upkeepTick := by
  unfold idleTick
  rw [if_pos rail]
  rfl

theorem State.clocked_spec :
    s.clocked.flt = { s.flt with time := s.nextTime } ∧
      { s.clocked.ftl with seconds := s.ftl.seconds } = s.ftl ∧ s.ftl.seconds ≤ s.clocked.ftl.seconds ∧
      s.clocked.ftl.seconds ≤ s.ftl.seconds + 1 ∧ (s.pwr.p48Present = false → s.clocked.ftl = s.ftl) ∧
      OnlyChanges [.flt, .ftl] s s.clocked := by
  unfold State.clocked
  split
  case isTrue second =>
    have present : s.pwr.p48Present = true := (Bool.and_eq_true_iff.1 second).1
    exact ⟨rfl, rfl, Nat.le_succ _, Nat.le_refl _, fun absent => absurd (present.symm.trans absent) (by decide),
      (keeps_onFlt _ (keeps_onFtl _ (Keeps.refl _ s) (by simp)) (by simp)).onlyChanges⟩
  case isFalse =>
    exact ⟨rfl, rfl, Nat.le_refl _, Nat.le_succ _, fun _ => rfl, (keeps_onFlt _ (Keeps.refl _ s) (by simp)).onlyChanges⟩

/-- The clocks leave what FTL and the match engine have to go on with. -/
theorem State.idle_clocked (idle : s.ftl.mapReady = false ∨ s.blockInReset .ftl = true ∨ FlashIdle s) :
    s.clocked.ftl.mapReady = false ∨ s.clocked.blockInReset .ftl = true ∨ FlashIdle s.clocked := by
  unfold State.clocked
  split <;> exact idle

theorem State.shift_clocked : s.clocked.mch.shift = s.mch.shift := by
  unfold State.clocked
  split <;> rfl

theorem idleTick_idle (rail : (s.pwr.p48Present || s.pwr.auxPresent) = true) (still : s.mch.shift = none)
    (idle : s.ftl.mapReady = false ∨ s.blockInReset .ftl = true ∨ FlashIdle s) : idleTick s = s.clocked := by
  rw [idleTick_on rail, State.shiftTick_none (State.shift_clocked.trans still),
    State.upkeepTick_idle (State.idle_clocked idle)]

/-- A part that an idle cycle may touch. -/
abbrev Timed (p : Part) : Prop := p ∉ [Part.latches, .rst, .pwr, .sec, .session, .pins]

theorem keeps_idleTick_timed : Keeps Timed s (idleTick s) := by
  apply keeps_idleTick (Keeps.refl Timed s) <;> decide

theorem step_idle (none : s.pending = []) : step s = .next (idleTick s) := by
  simp [step, none]

/-- Settles O2: the frame of the tick, and with nothing to go on with the clocks alone. -/
theorem idleStep : Obligations.IdleStep := by
  unfold Obligations.IdleStep
  intro s none
  have kept := keeps_idleTick_timed (s := s)
  refine ⟨_, step_idle none, kept.pending.trans none, kept.same .latches (by simp), kept.same .rst (by simp),
    kept.same .pwr (by simp), kept.same .sec (by simp), kept.same .session (by simp), kept.same .pins (by simp),
    idleTick_off, fun still idle => ?_⟩
  cases rail : s.pwr.p48Present || s.pwr.auxPresent with
  | true =>
    obtain ⟨flt, ftl, low, high, off, changes⟩ := State.clocked_spec (s := s)
    rw [idleTick_idle rail still idle, flt]
    exact ⟨rfl, rfl, ftl, low, high, off, changes⟩
  | false =>
    obtain ⟨p48, aux⟩ := Bool.or_eq_false_iff.1 rail
    rw [idleTick_off p48 aux]
    exact ⟨rfl, rfl, rfl, Nat.le_refl _, Nat.le_succ _, fun _ => rfl, (Keeps.refl _ s).onlyChanges⟩

end Sys2Proof.Machine
end

section
/-! PROOFS. The recorder's writes (O53): a record that goes to its Ledger line, the fallback ring, and the copy-back. -/

namespace Sys2Proof.Machine

variable {o s : State} {r : Rec}

/-! ## Stuck lines (R349) -/

/-- Counting a group's writes leaves its lines as they are. -/
theorem State.lineStuck_countGroup (g n line : Nat) : (s.countGroup g n).lineStuck line = s.lineStuck line := by
  unfold State.countGroup State.lineStuck
  by_cases same : line % 256 = g
  · rw [same, State.lgroup_onLgroup_self]
  · rw [State.lgroup_onLgroup_of_ne _ same]

theorem State.lineStuck_of_groups {t : State} (same : t.ldg.groups = s.ldg.groups) (line : Nat) :
    t.lineStuck line = s.lineStuck line := by
  unfold State.lineStuck State.lgroup
  rw [same]

theorem State.groups_lowerGauge (n : Nat) : (s.lowerGauge n).ldg.groups = s.ldg.groups := by
  simp only [State.lowerGauge]
  split <;> rfl

theorem State.groups_drawAlways (n : Nat) : (s.drawAlways n).ldg.groups = s.ldg.groups := by
  simp only [State.drawAlways]
  split
  · exact State.groups_lowerGauge _
  · rw [State.bump_ldg, State.groups_lowerGauge]

/-! ## One record to its line (R549) -/

theorem State.toLine_stuck (stuck : s.lineStuck (recLine r.row) = true) : s.toLine r = s.recLineLost r.row := by
  rw [State.toLine, if_pos stuck]

/-- A record reaches its line: nothing else of the recorder changes, no line becomes stuck, and no event is lost. -/
theorem State.toLine_spec (good : s.lineStuck (recLine r.row) = false) :
    (s.toLine r).recorder = { s.recorder with lines := tset s.recorder.lines (r.row % Machine.recRing) r } ∧
      (∀ line, (s.toLine r).lineStuck line = s.lineStuck line) ∧ s.flt.raised <+: (s.toLine r).flt.raised := by
  let placed := s.onRec fun q => { q with lines := tset q.lines (r.row % Machine.recRing) r }
  let counted := (placed.drawAlways 1).countGroup (recLine r.row % 256) 1
  have shape : s.toLine r = counted.swatchWrite 2 (recLine r.row) := by
    rw [State.toLine, good, if_neg Bool.false_ne_true]
  have drawn : Keeps (· ≠ .recorder) placed (placed.drawAlways 1) :=
    keeps_drawAlways _ (Keeps.refl _ _) (by simp) (by simp) (by decide)
  have rest : Keeps (· ∉ [.recorder, .ldg]) counted (s.toLine r) := by
    rw [shape]
    exact keeps_swatchWrite _ _ (Keeps.refl _ _) (by decide) (by decide)
  refine ⟨?_, fun line => ?_, ?_⟩
  · have back : (s.toLine r).recorder = counted.recorder := rest.same .recorder (by simp)
    exact back.trans (drawn.same .recorder (by simp))
  · have ldg : (s.toLine r).ldg = counted.ldg := rest.same .ldg (by simp)
    rw [State.lineStuck_of_groups (congrArg Ldg.groups ldg), State.lineStuck_countGroup]
    exact State.lineStuck_of_groups (State.groups_drawAlways 1) line
  · rw [shape]
    exact (persists_drawAlways 1 (Persists.refl placed)).raised.trans
      (raised_swatchWrite (s := counted) 2 _)

/-- With no fatal event waiting and no coalescing, room in the FIFO changes nothing. -/
theorem State.fifoDrained_none (fatal : s.recorder.waitFatal = []) (open_ : s.recorder.coalescing = false) :
    s.fifoDrained = s := by
  simp [State.fifoDrained, fatal, open_]

/-! ## RECORD_WRITE (R549, R556) -/

section
variable {rest : List Rec} (fifo : s.recorder.fifo = r :: rest)
include fifo

theorem exec_recordWrite_closed (inLine : s.recorder.fallback = none) (shut : s.recorder.ready = false ∨ s.ledgerOpen = false) :
    exec .recordWrite s = .next s := by
  have off : (s.recorder.ready && s.ledgerOpen) = false := by rwa [Bool.and_eq_false_iff]
  show execRecordWrite s = _
  simp only [execRecordWrite, fifo, inLine, off, Bool.false_eq_true, if_false]

variable (fatal : s.recorder.waitFatal = []) (open_ : s.recorder.coalescing = false)
include fatal open_

theorem exec_recordWrite_line (inLine : s.recorder.fallback = none) (ready : s.recorder.ready = true)
    (ledger : s.ledgerOpen = true) (same : (s.toLine r).recorder = { s.recorder with lines := (s.toLine r).recorder.lines }) :
    exec .recordWrite s = .next ((s.toLine r).onRec fun q => { q with fifo := rest }) := by
  show execRecordWrite s = _
  simp only [execRecordWrite, fifo, inLine, ready, ledger, Bool.and_self, if_true]
  refine congrArg _ (State.fifoDrained_none ?_ ?_)
  · exact (congrArg Recorder.waitFatal same).trans fatal
  · exact (congrArg Recorder.coalescing same).trans open_

theorem exec_recordWrite_fallback {f : Fallback} (inRing : s.recorder.fallback = some f) (room : f.ring.length < 511) :
    exec .recordWrite s = .next (s.onRec fun q => { q with
      fallback := some { f with ring := f.ring ++ [{ r with fallback := true }] }
      fifo := rest }) := by
  show execRecordWrite s = _
  simp only [execRecordWrite, fifo, inRing, State.toFallback, if_pos room]
  exact congrArg _ (State.fifoDrained_none fatal open_)

end

theorem exec_recordWrite_none (none : s.recorder.fifo = []) : exec .recordWrite s = .next s := by
  show execRecordWrite s = _
  simp only [execRecordWrite, none]

/-! ## REC_COPY_BACK (R557) -/

/-- Records that go to lines of their own, none of them stuck: each stands on its line, and what the recorder holds besides
lines stays. -/
theorem State.foldl_toLine_spec (rs : List Rec) (good : ∀ r ∈ rs, s.lineStuck (recLine r.row) = false)
    (apart : rs.Pairwise fun a b => a.row % Machine.recRing ≠ b.row % Machine.recRing) :
    (rs.foldl State.toLine s).recorder = { s.recorder with lines := (rs.foldl State.toLine s).recorder.lines } ∧
      (∀ r ∈ rs, tget (rs.foldl State.toLine s).recorder.lines (r.row % Machine.recRing) = some r) ∧
      (∀ x, (∀ r ∈ rs, r.row % Machine.recRing ≠ x) →
        tget (rs.foldl State.toLine s).recorder.lines x = tget s.recorder.lines x) ∧
      s.flt.raised <+: (rs.foldl State.toLine s).flt.raised := by
  induction rs generalizing s with
  | nil => exact ⟨rfl, by simp, fun _ _ => rfl, List.prefix_rfl⟩
  | cons r rs ih =>
    obtain ⟨recorder, stuck, raised⟩ := State.toLine_spec (good r List.mem_cons_self)
    obtain ⟨first, apart⟩ := List.pairwise_cons.1 apart
    obtain ⟨kept, stand, others, more⟩ := ih (s := s.toLine r)
      (fun x hx => (stuck _).trans (good x (List.mem_cons_of_mem r hx))) apart
    rw [recorder] at kept others
    refine ⟨kept, fun x hx => ?_, fun x away => ?_, raised.trans more⟩
    · obtain rfl | later := List.mem_cons.1 hx
      · exact (others _ fun y hy => (first y hy).symm).trans (tget_tset_self _ _ _)
      · exact stand x later
    · exact (others x fun y hy => away y (List.mem_cons_of_mem r hy)).trans
        (tget_tset_of_ne _ _ _ _ (away r List.mem_cons_self).symm)

section
variable {f : Fallback} (inRing : s.recorder.fallback = some f)
include inRing

theorem exec_recCopyBack_counts (more : 1 < f.reports) : exec .recCopyBack s
    = .next (s.onRec fun q => { q with fallback := some { f with reports := f.reports - 1 } }) := by
  show execRecCopyBack s = _
  simp only [execRecCopyBack, inRing, if_pos more]

theorem exec_recCopyBack_waits (last : f.reports ≤ 1) (shut : s.ledgerOpen = false) : exec .recCopyBack s = .next s := by
  show execRecCopyBack s = _
  simp only [execRecCopyBack, inRing, if_neg (Nat.not_lt.2 last), shut, Bool.not_false, if_true]

theorem exec_recCopyBack_copies (last : f.reports ≤ 1) (ledger : s.ledgerOpen = true) : exec .recCopyBack s
    = .next (((f.entry0 :: f.ring).foldl State.toLine (s.onRec fun q => { q with fallback := none })).raise 545
      (item4 (f.ring.length + 1) ++ item4 f.dropped)) := by
  show execRecCopyBack s = _
  simp only [execRecCopyBack, inRing, if_neg (Nat.not_lt.2 last), ledger, Bool.not_true, Bool.false_eq_true, if_false]

end

/-- Settles O53: RECORD_WRITE by what its head meets (`State.toLine_spec`), the copy-back by induction over the fallback
entries (`State.foldl_toLine_spec`). -/
theorem recordsAreWritten : Obligations.RecordsAreWritten := by
  unfold Obligations.RecordsAreWritten
  refine ⟨fun s r rest fifo fatal open_ => ⟨fun inLine ready ledger good => ?_, fun inLine ready ledger stuck canon => ?_,
      fun inLine shut => exec_recordWrite_closed fifo inLine shut, fun f inRing room => ?_⟩,
    fun s => exec_recordWrite_none, fun s f inRing => ⟨fun more => ?_, exec_recCopyBack_waits inRing,
      fun last ledger good apart => ?_⟩⟩
  · obtain ⟨recorder, -, -⟩ := State.toLine_spec good
    refine ⟨_, exec_recordWrite_line fifo fatal open_ inLine ready ledger (by rw [recorder]), rfl, ?_, fun x other => ?_, ?_⟩
    · show tget (s.toLine r).recorder.lines _ = _
      rw [recorder]
      exact tget_tset_self _ _ _
    · show tget (s.toLine r).recorder.lines _ = _
      rw [recorder]
      exact tget_tset_of_ne _ _ _ _ other
    · show (s.toLine r).recorder.rowNext = _
      rw [recorder]
  · have lost := State.toLine_stuck stuck
    refine ⟨_, exec_recordWrite_line fifo fatal open_ inLine ready ledger (by rw [lost]; rfl), rfl, ?_, ?_⟩
    · show tget (s.toLine r).recorder.lines _ = _
      rw [lost]
      exact tget_tdel_self _ _ canon
    · show _ ∈ (s.toLine r).flt.raised
      rw [lost]
      exact List.mem_append_right _ (List.mem_singleton_self _)
  · exact ⟨_, exec_recordWrite_fallback fifo fatal open_ inRing room, rfl, rfl,
      (keeps_onRec _ (Keeps.refl _ s) (by simp)).onlyChanges⟩
  · exact ⟨_, exec_recCopyBack_counts inRing more, rfl, (keeps_onRec _ (Keeps.refl _ s) (by simp)).onlyChanges⟩
  · obtain ⟨recorder, stand, -, evs, raised⟩ := State.foldl_toLine_spec (s := s.onRec fun q => { q with fallback := none })
      (f.entry0 :: f.ring) good apart
    refine ⟨_, evs, exec_recCopyBack_copies inRing last ledger, congrArg Recorder.fallback recorder, stand, ?_⟩
    exact congrArg (· ++ _) raised.symm

end Sys2Proof.Machine
end

section
/-! PROOFS. Messages between peers: what arrives on a queue pair (R422 to R424), what goes out on one, and the chain
writes that are taken in (O45). -/

namespace Sys2Proof.Machine

variable {o s : State} {m : PeerMsg} {p kind : Nat}

/-! ## What arrives (R422 to R424) -/

/-- A message as its receiver takes it, with its sender and its plain bytes. -/
def takenMsg (p : Nat) (m : PeerMsg) (b : Bytes) : PeerMsg :=
  { m with srcPeer := p, sealed := false, crc := 0, headers := [], data := b }

/-- To hear a peer that is UP changes nothing. -/
theorem State.peerHeard_up (up : s.peerLive p = .up) : s.peerHeard p = s := by
  unfold State.peerHeard
  split
  · rfl
  · exact if_pos up

theorem State.takeMsg_of_activePeer (peer : s.activePeer m.ctx = some p) (crc : m.crc = msgCrc kind m)
    (f : State → Nat → State) : s.takeMsg kind m f = f s p := by
  simp only [State.takeMsg, peer, if_pos crc]

theorem State.takeMsg_bad (peer : s.activePeer m.ctx = some p) (crc : m.crc ≠ msgCrc kind m) (f : State → Nat → State) :
    s.takeMsg kind m f = s.raise 1033 (item2 p ++ item8 m.msgSeq) := by
  simp only [State.takeMsg, peer, if_neg crc]

theorem State.openMsg_opened {b : Bytes} {u : State} (opened : s.openPieces p kind m = (some b, u))
    (f : State → PeerMsg → State) : s.openMsg p kind m f = f (u.peerHeard p) (takenMsg p m b) := by
  simp only [State.openMsg, opened, takenMsg]

theorem State.openMsg_closed {u : State} (closed : s.openPieces p kind m = (none, u)) (f : State → PeerMsg → State) :
    s.openMsg p kind m f = u.raise 1033 (item2 p ++ item8 m.msgSeq) := by
  simp only [State.openMsg, closed]

theorem State.openPieces_plain (plain : m.sealed = false) : s.openPieces p kind m = (some m.data, s) := by
  simp [State.openPieces, plain]

/-- An unsealed message of a peer that is UP is taken as it is. -/
theorem State.openMsg_plain (up : s.peerLive p = .up) (plain : m.sealed = false) (f : State → PeerMsg → State) :
    s.openMsg p kind m f = f s (takenMsg p m m.data) := by
  rw [State.openMsg_opened (State.openPieces_plain plain), State.peerHeard_up up]

theorem State.withMsg_of_heardFrom (heard : HeardFrom s kind m p) (f : State → PeerMsg → State) :
    s.withMsg kind m f = f s (takenMsg p m m.data) := by
  obtain ⟨peer, up, crc, plain⟩ := heard
  rw [State.withMsg, State.takeMsg_of_activePeer peer crc, State.openMsg_plain up plain]

theorem State.activePeer_of_nfe {t : State} (same : t.nfe = s.nfe) (ctx : Nat) : t.activePeer ctx = s.activePeer ctx := by
  rw [State.activePeer, State.activePeer, same]

/-- The pieces of a message open in CIP. -/
theorem State.keeps_openPieces_snd {b : Option Bytes} {u : State} (opened : s.openPieces p kind m = (b, u)) :
    Keeps (· = .cip) s u := by
  have kept : Keeps2 (· = .cip) s (s.openPieces p kind m) := keeps_openPieces p kind m (Keeps.refl _ s) rfl
  rwa [opened] at kept

/-! ## What goes out (R423) -/

/-- A message without data goes out on the queue pair of its peer, sealed or not. -/
theorem State.sendPeer_noData {x : Nat} (ctx : s.peerCtx p = some x) (empty : m.data = []) :
    ∃ (u : State) (seq : Nat), s.sendPeer p kind m = u.sendMsg x kind { s.addressed x p seq m with headers := [], data := [] } ∧
      u.nfe.tx = s.nfe.tx ∧ Keeps (· = .nfe) s u := by
  have sealed (u : State) (slot : Option Nat) (head : Bytes) : u.transitSeal slot head [] = (some ([], []), u) := by
    cases slot <;> rfl
  have data : (s.nextMsg x p m).1.data = [] := empty
  refine ⟨(s.nextMsg x p m).2, ((tget s.nfe.qps x).map (·.msgSeq)).getD 0 + 1, ?_, rfl,
    keeps_nextMsg x p m (Keeps.refl (· = .nfe) s) rfl⟩
  simp only [State.sendPeer, ctx, data, sealed]
  rfl

/-- MSG_CRC does not cover itself. -/
theorem msgCrc_crc (m : PeerMsg) (c : W32) : msgCrc kind { m with crc := c } = msgCrc kind m := rfl

/-- The same, by what is sent. -/
theorem State.sends_sendPeer {x : Nat} (ctx : s.peerCtx p = some x) (empty : m.data = []) :
    ∃ (a : PeerMsg) (seq : Nat), Sends s (s.sendPeer p kind m) [.peerMsg x kind a] ∧ a.crc = msgCrc kind a ∧
      a = { s.addressed x p seq m with headers := [], data := [], crc := a.crc } ∧
      OnlyChanges [.nfe] s (s.sendPeer p kind m) := by
  obtain ⟨u, seq, sent, tx, kept⟩ := State.sendPeer_noData (kind := kind) ctx empty
  rw [sent]
  refine ⟨_, seq, ⟨[_], rfl, congrArg (· ++ _) tx⟩, (msgCrc_crc _ _).symm, rfl, ?_⟩
  exact (keeps_send _ (kept.mono (by simp)) (by simp) : Keeps (· ∈ [.nfe]) s _).onlyChanges

/-! ## Chain writes (R431, R436) -/

/-- The dedupe entry of a version. -/
def State.dedupeOf (s : State) (m : PeerMsg) : Option Dedupe :=
  s.peer.dedupe.find? fun e => e.kh = m.keyHash && decide (e.version = m.version)

/-- What a chain write does once it is open. -/
def State.chainIn (s : State) (m : PeerMsg) : State :=
  match s.takeChain m with
  | some t => t
  | none => s.onPeer fun p => { p with intake := p.intake ++ [m] }

theorem exec_chainWrite (m : PeerMsg) (s : State) : exec (.chainWrite m) s = .next (s.takeMsg 1 m fun s p =>
    if msgRefused m then s.raise 1036 (item2 p ++ item8 m.msgSeq ++ item1 1) else s.openMsg p 1 m State.chainIn) := rfl

theorem exec_chainWrite_heard (heard : HeardFrom s 1 m p) (good : msgRefused m = false) :
    exec (.chainWrite m) s = .next (s.chainIn (takenMsg p m m.data)) := by
  obtain ⟨peer, up, crc, plain⟩ := heard
  rw [exec_chainWrite, State.takeMsg_of_activePeer peer crc, good, if_neg Bool.false_ne_true, State.openMsg_plain up plain]

theorem State.takeChain_inReset (reset : s.blockInReset .sch = true) : s.takeChain m = none := by
  rw [State.takeChain, if_pos reset]

/-- A chain write with a dedupe and a retention entry. -/
def State.chainTaken (s : State) (m : PeerMsg) : State :=
  (((s.onPeer fun p => { p with dedupe := s.peer.dedupe ++ [⟨m.keyHash, m.version, none⟩] }).onSch fun h => { h with
    rrIntake := 2 }).addPeerCmd (peerCmd m (msgOp m) (msgClass m))).2

theorem State.chainTaken_spec :
    (s.chainTaken m).cmd? s.sch.nextCmd = some (peerCmd m (msgOp m) (msgClass m)) ∧
      (∀ x, x ≠ s.sch.nextCmd → (s.chainTaken m).cmd? x = s.cmd? x) ∧ (s.chainTaken m).sch.nextCmd = s.sch.nextCmd + 1 ∧
      (s.chainTaken m).peer = { s.peer with dedupe := s.peer.dedupe ++ [⟨m.keyHash, m.version, none⟩] } ∧
      OnlyChanges [.sch, .peer] s (s.chainTaken m) := by
  refine ⟨tget_tset_self _ _ _, fun x other => tget_tset_of_ne _ _ _ _ other, rfl, rfl, ?_⟩
  exact Keeps.onlyChanges (keeps_addPeerCmd _ (keeps_onSch _ (keeps_onPeer _ (Keeps.refl (· ∈ [.sch, .peer]) s) (by simp))
    (by simp)) (by simp))

/-- A chain write that R431 lets through is a write. -/
theorem isWrite_msgOp (good : msgRefused m = false) : (msgOp m).isWrite = true := by
  simp only [msgRefused, Bool.or_eq_false_iff, decide_eq_false_iff_not, Nat.not_lt] at good
  obtain ⟨⟨⟨⟨⟨⟨low, high⟩, -⟩, -⟩, -⟩, -⟩, -⟩ := good
  unfold msgOp
  interval_cases m.wop <;> rfl

/-- It carries its version. -/
theorem version_peerCmd (good : msgRefused m = false) : (peerCmd m (msgOp m) (msgClass m)).version = m.version :=
  if_pos (isWrite_msgOp good)

section
variable (awake : s.blockInReset .sch = false)
include awake

/-- A version that the dedupe table does not hold is taken with a free retention entry, or waits. -/
theorem State.takeChain_new (new : s.dedupeOf m = none) (room : s.peer.dedupe.length < 65536) :
    s.takeChain m = if s.retentionFree (msgClass m) then some (s.chainTaken m) else none := by
  rw [State.dedupeOf] at new
  simp only [State.takeChain, awake, Bool.false_eq_true, if_false, new, dedupeRoom, if_pos room]
  rfl

theorem State.takeChain_inProgress {e : Dedupe} (held : s.dedupeOf m = some e) (open_ : e.ack = none) :
    s.takeChain m = some s := by
  rw [State.dedupeOf] at held
  simp only [State.takeChain, awake, Bool.false_eq_true, if_false, held, open_]

theorem State.takeChain_acked {e : Dedupe} {st copies : Nat} (held : s.dedupeOf m = some e)
    (acked : e.ack = some (st, copies)) : s.takeChain m
      = some (s.sendPeer m.srcPeer 2 { m with status := st, copies := copies, path := [], data := [], key := [] }) := by
  rw [State.dedupeOf] at held
  simp only [State.takeChain, awake, Bool.false_eq_true, if_false, held, acked]

end

theorem State.chainIn_waits (waits : s.takeChain m = none) :
    s.chainIn m = s.onPeer fun p => { p with intake := p.intake ++ [m] } := by
  simp only [State.chainIn, waits]

theorem State.chainIn_goes {t : State} (goes : s.takeChain m = some t) : s.chainIn m = t := by
  simp only [State.chainIn, goes]

/-- An unsealed message stands at intake with its sender. -/
theorem takenMsg_plain (plain : m.sealed = false) :
    takenMsg p m m.data = { m with srcPeer := p, crc := 0, headers := [] } := by
  rw [takenMsg, ← plain]

/-- A message opened and taken, and the same message with the plain bytes, are one. -/
theorem takenMsg_plainMsg (b : Bytes) : takenMsg p (plainMsg kind m b) b = takenMsg p m b := rfl

theorem exec_chainWrite_sealed {b : Bytes} {u : State} (peer : s.activePeer m.ctx = some p) (crc : m.crc = msgCrc 1 m)
    (good : msgRefused m = false) (opened : s.openPieces p 1 m = (some b, u)) :
    exec (.chainWrite m) s = exec (.chainWrite (plainMsg 1 m b)) u := by
  have nfe : u.nfe = s.nfe := (State.keeps_openPieces_snd opened).same .nfe (by simp)
  have peer' : u.activePeer (plainMsg 1 m b).ctx = some p := (State.activePeer_of_nfe nfe m.ctx).trans peer
  have good' : msgRefused (plainMsg 1 m b) = false := good
  have opened' : u.openPieces p 1 (plainMsg 1 m b) = (some b, u) := State.openPieces_plain rfl
  rw [exec_chainWrite, State.takeMsg_of_activePeer peer crc, good, if_neg Bool.false_ne_true, State.openMsg_opened opened]
  rw [exec_chainWrite, State.takeMsg_of_activePeer peer' (msgCrc_crc _ _).symm, good', if_neg Bool.false_ne_true,
    State.openMsg_opened opened', takenMsg_plainMsg]

/-- Settles O45: a chain write by what `State.takeChain` makes of it; sealed ones by `exec_chainWrite_sealed`. -/
theorem chainWritesArrive : Obligations.ChainWritesArrive := by
  unfold Obligations.ChainWritesArrive
  refine ⟨fun s m p heard => ⟨fun refused => ?_, fun good new room awake => ⟨fun free => ?_, fun full => ?_⟩,
      fun good reset => ?_, fun e good awake held => ⟨fun open_ => ?_, fun st copies x acked ctx => ?_⟩⟩,
    fun s m p peer => ⟨fun bad => ?_, fun u crc _ good closed => ?_, fun b u crc _ good opened =>
      exec_chainWrite_sealed peer crc good opened⟩, fun s kh version empty => ?_⟩
  · obtain ⟨peer, -, crc, -⟩ := heard
    refine ⟨s.raise 1036 (item2 p ++ item8 m.msgSeq ++ item1 1), ?_, rfl,
      (keeps_raise _ _ (Keeps.refl _ s) (by simp)).onlyChanges⟩
    rw [exec_chainWrite, State.takeMsg_of_activePeer peer crc, if_pos refused]
  · have goes : s.takeChain (takenMsg p m m.data) = some (s.chainTaken (takenMsg p m m.data)) := by
      rw [State.takeChain_new (m := takenMsg p m m.data) awake new room]
      exact if_pos free
    rw [exec_chainWrite_heard heard good, State.chainIn_goes goes]
    obtain ⟨cmd, others, next, peer, changes⟩ := State.chainTaken_spec (s := s) (m := takenMsg p m m.data)
    exact ⟨_, _, rfl, cmd, rfl, version_peerCmd good, rfl, rfl, rfl, rfl, others, next, peer, changes⟩
  · have waits : s.takeChain (takenMsg p m m.data) = none := by
      rw [State.takeChain_new (m := takenMsg p m m.data) awake new room]
      exact if_neg (fun free => Bool.false_ne_true (full.symm.trans free))
    rw [exec_chainWrite_heard heard good, State.chainIn_waits waits, takenMsg_plain heard.2.2.2]
    exact ⟨_, rfl, rfl, (keeps_onPeer _ (Keeps.refl _ s) (by simp)).onlyChanges⟩
  · rw [exec_chainWrite_heard heard good, State.chainIn_waits (State.takeChain_inReset reset),
      takenMsg_plain heard.2.2.2]
    exact ⟨_, rfl, rfl, (keeps_onPeer _ (Keeps.refl _ s) (by simp)).onlyChanges⟩
  · rw [exec_chainWrite_heard heard good, State.chainIn_goes (State.takeChain_inProgress (m := takenMsg p m m.data) awake held open_)]
  · rw [exec_chainWrite_heard heard good, State.chainIn_goes (State.takeChain_acked (m := takenMsg p m m.data) awake held acked)]
    obtain ⟨a, seq, sent, crc, shape, changes⟩ := State.sends_sendPeer (kind := 2) (m := { takenMsg p m m.data with
      status := st, copies := copies, path := [], data := [], key := [] }) ctx rfl
    refine ⟨_, a, rfl, sent, ?_, ?_, ?_, ?_, crc, changes⟩ <;> rw [shape] <;> rfl
  · rw [exec_chainWrite, State.takeMsg_bad peer bad]
  · rw [exec_chainWrite, State.takeMsg_of_activePeer peer crc, good, if_neg Bool.false_ne_true, State.openMsg_closed closed]
  · refine ⟨_, congrArg Host.Outcome.next (State.serveIntake_of_nil empty), fun e => ?_,
      (keeps_onPeer _ (Keeps.refl _ s) (by simp)).onlyChanges⟩
    show e ∈ s.peer.dedupe.filter _ ↔ _
    simp only [List.mem_filter, Bool.not_eq_true', Bool.and_eq_false_iff, decide_eq_false_iff_not]
    rw [← Bool.not_eq_true]
    tauto

end Sys2Proof.Machine
end

section
/-! PROOFS. Links between peers (O44): the exchange that makes a queue pair (R421, R613), and what keeps it alive (R422). -/

namespace Sys2Proof.Machine

variable {o s t u : State} {ctx peer : Nat} {q : Qp}

/-! ## What is sent, and who is live -/

/-- What is sent is a matter of the transmit queue alone. -/
theorem sends_of_tx {s' t' : State} {xs : List Tx} (h : Sends s t xs) (before : s'.nfe.tx = s.nfe.tx)
    (after : t'.nfe.tx = t.nfe.tx) : Sends s' t' xs := by
  obtain ⟨ms, only, sent⟩ := h
  exact ⟨ms, only, by rw [after, sent, before]⟩

theorem sends_append {xs ys : List Tx} (h : Sends s t xs) (k : Sends t u ys) : Sends s u (xs ++ ys) := by
  obtain ⟨ms, rfl, first⟩ := h
  obtain ⟨ns, rfl, later⟩ := k
  exact ⟨ms ++ ns, List.map_append, by rw [later, first, List.append_assoc]⟩

theorem State.peerLive_of_peer (same : t.peer = s.peer) (p : Nat) : t.peerLive p = s.peerLive p := by
  rw [State.peerLive, State.peerLive, same]

theorem State.peerLive_setLive {l : PeerLive} (listed : l ≠ .down) : (s.setLive peer l).peerLive peer = l := by
  show (tget (if l = .down then tdel s.peer.live peer else tset s.peer.live peer l) peer).getD .down = l
  rw [if_neg listed, tget_tset_self]
  rfl

theorem State.peerLive_setLive_down (wf : Tbl.wf s.peer.live = true) : (s.setLive peer .down).peerLive peer = .down := by
  show (tget (tdel s.peer.live peer) peer).getD .down = .down
  rw [tget_tdel_self _ _ wf]
  rfl

/-! ## A context of an exchange (R421) -/

/-- A context is made, and its peer reads LINKING until it is UP. -/
def State.peerLinking (s : State) (peer ctx : Nat) (q : Qp) : State :=
  let s := s.onNfe fun n => { n with qps := tset n.qps ctx q }
  if s.peerLive peer = .up then s else s.setLive peer .linking

theorem State.peerLinking_spec : (s.peerLinking peer ctx q).qp? ctx = some q ∧
    (∀ x, x ≠ ctx → (s.peerLinking peer ctx q).qp? x = s.qp? x) ∧ (s.peerLinking peer ctx q).nfe.tx = s.nfe.tx ∧
    (s.peerLinking peer ctx q).peerLive peer = if s.peerLive peer = .up then .up else .linking := by
  have nfe : (s.peerLinking peer ctx q).nfe = { s.nfe with qps := tset s.nfe.qps ctx q } := by
    unfold State.peerLinking
    dsimp only
    split <;> rfl
  refine ⟨?_, fun x other => ?_, by rw [nfe], ?_⟩
  · rw [State.qp?, nfe]
    exact tget_tset_self _ _ _
  · rw [State.qp?, nfe]
    exact tget_tset_of_ne _ _ _ _ other
  · by_cases up : s.peerLive peer = .up
    · rw [if_pos up]
      exact (congrArg (State.peerLive · peer) (if_pos up)).trans up
    · rw [if_neg up]
      exact (congrArg (State.peerLive · peer) (if_neg up)).trans (State.peerLive_setLive (by decide))

/-- The state before the context is made: a nonce has been drawn and a QGEN taken. -/
def State.linkDrawn (s : State) (ctx : Nat) : State := ((s.drawRandom 16).2.nextQgen ctx).2

theorem State.linkDrawn_spec (ctx : Nat) : (s.linkDrawn ctx).nfe = s.nfe ∧ (s.linkDrawn ctx).peer = s.peer := by
  have kept : Keeps2 (· ∉ [.nfe, .peer]) (s.drawRandom 16).2 ((s.drawRandom 16).2.nextQgen ctx) :=
    keeps_nextQgen ctx (Keeps.refl _ _) (by decide) (by decide) (by decide)
  exact ⟨kept.same .nfe (by simp), kept.same .peer (by simp)⟩

/-- An exchange begins: the context, the peer's live state, and the message that goes out. -/
theorem State.linking_spec (conn : Qp) (x : Tx) :
    (((s.linkDrawn ctx).peerLinking peer ctx conn).send x).qp? ctx = some conn ∧
      (∀ y, y ≠ ctx → (((s.linkDrawn ctx).peerLinking peer ctx conn).send x).qp? y = s.qp? y) ∧
      Sends s (((s.linkDrawn ctx).peerLinking peer ctx conn).send x) [x] ∧
      (((s.linkDrawn ctx).peerLinking peer ctx conn).send x).peerLive peer
        = if s.peerLive peer = .up then .up else .linking := by
  obtain ⟨nfe, peers⟩ := s.linkDrawn_spec ctx
  obtain ⟨made, others, tx, live⟩ := State.peerLinking_spec (s := s.linkDrawn ctx) (peer := peer) (ctx := ctx) (q := conn)
  refine ⟨made, fun y other => (others y other).trans (by rw [State.qp?, nfe, State.qp?]), ?_, live.trans ?_⟩
  · exact sends_of_tx (sends_send _ x) ((congrArg Nfe.tx nfe).symm.trans tx.symm) rfl
  · rw [State.peerLive_of_peer peers]

/-! ## PEER_LINK_REQUEST (R613) -/

theorem State.linkPeer_eq {port : Port} (found : s.linkingCtx peer port = some ctx ∨
    s.linkingCtx peer port = none ∧ s.freeContextIn 16384 4096 = some ctx) :
    ∃ (q : Qp) (raw : Bytes), s.linkPeer peer port = ((s.linkDrawn ctx).peerLinking peer ctx q).send (.peerReq peer port raw) ∧
      q.st = .connecting ∧ q.conn.peer = some peer ∧ q.conn.requester = true := by
  refine ⟨Qp.connecting (((s.drawRandom 16).2.nextQgen ctx).1) { (s.linkDrawn ctx).connOf ⟨portLink port,
      peerReqBytes (s.linkDrawn ctx).selfId (s.drawRandom 16).1, (s.linkDrawn ctx).maxPmtu, ctx⟩ (some peer) [] ctx with
      requester := true },
    peerReqBytes (s.linkDrawn ctx).selfId (s.drawRandom 16).1, ?_, rfl, rfl, rfl⟩
  obtain begun | ⟨new, free⟩ := found
  · simp only [State.linkPeer, begun]
    rfl
  · simp only [State.linkPeer, new, free]
    rfl

theorem exec_peerLinkRequest_links {port : Port} {e : PeerEntry} (enabled : s.peerEnabled peer = some e) (up : s.netUp = true)
    (higher : s.selfId < peer) (bare : s.peerOnPort peer port = false ∨ s.peerLive peer = .down)
    (room : s.peersLinked.contains peer = true ∨ s.peersLinked.length < 2048) :
    exec (.peerLinkRequest peer port) s = .next (s.linkPeer peer port) := by
  show execPeerLinkRequest peer port s = _
  simp only [execPeerLinkRequest, enabled]
  exact congrArg _ (if_pos ⟨up, higher, bare, room⟩)

/-! ## PEER_CM_REQ (R421) -/

/-- The context of a peer's REQ. -/
def State.peerConnecting (s : State) (req : ReqMsg) (ctx : Nat) : Qp :=
  Qp.connecting ((s.drawRandom 16).2.nextQgen ctx).1
    ((s.linkDrawn ctx).connOf req (some (reqTenant req.raw % 4096)) (s.drawRandom 16).1 ctx)

section
variable {req : ReqMsg} {e : PeerEntry} {root : Bytes} (up : s.netUp = true) (of_peer : reqPeer req.raw = true)
  (whole : reqMalformed req = false) (wide : reqPathShort req = false) (free : s.freeContextIn 16384 4096 = some ctx)
  (enabled : s.peerEnabled (reqTenant req.raw % 4096) = some e) (keyed : s.domainRoot e.domain = some root)
include up of_peer whole wide free enabled keyed

theorem exec_peerCmReq_refused (foreign : reqUid req.raw ≠ e.uid) : exec (.peerCmReq req) s
    = .next ((s.reject req.link 0x02).peerAuthFailed (reqTenant req.raw % 4096)) := by
  show execPeerCmReq req s = _
  simp only [execPeerCmReq, up, of_peer, Bool.and_self, guardStep_true, State.peerRequest, whole, wide, Bool.false_eq_true,
    if_false, free, enabled, keyed, if_pos foreign]

theorem exec_peerCmReq_admitted (known : reqUid req.raw = e.uid) (room : s.peersLinked.length < 2048) :
    ∃ rep, exec (.peerCmReq req) s = .next (((s.linkDrawn ctx).peerLinking (reqTenant req.raw % 4096) ctx
      (s.peerConnecting req ctx)).send (.cmRep ctx rep)) := by
  have fits : ¬(2048 ≤ s.peersLinked.length ∧ ¬s.peersLinked.contains (reqTenant req.raw % 4096) = true) := by omega
  show ∃ rep, execPeerCmReq req s = _
  simp only [execPeerCmReq, up, of_peer, Bool.and_self, guardStep_true, State.peerRequest, whole, wide, Bool.false_eq_true,
    if_false, free, enabled, keyed, ne_eq, not_true, known, if_neg fits]
  exact ⟨_, rfl⟩

end

/-! ## A queue pair becomes ACTIVE (R421, R613) -/

/-- Whether an entry is the queue pair that the peer had on the port of another that becomes ACTIVE. -/
def replaces (peer ctx : Nat) (link : Link) (e : Nat × Qp) : Prop :=
  e.1 ≠ ctx ∧ e.2.conn.peer = some peer ∧ e.2.st = .active ∧ linkPort e.2.conn.link = linkPort link

/-- Queue pairs that a DREQ ends. -/
def State.endPairs (s : State) (l : List (Nat × Qp)) : State :=
  l.foldl (fun s e => (s.send (.cmDreq e.1 0 0)).freeCtx e.1) s

theorem State.endPairs_spec (l : List (Nat × Qp)) (wf : Tbl.wf s.nfe.qps = true) :
    Sends s (s.endPairs l) (l.map fun e => .cmDreq e.1 0 0) ∧ (∀ e ∈ l, (s.endPairs l).qp? e.1 = none) ∧
      (∀ x, (s.endPairs l).qp? x = none ∨ (s.endPairs l).qp? x = s.qp? x) ∧
      ∀ x, (∀ e ∈ l, e.1 ≠ x) → (s.endPairs l).qp? x = s.qp? x := by
  induction l generalizing s with
  | nil => exact ⟨sends_nil rfl, by simp, fun _ => .inr rfl, fun _ _ => rfl⟩
  | cons e l ih =>
    have wf' : Tbl.wf ((s.send (.cmDreq e.1 0 0)).freeCtx e.1).nfe.qps = true := Tbl.wf_tdel _ _ wf
    obtain ⟨sent, gone, fewer, others⟩ := ih wf'
    have self : ((s.send (.cmDreq e.1 0 0)).freeCtx e.1).qp? e.1 = none := State.qp?_freeCtx_self wf
    have ne (x : Nat) (other : x ≠ e.1) : ((s.send (.cmDreq e.1 0 0)).freeCtx e.1).qp? x = s.qp? x :=
      State.qp?_freeCtx_of_ne other
    have stays (x : Nat) : ((s.send (.cmDreq e.1 0 0)).freeCtx e.1).qp? x = none ∨
        ((s.send (.cmDreq e.1 0 0)).freeCtx e.1).qp? x = s.qp? x := by
      by_cases same : x = e.1
      · exact .inl (same ▸ self)
      · exact .inr (ne x same)
    refine ⟨sends_cons (sends_of_tx sent rfl rfl), fun d hd => ?_, fun x => ?_, fun x away => ?_⟩
    · obtain rfl | later := List.mem_cons.1 hd
      · exact (fewer d.1).elim id fun same => same.trans self
      · exact gone d later
    · obtain none | same := fewer x
      · exact .inl none
      · exact (stays x).imp same.trans same.trans
    · exact (others x fun d hd => away d (List.mem_cons_of_mem e hd)).trans
        (ne x (away e List.mem_cons_self).symm)

/-- The queue pairs that one that becomes ACTIVE replaces. -/
def State.oldPairs (s : State) (peer ctx : Nat) : List (Nat × Qp) :=
  s.nfe.qps.filter fun e => decide (e.1 ≠ ctx) && e.2.conn.peer = some peer && e.2.st = .active
    && decide (some (linkPort e.2.conn.link) = (tget s.nfe.qps ctx).map fun q => linkPort q.conn.link)

theorem State.mem_oldPairs (found : s.qp? ctx = some q) (e : Nat × Qp) :
    e ∈ s.oldPairs peer ctx ↔ e ∈ s.nfe.qps ∧ replaces peer ctx q.conn.link e := by
  have port : tget s.nfe.qps ctx = some q := found
  simp [State.oldPairs, replaces, port, and_assoc]

theorem State.replacePairs_spec (wf : Tbl.wf s.nfe.qps = true) (found : s.qp? ctx = some q) :
    (∃ q', (s.replacePairs peer ctx).qp? ctx = some q' ∧ q'.st = .active ∧ q'.conn = q.conn) ∧
      Sends s (s.replacePairs peer ctx) ((s.oldPairs peer ctx).map fun e => .cmDreq e.1 0 0) ∧
      ∀ e ∈ s.oldPairs peer ctx, (s.replacePairs peer ctx).qp? e.1 = none := by
  have shape : s.replacePairs peer ctx = (s.endPairs (s.oldPairs peer ctx)).activate ctx := rfl
  obtain ⟨sent, gone, -, others⟩ := State.endPairs_spec (s.oldPairs peer ctx) wf
  have apart (e : Nat × Qp) (he : e ∈ s.oldPairs peer ctx) : e.1 ≠ ctx := ((State.mem_oldPairs found e).1 he).2.1
  have held : (s.endPairs (s.oldPairs peer ctx)).qp? ctx = some q := (others ctx apart).trans found
  rw [shape]
  refine ⟨⟨_, State.qp?_activate_self held, rfl, rfl⟩, sends_of_tx sent rfl rfl, fun e he => ?_⟩
  exact (State.qp?_activate_of_ne (apart e he)).trans (gone e he)

/-- What an entry is, and whether it is replaced, does not change with the context itself. -/
theorem mem_tmod_of_ne {α : Type} {t : Tbl α} {n : Nat} {f : α → α} (wf : Tbl.wf t = true) {e : Nat × α} (other : e.1 ≠ n) :
    e ∈ tmod t n f ↔ e ∈ t := by
  constructor
  · intro held
    have read := tget_of_mem (Tbl.wf_tmod t n f wf) held
    rw [tget_tmod_of_ne t f other] at read
    exact mem_of_tget read
  · intro held
    have read := tget_of_mem wf held
    rw [← tget_tmod_of_ne t f other] at read
    exact mem_of_tget read

/-- What becomes ACTIVE in place of another: the context, the DREQs, and that those they end are free. `s` is the state in
which the other queue pairs are looked up, `u` the one in which the context stands that becomes ACTIVE. -/
theorem State.replacePairs_of {q' : Qp} (wf : Tbl.wf u.nfe.qps = true) (found : u.qp? ctx = some q')
    (link : q'.conn.link = q.conn.link)
    (others : ∀ e : Nat × Qp, e.1 ≠ ctx → (e ∈ u.nfe.qps ↔ e ∈ s.nfe.qps)) :
    ∃ (q'' : Qp) (old : List Nat), (u.replacePairs peer ctx).qp? ctx = some q'' ∧ q''.st = .active ∧ q''.conn = q'.conn ∧
      Sends u (u.replacePairs peer ctx) (old.map fun x => .cmDreq x 0 0) ∧
      (∀ x, x ∈ old ↔ ∃ e ∈ s.nfe.qps, e.1 = x ∧ x ≠ ctx ∧ e.2.conn.peer = some peer ∧ e.2.st = .active ∧
        linkPort e.2.conn.link = linkPort q.conn.link) ∧
      ∀ x ∈ old, (u.replacePairs peer ctx).qp? x = none := by
  obtain ⟨⟨q'', active, st, conn⟩, sent, gone⟩ := State.replacePairs_spec (peer := peer) wf found
  refine ⟨q'', (u.oldPairs peer ctx).map (·.1), active, st, conn, ?_, fun x => ?_, fun x hx => ?_⟩
  · rw [List.map_map]
    exact sent
  · simp only [List.mem_map, State.mem_oldPairs found, replaces, link]
    constructor
    · rintro ⟨e, ⟨held, other, rest⟩, rfl⟩
      exact ⟨e, (others e other).1 held, rfl, other, rest⟩
    · rintro ⟨e, held, rfl, other, rest⟩
      exact ⟨e, ⟨(others e other).2 held, other, rest⟩, rfl⟩
  · obtain ⟨e, he, rfl⟩ := List.mem_map.1 hx
    exact gone e he

/-! ## PEER_CM_REP and PEER_CM_RTU (R421) -/

section
variable {rep : PeerRep} {e : PeerEntry} {root : Bytes} (found : s.qp? ctx = some q) (connecting : q.st = .connecting)
  (of_peer : q.conn.peer = some peer) (enabled : s.peerEnabled peer = some e) (keyed : s.domainRoot e.domain = some root)
include found connecting of_peer enabled keyed

/-- The proof input of a REP, as the requester forms it. -/
def State.repInput (s : State) (ctx : Nat) (q : Qp) (rep : PeerRep) : Bytes :=
  peerProofInput (padTo 16 rep.driveNonce) q.conn.clientNonce s.selfId rep.remoteQpn ctx q.conn.session driveUid

theorem exec_peerCmRep_good (requester : q.conn.requester = true)
    (good : rep.driveUid = e.uid ∧ rep.respProof = peerReplyProof root (s.repInput ctx q rep)) :
    exec (.peerCmRep ctx rep) s = .next (((s.onQp ctx fun q => { q with conn := { q.conn with
      clientQpn := rep.remoteQpn, driveNonce := padTo 16 rep.driveNonce } }).send
      (.peerRtu ctx (peerProof root (s.repInput ctx q rep)))).replacePairs peer ctx) := by
  show execPeerCmRep ctx rep s = _
  rw [execPeerCmRep, State.withQp_pos _ found (by simp [connecting, requester])]
  simp only [of_peer, enabled, keyed]
  rw [← State.repInput, if_pos good]

theorem exec_peerCmRep_bad (requester : q.conn.requester = true)
    (bad : rep.driveUid ≠ e.uid ∨ rep.respProof ≠ peerReplyProof root (s.repInput ctx q rep)) :
    exec (.peerCmRep ctx rep) s
      = .next (((s.send (.cmRej q.conn.link 0x02)).freeCtx ctx).peerAuthFailed peer) := by
  have off : ¬(rep.driveUid = e.uid ∧ rep.respProof = peerReplyProof root (s.repInput ctx q rep)) := by tauto
  show execPeerCmRep ctx rep s = _
  rw [execPeerCmRep, State.withQp_pos _ found (by simp [connecting, requester])]
  simp only [of_peer, enabled, keyed]
  rw [← State.repInput, if_neg off]

/-- The PROOF that an RTU is to carry. -/
def rtuProof (root : Bytes) (ctx peer : Nat) (q : Qp) : Bytes :=
  peerProof root (peerProofInput q.conn.driveNonce q.conn.clientNonce peer ctx q.conn.clientQpn q.conn.session q.conn.reqUid)

theorem exec_peerCmRtu {proof : Bytes} (fresh : q.cause = 0) (responder : q.conn.requester = false) :
    exec (.peerCmRtu ctx proof) s = .next (if proof.take 32 = rtuProof root ctx peer q then s.replacePairs peer ctx
      else (s.proofFailed ctx).peerAuthFailed peer) := by
  show execPeerCmRtu ctx proof s = _
  rw [execPeerCmRtu, State.withQp_pos _ found (by simp [connecting, fresh, responder])]
  simp only [of_peer, enabled, keyed, Option.bind_some, Option.map_some, Option.some.injEq]
  rw [← rtuProof]
  simp only [eq_comm]

end

/-! ## Liveness (R422) -/

theorem exec_keepaliveSend (of_peer : s.activePeer ctx = some peer) :
    exec (.keepaliveSend ctx) s = .next ((s.nextMsg ctx peer blankMsg).2.sendMsg ctx 6 (s.nextMsg ctx peer blankMsg).1) := by
  show execKeepaliveSend ctx s = _
  simp only [execKeepaliveSend, of_peer]

theorem exec_peerDead_up (up : s.peerLive peer = .up) :
    exec (.peerDead peer) s = .next ((s.setLive peer .down).raise 1024 (item2 peer)) := by
  show execPeerDead peer s = _
  rw [execPeerDead, if_pos up, State.peerDown]
  exact congrArg _ (if_pos up)

theorem State.peerHeard_notUp {e : PeerEntry} (enabled : s.peerEnabled peer = some e) (silent : s.peerLive peer ≠ .up) :
    s.peerHeard peer = (s.setLive peer .up).raise 1025 (item2 peer) := by
  simp only [State.peerHeard, enabled, if_neg silent]

/-- Settles O44: the exchange by `State.linking_spec`, a queue pair that becomes ACTIVE by `State.replacePairs_of`. -/
theorem peersLink : Obligations.PeersLink := by
  unfold Obligations.PeersLink
  refine ⟨fun s peer port e ctx enabled up higher bare room found => ?_,
    fun s req ctx peer e root up of_peer whole wide free id enabled keyed => ⟨fun known room => ?_, fun foreign => ?_⟩,
    fun s ctx peer q rep e root wf found connecting requester of_peer enabled keyed => ?_,
    fun s ctx peer q proof e root wf found connecting fresh responder of_peer enabled keyed => ?_,
    fun s m p active => ⟨fun heard => ?_, fun e crc plain enabled silent => ?_, fun bad => ?_⟩,
    fun s ctx p q active found => ?_, fun s peer wf live => ?_⟩
  · obtain ⟨q, raw, linked, st, of_peer, requester⟩ := State.linkPeer_eq found
    obtain ⟨made, others, sent, live⟩ := State.linking_spec (s := s) (ctx := ctx) (peer := peer) q (.peerReq peer port raw)
    rw [exec_peerLinkRequest_links enabled up higher bare room, linked]
    exact ⟨_, q, raw, rfl, made, st, of_peer, requester, others, sent, live⟩
  · subst id
    obtain ⟨rep, run⟩ := exec_peerCmReq_admitted up of_peer whole wide free enabled keyed known room
    obtain ⟨made, -, sent, live⟩ := State.linking_spec (s := s) (ctx := ctx) (peer := reqTenant req.raw % 4096)
      (s.peerConnecting req ctx) (.cmRep ctx rep)
    exact ⟨_, _, rep, run, made, rfl, rfl, rfl, sent, live⟩
  · subst id
    refine ⟨_, exec_peerCmReq_refused up of_peer whole wide free enabled keyed foreign, rfl,
      sends_of_tx (sends_send s _) rfl rfl, rfl, ?_⟩
    exact (keeps_raise _ _ (keeps_send _ (Keeps.refl _ s) (by simp)) (by simp)).onlyChanges
  · intro gone input
    refine ⟨fun uid proof => ?_, fun bad => ?_⟩
    · have run := exec_peerCmRep_good found connecting of_peer enabled keyed requester ⟨uid, proof⟩
      obtain ⟨q'', old, active, st, conn, sent, which, ended⟩ := State.replacePairs_of (peer := peer) (s := s) (q := q)
        (u := (s.onQp ctx fun q => { q with conn := { q.conn with
          clientQpn := rep.remoteQpn, driveNonce := padTo 16 rep.driveNonce } }).send (.peerRtu ctx (peerProof root input)))
        (Tbl.wf_tmod _ _ _ wf) (State.qp?_onQp_self _ found) rfl (fun e other => mem_tmod_of_ne wf other)
      refine ⟨_, q'', old, run, active, st, congrArg QpConn.clientQpn conn, ?_, which, ended, ?_⟩
      · exact sends_append (sends_of_tx (sends_send (s.onQp ctx _) _) rfl rfl) sent
      · exact (keeps_replacePairs _ _ (keeps_send _ (keeps_onQp _ _ (Keeps.refl _ s) (by simp)) (by simp))
          (by simp)).onlyChanges
    · refine ⟨_, exec_peerCmRep_bad found connecting of_peer enabled keyed requester bad, State.qp?_freeCtx_self wf,
        sends_of_tx (sends_send s _) rfl rfl, rfl, ?_⟩
      exact (keeps_raise _ _ (keeps_freeCtx _ (keeps_send _ (Keeps.refl _ s) (by simp)) (by simp)) (by simp)).onlyChanges
  · intro gone want
    have run := exec_peerCmRtu (proof := proof) found connecting of_peer enabled keyed fresh responder
    refine ⟨fun right => ?_, fun wrong => ?_⟩
    · rw [if_pos (show proof.take 32 = rtuProof root ctx peer q from right)] at run
      obtain ⟨q'', old, active, st, -, sent, which, ended⟩ := State.replacePairs_of (peer := peer) (s := s) wf found rfl
        (fun e _ => Iff.rfl)
      exact ⟨_, q'', old, run, active, st, sent, which, ended, (keeps_replacePairs _ _ (Keeps.refl _ s) (by simp)).onlyChanges⟩
    · rw [if_neg (show ¬proof.take 32 = rtuProof root ctx peer q from wrong)] at run
      refine ⟨_, _, run, State.qp?_onQp_self _ found, connecting, rfl, ?_, rfl, ?_⟩
      · exact sends_of_tx (sends_send (s.onQp ctx _) _) rfl rfl
      · exact (keeps_raise _ _ (keeps_proofFailed _ (Keeps.refl _ s) (by simp)) (by simp)).onlyChanges
  · exact congrArg Host.Outcome.next (State.withMsg_of_heardFrom heard _)
  · refine ⟨(s.setLive p .up).raise 1025 (item2 p), congrArg Host.Outcome.next ?_, State.peerLive_setLive (by decide), rfl, ?_⟩
    · rw [State.withMsg, State.takeMsg_of_activePeer active crc, State.openMsg_opened (State.openPieces_plain plain),
        State.peerHeard_notUp enabled silent]
    · exact (keeps_raise _ _ (keeps_setLive _ _ (Keeps.refl _ s) (by simp)) (by simp)).onlyChanges
  · exact ⟨_, congrArg Host.Outcome.next (State.takeMsg_bad active bad _), rfl,
      (keeps_raise _ _ (Keeps.refl _ s) (by simp)).onlyChanges⟩
  · have held : tget s.nfe.qps ctx = some q := found
    refine ⟨_, _, _, exec_keepaliveSend active, ⟨[_], rfl, rfl⟩, rfl, ?_, (msgCrc_crc _ _).symm, tget_tmod_self _ held, ?_, ?_⟩
    · simp [State.nextMsg, State.addressed, held]
    · simp [held]
    · exact (keeps_send _ (keeps_nextMsg _ _ _ (Keeps.refl (· ∈ [.nfe]) s) (by simp)) (by simp) :
        Keeps (· ∈ [.nfe]) s _).onlyChanges
  · exact ⟨_, exec_peerDead_up live, State.peerLive_setLive_down wf, rfl,
      (keeps_raise _ _ (keeps_setLive _ _ (Keeps.refl _ s) (by simp)) (by simp)).onlyChanges⟩

end Sys2Proof.Machine
end

section
/-! PROOFS. Revokes and repairs between peers (O47). What is raised on the way of a repair or a restore stays raised
(`Persists`), so that the events of a statement stand in their order. -/

namespace Sys2Proof.Machine

variable {o s t u : State}

/-! ## Writes that find their place (R268, R333) -/

theorem persists_dropRepair (rid : Nat) (h : Persists o s) : Persists o (s.dropRepair rid) :=
  h.elsewhere (keeps_dropRepair rid (Keeps.refl _ s) (by decide) (by decide))

theorem persists_skipRewrite (rid : Nat) (h : Persists o s) : Persists o (s.skipRewrite rid) := by
  unfold State.skipRewrite
  split
  · exact h
  · exact persists_dropRepair _ (persists_bump _ _ (persists_raise _ _ h))

theorem persists_valSwatch (g : Seg) (h : Persists o s) : Persists o (s.valSwatch g).2 := by
  unfold State.valSwatch
  split
  · exact persists_raise _ _ (persists_if (persists_setFld _ _ h) (persists_setFld _ _))
  · exact h

theorem persists_putObject (loc : Loc) (kind : Nat) (fold : W64) (b x : Bytes) (h : Persists o s) :
    Persists o (s.putObject loc kind fold b x) :=
  h.elsewhere (keeps_putObject _ _ _ _ _ (Keeps.refl _ s) (by decide))

theorem persists_writeSegAt (g : Seg) (loc : Loc) (fold : W64) (h : Persists o s) :
    Persists o (s.writeSegAt g loc fold).2 :=
  persists_putObject _ _ _ _ _ (persists_valSwatch _ h)

theorem persists_hostStream (parityP : Bool) (h : Persists o s) : Persists o (s.hostStream parityP).2 :=
  h.elsewhere (keeps_hostStream parityP (Keeps.refl _ s))

theorem persists_allocHost {parityP : Bool} {units : Nat} {x : Loc × State} (found : s.allocHost parityP units = some x)
    (h : Persists o s) : Persists o x.2 := by
  have drawn := persists_hostStream parityP h
  unfold State.allocHost at found
  dsimp only at found
  split at found
  next at_ =>
    cases found
    exact persists_allocFlash at_ drawn
  next =>
    split at found
    · exact persists_allocFlash found drawn
    · cases found

theorem persists_onCmd (n : Nat) (f : Cmd → Cmd) (h : Persists o s) : Persists o (s.onCmd n f) := h.of_same rfl rfl rfl

theorem persists_setWork (n i : Nat) (w : SegWork) (h : Persists o s) : Persists o (s.setWork n i w) :=
  persists_onCmd _ _ h

theorem persists_addCond (n : Nat) (st : Status) (h : Persists o s) : Persists o (s.addCond n st) := persists_onCmd _ _ h

theorem persists_failCmd (n version : Nat) (h : Persists o s) : Persists o (s.failCmd n version) := by
  unfold State.failCmd
  split
  · exact h
  · exact persists_endCmd _ _ (persists_if h (persists_bump _ _))

theorem persists_dropIdleRef (n : Nat) (h : Persists o s) : Persists o (s.dropIdleRef n) :=
  h.elsewhere (keeps_dropIdleRef n (Keeps.refl _ s) (by decide) (by decide))

theorem persists_writeFails (n : Nat) (st : Status) (h : Persists o s) : Persists o (s.writeFails n st) := by
  have noted := persists_addCond n st h
  unfold State.writeFails
  dsimp only
  split
  · exact noted
  · exact persists_ite (persists_failCmd _ _ noted) (persists_dropIdleRef _ (persists_onCmd _ _ noted))

theorem persists_placeFlash (n : Nat) (parityP : Bool) (gs : Tbl Seg) (h : Persists o s) :
    Persists o (s.placeFlash n parityP gs) := by
  induction gs generalizing s with
  | nil => exact h
  | cons e gs ih =>
    obtain ⟨i, g⟩ := e
    unfold State.placeFlash
    split
    · exact persists_writeFails _ _ h
    next found => exact ih (persists_setWork _ _ _ (persists_writeSegAt _ _ _ (persists_allocHost found h)))

theorem persists_allocStaging (n : Nat) (h : Persists o s) : Persists o (s.allocStaging n).2 := by
  unfold State.allocStaging
  exact persists_onLdg (fun l => { l with taken := tset l.taken _ (n, s.flt.time) }) h rfl rfl rfl rfl rfl

theorem persists_placeLedger (n : Nat) (gs : Tbl Seg) (h : Persists o s) : Persists o (s.placeLedger n gs) := by
  refine persists_foldl _ (fun s e h => ?_) _ h
  have taken := persists_allocStaging (segUnits e.2.payload.length) h
  generalize s.allocStaging (segUnits e.2.payload.length) = x at taken ⊢
  exact persists_setWork n e.1 _ (persists_writeSegAt e.2 (.ledger x.1) (x.2.segFold n e.1) taken)

theorem persists_decidePath (n : Nat) (h : Persists o s) : Persists o (s.decidePath n) := by
  unfold State.decidePath
  split
  · exact h
  next c _ =>
    dsimp only
    split
    · exact persists_onCmd _ _ h
    · split
      · exact persists_placeLedger _ _ (persists_onCmd _ _ (persists_lowerGauge _ h))
      · exact persists_placeFlash _ _ _ (persists_onCmd _ _ (persists_if h (persists_bump _ _)))

theorem persists_pathWhenReady (n : Nat) (h : Persists o s) : Persists o (s.pathWhenReady n) := by
  unfold State.pathWhenReady
  split
  · exact h
  next c _ =>
    refine persists_unless h fun h => ?_
    extract_lets all u
    have free : Persists o u := persists_if h (persists_dropRef n)
    split
    · exact persists_onCmd _ _ (persists_placeFlash _ _ _ (persists_onCmd _ _ free))
    · exact persists_if free (persists_decidePath n)

theorem persists_segReady (n i : Nat) (b : Bytes) (h : Persists o s) : Persists o (s.segReady n i b) :=
  h.elsewhere (keeps_segReady n i b (Keeps.refl _ s) (by decide) (by decide) (by decide))

theorem persists_mergeGood (n i : Nat) (part logical : Bytes) (h : Persists o s) :
    Persists o (s.mergeGood n i part logical) := by
  unfold State.mergeGood
  split
  · exact h
  · exact persists_pathWhenReady _ (persists_segReady _ _ _ (persists_onCmd _ _ h))

/-! ## Reads that go on (R138, R285) -/

theorem persists_deliver (n : Nat) (b : Bytes) (h : Persists o s) : Persists o (s.deliver n b) := by
  unfold State.deliver
  split
  · exact h
  · refine persists_onCmd _ _ ?_
    split
    · exact h.elsewhere (keeps_sendAs _ _ _ (Keeps.refl _ s) (by decide))
    · exact persists_onCmd _ _ (persists_sendPeer _ _ _ h)
    · exact h

theorem persists_endRead (n : Nat) (st : Status) (h : Persists o s) : Persists o (s.endRead n st) := by
  unfold State.endRead
  split
  · exact h
  · exact persists_endCmd _ _ h

theorem persists_advanceRead (n fuel : Nat) (h : Persists o s) : Persists o (s.advanceRead n fuel) := by
  induction fuel generalizing s with
  | zero => exact h
  | succ fuel ih =>
    unfold State.advanceRead
    split
    · exact h
    · refine persists_ite (persists_endRead _ _ h) ?_
      dsimp only
      split
      · exact h
      · exact ih (persists_deliver _ _ h)

theorem persists_readGood (n i : Nat) (logical : Bytes) (h : Persists o s) : Persists o (s.readGood n i logical) := by
  unfold State.readGood
  split
  · exact h
  · exact persists_advanceRead _ _ (persists_unless (persists_onCmd _ _ (persists_deliver _ _ h)) (persists_dropRef n))

theorem persists_segGood (n i : Nat) (logical : Bytes) (h : Persists o s) : Persists o (s.segGood n i logical) := by
  unfold State.segGood
  split
  · exact h
  · refine persists_ite (persists_readGood _ _ _ h) ?_
    split
    · exact persists_mergeGood _ _ _ _ h
    · exact persists_mergeGood _ _ _ _ h
    · exact h

theorem persists_readersGo (r : Repair) (logical : Bytes) (h : Persists o s) : Persists o (s.readersGo r logical) :=
  persists_foldl _ (fun _ _ => persists_segGood _ _ _) _ h

theorem persists_queueRewrite (rid : Nat) (g : Option Seg) (h : Persists o s) : Persists o (s.queueRewrite rid g) := by
  unfold State.queueRewrite
  split
  · split
    · exact persists_skipRewrite _ h
    next found => exact persists_onSch _ (persists_onVal _ (persists_writeSegAt _ _ _ (persists_allocHost found h)))
  · exact persists_skipRewrite _ h

theorem persists_storeAnew (r : Repair) (b : Bytes) (h : Persists o s) : Persists o (s.storeAnew r b).2 := by
  unfold State.storeAnew
  have packed (c : Bool) : Persists o (s.pack c b).2.2 :=
    h.elsewhere (keeps_pack c b (Keeps.refl Elsewhere s) (by decide))
  extract_lets treat
  have packed := packed treat
  generalize s.pack treat b = x at packed ⊢
  obtain ⟨p, comp, u⟩ := x
  dsimp only
  split
  · exact packed
  next w _ =>
    split
    · exact persists_if packed (persists_nonceExhausted _ _)
    next sealed => exact persists_sealBytes sealed packed

end Sys2Proof.Machine
end

section
/-! PROOFS. The directives of the tenant ring and CHECK_COMPUTE (O39): what one of them comes to in its turn. -/

namespace Sys2Proof.Machine

variable {s : State} {d : Dir}

/-- The grant of the issue arbiter to ENG (R201). -/
def State.grantEng (s : State) : State :=
  s.onSch fun h => { h with rrClass := classPointer h.rrClass s.engClass, rrIssue := 0 }

/-- Held back or out of its turn, a directive of ring 7 waits. -/
theorem State.schDirective_waits (waits : s.heldBack 7 d = true ∨ s.engTurn = false) (f : State → State) :
    s.schDirective d f = s := by
  unfold State.schDirective
  rcases waits with held | out
  · exact State.setUp_of_heldBack held _
  · cases held : s.heldBack 7 d
    · rw [State.setUp_of_not_heldBack held, out, guardStep_false]
    · exact State.setUp_of_heldBack held _

/-- In its turn, a directive of ring 7 is carried out with the grant. -/
theorem State.schDirective_granted (free : s.heldBack 7 d = false) (turn : s.engTurn = true) (f : State → State) :
    s.schDirective d f = f s.grantEng := by
  unfold State.schDirective
  rw [State.setUp_of_not_heldBack free, turn, guardStep_true]
  rfl

/-- The grant to ENG, and a tenant's record stored (R64, R464). -/
def State.storeTenant (s : State) (named : Nat) (t : Tenant) : State :=
  s.grantEng.onSch fun h => { h with tenants := tset h.tenants named t }

theorem State.tenant_storeTenant_self (named : Nat) (t : Tenant) : (s.storeTenant named t).tenant named = t :=
  congrArg (fun x : Option Tenant => x.getD ⟨0, 0, 0, 0, 0⟩) (tget_tset_self s.sch.tenants named t)

theorem State.tenant_storeTenant_of_ne {named x : Nat} (t : Tenant) (other : x ≠ named) :
    (s.storeTenant named t).tenant x = s.tenant x :=
  congrArg (fun x : Option Tenant => x.getD ⟨0, 0, 0, 0, 0⟩) (tget_tset_of_ne s.sch.tenants named x t other)

/-- A tenant whose queue pairs are none loses none (R99). -/
theorem State.removeTenant_of_noPairs (none : s.nfe.qps = []) (tenant : Nat) : s.removeTenant tenant = s := by
  simp [State.removeTenant, none]

/-- The grant and a change of SCH's tables change SCH alone. -/
theorem onlyChanges_grantEng (f : Sch → Sch) : OnlyChanges [.sch] s (s.grantEng.onSch f) :=
  (keeps_onSch f (keeps_onSch (r := (· ∈ [Part.sch])) _ (Keeps.refl _ s) (by simp)) (by simp)).onlyChanges

theorem exec_tenantWrite (record : Bytes) (s : State) : exec (.tenantWrite d record) s
    = .next (s.schDirective d fun s => if 2 < (parseTenant (padTo 64 record)).st then s.finish 7 d esRefused []
      else
        let s := s.onSch fun h => { h with
          tenants := tset h.tenants (tenantIdOf (padTo 64 record)) (parseTenant (padTo 64 record)) }
        let s := if (parseTenant (padTo 64 record)).st = 0 then s.removeTenant (tenantIdOf (padTo 64 record)) else s
        s.finish 7 d esDone []) := rfl

theorem exec_tenantRead (tenant : Nat) (s : State) : exec (.tenantRead d tenant) s
    = .next (s.schDirective d fun s =>
      if tenant < 1024 then s.finishExt 7 d (tenantBytes tenant (s.tenant tenant) (s.usageOf tenant)) []
      else s.finish 7 d esRefused []) := rfl

theorem exec_secretLoad (tenant : Nat) (wrapped : Bytes) (s : State) : exec (.secretLoad d tenant wrapped) s
    = .next (s.schDirective d fun s => match kwUnwrap (s.slot 0x401).root (padTo 40 wrapped) with
      | some k =>
        if tenant < 1024 ∧ (s.slot 0x401).st = .loaded then
          (s.onSch fun h => { h with secrets := tset h.secrets tenant (padTo 32 k) }).finish 7 d esDone []
        else s.finish 7 d esRefused []
      | none => s.finish 7 d esRefused []) := rfl

theorem exec_secretClear (tenant : Nat) (s : State) : exec (.secretClear d tenant) s
    = .next (s.schDirective d fun s =>
      (s.onSch fun h => { h with secrets := tdel h.secrets tenant }).finish 7 d esDone []) := rfl

/-! ## CHECK_COMPUTE (R292) -/

/-- A grant of VAL's units moves its pointer at most (R268). -/
theorem State.val_grantVal (c : SvcClass) (requester : Nat) :
    { (s.grantVal c requester).val with rr := s.val.rr } = s.val := by
  unfold State.grantVal
  split <;> rfl

theorem exec_checkCompute_refused {addr len algo : Nat} (fold : W64) (data : Bytes) (free : s.heldBack 2 d = false)
    (bad : 2 < algo ∨ 16777216 < len) : exec (.checkCompute d addr len algo fold data) s
      = .next ((s.raise 389 (leBytes 8 addr ++ leBytes 4 len ++ leBytes 1 algo ++ zeros 3 ++ leBytes 8 fold.toNat)).finish
          2 d esRefused []) := by
  show execCheckCompute d addr len algo fold data s = _
  simp only [execCheckCompute, State.setUp_of_not_heldBack free, if_pos bad]

theorem exec_checkCompute_done {addr len algo : Nat} (fold : W64) (data : Bytes) (free : s.heldBack 2 d = false)
    (known : algo ≤ 2) (short : len ≤ 16777216) (inside : addr + len ≤ dramBytes)
    (turn : s.valTurn (decide (SvcClass.ofCode (s.fld (Reg.ENG_RING_CFG_CLASS 2)) = .express)) 3 = true) :
    exec (.checkCompute d addr len algo fold data) s
      = .next ((s.grantVal (SvcClass.ofCode (s.fld (Reg.ENG_RING_CFG_CLASS 2))) 3).finish 2 d esDone
          (leBytes 8 (checkValue algo fold (padTo len data)))) := by
  show execCheckCompute d addr len algo fold data s = _
  have good : ¬(2 < algo ∨ 16777216 < len) := by omega
  simp only [execCheckCompute, State.setUp_of_not_heldBack free, if_neg good, if_neg (Nat.not_lt.mpr inside), turn,
    guardStep_true]

/-- Settles O39: in its turn each directive is the one change of SCH's tables that it names, and CHECK_COMPUTE moves
VAL's pointer alone. -/
theorem tenantDirectivesAndChecks : Obligations.TenantDirectivesAndChecks := by
  unfold Obligations.TenantDirectivesAndChecks
  refine ⟨fun s d record free turn => ?_, fun s d record wrapped tenant waits => ?_,
    fun s g d tenant free turn hg => ?_, fun s d addr len algo fold data free => ⟨fun known short inside turn => ?_,
      fun bad => ?_⟩⟩
  · rw [exec_tenantWrite, State.schDirective_granted free turn]
    generalize tenantIdOf (padTo 64 record) = named
    generalize parseTenant (padTo 64 record) = rec
    refine ⟨fun legal enabled => ?_, fun disabled none => ?_, fun reserved => ?_⟩
    · refine ⟨s.storeTenant named rec, ?_, State.tenant_storeTenant_self _ _, fun _ => State.tenant_storeTenant_of_ne _,
        rfl, onlyChanges_grantEng _⟩
      rw [if_neg (by omega)]
      simp only [if_neg enabled, State.storeTenant]
    · refine ⟨s.storeTenant named rec, ?_, by rw [State.tenant_storeTenant_self, disabled], onlyChanges_grantEng _⟩
      rw [if_neg (by omega)]
      simp only [if_pos disabled, State.storeTenant]
      rw [State.removeTenant_of_noPairs (by exact none)]
    · refine ⟨s.grantEng, ?_, rfl, onlyChanges_grantEng fun h => h⟩
      rw [if_pos reserved]
  · rw [exec_tenantWrite, exec_tenantRead, exec_secretLoad, exec_secretClear]
    simp only [State.schDirective_waits waits, and_self]
  · obtain rfl : g = s.grantEng := hg
    rw [exec_tenantRead, exec_secretClear]
    simp only [State.schDirective_granted free turn]
    refine ⟨fun lt => by rw [if_pos lt]; rfl, fun ge => by rw [if_neg (Nat.not_lt.mpr ge)], fun wf => ?_,
      fun wrapped k unwraps lt => ?_⟩
    · exact ⟨_, rfl, tget_tdel_self _ _ wf, fun x other => tget_tdel_of_ne _ _ _ other, rfl, onlyChanges_grantEng _⟩
    · rw [exec_secretLoad, State.schDirective_granted free turn]
      have unwraps' : kwUnwrap (s.grantEng.slot 0x401).root (padTo 40 wrapped) = some k := unwraps
      simp only [unwraps']
      refine ⟨fun loaded => ?_, fun empty => ?_⟩
      · exact ⟨_, by rw [if_pos ⟨lt, loaded⟩], tget_tset_self _ _ _, fun x other => tget_tset_of_ne _ _ _ _ other,
          onlyChanges_grantEng _⟩
      · rw [if_neg]
        exact fun both => absurd (both.2.symm.trans empty) (by decide)
  · exact ⟨_, exec_checkCompute_done fold data free known short inside turn, State.val_grantVal _ _,
      (keeps_grantVal _ _ (Keeps.refl (· ∈ [Part.val]) s) (by simp)).onlyChanges⟩
  · exact ⟨_, _, exec_checkCompute_refused fold data free bad, rfl, rfl,
      (keeps_raise _ _ (Keeps.refl (· ∈ [Part.flt]) s) (by simp)).onlyChanges⟩

end Sys2Proof.Machine
end

section
/-! PROOFS. IDENTIFY, ATTEST and REC_READ (O40): how an admin operation starts, what a quote spends, and how its answer goes
back. -/

namespace Sys2Proof.Machine

variable {s : State} {via : AdminVia} {op : Opcode}

/-- An admin operation that may be carried out is (R168, R457). -/
theorem State.admin_of_ready (ready : AdminReady s via op) (f : State → State) : s.admin via op f = f s := by
  obtain ⟨up, turn, ofPair⟩ := ready
  cases via with
  | qp n =>
    obtain ⟨c, found, isOp, started⟩ := ofPair n rfl
    show s.running n (fun c => decide (c.op = op) && s.netUp) (fun s _ => f s) = f s
    rw [State.running_started found started (by simp [isOp, up])]
  | mgmt => exact if_pos (by rw [up, turn]; rfl)
  | ring requester d => exact if_pos (by rw [up, turn]; rfl)

/-! ## How an answer goes back (R168) -/

/-- A command of an admin queue pair, answered, waits with its outcome. -/
theorem State.ended_answer {n ctx : Nat} {c : Cmd} (found : s.cmd? n = some c) (ofPair : c.ctx = some ctx)
    (mine : c.orphan = false) (started : c.stage = .started) (a : AdminAns) :
    Ended (s.answer (.qp n) a) n (c.filled ⟨a.status, a.result1, 0, a.validBytes, false, false⟩) := by
  have way : c.UnderWay := .of_started (by rw [ofPair]; rfl) mine started
  simp only [State.answer, found, ofPair]
  split
  · exact State.ended_endCmd found way _
  · exact State.ended_endCmd (s := s.sendAs ctx .normal _) found way _

/-! ## ATTEST (R565 to R568) -/

theorem exec_attest (nonce : Bytes) (length : Nat) (ready : AdminReady s via .attest) (ledger : s.ldg.ready = true) :
    exec (.attest via nonce length) s = .next (s.attestFor via (s.adminNonce via nonce) (s.adminLength via length)) := by
  show execAttest via nonce length s = _
  simp only [execAttest, State.admin_of_ready ready, if_pos ledger]

section
variable {nonce : Bytes} {length : Nat}

theorem State.attestFor_exhausted (spent : s.sec.exhausted = true) :
    s.attestFor via nonce length = s.answer via (.plain .shed 0xFFFFFFFF) := by
  simp only [State.attestFor, if_pos spent]

theorem State.attestFor_short (left : s.sec.exhausted = false) (short : length < 3144) :
    s.attestFor via nonce length = s.answer via (.plain .ok 0) := by
  simp only [State.attestFor, left, Bool.false_eq_true, if_false, if_pos short]

/-- With room for the quote and a leaf, the interval and the budget decide. -/
theorem State.attestFor_room (left : s.sec.exhausted = false) (room : 3144 ≤ length) :
    s.attestFor via nonce length =
      if s.intervalWait (s.adminSource via) = 0 ∧ 0 < s.sec.budget then
        (s.spendLeaf (s.adminSource via)).answer via
          (.ok 0 (s.quote (s.adminSource via) s.sec.nextLeaf nonce))
      else s.answer via (.plain .shed (if 0 < s.sec.budget then s.intervalWait (s.adminSource via)
        else max (s.intervalWait (s.adminSource via)) s.tokenWait)) := by
  simp only [State.attestFor, left, Bool.false_eq_true, if_false, if_neg (Nat.not_lt.mpr room)]

end

/-- What spending a leaf changes in SEC (R564, R567). -/
theorem State.sec_spendLeaf (requester : Nat) : (s.spendLeaf requester).sec =
    { s.sec with
      nextLeaf := s.sec.nextLeaf + 1, budget := s.sec.budget - 1
      lastAttest := tset s.sec.lastAttest requester s.flt.time
      tree1Started := s.sec.tree1Started || decide (2 ^ 20 < s.sec.nextLeaf + 1)
      exhausted := s.sec.exhausted || decide (leafEnd ≤ s.sec.nextLeaf + 1) } := by
  have kept (u : State) : (u.keepSecure 8 0).sec = u.sec :=
    (keeps_keepSecure 8 0 (Keeps.refl (· ≠ Part.sec) u) (by simp) (by simp) (by simp)).same .sec (by simp)
  unfold State.spendLeaf
  dsimp only
  split <;> exact kept _

/-- The leaf record holds the next leaf and the budget after the draw (R565, R568). -/
theorem State.leaf_spendLeaf (requester : Nat) :
    (s.spendLeaf requester).ldg.kept.leaf = some (s.sec.nextLeaf + 1, s.sec.budget - 1) := by
  unfold State.spendLeaf
  dsimp only
  split <;> exact congrArg Kept.leaf (State.kept_keepSecure 8)

theorem State.raised_spendLeaf (requester : Nat) :
    (⟨1088, leBytes 1 requester ++ leBytes 4 s.sec.nextLeaf⟩ : Ev) ∈ (s.spendLeaf requester).flt.raised := by
  unfold State.spendLeaf
  dsimp only
  split
  · exact List.mem_append_left _ (List.mem_append_right _ (List.mem_singleton.mpr rfl))
  · exact List.mem_append_right _ (List.mem_singleton.mpr rfl)

/-! ## REC_READ where no line is marked (R540, R550) -/

section
variable (unmarked : s.flt.swatched = [])
include unmarked

theorem State.copyMark_unmarked (line : Nat) (copyB : Bool) : s.copyMark line copyB = 0 := by
  simp [State.copyMark, unmarked]

theorem State.copyRead_unmarked (line : Nat) (copyB : Bool) : s.copyRead line copyB = s := by
  have same (p : Nat × Nat × Nat → Bool) : (s.onFlt fun f => { f with swatched := f.swatched.filter p }) = s := by
    have kept : { s.flt with swatched := s.flt.swatched.filter p } = s.flt := by
      rw [unmarked, List.filter_nil, ← unmarked]
    exact congrArg (fun f : Flt => { s with flt := f }) kept
  simp only [State.copyRead, State.swatchRead, same, unmarked]
  rfl

theorem State.retireSpoiled_unmarked (first count : Nat) : s.retireSpoiled first count = s :=
  List.foldl_fixed' (fun e => by rw [State.copyMark_unmarked unmarked, if_pos (by decide),
    State.copyRead_unmarked unmarked]) _

theorem State.loseSpoiled_unmarked (first count : Nat) : s.loseSpoiled first count = s := by
  simp [State.loseSpoiled, State.spoiledRows, unmarked]

theorem exec_recRead (first length : Nat) (ready : AdminReady s via .recRead) :
    exec (.recRead via first length) s = .next (s.answer via
      (.ok (s.readResult (((s.adminDesc via).map (·.param0)).getD first) (s.adminLength via length)).2
        (s.readResult (((s.adminDesc via).map (·.param0)).getD first) (s.adminLength via length)).1)) := by
  show execRecRead via first length s = _
  simp only [execRecRead, State.admin_of_ready ready, State.retireSpoiled_unmarked unmarked,
    State.loseSpoiled_unmarked unmarked]

end

/-! ## The budget's refill (R567) -/

theorem exec_attestTokenRefill (s : State) : exec .attestTokenRefill s = .next (s.onSec fun x => { x with
    budget := max x.budget (min (x.budget + 1) s.budgetDepth), tokenAt := s.flt.time }) := rfl

/-- Settles O40: each operation in the order in which it looks at the leaves, the buffer, the interval and the budget;
a quote's spending changes SEC and the leaf record before it is answered. -/
theorem adminReadsAnswer : Obligations.AdminReadsAnswer := by
  unfold Obligations.AdminReadsAnswer
  refine ⟨fun s a => rfl, fun s n ctx c a found ofPair mine started => State.ended_answer found ofPair mine started a,
    fun s via length ready => ?_, fun s via nonce length ready ledger => ?_,
    fun s via first length row room ready unmarked isRow isRoom => ?_, fun s below => ?_, fun s full => ?_⟩
  · exact congrArg _ (State.admin_of_ready ready _)
  · rw [exec_attest nonce length ready ledger]
    refine ⟨fun spent => by rw [State.attestFor_exhausted spent],
      fun left short => by rw [State.attestFor_short left short], fun left room waits budget => ?_,
      fun left room empty => ?_, fun left room passed budget => ?_⟩
    · rw [State.attestFor_room left room, if_neg (fun both => waits both.1), if_pos budget]
    · rw [State.attestFor_room left room, if_neg (by omega), if_neg (by omega)]
    · refine ⟨s.spendLeaf (s.adminSource via), by rw [State.attestFor_room left room, if_pos ⟨passed, budget⟩], ?_, ?_,
        State.leaf_spendLeaf _, ?_, State.raised_spendLeaf _⟩
      · rw [State.sec_spendLeaf]
      · rw [State.sec_spendLeaf]
      · rw [State.sec_spendLeaf]
        exact tget_tset_self _ _ _
  · subst isRow isRoom
    exact exec_recRead unmarked first length ready
  · refine ⟨_, exec_attestTokenRefill s, ?_, (keeps_onSec _ (Keeps.refl (· ∈ [Part.sec]) s) (by simp)).onlyChanges⟩
    have one : max s.sec.budget (min (s.sec.budget + 1) s.budgetDepth) = s.sec.budget + 1 := by omega
    exact congrArg (fun b => { s.sec with budget := b, tokenAt := s.flt.time }) one
  · refine ⟨_, exec_attestTokenRefill s, ?_, (keeps_onSec _ (Keeps.refl (· ∈ [Part.sec]) s) (by simp)).onlyChanges⟩
    have none : max s.sec.budget (min (s.sec.budget + 1) s.budgetDepth) = s.sec.budget := by omega
    exact congrArg (fun b => { s.sec with budget := b, tokenAt := s.flt.time }) none

end Sys2Proof.Machine
end

section
/-! PROOFS. The owner directives and REC_CLEAR (O41): a challenge is fresh, a reference is new, and one that is valid is
consumed. -/

namespace Sys2Proof.Machine

variable {s : State} {via : OwnerVia} {ref purpose : Nat}

/-- In its turn, an owner directive acts (R457). -/
theorem State.ownerTurn_of_turn (turn : ∀ d, via = .ring d → s.early 9 d = false) (f : State → State) :
    s.ownerTurn via f = f s := by
  cases via with
  | ring d => simp [State.ownerTurn, turn d rfl]
  | mgmt => rfl

theorem State.ownerTurn_early {d : Dir} (early : s.early 9 d = true) (f : State → State) :
    s.ownerTurn (.ring d) f = s := by
  simp [State.ownerTurn, early]

/-! ## References (R570) -/

/-- Some number up to the length of a table is not in it. -/
theorem exists_free_number {α : Type} (t : Tbl α) : ∃ i ∈ List.range (t.length + 1), (tget t i).isNone = true := by
  by_contra full
  have taken : List.range (t.length + 1) ⊆ t.map (·.1) := by
    intro i hi
    have held : (tget t i).isNone ≠ true := fun none => full ⟨i, hi, none⟩
    cases found : tget t i with
    | none => simp [found] at held
    | some v => exact List.mem_map.mpr ⟨_, mem_of_tget found, rfl⟩
  have le := (List.nodup_range.subperm taken).length_le
  simp at le

/-- A new reference is none of those in use. -/
theorem State.newRef_free (s : State) (purpose : Nat) : tget s.sec.refs (s.newRef purpose).1 = none := by
  show tget s.sec.refs (if (tget s.sec.refs (Config.freeNat s.free % 2 ^ 32)).isNone then Config.freeNat s.free % 2 ^ 32
    else ((List.range (s.sec.refs.length + 1)).find? fun i => (tget s.sec.refs i).isNone).getD 0) = none
  split
  next free => exact Option.isNone_iff_eq_none.mp free
  next =>
    obtain ⟨i, found⟩ := Option.isSome_iff_exists.mp (List.find?_isSome.mpr (exists_free_number s.sec.refs))
    rw [found, Option.getD_some]
    exact Option.isNone_iff_eq_none.mp (List.find?_some (p := fun i => (tget s.sec.refs i).isNone) found)

theorem State.useRef_valid (valid : s.refValid ref purpose = true) (requester : Nat) :
    s.useRef requester purpose ref = (true, s.onSec fun x => { x with refs := tdel x.refs ref }) := by
  rw [State.useRef, if_pos valid]

theorem State.useRef_invalid (invalid : s.refValid ref purpose = false) (requester : Nat) :
    s.useRef requester purpose ref = (false, s.raise 1099 (item1 requester ++ item1 purpose)) := by
  rw [State.useRef, if_neg (by simp [invalid])]

/-- A valid reference that an owner directive uses is consumed. -/
theorem State.ownerRef_valid (via : OwnerVia) (valid : s.refValid ref purpose = true) :
    ∃ u, s.ownerRef via purpose ref = (true, u) ∧ u.sec = { s.sec with refs := tdel s.sec.refs ref } ∧
      Keeps (· ∈ [Part.sec]) s u := by
  cases via with
  | mgmt => exact ⟨_, State.useRef_valid valid 2, rfl, keeps_onSec _ (Keeps.refl (· ∈ [Part.sec]) s) (by simp)⟩
  | ring d => exact ⟨_, State.useRef_valid (s := s.drawNat.2) valid s.drawNat.1, rfl,
      keeps_onSec _ (keeps_drawNat (Keeps.refl (· ∈ [Part.sec]) s)).snd (by simp)⟩

/-- One that is not valid is reported, and nothing else changes. -/
theorem State.ownerRef_invalid (via : OwnerVia) (invalid : s.refValid ref purpose = false) :
    ∃ u e, s.ownerRef via purpose ref = (false, u) ∧ u.flt.raised = s.flt.raised ++ [e] ∧ e.src = 1099 ∧
      OnlyChanges [.flt] s u := by
  cases via with
  | mgmt => exact ⟨_, _, State.useRef_invalid invalid 2, rfl, rfl,
      (keeps_raise _ _ (Keeps.refl (· ∈ [Part.flt]) s) (by simp)).onlyChanges⟩
  | ring d => exact ⟨_, _, State.useRef_invalid (s := s.drawNat.2) invalid s.drawNat.1, rfl, rfl,
      (keeps_raise _ _ (keeps_drawNat (Keeps.refl (· ∈ [Part.flt]) s)).snd (by simp)).onlyChanges⟩

/-! ## The owner's key (R298, R299, R569) -/

/-- An owner key installed, before its slot is recorded: what slot 0x401 becomes. -/
def State.ownedSlot (s : State) (key : Bytes) : KeySlot :=
  { (if s.cip.alarm then s.slot 0x401 else { s.slot 0x401 with st := .loaded, root := importKey (padTo 32 key) }) with
    serial := min 0xFFFF ((s.slot 0x401).serial + 1), gen := ((s.slot 0x401).gen + 1) % 65536, epoch := 0, counter := 0 }

/-- The security line of an owner key leaves the slots. -/
theorem State.cip_keepSecure (s : State) (object n : Nat) : (s.keepSecure object n).cip = s.cip :=
  (keeps_keepSecure object n (Keeps.refl (· ≠ Part.cip) s) (by simp) (by simp) (by simp)).same .cip (by simp)

theorem State.ownerKey_recordSlot (s : State) (n : Nat) :
    (s.recordSlot n).ldg.kept.ownerKey = s.ldg.kept.ownerKey := by
  rw [State.recordSlot, State.writeSlotRec, State.kept_keepSecure]
  rfl

theorem State.slot_recordSlot (s : State) (n m : Nat) : (s.recordSlot n).slot m = s.slot m :=
  State.slot_of_cip (State.cip_keepSecure _ 6 n) m

theorem State.ownerKey_placeImportKey (s : State) : s.placeImportKey.ldg.kept.ownerKey = s.ldg.kept.ownerKey := by
  unfold State.placeImportKey
  split
  · split <;> rfl
  · rfl

/-- The slot of IMPORT_KEY once it is placed. -/
theorem State.slot_placeImportKey {k : Bytes} (owned : s.ldg.kept.ownerKey = some k) : s.placeImportKey.slot 0x401 =
    if s.cip.alarm then s.slot 0x401 else { s.slot 0x401 with st := .loaded, root := importKey k } := by
  simp only [State.placeImportKey, owned]
  split
  · rfl
  · exact State.slot_onSlot_self _

theorem State.setOwner_ownerKey (key : Bytes) : (s.setOwner key).ldg.kept.ownerKey = some (padTo 32 key) := by
  rw [State.setOwner, State.ownerKey_recordSlot]
  refine (State.ownerKey_placeImportKey _).trans ?_
  rw [State.kept_keepSecure]
  rfl

theorem State.setOwner_slot (key : Bytes) : (s.setOwner key).slot 0x401 = s.ownedSlot key := by
  rw [State.setOwner, State.slot_recordSlot, State.slot_onSlot_self]
  have cip := State.cip_keepSecure (s.onKept fun k => { k with ownerKey := some (padTo 32 key) }) 12 0
  have owned : ((s.onKept fun k => { k with ownerKey := some (padTo 32 key) }).keepSecure 12 0).ldg.kept.ownerKey
      = some (padTo 32 key) := by rw [State.kept_keepSecure]; rfl
  have same : ((s.onKept fun k => { k with ownerKey := some (padTo 32 key) }).keepSecure 12 0).slot 0x401
      = s.slot 0x401 := State.slot_of_cip cip _
  rw [State.slot_placeImportKey owned, same, cip]
  unfold State.ownedSlot
  cases alarm : s.cip.alarm <;> simp [alarm]

theorem State.sec_setOwner (key : Bytes) : (s.setOwner key).sec = s.sec :=
  (keeps_setOwner key (Keeps.refl (· ≠ Part.sec) s) (by simp) (by simp) (by simp) (by simp)).same .sec (by simp)

theorem exec_ownerSet_free (key : Bytes) (ref : Nat) (free : s.ldg.kept.ownerKey = none) :
    exec (.ownerSet .mgmt key ref) s = .next ((s.setOwner key).ownerAnswer .mgmt true []) := by
  show execOwnerSet .mgmt key ref s = _
  simp only [execOwnerSet, State.ownerTurn, guardStep_true, free, Option.isNone_none, if_true]

theorem exec_ownerSet_owned (key : Bytes) {ref : Nat} (owned : s.ldg.kept.ownerKey.isSome = true) {ok : Bool} {u : State}
    (used : s.useRef 2 2 ref = (ok, u)) : exec (.ownerSet .mgmt key ref) s =
      .next (if ok then (u.setOwner key).ownerAnswer .mgmt true [] else u.ownerAnswer .mgmt false []) := by
  show execOwnerSet .mgmt key ref s = _
  simp only [execOwnerSet, State.ownerTurn, guardStep_true, State.ownerRef, used,
    if_neg (show ¬ s.ldg.kept.ownerKey.isNone = true by simp [Option.isNone_iff_eq_none, ← Option.isSome_iff_ne_none, owned])]

/-! ## REC_CLEAR (R558) -/

theorem exec_recClear {d : Dir} (clearTo requester : Nat) {ref : Nat} (turn : s.early 8 d = false) {ok : Bool} {u : State}
    (used : s.useRef requester 1 ref = (ok, u)) : exec (.recClear d clearTo requester ref) s =
      .next (if ok && decide (u.ldg.kept.clearFloor ≤ clearTo) && decide (clearTo ≤ u.recorder.rowNext) then
        (((u.onKept fun k => { k with clearFloor := clearTo }).keepMeta 10 0 1).clearMarker u.ldg.kept.clearFloor clearTo
          requester).finish 8 d esDone []
      else (u.raise 549 (item1 2 ++ item1 requester)).finish 8 d esRefused []) := by
  show execRecClear d clearTo requester ref s = _
  simp only [execRecClear, turn, Bool.not_false, guardStep_true, used]

theorem State.clearFloor_rowCeiling (s : State) : s.rowCeiling.ldg.kept.clearFloor = s.ldg.kept.clearFloor := by
  unfold State.rowCeiling
  dsimp only
  split
  · rw [State.kept_keepMeta]
    rfl
  · rfl

/-- The clear marker leaves the floor and SEC. -/
theorem State.clearMarker_spec (s : State) (old next requester : Nat) :
    (s.clearMarker old next requester).ldg.kept.clearFloor = s.ldg.kept.clearFloor ∧
      (s.clearMarker old next requester).sec = s.sec :=
  ⟨(State.clearFloor_rowCeiling _).trans (State.clearFloor_rowCeiling (s.takeSeq 548).2),
    (keeps_clearMarker old next requester (Keeps.refl (· ≠ Part.sec) s) (by simp) (by simp) (by simp)
      (by simp)).same .sec (by simp)⟩

/-- The clear of a consumed reference: the floor that it asks for, and of SEC the reference alone. -/
def State.clearedTo (s : State) (clearTo requester : Nat) : State :=
  ((s.onKept fun k => { k with clearFloor := clearTo }).keepMeta 10 0 1).clearMarker s.ldg.kept.clearFloor clearTo requester

theorem State.clearedTo_spec (s : State) (clearTo requester : Nat) :
    (s.clearedTo clearTo requester).ldg.kept.clearFloor = clearTo ∧ (s.clearedTo clearTo requester).sec = s.sec := by
  obtain ⟨floor, sec⟩ := State.clearMarker_spec ((s.onKept fun k => { k with clearFloor := clearTo }).keepMeta 10 0 1)
    s.ldg.kept.clearFloor clearTo requester
  refine ⟨floor.trans ?_, sec.trans ?_⟩
  · rw [State.kept_keepMeta]
    rfl
  · exact (keeps_keepMeta 10 0 1 (Keeps.refl (· ≠ Part.sec) _) (by simp) (by simp) (by simp)).same .sec (by simp)

/-! ## The directives in their turn -/

theorem exec_ownerChallenge (requester : Nat) (turn : ∀ d, via = .ring d → s.early 9 d = false) :
    exec (.ownerChallenge via requester) s = .next (((s.drawRandom 16).2.onSec fun x => { x with
      challenges := tset x.challenges requester ((s.drawRandom 16).1, s.flt.time) }).ownerAnswer via true
        (s.drawRandom 16).1) := by
  show execOwnerChallenge via requester s = _
  rw [execOwnerChallenge, State.ownerTurn_of_turn turn]
  rfl

theorem exec_ownerAuth {k c : Bytes} (requester purpose : Nat) (response : Bytes)
    (turn : ∀ d, via = .ring d → s.early 9 d = false) (owned : s.ldg.kept.ownerKey = some k)
    (challenged : s.challengeOf requester = some c) :
    exec (.ownerAuth via requester purpose response) s = .next (if ownerResponse k c purpose = response then
        (s.newRef purpose).2.ownerAnswer via true (leBytes 4 (s.newRef purpose).1)
      else (s.raise 1099 (item1 requester ++ item1 purpose)).ownerAnswer via false []) := by
  show execOwnerAuth via requester purpose response s = _
  simp only [execOwnerAuth, State.ownerTurn_of_turn turn, owned, challenged]

theorem exec_ownerLock_set (ref : Nat) (turn : ∀ d, via = .ring d → s.early 9 d = false) :
    exec (.ownerLock via true ref) s = .next ((s.onSec fun x => { x with ownerLock := true }).ownerAnswer via true []) := by
  show execOwnerLock via true ref s = _
  simp only [execOwnerLock, State.ownerTurn_of_turn turn, if_true]

theorem exec_ownerLock_clear (turn : ∀ d, via = .ring d → s.early 9 d = false) {ok : Bool} {u : State}
    (used : s.ownerRef via 3 ref = (ok, u)) : exec (.ownerLock via false ref) s = .next (if ok then
      (u.onSec fun x => { x with ownerLock := false }).ownerAnswer via true [] else u.ownerAnswer via false []) := by
  show execOwnerLock via false ref s = _
  simp only [execOwnerLock, State.ownerTurn_of_turn turn, Bool.false_eq_true, if_false, used]

theorem exec_ownerErase (turn : ∀ d, via = .ring d → s.early 9 d = false) {ok : Bool} {u : State}
    (used : s.ownerRef via 4 ref = (ok, u)) : exec (.ownerErase via ref) s = .next (if ok then
      (u.cipAlarm 16).ownerAnswer via true [] else u.ownerAnswer via false []) := by
  show execOwnerErase via ref s = _
  simp only [execOwnerErase, State.ownerTurn_of_turn turn, used]

/-- Settles O41: each directive in its turn, by whether its reference is valid; an owner key that is installed leaves
IMPORT_KEY's slot as `ownedSlot` has it. -/
theorem ownerDirectives : Obligations.OwnerDirectives := by
  unfold Obligations.OwnerDirectives
  refine ⟨fun s via requester turn => ?_, fun s via requester purpose response k c turn owned challenged => ?_,
    fun s d key ref => ⟨fun turn => ?_, fun free => ?_, fun owned valid => ?_, fun owned invalid => ?_⟩,
    fun s via ref turn => ⟨?_, fun valid => ?_, fun invalid => ?_, fun valid => ?_, fun invalid => ?_⟩,
    fun s d clearTo requester ref turn => ⟨fun valid above below => ?_, fun invalid => ?_⟩,
    fun s d a b c x => ⟨fun early => ?_, fun early => ?_⟩⟩
  · exact ⟨_, _, exec_ownerChallenge requester turn, length_padTo _ _, rfl,
      (keeps_onSec _ (keeps_drawRandom 16 (Keeps.refl (· ∈ [Part.sec]) s)).snd (by simp)).onlyChanges⟩
  · rw [exec_ownerAuth requester purpose response turn owned challenged]
    refine ⟨fun right => ?_, fun wrong => ?_⟩
    · rw [if_pos right]
      exact ⟨_, _, rfl, State.newRef_free s purpose, rfl,
        (keeps_onSec _ (keeps_drawNat (Keeps.refl (· ∈ [Part.sec]) s)).snd (by simp)).onlyChanges⟩
    · rw [if_neg wrong]
      exact ⟨_, rfl, rfl, (keeps_raise _ _ (Keeps.refl (· ∈ [Part.flt]) s) (by simp)).onlyChanges⟩
  · exact congrArg _ (State.ownerTurn_of_turn (fun d' same => by cases same; exact turn) _)
  · refine ⟨_, exec_ownerSet_free key ref free, State.setOwner_ownerKey key, fun calm => ?_, fun alarm => ?_, ?_⟩ <;>
      rw [State.setOwner_slot, State.ownedSlot]
    · simp [calm]
    · simp [alarm]
  · exact ⟨_, exec_ownerSet_owned key owned (State.useRef_valid valid 2), State.setOwner_ownerKey key, State.sec_setOwner key⟩
  · exact ⟨_, exec_ownerSet_owned key owned (State.useRef_invalid invalid 2), rfl,
      (keeps_raise _ _ (Keeps.refl (· ∈ [Part.flt]) s) (by simp)).onlyChanges⟩
  · exact ⟨_, exec_ownerLock_set ref turn, rfl, (keeps_onSec _ (Keeps.refl (· ∈ [Part.sec]) s) (by simp)).onlyChanges⟩
  · obtain ⟨u, used, sec, only⟩ := State.ownerRef_valid via valid
    exact ⟨_, exec_ownerLock_clear turn used, congrArg (fun x : Sec => { x with ownerLock := false }) sec,
      (keeps_onSec _ only (by simp)).onlyChanges⟩
  · obtain ⟨u, e, used, raised, src, only⟩ := State.ownerRef_invalid via invalid
    exact ⟨u, e, exec_ownerLock_clear turn used, raised, src, only⟩
  · obtain ⟨u, used, sec, only⟩ := State.ownerRef_valid via valid
    exact ⟨u, exec_ownerErase turn used, sec, only.onlyChanges⟩
  · obtain ⟨u, e, used, raised, src, only⟩ := State.ownerRef_invalid via invalid
    exact ⟨u, e, exec_ownerErase turn used, raised, src, only⟩
  · obtain ⟨floor, sec⟩ := State.clearedTo_spec (s.onSec fun x => { x with refs := tdel x.refs ref }) clearTo requester
    refine ⟨_, (exec_recClear clearTo requester turn (State.useRef_valid valid requester)).trans ?_, floor, sec⟩
    rw [if_pos (by simp [above, below])]
    rfl
  · refine ⟨_, exec_recClear clearTo requester turn (State.useRef_invalid invalid requester), ?_,
      (keeps_raise _ _ (keeps_raise _ _ (Keeps.refl (· ∈ [Part.flt]) s) (by simp)) (by simp)).onlyChanges⟩
    exact List.append_assoc _ _ _
  · show execRecClear d a b c s = _
    rw [execRecClear, early]
    rfl
  · refine ⟨?_, ?_, ?_, ?_, ?_⟩ <;> exact congrArg _ (State.ownerTurn_early early _)

end Sys2Proof.Machine
end

section
/-! PROOFS. The session commands (O42): who a session command is taken from, and what
opening, filling, activating, committing and closing change. -/

namespace Sys2Proof.Machine

variable {s : State} {via : AdminVia} {op : Opcode}

/-! ## Whose command is taken (R576, R577) -/

/-- A refusal records its reason, and is answered (R576). -/
def State.refused (s : State) (via : AdminVia) (reason : Nat) : State :=
  (s.onSession fun x => { x with lastReason := reason }).raise 1092 (item1 (s.adminSource via) ++ item1 reason)

theorem State.updateRefused_eq (reason : Nat) :
    s.updateRefused via reason = (s.refused via reason).answer via (.plain .updateRefused reason) := rfl

theorem onlyChanges_refused (reason : Nat) : OnlyChanges [.session, .flt] s (s.refused via reason) :=
  (keeps_raise _ _ (keeps_onSession _ (Keeps.refl (· ∈ [Part.session, Part.flt]) s) (by simp)) (by simp)).onlyChanges

/-- The holder's command is taken, unless a bar of R576 that it checks holds. -/
theorem State.sessionCmd_holder {checks : Bool} (ready : AdminReady s via op) (some_ : s.session.st ≠ .idle)
    (holder : s.session.holder = s.adminSource via) (clear : checks = true → s.refusal = none) (f : State → State) :
    s.sessionCmd via op checks f = f s := by
  have mine : ¬(s.session.st = .idle ∨ s.session.holder ≠ s.adminSource via) := by simp [some_, holder]
  rw [State.sessionCmd, State.admin_of_ready ready]
  dsimp only
  rw [if_neg mine]
  cases checks with
  | true => simp [clear rfl]
  | false => rfl

/-- A source that holds no session learns that its own ended, or is refused. -/
theorem State.sessionCmd_stranger (checks : Bool) (ready : AdminReady s via op)
    (stranger : s.session.st = .idle ∨ s.session.holder ≠ s.adminSource via) (f : State → State) :
    s.sessionCmd via op checks f = if s.session.ended.contains (s.adminSource via)
      then s.answer via (.plain .timeout 0) else s.updateRefused via 14 := by
  rw [State.sessionCmd, State.admin_of_ready ready]
  dsimp only
  rw [if_pos stranger]

/-! ## Opening and filling (R575 to R578) -/

/-- What bars an opening: the bars of 1 to 5, or else of the manifest. -/
theorem exec_sessionOpen_refused {m : Bytes} {reason : Nat} (ready : AdminReady s via .sessionOpen)
    (idle : s.session.st = .idle)
    (barred : s.refusal = some reason ∨ s.refusal = none ∧ s.manifestRefusal (s.adminBytes via m) = some reason) :
    exec (.sessionOpen via m) s = .next (s.updateRefused via reason) := by
  show execSessionOpen via m s = _
  rw [execSessionOpen, State.admin_of_ready ready]
  rcases barred with bar | ⟨clear, bar⟩
  · simp only [idle, ne_eq, not_true, if_false, bar]
  · simp only [idle, ne_eq, not_true, if_false, clear, bar]

/-- The session as SESSION_OPEN makes it. -/
def State.openedBy (s : State) (via : AdminVia) (m : Bytes) : State :=
  (s.onSession fun x => { x with
    st := .openS, holder := s.adminSource via, manifest := s.adminBytes via m, blocks := [], waiting := none
    target := 1 - s.sec.runningBank, ended := x.ended.filter (· ≠ s.adminSource via) }).raise 1091
      (item1 (s.adminSource via) ++ item4 (manSetId (s.adminBytes via m)))

theorem exec_sessionOpen_ok {m : Bytes} (ready : AdminReady s via .sessionOpen) (idle : s.session.st = .idle)
    (clear : s.refusal = none) (good : s.manifestRefusal (s.adminBytes via m) = none) :
    exec (.sessionOpen via m) s = .next ((s.openedBy via m).answer via (.plain .ok 0)) := by
  show execSessionOpen via m s = _
  rw [execSessionOpen, State.admin_of_ready ready]
  simp only [idle, ne_eq, not_true, if_false, clear, good, State.openedBy]

theorem exec_sessionOpen_busy (m : Bytes) (ready : AdminReady s via .sessionOpen) (busy : s.session.st ≠ .idle) :
    exec (.sessionOpen via m) s = .next (s.answer via (.plain .busySession s.session.holder)) := by
  show execSessionOpen via m s = _
  rw [execSessionOpen, State.admin_of_ready ready]
  simp only [ne_eq, busy, not_false_eq_true, if_true]

/-- A command's offset: its descriptor's, or else its operand (R168). -/
theorem State.adminOffset_eq {offset offset0 : Nat} (ofDesc : ∀ d, s.adminDesc via = some d → offset = d.offset)
    (ofOperand : s.adminDesc via = none → offset = offset0) :
    ((s.adminDesc via).map (·.offset)).getD offset0 = offset := by
  cases found : s.adminDesc via with
  | none => exact (ofOperand found).symm
  | some d => exact (ofDesc d found).symm

theorem exec_sessionBlock {offset0 offset : Nat} {block0 : Bytes} (ready : AdminReady s via .sessionBlock)
    (some_ : s.session.st ≠ .idle) (holder : s.session.holder = s.adminSource via) (clear : s.refusal = none)
    (at_ : ((s.adminDesc via).map (·.offset)).getD offset0 = offset) :
    exec (.sessionBlock via offset0 block0) s = .next (
      if blockValid (manStream s.session.manifest) offset (s.adminBytes via block0)
          && blockAgrees s.session.blocks offset (s.adminBytes via block0) then
        (s.onSession fun x => { x with blocks := keepBlock x.blocks offset (s.adminBytes via block0) }).answer via (.plain .ok 0)
      else s.updateRefused via 12) := by
  show execSessionBlock via offset0 block0 s = _
  simp only [execSessionBlock, State.sessionCmd_holder ready some_ holder (fun _ => clear), at_]

/-! ## Activation, commit and close (R579 to R582) -/

theorem exec_sessionActivate (ready : AdminReady s via .sessionActivate) (isOpen : s.session.st = .openS)
    (holder : s.session.holder = s.adminSource via) (clear : s.refusal = none)
    (whole : manStream s.session.manifest ≤ receivedUpTo s.session.blocks)
    (good : (s.buildSet s.session.manifest (receivedStream s.session.blocks)).matchesManifest = true) :
    exec (.sessionActivate via) s = .next ((((s.writeBank s.session.target
        (s.buildSet s.session.manifest (receivedStream s.session.blocks))).onSession fun x => { x with
          waiting := some via }).beginActivation)) := by
  show execSessionActivate via s = _
  rw [execSessionActivate, State.sessionCmd_holder ready (by rw [isOpen]; decide) holder (fun _ => clear)]
  dsimp only
  rw [if_neg (by rw [isOpen]; simp [whole]), if_pos good]

/-- A bank that is written holds the set, and the other one what it held. -/
theorem State.bank_writeBank {n : Nat} (two : n < 2) (x : ImageSet) :
    (s.writeBank n x).sec.bank n = some x ∧ (s.writeBank n x).sec.bank (1 - n) = s.sec.bank (1 - n) := by
  rcases Nat.lt_succ_iff_lt_or_eq.mp two with zero | rfl
  · obtain rfl : n = 0 := by omega
    exact ⟨rfl, rfl⟩
  · exact ⟨rfl, rfl⟩

/-- What a commit makes of the state before it answers (R581). -/
def State.sessionCommitted (s : State) : State :=
  (((s.onSec fun x => { x with goodBank := x.runningBank, minEpoch := max x.minEpoch s.sec.running.epoch }).onSession
    fun x => { x with settings := x.shadow.getD x.settings }).raise 1094
      (item4 s.sec.running.setId ++ item4 s.sec.running.epoch)).endSession Status.ok.code false

theorem exec_sessionCommit (ready : AdminReady s via .sessionCommit) (awaits : s.session.st = .awaitingCommit)
    (holder : s.session.holder = s.adminSource via) :
    exec (.sessionCommit via) s = .next (s.sessionCommitted.answer via (.plain .ok 0)) := by
  show execSessionCommit via s = _
  rw [execSessionCommit, State.sessionCmd_holder ready (by rw [awaits]; decide) holder (by simp)]
  dsimp only
  rw [if_neg (by rw [awaits]; simp)]
  rfl

theorem exec_sessionClose (ready : AdminReady s via .sessionClose) (some_ : s.session.st ≠ .idle)
    (holder : s.session.holder = s.adminSource via) : exec (.sessionClose via) s =
      .next ((s.closeSession Status.ok.code false).answer via (.plain .ok 0)) := by
  show execSessionClose via s = _
  rw [execSessionClose, State.sessionCmd_holder ready some_ holder (by simp)]

theorem State.closeSession_open (isOpen : s.session.st = .openS) (result : Nat) (gone : Bool) :
    s.closeSession result gone = s.endSession result gone := by
  simp only [State.closeSession, isOpen]

theorem State.closeSession_awaiting (awaits : s.session.st = .awaitingCommit) (result : Nat) (gone : Bool) :
    s.closeSession result gone = s.beginRevert := by
  simp only [State.closeSession, awaits]

/-- A session command other than SESSION_OPEN, from a source that holds no session. -/
theorem exec_stranger {c : Instr} {offset : Nat} {block : Bytes} (ready : AdminReady s via op)
    (which : op = .sessionBlock ∧ c = .sessionBlock via offset block ∨ op = .sessionActivate ∧ c = .sessionActivate via ∨
      op = .sessionCommit ∧ c = .sessionCommit via ∨ op = .sessionClose ∧ c = .sessionClose via)
    (stranger : s.session.st = .idle ∨ s.session.holder ≠ s.adminSource via) :
    exec c s = .next (if s.session.ended.contains (s.adminSource via) then s.answer via (.plain .timeout 0)
      else s.updateRefused via 14) := by
  rcases which with ⟨rfl, rfl⟩ | ⟨rfl, rfl⟩ | ⟨rfl, rfl⟩ | ⟨rfl, rfl⟩
  · exact congrArg _ (State.sessionCmd_stranger true ready stranger _)
  · exact congrArg _ (State.sessionCmd_stranger true ready stranger _)
  · exact congrArg _ (State.sessionCmd_stranger false ready stranger _)
  · exact congrArg _ (State.sessionCmd_stranger false ready stranger _)

/-- Settles O42: the holder's command by the session's state, every other source's by whether its session ended. -/
theorem sessionCommands : Obligations.SessionCommands := by
  unfold Obligations.SessionCommands
  refine ⟨fun s via m ready => ⟨fun busy => ?_, fun idle clear good => ?_, fun reason idle barred => ?_⟩,
    fun s via offset0 offset block0 block ready some_ holder clear isBlock ofDesc ofOperand => ?_,
    fun s via ready isOpen holder clear two whole good => ?_, fun s via ready awaits holder => ?_,
    fun s via ready => ⟨fun isOpen holder => ?_, fun awaits holder => ?_⟩,
    fun s via op c offset block ready which stranger => ?_⟩
  · exact exec_sessionOpen_busy m ready busy
  · exact ⟨s.openedBy via m, exec_sessionOpen_ok ready idle clear good, rfl, rfl, rfl, rfl, rfl, rfl,
      (keeps_raise _ _ (keeps_onSession _ (Keeps.refl (· ∈ [Part.session, Part.flt]) s) (by simp)) (by simp)).onlyChanges⟩
  · exact ⟨s.refused via reason, exec_sessionOpen_refused ready idle barred, rfl, rfl, onlyChanges_refused reason⟩
  · subst isBlock
    rw [exec_sessionBlock ready some_ holder clear (State.adminOffset_eq ofDesc ofOperand)]
    refine ⟨fun valid agrees => ?_, fun bad => ?_⟩
    · rw [valid, agrees]
      exact ⟨_, rfl, rfl, (keeps_onSession _ (Keeps.refl (· ∈ [Part.session]) s) (by simp)).onlyChanges⟩
    · rw [if_neg (by rcases bad with bad | bad <;> simp [bad])]
      exact ⟨s.refused via 12, rfl, rfl, rfl, onlyChanges_refused 12⟩
  · obtain ⟨written, other⟩ := State.bank_writeBank (s := s) two
      (s.buildSet s.session.manifest (receivedStream s.session.blocks))
    exact ⟨_, exec_sessionActivate ready isOpen holder clear whole good, rfl, rfl, written, other, rfl, rfl,
      (keeps_beginActivation (keeps_onSession _ (keeps_writeBank _ _
        (Keeps.refl (· ∈ [Part.session, Part.sec, Part.nfe, Part.sch]) s) (by simp)) (by simp)) (by simp) (by simp)
        (by simp)).onlyChanges⟩
  · exact ⟨s.sessionCommitted, exec_sessionCommit ready awaits holder, rfl, rfl, rfl, rfl,
      (keeps_endSession _ _ (keeps_raise _ _ (keeps_onSession _ (keeps_onSec _
        (Keeps.refl (· ∈ [Part.session, Part.sec, Part.flt]) s) (by simp)) (by simp)) (by simp)) (by simp)).onlyChanges⟩
  · refine ⟨s.endSession Status.ok.code false, ?_, rfl, rfl,
      (keeps_endSession _ _ (Keeps.refl (· ∈ [Part.session]) s) (by simp)).onlyChanges⟩
    rw [exec_sessionClose ready (by rw [isOpen]; decide) holder, State.closeSession_open isOpen]
  · refine ⟨s.beginRevert, ?_, rfl, rfl, rfl,
      (keeps_beginRevert (Keeps.refl (· ∈ [Part.session, Part.nfe, Part.sch]) s) (by simp) (by simp) (by simp)).onlyChanges⟩
    rw [exec_sessionClose ready (by rw [awaits]; decide) holder, State.closeSession_awaiting awaits]
  · rw [exec_stranger ready which stranger]
    refine ⟨fun ended => by rw [if_pos ended], fun live => ?_⟩
    rw [live, if_neg Bool.false_ne_true]
    exact ⟨s.refused via 14, rfl, rfl, rfl, onlyChanges_refused 14⟩

end Sys2Proof.Machine
end

section
/-! PROOFS. The ends of an activation (O43): the set that runs, the trial's results, and the reverts. -/

namespace Sys2Proof.Machine

variable {s : State}

/-- The set of a bank runs where no microcode changes (R195). -/
theorem State.runBank_unchanged {n : Nat}
    (same : changedBlocks s.sec.running ((s.sec.bank n).getD ImageSet.shipped) = []) :
    s.runBank n = (((s.onSec fun x => { x with runningBank := n }).stopImage).onNfe fun n => { n with
      stopFetch := false }).onSch fun h => { h with drain := .none } := by
  have none : changedBlocks s.sec.running (s.onSec fun x => { x with runningBank := n }).sec.running = [] := same
  simp only [State.runBank, none]
  rfl

/-- What the running of a bank's set comes to. -/
theorem State.runBank_spec {n : Nat} (regs : Tbl.wf s.regs = true)
    (same : changedBlocks s.sec.running ((s.sec.bank n).getD ImageSet.shipped) = []) :
    (s.runBank n).nfe.stopFetch = false ∧ (s.runBank n).sch.drain = .none ∧ (s.runBank n).pins.imageDown = true ∧
      (s.runBank n).fld Reg.ENG_HOLD_HOLD = 1 ∧ (s.runBank n).sec = { s.sec with runningBank := n } ∧
      (s.runBank n).session = s.session ∧ (s.runBank n).flt = s.flt := by
  rw [State.runBank_unchanged same]
  exact ⟨rfl, rfl, rfl, State.fld_hold_setFld (s.onSec fun x => { x with runningBank := n }) 1 regs, rfl, rfl, rfl⟩

theorem exec_activationDrainEnd_revert (drains : s.sch.drain = .activation) (reverts : s.session.reverting = true) :
    exec .activationDrainEnd s = .next (s.runBank s.sec.goodBank) := by
  show execActivationDrainEnd s = _
  simp only [execActivationDrainEnd, drains, decide_true, guardStep_true, reverts, if_true]

/-- A state whose target set begins its trial (R579). -/
def State.onTrial (s : State) : State :=
  (s.raise 1093 (item4 (s.sec.setIdOf s.session.target))).onSession fun x => { x with st := .trial }

theorem exec_activationDrainEnd_trial (drains : s.sch.drain = .activation) (goes : s.session.reverting = false)
    (kept : (s.runBank s.session.target).session.abandon = false) :
    exec .activationDrainEnd s = .next (s.runBank s.session.target).onTrial := by
  have kept' : ((s.runBank s.session.target).onTrial).session.abandon = false := kept
  show execActivationDrainEnd s = _
  simp only [execActivationDrainEnd, drains, decide_true, guardStep_true, goes, Bool.false_eq_true, if_false]
  exact congrArg _ (if_neg fun abandoned => Bool.false_ne_true (kept'.symm.trans abandoned))

theorem exec_secTrialPass (trial : s.session.st = .trial) (up : s.pins.imageDown = false) :
    exec .secTrialPass s = .next (match s.session.waiting with
      | some v => (s.onSession fun x => { x with
          st := .awaitingCommit, waiting := none, shadow := some (manSetId x.manifest) }).answer v (.plain .ok 0)
      | none => s.onSession fun x => { x with
          st := .awaitingCommit, waiting := none, shadow := some (manSetId x.manifest) }) := by
  have taken : (decide (s.session.st = .trial) && !s.pins.imageDown) = true := by simp [trial, up]
  exact congrArg Host.Outcome.next (if_pos taken)

theorem exec_secTrialFail (trial : s.session.st = .trial) :
    exec .secTrialFail s = .next (s.raise 1096 (item4 (s.sec.setIdOf s.session.target))).beginRevert := by
  show Host.Outcome.next s.trialFail = _
  simp only [State.trialFail, trial, decide_true, guardStep_true]

theorem exec_trialTimeout (trial : s.session.st = .trial) : exec .trialTimeout s = .next s.beginRevert := by
  show execTrialTimeout s = _
  simp only [execTrialTimeout, trial]

theorem exec_commitTimeout (awaits : s.session.st = .awaitingCommit) : exec .commitTimeout s = .next s.beginRevert := by
  show execCommitTimeout s = _
  simp only [execCommitTimeout, awaits, decide_true, guardStep_true]

theorem exec_sessionIdleTimeout (isOpen : s.session.st = .openS) :
    exec .sessionIdleTimeout s = .next (s.endSession Status.timeout.code true) := by
  show execSessionIdleTimeout s = _
  simp only [execSessionIdleTimeout, isOpen, decide_true, Bool.true_or, guardStep_true, State.closeSession_open isOpen]

/-- Settles O43: without a change of microcode the running of a bank is the image's restart alone, and every revert
begins in the same way. -/
theorem activationsEnd : Obligations.ActivationsEnd := by
  unfold Obligations.ActivationsEnd
  refine ⟨fun s drains kept same same' ⟨_, regs⟩ => ?_, fun s trial up => ?_, fun s c pre which => ?_,
    fun s isOpen => ⟨_, exec_sessionIdleTimeout isOpen, rfl, rfl, rfl,
      (keeps_endSession _ _ (Keeps.refl (· ∈ [Part.session]) s) (by simp)).onlyChanges⟩⟩
  · cases reverts : s.session.reverting with
    | true =>
      obtain ⟨fetch, drain, down, hold, sec, session, _⟩ := State.runBank_spec regs same'
      exact ⟨_, exec_activationDrainEnd_revert drains reverts, fetch, drain, down, hold, fun _ => ⟨sec, session⟩,
        fun goes => absurd goes (by decide)⟩
    | false =>
      obtain ⟨fetch, drain, down, hold, sec, session, flt⟩ := State.runBank_spec regs same
      refine ⟨_, exec_activationDrainEnd_trial drains reverts (by rw [session, kept]), fetch, drain, down, hold,
        fun reverts => absurd reverts (by decide), fun _ => ⟨sec, rfl, ?_⟩⟩
      show (s.runBank s.session.target).flt.raised ++ [⟨1093, leBytes 4 ((s.runBank s.session.target).sec.setIdOf
        (s.runBank s.session.target).session.target)⟩] = _
      rw [flt, sec, session]
      rfl
  · refine ⟨_, exec_secTrialPass trial up, rfl, (keeps_onSession _ (Keeps.refl (· ∈ [Part.session]) s) (by simp)).onlyChanges⟩
  · have only {t : State} (h : Keeps (· ∈ [Part.session, Part.sch, Part.nfe, Part.flt]) s t) :
        OnlyChanges [.session, .sch, .nfe, .flt] s t.beginRevert :=
      (keeps_beginRevert h (by simp) (by simp) (by simp)).onlyChanges
    rcases which with ⟨trial, rfl, rfl⟩ | ⟨trial, rfl, rfl⟩ | ⟨awaits, rfl, rfl⟩
    · exact ⟨_, exec_secTrialFail trial, rfl, rfl, rfl, rfl, only (keeps_raise _ _ (Keeps.refl _ s) (by simp))⟩
    · exact ⟨_, exec_trialTimeout trial, (List.append_nil _).symm, rfl, rfl, rfl, only (Keeps.refl _ s)⟩
    · exact ⟨_, exec_commitTimeout awaits, (List.append_nil _).symm, rfl, rfl, rfl, only (Keeps.refl _ s)⟩

end Sys2Proof.Machine
end

section
/-! PROOFS. The directives of the FTL rings (O48), over a superblock table that is not in order. -/

namespace Sys2Proof.Machine

/-- A drive that runs, with the superblocks and the skein of `sbListedTwice`: superblock 0 is closed, and listed once more
as FREE. -/
def runsListedTwice : State :=
  { Tests.up with
    ftl := { Tests.up.ftl with
      sbs := sbListedTwice.ftl.sbs, skeins := sbListedTwice.ftl.skeins } }

/-- Nothing holds a directive of ring 4 back in it, and superblock 0 may be reclaimed. -/
theorem runsListedTwice_ready : runsListedTwice.upkeepPaused 4 = false ∧ runsListedTwice.dirWaits 4 ⟨0, 0⟩ = false ∧
    runsListedTwice.mayReclaim 0 = true := by decide +kernel

/-- RECLAIM_SB of a superblock that may be reclaimed is listed among the directives at work, and reclaims it. -/
theorem exec_reclaimSb {s : State} {d : Dir} {sb : Nat} (free : s.upkeepPaused 4 = false)
    (turn : s.dirWaits 4 d = false) (real : sbExists sb = true) (may : s.mayReclaim sb = true) :
    exec (.reclaimSb d sb) s
      = .next ((s.onFtl fun t => { t with upkeep := t.upkeep ++ [⟨4, d, 2, 0, 0, 0, sb⟩] }).reclaim sb) := by
  show execReclaimSb d sb s = _
  have code : ¬((2 : Nat) = 6) := by decide
  have left : ¬((1 : Nat) = 0) := by decide
  simp only [execReclaimSb, State.ftlDir, free, turn, real, Bool.not_false, Bool.and_self, guardStep_true, if_true,
    State.goUpkeep, State.nextUpkeep, may, if_neg left, if_neg code, Nat.sub_self]

/-- The reclaim takes the superblock that it empties as the FREE one of its copies, and opens it again. -/
theorem st_reclaimSb_runsListedTwice : (((runsListedTwice.onFtl fun t => { t with
    upkeep := t.upkeep ++ [⟨4, ⟨0, 0⟩, 2, 0, 0, 0, 0⟩] }).reclaim 0).sb 0).st = .opened := by decide +kernel

/-- Refutes O48: RECLAIM_SB of superblock 0 in `runsListedTwice` opens the superblock that it was to put into RECLAIMING.
The statement does not ask that the superblock table be in order. -/
theorem not_flashDirectives : ¬ Obligations.FlashDirectives := by
  unfold Obligations.FlashDirectives
  rintro ⟨empties, -⟩
  obtain ⟨free, turn, may⟩ := runsListedTwice_ready
  obtain ⟨-, reclaims, -⟩ := empties runsListedTwice ⟨0, 0⟩ free turn
  obtain ⟨t, run, reclaiming, -⟩ := (reclaims 0 (by decide)).2 may
  rw [exec_reclaimSb free turn (by decide) may] at run
  cases run
  rw [st_reclaimSb_runsListedTwice] at reclaiming
  cases reclaiming

end Sys2Proof.Machine
end

section
/-! PROOFS. Repair requests (O47): how the read that a peer asks for ends, and what it answers (R439). -/

namespace Sys2Proof.Machine

variable {s : State} {n p : Nat} {c : Cmd} {m : PeerMsg} {v : Variant} {r : DirRec}

/-! ## A read that a peer asked for ends -/

/-- What a command that is no write gives up leaves PEER and its messages. -/
theorem State.peer_unwound (found : s.cmd? n = some c) (running : c.stage ≠ .accepted) (reads : c.op.isWrite = false)
    (o : Outcome) : (s.unwound n c o).peer = s.peer := by
  have kept : Keeps (· ≠ Part.peer) s ((((s.countShed c o).dropRef n).dropHolds n)) := by
    refine keeps_dropHolds n (keeps_dropRef n ?_ (by simp) (by simp)) (by simp) (by simp) (by simp) (by simp) (by simp)
    unfold State.countShed
    repeat' split
    · exact keeps_bump _ _ (Keeps.refl _ s) (by simp)
    · exact keeps_bump _ _ (Keeps.refl _ s) (by simp)
    · exact Keeps.refl _ s
  rw [State.unwound, State.leaveIntake_of_running found running, State.releaseUncommitted, reads]
  exact kept.same .peer (by simp)

/-- A peer's read whose bytes have gone out ends without a message, and its entry is free (R439). -/
theorem State.nfe_endCmd_served (found : s.cmd? n = some c) (running : c.stage ≠ .accepted) (undecided : c.decided = false)
    (ofPeer : c.ctx = none) (asked : c.chain = some m) (reads : c.op.isWrite = false) (mine : c.orphan = false)
    (served : c.committed = true) (empty : s.peer.intake = []) (o : Outcome) : (s.endCmd n o).nfe = s.nfe := by
  rw [State.endCmd_eq found undecided]
  have ended : ((((s.unwound n c o).onCmd n (Cmd.ended · o)).dropTokens n).settleLimbo).cmd? n = some (c.over o) := by
    rw [State.cmd?_settleLimbo, State.cmd?_dropTokens]
    exact State.cmd?_onCmd_self (Cmd.ended · o) (State.cmd?_unwound found running o)
  have peer : ((((s.unwound n c o).onCmd n (Cmd.ended · o)).dropTokens n).settleLimbo).peer.intake = [] :=
    (congrArg (·.intake) (State.peer_unwound found running reads o)).trans empty
  have nfe : ((((s.unwound n c o).onCmd n (Cmd.ended · o)).dropTokens n).settleLimbo).nfe = s.nfe :=
    (carries_unwound (n := n) (s := s) c o).nfe
  generalize (((s.unwound n c o).onCmd n (Cmd.ended · o)).dropTokens n).settleLimbo = u at ended peer nfe ⊢
  have retired : u.retireOrphan n = u := by
    simp only [State.retireOrphan, ended]
    rw [show (c.over o).orphan = false from mine]
    rfl
  have answered : u.answerPeer n = u.dropCmd n := by
    have ctx : (c.over o).ctx = none := ofPeer
    have chain : (c.over o).chain = some m := asked
    have op : (c.over o).op.isWrite = false := reads
    have sent : (c.over o).committed = true := served
    have done : (c.over o).outcome = some (c.filled o) := rfl
    simp only [State.answerPeer, ended, ctx, chain, done, op, sent, Bool.false_eq_true, if_false, if_true]
  rw [retired, answered, State.dropCmd, State.serveIntake_of_nil (by exact peer)]
  exact nfe

/-! ## What goes to a peer that does not seal -/

/-- What a message is when it goes out. -/
theorem sends_sendMsg {o : State} {x kind : Nat} (tx : s.nfe.tx = o.nfe.tx) :
    Sends o (s.sendMsg x kind m) [.peerMsg x kind { m with crc := msgCrc kind m }] :=
  ⟨[_], rfl, congrArg (· ++ _) tx⟩

/-- A message to a peer that does not seal its transit goes out with its data as it is (R424). -/
theorem State.sendPeer_plain {kind x : Nat} (ctx : s.peerCtx p = some x) (plain : s.sealsTransit p = false) :
    ∃ a : PeerMsg, Sends s (s.sendPeer p kind m) [.peerMsg x kind a] ∧ a.status = m.status ∧ a.data = m.data ∧
      Keeps (· = .nfe) s (s.sendPeer p kind m) := by
  have slot : s.transitSlot p = none := by
    unfold State.sealsTransit at plain
    unfold State.transitSlot
    cases entry : tget s.peer.entries p with
    | none => rfl
    | some e =>
      rw [entry, Option.map_some, Option.getD_some] at plain
      simp [plain]
  have slot' : (s.nextMsg x p m).2.transitSlot p = none := slot
  have sent : s.sendPeer p kind m = (s.nextMsg x p m).2.sendMsg x kind { (s.nextMsg x p m).1 with
      headers := (List.range (pieceCount m.data)).map fun _ => zeros 32, data := m.data } := by
    simp only [State.sendPeer, ctx, slot', State.transitSeal]
    rfl
  have tx : (s.nextMsg x p m).2.nfe.tx = s.nfe.tx := rfl
  have kept := keeps_nextMsg x p m (Keeps.refl (· = .nfe) s) rfl
  have status : (s.nextMsg x p m).1.status = m.status := rfl
  rw [sent]
  generalize s.nextMsg x p m = next at tx kept status ⊢
  exact ⟨_, sends_sendMsg tx, status, rfl, keeps_send _ kept.snd rfl⟩

/-- A peer's read that has handed bytes on. -/
def Cmd.served (c : Cmd) (b : Bytes) : Cmd := { c with committed := true, pos := c.pos + b.length, crc := crc32cRun c.crc b }

/-- Bytes handed to a peer that does not seal answer its request. -/
theorem State.deliver_peer {x : Nat} (found : s.cmd? n = some c) (ofPeer : c.ctx = none) (asked : c.chain = some m)
    (ctx : s.peerCtx m.srcPeer = some x) (plain : s.sealsTransit m.srcPeer = false) (b : Bytes) :
    (s.deliver n b).cmd? n = some (c.served b) ∧ (s.deliver n b).peer = s.peer ∧
      ∃ a : PeerMsg, Sends s (s.deliver n b) [.peerMsg x 5 a] ∧ a.status = Status.ok.code ∧ a.data = b := by
  obtain ⟨a, sent, status, data, kept⟩ := State.sendPeer_plain (kind := 5)
    (m := { answerMsg m .ok 0 with data := b, length := b.length }) ctx plain
  have there := (kept.mono (q := (· ≠ Part.sch)) (by rintro _ rfl; simp)).cmd? n
  simp only [State.deliver, found, ofPeer, asked]
  refine ⟨?_, kept.same .peer (by simp), a, sent, status, data⟩
  generalize s.sendPeer m.srcPeer 5 { answerMsg m .ok 0 with data := b, length := b.length } = u at there ⊢
  exact State.cmd?_onCmd_self (fun c => { c with pos := c.pos + b.length, crc := crc32cRun c.crc b })
    (State.cmd?_onCmd_self (fun c => { c with committed := true }) (there.trans found))

end Sys2Proof.Machine
end

section
/-! PROOFS. Repair requests that are answered (R439), for O47. -/

namespace Sys2Proof.Machine

variable {s : State} {p : Nat} {m : PeerMsg} {v : Variant} {r : DirRec}

/-- The state in which the read that serves a request has begun. -/
def State.requested (s : State) (m : PeerMsg) (v : Variant) (r : DirRec) : State :=
  ((s.takeHolds (s.variantSbs r m.variant)).addPeerCmd (repairRead m v r (s.variantSbs r m.variant))).2

theorem State.cmd?_requested :
    (s.requested m v r).cmd? s.sch.nextCmd = some (repairRead m v r (s.variantSbs r m.variant)) := tget_tset_self _ _ _

theorem keeps_requested : Keeps (· ∈ [Part.sch, Part.ftl]) s (s.requested m v r) :=
  (keeps_addPeerCmd _ (keeps_takeHolds _ (Keeps.refl _ s) (by simp)) (by simp)).snd

/-- Why a request is refused, with the status of the answer: shedding at stage 4, or a key or version that is not held
(R439, R500). -/
def State.deniesRepair (s : State) (m : PeerMsg) (st : Status) : Prop :=
  s.pwr.shed.getLsbD 3 = true ∧ st = .shed ∨ s.pwr.shed.getLsbD 3 = false ∧ st = .notFound ∧
    (dirFind s.idx.dir (padTo m.keyLen m.key) = none ∨ ∃ r v, dirFind s.idx.dir (padTo m.keyLen m.key) = some r ∧
      tget r.variants m.variant = some v ∧ v.version ≠ m.version)

/-- A request that is refused is answered with its status. -/
theorem exec_repairReq_denied {st : Status} (heard : HeardFrom s 4 m p) (denied : s.deniesRepair m st) :
    exec (.repairReq m) s = .next (s.sendPeer p 5 (answerMsg (takenMsg p m m.data) st 0)) := by
  show execRepairReq m s = _
  rw [execRepairReq, State.withMsg_of_heardFrom heard]
  rcases denied with ⟨shed, rfl⟩ | ⟨open_, rfl, absent | ⟨r, v, found, held, other⟩⟩
  · simp only [if_pos shed, takenMsg]
  · simp only [open_, Bool.false_eq_true, if_false, takenMsg, absent, Option.bind_none]
  · simp only [open_, Bool.false_eq_true, if_false, takenMsg, found, Option.bind_some, held, Option.map_some]
    exact congrArg Host.Outcome.next (if_pos (.inl other))

/-- The answer to a request that is refused carries the status, and nothing else changes. -/
theorem sends_repairReq_denied {st : Status} {x : Nat} (heard : HeardFrom s 4 m p) (ctx : s.peerCtx p = some x)
    (denied : s.deniesRepair m st) : ∃ (t : State) (a : PeerMsg), exec (.repairReq m) s = .next t ∧
      Sends s t [.peerMsg x 5 a] ∧ a.status = st.code ∧ OnlyChanges [.nfe] s t := by
  obtain ⟨a, seq, sent, -, shape, only⟩ := State.sends_sendPeer (kind := 5)
    (m := answerMsg (takenMsg p m m.data) st 0) ctx rfl
  exact ⟨_, a, exec_repairReq_denied heard denied, sent, by rw [shape]; rfl, only⟩

/-- A request for exactly the held version starts a read of its segment (R439). -/
theorem exec_repairReq_held (heard : HeardFrom s 4 m p) (open_ : s.pwr.shed.getLsbD 3 = false)
    (found : dirFind s.idx.dir (padTo m.keyLen m.key) = some r) (held : tget r.variants m.variant = some v)
    (same : v.version = m.version) (within : m.segIndex < segCount v.length) :
    exec (.repairReq m) s
      = .next ((s.requested (takenMsg p m m.data) v r).advanceRead s.sch.nextCmd 3) := by
  show execRepairReq m s = _
  rw [execRepairReq, State.withMsg_of_heardFrom heard]
  simp only [open_, Bool.false_eq_true, if_false, takenMsg, found, Option.bind_some, held, Option.map_some]
  exact congrArg Host.Outcome.next (if_neg fun refuse => refuse.elim (fun other => other same) (by omega))

section
variable {holds : List Nat} (held : tget r.variants m.variant = some v) (within : m.segIndex < segCount v.length)
include held

theorem readTotal_repairRead : (repairRead m v r holds).readTotal = segLen v.length m.segIndex := by
  have observed : (repairRead m v r holds).observed = some v := held
  simp only [Cmd.readTotal, observed]
  show min (segLen v.length m.segIndex) (v.length - 65536 * m.segIndex) = _
  unfold segLen
  omega

include within

theorem repairRead_more : (repairRead m v r holds).pos < (repairRead m v r holds).readTotal := by
  rw [readTotal_repairRead held]
  show 0 < segLen v.length m.segIndex
  unfold segLen
  unfold segCount at within
  omega

end

theorem repairRead_segment (holds : List Nat) :
    ((repairRead m v r holds).desc.offset + (repairRead m v r holds).pos) / 65536 = m.segIndex := by
  show (65536 * m.segIndex + 0) / 65536 = m.segIndex
  omega

/-- The read of a stored segment stops there, for its lines and its checks (R138). -/
theorem State.advanceRead_requested_stored {g : Seg} (held : tget r.variants m.variant = some v)
    (within : m.segIndex < segCount v.length) (stored : tget v.segs m.segIndex = some g) :
    (s.requested m v r).advanceRead s.sch.nextCmd 3 = s.requested m v r :=
  State.advanceRead_stored State.cmd?_requested (repairRead_more held within) held
    (by rw [repairRead_segment, stored]; rfl)

/-- The read of a hole answers with zeros, and ends (R60, R439). -/
theorem State.advanceRead_requested_hole {x : Nat} (held : tget r.variants m.variant = some v)
    (within : m.segIndex < segCount v.length) (hole : tget v.segs m.segIndex = none)
    (ctx : s.peerCtx m.srcPeer = some x) (plain : s.sealsTransit m.srcPeer = false) (empty : s.peer.intake = []) :
    ∃ a : PeerMsg, Sends s ((s.requested m v r).advanceRead s.sch.nextCmd 3) [.peerMsg x 5 a] ∧
      a.status = Status.ok.code ∧ a.data = zeros (segLen v.length m.segIndex) := by
  have more := repairRead_more (holds := s.variantSbs r m.variant) held within
  have total := readTotal_repairRead (holds := s.variantSbs r m.variant) held
  have at_ := repairRead_segment (m := m) (v := v) (r := r) (s.variantSbs r m.variant)
  rw [State.advanceRead_hole State.cmd?_requested more held (by rw [at_, hole]), at_, total]
  have bytes : min (65536 * (m.segIndex + 1) - (65536 * m.segIndex + 0)) (segLen v.length m.segIndex - 0)
      = segLen v.length m.segIndex := by
    unfold segLen
    omega
  show ∃ a : PeerMsg, Sends s (((s.requested m v r).deliver s.sch.nextCmd (zeros (min
    (65536 * (m.segIndex + 1) - (65536 * m.segIndex + 0)) (segLen v.length m.segIndex - 0)))).advanceRead
      s.sch.nextCmd 2) _ ∧ _
  rw [bytes]
  have kept := keeps_requested (s := s) (m := m) (v := v) (r := r)
  have nfe : (s.requested m v r).nfe = s.nfe := kept.same .nfe (by simp)
  have peer : (s.requested m v r).peer = s.peer := kept.same .peer (by simp)
  obtain ⟨found, peer', a, ⟨out, tx, all⟩, status, data⟩ := State.deliver_peer (x := x)
    (m := { m with offset := 65536 * m.segIndex, length := segLen v.length m.segIndex }) State.cmd?_requested rfl rfl (by rw [State.peerCtx, nfe]; exact ctx)
    (by rw [State.sealsTransit, peer]; exact plain) (zeros (segLen v.length m.segIndex))
  have done : ((repairRead m v r (s.variantSbs r m.variant)).served (zeros (segLen v.length m.segIndex))).readTotal
      ≤ ((repairRead m v r (s.variantSbs r m.variant)).served (zeros (segLen v.length m.segIndex))).pos := by
    show (repairRead m v r (s.variantSbs r m.variant)).readTotal ≤ 0 + (zeros (segLen v.length m.segIndex)).length
    rw [total]
    simp [zeros]
  refine ⟨a, ?_, status, data⟩
  rw [State.advanceRead_all found done, State.endRead_eq found]
  have ended := State.nfe_endCmd_served
    (m := { m with offset := 65536 * m.segIndex, length := segLen v.length m.segIndex }) found Stage.noConfusion rfl rfl rfl rfl rfl rfl
    (by rw [peer', peer]; exact empty)
  refine ⟨out, tx, ?_⟩
  rw [ended, all, nfe]

end Sys2Proof.Machine
end

section
/-! PROOFS. Revokes (O47): a restore waits at its key's gate, and one that reaches the front takes a key that its write
created (R435, R441). -/

namespace Sys2Proof.Machine

variable {o s t u : State} {p : Nat} {m : PeerMsg} {h : RevokeHold} {r : DirRec} {v : Variant}

/-! ## What the removal of a key leaves raised -/

theorem persists_finishRebuild (k : Persists o s) : Persists o s.finishRebuild :=
  persists_foldl _ (fun _ _ => persists_finish _ _ _ _) _ (persists_onIdx _ k)

theorem persists_markAgain (k : Persists o s) : Persists o s.markAgain := by
  unfold State.markAgain State.setMark
  refine persists_if k fun k => ?_
  split
  · exact persists_onIdx _ k
  · exact persists_finishRebuild k

theorem persists_setTable (x : Tbl (List (Option Slot))) (k : Persists o s) : Persists o (s.setTable x) := by
  unfold State.setTable
  exact persists_storageWritten _ _ (persists_onIdx _ k)

theorem persists_tableRemove (kh : W64) (key : Bytes) (k : Persists o s) : Persists o (s.tableRemove kh key) :=
  persists_setTable _ k

theorem persists_dropPins (kh : W64) (key : Bytes) (k : Persists o s) : Persists o (s.dropPins kh key) :=
  k.of_same rfl rfl rfl

theorem persists_addUsage (tenant : Nat) (bytes keys pins : Int) (k : Persists o s) :
    Persists o (s.addUsage tenant bytes keys pins) := k.of_same rfl rfl rfl

theorem persists_removeRecord (r : DirRec) (k : Persists o s) : Persists o (s.removeRecord r) :=
  persists_markAgain (persists_tableRemove _ _ (persists_onIdx _ (persists_releaseLoc _ k)))

theorem persists_queueMirror (c : MChange) (k : Persists o s) : Persists o (s.queueMirror c) :=
  persists_ite (persists_onIdx _ k) (persists_onIdx _ k)

theorem persists_recharge (old new : Option DirRec) (k : Persists o s) : Persists o (s.recharge old new) := by
  unfold State.recharge
  cases old <;> cases new
  · exact k
  · exact persists_addUsage _ _ _ _ k
  · exact persists_addUsage _ _ _ _ k
  · exact persists_addUsage _ _ _ _ (persists_addUsage _ _ _ _ k)

theorem State.gate_recharge (old new : Option DirRec) : (s.recharge old new).sch.gate = s.sch.gate := by
  unfold State.recharge
  cases old <;> cases new <;> rfl

theorem State.dir_removeRecord (r : DirRec) : (s.removeRecord r).idx.dir = dirRemove s.idx.dir r.key := by
  rw [State.removeRecord, State.dir_markAgain, State.tableRemove, State.dir_setTable]
  exact congrArg (dirRemove · r.key) (State.dir_releaseLoc r.loc)

/-! ## A key that the write created goes again (R435) -/

/-- A hold comes to its end. -/
def State.endHold (s : State) (h : RevokeHold) : State :=
  s.onPeer fun p => { p with revoke := p.revoke.filter fun x => !(x.kh = h.kh && decide (x.version = h.version)) }

/-- What a key holds is given up: its segments and its pins. -/
def State.disowned (s : State) (r : DirRec) : State :=
  let s := (s.drawMeta (s.pairLines 1)).releaseSegs r.segs
  (if r.pinned then s.queueMirror (.unpin r.kh r.key none) else s).dropPins r.kh r.key

/-- The state once a key that a write created has gone, before the event. -/
def State.uncreated (s : State) (h : RevokeHold) (r : DirRec) : State :=
  ((((s.endHold h).disowned r).recharge (some r) none).removeRecord r).commitLine 2 r h.version r.owner

theorem State.disowned_spec (r : DirRec) : Persists s (s.disowned r) ∧ (s.disowned r).idx.dir = s.idx.dir ∧
    (s.disowned r).sch = s.sch ∧ (s.disowned r).peer = s.peer := by
  have freed := persists_releaseSegs r.segs (persists_drawMeta (s.pairLines 1) (Persists.refl s))
  have kept := keeps_releaseSegs (r := fun q => q ≠ .idx ∧ q ≠ .sch ∧ q ≠ .peer) r.segs (keeps_drawMeta (s.pairLines 1)
    (Keeps.refl _ s) (by simp) (by simp) (by simp)) (by simp) (by simp) (by simp) (by simp)
  have dir : ((s.drawMeta (s.pairLines 1)).releaseSegs r.segs).idx.dir = s.idx.dir :=
    congrArg Idx.dir (kept.same .idx (by simp))
  have sch : ((s.drawMeta (s.pairLines 1)).releaseSegs r.segs).sch = s.sch := kept.same .sch (by simp)
  have peer : ((s.drawMeta (s.pairLines 1)).releaseSegs r.segs).peer = s.peer := kept.same .peer (by simp)
  unfold State.disowned
  generalize (s.drawMeta (s.pairLines 1)).releaseSegs r.segs = u at freed dir sch peer ⊢
  dsimp only
  split
  · have waits := keeps_queueMirror (r := (· = .idx)) (.unpin r.kh r.key none) (Keeps.refl _ u) rfl
    exact ⟨persists_dropPins _ _ (persists_queueMirror _ freed), (State.dir_queueMirror _).trans dir,
      (waits.same .sch (by simp)).trans sch, (waits.same .peer (by simp)).trans peer⟩
  · exact ⟨persists_dropPins _ _ freed, dir, sch, peer⟩

/-- What is left once a key that a write created has gone. -/
theorem State.uncreated_spec (h : RevokeHold) (r : DirRec) : Persists s (s.uncreated h r) ∧
    (s.uncreated h r).idx.dir = dirRemove s.idx.dir r.key ∧ (s.uncreated h r).sch.gate = s.sch.gate ∧
    (s.uncreated h r).peer = (s.endHold h).peer := by
  obtain ⟨stays, dir, sch, peer⟩ := State.disowned_spec (s := s.endHold h) r
  have charged := keeps_recharge (r := (· = .sch)) (some r) none (Keeps.refl _ ((s.endHold h).disowned r)) rfl
  have removed := keeps_removeRecord (r := fun q => q ≠ .sch ∧ q ≠ .peer) r
    (Keeps.refl _ (((s.endHold h).disowned r).recharge (some r) none)) (by simp) (by simp) (by simp) (by simp) (by simp)
      (by simp) (by simp) (by simp)
  have lined := keeps_commitLine (r := (· = .ldg)) 2 r h.version r.owner
    (Keeps.refl _ ((((s.endHold h).disowned r).recharge (some r) none).removeRecord r)) rfl
  refine ⟨persists_journal _ (persists_removeRecord _ (persists_recharge _ _
    ((persists_onPeer _ (Persists.refl s) : Persists s (s.endHold h)).trans stays))), ?_, ?_, ?_⟩
  · refine (congrArg Idx.dir (lined.same .idx (by simp))).trans ((State.dir_removeRecord r).trans ?_)
    rw [congrArg Idx.dir (charged.same .idx (by simp)), dir]
    rfl
  · refine (congrArg Sch.gate (lined.same .sch (by simp))).trans
      ((congrArg Sch.gate (removed.same .sch (by simp))).trans ((State.gate_recharge _ _).trans ?_))
    rw [sch]
    rfl
  · exact (lined.same .peer (by simp)).trans ((removed.same .peer (by simp)).trans
      ((charged.same .peer (by simp)).trans peer))

/-- A write that created the key, and with it its one variant, is undone by removing the key. -/
theorem RevokeHold.restored_created (part : h.whole = false) (created : h.before = none)
    (one : r.variants = [(h.variant, v)]) : h.restored (some r) = none := by
  have gone : tdel r.variants h.variant = [] := by simp [one, tdel]
  simp [RevokeHold.restored, part, created, gone]

theorem State.restore_created (part : h.whole = false) (created : h.before = none)
    (one : r.variants = [(h.variant, v)]) (found : dirFind s.idx.dir h.key = some r) :
    s.restore h = (s.uncreated h r).raise 1028 (item8 h.kh.toNat ++ item8 h.version) := by
  unfold State.restore
  rw [found]
  dsimp only
  rw [RevokeHold.restored_created part created one]
  rfl

/-! ## Restores at their gate (R435) -/

/-- A restore joins its key's gate. -/
def State.restoreWaits (s : State) (m : PeerMsg) : State :=
  s.onSch fun q => { q with gate := [⟨m.keyHash, s.gateWaiters m.keyHash, none, some m.version, none⟩] }

theorem exec_chainRevoke (heard : HeardFrom s 3 m p) (empty : s.sch.gate = []) (one : s.peer.revoke = [h])
    (key : h.kh = m.keyHash) (version : h.version = m.version) :
    exec (.chainRevoke m) s = .next (s.restoreWaits m).serveRestores := by
  show execChainRevoke m s = _
  rw [execChainRevoke, State.withMsg_of_heardFrom heard]
  have goes : ((s.peer.revoke.any fun h => h.kh = m.keyHash && decide (h.version = m.version))
      && !(s.sch.gate.any fun g => g.kh = m.keyHash && decide (g.revoke = some m.version))) = true := by
    simp [one, key, version, empty]
  have joins : (s.onSch fun q => { q with
      gate := q.gate ++ [⟨m.keyHash, s.gateWaiters m.keyHash, none, some m.version, none⟩] }) = s.restoreWaits m := by
    simp [State.restoreWaits, State.onSch, empty]
  exact congrArg Host.Outcome.next ((if_pos goes).trans (congrArg State.serveRestores joins))

/-- Behind a write that is not decided, a gate item is not at the front. -/
theorem State.itemFront_waiting {kh : W64} {g : GateItem} (wf : Tbl.wf s.sch.cmds = true)
    (behind : g.behind = s.gateWaiters kh) (some_ : s.gateWaiters kh ≠ []) : s.itemFront g = false := by
  obtain ⟨n, hn⟩ := List.exists_mem_of_ne_nil _ some_
  obtain ⟨e, he, rfl⟩ := List.mem_map.mp hn
  obtain ⟨listed, waits⟩ := List.mem_filter.mp he
  have found : s.cmd? e.1 = some e.2 := tget_of_mem wf listed
  have undecided : e.2.decided = false := by
    simp only [Bool.and_eq_true, Bool.not_eq_true'] at waits
    exact waits.1.1.2
  rw [State.itemFront, behind, List.all_eq_false]
  exact ⟨e.1, hn, by simp [found, undecided]⟩

theorem State.serveRestores_waiting (wf : Tbl.wf s.sch.cmds = true) (some_ : s.gateWaiters m.keyHash ≠ []) :
    (s.restoreWaits m).serveRestores = s.restoreWaits m := by
  have front : (s.restoreWaits m).itemFront ⟨m.keyHash, s.gateWaiters m.keyHash, none, some m.version, none⟩ = false :=
    State.itemFront_waiting (s := s.restoreWaits m) (kh := m.keyHash) wf rfl some_
  have none : ((s.restoreWaits m).sch.gate.filter fun g => g.revoke.isSome && (s.restoreWaits m).itemFront g) = [] := by
    show ([(⟨m.keyHash, s.gateWaiters m.keyHash, none, some m.version, none⟩ : GateItem)].filter _) = []
    simp [front]
  rw [State.serveRestores, none]
  rfl

/-- With no write waiting, the restore takes effect. -/
theorem State.serveRestores_front (nobody : s.gateWaiters m.keyHash = []) (one : s.peer.revoke = [h])
    (key : h.kh = m.keyHash) (version : h.version = m.version) (holds : s.holdsVersion h = true)
    (fits : s.restoreFits h = true) : (s.restoreWaits m).serveRestores
      = (s.onSch fun q => { q with gate := [] }).restore h := by
  have front : ((s.restoreWaits m).sch.gate.filter fun g => g.revoke.isSome && (s.restoreWaits m).itemFront g)
      = [⟨m.keyHash, s.gateWaiters m.keyHash, none, some m.version, none⟩] := by
    show ([(⟨m.keyHash, s.gateWaiters m.keyHash, none, some m.version, none⟩ : GateItem)].filter _) = _
    simp [State.itemFront, nobody]
  have found : ((s.restoreWaits m).peer.revoke.find? fun x => x.kh = m.keyHash && decide (some x.version = some m.version))
      = some h := by
    show (s.peer.revoke.find? _) = some h
    simp [one, key, version]
  have holds' : (s.restoreWaits m).holdsVersion h = true := holds
  have fits' : (s.restoreWaits m).restoreFits h = true := fits
  rw [State.serveRestores, front]
  simp only [List.foldl_cons, List.foldl_nil, found, holds', fits', Bool.not_true, Bool.false_eq_true, if_false, if_true]
  congr 1
  simp [State.restoreWaits, State.onSch]

end Sys2Proof.Machine
end

section
/-! PROOFS. What a peer's answer to a repair comes to, and a repair that no peer answers (R288, R438), with which O47 is
settled. -/

namespace Sys2Proof.Machine

variable {s t : State} {p rid : Nat} {m : PeerMsg} {r : Repair} {b : Bytes} {h : RevokeHold}

/-! ## What a local copy gives rests on CIP and the commands -/

/-- What a generation opens rests on CIP. -/
theorem State.openBytes_congr (cip : t.cip = s.cip) (gen : Nat) (w : SealWord) (aad ct tag : Bytes) :
    (t.openBytes gen w aad ct tag).1 = (s.openBytes gen w aad ct tag).1 := by
  have same : t.generation w.slot gen = s.generation w.slot gen := by
    simp only [State.generation, State.slot_of_cip cip]
  simp only [State.openBytes, same]
  split
  · rfl
  · split_ifs
    · rfl
    · split <;> rfl

theorem Seg.openedCopy_congr (g : Seg) {x y : Opened × State} (same : x.1 = y.1) :
    (g.openedCopy x).1 = (g.openedCopy y).1 := by
  obtain ⟨x, s⟩ := x
  obtain ⟨y, t⟩ := y
  cases show x = y from same
  cases x <;> rfl

theorem State.localBytes_congr (cip : t.cip = s.cip) (sch : t.sch = s.sch) (r : Repair) :
    (t.localBytes r).1 = (s.localBytes r).1 := by
  have gen (slot : Nat) : t.readerGen r slot = s.readerGen r slot := by
    have cmds : t.cmd? = s.cmd? := funext fun n => by rw [State.cmd?, State.cmd?, sch]
    simp only [State.readerGen, State.openGen, State.slot_of_cip cip, cmds]
  rw [State.localBytes, State.localBytes, State.readCopy_eq, State.readCopy_eq]
  split
  · cases (r.closed r.old).sealWord with
    | none => rfl
    | some w =>
      rw [Option.elim_some, Option.elim_some, gen]
      exact Seg.openedCopy_congr _ (State.openBytes_congr cip _ _ _ _ _)
  · rfl

/-! ## A good answer (R288, R438) -/

/-- The state once an answer has been recorded, and VAL's turn taken. -/
def State.repairAnswered (s : State) (r : Repair) (peer : Nat) : State :=
  ((s.raise 1030 (item8 r.kh.toNat ++ item4 r.seg ++ item2 peer)).bump Reg.PEER_REPAIR_STAT_REPAIRS).grantVal .normal 3

theorem State.peerCopy_failedCrc (entry : s.repair? rid = some r) (crc : r.failed = 0) (peer : Nat) (b : Bytes) :
    s.peerCopy rid peer b = if ((s.repairAnswered r peer).localBytes r).1 = .plain b then
      ((s.repairAnswered r peer).localBytes r).2.repairGood rid true peer b (some (r.closed r.old))
    else (((s.repairAnswered r peer).localBytes r).2.storeAnew r b).2.repairGood rid false peer b
      (((s.repairAnswered r peer).localBytes r).2.storeAnew r b).1 := by
  simp only [State.peerCopy, entry, crc, if_true]
  rfl

/-- The answer as it is classified: check values alone, or data recovered (R288). -/
def Repair.answerEvent (r : Repair) (peer : Nat) (check : Bool) : Ev :=
  let items := item8 (locWord r.old.loc) ++ item8 (locator r.kh r.variant r.seg).toNat ++ item2 peer
  if check then ⟨384, items⟩ else ⟨385, items ++ item1 0⟩

/-- The classification stands before all that the rewrite and the readers raise. -/
theorem State.raised_repairGood (entry : s.repair? rid = some r) (crc : r.failed = 0) (check : Bool) (peer : Nat)
    (g : Option Seg) : s.flt.raised ++ [r.answerEvent peer check] <+: (s.repairGood rid check peer b g).flt.raised := by
  have decoded : ¬ r.failed = 3 := by omega
  have untagged : ¬ r.failed = 2 := by omega
  simp only [State.repairGood, entry, if_neg decoded, if_neg untagged]
  have later {u : State} (told : u.flt.raised = s.flt.raised ++ [r.answerEvent peer check]) :
      s.flt.raised ++ [r.answerEvent peer check] <+: ((u.queueRewrite rid g).readersGo r b).flt.raised :=
    told ▸ (persists_readersGo r b (persists_queueRewrite rid g (Persists.refl u))).raised
  cases check
  · rw [if_neg Bool.false_ne_true, crc]
    exact later rfl
  · rw [if_pos rfl]
    exact later rfl

/-- The local read leaves what is raised and the repairs. -/
theorem State.localBytes_keeps (r : Repair) (u : State) :
    (u.localBytes r).2.flt = u.flt ∧ (u.localBytes r).2.val = u.val :=
  have kept := (keeps_localBytes (r := (· = .cip)) r (Keeps.refl _ u) rfl).snd
  ⟨kept.same .flt (by simp), kept.same .val (by simp)⟩

/-- A repair stays as it is while its answer is recorded and the local copy is read. -/
theorem State.repair?_answered (entry : s.repair? rid = some r) (peer : Nat) :
    ((s.repairAnswered r peer).localBytes r).2.repair? rid = some r := by
  rw [State.repair?, (State.localBytes_keeps r _).2]
  exact entry

theorem State.raised_answered (r : Repair) (peer : Nat) : ((s.repairAnswered r peer).localBytes r).2.flt.raised
    = s.flt.raised ++ [⟨1030, item8 r.kh.toNat ++ item4 r.seg ++ item2 peer⟩] := by
  rw [(State.localBytes_keeps r _).1]
  rfl

/-- The recording of an answer leaves what the local copy gives. -/
theorem State.localBytes_answered (r : Repair) (peer : Nat) :
    ((s.repairAnswered r peer).localBytes r).1 = (s.localBytes r).1 :=
  State.localBytes_congr (s := s) (t := s.repairAnswered r peer) rfl rfl r

/-- Where the local bytes agree with the peer's, only the check values were wrong. -/
theorem State.raised_peerCopy_agrees (entry : s.repair? rid = some r) (crc : r.failed = 0) (peer : Nat)
    (agrees : (s.localBytes r).1 = .plain b) :
    s.flt.raised ++ [⟨1030, item8 r.kh.toNat ++ item4 r.seg ++ item2 peer⟩, r.answerEvent peer true]
      <+: (s.peerCopy rid peer b).flt.raised := by
  rw [State.peerCopy_failedCrc entry crc, if_pos ((State.localBytes_answered r peer).trans agrees)]
  have told := State.raised_repairGood (b := b) (State.repair?_answered entry peer) crc true peer (some (r.closed r.old))
  rwa [State.raised_answered, List.append_assoc] at told

/-- Where they differ, the peer's bytes are stored anew before the repair is classified. -/
theorem State.raised_peerCopy_differs (entry : s.repair? rid = some r) (crc : r.failed = 0) (peer : Nat)
    (differs : (s.localBytes r).1 ≠ .plain b) : ∃ pre,
    s.flt.raised ++ [⟨1030, item8 r.kh.toNat ++ item4 r.seg ++ item2 peer⟩] ++ pre ++ [r.answerEvent peer false]
      <+: (s.peerCopy rid peer b).flt.raised := by
  rw [State.peerCopy_failedCrc entry crc, if_neg fun same => differs ((State.localBytes_answered r peer).symm.trans same)]
  have before := State.repair?_answered entry peer
  have told := State.raised_answered (s := s) r peer
  generalize ((s.repairAnswered r peer).localBytes r).2 = u at before told ⊢
  have val : (u.storeAnew r b).2.val = u.val :=
    ((keeps_storeAnew (r := (· ≠ .val)) r b (Keeps.refl _ u) (by simp) (by simp) (by simp) (by simp) (by simp) (by simp)
      (by simp)).snd.same .val (by simp))
  have entry' : (u.storeAnew r b).2.repair? rid = some r := by
    rw [State.repair?, val]
    exact before
  obtain ⟨pre, stored⟩ := (persists_storeAnew r b (Persists.refl u)).raised
  refine ⟨pre, ?_⟩
  rw [← told, stored]
  exact State.raised_repairGood entry' crc false peer _

theorem exec_repairResp (heard : HeardFrom s 5 m p) (asked : s.askedRepair m = some (rid, r)) :
    exec (.repairResp m) s = .next (if m.status = 0 ∧ m.data.length = r.old.logicalLen then s.peerCopy rid p m.data else s) := by
  have asked' : s.askedRepair (takenMsg p m m.data) = some (rid, r) := asked
  show execRepairResp m s = _
  rw [execRepairResp, State.withMsg_of_heardFrom heard]
  simp only [asked']
  rfl

/-! ## No answer in time (R438) -/

/-- The loss of a segment: its tag was the first check to fail, or another (R290, R314). -/
def Repair.lossEvent (r : Repair) : Ev :=
  if r.failed = 2 then ⟨418, item8 (locWord r.old.loc) ++ item2 ((r.old.sealWord.map (·.slot)).getD 0)
    ++ (r.old.sealWord.map SealWord.bytes).getD (zeros 16)⟩
  else ⟨386, item8 (locWord r.old.loc) ++ item8 (locator r.kh r.variant r.seg).toNat ++ item8 r.kh.toNat⟩

/-- The loss that nobody waits for. -/
theorem State.repairLost_unread (wf : Tbl.wf s.val.repairs = true) (entry : s.repair? rid = some r)
    (unread : r.readers = []) : (s.repairLost rid).repair? rid = none ∧
      (s.repairLost rid).flt.raised = s.flt.raised ++ [r.lossEvent] := by
  simp only [State.repairLost, entry, unread, List.foldl_nil, Repair.lossEvent]
  have gone : tget (tdel s.val.repairs rid) rid = none := tget_tdel_self _ _ wf
  split <;> split <;> exact ⟨gone, rfl⟩

theorem exec_repairTimeout (entry : s.repair? rid = some r) (asked : r.asked = true) (open_ : r.fixed = none) :
    exec (.repairTimeout rid) s = .next (((s.raise 1031 (item8 r.kh.toNat ++ item4 r.seg)).bump
      Reg.PEER_REPAIR_STAT_REPAIR_MISSES).repairLost rid) := by
  show execRepairTimeout rid s = _
  simp only [execRepairTimeout, entry, asked, open_, Option.isNone_none, and_self, if_true, State.peersFailed]

/-! ## A revoke of a key that its write created (R435, R441) -/

/-- With no write waiting, the key goes, and event 1028 comes after all that its removal raises. -/
theorem exec_chainRevoke_created {r : DirRec} {v : Variant} (heard : HeardFrom s 3 m p) (empty : s.sch.gate = [])
    (one : s.peer.revoke = [h]) (key : h.kh = m.keyHash) (version : h.version = m.version)
    (nobody : s.gateWaiters m.keyHash = []) (part : h.whole = false) (created : h.before = none)
    (dir : s.idx.dir = [r]) (isKey : r.key = h.key) (variants : r.variants = [(h.variant, v)])
    (same : v.version = h.version) :
    ∃ (t : State) (evs : List Ev), exec (.chainRevoke m) s = .next t ∧ t.idx.dir = [] ∧ t.sch.gate = [] ∧
      t.peer.revoke = [] ∧ t.flt.raised = s.flt.raised ++ evs ++ [⟨1028, item8 h.kh.toNat ++ item8 h.version⟩] := by
  have found : dirFind s.idx.dir h.key = some r := by simp [dirFind, dir, isKey]
  have holds : s.holdsVersion h = true := by simp [State.holdsVersion, part, found, variants, tget, same]
  have fits : s.restoreFits h = true := by
    rw [State.restoreFits, found, RevokeHold.restored_created part created variants]
  obtain ⟨stays, gone, gate, peer⟩ := State.uncreated_spec (s := s.onSch fun q => { q with gate := [] }) h r
  obtain ⟨evs, told⟩ := stays.raised
  refine ⟨((s.onSch fun q => { q with gate := [] }).uncreated h r).raise 1028 (item8 h.kh.toNat ++ item8 h.version), evs,
    ?_, gone.trans ?_, gate, (congrArg PeerSt.revoke peer).trans ?_, congrArg (· ++ [_]) told.symm⟩
  · rw [exec_chainRevoke heard empty one key version, State.serveRestores_front nobody one key version holds fits,
      State.restore_created part created variants (by exact found)]
  · show dirRemove s.idx.dir r.key = []
    simp [dirRemove, dir]
  · show s.peer.revoke.filter _ = []
    simp [one]

/-! ## A hold that ends (R435) -/

/-- A hold is taken out, and with it the restore that waits for it. -/
def State.holdOut (s : State) (h : RevokeHold) (kh : W64) (version : Nat) : State :=
  (s.onPeer fun p => { p with revoke := p.revoke.erase h }).onSch fun q => { q with
    gate := q.gate.filter fun g => !(g.kh = kh && decide (g.revoke = some version)) }

theorem exec_revokeHoldExpiry {kh : W64} {version : Nat}
    (found : (s.peer.revoke.find? fun h => h.kh = kh && decide (h.version = version)) = some h) :
    exec (.revokeHoldExpiry kh version) s = .next ((s.holdOut h kh version).releaseSegs h.dead) := by
  show execRevokeHoldExpiry kh version s = _
  simp only [execRevokeHoldExpiry, found, State.holdOut]

theorem onlyChanges_holdOut (h : RevokeHold) (kh : W64) (version : Nat) :
    OnlyChanges [.sch, .peer] s (s.holdOut h kh version) :=
  (keeps_onSch _ (keeps_onPeer _ (Keeps.refl (· ∈ [Part.sch, Part.peer]) s) (by simp)) (by simp)).onlyChanges

theorem State.mem_gate_holdOut (h : RevokeHold) (kh : W64) (version : Nat) (g : GateItem) :
    g ∈ (s.holdOut h kh version).sch.gate ↔ g ∈ s.sch.gate ∧ ¬(g.kh = kh ∧ g.revoke = some version) := by
  show g ∈ s.sch.gate.filter _ ↔ _
  rw [List.mem_filter, Bool.not_eq_true', ← Bool.not_eq_true, Bool.and_eq_true, decide_eq_true_iff, decide_eq_true_iff]

/-- Settles O47: a revoke by whether writes wait at its gate, a request by what the directory holds, an answer by whether
the local bytes agree. -/
theorem revokesAndRepairs : Obligations.RevokesAndRepairs := by
  unfold Obligations.RevokesAndRepairs
  refine ⟨fun s m p h heard empty one key version => ⟨fun some_ wf => ?_, fun r v nobody part created dir isKey variants same => ?_⟩,
    fun s kh version h found => ?_,
    fun s m p heard => ⟨fun r v g open_ found held same within stored => ?_, fun x ctx => ⟨?_, ?_, ?_, ?_⟩⟩,
    fun s m p rid r heard asked entry => ⟨?_, ?_, ?_⟩,
    fun s rid r wf entry asked open_ unread => ?_⟩
  · refine ⟨s.restoreWaits m, ?_, rfl, (keeps_onSch _ (Keeps.refl (· ∈ [Part.sch]) s) (by simp)).onlyChanges⟩
    rw [exec_chainRevoke heard empty one key version, State.serveRestores_waiting wf some_]
  · exact exec_chainRevoke_created heard empty one key version nobody part created dir isKey variants same
  · have kept := keeps_releaseSegs (r := fun q => q ≠ .sch ∧ q ≠ .peer) h.dead (Keeps.refl _ (s.holdOut h kh version))
      (by simp) (by simp) (by simp) (by simp)
    refine ⟨_, exec_revokeHoldExpiry found, kept.same .peer (by simp), fun g => ?_, fun dead => ?_⟩
    · rw [kept.same .sch (by simp)]
      exact State.mem_gate_holdOut h kh version g
    · rw [dead]
      exact onlyChanges_holdOut h kh version
  · refine ⟨_, _, (exec_repairReq_held heard open_ found held same within).trans (congrArg _
      (State.advanceRead_requested_stored (m := takenMsg p m m.data) held within stored)), State.cmd?_requested, rfl, rfl,
      rfl, rfl, rfl, rfl, rfl, keeps_requested.onlyChanges⟩
  · intro r v open_ found held same within hole plain empty
    obtain ⟨a, sent, status, data⟩ := State.advanceRead_requested_hole (m := takenMsg p m m.data) held within hole ctx plain
      empty
    exact ⟨_, a, exec_repairReq_held heard open_ found held same within, sent, status, data⟩
  · exact fun open_ absent => sends_repairReq_denied heard ctx (.inr ⟨open_, rfl, .inl absent⟩)
  · exact fun r v open_ found held other =>
      sends_repairReq_denied heard ctx (.inr ⟨open_, rfl, .inr ⟨r, v, found, held, other⟩⟩)
  · exact fun shed => sends_repairReq_denied heard ctx (.inl ⟨shed, rfl⟩)
  · intro ok length crc agrees
    obtain ⟨evs, told⟩ := State.raised_peerCopy_agrees entry crc p agrees
    exact ⟨_, evs, (exec_repairResp heard asked).trans (congrArg _ (if_pos ⟨ok, length⟩)), told.symm⟩
  · intro ok length crc differs
    obtain ⟨pre, evs, told⟩ := State.raised_peerCopy_differs entry crc p differs
    exact ⟨_, pre, evs, (exec_repairResp heard asked).trans (congrArg _ (if_pos ⟨ok, length⟩)), told.symm⟩
  · intro bad
    exact (exec_repairResp heard asked).trans (congrArg _ (if_neg fun good =>
      bad.elim (fun status => status good.1) fun length => length good.2))
  · obtain ⟨gone, told⟩ := State.repairLost_unread (s := (s.raise 1031 (item8 r.kh.toNat ++ item4 r.seg)).bump
      Reg.PEER_REPAIR_STAT_REPAIR_MISSES) wf entry unread
    refine ⟨_, r.lossEvent, exec_repairTimeout entry asked open_, gone, told.trans (List.append_assoc _ _ _),
      fun untagged => if_neg untagged, fun w tagged sealed => ?_⟩
    rw [Repair.lossEvent, if_pos tagged, sealed]
    rfl

end Sys2Proof.Machine
end
